-- ==== Sys2Proof/Word.lean ====
section
/-! DEFINITION. The words of the K1 (R4, R82) and its register numbers. -/

namespace Sys2Proof

/-- A 64-bit register value. -/
abbrev Word := BitVec 64
/-- A vector register (R82). -/
abbrev Vec := BitVec 256
/-- One byte. -/
abbrev Byte := BitVec 8
/-- A general register number g0-g31. -/
abbrev GReg := Fin 32
/-- A vector register number v0-v15. -/
abbrev VReg := Fin 16
/-- A mask register number k0-k3. -/
abbrev KReg := Fin 4
/-- A tile register number t0-t7. -/
abbrev TReg := Fin 8
/-- A network queue register number q0-q3. -/
abbrev QReg := Fin 4

end Sys2Proof
end

