-- ==== Sys2Proof/Machine/Bits.lean ====
section
/-! DEFINITION. The bit-field, sign-extension, byte-order and packing helpers of the decoder and of
the meanings (R4, R14, R15). -/

namespace Sys2Proof

/-- Bits `hi:lo` of a natural number (R4). -/
def bits (w hi lo : Nat) : Nat := w / 2 ^ lo % 2 ^ (hi + 1 - lo)

/-- Bit `i` of a natural number. -/
def bitAt (w i : Nat) : Bool := w / 2 ^ i % 2 == 1

/-- The signed value of the low `n` bits of `x` (R15 `sext`). -/
def signed (n x : Nat) : Int :=
  let y := x % 2 ^ n
  if 2 * y < 2 ^ n then (y : Int) else (y : Int) - (2 ^ n : Nat)

/-- An integer kept modulo `2^n` (R14). -/
def wrap (n : Nat) (x : Int) : Nat := (x % ((2 ^ n : Nat) : Int)).toNat

/-- `x` with bits `hi:lo` replaced by the low bits of `v`. -/
def putBits (x hi lo v : Nat) : Nat :=
  let m := 2 ^ (hi + 1 - lo)
  x - (x / 2 ^ lo % m) * 2 ^ lo + v % m * 2 ^ lo

/-- 1 for true, 0 for false. -/
def b2n (b : Bool) : Nat := if b then 1 else 0

/-- The 56-bit address space (R151). -/
def addrSpace : Nat := 2 ^ 56

/-- The low 56 bits of a register: the address of a fat pointer (R21, R151). -/
def addrOf (w : Word) : Nat := w.toNat % addrSpace

/-- An address plus a signed step, modulo `2^56`. -/
def addrAdd (a : Nat) (d : Int) : Nat := wrap 56 ((a : Int) + d)

/-- `n` bytes of `x`, lowest first (R4). -/
def toBytes : Nat → Nat → List Byte
  | 0, _ => []
  | n + 1, x => BitVec.ofNat 8 x :: toBytes n (x / 256)

/-- The number whose bytes, lowest first, are `bs` (R4). -/
def ofBytes : List Byte → Nat
  | [] => 0
  | b :: bs => b.toNat + 256 * ofBytes bs

/-- Element `i` of width `w` bits of a packed value. -/
def lane (x w i : Nat) : Nat := x / 2 ^ (w * i) % 2 ^ w

/-- Replace element `i` of width `w` bits of a packed value. -/
def setLane (x w i v : Nat) : Nat :=
  x - lane x w i * 2 ^ (w * i) + v % 2 ^ w * 2 ^ (w * i)

/-- The packed value of a list of elements of `w` bits, element 0 lowest. -/
def packLanes (w : Nat) : List Nat → Nat
  | [] => 0
  | v :: vs => v % 2 ^ w + 2 ^ w * packLanes w vs

/-- The `n` elements of width `w` of a packed value. -/
def lanes (x w n : Nat) : List Nat := (List.range n).map (lane x w)

/-- The number of one bits below bit `n`. -/
def popCount : Nat → Nat → Nat
  | 0, _ => 0
  | n + 1, x => x % 2 + popCount n (x / 2)

/-- The bit length of `x`: the least `n` with `x < 2^n`. -/
def bitLen (x : Nat) : Nat := if x = 0 then 0 else Nat.log2 x + 1

/-- `ceil (a / b)`. -/
def ceilDiv (a b : Nat) : Nat := (a + b - 1) / b

/-- Keep the first `n` elements. -/
def capTo {α : Type} (n : Nat) (l : List α) : List α := l.take n

end Sys2Proof
end

