-- ==== Sys2Proof/Types.lean ====
section
/-! DEFINITION. The names the manual gives to operands, modifiers, formats, causes and places: one
inductive type for each fixed set of names (R7, R20, R75, R92, R175). -/

namespace Sys2Proof

/-- Scopes (R7). -/
inductive Scope where
  | none | core | clu | die | pkg | ten | sys
  deriving DecidableEq, Repr

/-- Access widths (R75). -/
inductive Width where
  | b | h | w | d
  deriving DecidableEq, Repr

/-- Rounding modes (R32). -/
inductive Rounding where
  | rne | rtz | rup | rdn
  deriving DecidableEq, Repr

/-- RD and RM together (R124, R161, R212): FPCTL.RM, or a written mode. With RD = 0, RM is 0. -/
inductive RoundSel where
  | fpctl
  | by (r : Rounding)
  deriving DecidableEq, Repr

/-- The working formats of scalar instructions and the accumulator formats (R75, R124). -/
inductive FloatFmt where
  | f32 | f16 | bf16
  deriving DecidableEq, Repr

/-- The six floating-point formats (R22), by their format codes 1-6. -/
inductive FloatCode where
  | fp32 | fp16 | bf16 | e4m3 | e5m2 | e2m1
  deriving DecidableEq, Repr

/-- Integer types of FCVTI and ICVTF (R129). -/
inductive IntTy where
  | i32 | u32 | i64 | u64
  deriving DecidableEq, Repr

/-- Vector element types (R75). -/
inductive EType where
  | i8 | i16 | i32 | f32 | f16 | bf16 | e4m3 | e2m1 | u8 | e5m2
  deriving DecidableEq, Repr

/-- Conditions of VCMP (R134). -/
inductive VCond where
  | eq | ne | lt | le | gt | ge | un
  deriving DecidableEq, Repr

/-- Dataflows (R208). -/
inductive Dataflow where
  | ip | op | rw
  deriving DecidableEq, Repr

/-- Kinds of PREF (R160). -/
inductive PrefKind where
  | readL1 | readL2 | write
  deriving DecidableEq, Repr

/-- The vector type of VLDF and VSTF (R165). -/
inductive VecFmt where
  | f32 | f16 | bf16 | own
  deriving DecidableEq, Repr

/-- Where a strand stands: module, die, cluster, core and slot (R88). -/
structure Place where
  mod  : Nat
  die  : Nat
  clu  : Nat
  core : Nat
  slot : Nat
  deriving DecidableEq, Repr

/-- The synchronous and asynchronous causes (R92). -/
inductive Cause where
  | illegalInstr | illegalBundle | reservedField | priv | align | placement | prot
  | remoteAtomicDenied | writeProtect | dataError | streamEnd | tileShape | barrierOverflow
  | capDenied | scopeClamp | klFault | packetOpen | software | preempt | interrupt
  deriving DecidableEq, Repr

/-- Access kinds of EINFO (R92). -/
inductive Access where
  | load | store | atomic | fetch | launch
  deriving DecidableEq, Repr

/-- Park reasons (R175). -/
inductive ParkReason where
  | mem | stream | waitw | wfe | barrier | gsync | qrecv | power | page | engine | klwait
  | fence | course | realign | doubleTrap
  deriving DecidableEq, Repr

/-- The read-modify-write operations of atomics (R167). -/
inductive AmoOp where
  | add | and | or | xor | min | max | minu | maxu | swp | cas | fadd | fmax
  deriving DecidableEq, Repr

/-- Where an uncorrectable error arises (R320, R265). -/
inductive ErrSite where
  | cleanL1 (core line sector : Nat)
  | dirtyL1 (core addr : Nat)
  | l2 (die addr : Nat)
  | pinned (mod tenant off : Nat)
  | dram (mod granule : Nat)
  | tcm (core off : Nat)
  | scratchpad (clu off : Nat)
  | icache (clu blk : Nat)
  | ring (clu off : Nat)
  | migration (mod idx : Nat)
  /-- The header of a flit on its way to a router of Mortar (R400). -/
  | flit (mod node : Nat)
  deriving DecidableEq, Repr

/-- A field of a VF's policy record that system software changes (R375, R293), the root of the package's page table
(R309), or the module budget in steps of 0.5 kW (R387). -/
inductive PolicyField where
  | en (v : Bool) | part (v : Nat) | slice (us : Nat) | maxscope (v : Nat) (trap : Bool)
  | wayshare (v : Nat) | pin (ways base : Nat) | rtbase (v : Nat) | faultq (v : Word)
  | evec (v : Word) | escratch (v : Word) | quota (v : Nat) | nctx (n : Nat) | ctxbase (v : Nat)
  | savebase (v : Nat) | hostport (v : Bool) | enrol (v : Bool)
  | updtab (n base stride len nrows : Nat) (merge : Bool) (mcap : Nat)
  | ptRoot (v : Nat) | budget (halfKw : Nat)
  deriving DecidableEq, Repr

/-- A failure of a package that is logged (R388). -/
inductive Failure where
  | die | hostPort | ochre | portDie | image
  deriving DecidableEq, Repr

/-- What a firmware fetch returned (R384): whether an image arrived, its size, its public key with the key's index, its
signature, its version, and SHA-384 of its body. -/
structure FwImage where
  arrived  : Bool
  bytes    : Nat
  key      : BitVec 768
  keyIndex : Nat
  sig      : BitVec 768
  version  : Nat
  digest   : BitVec 384
  deriving DecidableEq, Repr

/-- A hard partition (R376). -/
structure PartCfg where
  clusters : List (Nat × Nat)
  slots    : Nat
  banks    : Nat
  wayBase  : Nat
  ways     : Nat
  deriving DecidableEq, Repr

end Sys2Proof
end

