-- ==== Sys2Proof/Machine/Codes.lean ====
section
/-! DEFINITION. The codes the manual gives to scopes, widths, formats, element types, conditions,
causes and park reasons, and the keys that name a place in State's maps. -/

namespace Sys2Proof

/-- The 3-bit code of a scope (R7). -/
def Scope.code : Scope → Nat
  | .none => 0 | .core => 1 | .clu => 2 | .die => 3 | .pkg => 4 | .ten => 5 | .sys => 6

/-- The scope of a 3-bit code; 7 is reserved and caught by the decoder. -/
def Scope.ofCode : Nat → Scope
  | 1 => .core | 2 => .clu | 3 => .die | 4 => .pkg | 5 => .ten | 6 => .sys | _ => .none

def Width.code : Width → Nat
  | .b => 0 | .h => 1 | .w => 2 | .d => 3

def Width.ofCode : Nat → Width
  | 0 => .b | 1 => .h | 2 => .w | _ => .d

/-- The width in bytes (R75). -/
def Width.bytes : Width → Nat
  | .b => 1 | .h => 2 | .w => 4 | .d => 8

def Rounding.code : Rounding → Nat
  | .rne => 0 | .rtz => 1 | .rup => 2 | .rdn => 3

def Rounding.ofCode : Nat → Rounding
  | 0 => .rne | 1 => .rtz | 2 => .rup | _ => .rdn

def FloatFmt.code : FloatFmt → Nat
  | .f32 => 0 | .f16 => 1 | .bf16 => 2

def FloatFmt.ofCode : Nat → FloatFmt
  | 0 => .f32 | 1 => .f16 | _ => .bf16

def FloatCode.code : FloatCode → Nat
  | .fp32 => 1 | .fp16 => 2 | .bf16 => 3 | .e4m3 => 4 | .e5m2 => 5 | .e2m1 => 6

def FloatCode.ofCode : Nat → FloatCode
  | 1 => .fp32 | 2 => .fp16 | 3 => .bf16 | 4 => .e4m3 | 5 => .e5m2 | _ => .e2m1

def FloatFmt.toCode : FloatFmt → FloatCode
  | .f32 => .fp32 | .f16 => .fp16 | .bf16 => .bf16

def IntTy.code : IntTy → Nat
  | .i32 => 0 | .u32 => 1 | .i64 => 2 | .u64 => 3

def IntTy.ofCode : Nat → IntTy
  | 0 => .i32 | 1 => .u32 | 2 => .i64 | _ => .u64

/-- The four bits etype:ALT as they lie in AV bits 8:5. -/
def EType.code : EType → Nat
  | .i8 => 0 | .i16 => 2 | .i32 => 4 | .f32 => 6 | .f16 => 8 | .bf16 => 10 | .e4m3 => 12
  | .e2m1 => 14 | .u8 => 1 | .e5m2 => 13

def EType.ofCode? : Nat → Option EType
  | 0 => some .i8 | 2 => some .i16 | 4 => some .i32 | 6 => some .f32 | 8 => some .f16
  | 10 => some .bf16 | 12 => some .e4m3 | 14 => some .e2m1 | 1 => some .u8 | 13 => some .e5m2
  | _ => Option.none

/-- The element width in bits (R75). -/
def EType.width : EType → Nat
  | .i8 => 8 | .i16 => 16 | .i32 => 32 | .f32 => 32 | .f16 => 16 | .bf16 => 16 | .e4m3 => 8
  | .e2m1 => 4 | .u8 => 8 | .e5m2 => 8

/-- Elements in a 256-bit vector (R75). -/
def EType.count (t : EType) : Nat := 256 / t.width

/-- INT of R130. -/
def EType.isInt : EType → Bool
  | .i8 | .i16 | .i32 | .u8 => true
  | .f32 | .f16 | .bf16 | .e4m3 | .e2m1 | .e5m2 => false

/-- WF of R130. -/
def EType.isWF : EType → Bool
  | .f32 | .f16 | .bf16 => true
  | .i8 | .i16 | .i32 | .u8 | .e4m3 | .e2m1 | .e5m2 => false

def VCond.code : VCond → Nat
  | .eq => 0 | .ne => 1 | .lt => 2 | .le => 3 | .gt => 4 | .ge => 5 | .un => 6

def VCond.ofCode : Nat → VCond
  | 0 => .eq | 1 => .ne | 2 => .lt | 3 => .le | 4 => .gt | 5 => .ge | _ => .un

def Dataflow.code : Dataflow → Nat
  | .ip => 0 | .op => 1 | .rw => 2

def Dataflow.ofCode : Nat → Dataflow
  | 0 => .ip | 1 => .op | _ => .rw

def PrefKind.code : PrefKind → Nat
  | .readL1 => 0 | .readL2 => 1 | .write => 2

def PrefKind.ofCode : Nat → PrefKind
  | 0 => .readL1 | 1 => .readL2 | _ => .write

def VecFmt.code : VecFmt → Nat
  | .f32 => 0 | .f16 => 1 | .bf16 => 2 | .own => 3

def VecFmt.ofCode : Nat → VecFmt
  | 0 => .f32 | 1 => .f16 | 2 => .bf16 | _ => .own

/-- Keys of the sparse maps of State: a die, cluster, core or slot of a module as one number. -/
def dieKey (mod die : Nat) : Nat := mod * 64 + die
def cluKey (mod die clu : Nat) : Nat := dieKey mod die * 512 + clu
def coreKey (mod die clu core : Nat) : Nat := cluKey mod die clu * 16 + core
def Place.dieKey (p : Place) : Nat := Sys2Proof.dieKey p.mod p.die
def Place.cluKey (p : Place) : Nat := Sys2Proof.cluKey p.mod p.die p.clu
def Place.coreKey (p : Place) : Nat := Sys2Proof.coreKey p.mod p.die p.clu p.core
def Place.key (p : Place) : Nat := p.coreKey * 16 + p.slot

/-- The place a slot key names. -/
def Place.ofKey (k : Nat) : Place :=
  { mod := k / 16 / 16 / 512 / 64, die := k / 16 / 16 / 512 % 64, clu := k / 16 / 16 % 512,
    core := k / 16 % 16, slot := k % 16 }

/-- The code written to ECAUSE.CODE (R92). -/
def Cause.code : Cause → Nat
  | .illegalInstr => 0x01 | .illegalBundle => 0x02 | .reservedField => 0x03 | .priv => 0x04
  | .align => 0x05 | .placement => 0x06 | .prot => 0x08 | .remoteAtomicDenied => 0x0A
  | .writeProtect => 0x0B | .dataError => 0x0C | .streamEnd => 0x10 | .tileShape => 0x11
  | .barrierOverflow => 0x12 | .capDenied => 0x13 | .scopeClamp => 0x14 | .klFault => 0x15
  | .packetOpen => 0x16 | .software => 0x18 | .preempt => 0x20 | .interrupt => 0x21

/-- A cause of a memory access, whose EINFO has the layout of R92. -/
def Cause.ofMemory : Cause → Bool
  | .align | .placement | .prot | .remoteAtomicDenied | .writeProtect | .dataError => true
  | _ => false

/-- ECAUSE.ASYNC of a cause (R92). -/
def Cause.isAsync : Cause → Bool
  | .preempt | .interrupt => true
  | .illegalInstr | .illegalBundle | .reservedField | .priv | .align | .placement | .prot
  | .remoteAtomicDenied | .writeProtect | .dataError | .streamEnd | .tileShape
  | .barrierOverflow | .capDenied | .scopeClamp | .klFault | .packetOpen | .software => false

def Access.code : Access → Nat
  | .load => 0 | .store => 1 | .atomic => 2 | .fetch => 3 | .launch => 4

/-- The code of a park reason (R175). -/
def ParkReason.code : ParkReason → Nat
  | .mem => 1 | .stream => 2 | .waitw => 3 | .wfe => 4 | .barrier => 5 | .gsync => 6
  | .qrecv => 7 | .power => 8 | .page => 9 | .engine => 10 | .klwait => 11 | .fence => 12
  | .course => 13 | .realign => 14 | .doubleTrap => 15

end Sys2Proof
end

