-- ==== Sys2Proof/Machine/Store.lean ====
section
/-! DEFINITION. The two sparse stores of State: a byte memory as a list of (address, byte) pairs in
one canonical form, and a map from numbers to records with a value for unlisted keys. -/

namespace Sys2Proof

/-- A byte memory: rising addresses, no entry equal to what an unlisted address reads as. -/
abbrev Memory := List Host.Cell

/-- What an unlisted byte reads as. DESIGN CHOICE (log 5): the manual gives no reset contents. -/
def Memory.unlisted : Byte := 0

/-- The byte at an address. -/
def Memory.read : Memory → Nat → Byte
  | [], _ => Memory.unlisted
  | (k, b) :: rest, a => if k = a then b else Memory.read rest a

/-- Put a byte into its place, or take the entry away when the byte is the unlisted one. -/
def Memory.write : Memory → Nat → Byte → Memory
  | [], a, v => if v = Memory.unlisted then [] else [(a, v)]
  | (k, b) :: rest, a, v =>
    if a < k then (if v = Memory.unlisted then (k, b) :: rest else (a, v) :: (k, b) :: rest)
    else if a = k then (if v = Memory.unlisted then rest else (k, v) :: rest)
    else (k, b) :: Memory.write rest a v

/-- Every address of the list is above `lo`. -/
def Memory.above (lo : Option Nat) : Memory → Bool
  | [] => true
  | (k, b) :: rest =>
    (match lo with | none => true | some l => decide (l < k)) && decide (b ≠ Memory.unlisted)
      && Memory.above (some k) rest

/-- The canonical form of a memory. -/
def Memory.wf (m : Memory) : Bool := Memory.above none m

/-- `n` bytes from `a`, lowest first, as a number (R4). -/
def Memory.readN (m : Memory) (a : Nat) : Nat → Nat
  | 0 => 0
  | n + 1 => (m.read a).toNat + 256 * Memory.readN m (a + 1) n

/-- Write the `n` low bytes of `x` from `a`, lowest first (R4). -/
def Memory.writeN (m : Memory) (a : Nat) : Nat → Nat → Memory
  | 0, _ => m
  | n + 1, x => Memory.writeN (m.write a (BitVec.ofNat 8 x)) (a + 1) n (x / 256)

/-- Write those of the `n` low bytes of `x` whose bit of `mask` is set. -/
def Memory.writeMask (m : Memory) (a : Nat) : Nat → Nat → Nat → Memory
  | 0, _, _ => m
  | n + 1, mask, x =>
    Memory.writeMask (if mask % 2 = 1 then m.write a (BitVec.ofNat 8 x) else m) (a + 1) n
      (mask / 2) (x / 256)

/-- The record of a key in a sparse map; `d` for an unlisted key. -/
def fget {α : Type} (d : α) : List (Nat × α) → Nat → α
  | [], _ => d
  | (k, v) :: rest, key => if k = key then v else fget d rest key

/-- Replace the record of a key, keys rising. -/
def fset {α : Type} : List (Nat × α) → Nat → α → List (Nat × α)
  | [], key, x => [(key, x)]
  | (k, v) :: rest, key, x =>
    if key < k then (key, x) :: (k, v) :: rest
    else if key = k then (key, x) :: rest
    else (k, v) :: fset rest key x

/-- Remove every entry of a key. -/
def fdel {α : Type} (m : List (Nat × α)) (key : Nat) : List (Nat × α) :=
  m.filter fun e => decide (e.1 ≠ key)

/-- Whether a key is listed. -/
def fhas {α : Type} (m : List (Nat × α)) (key : Nat) : Bool := m.any fun e => decide (e.1 = key)

/-- Element `i` of a list, `d` past its end. -/
def nth {α : Type} (d : α) : List α → Nat → α
  | [], _ => d
  | x :: _, 0 => x
  | _ :: xs, i + 1 => nth d xs i

/-- Replace element `i` of a list of any length. -/
def setNth {α : Type} : List α → Nat → α → List α
  | [], _, _ => []
  | _ :: xs, 0, v => v :: xs
  | x :: xs, i + 1, v => x :: setNth xs i v

/-- Remove the first element that meets a test. -/
def dropFirst {α : Type} (p : α → Bool) : List α → List α
  | [] => []
  | x :: xs => if p x then xs else x :: dropFirst p xs

/-- Replace the first element that meets a test. -/
def mapFirst {α : Type} (p : α → Bool) (f : α → α) : List α → List α
  | [] => []
  | x :: xs => if p x then f x :: xs else x :: mapFirst p f xs

/-- Split a list at the first element that meets a test. -/
def splitFirst {α : Type} (p : α → Bool) : List α → Option (List α × α × List α)
  | [] => none
  | x :: xs =>
    if p x then some ([], x, xs)
    else
      match splitFirst p xs with
      | none => none
      | some (b, y, c) => some (x :: b, y, c)

/-- Byte `i` of a packed run of bytes. -/
def byteAt (x i : Nat) : Nat := x / 256 ^ i % 256

/-- The first `n` bytes, byte `i` from `y` where bit `i` of `mask` is set and from `x` elsewhere. -/
def mergeBytes : Nat → Nat → Nat → Nat → Nat
  | 0, _, _, _ => 0
  | n + 1, mask, x, y =>
    (if mask % 2 = 1 then y % 256 else x % 256) + 256 * mergeBytes n (mask / 2) (x / 256) (y / 256)

/-- `n` ones from bit `lo`. -/
def maskRange (lo n : Nat) : Nat := (2 ^ n - 1) * 2 ^ lo

end Sys2Proof
end

