-- ==== Sys2Proof/Machine/NumFmt.lean ====
section
/-! DEFINITION. Number formats, rounding, flags, the random generator, quad-fused summation, the
exponential and the codec of blocked records (R20-R39). -/

namespace Sys2Proof

/-- An exact value (R23): NaN, an infinity, or `(-1)^neg * m * 2^e` with the sign of a zero kept. -/
inductive Num where
  | nan
  | inf (neg : Bool)
  | fin (neg : Bool) (m : Nat) (e : Int)
  deriving DecidableEq, Repr

/-- Flags of R35 as bits NV DZ OF UF NX from bit 4 down, in the order of FPCTL bits 8:4. -/
def flNV : Nat := 16
def flDZ : Nat := 8
def flOF : Nat := 4
def flUF : Nat := 2
def flNX : Nat := 1

/-! ### The six floating-point formats (R22) -/

/-- Width in bits. -/
def FloatCode.width : FloatCode → Nat
  | .fp32 => 32 | .fp16 => 16 | .bf16 => 16 | .e4m3 => 8 | .e5m2 => 8 | .e2m1 => 4

/-- Fraction width. -/
def FloatCode.frac : FloatCode → Nat
  | .fp32 => 23 | .fp16 => 10 | .bf16 => 7 | .e4m3 => 3 | .e5m2 => 2 | .e2m1 => 1

/-- Exponent bias. -/
def FloatCode.bias : FloatCode → Nat
  | .fp32 => 127 | .fp16 => 15 | .bf16 => 127 | .e4m3 => 7 | .e5m2 => 15 | .e2m1 => 1

/-- Exponent width. -/
def FloatCode.ebits (f : FloatCode) : Nat := f.width - 1 - f.frac

/-- The format has infinities (R23). -/
def FloatCode.hasInf : FloatCode → Bool
  | .fp32 | .fp16 | .bf16 | .e5m2 => true
  | .e4m3 | .e2m1 => false

/-- The code of the largest finite value (R22). -/
def FloatCode.maxCode : FloatCode → Nat
  | .fp32 => 0x7F7FFFFF | .fp16 => 0x7BFF | .bf16 => 0x7F7F | .e4m3 => 0x7E | .e5m2 => 0x7B
  | .e2m1 => 7

/-- The canonical NaN (R33); E2M1 has none and takes 0. -/
def FloatCode.nanCode : FloatCode → Nat
  | .fp32 => 0x7FC00000 | .fp16 => 0x7E00 | .bf16 => 0x7FC0 | .e4m3 => 0x7F | .e5m2 => 0x7E
  | .e2m1 => 0

/-- The code of +infinity where the format has one. -/
def FloatCode.infCode (f : FloatCode) : Nat := (2 ^ f.ebits - 1) * 2 ^ f.frac

/-- Stochastic underflow applies (R34). -/
def FloatCode.stochastic : FloatCode → Bool
  | .e4m3 | .e5m2 | .e2m1 => true
  | .fp32 | .fp16 | .bf16 => false

/-- The exponent of the smallest nonzero value (R22). -/
def FloatCode.qmin (f : FloatCode) : Int := 1 - (f.bias : Int) - (f.frac : Int)

/-- The exact value of a code (R23, R24). -/
def decodeNum (f : FloatCode) (x : Nat) : Num :=
  let neg := bitAt x (f.width - 1)
  let e := bits x (f.width - 2) f.frac
  let m := x % 2 ^ f.frac
  if e = 0 then .fin neg m f.qmin
  else if f.hasInf && decide (e = 2 ^ f.ebits - 1) then (if m = 0 then .inf neg else .nan)
  else if f = .e4m3 ∧ e = 15 ∧ m = 7 then .nan
  else .fin neg (2 ^ f.frac + m) ((e : Int) - (f.bias : Int) - (f.frac : Int))

/-! ### Rounding (R31-R34) -/

/-- `m / 2^s` rounded by a mode (R32), and whether bits were lost. -/
def shiftRound (mode : Rounding) (neg : Bool) (m s : Nat) : Nat × Bool :=
  let q := m / 2 ^ s
  let r := m % 2 ^ s
  let up := match mode with
    | .rne => decide (2 ^ s < 2 * r) || (decide (2 ^ s = 2 * r) && decide (q % 2 = 1))
    | .rtz => false
    | .rup => decide (r ≠ 0) && !neg
    | .rdn => decide (r ≠ 0) && neg
  (if up && decide (s ≠ 0) then q + 1 else q, decide (r ≠ 0))

/-- `m * 2^e` as a multiple of `2^t`, rounded. -/
def roundTo (mode : Rounding) (neg : Bool) (m : Nat) (e t : Int) : Nat × Bool :=
  if t ≤ e then (m * 2 ^ (e - t).toNat, false) else shiftRound mode neg m (t - e).toNat

/-- The result of an overflow (R33). -/
def overflowCode (f : FloatCode) (mode : Rounding) (neg : Bool) : Nat :=
  if f.hasInf then
    match mode with
    | .rne => f.infCode
    | .rtz => f.maxCode
    | .rup => if neg then f.maxCode else f.infCode
    | .rdn => if neg then f.infCode else f.maxCode
  else f.maxCode

/-- Round an exact value into a format by a mode: the code and the flags (R31-R33, R35). DEDUCED (log 52): a value lies
beyond the largest finite value when it does so once rounded with an unbounded exponent, so that 65,505 into FP16 and 450
into E4M3 in RNE give the largest value with NX alone. -/
def roundNum (f : FloatCode) (mode : Rounding) (x : Num) : Nat × Nat :=
  let sg (neg : Bool) : Nat := b2n neg * 2 ^ (f.width - 1)
  match x with
  | .nan => (f.nanCode, if f = .e2m1 then flNV else 0)
  | .inf neg =>
    if f.hasInf then (sg neg + f.infCode, 0) else (sg neg + f.maxCode, flOF + flNX)
  | .fin neg m e =>
    if m = 0 then (sg neg, 0)
    else
      let top := e + (bitLen m : Int) - 1
      let emin := 1 - (f.bias : Int)
      let t := (if top < emin then emin else top) - (f.frac : Int)
      let (q, inexact) := roundTo mode neg m e t
      let carry := decide (2 ^ (f.frac + 1) ≤ q)
      let q' := if carry then q / 2 else q
      let t' := if carry then t + 1 else t
      let code :=
        if q' < 2 ^ f.frac then q'
        else (t' + (f.frac : Int) + (f.bias : Int)).toNat * 2 ^ f.frac + (q' - 2 ^ f.frac)
      if f.maxCode < code then (sg neg + overflowCode f mode neg, flOF + flNX)
      else
        (sg neg + code,
          (if inexact then flNX else 0) + (if inexact && decide (top < emin) then flUF else 0))

/-- One advance of the generator (R36). -/
def xorshift (x : BitVec 32) : BitVec 32 :=
  let a := if x = 0 then 1#32 else x
  let b := a ^^^ (a <<< 13)
  let c := b ^^^ (b >>> 17)
  c ^^^ (c <<< 5)

/-- `floor (m * 2^(24 + e))`. -/
def threshold (m : Nat) (e : Int) : Nat :=
  if 0 ≤ e + 24 then m * 2 ^ (e + 24).toNat else m / 2 ^ (-(e + 24)).toNat

/-- Round with the stochastic rule of R34 where it applies: code, flags and the generator. -/
def roundSt (f : FloatCode) (mode : Rounding) (x : Num) (seed : BitVec 32) :
    Nat × Nat × BitVec 32 :=
  let plain := let (c, fl) := roundNum f mode x; (c, fl, seed)
  match x with
  | .fin neg m e =>
    if f.stochastic && decide (m ≠ 0) && decide (e + (bitLen m : Int) - 1 < f.qmin) then
      let s' := xorshift seed
      let u := s'.toNat / 256
      let hit := decide (u < threshold m (e - f.qmin))
      (b2n neg * 2 ^ (f.width - 1) + b2n hit, flUF + flNX, s')
    else plain
  | .nan | .inf _ => plain

/-! ### Exact arithmetic -/

/-- The value negated. -/
def Num.neg : Num → Num
  | .nan => .nan
  | .inf n => .inf !n
  | .fin n m e => .fin (!n) m e

/-- `±m * 2^e` as a signed multiple of `2^t`, `t ≤ e`. -/
def scaled (neg : Bool) (m : Nat) (e t : Int) : Int :=
  let v : Int := (m * 2 ^ (e - t).toNat : Nat)
  if neg then -v else v

/-- The exact sum (R31), with NV for ∞ − ∞ (R35). -/
def addNum (mode : Rounding) (x y : Num) : Num × Nat :=
  match x, y with
  | .nan, _ => (.nan, 0)
  | _, .nan => (.nan, 0)
  | .inf a, .inf b => if a = b then (.inf a, 0) else (.nan, flNV)
  | .inf a, .fin _ _ _ => (.inf a, 0)
  | .fin _ _ _, .inf b => (.inf b, 0)
  | .fin a m e, .fin b n d =>
    if m = 0 ∧ n = 0 then (.fin (if a = b then a else decide (mode = .rdn)) 0 0, 0)
    else
      let t := min e d
      let v := scaled a m e t + scaled b n d t
      if v = 0 then (.fin (decide (mode = .rdn)) 0 0, 0)
      else (.fin (decide (v < 0)) v.natAbs t, 0)

/-- The exact product (R31), with NV for 0 · ∞. -/
def mulNum (x y : Num) : Num × Nat :=
  match x, y with
  | .nan, _ => (.nan, 0)
  | _, .nan => (.nan, 0)
  | .inf a, .inf b => (.inf (a != b), 0)
  | .inf a, .fin b n _ => if n = 0 then (.nan, flNV) else (.inf (a != b), 0)
  | .fin a m _, .inf b => if m = 0 then (.nan, flNV) else (.inf (a != b), 0)
  | .fin a m e, .fin b n d => (.fin (a != b) (m * n) (e + d), 0)

/-- The quotient to more than 64 bits with a sticky last bit (R31), NV and DZ (R35, R125). -/
def divNum (x y : Num) : Num × Nat :=
  match x, y with
  | .nan, _ => (.nan, 0)
  | _, .nan => (.nan, 0)
  | .inf _, .inf _ => (.nan, flNV)
  | .inf a, .fin b _ _ => (.inf (a != b), 0)
  | .fin a _ _, .inf b => (.fin (a != b) 0 0, 0)
  | .fin a m e, .fin b n d =>
    if n = 0 then (if m = 0 then (.nan, flNV) else (.inf (a != b), flDZ))
    else if m = 0 then (.fin (a != b) 0 0, 0)
    else
      let k := 64 + bitLen n
      let q := m * 2 ^ k / n
      let r := m * 2 ^ k % n
      (.fin (a != b) (2 * q + (if r = 0 then 0 else 1)) (e - d - (k : Int) - 1), 0)

/-- The integer square root of `n`, bit by bit from `2^(k-1)` down, starting at `r`. -/
def sqrtBits (n : Nat) : Nat → Nat → Nat
  | 0, r => r
  | k + 1, r =>
    let c := r + 2 ^ k
    sqrtBits n k (if c * c ≤ n then c else r)

/-- The square root to more than 64 bits with a sticky last bit (R125). -/
def sqrtNum (x : Num) : Num × Nat :=
  match x with
  | .nan => (.nan, 0)
  | .inf false => (.inf false, 0)
  | .inf true => (.nan, flNV)
  | .fin neg m e =>
    if m = 0 then (.fin neg 0 0, 0)
    else if neg then (.nan, flNV)
    else
      let (m', e') := if e % 2 = 0 then (m, e) else (2 * m, e - 1)
      let n := m' * 2 ^ 128
      let r := sqrtBits n (bitLen n / 2 + 1) 0
      (.fin false (2 * r + (if r * r = n then 0 else 1)) (e' / 2 - 65), 0)

/-- Compare two values by size, zeros equal; none when one is NaN. -/
def cmpNum (x y : Num) : Option Ordering :=
  match x, y with
  | .nan, _ => none
  | _, .nan => none
  | .inf a, .inf b => some (compare (b2n b) (b2n a))
  | .inf a, .fin _ _ _ => some (if a then .lt else .gt)
  | .fin _ _ _, .inf b => some (if b then .gt else .lt)
  | .fin a m e, .fin b n d =>
    let t := min e d
    some (compare (scaled a m e t) (scaled b n d t))

/-- The sign bit. -/
def Num.isNeg : Num → Bool
  | .nan => false
  | .inf n => n
  | .fin n _ _ => n

def Num.isNan : Num → Bool
  | .nan => true
  | .inf _ | .fin _ _ _ => false

/-- A finite value. -/
def Num.isFin : Num → Bool
  | .fin _ _ _ => true
  | .nan | .inf _ => false

/-- A zero of either sign. -/
def Num.isZero : Num → Bool
  | .fin _ m _ => decide (m = 0)
  | .nan | .inf _ => false

/-- `x` is below `y`, with −0 below +0 (R126). -/
def numLess (x y : Num) : Bool :=
  match cmpNum x y with
  | some .lt => true
  | some .eq => x.isNeg && !y.isNeg
  | _ => false

/-! ### Integers (R33) -/

/-- A value rounded to an integer, and whether it was inexact. -/
def numToInt (mode : Rounding) (neg : Bool) (m : Nat) (e : Int) : Int × Bool :=
  let (q, ix) := roundTo mode neg m e 0
  (if neg then -(q : Int) else (q : Int), ix)

/-- Floating point into an integer range: the value saturates, NaN becomes 0 (R33). -/
def toIntRange (mode : Rounding) (lo hi : Int) (x : Num) : Int × Nat :=
  match x with
  | .nan => (0, flNV)
  | .inf neg => (if neg then lo else hi, flNV)
  | .fin neg m e =>
    let (v, ix) := numToInt mode neg m e
    if v < lo then (lo, flNV) else if hi < v then (hi, flNV) else (v, if ix then flNX else 0)

/-- An integer as an exact value. -/
def intNum (v : Int) : Num := .fin (decide (v < 0)) v.natAbs 0

/-! ### Quad-fused summation (R37) -/

/-- The exact sum of a group: NaN when a term is, or when infinities of both signs meet. DEDUCED (log 52): of a group
that holds NaN and infinities of both signs, NV is set when both infinities stand before the first NaN. -/
def groupSum (ts : List Num) : Num × Nat :=
  ts.foldl (fun acc t => let (v, f) := addNum .rne acc.1 t; (v, acc.2 ||| f)) (.fin false 0 0, 0)

/-- Add one group to the accumulator (R37): an exact zero leaves it alone. -/
def addGroup (f : FloatCode) (acc : Nat) (ts : List Num) : Nat × Nat :=
  let (g, fl) := groupSum ts
  if g.isZero then (acc, fl)
  else
    let (v, f1) := addNum .rne (decodeNum f acc) g
    let (c, f2) := roundNum f .rne v
    (c, fl ||| f1 ||| f2)

/-- `quadsum` over terms in index order, groups of four (R37): the code and the flags. `fuel` bounds the
number of groups. -/
def quadsumN (f : FloatCode) : Nat → Nat → List Num → Nat × Nat
  | 0, acc, _ => (acc, 0)
  | fuel + 1, acc, ts =>
    match ts with
    | [] => (acc, 0)
    | _ :: _ =>
      let (a, fl) := addGroup f acc (ts.take 4)
      let (r, fl') := quadsumN f fuel a (ts.drop 4)
      (r, fl ||| fl')

def quadsum (f : FloatCode) (acc : Nat) (ts : List Num) : Nat × Nat :=
  quadsumN f (ts.length / 4 + 1) acc ts

/-! ### The exponential (R39) -/

/-- Fraction bits of the fixed-point evaluation. -/
def expBits : Nat := 400

/-- Taylor terms of `exp (y / 2^expBits)`, each term from the last; `n` counts up. -/
def expTerms (y : Nat) : Nat → Nat → Nat → Nat → Nat
  | 0, _, _, acc => acc
  | fuel + 1, n, term, acc =>
    let t := term * y / 2 ^ expBits / n
    expTerms y fuel (n + 1) t (acc + t)

/-- Square a fixed-point value `k` times. -/
def expSquare : Nat → Nat → Nat
  | 0, x => x
  | k + 1, x => expSquare k (x * x / 2 ^ expBits)

/-- `exp` of a nonzero finite FP32 value as a value with far more bits than FP32 has and a sticky last bit:
the result is irrational, so it is never a tie (R39). -/
def expNum (neg : Bool) (m : Nat) (e : Int) : Num :=
  let big := decide (7 < e + (bitLen m : Int))
  if big then (if neg then .fin false 1 (-400) else .fin false 1 400)
  else
    let y := if 0 ≤ e + (expBits : Int) - 10 then m * 2 ^ (e + (expBits : Int) - 10).toNat
             else m / 2 ^ (-(e + (expBits : Int) - 10)).toNat
    let r := expSquare 10 (expTerms y 90 1 (2 ^ expBits) (2 ^ expBits))
    let v := if neg then 2 ^ (2 * expBits) / r else r
    .fin false (2 * v + 1) (-(expBits : Int) - 1)

/-- The exponential of an FP32 code (R39): the code and the flags. -/
def expFp32 (x : Nat) : Nat × Nat :=
  match decodeNum .fp32 x with
  | .nan => (FloatCode.fp32.nanCode, 0)
  | .inf neg => (if neg then 0 else FloatCode.fp32.infCode, 0)
  | .fin neg m e => if m = 0 then (0x3F800000, 0) else roundNum .fp32 .rne (expNum neg m e)

/-! ### Format codes and fat pointers (R20, R21, R121) -/

/-- The format code and block-length logarithm that R21 rejects. -/
def fmtBad (code k : Nat) : Bool :=
  decide (13 ≤ code) || ((code == 7 || code == 8) && !(decide (4 ≤ k ∧ k ≤ 10)))
    || (!(code == 7 || code == 8) && decide (k ≠ 0))

/-- Bits of an element of an unblocked code (R20). -/
def elemBits (code : Nat) : Nat :=
  match code with
  | 1 | 12 => 32
  | 2 | 3 | 11 => 16
  | 6 => 4
  | _ => 8

/-- The integer formats (R25): signed, and the range. -/
def intRange (code : Nat) : Int × Int :=
  match code with
  | 9 => (-128, 127)
  | 10 => (0, 255)
  | 11 => (-32768, 32767)
  | 12 => (-2147483648, 2147483647)
  | _ => (0, 255)

/-- Codes 0 and 9-12 hold integers; RAW bytes are read as unsigned. -/
def codeIsInt (code : Nat) : Bool := code == 0 || decide (9 ≤ code ∧ code ≤ 12)

/-- The exact value of an unblocked element. -/
def elemNum (code x : Nat) : Num :=
  if codeIsInt code then
    (if (intRange code).1 < 0 then intNum (signed (elemBits code) x) else intNum (x : Int))
  else decodeNum (FloatCode.ofCode code) x

/-- An exact value written into an unblocked format (R31-R34): the bits, flags and generator. -/
def elemRound (code : Nat) (mode : Rounding) (x : Num) (seed : BitVec 32) : Nat × Nat × BitVec 32 :=
  if codeIsInt code then
    let (v, fl) := toIntRange mode (intRange code).1 (intRange code).2 x
    (wrap (elemBits code) v, fl, seed)
  else roundSt (FloatCode.ofCode code) mode x seed

/-! ### Blocked records (R26-R30) -/

/-- Bytes of a record (R26). -/
def recBytes (code k : Nat) : Nat := if code = 7 then 2 + 2 ^ (k - 1) else 1 + 2 ^ k

/-- A value times `2^(s - 127)`. -/
def scaleBy (s : Nat) : Num → Num
  | .nan => .nan
  | .inf n => .inf n
  | .fin n m e => .fin n m (e + (s : Int) - 127)

/-- A value divided by `2^(s - 127)`. -/
def unscale (s : Nat) : Num → Num
  | .nan => .nan
  | .inf n => .inf n
  | .fin n m e => .fin n m (e - (s : Int) + 127)

/-- Element `i` of a record whose bytes are `r` (R27, R28). -/
def recElem (code r i : Nat) : Num :=
  let s := byteAt r 0
  if s = 255 then .nan
  else if code = 8 then scaleBy s (decodeNum .e4m3 (byteAt r (1 + i)))
  else
    let c := lane (byteAt r (2 + i / 2)) 4 (i % 2)
    if c ≠ 8 then scaleBy s (decodeNum .e2m1 c)
    else
      let sp := byteAt r 1
      if sp = 0 then .fin false 0 0
      else if sp = 0x7F ∨ sp = 0xFF then .nan
      else scaleBy s (decodeNum .e4m3 sp)

/-- The magnitude of a value. -/
def Num.mag : Num → Num
  | .nan => .nan
  | .inf _ => .inf false
  | .fin _ m e => .fin false m e

/-- Two values are equal, zeros of either sign alike. -/
def numEq (x y : Num) : Bool :=
  match cmpNum x y with
  | some .eq => true
  | _ => false

/-- The largest magnitude of a list; zero for an empty one. -/
def maxMag (l : List Num) : Num :=
  l.foldl (fun a x => if numLess a x.mag then x.mag else a) (.fin false 0 0)

/-- The smallest `e` with a nonzero magnitude at most `c * 2^(e + p)`, where `c` is `n / 4` times a power
of two that `p` carries: 6 is 3/2 · 2^2 and 448 is 7/4 · 2^8. -/
def fitExp (n p : Nat) (x : Num) : Option Int :=
  match x with
  | .fin _ m e =>
    if m = 0 then none
    else
      let l := bitLen m
      let top := e + (l : Int) - 1
      some (if 4 * m ≤ n * 2 ^ (l - 1) then top - (p : Int) else top - (p : Int) + 1)
  | .nan | .inf _ => none

/-- The larger of two exponents of which either may be undefined; −127 when both are. -/
def maxExp (a b : Option Int) : Int :=
  match a, b with
  | none, none => -127
  | some x, none => x
  | none, some y => y
  | some x, some y => max x y

/-- The scale byte of an exponent (R30 step 3). -/
def scaleByte (e : Int) : Nat := (max 0 (min 254 (e + 127))).toNat

/-- Round a list of values into a format in order, with the stochastic rule. -/
def roundList (f : FloatCode) : List Num → BitVec 32 → List Nat × Nat × BitVec 32
  | [], seed => ([], 0, seed)
  | x :: xs, seed =>
    let (c, fl, s1) := roundSt f .rne x seed
    let (cs, fl', s2) := roundList f xs s1
    (c :: cs, fl ||| fl', s2)

/-- Codes of the rest of an E2M1B block, 8 at the places of the special set (R30 steps 5, 6). -/
def e2m1Codes (s : Nat) (X : Num) : List Num → BitVec 32 → List Nat × Nat × BitVec 32
  | [], seed => ([], 0, seed)
  | x :: xs, seed =>
    if numEq x X then
      let (cs, fl, s1) := e2m1Codes s X xs seed
      (8 :: cs, fl, s1)
    else
      let (c, fl, s1) := roundSt .e2m1 .rne (unscale s x) seed
      let (cs, fl', s2) := e2m1Codes s X xs s1
      ((if c = 8 then 0 else c) :: cs, fl ||| fl', s2)

/-- Convert a block of `2^k` values into a record (R30): its bytes, the flags and the generator. -/
def recEncode (code k : Nat) (xs : List Num) (seed : BitVec 32) : Nat × Nat × BitVec 32 :=
  if xs.any fun x => !x.isFin then (255, flNV, seed)
  else
    let m := maxMag xs
    if code = 8 then
      let s := scaleByte (maxExp (fitExp 7 8 m) none)
      let (cs, fl, sd) := roundList .e4m3 (xs.map (unscale s)) seed
      (s + 256 * packLanes 8 cs % 256 ^ recBytes code k, fl, sd)
    else
      let X := if xs.any (numEq · m) then m else m.neg
      let rest := xs.filter fun x => !numEq x X
      let s := scaleByte (maxExp (fitExp 6 2 (maxMag rest)) (fitExp 7 8 m))
      let (sp, f1) := if m.isZero then (0, 0) else roundNum .e4m3 .rne (unscale s X)
      let (cs, f2, sd) := e2m1Codes s X xs seed
      (s + 256 * sp + 65536 * packLanes 4 cs, f1 ||| f2, sd)

end Sys2Proof
end

