-- ==== Sys2Proof/Config.lean ====
section
/-! DEFINITION. What an implementation fixes and the free values (R9, R441): constants without a
body, so that a claim holds whatever they are. -/

namespace Sys2Proof.Config

/-- FREE VALUE (R9): the choice made at the `n`-th open choice of a run: which of the pending
steps comes next, which of several permitted orders is taken. -/
opaque pick : Nat → Nat

/-- FREE VALUE (R9, R254, R273): the bits of an unspecified value. -/
opaque freeBits : Nat → Nat

/-- FREE VALUE (R244): the bytes of the engines' microcode, by engine and offset. -/
opaque microcode : Nat → Nat → Byte

/-- FREE VALUE (R384, R385): SHA-384, the standard the manual names and does not spell out. -/
opaque sha384 : List Byte → BitVec 384

/-- FREE VALUE (R385): the signature made with a module's fused device identity key, and that key's public half. -/
opaque sign : Nat → BitVec 384 → BitVec 768
opaque identityKey : Nat → BitVec 768

/-- FREE VALUE (R384): whether ECDSA on P-384 verifies a signature over a digest with a public key. -/
opaque verify : BitVec 768 → BitVec 384 → BitVec 768 → Bool

/-- FREE VALUE (R384): the event type of an entry of the measured-boot log, by its index. -/
opaque bootEvent : Nat → BitVec 32

/-- FREE VALUE (R384): whether a host port of a module trains at boot. -/
opaque hostPortTest : Nat → Nat → Bool

/-- FREE VALUE (R320, R388): KIND and ADDR of the record of a package failure, by the failure and the unit that failed. -/
opaque failureRecord : Failure → Nat → Nat × Nat

/-- FREE VALUE (R385): the part number and firmware version as the report's bytes hold them. -/
opaque partNumber : List Byte

/-- FREE VALUE (R396): the link of a direction's bundle that a flow's hash selects. -/
opaque flowHash : Nat → Nat → Nat → Nat

/-- FREE VALUE (R350): the cluster that starts the dispatches of a die in cycle 0. -/
opaque firstCluster : Nat → Nat

/-- FREE VALUE (R396): the sizes of the module torus, up to 16 each. -/
opaque torusX : Nat
opaque torusY : Nat
opaque torusZ : Nat

/-- FREE VALUE (R374): the stack that holds a physical address: the port dies fix how addresses
are spread, and software cannot see it. -/
opaque stackOf : Nat → Nat

/-- FREE VALUE (R276, R277, R374): the memory channel of a home slice. -/
opaque channelOf : Nat → Nat

/-- FREE VALUE (R384): the part's fused rollback counter and revoked key indexes. -/
opaque rollbackFuse : Nat → Nat

/-- FREE VALUE (R384): whether a key index is revoked in a module's fuses. -/
opaque keyRevoked : Nat → Nat → Bool

/-- FREE VALUE (R305, R388): whether a compute die of a module passed its self-test at boot, and whether its
Mortar routers did. -/
opaque dieTest : Nat → Nat → Bool
opaque routerTest : Nat → Nat → Bool

/-- FREE VALUE (R384): whether a port die of a module passed its test. -/
opaque portTest : Nat → Nat → Bool

/-- FREE VALUE (R384): SHA-384 of a module's ROM, and its fused root-key hash. -/
opaque romDigest : Nat → BitVec 384
opaque rootKeyHash : Nat → BitVec 384

end Sys2Proof.Config
end

