-- ==== Sys2Proof/Machine/CoreState.lean ====
section
/-! DEFINITION. What a strand and a core hold (R82-R98, R174-R211, R225-R230). -/

namespace Sys2Proof.Machine

open Sys2Proof

/-- The state of a barrel slot (R174). -/
inductive SlotState where
  | empty
  | ready
  | parked (r : ParkReason)
  | handover
  deriving DecidableEq, Repr

/-- A hardware loop level (R188, R189): `buf` is the loop buffer granted to it; `recap` when a restored level
may capture again at its next pass (R196). -/
structure LoopLevel where
  b : Nat
  e : Nat
  remain : Nat
  buf : Option Nat
  recap : Bool
  deriving DecidableEq, Repr

/-- An access of an engine's operation that has no answer so far (R399): its address, its access kind, since when, which
piece of the operation makes it, and whether no answer will come. -/
structure Lost where
  addr : Nat
  access : Nat
  since : Nat
  item : Nat
  gone : Bool
  deriving DecidableEq, Repr

/-- How a request for a sector ended. -/
inductive LineStatus where
  | ok | absent | malformed | unpopulated | unanswered | poisoned
  deriving DecidableEq, Repr

/-- The attributes a home returns with a sector (R313): the leaf's W, X, C, T, RAP and DOMAIN, whether the
part is duplicated, and the package that serves it. -/
structure Attr where
  w : Bool
  x : Bool
  c : Bool
  t : Bool
  rap : Bool
  dom : Nat
  dup : Bool
  holder : Nat
  aper : Nat
  leaf : Nat
  deriving DecidableEq, Repr

/-- An answer that a strand's bundle has received and not yet used (R175). -/
inductive Resp where
  /-- A sector of memory: its number, what was asked for, its attributes, bytes and poison. -/
  | sector (sec : Nat) (kind : Access) (st : LineStatus) (attr : Attr) (data poison : Nat)
  /-- The old value of a far atomic, or how it ended. -/
  | old (st : LineStatus) (value : Nat) (poison : Bool)
  /-- The answer of another unit: its code and value. -/
  | unit (code value : Nat)
  /-- The release of this bundle has completed (R171). -/
  | released
  deriving DecidableEq, Repr

/-- What a strand keeps of its task (R347, R363): its entry, argument, class, affinity and release counter as the
descriptor holds them, its tenant and partition, its groups (R351), and the mode it starts in (R380). -/
structure Task where
  entry : Nat
  arg : Word
  cls : Nat
  aff : Nat
  light : Bool
  relc : Nat
  tenant : Nat
  part : Nat
  groups : Word
  mode : Bool
  deriving DecidableEq, Repr

/-- The CSRs private to a strand (R84). -/
structure StrandCsr where
  sstat : Word
  epc : Word
  ecause : Word
  eaddr : Word
  einfo : Word
  evec : Word
  escratch : Word
  fpctl : Word
  rndseed : BitVec 32
  ttmask : BitVec 32
  groups : Word
  pwtoken : Word
  klstat : Word
  ixmask : Word
  pdepth : Word
  sclamp : Word
  openpkt : Word
  ipend : Word
  imask : Word
  itimer : Word
  deriving DecidableEq, Repr

/-- The outcome of a bundle on a course (R181): whether a transfer was taken, the target, the end event or exit of
R189 and R190 (0 none, 1 the body again, 2 the level popped, 3 LOOPX), and where the strand goes on. -/
structure Flow where
  took : Bool
  target : Nat
  ev : Nat
  next : Nat
  deriving DecidableEq, Repr

/-- A bundle forwarded along a course and not yet issued (R181, R184): its address and words, when it
arrives and whether it has, and the leader's outcome. -/
structure Fwd where
  addr : Nat
  w0 : Nat
  w1 : Nat
  arrive : Nat
  here : Bool
  flow : Flow
  deriving DecidableEq, Repr

/-- What a barrel slot holds. -/
structure Strand where
  st : SlotState
  pc : Word
  g : Vector Word 32
  v : Vector Vec 16
  k : Vector (BitVec 32) 4
  csr : StrandCsr
  /-- The event latch (R230). -/
  latch : Bool
  /-- Active loop levels, innermost first (R188). -/
  loops : List LoopLevel
  /-- Sticky flags of the four matrix streams, as FPCTL bits 8:4 (R205). -/
  mflags : List Nat
  /-- The pending DATA_ERROR of each matrix stream: address and kind (R206, R210). -/
  mpend : List (Option (Nat × Nat))
  /-- The 64-byte fetch block and its address (R179). -/
  fblk : Option (Nat × Nat)
  /-- TICKS when the latest bundle issued (R176). -/
  issued : Option Nat
  /-- Answers held for the bundle at the program counter. -/
  resps : List Resp
  /-- Requests sent for that bundle and not yet answered. -/
  asked : List Nat
  /-- Groups whose echo a release still waits for (R333). -/
  probes : List Nat
  /-- The cycle in which each of those requests, at twice its number, and probes, at one more, was sent (R399). -/
  askedAt : List (Nat × Nat)
  /-- The fault token waited for, and whether a wake denied the access (R318, R319). -/
  token : Option Nat
  denied : Bool
  /-- A double trap has parked it (R97); kept while its slot is in Handover (R233). -/
  dbl : Bool
  /-- The A half of the bundle at the program counter has had its effect, and its C half, which ends the strand's stay
in its slot, still waits (R69, R363): the general registers as the bundle found them. -/
  begun : Option (Vector Word 32)
  /-- A scratchpad access of the bundle waits for its banks (R242): the cycle in which they serve it. -/
  banked : Option Nat
  /-- The absent access that the bundle waits for: its address and kind (R319). -/
  absAt : Option (Nat × Access)
  /-- The task it runs (R347). -/
  task : Task
  /-- A PREEMPT notice not yet taken (R383). -/
  notice : Option Word
  /-- Forwarded bundles of a course (R184). -/
  fwd : List Fwd
  /-- Flits of the open packet, newest last, and its chunk (R412). -/
  pkt : List Vec
  /-- Stream bindings that a restored strand still has to make: register and binding word (R196). -/
  rebind : List (Nat × Nat)
  deriving DecidableEq, Repr

/-- One sector of an L1 line (R152, R227): `dirty` has a bit for each byte, `poison` one for each 8-byte
word; `near` when a near atomic, which sets no TTMASK bit, has written it since its last write-back (R157, R341). -/
structure L1Sec where
  filled : Bool
  near : Bool
  dirty : Nat
  data : Nat
  poison : Nat
  tenant : Nat
  attr : Attr
  deriving DecidableEq, Repr

/-- An L1 line: its line number, its way and its sectors. -/
structure L1Line where
  line : Nat
  way : Nat
  secs : List (Nat × L1Sec)
  deriving DecidableEq, Repr

/-- A PLB entry (R316): rights R W X A in bits 0-3. -/
structure PlbEntry where
  tenant : Nat
  dom : Nat
  rights : Nat
  deriving DecidableEq, Repr

/-- A write of a tile that not every operation comes after (R202): its stream, 4 for what a wait has settled; the number
of waits before its operation issued; its element width; the bits of data and sideband it covers, with what it writes
there; the PSN and first poisoned address it writes, if it does; and the wait that came after it. -/
structure TileVer where
  st : Nat
  since : Nat
  w : Nat
  wd : Nat
  ws : Nat
  data : Nat
  side : Nat
  psn : Option (Bool × Option Nat)
  ended : Option Nat
  deriving DecidableEq, Repr

/-- A tile register (R197, R199, R206): what every operation comes after, and the writes above it, the latest last
(R202). -/
structure Tile where
  data : Nat
  side : Nat
  tsh : Word
  owner : Option Nat
  psn : Bool
  perr : Option Nat
  vers : List TileVer
  deriving DecidableEq, Repr

/-- The queued matrix operations (R200). -/
inductive MKind where
  | tld | tst | vmovt | tzero | mma | mmas | mmss | tcvt | tadd | tscale | ttrans | mjoin
  deriving DecidableEq, Repr

/-- A queued matrix operation with what it captured at issue (R200). -/
structure MOp where
  kind : MKind
  lost : Option Lost
  td : Nat
  ta : Nat
  tb : Nat
  shD : Nat
  shA : Nat
  shB : Nat
  acc : FloatFmt
  df : Dataflow
  mode : Rounding
  col : Bool
  seed : Nat
  /-- The issuing slot, or none for a remote command (R224). -/
  slot : Option Nat
  tenant : Nat
  priv : Bool
  ptr : Nat
  stride : Int
  masks : List Nat
  /-- The sectors checked at issue and their leaves (R210). -/
  attrs : List (Nat × Nat)
  chunk : Nat
  vec : Nat
  /-- For a heavy remote command 1 once its grant is requested and 2 once it is held (R224, R364). -/
  mask : Nat
  /-- Array cycles it has been given (R209). -/
  used : Nat
  /-- The waits of the core before it issued (R202). -/
  since : Nat
  /-- The units of its result that it has written, as a mask, between its start and its completion (R202). -/
  made : Nat
  /-- Rows that a TLD or TST has moved, and the first bad address that a TLD has met. -/
  row : Nat
  bad : Option Nat
  deriving DecidableEq, Repr

/-- How a fetched stream element ended (R192). -/
inductive Elem where
  | data (x : Nat)
  | fault (c : Cause) (addr : Nat)
  | absent (addr : Nat)
  /-- Its access gets no answer: its address, and when it was made (R399). -/
  | lost (addr since : Nat)
  deriving DecidableEq, Repr

/-- A push that has not issued its store (R192): its number in its strand's program order (R193), its address, its bytes,
and the attributes it was checked with. -/
structure Push where
  seq : Nat
  addr : Nat
  data : Nat
  attr : Attr
  deriving DecidableEq, Repr

/-- A stream unit (R191-R194). -/
structure SUnit where
  owner : Option Nat
  desc : Nat
  base : Nat
  cnt : List Nat
  str : List Int
  bound : Option Nat
  wr : Bool
  pos : Nat
  fetched : List (Nat × Elem)
  pushes : List Push
  deriving DecidableEq, Repr

/-- A loop buffer (R188): the level it serves, whether its first pass is over, and the bundles captured, by address. -/
structure LoopBuf where
  slot : Nat
  b : Nat
  e : Nat
  later : Bool
  body : List (Nat × Nat × Nat)
  deriving DecidableEq, Repr

/-- A received flit in a queue (R413): payload, the packet's chunk, its index, and whether it is the last, a
marker or an abort. -/
structure QFlit where
  data : Vec
  chunk : Nat
  idx : Nat
  last : Bool
  mark : Bool
  abort : Bool
  deriving DecidableEq, Repr

/-- A packet or marker held at a router entry (R405, R406). -/
structure VsPacket where
  chunk : Nat
  flits : List Vec
  marker : Option Word
  abort : Bool
  tenant : Nat
  group : Nat
  gen : Nat
  gv : Bool
  deriving DecidableEq, Repr

/-- A network queue register of slot 15 (R411-R416). -/
structure QState where
  bound : Bool
  entry : Nat
  tenant : Nat
  chunk : Nat
  /-- Received flits, oldest first: 32 at most. -/
  recv : List QFlit
  /-- Packets and markers sent and not yet acknowledged. -/
  sent : Nat
  /-- Aborts of abandoned packets that wait for a credit (R89, R406). -/
  aborts : List VsPacket
  /-- A gang stop (R416): its query holds every send that opens a chunk, its pause those above a limit. -/
  limit : Option (Option Nat)
  deriving DecidableEq, Repr

/-- What the machine keeps of a saved strand beside its save area (log 11): its task, a notice not yet taken, the
lookup contexts that it holds with their GEN (R272), whether a double trap has parked it (R97), the pending errors of
its matrix streams (R206), what `begun` holds of its bundle, and TICKS at the save (R96). -/
structure Saved where
  task : Task
  notice : Option Word
  ctxs : List (Nat × Nat)
  dbl : Bool
  mpend : List (Option (Nat × Nat))
  begun : Option (Vector Word 32)
  since : Nat
  deriving DecidableEq, Repr

/-- What a core holds beside its strands. -/
structure Core where
  alignto : Nat
  sel : Nat
  slotmap : Word
  /-- TCM banks open to each partition (R225): partition, bank set. -/
  tbanks : List (Nat × Nat)
  captab : Word
  migthr : Word
  lastMig : Option Nat
  /-- The slot of each partition that issued last (R176). -/
  lastSlot : List (Nat × Nat)
  tiles : List Tile
  mq : List (List MOp)
  mlast : Nat
  /-- The model's own count of the waits for matrix streams that have ended (R202). -/
  mwaits : Nat
  /-- TTMASK groups to which a write of the core has been lost, and for which no probe has failed since (R333, R334). -/
  lostTo : List Nat
  units : List SUnit
  lbufs : List (Option LoopBuf)
  tcm : Memory
  tcmPoison : List Nat
  l1 : List L1Line
  plb : List PlbEntry
  qs : List QState
  /-- The strands saved from this core (log 11): `tenant * 16 + slot`. -/
  saved : List (Nat × Saved)
  deriving DecidableEq, Repr

end Sys2Proof.Machine
end

