-- ==== Sys2Proof/Machine/ClusterState.lean ====
section
/-! DEFINITION. What a cluster holds: scratchpad, instruction cache, completion ring, engines,
stream entries, rendezvous and travelling strands (R226, R241-R298, R404). -/

namespace Sys2Proof.Machine

open Sys2Proof

/-- A block of the cluster instruction cache (R243): 64-byte block number, bytes, attributes. -/
structure IcBlock where
  blk : Nat
  data : Nat
  tenant : Nat
  attr : Attr
  deriving DecidableEq, Repr

/-- A queued SPART (R228). -/
structure SpartReq where
  src : Place
  ways : Nat
  deriving DecidableEq, Repr

/-- The shadow registers of a slot in the BTE (R250, R251). -/
structure Shadow where
  regs : List Word
  lost : Bool
  deriving DecidableEq, Repr

/-- A BTE transfer (R250-R255). `todo` numbers the writes that have not landed. -/
structure Xfer where
  id : Nat
  lost : Option Lost
  who : Place
  tenant : Nat
  part : Nat
  priv : Bool
  /-- The PDEPTH of its strand shows it (R255). -/
  shows : Bool
  regs : List Word
  scope : Scope
  seed : Nat
  todo : List Nat
  landed : Nat
  flags : Nat
  fault : Nat
  faddr : Nat
  token : Option Nat
  /-- The absent access that it waits for (R254): its address, and whether it writes. -/
  absAt : Nat × Nat
  /-- Barrier updates made (R247, R254). -/
  barDone : Bool
  /-- Ring mode (R255): stages landed and consumed, depth, latency and interval samples, issue ticks. -/
  stages : Nat
  consumed : Nat
  depth : Nat
  lats : List Nat
  intvs : List Nat
  lastUpd : Option Nat
  started : List (Nat × Nat)
  deriving DecidableEq, Repr

/-- The state that BTPOLL reads for an identifier (R249). -/
structure XferState where
  st : Nat
  fault : Nat
  done : Nat
  deriving DecidableEq, Repr

/-- An IXE operation: an index posting (R260) or an update batch (R296). -/
structure IxOp where
  id : Nat
  lost : Option Lost
  who : Place
  tenant : Nat
  part : Nat
  priv : Bool
  desc : Nat
  daddr : Nat
  eupd : Bool
  /-- Posted by IXPOST, so that IXMASK and the latch are updated (R245). -/
  posted : Bool
  scope : Scope
  table : Nat
  step : Nat
  merge : Bool
  todo : List Nat
  okMask : Nat
  failed : Bool
  /-- The engine went offline under it (R265). -/
  killed : Bool
  /-- Merged rows that have not landed yet (R296). -/
  sent : Nat
  /-- It waits for room in the completion ring (R248). -/
  held : Bool
  fault : Nat
  faddr : Nat
  flags : Nat
  done : Nat
  deriving DecidableEq, Repr

/-- The common part of the BTE and the IXE (R246). -/
structure Engine (α : Type) where
  seq : Nat
  queue : List α
  active : List α
  table : List (Nat × XferState)
  offline : Bool
  deriving DecidableEq, Repr

/-- A KLE descriptor slot (R268). -/
structure KSlot where
  valid : Bool
  tenant : Nat
  desc : Nat
  deriving DecidableEq, Repr

/-- One granule read of a lookup (R276): its rank, address, length, the tick of its issue, and the leaf by which it was
translated and checked then (R301). -/
structure KRead where
  rank : Nat
  addr : Nat
  len : Nat
  issued : Nat
  leaf : Nat
  /-- The package that holds it gives no answer (R276). -/
  lost : Bool
  /-- The service point where it is queued: die and point (R277). -/
  point : Nat × Nat
  deriving DecidableEq, Repr

/-- A lookup that became Done and whose context is free again (R286): in which cycle, its tag, and what KLWAIT
returns for it. -/
structure KDone where
  at' : Nat
  tenant : Nat
  tag : Nat
  code : Nat
  status : Nat
  deriving DecidableEq, Repr

/-- A lookup or bag context (R268, R271, R273). -/
structure KCtx where
  lost : Option Lost
  /-- 0 Free, 1 Pending, 2 Done, 3 Faulted. -/
  st : Nat
  gen : Nat
  ticket : Nat
  who : Place
  tenant : Nat
  part : Nat
  priv : Bool
  scope : Scope
  desc : Nat
  bag : Bool
  query : Nat
  seed : Nat
  /-- Query elements that are still to be read, and the bytes read (R282). -/
  qtodo : List Nat
  qdata : Nat
  scored : Bool
  doneMask : Nat
  phase : Nat
  fcode : Nat
  faddr : Nat
  nans : Bool
  winv : Bool
  flags : Nat
  rows : List Nat
  weights : List Nat
  scores : List Nat
  acc : List Nat
  /-- Reads that are not issued yet, and those that wait at a service point (R276). -/
  todo : List KRead
  reads : List KRead
  /-- Bytes of each rank that have arrived: rank, offset in the row, length, data. -/
  got : List (Nat × Nat × Nat × Nat)
  failed : Nat
  /-- Resumed in PHASE 2 (R284). -/
  outOnly : Bool
  /-- Software wrote its record before a KLRES, so that its output is a free value (R273). -/
  spoilt : Bool
  /-- Strands parked in KLWAIT, to which Done is still to be returned (R271). -/
  waiters : List Place
  /-- A KLWAIT has returned Done for it (R271). -/
  returned : Bool
  /-- Strands that allocated or re-armed it, and are not light while it is not Free (R88, R272). -/
  holders : List Place
  /-- The lookup that it was freed from last (R286). -/
  freed : Option KDone
  deriving DecidableEq, Repr

/-- One set of a stream entry (R404, R410). -/
structure VsSet where
  inp : Nat
  out : Nat
  op : Nat
  deriving DecidableEq, Repr

/-- A virtual-stream entry (R404): `held` lists what each input port holds, `out` what is still to be sent, `owed` the inputs
whose credits go back once it is sent (R406). -/
structure VsEntry where
  tenant : Nat
  core : Option Nat
  q : Nat
  cur : Nat
  sets : List VsSet
  group : Nat
  gen : Nat
  gv : Bool
  held : List (Nat × List VsPacket)
  out : List (Nat × VsPacket)
  owed : List Nat
  deriving DecidableEq, Repr

/-- A course (R181): slot, tenant, leader, members and attached members. -/
structure Course where
  slot : Nat
  tenant : Nat
  leader : Nat
  members : List Nat
  attached : List Nat
  /-- Where the leader holds at a REALIGN, and the detached members that wait there (R186). -/
  hold : Option Nat
  arrived : List Nat
  deriving DecidableEq, Repr

/-- An open COURSE rendezvous (R187). -/
structure Rdv where
  slot : Nat
  tenant : Nat
  w : Nat
  mask : Nat
  arrived : List Nat
  start : Nat
  limit : Nat
  closed : Bool
  deriving DecidableEq, Repr

/-- A strand that waits in its slot to travel (R263): where it stands, and the cores it may go to. -/
structure Traveller where
  who : Place
  cores : List Nat
  /-- An automatic move, given up when the core has no slot left (R262). -/
  auto : Bool
  deriving DecidableEq, Repr

/-- A light context on its way (R261). -/
structure Context where
  src : Place
  dst : Place
  pc : Word
  sstat : Word
  g : List Word
  task : Task
  notice : Option Word
  /-- The cycle before which it cannot have arrived (R389, R441). -/
  due : Nat
  deriving DecidableEq, Repr

/-- A bank of a cluster's scratchpad (R242): the first cycle in which it is free, and the word it serves before, if that is
a load. -/
structure Bank where
  id : Nat
  free : Nat
  word : Option Nat
  deriving DecidableEq, Repr

/-- What a cluster holds beside its cores. -/
structure Cluster where
  spways : Nat
  busy : Bool
  spart : List SpartReq
  spad : Memory
  spadPoison : List Nat
  /-- The banks that requests still occupy (R242). -/
  banks : List Bank
  icache : List IcBlock
  chead : Nat
  ctail : Nat
  cring : List (Nat × Nat)
  /-- Poisoned 8-byte words of the completion ring (R265). -/
  ringPoison : List Nat
  shadows : List (Nat × Shadow)
  bte : Engine Xfer
  ixe : Engine IxOp
  kslots : List KSlot
  kctx : List (Nat × KCtx)
  kOffline : Bool
  knctx : Nat
  kbase : Nat
  entries : List (Nat × VsEntry)
  /-- What the router may still send into each neighbour's input (R406), by entry number and port: `entry * 8 + port`. -/
  vsCredits : List (Nat × Nat)
  courses : List Course
  rdvs : List Rdv
  travellers : List Traveller
  inbound : List Context
  deriving DecidableEq, Repr

end Sys2Proof.Machine
end

