-- ==== Sys2Proof/Machine/DieState.lean ====
section
/-! DEFINITION. What a die and a module hold, and the messages between them (R304-R437). -/

namespace Sys2Proof.Machine

open Sys2Proof

/-- One sector of an L2 line (R304): valid bit, dirty mask of 128 bits, bytes, poison of 8-byte words. -/
structure L2Sec where
  valid : Bool
  dirty : Nat
  data : Nat
  poison : Nat
  deriving DecidableEq, Repr

/-- An L2 line (R304-R307): its line number in the translated space, its way, the attributes of its leaf,
and the physical address of its first byte, or none for a pinned line. -/
structure L2Line where
  slice : Nat
  set : Nat
  way : Nat
  line : Nat
  tenant : Nat
  pinned : Bool
  phys : Option Nat
  attr : Attr
  secs : List (Nat × L2Sec)
  deriving DecidableEq, Repr

/-- A queued or waiting task (R347, R348, R353): its order key, the cluster of its list, whether it may be stolen,
how often it was passed over, its name in the store, its WAIT, GRP and GV as the descriptor holds them, and the
first cycle in which it may be dispatched (R370). -/
structure QTask where
  task : Task
  ts : Nat
  clu : Nat
  any : Bool
  passes : Nat
  urgent : Bool
  serial : Nat
  wait : Nat
  grp : Nat
  gv : Bool
  deriving DecidableEq, Repr

/-- A dependency counter (R354). -/
structure Counter where
  live : Bool
  tenant : Nat
  count : Nat
  waiting : List QTask
  deriving DecidableEq, Repr

/-- A request in the admission queue (R353): an urgent task by its serial, with the cycle of its 64th pass, a strand's
grant, or the grant of a heavy remote command for a core's stream. -/
inductive AdmReq where
  | task (serial weight since : Nat)
  | grant (who : Place) (units dur : Nat)
  | remote (core st : Nat)
  deriving DecidableEq, Repr

/-- A group entry (R357). -/
structure Group where
  gen : Nat
  members : Nat
  remaining : Nat
  phase : Nat
  arrivals : List Place
  deriving DecidableEq, Repr

/-- An outstanding fault entry of a die (R318): token, page and part, tenant and waiters. -/
structure FaultWait where
  token : Nat
  tenant : Nat
  page : Nat
  part : Nat
  strands : List Place
  xfers : List (Nat × Nat)
  deriving DecidableEq, Repr

/-- A steal request of a die (R356). -/
structure Steal where
  vf : Nat
  die : Nat
  clu : Nat
  sent : Nat
  idle : Bool
  deriving DecidableEq, Repr

/-- A redirect in use at a slice (R429). -/
structure Redir where
  slice : Nat
  tenant : Nat
  page : Nat
  part : Nat
  pkg : Nat
  count : Nat
  /-- The module whose stub counted (R429). -/
  stub : Nat
  deriving DecidableEq, Repr

/-- What a compute die holds beside its clusters. -/
structure Die where
  ticketCtr : Nat
  leafCache : List (Nat × Nat)
  /-- Walks that have read the low half of a leaf and not the high one: page, physical address of the leaf, low half
  (R313). -/
  walks : List (Nat × Nat × Nat)
  ownerCache : List ((Nat × Nat × Nat) × Nat)
  redirs : List Redir
  l2 : List L2Line
  store : List QTask
  /-- The ready lists as they stood at the start of this cycle, by which Keystone chooses (R370), without what a steal or
  TDEQ has taken since. -/
  listed : List QTask
  serial : Nat
  counters : List (Nat × Counter)
  budget : Nat
  charged : Nat
  granted : Nat
  adm : List AdmReq
  /-- Implicit requests above the budget, which wait outside the queue (R364). -/
  admOut : List AdmReq
  /-- The cycle in which each cluster last made its dispatch, and the tenant it dispatched for (R350). -/
  lastDisp : List (Nat × Nat)
  lastTenant : List (Nat × Nat)
  steals : List Steal
  groups : List (Nat × Group)
  /-- Error logs by VF (64 is the physical function): records, oldest first, and whether some were lost. -/
  logs : List (Nat × (List Nat × Bool))
  errs : List (Nat × Nat)
  waits : List FaultWait
  faultSeq : Nat
  /-- The source that came first in the latest round of each service point (R277). -/
  rounds : List (Nat × Nat)
  thermalBase : Nat
  deriving DecidableEq, Repr

/-- An update table of a VF (R293). -/
structure UpdTable where
  base : Nat
  stride : Nat
  len : Nat
  nrows : Nat
  merge : Bool
  mcap : Nat
  step : Nat
  deriving DecidableEq, Repr

/-- The policy record of a VF (R375). -/
structure Policy where
  en : Bool
  part : Nat
  slice : Nat
  maxscope : Nat
  trap : Bool
  wayshare : Nat
  pinways : Nat
  pinbase : Nat
  rtbase : Nat
  faultq : Word
  evec : Word
  escratch : Word
  quota : Nat
  nctx : Nat
  ctxbase : Nat
  savebase : Nat
  hostport : Bool
  enrol : Bool
  tables : List (Nat × UpdTable)
  /-- Changes that wait for the VF's next launch (R375). -/
  pending : List PolicyField
  deriving DecidableEq, Repr

/-- An entry still to be posted to a fault queue (R317). -/
structure Post where
  vf : Nat
  addr : Nat
  token : Nat
  kind : Nat
  source : Nat
  access : Nat
  place : Nat
  id : Nat
  deriving DecidableEq, Repr

/-- A launch queue and its launch in progress (R379-R381). -/
structure Launch where
  lqbase : Word
  lqcfg : Word
  consumed : Nat
  running : Bool
  /-- The VF the launch runs for (R380). -/
  forVf : Nat
  /-- The launch class (R349). -/
  cls : Nat
  /-- The index of its ring entry. -/
  entry : Nat
  /-- Tasks that wait for an entry of their die's store, and the die (R348, R349). -/
  rest : List (Nat × QTask)
  deriving DecidableEq, Repr

/-- A step of a merge table (R296): VF, table, step and the merged rows. -/
structure MergeTab where
  vf : Nat
  table : Nat
  step : Nat
  rows : List (Nat × List Nat)
  deriving DecidableEq, Repr

/-- A forwarding stub (R426). -/
structure Stub where
  tenant : Nat
  page : Nat
  part : Nat
  target : Nat
  counts : List (Nat × Nat)
  outstanding : Nat
  since : Nat
  quiet : Nat
  live : Bool
  /-- Relays sent so far, which number them (R427). -/
  sent : Nat
  /-- Packages whose purge acknowledgement is still due, once reclaiming (R430), and the cycle in which it began. -/
  purging : Option (List Nat)
  purgedAt : Nat
  deriving DecidableEq, Repr

/-- A migration command in progress (R420-R433). -/
structure MigCmd where
  idx : Nat
  page : Nat
  parts : Nat
  tenant : Nat
  op : Nat
  dest : Nat
  quiet : Nat
  cwaddr : Nat
  cwval : Nat
  /-- Parts cut over, and those still to do. -/
  moved : Nat
  rest : List Nat
  /-- Lines of the current part still to copy, and the pass (R423). -/
  lines : List Nat
  dirty : List Nat
  pass : Nat
  frozen : Bool
  /-- The source's and DEST's leaves before the command, and as the engine last saw them. -/
  leaf0 : Nat
  dest0 : Nat
  leafSeen : Nat
  destSeen : Nat
  /-- Holders and parts whose invalidate is not acknowledged yet (R433). -/
  acks : List (Nat × Nat)
  /-- How the command ends, and whether it has (R420). -/
  status : Option Nat
  ended : Bool
  /-- The engine that runs the command has gone offline (R422, R435). -/
  down : Bool
  deriving DecidableEq, Repr

/-- A hard partition (R376). -/
structure Partition where
  clusters : List (Nat × Nat)
  slots : Nat
  banks : Nat
  wayBase : Nat
  ways : Nat
  /-- The VF whose turn it is, when the turn began, and the switch under way (R378). -/
  vf : Option Nat
  since : Nat
  next : Option Nat
  deriving DecidableEq, Repr

/-- A key slot of a port die (R397): current key, next key, epoch, counter. -/
structure KeySlot where
  cur : Option (BitVec 256)
  next : Option (BitVec 256)
  epoch : Bool
  ctr : Nat
  deriving DecidableEq, Repr

/-- A link (R396, R398): trained, its peer's package, direction, consecutive replays. -/
structure Link where
  up : Bool
  /-- The direction whose bundle it belongs to (R396), as `neighbourIn` numbers them. -/
  dir : Nat
  peer : Nat
  replays : Nat
  spare : Bool
  /-- The link that has taken over the flows of a failed one (R398). -/
  subst : Option Nat
  deriving DecidableEq, Repr

/-- A frame on a link between modules (R397): who sent it and who receives it, the link, the direction it goes in, and the
key identifier, key, epoch and IV it was encrypted with. -/
structure Frame where
  frm : Nat
  into : Nat
  link : Nat
  dir : Nat
  kid : Nat
  epoch : Bool
  key : Option (BitVec 256)
  iv : Nat
  deriving DecidableEq, Repr

/-- A packet of a collective stream on a link (R397, R405): its frame, the package that it goes to, the edge router and the
entry there, and the packet. -/
structure LinkFrame where
  hop : Frame
  dst : Nat
  node : Nat
  entry : Nat
  pkt : VsPacket
  deriving DecidableEq, Repr

/-- A port die (R388, R396, R397). -/
structure PortDie where
  failed : Bool
  /-- Ochre cores that have faulted. -/
  dead : List Nat
  keys : List (Nat × KeySlot)
  frames : List LinkFrame
  deriving DecidableEq, Repr

/-- A gang stop (R416), from its query until the VF's next turn: VF, its step (3 once the slots change hands), highest chunk
answered, when the pause was sent. -/
structure Gang where
  vf : Nat
  part : Nat
  step : Nat
  chunk : Option Nat
  paused : Nat
  deriving DecidableEq, Repr

/-- A duplicate-table entry (R423): page, part and holders. -/
structure DupEntry where
  page : Nat
  part : Nat
  holders : List Nat
  deriving DecidableEq, Repr

/-- A close that waits for acknowledgements (R297). -/
structure Closing where
  src : Place
  step : Nat
  acks : List Nat
  deriving DecidableEq, Repr

/-- An entry of the measured-boot log (R384): event type, index and digest. -/
structure BootEntry where
  event : BitVec 32
  index : Nat
  digest : BitVec 384
  deriving DecidableEq, Repr

/-- An attestation report (R385): its body and the signature, r followed by s. -/
structure Report where
  body : List Byte
  sig : BitVec 768
  deriving DecidableEq, Repr

/-- What a module holds beside its dies. -/
structure Module where
  /-- The cycle of its latest reset (R91). -/
  epoch : Nat
  /-- The package number once written (R386). -/
  pkg : Option Nat
  /-- Boot step reached, 0-6, and whether the module is in recovery (R384). -/
  boot : Nat
  recovery : Bool
  log : List BootEntry
  digest : BitVec 384
  fwVersion : Nat
  report : Option Report
  resetCause : Nat
  dram : Memory
  dramPoison : List Nat
  host : Memory
  ptRoot : Nat
  diesUp : List Nat
  policies : List (Nat × Policy)
  merges : List MergeTab
  /-- The lowest step of a merge table that has not been closed here (R297): `vf * 256 + table`. -/
  openSteps : List (Nat × Nat)
  posts : List Post
  partitions : List (Nat × Partition)
  launches : List (Nat × Launch)
  portUp : List Bool
  halfKw : Nat
  stacksDown : List Nat
  ports : List (Nat × PortDie)
  links : List (Nat × Link)
  /-- The shares of the channels in an ejection unit's store, set by firmware (R394). -/
  shares : List Nat
  failedPaths : List Nat
  ringBase : Nat
  ringLogn : Nat
  migTaken : Nat
  cmds : List MigCmd
  stubs : List Stub
  /-- Relays of each requesting node performed here, by stub (R429): tenant, page, part, node, the stub's module. -/
  performed : List ((Nat × Nat × Nat × Nat × Nat) × Nat)
  dups : List DupEntry
  pinned : List (Nat × Memory)
  /-- Poisoned 8-byte words of each tenant's pinned window (R307, R320). -/
  pinnedPoison : List (Nat × List Nat)
  gangs : List Gang
  closings : List Closing
  /-- Slots whose handover is due: slot key and incoming VF (R233). -/
  handovers : List (Nat × Nat)
  resetting : List Nat
  deriving DecidableEq, Repr

/-- What a message asks of a home (R306, R331-R333). -/
inductive MsgBody where
  /-- Read a sector, or ask for rights only (`data` false); `waits` is false for a prefetch. -/
  | read (sec : Nat) (kind : Access) (data fill waits : Bool)
  /-- Write the bytes of a sector under a mask; `wb` for a write-back that was checked before. -/
  | write (sec : Nat) (mask bytes poison : Nat) (attr : Attr) (wb : Bool)
  /-- A far atomic. -/
  | amo (addr : Nat) (wid : Width) (op : AmoOp) (val exp : Nat) (attr : Attr) (posted : Bool)
  /-- A release probe of a group; `deep` when it goes on to the owner (R332, R333). -/
  | probe (grp : Nat) (deep : Bool)
  deriving DecidableEq, Repr

/-- A relay that a request has taken (R427): the relaying package's module, whether a stub relayed it, and the
requester's RCOUNT there after this relay, if the stub counts it. -/
structure Hop where
  mod : Nat
  stub : Bool
  count : Option Nat
  /-- The number of the relay among those of its stub (R427). -/
  seq : Nat
  deriving DecidableEq, Repr

/-- A request of a core on its way to, or held at, a home slice. -/
structure Msg where
  loc : Nat
  src : Place
  tenant : Nat
  body : MsgBody
  /-- Relays taken, the relays themselves, the latest first, and the redirect tag (R427-R429). -/
  hops : Nat
  via : List Hop
  tag : Nat
  /-- The module whose stub the tag counts relays of (R429). -/
  tagStub : Nat
  /-- It comes back with WALK status, and whether it ever did (R428). -/
  back : Bool
  walked : Bool
  /-- On a link between modules, in a frame that has not been received (R397). -/
  link : Option Frame
  /-- The cycle before which it cannot be at its home slice (R389, R441). -/
  due : Nat
  /-- A write of its core has left the L1 after it set out: what it reads may be older (R156). -/
  old : Bool
  /-- A write-back with bytes of a near atomic, which sets no TTMASK bit (R157, R341). -/
  near : Bool
  /-- The requester's attributes once its own home has translated. -/
  attr : Option Attr
  /-- The result of a fresh walk at `loc`: none when not walked, `some (some 0)` when the entry is not valid, `some none`
  when an entry read as poison. -/
  walk : Option (Option Nat)
  deriving DecidableEq, Repr

/-- An answer on its way to a core: whether it may fill the L1, and whether a bundle waits for it (a
prefetch has none). -/
structure Reply where
  dst : Place
  resp : Resp
  fill : Bool
  waits : Bool
  /-- Its bytes may be older than a write of the core that has left the L1 since it was asked for (R156). -/
  old : Bool
  /-- On a link between modules, in a frame that has not been received (R397). -/
  link : Option Frame
  /-- The node that sends it (R396). -/
  node : Nat
  /-- The cycle before which it cannot be at its core (R389, R441). -/
  due : Nat
  deriving DecidableEq, Repr

/-- What a counter's die is asked to do (R362, R363): `exit` is the decrement of a task that ends. -/
inductive CtrOp where
  | init | inc | dec | exit
  deriving DecidableEq, Repr

/-- What a group's home is asked to do (R357): `quit` is the leave of a task that ends, `look` reads GEN for a
GJOIN of a member (R365). -/
inductive GrpOp where
  | join | leave | quit | arrive | look
  deriving DecidableEq, Repr

/-- A message of another kind, in flight to the agent its step names. -/
inductive Note where
  /-- `due`: the cycle before which it cannot have arrived (R389, R441). -/
  | mcmd (src : Place) (cap : Nat) (word target : Nat) (seed : BitVec 32) (mode : Rounding) (due : Nat)
  | mcmdAns (src : Place) (reason due : Nat)
  | event (src : Place) (mod core slot : Nat) (all : Bool) (tenant due : Nat)
  | wake (die action token : Nat)
  | counter (src : Place) (die : Nat) (op : CtrOp) (ctr amount : Nat) (free : Bool) (tenant : Nat)
  | group (src : Place) (die : Nat) (op : GrpOp) (grp tenant : Nat)
  | tenq (src : Place) (die : Nat) (t : QTask)
  | close (mod vf table step lr : Nat) (who : Place)
  | closeAck (mod : Nat) (who : Place)
  | merge (mod vf table step row addr : Nat) (g : List Nat) (clu id entries : Nat)
  | steal (mod die vf home clu : Nat)
  /-- Whether a stub relayed it, the requesting node, and the module of the stub that had relayed the request before. -/
  | relayAck (mod page part tenant : Nat) (stub : Bool) (node : Nat) (prev : Option Nat)
  | redirect (die slice tenant page part pkg count stub : Nat)
  | purge (mod frm page part new at' : Nat)
  | purgeAck (mod frm page part at' : Nat)
  | inval (mod owner idx page part : Nat)
  | invalAck (mod idx holder part : Nat)
  | vs (clu entry port : Nat) (p : VsPacket)
  | vsCredit (clu entry port : Nat)
  | credit (mod src dst ch : Nat)
  deriving DecidableEq, Repr

/-- Where a flit stands at its router (R391, R394): waiting at its source for a free output, on its way, or at
the ejection unit. -/
inductive FlitStage where
  | inject | transit | eject
  deriving DecidableEq, Repr

/-- A flit on Mortar (R390), with the router it stands at or goes to. -/
structure Flit where
  mod : Nat
  node : Nat
  hdr : BitVec 64
  payload : Vec
  /-- The tenant whose packet it belongs to: its head flit names it (R405). -/
  tenant : Nat
  stage : FlitStage
  /-- The cycle in which it has arrived there (R389). -/
  ready : Nat
  deriving DecidableEq, Repr

/-- The network interface of a node (R394, R395): the accepted flits, the next sequence number to deliver and the
flits delivered since the last credit by source and channel; the next sequence number to send and the flits in
flight by destination and channel. -/
structure Eject where
  store : List Flit
  nextSeq : List (Nat × Nat)
  since : List (Nat × Nat)
  outSeq : List (Nat × Nat)
  flight : List (Nat × Nat)
  /-- The destination of the packet that is being injected, by channel (R395). -/
  opened : List (Nat × Nat)
  deriving DecidableEq, Repr

end Sys2Proof.Machine
end

