-- ==== Sys2Proof/Machine/Event.lean ====
section
/-! DEFINITION. A step that is due in State: the same steps, with the same operands, as the rows of
spec/opcode_table.json that have no encoding. A type of its own, because State holds a list of them. -/

namespace Sys2Proof.Machine

open Sys2Proof

/-- A step of another agent, or of the outside, that is due. -/
inductive Event where
  /-- ASYNC_TRAP_ENTRY (R95). -/
  | asyncTrapEntry (p : Place)
  /-- ITIMER_FIRE (R96). -/
  | itimerFire (p : Place)
  /-- INTDB_WRITE (R379). -/
  | intdbWrite (m : Nat) (vf : Nat) (v : Word)
  /-- PREEMPT_NOTICE (R383). -/
  | preemptNotice (m : Nat) (vf : Nat) (w : Word)
  /-- SSTAT_WRITE (R86). -/
  | sstatWrite (v : Word)
  /-- IPEND_CLEAR (R96). -/
  | ipendClear (v : Word)
  /-- REGISTER_WRITE (R10). -/
  | registerWrite (csr : BitVec 12) (v : Word)
  /-- MEM_RESPONSE (R175). -/
  | memResponse (p : Place)
  /-- COURSE_FORWARD (R181). -/
  | courseForward (p : Place)
  /-- COURSE_TIMEOUT (R187). -/
  | courseTimeout (clu : Nat) (idx : Nat)
  /-- REALIGN_TIMEOUT (R186). -/
  | realignTimeout (p : Place)
  /-- STREAM_ELEMENT_FETCH (R193). -/
  | streamElementFetch (core : Nat) (unit : Nat)
  /-- STREAM_PUSH (R192). -/
  | streamPush (core : Nat) (unit : Nat)
  /-- MATRIX_OP_COMPLETE (R203). -/
  | matrixOpComplete (core : Nat) (st : Nat)
  /-- MCMD_COMMAND (R223). -/
  | mcmdCommand (src : Place)
  /-- MCMD_ANSWER (R223). -/
  | mcmdAnswer (src : Place)
  /-- SPART_CONVERSION (R228). -/
  | spartConversion (clu : Nat)
  /-- WAITW_MONITOR_FIRE (R229). -/
  | waitwMonitorFire (p : Place)
  /-- SEV_EVENT (R232). -/
  | sevEvent (src : Place)
  /-- TIME_SLICE_EXPIRY (R378). -/
  | timeSliceExpiry (m : Nat) (part : Nat)
  /-- SLOT_HANDOVER (R233). -/
  | slotHandover (p : Place) (vf : Nat)
  /-- BTE_TRANSFER_ACTIVATE (R254). -/
  | bteTransferActivate (clu : Nat)
  /-- BTE_WRITE_LAND (R254). -/
  | bteWriteLand (clu : Nat) (id : Nat)
  /-- BTE_CONSUMER_UPDATE (R255). -/
  | bteConsumerUpdate (clu : Nat) (id : Nat)
  /-- IXE_ELEMENT_COPY (R260). -/
  | ixeElementCopy (clu : Nat) (id : Nat)
  /-- ENGINE_COMPLETION (R247). -/
  | engineCompletion (clu : Nat) (ixe : Bool) (id : Nat)
  /-- CRINGTAIL_WRITE (R248). -/
  | cringtailWrite (clu : Nat) (v : Word)
  /-- ENGINE_OFFLINE (R265). -/
  | engineOffline (clu : Nat) (ixe : Bool)
  /-- AUTO_MIGRATION (R262). -/
  | autoMigration (core : Nat)
  /-- MIGRATION_ARRIVAL (R261). -/
  | migrationArrival (clu : Nat)
  /-- MIGRATION_SLOT_FREE (R263). -/
  | migrationSlotFree (clu : Nat)
  /-- KLE_SCORING (R274). -/
  | kleScoring (clu : Nat) (ctx : Nat)
  /-- KLE_SERVICE_ROUND (R277). -/
  | kleServiceRound (die : Nat) (slice : Nat)
  /-- KLE_ROW_ARRIVAL (R274). -/
  | kleRowArrival (clu : Nat) (ctx : Nat)
  /-- KLE_READ_TIMEOUT (R276). -/
  | kleReadTimeout (clu : Nat) (ctx : Nat) (rank : Nat)
  /-- KLE_LOOKUP_COMPLETE (R274). -/
  | kleLookupComplete (clu : Nat) (ctx : Nat)
  /-- KLE_OFFLINE (R287). -/
  | kleOffline (clu : Nat)
  /-- EUPD_DIRECT_ADD (R296). -/
  | eupdDirectAdd (clu : Nat) (id : Nat)
  /-- MERGE_CONTRIBUTION (R296). -/
  | mergeContribution (m : Nat)
  /-- MERGE_CLOSE (R297). -/
  | mergeClose (m : Nat)
  /-- CLOSE_ACK (R297). -/
  | closeAck (src : Place)
  /-- HOME_SLICE_REQUEST (R306). -/
  | homeSliceRequest (m : Nat) (src : Place)
  /-- FAR_ATOMIC_EXECUTE (R331). -/
  | farAtomicExecute (m : Nat) (src : Place)
  /-- PAGE_WALK (R313). -/
  | pageWalk (die : Nat) (page : Nat)
  /-- FAULTACK (R319). -/
  | faultack (v : Word)
  /-- FAULTACK_WAKE (R319). -/
  | faultackWake (die : Nat)
  /-- RELEASE_PROBE (R333). -/
  | releaseProbe (m : Nat) (src : Place) (grp : Nat)
  /-- PROBE_ECHO (R333). -/
  | probeEcho (p : Place) (grp : Nat)
  /-- UNCORRECTABLE_ERROR (R320). -/
  | uncorrectableError (site : ErrSite)
  /-- CORRECTABLE_ERROR (R320). -/
  | correctableError (die : Nat)
  /-- DIEERRLOG (R320). -/
  | dieerrlog (d : GReg)
  /-- TASK_DISPATCH (R350). -/
  | taskDispatch (die : Nat) (clu : Nat)
  /-- ADMISSION_SERVE (R353). -/
  | admissionServe (die : Nat)
  /-- TASK_STEAL (R356). -/
  | taskSteal (die : Nat) (clu : Nat) (vf : Nat)
  /-- STEAL_REQUEST (R356). -/
  | stealRequest (die : Nat) (vf : Nat)
  /-- STEAL_RETRY (R356). -/
  | stealRetry (die : Nat) (vf : Nat)
  /-- COUNTER_UPDATE (R354). -/
  | counterUpdate (die : Nat) (src : Place)
  /-- GROUP_UPDATE (R357). -/
  | groupUpdate (die : Nat) (src : Place)
  /-- GRANT_EXPIRY (R364). -/
  | grantExpiry (p : Place)
  /-- BUDGET_SET (R352). -/
  | budgetSet (die : Nat) (units : Nat)
  /-- THERMAL_STEP (R387). -/
  | thermalStep (die : Nat) (hot : Bool)
  /-- CRITICAL_TEMPERATURE (R387). -/
  | criticalTemperature (m : Nat)
  /-- SHUTDOWN_TEMPERATURE (R387). -/
  | shutdownTemperature (m : Nat)
  /-- LQDB (R379). -/
  | lqdb (m : Nat) (vf : Nat)
  /-- LAUNCH_TAKE (R380). -/
  | launchTake (m : Nat) (vf : Nat)
  /-- LAUNCH_END (R380). -/
  | launchEnd (m : Nat) (vf : Nat)
  /-- VF_RESET (R383). -/
  | vfReset (m : Nat) (vf : Nat)
  /-- VF_POLICY_WRITE (R375). -/
  | vfPolicyWrite (m : Nat) (vf : Nat) (f : PolicyField)
  /-- HOST_BAR_WRITE (R379, R380): `n` bytes of `v` written, or with `16 + n` added atomically. -/
  | hostBarWrite (m : Nat) (vf : Nat) (bar2 : Bool) (a : Word) (v : Word) (n : Nat)
  /-- HOST_PORT_DOWN (R379). -/
  | hostPortDown (m : Nat) (port : Nat)
  /-- PACKAGE_NUMBER_WRITE (R386). -/
  | packageNumberWrite (m : Nat) (v : BitVec 12)
  /-- LINK_TRAINING (R386): `link` is the link's number, plus 64 times the direction that it is cabled in. -/
  | linkTraining (m : Nat) (link : Nat) (peer : Nat) (ok : Bool)
  /-- MODULE_RESET (R384). -/
  | moduleReset (m : Nat)
  /-- FIRMWARE_FETCH_RETRY (R384). -/
  | firmwareFetchRetry (m : Nat) (img : FwImage)
  /-- ATTESTATION_REQUEST (R385). -/
  | attestationRequest (m : Nat) (nonce : BitVec 256)
  /-- STACK_FAILURE (R374). -/
  | stackFailure (m : Nat) (stack : Nat)
  /-- OCHRE_CORE_FAULT (R388). -/
  | ochreCoreFault (m : Nat) (pd : Nat) (core : Nat)
  /-- FLIT_ROUTE (R391). -/
  | flitRoute (m : Nat) (node : Nat)
  /-- FLIT_EJECT (R394). -/
  | flitEject (m : Nat) (node : Nat)
  /-- PACKET_DELIVER (R395). -/
  | packetDeliver (m : Nat) (node : Nat) (src : Nat) (ch : Nat)
  /-- DELIVERY_CREDIT (R395). -/
  | deliveryCredit (m : Nat) (src : Nat) (dst : Nat) (ch : Nat)
  /-- LINK_FRAME_RECEIVE (R397). -/
  | linkFrameReceive (m : Nat) (pd : Nat)
  /-- LINK_DOWN (R398). -/
  | linkDown (m : Nat) (link : Nat)
  /-- PATH_FAILED (R398). -/
  | pathFailed (m : Nat) (peer : Nat)
  /-- ACCESS_TIMEOUT (R399). -/
  | accessTimeout (p : Place)
  /-- VS_PACKET_ARRIVE (R406). -/
  | vsPacketArrive (clu : Nat) (port : Nat)
  /-- VS_CREDIT (R406). -/
  | vsCredit (clu : Nat) (entry : Nat) (port : Nat)
  /-- GANG_QUERY (R416). -/
  | gangQuery (m : Nat) (vf : Nat)
  /-- GANG_PAUSE (R416). -/
  | gangPause (m : Nat) (vf : Nat)
  /-- GANG_DRAIN_COMPLETE (R416). -/
  | gangDrainComplete (m : Nat) (vf : Nat)
  /-- GANG_STOP_TIMEOUT (R416). -/
  | gangStopTimeout (m : Nat) (vf : Nat)
  /-- GANG_RESUME (R416). -/
  | gangResume (m : Nat) (vf : Nat)
  /-- MIGRATION_COMMAND_TAKE (R420). -/
  | migrationCommandTake (m : Nat)
  /-- MOVE (R423). -/
  | move (m : Nat) (idx : Nat)
  /-- DUP (R423). -/
  | dup (m : Nat) (idx : Nat)
  /-- COLLAPSE (R433). -/
  | collapse (m : Nat) (idx : Nat)
  /-- RECLAIM (R430). -/
  | reclaim (m : Nat) (idx : Nat)
  /-- MIGRATION_CUTOVER (R423). -/
  | migrationCutover (m : Nat) (idx : Nat)
  /-- MIGRATION_COMMAND_COMPLETE (R420). -/
  | migrationCommandComplete (m : Nat) (idx : Nat)
  /-- STUB_RELAY (R427). -/
  | stubRelay (m : Nat) (src : Place)
  /-- RELAY_ACK (R427). -/
  | relayAck (m : Nat) (page : Nat) (part : Nat)
  /-- WALK_RETURN (R428). -/
  | walkReturn (die : Nat) (src : Place)
  /-- REDIRECT (R429). -/
  | redirect (die : Nat) (page : Nat) (part : Nat)
  /-- STUB_QUIET_EXPIRY (R430). -/
  | stubQuietExpiry (m : Nat) (page : Nat) (part : Nat)
  /-- PURGE (R430). -/
  | purge (m : Nat) (frm : Nat) (page : Nat) (part : Nat)
  /-- PURGE_ACK (R430). -/
  | purgeAck (m : Nat) (frm : Nat) (page : Nat) (part : Nat)
  /-- COLLAPSE_INVALIDATE (R433). -/
  | collapseInvalidate (m : Nat) (idx : Nat) (holder : Nat)
  /-- COLLAPSE_ACK (R433). -/
  | collapseAck (m : Nat) (idx : Nat) (holder : Nat)
  /-- FAULT_QUEUE_TAIL_ADVANCE (R317). -/
  | faultQueueTailAdvance (m : Nat) (vf : Nat) (n : Nat)
  /-- KEY_LOAD (R397). -/
  | keyLoad (m : Nat) (pd : Nat) (kid : Nat) (next : Bool) (key : BitVec 256)
  /-- HOST_PORT_UP (R379). -/
  | hostPortUp (m : Nat) (port : Nat)
  /-- PORT_DIE_FAILURE (R388). -/
  | portDieFailure (m : Nat) (pd : Nat)
  /-- ENGINE_RESTORE (R265). -/
  | engineRestore (clu : Nat) (eng : Nat)
  /-- PARTITION_CONFIGURE (R376). -/
  | partitionConfigure (m : Nat) (part : Nat) (cfg : PartCfg)
  /-- ERROR_COUNTER_CLEAR (R321). -/
  | errorCounterClear (die : Nat)
  deriving DecidableEq, Repr

end Sys2Proof.Machine
end

