-- ==== Sys2Proof/Syntax.lean ====
section
/-! DEFINITION. The steps of the K1: one constructor for each row of spec/opcode_table.json. The
first 197 are instructions with an encoding (R77, R78); the other 117 are the steps of the
machine's other agents and of the outside, which the table lists without one. -/

namespace Sys2Proof

/-- One step of the K1. -/
inductive Instr where
  /-- NOP (R144). -/
  | nop
  /-- BR (R144). -/
  | br (off : BitVec 23)
  /-- CALL (R145). -/
  | call (off : BitVec 23)
  /-- JMP (R146). -/
  | jmp (a : GReg) (imm : BitVec 13)
  /-- CALLR (R146). -/
  | callr (a : GReg) (imm : BitVec 13)
  /-- BEQ (R144). -/
  | beq (a : GReg) (b : GReg) (off : BitVec 13)
  /-- BNE (R144). -/
  | bne (a : GReg) (b : GReg) (off : BitVec 13)
  /-- BLT (R144). -/
  | blt (a : GReg) (b : GReg) (off : BitVec 13)
  /-- BGE (R144). -/
  | bge (a : GReg) (b : GReg) (off : BitVec 13)
  /-- BLTU (R144). -/
  | bltu (a : GReg) (b : GReg) (off : BitVec 13)
  /-- BGEU (R144). -/
  | bgeu (a : GReg) (b : GReg) (off : BitVec 13)
  /-- JTAB (R147). -/
  | jtab (d : GReg) (a : GReg) (imm : BitVec 13)
  /-- LOOP (R189). -/
  | loop (a : GReg) (imm : BitVec 13)
  /-- LOOPX (R190). -/
  | loopx (a : GReg)
  /-- REALIGN (R186). -/
  | realign (imm : BitVec 13)
  /-- COURSE (R187). -/
  | course (d : GReg) (a : GReg)
  /-- LDB (R159). -/
  | ldb (t : GReg) (base : GReg) (off : BitVec 10) (hint : Bool)
  /-- LDBU (R159). -/
  | ldbu (t : GReg) (base : GReg) (off : BitVec 10) (hint : Bool)
  /-- LDH (R159). -/
  | ldh (t : GReg) (base : GReg) (off : BitVec 10) (hint : Bool)
  /-- LDHU (R159). -/
  | ldhu (t : GReg) (base : GReg) (off : BitVec 10) (hint : Bool)
  /-- LDW (R159). -/
  | ldw (t : GReg) (base : GReg) (off : BitVec 10) (hint : Bool)
  /-- LDWU (R159). -/
  | ldwu (t : GReg) (base : GReg) (off : BitVec 10) (hint : Bool)
  /-- LDD (R159). -/
  | ldd (t : GReg) (base : GReg) (off : BitVec 10) (hint : Bool)
  /-- STB (R159). -/
  | stb (t : GReg) (base : GReg) (off : BitVec 10) (hint : Bool)
  /-- STH (R159). -/
  | sth (t : GReg) (base : GReg) (off : BitVec 10) (hint : Bool)
  /-- STW (R159). -/
  | stw (t : GReg) (base : GReg) (off : BitVec 10) (hint : Bool)
  /-- STD (R159). -/
  | std (t : GReg) (base : GReg) (off : BitVec 10) (hint : Bool)
  /-- LDAQ (R172). -/
  | ldaq (t : GReg) (base : GReg) (wid : Width) (off : BitVec 8) (sc : Scope)
  /-- STRL (R172). -/
  | strl (t : GReg) (base : GReg) (wid : Width) (off : BitVec 8) (sc : Scope)
  /-- LDF (R161). -/
  | ldf (t : GReg) (base : GReg) (off : BitVec 10) (rs : RoundSel)
  /-- STF (R161). -/
  | stf (t : GReg) (base : GReg) (off : BitVec 10) (rs : RoundSel)
  /-- PREF (R160). -/
  | pref (kind : PrefKind) (base : GReg) (off : BitVec 10)
  /-- VLD (R162). -/
  | vld (t : VReg) (base : GReg) (off : BitVec 10) (hint : Bool) (k : KReg)
  /-- VST (R162). -/
  | vst (t : VReg) (base : GReg) (off : BitVec 10) (hint : Bool) (k : KReg)
  /-- VLDS (R163). -/
  | vlds (d : VReg) (a : GReg) (b : GReg) (wid : Width) (k : KReg)
  /-- VSTS (R163). -/
  | vsts (d : VReg) (a : GReg) (b : GReg) (wid : Width) (k : KReg)
  /-- VLDF (R165). -/
  | vldf (t : VReg) (base : GReg) (off : BitVec 10) (ty : VecFmt)
  /-- VSTF (R165). -/
  | vstf (t : VReg) (base : GReg) (off : BitVec 10) (ty : VecFmt)
  /-- VGATH (R164). -/
  | vgath (d : VReg) (a : GReg) (b : VReg) (wid : Width) (k : KReg)
  /-- VSCAT (R164). -/
  | vscat (d : VReg) (a : GReg) (b : VReg) (wid : Width) (k : KReg)
  /-- AMOADD (R167). -/
  | amoadd (d : GReg) (a : GReg) (b : GReg) (wid : Width) (sc : Scope) (near : Bool) (rl : Bool) (aq : Bool)
  /-- AMOAND (R167). -/
  | amoand (d : GReg) (a : GReg) (b : GReg) (wid : Width) (sc : Scope) (near : Bool) (rl : Bool) (aq : Bool)
  /-- AMOOR (R167). -/
  | amoor (d : GReg) (a : GReg) (b : GReg) (wid : Width) (sc : Scope) (near : Bool) (rl : Bool) (aq : Bool)
  /-- AMOXOR (R167). -/
  | amoxor (d : GReg) (a : GReg) (b : GReg) (wid : Width) (sc : Scope) (near : Bool) (rl : Bool) (aq : Bool)
  /-- AMOMIN (R167). -/
  | amomin (d : GReg) (a : GReg) (b : GReg) (wid : Width) (sc : Scope) (near : Bool) (rl : Bool) (aq : Bool)
  /-- AMOMAX (R167). -/
  | amomax (d : GReg) (a : GReg) (b : GReg) (wid : Width) (sc : Scope) (near : Bool) (rl : Bool) (aq : Bool)
  /-- AMOMINU (R167). -/
  | amominu (d : GReg) (a : GReg) (b : GReg) (wid : Width) (sc : Scope) (near : Bool) (rl : Bool) (aq : Bool)
  /-- AMOMAXU (R167). -/
  | amomaxu (d : GReg) (a : GReg) (b : GReg) (wid : Width) (sc : Scope) (near : Bool) (rl : Bool) (aq : Bool)
  /-- AMOSWP (R167). -/
  | amoswp (d : GReg) (a : GReg) (b : GReg) (wid : Width) (sc : Scope) (near : Bool) (rl : Bool) (aq : Bool)
  /-- AMOCAS (R167). -/
  | amocas (d : GReg) (a : GReg) (b : GReg) (wid : Width) (sc : Scope) (near : Bool) (rl : Bool) (aq : Bool)
  /-- AMOFADD (R167). -/
  | amofadd (d : GReg) (a : GReg) (b : GReg) (wid : Width) (sc : Scope) (near : Bool) (rl : Bool) (aq : Bool)
  /-- AMOFMAX (R167). -/
  | amofmax (d : GReg) (a : GReg) (b : GReg) (wid : Width) (sc : Scope) (near : Bool) (rl : Bool) (aq : Bool)
  /-- FENCE (R171). -/
  | fence (sc : Scope)
  /-- ACQ (R171). -/
  | acq (sc : Scope)
  /-- REL (R171). -/
  | rel (sc : Scope)
  /-- WAITW (R229). -/
  | waitw (d : GReg) (a : GReg) (b : GReg) (wid : Width)
  /-- WFE (R231). -/
  | wfe
  /-- SEV (R232). -/
  | sev (a : GReg) (sc : Scope) (all : Bool)
  /-- BARARR (R258). -/
  | bararr (d : GReg) (a : GReg) (sc : Scope)
  /-- BARWT (R258). -/
  | barwt (a : GReg) (b : GReg) (sc : Scope)
  /-- BARXB (R258). -/
  | barxb (a : GReg) (b : GReg)
  /-- GSYNC (R365). -/
  | gsync (d : GReg) (a : GReg) (sc : Scope)
  /-- SCFG (R194). -/
  | scfg (d : GReg) (a : GReg)
  /-- SBIND (R194). -/
  | sbind (d : VReg) (a : GReg) (wr : Bool)
  /-- SFREE (R194). -/
  | sfree (a : GReg)
  /-- SPOS (R194). -/
  | spos (d : GReg) (a : GReg) (b : GReg) (upd : Bool)
  /-- BTSET (R252). -/
  | btset (n : Fin 13) (a : GReg) (imm : BitVec 13)
  /-- BTGO (R253). -/
  | btgo (d : GReg) (sc : Scope)
  /-- BTPOLL (R249). -/
  | btpoll (d : GReg) (a : GReg) (wait : Bool)
  /-- IXPOST (R260). -/
  | ixpost (d : GReg) (a : GReg) (sc : Scope) (resume : Bool)
  /-- KLSET (R281). -/
  | klset (d : GReg) (a : GReg) (b : GReg) (clr : Bool)
  /-- KLOOK (R282). -/
  | klook (d : GReg) (a : GReg) (b : GReg) (sc : Scope)
  /-- KLWAIT (R283). -/
  | klwait (d : GReg) (a : GReg) (poll : Bool)
  /-- KLRES (R284). -/
  | klres (d : GReg) (a : GReg) (sc : Scope) (drop : Bool)
  /-- EBAG (R291). -/
  | ebag (d : GReg) (a : GReg) (b : GReg) (sc : Scope)
  /-- EUPD (R296). -/
  | eupd (d : GReg) (a : GReg) (b : GReg) (sc : Scope) (resume : Bool)
  /-- EUPD_CLOSE (R297). -/
  | eupdClose (d : GReg) (a : GReg) (b : GReg) (sc : Scope)
  /-- TENQ (R360). -/
  | tenq (d : GReg) (a : GReg) (sc : Scope)
  /-- TDEQ (R361). -/
  | tdeq (d : GReg) (a : GReg) (b : GReg)
  /-- DCINIT (R362). -/
  | dcinit (d : GReg) (a : GReg) (imm : BitVec 13)
  /-- DCDEC (R362). -/
  | dcdec (d : GReg) (a : GReg) (b : GReg) (sc : Scope) (free : Bool)
  /-- DCINC (R362). -/
  | dcinc (d : GReg) (a : GReg) (b : GReg)
  /-- TYIELD (R363). -/
  | tyield (a : GReg) (b : GReg) (sc : Scope)
  /-- TEXIT (R363). -/
  | texit (sc : Scope)
  /-- PWREQ (R364). -/
  | pwreq (d : GReg) (a : GReg) (imm : BitVec 13)
  /-- PWREL (R364). -/
  | pwrel
  /-- SMIG (R264). -/
  | smig (d : GReg) (a : GReg)
  /-- GJOIN (R365). -/
  | gjoin (d : GReg) (a : GReg) (imm : BitVec 13)
  /-- GLEAVE (R365). -/
  | gleave (d : GReg) (a : GReg) (imm : BitVec 13)
  /-- QSEND (R412). -/
  | qsend (q : QReg) (b : VReg) (fin : Bool)
  /-- QRECV (R413). -/
  | qrecv (d : VReg) (q : QReg) (b : GReg) (poll : Bool)
  /-- VSOPEN (R411). -/
  | vsopen (d : GReg) (a : GReg) (nb : Bool) (q : QReg) (entry : BitVec 8)
  /-- VSMARK (R414). -/
  | vsmark (q : QReg) (b : GReg)
  /-- VSCLOSE (R411). -/
  | vsclose (d : GReg) (entry : BitVec 8)
  /-- MCMD (R223). -/
  | mcmd (d : GReg) (a : GReg) (b : GReg)
  /-- CSRR (R101). -/
  | csrr (d : GReg) (csr : BitVec 12)
  /-- CSRW (R101). -/
  | csrw (a : GReg) (csr : BitVec 12)
  /-- CSRX (R101). -/
  | csrx (d : GReg) (a : GReg) (csr : BitVec 12)
  /-- TRAP (R102). -/
  | trap (imm : BitVec 13)
  /-- ERET (R103). -/
  | eret
  /-- PLBINV_PAGE (R322). -/
  | plbinvPage (a : GReg) (sc : Scope)
  /-- PLBINV_DOM (R322). -/
  | plbinvDom (a : GReg) (sc : Scope)
  /-- PLBINV_VF (R322). -/
  | plbinvVf (sc : Scope)
  /-- CFLUSH_CODE (R323). -/
  | cflushCode (a : GReg) (b : GReg) (sc : Scope)
  /-- CFLUSH_WB (R323). -/
  | cflushWb (a : GReg) (b : GReg)
  /-- CFLUSH_INV (R323). -/
  | cflushInv (a : GReg) (b : GReg)
  /-- SPART (R228). -/
  | spart (d : GReg) (a : GReg) (imm : BitVec 13)
  /-- CTXSAVE (R235). -/
  | ctxsave (d : GReg) (a : GReg)
  /-- CTXLOAD (R235). -/
  | ctxload (d : GReg) (a : GReg)
  /-- ANOP (R107). -/
  | anop
  /-- ADD (R108). -/
  | add (d : GReg) (a : GReg) (b : GReg) (p : Bool)
  /-- SUB (R108). -/
  | sub (d : GReg) (a : GReg) (b : GReg) (p : Bool)
  /-- ADDI (R109). -/
  | addi (d : GReg) (a : GReg) (imm : BitVec 13)
  /-- MUL (R112). -/
  | mul (d : GReg) (a : GReg) (b : GReg)
  /-- MULH (R112). -/
  | mulh (d : GReg) (a : GReg) (b : GReg)
  /-- MULHU (R112). -/
  | mulhu (d : GReg) (a : GReg) (b : GReg)
  /-- DIV (R113). -/
  | div (d : GReg) (a : GReg) (b : GReg)
  /-- DIVU (R113). -/
  | divu (d : GReg) (a : GReg) (b : GReg)
  /-- REM (R113). -/
  | rem (d : GReg) (a : GReg) (b : GReg)
  /-- REMU (R113). -/
  | remu (d : GReg) (a : GReg) (b : GReg)
  /-- AND (R110). -/
  | and (d : GReg) (a : GReg) (b : GReg)
  /-- OR (R110). -/
  | or (d : GReg) (a : GReg) (b : GReg)
  /-- XOR (R110). -/
  | xor (d : GReg) (a : GReg) (b : GReg)
  /-- ANDI (R110). -/
  | andi (d : GReg) (a : GReg) (imm : BitVec 13)
  /-- ORI (R110). -/
  | ori (d : GReg) (a : GReg) (imm : BitVec 13)
  /-- XORI (R110). -/
  | xori (d : GReg) (a : GReg) (imm : BitVec 13)
  /-- SHL (R111). -/
  | shl (d : GReg) (a : GReg) (b : GReg)
  /-- SHR (R111). -/
  | shr (d : GReg) (a : GReg) (b : GReg)
  /-- SAR (R111). -/
  | sar (d : GReg) (a : GReg) (b : GReg)
  /-- SHLI (R111). -/
  | shli (d : GReg) (a : GReg) (sh : BitVec 6)
  /-- SHRI (R111). -/
  | shri (d : GReg) (a : GReg) (sh : BitVec 6)
  /-- SARI (R111). -/
  | sari (d : GReg) (a : GReg) (sh : BitVec 6)
  /-- LIMM (R117). -/
  | limm (d : GReg) (sel : BitVec 2) (imm : BitVec 16)
  /-- SLT (R114). -/
  | slt (d : GReg) (a : GReg) (b : GReg)
  /-- SLTU (R114). -/
  | sltu (d : GReg) (a : GReg) (b : GReg)
  /-- SEQ (R114). -/
  | seq (d : GReg) (a : GReg) (b : GReg)
  /-- SEL (R115). -/
  | sel (d : GReg) (a : GReg) (b : GReg)
  /-- CLZ (R116). -/
  | clz (d : GReg) (a : GReg)
  /-- POPC (R116). -/
  | popc (d : GReg) (a : GReg)
  /-- MIN (R114). -/
  | min (d : GReg) (a : GReg) (b : GReg) (u : Bool)
  /-- MAX (R114). -/
  | max (d : GReg) (a : GReg) (b : GReg) (u : Bool)
  /-- PFMT (R118). -/
  | pfmt (d : GReg) (a : GReg) (b : GReg)
  /-- PGETF (R119). -/
  | pgetf (d : GReg) (a : GReg) (sel : BitVec 2)
  /-- PADDE (R120). -/
  | padde (d : GReg) (a : GReg) (b : GReg)
  /-- PCADDR (R122). -/
  | pcaddr (d : GReg) (imm : BitVec 13)
  /-- FADD (R125). -/
  | fadd (d : GReg) (a : GReg) (b : GReg) (rs : RoundSel) (ft : FloatFmt)
  /-- FSUB (R125). -/
  | fsub (d : GReg) (a : GReg) (b : GReg) (rs : RoundSel) (ft : FloatFmt)
  /-- FMUL (R125). -/
  | fmul (d : GReg) (a : GReg) (b : GReg) (rs : RoundSel) (ft : FloatFmt)
  /-- FMA (R125). -/
  | fma (d : GReg) (a : GReg) (b : GReg) (rs : RoundSel) (ft : FloatFmt)
  /-- FDIV (R125). -/
  | fdiv (d : GReg) (a : GReg) (b : GReg) (rs : RoundSel) (ft : FloatFmt)
  /-- FSQRT (R125). -/
  | fsqrt (d : GReg) (a : GReg) (rs : RoundSel) (ft : FloatFmt)
  /-- FMIN (R126). -/
  | fmin (d : GReg) (a : GReg) (b : GReg) (ft : FloatFmt)
  /-- FMAX (R126). -/
  | fmax (d : GReg) (a : GReg) (b : GReg) (ft : FloatFmt)
  /-- FCMP (R127). -/
  | fcmp (d : GReg) (a : GReg) (b : GReg) (ft : FloatFmt)
  /-- FCVT (R128). -/
  | fcvt (d : GReg) (a : GReg) (frm : Bool) (other : FloatCode) (rs : RoundSel) (ft : FloatFmt)
  /-- FCVTI (R129). -/
  | fcvti (d : GReg) (a : GReg) (ity : IntTy) (rs : RoundSel) (ft : FloatFmt)
  /-- ICVTF (R129). -/
  | icvtf (d : GReg) (a : GReg) (ity : IntTy) (rs : RoundSel) (ft : FloatFmt)
  /-- VADD (R133). -/
  | vadd (d : VReg) (a : VReg) (b : VReg) (k : KReg) (ty : EType) (rm : Rounding) (sat : Bool)
  /-- VSUB (R133). -/
  | vsub (d : VReg) (a : VReg) (b : VReg) (k : KReg) (ty : EType) (rm : Rounding) (sat : Bool)
  /-- VMUL (R133). -/
  | vmul (d : VReg) (a : VReg) (b : VReg) (k : KReg) (ty : EType) (rm : Rounding)
  /-- VFMA (R133). -/
  | vfma (d : VReg) (a : VReg) (b : VReg) (k : KReg) (ty : EType) (rm : Rounding)
  /-- VMAX (R133). -/
  | vmax (d : VReg) (a : VReg) (b : VReg) (k : KReg) (ty : EType)
  /-- VMIN (R133). -/
  | vmin (d : VReg) (a : VReg) (b : VReg) (k : KReg) (ty : EType)
  /-- VAND (R133). -/
  | vand (d : VReg) (a : VReg) (b : VReg) (k : KReg) (ty : EType)
  /-- VOR (R133). -/
  | vor (d : VReg) (a : VReg) (b : VReg) (k : KReg) (ty : EType)
  /-- VXOR (R133). -/
  | vxor (d : VReg) (a : VReg) (b : VReg) (k : KReg) (ty : EType)
  /-- VSHL (R133). -/
  | vshl (d : VReg) (a : VReg) (b : VReg) (k : KReg) (ty : EType)
  /-- VSHR (R133). -/
  | vshr (d : VReg) (a : VReg) (b : VReg) (k : KReg) (ty : EType) (log : Bool)
  /-- VCMP (R134). -/
  | vcmp (c : KReg) (a : VReg) (b : VReg) (k : KReg) (ty : EType) (cond : VCond)
  /-- VSEL (R134). -/
  | vsel (d : VReg) (a : VReg) (b : VReg) (k : KReg) (ty : EType)
  /-- VCVT (R135). -/
  | vcvt (d : VReg) (a : VReg) (dty : EType) (k : KReg) (ty : EType) (rm : Rounding) (part : BitVec 3)
  /-- VREDSUM (R136). -/
  | vredsum (d : VReg) (a : VReg) (b : VReg) (k : KReg) (ty : EType) (acc : FloatFmt)
  /-- VREDMAX (R136). -/
  | vredmax (d : VReg) (a : VReg) (k : KReg) (ty : EType)
  /-- VEXP (R133). -/
  | vexp (d : VReg) (a : VReg) (k : KReg)
  /-- VRCP (R133). -/
  | vrcp (d : VReg) (a : VReg) (k : KReg) (ty : EType) (rm : Rounding)
  /-- VSPLAT (R140). -/
  | vsplat (d : VReg) (a : GReg) (wid : Width)
  /-- VPERM (R139). -/
  | vperm (d : VReg) (a : VReg) (b : VReg) (k : KReg) (ty : EType) (z : Bool)
  /-- VMOVG (R140). -/
  | vmovg (d : GReg) (a : VReg) (b : GReg) (wid : Width) (s : Bool)
  /-- VMOVV (R140). -/
  | vmovv (d : VReg) (a : GReg) (b : GReg) (wid : Width)
  /-- VTOPK (R138). -/
  | vtopk (d : VReg) (a : VReg) (b : BitVec 4) (k : KReg) (ty : EType)
  /-- VDOT (R137). -/
  | vdot (d : VReg) (a : VReg) (b : VReg) (k : KReg) (ty : EType) (acc : FloatFmt)
  /-- TSHAPE (R214). -/
  | tshape (d : TReg) (a : GReg)
  /-- TLD (R215). -/
  | tld (d : TReg) (a : GReg) (b : GReg) (st : BitVec 2)
  /-- TST (R215). -/
  | tst (d : TReg) (a : GReg) (b : GReg) (st : BitVec 2)
  /-- TZERO (R216). -/
  | tzero (d : TReg) (st : BitVec 2)
  /-- MMA (R207). -/
  | mma (d : TReg) (a : TReg) (b : TReg) (df : Dataflow) (st : BitVec 2) (acc : FloatFmt)
  /-- MMAS (R207). -/
  | mmas (d : TReg) (a : TReg) (b : TReg) (df : Dataflow) (st : BitVec 2) (acc : FloatFmt)
  /-- MMSS (R207). -/
  | mmss (d : TReg) (a : TReg) (b : TReg) (df : Dataflow) (st : BitVec 2) (acc : FloatFmt)
  /-- TCVT (R217). -/
  | tcvt (d : TReg) (a : TReg) (st : BitVec 2) (rs : RoundSel)
  /-- TADD (R217). -/
  | tadd (d : TReg) (a : TReg) (b : TReg) (st : BitVec 2) (rs : RoundSel)
  /-- TSCALE (R217). -/
  | tscale (d : TReg) (a : TReg) (b : TReg) (st : BitVec 2) (rs : RoundSel) (col : Bool)
  /-- TTRANS (R217). -/
  | ttrans (d : TReg) (a : TReg) (st : BitVec 2)
  /-- MJOIN (R218). -/
  | mjoin (mask : BitVec 4)
  /-- TALLOC (R219). -/
  | talloc (d : GReg) (a : GReg)
  /-- TFREE (R219). -/
  | tfree (a : GReg)
  /-- TMOVV (R220). -/
  | tmovv (d : VReg) (a : TReg) (b : GReg) (st : BitVec 2)
  /-- VMOVT (R220). -/
  | vmovt (d : TReg) (a : VReg) (b : GReg) (st : BitVec 2)
  /-- ASYNC_TRAP_ENTRY, a step without an encoding (R95). -/
  | asyncTrapEntry (p : Place)
  /-- ITIMER_FIRE, a step without an encoding (R96). -/
  | itimerFire (p : Place)
  /-- INTDB_WRITE, a step without an encoding (R379). -/
  | intdbWrite (m : Nat) (vf : Nat) (v : Word)
  /-- PREEMPT_NOTICE, a step without an encoding (R383). -/
  | preemptNotice (m : Nat) (vf : Nat) (w : Word)
  /-- SSTAT_WRITE, a step without an encoding (R86). -/
  | sstatWrite (v : Word)
  /-- IPEND_CLEAR, a step without an encoding (R96). -/
  | ipendClear (v : Word)
  /-- REGISTER_WRITE, a step without an encoding (R10). -/
  | registerWrite (csr : BitVec 12) (v : Word)
  /-- MEM_RESPONSE, a step without an encoding (R175). -/
  | memResponse (p : Place)
  /-- COURSE_FORWARD, a step without an encoding (R181). -/
  | courseForward (p : Place)
  /-- COURSE_TIMEOUT, a step without an encoding (R187). -/
  | courseTimeout (clu : Nat) (idx : Nat)
  /-- REALIGN_TIMEOUT, a step without an encoding (R186). -/
  | realignTimeout (p : Place)
  /-- STREAM_ELEMENT_FETCH, a step without an encoding (R193). -/
  | streamElementFetch (core : Nat) (unit : Nat)
  /-- STREAM_PUSH, a step without an encoding (R192). -/
  | streamPush (core : Nat) (unit : Nat)
  /-- MATRIX_OP_COMPLETE, a step without an encoding (R203). -/
  | matrixOpComplete (core : Nat) (st : Nat)
  /-- MCMD_COMMAND, a step without an encoding (R223). -/
  | mcmdCommand (src : Place)
  /-- MCMD_ANSWER, a step without an encoding (R223). -/
  | mcmdAnswer (src : Place)
  /-- SPART_CONVERSION, a step without an encoding (R228). -/
  | spartConversion (clu : Nat)
  /-- WAITW_MONITOR_FIRE, a step without an encoding (R229). -/
  | waitwMonitorFire (p : Place)
  /-- SEV_EVENT, a step without an encoding (R232). -/
  | sevEvent (src : Place)
  /-- TIME_SLICE_EXPIRY, a step without an encoding (R378). -/
  | timeSliceExpiry (m : Nat) (part : Nat)
  /-- SLOT_HANDOVER, a step without an encoding (R233). -/
  | slotHandover (p : Place) (vf : Nat)
  /-- BTE_TRANSFER_ACTIVATE, a step without an encoding (R254). -/
  | bteTransferActivate (clu : Nat)
  /-- BTE_WRITE_LAND, a step without an encoding (R254). -/
  | bteWriteLand (clu : Nat) (id : Nat)
  /-- BTE_CONSUMER_UPDATE, a step without an encoding (R255). -/
  | bteConsumerUpdate (clu : Nat) (id : Nat)
  /-- IXE_ELEMENT_COPY, a step without an encoding (R260). -/
  | ixeElementCopy (clu : Nat) (id : Nat)
  /-- ENGINE_COMPLETION, a step without an encoding (R247). -/
  | engineCompletion (clu : Nat) (ixe : Bool) (id : Nat)
  /-- CRINGTAIL_WRITE, a step without an encoding (R248). -/
  | cringtailWrite (clu : Nat) (v : Word)
  /-- ENGINE_OFFLINE, a step without an encoding (R265). -/
  | engineOffline (clu : Nat) (ixe : Bool)
  /-- AUTO_MIGRATION, a step without an encoding (R262). -/
  | autoMigration (core : Nat)
  /-- MIGRATION_ARRIVAL, a step without an encoding (R261). -/
  | migrationArrival (clu : Nat)
  /-- MIGRATION_SLOT_FREE, a step without an encoding (R263). -/
  | migrationSlotFree (clu : Nat)
  /-- KLE_SCORING, a step without an encoding (R274). -/
  | kleScoring (clu : Nat) (ctx : Nat)
  /-- KLE_SERVICE_ROUND, a step without an encoding (R277). -/
  | kleServiceRound (die : Nat) (slice : Nat)
  /-- KLE_ROW_ARRIVAL, a step without an encoding (R274). -/
  | kleRowArrival (clu : Nat) (ctx : Nat)
  /-- KLE_READ_TIMEOUT, a step without an encoding (R276). -/
  | kleReadTimeout (clu : Nat) (ctx : Nat) (rank : Nat)
  /-- KLE_LOOKUP_COMPLETE, a step without an encoding (R274). -/
  | kleLookupComplete (clu : Nat) (ctx : Nat)
  /-- KLE_OFFLINE, a step without an encoding (R287). -/
  | kleOffline (clu : Nat)
  /-- EUPD_DIRECT_ADD, a step without an encoding (R296). -/
  | eupdDirectAdd (clu : Nat) (id : Nat)
  /-- MERGE_CONTRIBUTION, a step without an encoding (R296). -/
  | mergeContribution (m : Nat)
  /-- MERGE_CLOSE, a step without an encoding (R297). -/
  | mergeClose (m : Nat)
  /-- CLOSE_ACK, a step without an encoding (R297). -/
  | closeAck (src : Place)
  /-- HOME_SLICE_REQUEST, a step without an encoding (R306). -/
  | homeSliceRequest (m : Nat) (src : Place)
  /-- FAR_ATOMIC_EXECUTE, a step without an encoding (R331). -/
  | farAtomicExecute (m : Nat) (src : Place)
  /-- PAGE_WALK, a step without an encoding (R313). -/
  | pageWalk (die : Nat) (page : Nat)
  /-- FAULTACK, a step without an encoding (R319). -/
  | faultack (v : Word)
  /-- FAULTACK_WAKE, a step without an encoding (R319). -/
  | faultackWake (die : Nat)
  /-- RELEASE_PROBE, a step without an encoding (R333). -/
  | releaseProbe (m : Nat) (src : Place) (grp : Nat)
  /-- PROBE_ECHO, a step without an encoding (R333). -/
  | probeEcho (p : Place) (grp : Nat)
  /-- UNCORRECTABLE_ERROR, a step without an encoding (R320). -/
  | uncorrectableError (site : ErrSite)
  /-- CORRECTABLE_ERROR, a step without an encoding (R320). -/
  | correctableError (die : Nat)
  /-- DIEERRLOG, a step without an encoding (R320). -/
  | dieerrlog (d : GReg)
  /-- TASK_DISPATCH, a step without an encoding (R350). -/
  | taskDispatch (die : Nat) (clu : Nat)
  /-- ADMISSION_SERVE, a step without an encoding (R353). -/
  | admissionServe (die : Nat)
  /-- TASK_STEAL, a step without an encoding (R356). -/
  | taskSteal (die : Nat) (clu : Nat) (vf : Nat)
  /-- STEAL_REQUEST, a step without an encoding (R356). -/
  | stealRequest (die : Nat) (vf : Nat)
  /-- STEAL_RETRY, a step without an encoding (R356). -/
  | stealRetry (die : Nat) (vf : Nat)
  /-- COUNTER_UPDATE, a step without an encoding (R354). -/
  | counterUpdate (die : Nat) (src : Place)
  /-- GROUP_UPDATE, a step without an encoding (R357). -/
  | groupUpdate (die : Nat) (src : Place)
  /-- GRANT_EXPIRY, a step without an encoding (R364). -/
  | grantExpiry (p : Place)
  /-- BUDGET_SET, a step without an encoding (R352). -/
  | budgetSet (die : Nat) (units : Nat)
  /-- THERMAL_STEP, a step without an encoding (R387). -/
  | thermalStep (die : Nat) (hot : Bool)
  /-- CRITICAL_TEMPERATURE, a step without an encoding (R387). -/
  | criticalTemperature (m : Nat)
  /-- SHUTDOWN_TEMPERATURE, a step without an encoding (R387). -/
  | shutdownTemperature (m : Nat)
  /-- LQDB, a step without an encoding (R379). -/
  | lqdb (m : Nat) (vf : Nat)
  /-- LAUNCH_TAKE, a step without an encoding (R380). -/
  | launchTake (m : Nat) (vf : Nat)
  /-- LAUNCH_END, a step without an encoding (R380). -/
  | launchEnd (m : Nat) (vf : Nat)
  /-- VF_RESET, a step without an encoding (R383). -/
  | vfReset (m : Nat) (vf : Nat)
  /-- VF_POLICY_WRITE, a step without an encoding (R375). -/
  | vfPolicyWrite (m : Nat) (vf : Nat) (f : PolicyField)
  /-- HOST_BAR_WRITE, a step without an encoding (R379, R380): `n` bytes of `v` written, or with `16 + n` added atomically. -/
  | hostBarWrite (m : Nat) (vf : Nat) (bar2 : Bool) (a : Word) (v : Word) (n : Nat)
  /-- HOST_PORT_DOWN, a step without an encoding (R379). -/
  | hostPortDown (m : Nat) (port : Nat)
  /-- PACKAGE_NUMBER_WRITE, a step without an encoding (R386). -/
  | packageNumberWrite (m : Nat) (v : BitVec 12)
  /-- LINK_TRAINING, a step without an encoding (R386): `link` is the link's number, plus 64 times the direction that it is cabled in. -/
  | linkTraining (m : Nat) (link : Nat) (peer : Nat) (ok : Bool)
  /-- MODULE_RESET, a step without an encoding (R384). -/
  | moduleReset (m : Nat)
  /-- FIRMWARE_FETCH_RETRY, a step without an encoding (R384). -/
  | firmwareFetchRetry (m : Nat) (img : FwImage)
  /-- ATTESTATION_REQUEST, a step without an encoding (R385). -/
  | attestationRequest (m : Nat) (nonce : BitVec 256)
  /-- STACK_FAILURE, a step without an encoding (R374). -/
  | stackFailure (m : Nat) (stack : Nat)
  /-- OCHRE_CORE_FAULT, a step without an encoding (R388). -/
  | ochreCoreFault (m : Nat) (pd : Nat) (core : Nat)
  /-- FLIT_ROUTE, a step without an encoding (R391). -/
  | flitRoute (m : Nat) (node : Nat)
  /-- FLIT_EJECT, a step without an encoding (R394). -/
  | flitEject (m : Nat) (node : Nat)
  /-- PACKET_DELIVER, a step without an encoding (R395). -/
  | packetDeliver (m : Nat) (node : Nat) (src : Nat) (ch : Nat)
  /-- DELIVERY_CREDIT, a step without an encoding (R395). -/
  | deliveryCredit (m : Nat) (src : Nat) (dst : Nat) (ch : Nat)
  /-- LINK_FRAME_RECEIVE, a step without an encoding (R397). -/
  | linkFrameReceive (m : Nat) (pd : Nat)
  /-- LINK_DOWN, a step without an encoding (R398). -/
  | linkDown (m : Nat) (link : Nat)
  /-- PATH_FAILED, a step without an encoding (R398). -/
  | pathFailed (m : Nat) (peer : Nat)
  /-- ACCESS_TIMEOUT, a step without an encoding (R399). -/
  | accessTimeout (p : Place)
  /-- VS_PACKET_ARRIVE, a step without an encoding (R406). -/
  | vsPacketArrive (clu : Nat) (port : Nat)
  /-- VS_CREDIT, a step without an encoding (R406). -/
  | vsCredit (clu : Nat) (entry : Nat) (port : Nat)
  /-- GANG_QUERY, a step without an encoding (R416). -/
  | gangQuery (m : Nat) (vf : Nat)
  /-- GANG_PAUSE, a step without an encoding (R416). -/
  | gangPause (m : Nat) (vf : Nat)
  /-- GANG_DRAIN_COMPLETE, a step without an encoding (R416). -/
  | gangDrainComplete (m : Nat) (vf : Nat)
  /-- GANG_STOP_TIMEOUT, a step without an encoding (R416). -/
  | gangStopTimeout (m : Nat) (vf : Nat)
  /-- GANG_RESUME, a step without an encoding (R416). -/
  | gangResume (m : Nat) (vf : Nat)
  /-- MIGRATION_COMMAND_TAKE, a step without an encoding (R420). -/
  | migrationCommandTake (m : Nat)
  /-- MOVE, a step without an encoding (R423). -/
  | move (m : Nat) (idx : Nat)
  /-- DUP, a step without an encoding (R423). -/
  | dup (m : Nat) (idx : Nat)
  /-- COLLAPSE, a step without an encoding (R433). -/
  | collapse (m : Nat) (idx : Nat)
  /-- RECLAIM, a step without an encoding (R430). -/
  | reclaim (m : Nat) (idx : Nat)
  /-- MIGRATION_CUTOVER, a step without an encoding (R423). -/
  | migrationCutover (m : Nat) (idx : Nat)
  /-- MIGRATION_COMMAND_COMPLETE, a step without an encoding (R420). -/
  | migrationCommandComplete (m : Nat) (idx : Nat)
  /-- STUB_RELAY, a step without an encoding (R427). -/
  | stubRelay (m : Nat) (src : Place)
  /-- RELAY_ACK, a step without an encoding (R427). -/
  | relayAck (m : Nat) (page : Nat) (part : Nat)
  /-- WALK_RETURN, a step without an encoding (R428). -/
  | walkReturn (die : Nat) (src : Place)
  /-- REDIRECT, a step without an encoding (R429). -/
  | redirect (die : Nat) (page : Nat) (part : Nat)
  /-- STUB_QUIET_EXPIRY, a step without an encoding (R430). -/
  | stubQuietExpiry (m : Nat) (page : Nat) (part : Nat)
  /-- PURGE, a step without an encoding (R430). -/
  | purge (m : Nat) (frm : Nat) (page : Nat) (part : Nat)
  /-- PURGE_ACK, a step without an encoding (R430). -/
  | purgeAck (m : Nat) (frm : Nat) (page : Nat) (part : Nat)
  /-- COLLAPSE_INVALIDATE, a step without an encoding (R433). -/
  | collapseInvalidate (m : Nat) (idx : Nat) (holder : Nat)
  /-- COLLAPSE_ACK, a step without an encoding (R433). -/
  | collapseAck (m : Nat) (idx : Nat) (holder : Nat)
  /-- ILLEGAL_INSTR, a step without an encoding (R79). -/
  | illegalInstr (op : BitVec 7)
  /-- RESERVED_FIELD, a step without an encoding (R74). -/
  | reservedField (sub : Nat)
  /-- FAULT_QUEUE_TAIL_ADVANCE, a step without an encoding (R317). -/
  | faultQueueTailAdvance (m : Nat) (vf : Nat) (n : Nat)
  /-- KEY_LOAD, a step without an encoding (R397). -/
  | keyLoad (m : Nat) (pd : Nat) (kid : Nat) (next : Bool) (key : BitVec 256)
  /-- HOST_PORT_UP, a step without an encoding (R379). -/
  | hostPortUp (m : Nat) (port : Nat)
  /-- PORT_DIE_FAILURE, a step without an encoding (R388). -/
  | portDieFailure (m : Nat) (pd : Nat)
  /-- ENGINE_RESTORE, a step without an encoding (R265). -/
  | engineRestore (clu : Nat) (eng : Nat)
  /-- PARTITION_CONFIGURE, a step without an encoding (R376). -/
  | partitionConfigure (m : Nat) (part : Nat) (cfg : PartCfg)
  /-- ERROR_COUNTER_CLEAR, a step without an encoding (R321). -/
  | errorCounterClear (die : Nat)
  deriving DecidableEq, Repr

end Sys2Proof
end

