-- ==== Sys2Proof/Machine/State.lean ====
section
/-! DEFINITION. The state of the K1: every strand, core, cluster, die and module of a system, the
messages between them and the steps that are due; and the machine right after module reset. -/

namespace Sys2Proof.Machine

open Sys2Proof

/-- Which word of a bundle is executing (R66, R67). -/
inductive Half where
  | lone | c | a
  deriving DecidableEq, Repr

/-- How a half of a bundle ended (R69, R94). -/
inductive Ended where
  /-- It has its effects. -/
  | done
  /-- It raised a cause, with EADDR and EINFO. -/
  | trap (c : Cause) (addr info : Nat)
  /-- It waits. `sent` when the wait has an effect outside the strand. -/
  | park (r : ParkReason) (sent : Bool)
  /-- The strand has left its slot. -/
  | gone
  deriving DecidableEq, Repr

/-- The bundle in the pipeline of the core at `turn` (R177): its address, the next program counter as far
as it is known, the half that executes; for the A half what the strand held when the
bundle began (R69), the shapes of its core's tiles and its stream units included; how many loop levels were active then,
and whether the bundle takes no end event (R189, R190); the stream units whose elements the bundle has read so far
(R192), and the matrix stream whose pending error its cause consumes (R206); whether a control transfer was taken, and
the end event or exit of the bundle, as Flow numbers it (R181). -/
structure Issue where
  addr : Nat
  next : Nat
  half : Half
  pre : Option Strand
  preTsh : List Word
  preUnits : List SUnit
  lev : Nat
  noEnd : Bool
  taken : List Nat
  eats : Option Nat
  took : Bool
  ev : Nat
  ended : Option Ended
  /-- It has reached a scratchpad bank (R242). -/
  bank : Bool
  deriving DecidableEq, Repr

/-- Why the machine stops with a fault. It has no constructor: nothing the specification describes stops the
machine; an access to a physical address that no stack backs (R374) is never made, since a leaf or a root that names
one is malformed (R312). Safe. -/
inductive Fault : Type
  deriving DecidableEq, Repr

/-- Why the machine refuses an instruction. -/
inductive Refusal where
  /-- Raised by Dispatch for an instruction without a meaning yet. Safe. -/
  | notModelled (mnemonic : String)
  deriving DecidableEq, Repr

/-- The machine. `agenda` holds the steps of other agents and of the outside that may come, `net` the
requests on their way to homes, `turn` the core whose issue position comes next, `cur` the strand whose
bundle executes. -/
structure State where
  ticks : Nat
  turn : Nat
  /-- Cores whose issue position of this cycle is still to come (log 2). -/
  left : List Nat
  cur : Place
  issue : Issue
  strands : List (Nat × Strand)
  cores : List (Nat × Core)
  clusters : List (Nat × Cluster)
  dies : List (Nat × Die)
  mods : List (Nat × Module)
  net : List Msg
  replies : List Reply
  notes : List Note
  flits : List Flit
  ejects : List (Nat × Eject)
  agenda : List Event
  /-- Steps whose time the manual fixes and that are due now (R441). -/
  urgent : List Event
  /-- The model's own field: the number of open choices made so far (log 9). -/
  fresh : Nat
  deriving DecidableEq, Repr

/-- The place of slot 0 of core 0 of cluster 0 of die 0 of module 0. -/
def Place.first : Place := { mod := 0, die := 0, clu := 0, core := 0, slot := 0 }

/-- A task record with every field zero. -/
def Task.none : Task :=
  { entry := 0, arg := 0, cls := 0, aff := 0, light := false, relc := 0, tenant := 0, part := 0,
    groups := 0, mode := false }

/-- The strand CSRs at their dispatch values (R85, R36), with nothing from a launch. -/
def StrandCsr.init : StrandCsr :=
  { sstat := 2, epc := 0, ecause := 0, eaddr := 0, einfo := 0, evec := 0, escratch := 0, fpctl := 0,
    rndseed := 1, ttmask := 0, groups := 0, pwtoken := 0, klstat := 0, ixmask := 0, pdepth := 0,
    sclamp := 0, openpkt := 0, ipend := 0, imask := 0, itimer := 0 }

/-- An Empty slot (R174). DESIGN CHOICE (log 3): its registers stand at their dispatch values. -/
def Strand.empty : Strand :=
  { st := .empty, pc := 0, g := Vector.replicate 32 0, v := Vector.replicate 16 0,
    k := Vector.replicate 4 0, csr := StrandCsr.init, latch := true, loops := [],
    mflags := [0, 0, 0, 0], mpend := [none, none, none, none], fblk := none, issued := none,
    resps := [], asked := [], probes := [], askedAt := [], token := none, denied := false, dbl := false, begun := none, banked := none,
    absAt := none, task := Task.none, notice := none, fwd := [], pkt := [], rebind := [] }

/-- A free tile (R197). -/
def Tile.free : Tile := { data := 0, side := 0, tsh := 1, owner := none, psn := false, perr := none, vers := [] }

/-- A free stream unit (R194). -/
def SUnit.free : SUnit :=
  { owner := none, desc := 0, base := 0, cnt := [0, 0, 0, 0], str := [0, 0, 0, 0], bound := none,
    wr := false, pos := 0, fetched := [], pushes := [] }

/-- An unbound q register (R411). -/
def QState.free : QState :=
  { bound := false, entry := 0, tenant := 0, chunk := 0, recv := [], sent := 0, aborts := [], limit := none }

/-- A core after module reset. DESIGN CHOICE (log 4): SLOTMAP and TBANKS before system software sets them. -/
def Core.reset : Core :=
  { alignto := 256, sel := 0, slotmap := 0xFFFFFFFFFFFFFFFF, tbanks := [], captab := 0,
    migthr := 0x4008, lastMig := none, lastSlot := [],
    tiles := List.replicate 8 Tile.free, mq := [[], [], [], []], mlast := 3, mwaits := 0, lostTo := [],
    units := List.replicate 4 SUnit.free, lbufs := [none, none, none, none],
    tcm := [], tcmPoison := [], l1 := [], plb := [], qs := List.replicate 4 QState.free,
    saved := [] }

/-- The default shadow set (R250). -/
def Shadow.default : Shadow :=
  { regs := [0, 0, 0, 0, 0, 0, 0, 1, 1, 0, 0, 0, 0], lost := false }

/-- An idle engine (R246). -/
def Engine.idle (α : Type) : Engine α :=
  { seq := 0, queue := [], active := [], table := [], offline := false }

/-- A cluster after module reset. -/
def Cluster.reset : Cluster :=
  { spways := 0, busy := false, spart := [], spad := [], spadPoison := [], banks := [], icache := [], chead := 0,
    ctail := 0, cring := [], ringPoison := [], shadows := [], bte := Engine.idle Xfer, ixe := Engine.idle IxOp,
    kslots := List.replicate 16 { valid := false, tenant := 0, desc := 0 }, kctx := [],
    kOffline := false, knctx := 0, kbase := 0, entries := [], vsCredits := [], courses := [], rdvs := [],
    travellers := [], inbound := [] }

/-- A die after module reset. -/
def Die.reset : Die :=
  { ticketCtr := 0, leafCache := [], walks := [], ownerCache := [], redirs := [], l2 := [], store := [], listed := [],
    serial := 0, counters := [], budget := 0, charged := 0, granted := 0, adm := [], admOut := [],
    lastDisp := [], lastTenant := [], steals := [], groups := [], logs := [], errs := [], waits := [],
    faultSeq := 1, rounds := [], thermalBase := 0 }

/-- A policy record before system software writes it. DESIGN CHOICE (log 4). -/
def Policy.reset : Policy :=
  { en := false, part := 0, slice := 0, maxscope := 6, trap := false, wayshare := 0, pinways := 0,
    pinbase := 0, rtbase := 0, faultq := 0, evec := 0, escratch := 0, quota := 0, nctx := 0,
    ctxbase := 0, savebase := 0, hostport := false, enrol := false, tables := [], pending := [] }

/-- A launch queue after reset (R379). -/
def Launch.reset : Launch :=
  { lqbase := 0, lqcfg := 0, consumed := 0, running := false, forVf := 0, cls := 3, entry := 0,
    rest := [] }

/-- A port die after reset. -/
def PortDie.reset : PortDie := { failed := false, dead := [], keys := [], frames := [] }

/-- A module after reset (R384): boot has not begun. -/
def Module.reset : Module :=
  { epoch := 0, pkg := none, boot := 0, recovery := false, log := [], digest := 0, fwVersion := 0, report := none,
    resetCause := 0, dram := [], dramPoison := [], host := [], ptRoot := 0,
    diesUp := List.range 64, policies := [], merges := [], openSteps := [], posts := [], partitions := [],
    launches := [], portUp := [false, false], halfKw := 32, stacksDown := [],
    ports := [], links := [], shares := List.replicate 8 512, failedPaths := [], ringBase := 0x0078000040000000, ringLogn := 0,
    migTaken := 0, cmds := [], stubs := [], performed := [], dups := [], pinned := [], pinnedPoison := [], gangs := [],
    closings := [], handovers := [], resetting := [] }

/-- No bundle in the pipeline. -/
def Issue.none : Issue :=
  { addr := 0, next := 0, half := .lone, pre := .none, preTsh := [], preUnits := [], lev := 0,
    noEnd := false, taken := [], eats := .none, took := false, ev := 0, ended := .none, bank := false }

/-- The machine right after module reset: every slot Empty, every tile free, every engine idle, memory
with nothing listed, no step due. -/
def State.reset : State :=
  { ticks := 0, turn := 0, left := [], cur := Place.first, issue := Issue.none, strands := [], cores := [],
    clusters := [], dies := [], mods := [], net := [], replies := [], notes := [], flits := [],
    ejects := [], agenda := [], urgent := [], fresh := 0 }

end Sys2Proof.Machine
end

