-- ==== Sys2Proof/Machine/Access.lean ====
section
/-! DEFINITION. Reading and updating the parts of State, the fields of control registers, the steps
that become due, open choices, error counters and error logs. -/

namespace Sys2Proof.Machine

open Sys2Proof

/-- Bits `hi:lo` of a register. -/
def fld (w : Word) (hi lo : Nat) : Nat := bits w.toNat hi lo

/-- A register with bits `hi:lo` replaced. -/
def setFld (w : Word) (hi lo v : Nat) : Word := BitVec.ofNat 64 (putBits w.toNat hi lo v)

/-- A 64-bit word of a number. -/
def word (n : Nat) : Word := BitVec.ofNat 64 n

def State.strand (s : State) (p : Place) : Strand := fget Strand.empty s.strands p.key
def State.setStrand (s : State) (p : Place) (x : Strand) : State :=
  { s with strands := fset s.strands p.key x }
def State.modStrand (s : State) (p : Place) (f : Strand → Strand) : State :=
  s.setStrand p (f (s.strand p))
/-- The strand whose bundle executes. -/
def State.me (s : State) : Strand := s.strand s.cur
def State.setMe (s : State) (x : Strand) : State := s.setStrand s.cur x
def State.modMe (s : State) (f : Strand → Strand) : State := s.setMe (f s.me)
/-- Change the CSRs of the strand whose bundle executes. -/
def State.modCsr (s : State) (f : StrandCsr → StrandCsr) : State :=
  s.modMe fun x => { x with csr := f x.csr }

def State.coreOf (s : State) (k : Nat) : Core := fget Core.reset s.cores k
def State.modCore (s : State) (k : Nat) (f : Core → Core) : State :=
  { s with cores := fset s.cores k (f (s.coreOf k)) }
/-- The strand as the executing half reads it: at the bundle's start for the A half (R69). -/
def State.view (s : State) : Strand :=
  match s.issue.pre with
  | some p => p
  | none => s.me

/-- The core of the strand whose bundle executes. -/
def State.core (s : State) : Core := s.coreOf s.cur.coreKey
def State.modMyCore (s : State) (f : Core → Core) : State := s.modCore s.cur.coreKey f

def State.cluOf (s : State) (k : Nat) : Cluster := fget Cluster.reset s.clusters k
def State.modClu (s : State) (k : Nat) (f : Cluster → Cluster) : State :=
  { s with clusters := fset s.clusters k (f (s.cluOf k)) }
def State.clu (s : State) : Cluster := s.cluOf s.cur.cluKey
def State.modMyClu (s : State) (f : Cluster → Cluster) : State := s.modClu s.cur.cluKey f

def State.dieOf (s : State) (k : Nat) : Die := fget Die.reset s.dies k
def State.modDie (s : State) (k : Nat) (f : Die → Die) : State :=
  { s with dies := fset s.dies k (f (s.dieOf k)) }
def State.die (s : State) : Die := s.dieOf s.cur.dieKey

def State.modOf (s : State) (k : Nat) : Module := fget Module.reset s.mods k
def State.modMod (s : State) (k : Nat) (f : Module → Module) : State :=
  { s with mods := fset s.mods k (f (s.modOf k)) }

/-- The core, cluster, die and module of a core key. -/
def coreClu (k : Nat) : Nat := k / 16
def cluDie (k : Nat) : Nat := k / 512
def dieMod (k : Nat) : Nat := k / 64
/-- The place of a slot of a core key. -/
def placeOf (coreKey slot : Nat) : Place := Place.ofKey (coreKey * 16 + slot)

/-- The package number of a module: 0 until it is written (R386). -/
def State.pkgOf (s : State) (m : Nat) : Nat := (s.modOf m).pkg.getD 0

/-- The module that carries a package number. -/
def State.modWith (s : State) (pkg : Nat) : Option Nat :=
  (s.mods.find? fun e => decide (e.2.pkg = some pkg)).map (·.1)

/-- TICKS of a module: the cycles since its latest reset (R91). -/
def State.now (s : State) (m : Nat) : Nat := s.ticks - (s.modOf m).epoch

/-- The policy record of a VF of a module (R375). -/
def State.policy (s : State) (m vf : Nat) : Policy := fget Policy.reset (s.modOf m).policies vf
def State.modPolicy (s : State) (m vf : Nat) (f : Policy → Policy) : State :=
  s.modMod m fun x => { x with policies := fset x.policies vf (f (fget Policy.reset x.policies vf)) }

/-- A step becomes due. -/
def State.spawn (s : State) (i : Event) : State := { s with agenda := s.agenda ++ [i] }

/-- A step becomes due now, before anything else happens (R441). -/
def State.urge (s : State) (i : Event) : State := { s with urgent := s.urgent ++ [i] }

/-- Several steps become due. -/
def State.spawns (s : State) (is : List Event) : State := { s with agenda := s.agenda ++ is }

/-- An open choice among `n` (R9): the value and the state that has used it. -/
def State.choice (s : State) (n : Nat) : Nat × State :=
  (Config.pick s.fresh % n, { s with fresh := s.fresh + 1 })

/-- An unspecified value (R9). -/
def State.free (s : State) : Nat × State :=
  (Config.freeBits s.fresh, { s with fresh := s.fresh + 1 })

/-- Fields of SSTAT (R85). -/
def Strand.mode (x : Strand) : Bool := bitAt x.csr.sstat.toNat 0
def Strand.ie (x : Strand) : Bool := bitAt x.csr.sstat.toNat 1
def Strand.tl (x : Strand) : Bool := bitAt x.csr.sstat.toNat 6
def Strand.tenant (x : Strand) : Nat := fld x.csr.sstat 17 12
def Strand.part (x : Strand) : Nat := fld x.csr.sstat 11 8

/-- The partition of a slot or an issue position (R180). -/
def partOfSlot (c : Core) (i : Nat) : Nat := fld c.slotmap (4 * i + 3) (4 * i)

/-- The partition that the executing strand counts for: slot 15 goes with slot 14 (R402). -/
def State.part (s : State) : Nat := if s.cur.slot = 15 then partOfSlot s.core 14 else s.me.part
/-- OPENPKT.OPEN (R88). -/
def Strand.pktOpen (x : Strand) : Bool := bitAt x.csr.openpkt.toNat 5

def State.tenant (s : State) : Nat := s.me.tenant
/-- The mode of the executing half: for the A half that of the bundle's start (R69). -/
def State.super (s : State) : Bool := s.view.mode

/-- Put a number into an ascending list. -/
def insertAsc (x : Nat) : List Nat → List Nat
  | [] => [x]
  | y :: ys => if x < y then x :: y :: ys else y :: insertAsc x ys

/-- The clusters of a partition as ascending keys. -/
def spanClusters (m : Nat) (e : Partition) : List Nat :=
  (e.clusters.map fun c => cluKey m c.1 c.2).foldr insertAsc []

/-- The cores of a partition in ascending (die, cluster, core) order (R382). -/
def spanCores (m : Nat) (e : Partition) : List Nat :=
  (spanClusters m e).flatMap fun k => (List.range 16).map fun c => k * 16 + c

/-- The partition of a module with a number. -/
def partitionOf (s : State) (m part : Nat) : Option Partition :=
  ((s.modOf m).partitions.find? fun e => decide (e.1 = part)).map (·.2)

/-- A cluster that several partitions span (R377). -/
def sharedClu (s : State) (m k : Nat) : Bool :=
  decide (1 < ((s.modOf m).partitions.filter fun e => (spanClusters m e.2).contains k).length)

/-- STRANDID of a place (R88). -/
def State.strandId (s : State) (p : Place) : Nat :=
  s.pkgOf p.mod * 2 ^ 23 + p.die * 2 ^ 17 + p.clu * 2 ^ 8 + p.core * 2 ^ 4 + p.slot

/-- The place that a STRANDID names in the package of `m`, if there is such a core (R88). -/
def placeOfId (s : State) (m id : Nat) : Option Place :=
  if bits id 34 23 = s.pkgOf m ∧ bits id 16 8 < 400 then
    some { mod := m, die := bits id 22 17, clu := bits id 16 8, core := bits id 7 4,
           slot := bits id 3 0 }
  else none

/-- A slot is not Empty. -/
def Strand.live (x : Strand) : Bool := x.st ≠ .empty

/-- The strand is Parked with a reason. -/
def Strand.parkedOn (x : Strand) (r : ParkReason) : Bool := decide (x.st = .parked r)

/-- Wake a Parked slot (R175). -/
def Strand.wake (x : Strand) : Strand :=
  match x.st with
  | .parked .doubleTrap => x
  | .parked _ => { x with st := .ready }
  | .empty | .ready | .handover => x

/-- A strand no longer waits for the requests that a test names. -/
def Strand.unask (q : Nat → Bool) (x : Strand) : Strand :=
  { x with asked := x.asked.filter fun k => !q k,
           askedAt := x.askedAt.filter fun e => !(decide (e.1 % 2 = 0) && q (e.1 / 2)) }

/-- Wake a strand parked with one of some reasons. -/
def Strand.wakeIf (rs : List ParkReason) (x : Strand) : Strand :=
  match x.st with
  | .parked r => if rs.contains r then { x with st := .ready } else x
  | .empty | .ready | .handover => x

/-- Wake every strand of a core that is parked with one of some reasons. -/
def State.wakeCore (s : State) (coreKey : Nat) (rs : List ParkReason) : State :=
  { s with strands := s.strands.map fun e =>
      if e.1 / 16 = coreKey then (e.1, e.2.wakeIf rs) else e }

/-- Wake every strand of a cluster that is parked with one of some reasons. -/
def State.wakeClu (s : State) (cluKey : Nat) (rs : List ParkReason) : State :=
  { s with strands := s.strands.map fun e =>
      if e.1 / 256 = cluKey then (e.1, e.2.wakeIf rs) else e }

/-- Count an event in a die error counter, saturating at 32 bits (R321). -/
def State.count (s : State) (dieKey no : Nat) : State :=
  s.modDie dieKey fun d =>
    { d with errs := fset d.errs no (Nat.min (fget 0 d.errs no + 1) (2 ^ 32 - 1)) }

/-- Add a record to an error log of a die, 64 records for each VF (R320). -/
def State.logErr (s : State) (dieKey vf kind addr : Nat) : State :=
  s.modDie dieKey fun d =>
    let l := fget ([], false) d.logs vf
    let rec1 := kind * 2 ^ 58 + b2n l.2 * 2 ^ 57 + addr % 2 ^ 56
    if 64 ≤ l.1.length then { d with logs := fset d.logs vf (l.1, true) }
    else { d with logs := fset d.logs vf (l.1 ++ [rec1], false) }

/-- A step whose conditions do not hold yet stays due. -/
def State.again (s : State) (i : Event) : State := s.spawn i

end Sys2Proof.Machine
end

