-- ==== Sys2Proof/Machine/Nodes.lean ====
section
/-! DEFINITION. The nodes of Mortar: where clusters and edge routers stand, and the time that a way between two of them
takes at least (R389). -/

namespace Sys2Proof.Machine

open Sys2Proof

/-- The node of a cluster. -/
def nodeOf (clu : Nat) : Nat :=
  let d := clu / 512 % 64
  let c := clu % 512
  (20 * (d / 8) + c / 20) * 160 + (20 * (d % 8) + c % 20)

/-- The cluster of a node of a module. -/
def nodeClu (m node : Nat) : Nat :=
  let x := node % 160
  let y := node / 160
  cluKey m (y / 20 * 8 + x / 20) (y % 20 * 20 + x % 20)

/-- The neighbour of a node through a network port: 0 +X, 1 −X, 2 +Y, 3 −Y. -/
def neighbour (node port : Nat) : Nat :=
  let x := node % 160
  let y := node / 160
  match port with
  | 0 => y * 160 + (x + 1) % 160
  | 1 => y * 160 + (x + 159) % 160
  | 2 => (y + 1) % 160 * 160 + x
  | _ => (y + 159) % 160 * 160 + x

/-- The port through which a neighbour lies. -/
def portTo (node dst : Nat) : Option Nat := (List.range 4).find? fun p => decide (neighbour node p = dst)

/-- The port die of an edge router: sides −Y, +X, +Y, −X in that order (R389). DEDUCED (log 23): a corner belongs
to the first of its sides. -/
def edgePort (node : Nat) : Option Nat :=
  let x := node % 160
  let y := node / 160
  if y = 0 then some (x / 40)
  else if x = 159 then some (4 + y / 40)
  else if y = 159 then some (8 + x / 40)
  else if x = 0 then some (12 + y / 40)
  else none

/-- Distance round one dimension, and in the torus. -/
def ringDist (a b : Nat) : Nat := Nat.min ((a + 160 - b) % 160) ((b + 160 - a) % 160)
def torusDist (a b : Nat) : Nat := ringDist (a % 160) (b % 160) + ringDist (a / 160) (b / 160)

/-- The edge routers of a port die, ascending along their side. -/
def edgeRouters (pd : Nat) : List Nat :=
  (List.range 40).map fun i =>
    let k := 40 * (pd % 4) + i
    match pd / 4 with
    | 0 => k
    | 1 => k * 160 + 159
    | 2 => 159 * 160 + k
    | _ => k * 160

/-- The edge router of a port die nearest a node, the lower number on a tie (R396). -/
def nearestEdge (pd node : Nat) : Nat :=
  let rs := edgeRouters pd
  let low := rs.foldl (fun n r => Nat.min n (torusDist r node)) 1000
  let ok := rs.filter fun r => decide (torusDist r node = low)
  ok.foldl Nat.min (ok.headD 0)

/-- The die of a node. -/
def nodeDie (node : Nat) : Nat := node / 160 / 20 * 8 + node % 160 / 20

/-- The cycles of a hop (R389). -/
def hopTime (a b : Nat) : Nat := if nodeDie a = nodeDie b then 2 else 4

/-- The cycles of the quickest way from one place of a ring of 160 to another: 2 a hop, 4 where it leaves a die (R389). -/
def ringTime (a b : Nat) : Nat :=
  let up := (b + 160 - a) % 160
  let down := (a + 160 - b) % 160
  Nat.min (2 * up + 2 * ((a % 20 + up) / 20)) (2 * down + 2 * ((b % 20 + down) / 20))

/-- The cycles of the hops between two nodes, at least. -/
def hopsTime (a b : Nat) : Nat := ringTime (a % 160) (b % 160) + ringTime (a / 160) (b / 160)

/-- From injection at a node to ejection at another, at least (R389). -/
def flight (a b : Nat) : Nat := 1 + hopsTime a b + 2

/-- The node of a place, and that of a home slice, which lies beside a cluster (R308). -/
def placeNode (p : Place) : Nat := nodeOf p.cluKey
def sliceNode (die slice : Nat) : Nat := nodeOf (die * 512 + 25 * slice / 6)

end Sys2Proof.Machine
end

