-- ==== Sys2Proof/Machine/Window.lean ====
section
/-! DEFINITION. The registers of the scratchpad window: engine status words, microcode, KLE registers
and the completion ring (R243, R268). -/

namespace Sys2Proof.Machine

open Sys2Proof

/-- An 8-byte status word of the BTE or IXE (R243). -/
def engineStatus {α : Type} (e : Engine α) : Nat := e.queue.length % 256 + e.active.length % 256 * 256

/-- `n` bytes of an engine's microcode (R244): 0 the BTE, 1 the IXE, 2 the KLE. -/
def microcode (eng off : Nat) : Nat → Nat
  | 0 => 0
  | n + 1 => (Config.microcode eng off).toNat + 256 * microcode eng (off + 1) n

/-- A context that nothing has allocated (R271). -/
def KCtx.free : KCtx :=
  { lost := none, st := 0, gen := 0, ticket := 0, who := Place.first, tenant := 0, part := 0, priv := false,
    scope := .none, desc := 0, bag := false, query := 0, seed := 0, qtodo := [], qdata := 0, scored := false, doneMask := 0, phase := 0,
    fcode := 0, faddr := 0, nans := false, winv := false, flags := 0, rows := [], weights := [],
    scores := [], acc := [], todo := [], reads := [], got := [], failed := 0, outOnly := false, spoilt := false,
    waiters := [], returned := false, holders := [], freed := none }

/-- A context of a cluster's KLE. -/
def kctx (c : Cluster) (i : Nat) : KCtx := fget KCtx.free c.kctx i

/-- A context state word (R268). -/
def ctxWord (x : KCtx) : Nat :=
  x.st + x.gen % 1024 * 2 ^ 2 + x.tenant % 64 * 2 ^ 12 + x.who.slot % 16 * 2 ^ 18
    + x.who.core % 16 * 2 ^ 22 + x.ticket % 65536 * 2 ^ 26

/-- The KLE status word (R268). -/
def kleStatus (c : Cluster) : Nat :=
  let n (st : Nat) := (c.kctx.filter fun e => decide (e.2.st = st)).length
  n 1 + n 2 * 256 + n 3 * 2 ^ 16 + b2n c.kOffline * 2 ^ 24

/-- `n` bytes of the completion ring (R243). -/
def ringBytes (c : Cluster) (off : Nat) : Nat → Nat
  | 0 => 0
  | n + 1 => byteAt (fget 0 c.cring (off / 16)) (off % 16) + 256 * ringBytes c (off + 1) n

/-- A load of `n` bytes at an offset of the engine region, where the manual allows it (R243, R268). -/
def engineLoad (c : Cluster) (off n : Nat) : Option Nat :=
  let in' (lo hi : Nat) : Bool := decide (lo ≤ off ∧ off + n ≤ hi)
  if n = 8 ∧ off = 0x4000008 then some (engineStatus c.bte)
  else if in' 0x4001000 0x4002000 then some (microcode 0 (off - 0x4001000) n)
  else if n = 8 ∧ off = 0x4010008 then some (engineStatus c.ixe)
  else if in' 0x4011000 0x4012000 then some (microcode 1 (off - 0x4011000) n)
  else if in' 0x4021000 0x4022000 then some (microcode 2 (off - 0x4021000) n)
  else if n = 8 ∧ off % 8 = 0 ∧ in' 0x4020000 0x4020400 then
    let o := off - 0x4020000
    some ((nth ⟨false, 0, 0⟩ c.kslots (o / 64)).desc / 256 ^ (o % 64) % 2 ^ 64)
  else if n = 8 ∧ off % 8 = 0 ∧ in' 0x4020400 0x4020480 then
    let k := nth ⟨false, 0, 0⟩ c.kslots ((off - 0x4020400) / 8)
    some (b2n k.valid * 2 ^ 63 + k.tenant)
  else if n = 8 ∧ off % 8 = 0 ∧ in' 0x4020800 0x4020A00 then
    some (ctxWord (kctx c ((off - 0x4020800) / 8)))
  else if n = 8 ∧ off = 0x4020A00 then some (kleStatus c)
  else if in' 0x4030000 0x4030400 then some (ringBytes c (off - 0x4030000) n)
  else if n = 4 ∧ off = 0x4030400 then some (c.chead % 2 ^ 32)
  else none

end Sys2Proof.Machine
end

