-- ==== Sys2Proof/Machine/Frames.lean ====
section
/-! DEFINITION. Frames on the links between modules: port dies, links, keys, the checks of a frame, and an engine's access
that crosses (R396-R399). -/

namespace Sys2Proof.Machine

open Sys2Proof

/-- The die whose counters and logs take the errors of the port dies (log 21). -/
def firstDie (s : State) (m : Nat) : Nat := dieKey m (nth 0 (s.modOf m).diesUp 0)

/-- Change a port die. -/
def State.modPort (s : State) (m pd : Nat) (f : PortDie → PortDie) : State :=
  s.modMod m fun x => { x with ports := fset x.ports pd (f (fget PortDie.reset x.ports pd)) }
def State.port (s : State) (m pd : Nat) : PortDie := fget PortDie.reset (s.modOf m).ports pd

/-- A port die that has failed, or whose Ochre cores all have (R388). -/
def PortDie.down (p : PortDie) : Bool := p.failed || decide (p.dead.length = 4)

/-- A link that firmware has not trained. -/
def Link.untrained : Link := { up := false, dir := 6, peer := 0, replays := 0, spare := false, subst := none }
def State.linkOf (s : State) (m l : Nat) : Link := fget Link.untrained (s.modOf m).links l
def State.modLink (s : State) (m l : Nat) (f : Link → Link) : State :=
  s.modMod m fun x => { x with links := fset x.links l (f (fget Link.untrained x.links l)) }

/-- A link error (R320, R398): in the physical function's log. -/
def linkError (s : State) (m l : Nat) : State := s.logErr (firstDie s m) 64 11 (l % 64)

/-- A key slot that nothing is loaded into. -/
def KeySlot.unloaded : KeySlot := { cur := none, next := none, epoch := false, ctr := 0 }
def State.keySlot (s : State) (m pd kid : Nat) : KeySlot := fget KeySlot.unloaded (s.port m pd).keys kid

/-- The key that a slot holds for an epoch. -/
def KeySlot.forEpoch (k : KeySlot) (e : Bool) : Option (BitVec 256) := if e = k.epoch then k.cur else k.next

/-- The sender's port die counts a frame under a key (R397). -/
def countFrame (s : State) (m pd kid : Nat) : State :=
  s.modPort m pd fun p =>
    let k := s.keySlot m pd kid
    { p with keys := fset p.keys kid { k with ctr := k.ctr + 1 } }

/-- The IV of the next frame (R397): source package, source port die, counter. -/
def frameIv (s : State) (m pd kid : Nat) : Nat :=
  s.pkgOf m * 2 ^ 84 + pd * 2 ^ 80 + (s.keySlot m pd kid).ctr % 2 ^ 80

/-- The receiver can open a frame: both port dies hold the same key for its epoch (R397, R399). -/
def opens (s : State) (m pd kid : Nat) (epoch : Bool) (key : Option (BitVec 256)) : Bool :=
  key.isSome && decide ((s.keySlot m pd kid).forEpoch epoch = key)

/-! ### The module torus (R396) -/

/-- Step round a ring of a size. -/
def torusStep (size x : Nat) (up : Bool) : Nat :=
  let n := Nat.max 1 (Nat.min size 16)
  if up then (x + 1) % n else (x + n - 1) % n

/-- The package next to package `n` in a direction: 0 +X, 1 −X, 2 +Y, 3 −Y, 4 +Z, 5 −Z. -/
def neighbourIn (n dir : Nat) : Nat :=
  let x := n % 16
  let y := n / 16 % 16
  let z := n / 256
  let up := decide (dir % 2 = 0)
  match dir / 2 with
  | 0 => z * 256 + y * 16 + torusStep Config.torusX x up
  | 1 => z * 256 + torusStep Config.torusY y up * 16 + x
  | _ => torusStep Config.torusZ z up * 256 + y * 16 + x

/-- The way round one ring: the shorter one, + on a tie; none where the packages stand at one place of it. -/
def ringWay (size a b dir : Nat) : Option Nat :=
  let n := Nat.max 1 (Nat.min size 16)
  let up := (b + n - a) % n
  if up = 0 then none else some (if up ≤ n - up then dir else dir + 1)

/-- The direction in which a packet for package `dst` leaves package `n`: X, then Y, then Z. -/
def towards (n dst : Nat) : Option Nat :=
  ((ringWay Config.torusX (n % 16) (dst % 16) 0).or (ringWay Config.torusY (n / 16 % 16) (dst / 16 % 16) 2)).or
    (ringWay Config.torusZ (n / 256) (dst / 256) 4)

/-- The link that a flow uses of those that have taken over from one another (R398). -/
def liveLink (s : State) (m : Nat) : Nat → Nat → Option Nat
  | 0, _ => none
  | fuel + 1, l =>
    let k := s.linkOf m l
    if k.up then some l
    else
      match k.subst with
      | none => none
      | some l2 => liveLink s m fuel l2

/-- The link of a direction's bundle that a flow is held to (R396): a hash chooses it of all that were trained. -/
def bundleLink (s : State) (m dir hash : Nat) : Option Nat :=
  let ls := (List.range 64).filter fun l => decide ((s.linkOf m l).dir = dir) && !(s.linkOf m l).spare
  match ls[hash % Nat.max 1 ls.length]? with
  | none => none
  | some l => (liveLink s m 64 l).or (ls.find? fun k => (s.linkOf m k).up)

/-- The other way round a ring. -/
def otherWay (dir : Nat) : Nat := if dir % 2 = 0 then dir + 1 else dir - 1

/-- The next hop of a packet at module `m` for package `pkg` (R396, R398): link, direction and module. `prev` is the
direction in which it came: it goes on round the ring that way; a bundle with no link left sends it the other way. -/
def nextHop (s : State) (m pkg : Nat) (prev : Option Nat) (hash : Nat) : Option (Nat × Nat × Nat) :=
  match towards (s.pkgOf m) pkg with
  | none => none
  | some w =>
    let d := match prev with
      | some p => if p / 2 = w / 2 then p else w
      | none => w
    let via (d : Nat) : Option (Nat × Nat × Nat) :=
      match bundleLink s m d hash with
      | none => none
      | some l => (s.modWith (s.linkOf m l).peer).map fun k => (l, d, k)
    (via d).or (via (otherWay d))

/-- A packet sets out on its next hop in a frame that the sender's port die counts (R397). -/
def sendFrame (s : State) (m pkg kid : Nat) (prev : Option Nat) (hash : Nat) : Option (Frame × State) :=
  match nextHop s m pkg prev hash with
  | none => none
  | some (l, d, k) =>
    let sl := s.keySlot m (l / 4) kid
    some ({ frm := m, into := k, link := l, dir := d, kid := kid, epoch := sl.epoch, key := sl.cur,
            iv := frameIv s m (l / 4) kid }, countFrame s m (l / 4) kid)

/-- A frame goes on from a package on its way, as it was encrypted (R396, R397). -/
def passFrame (s : State) (f : Frame) (pkg hash : Nat) : Option Frame :=
  (nextHop s f.into pkg (some f.dir) hash).map fun h => { f with frm := f.into, link := h.1, dir := h.2.1, into := h.2.2 }

/-! ### Receiving a frame (R397-R399) -/

/-- How the reception of a frame ends. -/
inductive FrameEnd where
  | good | replay | bad
  deriving DecidableEq, Repr

/-- The checks of a frame at the port die that receives it. Whether its link-level CRC holds, and at its package its
end-to-end CRC and its tag, is open (R9). A package on its way checks the link only. -/
def receiveFrame (s : State) (f : Frame) (last : Bool) : FrameEnd × State :=
  let m := f.into
  let (c, s1) := s.choice 3
  if c = 1 then
    let n := (s1.linkOf m f.link).replays + 1
    let s2 := (s1.count (firstDie s m) 11).modLink m f.link fun l => { l with replays := n }
    (.replay, if 16 ≤ n then s2.spawn (.linkDown m f.link) else s2)
  else
    let s2 := s1.modLink m f.link fun l => { l with replays := 0 }
    if !last || (opens s m (f.link / 4) f.kid f.epoch f.key && decide (c = 0)) then (.good, s2)
    else (.bad, linkError (s2.count (firstDie s m) 15) m f.link)

/-- A frame of an engine's access on its way to a package, hop by hop: as it arrives there, or none where no link leads
on. -/
def carry : Nat → State → Frame → Nat → Nat → Option Frame
  | 0, _, _, _, _ => none
  | fuel + 1, s, f, pkg, hash =>
    if s.pkgOf f.into = pkg then some f
    else
      match passFrame s f pkg hash with
      | none => none
      | some g => carry fuel s g pkg hash

/-- An engine's access, or its answer, crosses to a package (R396-R399): its port die opens the frame or discards it. It
fails with the modules between which it was lost, which are one where no link leads on. -/
def crossOnce (s : State) (m pkg kid : Nat) : Except (Nat × Nat) State :=
  let hash := Config.flowHash m pkg 0
  match sendFrame s m pkg kid none hash with
  | none => .error (m, m)
  | some (f, s1) =>
    match carry 48 s f pkg hash with
    | none => .error (m, m)
    | some g =>
      let (c, s2) := s1.choice 2
      if opens s g.into (g.link / 4) g.kid g.epoch g.key = false ∨ c = 1 then .error (g.frm, g.into) else .ok s2

/-- An engine's access crosses to another package and its answer comes back. -/
def crossing (s : State) (frm dst kid : Nat) : Except (Nat × Nat) State :=
  match crossOnce s frm (s.pkgOf dst) kid with
  | .error e => .error e
  | .ok s1 => crossOnce s1 dst (s.pkgOf frm) kid

/-- The direction whose bundle a port die carries: that of its lowest link that was trained (log 23). -/
def portDir (s : State) (m pd : Nat) : Option Nat :=
  (((List.range 4).map fun i => (s.linkOf m (4 * pd + i)).dir).filter (· < 6)).head?

/-- The module whose stream packets arrive at a port die: the one whose port die of the same number leads here (log 23). -/
def portSource (s : State) (m pd : Nat) : Option Nat :=
  (s.mods.find? fun e =>
    match portDir s e.1 pd with
    | none => false
    | some d => decide (neighbourIn (s.pkgOf e.1) d = s.pkgOf m)).map (·.1)

end Sys2Proof.Machine
end

