-- ==== Sys2Proof/Machine/Home.lean ====
section
/-! DEFINITION. Homes: where a line of the translated space lives, the page table, the L2 slices, the
memory behind them, and the accesses that hardware and engines make there (R304-R316, R374, R418,
R419). -/

namespace Sys2Proof.Machine

open Sys2Proof

/-- The frame window (R310). -/
def frameWindow : Nat := 0x0078000000000000
/-- Module DRAM: 4,608 GiB (R310, R374). -/
def moduleBytes : Nat := 4608 * 2 ^ 30
/-- Bytes of a sector and of a line (R304). -/
def secBytes : Nat := 128

/-- Fields of a leaf entry (R311). -/
def leafV (l : Nat) : Bool := bitAt l 0
def leafState (l : Nat) : Nat := bits l 3 1
def leafAper (l : Nat) : Nat := bits l 5 4
def leafRap (l : Nat) : Bool := bitAt l 6
def leafW (l : Nat) : Bool := bitAt l 7
def leafX (l : Nat) : Bool := bitAt l 8
def leafT (l : Nat) : Bool := bitAt l 9
def leafC (l : Nat) : Bool := bitAt l 10
def leafFrame (l : Nat) : Nat := bits l 27 11
def leafDom (l : Nat) : Nat := bits l 39 28
def leafOwner (l : Nat) : Nat := bits l 51 40
def leafAlt (l : Nat) : Nat := bits l 63 52
def leafRes (l : Nat) : Nat := bits l 95 64
def leafDup (l : Nat) : Nat := bits l 127 96

/-- The part of an address: bits 20:16 (R311). -/
def partOf (a : Nat) : Nat := bits a 20 16
/-- The page of an address: bits 54:21. -/
def pageOf (a : Nat) : Nat := bits a 54 21

/-- The address lies in the tenant's pinned window (R307). -/
def inPinned (s : State) (m tenant a : Nat) : Bool :=
  let p := s.policy m tenant
  decide (0 < p.pinways ∧ a / 2 ^ 34 = p.pinbase)

/-- Bytes of the pinned window that exist (R307). -/
def pinnedSize (s : State) (m tenant : Nat) : Nat :=
  (s.policy m tenant).pinways * (s.modOf m).diesUp.length * (12 * 2 ^ 20)

/-- The frame's first byte of a leaf for an address, plus the offset in the page (R312). -/
def leafPhys (l a : Nat) : Nat := (leafFrame l * 32 + bits a 25 21) * 2 ^ 21 + a % 2 ^ 21

/-- The leaf's parts are all resident and authoritative: its package owns the page (R419). -/
def leafWhole (l : Nat) : Bool := decide (leafRes l = 2 ^ 32 - 1 ∧ leafDup l = 0)

/-- The owner that a leaf of module `m` names (R419). -/
def ownerOf (s : State) (m l : Nat) : Nat := if leafWhole l then s.pkgOf m else leafOwner l

/-- A malformed leaf (R312, R374, R419). -/
def leafBad (s : State) (m tenant a l : Nat) : Bool :=
  decide (4 ≤ leafState l)
    || (decide (leafAper l = 3) != inPinned s m tenant a)
    || (decide (leafAper l = 0) && decide (2359296 ≤ leafFrame l * 32 + bits a 25 21))
    || (decide (leafAper l = 1) && decide (leafRes l ≠ 0))
    || decide (leafDup l &&& leafRes l ≠ leafDup l)
    || (decide (leafState l = 2) && decide (leafDup l = 0))
    || (decide (leafState l ≤ 1) && decide (leafDup l ≠ 0))
    || (decide (leafState l = 1) && decide (leafOwner l = s.pkgOf m) && !leafWhole l)
    || (decide (leafAper l = 1) && (s.modWith (leafOwner l)).isNone)

/-- Where a part is, as a leaf of module `m` says (R418). -/
inductive Where where
  | here (phys : Nat) (dup : Bool)
  | pinned (off : Nat)
  | host (phys : Nat)
  | other (pkg : Nat)
  | absent
  | bad
  | unpopulated
  deriving DecidableEq, Repr

def locate (s : State) (m tenant a l : Nat) : Where :=
  if leafV l = false then .absent
  else if leafBad s m tenant a l then .bad
  else if leafAper l = 3 then
    (if a % 2 ^ 34 < pinnedSize s m tenant then .pinned (a % 2 ^ 34) else .unpopulated)
  else if bitAt (leafRes l) (partOf a) then
    (if leafAper l = 2 then .host (leafPhys l a)
     else .here (leafPhys l a) (bitAt (leafDup l) (partOf a)))
  else if leafOwner l ≠ s.pkgOf m then .other (leafOwner l)
  else if leafState l ≠ 2 ∧ leafAlt l ≠ s.pkgOf m then .other (leafAlt l)
  else .absent

/-- The attributes of a leaf for an address, as they return to a requester (R313). -/
def attrOf (l a holder : Nat) : Attr :=
  { w := leafW l, x := leafX l, c := leafC l, t := leafT l, rap := leafRap l, dom := leafDom l,
    dup := bitAt (leafDup l) (partOf a), holder := holder, aper := leafAper l, leaf := l }

/-- The attributes of the frame window (R310): read, write and atomic, never execute, domain 0xFFF. -/
def attrFrame (holder : Nat) : Attr :=
  { w := true, x := false, c := true, t := false, rap := true, dom := 0xFFF, dup := false,
    holder := holder, aper := 0, leaf := 0 }

/-- The 23-bit hash of R305. -/
def homeHash (a : Nat) : Nat := (bits a 32 10 ^^^ bits a 55 33) ^^^ 0x1140

/-- The home of a line: die, slice and set (R305, R307). -/
def homeOf (s : State) (m tenant a : Nat) : Nat × Nat × Nat :=
  let w := (s.modOf m).diesUp
  let d := Nat.max w.length 1
  if inPinned s m tenant a then
    let n := a % 2 ^ 34 / 1024
    (nth 0 w (n % d), n / d % 96, n / (96 * d) % 128)
  else
    let h := homeHash a
    (nth 0 w (h % d), h / 64 % 96, h / 6144 % 128)

/-- The key of the die that homes an address. -/
def homeDie (s : State) (m tenant a : Nat) : Nat := dieKey m (homeOf s m tenant a).1

/-- Whether a physical address reads as poison: a poisoned 32-byte granule, or a frame of a failed stack
(R320, R374). -/
def dramPoisoned (x : Module) (phys : Nat) : Bool :=
  x.dramPoison.contains (phys / 32)
    || x.stacksDown.contains (Config.stackOf phys)

/-- Poison of the sixteen 8-byte words of a sector in DRAM. -/
def dramPoisonMask (x : Module) (phys : Nat) : Nat :=
  (List.range 16).foldl (fun acc i =>
    if dramPoisoned x (phys + 8 * i) then acc + 2 ^ i else acc) 0

/-- Write bytes of a sector to DRAM under a mask (R320): a write that covers a whole granule clears its
poison, and a poisoned word poisons its granule. -/
def dramWrite (x : Module) (phys mask data poison : Nat) : Module :=
  let gs := (List.range 4).foldl (fun l i =>
    let g := phys / 32 + i
    let full := decide (mask / 2 ^ (32 * i) % 2 ^ 32 = 2 ^ 32 - 1)
    let bad := decide (poison / 2 ^ (4 * i) % 16 ≠ 0)
    if bad then (if l.contains g then l else g :: l)
    else if full then l.filter (· ≠ g) else l) x.dramPoison
  { x with dram := Memory.writeMask x.dram phys 128 mask data, dramPoison := gs }

/-- A byte mask that covers an 8-byte word wholly clears its poison; other bits stay, and the incoming
poison is added (R320). -/
def mergePoison (old mask inc : Nat) : Nat :=
  (List.range 16).foldl (fun acc i =>
    let full := decide (mask / 2 ^ (8 * i) % 256 = 255)
    let was := bitAt old i && !full
    if was || bitAt inc i then acc + 2 ^ i else acc) 0

/-- The line of an address in a slice, if it is held (R306). -/
def l2Find (d : Die) (slice line : Nat) : Option L2Line :=
  d.l2.find? fun x => decide (x.slice = slice ∧ x.line = line)

/-- The ways of a VF's share, the lowest first (R307). -/
def shareOf (p : Policy) : List Nat := (List.range 16).filter fun w => bitAt p.wayshare w

/-- The ways that are pinned for some tenant, the lowest of its share (R307). -/
def Module.pinnedWays (x : Module) : List Nat := x.policies.flatMap fun e => (shareOf e.2).take e.2.pinways

/-- The ways a tenant may allocate (R307): those of its share that are pinned for no tenant. -/
def waysOf (x : Module) (tenant : Nat) : List Nat :=
  (shareOf (fget Policy.reset x.policies tenant)).filter fun w =>
    !x.pinnedWays.contains w

/-- Write a victim's dirty bytes to DRAM (R304). -/
def l2WriteBack (x : Module) (v : L2Line) : Module :=
  match v.phys with
  | none => x
  | some ph => v.secs.foldl (fun y e => dramWrite y (ph + 128 * e.1) e.2.dirty e.2.data
      (if e.2.dirty = 0 then 0 else e.2.poison)) x

/-- A home's sector as bytes and poison: L2 where it holds them, DRAM elsewhere. -/
def secView (x : Module) (sec : Option L2Sec) (phys : Nat) : Nat × Nat :=
  match sec with
  | none => (Memory.readN x.dram phys 128, dramPoisonMask x phys)
  | some c =>
    if c.valid then (c.data, c.poison)
    else (mergeBytes 128 c.dirty (Memory.readN x.dram phys 128) c.data,
          mergePoison (dramPoisonMask x phys) c.dirty c.poison)

/-- Put a line first in the recency order of its die, with one sector replaced. -/
def l2Put (d : Die) (ln : L2Line) (idx : Nat) (c : L2Sec) : Die :=
  { d with l2 := { ln with secs := fset ln.secs idx c } ::
      d.l2.filter fun y => decide (¬(y.slice = ln.slice ∧ y.line = ln.line)) }

/-- Make room for a line in the tenant's share of a set, if it has any (R307). The victim is the line that
was used longest ago. -/
def l2Alloc (s : State) (m dk slice set tenant line phys : Nat) (at' : Attr) :
    Option (L2Line × State) :=
  let d := s.dieOf dk
  let ways := waysOf (s.modOf m) tenant
  let held := d.l2.filter fun y => decide (y.slice = slice ∧ y.set = set) && ways.contains y.way
  match ways.find? fun w => held.all fun y => decide (y.way ≠ w) with
  | some w =>
    some ({ slice := slice, set := set, way := w, line := line, tenant := tenant, pinned := false,
            phys := some phys, attr := at', secs := [] }, s)
  | none =>
    match held.getLast? with
    | none => none
    | some v =>
      let s1 := s.modMod m fun x => l2WriteBack x v
      let s2 := s1.modDie dk fun y =>
        { y with l2 := y.l2.filter fun z => decide (¬(z.slice = slice ∧ z.line = v.line)) }
      some ({ slice := slice, set := set, way := v.way, line := line, tenant := tenant,
              pinned := false, phys := some phys, attr := at', secs := [] }, s2)

/-- Read a sector at its home, from L2 or DRAM; a cacheable line is allocated (R306). -/
def serveRead (s : State) (m tenant a : Nat) (at' : Attr) (phys : Nat) (alloc : Bool) :
    Nat × Nat × State :=
  let (die, slice, set) := homeOf s m tenant a
  let dk := dieKey m die
  let base := phys / 128 * 128
  let idx := a / 128 % 8
  match l2Find (s.dieOf dk) slice (a / 1024) with
  | some ln =>
    let old := (ln.secs.find? fun e => decide (e.1 = idx)).map (·.2)
    let (data, poison) := secView (s.modOf m) old base
    let dirty := (old.map (·.dirty)).getD 0
    (data, poison, s.modDie dk fun d =>
      l2Put d ln idx { valid := true, dirty := dirty, data := data, poison := poison })
  | none =>
    let (data, poison) := secView (s.modOf m) none base
    if at'.c && alloc then
      match l2Alloc s m dk slice set tenant (a / 1024) (base - 128 * idx) at' with
      | some (ln, s1) => (data, poison, s1.modDie dk fun d =>
          l2Put d ln idx { valid := true, dirty := 0, data := data, poison := poison })
      | none => (data, poison, s)
    else (data, poison, s)

/-- A line of a part under copy is queued again when it is written at its source (R423, R424). -/
def requeueLine (s : State) (m a : Nat) : State :=
  let mine (c : MigCmd) : Bool :=
    decide (c.page = pageOf a ∧ c.rest.head? = some (partOf a) ∧ 0 < c.pass) && !c.dirty.contains (a / 1024)
      && !c.lines.contains (a / 1024)
  if (s.modOf m).cmds.any mine then
    s.modMod m fun x =>
      { x with cmds := x.cmds.map fun c => if mine c then { c with dirty := c.dirty ++ [a / 1024] } else c }
  else s

/-- Merge bytes of a sector at its home (R304): into L2 where the line is held or allocated, else into
DRAM. -/
def serveWrite (s0 : State) (m tenant a : Nat) (at' : Attr) (phys mask data poison : Nat) : State :=
  let s := requeueLine s0 m a
  let (die, slice, set) := homeOf s m tenant a
  let dk := dieKey m die
  let base := phys / 128 * 128
  let idx := a / 128 % 8
  let put (ln : L2Line) (t : State) : State :=
    let old := fget (L2Sec.mk false 0 0 0) ln.secs idx
    t.modDie dk fun d => l2Put d ln idx
      { valid := old.valid, dirty := old.dirty ||| mask,
        data := mergeBytes 128 mask old.data data, poison := mergePoison old.poison mask poison }
  match l2Find (s.dieOf dk) slice (a / 1024) with
  | some ln => put ln s
  | none =>
    if at'.c then
      match l2Alloc s m dk slice set tenant (a / 1024) (base - 128 * idx) at' with
      | some (ln, s1) => put ln s1
      | none => s.modMod m fun x => dramWrite x base mask data poison
    else s.modMod m fun x => dramWrite x base mask data poison

/-- Eight bytes of a table entry at physical address `p`, read through the frame window at that entry's
home slice (R310, R313); none where they read as poison (R320, R374). -/
def tableRead (s : State) (m p : Nat) : Option Nat :=
  let a := frameWindow + p
  let (die, slice, _) := homeOf s m 0 a
  let sec := match l2Find (s.dieOf (dieKey m die)) slice (a / 1024) with
    | none => none
    | some ln => (ln.secs.find? fun e => decide (e.1 = a / 128 % 8)).map (·.2)
  let (data, poison) := secView (s.modOf m) sec (p / 128 * 128)
  if bitAt poison (p % 128 / 8) then none else some (data / 256 ^ (p % 128) % 2 ^ 64)

/-- How far the upper levels of a walk lead (R309): to the address of the leaf, to an entry whose V is 0, or to poison. -/
inductive WalkEnd where
  | leaf (p : Nat)
  | empty
  | poisoned
  deriving DecidableEq, Repr

/-- One upper level: the entry of a table, and where the walk goes on from there (R309). -/
def walkLevel (s : State) (m e : Nat) (next : Nat → WalkEnd) : WalkEnd :=
  match tableRead s m e with
  | none => .poisoned
  | some x => if bitAt x 0 then next (bits x 55 12 * 4096) else .empty

/-- The physical address of the leaf of an address, if the walk of module `m` reaches it (R309, R313). -/
def leafAddr (s : State) (m a : Nat) : WalkEnd :=
  walkLevel s m ((s.modOf m).ptRoot + 8 * bits a 54 46) fun t2 =>
  walkLevel s m (t2 + 8 * bits a 45 37) fun t1 =>
  walkLevel s m (t1 + 8 * bits a 36 29) fun t0 => .leaf (t0 + 16 * bits a 28 21)

/-- A leaf from its two halves, or 0 where its V is 0; none where one of them reads as poison. -/
def joinLeaf (low high : Option Nat) : Option Nat :=
  match low, high with
  | some l, some h => some (if leafV l then l + h * 2 ^ 64 else 0)
  | _, _ => none

/-- Walk the page table of module `m` (R309, R313): the leaf, 0 where an entry's V is 0, or none where an entry reads as
poison. -/
def walk (s : State) (m a : Nat) : Option Nat :=
  match leafAddr s m a with
  | .empty => some 0
  | .poisoned => none
  | .leaf p => joinLeaf (tableRead s m p) (tableRead s m (p + 8))

/-- Cache a leaf in a DTU: 4,096 valid entries, recency order (R313, R314). -/
def cacheLeaf (s : State) (dk page l : Nat) : State :=
  s.modDie dk fun d =>
    let rest := d.leafCache.filter (·.1 ≠ page)
    { d with leafCache := if leafV l then ((page, l) :: rest).take 4096 else rest }

/-- The leaf with which a slice allocated the line of an address, where it holds the sector: a hit is not translated
(R313). -/
def l2Leaf (s : State) (m tenant a : Nat) : Option Nat :=
  let (die, slice, _) := homeOf s m tenant a
  match l2Find (s.dieOf (dieKey m die)) slice (a / 1024) with
  | none => none
  | some ln =>
    if ln.secs.any (fun e => decide (e.1 = a / 128 % 8) && (e.2.valid || decide (e.2.dirty ≠ 0))) then some ln.attr.leaf
    else none

/-- A fresh walk (R314). DEDUCED (log 65): engines and hardware read both halves of a leaf in one step. -/
def freshLeaf (s : State) (m tenant a : Nat) : Option Nat × State :=
  match walk s m a with
  | none => (none, s)
  | some l => (some l, cacheLeaf s (homeDie s m tenant a) (pageOf a) l)

/-- The leaf for an access by hardware or an engine (R313): of an L2 line that it hits, cached, or walked and cached. -/
def leafFor (s : State) (m tenant a : Nat) : Option Nat × State :=
  match l2Leaf s m tenant a, (s.dieOf (homeDie s m tenant a)).leafCache.find? fun e => decide (e.1 = pageOf a) with
  | some l, _ => (some l, s)
  | none, some e => (some e.2, s)
  | none, none => freshLeaf s m tenant a

/-- Write one 8-byte half of a leaf or another doubleword of module DRAM through the frame window, at its
home slice (R310, R315). -/
def frameStore (s : State) (m p v : Nat) : State :=
  serveWrite s m 0 (frameWindow + p) (attrFrame (s.pkgOf m)) p (maskRange (p % 128) 8)
    (v % 2 ^ 64 * 256 ^ (p % 128)) 0

/-- Why an access by hardware or an engine fails. -/
inductive Fail where
  | absent | prot | unpopulated | poison | unanswered | writeProtect | denied | malformed | portDown
  /-- Absent at another module, which owns the part (R418). -/
  | absentAt (mod : Nat)
  /-- No answer will come (R399): a frame of the access from module `frm` has been discarded at module `dst`, or, where
  they are one, the path has failed (R334). -/
  | lost (frm dst : Nat)
  deriving DecidableEq, Repr

/-- The access has no answer, so far (R399). -/
def Fail.pending : Fail → Bool
  | .unanswered | .lost _ _ => true
  | .absent | .prot | .unpopulated | .poison | .writeProtect | .denied | .malformed | .portDown | .absentAt _ => false

/-- The part is absent (R318, R418). -/
def Fail.missing : Fail → Bool
  | .absent | .absentAt _ => true
  | .prot | .unpopulated | .poison | .unanswered | .writeProtect | .denied | .malformed | .portDown | .lost _ _ => false

/-- The engine code of a failure (R247, R276, R317). -/
def Fail.code : Fail → Nat
  | .absent | .absentAt _ => 0x30 | .prot => 0x08 | .unpopulated => 0x06 | .poison => 0x0C
  | .unanswered | .lost _ _ => 0x31 | .writeProtect => 0x0B | .denied => 0x0A | .malformed => 0x08 | .portDown => 0x08

/-- The KIND of a fault-queue entry for an engine code (R317). -/
def kindOfCode (c : Nat) : Nat :=
  if c = 0x06 ∨ c = 0x08 then 2 else if c = 0x0B then 3 else if c = 0x0A then 4
  else if c = 0x0C then 5 else if c = 0x30 then 1 else if c = 0x31 then 7
  else if c = 0x32 then 9 else 0

/-- Where an access ends after R418 is followed from package to package: the holding module, the place
there, the requester's attributes, and those of the holder's leaf. -/
structure Target where
  mod : Nat
  place : Where
  attr : Attr
  home : Attr
  deriving DecidableEq, Repr

/-- A migration command holds the accesses to a part (R423, R424). -/
def frozen (s : State) (m a : Nat) : Bool :=
  (s.modOf m).cmds.any fun c => c.frozen && decide (c.page = pageOf a ∧ c.rest.head? = some (partOf a))

/-- The place is in the memory of the package itself. -/
def Where.inside : Where → Bool
  | .here _ _ | .pinned _ | .host _ => true
  | .other _ | .absent | .bad | .unpopulated => false

/-- The failure at the package that owns a part, as its requester meets it (R418). -/
def Fail.from (m : Nat) : Fail → Fail
  | .absent => .absentAt m
  | f => f

/-- A part as one leaf of module `m` locates it; `rest` follows it at another package (R418), over the links, in frames
under the key `kid` (R397). A part that a migration freezes gives no answer yet (R423). -/
def followLeaf (rest : State → Nat → Except Fail (Target × State)) (s : State) (m kid tenant a l : Nat) :
    Except Fail (Target × State) :=
  let at' := attrOf l a (s.pkgOf m)
  match locate s m tenant a l with
  | .absent => .error .absent
  | .bad => .error .malformed
  | .unpopulated => .error .unpopulated
  | .other pkg =>
    if (s.modOf m).failedPaths.contains pkg then .error (.lost m m)
    else
      match s.modWith pkg with
      | none => .error .malformed
      | some m' =>
        match crossing s m m' kid with
        | .error (x, y) => .error (.lost x y)
        | .ok s0 =>
          match rest s0 m' with
          | .error e => .error (e.from m')
          | .ok (t, s1) => .ok ({ t with attr := { at' with holder := t.attr.holder, dup := at'.dup || t.attr.dup } }, s1)
  | w => if frozen s m a then .error .unanswered else .ok ({ mod := m, place := w, attr := at', home := at' }, s)

/-- Follow a part to its holder (R418): each package by its own leaf. The cached leaf is walked afresh where it leads to no
holder (R314, R428), and, at a package that another one has sent the access to, where it does not locate the part there
(R438). `fuel` bounds the packages visited: an access that would be relayed further, or that comes to a package whose leaf is
not valid, has no answer yet, and is sent again (R427, R428). -/
def follow : Nat → Bool → State → Nat → Nat → Nat → Nat → Except Fail (Target × State)
  | 0, _, _, _, _, _, _ => .error .unanswered
  | fuel + 1, guest, s, m, kid, tenant, a =>
    let rest (t : State) (k : Nat) : Except Fail (Target × State) := follow fuel true t k kid tenant a
    let by' (l : Option Nat) (t : State) : Except Fail (Target × State) :=
      match l with
      | none => .error .poison
      | some x => if guest && !leafV x then .error .unanswered else followLeaf rest t m kid tenant a x
    let (l0, s0) := leafFor s m tenant a
    if guest && !(locate s m tenant a (l0.getD 0)).inside then by' (freshLeaf s0 m tenant a).1 (freshLeaf s0 m tenant a).2
    else
      match by' l0 s0 with
      | .ok r => .ok r
      | .error e =>
        if e.missing ∨ e = .unanswered then
          let (l, s1) := freshLeaf s0 m tenant a
          if l = l0 then .error e else by' l s1
        else .error e

/-- Find the holder of a translated address, the frame window included (R310), by frames under the key `kid` (R397). -/
def targetBy (kid : Nat) (s : State) (m tenant a : Nat) : Except Fail (Target × State) :=
  if frameWindow ≤ a then
    if a - frameWindow < moduleBytes then
      .ok ({ mod := m, place := .here (a - frameWindow) false, attr := attrFrame (s.pkgOf m),
             home := attrFrame (s.pkgOf m) }, s)
    else .error .unpopulated
  else follow 4 false s m kid tenant a

/-- The holder of a translated address, for a context of its tenant. -/
def target (s : State) (m tenant a : Nat) : Except Fail (Target × State) := targetBy tenant s m tenant a

/-- The host port that serves a VF is up, or the other one is (R379). -/
def hostUp (s : State) (m : Nat) : Bool := (s.modOf m).portUp.any id

/-- Read the sector that holds `a` at the holder: bytes and poison. -/
def readTarget (s : State) (t : Target) (tenant a : Nat) : Except Fail (Nat × Nat × State) :=
  match t.place with
  | .here phys _ => .ok (serveRead s t.mod tenant a t.home phys true)
  | .pinned off =>
    let bad := fget [] (s.modOf t.mod).pinnedPoison tenant
    let po := (List.range 16).foldl (fun n i => if bad.contains (off / 128 * 16 + i) then n + 2 ^ i else n) 0
    .ok (Memory.readN (fget [] (s.modOf t.mod).pinned tenant) (off / 128 * 128) 128, po, s)
  | .host phys =>
    if hostUp s t.mod then .ok (Memory.readN (s.modOf t.mod).host (phys / 128 * 128) 128, 0, s)
    else .error .portDown
  | .other _ | .absent | .bad | .unpopulated => .error .unpopulated

/-- Merge bytes into the sector that holds `a` at the holder. -/
def writeTarget (s : State) (t : Target) (tenant a mask data poison : Nat) : Except Fail State :=
  match t.place with
  | .here phys _ => .ok (serveWrite s t.mod tenant a t.home phys mask data poison)
  | .pinned off =>
    .ok (s.modMod t.mod fun x =>
      let w := Memory.writeMask (fget [] x.pinned tenant) (off / 128 * 128) 128 mask data
      let full (i : Nat) : Bool := decide (mask / 256 ^ i % 256 = 255)
      let set (i : Nat) : Bool := bitAt poison i
      let old := fget [] x.pinnedPoison tenant
      let kept := old.filter fun n => decide (n / 16 ≠ off / 128) || !full (n % 16)
      let new := ((List.range 16).filter set).map fun i => off / 128 * 16 + i
      { x with pinned := fset x.pinned tenant w, pinnedPoison := fset x.pinnedPoison tenant (kept ++ new) })
  | .host phys =>
    if hostUp s t.mod then
      .ok (s.modMod t.mod fun x =>
        { x with host := Memory.writeMask x.host (phys / 128 * 128) 128 mask data })
    else .error .portDown
  | .other _ | .absent | .bad | .unpopulated => .error .unpopulated

/-- The address of a domain's byte in a tenant's rights table (R316). -/
def rightsAddr (s : State) (m tenant dom : Nat) : Nat := (s.policy m tenant).rtbase * 4096 % addrSpace + dom

/-- The rights byte of a domain in a tenant's table (R316), read without rights of its own. -/
def rightsByte (s : State) (m tenant dom : Nat) : Except Fail (Nat × State) :=
  let a := rightsAddr s m tenant dom
  if bitAt a 55 ∨ frameWindow ≤ a then .ok (0, s)
  else
    match target s m tenant a with
    | .error .malformed => .ok (0, s.logErr (homeDie s m tenant a) tenant 8 a)
    | .error e => if e.missing || e.pending || decide (e = .poison) then .error e else .ok (0, s)
    | .ok (t, s1) =>
      match readTarget s1 t tenant a with
      | .error _ => .ok (0, s1)
      | .ok (data, poison, s2) =>
        if bitAt poison (a / 8 % 16) then .error .poison
        else .ok (byteAt data (a % 128), s2)

/-- Whether rights R W X A (bits 0-3) allow an access (R316). -/
def rightsAllow (r : Nat) : Access → Bool
  | .load | .launch => bitAt r 0
  | .store => bitAt r 1
  | .fetch => bitAt r 2
  | .atomic => bitAt r 1 && bitAt r 3

/-- What the leaf must grant as well (R316). -/
def leafAllows (at' : Attr) : Access → Bool
  | .load | .launch => true
  | .store | .atomic => at'.w
  | .fetch => at'.x

/-- Rights of domain 0xFFF: supervisor read, write and atomic, never execute (R316). -/
def superRights (priv : Bool) : Nat := if priv then 11 else 0

/-- A leaf that lets an access pass (R153, R316). -/
def leafPasses (m : Nat) (kind : Access) (t : Target) : Bool :=
  leafAllows t.attr kind && !(t.attr.dup && decide (kind = .store ∨ kind = .atomic))
    && !(decide (kind = .atomic) && decide (t.mod ≠ m) && !t.attr.rap)

/-- The holder of an address for an engine's access: a check that would fail on a cached leaf, the requester's or the
holder's, is repeated once on fresh walks (R314, R433). -/
def sysTargetBy (kid : Nat) (s : State) (m tenant a : Nat) (kind : Access) : Except Fail (Target × State) :=
  match targetBy kid s m tenant a with
  | .error e => .error e
  | .ok (t, s1) =>
    if leafPasses m kind t || decide (frameWindow ≤ a) then .ok (t, s1)
    else targetBy kid (freshLeaf (freshLeaf s1 m tenant a).2 t.mod tenant a).2 m tenant a
def sysTarget (s : State) (m tenant a : Nat) (kind : Access) : Except Fail (Target × State) := sysTargetBy tenant s m tenant a kind

/-- The place of a sector by the leaf captured at issue (R210). -/
def capturedTarget (s : State) (m tenant a leaf : Nat) : Except Fail (Target × State) :=
  if frameWindow ≤ a ∨ leaf = 0 then target s m tenant a
  else
    let at' := attrOf leaf a (s.pkgOf m)
    match locate s m tenant a leaf with
    | .other pkg =>
      if (s.modOf m).failedPaths.contains pkg then .error (.lost m m)
      else
        match s.modWith pkg with
        | none => .error .unanswered
        | some m' =>
          match crossing s m m' tenant with
          | .error (x, y) => .error (.lost x y)
          | .ok s1 => follow 4 true s1 m' tenant tenant a
    | .absent => .error .absent
    | .bad => .error .malformed
    | .unpopulated => .error .unpopulated
    | w => if frozen s m a then .error .unanswered else .ok ({ mod := m, place := w, attr := at', home := at' }, s)

/-- An engine's rights to a domain for its access at `a` (R316); a rights byte that cannot be had fails at its own
address. -/
def sysRights (s : State) (m tenant : Nat) (priv : Bool) (dom a : Nat) (kind : Access) : Except (Fail × Nat) State :=
  if dom = 0xFFF then (if rightsAllow (superRights priv) kind then .ok s else .error (.prot, a))
  else
    match rightsByte s m tenant dom with
    | .error e => .error (e, rightsAddr s m tenant dom)
    | .ok (r, s1) => if rightsAllow r kind then .ok s1 else .error (.prot, a)

/-- The check of an engine's or the hardware's access to a translated address, in the order of R153 (R316); a failure
carries its address. -/
def sysCheck (s : State) (m tenant : Nat) (priv : Bool) (kind : Access) (t : Target) (a : Nat) :
    Except (Fail × Nat) State :=
  match sysRights s m tenant priv t.attr.dom a kind with
  | .error e => .error e
  | .ok s1 =>
    if leafAllows t.attr kind = false ∨ (kind = .atomic ∧ t.attr.aper = 2) then .error (.prot, a)
    else if t.attr.dup && decide (kind = .store ∨ kind = .atomic) then .error (.writeProtect, a)
    else if leafPasses m kind t = false then .error (.denied, a)
    else .ok s1

/-- The core of a TCM-window address, and the cluster of a scratchpad-window address (R57). -/
def tcmCore (m a : Nat) : Nat := coreKey m (bits a 41 36) (bits a 35 27) (bits a 26 23)
def spadClu (m a : Nat) : Nat := cluKey m (bits a 41 36) (bits a 35 27)
/-- The package field of a placed address. -/
def placedPkg (a : Nat) : Nat := bits a 53 42
/-- Bytes of a cluster scratchpad (R241). -/
def spadSize (c : Cluster) : Nat := 2 ^ 18 * c.spways

/-- A placed address names a core or cluster that exists in package `m` (R151). -/
def placedHere (s : State) (m a : Nat) : Bool :=
  decide (placedPkg a = s.pkgOf m) && decide (bits a 35 27 < 400)
    && (s.modOf m).diesUp.contains (bits a 41 36)

/-- The scratchpad part of a partition in a cluster that it spans, as window offsets, where partitions are configured
(R241, R376): from way 0 in a cluster that no other partition spans (R377). -/
def spadPart (s : State) (m k part off : Nat) : Bool :=
  match partitionOf s m part with
  | none => true
  | some e =>
    let base := if sharedClu s m k then e.wayBase else 0
    (spanClusters m e).contains k && decide (base * 2 ^ 18 ≤ off ∧ off < (base + e.ways) * 2 ^ 18)

/-- The bank of a TCM offset is open to a partition (R225). -/
def bankOpen (c : Core) (part off : Nat) : Bool := bitAt (fget 0 c.tbanks part) (off / 2 ^ 13)

/-- The domain of a TCM offset (R316, R99): the top 16 KiB is the supervisor's. -/
def tcmDom (off : Nat) : Nat := if 0xC000 ≤ off then 0xFFF else 0xFFE

/-- The checks of an engine's access to a placed window (R225, R243, R244, R316). -/
def placedSys (s : State) (m tenant a part : Nat) (priv : Bool) (kind : Access) : Except (Fail × Nat) State :=
  if placedHere s m a = false then .error (.unpopulated, a)
  else if bits a 55 54 = 3 then
    let off := a % 2 ^ 23
    if 2 ^ 16 ≤ off then .error (.unpopulated, a)
    else if off < 0xC000 ∧ bankOpen (s.coreOf (tcmCore m a)) part off = false then .error (.prot, a)
    else sysRights s m tenant priv (tcmDom off) a kind
  else
    let off := a % 2 ^ 27
    if 0x4000000 ≤ off then
      (if kind = .load then sysRights s m tenant priv 0xFFD a kind else .error (.prot, a))
    else if spadSize (s.cluOf (spadClu m a)) ≤ off then .error (.unpopulated, a)
    else if spadPart s m (spadClu m a) part off = false then .error (.prot, a)
    else sysRights s m tenant priv 0xFFD a kind

/-- The first poisoned byte among `n` bytes at `off` of a memory with poisoned 8-byte words. -/
def firstPoison (l : List Nat) (off n : Nat) : Option Nat := (List.range n).find? fun i => l.contains ((off + i) / 8)

/-- The first poisoned byte of `n` bytes of the engine region: only the completion ring holds poison (R265). -/
def ringPoisoned (c : Cluster) (off n : Nat) : Option Nat :=
  if 0x4030000 ≤ off ∧ off < 0x4030400 then firstPoison c.ringPoison (off - 0x4030000) n else none

/-- An engine's read of a placed window. -/
def placedRead (s : State) (m tenant a n : Nat) (part : Nat) (priv : Bool) : Except (Fail × Nat) (Nat × State) :=
  match placedSys s m tenant a part priv .load with
  | .error e => .error e
  | .ok s1 =>
    let give (mem : Memory) (bad : List Nat) (off : Nat) : Except (Fail × Nat) (Nat × State) :=
      match firstPoison bad off n with
      | some i => .error (.poison, a + i)
      | none => .ok (Memory.readN mem off n, s1)
    if bits a 55 54 = 3 then
      let c := s1.coreOf (tcmCore m a)
      give c.tcm c.tcmPoison (a % 2 ^ 23)
    else
      let c := s1.cluOf (spadClu m a)
      let off := a % 2 ^ 27
      if 0x4000000 ≤ off then
        (match engineLoad c off n, ringPoisoned c off n with
         | some _, some i => .error (.poison, a + i)
         | some x, none => .ok (x, s1)
         | none, _ => .error (.prot, a))
      else give c.spad c.spadPoison off

/-- Words wholly covered by a write of `n` bytes at `off` (R320). -/
def clearWords (l : List Nat) (off n : Nat) : List Nat :=
  l.filter fun w => decide (¬(off ≤ 8 * w ∧ 8 * w + 8 ≤ off + n))

/-- What a strand that waits on `w` bytes at `a` remembers of its monitor. -/
def monitorKey (a w : Nat) : Nat := a * 32 + w

/-- A monitor sees a write to `n` bytes from `a` (R229). -/
def monitorHit (key a n : Nat) : Bool := decide (key / 32 < a + n ∧ a < key / 32 + key % 32)

/-- A write to `n` bytes from `a` reaches the word that the consumer of a ring transfer stores to (R255). -/
def ringWord (x : Xfer) (a n : Nat) : Bool :=
  let w := (nth (0 : Word) x.regs 10).toNat % addrSpace + 8
  bitAt (nth (0 : Word) x.regs 12).toNat 2 && decide (w < a + n ∧ a < w + 8)

/-- Strands of a cluster that monitor bytes from `a` on, and ring transfers whose consumer's word lies there,
are told of a write to them (R229, R255, R258). -/
def fireMonitors (s : State) (cluKey a n : Nat) : State :=
  let hit := s.strands.filter fun e =>
    decide (e.1 / 256 = cluKey) && (e.2.parkedOn .waitw || e.2.parkedOn .barrier)
      && e.2.asked.any fun k => monitorHit k a n
  let s1 := s.spawns (hit.map fun e => .waitwMonitorFire (Place.ofKey e.1))
  let rings := (s.cluOf cluKey).bte.active.filter fun x => ringWord x a n
  s1.spawns (rings.map fun x => .bteConsumerUpdate cluKey x.id)

/-- An engine's write into a placed window; the monitors are told (R229). -/
def placedWrite (s : State) (m tenant a n x : Nat) (part : Nat) (priv : Bool) : Except (Fail × Nat) State :=
  match placedSys s m tenant a part priv .store with
  | .error e => .error e
  | .ok s1 =>
    if bits a 55 54 = 3 then
      let k := tcmCore m a
      let off := a % 2 ^ 23
      .ok (fireMonitors (s1.modCore k fun c =>
        { c with tcm := Memory.writeN c.tcm off n x, tcmPoison := clearWords c.tcmPoison off n }) (coreClu k) a n)
    else
      let k := spadClu m a
      let off := a % 2 ^ 27
      .ok (fireMonitors (s1.modClu k fun c =>
        { c with spad := Memory.writeN c.spad off n x, spadPoison := clearWords c.spadPoison off n }) k a n)

/-- Bytes from `a` to the end of its sector, at most `n`. -/
def secRun (a n : Nat) : Nat := Nat.min n (128 - a % 128)

/-- An engine's read of up to a sector's bytes (R244, R316); a failure carries its address. -/
def sysReadSec (kid : Nat) (s : State) (m tenant part : Nat) (priv : Bool) (a n : Nat) :
    Except (Fail × Nat) (Nat × State) :=
  if bitAt a 55 then placedRead s m tenant a n part priv
  else
    match sysTargetBy kid s m tenant a .load with
    | .error e => .error (e, a)
    | .ok (t, s1) =>
      match sysCheck s1 m tenant priv .load t a with
      | .error e => .error e
      | .ok s2 =>
        match readTarget s2 t tenant a with
        | .error e => .error (e, a)
        | .ok (data, poison, s3) =>
          match (List.range n).find? fun i => bitAt poison ((a % 128 + i) / 8) with
          | some i => .error (.poison, a + i)
          | none => .ok (data / 256 ^ (a % 128) % 256 ^ n, s3)

/-- A read of `n` bytes from `a` by an engine or the Ochre cores; a failure carries the address of its first byte. -/
def sysReadBy (kid : Nat) : Nat → State → Nat → Nat → Nat → Bool → Nat → Nat →
    Except (Fail × Nat) (Nat × State)
  | 0, s, _, _, _, _, _, _ => .ok (0, s)
  | fuel + 1, s, m, tenant, part, priv, a, n =>
    if n = 0 then .ok (0, s)
    else
      let r := secRun a n
      match sysReadSec kid s m tenant part priv a r with
      | .error e => .error e
      | .ok (x, s1) =>
        match sysReadBy kid fuel s1 m tenant part priv (addrAdd a r) (n - r) with
        | .error e => .error e
        | .ok (y, s2) => .ok (x + 256 ^ r * y, s2)

/-- An engine's read of `n` bytes from `a`, for a context of its tenant. -/
def sysRead (fuel : Nat) (s : State) (m tenant part : Nat) (priv : Bool) (a n : Nat) : Except (Fail × Nat) (Nat × State) :=
  sysReadBy tenant fuel s m tenant part priv a n

/-- An engine's write of up to a sector's bytes. -/
def sysWriteSec (kid : Nat) (s : State) (m tenant part : Nat) (priv : Bool) (a n x : Nat) : Except (Fail × Nat) State :=
  if bitAt a 55 then placedWrite s m tenant a n x part priv
  else
    match sysTargetBy kid s m tenant a .store with
    | .error e => .error (e, a)
    | .ok (t, s1) =>
      match sysCheck s1 m tenant priv .store t a with
      | .error e => .error e
      | .ok s2 =>
        match writeTarget s2 t tenant a (maskRange (a % 128) n) (x % 256 ^ n * 256 ^ (a % 128)) 0 with
        | .error e => .error (e, a)
        | .ok s3 => .ok s3

/-- A write of `n` bytes from `a` by an engine or the Ochre cores. -/
def sysWriteBy (kid : Nat) : Nat → State → Nat → Nat → Nat → Bool → Nat → Nat → Nat →
    Except (Fail × Nat) State
  | 0, s, _, _, _, _, _, _, _ => .ok s
  | fuel + 1, s, m, tenant, part, priv, a, n, x =>
    if n = 0 then .ok s
    else
      let r := secRun a n
      match sysWriteSec kid s m tenant part priv a r (x % 256 ^ r) with
      | .error e => .error e
      | .ok s1 => sysWriteBy kid fuel s1 m tenant part priv (addrAdd a r) (n - r) (x / 256 ^ r)

/-- An engine's write of `n` bytes from `a`, for a context of its tenant. -/
def sysWrite (fuel : Nat) (s : State) (m tenant part : Nat) (priv : Bool) (a n x : Nat) : Except (Fail × Nat) State :=
  sysWriteBy tenant fuel s m tenant part priv a n x

/-- The number of sectors that `n` bytes can touch. -/
def secFuel (n : Nat) : Nat := n / 128 + 2

/-- The key identifier of the physical function and of the Ochre cores (R397). -/
def ochreKid : Nat := 64

/-- A read by the Ochre cores and other supervisors of a tenant's memory (R316). -/
def superRead (s : State) (m tenant a n : Nat) : Except (Fail × Nat) (Nat × State) :=
  sysReadBy ochreKid (secFuel n) s m tenant 0 true a n

def superWrite (s : State) (m tenant a n x : Nat) : Except (Fail × Nat) State :=
  sysWriteBy ochreKid (secFuel n) s m tenant 0 true a n x

/-- The fault-queue ring size of FAULTQ (R317). -/
def faultRing (q : Word) : Nat := 2 ^ (Nat.min (fld q 3 0) 11 + 4)

/-- A strand of the VF in the package that enables FAULTPOST (R96). -/
def wantsFaultPost (m vf : Nat) (e : Nat × Strand) : Bool :=
  decide (e.1 / 256 / 512 / 64 = m) && e.2.live && decide (e.2.tenant = vf) && bitAt e.2.csr.imask.toNat 2

/-- Raise FAULTPOST in a strand of the VF that enables it (R96). -/
def faultPostBit (m vf : Nat) (e : Nat × Strand) : Nat × Strand :=
  if wantsFaultPost m vf e then (e.1, { e.2 with csr := { e.2.csr with ipend := e.2.csr.ipend ||| 4 } }) else e

/-- Raise FAULTPOST, and let the strands that it reaches take the interrupt (R95, R96). -/
def raiseFaultPost (s : State) (m vf : Nat) : State :=
  State.spawns { s with strands := s.strands.map (faultPostBit m vf) }
    ((s.strands.filter (wantsFaultPost m vf)).map fun e => .asyncTrapEntry (Place.ofKey e.1))

/-- A malformed leaf that hardware meets in a VF's memory is logged (R312, R320). -/
def logMalformed (s : State) (m vf : Nat) (e : Fail × Nat) : State :=
  if e.1 = .malformed then s.logErr (homeDie s m vf e.2) vf 8 e.2 else s

/-- Post one entry (R317): written at HEAD, then HEAD advances; it fails while the queue has no room or is
not enabled, or cannot be accessed. FAULTPOST is raised in the VF's strands that enable it (R96). -/
def tryPost (s : State) (m : Nat) (p : Post) : Except (Option (Fail × Nat)) State :=
  let q := (s.policy m p.vf).faultq
  if bitAt q.toNat 63 = false then .error none
  else
    let base := bits q.toNat 55 12 * 4096
    match superRead s m p.vf base 16 with
    | .error e => .error (some e)
    | .ok (h, s1) =>
      let head := h % 2 ^ 64
      let tail := h / 2 ^ 64
      if faultRing q ≤ (head + 2 ^ 64 - tail) % 2 ^ 64 then .error none
      else
        let a := base + 64 + 32 * (head % faultRing q)
        let x := p.addr % 2 ^ 56 + p.token % 2 ^ 32 * 2 ^ 64 + p.kind * 2 ^ 96 + p.source * 2 ^ 104
          + p.access * 2 ^ 112 + p.place * 2 ^ 128 + p.id % 2 ^ 32 * 2 ^ 192
          + head % 2 ^ 32 * 2 ^ 224
        match superWrite s1 m p.vf a 32 x with
        | .error e => .error (some e)
        | .ok s2 =>
          match superWrite s2 m p.vf base 8 (head + 1) with
          | .error e => .error (some e)
          | .ok s3 => .ok (raiseFaultPost s3 m p.vf)

/-- Post every entry of a list that finds room, in order; the rest wait (R317). -/
def postAll (m : Nat) : List Post → State → List Post × State
  | [], s => ([], s)
  | p :: ps, s =>
    match tryPost s m p with
    | .ok s1 => postAll m ps s1
    | .error e =>
      let (r, s1) := postAll m ps (match e with
        | none => s
        | some f => logMalformed s m p.vf f)
      (p :: r, s1)

/-- Post the waiting entries of a module. -/
def drainPosts (s : State) (m : Nat) : State :=
  let (rest, s1) := postAll m (s.modOf m).posts s
  s1.modMod m fun x => { x with posts := rest }

/-- Post an entry to a VF's fault queue (R317): a post that finds no room waits, is counted and logged
(R320, R321), and is tried again as software may have moved TAIL. -/
def postFault (s : State) (m dk : Nat) (p : Post) : State :=
  let waits (t : State) : State :=
    ((t.modMod m fun x => { x with posts := x.posts ++ [p] }).count dk 9).logErr dk p.vf 12 p.addr
  if (s.modOf m).posts.any fun q => decide (q.vf = p.vf) then waits s
  else
    match tryPost s m p with
    | .ok s1 => s1
    | .error none => (waits s).spawn (.faultQueueTailAdvance m p.vf 0)
    | .error (some f) => (waits (logMalformed s m p.vf f)).spawn (.faultQueueTailAdvance m p.vf 0)

/-- A part that is absent at the package that owns it is posted there too, with TOKEN 0 (R418). -/
def postOwner (s : State) (f : Fail) (p : Post) : State :=
  match f with
  | .absentAt m => postFault s m (homeDie s m p.vf p.addr) { p with token := 0, kind := 1 }
  | _ => s

/-! ### Accesses that have no answer (R399) -/

/-- An access of an operation that has no answer so far: its address, whether it writes, since when, which piece of the
operation makes it, and whether a frame of it was discarded, so that no answer will come. -/
def Lost.wait (now : Nat) (old : Option Lost) (f : Fail) (a access item : Nat) : Lost :=
  let since := match old with
    | some x => if x.addr = a ∧ x.item = item then x.since else now
    | none => now
  { addr := a, access := access, since := since, item := item, gone := decide (f ≠ .unanswered) }

/-- An access without an answer goes on waiting: it has not waited for `limit` cycles yet. -/
def keepsWaiting (now limit : Nat) (old : Option Lost) (f : Fail) (a item : Nat) : Bool :=
  f.pending &&
    match old with
    | some x => decide (¬(x.addr = a ∧ x.item = item ∧ x.since + limit ≤ now))
    | none => true

/-- What the discard of a frame leaves at the module that received it (R399). -/
def noteLost (s : State) (f : Fail) : State :=
  match f with
  | .lost frm dst =>
    if frm = dst then s else linkError (s.count (firstDie s dst) 15) dst (((nextHop s frm (s.pkgOf dst) none 0).map (·.1)).getD 0)
  | _ => s

/-- The patience of an access (R399). -/
def patience : Nat := 2 ^ 20

/-- The lines of module DRAM that stand in a way that is now pinned go, dirty bytes to DRAM first: pinned ways hold the
pinned window only (R307). -/
def clearPinned (s : State) (m : Nat) : State :=
  let ways := (s.modOf m).pinnedWays
  let mine (l : L2Line) : Bool := !l.pinned && ways.contains l.way
  let die (t : State) (dk : Nat) : State :=
    let ls := (t.dieOf dk).l2.filter mine
    if ls.isEmpty then t
    else
      (t.modMod m fun x => ls.foldl l2WriteBack x).modDie dk fun d => { d with l2 := d.l2.filter fun l => !mine l }
  ((s.dies.map (·.1)).filter fun dk => decide (dieMod dk = m)).foldl die s

end Sys2Proof.Machine
end

