-- ==== Sys2Proof/Machine/Ops.lean ====
section
/-! DEFINITION. The shared operations of a strand: registers, how a bundle ends, taking a trap and
returning from one, parking and waking, leaving a course (R69, R82-R103, R174-R196). -/

namespace Sys2Proof.Machine

open Sys2Proof

/-- How the meaning of one word ends, before its bundle is concluded. -/
inductive Res where
  | done (s : State)
  | trap (c : Cause) (addr info : Nat)
  /-- Waits: the reason, and whether the wait itself acts outside the strand. -/
  | park (r : ParkReason) (sent : Bool) (s : State)
  | gone (s : State)
  deriving DecidableEq, Repr

/-- A computation of a meaning that may end it early. -/
abbrev Act (α : Type) : Type := StateT State (Except Res) α

/-- End a meaning early. -/
def stop {α : Type} (r : Res) : Act α := fun _ => .error r

/-- Raise a cause (R92). -/
def raise {α : Type} (c : Cause) (addr info : Nat) : Act α := stop (.trap c addr info)

/-- Wait with a reason (R175). -/
def parkOn {α : Type} (r : ParkReason) : Act α := fun s => .error (.park r false s)

/-- Wait for something that the strand has asked of another agent. -/
def parkSent {α : Type} (r : ParkReason) : Act α := fun s => .error (.park r true s)

/-- The state as it stands. -/
def here : Act State := fun s => .ok (s, s)

/-- Change the state. -/
def change (f : State → State) : Act Unit := fun s => .ok ((), f s)

/-- Run a meaning from a state. -/
def Act.res (m : Act Unit) (s : State) : Res :=
  match m s with
  | .ok (_, t) => .done t
  | .error r => r

/-- Read a general register (R82): g0 reads 0. -/
def rg (s : State) (r : GReg) : Word := if r = 0 then 0 else s.view.g[r]

/-- Read a mask register (R82). -/
def rk (s : State) (r : KReg) : BitVec 32 := s.view.k[r]

/-- The stream units as the executing half reads them: at the bundle's start for the A half (R69). -/
def State.units (s : State) : List SUnit :=
  match s.issue.pre with
  | some _ => s.issue.preUnits
  | none => s.core.units

/-- Write a general register (R82): a write to g0 is discarded. -/
def wg (s : State) (r : GReg) (v : Word) : State :=
  if r = 0 then s else s.modMe fun x => { x with g := x.g.set r v }

/-- Set SSTAT.VUSED (R87). -/
def setVused (x : Strand) : Strand :=
  { x with csr := { x.csr with sstat := x.csr.sstat ||| 0x80 } }

/-- Write a mask register and set VUSED (R87). -/
def wk (s : State) (r : KReg) (v : BitVec 32) : State :=
  s.modMe fun x => setVused { x with k := x.k.set r v }

/-- The address of the executing word (R71, R72): the A half's word stands 4 bytes on. -/
def wordAddr (s : State) : Nat :=
  match s.issue.half with
  | .lone | .c => s.issue.addr
  | .a => addrAdd s.issue.addr 4

/-- HALF of R81 for the executing word. -/
def halfBit (s : State) : Nat :=
  match s.issue.half with
  | .lone | .c => 0
  | .a => 256

/-- A cause whose EADDR is the address of the offending word, in the layout of R81. -/
def wordTrap (s : State) (c : Cause) (sub : Nat) : Res :=
  .trap c (wordAddr s) (halfBit s + sub)

/-- ILLEGAL_INSTR at execution (R83, R189, R194): SUB holds the OP. -/
def illegal {α : Type} (op : Nat) : Act α := fun s => .error (wordTrap s .illegalInstr op)

/-- RESERVED_FIELD at execution. -/
def reserved {α : Type} (sub : Nat) : Act α := fun s => .error (wordTrap s .reservedField sub)

/-- PRIV unless the strand is in supervisor mode (R92): SUB holds the OP. -/
def needSuper (op : Nat) : Act Unit := fun s =>
  if s.super then .ok ((), s) else .error (wordTrap s .priv op)

/-- HALF of R92 in the EINFO of a memory cause (R81): DEDUCED (log 65), 1 for one that the A half raises. R153 says 0 of
the accesses of the C half and of a lone word. -/
def memHalf (s : State) (c : Cause) : Nat := if c.ofMemory then halfBit s else 0

/-- A cause of a memory access in the layout of R92. -/
def memTrap {α : Type} (c : Cause) (addr : Nat) (k : Access) : Act α := raise c addr k.code

/-! ### Courses a strand leaves -/

/-- Remove a core from a course (R183, R185): the lowest attached member leads next; a course with no
attached member is dissolved. -/
def Course.without (c : Course) (core : Nat) : Option Course :=
  let att := c.attached.filter (· ≠ core)
  match att with
  | [] => none
  | l :: ls =>
    let lead := decide (c.leader = core)
    some { c with leader := (if lead then ls.foldl Nat.min l else c.leader),
                  members := c.members.filter (fun m => m ≠ core), attached := att,
                  hold := (if lead then none else c.hold),
                  arrived := (if lead then [] else c.arrived.filter (· ≠ core)) }

/-- Detach a member (R182): it stays a member. -/
def Course.detach (c : Course) (core : Nat) : Option Course :=
  let att := c.attached.filter (· ≠ core)
  match att with
  | [] => none
  | l :: ls =>
    let lead := decide (c.leader = core)
    some { c with leader := (if lead then ls.foldl Nat.min l else c.leader), attached := att,
                  hold := (if lead then none else c.hold),
                  arrived := (if lead then [] else c.arrived) }

/-- Give a strand an answer of another unit and wake it. -/
def giveAnswer (s : State) (p : Place) (code value : Nat) : State :=
  s.modStrand p fun x => ({ x with resps := x.resps ++ [Resp.unit code value] }).wake

/-- Every detached member of a course has arrived where its leader holds (R186). -/
def Course.allArrived (c : Course) : Bool :=
  c.hold.isSome && c.members.all fun m => c.attached.contains m || c.arrived.contains m

/-- The leaders of a slot's courses that hold at a REALIGN for no member any more are released (R186). -/
def releaseHolds (s : State) (cluKey slot : Nat) : State :=
  let free (t : State) (c : Course) : State :=
    let q := placeOf (cluKey * 16 + c.leader) slot
    if decide (c.slot = slot) && c.allArrived && (t.strand q).parkedOn .realign then giveAnswer t q 0 0 else t
  (s.cluOf cluKey).courses.foldl free s

/-- The strand of a place leaves its course, or an open rendezvous (R185), or, with `stay`, only detaches
from its course. -/
def leaveCourse (s : State) (p : Place) (stay : Bool) : State :=
  let f (k : Course) : Option Course :=
    if k.slot = p.slot ∧ k.members.contains p.core then
      (if stay then k.detach p.core else k.without p.core)
    else some k
  let quit (r : Rdv) : Rdv :=
    if !stay && !r.closed && decide (r.slot = p.slot) then
      let left := r.arrived.filter (· ≠ p.core)
      { r with arrived := left, closed := left.isEmpty }
    else r
  let s1 := s.modClu p.cluKey fun c =>
    { c with courses := c.courses.filterMap f, rdvs := c.rdvs.map quit }
  releaseHolds (s1.modStrand p fun x => { x with fwd := [] }) p.cluKey p.slot

/-- Whether the strand of a place is in a course. -/
def inCourse (s : State) (p : Place) : Bool :=
  (s.cluOf p.cluKey).courses.any fun k => decide (k.slot = p.slot) && k.members.contains p.core

/-! ### Loop buffers -/

/-- Release the loop buffer of a level (R188). -/
def freeBuf (s : State) (core : Nat) (l : LoopLevel) : State :=
  match l.buf with
  | none => s
  | some i => s.modCore core fun c => { c with lbufs := setNth c.lbufs i none }

/-- Release the buffers of every level of a strand (R196). -/
def freeBufs (s : State) (p : Place) : State :=
  let s1 := (s.strand p).loops.foldl (fun t l => freeBuf t p.coreKey l) s
  s1.modStrand p fun x => { x with loops := x.loops.map fun l => { l with buf := none } }

/-! ### How a bundle ends -/

/-- Decrease REMAIN of the level with index `i` from the innermost, or pop it (R189): the next program
counter, and the strand's levels. -/
def endLevel (next : Nat) : List LoopLevel → Nat → Nat × List LoopLevel × Option LoopLevel
  | [], _ => (next, [], none)
  | l :: ls, 0 =>
    if l.e ≠ next then (next, l :: ls, none)
    else if l.remain ≤ 1 then (next, ls, some l)
    else (l.b, { l with remain := l.remain - 1 } :: ls, none)
  | l :: ls, i + 1 =>
    let (n, ls', o) := endLevel next ls i
    (n, l :: ls', o)

/-- Record the end event or exit of the bundle (R181). -/
def noteEvent (s : State) (n : Nat) : State := { s with issue := { s.issue with ev := n } }

/-- The end event of a completed bundle (R189): of the level that was innermost at its start. -/
def endEvent (s : State) : State :=
  let x := s.me
  let i := s.issue
  if i.noEnd || i.lev = 0 || x.loops.length < i.lev then
    s.setMe { x with pc := word i.next }
  else
    let (n, ls, popped) := endLevel i.next x.loops (x.loops.length - i.lev)
    let s1 := s.setMe { x with pc := word n, loops := ls }
    match popped with
    | none => if ls = x.loops then s1 else noteEvent s1 1
    | some l => noteEvent (freeBuf s1 s.cur.coreKey l) 2

/-- Count a completed bundle while a packet is open (R88). -/
def countPkt (w : Word) : Word := if bitAt w.toNat 5 then w + 1 else w

/-- The bundle at the program counter holds no answers any more. -/
def clearAnswers (x : Strand) : Strand :=
  { x with resps := [], asked := [], probes := [], askedAt := [], token := none, denied := false, begun := none, banked := none,
           absAt := none }

/-- A stream unit passes the element at its position (R192). -/
def SUnit.advance (u : SUnit) : SUnit :=
  { u with pos := u.pos + 1, fetched := u.fetched.filter fun e => decide (e.1 ≠ u.pos) }

/-- Replace stream unit `i` of a core. -/
def State.modUnit (s : State) (coreKey i : Nat) (f : SUnit → SUnit) : State :=
  s.modCore coreKey fun c => { c with units := setNth c.units i (f (nth SUnit.free c.units i)) }

/-- The elements that the completed bundle read are taken (R192), where the C half has not freed their unit. -/
def takeElements (s : State) : State :=
  s.issue.taken.foldl (fun t i => t.modUnit t.cur.coreKey i fun u => if u.bound.isSome then u.advance else u) s

/-- A bundle completes: the program counter moves on, an end event may follow, answers are used up. -/
def retire (s : State) : State :=
  let s1 := (endEvent (takeElements s)).modMe fun x =>
    clearAnswers { x with csr := { x.csr with openpkt := countPkt x.csr.openpkt } }
  { s1 with issue := { s1.issue with ended := some .done } }

/-- Abandon the open packet of a strand (R89): an abort tail to its entry's first router, once there is a credit for it
(R406); OPENPKT cleared. -/
def abandon (s : State) (p : Place) : State :=
  let x := s.strand p
  if x.pktOpen = false then s
  else
    let q := nth QState.free (s.coreOf p.coreKey).qs (fld x.csr.openpkt 7 6)
    let e := fget (VsEntry.mk 0 none 0 0 [] 0 0 false [] [] []) (s.cluOf p.cluKey).entries q.entry
    let pk : VsPacket := { chunk := q.chunk, flits := [], marker := none, abort := true,
                           tenant := x.tenant, group := e.group, gen := e.gen, gv := e.gv }
    let s1 := s.modStrand p fun y => { y with pkt := [], csr := { y.csr with openpkt := 0 } }
    let put (z : QState) : State := s1.modCore p.coreKey fun c => { c with qs := setNth c.qs (fld x.csr.openpkt 7 6) z }
    if q.bound = false then s1
    else if 8 ≤ q.sent then put { q with aborts := q.aborts ++ [pk] }
    else
      let s2 := put { q with sent := q.sent + 1 }
      { s2 with notes := s2.notes ++ [Note.vs p.cluKey q.entry 4 pk] }.spawn (.vsPacketArrive p.cluKey 4)

/-- Where a cause enters (R93). -/
def vector (evec : Word) (code : Nat) : Word :=
  let base := bits evec.toNat 55 3 * 8
  if bitAt evec.toNat 0 then word (base + 8 * code) else word base

/-- SSTAT at trap entry (R93): PMODE and PIE take MODE and IE; MODE := 1, IE := 0, TL := 1. -/
def trapStat (st : Word) : Word :=
  setFld (setFld (setFld (setFld (setFld st 3 3 (fld st 0 0)) 2 2 (fld st 1 1)) 0 0 1) 1 1 0) 6 6 1

/-- Trap entry of a strand whose TL is 0 (R93). -/
def enterTrap (x : Strand) (c : Cause) (addr info ret : Nat) : Strand :=
  { x with
    st := .ready
    pc := vector x.csr.evec c.code
    resps := [], asked := [], probes := [], askedAt := [], token := none, denied := false, begun := none, banked := none
    absAt := none
    csr := { x.csr with
      epc := word ret
      ecause := word (b2n c.isAsync * 2 ^ 63 + c.code)
      eaddr := word addr
      einfo := word info
      sstat := trapStat x.csr.sstat } }

/-- A double trap (R97): the slot parks, the second cause is logged, a fault entry is posted; the first
trap's CSRs stay. -/
def doubleTrap (s : State) (p : Place) (c : Cause) (bundle : Nat) : State :=
  let x := s.strand p
  let vf := x.tenant
  let s1 := leaveCourse s p false
  let s2 := s1.modStrand p fun y =>
    { y with st := .parked .doubleTrap, dbl := true, begun := none, banked := none, resps := [], asked := [], probes := [],
             askedAt := [], token := none, absAt := none }
  let s3 := (s2.logErr p.dieKey vf 9 bundle).logErr p.dieKey vf 10
    (s.strandId p + c.code * 2 ^ 35)
  postFault s3 p.mod p.dieKey
    { vf := vf, addr := bundle % 2 ^ 56, token := 0, kind := 6, source := 0, access := 0,
      place := s.strandId p, id := 0 }

/-- The access kind of an unanswered request that a bundle's cause reports (R399). -/
def unanswered (x : Strand) (addr : Nat) : Option Access :=
  x.resps.findSome? fun
    | Resp.sector sec k .unanswered _ _ _ => if sec = addr / 128 then some k else none
    | Resp.old .unanswered _ _ => some .atomic
    | _ => none

/-- A stream unit of a strand got no answer for its element at an address (R399). -/
def lostElem (s : State) (p : Place) (addr : Nat) : Bool :=
  (s.coreOf p.coreKey).units.any fun u => decide (u.owner = some p.slot) && u.fetched.any fun e =>
    match e.2 with
    | .lost a _ => decide (a = addr)
    | .data _ | .fault _ _ | .absent _ => false

/-- What a cause leaves beside the strand's registers (R320, R399): the record of a protection violation or of
poison consumed, or the fault-queue entry of an access without an answer. -/
def logCause (s : State) (p : Place) (c : Cause) (addr : Nat) : State :=
  let x := s.strand p
  match c with
  | .prot => s.logErr p.dieKey x.tenant 7 addr
  | .barrierOverflow => s.count p.dieKey 10
  | .dataError =>
    match (unanswered x addr).or (if lostElem s p addr then some .load else none) with
    | none => (s.logErr p.dieKey x.tenant 6 addr).count p.dieKey 2
    | some k => postFault (if (unanswered x addr).isSome then s else s.count p.dieKey 14) p.mod p.dieKey
        { vf := x.tenant, addr := addr, token := 0, kind := 7, source := 0, access := k.code,
          place := s.strandId p, id := 0 }
  | _ => s

/-- A synchronous cause of the bundle at `ret` of a strand (R93, R97): an open packet is abandoned first
(R89), a course is left or detached from (R182). -/
def syncTrap (s : State) (p : Place) (c : Cause) (addr info ret bundle : Nat) : State :=
  let s1 := logCause (abandon s p) p c addr
  if (s1.strand p).tl then doubleTrap s1 p c bundle
  else (leaveCourse s1 p true).modStrand p fun x => enterTrap x c addr info ret

/-- Raising a pending error of a matrix stream consumes it (R206). -/
def eatError (s : State) : State :=
  match s.issue.eats with
  | none => s
  | some st => s.modMe fun x => { x with mpend := setNth x.mpend st none }

/-- The bundle in the pipeline raises a cause (R69, R93): it commits nothing. -/
def trapBundle (s : State) (c : Cause) (addr info : Nat) : State :=
  let t := syncTrap (eatError s) s.cur c addr info s.issue.addr s.issue.addr
  { t with issue := { t.issue with ended := some (.trap c addr info) } }

/-- Since when the requests and probes of a strand are out: those it had before keep their cycle (R399). -/
def Strand.stamp (now : Nat) (x : Strand) : List (Nat × Nat) :=
  let out : List Nat := x.asked.map (fun k => 2 * k) ++ x.probes.map fun n => 2 * n + 1
  out.map fun k =>
    (k, match x.askedAt.find? fun e => decide (e.1 = k) with
      | some e => e.2
      | none => now)

/-- The bundle waits (R175): the slot is Parked at the bundle's address. -/
def parkBundle (s : State) (r : ParkReason) (sent : Bool) : State :=
  let t := s.modMe fun x => { x with st := .parked r, askedAt := x.stamp s.ticks }
  { t with issue := { t.issue with ended := some (.park r sent) } }

/-- The strand has left its slot. -/
def markGone (s : State) : State := { s with issue := { s.issue with ended := some .gone } }

/-- A word has had its effects (R66, R69): a lone word completes its bundle, a half of a pair hands its
ending to the step, which concludes both. -/
def endWord (t : State) : State :=
  match t.issue.half with
  | .lone => retire t
  | .c | .a => { t with issue := { t.issue with ended := some .done } }

/-- A word raises a cause (R69, R93); `s` is the state before the word. -/
def trapWord (s : State) (c : Cause) (addr info : Nat) : State :=
  match s.issue.half with
  | .lone => trapBundle s c addr info
  | .c | .a => { s with issue := { s.issue with ended := some (.trap c addr (info + memHalf s c)) } }

/-- A word waits (R175). -/
def parkWord (t : State) (r : ParkReason) (sent : Bool) : State :=
  match t.issue.half with
  | .lone => parkBundle t r sent
  | .c | .a => { t with issue := { t.issue with ended := some (.park r sent) } }

/-- Conclude a word (R66, R69). `s` is the state before the word. -/
def finish (s : State) (r : Res) : Host.Outcome State Fault Refusal :=
  match r with
  | .done t => .next (endWord t)
  | .trap c a i => .next (trapWord s c a i)
  | .park k sent t => .next (parkWord t k sent)
  | .gone t => .next (markGone t)

/-- The return from an exception (R103): the program counter and the mode come back from EPC, PMODE and
PIE; TL := 0. -/
def returnTrap (s : State) : State :=
  let x := s.me
  let st := x.csr.sstat
  let st' := setFld (setFld (setFld st 0 0 (fld st 3 3)) 1 1 (fld st 2 2)) 6 6 0
  let t := s.setMe { x with csr := { x.csr with sstat := st' } }
  { t with issue := { t.issue with next := bits x.csr.epc.toNat 63 2 * 4, took := true } }

/-- A control transfer of the executing word: the bundle's next program counter (R69, R143). -/
def jump (s : State) (target : Nat) : State := { s with issue := { s.issue with next := target, took := true } }

/-- A request of a strand, at the start of its way. -/
def Msg.make (p : Place) (tenant : Nat) (body : MsgBody) : Msg :=
  { loc := p.mod, src := p, tenant := tenant, body := body, hops := 0, via := [], tag := 0, tagStub := 0, back := false,
    walked := false, link := none, due := 0, old := false, near := false, attr := none, walk := none }

/-- The address that a message is about. -/
def MsgBody.addr : MsgBody → Nat
  | .read sec _ _ _ _ => sec * 128
  | .write sec _ _ _ _ _ => sec * 128
  | .amo a _ _ _ _ _ _ => a
  | .probe _ _ => 0

/-- The cycles that a message takes at least from its core to its home slice (R389). -/
def msgFlight (s : State) (m : Msg) : Nat :=
  match m.body with
  | .probe _ _ => 0
  | .read _ _ _ _ _ | .write _ _ _ _ _ _ | .amo _ _ _ _ _ _ _ =>
    let (die, slice, _) := homeOf s m.src.mod m.tenant m.body.addr
    flight (placeNode m.src) (sliceNode (dieKey m.src.mod die) slice)

/-- Send requests, notes and replies. -/
def State.send (s : State) (m : Msg) : State := { s with net := s.net ++ [{ m with due := s.ticks + msgFlight s m }] }
def State.note (s : State) (n : Note) : State := { s with notes := s.notes ++ [n] }
def State.reply (s : State) (r : Reply) : State :=
  { s with replies := s.replies ++ [r] }.spawn (.memResponse r.dst)

/-- The answer of another unit that the bundle holds, if it has come: code and value. -/
def unitAnswer (x : Strand) : Option (Nat × Nat) :=
  x.resps.findSome? fun
    | Resp.unit c v => some (c, v)
    | _ => none

/-- Whether the bundle has already sent a request with this number. -/
def hasAsked (x : Strand) (n : Nat) : Bool := x.asked.contains n

/-- Remember that the bundle has sent a request with this number. -/
def ask (s : State) (n : Nat) : State := s.modMe fun x => { x with asked := n :: x.asked }

/-- A refusal or rejection result (R246, R280, R295, R355, R409). -/
def rejectWord (reason : Nat) : Word := word (0xFFFFFFFF00000000 + reason)

/-! ### Contexts of the key-lookup engine (R271) -/

/-- Replace a context. -/
def State.modCtx (s : State) (clu i : Nat) (f : KCtx → KCtx) : State :=
  s.modClu clu fun c => { c with kctx := fset c.kctx i (f (kctx c i)) }

/-- Strands of a die that wait for a context, a ticket or an engine look again (R282, R286). -/
def pokeDie (s : State) (dk : Nat) : State :=
  { s with strands := s.strands.map fun e => if e.1 / 16 / 16 / 512 = dk then (e.1, e.2.wakeIf [.engine]) else e }

/-- A Free context (R271): its state word keeps the latest issue (R268). -/
def KCtx.cleared (x : KCtx) : KCtx :=
  { KCtx.free with gen := (x.gen + 1) % 1024, ticket := x.ticket, who := x.who, tenant := x.tenant }

/-- A context becomes Free (R271). -/
def freeContext (s : State) (clu i : Nat) : State := pokeDie (s.modCtx clu i KCtx.cleared) (cluDie clu)

/-- A strand no longer waits in KLWAIT (R271): a Done lookup for which every KLWAIT that returned Done has returned
becomes Free. -/
def quitWait (p : Place) (clu : Nat) (s : State) (i : Nat) : State :=
  let x := kctx (s.cluOf clu) i
  if x.waiters.contains p = false then s
  else
    let left := x.waiters.filter (· ≠ p)
    let s1 := s.modCtx clu i fun y => { y with waiters := left }
    if x.st = 2 ∧ x.returned = true ∧ left.isEmpty = true then freeContext s1 clu i else s1

/-- A strand no longer waits for any lookup of its cluster. -/
def quitWaits (s : State) (p : Place) : State := (List.range 64).foldl (quitWait p p.cluKey) s

end Sys2Proof.Machine
end

