-- ==== Sys2Proof/Machine/Flags.lean ====
section
/-! DEFINITION. The floating-point control register and the random generator of a strand: rounding
modes, sticky flags and advances (R32, R35, R36). -/

namespace Sys2Proof.Machine

open Sys2Proof

/-- FPCTL.RM (R32). -/
def defaultMode (s : State) : Rounding := Rounding.ofCode (fld s.view.csr.fpctl 1 0)

/-- The mode of a rounding operand (R124). -/
def modeOf (s : State) : RoundSel → Rounding
  | .fpctl => defaultMode s
  | .by r => r

/-- Set sticky flags NV DZ OF UF NX (R35). -/
def setFlags (s : State) (fl : Nat) : State :=
  s.modCsr fun c => { c with fpctl := c.fpctl ||| word (fl % 32 * 16) }

/-- The generator (R36). -/
def seedOf (s : State) : BitVec 32 := s.me.csr.rndseed

/-- The generator after an instruction's decisions. -/
def setSeed (s : State) (x : BitVec 32) : State := s.modCsr fun c => { c with rndseed := x }

/-- The generator as a queued or engine operation copies it at issue, and the strand's generator advanced
once (R36). -/
def copySeed (s : State) : Nat × State := ((seedOf s).toNat, setSeed s (xorshift (seedOf s)))

/-- The five sticky flags of FPCTL. -/
def flagsOf (s : State) : Nat := fld s.me.csr.fpctl 8 4

end Sys2Proof.Machine
end

