-- ==== Sys2Proof/Machine/L1.lean ====
section
/-! DEFINITION. A strand's accesses to memory: the L1, the PLB, the placed windows, the order of the
checks, and what is asked of a home when the L1 does not hold a sector (R151-R158, R225-R227, R316). -/

namespace Sys2Proof.Machine

open Sys2Proof

/-! ### The L1 -/

/-- The line of an address in a core's L1. -/
def l1Line (c : Core) (a : Nat) : Option L1Line := c.l1.find? fun l => decide (l.line = a / 1024)

/-- The sector of an address in a core's L1. -/
def l1Sec (c : Core) (a : Nat) : Option L1Sec :=
  match l1Line c a with
  | none => none
  | some l => (l.secs.find? fun e => decide (e.1 = a / 128 % 8)).map (·.2)

/-- A read on its way that may no longer fill the L1 of a core. -/
def Msg.noFill (coreKey : Nat) (q : Nat → Bool) (m : Msg) : Msg :=
  match m.body with
  | .read sec k d _ w =>
    if decide (m.src.coreKey = coreKey) && q sec then { m with body := .read sec k d false w } else m
  | .write _ _ _ _ _ _ | .amo _ _ _ _ _ _ _ | .probe _ _ => m

/-- An answer on its way that may no longer fill the L1 of a core. -/
def Reply.noFill (coreKey : Nat) (q : Nat → Bool) (r : Reply) : Reply :=
  match r.resp with
  | .sector sec _ _ _ _ _ => if decide (r.dst.coreKey = coreKey) && q sec then { r with fill := false } else r
  | .old _ _ _ | .unit _ _ | .released => r

/-- What was asked for before a write of the core leaves it, or before an acquire, does not enter the L1 after it
(R156, R169, R332): the reads on their way for some sectors, and their answers, fill nothing. -/
def State.noFill (s : State) (coreKey : Nat) (q : Nat → Bool) : State :=
  { s with net := s.net.map (Msg.noFill coreKey q), replies := s.replies.map (Reply.noFill coreKey q) }

/-- A read on its way, of a sector that a write of its core leaves the L1 for. -/
def Msg.overtake (coreKey sec : Nat) (m : Msg) : Msg :=
  match m.body with
  | .read sc k d _ w =>
    if m.src.coreKey = coreKey ∧ sc = sec then { m with body := .read sc k d false w, old := true } else m
  | .write _ _ _ _ _ _ | .amo _ _ _ _ _ _ _ | .probe _ _ => m

/-- An answer on its way, of a sector that a write of its core leaves the L1 for. -/
def Reply.overtake (coreKey sec : Nat) (r : Reply) : Reply :=
  match r.resp with
  | .sector sc _ _ _ _ _ => if r.dst.coreKey = coreKey ∧ sc = sec then { r with fill := false, old := true } else r
  | .old _ _ _ | .unit _ _ | .released => r

/-- The bytes of a sector that a bundle holds an answer with: it gives the answer up, and asks again. -/
def Strand.forget (sec : Nat) (x : Strand) : Strand :=
  let mine : Resp → Bool
    | .sector sc k _ _ _ _ => decide (sc = sec ∧ (k = .load ∨ k = .atomic))
    | .old _ _ _ | .unit _ _ | .released => false
  let keys := (x.resps.filter mine).map fun
    | .sector sc k _ _ _ _ => sc * 8 + k.code
    | .old _ _ _ | .unit _ _ | .released => 0
  { x.unask keys.contains with resps := x.resps.filter fun r => !mine r }

/-- A write of a core leaves for the home of a sector: no strand of the core goes on with bytes that were read at the
home before it, and none of them enters the L1 after it (R156, R227, R330). -/
def State.overtake (s : State) (coreKey sec : Nat) : State :=
  { s with
    net := s.net.map (Msg.overtake coreKey sec)
    replies := s.replies.map (Reply.overtake coreKey sec)
    strands := s.strands.map fun e => if e.1 / 16 = coreKey then (e.1, e.2.forget sec) else e }

/-- A write-back of a sector's dirty bytes to its home (R227): a request without an answer. -/
def sendWb (s0 : State) (coreKey line idx : Nat) (x : L1Sec) : State :=
  if x.dirty = 0 then s0
  else
    let p := placeOf coreKey 0
    let s := s0.overtake coreKey (line * 8 + idx)
    (s.send { Msg.make p x.tenant (.write (line * 8 + idx) x.dirty x.data x.poison x.attr true) with near := x.near }).spawn
      (.homeSliceRequest p.mod p)

/-- Write back every dirty sector of a line. -/
def sendLineWb (s : State) (coreKey : Nat) (l : L1Line) : State :=
  l.secs.foldl (fun t e => sendWb t coreKey l.line e.1 e.2) s

/-- Replace a sector of a line and make the line the most recent (R227). -/
def l1Put (s : State) (coreKey a : Nat) (l : L1Line) (x : L1Sec) : State :=
  s.modCore coreKey fun c =>
    { c with l1 := { l with secs := fset l.secs (a / 128 % 8) x } ::
        c.l1.filter fun y => decide (y.line ≠ l.line) }

/-- Room for the line of an address (R227, R238): the lowest invalid L1 way of the set, else the line used
longest ago, which writes back its dirty bytes; what was asked for of it before does not enter the L1 after it (R330). -/
def l1Alloc (s : State) (coreKey a : Nat) : L1Line × State :=
  let c := s.coreOf coreKey
  match l1Line c a with
  | some l => (l, s)
  | none =>
    let set := bits a 13 10
    let held := c.l1.filter fun l => decide (l.line % 16 = set)
    let sp := (s.cluOf (coreClu coreKey)).spways
    let ways := (List.range (20 - sp)).map (· + sp)
    match ways.find? fun w => held.all fun l => decide (l.way ≠ w) with
    | some w => ({ line := a / 1024, way := w, secs := [] }, s)
    | none =>
      match held.getLast? with
      | none => ({ line := a / 1024, way := 19, secs := [] }, s)
      | some v =>
        let s1 := (sendLineWb s coreKey v).noFill coreKey fun sec => decide (sec / 8 = v.line)
        ({ line := a / 1024, way := v.way, secs := [] },
          s1.modCore coreKey fun x => { x with l1 := x.l1.filter fun y => decide (y.line ≠ v.line) })

/-- A fill of a sector from its home (R152): bytes that are dirty keep what the strand wrote; a sector that an
earlier fill has filled stays as it is, so that no byte goes back to an older value (R330). -/
def l1Fill (s : State) (coreKey tenant a : Nat) (at' : Attr) (data poison : Nat) : State :=
  let (l, s1) := l1Alloc s coreKey a
  let x : L1Sec :=
    match (l.secs.find? fun e => decide (e.1 = a / 128 % 8)).map (·.2) with
    | none => { filled := true, near := false, dirty := 0, data := data, poison := poison, tenant := tenant, attr := at' }
    | some o =>
      if o.filled then o
      else { filled := true, near := o.near, dirty := o.dirty, data := mergeBytes 128 o.dirty data o.data,
             poison := mergePoison poison o.dirty o.poison, tenant := tenant, attr := at' }
  l1Put s1 coreKey a l x

/-- A sector allocated by a store miss, without a fill (R152). -/
def l1Reserve (s : State) (coreKey tenant a : Nat) (at' : Attr) : State :=
  let (l, s1) := l1Alloc s coreKey a
  match (l.secs.find? fun e => decide (e.1 = a / 128 % 8)).map (·.2) with
  | some o => l1Put s1 coreKey a l { o with tenant := tenant, attr := at' }
  | none => l1Put s1 coreKey a l
      { filled := false, near := false, dirty := 0, data := 0, poison := 0, tenant := tenant, attr := at' }

/-- The bytes `[a, a + n)` of a sector, as a mask. -/
def runMask (a n : Nat) : Nat := maskRange (a % 128) n

/-- Whether a sector can serve a load of some of its bytes (R152). -/
def L1Sec.serves (x : L1Sec) (a n : Nat) : Bool :=
  x.filled || decide (x.dirty &&& runMask a n = runMask a n)

/-- Whether the word of a byte of `[a, a + n)` is poisoned. -/
def poisonHit (poison a n : Nat) : Bool :=
  (List.range n).any fun i => bitAt poison ((a % 128 + i) / 8)

/-! ### Absent pages -/

/-- A fault token (R318). -/
def tokenOf (p : Place) (slot seq : Nat) : Nat :=
  p.die * 2 ^ 26 + p.clu * 2 ^ 17 + p.core * 2 ^ 13 + slot % 16 * 2 ^ 9 + seq % 512

/-- The next sequence number of tokens, 1-511 (R318). -/
def nextSeq (n : Nat) : Nat := if 511 ≤ n then 1 else n + 1

/-- The byte of `[a, a + n)` that reads as poison first (R153). -/
def poisonAt (poison a n : Nat) : Option Nat :=
  ((List.range n).find? fun i => bitAt poison ((a % 128 + i) / 8)).map (a + ·)

/-- A strand waits on an absent page or part (R318): it joins the outstanding entry of its die for the
part, or posts one. -/
def waitAbsent (s : State) (p : Place) (a : Nat) (k : Access) : State :=
  let x := s.strand p
  let d := s.dieOf p.dieKey
  let park (t : State) (tok : Nat) : State :=
    t.modStrand p fun y =>
      { y with st := .parked .page, token := some tok, absAt := some (a, k), resps := [], asked := [], askedAt := [] }
  match d.waits.find? fun w => decide (w.page = pageOf a ∧ w.part = partOf a) with
  | some w =>
    let join (v : FaultWait) : FaultWait :=
      { v with strands := if v.strands.contains p then v.strands else v.strands ++ [p] }
    park (s.modDie p.dieKey fun e =>
      let ws := mapFirst (fun v => decide (v.token = w.token)) join e.waits
      { e with waits := ws }) w.token
  | none =>
    let tok := tokenOf p p.slot d.faultSeq
    let w : FaultWait := { token := tok, tenant := x.tenant, page := pageOf a, part := partOf a,
                           strands := [p], xfers := [] }
    let s1 := s.modDie p.dieKey fun e =>
      { e with waits := e.waits ++ [w], faultSeq := nextSeq e.faultSeq }
    park (postFault s1 p.mod p.dieKey
      { vf := x.tenant, addr := a, token := tok, kind := 1, source := 0, access := k.code,
        place := s.strandId p, id := 0 }) tok

/-- The bundle finds a page or part absent: it parks (R318). -/
def absent {α : Type} (a : Nat) (k : Access) : Act α := fun s => .error (.park .page true (waitAbsent s s.cur a k))

/-! ### Rights -/

/-- The number of a request of a bundle: its sector and access kind. -/
def askKey (sec : Nat) (k : Access) : Nat := sec * 8 + k.code

/-- The PLB entry of a tenant and domain, made the most recent. -/
def plbFind (c : Core) (tenant dom : Nat) : Option PlbEntry :=
  c.plb.find? fun e => decide (e.tenant = tenant ∧ e.dom = dom)

/-- Put an entry into the PLB: 32 entries, recency order (R316). -/
def plbPut (s : State) (e : PlbEntry) : State :=
  s.modMyCore fun c =>
    { c with plb := (e :: c.plb.filter fun x => decide (¬(x.tenant = e.tenant ∧ x.dom = e.dom))).take 32 }

/-- The rights byte at an address has no answer (R399): the bundle waits, and asks again unless a frame was lost; after
2^20 cycles it fails. -/
def noRights (a : Nat) (k : Access) (f : Fail) : Act Nat := fun s =>
  let key := askKey (a / 128) .load
  if (unanswered s.me a).isSome then .error (.trap .dataError a k.code)
  else if hasAsked s.me key then
    .error (.park .mem false (if f = .unanswered then s.spawn (.memResponse s.cur) else s))
  else .error (.park .mem true ((ask (noteLost s f) key).spawn (.memResponse s.cur)))

/-- Refill the PLB from the rights table (R316). -/
def plbRefill (dom : Nat) (k : Access) : Act Nat := fun s =>
  let t := s.tenant
  let a := rightsAddr s s.cur.mod t dom
  match rightsByte s s.cur.mod t dom with
  | .error f =>
    if f.missing then absent a k (postOwner s f { vf := t, addr := a, token := 0, kind := 1, source := 0, access := 0,
                                                  place := s.strandId s.cur, id := 0 })
    else if f.pending then noRights a k f s
    else .error (.trap .dataError a k.code)
  | .ok (r, s1) =>
    .ok (r, if r = 0 then s1 else plbPut s1 { tenant := t, dom := dom, rights := r })

/-- The tenant's rights to a domain for an access (R316): a cached entry that does not allow it is refilled
once (R314). -/
def needRights (a dom : Nat) (k : Access) : Act Unit := fun s =>
  if dom = 0xFFF then
    (if rightsAllow (superRights s.super) k then .ok ((), s) else .error (.trap .prot a k.code))
  else
    let refill : Except Res (Unit × State) :=
      match plbRefill dom k s with
      | .error e => .error e
      | .ok (r, s1) => if rightsAllow r k then .ok ((), s1) else .error (.trap .prot a k.code)
    match plbFind s.core s.tenant dom with
    | none => refill
    | some e => if rightsAllow e.rights k then .ok ((), plbPut s e) else refill

/-! ### Asking a home -/

/-- Ask the home for a sector, or only for its rights (R152), and wait. -/
def request {α : Type} (a : Nat) (k : Access) (data fill : Bool) : Act α := fun s =>
  let key := askKey (a / 128) k
  if hasAsked s.me key then .error (.park .mem false s)
  else
    let p := s.cur
    let s1 := (ask s key).send (Msg.make p s.tenant (.read (a / 128) k data fill true))
    .error (.park .mem false (s1.spawn (.homeSliceRequest p.mod p)))

/-- The answer that the bundle holds for a sector and access kind. -/
def sectorResp (x : Strand) (sec : Nat) (k : Access) : Option (LineStatus × Attr × Nat × Nat) :=
  x.resps.findSome? fun
    | Resp.sector sc kd st at' d po => if sc = sec ∧ kd = k then some (st, at', d, po) else none
    | _ => none

/-! ### Travel -/

/-- A strand is light (R88). DESIGN CHOICE (log 65): a level that holds a loop buffer counts as running from it from the
LOOP on, its capturing first pass included. -/
def isLight (s : State) (p : Place) : Bool :=
  let x := s.strand p
  let c := s.coreOf p.coreKey
  bitAt x.csr.sstat.toNat 4 && !bitAt x.csr.sstat.toNat 7
    && c.tiles.all (fun t => decide (t.owner ≠ some p.slot))
    && c.units.all (fun u => decide (u.owner ≠ some p.slot) || u.bound.isNone)
    && x.loops.all (fun l => l.buf.isNone)
    && (s.cluOf p.cluKey).kctx.all (fun e => decide (e.2.st = 0) || !e.2.holders.contains p)
    && decide (x.csr.imask = 0) && !bitAt x.csr.itimer.toNat 63

/-- An IXE posting of a strand is not yet complete (R260, R261). -/
def ixBusy (s : State) (p : Place) : Bool :=
  let e := (s.cluOf p.cluKey).ixe
  (e.queue ++ e.active).any fun o => decide (o.who = p) && o.posted

/-- A strand may leave its core (R261). -/
def mayMove (s : State) (p : Place) : Bool :=
  isLight s p && !(s.strand p).tl && decide (p.slot ≠ 15) && !ixBusy s p

/-- The VF that a slot's issue positions currently run (R233, R350, R378): during a switch the slots that have
changed hands run the incoming one. -/
def runsVf (s : State) (p : Place) (part : Nat) : Option Nat :=
  match (s.modOf p.mod).partitions.find? fun e => decide (e.1 = part) with
  | none => none
  | some e =>
    match e.2.next with
    | none => e.2.vf
    | some n => if (s.modOf p.mod).handovers.any fun h => decide (h.1 = p.key) then e.2.vf else some n

/-- The lowest slot of a core that may take a strand of a partition and tenant (R261, R350). -/
def freeSlot (s : State) (coreKey part tenant : Nat) : Option Nat :=
  let c := s.coreOf coreKey
  let coming (p : Place) : Bool :=
    (s.cluOf (coreClu coreKey)).inbound.any fun x => decide (x.dst = p)
  (List.range 15).find? fun i =>
    decide (fld c.slotmap (4 * i + 3) (4 * i) = part)
      && decide (runsVf s (placeOf coreKey i) part = some tenant)
      && !(s.strand (placeOf coreKey i)).live && !coming (placeOf coreKey i)

/-- The cycles that the five flits of a light context take at least to another cluster (R389, R393). -/
def contextFlight (p dst : Place) : Nat := if p.cluKey = dst.cluKey then 0 else 4 + flight (placeNode p) (placeNode dst)

/-- The light context of a strand (R98, R261). -/
def contextOf (s : State) (p dst : Place) (pc : Word) : Context :=
  let x := s.strand p
  { src := p, dst := dst, pc := pc, sstat := x.csr.sstat,
    g := (List.range 16).map fun i => x.g[Fin.ofNat 32 i], task := x.task, notice := x.notice,
    due := s.ticks + contextFlight p dst }

/-- What a strand that leaves its slot drops elsewhere: its grant (R364), its course and its loop buffers
(R185), the transfer that its PDEPTH shows, and its hold on lookups. -/
def dropClaims (s : State) (p : Place) : State :=
  let w := (s.strand p).csr.pwtoken
  let s1 := quitWaits (freeBufs (leaveCourse s p false) p) p
  let s2 := s1.modClu p.cluKey fun c =>
    let hide (x : Xfer) : Xfer := if x.who = p then { x with shows := false } else x
    let bte := { c.bte with queue := c.bte.queue.map hide, active := c.bte.active.map hide }
    let quit (e : Nat × KCtx) : Nat × KCtx :=
      (e.1, { e.2 with holders := e.2.holders.filter (· ≠ p) })
    { c with bte := bte, kctx := c.kctx.map quit }
  if bitAt w.toNat 63 then
    (s2.modDie p.dieKey fun d => { d with granted := d.granted - fld w 51 48 }).spawn
      (.admissionServe p.dieKey)
  else s2

/-- What an Empty slot keeps of the strand that has left it (R17): its registers as they stood. -/
def Strand.vacated (x : Strand) : Strand :=
  { Strand.empty with
    pc := x.pc, g := x.g, v := x.v, k := x.k, latch := x.latch, mflags := x.mflags, issued := x.issued,
    csr := { x.csr with pwtoken := 0, openpkt := 0 } }

/-- The slot of a strand becomes Empty (R174). -/
def emptySlot (s : State) (p : Place) : State := (dropClaims s p).setStrand p (s.strand p).vacated

/-- The class weight of a strand's task leaves one die and is charged to another when it moves between them
(R351). -/
def moveCharge (s : State) (frm dst cls : Nat) : State :=
  if frm = dst then s
  else
    let w := nth 4 [0, 1, 2] (cls % 4)
    let s1 := s.modDie frm fun d => { d with charged := d.charged - w }
    (s1.modDie dst fun d => { d with charged := d.charged + w }).spawn (.admissionServe frm)

/-- The request number that stands for a wait to travel. -/
def askTravel : Nat := 15

/-- A strand leaves for a free slot (R261): its light context is on its way, its slot is Empty. -/
def sendContext (s : State) (p dst : Place) (resume : Nat) (wr : Option (Nat × Word)) : State :=
  let ctx := contextOf s p dst (word resume)
  let ctx' : Context :=
    match wr with
    | some (i, v) => if i = 0 then ctx else { ctx with g := setNth ctx.g i v }
    | none => ctx
  let s1 := moveCharge (emptySlot s p) p.dieKey dst.dieKey ctx.task.cls
  (s1.modClu dst.cluKey fun c =>
    { c with inbound := c.inbound ++ [ctx'],
             travellers := c.travellers.filter fun y => decide (y.who ≠ p) }).spawn
    (.migrationArrival dst.cluKey)

/-- The slots of some cores of a cluster that a strand may enter, in the order of the cores. -/
def openSlots (s : State) (p : Place) (cluKey : Nat) (cores : List Nat) : List Place :=
  let x := s.strand p
  cores.filterMap fun c =>
    (freeSlot s (cluKey * 16 + c) x.part x.tenant).map fun sl => placeOf (cluKey * 16 + c) sl

/-- Wait for a slot of a cluster, behind the strands that asked before (R263); the wait is counted (R265). -/
def waitTravel (s : State) (p : Place) (cluKey : Nat) (cores : List Nat) : State :=
  let ts := (s.cluOf cluKey).travellers
  if ts.any fun t => decide (t.who = p) then s
  else
    (((s.modClu cluKey fun c =>
      { c with travellers := c.travellers ++ [{ who := p, cores := cores, auto := false }] }).modStrand p
      fun x => { x with asked := askTravel :: x.asked }).count p.dieKey 10).spawn (.migrationSlotFree cluKey)

/-- The strands that asked before a strand and have a slot open go first (R263). -/
def waitsBefore (s : State) (p : Place) (cluKey : Nat) : Bool :=
  ((s.cluOf cluKey).travellers.takeWhile fun t => decide (t.who ≠ p)).any fun t =>
    !(openSlots s t.who cluKey t.cores).isEmpty

/-- A strand whose release is done departs for one of some cores of a cluster, or waits in its slot until
that cluster reports one free (R261, R263). -/
def depart (s : State) (p : Place) (cluKey : Nat) (cores : List Nat) (resume : Nat)
    (wr : Option (Nat × Word)) : Res :=
  match openSlots s p cluKey cores with
  | dst :: _ =>
    if waitsBefore s p cluKey then .park .mem true (waitTravel s p cluKey cores)
    else .gone (sendContext s p dst resume wr)
  | [] => .park .mem true (waitTravel s p cluKey cores)

end Sys2Proof.Machine
end

