-- ==== Sys2Proof/Machine/Pushes.lean ====
section
/-! DEFINITION. Writing bytes once they are checked: into a placed window, into the L1, or to the home; and the
pending pushes of a strand's write streams (R151, R152, R156, R159, R192). -/

namespace Sys2Proof.Machine

open Sys2Proof

/-- Run a computation as the strand of another place, and stand again where the machine stood. -/
def asPlace {α : Type} (p : Place) (f : State → α × State) (s : State) : α × State :=
  let r := f { s with cur := p, issue := { s.issue with pre := none } }
  (r.1, { r.2 with cur := s.cur, issue := s.issue })

/-- A store, a write-back or a far atomic to a sector. -/
def MsgBody.writes (sec : Nat) : MsgBody → Bool
  | .write sc _ _ _ _ _ => decide (sc = sec)
  | .amo a _ _ _ _ _ _ => decide (a / 128 = sec)
  | .read _ _ _ _ _ | .probe _ _ => false

/-- A write of a core to a sector is on its way to the home and has not been performed (R156, R169). -/
def writeOnWay (s : State) (coreKey sec : Nat) : Bool :=
  s.net.any fun m => decide (m.src.coreKey = coreKey) && m.body.writes sec

/-- The bytes of a placed store under a mask; monitors of the cluster are told (R229). -/
def placedStore (s : State) (a n mask x : Nat) : State :=
  let whole := decide (mask = 2 ^ n - 1)
  let s1 :=
    if bits a 55 54 = 3 then
      let off := a % 2 ^ 23
      s.modMyCore fun c =>
        { c with tcm := Memory.writeMask c.tcm off n mask x, tcmPoison := if whole then clearWords c.tcmPoison off n else c.tcmPoison }
    else
      let off := a % 2 ^ 27
      s.modMyClu fun c =>
        { c with spad := Memory.writeMask c.spad off n mask x, spadPoison := if whole then clearWords c.spadPoison off n else c.spadPoison }
  fireMonitors s1 s1.cur.cluKey a n

/-- A store that goes to the home (R159, R151): uncached, or kept out of the L1. -/
def sendStore (s : State) (a n mask x : Nat) (at' : Attr) : State :=
  let p := s.cur
  let sh := a % 128
  ((s.overtake p.coreKey (a / 128)).send (Msg.make p s.tenant (.write (a / 128) (mask % 2 ^ n * 2 ^ sh) (x % 256 ^ n * 256 ^ sh) 0 at' false))).spawn
    (.homeSliceRequest p.mod p)

/-- Write bytes into a sector of the L1 and mark them dirty (R152). -/
def l1Write (s : State) (a n mask x : Nat) (l : L1Line) (o : L1Sec) : State :=
  let sh := a % 128
  let mk := mask % 2 ^ n * 2 ^ sh
  l1Put s s.cur.coreKey a l
    { o with dirty := o.dirty ||| mk, data := mergeBytes 128 mk o.data (x % 256 ^ n * 256 ^ sh),
             poison := mergePoison o.poison mk 0 }

/-- A store that allocates nothing and finds its sector in the L1 (R159): the L1's copy takes the bytes, and none of
them stays dirty. -/
def l1Through (s : State) (a n mask x : Nat) (l : L1Line) (o : L1Sec) : State :=
  let sh := a % 128
  let mk := mask % 2 ^ n * 2 ^ sh
  l1Put s s.cur.coreKey a l
    { o with dirty := o.dirty &&& (2 ^ 128 - 1 - mk), data := mergeBytes 128 mk o.data (x % 256 ^ n * 256 ^ sh),
             poison := mergePoison o.poison mk 0 }

/-- Write bytes of a sector with checked attributes (R152, R159): into the L1, which allocates the sector, or to the
home where the leaf is not cacheable or the store is to allocate nothing. -/
def writeSector (s : State) (a n mask x : Nat) (fill : Bool) (at' : Attr) : State :=
  match l1Line s.core a, l1Sec s.core a with
  | some l, some o =>
    if fill then l1Write s a n mask x l o else sendStore (l1Through s a n mask x l o) a n mask x at'
  | _, _ =>
    if at'.c && fill then
      let s1 := l1Reserve s s.cur.coreKey s.tenant a at'
      match l1Line s1.core a, l1Sec s1.core a with
      | some l, some o => l1Write s1 a n mask x l o
      | _, _ => sendStore s1 a n mask x at'
    else sendStore s a n mask x at'

/-- The store of a push of the strand at `cur` (R192). -/
def pushStore (w : Push) (s : State) : State :=
  if bitAt w.addr 55 then placedStore s w.addr 32 (2 ^ 32 - 1) w.data
  else writeSector s w.addr 32 (2 ^ 32 - 1) w.data true w.attr

/-- The oldest push of a unit issues its store. -/
def pushOne (core unit : Nat) (s : State) : State :=
  let u := nth SUnit.free (s.coreOf core).units unit
  match u.owner, u.pushes with
  | some slot, w :: rest =>
    let r := asPlace (placeOf core slot) (fun t => ((), pushStore w t)) s
    r.2.modUnit core unit fun y => { y with pushes := rest }
  | _, _ => s

/-- The unit with the oldest pending push of a slot (R193). -/
def oldestUnit (c : Core) (slot : Nat) : Option Nat :=
  let head (i : Nat) : Option (Nat × Nat) :=
    let u := nth SUnit.free c.units i
    match u.pushes with
    | [] => none
    | w :: _ => if u.owner = some slot then some (w.seq, i) else none
  ((List.range 4).filterMap head).foldl (fun o e =>
    match o with
    | none => some e
    | some m => if e.1 < m.1 then some e else o) none |>.map (·.2)

/-- The pushes that wait in the units of a slot. -/
def pendingPushes (c : Core) (slot : Nat) : List Push :=
  (List.range 4).flatMap fun i =>
    let u := nth SUnit.free c.units i
    if u.owner = some slot then u.pushes else []

/-- The number of a slot's next push. -/
def nextPush (c : Core) (slot : Nat) : Nat := (pendingPushes c slot).foldl (fun n w => Nat.max n (w.seq + 1)) 0

/-- Pending pushes of a slot issue, the oldest first. -/
def drainSlot (core slot : Nat) : Nat → State → State
  | 0, s => s
  | n + 1, s =>
    match oldestUnit (s.coreOf core) slot with
    | none => s
    | some i => drainSlot core slot n (pushOne core i s)

/-- The pending pushes of a strand issue in their order: a push is a store of its bundle, so that it is performed before
every access and every ordering step of a later bundle (R156, R192, R193). -/
def drainPushes (s : State) (p : Place) : State :=
  drainSlot p.coreKey p.slot (pendingPushes (s.coreOf p.coreKey) p.slot).length s

end Sys2Proof.Machine
end

