-- ==== Sys2Proof/Machine/Order.lean ====
section
/-! DEFINITION. TTMASK, releases, acquires and scope clamping (R157, R171, R173, R326-R338). -/

namespace Sys2Proof.Machine

open Sys2Proof

/-- The TTMASK bit of a write from a die to an address with given attributes (R157). -/
def ttBit (s : State) (p : Place) (tenant a : Nat) (at' : Attr) : Nat :=
  if at'.aper = 2 then 31
  else if at'.holder ≠ s.pkgOf p.mod then 24 + at'.holder % 7
  else
    let (die, slice, _) := homeOf s p.mod tenant a
    if die = p.die then slice % 16 else 16 + die % 8

/-- Mark a target of a write in TTMASK (R157). -/
def markTarget (s : State) (a : Nat) (at' : Attr) : State :=
  let b := ttBit s s.cur s.tenant a at'
  s.modCsr fun c => { c with ttmask := c.ttmask ||| BitVec.ofNat 32 (2 ^ b) }

/-- The groups that a release at a scope probes, before the mask (R332). -/
def probeGroups : Scope → List Nat
  | .none | .core => []
  | .clu | .die => List.range 24
  | .pkg | .ten => List.range 31
  | .sys => List.range 32

/-- A release at this scope waits for the owners of peer packages (R332). -/
def scopeDeep : Scope → Bool
  | .none | .core | .clu | .die | .pkg => false
  | .ten | .sys => true

/-- A sector holds bytes that a near atomic wrote and that lie in a group, or such bytes are on their way to their home: a
release covers them although no bit is set (R157, R341, log 56). -/
def nearIn (s : State) (p : Place) (b : Nat) : Bool :=
  ((s.coreOf p.coreKey).l1.any fun l => l.secs.any fun e =>
    e.2.near && decide (e.2.dirty ≠ 0) && decide (ttBit s p e.2.tenant (l.line * 1024 + e.1 * 128) e.2.attr = b))
    || s.net.any fun m => m.near && decide (m.src.coreKey = p.coreKey) &&
      match m.body with
      | .write sec _ _ _ at' _ => decide (ttBit s p m.tenant (sec * 128) at' = b)
      | .read _ _ _ _ _ | .amo _ _ _ _ _ _ _ | .probe _ _ => false

/-- The groups that a release of a strand probes: those that are marked. -/
def marked (s : State) (p : Place) (sc : Scope) : List Nat :=
  (probeGroups sc).filter fun b => bitAt (s.strand p).csr.ttmask.toNat b || nearIn s p b

/-- Write the dirty bytes of some sectors of a core's L1 to their homes; the sectors stay, clean (R332). -/
def writeBackWhere (s : State) (coreKey : Nat) (p : Nat → L1Sec → Bool) : State :=
  let send (t : State) (l : L1Line) : State :=
    l.secs.foldl (fun u e =>
      if p (l.line * 1024 + e.1 * 128) e.2 then sendWb u coreKey l.line e.1 e.2 else u) t
  let s1 := (s.coreOf coreKey).l1.foldl send s
  let clean (l : L1Line) : L1Line :=
    let ss := l.secs.map fun e =>
      if p (l.line * 1024 + e.1 * 128) e.2 then (e.1, { e.2 with dirty := 0, near := false }) else e
    { l with secs := ss }
  s1.modCore coreKey fun c => { c with l1 := c.l1.map clean }

/-- Drop some sectors of a core's L1; a line without sectors is invalid. -/
def dropWhere (s : State) (coreKey : Nat) (p : Nat → L1Sec → Bool) : State :=
  let f (l : L1Line) : Option L1Line :=
    let ss := l.secs.filter fun e => !p (l.line * 1024 + e.1 * 128) e.2
    if ss.isEmpty then none else some { l with secs := ss }
  s.modCore coreKey fun c => { c with l1 := c.l1.filterMap f }

/-- The number under which a strand waits for the echo of a group: 32 more when the echo does not clear its
bit (R333). -/
def probeNo (sc : Scope) (g : Nat) : Nat := if !scopeDeep sc && decide (24 ≤ g) then g + 32 else g

/-- The dirty bytes that a release moves (R332): those of marked groups, and every line of a peer or of the host that
the scope reaches. -/
def moves (s : State) (p : Place) (sc : Scope) (gs : List Nat) (a : Nat) (e : L1Sec) : Bool :=
  let b := ttBit s p e.tenant a e.attr
  gs.contains b || (decide (24 ≤ b) && (probeGroups sc).contains b)

/-- Start a release (R171, R332): the dirty bytes go to their homes, then the probes. A probe that goes on to an owner
behind a write that has been lost has no echo (R333, R334). -/
def startRelease (s : State) (p : Place) (sc : Scope) : State :=
  let x := s.strand p
  let gs := marked s p sc
  let s1 := writeBackWhere s p.coreKey (moves s p sc gs)
  let probe (t : State) (g : Nat) : State :=
    if scopeDeep sc && (t.coreOf p.coreKey).lostTo.contains g then t
    else (t.send (Msg.make p x.tenant (.probe g (scopeDeep sc)))).spawn
      (.releaseProbe p.mod p g)
  (gs.foldl probe s1).modStrand p fun y => { y with probes := gs.map (probeNo sc) }

/-- The bundle's release has completed. -/
def hasReleased (x : Strand) : Bool := x.resps.contains Resp.released

/-- A release at a scope (R171): the strand's pushes issue first, since they are stores of earlier bundles (R193); the
strand parks until the last echo. -/
def release (sc : Scope) : Act Unit := fun s0 =>
  let s := drainPushes s0 s0.cur
  if hasReleased s.me then .ok ((), s)
  else if (marked s s.cur sc).isEmpty then .ok ((), writeBackWhere s s.cur.coreKey (moves s s.cur sc []))
  else if s.me.probes.isEmpty then .error (.park .fence true (startRelease s s.cur sc))
  else .error (.park .fence false s)

/-- Whether an acquire at a scope makes a sector stale (R332). -/
def acquires (s : State) (m : Nat) (sc : Scope) (x : L1Sec) : Bool :=
  match sc with
  | .none | .core => false
  | .clu | .die => decide (x.attr.aper ≠ 2) && decide (x.attr.holder = s.pkgOf m)
  | .pkg | .ten => decide (x.attr.aper ≠ 2)
  | .sys => true

/-- Forget the elements that a strand's read streams have fetched (R193, R332). -/
def dropElements (s : State) (p : Place) : State :=
  let s1 := s.modCore p.coreKey fun c =>
    let f (u : SUnit) : SUnit :=
      if u.owner = some p.slot ∧ u.wr = false then { u with fetched := [] } else u
    { c with units := c.units.map f }
  let us := (s.coreOf p.coreKey).units
  s1.spawns ((List.range 4).filterMap fun i =>
    let u := nth SUnit.free us i
    if u.owner = some p.slot ∧ u.bound.isSome ∧ u.wr = false then
      some (Event.streamElementFetch p.coreKey i) else none)

/-- An acquire at a scope by a strand (R171, R332): bytes that are not dirty go, dirty bytes stay, and what was asked
for before does not enter the L1 after it (R335). -/
def acquireAt (s0 : State) (p : Place) (sc : Scope) : State :=
  let s1 := drainPushes s0 p
  let s := match sc with
    | .none | .core => s1
    | .clu | .die | .pkg | .ten | .sys => s1.noFill p.coreKey fun _ => true
  let f (l : L1Line) : Option L1Line :=
    let ss := l.secs.filterMap fun e =>
      if acquires s p.mod sc e.2 then
        (if e.2.dirty = 0 then none else some (e.1, { e.2 with filled := false }))
      else some e
    if ss.isEmpty then none else some { l with secs := ss }
  dropElements (s.modCore p.coreKey fun c => { c with l1 := c.l1.filterMap f }) p

/-- An acquire of the executing strand; without a scope there is none (R258). -/
def acquire (sc : Scope) : Act Unit := if sc = .none then pure () else change fun s => acquireAt s s.cur sc

/-- The tenant's MAXSCOPE (R316). -/
def maxScope (s : State) : Nat := (s.policy s.cur.mod s.tenant).maxscope

/-- A scope after clamping (R173): wider than MAXSCOPE is narrowed to it, or raises SCOPE_CLAMP under
trap-on-clamp. -/
def clamp (sc : Scope) : Act Scope := fun s =>
  let mx := maxScope s
  if sc.code ≤ mx then .ok (sc, s)
  else if (s.policy s.cur.mod s.tenant).trap then
    .error (.trap .scopeClamp 0 (sc.code + mx * 8))
  else .ok (Scope.ofCode mx, s)

/-- Count a clamp that a completing bundle made (R338). -/
def noteClamp (sc : Scope) : Act Unit := change fun s =>
  if sc.code ≤ maxScope s then s
  else
    s.modCsr fun c =>
      let n := Nat.min (c.sclamp.toNat % 2 ^ 32 + 1) (2 ^ 32 - 1)
      { c with sclamp := word (n + sc.code * 2 ^ 32) }

/-- A default scope, narrowed to MAXSCOPE without a clamp (R338, R358). -/
def narrowed (s : State) (sc : Scope) : Scope :=
  if sc.code ≤ maxScope s then sc else Scope.ofCode (maxScope s)

/-- A written scope, or a narrowed default for a scope field of 0. -/
def scopeOr (sc dflt : Scope) : Act Scope := fun s =>
  match sc with
  | .none => .ok (narrowed s dflt, s)
  | _ => clamp sc s

/-- An engine takes a scope of CORE as CLUSTER (R326). -/
def engineScope : Scope → Scope
  | .none | .core => .clu
  | .clu => .clu | .die => .die | .pkg => .pkg | .ten => .ten | .sys => .sys

end Sys2Proof.Machine
end

