-- ==== Sys2Proof/Machine/Mem.lean ====
section
/-! DEFINITION. The loads and stores of a strand, byte by byte over the sectors they touch: placement,
residency, rights and data in the order of R153, then the bytes (R151-R158). -/

namespace Sys2Proof.Machine

open Sys2Proof

/-- The strand's pending pushes issue before it accesses memory (R156, R192). -/
def pushesFirst : Act Unit := change fun s => drainPushes s s.cur

/-- Move a light strand next to a memory, or raise PLACEMENT in a heavy one (R151, R263). -/
def travel {α : Type} (a : Nat) (k : Access) (cluKey : Nat) (cores : List Nat) : Act α := fun s =>
  if mayMove s s.cur then
    match release .pkg s with
    | .error e => .error e
    | .ok (_, s1) => .error (depart s1 s.cur cluKey cores s.issue.addr none)
  else .error (.trap .placement a k.code)

/-- The checks of an access to a placed window (R151, R225, R241, R316): where it lies, and the rights of the
window's domain. -/
def placedAt (a : Nat) (k : Access) : Act Unit := fun s =>
  let m := s.cur.mod
  if placedPkg a ≠ s.pkgOf m then
    (if (s.modWith (placedPkg a)).isSome then .error (.trap .placement a k.code)
     else .error (.trap .prot a k.code))
  else if placedHere s m a = false then .error (.trap .prot a k.code)
  else if bits a 55 54 = 3 then
    let off := a % 2 ^ 23
    if 2 ^ 16 ≤ off then .error (.trap .prot a k.code)
    else if tcmCore m a ≠ s.cur.coreKey then travel a k (coreClu (tcmCore m a)) [bits a 26 23] s
    else if off < 0xC000 ∧ bankOpen s.core s.part off = false then .error (.trap .prot a k.code)
    else needRights a (tcmDom off) k s
  else
    let off := a % 2 ^ 27
    if spadClu m a ≠ s.cur.cluKey then travel a k (spadClu m a) [off / 4 % 16] s
    else if off < 0x4000000 then
      (if s.clu.busy then .error (.park .mem false s)
       else if spadSize s.clu ≤ off then .error (.trap .prot a k.code)
       else if spadPart s m s.cur.cluKey s.part off = false then .error (.trap .prot a k.code)
       else needRights a 0xFFD k s)
    else needRights a 0xFFD k s

/-- The checks of an access of a later bundle: the pushes before it come first. -/
def placedCheck (a : Nat) (k : Access) : Act Unit := do
  pushesFirst
  placedAt a k

/-- The first poisoned byte of `n` bytes of the own TCM or scratchpad (R153, R320). -/
def placedPoison (s : State) (a n : Nat) : Option Nat :=
  let hit (i : Nat) : Bool :=
    if bits a 55 54 = 3 then s.core.tcmPoison.contains ((a % 2 ^ 23 + i) / 8)
    else s.clu.spadPoison.contains ((a % 2 ^ 27 + i) / 8)
  ((List.range n).find? hit).map (a + ·)

/-- An offset in the scratchpad window lies in a launch register (R243). -/
def launchReg (off : Nat) : Bool := decide (off / 8 * 8 = 0x4000000 ∨ off / 8 * 8 = 0x4010000)

/-- A word of a scratchpad access joins those that its bank serves (R241, R242): the cycle in which the access is served so
far, and the banks. A load of the word that the bank serves to another load goes with that. -/
def bankWord (now : Nat) (rd : Bool) (acc : Nat × List Bank) (w : Nat) : Nat × List Bank :=
  let id := w / 2 ^ 16 * 16 + w % 16
  let put (at' : Nat) : Nat × List Bank :=
    (Nat.max acc.1 at', { id := id, free := at' + 1, word := if rd then some w else none } :: acc.2.filter fun b => decide (b.id ≠ id))
  match acc.2.find? fun b => decide (b.id = id) with
  | none => put now
  | some b =>
    if b.free ≤ now then put now
    else if rd && decide (b.word = some w) then (Nat.max acc.1 (b.free - 1), acc.2)
    else put b.free

/-- An access of `n` bytes takes its turn at the scratchpad banks (R242): where it would still be unserved 3 cycles after
its attempt, the strand parks with reason MEM until it is served. -/
def bankTurn (a n : Nat) (k : Access) : Act Unit := fun s =>
  let off := a % 2 ^ 27
  if bits a 55 54 ≠ 2 ∨ 0x4000000 ≤ off then .ok ((), s)
  else
    match s.me.banked with
    | some t => if t ≤ s.ticks then .ok ((), s) else .error (.park .mem false s)
    | none =>
      let words := (List.range ((off % 4 + n + 3) / 4)).map (off / 4 + ·)
      let r := words.foldl (bankWord s.ticks (decide (k = .load))) (s.ticks, s.clu.banks.filter fun b => decide (s.ticks < b.free))
      let s1 := s.modMyClu fun c => { c with banks := r.2 }
      let s2 : State := { s1 with issue := { s1.issue with bank := true } }
      if r.1 ≤ s.ticks + 3 then .ok ((), s2)
      else .error (.park .mem true (s2.modMe fun x => { x with banked := some r.1 }))

/-- What `n` bytes of a placed window that passed their checks hold (R151, R243), and the first of them that reads as
poison. -/
def placedRun (a n : Nat) (k : Access) : Act (Nat × Option Nat) := fun s =>
  match (do placedCheck a k; bankTurn a n k : Act Unit) s with
  | .error e => .error e
  | .ok (_, s1) =>
    if bits a 55 54 = 3 then .ok ((Memory.readN s1.core.tcm (a % 2 ^ 23) n, placedPoison s1 a n), s1)
    else
      let off := a % 2 ^ 27
      if off < 0x4000000 then .ok ((Memory.readN s1.clu.spad off n, placedPoison s1 a n), s1)
      else if launchReg off then .error (.trap .prot a Access.launch.code)
      else
        match engineLoad s1.clu off n with
        | some x => .ok ((x, (ringPoisoned s1.clu off n).map (a + ·)), s1)
        | none => .error (.trap .prot a k.code)

/-- The data stage of an access (R153): DATA_ERROR at the first poisoned byte. -/
def unpoisoned (k : Access) (x : Nat × Option Nat) : Act Nat :=
  match x.2 with
  | none => pure x.1
  | some b => memTrap .dataError b k

/-- A load of `n` bytes from a placed window (R151, R243). -/
def placedLoad (a n : Nat) (k : Access) : Act Nat := do
  let x ← placedRun a n k
  unpoisoned k x

/-- The engine region takes no store and no atomic (R243). -/
def storeTaken (a : Nat) (k : Access) : Act Unit :=
  if bits a 55 54 = 2 ∧ 0x4000000 ≤ a % 2 ^ 27 then
    (if launchReg (a % 2 ^ 27) then memTrap .prot a .launch else memTrap .prot a k)
  else pure ()

/-- The check of a store or an atomic to a placed window. -/
def placedStoreCheck (a : Nat) (k : Access) : Act Unit := do
  placedCheck a k
  storeTaken a k

/-- The rights of an access with the attributes of its leaf, in the order of R153. -/
def attrCheck (a : Nat) (k : Access) (at' : Attr) : Act Unit := fun s =>
  match needRights a at'.dom k s with
  | .error e => .error e
  | .ok (_, s1) =>
    let wr := decide (k = .store ∨ k = .atomic)
    if leafAllows at' k = false then .error (.trap .prot a k.code)
    else if k = .atomic ∧ at'.aper = 2 then .error (.trap .prot a k.code)
    else if wr && at'.dup then .error (.trap .writeProtect a k.code)
    else if k = .atomic ∧ at'.holder ≠ s1.pkgOf s1.cur.mod ∧ at'.rap = false then
      .error (.trap .remoteAtomicDenied a k.code)
    else .ok ((), s1)

/-- Attributes that the core may use without asking again: a check that would fail on a cached entry is
repeated on a fresh one (R314, R433). -/
def attrSettled (s : State) (k : Access) (at' : Attr) : Bool :=
  leafAllows at' k && !(decide (k = .store ∨ k = .atomic) && at'.dup)
    && !(decide (k = .atomic ∧ at'.holder ≠ s.pkgOf s.cur.mod) && !at'.rap)

/-- The cluster beside the home slice of a travel page (R308, R263). -/
def travelClu (s : State) (a : Nat) : Nat :=
  let (die, slice, _) := homeOf s s.cur.mod s.tenant a
  cluKey s.cur.mod die (25 * slice / 6)

/-- A page with T = 1 brings a light strand to the line's home (R151). -/
def travelCheck (a : Nat) (k : Access) (at' : Attr) : Act Unit := fun s =>
  if at'.t && decide (travelClu s a ≠ s.cur.cluKey) then travel a k (travelClu s a) (List.range 16) s
  else .ok ((), s)

/-- The sector that serves an access of `n` bytes within one sector (R152, R153): its attributes, and for an
access that reads its bytes and poison. `data` asks for bytes, `fill` lets the L1 keep them. A load that was not
answered (R399) fails at the data stage, as poison does. DEDUCED (log 65): so does one whose walk read poison (R374). -/
def sectorAt (a n : Nat) (k : Access) (data fill : Bool) : Act (Attr × Nat × Nat) := fun s =>
  if s.clu.busy then .error (.park .mem false s)
  else if frameWindow ≤ a ∧ (moduleBytes ≤ a - frameWindow ∨ s.super = false) then
    .error (.trap .prot a k.code)
  else
    let held := l1Sec s.core a
    match sectorResp s.me (a / 128) k with
    | some (.absent, at', _, _) =>
      (do travelCheck a k at'; absent a k : Act (Attr × Nat × Nat)) s
    | some (.malformed, _, _, _) | some (.unpopulated, _, _, _) => .error (.trap .prot a k.code)
    | some (.unanswered, _, _, _) | some (.poisoned, _, _, _) =>
      if k = .load then .ok ((attrFrame 0, 0, 2 ^ 128 - 1), s) else .error (.trap .dataError a k.code)
    | some (.ok, at', d, po) =>
      let (d', po') : Nat × Nat :=
        match held with
        | none => (d, po)
        | some x => if x.filled then (x.data, x.poison)
                    else (mergeBytes 128 x.dirty d x.data, mergePoison po x.dirty x.poison)
      (do travelCheck a k at'; attrCheck a k at'; pure (at', d', po') : Act (Attr × Nat × Nat)) s
    | none =>
      match held with
      | none => request a k data fill s
      | some x =>
        if data && !x.serves a n then request a k true fill s
        else if attrSettled s k x.attr = false then request a k false fill s
        else
          match (do travelCheck a k x.attr; attrCheck a k x.attr : Act Unit) s with
          | .error e => .error e
          | .ok (_, s1) =>
            match l1Line s1.core a with
            | none => .ok ((x.attr, x.data, x.poison), s1)
            | some l => .ok ((x.attr, x.data, x.poison), l1Put s1 s1.cur.coreKey a l x)

/-- The sector that serves an access of a later bundle: the pushes before it come first. -/
def sectorFor (a n : Nat) (k : Access) (data fill : Bool) : Act (Attr × Nat × Nat) := do
  pushesFirst
  sectorAt a n k data fill

/-- A load of `n` bytes within one sector, and the first of them that reads as poison. -/
def loadRun (a n : Nat) (k : Access) (fill : Bool) : Act (Nat × Option Nat) :=
  if bitAt a 55 then placedRun a n k
  else do
    let r ← sectorFor a n k true fill
    pure (r.2.1 / 256 ^ (a % 128) % 256 ^ n, poisonAt r.2.2 a n)

/-- A load of `n` bytes from `a`, over the sectors it touches (R154), and the first of them that reads as poison. -/
def loadBytes : Nat → Nat → Nat → Access → Bool → Act (Nat × Option Nat)
  | 0, _, _, _, _ => pure (0, none)
  | fuel + 1, a, n, k, fill =>
    if n = 0 then pure (0, none)
    else do
      let r := secRun a n
      let x ← loadRun a r k fill
      let y ← loadBytes fuel (addrAdd a r) (n - r) k fill
      pure (x.1 + 256 ^ r * y.1, x.2.or y.2)

/-- Load `n` bytes: the data of every sector are looked at after the checks of all of them (R153). -/
def load (a n : Nat) (fill : Bool) : Act Nat := do
  let x ← loadBytes (secFuel n) a n .load fill
  unpoisoned .load x

/-- Load two parts of one formatted access: the data of both are looked at after the checks of both (R153). -/
def loadTwo (a n b m : Nat) : Act (Nat × Nat) := do
  let x ← loadBytes (secFuel n) a n .load true
  let y ← loadBytes (secFuel m) b m .load true
  let u ← unpoisoned .load x
  let v ← unpoisoned .load y
  pure (u, v)

/-- The checks of a store within one sector, made before any byte is written (R153). -/
def storeCheckRun (a n : Nat) (k : Access) (fill : Bool) : Act Unit := fun s =>
  if bitAt a 55 then (do placedStoreCheck a k; bankTurn a n k : Act Unit) s
  else
    match sectorFor a n k false fill s with
    | .error e => .error e
    | .ok (_, s1) => .ok ((), s1)

/-- The checks of a store of `n` bytes. -/
def storeCheck : Nat → Nat → Nat → Access → Bool → Act Unit
  | 0, _, _, _, _ => pure ()
  | fuel + 1, a, n, k, fill =>
    if n = 0 then pure ()
    else do
      let r := secRun a n
      storeCheckRun a r k fill
      storeCheck fuel (addrAdd a r) (n - r) k fill

/-- The attributes with which a store to a sector was checked (R153): those that the L1 holds, or the home's answer. -/
def checkedAttr (s : State) (a : Nat) : Option Attr :=
  match l1Sec s.core a with
  | some o => some o.attr
  | none => (sectorResp s.me (a / 128) .store).map (·.2.1)

/-- Store the bytes of a sector that passed its checks in `s0`, and mark TTMASK (R152, R157). Every sector of the
bundle was checked there, so that one that has left the L1 since, for another sector of the bundle, is stored all the
same; a sector that was not checked is not stored to. -/
def storeRun (s0 s : State) (a n mask x : Nat) (fill : Bool) : State :=
  if bitAt a 55 then placedStore s a n mask x
  else
    match checkedAttr s0 a with
    | some at' => markTarget (writeSector s a n mask x fill at') a at'
    | none => s

/-- Store `n` bytes under a mask from `a`, over the sectors they touch, which were checked in `s0`. -/
def storeBytes : Nat → State → State → Nat → Nat → Nat → Nat → Bool → State
  | 0, _, s, _, _, _, _, _ => s
  | fuel + 1, s0, s, a, n, mask, x, fill =>
    if n = 0 then s
    else
      let r := secRun a n
      let s1 := if mask % 2 ^ r = 0 then s else storeRun s0 s a r (mask % 2 ^ r) (x % 256 ^ r) fill
      storeBytes fuel s0 s1 (addrAdd a r) (n - r) (mask / 2 ^ r) (x / 256 ^ r) fill

/-- Check and store `n` bytes (R152, R153). -/
def store (a n x : Nat) (fill : Bool) : Act Unit := do
  storeCheck (secFuel n) a n .store fill
  change fun s => storeBytes (secFuel n) s s a n (2 ^ n - 1) x fill

/-- ALIGN unless an address is a multiple of a width (R154). -/
def aligned (a w : Nat) (k : Access) : Act Unit :=
  if a % w = 0 then pure () else memTrap .align a k

/-- A structure of `n` bytes lies in the strand's own core TCM or own cluster scratchpad (R191, R245,
R269). -/
def ownPlace (s : State) (a n : Nat) : Bool :=
  bitAt a 55 && decide (placedPkg a = s.pkgOf s.cur.mod)
    && (if bits a 55 54 = 3 then decide (tcmCore s.cur.mod a = s.cur.coreKey ∧ a % 2 ^ 23 + n ≤ 2 ^ 16)
        else decide (spadClu s.cur.mod a = s.cur.cluKey ∧ a % 2 ^ 27 + n ≤ spadSize s.clu))

/-- Where a structure of `n` bytes lies is judged by the partition that a conversion under way leaves (R228): the strand
waits for it. -/
def ownSteady (a n : Nat) : Act Bool := fun s =>
  if bits a 55 54 = 2 ∧ s.clu.busy = true then .error (.park .mem false s) else .ok (ownPlace s a n, s)

/-- An instruction that reads a structure of `n` bytes from the strand's own core TCM or own cluster
scratchpad: its bytes, or `none` where it lies elsewhere. -/
def localStruct (a n : Nat) : Act (Option Nat) := do
  let here ← ownSteady a n
  if here then do
    let x ← placedLoad a n .load
    pure (some x)
  else pure none

end Sys2Proof.Machine
end

