-- ==== Sys2Proof/Machine/Operands.lean ====
section
/-! DEFINITION. The vector operands of instructions: v registers, with streams bound to v12-v15, masks and
elements (R82, R131, R132, R191, R192). -/

namespace Sys2Proof.Machine

open Sys2Proof

/-! ### Streams -/

/-- The number of element vectors of a stream (R191). -/
def SUnit.count (u : SUnit) : Nat := u.cnt.foldl (· * ·) 1

/-- The offset of element `j`, dimension 0 fastest (R191). -/
def streamOff : List Nat → List Int → Nat → Int
  | c :: cs, st :: ss, j => (j % c : Nat) * st + streamOff cs ss (j / c)
  | _, _, _ => 0

/-- The address of element vector `j` (R191). -/
def SUnit.addr (u : SUnit) (j : Nat) : Nat := addrAdd u.base (streamOff u.cnt u.str j)

/-- The unit of this strand that a v register is bound to. -/
def boundUnit (s : State) (r : VReg) : Option (Nat × SUnit) :=
  ((List.range 4).map fun i => (i, nth SUnit.free s.units i)).find? fun e =>
    decide (e.2.owner = some s.cur.slot ∧ e.2.bound = some r.val)

/-- A step is already due. -/
def isDue (s : State) (e : Event) : Bool := s.agenda.contains e

/-- A step becomes due unless it already is. -/
def spawnOnce (s : State) (e : Event) : State := if isDue s e then s else s.spawn e

/-- Read a v register (R192): a read-bound register takes the element at its unit's position, a write-bound
one reads 0. The A half reads the units as they stood when the bundle began, behind the elements that the C half took
(R69, log 53). -/
def rv (r : VReg) : Act Vec := fun s =>
  match boundUnit s r with
  | none => .ok (s.view.v[r], s)
  | some (i, u) =>
    if u.wr then .ok (0, s)
    else
      let pos := u.pos + s.issue.taken.count i
      if u.count ≤ pos then .error (.trap .streamEnd 0 i)
      else
        match ((u.fetched.find? fun e => decide (e.1 = pos)).map (·.2) : Option Elem) with
        | none => .error (.park .stream false (spawnOnce s (.streamElementFetch s.cur.coreKey i)))
        | some (.data x) =>
          .ok (BitVec.ofNat 256 x, { s with issue := { s.issue with taken := i :: s.issue.taken } })
        | some (.fault c a) => .error (.trap c a Access.load.code)
        | some (.absent a) => absent a .load s
        | some (.lost a t) =>
          if s.ticks < t + patience then .error (.park .stream false (spawnOnce s (.streamElementFetch s.cur.coreKey i)))
          else .error (.trap .dataError a Access.load.code)

/-- Read two source registers: a register that is named twice is read once (R132). -/
def rv2 (a b : VReg) : Act (Vec × Vec) := do
  let x ← rv a
  if a = b then pure (x, x)
  else
    let y ← rv b
    pure (x, y)

/-- Write a v register that no stream is bound to. -/
def putV (r : VReg) (v : Vec) (s : State) : State :=
  s.modMe fun x => setVused { x with v := x.v.set r v }

/-- The checks of a pushed element, as those of a VST (R153, R192). The element lies in one sector. -/
def pushCheck (a : Nat) : Act Unit :=
  if bitAt a 55 then do
    placedAt a .store
    storeTaken a .store
  else do
    let _ ← sectorAt a 32 .store false true

/-- The attributes of a pushed element that passed its checks. -/
def pushAttr (s : State) (a : Nat) : Attr := (checkedAttr s a).getD (attrFrame 0)

/-- Mark the sector of a pushed element in TTMASK (R157, R192). -/
def markPush (s : State) (w : Push) : State := if bitAt w.addr 55 then s else markTarget s w.addr w.attr

/-- Queue a push in unit `i`. Where the C half of the bundle has freed the unit, its store issues at once. -/
def queuePush (s : State) (i : Nat) (w : Push) : State :=
  let u := nth SUnit.free s.core.units i
  if u.owner = some s.cur.slot ∧ u.bound.isSome then
    (s.modUnit s.cur.coreKey i fun x => { x with pos := x.pos + 1, pushes := x.pushes ++ [w] }).spawn
      (.streamPush s.cur.coreKey i)
  else pushStore w (drainPushes s s.cur)

/-- Write a v register (R87, R192): SSTAT.VUSED is set in every case; a read-bound register discards the
value, a write-bound one pushes it. The A half sees the binding and the position of the bundle's start (R69, log 53). -/
def wv (r : VReg) (v : Vec) : Act Unit := fun s =>
  match boundUnit s r with
  | none => .ok ((), putV r v s)
  | some (i, u) =>
    if u.wr = false then .ok ((), s.modMe setVused)
    else if u.count ≤ u.pos then .error (.trap .streamEnd 0 i)
    else if 8 ≤ u.pushes.length then
      .error (.park .stream false (spawnOnce s (.streamPush s.cur.coreKey i)))
    else
      let a := u.addr u.pos
      match pushCheck a s with
      | .error e => .error e
      | .ok (_, s1) =>
        let w : Push := { seq := nextPush s1.core s1.cur.slot, addr := a, data := v.toNat, attr := pushAttr s1 a }
        .ok ((), (queuePush (markPush s1 w) i w).modMe setVused)

/-! ### Masks and elements -/

/-- Bit `i` of the mask that a mask field selects (R131): field 0 is all ones. -/
def maskBit (s : State) (k : KReg) (i : Nat) : Bool :=
  if k = 0 then true else bitAt (rk s k).toNat i

/-- Element `i` of a type is active (R131): for E2M1, bit `i` governs elements `2i` and `2i + 1`. -/
def activeElem (s : State) (k : KReg) (ty : EType) (i : Nat) : Bool :=
  maskBit s k (if ty = .e2m1 then i / 2 else i)

/-- The elements of a vector. -/
def elems (ty : EType) (x : Vec) : List Nat := lanes x.toNat ty.width ty.count

/-- A vector from its elements. -/
def packV (w : Nat) (l : List Nat) : Vec := BitVec.ofNat 256 (packLanes w l)

/-- The floating format of a floating element type. -/
def EType.float : EType → FloatCode
  | .f16 => .fp16 | .bf16 => .bf16 | .e4m3 => .e4m3 | .e5m2 => .e5m2 | .e2m1 => .e2m1
  | .f32 | .i8 | .i16 | .i32 | .u8 => .fp32

/-- The value of an integer element: `u8` unsigned, the others signed. -/
def intElem (ty : EType) (x : Nat) : Int :=
  match ty with
  | .u8 => (x : Int)
  | _ => signed ty.width x

/-- The exact value of an element. -/
def numElem (ty : EType) (x : Nat) : Num :=
  if ty.isInt then intNum (intElem ty x) else decodeNum (EType.float ty) x

/-- The range of an integer type (R25). -/
def typeRange (ty : EType) : Int × Int :=
  match ty with
  | .u8 => (0, 255)
  | _ => (-(2 ^ (ty.width - 1) : Nat), (2 ^ (ty.width - 1) : Nat) - 1)

/-- Clamp an integer into a range (R33). -/
def saturate (r : Int × Int) (v : Int) : Int := if v < r.1 then r.1 else if r.2 < v then r.2 else v

end Sys2Proof.Machine
end

