-- ==== Sys2Proof/Machine/Vector.lean ====
section
/-! DEFINITION. Scalar floating-point and vector instructions (R123-R141). -/

namespace Sys2Proof.Machine

open Sys2Proof

/-! ### Scalar floating point -/

/-- The value of a scalar operand in a format (R123). -/
def fval (s : State) (f : FloatCode) (r : GReg) : Num := decodeNum f ((rg s r).toNat % 2 ^ f.width)

/-- A scalar result with the flags of its computation and of its rounding (R123, R125). -/
def writeF (d : GReg) (f : FloatCode) (mode : Rounding) (r : Num × Nat) (s : State) :
    Host.Outcome State Fault Refusal :=
  let c := roundNum f mode r.1
  finish s (.done (setFlags (wg s d (word c.1)) (r.2 ||| c.2)))

/-- `a * b + d` (R125): the sum rule applies to the exact product. -/
def fmaNum (mode : Rounding) (a b d : Num) : Num × Nat :=
  let p := mulNum a b
  let r := addNum mode p.1 d
  (r.1, p.2 ||| r.2)

/-- The smaller of two codes by R126. -/
def minCode (f : FloatCode) (x y : Nat) : Nat :=
  let a := decodeNum f x
  let b := decodeNum f y
  if a.isNan && b.isNan then f.nanCode
  else if a.isNan then y
  else if b.isNan then x
  else if numLess b a then y else x

/-- The larger of two codes by R126. -/
def maxCodeOf (f : FloatCode) (x y : Nat) : Nat :=
  let a := decodeNum f x
  let b := decodeNum f y
  if a.isNan && b.isNan then f.nanCode
  else if a.isNan then y
  else if b.isNan then x
  else if numLess a b then y else x

/-- The low bits of a scalar operand. -/
def fbits (s : State) (f : FloatCode) (r : GReg) : Nat := (rg s r).toNat % 2 ^ f.width

/-- FADD (R125). -/
def execFadd (d a b : GReg) (rs : RoundSel) (ft : FloatFmt) (s : State) :
    Host.Outcome State Fault Refusal :=
  let f := ft.toCode
  let m := modeOf s rs
  writeF d f m (addNum m (fval s f a) (fval s f b)) s

/-- FSUB (R125). -/
def execFsub (d a b : GReg) (rs : RoundSel) (ft : FloatFmt) (s : State) :
    Host.Outcome State Fault Refusal :=
  let f := ft.toCode
  let m := modeOf s rs
  writeF d f m (addNum m (fval s f a) (fval s f b).neg) s

/-- FMUL (R125). -/
def execFmul (d a b : GReg) (rs : RoundSel) (ft : FloatFmt) (s : State) :
    Host.Outcome State Fault Refusal :=
  let f := ft.toCode
  writeF d f (modeOf s rs) (mulNum (fval s f a) (fval s f b)) s

/-- FMA (R125). -/
def execFma (d a b : GReg) (rs : RoundSel) (ft : FloatFmt) (s : State) :
    Host.Outcome State Fault Refusal :=
  let f := ft.toCode
  let m := modeOf s rs
  writeF d f m (fmaNum m (fval s f a) (fval s f b) (fval s f d)) s

/-- FDIV (R125). -/
def execFdiv (d a b : GReg) (rs : RoundSel) (ft : FloatFmt) (s : State) :
    Host.Outcome State Fault Refusal :=
  let f := ft.toCode
  writeF d f (modeOf s rs) (divNum (fval s f a) (fval s f b)) s

/-- FSQRT (R125). -/
def execFsqrt (d a : GReg) (rs : RoundSel) (ft : FloatFmt) (s : State) :
    Host.Outcome State Fault Refusal :=
  let f := ft.toCode
  writeF d f (modeOf s rs) (sqrtNum (fval s f a)) s

/-- FMIN (R126). -/
def execFmin (d a b : GReg) (ft : FloatFmt) (s : State) : Host.Outcome State Fault Refusal :=
  let f := ft.toCode
  finish s (.done (wg s d (word (minCode f (fbits s f a) (fbits s f b)))))

/-- FMAX (R126). -/
def execFmax (d a b : GReg) (ft : FloatFmt) (s : State) : Host.Outcome State Fault Refusal :=
  let f := ft.toCode
  finish s (.done (wg s d (word (maxCodeOf f (fbits s f a) (fbits s f b)))))

/-- The one-hot result of a comparison (R127). -/
def compareCode (x y : Num) : Nat :=
  match cmpNum x y with
  | none => 8
  | some .lt => 1
  | some .eq => 2
  | some .gt => 4

/-- FCMP (R127). -/
def execFcmp (d a b : GReg) (ft : FloatFmt) (s : State) : Host.Outcome State Fault Refusal :=
  let f := ft.toCode
  finish s (.done (wg s d (word (compareCode (fval s f a) (fval s f b)))))

/-- FCVT (R128). -/
def execFcvt (d a : GReg) (frm : Bool) (other : FloatCode) (rs : RoundSel) (ft : FloatFmt)
    (s : State) : Host.Outcome State Fault Refusal :=
  let src := if frm then other else ft.toCode
  let dst := if frm then ft.toCode else other
  let r := roundSt dst (modeOf s rs) (fval s src a) (seedOf s)
  finish s (.done (setSeed (setFlags (wg s d (word r.1)) r.2.1) r.2.2))

/-- The range of an integer type of FCVTI (R129). -/
def ityRange : IntTy → Int × Int
  | .i32 => (-2147483648, 2147483647)
  | .u32 => (0, 4294967295)
  | .i64 => (-9223372036854775808, 9223372036854775807)
  | .u64 => (0, 18446744073709551615)

/-- FCVTI (R129). -/
def execFcvti (d a : GReg) (ity : IntTy) (rs : RoundSel) (ft : FloatFmt) (s : State) :
    Host.Outcome State Fault Refusal :=
  let r := ityRange ity
  let v := toIntRange (modeOf s rs) r.1 r.2 (fval s ft.toCode a)
  finish s (.done (setFlags (wg s d (BitVec.ofInt 64 v.1)) v.2))

/-- The source of ICVTF (R129). -/
def intSource (ity : IntTy) (w : Word) : Int :=
  match ity with
  | .i32 => signed 32 w.toNat
  | .u32 => (w.toNat % 2 ^ 32 : Nat)
  | .i64 => w.toInt
  | .u64 => (w.toNat : Int)

/-- ICVTF (R129). -/
def execIcvtf (d a : GReg) (ity : IntTy) (rs : RoundSel) (ft : FloatFmt) (s : State) :
    Host.Outcome State Fault Refusal :=
  writeF d ft.toCode (modeOf s rs) (intNum (intSource ity (rg s a)), 0) s

/-! ### Element-wise vector operations -/

/-- The prior value of a destination, read only where elements of it are kept (R132). -/
def oldV (keep : Bool) (d : VReg) : Act Vec := if keep then rv d else pure 0

/-- The flags of a list of results. -/
def orAll (l : List (Nat × Nat)) : Nat := l.foldl (fun a e => a ||| e.2) 0

/-- Write the elements of a result, keeping inactive ones, and set the flags of active ones (R131). -/
def writeElems (d : VReg) (ty : EType) (k : KReg) (old : Vec) (f : Nat → Nat × Nat) : Act Unit := do
  let s ← here
  let rs := (List.range ty.count).map fun i =>
    if activeElem s k ty i then f i else (lane old.toNat ty.width i, 0)
  wv d (packV ty.width (rs.map (·.1)))
  change fun t => setFlags t (orAll rs)

/-- A two-source element-wise operation (R133). -/
def vecTwo (d a b : VReg) (k : KReg) (ty : EType) (f : Nat → Nat → Nat × Nat) : Act Unit := do
  let (x, y) ← rv2 a b
  let old ← oldV (k ≠ 0) d
  writeElems d ty k old fun i => f (lane x.toNat ty.width i) (lane y.toNat ty.width i)

/-- A one-source element-wise operation (R133). -/
def vecOne (d a : VReg) (k : KReg) (ty : EType) (f : Nat → Nat × Nat) : Act Unit := do
  let x ← rv a
  let old ← oldV (k ≠ 0) d
  writeElems d ty k old fun i => f (lane x.toNat ty.width i)

/-- An integer result modulo the element width, or saturated (R133). -/
def intResult (ty : EType) (sat : Bool) (v : Int) : Nat × Nat :=
  (wrap ty.width (if sat then saturate (typeRange ty) v else v), 0)

/-- A floating result rounded into the type (R133). -/
def floatResult (ty : EType) (rm : Rounding) (r : Num × Nat) : Nat × Nat :=
  let c := roundNum (EType.float ty) rm r.1
  (c.1, r.2 ||| c.2)

/-- VADD (R133). -/
def execVadd (d a b : VReg) (k : KReg) (ty : EType) (rm : Rounding) (sat : Bool) (s : State) :
    Host.Outcome State Fault Refusal :=
  finish s (Act.res (vecTwo d a b k ty fun x y =>
    if ty.isInt then intResult ty sat (intElem ty x + intElem ty y)
    else floatResult ty rm (addNum rm (numElem ty x) (numElem ty y))) s)

/-- VSUB (R133). -/
def execVsub (d a b : VReg) (k : KReg) (ty : EType) (rm : Rounding) (sat : Bool) (s : State) :
    Host.Outcome State Fault Refusal :=
  finish s (Act.res (vecTwo d a b k ty fun x y =>
    if ty.isInt then intResult ty sat (intElem ty x - intElem ty y)
    else floatResult ty rm (addNum rm (numElem ty x) (numElem ty y).neg)) s)

/-- VMUL (R133). -/
def execVmul (d a b : VReg) (k : KReg) (ty : EType) (rm : Rounding) (s : State) :
    Host.Outcome State Fault Refusal :=
  finish s (Act.res (vecTwo d a b k ty fun x y =>
    if ty.isInt then intResult ty false (intElem ty x * intElem ty y)
    else floatResult ty rm (mulNum (numElem ty x) (numElem ty y))) s)

/-- VFMA (R133): it reads its destination. -/
def execVfma (d a b : VReg) (k : KReg) (ty : EType) (rm : Rounding) (s : State) :
    Host.Outcome State Fault Refusal :=
  finish s (Act.res (do
    let (x, y) ← rv2 a b
    let old ← rv d
    writeElems d ty k old fun i =>
      let p := lane x.toNat ty.width i
      let q := lane y.toNat ty.width i
      let r := lane old.toNat ty.width i
      if ty.isInt then intResult ty false (intElem ty p * intElem ty q + intElem ty r)
      else floatResult ty rm (fmaNum rm (numElem ty p) (numElem ty q) (numElem ty r))) s)

/-- The larger of two elements (R133). -/
def maxElem (ty : EType) (x y : Nat) : Nat :=
  if ty.isInt then (if intElem ty x < intElem ty y then y else x) else maxCodeOf (EType.float ty) x y

/-- The smaller of two elements (R133). -/
def minElem (ty : EType) (x y : Nat) : Nat :=
  if ty.isInt then (if intElem ty y < intElem ty x then y else x) else minCode (EType.float ty) x y

/-- VMAX (R133). -/
def execVmax (d a b : VReg) (k : KReg) (ty : EType) (s : State) : Host.Outcome State Fault Refusal :=
  finish s (Act.res (vecTwo d a b k ty fun x y => (maxElem ty x y, 0)) s)

/-- VMIN (R133). -/
def execVmin (d a b : VReg) (k : KReg) (ty : EType) (s : State) : Host.Outcome State Fault Refusal :=
  finish s (Act.res (vecTwo d a b k ty fun x y => (minElem ty x y, 0)) s)

/-- VAND (R133). -/
def execVand (d a b : VReg) (k : KReg) (ty : EType) (s : State) : Host.Outcome State Fault Refusal :=
  finish s (Act.res (vecTwo d a b k ty fun x y => (x &&& y, 0)) s)

/-- VOR (R133). -/
def execVor (d a b : VReg) (k : KReg) (ty : EType) (s : State) : Host.Outcome State Fault Refusal :=
  finish s (Act.res (vecTwo d a b k ty fun x y => (x ||| y, 0)) s)

/-- VXOR (R133). -/
def execVxor (d a b : VReg) (k : KReg) (ty : EType) (s : State) : Host.Outcome State Fault Refusal :=
  finish s (Act.res (vecTwo d a b k ty fun x y => (x ^^^ y, 0)) s)

/-- VSHL (R133). -/
def execVshl (d a b : VReg) (k : KReg) (ty : EType) (s : State) : Host.Outcome State Fault Refusal :=
  finish s (Act.res (vecTwo d a b k ty fun x y =>
    (x * 2 ^ (y % ty.width) % 2 ^ ty.width, 0)) s)

/-- VSHR (R133): arithmetic for the signed types unless LOG. -/
def execVshr (d a b : VReg) (k : KReg) (ty : EType) (log : Bool) (s : State) :
    Host.Outcome State Fault Refusal :=
  finish s (Act.res (vecTwo d a b k ty fun x y =>
    let n := y % ty.width
    if log then (x / 2 ^ n, 0) else (wrap ty.width (intElem ty x / (2 ^ n : Nat)), 0)) s)

/-! ### Compare, select, convert -/

/-- A condition on the order of two elements (R134). -/
def condHolds (c : VCond) (o : Option Ordering) : Bool :=
  match c, o with
  | .ne, none => true
  | .un, none => true
  | _, none => false
  | .eq, some o => o == .eq
  | .ne, some o => o != .eq
  | .lt, some o => o == .lt
  | .le, some o => o != .gt
  | .gt, some o => o == .gt
  | .ge, some o => o != .lt
  | .un, some _ => false

/-- VCMP (R134). -/
def execVcmp (c : KReg) (a b : VReg) (k : KReg) (ty : EType) (cond : VCond) (s : State) :
    Host.Outcome State Fault Refusal :=
  finish s (Act.res (do
    let (x, y) ← rv2 a b
    let t ← here
    let m := (List.range ty.count).foldl (fun acc i =>
      if activeElem t k ty i
          && condHolds cond (cmpNum (numElem ty (lane x.toNat ty.width i)) (numElem ty (lane y.toNat ty.width i)))
      then acc + 2 ^ i else acc) 0
    change fun u => wk u c (BitVec.ofNat 32 m)) s)

/-- VSEL (R134). -/
def execVsel (d a b : VReg) (k : KReg) (ty : EType) (s : State) : Host.Outcome State Fault Refusal :=
  finish s (Act.res (do
    let (x, y) ← rv2 a b
    let t ← here
    wv d (packV ty.width ((List.range ty.count).map fun i =>
      if activeElem t k ty i then lane x.toNat ty.width i else lane y.toNat ty.width i))) s)

/-- One element converted between two types (R135): bits, flags and generator. -/
def convertElem (src dst : EType) (rm : Rounding) (x : Nat) (seed : BitVec 32) : Nat × Nat × BitVec 32 :=
  if dst.isInt then
    (if src.isInt then (wrap dst.width (saturate (typeRange dst) (intElem src x)), 0, seed)
     else
       let r := toIntRange rm (typeRange dst).1 (typeRange dst).2 (numElem src x)
       (wrap dst.width r.1, r.2, seed))
  else roundSt (EType.float dst) rm (numElem src x) seed

/-- The conversions of VCVT in ascending order: `n` of them, from index `j` (R135). -/
def convertAll (src dst : EType) (rm : Rounding) (act : Nat → Bool) (x soff doff : Nat) :
    Nat → Nat → Nat → Nat → BitVec 32 → Nat × Nat × BitVec 32
  | 0, _, acc, fl, seed => (acc, fl, seed)
  | n + 1, j, acc, fl, seed =>
    if act j then
      let r := convertElem src dst rm (lane x src.width (soff + j)) seed
      convertAll src dst rm act x soff doff n (j + 1) (setLane acc dst.width (doff + j) r.1)
        (fl ||| r.2.1) r.2.2
    else convertAll src dst rm act x soff doff n (j + 1) acc fl seed

/-- VCVT (R135). -/
def execVcvt (d a : VReg) (dty : EType) (k : KReg) (ty : EType) (rm : Rounding) (part : BitVec 3)
    (s : State) : Host.Outcome State Fault Refusal :=
  finish s (Act.res (do
    let cs := ty.count
    let cd := dty.count
    let n := Nat.min cs cd
    let x ← rv a
    let old ← oldV (k ≠ 0 || decide (cs < cd)) d
    let t ← here
    let act (j : Nat) : Bool := maskBit t k (if n = 64 then j / 2 else j)
    let r := convertAll ty dty rm act x.toNat (if cd < cs then part.toNat * n else 0)
      (if cs < cd then part.toNat * n else 0) n 0 old.toNat 0 (seedOf t)
    wv d (BitVec.ofNat 256 r.1)
    change fun u => setSeed (setFlags u r.2.1) r.2.2) s)

/-! ### Reductions, dot product, top-k, permute -/

/-- The exact values of a vector's elements; an inactive one is an exact zero (R136). -/
def activeNums (s : State) (k : KReg) (ty : EType) (x : Vec) : List Num :=
  (List.range ty.count).map fun i =>
    if activeElem s k ty i then numElem ty (lane x.toNat ty.width i) else .fin false 0 0

/-- The sum of the active integer elements. -/
def activeSum (s : State) (k : KReg) (ty : EType) (f : Nat → Int) : Int :=
  (List.range ty.count).foldl (fun acc i => if activeElem s k ty i then acc + f i else acc) 0

/-- VREDSUM (R136). -/
def execVredsum (d a b : VReg) (k : KReg) (ty : EType) (acc : FloatFmt) (s : State) :
    Host.Outcome State Fault Refusal :=
  finish s (Act.res (do
    let (x, y) ← rv2 a b
    let t ← here
    if ty.isInt then
      let sum := activeSum t k ty fun i => intElem ty (lane x.toNat ty.width i)
      wv d (BitVec.ofNat 256 (wrap 32 (signed 32 y.toNat + sum)))
    else
      let f := acc.toCode
      let r := quadsum f (y.toNat % 2 ^ f.width) (activeNums t k ty x)
      wv d (BitVec.ofNat 256 r.1)
      change fun u => setFlags u r.2) s)

/-- The lowest value of a type (R136). -/
def lowestElem (ty : EType) : Nat :=
  if ty.isInt then wrap ty.width (typeRange ty).1
  else 2 ^ ((EType.float ty).width - 1) + (EType.float ty).infCode

/-- VREDMAX (R136). -/
def execVredmax (d a : VReg) (k : KReg) (ty : EType) (s : State) : Host.Outcome State Fault Refusal :=
  finish s (Act.res (do
    let x ← rv a
    let t ← here
    let live := ((List.range ty.count).filter fun i => activeElem t k ty i).map fun i =>
      lane x.toNat ty.width i
    let canon (e : Nat) : Nat :=
      if !ty.isInt && (numElem ty e).isNan then (EType.float ty).nanCode else e
    let m := match live with
      | [] => lowestElem ty
      | e :: es => canon (es.foldl (maxElem ty) e)
    wv d (BitVec.ofNat 256 m)) s)

/-- The exact products of VDOT, and NV where one is 0 · ∞ (R37, R137). -/
def dotTerms (s : State) (k : KReg) (ty : EType) (x y : Vec) : List (Num × Nat) :=
  (List.range ty.count).map fun i =>
    if activeElem s k ty i then
      mulNum (numElem ty (lane x.toNat ty.width i)) (numElem ty (lane y.toNat ty.width i))
    else (.fin false 0 0, 0)

/-- VDOT (R137): element 0 of its destination accumulates. -/
def execVdot (d a b : VReg) (k : KReg) (ty : EType) (acc : FloatFmt) (s : State) :
    Host.Outcome State Fault Refusal :=
  finish s (Act.res (do
    let (x, y) ← rv2 a b
    let old ← rv d
    let t ← here
    if ty.isInt then
      let sum := activeSum t k ty fun i =>
        intElem ty (lane x.toNat ty.width i) * intElem ty (lane y.toNat ty.width i)
      wv d (BitVec.ofNat 256 (setLane old.toNat 32 0 (wrap 32 (signed 32 old.toNat + sum))))
    else
      let f := acc.toCode
      let ts := dotTerms t k ty x y
      let r := quadsum f (old.toNat % 2 ^ f.width) (ts.map (·.1))
      wv d (BitVec.ofNat 256 (setLane old.toNat f.width 0 r.1))
      change fun u => setFlags u (r.2 ||| ts.foldl (fun m e => m ||| e.2) 0)) s)

/-- The rank value of an element (R138): NaN ranks as −∞. -/
def rankNum (ty : EType) (x : Nat) : Num :=
  let v := numElem ty x
  if v.isNan then .inf true else v

/-- Insert an index into a ranking, largest first, lower index first among equals (R138). -/
def rankInsert (e : Nat × Num) : List (Nat × Num) → List (Nat × Num)
  | [] => [e]
  | x :: xs =>
    match cmpNum x.2 e.2 with
    | some .lt => e :: x :: xs
    | _ => x :: rankInsert e xs

/-- VTOPK (R138). -/
def execVtopk (d a : VReg) (b : BitVec 4) (k : KReg) (ty : EType) (s : State) :
    Host.Outcome State Fault Refusal :=
  finish s (Act.res (do
    let x ← rv a
    let t ← here
    let live := (List.range ty.count).filter fun i => activeElem t k ty i
    let elem (i : Nat) : Nat := lane x.toNat ty.width i
    let ranked := live.foldl (fun l i => rankInsert (i, rankNum ty (elem i)) l) []
    let nan := live.any fun i => (numElem ty (elem i)).isNan
    let out := (List.range 32).map fun j =>
      if j < b.toNat + 1 then ((ranked.map (·.1))[j]?).getD 0xFF else 0xFF
    wv d (packV 8 out)
    change fun u => setFlags u (if nan then flNV else 0)) s)

/-- VPERM (R139). -/
def execVperm (d a b : VReg) (k : KReg) (ty : EType) (z : Bool) (s : State) :
    Host.Outcome State Fault Refusal :=
  finish s (Act.res (do
    let (x, y) ← rv2 a b
    let old ← oldV (k ≠ 0) d
    writeElems d ty k old fun i =>
      let j := lane y.toNat ty.width i
      if z && decide (ty.count ≤ j) then (0, 0) else (lane x.toNat ty.width (j % ty.count), 0)) s)

/-- VEXP (R133, R39). -/
def execVexp (d a : VReg) (k : KReg) (s : State) : Host.Outcome State Fault Refusal :=
  finish s (Act.res (vecOne d a k .f32 expFp32) s)

/-- VRCP (R133). -/
def execVrcp (d a : VReg) (k : KReg) (ty : EType) (rm : Rounding) (s : State) :
    Host.Outcome State Fault Refusal :=
  finish s (Act.res (vecOne d a k ty fun x =>
    floatResult ty rm (divNum (.fin false 1 0) (numElem ty x))) s)

/-! ### Moves between vector and general registers -/

/-- VSPLAT (R140). -/
def execVsplat (d : VReg) (a : GReg) (wid : Width) (s : State) : Host.Outcome State Fault Refusal :=
  let w := 8 * wid.bytes
  finish s (Act.res (wv d (packV w (List.replicate (256 / w) (rg s a).toNat))) s)

/-- VMOVG (R140). -/
def execVmovg (d : GReg) (a : VReg) (b : GReg) (wid : Width) (sg : Bool) (s : State) :
    Host.Outcome State Fault Refusal :=
  let w := 8 * wid.bytes
  finish s (Act.res (do
    let x ← rv a
    let e := lane x.toNat w ((rg s b).toNat % (256 / w))
    change fun t => wg t d (if sg then BitVec.ofInt 64 (signed w e) else word e)) s)

/-- VMOVV (R140): the other elements keep their values. -/
def execVmovv (d : VReg) (a b : GReg) (wid : Width) (s : State) : Host.Outcome State Fault Refusal :=
  let w := 8 * wid.bytes
  finish s (Act.res (do
    let x ← rv d
    wv d (BitVec.ofNat 256 (setLane x.toNat w ((rg s b).toNat % (256 / w)) (rg s a).toNat))) s)

end Sys2Proof.Machine
end

