-- ==== Sys2Proof/Machine/Amo.lean ====
section
/-! DEFINITION. What an atomic makes of the old value (R167). -/

namespace Sys2Proof.Machine

open Sys2Proof

/-- The FP32 sum of R167: rounded in RNE, a NaN result canonical. -/
def fp32Add (x y : Nat) : Nat :=
  (roundNum .fp32 .rne (addNum .rne (decodeNum .fp32 x) (decodeNum .fp32 y)).1).1

/-- The FP32 product, rounded in RNE, and its flags. -/
def fp32Mul (x y : Nat) : Nat × Nat :=
  let p := mulNum (decodeNum .fp32 x) (decodeNum .fp32 y)
  let r := roundNum .fp32 .rne p.1
  (r.1, r.2 ||| p.2)

/-- The larger of two FP32 codes by R126, a NaN result canonical. -/
def fp32Max (x y : Nat) : Nat :=
  let m := maxCodeOf .fp32 x y
  if (decodeNum .fp32 m).isNan then FloatCode.fp32.nanCode else m

/-- The new value of an atomic on `w` bytes, or none where AMOCAS does not write (R167). -/
def amoNew (op : AmoOp) (w old v exp : Nat) : Option Nat :=
  let n := 8 * w
  let m := 2 ^ n
  match op with
  | .add => some ((old + v) % m)
  | .and => some (old &&& v)
  | .or => some (old ||| v)
  | .xor => some (old ^^^ v)
  | .min => some (if signed n v < signed n old then v else old)
  | .max => some (if signed n old < signed n v then v else old)
  | .minu => some (Nat.min old v)
  | .maxu => some (Nat.max old v)
  | .swp => some v
  | .cas => if old = exp then some v else none
  | .fadd => some (fp32Add old v)
  | .fmax => some (fp32Max old v)

end Sys2Proof.Machine
end

