-- ==== Sys2Proof/Machine/Waits.lean ====
section
/-! DEFINITION. Waiting on words and events, and barriers (R229-R232, R256-R258). -/

namespace Sys2Proof.Machine

open Sys2Proof

/-- The placed address of offset `off` of a cluster's scratchpad window (R57, R243). -/
def spadAddr (s : State) (k off : Nat) : Nat :=
  2 * 2 ^ 54 + s.pkgOf (dieMod (cluDie k)) * 2 ^ 42 + cluDie k % 64 * 2 ^ 36 + k % 512 * 2 ^ 27 + off

/-- A written scope of SEV, BARARR and BARWT (R338): 0 means none. -/
def optScope (sc : Scope) : Act Scope := fun s =>
  match sc with
  | .none => .ok (.none, s)
  | _ => clamp sc s

/-- WAITW's address (R229, R243): a placed window that holds memory, or the ring head word. -/
def waitPlace (a w : Nat) : Bool :=
  bitAt a 55 && (decide (bits a 55 54 = 3) || decide (a % 2 ^ 27 < 0x4000000)
    || decide (a % 2 ^ 27 = 0x4030400 ∧ w = 4))

/-- An address that a wait or a barrier may not name: that of another core or cluster follows R151, any other raises
PROT (R229, R256). -/
def noPlace {α : Type} (a : Nat) (k : Access) : Act α := do
  if bitAt a 55 then placedCheck a k
  memTrap .prot a k

/-- Park with a monitor on `w` bytes at `a` (R229). -/
def parkMonitor {α : Type} (r : ParkReason) (a w : Nat) : Act α := fun s =>
  .error (.park r false (s.modMe fun x => { x with asked := [monitorKey a w] }))

/-- WAITW (R229). -/
def execWaitw (d a b : GReg) (wid : Width) (s : State) : Host.Outcome State Fault Refusal :=
  let w := wid.bytes
  let x := addrOf (rg s a)
  finish s (Act.res (do
    aligned x w .load
    if waitPlace x w = false then noPlace x .load
    else
      let v ← placedLoad x w .load
      if v ≠ (rg s b).toNat % 256 ^ w then change fun t => wg t d (word v)
      else parkMonitor .waitw x w) s)

/-- WAITW_MONITOR_FIRE (R229): the monitor ends and the parked strand compares again. -/
def execWaitwMonitorFire (p : Place) (s : State) : Host.Outcome State Fault Refusal :=
  .next (s.modStrand p fun x =>
    if x.parkedOn .waitw || x.parkedOn .barrier then { x with st := .ready, asked := [] } else x)

/-- WFE (R231). -/
def execWfe (s : State) : Host.Outcome State Fault Refusal :=
  finish s (if s.me.latch then .done (s.modMe fun x => { x with latch := false })
            else .park .wfe false s)

/-- Set the event latch of a strand, and wake it from WFE (R230, R231). -/
def setLatch (x : Strand) : Strand := { x with latch := true }.wakeIf [.wfe]

/-- A strand that an event reaches (R232): live, of the tenant, not in Handover. -/
def reaches (x : Strand) (tenant : Nat) : Bool :=
  x.live && decide (x.st ≠ .handover) && decide (x.tenant = tenant)

/-- An event reaches a core (R232): it sets latches, or is dropped; one that no slot could take is counted, one to a
strand of the tenant in Handover is not. -/
def deliverEvent (core slot : Nat) (all : Bool) (tenant : Nat) (s : State) : State :=
  let slots := if all then List.range 16 else [slot]
  let hit := slots.filter fun i => reaches (s.strand (placeOf core i)) tenant
  let x := s.strand (placeOf core slot)
  if hit.isEmpty then
    (if x.st = .handover ∧ x.tenant = tenant ∧ all = false then s else s.count (cluDie (coreClu core)) 5)
  else hit.foldl (fun u i => u.modStrand (placeOf core i) setLatch) s

/-- SEV (R232): an event to another core travels. -/
def execSev (a : GReg) (sc : Scope) (all : Bool) (s : State) : Host.Outcome State Fault Refusal :=
  let t := (rg s a).toNat
  finish s (Act.res (do
    let S ← optScope sc
    match s.modWith (bits t 34 23) with
    | none => memTrap .prot 0 .store
    | some m =>
      if bits t 16 8 < 400 ∧ (s.modOf m).diesUp.contains (bits t 22 17) then do
        release S
        noteClamp sc
        let core := coreKey m (bits t 22 17) (bits t 16 8) (bits t 7 4)
        change fun u =>
          if core = u.cur.coreKey then deliverEvent core (bits t 3 0) all u.tenant u
          else (u.note (.event u.cur m core (bits t 3 0) all u.tenant (u.ticks + flight (placeNode u.cur) (nodeOf (coreClu core))))).spawn (.sevEvent u.cur)
      else memTrap .prot 0 .store) s)

/-- The first note of a kind that a test accepts, and the notes without it. -/
def takeNote {α : Type} (f : Note → Option α) : List Note → Option (α × List Note)
  | [] => none
  | n :: ns =>
    match f n with
    | some x => some (x, ns)
    | none =>
      match takeNote f ns with
      | none => none
      | some (x, rest) => some (x, n :: rest)

/-- An event of a sender, if its way is over (R389). -/
def eventOf (src : Place) (now : Nat) (n : Note) : Option (Nat × Nat × Bool × Nat) :=
  match n with
  | .event q _ core slot all tenant due => if q = src ∧ due ≤ now then some (core, slot, all, tenant) else none
  | _ => none

/-- SEV_EVENT (R232): the oldest event of a sender whose way is over arrives. -/
def execSevEvent (src : Place) (s : State) : Host.Outcome State Fault Refusal :=
  match takeNote (eventOf src s.ticks) s.notes with
  | none =>
    let coming (n : Note) : Bool :=
      match n with
      | .event q _ _ _ _ _ _ => decide (q = src)
      | _ => false
    .next (if s.notes.any coming then s.again (.sevEvent src) else s)
  | some ((core, slot, all, tenant), rest) => .next (deliverEvent core slot all tenant { s with notes := rest })

/-! ### Barriers -/

/-- Fields of a barrier (R256). -/
def barExpected (x : Nat) : Nat := bits x 15 0
def barRemaining (x : Nat) : Nat := bits x 31 16
def barPending (x : Nat) : Nat := bits x 67 32
def barPhase (x : Nat) : Nat := bits x 68 68

/-- The step that leaves both REMAINING and PENDING at 0 completes the barrier (R256). -/
def barSettle (x : Nat) : Nat :=
  if barRemaining x = 0 ∧ barPending x = 0 then
    putBits (putBits x 68 68 (1 - barPhase x)) 31 16 (barExpected x)
  else x

/-- One arrival (R258). -/
def barArrive (x : Nat) : Nat := barSettle (putBits x 31 16 (barRemaining x - 1))

/-- Bytes are added (R258). -/
def barAdd (x n : Nat) : Nat := putBits x 67 32 (barPending x + n)

/-- Bytes land (R257). -/
def barLand (x n : Nat) : Nat := barSettle (putBits x 67 32 (barPending x - n))

/-- A barrier address outside the placed windows raises PROT (R256). -/
def barPlace (a : Nat) (k : Access) : Act Unit :=
  if bitAt a 55 && (decide (bits a 55 54 = 3) || decide (a % 2 ^ 27 < 0x4000000)) then pure ()
  else noPlace a k

/-- Read a barrier as an update of it does. -/
def barRead (a : Nat) (k : Access) : Act Nat := do
  aligned a 16 k
  barPlace a k
  placedLoad a 16 k

/-- Write a barrier of the strand's own core or cluster. -/
def barWrite (a x : Nat) : Act Unit := change fun s => placedStore s a 16 (2 ^ 16 - 1) x

/-- BARARR (R258). -/
def execBararr (d a : GReg) (sc : Scope) (s : State) : Host.Outcome State Fault Refusal :=
  let x := addrOf (rg s a)
  finish s (Act.res (do
    let S ← optScope sc
    let v ← barRead x .atomic
    if barRemaining v = 0 then raise .barrierOverflow x 0
    else do
      release S
      barWrite x (barArrive v)
      noteClamp sc
      change fun t => wg t d (word (barPhase v))) s)

/-- BARWT (R258). -/
def execBarwt (a b : GReg) (sc : Scope) (s : State) : Host.Outcome State Fault Refusal :=
  let x := addrOf (rg s a)
  finish s (Act.res (do
    let S ← optScope sc
    let v ← barRead x .load
    if barPhase v = (rg s b).toNat % 2 then parkMonitor .barrier x 16
    else do
      acquire S
      noteClamp sc) s)

/-- BARXB (R258). -/
def execBarxb (a b : GReg) (s : State) : Host.Outcome State Fault Refusal :=
  let x := addrOf (rg s a)
  finish s (Act.res (do
    let v ← barRead x .atomic
    if 2 ^ 36 - 1 < barPending v + (rg s b).toNat then raise .barrierOverflow x 0
    else barWrite x (barAdd v (rg s b).toNat)) s)

end Sys2Proof.Machine
end

