-- ==== Sys2Proof/Machine/Engines.lean ====
section
/-! DEFINITION. The contract that the BTE and the IXE share: identifiers, queues, posts to the fault queue, the
completion ring, completion words and BTPOLL (R244-R249, R265). -/

namespace Sys2Proof.Machine

open Sys2Proof

/-! ### Identifiers and states (R246, R249) -/

/-- The identifier of an engine's next operation: bit 31 names the engine. -/
def nextId {α : Type} (e : Engine α) (ixe : Bool) : Nat := b2n ixe * 2 ^ 31 + e.seq % 2 ^ 31

/-- Record the state of an identifier, where the table still holds it (R249). -/
def setState {α : Type} (e : Engine α) (id : Nat) (x : XferState) : Engine α :=
  { e with table := e.table.map fun y => if y.1 = id then (id, x) else y }

/-- Commit an operation at the tail of the queue (R246): the table holds the 256 most recent identifiers. -/
def commitOp {α : Type} (e : Engine α) (ixe : Bool) (o : α) : Engine α :=
  let id := nextId e ixe
  { e with seq := e.seq + 1, queue := e.queue ++ [o],
           table := ((id, { st := 0, fault := 0, done := 0 }) :: e.table).take 256 }

/-- An engine's queue is full (R246). -/
def queueFull {α : Type} (e : Engine α) : Bool := decide (32 ≤ e.queue.length)

/-- What BTPOLL reads for an identifier number (R249): FAULT, DONE and STATE. -/
def pollWord {α : Type} (e : Engine α) (id : Nat) : Nat :=
  let n := id % 2 ^ 31
  if e.seq < 2 ^ 31 ∧ e.seq ≤ n then 5
  else if 256 ≤ (e.seq - 1 + 2 ^ 31 - n) % 2 ^ 31 then 4
  else
    let x := fget (XferState.mk 4 0 0) e.table id
    x.fault * 2 ^ 40 + x.done % 2 ^ 36 * 2 ^ 4 + x.st

/-- BTPOLL (R249). -/
def execBtpoll (d a : GReg) (wait : Bool) (s : State) : Host.Outcome State Fault Refusal :=
  let id := (rg s a).toNat % 2 ^ 32
  let w := if bitAt id 31 then pollWord s.clu.ixe id else pollWord s.clu.bte id
  finish s (if wait ∧ w % 16 ≤ 1 then .park .engine false s else .done (wg s d (word w)))

/-- The strands of a cluster that wait on an engine look again. -/
def pokeEngine (s : State) (clu : Nat) : State := s.wakeClu clu [.engine]

/-! ### Faults and completion (R247, R248) -/

/-- Post an engine's fault code with its identifier (R247, R317): SOURCE 1 is the BTE, 2 the IXE, 3 the KLE. -/
def postCode (s : State) (who : Place) (vf code addr source access id : Nat) : State :=
  postFault s who.mod who.dieKey
    { vf := vf, addr := addr, token := 0, kind := kindOfCode code, source := source, access := access,
      place := s.strandId who, id := id }

/-- What the failed access of an engine leaves in the log and the counters of its die (R265, R320, R321). -/
def logFail (s : State) (dk vf : Nat) (f : Fail) (addr : Nat) : State :=
  match f with
  | .prot | .unpopulated => s.logErr dk vf 7 addr
  | .malformed => (s.logErr dk vf 8 addr).logErr dk vf 7 addr
  | .portDown => (s.logErr dk vf 11 0).logErr dk vf 7 addr
  | .poison => ((s.logErr dk vf 6 addr).count dk 2).count dk 10
  | .absent | .absentAt _ | .unanswered | .lost _ _ | .writeProtect | .denied => s

/-- An engine's access to a part that is absent at another package's owner is posted there too (R418). -/
def engineOwner (s : State) (who : Place) (vf : Nat) (f : Fail) (addr source access id : Nat) : State :=
  postOwner s f { vf := vf, addr := addr, token := 0, kind := 1, source := source, access := access,
                  place := s.strandId who, id := id }

/-- Post the failed access of an engine (R247, R317, R418), and log it. -/
def enginePost (s : State) (who : Place) (vf : Nat) (f : Fail) (addr source access id : Nat) : State :=
  postCode (logFail (engineOwner s who vf f addr source access id) who.dieKey vf f addr) who vf f.code addr source access id

/-- An operation that has lost a frame waits until its patience is over (R399): the access that failed, if it has not yet
given it up. -/
def goneLost (l : Option Lost) : Option Lost := l.filter (·.gone)

/-- The completion word of an operation has no answer yet (R399): the operation waits with it. -/
def wordHeld (s : State) (who : Place) (tenant part : Nat) (priv : Bool) (addr : Nat) (lost : Option Lost) : Option Fail :=
  match sysWrite (secFuel 8) s who.mod tenant part priv addr 8 0 with
  | .error (f, _) => if keepsWaiting s.ticks patience lost f addr 0 then some f else none
  | .ok _ => none

/-- A completion word that cannot be written is posted and counted (R247). -/
def completionWord (s : State) (who : Place) (tenant part : Nat) (priv : Bool) (addr v source id : Nat) :
    State :=
  match sysWrite (secFuel 8) s who.mod tenant part priv addr 8 v with
  | .ok s1 => s1
  | .error (f, _) =>
    let s1 := (enginePost s who tenant f addr source 1 id).count who.dieKey 10
    if f.pending then s1.count who.dieKey 14 else s1

/-- The ring of a cluster is full (R248). -/
def ringFull (c : Cluster) : Bool := decide ((c.chead + 2 ^ 32 - c.ctail % 2 ^ 32) % 2 ^ 32 = 64)

/-- Write a record and advance HEAD; the ring head word may be monitored (R229, R243, R248). -/
def writeRecord (s : State) (clu rec1 : Nat) : State :=
  let h := (s.cluOf clu).chead
  let s1 := s.modClu clu fun c =>
    { c with cring := fset c.cring (h % 64) rec1, chead := (h + 1) % 2 ^ 32,
             ringPoison := clearWords c.ringPoison (h % 64 * 16) 16 }
  fireMonitors s1 clu (spadAddr s1 clu 0x4030400) 4

/-- A completion record (R247). -/
def recordOf (id status fault flags : Nat) (who : Place) (done : Nat) : Nat :=
  id + status * 2 ^ 32 + fault * 2 ^ 40 + flags * 2 ^ 48 + (who.slot + who.core * 16) * 2 ^ 56
    + done % 2 ^ 64 * 2 ^ 64

/-- Bits 3:0 of the flags byte: NX UF OF NV from bit 3 down (R247). -/
def recordFlags (fl : Nat) : Nat :=
  fl % 2 * 8 + fl / 2 % 2 * 4 + fl / 4 % 2 * 2 + fl / 16 % 2

/-! ### Places that an engine may name -/

/-- `n` bytes in the scratchpad of a cluster, or in a TCM of one of its cores (R255, R256, R259). -/
def inCluster (s : State) (clu a n : Nat) : Bool :=
  let m := dieMod (cluDie clu)
  bitAt a 55 && decide (placedPkg a = s.pkgOf m)
    && (if bits a 55 54 = 3 then decide (coreClu (tcmCore m a) = clu ∧ a % 2 ^ 23 + n ≤ 2 ^ 16)
        else decide (spadClu m a = clu ∧ a % 2 ^ 27 + n ≤ spadSize (s.cluOf clu)))

/-- Read a barrier as an engine does. -/
def engineBar (s : State) (who : Place) (tenant part : Nat) (priv : Bool) (bar : Nat) : Except (Fail × Nat) Nat :=
  match placedRead s who.mod tenant bar 16 part priv with
  | .ok (x, _) => .ok x
  | .error e => .error e

/-- Update a barrier with a function, as one step at its bank (R256). -/
def updateBar (s : State) (who : Place) (tenant part : Nat) (priv : Bool) (bar : Nat) (f : Nat → Nat) : State :=
  match engineBar s who tenant part priv bar with
  | .error _ => s
  | .ok x =>
    match placedWrite s who.mod tenant bar 16 (f x) part priv with
    | .ok s1 => s1
    | .error _ => s

/-- `n` bytes at `b` overlap the `len` bytes from `a`. -/
def overlaps (a len b n : Nat) : Bool :=
  decide (0 < len) && (decide ((b + addrSpace - a) % addrSpace < len) || decide ((a + addrSpace - b) % addrSpace < n))

/-- A run of bytes, as address and length, that meets the scratchpad window of a cluster (R228). -/
def namesSpad (s : State) (clu : Nat) (r : Nat × Nat) : Bool :=
  overlaps (spadAddr s clu 0) (2 ^ 27) (r.1 % addrSpace) r.2 && decide (0 < r.2)

/-- New engine launches of a cluster wait while SPART converts ways, and so does a launch of another cluster that names
its scratchpad window (R228). -/
def notBusy (named : List (Nat × Nat)) : Act Unit := fun s =>
  if s.clu.busy || s.clusters.any (fun e => e.2.busy && named.any (namesSpad s e.1)) then .error (.park .mem false s)
  else .ok ((), s)

/-- A launch waits while SPART converts ways of its cluster, before anything of it is judged (R228). -/
def steady : Act Unit := notBusy []

/-- The launch scope of an engine: 0 is `clu`, narrowed without a clamp; CORE is taken as CLUSTER (R326,
R338). -/
def launchScope (sc : Scope) : Act Scope := do
  let x ← scopeOr sc .clu
  pure (engineScope x)

/-- A completion scope that a descriptor or FLAGS carries (R338). -/
def carriedScope (code : Nat) : Act Scope := launchScope (Scope.ofCode code)

/-- Count the clamps of a written scope of an operation that commits (R338). -/
def noteScope (sc : Scope) : Act Unit := if sc = .none then pure () else noteClamp sc

/-- CRINGTAIL_WRITE (R248): a value is taken only when it leaves at most 64 records. -/
def setTail (s : State) (clu v : Nat) : State :=
  let c := s.cluOf clu
  if (c.chead + 2 ^ 32 - v % 2 ^ 32) % 2 ^ 32 ≤ 64 then
    s.modClu clu fun x => { x with ctail := v % 2 ^ 32 }
  else s

/-- CRINGTAIL_WRITE (R248). -/
def execCringtailWrite (clu : Nat) (v : Word) (s : State) : Host.Outcome State Fault Refusal :=
  .next (setTail s clu (v.toNat % 2 ^ 32))

/-- The operation of an engine that has an identifier. -/
def findOp {α : Type} (e : Engine α) (f : α → Nat) (id : Nat) : Option α :=
  (e.active ++ e.queue).find? fun o => decide (f o = id)

/-- Remove an operation from an engine. -/
def dropOp {α : Type} (e : Engine α) (f : α → Nat) (id : Nat) : Engine α :=
  { e with queue := e.queue.filter fun o => decide (f o ≠ id),
           active := e.active.filter fun o => decide (f o ≠ id) }

/-- Change an operation of an engine. -/
def modOp {α : Type} (e : Engine α) (f : α → Nat) (id : Nat) (g : α → α) : Engine α :=
  let h (o : α) : α := if f o = id then g o else o
  { e with queue := e.queue.map h, active := e.active.map h }

end Sys2Proof.Machine
end

