-- ==== Sys2Proof/Machine/Power.lean ====
section
/-! DEFINITION. Power admission by Keystone: grants, the admission queue, PWREQ and PWREL, and the budget of a
die (R211, R352, R353, R364, R387). -/

namespace Sys2Proof.Machine

open Sys2Proof

/-! ### Counting power -/

/-- FREE of a die (R352); it may be negative. -/
def Die.free (d : Die) : Int := (d.budget : Int) - d.charged - d.granted

/-- The weight of a class (R352). -/
def classWeight (cls : Nat) : Nat :=
  match cls % 4 with
  | 0 => 0 | 1 => 1 | 2 => 2 | _ => 4

/-- The admission queue of a die is looked at again (R353). -/
def wakeAdmission (s : State) (dk : Nat) : State :=
  if (s.dieOf dk).adm.isEmpty then s else spawnOnce s (.admissionServe dk)

/-- Charge a class weight to a die, or take it off (R351, R363). -/
def charge (s : State) (dk w : Nat) : State :=
  s.modDie dk fun d => { d with charged := d.charged + w }
def uncharge (s : State) (dk w : Nat) : State :=
  wakeAdmission (s.modDie dk fun d => { d with charged := d.charged - w }) dk

/-- Give back units of a grant. -/
def ungrant (s : State) (dk u : Nat) : State :=
  wakeAdmission (s.modDie dk fun d => { d with granted := d.granted - u }) dk

/-! ### PWTOKEN -/

/-- Fields of PWTOKEN (R364). -/
def tokenV (w : Word) : Bool := bitAt w.toNat 63
def tokenUnits (w : Word) : Nat := fld w 51 48

/-- A grant is valid (R364): V is set and EXPIRY lies 1 to 2^47 cycles ahead. -/
def tokenValid (ticks : Nat) (w : Word) : Bool :=
  let d := (fld w 47 0 + 2 ^ 48 - ticks % 2 ^ 48) % 2 ^ 48
  tokenV w && decide (1 ≤ d ∧ d ≤ 2 ^ 47)

/-- A valid grant of at least `u` units is held (R211, R364): by the A half of a pair, when the bundle began (R69). -/
def grantHeld (s : State) (u : Nat) : Bool :=
  tokenValid (s.now s.cur.mod) s.view.csr.pwtoken && decide (u ≤ tokenUnits s.view.csr.pwtoken)

/-- PWREL of a strand (R364). -/
def releaseGrant (s : State) (p : Place) : State :=
  let w := (s.strand p).csr.pwtoken
  let s1 := s.modStrand p fun x => { x with csr := { x.csr with pwtoken := 0 } }
  if tokenV w then ungrant s1 p.dieKey (tokenUnits w) else s1

/-- A strand's request stands in the admission queue, or waits outside it (R353, R364). -/
def grantAwaited (s : State) (p : Place) : Bool :=
  let d := s.dieOf p.dieKey
  (d.adm ++ d.admOut).any fun
    | .grant who _ _ => decide (who = p)
    | .task _ _ _ | .remote _ _ => false

/-- Put a request into the admission queue: one for a grant comes before a task whose 64th pass was in the same cycle
(R367). -/
def admAfter (ticks : Nat) (r : AdmReq) : List AdmReq → List AdmReq
  | [] => [r]
  | x :: xs =>
    match r, x with
    | .grant _ _ _, .task _ _ since | .remote _ _, .task _ _ since =>
      if since = ticks then r :: x :: xs else x :: admAfter ticks r xs
    | _, _ => x :: admAfter ticks r xs

/-- Join the admission queue (R353). -/
def joinAdmission (s : State) (dk : Nat) (r : AdmReq) : State :=
  wakeAdmission (s.modDie dk fun d => { d with adm := admAfter s.ticks r d.adm }) dk

/-- A request is that of a task. -/
def AdmReq.ofTask (n : Nat) : AdmReq → Bool
  | .task m _ _ => decide (m = n)
  | .grant _ _ _ | .remote _ _ => false

/-- The units or weight that a request needs. -/
def AdmReq.units : AdmReq → Nat
  | .task _ w _ => w
  | .grant _ u _ => u
  | .remote _ _ => 2

/-- An implicit request (R364): one above the budget waits outside the queue. -/
def joinImplicit (s : State) (dk : Nat) (r : AdmReq) : State :=
  if (s.dieOf dk).budget < r.units then s.modDie dk fun d => { d with admOut := d.admOut ++ [r] }
  else joinAdmission s dk r

/-- The request number that stands for a request for power. -/
def askPower : Nat := 7

/-- The implicit request of a strand for `u` units (R364): a PWREQ with imm13 = 0, which first releases what
is held. -/
def implicitRequest (s : State) (p : Place) (u : Nat) : State :=
  joinImplicit (releaseGrant s p) p.dieKey (.grant p u 4096)

/-- An operation of `u` units issues only on a valid grant of at least `u` (R211, R364). -/
def needGrant (u : Nat) : Act Unit := fun s =>
  if grantHeld s u then .ok ((), s)
  else if grantAwaited s s.cur then .error (.park .power false s)
  else .error (.park .power true (implicitRequest s s.cur u))

/-! ### PWREQ and PWREL -/

/-- The duration of PWREQ (R364). -/
def grantTime (imm : BitVec 13) : Nat := 64 * (if imm = 0 then 64 else imm.toNat)

/-- PWREQ (R364). -/
def execPwreq (d a : GReg) (imm : BitVec 13) (s : State) : Host.Outcome State Fault Refusal :=
  let u := Nat.max (fld (rg s a) 3 0) 1
  finish s (
    match unitAnswer s.me with
    | some (_, v) => .done (wg s d (word v))
    | none =>
      if grantAwaited s s.cur then .park .power false s
      else if (s.dieOf s.cur.dieKey).budget < u then .done (wg s d (rejectWord 6))
      else
        .park .power true
          (joinAdmission (ask (releaseGrant s s.cur) askPower) s.cur.dieKey
            (.grant s.cur u (grantTime imm))))

/-- PWREL (R364). -/
def execPwrel (s : State) : Host.Outcome State Fault Refusal :=
  finish s (.done (releaseGrant s s.cur))

/-- A served request of a strand: the grant is charged and PWTOKEN written; a PWREQ has its answer. -/
def giveGrant (s : State) (p : Place) (u dur : Nat) : State :=
  let tok := word (2 ^ 63 + u * 2 ^ 48 + (s.now p.mod + dur) % 2 ^ 48)
  (s.modDie p.dieKey fun d => { d with granted := d.granted + u }).modStrand p fun x =>
    let y : Strand := { x with csr := { x.csr with pwtoken := tok } }
    let z : Strand := if hasAsked x askPower then { y with resps := y.resps ++ [Resp.unit 0 0] } else y
    z.wakeIf [.power]

/-- A heavy remote command's grant: 2 units until it completes (R364). `mask` 2 marks the granted command. -/
def giveRemote (s : State) (dk core st : Nat) : State :=
  let s1 := s.modDie dk fun d => { d with granted := d.granted + 2 }
  let grant : List MOp → List MOp
    | [] => []
    | o :: os => { o with mask := 2 } :: os
  spawnOnce (s1.modCore core fun c => { c with mq := setNth c.mq st (grant (nth [] c.mq st)) }) (.matrixOpComplete core st)

/-- ADMISSION_SERVE (R353): the head of the queue is served when FREE covers it; an urgent task at the head
waits for its dispatch. -/
def execAdmissionServe (die : Nat) (s : State) : Host.Outcome State Fault Refusal :=
  let d := s.dieOf die
  match d.adm with
  | [] => .next s
  | r :: rest =>
    let drop (t : State) : State := wakeAdmission (t.modDie die fun x => { x with adm := rest }) die
    match r with
    | .task _ _ _ => .next s
    | .grant p u dur =>
      if (u : Int) ≤ d.free then .next (drop (giveGrant s p u dur)) else .next s
    | .remote core st =>
      if 2 ≤ d.free then .next (drop (giveRemote s die core st)) else .next s

/-- GRANT_EXPIRY (R364): the effect of a PWREL made by hardware. -/
def execGrantExpiry (p : Place) (s : State) : Host.Outcome State Fault Refusal :=
  let w := (s.strand p).csr.pwtoken
  if tokenV w && !tokenValid (s.now p.mod) w then .next (releaseGrant s p) else .next s

/-! ### The budget -/

/-- The requests that waited outside the queue join it once the budget covers them, and so do the urgent tasks
that it was too low for (R353, R364). -/
def admitOutside (s : State) (dk : Nat) : State :=
  let d := s.dieOf dk
  let fits (r : AdmReq) : Bool := decide (r.units ≤ d.budget)
  let late (t : QTask) : Option AdmReq :=
    let r : AdmReq := .task t.serial (classWeight t.task.cls) 0
    if t.urgent && !d.adm.any (fun x => x.ofTask t.serial) && fits r then some r else none
  let ins := d.admOut.filter fits ++ d.store.filterMap late
  wakeAdmission (s.modDie dk fun x =>
    { x with adm := x.adm ++ ins, admOut := x.admOut.filter fun e => !fits e }) dk

/-- Set the budget of a die (R352): nothing already charged is revoked. BUDGET has 16 bits. -/
def setBudget (s : State) (dk units : Nat) : State :=
  admitOutside (s.modDie dk fun d => { d with budget := units % 2 ^ 16 }) dk

/-- BUDGET_SET (R352): the budget that temperature lowers is this one from now on (R387). -/
def execBudgetSet (die units : Nat) (s : State) : Host.Outcome State Fault Refusal :=
  .next (setBudget (s.modDie die fun d => { d with thermalBase := 0 }) die units)

end Sys2Proof.Machine
end

