-- ==== Sys2Proof/Machine/Tiles.lean ====
section
/-! DEFINITION. Tiles: shapes, elements, and what a queued operation makes of the tiles it reads (R197-R199,
R206-R209, R215-R217). -/

namespace Sys2Proof.Machine

open Sys2Proof

/-! ### Shapes (R197, R198) -/

/-- Fields of a TSH value. -/
def shFmt (t : Nat) : Nat := bits t 3 0
def shRows (t : Nat) : Nat := bits t 16 11 + 1
def shCols (t : Nat) : Nat := bits t 26 17 + 1
def shBk (t : Nat) : Nat := bits t 30 27
def shSp (t : Nat) : Bool := bitAt t 31
/-- The element width in bits: 4 for codes 6 and 7, 8 for 4, 5 and 8. -/
def shW (t : Nat) : Nat := if shFmt t = 7 then 4 else elemBits (shFmt t)
/-- A blocked format. -/
def shBlocked (t : Nat) : Bool := shFmt t == 7 || shFmt t == 8
/-- Header bytes of a block (R199). -/
def shHead (t : Nat) : Nat := if shFmt t = 7 then 2 else 1
/-- Elements of the shape, and the bits of its dense data. -/
def shSize (t : Nat) : Nat := shRows t * shCols t
def shBits (t : Nat) : Nat := shSize t * shW t
/-- Blocks of a row. -/
def shBlocks (t : Nat) : Nat := shCols t / 2 ^ shBk t

/-- A TSH value is valid (R198). -/
def tshValid (t : Nat) : Bool :=
  decide (1 ≤ shFmt t ∧ shFmt t ≤ 8) && decide (bits t 10 4 = 0 ∧ bits t 63 32 = 0)
    && (if shBlocked t then decide (4 ≤ shBk t ∧ shBk t ≤ 10 ∧ shCols t % 2 ^ shBk t = 0)
        else decide (shBk t = 0))
    && (decide (shFmt t ≠ 6 ∧ shFmt t ≠ 7) || decide (shCols t % 2 = 0))
    && decide (shBits t ≤ 32768)
    && (!shBlocked t || decide (shHead t * (shSize t / 2 ^ shBk t) ≤ 128))
    && (!shSp t || (decide (shRows t ≤ 16 ∧ shCols t ≤ 64) && !shBlocked t))

/-! ### Elements (R199) -/

/-- The presence mask of a row of a sparse tile, without the bits at or above the column count. -/
def rowMask (side sh i : Nat) : Nat := side / 2 ^ (64 * i) % 2 ^ 64 % 2 ^ shCols sh

/-- Element (i, j) is present. -/
def tilePresent (t : Tile) (sh i j : Nat) : Bool :=
  !shSp sh || bitAt (rowMask t.side sh i) j

/-- The place of a present element in the data, as an element number. -/
def tileIndex (side sh i j : Nat) : Nat :=
  i * shCols sh + (if shSp sh then popCount j (rowMask side sh i) else j)

/-- The code of an element. -/
def tileCode (t : Tile) (sh i j : Nat) : Nat := lane t.data (shW sh) (tileIndex t.side sh i j)

/-- The record of a block: its header from the sideband and its codes from the data (R26, R199). -/
def tileRecord (t : Tile) (sh i blk : Nat) : Nat :=
  let h := shHead sh
  let b := i * shBlocks sh + blk
  t.side / 256 ^ (b * h) % 256 ^ h
    + 256 ^ h * (t.data / 2 ^ ((i * shCols sh + blk * 2 ^ shBk sh) * shW sh) % 2 ^ (2 ^ shBk sh * shW sh))

/-- The value of an element that is present (R23-R28). -/
def tileNum (t : Tile) (sh i j : Nat) : Num :=
  if shBlocked sh then
    recElem (shFmt sh) (tileRecord t sh i (j / 2 ^ shBk sh)) (j % 2 ^ shBk sh)
  else elemNum (shFmt sh) (tileCode t sh i j)

/-- The low `n` bits of a value replaced. -/
def putLow (n new old : Nat) : Nat := old / 2 ^ n * 2 ^ n + new % 2 ^ n

/-- Every element of a shape in row-major order. -/
def tilePlaces (sh : Nat) : List (Nat × Nat) :=
  (List.range (shRows sh)).flatMap fun i => (List.range (shCols sh)).map fun j => (i, j)

/-- A tile with the elements of a dense, unblocked shape replaced, in row-major order. -/
def putCodes (t : Tile) (sh : Nat) (codes : List Nat) : Tile :=
  { t with data := putLow (shBits sh) (packLanes (shW sh) codes) t.data }

/-! ### Element-wise operations (R217) -/

/-- Round values in order into an unblocked format: codes with their flags, and the generator; a value that is an integer and an integer
format are the caller's to tell (R33). -/
def roundAll (fmt : Nat) (mode : Rounding) : List Num → BitVec 32 → List (Nat × Nat) × BitVec 32
  | [], seed => ([], seed)
  | x :: xs, seed =>
    let (c, fl, s1) := elemRound fmt mode x seed
    let (cs, s2) := roundAll fmt mode xs s1
    ((c, fl) :: cs, s2)

/-- Encode the blocks of a tile in row-major order (R30): header and codes of block `b` on, and the flags of
each. -/
def encodeBlocks (sh : Nat) : Nat → Nat → List Num → BitVec 32 → Tile → Tile × List Nat
  | 0, _, _, _, t => (t, [])
  | n + 1, b, xs, seed, t =>
    let k := shBk sh
    let h := shHead sh
    let (r, fl, s1) := recEncode (shFmt sh) k (xs.take (2 ^ k)) seed
    let at' := b * 2 ^ k * shW sh
    let t1 : Tile :=
      { t with
        side := putBits t.side (8 * (b * h + h) - 1) (8 * b * h) (r % 256 ^ h)
        data := putBits t.data (at' + 2 ^ k * shW sh - 1) at' (r / 256 ^ h) }
    let (t2, fls) := encodeBlocks sh n (b + 1) (xs.drop (2 ^ k)) s1 t1
    (t2, fl :: fls)

/-- Write values into a tile of a dense shape (R31-R34, R30): the tile and the flags of each element or block. -/
def putNums (t : Tile) (sh : Nat) (mode : Rounding) (seed : Nat) (xs : List Num) : Tile × List Nat :=
  let sd := BitVec.ofNat 32 seed
  if shBlocked sh then encodeBlocks sh (shSize sh / 2 ^ shBk sh) 0 xs sd t
  else
    let cs := (roundAll (shFmt sh) mode xs sd).1
    (putCodes t sh (cs.map (·.1)), cs.map (·.2))

/-- Values and flags of a list of results. -/
def sumFlags (l : List (Num × Nat)) : List Num × Nat := (l.map (·.1), l.foldl (fun f e => f ||| e.2) 0)

/-- Codes, and the flags of all of them. -/
def codesFlags (l : List (Nat × Nat)) : List Nat × Nat := (l.map (·.1), l.foldl (fun f e => f ||| e.2) 0)

/-- Flags of elements, of each run of `n` of them. -/
def runFlags (n : Nat) (l : List Nat) : List Nat :=
  (List.range (l.length / n)).map fun b => ((l.drop (b * n)).take n).foldl (· ||| ·) 0

/-- The values that an element-wise operation rounds, in row-major order of td, and their flags. DEDUCED (log 52): an
exact zero sum of TADD takes its sign by the operation's rounding operand (R31), also where td is blocked. -/
def elementwise (o : MOp) (ta tb : Tile) : List (Num × Nat) :=
  (tilePlaces o.shD).map fun (i, j) =>
    let a := tileNum ta o.shA i j
    match o.kind with
    | .tadd => addNum o.mode a (tileNum tb o.shB i j)
    | .tscale => mulNum a (if o.col then tileNum tb o.shB 0 j else tileNum tb o.shB i 0)
    | _ => (a, 0)

/-! ### Matrix multiplication (R207) -/

/-- The product of a k: exact, and +0 where an element is not present. -/
def product (o : MOp) (ta tb : Tile) (i j k : Nat) : Num × Nat :=
  if tilePresent ta o.shA i k && tilePresent tb o.shB k j then
    mulNum (tileNum ta o.shA i k) (tileNum tb o.shB k j)
  else (.fin false 0 0, 0)

/-- The new code of an output element, and its flags. -/
def mmaElem (o : MOp) (ta tb : Tile) (i j old : Nat) : Nat × Nat :=
  let ps := sumFlags ((List.range (shCols o.shA)).map fun k => product o ta tb i j k)
  let (c, fl) := quadsum o.acc.toCode old ps.1
  (c, fl ||| ps.2)

/-- The mask of a row of an MMSS result (R207). -/
def unionMask (o : MOp) (td ta tb : Tile) (i : Nat) : Nat :=
  (List.range (shCols o.shA)).foldl (fun m k =>
    if tilePresent ta o.shA i k then m ||| rowMask tb.side o.shB k else m) (rowMask td.side o.shD i)

/-- One row of an MMSS: the row repacked under its new mask; the flags of the rows, the latest first. -/
def mmssRow (o : MOp) (td ta tb : Tile) (acc : Tile × List Nat) (i : Nat) : Tile × List Nat :=
  let m := unionMask o td ta tb i
  let w := shW o.shD
  let res := ((List.range (shCols o.shD)).filter (bitAt m ·)).map fun j =>
    mmaElem o ta tb i j (if tilePresent td o.shD i j then tileCode td o.shD i j else 0)
  let n := res.length * w
  let at' := i * shCols o.shD * w
  let row := packLanes w (res.map (·.1))
  let data := if n = 0 then acc.1.data else putBits acc.1.data (at' + n - 1) at' row
  let side := putBits acc.1.side (64 * i + 63) (64 * i)
    (acc.1.side / 2 ^ (64 * i) % 2 ^ 64 / 2 ^ shCols o.shD * 2 ^ shCols o.shD + m)
  ({ acc.1 with data := data, side := side }, res.foldl (fun f e => f ||| e.2) 0 :: acc.2)

/-- MMA, MMAS and MMSS (R207): the tile and the flags of each element, of each row for MMSS. -/
def multiply (o : MOp) (td ta tb : Tile) : Tile × List Nat :=
  if o.kind = .mmss then
    let r := (List.range (shRows o.shD)).foldl (mmssRow o td ta tb) (td, [])
    (r.1, r.2.reverse)
  else
    let res := (tilePlaces o.shD).map fun (i, j) => mmaElem o ta tb i j (tileCode td o.shD i j)
    (putCodes td o.shD (res.map (·.1)), res.map (·.2))

/-! ### Operations on tiles alone -/

/-- Write 32 bytes of a chunk (R220). -/
def putChunk (t : Tile) (j v : Nat) : Tile :=
  if j < 128 then { t with data := putBits t.data (256 * j + 255) (256 * j) v }
  else { t with side := putBits t.side (256 * (j - 128) + 255) (256 * (j - 128)) v }

/-- The 32 bytes of a chunk (R220). -/
def getChunk (t : Tile) (j : Nat) : Nat :=
  if j < 128 then t.data / 2 ^ (256 * j) % 2 ^ 256 else t.side / 2 ^ (256 * (j - 128)) % 2 ^ 256

/-- The tile that an operation without memory writes, and the flags that each unit of it sets (R205, R216, R217, R220). -/
def runTile (o : MOp) (td ta tb : Tile) : Tile × List Nat :=
  match o.kind with
  | .tzero => ({ td with data := 0, side := 0 }, [])
  | .vmovt => (putChunk td o.chunk o.vec, [])
  | .mma | .mmas | .mmss => multiply o td ta tb
  | .tcvt | .tadd | .tscale =>
    let e := elementwise o ta tb
    let r := putNums td o.shD o.mode o.seed (e.map (·.1))
    let own := if shBlocked o.shD then runFlags (2 ^ shBk o.shD) (e.map (·.2)) else e.map (·.2)
    (r.1, (r.2.zip own).map fun f => f.1 ||| f.2)
  | .ttrans => (putCodes td o.shD ((tilePlaces o.shD).map fun (i, j) => tileCode ta o.shA j i), [])
  | .tld | .tst | .mjoin => (td, [])

/-- The PSN that an operation without memory writes (R206): an operation that reads a poisoned tile sets it. -/
def psnOf (o : MOp) (td ta tb : Tile) : Option (Bool × Option Nat) :=
  let mark (b : Bool) : Option (Bool × Option Nat) := if b then some (true, td.perr) else none
  match o.kind with
  | .tzero => some (false, none)
  | .mma | .mmas | .mmss | .tadd | .tscale => mark (ta.psn || tb.psn)
  | .tcvt | .ttrans => mark ta.psn
  | .vmovt | .tld | .tst | .mjoin => none

/-- The units in which an operation makes its result: elements, blocks, rows of an MMSS; the whole where it reads no
tile. Each unit is a function of what is read for it. -/
def MOp.units (o : MOp) : Nat :=
  match o.kind with
  | .mma | .mmas | .ttrans => shSize o.shD
  | .mmss => shRows o.shD
  | .tcvt | .tadd | .tscale => if shBlocked o.shD then shSize o.shD / 2 ^ shBk o.shD else shSize o.shD
  | .tzero | .vmovt | .tld | .tst | .mjoin => 1

/-- `n` ones from bit `i` on. -/
def onesAt (i n : Nat) : Nat := (2 ^ n - 1) * 2 ^ i

/-- The bits of data and of sideband that unit `i` of an operation covers; `u` is the tile it makes. -/
def MOp.unitMask (o : MOp) (u : Tile) (i : Nat) : Nat × Nat :=
  let w := shW o.shD
  match o.kind with
  | .tzero => (onesAt 0 32768, onesAt 0 1024)
  | .vmovt => if o.chunk < 128 then (onesAt (256 * o.chunk) 256, 0) else (0, onesAt (256 * (o.chunk - 128)) 256)
  | .mmss => (onesAt (i * shCols o.shD * w) (popCount 64 (rowMask u.side o.shD i) * w), onesAt (64 * i) 64)
  | .tcvt | .tadd | .tscale =>
    if shBlocked o.shD then
      let n := 2 ^ shBk o.shD * w
      (onesAt (i * n) n, onesAt (8 * shHead o.shD * i) (8 * shHead o.shD))
    else (onesAt (i * w) w, 0)
  | .mma | .mmas | .ttrans => (onesAt (i * w) w, 0)
  | .tld | .tst | .mjoin => (0, 0)

/-- The bits of data and of sideband that row `i` of a TLD covers (R215); the last row takes the data area beyond the
shape with it. -/
def rowMasks (sh i : Nat) : Nat × Nat :=
  let n := shCols sh * shW sh
  let h := 8 * shHead sh * shBlocks sh
  (if i + 1 < shRows sh then onesAt (i * n) n else onesAt (i * n) (32768 - i * n),
   if shSp sh then onesAt (64 * i) 64 else if shBlocked sh then onesAt (h * i) h else 0)

/-! ### Operations of several streams on one tile (R202) -/

/-- `new` where a mask has bits, `old` elsewhere. -/
def mergeBits (mask old new : Nat) : Nat := old ^^^ ((old ^^^ new) &&& mask)

/-- A write comes before the operations of stream `st` that issued after `since` waits (R202, R203): it is of the same
stream, or one of those waits has ended it. -/
def TileVer.precedes (v : TileVer) (st since : Nat) : Bool :=
  decide (v.st = st) || (match v.ended with | none => false | some c => decide (c ≤ since))

/-- A part of a tile with some writes on top of it. -/
def overlay (wrote part : TileVer → Nat) (base : Nat) (vs : List TileVer) : Nat :=
  vs.foldl (fun x v => mergeBits (wrote v) x (part v)) base

/-- PSN and the first poisoned address with some writes on top. -/
def overlayPsn (base : Bool × Option Nat) (vs : List TileVer) : Bool × Option Nat :=
  vs.foldl (fun x v => v.psn.getD x) base

/-- The writes that a reader of stream `st` may find: not those that another write has replaced before it. `covers`
tells the writes of the place that is read. -/
def shownBy (st since : Nat) (covers : TileVer → Bool) : List TileVer → List TileVer
  | [] => []
  | v :: vs =>
    let gone := vs.any fun u => covers u && u.precedes st since && v.precedes u.st u.since
    if covers v && !gone then v :: shownBy st since covers vs else shownBy st since covers vs

/-- The low `n` elements of width `w` as a reader finds them: what stood before the writes that the reader does not come
after, or one of the writes; the digits of `x` choose. -/
def mixLanes (st since w n : Nat) (wrote part : TileVer → Nat) (base : Nat) (vs : List TileVer) (x : Nat) : Nat :=
  let low := overlay wrote part base (vs.filter (·.precedes st since))
  let one (e : Nat) : Nat :=
    let l := lane low w e ::
      (shownBy st since (fun v => decide (lane (wrote v) w e ≠ 0)) vs).map fun v => lane (mergeBits (wrote v) low (part v)) w e
    nth 0 l (x / 2 ^ (16 * e) % l.length)
  putLow (n * w) (packLanes w ((List.range n).map one)) low

/-- A tile with some of its writes made. -/
def Tile.after (t : Tile) (vs : List TileVer) : Tile :=
  let p := overlayPsn (t.psn, t.perr) vs
  { t with data := overlay (·.wd) (·.data) t.data vs, side := overlay (·.ws) (·.side) t.side vs, psn := p.1, perr := p.2 }

/-- A tile as an operation of stream `st` finds it where no other stream's write competes. -/
def Tile.plain (t : Tile) : Tile := { t.after t.vers with vers := [] }

/-- A tile of shape `sh` as an operation reads it: each element, each sideband byte and PSN by its own choice. -/
def Tile.mixed (t : Tile) (st since sh x y z : Nat) : Tile :=
  let p := overlayPsn (t.psn, t.perr) (t.vers.filter (·.precedes st since))
  let ps := p :: (shownBy st since (·.psn.isSome) t.vers).map fun v => v.psn.getD p
  let q := nth p ps (z % ps.length)
  { t with data := mixLanes st since (shW sh) (shSize sh) (·.wd) (·.data) t.data t.vers x,
           side := mixLanes st since 8 128 (·.ws) (·.side) t.side t.vers y, psn := q.1, perr := q.2, vers := [] }

/-- A tile with one more write. -/
def Tile.commit (t : Tile) (v : TileVer) : Tile := { t with vers := t.vers ++ [v] }

/-- The writes of some streams are ended by wait `c`. -/
def endWrites (q : Nat → Bool) (c : Nat) (vs : List TileVer) : List TileVer :=
  vs.map fun v => if q v.st && v.ended.isNone then { v with ended := some c } else v

/-- What the ended writes of a tile have left (R202): each element, sideband byte and PSN is that of one of the writes
that no other ended one replaced; the digits of `x`, `y` and `z` choose. -/
def settledAs (t : Tile) (c : Nat) (vs : List TileVer) (x y z : Nat) : TileVer :=
  let done := vs.filter (·.ended.isSome)
  let w := done.foldl (fun m v => Nat.max m v.w) 4
  let ps := (shownBy 4 c (·.psn.isSome) done).map (·.psn)
  { st := 4, since := c, w := w, ended := some c,
    wd := done.foldl (fun m v => m ||| v.wd) 0, ws := done.foldl (fun m v => m ||| v.ws) 0,
    data := mixLanes 4 c w (32768 / w) (·.wd) (·.data) t.data done x,
    side := mixLanes 4 c 8 128 (·.ws) (·.side) t.side done y,
    psn := nth none ps (z % ps.length) }

/-- The writes that every operation that may still read or write the tile comes after are made: those that a wait up
to `low` ended. -/
def Tile.fold (t : Tile) (low : Nat) : Tile :=
  let past (v : TileVer) : Bool := match v.ended with | none => false | some c => decide (c ≤ low)
  { t.after (t.vers.filter past) with vers := t.vers.filter fun v => !past v }

/-- Wait `c` for some streams has ended. -/
def Tile.settle (t : Tile) (q : Nat → Bool) (c low x y z : Nat) : Tile :=
  if t.vers.any fun v => q v.st && v.ended.isNone then
    let vs := endWrites q c t.vers
    { t with vers := vs ++ [settledAs t c vs x y z] }.fold low
  else t.fold low

/-! ### Array cycles (R209) -/

/-- The array rate of two input formats and an accumulator. -/
def arrayRate (o : MOp) : Nat :=
  let w := Nat.max (shW o.shA) (shW o.shB)
  let r := if w = 4 then 512 else if w = 8 then 256 else 128
  if o.acc = .f32 then r / 2 else r

/-- Group `g` of row `i` of ta holds an element that makes a product. -/
def groupLive (o : MOp) (ta tb : Tile) (i g : Nat) : Bool :=
  (List.range 4).any fun q =>
    let k := 4 * g + q
    decide (k < shCols o.shA) && tilePresent ta o.shA i k
      && (decide (o.kind ≠ .mmss) || decide (rowMask tb.side o.shB k ≠ 0))

/-- G_i: the live groups of a row. -/
def rowGroups (o : MOp) (ta tb : Tile) (i : Nat) : Nat :=
  ((List.range (ceilDiv (shCols o.shA) 4)).filter (groupLive o ta tb i)).length

/-- G_b: the groups that are live in some row of block `b`. -/
def blockGroups (o : MOp) (ta tb : Tile) (b : Nat) : Nat :=
  ((List.range (ceilDiv (shCols o.shA) 4)).filter fun g =>
    (List.range 16).any fun i => decide (16 * b + i < shRows o.shD) && groupLive o ta tb (16 * b + i) g).length

/-- The array cycles T of an operation. DEDUCED (log 65): the size in bytes is that of the 32 bytes of a VMOVT, and else of
the elements of td's shape, a blocked tile's headers and what TZERO clears beyond the shape left out. -/
def arrayCycles (o : MOp) (ta tb : Tile) : Nat :=
  match o.kind with
  | .mma | .mmas | .mmss =>
    let c := 1024 / arrayRate o
    let bn := ceilDiv (shCols o.shD) 16
    let bs := List.range (ceilDiv (shRows o.shD) 16)
    match o.df with
    | .ip => (bs.map fun b => bn * (blockGroups o ta tb b * c + 16)).foldl (· + ·) 0
    | .op => (bs.map fun b => bn * (blockGroups o ta tb b * (c + 1))).foldl (· + ·) 0 + 16
    | .rw => bn * ((List.range (shRows o.shD)).map (rowGroups o ta tb)).foldl (· + ·) 0 + 16
  | .vmovt => 5
  | _ => ceilDiv (ceilDiv (shBits o.shD) 8) 256 + 4

/-- Operations that need the array (R209). -/
def needsArray (o : MOp) : Bool :=
  match o.kind with
  | .tld | .tst | .mjoin => false
  | _ => true

end Sys2Proof.Machine
end

