-- ==== Sys2Proof/Machine/Bte.lean ====
section
/-! DEFINITION. The block-transfer engine: shadow registers, BTSET, BTGO, transfers and ring mode (R250-R255,
R257). -/

namespace Sys2Proof.Machine

open Sys2Proof

/-! ### Shadow registers (R250, R251) -/

/-- Key of a slot's shadow set in its cluster. -/
def shadowKey (p : Place) : Nat := p.core * 16 + p.slot

/-- The shadow set of a place. -/
def shadowOf (s : State) (p : Place) : Shadow := fget Shadow.default (s.cluOf p.cluKey).shadows (shadowKey p)

/-- Replace the shadow set of a place. -/
def setShadow (s : State) (p : Place) (x : Shadow) : State :=
  s.modClu p.cluKey fun c => { c with shadows := fset c.shadows (shadowKey p) x }

/-- BTSET (R252). -/
def execBtset (n : Fin 13) (a : GReg) (imm : BitVec 13) (s : State) : Host.Outcome State Fault Refusal :=
  let x := shadowOf s s.cur
  let v := rg s a + BitVec.signExtend 64 imm
  finish s (.done (setShadow s s.cur { x with regs := setNth x.regs n.val v }))

/-! ### The fields of a transfer -/

/-- Register `i` of a transfer as a number. -/
def xreg (l : List Word) (i : Nat) : Nat := (nth (0 : Word) l i).toNat
/-- A signed stride. -/
def xstep (l : List Word) (i : Nat) : Int := (nth (0 : Word) l i).toInt
def xConv (l : List Word) : Bool := bitAt (xreg l 12) 0
def xNoAdd (l : List Word) : Bool := bitAt (xreg l 12) 1
def xRing (l : List Word) : Bool := bitAt (xreg l 12) 2
def xMin (l : List Word) : Nat := bits (xreg l 12) 10 6
def xMax (l : List Word) : Nat := bits (xreg l 12) 15 11
def xScope (l : List Word) : Nat := bits (xreg l 12) 18 16
/-- Rows of a plane, and planes: a count of 0 acts as 1. -/
def xRows (l : List Word) : Nat := Nat.max (xreg l 7) 1
def xPlanes (l : List Word) : Nat := Nat.max (xreg l 8) 1
/-- Format code and block logarithm of a fat pointer (R21). -/
def ptrCode (x : Nat) : Nat := bits x 63 60
def ptrK (x : Nat) : Nat := bits x 59 56

/-- `rowbytes` of R253: the bytes of `n` elements in a pointer's format. -/
def rowLen (code k n : Nat) : Nat :=
  if code = 7 ∨ code = 8 then n / 2 ^ k * recBytes code k else n * elemBits code / 8

/-- Bytes of a source row and of a destination row. -/
def srcLen (l : List Word) : Nat :=
  if xConv l then rowLen (ptrCode (xreg l 0)) (ptrK (xreg l 0)) (xreg l 2) else xreg l 2
def dstLen (l : List Word) : Nat :=
  if xConv l then rowLen (ptrCode (xreg l 1)) (ptrK (xreg l 1)) (xreg l 2) else xreg l 2

/-- B of R253. -/
def xBytes (l : List Word) : Nat := dstLen l * (xRows l * xPlanes l)

/-- Where row `r` is read and written: rows are numbered plane by plane. -/
def rowSrc (l : List Word) (r : Nat) : Nat :=
  addrAdd (xreg l 0 % addrSpace) ((r / xRows l : Nat) * xstep l 4 + (r % xRows l : Nat) * xstep l 3)
def rowDst (l : List Word) (r : Nat) : Nat :=
  let p := r / xRows l
  let slot := if xRing l then p % xMax l else p
  addrAdd (xreg l 1 % addrSpace) ((slot : Nat) * xstep l 6 + (r % xRows l : Nat) * xstep l 5)

/-- The bytes that a transfer names: its rows, its barrier and its words at CWADDR (R228). -/
def xRuns (l : List Word) : List (Nat × Nat) :=
  ((List.range (xRows l * xPlanes l)).flatMap fun r => [(rowSrc l r, srcLen l), (rowDst l r, dstLen l)])
    ++ (if xreg l 9 = 0 then [] else [(xreg l 9, 16)]) ++ (if xreg l 10 = 0 then [] else [(xreg l 10, 16)])

/-- A format that CONV does not allow, or a length that does not fit it (R253, R254). -/
def convBad (x len : Nat) : Bool :=
  fmtBad (ptrCode x) (ptrK x) || decide (ptrCode x = 0)
    || (decide (ptrCode x = 6) && decide (len % 2 ≠ 0))
    || (decide (ptrCode x = 7 ∨ ptrCode x = 8) && decide (len % 2 ^ ptrK x ≠ 0))

/-- A barrier address that R256 allows to an engine. -/
def barGood (s : State) (p : Place) (tenant part : Nat) (priv : Bool) (a : Nat) : Bool :=
  decide (a % 16 = 0) && inCluster s p.cluKey a 16 &&
    match engineBar s p tenant part priv a with
    | .ok _ => true
    | .error (f, _) => decide (f = .poison)

/-- The reason for which BTGO rejects a shadow set, in the order of R253. -/
def btReject (s : State) (l : List Word) : Option Nat :=
  let f := xreg l 12
  let bar := xreg l 9 % addrSpace
  let cw := xreg l 10
  if s.clu.bte.offline then some 7
  else if f / 2 ^ 19 ≠ 0 ∨ bits f 5 3 ≠ 0 ∨ xScope l = 7 ∨ 2 ^ 32 ≤ xreg l 2 ∨ 2 ^ 32 ≤ xreg l 7
      ∨ 2 ^ 32 ≤ xreg l 8 then some 2
  else if xRing l ∧ ¬(1 ≤ xMin l ∧ xMin l ≤ xMax l) then some 5
  else if xRing l ∧ (cw = 0 ∨ inCluster s s.cur.cluKey (cw % addrSpace) 16 = false) then some 5
  else if xConv l && (convBad (xreg l 0) (xreg l 2) || convBad (xreg l 1) (xreg l 2)) then some 6
  else if xreg l 9 ≠ 0 ∧ barGood s s.cur s.tenant s.part s.super bar = false then some 3
  else if cw % 8 ≠ 0 then some 4
  else none

/-! ### PDEPTH (R255) -/

/-- A mean, saturated at 20 bits. -/
def meanOf (l : List Nat) : Nat :=
  if l.isEmpty then 0 else Nat.min (l.foldl (· + ·) 0 / l.length) (2 ^ 20 - 1)

/-- PDEPTH of a ring transfer. -/
def pdepthOf (x : Xfer) : Word :=
  word (x.depth + xMin x.regs * 2 ^ 8 + xMax x.regs * 2 ^ 16 + meanOf x.lats * 2 ^ 24
    + meanOf x.intvs * 2 ^ 44)

/-- Show a ring transfer in its strand's PDEPTH. -/
def showDepth (s : State) (x : Xfer) : State :=
  if x.shows then s.modStrand x.who fun y => { y with csr := { y.csr with pdepth := pdepthOf x } }
  else s

/-! ### Committing a transfer (R253) -/

/-- Commit a transfer: the barrier takes its bytes, the identifier is issued, the transfer is queued. -/
def commitXfer (s : State) (l : List Word) (sc : Scope) : Word × State :=
  let p := s.cur
  let bar := xreg l 9 % addrSpace
  let s1 := if xreg l 9 ≠ 0 ∧ xNoAdd l = false then
      updateBar s p s.tenant s.part s.super bar (fun v => barAdd v (xBytes l))
    else s
  let (seed, s2) := if xConv l then copySeed s1 else (0, s1)
  let id := nextId s2.clu.bte false
  let x : Xfer :=
    { id := id, lost := none, who := p, tenant := s2.tenant, part := s2.part, priv := s2.super, shows := xRing l,
      regs := l, scope := sc, seed := seed, todo := [], landed := 0, flags := 0, fault := 0, faddr := 0,
      token := none, absAt := (0, 0), barDone := false, stages := 0, consumed := 0, depth := xMin l, lats := [],
      intvs := [], lastUpd := none, started := [] }
  let hide (y : Xfer) : Xfer := if xRing l ∧ y.who = p then { y with shows := false } else y
  let s3 := s2.modMyClu fun c =>
    let e := { c.bte with queue := c.bte.queue.map hide, active := c.bte.active.map hide }
    { c with bte := commitOp e false x }
  (word id, (showDepth s3 x).spawn (.bteTransferActivate p.cluKey))

/-- A BTE launch from a captured shadow set (R245, R253): the result for the destination register. `own` is the scope of
an atomic launch, whose clamp counts before the descriptor's (R338). -/
def bteLaunch (l : List Word) (sc own : Scope) : Act Word := do
  steady
  let s ← here
  match btReject s l with
  | some r => do
    noteScope own
    pure (rejectWord r)
  | none =>
    notBusy (xRuns l)
    if 65536 < xBytes l then needGrant 1
    let S ← launchScope sc
    let C ← carriedScope (xScope l)
    release S
    let t ← here
    let bar := xreg l 9 % addrSpace
    if xreg l 9 ≠ 0 ∧ xNoAdd l = false then
      match engineBar t t.cur t.tenant t.part t.super bar with
      | .error (f, b) => if f = .poison then memTrap .dataError b .atomic else pure ()
      | .ok v => if 2 ^ 36 - 1 < barPending v + xBytes l then raise .barrierOverflow bar 0 else pure ()
    if queueFull t.clu.bte then parkOn .engine
    noteScope own
    noteScope sc
    noteScope (Scope.ofCode (xScope l))
    let u ← here
    let r := commitXfer u l C
    change fun _ => r.2
    pure r.1

/-- BTGO (R251, R253). -/
def execBtgo (d : GReg) (sc : Scope) (s : State) : Host.Outcome State Fault Refusal :=
  let x := shadowOf s s.cur
  finish s (
    if x.lost then .done (wg (setShadow s s.cur Shadow.default) d (rejectWord 1))
    else Act.res (do
      let w ← bteLaunch x.regs sc .none
      change fun t => wg t d w) s)

/-! ### The writes of a transfer (R254) -/

/-- The writes of a row, numbered `row * 2^32 + piece`: pieces end at multiples of 128 bytes. -/
def rowWrites (l : List Word) (r : Nat) : List Nat :=
  let n := dstLen l
  if n = 0 then []
  else (List.range (ceilDiv (rowDst l r % 128 + n) 128)).map fun i => r * 2 ^ 32 + i

/-- Offset and length of a piece in its row. -/
def pieceRun (l : List Word) (r i : Nat) : Nat × Nat :=
  let d := rowDst l r % 128
  let lo := 128 * i - d
  (lo, Nat.min (dstLen l) (128 * (i + 1) - d) - lo)

/-- The writes of plane `p`. -/
def planeWrites (l : List Word) (p : Nat) : List Nat :=
  (List.range (xRows l)).flatMap fun i => rowWrites l (p * xRows l + i)

/-- A byte lies in a destination row of the transfer. -/
def inDst (l : List Word) (a : Nat) : Bool :=
  (List.range (xRows l * xPlanes l)).any fun r =>
    decide ((a + addrSpace - rowDst l r) % addrSpace < dstLen l)

/-- Read source bytes; one that is also a destination byte contributes an unspecified value (R254). -/
def readSrc (s : State) (x : Xfer) (a n : Nat) : Except (Fail × Nat) (Nat × State) :=
  match sysRead (secFuel n) s x.who.mod x.tenant x.part x.priv a n with
  | .error e => .error e
  | .ok (v, s1) =>
    let both := dstMask x.regs a n
    if both = 0 then .ok (v, s1)
    else
      let (f, s2) := s1.free
      .ok (mergeBytes n both v f, s2)
where
  /-- The bytes of a run that are also destination bytes, as a mask. -/
  dstMask (l : List Word) (a : Nat) : Nat → Nat
    | 0 => 0
    | n + 1 => dstMask l a n + (if inDst l (addrAdd a n) then 2 ^ n else 0)

/-- The values of a run of elements (R23-R28). -/
def runVals (code k n x : Nat) : List Num :=
  if code = 7 ∨ code = 8 then
    (List.range n).map fun j => recElem code (x / 256 ^ (j / 2 ^ k * recBytes code k)) (j % 2 ^ k)
  else (lanes x (elemBits code) n).map (elemNum code)

/-- Encode values block by block into records (R30): bytes, flags, generator. -/
def recordRun (code k : Nat) : Nat → List Num → BitVec 32 → Nat × Nat × BitVec 32
  | 0, _, seed => (0, 0, seed)
  | n + 1, xs, seed =>
    let (r, fl, s1) := recEncode code k (xs.take (2 ^ k)) seed
    let (rest, fl', s2) := recordRun code k n (xs.drop (2 ^ k)) s1
    (r % 256 ^ recBytes code k + 256 ^ recBytes code k * rest, fl ||| fl', s2)

/-- Round values into a format in RNE (R254): bytes, flags, generator. `ints` tells that the values are integers, which
saturate into an integer format without a flag (R33). -/
def encodeRun (ints : Bool) (code k : Nat) (xs : List Num) (seed : BitVec 32) : Nat × Nat × BitVec 32 :=
  if code = 7 ∨ code = 8 then recordRun code k (xs.length / 2 ^ k) xs seed
  else
    let (l, s1) := roundAll code .rne xs seed
    let (cs, fl) := codesFlags l
    (packLanes (elemBits code) cs, if ints && codeIsInt code then 0 else fl, s1)

/-- Convert a row (R254). -/
def convertRow (s : State) (x : Xfer) (r : Nat) (seed : BitVec 32) :
    Except (Fail × Nat) ((Nat × Nat × BitVec 32) × State) :=
  let l := x.regs
  match readSrc s x (rowSrc l r) (srcLen l) with
  | .error e => .error e
  | .ok (v, s1) =>
    let xs := runVals (ptrCode (xreg l 0)) (ptrK (xreg l 0)) (xreg l 2) v
    .ok (encodeRun (codeIsInt (ptrCode (xreg l 0))) (ptrCode (xreg l 1)) (ptrK (xreg l 1)) xs seed, s1)

/-- A destination format whose roundings draw from the generator (R34). -/
def drawsSeed (code : Nat) : Bool := !codeIsInt code && (FloatCode.ofCode code).stochastic

/-- The generator before row `r`: the decisions of the rows before it, in order (R254). -/
def seedBefore (x : Xfer) : Nat → State → Except (Fail × Nat) (BitVec 32 × State)
  | 0, s => .ok (BitVec.ofNat 32 x.seed, s)
  | r + 1, s =>
    if drawsSeed (ptrCode (xreg x.regs 1)) = false then .ok (BitVec.ofNat 32 x.seed, s)
    else
      match seedBefore x r s with
      | .error e => .error e
      | .ok (sd, s1) =>
        match convertRow s1 x r sd with
        | .error e => .error e
        | .ok ((_, _, sd'), s2) => .ok (sd', s2)

/-- The bytes of a write, and the flags of its conversion. -/
def writeBytes (s : State) (x : Xfer) (r i : Nat) : Except (Fail × Nat) ((Nat × Nat) × State) :=
  let (o, n) := pieceRun x.regs r i
  if xConv x.regs then
    match seedBefore x r s with
    | .error e => .error e
    | .ok (sd, s1) =>
      match convertRow s1 x r sd with
      | .error e => .error e
      | .ok ((v, fl, _), s2) => .ok ((v / 256 ^ o % 256 ^ n, fl), s2)
  else
    match readSrc s x (addrAdd (rowSrc x.regs r) o) n with
    | .error e => .error e
    | .ok (v, s1) => .ok ((v, 0), s1)

/-! ### Running a transfer -/

/-- Change a transfer of a cluster. -/
def State.modXfer (s : State) (clu id : Nat) (f : Xfer → Xfer) : State :=
  s.modClu clu fun c => { c with bte := modOp c.bte Xfer.id id f }

/-- The transfer with an identifier. -/
def xferOf (s : State) (clu id : Nat) : Option Xfer := findOp (s.cluOf clu).bte Xfer.id id

/-- The place of a transfer among the active ones. -/
def activeIndex (s : State) (clu id : Nat) : Nat :=
  ((s.cluOf clu).bte.active.findIdx? fun x => decide (x.id = id)).getD 0

/-- A transfer waits on an absent part (R254, R318): it joins the outstanding entry of its die, or posts one. -/
def waitXfer (s : State) (clu : Nat) (x : Xfer) (a access : Nat) : State :=
  let p := x.who
  let d := s.dieOf p.dieKey
  match d.waits.find? fun w => decide (w.page = pageOf a ∧ w.part = partOf a) with
  | some w =>
    let join (v : FaultWait) : FaultWait := { v with xfers := v.xfers ++ [(clu, x.id)] }
    (s.modDie p.dieKey fun e =>
      let ws := mapFirst (fun v => decide (v.token = w.token)) join e.waits
      { e with waits := ws }).modXfer clu x.id fun y => { y with token := some w.token, absAt := (a, access) }
  | none =>
    let tok := tokenOf p (activeIndex s clu x.id) d.faultSeq
    let w : FaultWait := { token := tok, tenant := x.tenant, page := pageOf a, part := partOf a,
                           strands := [], xfers := [(clu, x.id)] }
    let s1 := s.modDie p.dieKey fun e =>
      { e with waits := e.waits ++ [w], faultSeq := nextSeq e.faultSeq }
    let s2 := postFault s1 p.mod p.dieKey
      { vf := x.tenant, addr := a, token := tok, kind := 1, source := 1, access := access,
        place := s.strandId p, id := x.id }
    s2.modXfer clu x.id fun y => { y with token := some tok, absAt := (a, access) }

/-- A transfer ends with a fault (R254): the writes still to do will never land. -/
def failXfer (s : State) (clu id code a : Nat) : State :=
  (s.modXfer clu id fun y =>
    { y with fault := if y.fault = 0 then code else y.fault, faddr := if y.fault = 0 then a else y.faddr,
             todo := [], token := none }).spawn
    (.engineCompletion clu false id)

/-- What a failed access of a transfer leads to (R247, R254, R399). -/
def xferFail (s : State) (clu : Nat) (x : Xfer) (f : Fail) (a access : Nat) : State :=
  match f with
  | .absent | .absentAt _ => waitXfer (engineOwner s x.who x.tenant f a 1 access x.id) clu x a access
  | .unanswered | .lost _ _ =>
    failXfer ((enginePost s x.who x.tenant f a 1 access x.id).count x.who.dieKey 14) clu x.id 0x0C a
  | _ => failXfer (enginePost s x.who x.tenant f a 1 access x.id) clu x.id f.code a

/-- A write of `n` bytes has landed: the barrier gives them up (R254, R257). A barrier that cannot be read ends the
transfer with its cause: poison is code 0x0C (R265). -/
def landBar (s : State) (clu : Nat) (x : Xfer) (n : Nat) : State :=
  if xreg x.regs 9 = 0 then s
  else
    let bar := xreg x.regs 9 % addrSpace
    match engineBar s x.who x.tenant x.part x.priv bar with
    | .error (f, a) => xferFail s clu x f a Access.atomic.code
    | .ok v =>
      let s1 := updateBar s x.who x.tenant x.part x.priv bar fun v => barLand v n
      if barPending v < n then s1.count x.who.dieKey 6 else s1

/-- The consumer's word of a ring transfer (R255): consumed never decreases and never passes what landed. The last 16
updates have 15 intervals between them. A word that reads as poison ends the transfer (R265). -/
def readConsumer (s : State) (clu id : Nat) : State :=
  match xferOf s clu id with
  | none => s
  | some x =>
    let a := xreg x.regs 10 % addrSpace + 8
    match placedRead s x.who.mod x.tenant a 8 x.part x.priv with
    | .error (f, b) => if x.fault = 0 then xferFail s clu x f b 0 else s
    | .ok (v, _) =>
      let c := Nat.max x.consumed (Nat.min v x.stages)
      if c = x.consumed then s
      else
        let more : List Nat := match x.lastUpd with
          | none => x.intvs
          | some t => (x.intvs ++ [s.ticks - t]).drop (x.intvs.length + 1 - 15)
        s.modXfer clu id fun y =>
          { y with consumed := c, intvs := more, lastUpd := some s.ticks }

/-- The depth after a stage has landed (R255). -/
def ringDepth (x : Xfer) : Nat :=
  let sumL := x.lats.foldl (· + ·) 0
  let sumI := x.intvs.foldl (· + ·) 0
  if x.intvs.isEmpty then xMin x.regs
  else if sumI = 0 then xMax x.regs
  else
    let q := ceilDiv (sumL * x.intvs.length) (x.lats.length * sumI) + 1
    Nat.max (xMin x.regs) (Nat.min q (xMax x.regs))

/-- Stages that have been issued: landed ones and those on their way. -/
def issuedStages (x : Xfer) : Nat := x.stages + x.started.length

/-- The next stage of a ring transfer has landed (R255): its number goes to CWADDR. -/
def stageLanded (s : State) (clu : Nat) (x : Xfer) : State :=
  match x.started with
  | [] => s
  | (_, t) :: rest =>
    let lats := (x.lats ++ [s.ticks - t]).drop (x.lats.length + 1 - 16)
    let y : Xfer := { x with stages := x.stages + 1, started := rest, lats := lats }
    let z : Xfer := { y with depth := ringDepth y }
    let s1 := s.modXfer clu x.id fun _ => z
    completionWord (showDepth s1 z) x.who x.tenant x.part x.priv (xreg x.regs 10 % addrSpace) (x.stages + 1) 1 x.id

/-- Land, look at the consumer, issue: until nothing more is to do (R255). -/
def ringStep (clu id : Nat) : Nat → State → State
  | 0, s => s
  | n + 1, s =>
    match xferOf s clu id with
    | none => s
    | some x =>
      let l := x.regs
      if x.fault ≠ 0 then s
      else
      let due := !x.started.isEmpty && x.todo.all fun w => decide (w / 2 ^ 32 / xRows l ≠ x.stages)
      if due then ringStep clu id n (readConsumer (stageLanded s clu x) clu id)
      else
        let j := issuedStages x
        if j < xPlanes l ∧ j - x.consumed < x.depth then
          ringStep clu id n (s.modXfer clu id fun y =>
            { y with todo := y.todo ++ planeWrites l j, started := y.started ++ [(j, s.ticks)] })
        else s

/-- The transfer has made all its writes. -/
def xferDone (x : Xfer) : Bool :=
  decide (x.fault ≠ 0) || (x.todo.isEmpty && (!xRing x.regs || decide (x.stages = xPlanes x.regs)))

/-- What is due for a transfer: its next write, or its completion. -/
def nextWrite (s : State) (clu id : Nat) : State :=
  match xferOf s clu id with
  | none => s
  | some x =>
    if xferDone x then s.spawn (.engineCompletion clu false id)
    else if x.todo.isEmpty then s
    else spawnOnce s (.bteWriteLand clu id)

/-- A ring transfer goes as far as it can. -/
def driveRing (s : State) (clu id : Nat) : State :=
  match xferOf s clu id with
  | none => s
  | some x => ringStep clu id (2 * xPlanes x.regs + 2) s

/-- BTE_TRANSFER_ACTIVATE (R254): at most 8 transfers are active. -/
def execBteTransferActivate (clu : Nat) (s : State) : Host.Outcome State Fault Refusal :=
  let e := (s.cluOf clu).bte
  match e.queue with
  | [] => .next s
  | x :: rest =>
    if 8 ≤ e.active.length ∨ x.fault ≠ 0 then .next s
    else
      let l := x.regs
      let all := if xRing l then [] else (List.range (xPlanes l)).flatMap (planeWrites l)
      let y : Xfer := { x with todo := all }
      let s1 := s.modClu clu fun c =>
        { c with bte := setState { c.bte with queue := rest, active := c.bte.active ++ [y] } x.id
                   { st := 1, fault := 0, done := 0 } }
      let s2 := pokeEngine s1 clu
      .next (nextWrite (if xRing l then driveRing s2 clu x.id else s2) clu x.id)

/-- An access of a transfer's write `w` has failed: it ends the transfer, unless it may still be answered (R399). -/
def writeFails (s : State) (clu : Nat) (x : Xfer) (w : Nat) (f : Fail) (a access : Nat) : State :=
  if keepsWaiting s.ticks patience x.lost f a w then
    ((noteLost s f).modXfer clu x.id fun y => { y with lost := some (Lost.wait s.ticks x.lost f a access w) }).again
      (.bteWriteLand clu x.id)
  else xferFail s clu x f a access

/-- The write `w` of a transfer: its bytes are read, and they land (R254). -/
def landWrite (s : State) (clu : Nat) (x : Xfer) (w : Nat) : State :=
  let r := w / 2 ^ 32
  let (o, n) := pieceRun x.regs r (w % 2 ^ 32)
  match writeBytes s x r (w % 2 ^ 32) with
  | .error (f, a) => writeFails s clu x w f a 0
  | .ok ((v, fl), s1) =>
    match sysWrite (secFuel n) s1 x.who.mod x.tenant x.part x.priv (addrAdd (rowDst x.regs r) o) n v with
    | .error (f, a) => writeFails s1 clu x w f a 1
    | .ok s2 =>
      let s3 := (landBar s2 clu x n).modXfer clu x.id fun y =>
        { y with lost := none, todo := y.todo.filter (· ≠ w), landed := y.landed + n, flags := y.flags ||| fl }
      nextWrite (if xRing x.regs then driveRing s3 clu x.id else s3) clu x.id

/-- BTE_WRITE_LAND (R254): one of the writes still to do, in any order; one that has no answer so far comes first (R399). -/
def execBteWriteLand (clu id : Nat) (s : State) : Host.Outcome State Fault Refusal :=
  match xferOf s clu id with
  | none => .next s
  | some x =>
    if x.todo.isEmpty || x.token.isSome then .next s
    else
      match goneLost x.lost, x.lost with
      | some l, _ =>
        .next (if s.ticks < l.since + patience then s.again (.bteWriteLand clu id)
          else xferFail s clu x .unanswered l.addr l.access)
      | none, some l => .next (landWrite s clu x l.item)
      | none, none =>
        let (k, s0) := s.choice x.todo.length
        .next (landWrite s0 clu x (nth 0 x.todo k))

/-- BTE_CONSUMER_UPDATE (R255). -/
def execBteConsumerUpdate (clu id : Nat) (s : State) : Host.Outcome State Fault Refusal :=
  match xferOf s clu id with
  | none => .next s
  | some x =>
    if xRing x.regs = false ∨ x.fault ≠ 0 then .next s
    else
      let s1 := readConsumer s clu id
      let s2 := match xferOf s1 clu id with
        | some y => showDepth s1 y
        | none => s1
      .next (nextWrite (driveRing s2 clu id) clu id)

/-- The completion of a transfer (R247, R248, R254): barrier, record, completion word, in that order. -/
def completeXfer (s : State) (clu : Nat) (x : Xfer) : State :=
  if xferDone x = false then s
  else
    let bar := xreg x.regs 9 % addrSpace
    let s1 :=
      if x.barDone ∨ xreg x.regs 9 = 0 ∨ x.fault = 0 then s
      else updateBar s x.who x.tenant x.part x.priv bar fun v =>
        putBits (barLand v (xBytes x.regs - x.landed)) 69 69 1
    let s2 := s1.modXfer clu x.id fun y => { y with barDone := true }
    if ringFull (s2.cluOf clu) then
      (if x.barDone then s2 else s2.count x.who.dieKey 10).again (.engineCompletion clu false x.id)
    else
      let ok := decide (x.fault = 0)
      let cw := xreg x.regs 10
      let held := if ok ∧ cw ≠ 0 ∧ xRing x.regs = false then
          wordHeld s2 x.who x.tenant x.part x.priv (cw % addrSpace) x.lost
        else none
      match held with
      | some f =>
        ((noteLost s2 f).modXfer clu x.id fun y =>
          { y with lost := some (Lost.wait s.ticks x.lost f (cw % addrSpace) 1 0) }).again (.engineCompletion clu false x.id)
      | none =>
      let s3 := writeRecord s2 clu
        (recordOf x.id (b2n (!ok)) x.fault (recordFlags x.flags) x.who x.landed)
      let s4 := if ok ∧ cw ≠ 0 ∧ xRing x.regs = false then
          completionWord s3 x.who x.tenant x.part x.priv (cw % addrSpace) (xreg x.regs 11) 1 x.id
        else s3
      let s5 := s4.modClu clu fun c =>
        { c with bte := setState (dropOp c.bte Xfer.id x.id) x.id
                   { st := if ok then 2 else 3, fault := x.fault, done := x.landed } }
      (pokeEngine s5 clu).spawn (.bteTransferActivate clu)

end Sys2Proof.Machine
end

