-- ==== Sys2Proof/Machine/Ixe.lean ====
section
/-! DEFINITION. The indirect copy engine: IXPOST and its copies, and EUPD on the same engine (R259, R260,
R293-R298). -/

namespace Sys2Proof.Machine

open Sys2Proof

/-- A field of `n` bytes at an offset of a descriptor. -/
def dfield (d off n : Nat) : Nat := d / 256 ^ off % 256 ^ n

/-! ### Index postings (R259, R260) -/

/-- The reason for which the IXE rejects a descriptor (R246, R259). DEDUCED (log 65): a CWADDR that is not 8-byte aligned
gives reason 4, which R246 names for it. -/
def ixReject (s : State) (d : Nat) : Option Nat :=
  if s.clu.ixe.offline then some 7
  else if bits (dfield d 8 8) 63 56 ≠ 0 ∨ ¬(1 ≤ dfield d 0x18 4 ∧ dfield d 0x18 4 ≤ 4096)
      ∨ ¬(1 ≤ dfield d 0x1C 4 ∧ dfield d 0x1C 4 ≤ 64) ∨ ¬(dfield d 0x28 4 = 4 ∨ dfield d 0x28 4 = 8)
      ∨ 7 ≤ dfield d 0x2C 4 then some 2
  else if bits (dfield d 0 8) 63 56 ≠ 0 then some 6
  else if inCluster s s.cur.cluKey (dfield d 0x10 8 % addrSpace) (dfield d 0x18 4 * dfield d 0x1C 4) = false then some 3
  else if dfield d 0x30 8 % 8 ≠ 0 then some 4
  else none

/-- Bits of a mask below `n`. -/
def bitsBelow (m n : Nat) : List Nat := (List.range n).filter (bitAt m ·)

/-- The bytes that a posting's descriptor names: indices, the first row, destination, completion word (R228). -/
def ixRuns (d : Nat) : List (Nat × Nat) :=
  let n := dfield d 0x1C 4
  [(dfield d 8 8, n * dfield d 0x28 4), (dfield d 0 8, dfield d 0x18 4), (dfield d 0x10 8, n * dfield d 0x18 4)]
    ++ (if dfield d 0x30 8 = 0 then [] else [(dfield d 0x30 8, 8)])

/-- An IXE operation with nothing done yet. -/
def IxOp.start (s : State) (id d daddr : Nat) (sc : Scope) : IxOp :=
  { id := id, lost := none, who := s.cur, tenant := s.tenant, part := s.part, priv := s.super, desc := d,
    daddr := daddr, eupd := false, posted := false, scope := sc, table := 0, step := 0, merge := false,
    todo := [], okMask := 0, failed := false, killed := false, sent := 0, held := false, fault := 0,
    faddr := 0, flags := 0, done := 0 }

/-- Queue an operation of the IXE; `first` is the step that is due for it. -/
def queueIx (s : State) (o : IxOp) (first : Nat → Nat → Event) : State :=
  let k := s.cur.cluKey
  let s1 := s.modMyClu fun c => { c with ixe := commitOp c.ixe true o }
  if o.todo.isEmpty then s1.spawn (.engineCompletion k true o.id) else s1.spawn (first k o.id)

/-- A launch of the IXE from a descriptor (R245, R260): the result for the destination register. `posted` for
IXPOST, which keeps IXMASK, `own` the scope of an atomic launch. -/
def ixLaunch (d daddr : Nat) (sc own : Scope) (resume posted : Bool) : Act Word := do
  steady
  let s ← here
  match ixReject s d with
  | some r => do
    noteScope own
    pure (rejectWord r)
  | none =>
    notBusy (ixRuns d)
    let S ← launchScope sc
    let C ← carriedScope (dfield d 0x2C 4)
    release S
    let t ← here
    if queueFull t.clu.ixe then parkOn .engine
    noteScope own
    noteScope sc
    noteScope (Scope.ofCode (dfield d 0x2C 4))
    let n := dfield d 0x1C 4
    let old := if posted && resume then t.me.csr.ixmask.toNat % 2 ^ n else 0
    let id := nextId t.clu.ixe true
    change fun u =>
      let o : IxOp :=
        { IxOp.start u id d daddr C with
          posted := posted, okMask := old, todo := (List.range n).filter fun e => !bitAt old e }
      let u1 := if posted && !resume then u.modCsr fun c => { c with ixmask := 0 } else u
      queueIx u1 o .ixeElementCopy
    pure (word id)

/-- A descriptor of `n` bytes in the strand's own memories, with ALIGN and PROT precise (R245, R260). -/
def ownDescriptor (x al n : Nat) : Act Nat := do
  aligned x al .load
  let mine ← ownSteady x n
  if mine = false then memTrap .prot x .load
  else placedLoad x n .load

/-- IXPOST (R260). -/
def execIxpost (d a : GReg) (sc : Scope) (resume : Bool) (s : State) :
    Host.Outcome State Fault Refusal :=
  let x := addrOf (rg s a)
  finish s (Act.res (
    if ixBusy s s.cur then parkOn .engine
    else do
      let dd ← ownDescriptor x 64 64
      let w ← ixLaunch dd x sc .none resume true
      change fun t => wg t d w) s)

/-! ### Running operations of the IXE -/

/-- The operation with an identifier. -/
def ixOf (s : State) (clu id : Nat) : Option IxOp := findOp (s.cluOf clu).ixe IxOp.id id

/-- Change an operation of a cluster's IXE. -/
def State.modIx (s : State) (clu id : Nat) (f : IxOp → IxOp) : State :=
  s.modClu clu fun c => { c with ixe := modOp c.ixe IxOp.id id f }

/-- An operation that the engine begins leaves the queue (R246, R249). -/
def beginIx (s : State) (clu id : Nat) : State :=
  let e := (s.cluOf clu).ixe
  match e.queue.find? fun o => decide (o.id = id) with
  | none => s
  | some o =>
    let s1 := s.modClu clu fun c =>
      { c with ixe := setState { c.ixe with queue := c.ixe.queue.filter (fun y => decide (y.id ≠ id)),
                                            active := c.ixe.active ++ [o] } id
                 { st := 1, fault := 0, done := 0 } }
    pokeEngine s1 clu

/-- Part of an operation fails (R260, R296): the first fault is kept, and posted with its address. -/
def ixFail (s : State) (clu : Nat) (o : IxOp) (f : Fail) (a access : Nat) : State :=
  let code := if f.pending then 0x0C else f.code
  let s1 := s.modIx clu o.id fun y =>
    { y with lost := none, failed := true, fault := if y.fault = 0 then code else y.fault,
             faddr := if y.fault = 0 then a else y.faddr }
  let s2 := enginePost s1 o.who o.tenant f a 2 access o.id
  if f.pending then s2.count o.who.dieKey 14 else s2

/-- An access of piece `item` of an operation has failed in state `u` (R399): it may still be answered, so that the
operation keeps the piece; or the piece fails in `t`. -/
def ixLose (u t : State) (clu : Nat) (o : IxOp) (item : Nat) (f : Fail) (a access : Nat) : State :=
  if keepsWaiting u.ticks patience o.lost f a item then
    (noteLost u f).modIx clu o.id fun y => { y with lost := some (Lost.wait u.ticks o.lost f a access item) }
  else ixFail t clu o f a access

/-- A piece of an operation is done: what it waited for has come. -/
def ixGot (s : State) (clu : Nat) (o : IxOp) : State := s.modIx clu o.id fun y => { y with lost := none }

/-- The piece of an operation that is next: one whose access has had no answer, else one of those still to do, in any
order (R9). -/
def ixPick (s : State) (o : IxOp) : Nat × State :=
  match o.lost with
  | some l => (l.item, s)
  | none => let c := s.choice o.todo.length; (nth 0 o.todo c.1, c.2)

/-- The access of an operation whose frame was lost, once its patience is over; `wait` while it is not (R399). -/
inductive LostEnd where
  | none | wait | over (l : Lost)
  deriving DecidableEq, Repr

/-- How it stands with what an operation waits for. -/
def lostEnd (now : Nat) (l : Option Lost) : LostEnd :=
  match goneLost l with
  | none => .none
  | some l => if now < l.since + patience then .wait else .over l

/-- The next step of an operation, or its completion. -/
def nextIx (s : State) (clu id : Nat) (e : Event) : State :=
  match ixOf s clu id with
  | none => s
  | some o =>
    if o.todo.isEmpty then
      (if o.sent = 0 then s.spawn (.engineCompletion clu true id) else s)
    else spawnOnce s e

/-- Copy element `e` of a posting (R259): index, row, destination. -/
def copyElement (s : State) (o : IxOp) (e : Nat) : Except (Fail × Nat × Nat) State :=
  let d := o.desc
  let m := o.who.mod
  let rd (s : State) (a n : Nat) : Except (Fail × Nat) (Nat × State) :=
    sysRead (secFuel n) s m o.tenant o.part o.priv a n
  let iw := dfield d 0x28 4
  let len := dfield d 0x18 4
  match rd s (addrAdd (dfield d 8 8 % addrSpace) (e * iw : Nat)) iw with
  | .error (f, a) => .error (f, a, 0)
  | .ok (x, s1) =>
    match rd s1 (addrAdd (dfield d 0 8 % addrSpace) (x * dfield d 0x20 8 : Nat)) len with
    | .error (f, a) => .error (f, a, 0)
    | .ok (row, s2) =>
      let dst := addrAdd (dfield d 0x10 8 % addrSpace) (e * len : Nat)
      match sysWrite (secFuel len) s2 m o.tenant o.part o.priv dst len row with
      | .error (f, a) => .error (f, a, 1)
      | .ok s3 => .ok s3

/-- Element `e` has landed (R260): its bit of IXMASK is set. -/
def elementDone (s : State) (clu : Nat) (o : IxOp) (e : Nat) : State :=
  let s1 := s.modIx clu o.id fun y => { y with okMask := y.okMask ||| 2 ^ e, done := y.done + 1 }
  if o.posted then
    s1.modStrand o.who fun x => { x with csr := { x.csr with ixmask := x.csr.ixmask ||| word (2 ^ e) } }
  else s1

/-- IXE_ELEMENT_COPY (R260): one of the elements still to copy, in any order. -/
def execIxeElementCopy (clu id : Nat) (s : State) : Host.Outcome State Fault Refusal :=
  let s0 := beginIx s clu id
  match ixOf s0 clu id with
  | none => .next s0
  | some o =>
    if o.todo.isEmpty then .next s0
    else
      let (e, s1) := ixPick s0 o
      let s2 := s1.modIx clu id fun y => { y with todo := y.todo.filter (· ≠ e) }
      let s3 := match lostEnd s0.ticks o.lost with
        | .wait => s1
        | .over l => ixFail s2 clu o .unanswered l.addr l.access
        | .none =>
          match copyElement s2 o e with
          | .error (f, a, k) => ixLose s1 s2 clu o e f a k
          | .ok t => elementDone (ixGot t clu o) clu o e
      .next (nextIx s3 clu id (.ixeElementCopy clu id))

/-! ### Update tables and batches (R293-R295) -/

/-- A table of a tenant, if one is registered under the number (R293). -/
def tableOf (s : State) (m vf t : Nat) : Option UpdTable :=
  ((s.policy m vf).tables.find? fun e => decide (e.1 = t)).map (·.2)

/-- Bytes of a gradient element: code 1 has 4, code 3 has 2. -/
def gradSize (d : Nat) : Nat := if bits (dfield d 8 8) 63 60 = 1 then 4 else 2

/-- The reason for which EUPD rejects a descriptor (R294, R295). -/
def eupdReject (d : Nat) : Option Nat :=
  let g := dfield d 8 8
  if bits (dfield d 0 8) 63 56 ≠ 0 ∨ dfield d 0x14 4 ≠ 0 ∨ dfield d 0x1C 4 ≠ 0
      ∨ ¬(1 ≤ dfield d 0x18 4 ∧ dfield d 0x18 4 ≤ 64) ∨ 7 ≤ dfield d 0x38 1 ∨ dfield d 0x39 7 ≠ 0 then some 2
  else if ¬(bits g 63 60 = 1 ∨ bits g 63 60 = 3) ∨ bits g 59 56 ≠ 0 ∨ g % gradSize d ≠ 0 then some 4
  else if dfield d 0x28 8 % 8 ≠ 0 then some 9
  else none

/-- The entries and elements of a DIRECT batch, or the entries of a MERGE batch, that are still to do. -/
def eupdTodo (t : UpdTable) (n old : Nat) : List Nat :=
  let es := (List.range n).filter fun e => !bitAt old e
  if t.merge then es.map (· * 2048) else es.flatMap fun e => (List.range t.len).map (e * 2048 + ·)

/-- The bytes that an update batch at `x` names: its descriptor, whose DONEMASK it writes, indices, gradients and
completion word (R228). -/
def updRuns (d x len : Nat) : List (Nat × Nat) :=
  let n := dfield d 0x18 4
  [(x, 64), (dfield d 0 8, n * 4), (dfield d 8 8, n * len * gradSize d)]
    ++ (if dfield d 0x28 8 = 0 then [] else [(dfield d 0x28 8, 8)])

/-- A launch of an update batch (R296). -/
def eupdLaunch (x d table : Nat) (t : UpdTable) (sc : Scope) (resume : Bool) : Act Word := do
  notBusy (updRuns d x t.len)
  let S ← launchScope sc
  let C ← carriedScope (dfield d 0x38 1)
  release S
  let s ← here
  if queueFull s.clu.ixe then parkOn .engine
  noteScope sc
  noteScope (Scope.ofCode (dfield d 0x38 1))
  let n := dfield d 0x18 4
  let old := if resume then dfield d 0x20 8 % 2 ^ n else 0
  let id := nextId s.clu.ixe true
  change fun u =>
    let o : IxOp :=
      { IxOp.start u id d x C with
        eupd := true, table := table, step := t.step, merge := t.merge, okMask := old,
        todo := eupdTodo t n old }
    let u1 := if resume then u else placedStore u (x + 0x20) 8 255 0
    queueIx u1 o .eupdDirectAdd
  pure (word id)

/-- EUPD without CLOSE (R295, R296). -/
def execEupd (d a b : GReg) (sc : Scope) (resume : Bool) (s : State) :
    Host.Outcome State Fault Refusal :=
  let x := addrOf (rg s a)
  let n := (rg s b).toNat % 256
  let reply (w : Word) : Act Unit := change fun t => wg t d w
  finish s (Act.res (do
    steady
    if s.clu.ixe.offline then reply (rejectWord 7)
    else if x % 64 ≠ 0 ∨ ownPlace s x 64 = false then reply (rejectWord 1)
    else do
      let dd ← placedLoad x 64 .load
      match eupdReject dd with
      | some r => reply (rejectWord r)
      | none =>
        match tableOf s s.cur.mod s.tenant n with
        | none => reply (rejectWord 5)
        | some t => do
          let w ← eupdLaunch x dd n t sc resume
          reply w) s)

/-! ### Applying a batch (R296) -/

/-- Read for an operation of the IXE. -/
def ixRead (s : State) (o : IxOp) (a n : Nat) : Except (Fail × Nat) (Nat × State) :=
  sysRead (secFuel n) s o.who.mod o.tenant o.part o.priv a n

/-- The row number of entry `e`; one beyond the table fails with code 0x08. -/
def entryRow (s : State) (o : IxOp) (t : UpdTable) (e : Nat) : Except (Fail × Nat) (Nat × State) :=
  let a := addrAdd (dfield o.desc 0 8 % addrSpace) (4 * e : Nat)
  match ixRead s o a 4 with
  | .error x => .error x
  | .ok (x, s1) => if t.nrows ≤ x then .error (.prot, a) else .ok (x, s1)

/-- The FP32 code of gradient element `j` of entry `e`: a BF16 value is exact in FP32. -/
def gradOf (s : State) (o : IxOp) (t : UpdTable) (e j : Nat) : Except (Fail × Nat) (Nat × State) :=
  let z := gradSize o.desc
  let a := addrAdd (dfield o.desc 8 8 % addrSpace) ((e * t.len + j) * z : Nat)
  match ixRead s o a z with
  | .error x => .error x
  | .ok (g, s1) => .ok (if z = 4 then g else g * 2 ^ 16, s1)

/-- The address of element `j` of row `x` of a table (R293). -/
def rowElem (t : UpdTable) (x j : Nat) : Nat := addrAdd (t.base % addrSpace) (x * t.stride + 4 * j : Nat)

/-- One atomic addition at the home of a row element (R296): no other access comes between. -/
def homeAdd (s : State) (o : IxOp) (a delta : Nat) : Except (Fail × Nat) State :=
  if bitAt a 55 then .error (.unpopulated, a)
  else
    match sysTarget s o.who.mod o.tenant a .atomic with
    | .error f => .error (f, a)
    | .ok (t, s1) =>
      match sysCheck s1 o.who.mod o.tenant o.priv .atomic t a with
      | .error e => .error e
      | .ok s2 =>
        match readTarget s2 t o.tenant a with
        | .error f => .error (f, a)
        | .ok (d, po, s3) =>
          if bitAt po (a % 128 / 8) then .error (.poison, a)
          else
            let v := fp32Add (d / 256 ^ (a % 128) % 2 ^ 32) delta
            match writeTarget s3 t o.tenant a (maskRange (a % 128) 4) (v * 256 ^ (a % 128)) 0 with
            | .error f => .error (f, a)
            | .ok s4 => .ok s4

/-- Set bits of DONEMASK in the descriptor of a batch (R294, R296); where it reads as poison, the record says so (R265). -/
def markDone (s : State) (clu : Nat) (o : IxOp) (mask : Nat) : State :=
  let a := o.daddr + 0x20
  match placedRead s o.who.mod o.tenant a 8 o.part o.priv with
  | .error (f, b) => ixFail s clu o f b Access.atomic.code
  | .ok (v, s1) =>
    match placedWrite s1 o.who.mod o.tenant a 8 (v ||| mask) o.part o.priv with
    | .error (f, b) => ixFail s1 clu o f b Access.atomic.code
    | .ok s2 => s2

/-- Entries of a mask have landed. -/
def entriesDone (s : State) (clu : Nat) (o : IxOp) (mask : Nat) : State :=
  (markDone s clu o mask).modIx clu o.id fun y =>
    { y with okMask := y.okMask ||| mask, done := y.done + popCount 64 mask }

/-- One element of a DIRECT batch (R296). -/
def directOne (s : State) (clu : Nat) (o : IxOp) (t : UpdTable) (e j : Nat) : State :=
  let less (u : State) : State := u.modIx clu o.id fun y => { y with todo := y.todo.filter fun w => decide (w / 2048 ≠ e) }
  let lose (u : State) (f : Fail) (a k : Nat) : State := ixLose s (less u) clu o (e * 2048 + j) f a k
  match entryRow s o t e with
  | .error (f, a) => lose s f a 0
  | .ok (x, s1) =>
    match gradOf s1 o t e j with
    | .error (f, a) => lose s1 f a 0
    | .ok (g, s2) =>
      let (dl, fl) := fp32Mul (dfield o.desc 0x10 4 ^^^ 2 ^ 31) g
      match homeAdd s2 o (rowElem t x j) dl with
      | .error (f, a) => lose (s2.modIx clu o.id fun y => { y with flags := y.flags ||| fl }) f a 2
      | .ok s3 =>
        let s4 := s3.modIx clu o.id fun y =>
          { y with lost := none, todo := y.todo.filter (· ≠ e * 2048 + j), flags := y.flags ||| fl }
        match ixOf s4 clu o.id with
        | none => s4
        | some y => if y.todo.all fun w => decide (w / 2048 ≠ e) then entriesDone s4 clu y (2 ^ e) else s4

/-- The other entries of a MERGE batch that name a row. -/
def sameRow (o : IxOp) (t : UpdTable) (x : Nat) : List Nat → State → List Nat × State
  | [], s => ([], s)
  | e :: es, s =>
    let r := entryRow s o t e
    match r with
    | .error _ => sameRow o t x es s
    | .ok (y, s1) =>
      let (l, s2) := sameRow o t x es s1
      (if y = x then e :: l else l, s2)

/-- Element `j` of the gradients of some entries. -/
def gradsOf (o : IxOp) (t : UpdTable) (j : Nat) : List Nat → State → Except (Fail × Nat) (List Nat × State)
  | [], s => .ok ([], s)
  | e :: es, s =>
    match gradOf s o t e j with
    | .error x => .error x
    | .ok (g, s1) =>
      match gradsOf o t j es s1 with
      | .error x => .error x
      | .ok (gs, s2) => .ok (g :: gs, s2)

/-- The merged row G of some entries (R296), elements from `j` on, and the flags. -/
def mergedRow (o : IxOp) (t : UpdTable) (es : List Nat) :
    Nat → Nat → State → Except (Fail × Nat) ((List Nat × Nat) × State)
  | 0, _, s => .ok (([], 0), s)
  | n + 1, j, s =>
    match gradsOf o t j es s with
    | .error x => .error x
    | .ok (gs, s1) =>
      let (g, fl) := quadsum .fp32 0 (gs.map (decodeNum .fp32))
      match mergedRow o t es n (j + 1) s1 with
      | .error x => .error x
      | .ok ((rest, fl'), s2) => .ok ((g :: rest, fl ||| fl'), s2)

/-- The rights of an addition to a row, and the package that holds it (R296, R298). -/
def rowHome (s : State) (o : IxOp) (a : Nat) : Except (Fail × Nat) (Nat × State) :=
  if bitAt a 55 then .error (.unpopulated, a)
  else
    match sysTarget s o.who.mod o.tenant a .atomic with
    | .error f => .error (f, a)
    | .ok (t, s1) =>
      match sysCheck s1 o.who.mod o.tenant o.priv .atomic t a with
      | .error e => .error e
      | .ok s2 => .ok (t.mod, s2)

/-- One row of a MERGE batch (R296): the entries that name it are merged and sent to its home. -/
def mergeOne (s : State) (clu : Nat) (o : IxOp) (t : UpdTable) (e : Nat) : State :=
  let drop (u : State) (l : List Nat) : State :=
    u.modIx clu o.id fun y => { y with todo := y.todo.filter fun w => !l.contains (w / 2048) }
  match entryRow s o t e with
  | .error (f, a) => ixLose s (drop s [e]) clu o (e * 2048) f a 0
  | .ok (x, s1) =>
    let (es, s2) := sameRow o t x ((o.todo.map (· / 2048)).mergeSort) s1
    let a := rowElem t x 0
    match mergedRow o t es t.len 0 s2 with
    | .error (f, a') => ixLose s (drop s2 es) clu o (e * 2048) f a' 0
    | .ok ((g, fl), s3) =>
      let formed (u : State) : State := (drop u es).modIx clu o.id fun y => { y with flags := y.flags ||| fl }
      match rowHome s3 o a with
      | .error (f, a') => ixLose s (formed s3) clu o (e * 2048) f a' 2
      | .ok (m, s4) =>
      let mask := es.foldl (fun q i => q ||| 2 ^ i) 0
      let s5 := (formed s4).modIx clu o.id fun y => { y with lost := none, sent := y.sent + 1 }
      (s5.note (.merge m o.tenant o.table o.step x a g clu o.id mask)).spawn (.mergeContribution m)

/-- EUPD_DIRECT_ADD (R296): the next element of a DIRECT batch, or the next row that a MERGE batch sends, in any
order. -/
def execEupdDirectAdd (clu id : Nat) (s : State) : Host.Outcome State Fault Refusal :=
  let s0 := beginIx s clu id
  match ixOf s0 clu id with
  | none => .next s0
  | some o =>
    if o.todo.isEmpty then .next s0
    else
      let (w, s1) := ixPick s0 o
      let less : State := s1.modIx clu id fun y => { y with todo := y.todo.filter fun v => decide (v / 2048 ≠ w / 2048) }
      let s2 := match lostEnd s0.ticks o.lost, tableOf s1 o.who.mod o.tenant o.table with
        | .wait, _ => s1
        | .over l, _ => ixFail less clu o .unanswered l.addr l.access
        | .none, none => ixFail less clu o .prot 0 2
        | .none, some t =>
          if o.merge then mergeOne s1 clu o t (w / 2048) else directOne s1 clu o t (w / 2048) (w % 2048)
      .next (nextIx s2 clu id (.eupdDirectAdd clu id))

/-! ### Merge tables (R296, R297) -/

/-- The lowest step that a home has not closed yet. -/
def openStep (x : Module) (vf table : Nat) : Nat := fget 0 x.openSteps (vf * 256 + table)

/-- The rows of a step of a merge table. -/
def mergeRows (x : Module) (vf table step : Nat) : List (Nat × List Nat) :=
  match x.merges.find? fun t => decide (t.vf = vf ∧ t.table = table ∧ t.step = step) with
  | none => []
  | some t => t.rows

/-- Replace the rows of a step of a merge table. -/
def setMergeRows (x : Module) (vf table step : Nat) (rows : List (Nat × List Nat)) : Module :=
  let other := x.merges.filter fun t => decide (¬(t.vf = vf ∧ t.table = table ∧ t.step = step))
  if rows.isEmpty then { x with merges := other }
  else { x with merges := { vf := vf, table := table, step := step, rows := rows } :: other }

/-- Step `x` of a table comes before step `y`: step numbers have 32 bits (R293). -/
def stepBefore (x y : Nat) : Bool := decide (x ≠ y ∧ (y + 2 ^ 32 - x) % 2 ^ 32 < 2 ^ 31)

/-- Add two rows of FP32 elements. -/
def addRows : List Nat → List Nat → List Nat
  | m :: ms, g :: gs => fp32Add m g :: addRows ms gs
  | _, _ => []

/-- The home answers for a merged row of an operation: its entries have landed, or have found no room (R296). -/
def rowArrived (s : State) (clu id mask addr : Nat) (good : Bool) : State :=
  match ixOf s clu id with
  | none => s
  | some o =>
    let s1 := s.modIx clu id fun y => { y with sent := y.sent - 1 }
    let s2 :=
      if good then entriesDone s1 clu o mask
      else
        postCode (s1.modIx clu id fun y =>
          { y with failed := true, fault := if y.fault = 0 then 0x32 else y.fault,
                   faddr := if y.fault = 0 then addr else y.faddr }) o.who o.tenant 0x32 addr 2 2 id
    nextIx s2 clu id (.eupdDirectAdd clu id)

/-- MERGE_CONTRIBUTION (R296, R297): a merged row enters its step's merge table in one step; one that comes
after the close of its step enters the next step and is counted. -/
def execMergeContribution (m : Nat) (s : State) : Host.Outcome State Fault Refusal :=
  let f (n : Note) : Option (Nat × Nat × Nat × Nat × Nat × List Nat × Nat × Nat × Nat) :=
    match n with
    | .merge q vf table step row addr g clu id mask =>
      if q = m then some (vf, table, step, row, addr, g, clu, id, mask) else none
    | _ => none
  match takeNote f s.notes with
  | none => .next s
  | some ((vf, table, step, row, addr, g, clu, id, mask), rest) =>
    let s1 := { s with notes := rest }
    let x := s1.modOf m
    let late := stepBefore step (openStep x vf table)
    let st := if late then openStep x vf table else step
    let rows := mergeRows x vf table st
    let known := rows.any fun e => decide (e.1 = row)
    let cap := ((tableOf s1 m vf table).map (·.mcap)).getD 0
    if !known && decide (cap ≤ rows.length) then .next (rowArrived s1 clu id mask addr false)
    else
      let old := fget (g.map fun _ => 0) rows row
      let s2 := s1.modMod m fun y => setMergeRows y vf table st (fset rows row (addRows old g))
      let s3 := if late then s2.count (dieKey m 0) 7 else s2
      .next (rowArrived s3 clu id mask addr true)

/-- The request number that stands for a close. -/
def askClose : Nat := 21

/-- Each module's registration of a table takes the next step (R297). -/
def advanceStep (s : State) (vf table : Nat) : State :=
  let bump (p : Policy) : Policy :=
    { p with tables := p.tables.map fun e =>
        if e.1 = table then (e.1, { e.2 with step := (e.2.step + 1) % 2 ^ 32 }) else e }
  (s.mods.map (·.1)).foldl (fun t m => t.modPolicy m vf bump) s

/-- A close sets out to every package (R297). -/
def sendClose (s : State) (vf table step lr : Nat) : State :=
  let ms := s.mods.map (·.1)
  let s1 := ms.foldl (fun t m => (t.note (.close m vf table step lr s.cur)).spawn (.mergeClose m)) s
  s1.modMod s.cur.mod fun x =>
    { x with closings := x.closings ++ [{ src := s.cur, step := step, acks := ms }] }

/-- EUPD.close (R295, R297). -/
def execEupdClose (d a b : GReg) (_sc : Scope) (s : State) : Host.Outcome State Fault Refusal :=
  let n := (rg s b).toNat % 256
  let lr := (rg s a).toNat % 2 ^ 32
  let reply (w : Word) : Act Unit := change fun t => wg t d w
  finish s (Act.res (
    match unitAnswer s.me with
    | some (_, v) => do
      noteClamp .ten
      reply (word v)
    | none =>
      if hasAsked s.me askClose then parkOn .mem
      else
        match tableOf s s.cur.mod s.tenant n with
        | none => reply (rejectWord 5)
        | some t =>
          if t.merge = false then reply (rejectWord 11)
          else do
            let S ← clamp .ten
            release S
            change fun u =>
              sendClose (advanceStep (ask u askClose) u.tenant n) u.tenant n t.step lr
            parkSent .mem) s)

/-- Apply a merged row to its table row at a close (R297): elements from `j` on. -/
def applyRow (m : Nat) (vf : Nat) (t : UpdTable) (row lr : Nat) : List Nat → Nat → State → State
  | [], _, s => s
  | mx :: ms, j, s =>
    let a := rowElem t row j
    let s' :=
      match target s m vf a with
      | .error _ => s
      | .ok (tg, s1) =>
        match readTarget s1 tg vf a with
        | .error _ => s1
        | .ok (d, _, s2) =>
          let old := d / 256 ^ (a % 128) % 2 ^ 32
          let v := fp32Add old ((fp32Mul lr mx).1 ^^^ 2 ^ 31)
          match writeTarget s2 tg vf a (maskRange (a % 128) 4) (v * 256 ^ (a % 128)) 0 with
          | .error _ => s2
          | .ok s3 => s3
    applyRow m vf t row lr ms (j + 1) s'

/-- MERGE_CLOSE (R297): after every contribution that reached this home before it. -/
def execMergeClose (m : Nat) (s : State) : Host.Outcome State Fault Refusal :=
  let f (n : Note) : Option (Nat × Nat × Nat × Nat × Place) :=
    match n with
    | .close q vf table step lr who => if q = m then some (vf, table, step, lr, who) else none
    | _ => none
  match takeNote f s.notes with
  | none => .next s
  | some ((vf, table, step, lr, who), rest) =>
    let s1 := { s with notes := rest }
    let rows := mergeRows (s1.modOf m) vf table step
    let s2 := match tableOf s1 m vf table with
      | none => s1
      | some t => rows.foldl (fun (u : State) (e : Nat × List Nat) => applyRow m vf t e.1 lr e.2 0 u) s1
    let s3 := s2.modMod m fun x =>
      let y := setMergeRows x vf table step []
      { y with openSteps := fset y.openSteps (vf * 256 + table) ((step + 1) % 2 ^ 32) }
    .next ((s3.note (.closeAck m who)).spawn (.closeAck who))

/-- CLOSE_ACK (R297): with the last acknowledgement the closing strand has its answer. -/
def execCloseAck (src : Place) (s : State) : Host.Outcome State Fault Refusal :=
  let f (n : Note) : Option Nat :=
    match n with
    | .closeAck m who => if who = src then some m else none
    | _ => none
  match takeNote f s.notes with
  | none => .next s
  | some (m, rest) =>
    let s1 := { s with notes := rest }
    let got (c : Closing) : Closing := { c with acks := c.acks.filter (· ≠ m) }
    let upd := mapFirst (fun c => decide (c.src = src)) got (s1.modOf src.mod).closings
    let s2 := s1.modMod src.mod fun x => { x with closings := upd.filter fun c => !c.acks.isEmpty }
    match upd.find? fun c => decide (c.src = src) with
    | some c => if c.acks.isEmpty then .next (giveAnswer s2 src 0 c.step) else .next s2
    | none => .next s2

/-! ### Completion (R247, R260, R296) -/

/-- Every bit of COUNT is set. -/
def allLanded (o : IxOp) : Bool :=
  let n := if o.eupd then dfield o.desc 0x18 4 else dfield o.desc 0x1C 4
  decide (o.okMask % 2 ^ n = 2 ^ n - 1)

/-- The completion of an operation of the IXE: record, completion word, event latch.
A full ring holds it before its record (R248). -/
def completeIx (s : State) (clu : Nat) (o : IxOp) : State :=
  if !o.todo.isEmpty || decide (o.sent ≠ 0) then s
  else if ringFull (s.cluOf clu) then
    ((if o.held then s else s.count o.who.dieKey 10).modIx clu o.id fun y => { y with held := true }).again
      (.engineCompletion clu true o.id)
  else
    let status := if o.killed then 1 else if o.failed then 2 else 0
    let cw := if o.eupd then dfield o.desc 0x28 8 else dfield o.desc 0x30 8
    let cv := if o.eupd then dfield o.desc 0x30 8 else dfield o.desc 0x38 8
    let writes := decide (cw ≠ 0) && allLanded o && !o.killed
    match (if writes then wordHeld s o.who o.tenant o.part o.priv (cw % addrSpace) o.lost else none) with
    | some f =>
      ((noteLost s f).modIx clu o.id fun y => { y with lost := some (Lost.wait s.ticks o.lost f (cw % addrSpace) 1 0) }).again
        (.engineCompletion clu true o.id)
    | none =>
    let s1 := writeRecord s clu
      (recordOf o.id status o.fault (recordFlags o.flags) o.who o.done)
    let s2 := if writes then
        completionWord s1 o.who o.tenant o.part o.priv (cw % addrSpace) cv 2 o.id
      else s1
    let s3 := if o.posted then s2.modStrand o.who setLatch else s2
    let s4 := s3.modClu clu fun c =>
      { c with ixe := setState (dropOp c.ixe IxOp.id o.id) o.id
                 { st := if status = 0 then 2 else 3, fault := o.fault, done := o.done } }
    pokeEngine s4 clu

/-- ENGINE_COMPLETION (R247). -/
def execEngineCompletion (clu : Nat) (ixe : Bool) (id : Nat) (s : State) :
    Host.Outcome State Fault Refusal :=
  if ixe then
    match ixOf s clu id with
    | none => .next s
    | some o => .next (completeIx s clu o)
  else
    match xferOf s clu id with
    | none => .next s
    | some x => .next (completeXfer s clu x)

/-! ### Offline engines (R265) -/

/-- ENGINE_OFFLINE (R265): queued and active operations end with STATUS 1 and code 0x0C. -/
def execEngineOffline (clu : Nat) (ixe : Bool) (s : State) : Host.Outcome State Fault Refusal :=
  let s1 := s.count (cluDie clu) 10
  if ixe then
    let kill (o : IxOp) : IxOp :=
      { o with killed := true, failed := true, todo := [], sent := 0, fault := if o.fault = 0 then 0x0C else o.fault }
    let e := (s.cluOf clu).ixe
    let ids := (e.active ++ e.queue).map (·.id)
    let s2 := s1.modClu clu fun c =>
      { c with ixe := { c.ixe with offline := true, queue := c.ixe.queue.map kill, active := c.ixe.active.map kill } }
    .next (s2.spawns (ids.map fun i => .engineCompletion clu true i))
  else
    let e := (s.cluOf clu).bte
    let ids := (e.active ++ e.queue).map (·.id)
    let s2 := s1.modClu clu fun c => { c with bte := { c.bte with offline := true } }
    .next (ids.foldl (fun t i => failXfer t clu i 0x0C 0) s2)

end Sys2Proof.Machine
end

