-- ==== Sys2Proof/Machine/Atomics.lean ====
section
/-! DEFINITION. The atomics, near and far, and the atomic launch of an engine (R166-R169, R245, R434). -/

namespace Sys2Proof.Machine

open Sys2Proof

/-- The request number that stands for a far atomic on its way. -/
def farKey (a : Nat) : Nat := a / 128 * 8 + 6

/-- The answer to a far atomic that the bundle holds. -/
def oldResp (x : Strand) : Option (LineStatus × Nat × Bool) :=
  x.resps.findSome? fun
    | Resp.old st v po => some (st, v, po)
    | _ => none

/-- An atomic at a bank of the own core or cluster (R168). -/
def amoPlaced (a w : Nat) (op : AmoOp) (v e : Nat) : Act Nat := do
  let old ← placedLoad a w .atomic
  match amoNew op w old v e with
  | none => pure ()
  | some x => change fun s => placedStore s a w (2 ^ w - 1) x
  pure old

/-- An atomic in the core's L1 (R168), where the sector stands: no TTMASK bit is set (R157). A sector that has left the L1
since it came is asked for again, so that nothing comes between the read and the write (R331). -/
def amoNear (a w : Nat) (op : AmoOp) (v e : Nat) : Act Nat := fun s =>
  let again : Except Res (Nat × State) := request a .atomic true true (s.modMe (Strand.forget (a / 128)))
  match l1Line s.core a, l1Sec s.core a with
  | some l, some o =>
    if o.serves a w = false then again
    else if poisonHit o.poison a w then memTrap .dataError a .atomic s
    else
      let old := o.data / 256 ^ (a % 128) % 256 ^ w
      match amoNew op w old v e with
      | none => .ok (old, s)
      | some x => .ok (old, l1Write s a w (2 ^ w - 1) x l { o with near := true })
  | _, _ => again

/-- A far atomic sets out (R169): the dirty bytes of its sector go ahead of it, the sector leaves the L1, and
no fill that was answered before enters it. -/
def sendFar (s : State) (a : Nat) (wid : Width) (op : AmoOp) (v e : Nat) (at' : Attr) (posted : Bool) :
    State :=
  let p := s.cur
  let mine (b : Nat) (_ : L1Sec) : Bool := decide (b = a / 128 * 128)
  let s1 := (dropWhere (writeBackWhere s p.coreKey mine) p.coreKey mine).overtake p.coreKey (a / 128)
  ((markTarget s1 a at').send (Msg.make p s.tenant (.amo a wid op v e at' posted))).spawn
    (.farAtomicExecute p.mod p)

/-- The old value that a far atomic returned, or how it ended. -/
def farResult (a : Nat) (st : LineStatus) (x : Nat) (po : Bool) : Act Nat :=
  match st with
  | .ok => if po then memTrap .dataError a .atomic else pure x
  | .absent => absent a .atomic
  | .malformed | .unpopulated => memTrap .prot a .atomic
  | .unanswered | .poisoned => memTrap .dataError a .atomic

/-- An atomic on translated memory (R168, R169, R434): far unless NEAR is set and the leaf of a part of this
package is cacheable. The release of RL comes after its checks, so that a bundle that traps has released
nothing. -/
def amoGlobal (a : Nat) (wid : Width) (op : AmoOp) (v e : Nat) (near posted : Bool) (rel : Act Unit) :
    Act Nat := do
  let s ← here
  match oldResp s.me with
  | some (st, x, po) => farResult a st x po
  | none =>
    if hasAsked s.me (farKey a) then parkOn .mem
    else do
      let (at', _, _) ← sectorFor a wid.bytes .atomic near near
      rel
      if near && at'.c && decide (at'.holder = s.pkgOf s.cur.mod) then amoNear a wid.bytes op v e
      else if posted then do
        change fun t => sendFar t a wid op v e at' true
        pure 0
      else fun t => .error (.park .mem true (ask (sendFar t a wid op v e at' false) (farKey a)))

/-- An atomic to a launch register (R245): the descriptor lies in the strand's own memories. `sc` is the atomic's scope,
of which a clamp is counted first (R338). -/
def amoLaunch (off desc : Nat) (sc : Scope) : Act Word := do
  steady
  let s ← here
  let size := if off = 0x4000000 then 104 else 64
  if desc % (if off = 0x4000000 then 8 else 64) ≠ 0 || !ownPlace s desc size then do
    noteScope sc
    pure (rejectWord 8)
  else do
    let x ← load desc size true
    if off = 0x4000000 then bteLaunch ((List.range 13).map fun i => word (lane x 64 i)) .none sc
    else ixLaunch x desc .none sc false false

/-- An atomic (R167): its result goes to `d`. -/
def atomic (op : AmoOp) (d a b : GReg) (wid : Width) (sc : Scope) (near rl aq : Bool) : Act Unit := do
  let s ← here
  let w := wid.bytes
  let x := addrOf (rg s a)
  let v := (rg s b).toNat % 256 ^ w
  let e := (rg s d).toNat % 256 ^ w
  aligned x w .atomic
  let S ← optScope sc
  let rel : Act Unit := if rl then release S else pure ()
  let old ←
    if bitAt x 55 then
      if bits x 55 54 = 2 ∧ launchReg (x % 2 ^ 27) then do
        placedCheck x .atomic
        if w ≠ 8 then memTrap .prot x .launch
        else do
          rel
          let r ← amoLaunch (x % 2 ^ 27) (addrOf (rg s b)) sc
          pure r.toNat
      else do
        placedStoreCheck x .atomic
        rel
        let old ← amoPlaced x w op v e
        noteScope sc
        pure old
    else do
      let old ← amoGlobal x wid op v e near (decide (d = 0) && !aq) rel
      noteScope sc
      pure old
  change fun t => wg t d (word old)
  if aq then acquire S

/-- AMOADD (R167). -/
def execAmoadd (d a b : GReg) (wid : Width) (sc : Scope) (near rl aq : Bool) (s : State) :
    Host.Outcome State Fault Refusal :=
  finish s (Act.res (atomic .add d a b wid sc near rl aq) s)

/-- AMOAND (R167). -/
def execAmoand (d a b : GReg) (wid : Width) (sc : Scope) (near rl aq : Bool) (s : State) :
    Host.Outcome State Fault Refusal :=
  finish s (Act.res (atomic .and d a b wid sc near rl aq) s)

/-- AMOOR (R167). -/
def execAmoor (d a b : GReg) (wid : Width) (sc : Scope) (near rl aq : Bool) (s : State) :
    Host.Outcome State Fault Refusal :=
  finish s (Act.res (atomic .or d a b wid sc near rl aq) s)

/-- AMOXOR (R167). -/
def execAmoxor (d a b : GReg) (wid : Width) (sc : Scope) (near rl aq : Bool) (s : State) :
    Host.Outcome State Fault Refusal :=
  finish s (Act.res (atomic .xor d a b wid sc near rl aq) s)

/-- AMOMIN (R167). -/
def execAmomin (d a b : GReg) (wid : Width) (sc : Scope) (near rl aq : Bool) (s : State) :
    Host.Outcome State Fault Refusal :=
  finish s (Act.res (atomic .min d a b wid sc near rl aq) s)

/-- AMOMAX (R167). -/
def execAmomax (d a b : GReg) (wid : Width) (sc : Scope) (near rl aq : Bool) (s : State) :
    Host.Outcome State Fault Refusal :=
  finish s (Act.res (atomic .max d a b wid sc near rl aq) s)

/-- AMOMINU (R167). -/
def execAmominu (d a b : GReg) (wid : Width) (sc : Scope) (near rl aq : Bool) (s : State) :
    Host.Outcome State Fault Refusal :=
  finish s (Act.res (atomic .minu d a b wid sc near rl aq) s)

/-- AMOMAXU (R167). -/
def execAmomaxu (d a b : GReg) (wid : Width) (sc : Scope) (near rl aq : Bool) (s : State) :
    Host.Outcome State Fault Refusal :=
  finish s (Act.res (atomic .maxu d a b wid sc near rl aq) s)

/-- AMOSWP (R167). -/
def execAmoswp (d a b : GReg) (wid : Width) (sc : Scope) (near rl aq : Bool) (s : State) :
    Host.Outcome State Fault Refusal :=
  finish s (Act.res (atomic .swp d a b wid sc near rl aq) s)

/-- AMOCAS (R167). -/
def execAmocas (d a b : GReg) (wid : Width) (sc : Scope) (near rl aq : Bool) (s : State) :
    Host.Outcome State Fault Refusal :=
  finish s (Act.res (atomic .cas d a b wid sc near rl aq) s)

/-- AMOFADD (R167). -/
def execAmofadd (d a b : GReg) (wid : Width) (sc : Scope) (near rl aq : Bool) (s : State) :
    Host.Outcome State Fault Refusal :=
  finish s (Act.res (atomic .fadd d a b wid sc near rl aq) s)

/-- AMOFMAX (R167). -/
def execAmofmax (d a b : GReg) (wid : Width) (sc : Scope) (near rl aq : Bool) (s : State) :
    Host.Outcome State Fault Refusal :=
  finish s (Act.res (atomic .fmax d a b wid sc near rl aq) s)

end Sys2Proof.Machine
end

