-- ==== Sys2Proof/Machine/Kle.lean ====
section
/-! DEFINITION. The key-lookup engine: descriptors, contexts, KLSET, KLOOK, KLWAIT, KLRES and EBAG
(R267-R273, R279-R284, R290, R291). -/

namespace Sys2Proof.Machine

open Sys2Proof

/-! ### Where a lookup may read and write (R269) -/

/-- `n` bytes at `a` lie in the strand's own cluster scratchpad or in its tenant's pinned region. -/
def inSpadOrPinned (s : State) (a n : Nat) : Bool :=
  if bitAt a 55 then
    decide (bits a 55 54 = 2) && decide (placedPkg a = s.pkgOf s.cur.mod)
      && decide (spadClu s.cur.mod a = s.cur.cluKey ∧ a % 2 ^ 27 + n ≤ spadSize s.clu)
  else inPinned s s.cur.mod s.tenant a && decide (a % 2 ^ 34 + n ≤ pinnedSize s s.cur.mod s.tenant)

/-- `n` bytes of OUT at `a`: translated space, the own scratchpad, or a TCM of the cluster. -/
def outPlace (s : State) (a n : Nat) : Bool :=
  if bitAt a 55 then
    decide (placedPkg a = s.pkgOf s.cur.mod)
      && (if bits a 55 54 = 3 then
            decide (coreClu (tcmCore s.cur.mod a) = s.cur.cluKey ∧ a % 2 ^ 23 + n ≤ 2 ^ 16)
          else decide (spadClu s.cur.mod a = s.cur.cluKey ∧ a % 2 ^ 27 + n ≤ spadSize s.clu))
  else true

/-- Fields of a lookup or bag descriptor (R269, R290). -/
def dN (d : Nat) : Nat := dfield d 0x38 2
def dL (d : Nat) : Nat := dfield d 0x3A 2
def dDh (d : Nat) : Nat := dfield d 0x3C 1 + 1
def dKh (d : Nat) : Nat := dfield d 0x3D 1
def dKo (d : Nat) : Nat := dfield d 0x3E 1
def dVt (d : Nat) : Nat := dfield d 0x10 8
def dOut (d : Nat) : Nat := dfield d 0x20 8
def dMode (d : Nat) : Nat := bits (dfield d 0x3F 1) 1 0
def dHot (d : Nat) : Bool := bitAt (dfield d 0x3F 1) 2
def dAuto (d : Nat) : Bool := bitAt (dfield d 0x3F 1) 3
def dScope (d : Nat) : Nat := bits (dfield d 0x3F 1) 6 4

/-- Bytes of a value row, of OUT, and of a sub-key table. -/
def vrowBytes (d : Nat) : Nat := rowLen (ptrCode (dVt d)) (ptrK (dVt d)) (dL d)
def outBytes (d : Nat) : Nat := dL d * elemBits (ptrCode (dOut d)) / 8
def keyBytes (d p : Nat) : Nat := dN d * dDh d * elemBits (ptrCode p) / 8

/-- A value table or OUT lies where R269 forbids (reason 3). -/
def tablesBad (s : State) (d : Nat) : Bool :=
  bitAt (dVt d) 55 || !outPlace s (dOut d % addrSpace) (outBytes d)

/-- Formats that R269 does not allow for VT and OUT (reason 4). -/
def formatsBad (d : Nat) : Bool :=
  let c := ptrCode (dVt d)
  decide (¬(1 ≤ c ∧ c ≤ 8)) || fmtBad c (ptrK (dVt d))
    || (decide (c = 7 ∨ c = 8) && decide (dL d % 2 ^ ptrK (dVt d) ≠ 0))
    || (decide (c = 6) && decide (dL d % 2 ≠ 0))
    || decide (¬(1 ≤ ptrCode (dOut d) ∧ ptrCode (dOut d) ≤ 5) ∨ ptrK (dOut d) ≠ 0)

/-- A sub-key pointer's format (reason 4). -/
def keyFmtBad (p : Nat) : Bool := decide (¬(2 ≤ ptrCode p ∧ ptrCode p ≤ 4) ∨ ptrK p ≠ 0)

/-- The reason for which KLSET rejects a descriptor: 2, 3, 4, 9, in that order (R281). -/
def lookReject (s : State) (d : Nat) : Option Nat :=
  let h0 := dfield d 0 8
  let h1 := dfield d 8 8
  if ¬(1 ≤ dN d ∧ dN d ≤ 4096) ∨ ¬(1 ≤ dL d ∧ dL d ≤ 1024) ∨ ¬(1 ≤ dKh d ∧ dKh d ≤ Nat.min 32 (dN d))
      ∨ ¬(1 ≤ dKo d ∧ dKo d ≤ Nat.min 32 (dKh d * dKh d)) ∨ dScope d = 7 ∨ 128 ≤ dfield d 0x3F 1 then some 2
  else if !inSpadOrPinned s (h0 % addrSpace) (keyBytes d h0) || !inSpadOrPinned s (h1 % addrSpace) (keyBytes d h1)
      || tablesBad s d then some 3
  else if keyFmtBad h0 || keyFmtBad h1 || formatsBad d then some 4
  else if dfield d 0x28 8 % 8 ≠ 0 then some 9
  else none

/-- The reason for which EBAG rejects a descriptor: 2, 3, 4, 9, in that order (R290, R291). -/
def bagReject (s : State) (d : Nat) : Option Nat :=
  let w := dfield d 8 8
  if bits (dfield d 0 8) 63 56 ≠ 0 ∨ ¬(1 ≤ dL d ∧ dL d ≤ 1024) ∨ dfield d 0x38 2 ≠ 0 ∨ dfield d 0x3C 3 ≠ 0
      ∨ dScope d = 7 ∨ dfield d 0x3F 1 < 128 ∨ ((2 ≤ dMode d) ≠ (w ≠ 0)) then some 2
  else if tablesBad s d then some 3
  else if (decide (w ≠ 0) && decide (¬(1 ≤ ptrCode w ∧ ptrCode w ≤ 3) ∨ ptrK w ≠ 0)) || formatsBad d then some 4
  else if dfield d 0x28 8 % 8 ≠ 0 then some 9
  else none

/-! ### Contexts and tickets (R267, R270, R271) -/

/-- Context `i` of a cluster exists (R267). -/
def ctxExists (c : Cluster) (i : Nat) : Bool :=
  decide (i < c.knctx ∧ i < 64 ∧ c.kbase + 0x1200 * (i + 1) ≤ spadSize c)

/-- The lowest Free context. -/
def freeCtx (c : Cluster) : Option Nat :=
  (List.range 64).find? fun i => ctxExists c i && decide ((kctx c i).st = 0)

/-- Every context of a die, with its cluster and number. -/
def dieCtxs (s : State) (dk : Nat) : List (Nat × Nat × KCtx) :=
  (s.clusters.filter fun e => decide (cluDie e.1 = dk)).flatMap fun e => e.2.kctx.map fun x => (e.1, x.1, x.2)

/-- A ticket may be issued (R270): no Pending lookup of the die holds the one half a circle before it. -/
def ticketFree (s : State) (dk : Nat) : Bool :=
  let t := (s.dieOf dk).ticketCtr
  (dieCtxs s dk).all fun e => decide (e.2.2.st ≠ 1 ∨ e.2.2.ticket ≠ (t + 32768) % 65536)

/-- The ticket that the die issues next is taken. -/
def takeTicket (s : State) (dk : Nat) : State :=
  s.modDie dk fun d => { d with ticketCtr := (d.ticketCtr + 1) % 65536 }

/-- A tag (R270). -/
def tagOf (i gen ticket : Nat) : Nat := i * 2 ^ 26 + gen % 1024 * 2 ^ 16 + ticket % 65536

/-- A tag that names no live context of the tenant (R271). -/
def staleTag (s : State) (tag : Nat) : Bool :=
  let x := kctx s.clu (bits tag 31 26)
  !ctxExists s.clu (bits tag 31 26) || decide (x.st = 0) || decide (x.gen % 1024 ≠ bits tag 25 16)
    || decide (x.tenant ≠ s.tenant)

/-! ### Records (R273, R279) -/

/-- NX UF OF NV of a lookup at bits 34-37. -/
def statusFlags (fl : Nat) : Nat :=
  fl % 2 * 2 ^ 34 + fl / 2 % 2 * 2 ^ 35 + fl / 4 % 2 * 2 ^ 36 + fl / 16 % 2 * 2 ^ 37

/-- STATUS of a context in the layout of KLSTAT (R279). -/
def statusWord (x : KCtx) (tag : Nat) : Nat :=
  (if x.st = 3 then 2 ^ 62 else 0) + x.fcode * 2 ^ 48 + popCount 32 x.doneMask * 2 ^ 40 + b2n x.nans * 2 ^ 39
    + b2n x.winv * 2 ^ 38 + statusFlags x.flags + tag % 2 ^ 32

/-- Write bytes of a cluster's scratchpad, as its engines do. -/
def spadPut (s : State) (clu off n v : Nat) : State :=
  fireMonitors (s.modClu clu fun c =>
    { c with spad := Memory.writeN c.spad off n v, spadPoison := clearWords c.spadPoison off n })
    clu (spadAddr s clu off) n

/-- 32 words of a list, with a value for unused ranks. -/
def rankWords (l : List Nat) (unused : Nat) : Nat :=
  packLanes 32 ((List.range 32).map fun r => nth unused l r)

/-- Bytes 0x000-0x1FF of a context record (R273). -/
def recordBytes (x : KCtx) (i : Nat) : Nat :=
  ctxWord x + statusWord x (tagOf i x.gen x.ticket) * 256 ^ 8 + x.faddr * 256 ^ 0x10
    + x.doneMask % 2 ^ 32 * 256 ^ 0x18 + x.phase * 256 ^ 0x1C + x.desc * 256 ^ 0x20
    + x.query % 2 ^ 64 * 256 ^ 0x60 + x.seed % 2 ^ 32 * 256 ^ 0x68 + rankWords x.rows 0xFFFFFFFF * 256 ^ 0x80
    + rankWords x.weights 0 * 256 ^ 0x100 + rankWords x.scores 0 * 256 ^ 0x180

/-- Where a context's record lies. -/
def recordOff (c : Cluster) (i : Nat) : Nat := c.kbase + 0x1200 * i

/-- Write a record as its context leaves Pending; PSUM when it becomes Faulted (R273). -/
def putRecord (s : State) (clu i : Nat) : State :=
  let c := s.cluOf clu
  let x := kctx c i
  let s1 := spadPut s clu (recordOff c i) 0x200 (recordBytes x i)
  if x.st = 3 then spadPut s1 clu (recordOff c i + 0x200) 4096 (packLanes 32 x.acc) else s1

/-- The answer that a parked KLWAIT returns for a Done lookup: DONEMASK, STATUS and the scope. -/
def doneAnswer (x : KCtx) (tag : Nat) : Resp :=
  .unit (x.scope.code + 8 * (x.doneMask % 2 ^ 32)) (statusWord x tag)

/-- The strands parked in KLWAIT learn that a context has left Pending (R283). -/
def tellWaiters (s : State) (clu i : Nat) : State :=
  let x := kctx (s.cluOf clu) i
  let tag := tagOf i x.gen x.ticket
  let tell (t : State) (p : Place) : State :=
    t.modStrand p fun y =>
      (if x.st = 2 then { y with resps := y.resps ++ [doneAnswer x tag] } else y).wakeIf [.klwait]
  x.waiters.foldl tell s

/-- A lookup becomes Faulted (R276, R287): counted, recorded, and its waiters wake. -/
def faultCtx (s : State) (clu i : Nat) : State :=
  let s1 := (s.modCtx clu i fun x => { x with st := 3, todo := [], reads := [], got := [] }).count (cluDie clu) 10
  let s2 := tellWaiters (putRecord s1 clu i) clu i
  pokeDie (s2.modCtx clu i fun x => { x with waiters := [] }) (cluDie clu)

/-- The first fault of a lookup is kept (R276). -/
def KCtx.note (x : KCtx) (code addr phase : Nat) : KCtx :=
  if x.fcode = 0 then { x with fcode := code, faddr := addr, phase := phase } else x

/-! ### KLSET (R281) -/

/-- KLSET (R281). -/
def execKlset (d a b : GReg) (clr : Bool) (s : State) : Host.Outcome State Fault Refusal :=
  let n := (rg s b).toNat % 16
  let k := nth (KSlot.mk false 0 0) s.clu.kslots n
  let x := addrOf (rg s a)
  let put (t : State) (y : KSlot) : State :=
    wg (t.modMyClu fun c => { c with kslots := setNth c.kslots n y }) d 0
  finish s (Act.res (
    if k.valid && decide (k.tenant ≠ s.tenant) then change fun t => wg t d (rejectWord 5)
    else if clr then change fun t => put t { k with valid := false }
    else if x % 64 ≠ 0 then change fun t => wg t d (rejectWord 1)
    else do
      let mine ← ownSteady x 64
      if mine = false then change fun t => wg t d (rejectWord 1)
      else
      let D ← placedLoad x 64 .load
      let t ← here
      match lookReject t D with
      | some r => change fun u => wg u d (rejectWord r)
      | none => change fun u => put u { valid := true, tenant := u.tenant, desc := D }) s)

/-! ### KLOOK, EBAG, KLRES (R282, R284, R291) -/

/-- A power grant for a large scoring (R211, R282). -/
def scoreGrant (d : Nat) : Act Unit := if 65536 < 2 * dN d * dDh d then needGrant 1 else pure ()

/-- A Pending context: its context number and ticket are taken, the generator advances. -/
def commitCtx (s : State) (i desc query : Nat) (bag : Bool) (sc : Scope) : Word × State :=
  let dk := s.cur.dieKey
  let t := (s.dieOf dk).ticketCtr
  let (seed, s1) := copySeed (takeTicket s dk)
  let old := kctx s1.clu i
  let x : KCtx :=
    { KCtx.free with st := 1, gen := old.gen, ticket := t, who := s.cur, tenant := s.tenant, part := s.part,
                     priv := s.super, scope := sc, desc := desc, bag := bag, query := query, seed := seed,
                     qtodo := if bag then [] else List.range (2 * dDh desc), holders := [s.cur], freed := old.freed }
  (word (tagOf i old.gen t),
   ((s1.modMyClu fun c => { c with kctx := fset c.kctx i x }).spawn (.kleScoring s.cur.cluKey i)))

/-- The bytes that a lookup or a bag names, its value table excepted, which lies in translated space (R228, R269,
R290); `query` is a lookup's query address, or a bag's COUNT. -/
def ctxRuns (desc query : Nat) (bag : Bool) : List (Nat × Nat) :=
  let w := dfield desc 8 8
  (if bag then
      [(dfield desc 0 8, 4 * query), (w, if w = 0 then 0 else query * elemBits (ptrCode w) / 8)]
    else [(dfield desc 0 8, keyBytes desc (dfield desc 0 8)), (w, keyBytes desc w), (query, 2 * dDh desc)])
    ++ [(dOut desc, outBytes desc)] ++ (if dfield desc 0x28 8 = 0 then [] else [(dfield desc 0x28 8, 8)])

/-- A launch of a lookup or a bag once its checks are passed: release, then a Free context and a ticket. -/
def launchCtx (desc query : Nat) (bag : Bool) (sc : Scope) : Act Word := do
  notBusy (ctxRuns desc query bag)
  let S ← launchScope sc
  let C ← carriedScope (dScope desc)
  release S
  let s ← here
  match freeCtx s.clu with
  | none => parkOn .engine
  | some i =>
    if ticketFree s s.cur.dieKey = false then parkOn .engine
    else do
      noteScope sc
      noteScope (Scope.ofCode (dScope desc))
      let t ← here
      let r := commitCtx t i desc query bag C
      change fun _ => r.2
      pure r.1

/-- Some context exists (R267). -/
def anyCtx (c : Cluster) : Bool := (List.range 64).any (ctxExists c)

/-- The query pointer of KLOOK (reason 6): FP16 or BF16, 2-byte aligned, in the own scratchpad, the own TCM or
the pinned region. -/
def queryBad (s : State) (q d : Nat) : Bool :=
  let a := q % addrSpace
  decide (¬(ptrCode q = 2 ∨ ptrCode q = 3) ∨ ptrK q ≠ 0 ∨ a % 2 ≠ 0)
    || !(inSpadOrPinned s a (4 * dDh d) || (decide (bits a 55 54 = 3) && ownPlace s a (4 * dDh d)))

/-- KLOOK (R282). -/
def execKlook (d a b : GReg) (sc : Scope) (s : State) : Host.Outcome State Fault Refusal :=
  let k := nth (KSlot.mk false 0 0) s.clu.kslots ((rg s a).toNat % 16)
  let q := (rg s b).toNat
  let reject (r : Nat) : Act Unit := change fun t => wg t d (rejectWord r)
  finish s (Act.res (do
    steady
    if s.clu.kOffline then reject 7
    else if !k.valid || decide (k.tenant ≠ s.tenant) then reject 5
    else if queryBad s q k.desc then reject 6
    else if anyCtx s.clu = false then reject 8
    else do
      scoreGrant k.desc
      let w ← launchCtx k.desc q false sc
      change fun t => wg t d w) s)

/-- EBAG (R291). -/
def execEbag (d a b : GReg) (sc : Scope) (s : State) : Host.Outcome State Fault Refusal :=
  let x := addrOf (rg s a)
  let n := (rg s b).toNat
  let reject (r : Nat) : Act Unit := change fun t => wg t d (rejectWord r)
  finish s (Act.res (do
    steady
    if s.clu.kOffline then reject 7
    else if x % 64 ≠ 0 || !ownPlace s x 64 then reject 1
    else do
      let D ← placedLoad x 64 .load
      let t ← here
      if n = 0 ∨ 32 < n then reject 2
      else
        match bagReject t D with
        | some r => reject r
        | none =>
          if anyCtx t.clu = false then reject 8
          else do
            let w ← launchCtx D n true sc
            change fun u => wg u d w) s)

/-! ### KLWAIT (R283) -/

/-- The Done answer of a KLWAIT returns: the last one frees the context (R271). -/
def waitReturned (s : State) (i : Nat) (tag : Nat) : State :=
  let x := kctx s.clu i
  if x.st = 2 ∧ tagOf i x.gen x.ticket % 2 ^ 26 / 2 ^ 16 = bits tag 25 16 then
    let left := x.waiters.filter (· ≠ s.cur)
    if left.isEmpty then freeContext s s.cur.cluKey i
    else s.modCtx s.cur.cluKey i fun y => { y with waiters := left, returned := true }
  else s

/-- Write KLSTAT. -/
def setKlstat (v : Nat) (s : State) : State := s.modCsr fun c => { c with klstat := word v }

/-- A Done lookup is reported: result, KLSTAT, acquire at its scope. -/
def reportDone (d : GReg) (tag code status : Nat) : Act Unit := do
  change fun t => setKlstat (status / 2 ^ 32 * 2 ^ 32 + tag) (wg t d (word (code / 8)))
  acquire (Scope.ofCode (code % 8))
  change fun t => waitReturned t (bits tag 31 26) tag

/-- The lookup that freed itself in this cycle, as its Done is still returned (R286): scope with DONEMASK, and STATUS. -/
def freedNow (s : State) (tag : Nat) : Option (Nat × Nat) :=
  let x := kctx s.clu (bits tag 31 26)
  match x.freed with
  | none => none
  | some f => if f.at' = s.ticks ∧ f.tag = tag ∧ f.tenant = s.tenant then some (f.code, f.status) else none

/-- KLWAIT (R283). -/
def execKlwait (d a : GReg) (poll : Bool) (s : State) : Host.Outcome State Fault Refusal :=
  let tag := (rg s a).toNat % 2 ^ 32
  let i := bits tag 31 26
  let x := kctx s.clu i
  finish s (Act.res (
    match unitAnswer s.me with
    | some (code, status) => reportDone d tag code status
    | none =>
      if staleTag s tag then
        match freedNow s tag with
        | some (code, status) => reportDone d tag code status
        | none => change fun t => setKlstat (2 * 2 ^ 62 + tag) (wg t d 0)
      else if x.st = 1 then
        if poll then change fun t => setKlstat (3 * 2 ^ 62 + tag) (wg t d 0)
        else fun t => .error (.park .klwait false (t.modCtx t.cur.cluKey i fun y =>
          { y with waiters := t.cur :: y.waiters.filter (· ≠ t.cur) }))
      else if x.st = 3 then
        if bitAt s.me.csr.sstat.toNat 5 then raise .klFault x.faddr tag
        else change fun t => setKlstat (statusWord x tag) (wg t d (word (x.doneMask % 2 ^ 32)))
      else reportDone d tag (x.scope.code + 8 * (x.doneMask % 2 ^ 32)) (statusWord x tag)) s)

/-- The rows that a lookup gathers: KO ranks, or COUNT of a bag, 32 at most. -/
def rankCount (x : KCtx) : Nat := Nat.min 32 (if x.bag then x.query else dKo x.desc)

/-- The poison of a context's PSUM (R284). -/
def psumPoisoned (c : Cluster) (i : Nat) : Bool :=
  c.spadPoison.any fun w => decide ((recordOff c i + 0x200) / 8 ≤ w ∧ w < (recordOff c i + 0x1200) / 8)

/-- PSUM of a context's record, as a list of L sums. -/
def readPsum (c : Cluster) (i l : Nat) : List Nat :=
  lanes (Memory.readN c.spad (recordOff c i + 0x200) (4 * l)) 32 l

/-- The pieces of a row: its bytes at 32-byte granules, in ascending address (R276). -/
def granules (a : Nat) : Nat → Nat → List (Nat × Nat)
  | 0, _ => []
  | fuel + 1, n =>
    if n = 0 then []
    else
      let r := Nat.min n (32 - a % 32)
      (a, r) :: granules (addrAdd a r) fuel (n - r)

/-- The address of value row `x`. -/
def valueRow (d x : Nat) : Nat := addrAdd (dVt d % addrSpace) (x * dfield d 0x18 8 : Nat)

/-- The reads of the ranks that are not done, in rank order (R276). -/
def gatherReads (x : KCtx) : List KRead :=
  ((List.range (rankCount x)).filter fun r => !bitAt x.doneMask r).flatMap fun r =>
    (granules (valueRow x.desc (nth 0 x.rows r)) (vrowBytes x.desc / 32 + 2) (vrowBytes x.desc)).map fun g =>
      { rank := r, addr := g.1, len := g.2, issued := 0, leaf := 0, lost := false, point := (0, 0) }

/-- The package that serves a read is another one. -/
def remoteRead (s : State) (x : KCtx) (a : Nat) : Bool :=
  match target s x.who.mod x.tenant a with
  | .ok (t, _) => decide (t.mod ≠ x.who.mod)
  | .error f => f.pending

/-- The gather of a context begins: its reads are issued in rank order, each row in ascending address (R276). -/
def startGather (s : State) (clu i : Nat) : State :=
  let rs := gatherReads (kctx (s.cluOf clu) i)
  let s1 := s.modCtx clu i fun y => { y with todo := rs, reads := [], got := [], failed := 0 }
  if rs.isEmpty then s1.spawn (.kleLookupComplete clu i) else spawnOnce s1 (.kleScoring clu i)

/-- Software has changed a record since the engine wrote it (R273). -/
def recordSpoilt (c : Cluster) (i : Nat) : Bool :=
  let x := kctx c i
  decide (Memory.readN c.spad (recordOff c i) 0x200 ≠ recordBytes x i % 256 ^ 0x200
    ∨ Memory.readN c.spad (recordOff c i + 0x200) 4096 ≠ packLanes 32 x.acc % 256 ^ 4096)

/-- Flags from bits 34-37 of a STATUS word. -/
def statusBack (w : Nat) : Nat :=
  bits w 34 34 + bits w 35 35 * 2 + bits w 36 36 * 4 + bits w 37 37 * 16

/-- What KLRES reads back from a context's record (R273). -/
def fromRecord (c : Cluster) (i : Nat) (x : KCtx) : KCtx :=
  let r := Memory.readN c.spad (recordOff c i) 0x200
  let w := dfield r 8 8
  let y : KCtx := { x with desc := dfield r 0x20 64, bag := bitAt (dfield r 0x5F 1) 7, query := dfield r 0x60 8 }
  let n := rankCount y
  let list (off : Nat) : List Nat := lanes (dfield r off 128) 32 n
  { y with doneMask := dfield r 0x18 4, phase := dfield r 0x1C 1, nans := bitAt w 39, winv := bitAt w 38,
           flags := statusBack w, rows := list 0x80, weights := list 0x100, scores := list 0x180 }

/-- A committed KLRES makes a context Pending again, and goes on where its PHASE says (R284). -/
def resumeCtx (s : State) (i : Nat) : Word × State :=
  let k := s.cur.cluKey
  let dk := s.cur.dieKey
  let t := (s.dieOf dk).ticketCtr
  let (seed, s1) := copySeed (takeTicket s dk)
  let x := kctx s.clu i
  let z := fromRecord s.clu i x
  let y : KCtx :=
    { z with st := 1, ticket := t, who := s.cur, part := s.part, priv := s.super, seed := seed, fcode := 0,
             faddr := 0, phase := 0, failed := 0, todo := [], reads := [], got := [], scored := decide (z.phase ≠ 0),
             outOnly := decide (2 ≤ z.phase),
             spoilt := x.spoilt || recordSpoilt s.clu i,
             holders := s.cur :: x.holders.filter (· ≠ s.cur) }
  let tag := word (tagOf i x.gen t)
  let s2 := s1.modCtx k i fun _ => y
  if z.phase = 0 then
    let again (v : KCtx) : KCtx :=
      { v with scored := false, doneMask := 0, qdata := 0, qtodo := if v.bag then [] else List.range (2 * dDh v.desc) }
    (tag, (s2.modCtx k i again).spawn (.kleScoring k i))
  else if psumPoisoned s.clu i then
    (tag, faultCtx (s2.modCtx k i fun v => v.note 0x0C 0 1) k i)
  else
    let s3 := s2.modCtx k i fun v => { v with acc := readPsum s.clu i (dL z.desc) }
    (tag, if z.phase = 1 then startGather s3 k i else s3.spawn (.kleLookupComplete k i))

/-- KLRES (R284). -/
def execKlres (d a : GReg) (sc : Scope) (drop : Bool) (s : State) : Host.Outcome State Fault Refusal :=
  let tag := (rg s a).toNat % 2 ^ 32
  let i := bits tag 31 26
  let x := kctx s.clu i
  let reject (r : Nat) : Act Unit := change fun t => wg t d (rejectWord r)
  finish s (Act.res (
    if staleTag s tag || decide (x.st ≠ 3) then reject 10
    else if drop then change fun t => wg (freeContext t t.cur.cluKey i) d 0
    else if s.clu.kOffline then reject 7
    else do
      if x.phase = 0 && !x.bag then scoreGrant x.desc
      notBusy (ctxRuns x.desc x.query x.bag)
      let S ← launchScope sc
      release S
      let t ← here
      if ticketFree t t.cur.dieKey = false then parkOn .engine
      else do
        noteScope sc
        let u ← here
        let r := resumeCtx u i
        change fun _ => wg r.2 d r.1) s)

end Sys2Proof.Machine
end

