-- ==== Sys2Proof/Machine/KleRun.lean ====
section
/-! DEFINITION. What the key-lookup engine does with a lookup: scoring, gathering, output (R274-R278, R287,
R292). -/

namespace Sys2Proof.Machine

open Sys2Proof

/-! ### Scoring (R274, R275) -/

/-- Minus infinity and 1.0 in FP32. -/
def negInf : Nat := 0xFF800000
def fp32One : Nat := 0x3F800000

/-- A score that is NaN counts as minus infinity; the flag tells that it was one (R274). -/
def noNan (c : Nat) : Nat × Bool := if (decodeNum .fp32 c).isNan then (negInf, true) else (c, false)

/-- The order of FP32 codes that are not NaN. -/
def fpKey (c : Nat) : Int := if 2 ^ 31 ≤ c then -((c % 2 ^ 31 : Nat) : Int) else (c : Int)

/-- The larger of two scored entries; the earlier one on a tie. -/
def betterOf (x y : Nat × Nat) : Nat × Nat := if fpKey x.2 < fpKey y.2 then y else x

/-- The `k` best of a list of (index, score), best first, the earlier entry first among equals. -/
def topK : Nat → List (Nat × Nat) → List (Nat × Nat)
  | 0, _ => []
  | k + 1, l =>
    match l with
    | [] => []
    | x :: xs =>
      let b := xs.foldl betterOf x
      b :: topK k (l.filter fun e => decide (e.1 ≠ b.1))

/-- The score of one sub-key: code, flags, whether it was NaN. -/
def keyScore (q k : List Num) : (Nat × Bool) × Nat :=
  let ps := List.zipWith mulNum q k
  let (c, fl) := quadsum .fp32 0 (ps.map (·.1))
  (noNan c, ps.foldl (fun f p => f ||| p.2) fl)

/-- The best KH sub-keys of a half, with the flags and whether a score was NaN. -/
def halfTop (n dh kh code : Nat) (q : List Num) (table : Nat) : List (Nat × Nat) × Nat × Bool :=
  let w := elemBits code
  let ks := (List.range n).map fun i =>
    keyScore q ((lanes (table / 2 ^ (i * dh * w)) w dh).map (elemNum code))
  (topK kh ((List.range n).zip (ks.map fun k => k.1.1)), ks.foldl (fun f k => f ||| k.2) 0, ks.any fun k => k.1.2)

/-- The score of a pair: code, flags, whether it was NaN. -/
def pairScore (x y : Nat) : (Nat × Bool) × Nat :=
  let (v, f1) := addNum .rne (decodeNum .fp32 x) (decodeNum .fp32 y)
  let (c, f2) := roundNum .fp32 .rne v
  (noNan c, f1 ||| f2)

/-- A quotient rounded to FP32, with its flags. -/
def fp32Div (x y : Nat) : Nat × Nat :=
  let (v, f1) := divNum (decodeNum .fp32 x) (decodeNum .fp32 y)
  let (c, f2) := roundNum .fp32 .rne v
  (c, f1 ||| f2)

/-- Quotients by one divisor, with their flags. -/
def divAll (xs : List Nat) (z : Nat) : List Nat × Nat :=
  let qs := xs.map fun x => fp32Div x z
  (qs.map (·.1), qs.foldl (fun f q => f ||| q.2) 0)

/-- The sum of FP32 codes by R37. -/
def sumCodes (xs : List Nat) : Nat × Nat := quadsum .fp32 0 (xs.map (decodeNum .fp32))

/-- The weights of ranked scores (R275), and their flags. -/
def weightsOf (mode : Nat) (scores : List Nat) : List Nat × Nat :=
  match mode with
  | 0 =>
    let top := nth 0 scores 0
    let xs := scores.map fun c =>
      let (v, f1) := addNum .rne (decodeNum .fp32 c) (decodeNum .fp32 (top ^^^ 2 ^ 31))
      let (e, f2) := roundNum .fp32 .rne v
      let (x, f3) := expFp32 e
      (x, f1 ||| f2 ||| f3)
    let (z, f4) := sumCodes (xs.map (·.1))
    let (ws, f5) := divAll (xs.map (·.1)) z
    (ws, xs.foldl (fun f x => f ||| x.2) (f4 ||| f5))
  | 1 =>
    let (z, f1) := sumCodes scores
    let (ws, f2) := divAll scores z
    (ws, f1 ||| f2)
  | _ => (scores.map fun _ => fp32One, 0)

/-- The divisor of NORM is ±0, infinite or NaN (R275). -/
def normWild (mode : Nat) (scores : List Nat) : Bool :=
  let z := decodeNum .fp32 (sumCodes scores).1
  decide (mode = 1) && (z.isZero || !z.isFin)

/-- Some weight is not finite (R275). -/
def anyWild (ws : List Nat) : Bool := ws.any fun w => !(decodeNum .fp32 w).isFin

/-- An engine read of a context. -/
def ctxRead (s : State) (x : KCtx) (a n : Nat) : Except (Fail × Nat) (Nat × State) :=
  sysRead (secFuel n) s x.who.mod x.tenant x.part x.priv a n

/-- One query element is read, of those that are left, in any order (R282). -/
def readQuery (s : State) (x : KCtx) : Except (Fail × Nat) (KCtx × State) :=
  let c := s.choice x.qtodo.length
  let e := nth 0 x.qtodo c.1
  match ctxRead c.2 x (addrAdd (x.query % addrSpace) (2 * e : Nat)) 2 with
  | .error f => .error f
  | .ok (v, s1) => .ok ({ x with qtodo := x.qtodo.filter (· ≠ e), qdata := x.qdata + v * 2 ^ (16 * e) }, s1)

/-- The scoring of a lookup whose query has been read (R274): rows, weights and scores. -/
def scoreLookup (s : State) (x : KCtx) : Except (Fail × Nat) (KCtx × State) := do
  let d := x.desc
  let dh := dDh d
  let h0 := dfield d 0 8
  let h1 := dfield d 8 8
  let (t0, s2) ← ctxRead s x (h0 % addrSpace) (keyBytes d h0)
  let (t1, s3) ← ctxRead s2 x (h1 % addrSpace) (keyBytes d h1)
  let qs := (lanes x.qdata 16 (2 * dh)).map (elemNum (ptrCode x.query))
  let (T0, f0, n0) := halfTop (dN d) dh (dKh d) (ptrCode h0) (qs.take dh) t0
  let (T1, f1, n1) := halfTop (dN d) dh (dKh d) (ptrCode h1) (qs.drop dh) t1
  let ps := T0.flatMap fun i => T1.map fun j => (i.1 * dN d + j.1, pairScore i.2 j.2)
  let sorted := (insertAll (ps.map fun p => (p.1, p.2.1.1)))
  let best := topK (dKo d) sorted
  let scores := best.map (·.2)
  let (ws, f2) := weightsOf (dMode d) scores
  pure ({ x with scored := true, rows := best.map (·.1), scores := scores, weights := ws,
                 nans := n0 || n1 || ps.any (fun p => p.2.1.2), winv := anyWild ws || normWild (dMode d) scores,
                 flags := ps.foldl (fun f p => f ||| p.2.2) (f0 ||| f1 ||| f2),
                 acc := List.replicate (dL d) 0, doneMask := 0 }, s3)
where
  /-- Pairs in ascending row number. -/
  insertOne (e : Nat × Nat) : List (Nat × Nat) → List (Nat × Nat)
    | [] => [e]
    | x :: xs => if e.1 < x.1 then e :: x :: xs else x :: insertOne e xs
  insertAll (l : List (Nat × Nat)) : List (Nat × Nat) := l.foldr insertOne []

/-- The lists of a bag (R292): row numbers and weights. -/
def scoreBag (s : State) (x : KCtx) : Except (Fail × Nat) (KCtx × State) := do
  let d := x.desc
  let n := x.query
  let (idx, s1) ← ctxRead s x (dfield d 0 8 % addrSpace) (4 * n)
  let wp := dfield d 8 8
  let w := elemBits (ptrCode wp)
  let (wt, s2) ← if wp = 0 then pure (0, s1) else ctxRead s1 x (wp % addrSpace) (n * w / 8)
  let ws := if wp = 0 then (List.replicate n (fp32One, 0))
    else (lanes wt w n).map fun e => roundNum .fp32 .rne (elemNum (ptrCode wp) e)
  pure ({ x with scored := true, rows := lanes idx 32 n, scores := List.replicate n 0, weights := ws.map (·.1),
                 nans := false, winv := anyWild (ws.map (·.1)), flags := ws.foldl (fun f e => f ||| e.2) 0,
                 acc := List.replicate (dL d) 0, doneMask := 0 }, s2)

/-- A failure of a lookup is posted to the fault queue (R276, R317). -/
def kleePost (s : State) (x : KCtx) (i : Nat) (f : Fail) (a access : Nat) : State :=
  enginePost s x.who x.tenant f a 3 access (tagOf i x.gen x.ticket)

/-! ### Gathering (R276-R278) -/

/-- A read pending at a service point, with its lookup. -/
structure PointRead where
  clu : Nat
  ctx : Nat
  read : KRead
  deriving DecidableEq, Repr

/-- A read of a lookup fails (R276) at an address: its rank stays clear, and its other pieces are not read. -/
def readFails (s : State) (p : PointRead) (f : Fail) (a : Nat) : State :=
  let x := kctx (s.cluOf p.clu) p.ctx
  let other (r : KRead) : Bool := decide (r.rank ≠ p.read.rank)
  let s1 := s.modCtx p.clu p.ctx fun y =>
    { y.note f.code a 1 with
      failed := y.failed ||| 2 ^ p.read.rank, todo := y.todo.filter other, reads := y.reads.filter other }
  kleePost s1 x p.ctx f a 0

/-- The holder of a granule, once it is translated and its rights are checked (R276, R301). -/
def readCheck (s : State) (x : KCtx) (r : KRead) : Except (Fail × Nat) (Target × State) :=
  if bitAt r.addr 55 then .error (.unpopulated, r.addr)
  else
    match sysTarget s x.who.mod x.tenant r.addr .load with
    | .error e => .error (e, r.addr)
    | .ok (t, s1) =>
      match sysCheck s1 x.who.mod x.tenant x.priv .load t r.addr with
      | .error e => .error e
      | .ok s2 => .ok (t, s2)

/-- A slice holds a granule, so that it serves the read itself (R276). -/
def l2Holds (s : State) (dk slice a : Nat) : Bool :=
  match l2Find (s.dieOf dk) slice (a / 1024) with
  | none => false
  | some ln =>
    ln.secs.any fun e => decide (e.1 = a / 128 % 8) && (e.2.valid || decide (e.2.dirty / 2 ^ (a % 128) % 2 ≠ 0))

/-- The service point of a read (R276, R277): the home slice of the package that holds the granule, or, on a miss there,
a memory channel. -/
def servicePoint (s : State) (x : KCtx) (t : Target) (a : Nat) : Nat × Nat :=
  let h := homeOf s t.mod x.tenant a
  let dk := dieKey t.mod h.1
  match t.place with
  | .here _ _ =>
    if l2Holds s dk h.2.1 a then (dk, h.2.1)
    else (dieKey t.mod 0, 96 + Config.channelOf (h.1 * 96 + h.2.1))
  | .pinned _ | .host _ | .other _ | .absent | .bad | .unpopulated => (dk, h.2.1)

/-- A rank whose pieces have all arrived and which has not been added. -/
def rowReady (x : KCtx) (r : Nat) : Bool :=
  !bitAt x.doneMask r && !bitAt x.failed r && (x.todo ++ x.reads).all (fun e => decide (e.rank ≠ r))
    && x.got.any (fun g => decide (g.1 = r))

/-- Every rank of a lookup is added or has failed (R271). -/
def rowsOver (x : KCtx) : Bool := (List.range (rankCount x)).all fun r => bitAt x.doneMask r || bitAt x.failed r

/-- What is due for a lookup: a row to add, or its end. -/
def nextRow (s : State) (clu i : Nat) : State :=
  let x := kctx (s.cluOf clu) i
  if x.st ≠ 1 then s
  else if (List.range (rankCount x)).any (rowReady x) then spawnOnce s (.kleRowArrival clu i)
  else if rowsOver x then spawnOnce s (.kleLookupComplete clu i)
  else s

/-- The cycles that a lookup waits for an answer (R276). -/
def kleLimit : Nat := 16384

/-- The next read of a lookup is issued (R276): one that finds its part absent or its rights denied fails before it is
queued anywhere (R301), and one that gets no answer ends by its time limit. -/
def issueRead (s : State) (clu i : Nat) : State :=
  let x := kctx (s.cluOf clu) i
  match x.todo with
  | [] => s
  | r :: rest =>
    let s1 := s.modCtx clu i fun y => { y with todo := rest }
    let queue (t : State) (q : KRead) : State := t.modCtx clu i fun y => { y with lost := none, reads := y.reads ++ [q] }
    match readCheck s1 x r with
    | .error (f, a) =>
      if keepsWaiting s.ticks kleLimit x.lost f a r.addr && decide (f = .unanswered) then
        s.modCtx clu i fun y => { y with lost := some (Lost.wait s.ticks x.lost f a 0 r.addr) }
      else if f.pending && decide (f ≠ .unanswered) then
        spawnOnce (queue (noteLost s1 f) { r with issued := s.ticks, lost := true }) (.kleReadTimeout clu i r.rank)
      else readFails s1 { clu := clu, ctx := i, read := r } f a
    | .ok (t, s2) =>
      let p := servicePoint s2 x t r.addr
      let s3 := spawnOnce (queue s2 { r with issued := s.ticks, point := p, leaf := (leafFor s2 x.who.mod x.tenant r.addr).1.getD 0 }) (.kleServiceRound p.1 p.2)
      if t.mod = x.who.mod then s3 else spawnOnce s3 (.kleReadTimeout clu i r.rank)

/-- KLE_SCORING (R274, R276, R282, R292): the query element by element, then the scores, then the reads of the rows;
a fault before the rows stops the lookup in PHASE 0. -/
def execKleScoring (clu ctx : Nat) (s : State) : Host.Outcome State Fault Refusal :=
  let x := kctx (s.cluOf clu) ctx
  let stopped (f : Fail) (a : Nat) : State :=
    if keepsWaiting s.ticks kleLimit x.lost f a 0 then
      ((noteLost s f).modCtx clu ctx fun y => { y with lost := some (Lost.wait s.ticks x.lost f a 0 0) }).again
        (.kleScoring clu ctx)
    else
    let s1 := s.modCtx clu ctx fun y => { y.note f.code a 0 with acc := [], rows := [], weights := [], scores := [] }
    faultCtx (kleePost s1 x ctx f a 0) clu ctx
  if x.st ≠ 1 ∨ x.outOnly then .next s
  else if x.scored then
    (if x.todo.isEmpty then .next s
     else
       let s1 := issueRead s clu ctx
       let s2 := nextRow s1 clu ctx
       .next (if (kctx (s2.cluOf clu) ctx).todo.isEmpty then s2 else spawnOnce s2 (.kleScoring clu ctx)))
  else if x.qtodo ≠ [] then
    match readQuery s x with
    | .ok (y, s1) => .next ((s1.modCtx clu ctx fun _ => y).spawn (.kleScoring clu ctx))
    | .error (f, a) => .next (stopped f a)
  else
    match (if x.bag then scoreBag s x else scoreLookup s x) with
    | .ok (y, s1) => .next (startGather (s1.modCtx clu ctx fun _ => y) clu ctx)
    | .error (f, a) => .next (stopped f a)

/-- A lookup's next read at a service point (R277). -/
def nextAt (die pt : Nat) (x : KCtx) : Option KRead :=
  x.reads.find? fun r => !r.lost && decide (r.point = (die, pt))

/-- The reads that a round serves: one for each lookup that has one pending here (R277). -/
def roundReads (s : State) (die pt : Nat) : List PointRead :=
  s.clusters.flatMap fun e => e.2.kctx.filterMap fun c =>
    if c.2.st = 1 then
      (nextAt die pt c.2).map fun r => { clu := e.1, ctx := c.1, read := r }
    else none

/-- The source of a read in ascending (package, die) order. -/
def sourceKey (s : State) (p : PointRead) : Nat :=
  let dk := cluDie p.clu
  s.pkgOf (dieMod dk) * 64 + dk % 64

/-- Ticket precedence (R270). -/
def precedes (x y : Nat) : Bool :=
  let d := (y + 65536 - x) % 65536
  decide (1 ≤ d ∧ d ≤ 32767)

/-- The order within a round (R277): by source, from the one after the last first source; then by ticket. -/
def roundLess (s : State) (last : Nat) (p q : PointRead) : Bool :=
  let k (r : PointRead) : Nat := (sourceKey s r + 2 ^ 18 - (last + 1)) % 2 ^ 18
  decide (k p < k q)
    || (decide (k p = k q) && precedes (kctx (s.cluOf p.clu) p.ctx).ticket (kctx (s.cluOf q.clu) q.ctx).ticket)

/-- Put a read into its place in a round. -/
def roundInsert (s : State) (last : Nat) (p : PointRead) : List PointRead → List PointRead
  | [] => [p]
  | q :: qs => if roundLess s last p q then p :: q :: qs else q :: roundInsert s last p qs

/-- A granule as its holder names it: module, backing, number. -/
abbrev Granule : Type := Nat × Nat × Nat

/-- The granule of an address at its holder. -/
def granuleOf (t : Target) (tenant a : Nat) : Granule :=
  match t.place with
  | .here ph _ => (t.mod, 0, ph / 32)
  | .pinned off => (t.mod, 1 + tenant, off / 32)
  | .host ph => (t.mod, 65, ph / 32)
  | .other _ | .absent | .bad | .unpopulated => (t.mod, 66, a / 32)

/-- The sector of a granule where it is served (R276): an allocation in L2 only when HOT is set, and never for another
package. -/
def granuleData (s : State) (x : KCtx) (t : Target) (a : Nat) : Except Fail (Nat × Nat × State) :=
  match t.place with
  | .here ph _ => .ok (serveRead s t.mod x.tenant a t.home ph (dHot x.desc && decide (t.mod = x.who.mod)))
  | .pinned _ | .host _ | .other _ | .absent | .bad | .unpopulated => readTarget s t x.tenant a

/-- The same read. -/
def sameRead (p : PointRead) (r : KRead) : Bool := decide (r.rank = p.read.rank ∧ r.addr = p.read.addr)

/-- A read gets its bytes from its sector, or fails for their poison. -/
def takeGranule (s : State) (p : PointRead) (data poison : Nat) : State :=
  match poisonAt poison p.read.addr p.read.len with
  | some b => readFails s p .poison b
  | none =>
    let v := data / 256 ^ (p.read.addr % 128) % 256 ^ p.read.len
    s.modCtx p.clu p.ctx fun y =>
      { y with reads := dropFirst (sameRead p) y.reads, got := y.got ++ [(p.read.rank, p.read.addr, p.read.len, v)] }

/-- Where a queued read is served (R276, R301): its part, wherever it has moved to since; a part that has become absent is
read by the leaf that its translation found (R315). Its rights were checked before it was queued. -/
def readPlace (s : State) (x : KCtx) (r : KRead) : Except Fail (Target × State) :=
  match target s x.who.mod x.tenant r.addr with
  | .error .absent => capturedTarget s x.who.mod x.tenant r.addr r.leaf
  | o => o

/-- Serve one read of a round at a point (R277, R278): a granule that the round has read already is not read again; a
read whose part has moved to another package waits there; one that gets no answer ends by its time limit. -/
def serveGranule (die : Nat) (acc : State × List (Granule × Nat × Nat)) (p : PointRead) :
    State × List (Granule × Nat × Nat) :=
  let (s, got) := acc
  let x := kctx (s.cluOf p.clu) p.ctx
  let change (f : KRead → KRead) (t : State) : State :=
    t.modCtx p.clu p.ctx fun y => { y with reads := mapFirst (sameRead p) f y.reads }
  let lose (t : State) : State :=
    spawnOnce (change (fun r => { r with lost := true }) t) (.kleReadTimeout p.clu p.ctx p.read.rank)
  match readPlace s x p.read with
  | .error f =>
    if f = .unanswered then (spawnOnce s (.kleReadTimeout p.clu p.ctx p.read.rank), got)
    else if f.pending then (lose (noteLost s f), got)
    else (readFails s p f p.read.addr, got)
  | .ok (t, s1) =>
    let q := servicePoint s1 x t p.read.addr
    if dieMod q.1 ≠ dieMod die then
      (spawnOnce (spawnOnce (change (fun r => { r with point := q }) s1) (.kleServiceRound q.1 q.2))
        (.kleReadTimeout p.clu p.ctx p.read.rank), got)
    else
      let g := granuleOf t x.tenant p.read.addr
      match got.find? fun e => decide (e.1 = g) with
      | some (_, data, poison) => (takeGranule s1 p data poison, got)
      | none =>
        match granuleData s1 x t p.read.addr with
        | .error f => (readFails s1 p f p.read.addr, got)
        | .ok (data, poison, s2) => (takeGranule s2 p data poison, (g, data, poison) :: got)

/-- KLE_SERVICE_ROUND (R277, R278): a round at a slice or a memory channel. -/
def execKleServiceRound (die slice : Nat) (s : State) : Host.Outcome State Fault Refusal :=
  let last := fget (2 ^ 18 - 1) (s.dieOf die).rounds slice
  let ps := (roundReads s die slice).foldr (roundInsert s last) []
  match ps with
  | [] => .next s
  | p :: _ =>
    let s1 := s.modDie die fun d => { d with rounds := fset d.rounds slice (sourceKey s p) }
    let s2 := (ps.foldl (serveGranule die) (s1, [])).1
    let s3 := ps.foldl (fun (t : State) (q : PointRead) => nextRow t q.clu q.ctx) s2
    .next (if (roundReads s3 die slice).isEmpty then s3 else spawnOnce s3 (.kleServiceRound die slice))

/-- Put a piece of a row among the pieces, by its place in the row. -/
def insertPiece (base : Nat) (g : Nat × Nat × Nat × Nat) : List (Nat × Nat × Nat × Nat) → List (Nat × Nat × Nat × Nat)
  | [] => [g]
  | h :: hs =>
    let off (e : Nat × Nat × Nat × Nat) : Nat := (e.2.1 + addrSpace - base) % addrSpace
    if off g < off h then g :: h :: hs else h :: insertPiece base g hs

/-- The bytes of pieces that stand in ascending address. -/
def joinPieces : List (Nat × Nat × Nat × Nat) → Nat
  | [] => 0
  | g :: gs => g.2.2.2 % 256 ^ g.2.2.1 + 256 ^ g.2.2.1 * joinPieces gs

/-- The bytes of a row that begins at an address from its pieces, in whatever order they came. -/
def rowData (base : Nat) (gs : List (Nat × Nat × Nat × Nat)) : Nat := joinPieces (gs.foldr (insertPiece base) [])

/-- One element of the accumulation (R274): one rounding. -/
def accStep (w : Nat) (v : Num) (a : Nat) : Nat × Nat :=
  let (p, f1) := mulNum (decodeNum .fp32 w) v
  let (t, f2) := addNum .rne p (decodeNum .fp32 a)
  let (c, f3) := roundNum .fp32 .rne t
  (c, f1 ||| f2 ||| f3)

/-- KLE_ROW_ARRIVAL (R274): one of the rows that have arrived is added, in any order. -/
def execKleRowArrival (clu ctx : Nat) (s : State) : Host.Outcome State Fault Refusal :=
  let x := kctx (s.cluOf clu) ctx
  let rs := (List.range (rankCount x)).filter (rowReady x)
  if x.st ≠ 1 ∨ rs.isEmpty then .next s
  else
    let (k, s1) := s.choice rs.length
    let r := nth 0 rs k
    let d := x.desc
    let data := rowData (valueRow d (nth 0 x.rows r)) (x.got.filter fun g => decide (g.1 = r))
    let vs := runVals (ptrCode (dVt d)) (ptrK (dVt d)) (dL d) data
    let out := List.zipWith (accStep (nth 0 x.weights r)) vs x.acc
    let s2 := s1.modCtx clu ctx fun y =>
      { y with acc := out.map (·.1), flags := out.foldl (fun f e => f ||| e.2) y.flags,
               doneMask := y.doneMask ||| 2 ^ r, got := y.got.filter fun g => decide (g.1 ≠ r) }
    .next (nextRow s2 clu ctx)

/-- KLE_READ_TIMEOUT (R276): a read of another package has waited for 16,384 cycles. -/
def execKleReadTimeout (clu ctx rank : Nat) (s : State) : Host.Outcome State Fault Refusal :=
  let x := kctx (s.cluOf clu) ctx
  match x.reads.find? fun r => decide (r.rank = rank) && (r.lost || remoteRead s x r.addr) with
  | none => .next s
  | some r =>
    if x.st ≠ 1 then .next s
    else if r.issued + 16384 ≤ s.ticks then
      .next (nextRow (readFails s { clu := clu, ctx := ctx, read := r } .unanswered r.addr) clu ctx)
    else .next (s.again (.kleReadTimeout clu ctx rank))

/-! ### Output and completion (R274, R276, R292) -/

/-- The output values before they are rounded, with flags and whether a divisor was wild. -/
def outVals (x : KCtx) : List Num × Nat × Bool :=
  let ys := x.acc.map (decodeNum .fp32)
  let m := dMode x.desc
  let by' (z : Num) : List Num × Nat :=
    let qs := ys.map fun y => divNum y z
    (qs.map (·.1), qs.foldl (fun f q => f ||| q.2) 0)
  if x.bag then
    if m = 1 then
      let (v, f) := by' (intNum (x.query : Int))
      (v, f, false)
    else if m = 3 then
      let (z, f1) := sumCodes x.weights
      let (v, f2) := by' (decodeNum .fp32 z)
      let zn := decodeNum .fp32 z
      (v, f1 ||| f2, zn.isZero || !zn.isFin)
    else (ys, 0, false)
  else if m = 2 then
    let (v, f) := by' (intNum (dKo x.desc : Int))
    (v, f, false)
  else (ys, 0, false)

/-- Write OUT sector by sector: what was written before a failure stays (R276). -/
def outWrite : Nat → State → KCtx → Nat → Nat → Nat → State × Option (Fail × Nat)
  | 0, s, _, _, _, _ => (s, none)
  | fuel + 1, s, x, a, n, v =>
    if n = 0 then (s, none)
    else
      let r := secRun a n
      match sysWriteSec x.tenant s x.who.mod x.tenant x.part x.priv a r (v % 256 ^ r) with
      | .error e => (s, some e)
      | .ok s1 => outWrite fuel s1 x (addrAdd a r) (n - r) (v / 256 ^ r)

/-- A lookup is Done (R271, R274): record, completion word, state; AUTOFREE frees it at once. -/
def ctxDone (s : State) (clu i : Nat) : State :=
  let s1 := putRecord (s.modCtx clu i fun y => { y with st := 2, todo := [], reads := [], got := [] }) clu i
  let x := kctx (s1.cluOf clu) i
  let cw := dfield x.desc 0x28 8
  let s2 := if cw = 0 then s1
    else completionWord s1 x.who x.tenant x.part x.priv (cw % addrSpace) (dfield x.desc 0x30 8) 3
      (tagOf i x.gen x.ticket)
  let s3 := tellWaiters s2 clu i
  if dAuto x.desc then
    let tag := tagOf i x.gen x.ticket
    let f : KDone :=
      { at' := s.ticks, tenant := x.tenant, tag := tag, code := x.scope.code + 8 * (x.doneMask % 2 ^ 32), status := statusWord x tag }
    (freeContext s3 clu i).modCtx clu i fun y => { y with freed := some f }
  else pokeDie s3 (cluDie clu)

/-- What a lookup writes to OUT: its rounded values, or a free value once software has written its record (R273). -/
def outValue (s : State) (x : KCtx) (v : Nat) : Nat × State := if x.spoilt then s.free else (v, s)

/-- KLE_LOOKUP_COMPLETE (R274, R276). -/
def execKleLookupComplete (clu ctx : Nat) (s : State) : Host.Outcome State Fault Refusal :=
  let x := kctx (s.cluOf clu) ctx
  if x.st ≠ 1 ∨ !(x.outOnly || x.scored && rowsOver x) then .next s
  else if x.failed ≠ 0 then .next (faultCtx s clu ctx)
  else
    let (ys, f1, wild) := outVals x
    let fmt := ptrCode (dOut x.desc)
    let (cs, f2) := codesFlags (roundAll fmt .rne ys (BitVec.ofNat 32 x.seed)).1
    let (v, s0) := outValue s x (packLanes (elemBits fmt) cs)
    let s1 := s0.modCtx clu ctx fun y => { y with flags := y.flags ||| f1 ||| f2, winv := y.winv || wild }
    let n := outBytes x.desc
    match outWrite (secFuel n) s1 x (dOut x.desc % addrSpace) n v with
    | (s2, none) => .next (ctxDone s2 clu ctx)
    | (s2, some (f, a)) =>
      if keepsWaiting s.ticks kleLimit x.lost f a 1 then
        .next (((noteLost s f).modCtx clu ctx fun y => { y with lost := some (Lost.wait s.ticks x.lost f a 1 1) }).again
          (.kleLookupComplete clu ctx))
      else .next (faultCtx (kleePost (s2.modCtx clu ctx fun y => y.note f.code a 2) x ctx f a 1) clu ctx)

/-- The phase in which a lookup stands (R273). -/
def phaseOf (x : KCtx) : Nat := if x.outOnly then 2 else if x.scored then 1 else 0

/-- KLE_OFFLINE (R287): every Pending context becomes Faulted with FCODE 0x0C, whatever fault it had noted before. -/
def execKleOffline (clu : Nat) (s : State) : Host.Outcome State Fault Refusal :=
  let s1 := (s.modClu clu fun c => { c with kOffline := true }).count (cluDie clu) 10
  let ids := ((s.cluOf clu).kctx.filter fun e => decide (e.2.st = 1)).map (·.1)
  .next (ids.foldl (fun (t : State) (i : Nat) =>
    faultCtx (t.modCtx clu i fun y => { y.note 0x0C 0 (phaseOf y) with fcode := 0x0C }) clu i) s1)

end Sys2Proof.Machine
end

