-- ==== Sys2Proof/Machine/Streams.lean ====
section
/-! DEFINITION. Stream units: SCFG, SBIND, SFREE, SPOS, and the loads and stores that a unit makes
(R191-R194). -/

namespace Sys2Proof.Machine

open Sys2Proof

/-- What a failed access of a hardware unit gives a strand (R92, R399): none where it is to be made again. -/
def failElem (f : Fail) (a : Nat) (s : State) : Option Elem × State :=
  match f with
  | .absent => (some (.absent a), s)
  | .absentAt _ =>
    (some (.absent a), postOwner s f { vf := s.tenant, addr := a, token := 0, kind := 1, source := 0, access := 0,
                                       place := s.strandId s.cur, id := 0 })
  | .prot | .unpopulated | .malformed | .denied | .portDown => (some (.fault .prot a), s)
  | .writeProtect => (some (.fault .writeProtect a), s)
  | .poison => (some (.fault .dataError a), s)
  | .unanswered => (none, s)
  | .lost _ _ => (some (.lost a s.ticks), noteLost s f)

/-- The part of an element that the strand's own L1 holds dirty (R156). -/
def ownDirty (s : State) (a x : Nat) : Nat :=
  match l1Sec s.core a with
  | none => x
  | some o => mergeBytes 32 (o.dirty / 2 ^ (a % 128)) x (o.data / 256 ^ (a % 128))

/-- The checks of an element whose bytes the L1 holds, and its bytes (R152, R193). -/
def elemHit (a : Nat) (o : L1Sec) (s : State) : Option Elem × State :=
  match sysTarget s s.cur.mod s.tenant a .load with
  | .error f => failElem f a s
  | .ok (t, s1) =>
    match sysCheck s1 s1.cur.mod s1.tenant s1.super .load t a with
    | .error (f, b) => failElem f b s1
    | .ok s2 =>
      match poisonAt o.poison a 32 with
      | some b => (some (.fault .dataError b), s2)
      | none => (some (.data (o.data / 256 ^ (a % 128) % 256 ^ 32)), s2)

/-- Load an element vector of the strand at `cur` (R192, R193), through the core's L1 as a load does (R152): none where the
access has to wait, as it does for an earlier write of its core to the sector that has not been performed (R156). An
element that the home gives is not kept, and nothing older enters the L1 after it (R330). -/
def streamLoad (a : Nat) (s0 : State) : Option Elem × State :=
  let s := drainPushes s0 s0.cur
  if writeOnWay s s.cur.coreKey (a / 128) && !bitAt a 55 then (none, s)
  else if bitAt a 55 then
    match placedLoad a 32 .load s with
    | .ok (x, s1) => (some (.data x), s1)
    | .error (.trap c e _) => (some (.fault c e), s)
    | .error _ => (none, s)
  else
    match target s s.cur.mod s.tenant a with
    | .error f => failElem f a s
    | .ok (t, s1) =>
      if t.attr.t && decide (travelClu s1 a ≠ s1.cur.cluKey) then (some (.fault .placement a), s1)
      else
        let home : Option Elem × State :=
          match sysReadSec s1.tenant s1 s1.cur.mod s1.tenant s1.me.part s1.super a 32 with
          | .error (f, b) => failElem f b s1
          | .ok (x, s2) => (some (.data (ownDirty s2 a x)), s2.noFill s2.cur.coreKey fun sec => decide (sec = a / 128))
        match l1Sec s1.core a with
        | none => home
        | some o => if o.serves a 32 then elemHit a o s1 else home

/-- Wake a strand that waits for its stream, unless it still waits for a unit after a restore (R196). -/
def wakeStream (x : Strand) : Strand := if x.rebind.isEmpty then x.wakeIf [.stream] else x

/-- When the access of an element that got no answer was made, if one that a unit holds did (R399). -/
def lostSince (u : SUnit) : Option Nat :=
  u.fetched.findSome? fun e =>
    match e.2 with
    | .lost _ t => some t
    | .data _ | .fault _ _ | .absent _ => none

/-- A unit has nothing to fetch: its strand looks again at an element without an answer once its patience is over (R399). -/
def unitIdle (s : State) (core unit slot : Nat) (u : SUnit) : State :=
  match lostSince u with
  | none => s
  | some t =>
    if s.ticks < t + patience then s.again (.streamElementFetch core unit) else s.modStrand (placeOf core slot) wakeStream

/-- STREAM_ELEMENT_FETCH (R193): the unit loads the next element that it does not hold; 8 at most wait to
be taken. -/
def execStreamElementFetch (core unit : Nat) (s : State) : Host.Outcome State Fault Refusal :=
  let u := nth SUnit.free (s.coreOf core).units unit
  match u.owner with
  | none => .next s
  | some slot =>
    let p := placeOf core slot
    let j := u.pos + u.fetched.length
    if u.bound.isNone || u.wr || decide (u.count ≤ j) || decide (8 ≤ u.fetched.length) then
      .next (unitIdle s core unit slot u)
    else
      let r := asPlace p (streamLoad (u.addr j)) s
      match r.1 with
      | none => .next (r.2.again (.streamElementFetch core unit))
      | some e =>
        let s1 := r.2.modUnit core unit fun x => { x with fetched := x.fetched ++ [(j, e)] }
        .next ((s1.modStrand p wakeStream).spawn (.streamElementFetch core unit))

/-- STREAM_PUSH (R192, R193): the oldest push of the strand that owns a unit issues. -/
def execStreamPush (core unit : Nat) (s : State) : Host.Outcome State Fault Refusal :=
  let u := nth SUnit.free (s.coreOf core).units unit
  match u.owner with
  | none => .next s
  | some slot => .next ((drainSlot core slot 1 s).modStrand (placeOf core slot) wakeStream)

/-- Free every unit of a slot, its pushes first (R194). -/
def freeUnits (s : State) (p : Place) : State :=
  (List.range 4).foldl (fun t i =>
    let u := nth SUnit.free (t.coreOf p.coreKey).units i
    if u.owner = some p.slot then t.modUnit p.coreKey i fun _ => SUnit.free else t) (drainPushes s p)

/-- The fields of a descriptor (R191). -/
def unitOf (d slot desc : Nat) : SUnit :=
  { SUnit.free with
    owner := some slot
    desc := desc
    base := bits d 55 0
    cnt := (List.range 4).map fun i => d / 2 ^ (64 + 32 * i) % 2 ^ 32
    str := (List.range 4).map fun i => signed 64 (d / 2 ^ (192 + 64 * i)) }

/-- The checks of a descriptor that SCFG makes (R194), at address `x`. -/
def descCheck (d x : Nat) (u : SUnit) : Act Unit :=
  if bits d 63 56 ≠ 0 ∨ d / 2 ^ 448 % 2 ^ 64 ≠ 0 ∨ 2 ^ 32 ≤ u.count then reserved 0
  else if u.base % 32 ≠ 0 ∨ u.str.any (fun t => decide (t % 32 ≠ 0)) then memTrap .align x .load
  else pure ()

/-- SCFG (R194). -/
def execScfg (d a : GReg) (s : State) : Host.Outcome State Fault Refusal :=
  let x := addrOf (rg s a)
  finish s (Act.res (do
    let mine ← ownSteady x 64
    if mine = false then memTrap .prot x .load
    else do
      aligned x 64 .load
      let dd ← placedLoad x 64 .load
      let u := unitOf dd s.cur.slot x
      descCheck dd x u
      change fun t =>
        match (List.range 4).find? fun i => (nth SUnit.free t.core.units i).owner.isNone with
        | some i => wg (t.modUnit t.cur.coreKey i fun _ => u) d (word i)
        | none => wg t d (word 0xFFFFFFFFFFFFFFFF)) s)

/-- The unit that a register names (R194): bits 1:0. -/
def unitNo (s : State) (a : GReg) : Nat := (rg s a).toNat % 4
def unitAt (s : State) (i : Nat) : SUnit := nth SUnit.free s.core.units i

/-- SBIND (R194). DEDUCED (log 65): it names a v register in field d but writes none, so that it is no destination and
VUSED stays as it is (R87). -/
def execSbind (d : VReg) (a : GReg) (wr : Bool) (s : State) : Host.Outcome State Fault Refusal :=
  let i := unitNo s a
  let u := unitAt s i
  finish s (Act.res (
    if u.owner = some s.cur.slot ∧ u.bound = none ∧ (boundUnit s d).isNone then
      change fun t =>
        let t1 := t.modUnit t.cur.coreKey i fun x =>
          { x with bound := some d.val, wr := wr, pos := 0, fetched := [], pushes := [] }
        if wr then t1 else t1.spawn (.streamElementFetch t.cur.coreKey i)
    else illegal 0x3F) s)

/-- SFREE (R194). -/
def execSfree (a : GReg) (s : State) : Host.Outcome State Fault Refusal :=
  let i := unitNo s a
  let u := unitAt s i
  finish s (Act.res (
    if u.owner = some s.cur.slot then
      (if u.pushes.isEmpty then
        change fun t =>
          let t1 := match u.bound with
            | none => t
            | some r => t.modMe fun x => { x with v := x.v.set (Fin.ofNat 16 r) 0 }
          t1.modUnit t.cur.coreKey i fun _ => SUnit.free
      else do
        change fun t => spawnOnce t (.streamPush t.cur.coreKey i)
        parkOn .stream)
    else illegal 0x40) s)

/-- SPOS (R194). -/
def execSpos (d a b : GReg) (upd : Bool) (s : State) : Host.Outcome State Fault Refusal :=
  let i := unitNo s a
  let u := unitAt s i
  finish s (Act.res (
    if u.owner = some s.cur.slot ∧ u.bound.isSome then
      (if upd && !u.pushes.isEmpty then do
        change fun t => spawnOnce t (.streamPush t.cur.coreKey i)
        parkOn .stream
      else
        change fun t =>
          let t1 := wg t d (word u.pos)
          if upd then
            let t2 := t1.modUnit t.cur.coreKey i fun x =>
              { x with pos := (rg s b).toNat % 2 ^ 32, fetched := [] }
            if u.wr then t2 else t2.spawn (.streamElementFetch t.cur.coreKey i)
          else t1)
    else illegal 0x41) s)

end Sys2Proof.Machine
end

