-- ==== Sys2Proof/Machine/Matrix.lean ====
section
/-! DEFINITION. The matrix unit: tile ownership and shapes, the checks at issue, the four streams, the array's
cycles, and what completes an operation (R197-R221, R442). -/

namespace Sys2Proof.Machine

open Sys2Proof

/-! ### Tiles of a core and the checks of an instruction -/

/-- A tile of a core. -/
def tileOf (c : Core) (i : Nat) : Tile := nth Tile.free c.tiles i

/-- Replace a tile of a core. -/
def State.modTile (s : State) (coreKey i : Nat) (f : Tile → Tile) : State :=
  s.modCore coreKey fun c => { c with tiles := setNth c.tiles i (f (tileOf c i)) }

/-- TSH of a tile as the executing half reads it: at the bundle's start for the A half (R69). -/
def tshOf (s : State) (i : Nat) : Nat :=
  match s.issue.half with
  | .a => (nth (1 : Word) s.issue.preTsh i).toNat
  | .lone | .c => (tileOf s.core i).tsh.toNat

/-- The strand owns a tile (R197). -/
def ownsTile (s : State) (i : Nat) : Bool := decide ((tileOf s.core i).owner = some s.cur.slot)

/-- The smallest of a list. -/
def leastOf : List Nat → Nat
  | [] => 0
  | x :: xs => xs.foldl Nat.min x

/-- TILE_SHAPE with a code and the tiles that the failed check concerns (R221, R442). -/
def tileShape {α : Type} (code : Nat) (ts : List Nat) : Act α := fun s =>
  .error (.trap .tileShape 0 (leastOf ts * 2 ^ 16 + halfBit s + code))

/-- TILE_SHAPE when a check concerns any tile. -/
def tileCheck (code : Nat) (ts : List Nat) : Act Unit :=
  if ts.isEmpty then pure () else tileShape code ts

/-- The tiles of the core are changing hands: a slot still waits to be handed to the strand's tenant (R234). -/
def tilesChanging (s : State) : Bool :=
  (s.modOf s.cur.mod).handovers.any fun e =>
    decide (e.1 / 16 = s.cur.coreKey ∧ e.2 = s.tenant)

/-- Every named tile is owned (R200 step 1): code 2. -/
def needTiles (ts : List Nat) : Act Unit := fun s =>
  if tilesChanging s then .error (.park .engine false s)
  else tileCheck 2 (ts.filter fun i => !ownsTile s i) s

/-- A chunk is 0 to 131 (R220): code 5. -/
def needChunk (i j : Nat) : Act Unit := if j < 132 then pure () else tileShape 5 [i]

/-- The tiles that a condition concerns when it fails. -/
def failing (bad : Bool) (ts : List Nat) : List Nat := if bad then ts else []

/-- The checks of a queued operation on tiles: format, dimension and alias conditions that fail, each with
the tiles it concerns (R207, R217, R442). DEDUCED (log 65): where several conditions of one code fail, TILE is the lowest
tile over all of them. -/
def shapeFaults (k : MKind) (acc col : Nat) (d a b : Nat) (sh : Nat → Nat) :
    List Nat × List Nat × List Nat :=
  let D := sh d
  let A := sh a
  let B := sh b
  let sparse (i : Nat) (want : Bool) : List Nat := failing (shSp (sh i) != want) [i]
  let badIn (i : Nat) : List Nat := failing (!decide (2 ≤ shFmt (sh i) ∧ shFmt (sh i) ≤ 8)) [i]
  let differ (x y : Nat) (i j : Nat) : List Nat := failing (decide (x ≠ y)) [i, j]
  let same (i j : Nat) : List Nat := differ (shRows (sh i)) (shRows (sh j)) i j
    ++ differ (shCols (sh i)) (shCols (sh j)) i j
  let mul (sa sb sd : Bool) : List Nat × List Nat × List Nat :=
    (failing (decide (shFmt D ≠ acc)) [d] ++ badIn a ++ badIn b ++ sparse a sa ++ sparse b sb ++ sparse d sd,
     differ (shRows A) (shRows D) a d ++ differ (shCols A) (shRows B) a b
       ++ differ (shCols B) (shCols D) b d,
     failing (decide (d = a ∨ d = b)) [d])
  match k with
  | .mma => mul false false false
  | .mmas => mul true false false
  | .mmss => mul true true true
  | .tcvt => (sparse d false ++ sparse a false, same a d, failing (decide (d = a)) [d])
  | .tadd => (sparse d false ++ sparse a false ++ sparse b false, same a b ++ same a d ++ same b d, [])
  | .tscale =>
    (sparse d false ++ sparse a false ++ sparse b false,
     same a d ++ (if col = 0 then differ (shRows B) (shRows A) a b ++ failing (decide (shCols B ≠ 1)) [b]
                  else differ (shCols B) (shCols A) a b ++ failing (decide (shRows B ≠ 1)) [b]), [])
  | .ttrans =>
    (sparse d false ++ sparse a false ++ failing (shBlocked D) [d] ++ failing (shBlocked A) [a]
       ++ differ (shFmt D) (shFmt A) d a,
     differ (shRows D) (shCols A) d a ++ differ (shCols D) (shRows A) d a, failing (decide (d = a)) [d])
  | .tld | .tst | .vmovt | .tzero | .mjoin => ([], [], [])

/-- The checks at issue, in the order of R442. -/
def needShapes (k : MKind) (acc col : Nat) (d a b : Nat) : Act Unit := fun s =>
  let f := shapeFaults k acc col d a b (tshOf s)
  (do tileCheck 4 f.1; tileCheck 1 f.2.1; tileCheck 6 f.2.2 : Act Unit) s

/-! ### The queues (R200-R202) -/

/-- The queue of a stream. -/
def queueOf (c : Core) (st : Nat) : List MOp := nth [] c.mq st

/-- An operation with nothing captured. -/
def MOp.blank (k : MKind) : MOp :=
  { kind := k, lost := none, td := 0, ta := 0, tb := 0, shD := 0, shA := 0, shB := 0, acc := .f32, df := .ip,
    mode := .rne, col := false, seed := 0, slot := none, tenant := 0, priv := false, ptr := 0,
    stride := 0, masks := [], attrs := [], chunk := 0, vec := 0, mask := 0, used := 0, since := 0, made := 0, row := 0,
    bad := none }

/-- The multiply-accumulates of an operation, M · N · K. -/
def MOp.macs (o : MOp) : Nat :=
  match o.kind with
  | .mma | .mmas | .mmss => shRows o.shD * shCols o.shD * shCols o.shA
  | _ => 0

/-- A heavy operation (R211). -/
def MOp.heavy (o : MOp) : Bool := decide (1024 < o.macs)

/-- A heavy remote command that has no grant yet (R224, R364). -/
def MOp.unpowered (o : MOp) : Bool := o.slot.isNone && o.heavy && decide (o.mask ≠ 2)

/-- The head of a stream begins: what it does to its tile comes at some time before it completes (R202), a remote MJOIN
ends once the streams it waits for have drained, a heavy remote command asks for its grant (R203, R224). -/
def startHead (s : State) (core st : Nat) : State :=
  match queueOf (s.coreOf core) st with
  | [] => s
  | o :: os =>
    match o.kind with
    | .mjoin => if o.masks.all (· == 0) then spawnOnce s (.matrixOpComplete core st) else s
    | _ =>
      if o.unpowered && decide (o.mask = 0) then
        joinImplicit (s.modCore core fun c => { c with mq := setNth c.mq st ({ o with mask := 1 } :: os) })
          (cluDie (coreClu core)) (.remote core st)
      else if o.unpowered then s
      else spawnOnce s (.matrixOpComplete core st)

/-- The heads of the four streams are looked at again. -/
def startHeads (s : State) (core : Nat) : State :=
  (List.range 4).foldl (fun t st => startHead t core st) s

/-- Place an operation at the tail of a stream (R200 step 7). -/
def appendOp (s : State) (core st : Nat) (o : MOp) : State :=
  startHeads (s.modCore core fun c => { c with mq := setNth c.mq st (queueOf c st ++ [o]) }) core

/-- Steps 4 to 7 of R200 for an operation of the executing strand. -/
def queueOp (st : Nat) (o : MOp) : Act Unit := do
  if o.heavy then needGrant 2
  let s ← here
  if 8 ≤ (queueOf s.core st).length then parkOn .engine
  else
    change fun t =>
      let (seed, t1) := copySeed t
      let o' : MOp :=
        { o with seed := seed, slot := some t.cur.slot, tenant := t.tenant, priv := t.super, since := t.core.mwaits }
      appendOp t1 t1.cur.coreKey st o'

/-- An operation on tiles, with the shapes captured at issue (R200 step 2). -/
def MOp.onTiles (s : State) (k : MKind) (d a b : Nat) : MOp :=
  { MOp.blank k with td := d, ta := a, tb := b, shD := tshOf s d, shA := tshOf s a, shB := tshOf s b }

/-! ### The instructions that queue operations -/

/-- MMA, MMAS and MMSS (R207). -/
def mulOp (k : MKind) (d a b : TReg) (df : Dataflow) (st : BitVec 2) (acc : FloatFmt) (s : State) :
    Host.Outcome State Fault Refusal :=
  finish s (Act.res (do
    needTiles [d.val, a.val, b.val]
    needShapes k acc.toCode.code 0 d.val a.val b.val
    queueOp st.toNat { MOp.onTiles s k d.val a.val b.val with acc := acc, df := df }) s)

/-- MMA (R207). -/
def execMma (d a b : TReg) (df : Dataflow) (st : BitVec 2) (acc : FloatFmt) (s : State) :
    Host.Outcome State Fault Refusal := mulOp .mma d a b df st acc s

/-- MMAS (R207). -/
def execMmas (d a b : TReg) (df : Dataflow) (st : BitVec 2) (acc : FloatFmt) (s : State) :
    Host.Outcome State Fault Refusal := mulOp .mmas d a b df st acc s

/-- MMSS (R207). -/
def execMmss (d a b : TReg) (df : Dataflow) (st : BitVec 2) (acc : FloatFmt) (s : State) :
    Host.Outcome State Fault Refusal := mulOp .mmss d a b df st acc s

/-- TZERO (R216). -/
def execTzero (d : TReg) (st : BitVec 2) (s : State) : Host.Outcome State Fault Refusal :=
  finish s (Act.res (do
    needTiles [d.val]
    queueOp st.toNat (MOp.onTiles s .tzero d.val d.val d.val)) s)

/-- TCVT (R217). -/
def execTcvt (d a : TReg) (st : BitVec 2) (rs : RoundSel) (s : State) :
    Host.Outcome State Fault Refusal :=
  finish s (Act.res (do
    needTiles [d.val, a.val]
    needShapes .tcvt 0 0 d.val a.val a.val
    queueOp st.toNat { MOp.onTiles s .tcvt d.val a.val a.val with mode := modeOf s rs }) s)

/-- TADD (R217). -/
def execTadd (d a b : TReg) (st : BitVec 2) (rs : RoundSel) (s : State) :
    Host.Outcome State Fault Refusal :=
  finish s (Act.res (do
    needTiles [d.val, a.val, b.val]
    needShapes .tadd 0 0 d.val a.val b.val
    queueOp st.toNat { MOp.onTiles s .tadd d.val a.val b.val with mode := modeOf s rs }) s)

/-- TSCALE (R217). -/
def execTscale (d a b : TReg) (st : BitVec 2) (rs : RoundSel) (col : Bool) (s : State) :
    Host.Outcome State Fault Refusal :=
  finish s (Act.res (do
    needTiles [d.val, a.val, b.val]
    needShapes .tscale 0 (b2n col) d.val a.val b.val
    queueOp st.toNat { MOp.onTiles s .tscale d.val a.val b.val with mode := modeOf s rs, col := col }) s)

/-- TTRANS (R217). -/
def execTtrans (d a : TReg) (st : BitVec 2) (s : State) : Host.Outcome State Fault Refusal :=
  finish s (Act.res (do
    needTiles [d.val, a.val]
    needShapes .ttrans 0 0 d.val a.val a.val
    queueOp st.toNat (MOp.onTiles s .ttrans d.val a.val a.val)) s)

/-- VMOVT (R220). -/
def execVmovt (d : TReg) (a : VReg) (b : GReg) (st : BitVec 2) (s : State) :
    Host.Outcome State Fault Refusal :=
  let j := (rg s b).toNat
  finish s (Act.res (do
    needTiles [d.val]
    needChunk d.val j
    let x ← rv a
    queueOp st.toNat { MOp.onTiles s .vmovt d.val d.val d.val with chunk := j, vec := x.toNat }) s)

/-! ### TLD and TST at issue (R210, R215) -/

/-- The bytes of a row in memory (R215), with `n` elements present in a sparse row. -/
def rowBytes (sh n : Nat) : Nat :=
  if shSp sh then 8 + ceilDiv (n * shW sh) 8
  else if shBlocked sh then shBlocks sh * recBytes (shFmt sh) (shBk sh)
  else shCols sh * shW sh / 8

/-- The address of row `i` (R215). -/
def rowAddr (ptr : Nat) (stride : Int) (i : Nat) : Nat := addrAdd ptr ((i : Int) * stride)

/-- The checks of `n` bytes of a row (R151-R154): the sectors checked and their attributes. `data` asks for the bytes of
a sector too, where a presence mask may lie in it. -/
def rowCheck (data : Bool) : Nat → Nat → Nat → Access → Act (List (Nat × Attr))
  | 0, _, _, _ => pure []
  | fuel + 1, a, n, k =>
    if n = 0 then pure []
    else do
      let r := secRun a n
      let own ← (if bitAt a 55 then do
          (if k = .store then placedStoreCheck a k
           else if bits a 55 54 = 2 ∧ 0x4000000 ≤ a % 2 ^ 27 then do
             let _ ← placedLoad a r k
             pure ()
           else placedCheck a k)
          pure []
        else do
          let x ← sectorFor a r k data true
          pure [(a / 128, x.1)])
      let rest ← rowCheck data fuel (addrAdd a r) (n - r) k
      pure (own ++ rest)

/-- The presence mask of a sparse row as TLD reads it at issue (R210); poison is met when the row is read. -/
def maskWord (a : Nat) : Act Nat := fun s =>
  if bitAt a 55 then
    match placedCheck a .load s with
    | .error e => .error e
    | .ok (_, s1) =>
      if bits a 55 54 = 3 then .ok (Memory.readN s1.core.tcm (a % 2 ^ 23) 8, s1)
      else if a % 2 ^ 27 < 0x4000000 then .ok (Memory.readN s1.clu.spad (a % 2 ^ 27) 8, s1)
      else placedLoad a 8 .load s1
  else
    match sectorFor a 8 .load true true s with
    | .error e => .error e
    | .ok ((_, d, _), s1) => .ok (d / 256 ^ (a % 128) % 2 ^ 64, s1)

/-- The checks of the rows of a tile, in order: the masks read and the sectors checked. -/
def rowsCheck (ld : Bool) (ptr : Nat) (stride : Int) (sh : Nat) :
    List Nat → Act (List Nat × List (Nat × Attr))
  | [] => pure ([], [])
  | i :: is => do
    let a := rowAddr ptr stride i
    let m ← (if shSp sh && ld then do
        let x ← maskWord a
        pure (x % 2 ^ shCols sh)
      else pure 0)
    let n := if ld then popCount 64 m else shCols sh
    let own ← rowCheck (shSp sh && ld) (secFuel (rowBytes sh n)) a (rowBytes sh n) (if ld then .load else .store)
    let rest ← rowsCheck ld ptr stride sh is
    pure (m :: rest.1, own ++ rest.2)

/-- The alignment that TLD and TST ask of a pointer and a stride (R215). -/
def tileAlign (sh : Nat) : Nat :=
  if shSp sh then 8 else if shFmt sh ≤ 3 then shW sh / 8 else 1

/-- The address of ALIGN: the first row that is not aligned, or the first row when only the stride is not. -/
def alignAddr (al ptr : Nat) (stride : Int) (sh : Nat) : Nat :=
  (((List.range (shRows sh)).map (rowAddr ptr stride)).find? fun a => decide (a % al ≠ 0)).getD ptr

/-- TLD and TST (R210, R215). -/
def tileMemory (ld : Bool) (d : Nat) (a b : GReg) (st : Nat) : Act Unit := do
  needTiles [d]
  let s ← here
  let sh := tshOf s d
  let P := (rg s a).toNat
  let ptr := addrOf (rg s a)
  let S := (rg s b).toInt
  let k : Access := if ld then .load else .store
  pushesFirst
  tileCheck 4 (failing (decide (bits P 63 60 ≠ shFmt sh ∨ bits P 59 56 ≠ shBk sh)) [d])
  if ptr % tileAlign sh ≠ 0 ∨ S % (tileAlign sh : Int) ≠ 0 then
    memTrap .align (alignAddr (tileAlign sh) ptr S sh) k
  else do
    let r ← rowsCheck ld ptr S sh (List.range (shRows sh))
    let o : MOp :=
      { MOp.onTiles s (if ld then .tld else .tst) d d d with
        ptr := ptr, stride := S, masks := r.1, attrs := r.2.map fun e => (e.1, e.2.leaf) }
    queueOp st o
    change fun t =>
      if ld then t else r.2.foldl (fun u e => markTarget u (e.1 * 128) e.2) t

/-- TLD (R210, R215). -/
def execTld (d : TReg) (a b : GReg) (st : BitVec 2) (s : State) : Host.Outcome State Fault Refusal :=
  finish s (Act.res (tileMemory true d.val a b st.toNat) s)

/-- TST (R210, R215). -/
def execTst (d : TReg) (a b : GReg) (st : BitVec 2) (s : State) : Host.Outcome State Fault Refusal :=
  finish s (Act.res (tileMemory false d.val a b st.toNat) s)

/-! ### The memory of TLD and TST when they run (R204, R206, R210) -/

/-- The leaf captured for an address. -/
def MOp.leafAt (o : MOp) (a : Nat) : Nat := fget 0 o.attrs (a / 128)

/-- Byte poison of `n` bytes from the poison of 8-byte words, as a mask of bytes. -/
def bytePoison (hit : Nat → Bool) (n : Nat) : Nat :=
  (List.range n).foldl (fun m i => if hit i then m + 2 ^ i else m) 0

/-- An access of an operation that a lost package leaves unanswered (R210, R399): KIND 7 is posted. -/
def unansweredPost (s : State) (core : Nat) (o : MOp) (a kind : Nat) : State :=
  let p := placeOf core (o.slot.getD 0)
  postFault (s.count p.dieKey 14) p.mod p.dieKey
    { vf := o.tenant, addr := a, token := 0, kind := 7, source := 0, access := kind,
      place := s.strandId p, id := 0 }

/-- What a TLD reads in a sector: bytes, and a mask of the bytes that are poisoned or did not come. The
strand's own L1 holds its latest writes (R204); what it reads at the home, no older answer enters the L1 after (R330).
KIND 7 is posted for each address that did not come (R210). -/
def opReadSec (s : State) (core : Nat) (o : MOp) (a n : Nat) : Nat × Nat × State :=
  let c := s.coreOf core
  let clu := s.cluOf (coreClu core)
  let m := dieMod (cluDie (coreClu core))
  if bitAt a 55 then
    if bits a 55 54 = 3 then
      let off := a % 2 ^ 23
      (Memory.readN c.tcm off n, bytePoison (fun i => c.tcmPoison.contains ((off + i) / 8)) n, s)
    else
      let off := a % 2 ^ 27
      if off < 0x4000000 then
        (Memory.readN clu.spad off n, bytePoison (fun i => clu.spadPoison.contains ((off + i) / 8)) n, s)
      else ((engineLoad clu off n).getD 0, 0, s)
  else
    let sh := a % 128
    let cut (d po : Nat) (t : State) : Nat × Nat × State :=
      (d / 256 ^ sh % 256 ^ n, bytePoison (fun i => bitAt po ((sh + i) / 8)) n, t)
    let home : Nat × Nat × State :=
      match capturedTarget s m o.tenant a (o.leafAt a) with
      | .error _ => (0, 2 ^ 16 - 1, unansweredPost s core o a 0)
      | .ok (t, s1) =>
        match readTarget s1 t o.tenant a with
        | .error _ => (0, 2 ^ 16 - 1, unansweredPost s1 core o a 0)
        | .ok (d, po, s2) => (d, po, s2.noFill core (decide <| · = a / 128))
    match l1Sec c a with
    | none => cut home.1 home.2.1 home.2.2
    | some x =>
      if x.filled then cut x.data x.poison s
      else cut (mergeBytes 128 x.dirty home.1 x.data) (mergePoison home.2.1 x.dirty x.poison) home.2.2

/-- What a TLD reads in a row: bytes, the mask of bad bytes, the first bad address. -/
def opRead : Nat → State → Nat → MOp → Nat → Nat → Nat × Nat × Option Nat × State
  | 0, s, _, _, _, _ => (0, 0, none, s)
  | fuel + 1, s, core, o, a, n =>
    if n = 0 then (0, 0, none, s)
    else
      let r := secRun a n
      let (x, bad, s1) := opReadSec s core o a r
      let here := ((List.range r).find? (bitAt bad ·)).map (addrAdd a ·)
      let (y, bad', first, s2) := opRead fuel s1 core o (addrAdd a r) (n - r)
      (x + 256 ^ r * y, bad + 2 ^ r * bad', if here.isSome then here else first, s2)

/-- The code written for an element read from poisoned data (R206). -/
def poisonCode (fmt : Nat) : Nat :=
  if fmt = 6 ∨ fmt = 7 then 0 else if fmt = 8 then FloatCode.e4m3.nanCode else (FloatCode.ofCode fmt).nanCode

/-- Element codes of a run of bytes, bad ones replaced (R206). -/
def cleanCodes (sh x bad n : Nat) : List Nat :=
  let w := shW sh
  (List.range n).map fun j =>
    let lo := j * w / 8
    let hi := (j * w + w - 1) / 8
    if bad / 2 ^ lo % 2 ^ (hi + 1 - lo) = 0 then lane x w j else poisonCode (shFmt sh)

/-- Put a row's codes and sideband into a tile that is being loaded (R199, R215). DESIGN CHOICE (log 65): a blocked record
whose header is poisoned, or did not come, has header 0 with the codes of R206. -/
def loadRow (sh i x bad mask : Nat) (t : Tile) : Tile :=
  let w := shW sh
  let at' := i * shCols sh * w
  let put (u : Tile) (lo n v : Nat) : Tile :=
    if n = 0 then u else { u with data := putBits u.data (lo + n - 1) lo v }
  if shSp sh then
    let n := popCount 64 mask
    let all := if bad % 256 = 0 then bad / 256 else 2 ^ 4096 - 1
    let u := put t at' (n * w) (packLanes w (cleanCodes sh (x / 2 ^ 64) all n))
    { u with side := putBits u.side (64 * i + 63) (64 * i) mask }
  else if shBlocked sh then
    let h := shHead sh
    let k := 2 ^ shBk sh
    let rb := recBytes (shFmt sh) (shBk sh)
    (List.range (shBlocks sh)).foldl (fun u blk =>
      let r := x / 256 ^ (blk * rb) % 256 ^ rb
      let pb := bad / 2 ^ (blk * rb) % 2 ^ rb
      let lost := decide (pb % 2 ^ h ≠ 0)
      let codes := cleanCodes sh (r / 256 ^ h) (if lost then 2 ^ 1024 - 1 else pb / 2 ^ h) k
      let b := i * shBlocks sh + blk
      let v := put u (at' + blk * k * w) (k * w) (packLanes w codes)
      { v with side := putBits v.side (8 * (b * h + h) - 1) (8 * b * h) (if lost then 0 else r % 256 ^ h) }) t
  else put t at' (shCols sh * w) (packLanes w (cleanCodes sh x bad (shCols sh)))

/-- A pending DATA_ERROR of a stream (R206, R210): the first one since the last was raised. -/
def noteError (s : State) (core st : Nat) (o : MOp) (addr kind : Nat) : State :=
  match o.slot with
  | none => s
  | some slot =>
    s.modStrand (placeOf core slot) fun x =>
      match nth none x.mpend st with
      | some _ => x
      | none => { x with mpend := setNth x.mpend st (some (addr, kind)) }

/-- The head operation of a stream is replaced. -/
def modHead (s : State) (core st : Nat) (f : MOp → MOp) : State :=
  s.modCore core fun c =>
    match queueOf c st with
    | [] => c
    | o :: os => { c with mq := setNth c.mq st (f o :: os) }

/-- A tile as an operation of stream `st` that issued after `since` waits reads it with shape `sh` (R202). -/
def readTile (s : State) (core st since i sh : Nat) : Tile × State :=
  let t := tileOf (s.coreOf core) i
  if t.vers.all fun v => decide (v.st = st) then (t.plain, s)
  else
    let (x, s1) := s.free
    let (y, s2) := s1.free
    let (z, s3) := s2.free
    (t.mixed st since sh x y z, s3)

/-- An operation of stream `st` writes bits of the data and the sideband of its tile, and PSN where it does (R202). -/
def writeTile (s : State) (core st : Nat) (o : MOp) (m : Nat × Nat) (u : Tile) (psn : Option (Bool × Option Nat)) : State :=
  s.modTile core o.td fun t => t.commit
    { st := st, since := o.since, w := shW o.shD, wd := m.1, ws := m.2, data := u.data, side := u.side, psn := psn, ended := none }

/-- The fewest waits that something which may still read or write a tile had before it: a queued operation that names
the tile, or a write that no wait has ended. -/
def leastSince (c : Core) (i n : Nat) : Nat :=
  let ops := (c.mq.flatMap id).filter fun o => decide (o.td = i ∨ o.ta = i ∨ o.tb = i)
  let open' := (tileOf c i).vers.filter (·.ended.isNone)
  Nat.min (ops.foldl (fun m o => Nat.min m o.since) n) (open'.foldl (fun m v => Nat.min m v.since) n)

/-- Wait `c` for some streams has ended, at one tile. -/
def settleTile (q : Nat → Bool) (core c : Nat) (s : State) (i : Nat) : State :=
  let t := tileOf (s.coreOf core) i
  let vs := t.vers.filter fun v => q v.st || v.ended.isSome
  let low (u : State) : Nat :=
    leastSince ((u.modTile core i fun y => { y with vers := endWrites q c y.vers }).coreOf core) i c
  if t.vers = [] then s
  else if vs.all fun v => decide (v.st = (vs.headD v).st) then s.modTile core i fun y => y.settle q c (low s) 0 0 0
  else
    let (x, s1) := s.free
    let (y, s2) := s1.free
    let (z, s3) := s2.free
    s3.modTile core i fun u => u.settle q c (low s) x y z

/-- The writes of some streams of a core to the tiles of a slot have been waited for (R202, R203); without a slot, those
to every tile. -/
def settleTiles (s : State) (core : Nat) (own : Option Nat) (q : Nat → Bool) : State :=
  let s1 := s.modCore core fun c => { c with mwaits := c.mwaits + 1 }
  let mine := (List.range 8).filter fun i => own.isNone || decide ((tileOf (s.coreOf core) i).owner = own)
  mine.foldl (settleTile q core (s1.coreOf core).mwaits) s1

/-- A TLD reads row `i` and writes it in its tile (R202, R206, R215); the last row writes PSN. -/
def tldRow (s : State) (core st : Nat) (o : MOp) : State × MOp :=
  let i := o.row
  let mask := nth 0 o.masks i
  let n := rowBytes o.shD (popCount 64 mask)
  let (x, bad, first, s1) := opRead (secFuel n) s core o (rowAddr o.ptr o.stride i) n
  let o1 : MOp := { o with row := i + 1, bad := o.bad.or first }
  let psn : Option (Bool × Option Nat) :=
    if o1.bad.isSome then some (true, o1.bad) else if o1.row < shRows o.shD then none else some (false, none)
  (writeTile s1 core st o (rowMasks o.shD i) (loadRow o.shD i x bad mask Tile.free) psn, o1)

/-- A TLD has moved its rows: a bad address pends (R206). DEDUCED (log 65): also one that a lost package left unanswered
is of kind 0, a read's. -/
def tldEnd (s : State) (core st : Nat) (o : MOp) : State :=
  match o.bad with
  | none => s
  | some a => noteError s core st o a 0

/-- The bytes of a row that TST writes (R215). -/
def storeRow (t : Tile) (sh i : Nat) : Nat × Nat :=
  let w := shW sh
  let at' := i * shCols sh * w
  if shSp sh then
    let m := rowMask t.side sh i
    let n := popCount 64 m
    (m + 2 ^ 64 * (t.data / 2 ^ at' % 2 ^ (n * w)), rowBytes sh n)
  else if shBlocked sh then
    let rb := recBytes (shFmt sh) (shBk sh)
    ((List.range (shBlocks sh)).foldl (fun x blk => x + 256 ^ (blk * rb) * tileRecord t sh i blk) 0,
     rowBytes sh 0)
  else (t.data / 2 ^ at' % 2 ^ (shCols sh * w), rowBytes sh 0)

/-- The strand's L1 takes the bytes that its TST has performed at the point of coherence (R203, R204). -/
def l1Absorb (s : State) (core a n x : Nat) : State :=
  match l1Line (s.coreOf core) a, l1Sec (s.coreOf core) a with
  | some l, some o =>
    let mk := runMask a n
    let y : L1Sec :=
      { o with dirty := o.dirty &&& (2 ^ 128 - 1 - mk),
               data := mergeBytes 128 mk o.data (x % 256 ^ n * 256 ^ (a % 128)),
               poison := mergePoison o.poison mk 0 }
    s.modCore core fun c =>
      { c with l1 := c.l1.map fun z => if z.line = l.line then { z with secs := fset z.secs (a / 128 % 8) y } else z }
  | _, _ => s

/-- TST writes bytes of a sector at the point of coherence; false when the write is not performed. -/
def opWriteSec (s : State) (core : Nat) (o : MOp) (a n x : Nat) : Bool × State :=
  if bitAt a 55 then
    (true, (asPlace (placeOf core (o.slot.getD 0)) (fun t => ((), placedStore t a n (2 ^ n - 1) x)) s).2)
  else
    match capturedTarget s (dieMod (cluDie (coreClu core))) o.tenant a (o.leafAt a) with
    | .error _ => (false, s)
    | .ok (t, s1) =>
      match writeTarget s1 t o.tenant a (runMask a n) (x % 256 ^ n * 256 ^ (a % 128)) 0 with
      | .error _ => (false, s1)
      | .ok s2 => (true, (l1Absorb s2 core a n x).noFill core fun sec => decide (sec = a / 128))

/-- TST writes a row. -/
def opWrite : Nat → State → Nat → Nat → MOp → Nat → Nat → Nat → State
  | 0, s, _, _, _, _, _, _ => s
  | fuel + 1, s, core, st, o, a, n, x =>
    if n = 0 then s
    else
      let r := secRun a n
      let (ok, s1) := opWriteSec s core o a r (x % 256 ^ r)
      let s2 := if ok then s1 else unansweredPost (noteError s1 core st o a 1) core o a 1
      opWrite fuel s2 core st o (addrAdd a r) (n - r) (x / 256 ^ r)

/-- A TST writes row `i` (R215). -/
def tstRow (s : State) (core st : Nat) (o : MOp) (i : Nat) : State :=
  let (t, s1) := readTile s core st o.since o.td o.shD
  let (x, n) := storeRow t o.shD i
  opWrite (secFuel n) s1 core st o (rowAddr o.ptr o.stride i) n x

/-- A write of this core to a checked sector is still on its way (R204). -/
def writesPending (s : State) (core : Nat) (o : MOp) : Bool :=
  o.attrs.any fun e => writeOnWay s core e.1

/-! ### Completion (R203) -/

/-- An operation on tiles makes some units of its result from what it finds in its tiles, and writes them (R202); their
flags go to its strand's stream flags (R205). -/
def runOnTiles (s : State) (core st : Nat) (o : MOp) (want : Nat) : State :=
  let (td, s1) := readTile s core st o.since o.td o.shD
  let (ta, s2) := readTile s1 core st o.since o.ta o.shA
  let (tb, s3) := readTile s2 core st o.since o.tb o.shB
  let (t, fls) := runTile o td ta tb
  let us := (List.range o.units).filter (bitAt want ·)
  let m := us.foldl (fun m i => (m.1 ||| (o.unitMask t i).1, m.2 ||| (o.unitMask t i).2)) (0, 0)
  let fl := us.foldl (fun f i => f ||| nth 0 fls i) 0
  let s4 := writeTile s3 core st o m t (psnOf o td ta tb)
  match o.slot with
  | none => s4
  | some slot =>
    s4.modStrand (placeOf core slot) fun x =>
      { x with mflags := setNth x.mflags st (nth 0 x.mflags st ||| (fl &&& 23)) }

/-- The units of its result that an operation has not made. -/
def MOp.unmade (o : MOp) : Nat := (2 ^ o.units - 1) ^^^ ((2 ^ o.units - 1) &&& o.made)

/-- The head operation of a stream makes some more units of its result. -/
def makeUnits (s : State) (core st : Nat) (o : MOp) (want : Nat) : State :=
  if want = 0 then s
  else modHead (runOnTiles s core st o want) core st fun v => { v with made := v.made ||| want }

/-- A completed operation of stream `st` counts down the remote MJOINs that wait for it (R224). -/
def drainJoins (st : Nat) (q : List MOp) : List MOp :=
  q.map fun o =>
    if o.kind = .mjoin then { o with masks := setNth o.masks st (nth 0 o.masks st - 1) } else o

/-- The head of a stream leaves; strands that wait on the unit look again (R201). -/
def popOp (s : State) (core st : Nat) : State :=
  let s1 := s.modCore core fun c =>
    { c with mq := (setNth c.mq st ((queueOf c st).drop 1)).map (drainJoins st) }
  startHeads (s1.wakeCore core [.engine]) core

/-- An operation has had the cycles it needs (R209). -/
def opReady (s : State) (core : Nat) (o : MOp) : Bool :=
  let c := s.coreOf core
  let now (i : Nat) : Tile := (tileOf c i).plain
  match o.kind with
  | .tld | .tst => !writesPending s core o
  | .mjoin => o.masks.all (· == 0)
  | _ => decide (arrayCycles o (now o.ta) (now o.tb) ≤ o.used)

/-- The head operation of a stream is complete: it leaves, and a remote command gives its grant back (R364). -/
def endOp (s : State) (core st : Nat) (o : MOp) : State :=
  let s1 := popOp s core st
  if o.slot.isNone && o.heavy then ungrant s1 (cluDie (coreClu core)) 2 else s1

/-- An access of the row from `a` on has no answer so far (R399): why, and at which address. -/
def rowHeld (m : Nat) (o : MOp) : Nat → State → Nat → Nat → Option (Fail × Nat)
  | 0, _, _, _ => none
  | fuel + 1, s, a, n =>
    if n = 0 then none
    else
      let r := secRun a n
      if bitAt a 55 || !o.attrs.any (fun e => decide (e.1 = a / 128)) then rowHeld m o fuel s (addrAdd a r) (n - r)
      else
        match capturedTarget s m o.tenant a (o.leafAt a) with
        | .error f => if f.pending then some (f, a) else rowHeld m o fuel s (addrAdd a r) (n - r)
        | .ok (_, s1) => rowHeld m o fuel s1 (addrAdd a r) (n - r)

/-- What the next row of a TLD or TST waits for (R399). -/
def rowWaits (s : State) (core : Nat) (o : MOp) : Option (Fail × Nat) :=
  let n := rowBytes o.shD (if o.kind = .tld then popCount 64 (nth 0 o.masks o.row) else 64)
  match rowHeld (dieMod (cluDie (coreClu core))) o (secFuel n) s (rowAddr o.ptr o.stride o.row) n with
  | none => none
  | some e => if keepsWaiting s.ticks patience o.lost e.1 e.2 o.row then some e else none

/-- A row of a TLD or TST is moved (R204, R215), once its accesses have their answers or their time is over (R399); after
the last one the operation is complete. -/
def moveRow (s : State) (core st : Nat) (o : MOp) : State :=
  match rowWaits s core o with
  | some (f, a) =>
    (modHead (noteLost s f) core st fun v => { v with lost := some (Lost.wait s.ticks o.lost f a 0 o.row) }).again
      (.matrixOpComplete core st)
  | none =>
  let next (t : State) (v : MOp) : State :=
    if v.row < shRows v.shD then (modHead t core st fun _ => v).spawn (.matrixOpComplete core st)
    else endOp (if v.kind = .tld then tldEnd t core st v else t) core st v
  if o.kind = .tld then
    let r := tldRow s core st o
    next r.1 r.2
  else next (tstRow s core st o o.row) { o with row := o.row + 1 }

/-- MATRIX_OP_COMPLETE (R203): the head operation of a stream goes on. A TLD or TST moves a row; an operation of the array
makes units of its result at any times up to its completion, which units is open (R9, R202), and leaves when it has had its
cycles (R209); a remote MJOIN leaves when the streams it names have drained. -/
def execMatrixOpComplete (core st : Nat) (s : State) : Host.Outcome State Fault Refusal :=
  match queueOf (s.coreOf core) st with
  | [] => .next s
  | o :: _ =>
    match o.kind with
    | .tld | .tst => .next (if opReady s core o then moveRow s core st o else s.again (.matrixOpComplete core st))
    | .mjoin =>
      .next (if opReady s core o then endOp (settleTiles s core none (bitAt o.vec ·)) core st o
             else s.again (.matrixOpComplete core st))
    | _ =>
      if o.unpowered then .next s
      else if opReady s core o then .next (endOp (makeUnits s core st o o.unmade) core st o)
      else if o.unmade = 0 then .next s
      else
        let (x, s1) := s.free
        .next ((makeUnits s1 core st o (o.unmade &&& x)).again (.matrixOpComplete core st))

/-- A stream's head operation wants an array cycle. -/
def wantsCycle (s : State) (core st : Nat) : Bool :=
  match queueOf (s.coreOf core) st with
  | [] => false
  | o :: _ => needsArray o && !opReady s core o && !o.unpowered

/-- One array cycle (R209): the next stream in ascending order after the one served last. -/
def matrixCycle (s : State) (core : Nat) : State :=
  let c := s.coreOf core
  match ((List.range 4).map fun i => (c.mlast + 1 + i) % 4).find? (wantsCycle s core) with
  | none => s
  | some st =>
    match queueOf c st with
    | [] => s
    | o :: os =>
      let o' : MOp := { o with used := o.used + 1 }
      let s1 := s.modCore core fun x => { x with mlast := st, mq := setNth x.mq st (o' :: os) }
      if opReady s1 core o' then s1.urge (.matrixOpComplete core st) else s1

/-! ### Waiting on streams, ownership, shapes -/

/-- An operation of a slot stands in a stream. -/
def streamBusy (s : State) (p : Place) (st : Nat) : Bool :=
  (queueOf (s.coreOf p.coreKey) st).any fun o => decide (o.slot = some p.slot)

/-- Any operation of a slot is not yet complete (R205). -/
def matrixBusy (s : State) (p : Place) : Bool := (List.range 4).any (streamBusy s p)

/-- Merge a strand's flags of some streams into FPCTL and clear them (R205). -/
def mergeFlags (s : State) (p : Place) (sts : List Nat) : State :=
  s.modStrand p fun x =>
    let fl := sts.foldl (fun f i => f ||| nth 0 x.mflags i) 0
    { x with mflags := sts.foldl (fun l i => setNth l i 0) x.mflags,
             csr := { x.csr with fpctl := x.csr.fpctl ||| word (fl % 32 * 16) } }

/-- The pending error of the lowest of some streams: the stream, address and kind. -/
def pendingError (x : Strand) (sts : List Nat) : Option (Nat × Nat × Nat) :=
  sts.findSome? fun i => (nth none x.mpend i).map fun e => (i, e.1, e.2)

/-- Raise the pending error of some streams, consuming it (R206), or go on. -/
def raisePending (s : State) (sts : List Nat) (m : Act Unit) : Host.Outcome State Fault Refusal :=
  match pendingError s.me sts with
  | some (st, a, k) =>
    finish { s with issue := { s.issue with eats := some st } } (.trap .dataError a k)
  | none => finish s (Act.res m s)

/-- MJOIN (R218): the streams of MASK. -/
def execMjoin (mask : BitVec 4) (s : State) : Host.Outcome State Fault Refusal :=
  let sts := (List.range 4).filter (bitAt mask.toNat ·)
  if sts.any (streamBusy s s.cur) then finish s (.park .engine false s)
  else raisePending s sts (change fun t => settleTiles (mergeFlags t t.cur sts) t.cur.coreKey (some t.cur.slot) sts.contains)

/-- TMOVV (R220). DEDUCED (log 65): a chunk out of range is found before the wait and before a pending DATA_ERROR. -/
def execTmovv (d : VReg) (a : TReg) (b : GReg) (st : BitVec 2) (s : State) :
    Host.Outcome State Fault Refusal :=
  let j := (rg s b).toNat
  match (do needTiles [a.val]; needChunk a.val j : Act Unit) s with
  | .error r => finish s r
  | .ok _ =>
    if (queueOf s.core st.toNat).isEmpty then
      raisePending s [st.toNat] (do
        let x ← (fun t =>
          let u := settleTiles t t.cur.coreKey (some t.cur.slot) fun i => decide (i = st.toNat)
          .ok (readTile u u.cur.coreKey st.toNat u.core.mwaits a.val (tileOf u.core a.val).tsh.toNat) : Act Tile)
        wv d (BitVec.ofNat 256 (getChunk x j)))
    else finish s (.park .engine false s)

/-- A free tile taken by a slot (R219). -/
def takenTile (slot : Nat) : Tile := { Tile.free with owner := some slot }

/-- The tiles a slot owns, as a mask. -/
def ownMask (c : Core) (slot : Nat) : Nat :=
  (List.range 8).foldl (fun m i => if (tileOf c i).owner = some slot then m + 2 ^ i else m) 0

/-- TALLOC (R219). -/
def execTalloc (d a : GReg) (s : State) : Host.Outcome State Fault Refusal :=
  let want := (rg s a).toNat % 256
  let slot := s.cur.slot
  let c := s.core
  let wanted := (List.range 8).filter (bitAt want ·)
  if tilesChanging s then finish s (.park .engine false s)
  else finish s (.done (
    if wanted.all fun i => (tileOf c i).owner.isNone || decide ((tileOf c i).owner = some slot) then
      let take (t : State) (i : Nat) : State :=
        if (tileOf c i).owner.isNone then t.modTile t.cur.coreKey i fun _ => takenTile slot else t
      let s1 := wanted.foldl take s
      wg s1 d (word (ownMask s1.core slot))
    else wg s d 0))

/-- Free the tiles of a mask that a slot owns (R219). -/
def freeTiles (s : State) (p : Place) (mask : Nat) : State :=
  let mine := (List.range 8).filter fun i =>
    bitAt mask i && decide ((tileOf (s.coreOf p.coreKey) i).owner = some p.slot)
  mine.foldl (fun t i => t.modTile p.coreKey i fun _ => Tile.free) s

/-- TFREE (R219). -/
def execTfree (a : GReg) (s : State) : Host.Outcome State Fault Refusal :=
  let mask := (rg s a).toNat % 256
  finish s (
    if matrixBusy s s.cur || tilesChanging s then .park .engine false s
    else
      .done (freeTiles (settleTiles (mergeFlags s s.cur (List.range 4)) s.cur.coreKey (some s.cur.slot) fun _ => true)
        s.cur mask))

/-- Write a TSH (R198, R214): TILE_SHAPE code 2 when the tile is not the strand's, code 3 for an invalid
value. -/
def writeTsh (i : Nat) (v : Word) : Act Unit := do
  needTiles [i]
  tileCheck 3 (failing (!tshValid v.toNat) [i])
  change fun t => t.modTile t.cur.coreKey i fun u => { u with tsh := v }

/-- TSHAPE (R214). -/
def execTshape (d : TReg) (a : GReg) (s : State) : Host.Outcome State Fault Refusal :=
  finish s (Act.res (writeTsh d.val (rg s a)) s)

end Sys2Proof.Machine
end

