-- ==== Sys2Proof/WellFormed.lean ====
section
/-! DEFINITION. Which instructions have an encoding: the reserved values and combinations of
R73-R76 and of the entries, as a check on the instruction. The steps without an encoding are
never well formed as words. -/

namespace Sys2Proof

/-- The assigned CSR numbers (R84). -/
def csrAssigned (n : Nat) : Bool :=
  (n ≤ 0x006) || (0x008 ≤ n && n ≤ 0x016) || (0x100 ≤ n && n ≤ 0x108)
    || (0x110 ≤ n && n ≤ 0x113) || n == 0x118 || n == 0x119
    || (0x200 ≤ n && n ≤ 0x205) || (0x300 ≤ n && n ≤ 0x306)

/-- The ratio of element counts of VCVT (R135). -/
def cvtRatio (s d : EType) : Nat := max s.count d.count / min s.count d.count

/-- The instruction is one that a word of its class can hold, lone or as a half of a pair. -/
def Instr.wf (lone : Bool) : Instr → Bool
  | .nop => true
  | .br _ => true
  | .call _ => true
  | .jmp _ _ => true
  | .callr _ _ => true
  | .beq _ _ _ => true
  | .bne _ _ _ => true
  | .blt _ _ _ => true
  | .bge _ _ _ => true
  | .bltu _ _ _ => true
  | .bgeu _ _ _ => true
  | .jtab _ _ _ => true
  | .loop _ imm => decide ((if lone then 2 else 3) ≤ imm.toNat)
  | .loopx _ => true
  | .realign _ => true
  | .course _ _ => true
  | .ldb _ _ _ _ => true
  | .ldbu _ _ _ _ => true
  | .ldh _ _ _ _ => true
  | .ldhu _ _ _ _ => true
  | .ldw _ _ _ _ => true
  | .ldwu _ _ _ _ => true
  | .ldd _ _ _ _ => true
  | .stb _ _ _ _ => true
  | .sth _ _ _ _ => true
  | .stw _ _ _ _ => true
  | .std _ _ _ _ => true
  | .ldaq _ _ _ _ sc => decide (sc ≠ .none)
  | .strl _ _ _ _ sc => decide (sc ≠ .none)
  | .ldf _ _ _ _ => true
  | .stf _ _ _ _ => true
  | .pref _ _ _ => true
  | .vld _ _ _ _ _ => true
  | .vst _ _ _ _ _ => true
  | .vlds _ _ _ _ _ => true
  | .vsts _ _ _ _ _ => true
  | .vldf _ _ _ _ => true
  | .vstf _ _ _ ty => decide (ty ≠ .own)
  | .vgath _ _ _ _ _ => true
  | .vscat _ _ _ _ _ => true
  | .amoadd _ _ _ wid sc _ rl aq => decide (wid = .w ∨ wid = .d) && ((sc == .none) == (!rl && !aq))
  | .amoand _ _ _ wid sc _ rl aq => decide (wid = .w ∨ wid = .d) && ((sc == .none) == (!rl && !aq))
  | .amoor _ _ _ wid sc _ rl aq => decide (wid = .w ∨ wid = .d) && ((sc == .none) == (!rl && !aq))
  | .amoxor _ _ _ wid sc _ rl aq => decide (wid = .w ∨ wid = .d) && ((sc == .none) == (!rl && !aq))
  | .amomin _ _ _ wid sc _ rl aq => decide (wid = .w ∨ wid = .d) && ((sc == .none) == (!rl && !aq))
  | .amomax _ _ _ wid sc _ rl aq => decide (wid = .w ∨ wid = .d) && ((sc == .none) == (!rl && !aq))
  | .amominu _ _ _ wid sc _ rl aq => decide (wid = .w ∨ wid = .d) && ((sc == .none) == (!rl && !aq))
  | .amomaxu _ _ _ wid sc _ rl aq => decide (wid = .w ∨ wid = .d) && ((sc == .none) == (!rl && !aq))
  | .amoswp _ _ _ wid sc _ rl aq => decide (wid = .w ∨ wid = .d) && ((sc == .none) == (!rl && !aq))
  | .amocas _ _ _ wid sc _ rl aq => decide (wid = .w ∨ wid = .d) && ((sc == .none) == (!rl && !aq))
  | .amofadd _ _ _ wid sc _ rl aq => decide (wid = .w) && ((sc == .none) == (!rl && !aq))
  | .amofmax _ _ _ wid sc _ rl aq => decide (wid = .w) && ((sc == .none) == (!rl && !aq))
  | .fence sc => decide (sc ≠ .none)
  | .acq sc => decide (sc ≠ .none)
  | .rel sc => decide (sc ≠ .none)
  | .waitw _ _ _ wid => decide (wid = .w ∨ wid = .d)
  | .wfe => true
  | .sev _ _ _ => true
  | .bararr _ _ _ => true
  | .barwt _ _ _ => true
  | .barxb _ _ => true
  | .gsync _ _ _ => true
  | .scfg _ _ => true
  | .sbind d _ _ => decide (12 ≤ d.val)
  | .sfree _ => true
  | .spos _ _ _ _ => true
  | .btset _ _ _ => true
  | .btgo _ _ => true
  | .btpoll _ _ _ => true
  | .ixpost _ _ _ _ => true
  | .klset _ _ _ _ => true
  | .klook _ _ _ _ => true
  | .klwait _ _ _ => true
  | .klres _ _ _ _ => true
  | .ebag _ _ _ _ => true
  | .eupd _ _ _ _ _ => true
  | .eupdClose _ _ _ _ => true
  | .tenq _ _ _ => true
  | .tdeq _ _ _ => true
  | .dcinit _ _ _ => true
  | .dcdec _ _ _ _ _ => true
  | .dcinc _ _ _ => true
  | .tyield _ _ _ => true
  | .texit _ => true
  | .pwreq _ _ _ => true
  | .pwrel => true
  | .smig _ _ => true
  | .gjoin _ _ _ => true
  | .gleave _ _ _ => true
  | .qsend _ _ _ => true
  | .qrecv _ _ _ _ => true
  | .vsopen _ _ _ _ _ => true
  | .vsmark _ _ => true
  | .vsclose _ _ => true
  | .mcmd _ _ _ => true
  | .csrr _ csr => csrAssigned csr.toNat
  | .csrw _ csr => csrAssigned csr.toNat
  | .csrx _ _ csr => csrAssigned csr.toNat
  | .trap _ => lone
  | .eret => lone
  | .plbinvPage _ sc => decide (sc = .die ∨ sc = .pkg ∨ sc = .ten)
  | .plbinvDom _ sc => decide (sc = .die ∨ sc = .pkg ∨ sc = .ten)
  | .plbinvVf sc => decide (sc = .die ∨ sc = .pkg ∨ sc = .ten)
  | .cflushCode _ _ sc => decide (sc = .clu ∨ sc = .die ∨ sc = .pkg ∨ sc = .ten)
  | .cflushWb _ _ => true
  | .cflushInv _ _ => true
  | .spart _ _ _ => true
  | .ctxsave _ _ => true
  | .ctxload _ _ => true
  | .anop => true
  | .add _ _ _ _ => true
  | .sub _ _ _ _ => true
  | .addi _ _ _ => true
  | .mul _ _ _ => true
  | .mulh _ _ _ => true
  | .mulhu _ _ _ => true
  | .div _ _ _ => true
  | .divu _ _ _ => true
  | .rem _ _ _ => true
  | .remu _ _ _ => true
  | .and _ _ _ => true
  | .or _ _ _ => true
  | .xor _ _ _ => true
  | .andi _ _ _ => true
  | .ori _ _ _ => true
  | .xori _ _ _ => true
  | .shl _ _ _ => true
  | .shr _ _ _ => true
  | .sar _ _ _ => true
  | .shli _ _ _ => true
  | .shri _ _ _ => true
  | .sari _ _ _ => true
  | .limm _ _ _ => true
  | .slt _ _ _ => true
  | .sltu _ _ _ => true
  | .seq _ _ _ => true
  | .sel _ _ _ => true
  | .clz _ _ => true
  | .popc _ _ => true
  | .min _ _ _ _ => true
  | .max _ _ _ _ => true
  | .pfmt _ _ _ => true
  | .pgetf _ _ _ => true
  | .padde _ _ _ => true
  | .pcaddr _ _ => true
  | .fadd _ _ _ _ _ => true
  | .fsub _ _ _ _ _ => true
  | .fmul _ _ _ _ _ => true
  | .fma _ _ _ _ _ => true
  | .fdiv _ _ _ _ _ => true
  | .fsqrt _ _ _ _ => true
  | .fmin _ _ _ _ => true
  | .fmax _ _ _ _ => true
  | .fcmp _ _ _ _ => true
  | .fcvt _ _ _ _ _ _ => true
  | .fcvti _ _ _ _ _ => true
  | .icvtf _ _ _ _ _ => true
  | .vadd _ _ _ _ ty rm sat => (ty.isInt || ty.isWF) && (!ty.isInt || decide (rm = .rne)) && (ty.isInt || !sat)
  | .vsub _ _ _ _ ty rm sat => (ty.isInt || ty.isWF) && (!ty.isInt || decide (rm = .rne)) && (ty.isInt || !sat)
  | .vmul _ _ _ _ ty rm => (ty.isInt || ty.isWF) && (!ty.isInt || decide (rm = .rne))
  | .vfma _ _ _ _ ty rm => (ty.isInt || ty.isWF) && (!ty.isInt || decide (rm = .rne))
  | .vmax _ _ _ _ ty => (ty.isInt || ty.isWF)
  | .vmin _ _ _ _ ty => (ty.isInt || ty.isWF)
  | .vand _ _ _ _ _ => true
  | .vor _ _ _ _ _ => true
  | .vxor _ _ _ _ _ => true
  | .vshl _ _ _ _ ty => ty.isInt
  | .vshr _ _ _ _ ty _ => ty.isInt
  | .vcmp _ _ _ _ ty cond => (ty.isInt || ty.isWF) && (decide (cond ≠ .un) || ty.isWF)
  | .vsel _ _ _ k _ => decide (k ≠ 0)
  | .vcvt _ _ dty _ ty rm part => (!(ty.isInt && dty.isInt) || decide (rm = .rne)) && decide (part.toNat < cvtRatio ty dty)
  | .vredsum _ _ _ _ ty acc => (!ty.isInt || decide (acc = .f32))
  | .vredmax _ _ _ ty => (ty.isInt || ty.isWF)
  | .vexp _ _ _ => true
  | .vrcp _ _ _ ty _ => ty.isWF
  | .vsplat _ _ _ => true
  | .vperm _ _ _ _ ty _ => decide (ty ≠ .e2m1)
  | .vmovg _ _ _ _ _ => true
  | .vmovv _ _ _ _ => true
  | .vtopk _ _ _ _ ty => (ty.isInt || ty.isWF)
  | .vdot _ _ _ _ ty acc => decide (ty ≠ .i32) && (!ty.isInt || decide (acc = .f32))
  | .tshape _ _ => true
  | .tld _ _ _ _ => true
  | .tst _ _ _ _ => true
  | .tzero _ _ => true
  | .mma _ _ _ _ _ _ => true
  | .mmas _ _ _ _ _ _ => true
  | .mmss _ _ _ _ _ _ => true
  | .tcvt _ _ _ _ => true
  | .tadd _ _ _ _ _ => true
  | .tscale _ _ _ _ _ _ => true
  | .ttrans _ _ _ => true
  | .mjoin mask => decide (mask ≠ 0)
  | .talloc _ _ => true
  | .tfree _ => true
  | .tmovv _ _ _ _ => true
  | .vmovt _ _ _ _ => true
  | .asyncTrapEntry _ => false
  | .itimerFire _ => false
  | .intdbWrite _ _ _ => false
  | .preemptNotice _ _ _ => false
  | .sstatWrite _ => false
  | .ipendClear _ => false
  | .registerWrite _ _ => false
  | .memResponse _ => false
  | .courseForward _ => false
  | .courseTimeout _ _ => false
  | .realignTimeout _ => false
  | .streamElementFetch _ _ => false
  | .streamPush _ _ => false
  | .matrixOpComplete _ _ => false
  | .mcmdCommand _ => false
  | .mcmdAnswer _ => false
  | .spartConversion _ => false
  | .waitwMonitorFire _ => false
  | .sevEvent _ => false
  | .timeSliceExpiry _ _ => false
  | .slotHandover _ _ => false
  | .bteTransferActivate _ => false
  | .bteWriteLand _ _ => false
  | .bteConsumerUpdate _ _ => false
  | .ixeElementCopy _ _ => false
  | .engineCompletion _ _ _ => false
  | .cringtailWrite _ _ => false
  | .engineOffline _ _ => false
  | .autoMigration _ => false
  | .migrationArrival _ => false
  | .migrationSlotFree _ => false
  | .kleScoring _ _ => false
  | .kleServiceRound _ _ => false
  | .kleRowArrival _ _ => false
  | .kleReadTimeout _ _ _ => false
  | .kleLookupComplete _ _ => false
  | .kleOffline _ => false
  | .eupdDirectAdd _ _ => false
  | .mergeContribution _ => false
  | .mergeClose _ => false
  | .closeAck _ => false
  | .homeSliceRequest _ _ => false
  | .farAtomicExecute _ _ => false
  | .pageWalk _ _ => false
  | .faultack _ => false
  | .faultackWake _ => false
  | .releaseProbe _ _ _ => false
  | .probeEcho _ _ => false
  | .uncorrectableError _ => false
  | .correctableError _ => false
  | .dieerrlog _ => false
  | .taskDispatch _ _ => false
  | .admissionServe _ => false
  | .taskSteal _ _ _ => false
  | .stealRequest _ _ => false
  | .stealRetry _ _ => false
  | .counterUpdate _ _ => false
  | .groupUpdate _ _ => false
  | .grantExpiry _ => false
  | .budgetSet _ _ => false
  | .thermalStep _ _ => false
  | .criticalTemperature _ => false
  | .shutdownTemperature _ => false
  | .lqdb _ _ => false
  | .launchTake _ _ => false
  | .launchEnd _ _ => false
  | .vfReset _ _ => false
  | .vfPolicyWrite _ _ _ => false
  | .hostBarWrite _ _ _ _ _ _ => false
  | .hostPortDown _ _ => false
  | .packageNumberWrite _ _ => false
  | .linkTraining _ _ _ _ => false
  | .moduleReset _ => false
  | .firmwareFetchRetry _ _ => false
  | .attestationRequest _ _ => false
  | .stackFailure _ _ => false
  | .ochreCoreFault _ _ _ => false
  | .flitRoute _ _ => false
  | .flitEject _ _ => false
  | .packetDeliver _ _ _ _ => false
  | .deliveryCredit _ _ _ _ => false
  | .linkFrameReceive _ _ => false
  | .linkDown _ _ => false
  | .pathFailed _ _ => false
  | .accessTimeout _ => false
  | .vsPacketArrive _ _ => false
  | .vsCredit _ _ _ => false
  | .gangQuery _ _ => false
  | .gangPause _ _ => false
  | .gangDrainComplete _ _ => false
  | .gangStopTimeout _ _ => false
  | .gangResume _ _ => false
  | .migrationCommandTake _ => false
  | .move _ _ => false
  | .dup _ _ => false
  | .collapse _ _ => false
  | .reclaim _ _ => false
  | .migrationCutover _ _ => false
  | .migrationCommandComplete _ _ => false
  | .stubRelay _ _ => false
  | .relayAck _ _ _ => false
  | .walkReturn _ _ => false
  | .redirect _ _ _ => false
  | .stubQuietExpiry _ _ _ => false
  | .purge _ _ _ _ => false
  | .purgeAck _ _ _ _ => false
  | .collapseInvalidate _ _ _ => false
  | .collapseAck _ _ _ => false
  | .illegalInstr _ => false
  | .reservedField _ => false
  | .faultQueueTailAdvance _ _ _ => false
  | .keyLoad _ _ _ _ _ => false
  | .hostPortUp _ _ => false
  | .portDieFailure _ _ => false
  | .engineRestore _ _ => false
  | .partitionConfigure _ _ _ => false
  | .errorCounterClear _ => false

end Sys2Proof
end

