-- ==== Sys2Proof/Decode.lean ====
section
/-! DEFINITION. The decoder: any 32-bit word to an instruction, or to the cause R79-R81 give it
with EINFO.SUB; then the encoder, from the same encoding tables of the spec. -/

namespace Sys2Proof

/-- Why a word is no instruction: an unassigned opcode (R79), or a reserved field or value with
the SUB of R81. -/
inductive DecodeError where
  | unassigned (op : BitVec 7)
  | reserved (sub : Nat)
  deriving DecidableEq, Repr

/-- The offending field whose highest bit is the highest (R81): its two bit numbers. DEDUCED (log 51): where a case
for which an entry names SUB 0 (a reserved CSR number, a body too short for LOOP) meets another offending field, the
highest field still decides. -/
def worst : List (Nat × Nat × Bool) → Option (Nat × Nat)
  | [] => none
  | (hi, lo, bad) :: rest =>
    match bad, worst rest with
    | false, r => r
    | true, none => some (hi, lo)
    | true, some (hi', lo') => if hi' ≤ hi then some (hi, lo) else some (hi', lo')

/-- The instruction, unless some field offends (R80 step 4). -/
def checked (bad : List (Nat × Nat × Bool)) (i : Instr) : Except DecodeError Instr :=
  match worst bad with
  | none => .ok i
  | some (_, lo) => .error (.reserved lo)

/-- RD and RM as one operand (R124). -/
def roundSel (rd rm : Nat) : RoundSel := if rd = 1 then .by (Rounding.ofCode rm) else .fpctl

/-- RD and RM of a rounding operand (R124). -/
def RoundSel.rd : RoundSel → Nat
  | .fpctl => 0
  | .by _ => 1
def RoundSel.rm : RoundSel → Nat
  | .fpctl => 0
  | .by m => m.code

/-- VCVT writes the destination type as ALT above etype (R135); AV bits 8:5 hold etype above
ALT (R75). -/
def etSwap (x : Nat) : Nat := x % 8 * 2 + x / 8
def etSwap' (x : Nat) : Nat := x / 2 + x % 2 * 8

/-- The element type of AV bits 8:5, and of the destination field of VCVT. -/
def etOf' (x : Nat) : EType := (EType.ofCode? x).getD .i8
def etOf (x : Nat) : EType := etOf' (etSwap x)

/-- The permitted element types of R130, on AV bits 8:5. -/
def etTest (p : EType → Bool) (x : Nat) : Bool :=
  match EType.ofCode? x with
  | none => false
  | some t => p t
def etAny : Nat → Bool := etTest fun _ => true
def etInt : Nat → Bool := etTest EType.isInt
def etWf : Nat → Bool := etTest EType.isWF
def etIntWf : Nat → Bool := etTest fun t => t.isInt || t.isWF
def etPerm : Nat → Bool := etTest fun t => t ≠ .e2m1
def etDot : Nat → Bool := etTest fun t => t ≠ .i32
def etCodeIsInt (w : Nat) : Bool := etInt (bits w 8 5)
def etDstIsInt (w : Nat) : Bool := etInt (etSwap (bits w 14 11))
def etSrcOk (w : Nat) : Bool := etAny (bits w 8 5)
def etDstOk (w : Nat) : Bool := etAny (etSwap (bits w 14 11))
def etRatio (w : Nat) : Nat := cvtRatio (etOf' (bits w 8 5)) (etOf (bits w 14 11))

/-- NOP: the encoding of R144. -/
def dec_nop (w : Nat) : Except DecodeError Instr :=
    checked [(22, 0, bits w 22 0 ≠ 0)]
    (.nop)

/-- BR: the encoding of R144. -/
def dec_br (w : Nat) : Except DecodeError Instr :=
    checked []
    (.br (BitVec.ofNat 23 (bits w 22 0)))

/-- CALL: the encoding of R145. -/
def dec_call (w : Nat) : Except DecodeError Instr :=
    checked []
    (.call (BitVec.ofNat 23 (bits w 22 0)))

/-- JMP: the encoding of R146. -/
def dec_jmp (w : Nat) : Except DecodeError Instr :=
    checked [(22, 18, bits w 22 18 ≠ 0)]
    (.jmp (Fin.ofNat 32 (bits w 17 13)) (BitVec.ofNat 13 (bits w 12 0)))

/-- CALLR: the encoding of R146. -/
def dec_callr (w : Nat) : Except DecodeError Instr :=
    checked [(22, 18, bits w 22 18 ≠ 0)]
    (.callr (Fin.ofNat 32 (bits w 17 13)) (BitVec.ofNat 13 (bits w 12 0)))

/-- BEQ: the encoding of R144. -/
def dec_beq (w : Nat) : Except DecodeError Instr :=
    checked []
    (.beq (Fin.ofNat 32 (bits w 22 18)) (Fin.ofNat 32 (bits w 17 13)) (BitVec.ofNat 13 (bits w 12 0)))

/-- BNE: the encoding of R144. -/
def dec_bne (w : Nat) : Except DecodeError Instr :=
    checked []
    (.bne (Fin.ofNat 32 (bits w 22 18)) (Fin.ofNat 32 (bits w 17 13)) (BitVec.ofNat 13 (bits w 12 0)))

/-- BLT: the encoding of R144. -/
def dec_blt (w : Nat) : Except DecodeError Instr :=
    checked []
    (.blt (Fin.ofNat 32 (bits w 22 18)) (Fin.ofNat 32 (bits w 17 13)) (BitVec.ofNat 13 (bits w 12 0)))

/-- BGE: the encoding of R144. -/
def dec_bge (w : Nat) : Except DecodeError Instr :=
    checked []
    (.bge (Fin.ofNat 32 (bits w 22 18)) (Fin.ofNat 32 (bits w 17 13)) (BitVec.ofNat 13 (bits w 12 0)))

/-- BLTU: the encoding of R144. -/
def dec_bltu (w : Nat) : Except DecodeError Instr :=
    checked []
    (.bltu (Fin.ofNat 32 (bits w 22 18)) (Fin.ofNat 32 (bits w 17 13)) (BitVec.ofNat 13 (bits w 12 0)))

/-- BGEU: the encoding of R144. -/
def dec_bgeu (w : Nat) : Except DecodeError Instr :=
    checked []
    (.bgeu (Fin.ofNat 32 (bits w 22 18)) (Fin.ofNat 32 (bits w 17 13)) (BitVec.ofNat 13 (bits w 12 0)))

/-- JTAB: the encoding of R147. -/
def dec_jtab (w : Nat) : Except DecodeError Instr :=
    checked []
    (.jtab (Fin.ofNat 32 (bits w 22 18)) (Fin.ofNat 32 (bits w 17 13)) (BitVec.ofNat 13 (bits w 12 0)))

/-- LOOP: the encoding of R189. -/
def dec_loop (lone : Bool) (w : Nat) : Except DecodeError Instr :=
    checked [(22, 18, bits w 22 18 ≠ 0), (12, 0, bits w 12 0 < (if lone then 2 else 3))]
    (.loop (Fin.ofNat 32 (bits w 17 13)) (BitVec.ofNat 13 (bits w 12 0)))

/-- LOOPX: the encoding of R190. -/
def dec_loopx (w : Nat) : Except DecodeError Instr :=
    checked [(22, 18, bits w 22 18 ≠ 0), (12, 0, bits w 12 0 ≠ 0)]
    (.loopx (Fin.ofNat 32 (bits w 17 13)))

/-- REALIGN: the encoding of R186. -/
def dec_realign (w : Nat) : Except DecodeError Instr :=
    checked [(22, 18, bits w 22 18 ≠ 0), (17, 13, bits w 17 13 ≠ 0)]
    (.realign (BitVec.ofNat 13 (bits w 12 0)))

/-- COURSE: the encoding of R187. -/
def dec_course (w : Nat) : Except DecodeError Instr :=
    checked [(12, 8, bits w 12 8 ≠ 0), (7, 0, bits w 7 0 ≠ 0)]
    (.course (Fin.ofNat 32 (bits w 22 18)) (Fin.ofNat 32 (bits w 17 13)))

/-- LDB: the encoding of R159. -/
def dec_ldb (w : Nat) : Except DecodeError Instr :=
    checked [(2, 0, 2 ≤ bits w 2 0)]
    (.ldb (Fin.ofNat 32 (bits w 22 18)) (Fin.ofNat 32 (bits w 17 13)) (BitVec.ofNat 10 (bits w 12 3)) (bits w 2 0 == 1))

/-- LDBU: the encoding of R159. -/
def dec_ldbu (w : Nat) : Except DecodeError Instr :=
    checked [(2, 0, 2 ≤ bits w 2 0)]
    (.ldbu (Fin.ofNat 32 (bits w 22 18)) (Fin.ofNat 32 (bits w 17 13)) (BitVec.ofNat 10 (bits w 12 3)) (bits w 2 0 == 1))

/-- LDH: the encoding of R159. -/
def dec_ldh (w : Nat) : Except DecodeError Instr :=
    checked [(2, 0, 2 ≤ bits w 2 0)]
    (.ldh (Fin.ofNat 32 (bits w 22 18)) (Fin.ofNat 32 (bits w 17 13)) (BitVec.ofNat 10 (bits w 12 3)) (bits w 2 0 == 1))

/-- LDHU: the encoding of R159. -/
def dec_ldhu (w : Nat) : Except DecodeError Instr :=
    checked [(2, 0, 2 ≤ bits w 2 0)]
    (.ldhu (Fin.ofNat 32 (bits w 22 18)) (Fin.ofNat 32 (bits w 17 13)) (BitVec.ofNat 10 (bits w 12 3)) (bits w 2 0 == 1))

/-- LDW: the encoding of R159. -/
def dec_ldw (w : Nat) : Except DecodeError Instr :=
    checked [(2, 0, 2 ≤ bits w 2 0)]
    (.ldw (Fin.ofNat 32 (bits w 22 18)) (Fin.ofNat 32 (bits w 17 13)) (BitVec.ofNat 10 (bits w 12 3)) (bits w 2 0 == 1))

/-- LDWU: the encoding of R159. -/
def dec_ldwu (w : Nat) : Except DecodeError Instr :=
    checked [(2, 0, 2 ≤ bits w 2 0)]
    (.ldwu (Fin.ofNat 32 (bits w 22 18)) (Fin.ofNat 32 (bits w 17 13)) (BitVec.ofNat 10 (bits w 12 3)) (bits w 2 0 == 1))

/-- LDD: the encoding of R159. -/
def dec_ldd (w : Nat) : Except DecodeError Instr :=
    checked [(2, 0, 2 ≤ bits w 2 0)]
    (.ldd (Fin.ofNat 32 (bits w 22 18)) (Fin.ofNat 32 (bits w 17 13)) (BitVec.ofNat 10 (bits w 12 3)) (bits w 2 0 == 1))

/-- STB: the encoding of R159. -/
def dec_stb (w : Nat) : Except DecodeError Instr :=
    checked [(2, 0, 2 ≤ bits w 2 0)]
    (.stb (Fin.ofNat 32 (bits w 22 18)) (Fin.ofNat 32 (bits w 17 13)) (BitVec.ofNat 10 (bits w 12 3)) (bits w 2 0 == 1))

/-- STH: the encoding of R159. -/
def dec_sth (w : Nat) : Except DecodeError Instr :=
    checked [(2, 0, 2 ≤ bits w 2 0)]
    (.sth (Fin.ofNat 32 (bits w 22 18)) (Fin.ofNat 32 (bits w 17 13)) (BitVec.ofNat 10 (bits w 12 3)) (bits w 2 0 == 1))

/-- STW: the encoding of R159. -/
def dec_stw (w : Nat) : Except DecodeError Instr :=
    checked [(2, 0, 2 ≤ bits w 2 0)]
    (.stw (Fin.ofNat 32 (bits w 22 18)) (Fin.ofNat 32 (bits w 17 13)) (BitVec.ofNat 10 (bits w 12 3)) (bits w 2 0 == 1))

/-- STD: the encoding of R159. -/
def dec_std (w : Nat) : Except DecodeError Instr :=
    checked [(2, 0, 2 ≤ bits w 2 0)]
    (.std (Fin.ofNat 32 (bits w 22 18)) (Fin.ofNat 32 (bits w 17 13)) (BitVec.ofNat 10 (bits w 12 3)) (bits w 2 0 == 1))

/-- LDAQ: the encoding of R172. -/
def dec_ldaq (w : Nat) : Except DecodeError Instr :=
    checked [(2, 0, bits w 2 0 = 0 || bits w 2 0 = 7)]
    (.ldaq (Fin.ofNat 32 (bits w 22 18)) (Fin.ofNat 32 (bits w 17 13)) (Width.ofCode (bits w 12 11)) (BitVec.ofNat 8 (bits w 10 3)) (Scope.ofCode (bits w 2 0)))

/-- STRL: the encoding of R172. -/
def dec_strl (w : Nat) : Except DecodeError Instr :=
    checked [(2, 0, bits w 2 0 = 0 || bits w 2 0 = 7)]
    (.strl (Fin.ofNat 32 (bits w 22 18)) (Fin.ofNat 32 (bits w 17 13)) (Width.ofCode (bits w 12 11)) (BitVec.ofNat 8 (bits w 10 3)) (Scope.ofCode (bits w 2 0)))

/-- LDF: the encoding of R161. -/
def dec_ldf (w : Nat) : Except DecodeError Instr :=
    checked [(1, 0, bits w 2 2 = 0 && bits w 1 0 ≠ 0)]
    (.ldf (Fin.ofNat 32 (bits w 22 18)) (Fin.ofNat 32 (bits w 17 13)) (BitVec.ofNat 10 (bits w 12 3)) (roundSel (bits w 2 2) (bits w 1 0)))

/-- STF: the encoding of R161. -/
def dec_stf (w : Nat) : Except DecodeError Instr :=
    checked [(1, 0, bits w 2 2 = 0 && bits w 1 0 ≠ 0)]
    (.stf (Fin.ofNat 32 (bits w 22 18)) (Fin.ofNat 32 (bits w 17 13)) (BitVec.ofNat 10 (bits w 12 3)) (roundSel (bits w 2 2) (bits w 1 0)))

/-- PREF: the encoding of R160. -/
def dec_pref (w : Nat) : Except DecodeError Instr :=
    checked [(22, 18, 3 ≤ bits w 22 18), (2, 0, bits w 2 0 ≠ 0)]
    (.pref (PrefKind.ofCode (bits w 22 18)) (Fin.ofNat 32 (bits w 17 13)) (BitVec.ofNat 10 (bits w 12 3)))

/-- VLD: the encoding of R162. DEDUCED (log 51): a `t` of 16 or more is a reserved value of the whole field (R73), here
and in VST, VLDF and VSTF. -/
def dec_vld (w : Nat) : Except DecodeError Instr :=
    checked [(22, 18, 16 ≤ bits w 22 18)]
    (.vld (Fin.ofNat 16 (bits w 22 18)) (Fin.ofNat 32 (bits w 17 13)) (BitVec.ofNat 10 (bits w 12 3)) (bits w 2 2 == 1) (Fin.ofNat 4 (bits w 1 0)))

/-- VST: the encoding of R162. -/
def dec_vst (w : Nat) : Except DecodeError Instr :=
    checked [(22, 18, 16 ≤ bits w 22 18)]
    (.vst (Fin.ofNat 16 (bits w 22 18)) (Fin.ofNat 32 (bits w 17 13)) (BitVec.ofNat 10 (bits w 12 3)) (bits w 2 2 == 1) (Fin.ofNat 4 (bits w 1 0)))

/-- VLDS: the encoding of R163. -/
def dec_vlds (w : Nat) : Except DecodeError Instr :=
    checked [(22, 18, 16 ≤ bits w 22 18), (5, 2, bits w 5 2 ≠ 0)]
    (.vlds (Fin.ofNat 16 (bits w 22 18)) (Fin.ofNat 32 (bits w 17 13)) (Fin.ofNat 32 (bits w 12 8)) (Width.ofCode (bits w 7 6)) (Fin.ofNat 4 (bits w 1 0)))

/-- VSTS: the encoding of R163. -/
def dec_vsts (w : Nat) : Except DecodeError Instr :=
    checked [(22, 18, 16 ≤ bits w 22 18), (5, 2, bits w 5 2 ≠ 0)]
    (.vsts (Fin.ofNat 16 (bits w 22 18)) (Fin.ofNat 32 (bits w 17 13)) (Fin.ofNat 32 (bits w 12 8)) (Width.ofCode (bits w 7 6)) (Fin.ofNat 4 (bits w 1 0)))

/-- VLDF: the encoding of R165. -/
def dec_vldf (w : Nat) : Except DecodeError Instr :=
    checked [(22, 18, 16 ≤ bits w 22 18), (2, 0, 4 ≤ bits w 2 0)]
    (.vldf (Fin.ofNat 16 (bits w 22 18)) (Fin.ofNat 32 (bits w 17 13)) (BitVec.ofNat 10 (bits w 12 3)) (VecFmt.ofCode (bits w 2 0)))

/-- VSTF: the encoding of R165. -/
def dec_vstf (w : Nat) : Except DecodeError Instr :=
    checked [(22, 18, 16 ≤ bits w 22 18), (2, 0, 3 ≤ bits w 2 0)]
    (.vstf (Fin.ofNat 16 (bits w 22 18)) (Fin.ofNat 32 (bits w 17 13)) (BitVec.ofNat 10 (bits w 12 3)) (VecFmt.ofCode (bits w 2 0)))

/-- VGATH: the encoding of R164. -/
def dec_vgath (w : Nat) : Except DecodeError Instr :=
    checked [(22, 18, 16 ≤ bits w 22 18), (12, 8, 16 ≤ bits w 12 8), (5, 2, bits w 5 2 ≠ 0)]
    (.vgath (Fin.ofNat 16 (bits w 22 18)) (Fin.ofNat 32 (bits w 17 13)) (Fin.ofNat 16 (bits w 12 8)) (Width.ofCode (bits w 7 6)) (Fin.ofNat 4 (bits w 1 0)))

/-- VSCAT: the encoding of R164. -/
def dec_vscat (w : Nat) : Except DecodeError Instr :=
    checked [(22, 18, 16 ≤ bits w 22 18), (12, 8, 16 ≤ bits w 12 8), (5, 2, bits w 5 2 ≠ 0)]
    (.vscat (Fin.ofNat 16 (bits w 22 18)) (Fin.ofNat 32 (bits w 17 13)) (Fin.ofNat 16 (bits w 12 8)) (Width.ofCode (bits w 7 6)) (Fin.ofNat 4 (bits w 1 0)))

/-- AMOADD: the encoding of R167. -/
def dec_amoadd (w : Nat) : Except DecodeError Instr :=
    checked [(7, 6, bits w 7 6 < 2), (5, 3, bits w 5 3 = 7 || ((bits w 5 3 == 0) != (bits w 1 0 == 0)))]
    (.amoadd (Fin.ofNat 32 (bits w 22 18)) (Fin.ofNat 32 (bits w 17 13)) (Fin.ofNat 32 (bits w 12 8)) (Width.ofCode (bits w 7 6)) (Scope.ofCode (bits w 5 3)) (bits w 2 2 == 1) (bits w 1 1 == 1) (bits w 0 0 == 1))

/-- AMOAND: the encoding of R167. -/
def dec_amoand (w : Nat) : Except DecodeError Instr :=
    checked [(7, 6, bits w 7 6 < 2), (5, 3, bits w 5 3 = 7 || ((bits w 5 3 == 0) != (bits w 1 0 == 0)))]
    (.amoand (Fin.ofNat 32 (bits w 22 18)) (Fin.ofNat 32 (bits w 17 13)) (Fin.ofNat 32 (bits w 12 8)) (Width.ofCode (bits w 7 6)) (Scope.ofCode (bits w 5 3)) (bits w 2 2 == 1) (bits w 1 1 == 1) (bits w 0 0 == 1))

/-- AMOOR: the encoding of R167. -/
def dec_amoor (w : Nat) : Except DecodeError Instr :=
    checked [(7, 6, bits w 7 6 < 2), (5, 3, bits w 5 3 = 7 || ((bits w 5 3 == 0) != (bits w 1 0 == 0)))]
    (.amoor (Fin.ofNat 32 (bits w 22 18)) (Fin.ofNat 32 (bits w 17 13)) (Fin.ofNat 32 (bits w 12 8)) (Width.ofCode (bits w 7 6)) (Scope.ofCode (bits w 5 3)) (bits w 2 2 == 1) (bits w 1 1 == 1) (bits w 0 0 == 1))

/-- AMOXOR: the encoding of R167. -/
def dec_amoxor (w : Nat) : Except DecodeError Instr :=
    checked [(7, 6, bits w 7 6 < 2), (5, 3, bits w 5 3 = 7 || ((bits w 5 3 == 0) != (bits w 1 0 == 0)))]
    (.amoxor (Fin.ofNat 32 (bits w 22 18)) (Fin.ofNat 32 (bits w 17 13)) (Fin.ofNat 32 (bits w 12 8)) (Width.ofCode (bits w 7 6)) (Scope.ofCode (bits w 5 3)) (bits w 2 2 == 1) (bits w 1 1 == 1) (bits w 0 0 == 1))

/-- AMOMIN: the encoding of R167. -/
def dec_amomin (w : Nat) : Except DecodeError Instr :=
    checked [(7, 6, bits w 7 6 < 2), (5, 3, bits w 5 3 = 7 || ((bits w 5 3 == 0) != (bits w 1 0 == 0)))]
    (.amomin (Fin.ofNat 32 (bits w 22 18)) (Fin.ofNat 32 (bits w 17 13)) (Fin.ofNat 32 (bits w 12 8)) (Width.ofCode (bits w 7 6)) (Scope.ofCode (bits w 5 3)) (bits w 2 2 == 1) (bits w 1 1 == 1) (bits w 0 0 == 1))

/-- AMOMAX: the encoding of R167. -/
def dec_amomax (w : Nat) : Except DecodeError Instr :=
    checked [(7, 6, bits w 7 6 < 2), (5, 3, bits w 5 3 = 7 || ((bits w 5 3 == 0) != (bits w 1 0 == 0)))]
    (.amomax (Fin.ofNat 32 (bits w 22 18)) (Fin.ofNat 32 (bits w 17 13)) (Fin.ofNat 32 (bits w 12 8)) (Width.ofCode (bits w 7 6)) (Scope.ofCode (bits w 5 3)) (bits w 2 2 == 1) (bits w 1 1 == 1) (bits w 0 0 == 1))

/-- AMOMINU: the encoding of R167. -/
def dec_amominu (w : Nat) : Except DecodeError Instr :=
    checked [(7, 6, bits w 7 6 < 2), (5, 3, bits w 5 3 = 7 || ((bits w 5 3 == 0) != (bits w 1 0 == 0)))]
    (.amominu (Fin.ofNat 32 (bits w 22 18)) (Fin.ofNat 32 (bits w 17 13)) (Fin.ofNat 32 (bits w 12 8)) (Width.ofCode (bits w 7 6)) (Scope.ofCode (bits w 5 3)) (bits w 2 2 == 1) (bits w 1 1 == 1) (bits w 0 0 == 1))

/-- AMOMAXU: the encoding of R167. -/
def dec_amomaxu (w : Nat) : Except DecodeError Instr :=
    checked [(7, 6, bits w 7 6 < 2), (5, 3, bits w 5 3 = 7 || ((bits w 5 3 == 0) != (bits w 1 0 == 0)))]
    (.amomaxu (Fin.ofNat 32 (bits w 22 18)) (Fin.ofNat 32 (bits w 17 13)) (Fin.ofNat 32 (bits w 12 8)) (Width.ofCode (bits w 7 6)) (Scope.ofCode (bits w 5 3)) (bits w 2 2 == 1) (bits w 1 1 == 1) (bits w 0 0 == 1))

/-- AMOSWP: the encoding of R167. -/
def dec_amoswp (w : Nat) : Except DecodeError Instr :=
    checked [(7, 6, bits w 7 6 < 2), (5, 3, bits w 5 3 = 7 || ((bits w 5 3 == 0) != (bits w 1 0 == 0)))]
    (.amoswp (Fin.ofNat 32 (bits w 22 18)) (Fin.ofNat 32 (bits w 17 13)) (Fin.ofNat 32 (bits w 12 8)) (Width.ofCode (bits w 7 6)) (Scope.ofCode (bits w 5 3)) (bits w 2 2 == 1) (bits w 1 1 == 1) (bits w 0 0 == 1))

/-- AMOCAS: the encoding of R167. -/
def dec_amocas (w : Nat) : Except DecodeError Instr :=
    checked [(7, 6, bits w 7 6 < 2), (5, 3, bits w 5 3 = 7 || ((bits w 5 3 == 0) != (bits w 1 0 == 0)))]
    (.amocas (Fin.ofNat 32 (bits w 22 18)) (Fin.ofNat 32 (bits w 17 13)) (Fin.ofNat 32 (bits w 12 8)) (Width.ofCode (bits w 7 6)) (Scope.ofCode (bits w 5 3)) (bits w 2 2 == 1) (bits w 1 1 == 1) (bits w 0 0 == 1))

/-- AMOFADD: the encoding of R167. -/
def dec_amofadd (w : Nat) : Except DecodeError Instr :=
    checked [(7, 6, bits w 7 6 ≠ 2), (5, 3, bits w 5 3 = 7 || ((bits w 5 3 == 0) != (bits w 1 0 == 0)))]
    (.amofadd (Fin.ofNat 32 (bits w 22 18)) (Fin.ofNat 32 (bits w 17 13)) (Fin.ofNat 32 (bits w 12 8)) (Width.ofCode (bits w 7 6)) (Scope.ofCode (bits w 5 3)) (bits w 2 2 == 1) (bits w 1 1 == 1) (bits w 0 0 == 1))

/-- AMOFMAX: the encoding of R167. -/
def dec_amofmax (w : Nat) : Except DecodeError Instr :=
    checked [(7, 6, bits w 7 6 ≠ 2), (5, 3, bits w 5 3 = 7 || ((bits w 5 3 == 0) != (bits w 1 0 == 0)))]
    (.amofmax (Fin.ofNat 32 (bits w 22 18)) (Fin.ofNat 32 (bits w 17 13)) (Fin.ofNat 32 (bits w 12 8)) (Width.ofCode (bits w 7 6)) (Scope.ofCode (bits w 5 3)) (bits w 2 2 == 1) (bits w 1 1 == 1) (bits w 0 0 == 1))

/-- FENCE: the encoding of R171. -/
def dec_fence (w : Nat) : Except DecodeError Instr :=
    checked [(5, 3, bits w 5 3 = 0 || bits w 5 3 = 7), (22, 18, bits w 22 18 ≠ 0), (17, 13, bits w 17 13 ≠ 0), (12, 8, bits w 12 8 ≠ 0), (7, 6, bits w 7 6 ≠ 0), (2, 0, bits w 2 0 ≠ 0)]
    (.fence (Scope.ofCode (bits w 5 3)))

/-- ACQ: the encoding of R171. -/
def dec_acq (w : Nat) : Except DecodeError Instr :=
    checked [(5, 3, bits w 5 3 = 0 || bits w 5 3 = 7), (22, 18, bits w 22 18 ≠ 0), (17, 13, bits w 17 13 ≠ 0), (12, 8, bits w 12 8 ≠ 0), (7, 6, bits w 7 6 ≠ 0), (2, 0, bits w 2 0 ≠ 0)]
    (.acq (Scope.ofCode (bits w 5 3)))

/-- REL: the encoding of R171. -/
def dec_rel (w : Nat) : Except DecodeError Instr :=
    checked [(5, 3, bits w 5 3 = 0 || bits w 5 3 = 7), (22, 18, bits w 22 18 ≠ 0), (17, 13, bits w 17 13 ≠ 0), (12, 8, bits w 12 8 ≠ 0), (7, 6, bits w 7 6 ≠ 0), (2, 0, bits w 2 0 ≠ 0)]
    (.rel (Scope.ofCode (bits w 5 3)))

/-- WAITW: the encoding of R229. -/
def dec_waitw (w : Nat) : Except DecodeError Instr :=
    checked [(7, 6, bits w 7 6 < 2), (5, 0, bits w 5 0 ≠ 0)]
    (.waitw (Fin.ofNat 32 (bits w 22 18)) (Fin.ofNat 32 (bits w 17 13)) (Fin.ofNat 32 (bits w 12 8)) (Width.ofCode (bits w 7 6)))

/-- WFE: the encoding of R231. -/
def dec_wfe (w : Nat) : Except DecodeError Instr :=
    checked [(22, 18, bits w 22 18 ≠ 0), (17, 13, bits w 17 13 ≠ 0), (12, 8, bits w 12 8 ≠ 0), (7, 0, bits w 7 0 ≠ 0)]
    (.wfe)

/-- SEV: the encoding of R232. -/
def dec_sev (w : Nat) : Except DecodeError Instr :=
    checked [(5, 3, bits w 5 3 = 7), (22, 18, bits w 22 18 ≠ 0), (12, 8, bits w 12 8 ≠ 0), (7, 6, bits w 7 6 ≠ 0), (2, 1, bits w 2 1 ≠ 0)]
    (.sev (Fin.ofNat 32 (bits w 17 13)) (Scope.ofCode (bits w 5 3)) (bits w 0 0 == 1))

/-- BARARR: the encoding of R258. -/
def dec_bararr (w : Nat) : Except DecodeError Instr :=
    checked [(5, 3, bits w 5 3 = 7), (12, 8, bits w 12 8 ≠ 0), (7, 6, bits w 7 6 ≠ 0), (2, 0, bits w 2 0 ≠ 0)]
    (.bararr (Fin.ofNat 32 (bits w 22 18)) (Fin.ofNat 32 (bits w 17 13)) (Scope.ofCode (bits w 5 3)))

/-- BARWT: the encoding of R258. -/
def dec_barwt (w : Nat) : Except DecodeError Instr :=
    checked [(5, 3, bits w 5 3 = 7), (22, 18, bits w 22 18 ≠ 0), (7, 6, bits w 7 6 ≠ 0), (2, 0, bits w 2 0 ≠ 0)]
    (.barwt (Fin.ofNat 32 (bits w 17 13)) (Fin.ofNat 32 (bits w 12 8)) (Scope.ofCode (bits w 5 3)))

/-- BARXB: the encoding of R258. -/
def dec_barxb (w : Nat) : Except DecodeError Instr :=
    checked [(22, 18, bits w 22 18 ≠ 0), (7, 0, bits w 7 0 ≠ 0)]
    (.barxb (Fin.ofNat 32 (bits w 17 13)) (Fin.ofNat 32 (bits w 12 8)))

/-- GSYNC: the encoding of R365. -/
def dec_gsync (w : Nat) : Except DecodeError Instr :=
    checked [(5, 3, bits w 5 3 = 7), (12, 8, bits w 12 8 ≠ 0), (7, 6, bits w 7 6 ≠ 0), (2, 0, bits w 2 0 ≠ 0)]
    (.gsync (Fin.ofNat 32 (bits w 22 18)) (Fin.ofNat 32 (bits w 17 13)) (Scope.ofCode (bits w 5 3)))

/-- SCFG: the encoding of R194. -/
def dec_scfg (w : Nat) : Except DecodeError Instr :=
    checked [(12, 8, bits w 12 8 ≠ 0), (7, 0, bits w 7 0 ≠ 0)]
    (.scfg (Fin.ofNat 32 (bits w 22 18)) (Fin.ofNat 32 (bits w 17 13)))

/-- SBIND: the encoding of R194. -/
def dec_sbind (w : Nat) : Except DecodeError Instr :=
    checked [(22, 18, bits w 22 18 < 12 || 16 ≤ bits w 22 18), (12, 8, bits w 12 8 ≠ 0), (7, 1, bits w 7 1 ≠ 0)]
    (.sbind (Fin.ofNat 16 (bits w 22 18)) (Fin.ofNat 32 (bits w 17 13)) (bits w 0 0 == 1))

/-- SFREE: the encoding of R194. -/
def dec_sfree (w : Nat) : Except DecodeError Instr :=
    checked [(22, 18, bits w 22 18 ≠ 0), (12, 8, bits w 12 8 ≠ 0), (7, 0, bits w 7 0 ≠ 0)]
    (.sfree (Fin.ofNat 32 (bits w 17 13)))

/-- SPOS: the encoding of R194. -/
def dec_spos (w : Nat) : Except DecodeError Instr :=
    checked [(7, 1, bits w 7 1 ≠ 0)]
    (.spos (Fin.ofNat 32 (bits w 22 18)) (Fin.ofNat 32 (bits w 17 13)) (Fin.ofNat 32 (bits w 12 8)) (bits w 0 0 == 1))

/-- BTSET: the encoding of R252. -/
def dec_btset (w : Nat) : Except DecodeError Instr :=
    checked [(22, 18, 13 ≤ bits w 22 18)]
    (.btset (Fin.ofNat 13 (bits w 22 18)) (Fin.ofNat 32 (bits w 17 13)) (BitVec.ofNat 13 (bits w 12 0)))

/-- BTGO: the encoding of R253. -/
def dec_btgo (w : Nat) : Except DecodeError Instr :=
    checked [(5, 3, bits w 5 3 = 7), (17, 13, bits w 17 13 ≠ 0), (12, 8, bits w 12 8 ≠ 0), (7, 6, bits w 7 6 ≠ 0), (2, 0, bits w 2 0 ≠ 0)]
    (.btgo (Fin.ofNat 32 (bits w 22 18)) (Scope.ofCode (bits w 5 3)))

/-- BTPOLL: the encoding of R249. -/
def dec_btpoll (w : Nat) : Except DecodeError Instr :=
    checked [(12, 8, bits w 12 8 ≠ 0), (7, 1, bits w 7 1 ≠ 0)]
    (.btpoll (Fin.ofNat 32 (bits w 22 18)) (Fin.ofNat 32 (bits w 17 13)) (bits w 0 0 == 1))

/-- IXPOST: the encoding of R260. -/
def dec_ixpost (w : Nat) : Except DecodeError Instr :=
    checked [(5, 3, bits w 5 3 = 7), (12, 8, bits w 12 8 ≠ 0), (7, 6, bits w 7 6 ≠ 0), (2, 1, bits w 2 1 ≠ 0)]
    (.ixpost (Fin.ofNat 32 (bits w 22 18)) (Fin.ofNat 32 (bits w 17 13)) (Scope.ofCode (bits w 5 3)) (bits w 0 0 == 1))

/-- KLSET: the encoding of R281. -/
def dec_klset (w : Nat) : Except DecodeError Instr :=
    checked [(7, 1, bits w 7 1 ≠ 0)]
    (.klset (Fin.ofNat 32 (bits w 22 18)) (Fin.ofNat 32 (bits w 17 13)) (Fin.ofNat 32 (bits w 12 8)) (bits w 0 0 == 1))

/-- KLOOK: the encoding of R282. -/
def dec_klook (w : Nat) : Except DecodeError Instr :=
    checked [(5, 3, bits w 5 3 = 7), (7, 6, bits w 7 6 ≠ 0), (2, 0, bits w 2 0 ≠ 0)]
    (.klook (Fin.ofNat 32 (bits w 22 18)) (Fin.ofNat 32 (bits w 17 13)) (Fin.ofNat 32 (bits w 12 8)) (Scope.ofCode (bits w 5 3)))

/-- KLWAIT: the encoding of R283. -/
def dec_klwait (w : Nat) : Except DecodeError Instr :=
    checked [(12, 8, bits w 12 8 ≠ 0), (7, 1, bits w 7 1 ≠ 0)]
    (.klwait (Fin.ofNat 32 (bits w 22 18)) (Fin.ofNat 32 (bits w 17 13)) (bits w 0 0 == 1))

/-- KLRES: the encoding of R284. -/
def dec_klres (w : Nat) : Except DecodeError Instr :=
    checked [(5, 3, bits w 5 3 = 7), (12, 8, bits w 12 8 ≠ 0), (7, 6, bits w 7 6 ≠ 0), (2, 1, bits w 2 1 ≠ 0)]
    (.klres (Fin.ofNat 32 (bits w 22 18)) (Fin.ofNat 32 (bits w 17 13)) (Scope.ofCode (bits w 5 3)) (bits w 0 0 == 1))

/-- EBAG: the encoding of R291. -/
def dec_ebag (w : Nat) : Except DecodeError Instr :=
    checked [(5, 3, bits w 5 3 = 7), (7, 6, bits w 7 6 ≠ 0), (2, 0, bits w 2 0 ≠ 0)]
    (.ebag (Fin.ofNat 32 (bits w 22 18)) (Fin.ofNat 32 (bits w 17 13)) (Fin.ofNat 32 (bits w 12 8)) (Scope.ofCode (bits w 5 3)))

/-- EUPD: the encoding of R296. -/
def dec_eupd (w : Nat) : Except DecodeError Instr :=
    checked [(5, 3, bits w 5 3 = 7), (7, 6, bits w 7 6 ≠ 0), (2, 2, bits w 2 2 ≠ 0)]
    (.eupd (Fin.ofNat 32 (bits w 22 18)) (Fin.ofNat 32 (bits w 17 13)) (Fin.ofNat 32 (bits w 12 8)) (Scope.ofCode (bits w 5 3)) (bits w 0 0 == 1))

/-- EUPD_CLOSE: the encoding of R297. DEDUCED (log 51): with RESUME as well, the offending field is the pair of bits. -/
def dec_eupdClose (w : Nat) : Except DecodeError Instr :=
    checked [(5, 3, bits w 5 3 = 7), (7, 6, bits w 7 6 ≠ 0), (2, 2, bits w 2 2 ≠ 0), (1, 0, bits w 0 0 = 1)]
    (.eupdClose (Fin.ofNat 32 (bits w 22 18)) (Fin.ofNat 32 (bits w 17 13)) (Fin.ofNat 32 (bits w 12 8)) (Scope.ofCode (bits w 5 3)))

/-- TENQ: the encoding of R360. -/
def dec_tenq (w : Nat) : Except DecodeError Instr :=
    checked [(5, 3, bits w 5 3 = 7), (12, 8, bits w 12 8 ≠ 0), (7, 6, bits w 7 6 ≠ 0), (2, 0, bits w 2 0 ≠ 0)]
    (.tenq (Fin.ofNat 32 (bits w 22 18)) (Fin.ofNat 32 (bits w 17 13)) (Scope.ofCode (bits w 5 3)))

/-- TDEQ: the encoding of R361. -/
def dec_tdeq (w : Nat) : Except DecodeError Instr :=
    checked [(7, 0, bits w 7 0 ≠ 0)]
    (.tdeq (Fin.ofNat 32 (bits w 22 18)) (Fin.ofNat 32 (bits w 17 13)) (Fin.ofNat 32 (bits w 12 8)))

/-- DCINIT: the encoding of R362. -/
def dec_dcinit (w : Nat) : Except DecodeError Instr :=
    checked []
    (.dcinit (Fin.ofNat 32 (bits w 22 18)) (Fin.ofNat 32 (bits w 17 13)) (BitVec.ofNat 13 (bits w 12 0)))

/-- DCDEC: the encoding of R362. -/
def dec_dcdec (w : Nat) : Except DecodeError Instr :=
    checked [(5, 3, bits w 5 3 = 7), (7, 6, bits w 7 6 ≠ 0), (2, 1, bits w 2 1 ≠ 0)]
    (.dcdec (Fin.ofNat 32 (bits w 22 18)) (Fin.ofNat 32 (bits w 17 13)) (Fin.ofNat 32 (bits w 12 8)) (Scope.ofCode (bits w 5 3)) (bits w 0 0 == 1))

/-- DCINC: the encoding of R362. -/
def dec_dcinc (w : Nat) : Except DecodeError Instr :=
    checked [(7, 0, bits w 7 0 ≠ 0)]
    (.dcinc (Fin.ofNat 32 (bits w 22 18)) (Fin.ofNat 32 (bits w 17 13)) (Fin.ofNat 32 (bits w 12 8)))

/-- TYIELD: the encoding of R363. -/
def dec_tyield (w : Nat) : Except DecodeError Instr :=
    checked [(5, 3, bits w 5 3 = 7), (22, 18, bits w 22 18 ≠ 0), (7, 6, bits w 7 6 ≠ 0), (2, 0, bits w 2 0 ≠ 0)]
    (.tyield (Fin.ofNat 32 (bits w 17 13)) (Fin.ofNat 32 (bits w 12 8)) (Scope.ofCode (bits w 5 3)))

/-- TEXIT: the encoding of R363. -/
def dec_texit (w : Nat) : Except DecodeError Instr :=
    checked [(5, 3, bits w 5 3 = 7), (22, 18, bits w 22 18 ≠ 0), (17, 13, bits w 17 13 ≠ 0), (12, 8, bits w 12 8 ≠ 0), (7, 6, bits w 7 6 ≠ 0), (2, 0, bits w 2 0 ≠ 0)]
    (.texit (Scope.ofCode (bits w 5 3)))

/-- PWREQ: the encoding of R364. -/
def dec_pwreq (w : Nat) : Except DecodeError Instr :=
    checked []
    (.pwreq (Fin.ofNat 32 (bits w 22 18)) (Fin.ofNat 32 (bits w 17 13)) (BitVec.ofNat 13 (bits w 12 0)))

/-- PWREL: the encoding of R364. -/
def dec_pwrel (w : Nat) : Except DecodeError Instr :=
    checked [(22, 18, bits w 22 18 ≠ 0), (17, 13, bits w 17 13 ≠ 0), (12, 8, bits w 12 8 ≠ 0), (7, 0, bits w 7 0 ≠ 0)]
    (.pwrel)

/-- SMIG: the encoding of R264. -/
def dec_smig (w : Nat) : Except DecodeError Instr :=
    checked [(12, 8, bits w 12 8 ≠ 0), (7, 0, bits w 7 0 ≠ 0)]
    (.smig (Fin.ofNat 32 (bits w 22 18)) (Fin.ofNat 32 (bits w 17 13)))

/-- GJOIN: the encoding of R365. -/
def dec_gjoin (w : Nat) : Except DecodeError Instr :=
    checked []
    (.gjoin (Fin.ofNat 32 (bits w 22 18)) (Fin.ofNat 32 (bits w 17 13)) (BitVec.ofNat 13 (bits w 12 0)))

/-- GLEAVE: the encoding of R365. -/
def dec_gleave (w : Nat) : Except DecodeError Instr :=
    checked []
    (.gleave (Fin.ofNat 32 (bits w 22 18)) (Fin.ofNat 32 (bits w 17 13)) (BitVec.ofNat 13 (bits w 12 0)))

/-- QSEND: the encoding of R412. -/
def dec_qsend (w : Nat) : Except DecodeError Instr :=
    checked [(17, 13, 4 ≤ bits w 17 13), (12, 8, 16 ≤ bits w 12 8), (22, 18, bits w 22 18 ≠ 0), (7, 1, bits w 7 1 ≠ 0)]
    (.qsend (Fin.ofNat 4 (bits w 17 13)) (Fin.ofNat 16 (bits w 12 8)) (bits w 0 0 == 1))

/-- QRECV: the encoding of R413. -/
def dec_qrecv (w : Nat) : Except DecodeError Instr :=
    checked [(22, 18, 16 ≤ bits w 22 18), (17, 13, 4 ≤ bits w 17 13), (7, 1, bits w 7 1 ≠ 0)]
    (.qrecv (Fin.ofNat 16 (bits w 22 18)) (Fin.ofNat 4 (bits w 17 13)) (Fin.ofNat 32 (bits w 12 8)) (bits w 0 0 == 1))

/-- VSOPEN: the encoding of R411. -/
def dec_vsopen (w : Nat) : Except DecodeError Instr :=
    checked [(12, 11, bits w 12 11 ≠ 0)]
    (.vsopen (Fin.ofNat 32 (bits w 22 18)) (Fin.ofNat 32 (bits w 17 13)) (bits w 10 10 == 1) (Fin.ofNat 4 (bits w 9 8)) (BitVec.ofNat 8 (bits w 7 0)))

/-- VSMARK: the encoding of R414. -/
def dec_vsmark (w : Nat) : Except DecodeError Instr :=
    checked [(17, 13, 4 ≤ bits w 17 13), (22, 18, bits w 22 18 ≠ 0), (7, 0, bits w 7 0 ≠ 0)]
    (.vsmark (Fin.ofNat 4 (bits w 17 13)) (Fin.ofNat 32 (bits w 12 8)))

/-- VSCLOSE: the encoding of R411. -/
def dec_vsclose (w : Nat) : Except DecodeError Instr :=
    checked [(17, 13, bits w 17 13 ≠ 0), (12, 8, bits w 12 8 ≠ 0)]
    (.vsclose (Fin.ofNat 32 (bits w 22 18)) (BitVec.ofNat 8 (bits w 7 0)))

/-- MCMD: the encoding of R223. -/
def dec_mcmd (w : Nat) : Except DecodeError Instr :=
    checked [(7, 0, bits w 7 0 ≠ 0)]
    (.mcmd (Fin.ofNat 32 (bits w 22 18)) (Fin.ofNat 32 (bits w 17 13)) (Fin.ofNat 32 (bits w 12 8)))

/-- CSRR: the encoding of R101. -/
def dec_csrr (w : Nat) : Except DecodeError Instr :=
    checked [(11, 0, !csrAssigned (bits w 11 0)), (17, 13, bits w 17 13 ≠ 0), (12, 12, bits w 12 12 ≠ 0)]
    (.csrr (Fin.ofNat 32 (bits w 22 18)) (BitVec.ofNat 12 (bits w 11 0)))

/-- CSRW: the encoding of R101. -/
def dec_csrw (w : Nat) : Except DecodeError Instr :=
    checked [(11, 0, !csrAssigned (bits w 11 0)), (22, 18, bits w 22 18 ≠ 0), (12, 12, bits w 12 12 ≠ 0)]
    (.csrw (Fin.ofNat 32 (bits w 17 13)) (BitVec.ofNat 12 (bits w 11 0)))

/-- CSRX: the encoding of R101. -/
def dec_csrx (w : Nat) : Except DecodeError Instr :=
    checked [(11, 0, !csrAssigned (bits w 11 0)), (12, 12, bits w 12 12 ≠ 0)]
    (.csrx (Fin.ofNat 32 (bits w 22 18)) (Fin.ofNat 32 (bits w 17 13)) (BitVec.ofNat 12 (bits w 11 0)))

/-- TRAP: the encoding of R102. -/
def dec_trap (lone : Bool) (w : Nat) : Except DecodeError Instr :=
    checked [(22, 18, bits w 22 18 ≠ 0), (17, 13, bits w 17 13 ≠ 0), (31, 31, !lone)]
    (.trap (BitVec.ofNat 13 (bits w 12 0)))

/-- ERET: the encoding of R103. -/
def dec_eret (lone : Bool) (w : Nat) : Except DecodeError Instr :=
    checked [(22, 18, bits w 22 18 ≠ 0), (17, 13, bits w 17 13 ≠ 0), (12, 8, bits w 12 8 ≠ 0), (7, 0, bits w 7 0 ≠ 0), (31, 31, !lone)]
    (.eret)

/-- PLBINV_PAGE: the encoding of R322. -/
def dec_plbinvPage (w : Nat) : Except DecodeError Instr :=
    checked [(5, 3, bits w 5 3 < 3 || 5 < bits w 5 3), (22, 18, bits w 22 18 ≠ 0), (12, 8, bits w 12 8 ≠ 0), (7, 6, bits w 7 6 ≠ 0), (2, 0, 3 ≤ bits w 2 0)]
    (.plbinvPage (Fin.ofNat 32 (bits w 17 13)) (Scope.ofCode (bits w 5 3)))

/-- PLBINV_DOM: the encoding of R322. -/
def dec_plbinvDom (w : Nat) : Except DecodeError Instr :=
    checked [(5, 3, bits w 5 3 < 3 || 5 < bits w 5 3), (22, 18, bits w 22 18 ≠ 0), (12, 8, bits w 12 8 ≠ 0), (7, 6, bits w 7 6 ≠ 0)]
    (.plbinvDom (Fin.ofNat 32 (bits w 17 13)) (Scope.ofCode (bits w 5 3)))

/-- PLBINV_VF: the encoding of R322. -/
def dec_plbinvVf (w : Nat) : Except DecodeError Instr :=
    checked [(5, 3, bits w 5 3 < 3 || 5 < bits w 5 3), (22, 18, bits w 22 18 ≠ 0), (17, 13, bits w 17 13 ≠ 0), (12, 8, bits w 12 8 ≠ 0), (7, 6, bits w 7 6 ≠ 0)]
    (.plbinvVf (Scope.ofCode (bits w 5 3)))

/-- CFLUSH_CODE: the encoding of R323; kinds 3-7 come here too, and their scope must be 0 as that of every kind but
`code`. -/
def dec_cflushCode (w : Nat) : Except DecodeError Instr :=
    checked [(5, 3, if bits w 2 0 = 0 then bits w 5 3 < 2 || 5 < bits w 5 3 else bits w 5 3 ≠ 0), (22, 18, bits w 22 18 ≠ 0), (7, 6, bits w 7 6 ≠ 0), (2, 0, 3 ≤ bits w 2 0)]
    (.cflushCode (Fin.ofNat 32 (bits w 17 13)) (Fin.ofNat 32 (bits w 12 8)) (Scope.ofCode (bits w 5 3)))

/-- CFLUSH_WB: the encoding of R323. -/
def dec_cflushWb (w : Nat) : Except DecodeError Instr :=
    checked [(22, 18, bits w 22 18 ≠ 0), (7, 6, bits w 7 6 ≠ 0), (5, 3, bits w 5 3 ≠ 0)]
    (.cflushWb (Fin.ofNat 32 (bits w 17 13)) (Fin.ofNat 32 (bits w 12 8)))

/-- CFLUSH_INV: the encoding of R323. -/
def dec_cflushInv (w : Nat) : Except DecodeError Instr :=
    checked [(22, 18, bits w 22 18 ≠ 0), (7, 6, bits w 7 6 ≠ 0), (5, 3, bits w 5 3 ≠ 0)]
    (.cflushInv (Fin.ofNat 32 (bits w 17 13)) (Fin.ofNat 32 (bits w 12 8)))

/-- SPART: the encoding of R228. -/
def dec_spart (w : Nat) : Except DecodeError Instr :=
    checked []
    (.spart (Fin.ofNat 32 (bits w 22 18)) (Fin.ofNat 32 (bits w 17 13)) (BitVec.ofNat 13 (bits w 12 0)))

/-- CTXSAVE: the encoding of R235. -/
def dec_ctxsave (w : Nat) : Except DecodeError Instr :=
    checked [(12, 8, bits w 12 8 ≠ 0), (7, 0, bits w 7 0 ≠ 0)]
    (.ctxsave (Fin.ofNat 32 (bits w 22 18)) (Fin.ofNat 32 (bits w 17 13)))

/-- CTXLOAD: the encoding of R235. -/
def dec_ctxload (w : Nat) : Except DecodeError Instr :=
    checked [(12, 8, bits w 12 8 ≠ 0), (7, 0, bits w 7 0 ≠ 0)]
    (.ctxload (Fin.ofNat 32 (bits w 22 18)) (Fin.ofNat 32 (bits w 17 13)))

/-- ANOP: the encoding of R107. -/
def dec_anop (w : Nat) : Except DecodeError Instr :=
    checked [(22, 18, bits w 22 18 ≠ 0), (17, 13, bits w 17 13 ≠ 0), (12, 8, bits w 12 8 ≠ 0), (7, 0, bits w 7 0 ≠ 0)]
    (.anop)

/-- ADD: the encoding of R108. -/
def dec_add (w : Nat) : Except DecodeError Instr :=
    checked [(7, 1, bits w 7 1 ≠ 0)]
    (.add (Fin.ofNat 32 (bits w 22 18)) (Fin.ofNat 32 (bits w 17 13)) (Fin.ofNat 32 (bits w 12 8)) (bits w 0 0 == 1))

/-- SUB: the encoding of R108. -/
def dec_sub (w : Nat) : Except DecodeError Instr :=
    checked [(7, 1, bits w 7 1 ≠ 0)]
    (.sub (Fin.ofNat 32 (bits w 22 18)) (Fin.ofNat 32 (bits w 17 13)) (Fin.ofNat 32 (bits w 12 8)) (bits w 0 0 == 1))

/-- ADDI: the encoding of R109. -/
def dec_addi (w : Nat) : Except DecodeError Instr :=
    checked []
    (.addi (Fin.ofNat 32 (bits w 22 18)) (Fin.ofNat 32 (bits w 17 13)) (BitVec.ofNat 13 (bits w 12 0)))

/-- MUL: the encoding of R112. -/
def dec_mul (w : Nat) : Except DecodeError Instr :=
    checked [(7, 0, bits w 7 0 ≠ 0)]
    (.mul (Fin.ofNat 32 (bits w 22 18)) (Fin.ofNat 32 (bits w 17 13)) (Fin.ofNat 32 (bits w 12 8)))

/-- MULH: the encoding of R112. -/
def dec_mulh (w : Nat) : Except DecodeError Instr :=
    checked [(7, 0, bits w 7 0 ≠ 0)]
    (.mulh (Fin.ofNat 32 (bits w 22 18)) (Fin.ofNat 32 (bits w 17 13)) (Fin.ofNat 32 (bits w 12 8)))

/-- MULHU: the encoding of R112. -/
def dec_mulhu (w : Nat) : Except DecodeError Instr :=
    checked [(7, 0, bits w 7 0 ≠ 0)]
    (.mulhu (Fin.ofNat 32 (bits w 22 18)) (Fin.ofNat 32 (bits w 17 13)) (Fin.ofNat 32 (bits w 12 8)))

/-- DIV: the encoding of R113. -/
def dec_div (w : Nat) : Except DecodeError Instr :=
    checked [(7, 0, bits w 7 0 ≠ 0)]
    (.div (Fin.ofNat 32 (bits w 22 18)) (Fin.ofNat 32 (bits w 17 13)) (Fin.ofNat 32 (bits w 12 8)))

/-- DIVU: the encoding of R113. -/
def dec_divu (w : Nat) : Except DecodeError Instr :=
    checked [(7, 0, bits w 7 0 ≠ 0)]
    (.divu (Fin.ofNat 32 (bits w 22 18)) (Fin.ofNat 32 (bits w 17 13)) (Fin.ofNat 32 (bits w 12 8)))

/-- REM: the encoding of R113. -/
def dec_rem (w : Nat) : Except DecodeError Instr :=
    checked [(7, 0, bits w 7 0 ≠ 0)]
    (.rem (Fin.ofNat 32 (bits w 22 18)) (Fin.ofNat 32 (bits w 17 13)) (Fin.ofNat 32 (bits w 12 8)))

/-- REMU: the encoding of R113. -/
def dec_remu (w : Nat) : Except DecodeError Instr :=
    checked [(7, 0, bits w 7 0 ≠ 0)]
    (.remu (Fin.ofNat 32 (bits w 22 18)) (Fin.ofNat 32 (bits w 17 13)) (Fin.ofNat 32 (bits w 12 8)))

/-- AND: the encoding of R110. -/
def dec_and (w : Nat) : Except DecodeError Instr :=
    checked [(7, 0, bits w 7 0 ≠ 0)]
    (.and (Fin.ofNat 32 (bits w 22 18)) (Fin.ofNat 32 (bits w 17 13)) (Fin.ofNat 32 (bits w 12 8)))

/-- OR: the encoding of R110. -/
def dec_or (w : Nat) : Except DecodeError Instr :=
    checked [(7, 0, bits w 7 0 ≠ 0)]
    (.or (Fin.ofNat 32 (bits w 22 18)) (Fin.ofNat 32 (bits w 17 13)) (Fin.ofNat 32 (bits w 12 8)))

/-- XOR: the encoding of R110. -/
def dec_xor (w : Nat) : Except DecodeError Instr :=
    checked [(7, 0, bits w 7 0 ≠ 0)]
    (.xor (Fin.ofNat 32 (bits w 22 18)) (Fin.ofNat 32 (bits w 17 13)) (Fin.ofNat 32 (bits w 12 8)))

/-- ANDI: the encoding of R110. -/
def dec_andi (w : Nat) : Except DecodeError Instr :=
    checked []
    (.andi (Fin.ofNat 32 (bits w 22 18)) (Fin.ofNat 32 (bits w 17 13)) (BitVec.ofNat 13 (bits w 12 0)))

/-- ORI: the encoding of R110. -/
def dec_ori (w : Nat) : Except DecodeError Instr :=
    checked []
    (.ori (Fin.ofNat 32 (bits w 22 18)) (Fin.ofNat 32 (bits w 17 13)) (BitVec.ofNat 13 (bits w 12 0)))

/-- XORI: the encoding of R110. -/
def dec_xori (w : Nat) : Except DecodeError Instr :=
    checked []
    (.xori (Fin.ofNat 32 (bits w 22 18)) (Fin.ofNat 32 (bits w 17 13)) (BitVec.ofNat 13 (bits w 12 0)))

/-- SHL: the encoding of R111. -/
def dec_shl (w : Nat) : Except DecodeError Instr :=
    checked [(7, 0, bits w 7 0 ≠ 0)]
    (.shl (Fin.ofNat 32 (bits w 22 18)) (Fin.ofNat 32 (bits w 17 13)) (Fin.ofNat 32 (bits w 12 8)))

/-- SHR: the encoding of R111. -/
def dec_shr (w : Nat) : Except DecodeError Instr :=
    checked [(7, 0, bits w 7 0 ≠ 0)]
    (.shr (Fin.ofNat 32 (bits w 22 18)) (Fin.ofNat 32 (bits w 17 13)) (Fin.ofNat 32 (bits w 12 8)))

/-- SAR: the encoding of R111. -/
def dec_sar (w : Nat) : Except DecodeError Instr :=
    checked [(7, 0, bits w 7 0 ≠ 0)]
    (.sar (Fin.ofNat 32 (bits w 22 18)) (Fin.ofNat 32 (bits w 17 13)) (Fin.ofNat 32 (bits w 12 8)))

/-- SHLI: the encoding of R111. -/
def dec_shli (w : Nat) : Except DecodeError Instr :=
    checked [(12, 6, bits w 12 6 ≠ 0)]
    (.shli (Fin.ofNat 32 (bits w 22 18)) (Fin.ofNat 32 (bits w 17 13)) (BitVec.ofNat 6 (bits w 5 0)))

/-- SHRI: the encoding of R111. -/
def dec_shri (w : Nat) : Except DecodeError Instr :=
    checked [(12, 6, bits w 12 6 ≠ 0)]
    (.shri (Fin.ofNat 32 (bits w 22 18)) (Fin.ofNat 32 (bits w 17 13)) (BitVec.ofNat 6 (bits w 5 0)))

/-- SARI: the encoding of R111. -/
def dec_sari (w : Nat) : Except DecodeError Instr :=
    checked [(12, 6, bits w 12 6 ≠ 0)]
    (.sari (Fin.ofNat 32 (bits w 22 18)) (Fin.ofNat 32 (bits w 17 13)) (BitVec.ofNat 6 (bits w 5 0)))

/-- LIMM: the encoding of R117. -/
def dec_limm (w : Nat) : Except DecodeError Instr :=
    checked []
    (.limm (Fin.ofNat 32 (bits w 22 18)) (BitVec.ofNat 2 (bits w 17 16)) (BitVec.ofNat 16 (bits w 15 0)))

/-- SLT: the encoding of R114. -/
def dec_slt (w : Nat) : Except DecodeError Instr :=
    checked [(7, 0, bits w 7 0 ≠ 0)]
    (.slt (Fin.ofNat 32 (bits w 22 18)) (Fin.ofNat 32 (bits w 17 13)) (Fin.ofNat 32 (bits w 12 8)))

/-- SLTU: the encoding of R114. -/
def dec_sltu (w : Nat) : Except DecodeError Instr :=
    checked [(7, 0, bits w 7 0 ≠ 0)]
    (.sltu (Fin.ofNat 32 (bits w 22 18)) (Fin.ofNat 32 (bits w 17 13)) (Fin.ofNat 32 (bits w 12 8)))

/-- SEQ: the encoding of R114. -/
def dec_seq (w : Nat) : Except DecodeError Instr :=
    checked [(7, 0, bits w 7 0 ≠ 0)]
    (.seq (Fin.ofNat 32 (bits w 22 18)) (Fin.ofNat 32 (bits w 17 13)) (Fin.ofNat 32 (bits w 12 8)))

/-- SEL: the encoding of R115. -/
def dec_sel (w : Nat) : Except DecodeError Instr :=
    checked [(7, 0, bits w 7 0 ≠ 0)]
    (.sel (Fin.ofNat 32 (bits w 22 18)) (Fin.ofNat 32 (bits w 17 13)) (Fin.ofNat 32 (bits w 12 8)))

/-- CLZ: the encoding of R116. -/
def dec_clz (w : Nat) : Except DecodeError Instr :=
    checked [(12, 8, bits w 12 8 ≠ 0), (7, 0, bits w 7 0 ≠ 0)]
    (.clz (Fin.ofNat 32 (bits w 22 18)) (Fin.ofNat 32 (bits w 17 13)))

/-- POPC: the encoding of R116. -/
def dec_popc (w : Nat) : Except DecodeError Instr :=
    checked [(12, 8, bits w 12 8 ≠ 0), (7, 0, bits w 7 0 ≠ 0)]
    (.popc (Fin.ofNat 32 (bits w 22 18)) (Fin.ofNat 32 (bits w 17 13)))

/-- MIN: the encoding of R114. -/
def dec_min (w : Nat) : Except DecodeError Instr :=
    checked [(7, 1, bits w 7 1 ≠ 0)]
    (.min (Fin.ofNat 32 (bits w 22 18)) (Fin.ofNat 32 (bits w 17 13)) (Fin.ofNat 32 (bits w 12 8)) (bits w 0 0 == 1))

/-- MAX: the encoding of R114. -/
def dec_max (w : Nat) : Except DecodeError Instr :=
    checked [(7, 1, bits w 7 1 ≠ 0)]
    (.max (Fin.ofNat 32 (bits w 22 18)) (Fin.ofNat 32 (bits w 17 13)) (Fin.ofNat 32 (bits w 12 8)) (bits w 0 0 == 1))

/-- PFMT: the encoding of R118. -/
def dec_pfmt (w : Nat) : Except DecodeError Instr :=
    checked [(7, 0, bits w 7 0 ≠ 0)]
    (.pfmt (Fin.ofNat 32 (bits w 22 18)) (Fin.ofNat 32 (bits w 17 13)) (Fin.ofNat 32 (bits w 12 8)))

/-- PGETF: the encoding of R119. -/
def dec_pgetf (w : Nat) : Except DecodeError Instr :=
    checked [(12, 8, bits w 12 8 ≠ 0), (7, 2, bits w 7 2 ≠ 0)]
    (.pgetf (Fin.ofNat 32 (bits w 22 18)) (Fin.ofNat 32 (bits w 17 13)) (BitVec.ofNat 2 (bits w 1 0)))

/-- PADDE: the encoding of R120. -/
def dec_padde (w : Nat) : Except DecodeError Instr :=
    checked [(7, 0, bits w 7 0 ≠ 0)]
    (.padde (Fin.ofNat 32 (bits w 22 18)) (Fin.ofNat 32 (bits w 17 13)) (Fin.ofNat 32 (bits w 12 8)))

/-- PCADDR: the encoding of R122. -/
def dec_pcaddr (w : Nat) : Except DecodeError Instr :=
    checked [(17, 13, bits w 17 13 ≠ 0)]
    (.pcaddr (Fin.ofNat 32 (bits w 22 18)) (BitVec.ofNat 13 (bits w 12 0)))

/-- FADD: the encoding of R125. -/
def dec_fadd (w : Nat) : Except DecodeError Instr :=
    checked [(7, 6, bits w 2 2 = 0 && bits w 7 6 ≠ 0), (1, 0, bits w 1 0 = 3), (5, 3, bits w 5 3 ≠ 0)]
    (.fadd (Fin.ofNat 32 (bits w 22 18)) (Fin.ofNat 32 (bits w 17 13)) (Fin.ofNat 32 (bits w 12 8)) (roundSel (bits w 2 2) (bits w 7 6)) (FloatFmt.ofCode (bits w 1 0)))

/-- FSUB: the encoding of R125. -/
def dec_fsub (w : Nat) : Except DecodeError Instr :=
    checked [(7, 6, bits w 2 2 = 0 && bits w 7 6 ≠ 0), (1, 0, bits w 1 0 = 3), (5, 3, bits w 5 3 ≠ 0)]
    (.fsub (Fin.ofNat 32 (bits w 22 18)) (Fin.ofNat 32 (bits w 17 13)) (Fin.ofNat 32 (bits w 12 8)) (roundSel (bits w 2 2) (bits w 7 6)) (FloatFmt.ofCode (bits w 1 0)))

/-- FMUL: the encoding of R125. -/
def dec_fmul (w : Nat) : Except DecodeError Instr :=
    checked [(7, 6, bits w 2 2 = 0 && bits w 7 6 ≠ 0), (1, 0, bits w 1 0 = 3), (5, 3, bits w 5 3 ≠ 0)]
    (.fmul (Fin.ofNat 32 (bits w 22 18)) (Fin.ofNat 32 (bits w 17 13)) (Fin.ofNat 32 (bits w 12 8)) (roundSel (bits w 2 2) (bits w 7 6)) (FloatFmt.ofCode (bits w 1 0)))

/-- FMA: the encoding of R125. -/
def dec_fma (w : Nat) : Except DecodeError Instr :=
    checked [(7, 6, bits w 2 2 = 0 && bits w 7 6 ≠ 0), (1, 0, bits w 1 0 = 3), (5, 3, bits w 5 3 ≠ 0)]
    (.fma (Fin.ofNat 32 (bits w 22 18)) (Fin.ofNat 32 (bits w 17 13)) (Fin.ofNat 32 (bits w 12 8)) (roundSel (bits w 2 2) (bits w 7 6)) (FloatFmt.ofCode (bits w 1 0)))

/-- FDIV: the encoding of R125. -/
def dec_fdiv (w : Nat) : Except DecodeError Instr :=
    checked [(7, 6, bits w 2 2 = 0 && bits w 7 6 ≠ 0), (1, 0, bits w 1 0 = 3), (5, 3, bits w 5 3 ≠ 0)]
    (.fdiv (Fin.ofNat 32 (bits w 22 18)) (Fin.ofNat 32 (bits w 17 13)) (Fin.ofNat 32 (bits w 12 8)) (roundSel (bits w 2 2) (bits w 7 6)) (FloatFmt.ofCode (bits w 1 0)))

/-- FSQRT: the encoding of R125. -/
def dec_fsqrt (w : Nat) : Except DecodeError Instr :=
    checked [(7, 6, bits w 2 2 = 0 && bits w 7 6 ≠ 0), (1, 0, bits w 1 0 = 3), (12, 8, bits w 12 8 ≠ 0), (5, 3, bits w 5 3 ≠ 0)]
    (.fsqrt (Fin.ofNat 32 (bits w 22 18)) (Fin.ofNat 32 (bits w 17 13)) (roundSel (bits w 2 2) (bits w 7 6)) (FloatFmt.ofCode (bits w 1 0)))

/-- FMIN: the encoding of R126. -/
def dec_fmin (w : Nat) : Except DecodeError Instr :=
    checked [(1, 0, bits w 1 0 = 3), (7, 2, bits w 7 2 ≠ 0)]
    (.fmin (Fin.ofNat 32 (bits w 22 18)) (Fin.ofNat 32 (bits w 17 13)) (Fin.ofNat 32 (bits w 12 8)) (FloatFmt.ofCode (bits w 1 0)))

/-- FMAX: the encoding of R126. -/
def dec_fmax (w : Nat) : Except DecodeError Instr :=
    checked [(1, 0, bits w 1 0 = 3), (7, 2, bits w 7 2 ≠ 0)]
    (.fmax (Fin.ofNat 32 (bits w 22 18)) (Fin.ofNat 32 (bits w 17 13)) (Fin.ofNat 32 (bits w 12 8)) (FloatFmt.ofCode (bits w 1 0)))

/-- FCMP: the encoding of R127. -/
def dec_fcmp (w : Nat) : Except DecodeError Instr :=
    checked [(1, 0, bits w 1 0 = 3), (7, 2, bits w 7 2 ≠ 0)]
    (.fcmp (Fin.ofNat 32 (bits w 22 18)) (Fin.ofNat 32 (bits w 17 13)) (Fin.ofNat 32 (bits w 12 8)) (FloatFmt.ofCode (bits w 1 0)))

/-- FCVT: the encoding of R128. -/
def dec_fcvt (w : Nat) : Except DecodeError Instr :=
    checked [(10, 8, bits w 10 8 = 0 || bits w 10 8 = 7), (7, 6, bits w 2 2 = 0 && bits w 7 6 ≠ 0), (1, 0, bits w 1 0 = 3), (12, 12, bits w 12 12 ≠ 0), (5, 3, bits w 5 3 ≠ 0)]
    (.fcvt (Fin.ofNat 32 (bits w 22 18)) (Fin.ofNat 32 (bits w 17 13)) (bits w 11 11 == 1) (FloatCode.ofCode (bits w 10 8)) (roundSel (bits w 2 2) (bits w 7 6)) (FloatFmt.ofCode (bits w 1 0)))

/-- FCVTI: the encoding of R129. -/
def dec_fcvti (w : Nat) : Except DecodeError Instr :=
    checked [(7, 6, bits w 2 2 = 0 && bits w 7 6 ≠ 0), (1, 0, bits w 1 0 = 3), (12, 10, bits w 12 10 ≠ 0), (5, 3, bits w 5 3 ≠ 0)]
    (.fcvti (Fin.ofNat 32 (bits w 22 18)) (Fin.ofNat 32 (bits w 17 13)) (IntTy.ofCode (bits w 9 8)) (roundSel (bits w 2 2) (bits w 7 6)) (FloatFmt.ofCode (bits w 1 0)))

/-- ICVTF: the encoding of R129. -/
def dec_icvtf (w : Nat) : Except DecodeError Instr :=
    checked [(7, 6, bits w 2 2 = 0 && bits w 7 6 ≠ 0), (1, 0, bits w 1 0 = 3), (12, 10, bits w 12 10 ≠ 0), (5, 3, bits w 5 3 ≠ 0)]
    (.icvtf (Fin.ofNat 32 (bits w 22 18)) (Fin.ofNat 32 (bits w 17 13)) (IntTy.ofCode (bits w 9 8)) (roundSel (bits w 2 2) (bits w 7 6)) (FloatFmt.ofCode (bits w 1 0)))

/-- VADD: the encoding of R133. DEDUCED (log 51): SAT of a float type is a field of its own beside the unused bits 2:1,
here and in VSUB. -/
def dec_vadd (w : Nat) : Except DecodeError Instr :=
    checked [(8, 6, !etIntWf (bits w 8 5)), (2, 1, bits w 2 1 ≠ 0), (4, 3, etCodeIsInt w && bits w 4 3 ≠ 0), (0, 0, !etCodeIsInt w && bits w 0 0 ≠ 0)]
    (.vadd (Fin.ofNat 16 (bits w 22 19)) (Fin.ofNat 16 (bits w 18 15)) (Fin.ofNat 16 (bits w 14 11)) (Fin.ofNat 4 (bits w 10 9)) (etOf' (bits w 8 5)) (Rounding.ofCode (bits w 4 3)) (bits w 0 0 == 1))

/-- VSUB: the encoding of R133. -/
def dec_vsub (w : Nat) : Except DecodeError Instr :=
    checked [(8, 6, !etIntWf (bits w 8 5)), (2, 1, bits w 2 1 ≠ 0), (4, 3, etCodeIsInt w && bits w 4 3 ≠ 0), (0, 0, !etCodeIsInt w && bits w 0 0 ≠ 0)]
    (.vsub (Fin.ofNat 16 (bits w 22 19)) (Fin.ofNat 16 (bits w 18 15)) (Fin.ofNat 16 (bits w 14 11)) (Fin.ofNat 4 (bits w 10 9)) (etOf' (bits w 8 5)) (Rounding.ofCode (bits w 4 3)) (bits w 0 0 == 1))

/-- VMUL: the encoding of R133. -/
def dec_vmul (w : Nat) : Except DecodeError Instr :=
    checked [(8, 6, !etIntWf (bits w 8 5)), (2, 0, bits w 2 0 ≠ 0), (4, 3, etCodeIsInt w && bits w 4 3 ≠ 0)]
    (.vmul (Fin.ofNat 16 (bits w 22 19)) (Fin.ofNat 16 (bits w 18 15)) (Fin.ofNat 16 (bits w 14 11)) (Fin.ofNat 4 (bits w 10 9)) (etOf' (bits w 8 5)) (Rounding.ofCode (bits w 4 3)))

/-- VFMA: the encoding of R133. -/
def dec_vfma (w : Nat) : Except DecodeError Instr :=
    checked [(8, 6, !etIntWf (bits w 8 5)), (2, 0, bits w 2 0 ≠ 0), (4, 3, etCodeIsInt w && bits w 4 3 ≠ 0)]
    (.vfma (Fin.ofNat 16 (bits w 22 19)) (Fin.ofNat 16 (bits w 18 15)) (Fin.ofNat 16 (bits w 14 11)) (Fin.ofNat 4 (bits w 10 9)) (etOf' (bits w 8 5)) (Rounding.ofCode (bits w 4 3)))

/-- VMAX: the encoding of R133. -/
def dec_vmax (w : Nat) : Except DecodeError Instr :=
    checked [(8, 6, !etIntWf (bits w 8 5)), (4, 0, bits w 4 0 ≠ 0)]
    (.vmax (Fin.ofNat 16 (bits w 22 19)) (Fin.ofNat 16 (bits w 18 15)) (Fin.ofNat 16 (bits w 14 11)) (Fin.ofNat 4 (bits w 10 9)) (etOf' (bits w 8 5)))

/-- VMIN: the encoding of R133. -/
def dec_vmin (w : Nat) : Except DecodeError Instr :=
    checked [(8, 6, !etIntWf (bits w 8 5)), (4, 0, bits w 4 0 ≠ 0)]
    (.vmin (Fin.ofNat 16 (bits w 22 19)) (Fin.ofNat 16 (bits w 18 15)) (Fin.ofNat 16 (bits w 14 11)) (Fin.ofNat 4 (bits w 10 9)) (etOf' (bits w 8 5)))

/-- VAND: the encoding of R133. -/
def dec_vand (w : Nat) : Except DecodeError Instr :=
    checked [(8, 6, !etAny (bits w 8 5)), (4, 0, bits w 4 0 ≠ 0)]
    (.vand (Fin.ofNat 16 (bits w 22 19)) (Fin.ofNat 16 (bits w 18 15)) (Fin.ofNat 16 (bits w 14 11)) (Fin.ofNat 4 (bits w 10 9)) (etOf' (bits w 8 5)))

/-- VOR: the encoding of R133. -/
def dec_vor (w : Nat) : Except DecodeError Instr :=
    checked [(8, 6, !etAny (bits w 8 5)), (4, 0, bits w 4 0 ≠ 0)]
    (.vor (Fin.ofNat 16 (bits w 22 19)) (Fin.ofNat 16 (bits w 18 15)) (Fin.ofNat 16 (bits w 14 11)) (Fin.ofNat 4 (bits w 10 9)) (etOf' (bits w 8 5)))

/-- VXOR: the encoding of R133. -/
def dec_vxor (w : Nat) : Except DecodeError Instr :=
    checked [(8, 6, !etAny (bits w 8 5)), (4, 0, bits w 4 0 ≠ 0)]
    (.vxor (Fin.ofNat 16 (bits w 22 19)) (Fin.ofNat 16 (bits w 18 15)) (Fin.ofNat 16 (bits w 14 11)) (Fin.ofNat 4 (bits w 10 9)) (etOf' (bits w 8 5)))

/-- VSHL: the encoding of R133. -/
def dec_vshl (w : Nat) : Except DecodeError Instr :=
    checked [(8, 6, !etInt (bits w 8 5)), (4, 0, bits w 4 0 ≠ 0)]
    (.vshl (Fin.ofNat 16 (bits w 22 19)) (Fin.ofNat 16 (bits w 18 15)) (Fin.ofNat 16 (bits w 14 11)) (Fin.ofNat 4 (bits w 10 9)) (etOf' (bits w 8 5)))

/-- VSHR: the encoding of R133. -/
def dec_vshr (w : Nat) : Except DecodeError Instr :=
    checked [(8, 6, !etInt (bits w 8 5)), (4, 1, bits w 4 1 ≠ 0)]
    (.vshr (Fin.ofNat 16 (bits w 22 19)) (Fin.ofNat 16 (bits w 18 15)) (Fin.ofNat 16 (bits w 14 11)) (Fin.ofNat 4 (bits w 10 9)) (etOf' (bits w 8 5)) (bits w 0 0 == 1))

/-- VCMP: the encoding of R134. DEDUCED (log 51): `vd<3:2>` are bits that must be 0. -/
def dec_vcmp (w : Nat) : Except DecodeError Instr :=
    checked [(8, 6, !etIntWf (bits w 8 5)), (4, 3, bits w 4 3 ≠ 0), (22, 21, bits w 22 21 ≠ 0), (2, 0, bits w 2 0 = 7 || (bits w 2 0 = 6 && etCodeIsInt w))]
    (.vcmp (Fin.ofNat 4 (bits w 20 19)) (Fin.ofNat 16 (bits w 18 15)) (Fin.ofNat 16 (bits w 14 11)) (Fin.ofNat 4 (bits w 10 9)) (etOf' (bits w 8 5)) (VCond.ofCode (bits w 2 0)))

/-- VSEL: the encoding of R134. -/
def dec_vsel (w : Nat) : Except DecodeError Instr :=
    checked [(8, 6, !etAny (bits w 8 5)), (4, 0, bits w 4 0 ≠ 0), (10, 9, bits w 10 9 = 0)]
    (.vsel (Fin.ofNat 16 (bits w 22 19)) (Fin.ofNat 16 (bits w 18 15)) (Fin.ofNat 16 (bits w 14 11)) (Fin.ofNat 4 (bits w 10 9)) (etOf' (bits w 8 5)))

/-- VCVT: the encoding of R135. -/
def dec_vcvt (w : Nat) : Except DecodeError Instr :=
    checked [(14, 11, (EType.ofCode? (etSwap (bits w 14 11))).isNone), (8, 6, !etAny (bits w 8 5)), (4, 3, etCodeIsInt w && etDstIsInt w && bits w 4 3 ≠ 0), (2, 0, etSrcOk w && etDstOk w && decide (etRatio w ≤ bits w 2 0))]
    (.vcvt (Fin.ofNat 16 (bits w 22 19)) (Fin.ofNat 16 (bits w 18 15)) (etOf (bits w 14 11)) (Fin.ofNat 4 (bits w 10 9)) (etOf' (bits w 8 5)) (Rounding.ofCode (bits w 4 3)) (BitVec.ofNat 3 (bits w 2 0)))

/-- VREDSUM: the encoding of R136. -/
def dec_vredsum (w : Nat) : Except DecodeError Instr :=
    checked [(8, 6, !etAny (bits w 8 5)), (1, 0, bits w 1 0 = 3), (4, 2, bits w 4 2 ≠ 0), (1, 0, etCodeIsInt w && bits w 1 0 ≠ 0)]
    (.vredsum (Fin.ofNat 16 (bits w 22 19)) (Fin.ofNat 16 (bits w 18 15)) (Fin.ofNat 16 (bits w 14 11)) (Fin.ofNat 4 (bits w 10 9)) (etOf' (bits w 8 5)) (FloatFmt.ofCode (bits w 1 0)))

/-- VREDMAX: the encoding of R136. -/
def dec_vredmax (w : Nat) : Except DecodeError Instr :=
    checked [(8, 6, !etIntWf (bits w 8 5)), (4, 0, bits w 4 0 ≠ 0), (14, 11, bits w 14 11 ≠ 0)]
    (.vredmax (Fin.ofNat 16 (bits w 22 19)) (Fin.ofNat 16 (bits w 18 15)) (Fin.ofNat 4 (bits w 10 9)) (etOf' (bits w 8 5)))

/-- VEXP: the encoding of R133. -/
def dec_vexp (w : Nat) : Except DecodeError Instr :=
    checked [(14, 11, bits w 14 11 ≠ 0), (4, 0, bits w 4 0 ≠ 0), (8, 6, bits w 8 5 ≠ 6)]
    (.vexp (Fin.ofNat 16 (bits w 22 19)) (Fin.ofNat 16 (bits w 18 15)) (Fin.ofNat 4 (bits w 10 9)))

/-- VRCP: the encoding of R133. -/
def dec_vrcp (w : Nat) : Except DecodeError Instr :=
    checked [(8, 6, !etWf (bits w 8 5)), (2, 0, bits w 2 0 ≠ 0), (14, 11, bits w 14 11 ≠ 0)]
    (.vrcp (Fin.ofNat 16 (bits w 22 19)) (Fin.ofNat 16 (bits w 18 15)) (Fin.ofNat 4 (bits w 10 9)) (etOf' (bits w 8 5)) (Rounding.ofCode (bits w 4 3)))

/-- VSPLAT: the encoding of R140. -/
def dec_vsplat (w : Nat) : Except DecodeError Instr :=
    checked [(22, 18, 16 ≤ bits w 22 18), (12, 8, bits w 12 8 ≠ 0), (5, 0, bits w 5 0 ≠ 0)]
    (.vsplat (Fin.ofNat 16 (bits w 22 18)) (Fin.ofNat 32 (bits w 17 13)) (Width.ofCode (bits w 7 6)))

/-- VPERM: the encoding of R139. -/
def dec_vperm (w : Nat) : Except DecodeError Instr :=
    checked [(8, 6, !etPerm (bits w 8 5)), (4, 1, bits w 4 1 ≠ 0)]
    (.vperm (Fin.ofNat 16 (bits w 22 19)) (Fin.ofNat 16 (bits w 18 15)) (Fin.ofNat 16 (bits w 14 11)) (Fin.ofNat 4 (bits w 10 9)) (etOf' (bits w 8 5)) (bits w 0 0 == 1))

/-- VMOVG: the encoding of R140. -/
def dec_vmovg (w : Nat) : Except DecodeError Instr :=
    checked [(17, 13, 16 ≤ bits w 17 13), (5, 1, bits w 5 1 ≠ 0)]
    (.vmovg (Fin.ofNat 32 (bits w 22 18)) (Fin.ofNat 16 (bits w 17 13)) (Fin.ofNat 32 (bits w 12 8)) (Width.ofCode (bits w 7 6)) (bits w 0 0 == 1))

/-- VMOVV: the encoding of R140. -/
def dec_vmovv (w : Nat) : Except DecodeError Instr :=
    checked [(22, 18, 16 ≤ bits w 22 18), (5, 0, bits w 5 0 ≠ 0)]
    (.vmovv (Fin.ofNat 16 (bits w 22 18)) (Fin.ofNat 32 (bits w 17 13)) (Fin.ofNat 32 (bits w 12 8)) (Width.ofCode (bits w 7 6)))

/-- VTOPK: the encoding of R138. -/
def dec_vtopk (w : Nat) : Except DecodeError Instr :=
    checked [(8, 6, !etIntWf (bits w 8 5)), (4, 0, bits w 4 0 ≠ 0)]
    (.vtopk (Fin.ofNat 16 (bits w 22 19)) (Fin.ofNat 16 (bits w 18 15)) (BitVec.ofNat 4 (bits w 14 11)) (Fin.ofNat 4 (bits w 10 9)) (etOf' (bits w 8 5)))

/-- VDOT: the encoding of R137. -/
def dec_vdot (w : Nat) : Except DecodeError Instr :=
    checked [(8, 6, !etDot (bits w 8 5)), (1, 0, bits w 1 0 = 3), (4, 2, bits w 4 2 ≠ 0), (1, 0, etCodeIsInt w && bits w 1 0 ≠ 0)]
    (.vdot (Fin.ofNat 16 (bits w 22 19)) (Fin.ofNat 16 (bits w 18 15)) (Fin.ofNat 16 (bits w 14 11)) (Fin.ofNat 4 (bits w 10 9)) (etOf' (bits w 8 5)) (FloatFmt.ofCode (bits w 1 0)))

/-- TSHAPE: the encoding of R214. -/
def dec_tshape (w : Nat) : Except DecodeError Instr :=
    checked [(22, 18, 8 ≤ bits w 22 18), (12, 8, bits w 12 8 ≠ 0), (7, 0, bits w 7 0 ≠ 0)]
    (.tshape (Fin.ofNat 8 (bits w 22 18)) (Fin.ofNat 32 (bits w 17 13)))

/-- TLD: the encoding of R215. -/
def dec_tld (w : Nat) : Except DecodeError Instr :=
    checked [(22, 18, 8 ≤ bits w 22 18), (7, 2, bits w 7 2 ≠ 0)]
    (.tld (Fin.ofNat 8 (bits w 22 18)) (Fin.ofNat 32 (bits w 17 13)) (Fin.ofNat 32 (bits w 12 8)) (BitVec.ofNat 2 (bits w 1 0)))

/-- TST: the encoding of R215. -/
def dec_tst (w : Nat) : Except DecodeError Instr :=
    checked [(22, 18, 8 ≤ bits w 22 18), (7, 2, bits w 7 2 ≠ 0)]
    (.tst (Fin.ofNat 8 (bits w 22 18)) (Fin.ofNat 32 (bits w 17 13)) (Fin.ofNat 32 (bits w 12 8)) (BitVec.ofNat 2 (bits w 1 0)))

/-- TZERO: the encoding of R216. -/
def dec_tzero (w : Nat) : Except DecodeError Instr :=
    checked [(19, 17, bits w 19 17 ≠ 0), (16, 14, bits w 16 14 ≠ 0), (13, 12, bits w 13 12 ≠ 0), (9, 8, bits w 9 8 ≠ 0), (7, 0, bits w 7 0 ≠ 0)]
    (.tzero (Fin.ofNat 8 (bits w 22 20)) (BitVec.ofNat 2 (bits w 11 10)))

/-- MMA: the encoding of R207. -/
def dec_mma (w : Nat) : Except DecodeError Instr :=
    checked [(13, 12, bits w 13 12 = 3), (9, 8, bits w 9 8 = 3), (7, 0, bits w 7 0 ≠ 0)]
    (.mma (Fin.ofNat 8 (bits w 22 20)) (Fin.ofNat 8 (bits w 19 17)) (Fin.ofNat 8 (bits w 16 14)) (Dataflow.ofCode (bits w 13 12)) (BitVec.ofNat 2 (bits w 11 10)) (FloatFmt.ofCode (bits w 9 8)))

/-- MMAS: the encoding of R207. -/
def dec_mmas (w : Nat) : Except DecodeError Instr :=
    checked [(13, 12, bits w 13 12 = 3), (9, 8, bits w 9 8 = 3), (7, 0, bits w 7 0 ≠ 0)]
    (.mmas (Fin.ofNat 8 (bits w 22 20)) (Fin.ofNat 8 (bits w 19 17)) (Fin.ofNat 8 (bits w 16 14)) (Dataflow.ofCode (bits w 13 12)) (BitVec.ofNat 2 (bits w 11 10)) (FloatFmt.ofCode (bits w 9 8)))

/-- MMSS: the encoding of R207. -/
def dec_mmss (w : Nat) : Except DecodeError Instr :=
    checked [(13, 12, bits w 13 12 = 3), (9, 8, bits w 9 8 = 3), (7, 0, bits w 7 0 ≠ 0)]
    (.mmss (Fin.ofNat 8 (bits w 22 20)) (Fin.ofNat 8 (bits w 19 17)) (Fin.ofNat 8 (bits w 16 14)) (Dataflow.ofCode (bits w 13 12)) (BitVec.ofNat 2 (bits w 11 10)) (FloatFmt.ofCode (bits w 9 8)))

/-- TCVT: the encoding of R217. -/
def dec_tcvt (w : Nat) : Except DecodeError Instr :=
    checked [(7, 6, bits w 5 5 = 0 && bits w 7 6 ≠ 0), (16, 14, bits w 16 14 ≠ 0), (13, 12, bits w 13 12 ≠ 0), (9, 8, bits w 9 8 ≠ 0), (4, 0, bits w 4 0 ≠ 0)]
    (.tcvt (Fin.ofNat 8 (bits w 22 20)) (Fin.ofNat 8 (bits w 19 17)) (BitVec.ofNat 2 (bits w 11 10)) (roundSel (bits w 5 5) (bits w 7 6)))

/-- TADD: the encoding of R217. -/
def dec_tadd (w : Nat) : Except DecodeError Instr :=
    checked [(7, 6, bits w 5 5 = 0 && bits w 7 6 ≠ 0), (13, 12, bits w 13 12 ≠ 0), (9, 8, bits w 9 8 ≠ 0), (4, 0, bits w 4 0 ≠ 0)]
    (.tadd (Fin.ofNat 8 (bits w 22 20)) (Fin.ofNat 8 (bits w 19 17)) (Fin.ofNat 8 (bits w 16 14)) (BitVec.ofNat 2 (bits w 11 10)) (roundSel (bits w 5 5) (bits w 7 6)))

/-- TSCALE: the encoding of R217. -/
def dec_tscale (w : Nat) : Except DecodeError Instr :=
    checked [(7, 6, bits w 5 5 = 0 && bits w 7 6 ≠ 0), (13, 12, bits w 13 12 ≠ 0), (9, 8, bits w 9 8 ≠ 0), (4, 1, bits w 4 1 ≠ 0)]
    (.tscale (Fin.ofNat 8 (bits w 22 20)) (Fin.ofNat 8 (bits w 19 17)) (Fin.ofNat 8 (bits w 16 14)) (BitVec.ofNat 2 (bits w 11 10)) (roundSel (bits w 5 5) (bits w 7 6)) (bits w 0 0 == 1))

/-- TTRANS: the encoding of R217. -/
def dec_ttrans (w : Nat) : Except DecodeError Instr :=
    checked [(16, 14, bits w 16 14 ≠ 0), (13, 12, bits w 13 12 ≠ 0), (9, 8, bits w 9 8 ≠ 0), (7, 0, bits w 7 0 ≠ 0)]
    (.ttrans (Fin.ofNat 8 (bits w 22 20)) (Fin.ofNat 8 (bits w 19 17)) (BitVec.ofNat 2 (bits w 11 10)))

/-- MJOIN: the encoding of R218. -/
def dec_mjoin (w : Nat) : Except DecodeError Instr :=
    checked [(22, 20, bits w 22 20 ≠ 0), (19, 17, bits w 19 17 ≠ 0), (16, 14, bits w 16 14 ≠ 0), (13, 12, bits w 13 12 ≠ 0), (11, 10, bits w 11 10 ≠ 0), (9, 8, bits w 9 8 ≠ 0), (7, 4, bits w 7 4 ≠ 0), (3, 0, bits w 3 0 = 0)]
    (.mjoin (BitVec.ofNat 4 (bits w 3 0)))

/-- TALLOC: the encoding of R219. -/
def dec_talloc (w : Nat) : Except DecodeError Instr :=
    checked [(12, 8, bits w 12 8 ≠ 0), (7, 0, bits w 7 0 ≠ 0)]
    (.talloc (Fin.ofNat 32 (bits w 22 18)) (Fin.ofNat 32 (bits w 17 13)))

/-- TFREE: the encoding of R219. -/
def dec_tfree (w : Nat) : Except DecodeError Instr :=
    checked [(22, 18, bits w 22 18 ≠ 0), (12, 8, bits w 12 8 ≠ 0), (7, 0, bits w 7 0 ≠ 0)]
    (.tfree (Fin.ofNat 32 (bits w 17 13)))

/-- TMOVV: the encoding of R220. -/
def dec_tmovv (w : Nat) : Except DecodeError Instr :=
    checked [(22, 18, 16 ≤ bits w 22 18), (17, 13, 8 ≤ bits w 17 13), (7, 2, bits w 7 2 ≠ 0)]
    (.tmovv (Fin.ofNat 16 (bits w 22 18)) (Fin.ofNat 8 (bits w 17 13)) (Fin.ofNat 32 (bits w 12 8)) (BitVec.ofNat 2 (bits w 1 0)))

/-- VMOVT: the encoding of R220. -/
def dec_vmovt (w : Nat) : Except DecodeError Instr :=
    checked [(22, 18, 8 ≤ bits w 22 18), (17, 13, 16 ≤ bits w 17 13), (7, 2, bits w 7 2 ≠ 0)]
    (.vmovt (Fin.ofNat 8 (bits w 22 18)) (Fin.ofNat 16 (bits w 17 13)) (Fin.ofNat 32 (bits w 12 8)) (BitVec.ofNat 2 (bits w 1 0)))

/-- The C-class opcodes (R77). -/
def decodeC (lone : Bool) (op w : Nat) : Except DecodeError Instr :=
  match op with
  | 0 => dec_nop w
  | 1 => dec_br w
  | 2 => dec_call w
  | 3 => dec_jmp w
  | 4 => dec_callr w
  | 5 => dec_beq w
  | 6 => dec_bne w
  | 7 => dec_blt w
  | 8 => dec_bge w
  | 9 => dec_bltu w
  | 10 => dec_bgeu w
  | 11 => dec_jtab w
  | 12 => dec_loop lone w
  | 13 => dec_loopx w
  | 14 => dec_realign w
  | 15 => dec_course w
  | 16 => dec_ldb w
  | 17 => dec_ldbu w
  | 18 => dec_ldh w
  | 19 => dec_ldhu w
  | 20 => dec_ldw w
  | 21 => dec_ldwu w
  | 22 => dec_ldd w
  | 23 => dec_stb w
  | 24 => dec_sth w
  | 25 => dec_stw w
  | 26 => dec_std w
  | 27 => dec_ldaq w
  | 28 => dec_strl w
  | 29 => dec_ldf w
  | 30 => dec_stf w
  | 31 => dec_pref w
  | 32 => dec_vld w
  | 33 => dec_vst w
  | 34 => dec_vlds w
  | 35 => dec_vsts w
  | 36 => dec_vldf w
  | 37 => dec_vstf w
  | 38 => dec_vgath w
  | 39 => dec_vscat w
  | 40 => dec_amoadd w
  | 41 => dec_amoand w
  | 42 => dec_amoor w
  | 43 => dec_amoxor w
  | 44 => dec_amomin w
  | 45 => dec_amomax w
  | 46 => dec_amominu w
  | 47 => dec_amomaxu w
  | 48 => dec_amoswp w
  | 49 => dec_amocas w
  | 50 => dec_amofadd w
  | 51 => dec_amofmax w
  | 52 => dec_fence w
  | 53 => dec_acq w
  | 54 => dec_rel w
  | 55 => dec_waitw w
  | 56 => dec_wfe w
  | 57 => dec_sev w
  | 58 => dec_bararr w
  | 59 => dec_barwt w
  | 60 => dec_barxb w
  | 61 => dec_gsync w
  | 62 => dec_scfg w
  | 63 => dec_sbind w
  | 64 => dec_sfree w
  | 65 => dec_spos w
  | 66 => dec_btset w
  | 67 => dec_btgo w
  | 68 => dec_btpoll w
  | 69 => dec_ixpost w
  | 70 => dec_klset w
  | 71 => dec_klook w
  | 72 => dec_klwait w
  | 73 => dec_klres w
  | 74 => dec_ebag w
  | 75 => if bits w 1 1 = 1 then dec_eupdClose w else dec_eupd w
  | 76 => dec_tenq w
  | 77 => dec_tdeq w
  | 78 => dec_dcinit w
  | 79 => dec_dcdec w
  | 80 => dec_dcinc w
  | 81 => dec_tyield w
  | 82 => dec_texit w
  | 83 => dec_pwreq w
  | 84 => dec_pwrel w
  | 85 => dec_smig w
  | 86 => dec_gjoin w
  | 87 => dec_gleave w
  | 88 => dec_qsend w
  | 89 => dec_qrecv w
  | 90 => dec_vsopen w
  | 91 => dec_vsmark w
  | 92 => dec_vsclose w
  | 93 => dec_mcmd w
  | 94 => dec_csrr w
  | 95 => dec_csrw w
  | 96 => dec_csrx w
  | 97 => dec_trap lone w
  | 98 => dec_eret lone w
  | 99 => if bits w 2 0 = 1 then dec_plbinvDom w else if bits w 2 0 = 2 then dec_plbinvVf w else dec_plbinvPage w
  | 100 => if bits w 2 0 = 1 then dec_cflushWb w else if bits w 2 0 = 2 then dec_cflushInv w else dec_cflushCode w
  | 101 => dec_spart w
  | 102 => dec_ctxsave w
  | 103 => dec_ctxload w
  | _ => .error (.unassigned (BitVec.ofNat 7 op))

/-- The A-class opcodes (R78). -/
def decodeA (_lone : Bool) (op w : Nat) : Except DecodeError Instr :=
  match op with
  | 0 => dec_anop w
  | 1 => dec_add w
  | 2 => dec_sub w
  | 3 => dec_addi w
  | 4 => dec_mul w
  | 5 => dec_mulh w
  | 6 => dec_mulhu w
  | 7 => dec_div w
  | 8 => dec_divu w
  | 9 => dec_rem w
  | 10 => dec_remu w
  | 11 => dec_and w
  | 12 => dec_or w
  | 13 => dec_xor w
  | 14 => dec_andi w
  | 15 => dec_ori w
  | 16 => dec_xori w
  | 17 => dec_shl w
  | 18 => dec_shr w
  | 19 => dec_sar w
  | 20 => dec_shli w
  | 21 => dec_shri w
  | 22 => dec_sari w
  | 23 => dec_limm w
  | 24 => dec_slt w
  | 25 => dec_sltu w
  | 26 => dec_seq w
  | 27 => dec_sel w
  | 28 => dec_clz w
  | 29 => dec_popc w
  | 30 => dec_min w
  | 31 => dec_max w
  | 32 => dec_pfmt w
  | 33 => dec_pgetf w
  | 34 => dec_padde w
  | 35 => dec_pcaddr w
  | 36 => dec_fadd w
  | 37 => dec_fsub w
  | 38 => dec_fmul w
  | 39 => dec_fma w
  | 40 => dec_fdiv w
  | 41 => dec_fsqrt w
  | 42 => dec_fmin w
  | 43 => dec_fmax w
  | 44 => dec_fcmp w
  | 45 => dec_fcvt w
  | 46 => dec_fcvti w
  | 47 => dec_icvtf w
  | 48 => dec_vadd w
  | 49 => dec_vsub w
  | 50 => dec_vmul w
  | 51 => dec_vfma w
  | 52 => dec_vmax w
  | 53 => dec_vmin w
  | 54 => dec_vand w
  | 55 => dec_vor w
  | 56 => dec_vxor w
  | 57 => dec_vshl w
  | 58 => dec_vshr w
  | 59 => dec_vcmp w
  | 60 => dec_vsel w
  | 61 => dec_vcvt w
  | 62 => dec_vredsum w
  | 63 => dec_vredmax w
  | 64 => dec_vexp w
  | 65 => dec_vrcp w
  | 66 => dec_vsplat w
  | 67 => dec_vperm w
  | 68 => dec_vmovg w
  | 69 => dec_vmovv w
  | 70 => dec_vtopk w
  | 71 => dec_vdot w
  | 72 => dec_tshape w
  | 73 => dec_tld w
  | 74 => dec_tst w
  | 75 => dec_tzero w
  | 76 => dec_mma w
  | 77 => dec_mmas w
  | 78 => dec_mmss w
  | 79 => dec_tcvt w
  | 80 => dec_tadd w
  | 81 => dec_tscale w
  | 82 => dec_ttrans w
  | 83 => dec_mjoin w
  | 84 => dec_talloc w
  | 85 => dec_tfree w
  | 86 => dec_tmovv w
  | 87 => dec_vmovt w
  | _ => .error (.unassigned (BitVec.ofNat 7 op))

/-- A word, lone or as a half of a pair (R65). -/
def decodeWord (lone : Bool) (w : Nat) : Except DecodeError Instr :=
  if bits w 30 30 = 0 then decodeC lone (bits w 29 23) w else decodeA lone (bits w 29 23) w

/-- How the 8 bytes at the program counter frame (R68): a lone word, a pair, or the sub-cause of
ILLEGAL_BUNDLE with HALF. -/
inductive Frame where
  | lone (w : Nat)
  | pair (c a : Nat)
  | bad (sub half : Nat)
  deriving DecidableEq, Repr

/-- Framing (R68): `w0` is the word at PC, `w1` the word after it. -/
def frame (pc w0 w1 : Nat) : Frame :=
  if bits w0 31 31 = 1 then .lone w0
  else if bits w0 30 30 = 1 then .bad 4 0
  else if pc % 8 ≠ 0 then .bad 1 0
  else if bits w1 31 31 = 1 then .bad 3 1
  else if bits w1 30 30 = 0 then .bad 2 1
  else .pair w0 w1

/-- The instruction that a table row's word decodes to: bit 31 says whether it is lone or a half
of a pair (R65, R66). -/
def decodeTableWord (nbits w : Nat) : Option Instr :=
  if nbits ≤ 32 then
    match decodeWord (bits w 31 31 == 1) w with
    | .ok i => some i
    | .error _ => none
  else none

/-- A register that an instruction writes (R70). -/
inductive Dest where
  | g (n : GReg)
  | v (n : VReg)
  | k (n : KReg)
  deriving DecidableEq, Repr

/-- The destinations of an instruction for the rule of R70; g0 is none (R70). -/
def Instr.dests : Instr → List Dest
  | .nop => []
  | .br _ => []
  | .call _ => [.g 31]
  | .jmp _ _ => []
  | .callr _ _ => [.g 31]
  | .beq _ _ _ => []
  | .bne _ _ _ => []
  | .blt _ _ _ => []
  | .bge _ _ _ => []
  | .bltu _ _ _ => []
  | .bgeu _ _ _ => []
  | .jtab _ _ _ => []
  | .loop _ _ => []
  | .loopx _ => []
  | .realign _ => []
  | .course d _ => [.g d]
  | .ldb t _ _ _ => [.g t]
  | .ldbu t _ _ _ => [.g t]
  | .ldh t _ _ _ => [.g t]
  | .ldhu t _ _ _ => [.g t]
  | .ldw t _ _ _ => [.g t]
  | .ldwu t _ _ _ => [.g t]
  | .ldd t _ _ _ => [.g t]
  | .stb _ _ _ _ => []
  | .sth _ _ _ _ => []
  | .stw _ _ _ _ => []
  | .std _ _ _ _ => []
  | .ldaq t _ _ _ _ => [.g t]
  | .strl _ _ _ _ _ => []
  | .ldf t _ _ _ => [.g t]
  | .stf _ _ _ _ => []
  | .pref _ _ _ => []
  | .vld t _ _ _ _ => [.v t]
  | .vst _ _ _ _ _ => []
  | .vlds d _ _ _ _ => [.v d]
  | .vsts _ _ _ _ _ => []
  | .vldf t _ _ _ => [.v t]
  | .vstf _ _ _ _ => []
  | .vgath d _ _ _ _ => [.v d]
  | .vscat _ _ _ _ _ => []
  | .amoadd d _ _ _ _ _ _ _ => [.g d]
  | .amoand d _ _ _ _ _ _ _ => [.g d]
  | .amoor d _ _ _ _ _ _ _ => [.g d]
  | .amoxor d _ _ _ _ _ _ _ => [.g d]
  | .amomin d _ _ _ _ _ _ _ => [.g d]
  | .amomax d _ _ _ _ _ _ _ => [.g d]
  | .amominu d _ _ _ _ _ _ _ => [.g d]
  | .amomaxu d _ _ _ _ _ _ _ => [.g d]
  | .amoswp d _ _ _ _ _ _ _ => [.g d]
  | .amocas d _ _ _ _ _ _ _ => [.g d]
  | .amofadd d _ _ _ _ _ _ _ => [.g d]
  | .amofmax d _ _ _ _ _ _ _ => [.g d]
  | .fence _ => []
  | .acq _ => []
  | .rel _ => []
  | .waitw d _ _ _ => [.g d]
  | .wfe => []
  | .sev _ _ _ => []
  | .bararr d _ _ => [.g d]
  | .barwt _ _ _ => []
  | .barxb _ _ => []
  | .gsync d _ _ => [.g d]
  | .scfg d _ => [.g d]
  | .sbind _ _ _ => []
  | .sfree _ => []
  | .spos d _ _ _ => [.g d]
  | .btset _ _ _ => []
  | .btgo d _ => [.g d]
  | .btpoll d _ _ => [.g d]
  | .ixpost d _ _ _ => [.g d]
  | .klset d _ _ _ => [.g d]
  | .klook d _ _ _ => [.g d]
  | .klwait d _ _ => [.g d]
  | .klres d _ _ _ => [.g d]
  | .ebag d _ _ _ => [.g d]
  | .eupd d _ _ _ _ => [.g d]
  | .eupdClose d _ _ _ => [.g d]
  | .tenq d _ _ => [.g d]
  | .tdeq d _ _ => [.g d]
  | .dcinit d _ _ => [.g d]
  | .dcdec d _ _ _ _ => [.g d]
  | .dcinc d _ _ => [.g d]
  | .tyield _ _ _ => []
  | .texit _ => []
  | .pwreq d _ _ => [.g d]
  | .pwrel => []
  | .smig d _ => [.g d]
  | .gjoin d _ _ => [.g d]
  | .gleave d _ _ => [.g d]
  | .qsend _ _ _ => []
  | .qrecv d _ b _ => [.v d, .g b]
  | .vsopen d _ _ _ _ => [.g d]
  | .vsmark _ _ => []
  | .vsclose d _ => [.g d]
  | .mcmd d _ _ => [.g d]
  | .csrr d _ => [.g d]
  | .csrw _ _ => []
  | .csrx d _ _ => [.g d]
  | .trap _ => []
  | .eret => []
  | .plbinvPage _ _ => []
  | .plbinvDom _ _ => []
  | .plbinvVf _ => []
  | .cflushCode _ _ _ => []
  | .cflushWb _ _ => []
  | .cflushInv _ _ => []
  | .spart d _ _ => [.g d]
  | .ctxsave d _ => [.g d]
  | .ctxload d _ => [.g d]
  | .anop => []
  | .add d _ _ _ => [.g d]
  | .sub d _ _ _ => [.g d]
  | .addi d _ _ => [.g d]
  | .mul d _ _ => [.g d]
  | .mulh d _ _ => [.g d]
  | .mulhu d _ _ => [.g d]
  | .div d _ _ => [.g d]
  | .divu d _ _ => [.g d]
  | .rem d _ _ => [.g d]
  | .remu d _ _ => [.g d]
  | .and d _ _ => [.g d]
  | .or d _ _ => [.g d]
  | .xor d _ _ => [.g d]
  | .andi d _ _ => [.g d]
  | .ori d _ _ => [.g d]
  | .xori d _ _ => [.g d]
  | .shl d _ _ => [.g d]
  | .shr d _ _ => [.g d]
  | .sar d _ _ => [.g d]
  | .shli d _ _ => [.g d]
  | .shri d _ _ => [.g d]
  | .sari d _ _ => [.g d]
  | .limm d _ _ => [.g d]
  | .slt d _ _ => [.g d]
  | .sltu d _ _ => [.g d]
  | .seq d _ _ => [.g d]
  | .sel d _ _ => [.g d]
  | .clz d _ => [.g d]
  | .popc d _ => [.g d]
  | .min d _ _ _ => [.g d]
  | .max d _ _ _ => [.g d]
  | .pfmt d _ _ => [.g d]
  | .pgetf d _ _ => [.g d]
  | .padde d _ _ => [.g d]
  | .pcaddr d _ => [.g d]
  | .fadd d _ _ _ _ => [.g d]
  | .fsub d _ _ _ _ => [.g d]
  | .fmul d _ _ _ _ => [.g d]
  | .fma d _ _ _ _ => [.g d]
  | .fdiv d _ _ _ _ => [.g d]
  | .fsqrt d _ _ _ => [.g d]
  | .fmin d _ _ _ => [.g d]
  | .fmax d _ _ _ => [.g d]
  | .fcmp d _ _ _ => [.g d]
  | .fcvt d _ _ _ _ _ => [.g d]
  | .fcvti d _ _ _ _ => [.g d]
  | .icvtf d _ _ _ _ => [.g d]
  | .vadd d _ _ _ _ _ _ => [.v d]
  | .vsub d _ _ _ _ _ _ => [.v d]
  | .vmul d _ _ _ _ _ => [.v d]
  | .vfma d _ _ _ _ _ => [.v d]
  | .vmax d _ _ _ _ => [.v d]
  | .vmin d _ _ _ _ => [.v d]
  | .vand d _ _ _ _ => [.v d]
  | .vor d _ _ _ _ => [.v d]
  | .vxor d _ _ _ _ => [.v d]
  | .vshl d _ _ _ _ => [.v d]
  | .vshr d _ _ _ _ _ => [.v d]
  | .vcmp c _ _ _ _ _ => [.k c]
  | .vsel d _ _ _ _ => [.v d]
  | .vcvt d _ _ _ _ _ _ => [.v d]
  | .vredsum d _ _ _ _ _ => [.v d]
  | .vredmax d _ _ _ => [.v d]
  | .vexp d _ _ => [.v d]
  | .vrcp d _ _ _ _ => [.v d]
  | .vsplat d _ _ => [.v d]
  | .vperm d _ _ _ _ _ => [.v d]
  | .vmovg d _ _ _ _ => [.g d]
  | .vmovv d _ _ _ => [.v d]
  | .vtopk d _ _ _ _ => [.v d]
  | .vdot d _ _ _ _ _ => [.v d]
  | .tshape _ _ => []
  | .tld _ _ _ _ => []
  | .tst _ _ _ _ => []
  | .tzero _ _ => []
  | .mma _ _ _ _ _ _ => []
  | .mmas _ _ _ _ _ _ => []
  | .mmss _ _ _ _ _ _ => []
  | .tcvt _ _ _ _ => []
  | .tadd _ _ _ _ _ => []
  | .tscale _ _ _ _ _ _ => []
  | .ttrans _ _ _ => []
  | .mjoin _ => []
  | .talloc d _ => [.g d]
  | .tfree _ => []
  | .tmovv d _ _ _ => [.v d]
  | .vmovt _ _ _ _ => []
  | .asyncTrapEntry _ => []
  | .itimerFire _ => []
  | .intdbWrite _ _ _ => []
  | .preemptNotice _ _ _ => []
  | .sstatWrite _ => []
  | .ipendClear _ => []
  | .registerWrite _ _ => []
  | .memResponse _ => []
  | .courseForward _ => []
  | .courseTimeout _ _ => []
  | .realignTimeout _ => []
  | .streamElementFetch _ _ => []
  | .streamPush _ _ => []
  | .matrixOpComplete _ _ => []
  | .mcmdCommand _ => []
  | .mcmdAnswer _ => []
  | .spartConversion _ => []
  | .waitwMonitorFire _ => []
  | .sevEvent _ => []
  | .timeSliceExpiry _ _ => []
  | .slotHandover _ _ => []
  | .bteTransferActivate _ => []
  | .bteWriteLand _ _ => []
  | .bteConsumerUpdate _ _ => []
  | .ixeElementCopy _ _ => []
  | .engineCompletion _ _ _ => []
  | .cringtailWrite _ _ => []
  | .engineOffline _ _ => []
  | .autoMigration _ => []
  | .migrationArrival _ => []
  | .migrationSlotFree _ => []
  | .kleScoring _ _ => []
  | .kleServiceRound _ _ => []
  | .kleRowArrival _ _ => []
  | .kleReadTimeout _ _ _ => []
  | .kleLookupComplete _ _ => []
  | .kleOffline _ => []
  | .eupdDirectAdd _ _ => []
  | .mergeContribution _ => []
  | .mergeClose _ => []
  | .closeAck _ => []
  | .homeSliceRequest _ _ => []
  | .farAtomicExecute _ _ => []
  | .pageWalk _ _ => []
  | .faultack _ => []
  | .faultackWake _ => []
  | .releaseProbe _ _ _ => []
  | .probeEcho _ _ => []
  | .uncorrectableError _ => []
  | .correctableError _ => []
  | .dieerrlog _ => []
  | .taskDispatch _ _ => []
  | .admissionServe _ => []
  | .taskSteal _ _ _ => []
  | .stealRequest _ _ => []
  | .stealRetry _ _ => []
  | .counterUpdate _ _ => []
  | .groupUpdate _ _ => []
  | .grantExpiry _ => []
  | .budgetSet _ _ => []
  | .thermalStep _ _ => []
  | .criticalTemperature _ => []
  | .shutdownTemperature _ => []
  | .lqdb _ _ => []
  | .launchTake _ _ => []
  | .launchEnd _ _ => []
  | .vfReset _ _ => []
  | .vfPolicyWrite _ _ _ => []
  | .hostBarWrite _ _ _ _ _ _ => []
  | .hostPortDown _ _ => []
  | .packageNumberWrite _ _ => []
  | .linkTraining _ _ _ _ => []
  | .moduleReset _ => []
  | .firmwareFetchRetry _ _ => []
  | .attestationRequest _ _ => []
  | .stackFailure _ _ => []
  | .ochreCoreFault _ _ _ => []
  | .flitRoute _ _ => []
  | .flitEject _ _ => []
  | .packetDeliver _ _ _ _ => []
  | .deliveryCredit _ _ _ _ => []
  | .linkFrameReceive _ _ => []
  | .linkDown _ _ => []
  | .pathFailed _ _ => []
  | .accessTimeout _ => []
  | .vsPacketArrive _ _ => []
  | .vsCredit _ _ _ => []
  | .gangQuery _ _ => []
  | .gangPause _ _ => []
  | .gangDrainComplete _ _ => []
  | .gangStopTimeout _ _ => []
  | .gangResume _ _ => []
  | .migrationCommandTake _ => []
  | .move _ _ => []
  | .dup _ _ => []
  | .collapse _ _ => []
  | .reclaim _ _ => []
  | .migrationCutover _ _ => []
  | .migrationCommandComplete _ _ => []
  | .stubRelay _ _ => []
  | .relayAck _ _ _ => []
  | .walkReturn _ _ => []
  | .redirect _ _ _ => []
  | .stubQuietExpiry _ _ _ => []
  | .purge _ _ _ _ => []
  | .purgeAck _ _ _ _ => []
  | .collapseInvalidate _ _ _ => []
  | .collapseAck _ _ _ => []
  | .illegalInstr _ => []
  | .reservedField _ => []
  | .faultQueueTailAdvance _ _ _ => []
  | .keyLoad _ _ _ _ _ => []
  | .hostPortUp _ _ => []
  | .portDieFailure _ _ => []
  | .engineRestore _ _ => []
  | .partitionConfigure _ _ _ => []
  | .errorCounterClear _ => []

/-- The two halves of a pair name the same destination (R70). -/
def sameDest (c a : Instr) : Bool :=
  c.dests.any fun x => decide (x ≠ .g 0) && a.dests.contains x


/-- The number whose bit fields, from the highest down, have these widths and values. -/
def fields (l : List (Nat × Nat)) : Nat := l.foldl (fun a e => a * 2 ^ e.1 + e.2) 0

/-- The word body of NOP (R144). -/
def enc_nop : Nat :=
  fields [(8, 0), (23, 0)]

/-- The word body of BR (R144). -/
def enc_br (off : BitVec 23) : Nat :=
  fields [(8, 1), (23, off.toNat)]

/-- The word body of CALL (R145). -/
def enc_call (off : BitVec 23) : Nat :=
  fields [(8, 2), (23, off.toNat)]

/-- The word body of JMP (R146). -/
def enc_jmp (a : GReg) (imm : BitVec 13) : Nat :=
  fields [(8, 3), (5, 0), (5, a.val), (13, imm.toNat)]

/-- The word body of CALLR (R146). -/
def enc_callr (a : GReg) (imm : BitVec 13) : Nat :=
  fields [(8, 4), (5, 0), (5, a.val), (13, imm.toNat)]

/-- The word body of BEQ (R144). -/
def enc_beq (a : GReg) (b : GReg) (off : BitVec 13) : Nat :=
  fields [(8, 5), (5, a.val), (5, b.val), (13, off.toNat)]

/-- The word body of BNE (R144). -/
def enc_bne (a : GReg) (b : GReg) (off : BitVec 13) : Nat :=
  fields [(8, 6), (5, a.val), (5, b.val), (13, off.toNat)]

/-- The word body of BLT (R144). -/
def enc_blt (a : GReg) (b : GReg) (off : BitVec 13) : Nat :=
  fields [(8, 7), (5, a.val), (5, b.val), (13, off.toNat)]

/-- The word body of BGE (R144). -/
def enc_bge (a : GReg) (b : GReg) (off : BitVec 13) : Nat :=
  fields [(8, 8), (5, a.val), (5, b.val), (13, off.toNat)]

/-- The word body of BLTU (R144). -/
def enc_bltu (a : GReg) (b : GReg) (off : BitVec 13) : Nat :=
  fields [(8, 9), (5, a.val), (5, b.val), (13, off.toNat)]

/-- The word body of BGEU (R144). -/
def enc_bgeu (a : GReg) (b : GReg) (off : BitVec 13) : Nat :=
  fields [(8, 10), (5, a.val), (5, b.val), (13, off.toNat)]

/-- The word body of JTAB (R147). -/
def enc_jtab (d : GReg) (a : GReg) (imm : BitVec 13) : Nat :=
  fields [(8, 11), (5, d.val), (5, a.val), (13, imm.toNat)]

/-- The word body of LOOP (R189). -/
def enc_loop (a : GReg) (imm : BitVec 13) : Nat :=
  fields [(8, 12), (5, 0), (5, a.val), (13, imm.toNat)]

/-- The word body of LOOPX (R190). -/
def enc_loopx (a : GReg) : Nat :=
  fields [(8, 13), (5, 0), (5, a.val), (13, 0)]

/-- The word body of REALIGN (R186). -/
def enc_realign (imm : BitVec 13) : Nat :=
  fields [(8, 14), (5, 0), (5, 0), (13, imm.toNat)]

/-- The word body of COURSE (R187). -/
def enc_course (d : GReg) (a : GReg) : Nat :=
  fields [(8, 15), (5, d.val), (5, a.val), (5, 0), (8, 0)]

/-- The word body of LDB (R159). -/
def enc_ldb (t : GReg) (base : GReg) (off : BitVec 10) (hint : Bool) : Nat :=
  fields [(8, 16), (5, t.val), (5, base.val), (10, off.toNat), (3, b2n hint)]

/-- The word body of LDBU (R159). -/
def enc_ldbu (t : GReg) (base : GReg) (off : BitVec 10) (hint : Bool) : Nat :=
  fields [(8, 17), (5, t.val), (5, base.val), (10, off.toNat), (3, b2n hint)]

/-- The word body of LDH (R159). -/
def enc_ldh (t : GReg) (base : GReg) (off : BitVec 10) (hint : Bool) : Nat :=
  fields [(8, 18), (5, t.val), (5, base.val), (10, off.toNat), (3, b2n hint)]

/-- The word body of LDHU (R159). -/
def enc_ldhu (t : GReg) (base : GReg) (off : BitVec 10) (hint : Bool) : Nat :=
  fields [(8, 19), (5, t.val), (5, base.val), (10, off.toNat), (3, b2n hint)]

/-- The word body of LDW (R159). -/
def enc_ldw (t : GReg) (base : GReg) (off : BitVec 10) (hint : Bool) : Nat :=
  fields [(8, 20), (5, t.val), (5, base.val), (10, off.toNat), (3, b2n hint)]

/-- The word body of LDWU (R159). -/
def enc_ldwu (t : GReg) (base : GReg) (off : BitVec 10) (hint : Bool) : Nat :=
  fields [(8, 21), (5, t.val), (5, base.val), (10, off.toNat), (3, b2n hint)]

/-- The word body of LDD (R159). -/
def enc_ldd (t : GReg) (base : GReg) (off : BitVec 10) (hint : Bool) : Nat :=
  fields [(8, 22), (5, t.val), (5, base.val), (10, off.toNat), (3, b2n hint)]

/-- The word body of STB (R159). -/
def enc_stb (t : GReg) (base : GReg) (off : BitVec 10) (hint : Bool) : Nat :=
  fields [(8, 23), (5, t.val), (5, base.val), (10, off.toNat), (3, b2n hint)]

/-- The word body of STH (R159). -/
def enc_sth (t : GReg) (base : GReg) (off : BitVec 10) (hint : Bool) : Nat :=
  fields [(8, 24), (5, t.val), (5, base.val), (10, off.toNat), (3, b2n hint)]

/-- The word body of STW (R159). -/
def enc_stw (t : GReg) (base : GReg) (off : BitVec 10) (hint : Bool) : Nat :=
  fields [(8, 25), (5, t.val), (5, base.val), (10, off.toNat), (3, b2n hint)]

/-- The word body of STD (R159). -/
def enc_std (t : GReg) (base : GReg) (off : BitVec 10) (hint : Bool) : Nat :=
  fields [(8, 26), (5, t.val), (5, base.val), (10, off.toNat), (3, b2n hint)]

/-- The word body of LDAQ (R172). -/
def enc_ldaq (t : GReg) (base : GReg) (wid : Width) (off : BitVec 8) (sc : Scope) : Nat :=
  fields [(8, 27), (5, t.val), (5, base.val), (2, wid.code), (8, off.toNat), (3, sc.code)]

/-- The word body of STRL (R172). -/
def enc_strl (t : GReg) (base : GReg) (wid : Width) (off : BitVec 8) (sc : Scope) : Nat :=
  fields [(8, 28), (5, t.val), (5, base.val), (2, wid.code), (8, off.toNat), (3, sc.code)]

/-- The word body of LDF (R161). -/
def enc_ldf (t : GReg) (base : GReg) (off : BitVec 10) (rs : RoundSel) : Nat :=
  fields [(8, 29), (5, t.val), (5, base.val), (10, off.toNat), (1, rs.rd), (2, rs.rm)]

/-- The word body of STF (R161). -/
def enc_stf (t : GReg) (base : GReg) (off : BitVec 10) (rs : RoundSel) : Nat :=
  fields [(8, 30), (5, t.val), (5, base.val), (10, off.toNat), (1, rs.rd), (2, rs.rm)]

/-- The word body of PREF (R160). -/
def enc_pref (kind : PrefKind) (base : GReg) (off : BitVec 10) : Nat :=
  fields [(8, 31), (5, kind.code), (5, base.val), (10, off.toNat), (3, 0)]

/-- The word body of VLD (R162). -/
def enc_vld (t : VReg) (base : GReg) (off : BitVec 10) (hint : Bool) (k : KReg) : Nat :=
  fields [(8, 32), (5, t.val), (5, base.val), (10, off.toNat), (1, b2n hint), (2, k.val)]

/-- The word body of VST (R162). -/
def enc_vst (t : VReg) (base : GReg) (off : BitVec 10) (hint : Bool) (k : KReg) : Nat :=
  fields [(8, 33), (5, t.val), (5, base.val), (10, off.toNat), (1, b2n hint), (2, k.val)]

/-- The word body of VLDS (R163). -/
def enc_vlds (d : VReg) (a : GReg) (b : GReg) (wid : Width) (k : KReg) : Nat :=
  fields [(8, 34), (5, d.val), (5, a.val), (5, b.val), (2, wid.code), (4, 0), (2, k.val)]

/-- The word body of VSTS (R163). -/
def enc_vsts (d : VReg) (a : GReg) (b : GReg) (wid : Width) (k : KReg) : Nat :=
  fields [(8, 35), (5, d.val), (5, a.val), (5, b.val), (2, wid.code), (4, 0), (2, k.val)]

/-- The word body of VLDF (R165). -/
def enc_vldf (t : VReg) (base : GReg) (off : BitVec 10) (ty : VecFmt) : Nat :=
  fields [(8, 36), (5, t.val), (5, base.val), (10, off.toNat), (3, ty.code)]

/-- The word body of VSTF (R165). -/
def enc_vstf (t : VReg) (base : GReg) (off : BitVec 10) (ty : VecFmt) : Nat :=
  fields [(8, 37), (5, t.val), (5, base.val), (10, off.toNat), (3, ty.code)]

/-- The word body of VGATH (R164). -/
def enc_vgath (d : VReg) (a : GReg) (b : VReg) (wid : Width) (k : KReg) : Nat :=
  fields [(8, 38), (5, d.val), (5, a.val), (5, b.val), (2, wid.code), (4, 0), (2, k.val)]

/-- The word body of VSCAT (R164). -/
def enc_vscat (d : VReg) (a : GReg) (b : VReg) (wid : Width) (k : KReg) : Nat :=
  fields [(8, 39), (5, d.val), (5, a.val), (5, b.val), (2, wid.code), (4, 0), (2, k.val)]

/-- The word body of AMOADD (R167). -/
def enc_amoadd (d : GReg) (a : GReg) (b : GReg) (wid : Width) (sc : Scope) (near : Bool) (rl : Bool) (aq : Bool) : Nat :=
  fields [(8, 40), (5, d.val), (5, a.val), (5, b.val), (2, wid.code), (3, sc.code),
    (1, b2n near), (1, b2n rl), (1, b2n aq)]

/-- The word body of AMOAND (R167). -/
def enc_amoand (d : GReg) (a : GReg) (b : GReg) (wid : Width) (sc : Scope) (near : Bool) (rl : Bool) (aq : Bool) : Nat :=
  fields [(8, 41), (5, d.val), (5, a.val), (5, b.val), (2, wid.code), (3, sc.code),
    (1, b2n near), (1, b2n rl), (1, b2n aq)]

/-- The word body of AMOOR (R167). -/
def enc_amoor (d : GReg) (a : GReg) (b : GReg) (wid : Width) (sc : Scope) (near : Bool) (rl : Bool) (aq : Bool) : Nat :=
  fields [(8, 42), (5, d.val), (5, a.val), (5, b.val), (2, wid.code), (3, sc.code),
    (1, b2n near), (1, b2n rl), (1, b2n aq)]

/-- The word body of AMOXOR (R167). -/
def enc_amoxor (d : GReg) (a : GReg) (b : GReg) (wid : Width) (sc : Scope) (near : Bool) (rl : Bool) (aq : Bool) : Nat :=
  fields [(8, 43), (5, d.val), (5, a.val), (5, b.val), (2, wid.code), (3, sc.code),
    (1, b2n near), (1, b2n rl), (1, b2n aq)]

/-- The word body of AMOMIN (R167). -/
def enc_amomin (d : GReg) (a : GReg) (b : GReg) (wid : Width) (sc : Scope) (near : Bool) (rl : Bool) (aq : Bool) : Nat :=
  fields [(8, 44), (5, d.val), (5, a.val), (5, b.val), (2, wid.code), (3, sc.code),
    (1, b2n near), (1, b2n rl), (1, b2n aq)]

/-- The word body of AMOMAX (R167). -/
def enc_amomax (d : GReg) (a : GReg) (b : GReg) (wid : Width) (sc : Scope) (near : Bool) (rl : Bool) (aq : Bool) : Nat :=
  fields [(8, 45), (5, d.val), (5, a.val), (5, b.val), (2, wid.code), (3, sc.code),
    (1, b2n near), (1, b2n rl), (1, b2n aq)]

/-- The word body of AMOMINU (R167). -/
def enc_amominu (d : GReg) (a : GReg) (b : GReg) (wid : Width) (sc : Scope) (near : Bool) (rl : Bool) (aq : Bool) : Nat :=
  fields [(8, 46), (5, d.val), (5, a.val), (5, b.val), (2, wid.code), (3, sc.code),
    (1, b2n near), (1, b2n rl), (1, b2n aq)]

/-- The word body of AMOMAXU (R167). -/
def enc_amomaxu (d : GReg) (a : GReg) (b : GReg) (wid : Width) (sc : Scope) (near : Bool) (rl : Bool) (aq : Bool) : Nat :=
  fields [(8, 47), (5, d.val), (5, a.val), (5, b.val), (2, wid.code), (3, sc.code),
    (1, b2n near), (1, b2n rl), (1, b2n aq)]

/-- The word body of AMOSWP (R167). -/
def enc_amoswp (d : GReg) (a : GReg) (b : GReg) (wid : Width) (sc : Scope) (near : Bool) (rl : Bool) (aq : Bool) : Nat :=
  fields [(8, 48), (5, d.val), (5, a.val), (5, b.val), (2, wid.code), (3, sc.code),
    (1, b2n near), (1, b2n rl), (1, b2n aq)]

/-- The word body of AMOCAS (R167). -/
def enc_amocas (d : GReg) (a : GReg) (b : GReg) (wid : Width) (sc : Scope) (near : Bool) (rl : Bool) (aq : Bool) : Nat :=
  fields [(8, 49), (5, d.val), (5, a.val), (5, b.val), (2, wid.code), (3, sc.code),
    (1, b2n near), (1, b2n rl), (1, b2n aq)]

/-- The word body of AMOFADD (R167). -/
def enc_amofadd (d : GReg) (a : GReg) (b : GReg) (wid : Width) (sc : Scope) (near : Bool) (rl : Bool) (aq : Bool) : Nat :=
  fields [(8, 50), (5, d.val), (5, a.val), (5, b.val), (2, wid.code), (3, sc.code),
    (1, b2n near), (1, b2n rl), (1, b2n aq)]

/-- The word body of AMOFMAX (R167). -/
def enc_amofmax (d : GReg) (a : GReg) (b : GReg) (wid : Width) (sc : Scope) (near : Bool) (rl : Bool) (aq : Bool) : Nat :=
  fields [(8, 51), (5, d.val), (5, a.val), (5, b.val), (2, wid.code), (3, sc.code),
    (1, b2n near), (1, b2n rl), (1, b2n aq)]

/-- The word body of FENCE (R171). -/
def enc_fence (sc : Scope) : Nat :=
  fields [(8, 52), (5, 0), (5, 0), (5, 0), (2, 0), (3, sc.code), (3, 0)]

/-- The word body of ACQ (R171). -/
def enc_acq (sc : Scope) : Nat :=
  fields [(8, 53), (5, 0), (5, 0), (5, 0), (2, 0), (3, sc.code), (3, 0)]

/-- The word body of REL (R171). -/
def enc_rel (sc : Scope) : Nat :=
  fields [(8, 54), (5, 0), (5, 0), (5, 0), (2, 0), (3, sc.code), (3, 0)]

/-- The word body of WAITW (R229). -/
def enc_waitw (d : GReg) (a : GReg) (b : GReg) (wid : Width) : Nat :=
  fields [(8, 55), (5, d.val), (5, a.val), (5, b.val), (2, wid.code), (6, 0)]

/-- The word body of WFE (R231). -/
def enc_wfe : Nat :=
  fields [(8, 56), (5, 0), (5, 0), (5, 0), (8, 0)]

/-- The word body of SEV (R232). -/
def enc_sev (a : GReg) (sc : Scope) (all : Bool) : Nat :=
  fields [(8, 57), (5, 0), (5, a.val), (5, 0), (2, 0), (3, sc.code), (2, 0), (1, b2n all)]

/-- The word body of BARARR (R258). -/
def enc_bararr (d : GReg) (a : GReg) (sc : Scope) : Nat :=
  fields [(8, 58), (5, d.val), (5, a.val), (5, 0), (2, 0), (3, sc.code), (3, 0)]

/-- The word body of BARWT (R258). -/
def enc_barwt (a : GReg) (b : GReg) (sc : Scope) : Nat :=
  fields [(8, 59), (5, 0), (5, a.val), (5, b.val), (2, 0), (3, sc.code), (3, 0)]

/-- The word body of BARXB (R258). -/
def enc_barxb (a : GReg) (b : GReg) : Nat :=
  fields [(8, 60), (5, 0), (5, a.val), (5, b.val), (8, 0)]

/-- The word body of GSYNC (R365). -/
def enc_gsync (d : GReg) (a : GReg) (sc : Scope) : Nat :=
  fields [(8, 61), (5, d.val), (5, a.val), (5, 0), (2, 0), (3, sc.code), (3, 0)]

/-- The word body of SCFG (R194). -/
def enc_scfg (d : GReg) (a : GReg) : Nat :=
  fields [(8, 62), (5, d.val), (5, a.val), (5, 0), (8, 0)]

/-- The word body of SBIND (R194). -/
def enc_sbind (d : VReg) (a : GReg) (wr : Bool) : Nat :=
  fields [(8, 63), (5, d.val), (5, a.val), (5, 0), (7, 0), (1, b2n wr)]

/-- The word body of SFREE (R194). -/
def enc_sfree (a : GReg) : Nat :=
  fields [(8, 64), (5, 0), (5, a.val), (5, 0), (8, 0)]

/-- The word body of SPOS (R194). -/
def enc_spos (d : GReg) (a : GReg) (b : GReg) (upd : Bool) : Nat :=
  fields [(8, 65), (5, d.val), (5, a.val), (5, b.val), (7, 0), (1, b2n upd)]

/-- The word body of BTSET (R252). -/
def enc_btset (n : Fin 13) (a : GReg) (imm : BitVec 13) : Nat :=
  fields [(8, 66), (5, n.val), (5, a.val), (13, imm.toNat)]

/-- The word body of BTGO (R253). -/
def enc_btgo (d : GReg) (sc : Scope) : Nat :=
  fields [(8, 67), (5, d.val), (5, 0), (5, 0), (2, 0), (3, sc.code), (3, 0)]

/-- The word body of BTPOLL (R249). -/
def enc_btpoll (d : GReg) (a : GReg) (wait : Bool) : Nat :=
  fields [(8, 68), (5, d.val), (5, a.val), (5, 0), (7, 0), (1, b2n wait)]

/-- The word body of IXPOST (R260). -/
def enc_ixpost (d : GReg) (a : GReg) (sc : Scope) (resume : Bool) : Nat :=
  fields [(8, 69), (5, d.val), (5, a.val), (5, 0), (2, 0), (3, sc.code), (2, 0), (1, b2n resume)]

/-- The word body of KLSET (R281). -/
def enc_klset (d : GReg) (a : GReg) (b : GReg) (clr : Bool) : Nat :=
  fields [(8, 70), (5, d.val), (5, a.val), (5, b.val), (7, 0), (1, b2n clr)]

/-- The word body of KLOOK (R282). -/
def enc_klook (d : GReg) (a : GReg) (b : GReg) (sc : Scope) : Nat :=
  fields [(8, 71), (5, d.val), (5, a.val), (5, b.val), (2, 0), (3, sc.code), (3, 0)]

/-- The word body of KLWAIT (R283). -/
def enc_klwait (d : GReg) (a : GReg) (poll : Bool) : Nat :=
  fields [(8, 72), (5, d.val), (5, a.val), (5, 0), (7, 0), (1, b2n poll)]

/-- The word body of KLRES (R284). -/
def enc_klres (d : GReg) (a : GReg) (sc : Scope) (drop : Bool) : Nat :=
  fields [(8, 73), (5, d.val), (5, a.val), (5, 0), (2, 0), (3, sc.code), (2, 0), (1, b2n drop)]

/-- The word body of EBAG (R291). -/
def enc_ebag (d : GReg) (a : GReg) (b : GReg) (sc : Scope) : Nat :=
  fields [(8, 74), (5, d.val), (5, a.val), (5, b.val), (2, 0), (3, sc.code), (3, 0)]

/-- The word body of EUPD (R296). -/
def enc_eupd (d : GReg) (a : GReg) (b : GReg) (sc : Scope) (resume : Bool) : Nat :=
  fields [(8, 75), (5, d.val), (5, a.val), (5, b.val), (2, 0), (3, sc.code), (1, 0), (1, 0),
    (1, b2n resume)]

/-- The word body of EUPD_CLOSE (R297). -/
def enc_eupdClose (d : GReg) (a : GReg) (b : GReg) (sc : Scope) : Nat :=
  fields [(8, 75), (5, d.val), (5, a.val), (5, b.val), (2, 0), (3, sc.code), (1, 0), (1, 1),
    (1, 0)]

/-- The word body of TENQ (R360). -/
def enc_tenq (d : GReg) (a : GReg) (sc : Scope) : Nat :=
  fields [(8, 76), (5, d.val), (5, a.val), (5, 0), (2, 0), (3, sc.code), (3, 0)]

/-- The word body of TDEQ (R361). -/
def enc_tdeq (d : GReg) (a : GReg) (b : GReg) : Nat :=
  fields [(8, 77), (5, d.val), (5, a.val), (5, b.val), (8, 0)]

/-- The word body of DCINIT (R362). -/
def enc_dcinit (d : GReg) (a : GReg) (imm : BitVec 13) : Nat :=
  fields [(8, 78), (5, d.val), (5, a.val), (13, imm.toNat)]

/-- The word body of DCDEC (R362). -/
def enc_dcdec (d : GReg) (a : GReg) (b : GReg) (sc : Scope) (free : Bool) : Nat :=
  fields [(8, 79), (5, d.val), (5, a.val), (5, b.val), (2, 0), (3, sc.code), (2, 0),
    (1, b2n free)]

/-- The word body of DCINC (R362). -/
def enc_dcinc (d : GReg) (a : GReg) (b : GReg) : Nat :=
  fields [(8, 80), (5, d.val), (5, a.val), (5, b.val), (8, 0)]

/-- The word body of TYIELD (R363). -/
def enc_tyield (a : GReg) (b : GReg) (sc : Scope) : Nat :=
  fields [(8, 81), (5, 0), (5, a.val), (5, b.val), (2, 0), (3, sc.code), (3, 0)]

/-- The word body of TEXIT (R363). -/
def enc_texit (sc : Scope) : Nat :=
  fields [(8, 82), (5, 0), (5, 0), (5, 0), (2, 0), (3, sc.code), (3, 0)]

/-- The word body of PWREQ (R364). -/
def enc_pwreq (d : GReg) (a : GReg) (imm : BitVec 13) : Nat :=
  fields [(8, 83), (5, d.val), (5, a.val), (13, imm.toNat)]

/-- The word body of PWREL (R364). -/
def enc_pwrel : Nat :=
  fields [(8, 84), (5, 0), (5, 0), (5, 0), (8, 0)]

/-- The word body of SMIG (R264). -/
def enc_smig (d : GReg) (a : GReg) : Nat :=
  fields [(8, 85), (5, d.val), (5, a.val), (5, 0), (8, 0)]

/-- The word body of GJOIN (R365). -/
def enc_gjoin (d : GReg) (a : GReg) (imm : BitVec 13) : Nat :=
  fields [(8, 86), (5, d.val), (5, a.val), (13, imm.toNat)]

/-- The word body of GLEAVE (R365). -/
def enc_gleave (d : GReg) (a : GReg) (imm : BitVec 13) : Nat :=
  fields [(8, 87), (5, d.val), (5, a.val), (13, imm.toNat)]

/-- The word body of QSEND (R412). -/
def enc_qsend (q : QReg) (b : VReg) (fin : Bool) : Nat :=
  fields [(8, 88), (5, 0), (5, q.val), (5, b.val), (7, 0), (1, b2n fin)]

/-- The word body of QRECV (R413). -/
def enc_qrecv (d : VReg) (q : QReg) (b : GReg) (poll : Bool) : Nat :=
  fields [(8, 89), (5, d.val), (5, q.val), (5, b.val), (7, 0), (1, b2n poll)]

/-- The word body of VSOPEN (R411). -/
def enc_vsopen (d : GReg) (a : GReg) (nb : Bool) (q : QReg) (entry : BitVec 8) : Nat :=
  fields [(8, 90), (5, d.val), (5, a.val), (2, 0), (1, b2n nb), (2, q.val), (8, entry.toNat)]

/-- The word body of VSMARK (R414). -/
def enc_vsmark (q : QReg) (b : GReg) : Nat :=
  fields [(8, 91), (5, 0), (5, q.val), (5, b.val), (8, 0)]

/-- The word body of VSCLOSE (R411). -/
def enc_vsclose (d : GReg) (entry : BitVec 8) : Nat :=
  fields [(8, 92), (5, d.val), (5, 0), (5, 0), (8, entry.toNat)]

/-- The word body of MCMD (R223). -/
def enc_mcmd (d : GReg) (a : GReg) (b : GReg) : Nat :=
  fields [(8, 93), (5, d.val), (5, a.val), (5, b.val), (8, 0)]

/-- The word body of CSRR (R101). -/
def enc_csrr (d : GReg) (csr : BitVec 12) : Nat :=
  fields [(8, 94), (5, d.val), (5, 0), (1, 0), (12, csr.toNat)]

/-- The word body of CSRW (R101). -/
def enc_csrw (a : GReg) (csr : BitVec 12) : Nat :=
  fields [(8, 95), (5, 0), (5, a.val), (1, 0), (12, csr.toNat)]

/-- The word body of CSRX (R101). -/
def enc_csrx (d : GReg) (a : GReg) (csr : BitVec 12) : Nat :=
  fields [(8, 96), (5, d.val), (5, a.val), (1, 0), (12, csr.toNat)]

/-- The word body of TRAP (R102). -/
def enc_trap (imm : BitVec 13) : Nat :=
  fields [(8, 97), (5, 0), (5, 0), (13, imm.toNat)]

/-- The word body of ERET (R103). -/
def enc_eret : Nat :=
  fields [(8, 98), (5, 0), (5, 0), (5, 0), (8, 0)]

/-- The word body of PLBINV_PAGE (R322). -/
def enc_plbinvPage (a : GReg) (sc : Scope) : Nat :=
  fields [(8, 99), (5, 0), (5, a.val), (5, 0), (2, 0), (3, sc.code), (3, 0)]

/-- The word body of PLBINV_DOM (R322). -/
def enc_plbinvDom (a : GReg) (sc : Scope) : Nat :=
  fields [(8, 99), (5, 0), (5, a.val), (5, 0), (2, 0), (3, sc.code), (3, 1)]

/-- The word body of PLBINV_VF (R322). -/
def enc_plbinvVf (sc : Scope) : Nat :=
  fields [(8, 99), (5, 0), (5, 0), (5, 0), (2, 0), (3, sc.code), (3, 2)]

/-- The word body of CFLUSH_CODE (R323). -/
def enc_cflushCode (a : GReg) (b : GReg) (sc : Scope) : Nat :=
  fields [(8, 100), (5, 0), (5, a.val), (5, b.val), (2, 0), (3, sc.code), (3, 0)]

/-- The word body of CFLUSH_WB (R323). -/
def enc_cflushWb (a : GReg) (b : GReg) : Nat :=
  fields [(8, 100), (5, 0), (5, a.val), (5, b.val), (2, 0), (3, 0), (3, 1)]

/-- The word body of CFLUSH_INV (R323). -/
def enc_cflushInv (a : GReg) (b : GReg) : Nat :=
  fields [(8, 100), (5, 0), (5, a.val), (5, b.val), (2, 0), (3, 0), (3, 2)]

/-- The word body of SPART (R228). -/
def enc_spart (d : GReg) (a : GReg) (imm : BitVec 13) : Nat :=
  fields [(8, 101), (5, d.val), (5, a.val), (13, imm.toNat)]

/-- The word body of CTXSAVE (R235). -/
def enc_ctxsave (d : GReg) (a : GReg) : Nat :=
  fields [(8, 102), (5, d.val), (5, a.val), (5, 0), (8, 0)]

/-- The word body of CTXLOAD (R235). -/
def enc_ctxload (d : GReg) (a : GReg) : Nat :=
  fields [(8, 103), (5, d.val), (5, a.val), (5, 0), (8, 0)]

/-- The word body of ANOP (R107). -/
def enc_anop : Nat :=
  fields [(8, 128), (5, 0), (5, 0), (5, 0), (8, 0)]

/-- The word body of ADD (R108). -/
def enc_add (d : GReg) (a : GReg) (b : GReg) (p : Bool) : Nat :=
  fields [(8, 129), (5, d.val), (5, a.val), (5, b.val), (7, 0), (1, b2n p)]

/-- The word body of SUB (R108). -/
def enc_sub (d : GReg) (a : GReg) (b : GReg) (p : Bool) : Nat :=
  fields [(8, 130), (5, d.val), (5, a.val), (5, b.val), (7, 0), (1, b2n p)]

/-- The word body of ADDI (R109). -/
def enc_addi (d : GReg) (a : GReg) (imm : BitVec 13) : Nat :=
  fields [(8, 131), (5, d.val), (5, a.val), (13, imm.toNat)]

/-- The word body of MUL (R112). -/
def enc_mul (d : GReg) (a : GReg) (b : GReg) : Nat :=
  fields [(8, 132), (5, d.val), (5, a.val), (5, b.val), (8, 0)]

/-- The word body of MULH (R112). -/
def enc_mulh (d : GReg) (a : GReg) (b : GReg) : Nat :=
  fields [(8, 133), (5, d.val), (5, a.val), (5, b.val), (8, 0)]

/-- The word body of MULHU (R112). -/
def enc_mulhu (d : GReg) (a : GReg) (b : GReg) : Nat :=
  fields [(8, 134), (5, d.val), (5, a.val), (5, b.val), (8, 0)]

/-- The word body of DIV (R113). -/
def enc_div (d : GReg) (a : GReg) (b : GReg) : Nat :=
  fields [(8, 135), (5, d.val), (5, a.val), (5, b.val), (8, 0)]

/-- The word body of DIVU (R113). -/
def enc_divu (d : GReg) (a : GReg) (b : GReg) : Nat :=
  fields [(8, 136), (5, d.val), (5, a.val), (5, b.val), (8, 0)]

/-- The word body of REM (R113). -/
def enc_rem (d : GReg) (a : GReg) (b : GReg) : Nat :=
  fields [(8, 137), (5, d.val), (5, a.val), (5, b.val), (8, 0)]

/-- The word body of REMU (R113). -/
def enc_remu (d : GReg) (a : GReg) (b : GReg) : Nat :=
  fields [(8, 138), (5, d.val), (5, a.val), (5, b.val), (8, 0)]

/-- The word body of AND (R110). -/
def enc_and (d : GReg) (a : GReg) (b : GReg) : Nat :=
  fields [(8, 139), (5, d.val), (5, a.val), (5, b.val), (8, 0)]

/-- The word body of OR (R110). -/
def enc_or (d : GReg) (a : GReg) (b : GReg) : Nat :=
  fields [(8, 140), (5, d.val), (5, a.val), (5, b.val), (8, 0)]

/-- The word body of XOR (R110). -/
def enc_xor (d : GReg) (a : GReg) (b : GReg) : Nat :=
  fields [(8, 141), (5, d.val), (5, a.val), (5, b.val), (8, 0)]

/-- The word body of ANDI (R110). -/
def enc_andi (d : GReg) (a : GReg) (imm : BitVec 13) : Nat :=
  fields [(8, 142), (5, d.val), (5, a.val), (13, imm.toNat)]

/-- The word body of ORI (R110). -/
def enc_ori (d : GReg) (a : GReg) (imm : BitVec 13) : Nat :=
  fields [(8, 143), (5, d.val), (5, a.val), (13, imm.toNat)]

/-- The word body of XORI (R110). -/
def enc_xori (d : GReg) (a : GReg) (imm : BitVec 13) : Nat :=
  fields [(8, 144), (5, d.val), (5, a.val), (13, imm.toNat)]

/-- The word body of SHL (R111). -/
def enc_shl (d : GReg) (a : GReg) (b : GReg) : Nat :=
  fields [(8, 145), (5, d.val), (5, a.val), (5, b.val), (8, 0)]

/-- The word body of SHR (R111). -/
def enc_shr (d : GReg) (a : GReg) (b : GReg) : Nat :=
  fields [(8, 146), (5, d.val), (5, a.val), (5, b.val), (8, 0)]

/-- The word body of SAR (R111). -/
def enc_sar (d : GReg) (a : GReg) (b : GReg) : Nat :=
  fields [(8, 147), (5, d.val), (5, a.val), (5, b.val), (8, 0)]

/-- The word body of SHLI (R111). -/
def enc_shli (d : GReg) (a : GReg) (sh : BitVec 6) : Nat :=
  fields [(8, 148), (5, d.val), (5, a.val), (7, 0), (6, sh.toNat)]

/-- The word body of SHRI (R111). -/
def enc_shri (d : GReg) (a : GReg) (sh : BitVec 6) : Nat :=
  fields [(8, 149), (5, d.val), (5, a.val), (7, 0), (6, sh.toNat)]

/-- The word body of SARI (R111). -/
def enc_sari (d : GReg) (a : GReg) (sh : BitVec 6) : Nat :=
  fields [(8, 150), (5, d.val), (5, a.val), (7, 0), (6, sh.toNat)]

/-- The word body of LIMM (R117). -/
def enc_limm (d : GReg) (sel : BitVec 2) (imm : BitVec 16) : Nat :=
  fields [(8, 151), (5, d.val), (2, sel.toNat), (16, imm.toNat)]

/-- The word body of SLT (R114). -/
def enc_slt (d : GReg) (a : GReg) (b : GReg) : Nat :=
  fields [(8, 152), (5, d.val), (5, a.val), (5, b.val), (8, 0)]

/-- The word body of SLTU (R114). -/
def enc_sltu (d : GReg) (a : GReg) (b : GReg) : Nat :=
  fields [(8, 153), (5, d.val), (5, a.val), (5, b.val), (8, 0)]

/-- The word body of SEQ (R114). -/
def enc_seq (d : GReg) (a : GReg) (b : GReg) : Nat :=
  fields [(8, 154), (5, d.val), (5, a.val), (5, b.val), (8, 0)]

/-- The word body of SEL (R115). -/
def enc_sel (d : GReg) (a : GReg) (b : GReg) : Nat :=
  fields [(8, 155), (5, d.val), (5, a.val), (5, b.val), (8, 0)]

/-- The word body of CLZ (R116). -/
def enc_clz (d : GReg) (a : GReg) : Nat :=
  fields [(8, 156), (5, d.val), (5, a.val), (5, 0), (8, 0)]

/-- The word body of POPC (R116). -/
def enc_popc (d : GReg) (a : GReg) : Nat :=
  fields [(8, 157), (5, d.val), (5, a.val), (5, 0), (8, 0)]

/-- The word body of MIN (R114). -/
def enc_min (d : GReg) (a : GReg) (b : GReg) (u : Bool) : Nat :=
  fields [(8, 158), (5, d.val), (5, a.val), (5, b.val), (7, 0), (1, b2n u)]

/-- The word body of MAX (R114). -/
def enc_max (d : GReg) (a : GReg) (b : GReg) (u : Bool) : Nat :=
  fields [(8, 159), (5, d.val), (5, a.val), (5, b.val), (7, 0), (1, b2n u)]

/-- The word body of PFMT (R118). -/
def enc_pfmt (d : GReg) (a : GReg) (b : GReg) : Nat :=
  fields [(8, 160), (5, d.val), (5, a.val), (5, b.val), (8, 0)]

/-- The word body of PGETF (R119). -/
def enc_pgetf (d : GReg) (a : GReg) (sel : BitVec 2) : Nat :=
  fields [(8, 161), (5, d.val), (5, a.val), (5, 0), (6, 0), (2, sel.toNat)]

/-- The word body of PADDE (R120). -/
def enc_padde (d : GReg) (a : GReg) (b : GReg) : Nat :=
  fields [(8, 162), (5, d.val), (5, a.val), (5, b.val), (8, 0)]

/-- The word body of PCADDR (R122). -/
def enc_pcaddr (d : GReg) (imm : BitVec 13) : Nat :=
  fields [(8, 163), (5, d.val), (5, 0), (13, imm.toNat)]

/-- The word body of FADD (R125). -/
def enc_fadd (d : GReg) (a : GReg) (b : GReg) (rs : RoundSel) (ft : FloatFmt) : Nat :=
  fields [(8, 164), (5, d.val), (5, a.val), (5, b.val), (2, rs.rm), (3, 0), (1, rs.rd),
    (2, ft.code)]

/-- The word body of FSUB (R125). -/
def enc_fsub (d : GReg) (a : GReg) (b : GReg) (rs : RoundSel) (ft : FloatFmt) : Nat :=
  fields [(8, 165), (5, d.val), (5, a.val), (5, b.val), (2, rs.rm), (3, 0), (1, rs.rd),
    (2, ft.code)]

/-- The word body of FMUL (R125). -/
def enc_fmul (d : GReg) (a : GReg) (b : GReg) (rs : RoundSel) (ft : FloatFmt) : Nat :=
  fields [(8, 166), (5, d.val), (5, a.val), (5, b.val), (2, rs.rm), (3, 0), (1, rs.rd),
    (2, ft.code)]

/-- The word body of FMA (R125). -/
def enc_fma (d : GReg) (a : GReg) (b : GReg) (rs : RoundSel) (ft : FloatFmt) : Nat :=
  fields [(8, 167), (5, d.val), (5, a.val), (5, b.val), (2, rs.rm), (3, 0), (1, rs.rd),
    (2, ft.code)]

/-- The word body of FDIV (R125). -/
def enc_fdiv (d : GReg) (a : GReg) (b : GReg) (rs : RoundSel) (ft : FloatFmt) : Nat :=
  fields [(8, 168), (5, d.val), (5, a.val), (5, b.val), (2, rs.rm), (3, 0), (1, rs.rd),
    (2, ft.code)]

/-- The word body of FSQRT (R125). -/
def enc_fsqrt (d : GReg) (a : GReg) (rs : RoundSel) (ft : FloatFmt) : Nat :=
  fields [(8, 169), (5, d.val), (5, a.val), (5, 0), (2, rs.rm), (3, 0), (1, rs.rd), (2, ft.code)]

/-- The word body of FMIN (R126). -/
def enc_fmin (d : GReg) (a : GReg) (b : GReg) (ft : FloatFmt) : Nat :=
  fields [(8, 170), (5, d.val), (5, a.val), (5, b.val), (6, 0), (2, ft.code)]

/-- The word body of FMAX (R126). -/
def enc_fmax (d : GReg) (a : GReg) (b : GReg) (ft : FloatFmt) : Nat :=
  fields [(8, 171), (5, d.val), (5, a.val), (5, b.val), (6, 0), (2, ft.code)]

/-- The word body of FCMP (R127). -/
def enc_fcmp (d : GReg) (a : GReg) (b : GReg) (ft : FloatFmt) : Nat :=
  fields [(8, 172), (5, d.val), (5, a.val), (5, b.val), (6, 0), (2, ft.code)]

/-- The word body of FCVT (R128). -/
def enc_fcvt (d : GReg) (a : GReg) (frm : Bool) (other : FloatCode) (rs : RoundSel) (ft : FloatFmt) : Nat :=
  fields [(8, 173), (5, d.val), (5, a.val), (1, 0), (1, b2n frm), (3, other.code), (2, rs.rm),
    (3, 0), (1, rs.rd), (2, ft.code)]

/-- The word body of FCVTI (R129). -/
def enc_fcvti (d : GReg) (a : GReg) (ity : IntTy) (rs : RoundSel) (ft : FloatFmt) : Nat :=
  fields [(8, 174), (5, d.val), (5, a.val), (3, 0), (2, ity.code), (2, rs.rm), (3, 0),
    (1, rs.rd), (2, ft.code)]

/-- The word body of ICVTF (R129). -/
def enc_icvtf (d : GReg) (a : GReg) (ity : IntTy) (rs : RoundSel) (ft : FloatFmt) : Nat :=
  fields [(8, 175), (5, d.val), (5, a.val), (3, 0), (2, ity.code), (2, rs.rm), (3, 0),
    (1, rs.rd), (2, ft.code)]

/-- The word body of VADD (R133). -/
def enc_vadd (d : VReg) (a : VReg) (b : VReg) (k : KReg) (ty : EType) (rm : Rounding) (sat : Bool) : Nat :=
  fields [(8, 176), (4, d.val), (4, a.val), (4, b.val), (2, k.val), (4, ty.code), (2, rm.code),
    (2, 0), (1, b2n sat)]

/-- The word body of VSUB (R133). -/
def enc_vsub (d : VReg) (a : VReg) (b : VReg) (k : KReg) (ty : EType) (rm : Rounding) (sat : Bool) : Nat :=
  fields [(8, 177), (4, d.val), (4, a.val), (4, b.val), (2, k.val), (4, ty.code), (2, rm.code),
    (2, 0), (1, b2n sat)]

/-- The word body of VMUL (R133). -/
def enc_vmul (d : VReg) (a : VReg) (b : VReg) (k : KReg) (ty : EType) (rm : Rounding) : Nat :=
  fields [(8, 178), (4, d.val), (4, a.val), (4, b.val), (2, k.val), (4, ty.code), (2, rm.code),
    (3, 0)]

/-- The word body of VFMA (R133). -/
def enc_vfma (d : VReg) (a : VReg) (b : VReg) (k : KReg) (ty : EType) (rm : Rounding) : Nat :=
  fields [(8, 179), (4, d.val), (4, a.val), (4, b.val), (2, k.val), (4, ty.code), (2, rm.code),
    (3, 0)]

/-- The word body of VMAX (R133). -/
def enc_vmax (d : VReg) (a : VReg) (b : VReg) (k : KReg) (ty : EType) : Nat :=
  fields [(8, 180), (4, d.val), (4, a.val), (4, b.val), (2, k.val), (4, ty.code), (5, 0)]

/-- The word body of VMIN (R133). -/
def enc_vmin (d : VReg) (a : VReg) (b : VReg) (k : KReg) (ty : EType) : Nat :=
  fields [(8, 181), (4, d.val), (4, a.val), (4, b.val), (2, k.val), (4, ty.code), (5, 0)]

/-- The word body of VAND (R133). -/
def enc_vand (d : VReg) (a : VReg) (b : VReg) (k : KReg) (ty : EType) : Nat :=
  fields [(8, 182), (4, d.val), (4, a.val), (4, b.val), (2, k.val), (4, ty.code), (5, 0)]

/-- The word body of VOR (R133). -/
def enc_vor (d : VReg) (a : VReg) (b : VReg) (k : KReg) (ty : EType) : Nat :=
  fields [(8, 183), (4, d.val), (4, a.val), (4, b.val), (2, k.val), (4, ty.code), (5, 0)]

/-- The word body of VXOR (R133). -/
def enc_vxor (d : VReg) (a : VReg) (b : VReg) (k : KReg) (ty : EType) : Nat :=
  fields [(8, 184), (4, d.val), (4, a.val), (4, b.val), (2, k.val), (4, ty.code), (5, 0)]

/-- The word body of VSHL (R133). -/
def enc_vshl (d : VReg) (a : VReg) (b : VReg) (k : KReg) (ty : EType) : Nat :=
  fields [(8, 185), (4, d.val), (4, a.val), (4, b.val), (2, k.val), (4, ty.code), (5, 0)]

/-- The word body of VSHR (R133). -/
def enc_vshr (d : VReg) (a : VReg) (b : VReg) (k : KReg) (ty : EType) (log : Bool) : Nat :=
  fields [(8, 186), (4, d.val), (4, a.val), (4, b.val), (2, k.val), (4, ty.code), (4, 0),
    (1, b2n log)]

/-- The word body of VCMP (R134). -/
def enc_vcmp (c : KReg) (a : VReg) (b : VReg) (k : KReg) (ty : EType) (cond : VCond) : Nat :=
  fields [(8, 187), (2, 0), (2, c.val), (4, a.val), (4, b.val), (2, k.val), (4, ty.code), (2, 0),
    (3, cond.code)]

/-- The word body of VSEL (R134). -/
def enc_vsel (d : VReg) (a : VReg) (b : VReg) (k : KReg) (ty : EType) : Nat :=
  fields [(8, 188), (4, d.val), (4, a.val), (4, b.val), (2, k.val), (4, ty.code), (5, 0)]

/-- The word body of VCVT (R135). -/
def enc_vcvt (d : VReg) (a : VReg) (dty : EType) (k : KReg) (ty : EType) (rm : Rounding) (part : BitVec 3) : Nat :=
  fields [(8, 189), (4, d.val), (4, a.val), (4, etSwap' dty.code), (2, k.val), (4, ty.code),
    (2, rm.code), (3, part.toNat)]

/-- The word body of VREDSUM (R136). -/
def enc_vredsum (d : VReg) (a : VReg) (b : VReg) (k : KReg) (ty : EType) (acc : FloatFmt) : Nat :=
  fields [(8, 190), (4, d.val), (4, a.val), (4, b.val), (2, k.val), (4, ty.code), (3, 0),
    (2, acc.code)]

/-- The word body of VREDMAX (R136). -/
def enc_vredmax (d : VReg) (a : VReg) (k : KReg) (ty : EType) : Nat :=
  fields [(8, 191), (4, d.val), (4, a.val), (4, 0), (2, k.val), (4, ty.code), (5, 0)]

/-- The word body of VEXP (R133). -/
def enc_vexp (d : VReg) (a : VReg) (k : KReg) : Nat :=
  fields [(8, 192), (4, d.val), (4, a.val), (4, 0), (2, k.val), (4, 6), (5, 0)]

/-- The word body of VRCP (R133). -/
def enc_vrcp (d : VReg) (a : VReg) (k : KReg) (ty : EType) (rm : Rounding) : Nat :=
  fields [(8, 193), (4, d.val), (4, a.val), (4, 0), (2, k.val), (4, ty.code), (2, rm.code),
    (3, 0)]

/-- The word body of VSPLAT (R140). -/
def enc_vsplat (d : VReg) (a : GReg) (wid : Width) : Nat :=
  fields [(8, 194), (5, d.val), (5, a.val), (5, 0), (2, wid.code), (6, 0)]

/-- The word body of VPERM (R139). -/
def enc_vperm (d : VReg) (a : VReg) (b : VReg) (k : KReg) (ty : EType) (z : Bool) : Nat :=
  fields [(8, 195), (4, d.val), (4, a.val), (4, b.val), (2, k.val), (4, ty.code), (4, 0),
    (1, b2n z)]

/-- The word body of VMOVG (R140). -/
def enc_vmovg (d : GReg) (a : VReg) (b : GReg) (wid : Width) (s : Bool) : Nat :=
  fields [(8, 196), (5, d.val), (5, a.val), (5, b.val), (2, wid.code), (5, 0), (1, b2n s)]

/-- The word body of VMOVV (R140). -/
def enc_vmovv (d : VReg) (a : GReg) (b : GReg) (wid : Width) : Nat :=
  fields [(8, 197), (5, d.val), (5, a.val), (5, b.val), (2, wid.code), (6, 0)]

/-- The word body of VTOPK (R138). -/
def enc_vtopk (d : VReg) (a : VReg) (b : BitVec 4) (k : KReg) (ty : EType) : Nat :=
  fields [(8, 198), (4, d.val), (4, a.val), (4, b.toNat), (2, k.val), (4, ty.code), (5, 0)]

/-- The word body of VDOT (R137). -/
def enc_vdot (d : VReg) (a : VReg) (b : VReg) (k : KReg) (ty : EType) (acc : FloatFmt) : Nat :=
  fields [(8, 199), (4, d.val), (4, a.val), (4, b.val), (2, k.val), (4, ty.code), (3, 0),
    (2, acc.code)]

/-- The word body of TSHAPE (R214). -/
def enc_tshape (d : TReg) (a : GReg) : Nat :=
  fields [(8, 200), (5, d.val), (5, a.val), (5, 0), (8, 0)]

/-- The word body of TLD (R215). -/
def enc_tld (d : TReg) (a : GReg) (b : GReg) (st : BitVec 2) : Nat :=
  fields [(8, 201), (5, d.val), (5, a.val), (5, b.val), (6, 0), (2, st.toNat)]

/-- The word body of TST (R215). -/
def enc_tst (d : TReg) (a : GReg) (b : GReg) (st : BitVec 2) : Nat :=
  fields [(8, 202), (5, d.val), (5, a.val), (5, b.val), (6, 0), (2, st.toNat)]

/-- The word body of TZERO (R216). -/
def enc_tzero (d : TReg) (st : BitVec 2) : Nat :=
  fields [(8, 203), (3, d.val), (3, 0), (3, 0), (2, 0), (2, st.toNat), (2, 0), (8, 0)]

/-- The word body of MMA (R207). -/
def enc_mma (d : TReg) (a : TReg) (b : TReg) (df : Dataflow) (st : BitVec 2) (acc : FloatFmt) : Nat :=
  fields [(8, 204), (3, d.val), (3, a.val), (3, b.val), (2, df.code), (2, st.toNat),
    (2, acc.code), (8, 0)]

/-- The word body of MMAS (R207). -/
def enc_mmas (d : TReg) (a : TReg) (b : TReg) (df : Dataflow) (st : BitVec 2) (acc : FloatFmt) : Nat :=
  fields [(8, 205), (3, d.val), (3, a.val), (3, b.val), (2, df.code), (2, st.toNat),
    (2, acc.code), (8, 0)]

/-- The word body of MMSS (R207). -/
def enc_mmss (d : TReg) (a : TReg) (b : TReg) (df : Dataflow) (st : BitVec 2) (acc : FloatFmt) : Nat :=
  fields [(8, 206), (3, d.val), (3, a.val), (3, b.val), (2, df.code), (2, st.toNat),
    (2, acc.code), (8, 0)]

/-- The word body of TCVT (R217). -/
def enc_tcvt (d : TReg) (a : TReg) (st : BitVec 2) (rs : RoundSel) : Nat :=
  fields [(8, 207), (3, d.val), (3, a.val), (3, 0), (2, 0), (2, st.toNat), (2, 0), (2, rs.rm),
    (1, rs.rd), (5, 0)]

/-- The word body of TADD (R217). -/
def enc_tadd (d : TReg) (a : TReg) (b : TReg) (st : BitVec 2) (rs : RoundSel) : Nat :=
  fields [(8, 208), (3, d.val), (3, a.val), (3, b.val), (2, 0), (2, st.toNat), (2, 0),
    (2, rs.rm), (1, rs.rd), (5, 0)]

/-- The word body of TSCALE (R217). -/
def enc_tscale (d : TReg) (a : TReg) (b : TReg) (st : BitVec 2) (rs : RoundSel) (col : Bool) : Nat :=
  fields [(8, 209), (3, d.val), (3, a.val), (3, b.val), (2, 0), (2, st.toNat), (2, 0),
    (2, rs.rm), (1, rs.rd), (4, 0), (1, b2n col)]

/-- The word body of TTRANS (R217). -/
def enc_ttrans (d : TReg) (a : TReg) (st : BitVec 2) : Nat :=
  fields [(8, 210), (3, d.val), (3, a.val), (3, 0), (2, 0), (2, st.toNat), (2, 0), (8, 0)]

/-- The word body of MJOIN (R218). -/
def enc_mjoin (mask : BitVec 4) : Nat :=
  fields [(8, 211), (3, 0), (3, 0), (3, 0), (2, 0), (2, 0), (2, 0), (4, 0), (4, mask.toNat)]

/-- The word body of TALLOC (R219). -/
def enc_talloc (d : GReg) (a : GReg) : Nat :=
  fields [(8, 212), (5, d.val), (5, a.val), (5, 0), (8, 0)]

/-- The word body of TFREE (R219). -/
def enc_tfree (a : GReg) : Nat :=
  fields [(8, 213), (5, 0), (5, a.val), (5, 0), (8, 0)]

/-- The word body of TMOVV (R220). -/
def enc_tmovv (d : VReg) (a : TReg) (b : GReg) (st : BitVec 2) : Nat :=
  fields [(8, 214), (5, d.val), (5, a.val), (5, b.val), (6, 0), (2, st.toNat)]

/-- The word body of VMOVT (R220). -/
def enc_vmovt (d : TReg) (a : VReg) (b : GReg) (st : BitVec 2) : Nat :=
  fields [(8, 215), (5, d.val), (5, a.val), (5, b.val), (6, 0), (2, st.toNat)]

/-- Bits 22:0 and the opcode of an instruction's word, as the encoding tables of the spec place
them (R71, R72, R75, R76); `none` for a step without an encoding. -/
def encodeBody : Instr → Option Nat
  | .nop => some enc_nop
  | .br off => some (enc_br off)
  | .call off => some (enc_call off)
  | .jmp a imm => some (enc_jmp a imm)
  | .callr a imm => some (enc_callr a imm)
  | .beq a b off => some (enc_beq a b off)
  | .bne a b off => some (enc_bne a b off)
  | .blt a b off => some (enc_blt a b off)
  | .bge a b off => some (enc_bge a b off)
  | .bltu a b off => some (enc_bltu a b off)
  | .bgeu a b off => some (enc_bgeu a b off)
  | .jtab d a imm => some (enc_jtab d a imm)
  | .loop a imm => some (enc_loop a imm)
  | .loopx a => some (enc_loopx a)
  | .realign imm => some (enc_realign imm)
  | .course d a => some (enc_course d a)
  | .ldb t base off hint => some (enc_ldb t base off hint)
  | .ldbu t base off hint => some (enc_ldbu t base off hint)
  | .ldh t base off hint => some (enc_ldh t base off hint)
  | .ldhu t base off hint => some (enc_ldhu t base off hint)
  | .ldw t base off hint => some (enc_ldw t base off hint)
  | .ldwu t base off hint => some (enc_ldwu t base off hint)
  | .ldd t base off hint => some (enc_ldd t base off hint)
  | .stb t base off hint => some (enc_stb t base off hint)
  | .sth t base off hint => some (enc_sth t base off hint)
  | .stw t base off hint => some (enc_stw t base off hint)
  | .std t base off hint => some (enc_std t base off hint)
  | .ldaq t base wid off sc => some (enc_ldaq t base wid off sc)
  | .strl t base wid off sc => some (enc_strl t base wid off sc)
  | .ldf t base off rs => some (enc_ldf t base off rs)
  | .stf t base off rs => some (enc_stf t base off rs)
  | .pref kind base off => some (enc_pref kind base off)
  | .vld t base off hint k => some (enc_vld t base off hint k)
  | .vst t base off hint k => some (enc_vst t base off hint k)
  | .vlds d a b wid k => some (enc_vlds d a b wid k)
  | .vsts d a b wid k => some (enc_vsts d a b wid k)
  | .vldf t base off ty => some (enc_vldf t base off ty)
  | .vstf t base off ty => some (enc_vstf t base off ty)
  | .vgath d a b wid k => some (enc_vgath d a b wid k)
  | .vscat d a b wid k => some (enc_vscat d a b wid k)
  | .amoadd d a b wid sc near rl aq => some (enc_amoadd d a b wid sc near rl aq)
  | .amoand d a b wid sc near rl aq => some (enc_amoand d a b wid sc near rl aq)
  | .amoor d a b wid sc near rl aq => some (enc_amoor d a b wid sc near rl aq)
  | .amoxor d a b wid sc near rl aq => some (enc_amoxor d a b wid sc near rl aq)
  | .amomin d a b wid sc near rl aq => some (enc_amomin d a b wid sc near rl aq)
  | .amomax d a b wid sc near rl aq => some (enc_amomax d a b wid sc near rl aq)
  | .amominu d a b wid sc near rl aq => some (enc_amominu d a b wid sc near rl aq)
  | .amomaxu d a b wid sc near rl aq => some (enc_amomaxu d a b wid sc near rl aq)
  | .amoswp d a b wid sc near rl aq => some (enc_amoswp d a b wid sc near rl aq)
  | .amocas d a b wid sc near rl aq => some (enc_amocas d a b wid sc near rl aq)
  | .amofadd d a b wid sc near rl aq => some (enc_amofadd d a b wid sc near rl aq)
  | .amofmax d a b wid sc near rl aq => some (enc_amofmax d a b wid sc near rl aq)
  | .fence sc => some (enc_fence sc)
  | .acq sc => some (enc_acq sc)
  | .rel sc => some (enc_rel sc)
  | .waitw d a b wid => some (enc_waitw d a b wid)
  | .wfe => some enc_wfe
  | .sev a sc all => some (enc_sev a sc all)
  | .bararr d a sc => some (enc_bararr d a sc)
  | .barwt a b sc => some (enc_barwt a b sc)
  | .barxb a b => some (enc_barxb a b)
  | .gsync d a sc => some (enc_gsync d a sc)
  | .scfg d a => some (enc_scfg d a)
  | .sbind d a wr => some (enc_sbind d a wr)
  | .sfree a => some (enc_sfree a)
  | .spos d a b upd => some (enc_spos d a b upd)
  | .btset n a imm => some (enc_btset n a imm)
  | .btgo d sc => some (enc_btgo d sc)
  | .btpoll d a wait => some (enc_btpoll d a wait)
  | .ixpost d a sc resume => some (enc_ixpost d a sc resume)
  | .klset d a b clr => some (enc_klset d a b clr)
  | .klook d a b sc => some (enc_klook d a b sc)
  | .klwait d a poll => some (enc_klwait d a poll)
  | .klres d a sc drop => some (enc_klres d a sc drop)
  | .ebag d a b sc => some (enc_ebag d a b sc)
  | .eupd d a b sc resume => some (enc_eupd d a b sc resume)
  | .eupdClose d a b sc => some (enc_eupdClose d a b sc)
  | .tenq d a sc => some (enc_tenq d a sc)
  | .tdeq d a b => some (enc_tdeq d a b)
  | .dcinit d a imm => some (enc_dcinit d a imm)
  | .dcdec d a b sc free => some (enc_dcdec d a b sc free)
  | .dcinc d a b => some (enc_dcinc d a b)
  | .tyield a b sc => some (enc_tyield a b sc)
  | .texit sc => some (enc_texit sc)
  | .pwreq d a imm => some (enc_pwreq d a imm)
  | .pwrel => some enc_pwrel
  | .smig d a => some (enc_smig d a)
  | .gjoin d a imm => some (enc_gjoin d a imm)
  | .gleave d a imm => some (enc_gleave d a imm)
  | .qsend q b fin => some (enc_qsend q b fin)
  | .qrecv d q b poll => some (enc_qrecv d q b poll)
  | .vsopen d a nb q entry => some (enc_vsopen d a nb q entry)
  | .vsmark q b => some (enc_vsmark q b)
  | .vsclose d entry => some (enc_vsclose d entry)
  | .mcmd d a b => some (enc_mcmd d a b)
  | .csrr d csr => some (enc_csrr d csr)
  | .csrw a csr => some (enc_csrw a csr)
  | .csrx d a csr => some (enc_csrx d a csr)
  | .trap imm => some (enc_trap imm)
  | .eret => some enc_eret
  | .plbinvPage a sc => some (enc_plbinvPage a sc)
  | .plbinvDom a sc => some (enc_plbinvDom a sc)
  | .plbinvVf sc => some (enc_plbinvVf sc)
  | .cflushCode a b sc => some (enc_cflushCode a b sc)
  | .cflushWb a b => some (enc_cflushWb a b)
  | .cflushInv a b => some (enc_cflushInv a b)
  | .spart d a imm => some (enc_spart d a imm)
  | .ctxsave d a => some (enc_ctxsave d a)
  | .ctxload d a => some (enc_ctxload d a)
  | .anop => some enc_anop
  | .add d a b p => some (enc_add d a b p)
  | .sub d a b p => some (enc_sub d a b p)
  | .addi d a imm => some (enc_addi d a imm)
  | .mul d a b => some (enc_mul d a b)
  | .mulh d a b => some (enc_mulh d a b)
  | .mulhu d a b => some (enc_mulhu d a b)
  | .div d a b => some (enc_div d a b)
  | .divu d a b => some (enc_divu d a b)
  | .rem d a b => some (enc_rem d a b)
  | .remu d a b => some (enc_remu d a b)
  | .and d a b => some (enc_and d a b)
  | .or d a b => some (enc_or d a b)
  | .xor d a b => some (enc_xor d a b)
  | .andi d a imm => some (enc_andi d a imm)
  | .ori d a imm => some (enc_ori d a imm)
  | .xori d a imm => some (enc_xori d a imm)
  | .shl d a b => some (enc_shl d a b)
  | .shr d a b => some (enc_shr d a b)
  | .sar d a b => some (enc_sar d a b)
  | .shli d a sh => some (enc_shli d a sh)
  | .shri d a sh => some (enc_shri d a sh)
  | .sari d a sh => some (enc_sari d a sh)
  | .limm d sel imm => some (enc_limm d sel imm)
  | .slt d a b => some (enc_slt d a b)
  | .sltu d a b => some (enc_sltu d a b)
  | .seq d a b => some (enc_seq d a b)
  | .sel d a b => some (enc_sel d a b)
  | .clz d a => some (enc_clz d a)
  | .popc d a => some (enc_popc d a)
  | .min d a b u => some (enc_min d a b u)
  | .max d a b u => some (enc_max d a b u)
  | .pfmt d a b => some (enc_pfmt d a b)
  | .pgetf d a sel => some (enc_pgetf d a sel)
  | .padde d a b => some (enc_padde d a b)
  | .pcaddr d imm => some (enc_pcaddr d imm)
  | .fadd d a b rs ft => some (enc_fadd d a b rs ft)
  | .fsub d a b rs ft => some (enc_fsub d a b rs ft)
  | .fmul d a b rs ft => some (enc_fmul d a b rs ft)
  | .fma d a b rs ft => some (enc_fma d a b rs ft)
  | .fdiv d a b rs ft => some (enc_fdiv d a b rs ft)
  | .fsqrt d a rs ft => some (enc_fsqrt d a rs ft)
  | .fmin d a b ft => some (enc_fmin d a b ft)
  | .fmax d a b ft => some (enc_fmax d a b ft)
  | .fcmp d a b ft => some (enc_fcmp d a b ft)
  | .fcvt d a frm other rs ft => some (enc_fcvt d a frm other rs ft)
  | .fcvti d a ity rs ft => some (enc_fcvti d a ity rs ft)
  | .icvtf d a ity rs ft => some (enc_icvtf d a ity rs ft)
  | .vadd d a b k ty rm sat => some (enc_vadd d a b k ty rm sat)
  | .vsub d a b k ty rm sat => some (enc_vsub d a b k ty rm sat)
  | .vmul d a b k ty rm => some (enc_vmul d a b k ty rm)
  | .vfma d a b k ty rm => some (enc_vfma d a b k ty rm)
  | .vmax d a b k ty => some (enc_vmax d a b k ty)
  | .vmin d a b k ty => some (enc_vmin d a b k ty)
  | .vand d a b k ty => some (enc_vand d a b k ty)
  | .vor d a b k ty => some (enc_vor d a b k ty)
  | .vxor d a b k ty => some (enc_vxor d a b k ty)
  | .vshl d a b k ty => some (enc_vshl d a b k ty)
  | .vshr d a b k ty log => some (enc_vshr d a b k ty log)
  | .vcmp c a b k ty cond => some (enc_vcmp c a b k ty cond)
  | .vsel d a b k ty => some (enc_vsel d a b k ty)
  | .vcvt d a dty k ty rm part => some (enc_vcvt d a dty k ty rm part)
  | .vredsum d a b k ty acc => some (enc_vredsum d a b k ty acc)
  | .vredmax d a k ty => some (enc_vredmax d a k ty)
  | .vexp d a k => some (enc_vexp d a k)
  | .vrcp d a k ty rm => some (enc_vrcp d a k ty rm)
  | .vsplat d a wid => some (enc_vsplat d a wid)
  | .vperm d a b k ty z => some (enc_vperm d a b k ty z)
  | .vmovg d a b wid s => some (enc_vmovg d a b wid s)
  | .vmovv d a b wid => some (enc_vmovv d a b wid)
  | .vtopk d a b k ty => some (enc_vtopk d a b k ty)
  | .vdot d a b k ty acc => some (enc_vdot d a b k ty acc)
  | .tshape d a => some (enc_tshape d a)
  | .tld d a b st => some (enc_tld d a b st)
  | .tst d a b st => some (enc_tst d a b st)
  | .tzero d st => some (enc_tzero d st)
  | .mma d a b df st acc => some (enc_mma d a b df st acc)
  | .mmas d a b df st acc => some (enc_mmas d a b df st acc)
  | .mmss d a b df st acc => some (enc_mmss d a b df st acc)
  | .tcvt d a st rs => some (enc_tcvt d a st rs)
  | .tadd d a b st rs => some (enc_tadd d a b st rs)
  | .tscale d a b st rs col => some (enc_tscale d a b st rs col)
  | .ttrans d a st => some (enc_ttrans d a st)
  | .mjoin mask => some (enc_mjoin mask)
  | .talloc d a => some (enc_talloc d a)
  | .tfree a => some (enc_tfree a)
  | .tmovv d a b st => some (enc_tmovv d a b st)
  | .vmovt d a b st => some (enc_vmovt d a b st)
  | .asyncTrapEntry _ => none
  | .itimerFire _ => none
  | .intdbWrite _ _ _ => none
  | .preemptNotice _ _ _ => none
  | .sstatWrite _ => none
  | .ipendClear _ => none
  | .registerWrite _ _ => none
  | .memResponse _ => none
  | .courseForward _ => none
  | .courseTimeout _ _ => none
  | .realignTimeout _ => none
  | .streamElementFetch _ _ => none
  | .streamPush _ _ => none
  | .matrixOpComplete _ _ => none
  | .mcmdCommand _ => none
  | .mcmdAnswer _ => none
  | .spartConversion _ => none
  | .waitwMonitorFire _ => none
  | .sevEvent _ => none
  | .timeSliceExpiry _ _ => none
  | .slotHandover _ _ => none
  | .bteTransferActivate _ => none
  | .bteWriteLand _ _ => none
  | .bteConsumerUpdate _ _ => none
  | .ixeElementCopy _ _ => none
  | .engineCompletion _ _ _ => none
  | .cringtailWrite _ _ => none
  | .engineOffline _ _ => none
  | .autoMigration _ => none
  | .migrationArrival _ => none
  | .migrationSlotFree _ => none
  | .kleScoring _ _ => none
  | .kleServiceRound _ _ => none
  | .kleRowArrival _ _ => none
  | .kleReadTimeout _ _ _ => none
  | .kleLookupComplete _ _ => none
  | .kleOffline _ => none
  | .eupdDirectAdd _ _ => none
  | .mergeContribution _ => none
  | .mergeClose _ => none
  | .closeAck _ => none
  | .homeSliceRequest _ _ => none
  | .farAtomicExecute _ _ => none
  | .pageWalk _ _ => none
  | .faultack _ => none
  | .faultackWake _ => none
  | .releaseProbe _ _ _ => none
  | .probeEcho _ _ => none
  | .uncorrectableError _ => none
  | .correctableError _ => none
  | .dieerrlog _ => none
  | .taskDispatch _ _ => none
  | .admissionServe _ => none
  | .taskSteal _ _ _ => none
  | .stealRequest _ _ => none
  | .stealRetry _ _ => none
  | .counterUpdate _ _ => none
  | .groupUpdate _ _ => none
  | .grantExpiry _ => none
  | .budgetSet _ _ => none
  | .thermalStep _ _ => none
  | .criticalTemperature _ => none
  | .shutdownTemperature _ => none
  | .lqdb _ _ => none
  | .launchTake _ _ => none
  | .launchEnd _ _ => none
  | .vfReset _ _ => none
  | .vfPolicyWrite _ _ _ => none
  | .hostBarWrite _ _ _ _ _ _ => none
  | .hostPortDown _ _ => none
  | .packageNumberWrite _ _ => none
  | .linkTraining _ _ _ _ => none
  | .moduleReset _ => none
  | .firmwareFetchRetry _ _ => none
  | .attestationRequest _ _ => none
  | .stackFailure _ _ => none
  | .ochreCoreFault _ _ _ => none
  | .flitRoute _ _ => none
  | .flitEject _ _ => none
  | .packetDeliver _ _ _ _ => none
  | .deliveryCredit _ _ _ _ => none
  | .linkFrameReceive _ _ => none
  | .linkDown _ _ => none
  | .pathFailed _ _ => none
  | .accessTimeout _ => none
  | .vsPacketArrive _ _ => none
  | .vsCredit _ _ _ => none
  | .gangQuery _ _ => none
  | .gangPause _ _ => none
  | .gangDrainComplete _ _ => none
  | .gangStopTimeout _ _ => none
  | .gangResume _ _ => none
  | .migrationCommandTake _ => none
  | .move _ _ => none
  | .dup _ _ => none
  | .collapse _ _ => none
  | .reclaim _ _ => none
  | .migrationCutover _ _ => none
  | .migrationCommandComplete _ _ => none
  | .stubRelay _ _ => none
  | .relayAck _ _ _ => none
  | .walkReturn _ _ => none
  | .redirect _ _ _ => none
  | .stubQuietExpiry _ _ _ => none
  | .purge _ _ _ _ => none
  | .purgeAck _ _ _ _ => none
  | .collapseInvalidate _ _ _ => none
  | .collapseAck _ _ _ => none
  | .illegalInstr _ => none
  | .reservedField _ => none
  | .faultQueueTailAdvance _ _ _ => none
  | .keyLoad _ _ _ _ _ => none
  | .hostPortUp _ _ => none
  | .portDieFailure _ _ => none
  | .engineRestore _ _ => none
  | .partitionConfigure _ _ _ => none
  | .errorCounterClear _ => none

/-- The word of an instruction: its body with bit 31 set when it is lone (R65). -/
def encode (lone : Bool) (i : Instr) : Option Nat :=
  (encodeBody i).map (· + b2n lone * 2 ^ 31)

end Sys2Proof
end

