-- ==== Sys2Proof/Machine/Fetch.lean ====
section
/-! DEFINITION. Fetching a bundle's words: the slot's block, loop buffers, the cluster instruction
cache, the home; and which slot of a core issues (R68, R80, R176-R179, R184, R188). -/

namespace Sys2Proof.Machine

open Sys2Proof

/-- The program counter of a strand as an address. -/
def pcOf (x : Strand) : Nat := x.pc.toNat % addrSpace

/-- The two words of an 8-byte-aligned pair that hold `a` in a 64-byte block: the word at `a` and, where
`a` is a multiple of 8, the word after it (R68). -/
def blockWords (data a : Nat) : Nat × Nat :=
  let o := a % 64
  (data / 256 ^ o % 2 ^ 32, if a % 8 = 0 then data / 256 ^ (o + 4) % 2 ^ 32 else 0)

/-- A block of the cluster instruction cache. -/
def icFind (c : Cluster) (blk : Nat) : Option IcBlock := c.icache.find? fun b => decide (b.blk = blk)

/-- Fill a block: 256 sets of 4 ways, the block used longest ago leaves (R243). -/
def icFill (c : Cluster) (b : IcBlock) : Cluster :=
  let other := c.icache.filter fun x => decide (x.blk ≠ b.blk)
  let same := (other.filter fun x => decide (x.blk % 256 = b.blk % 256)).take 3
  let rest := other.filter fun x => decide (x.blk % 256 ≠ b.blk % 256)
  { c with icache := b :: (same ++ rest) }

/-- The words of a bundle that a loop buffer holds. -/
def LoopBuf.words (b : LoopBuf) (a : Nat) : Option (Nat × Nat) := (b.body.find? fun e => decide (e.1 = a)).map (·.2)

/-- The bundles held from `a` on reach the end of the body, in at most `n`. -/
def LoopBuf.reaches (b : LoopBuf) : Nat → Nat → Bool
  | 0, a => decide (b.e ≤ a)
  | n + 1, a =>
    if b.e ≤ a then true
    else
      match b.words a with
      | none => false
      | some w => b.reaches n (if bitAt w.1 31 then a + 4 else a + 8)

/-- A loop buffer holds the whole body (R190). -/
def LoopBuf.whole (b : LoopBuf) : Bool := b.reaches 64 b.b

/-- The loop buffer of a level. -/
def bufOf (s : State) (l : LoopLevel) : Option LoopBuf :=
  match l.buf with
  | none => none
  | some i => nth none s.core.lbufs i

/-- The copy of a bundle in a loop buffer of the strand's levels, the innermost first, once the first pass of that level
is over (R188). -/
def loopWords (s : State) (a : Nat) : Option (Nat × Nat) :=
  s.me.loops.findSome? fun l =>
    match bufOf s l with
    | none => none
    | some b => if b.later then b.words a else none

/-- Put a block into the slot after the execute checks (R179, R80 step 1). -/
def takeBlock (a : Nat) (b : IcBlock) : Act (Nat × Nat) := fun s =>
  match attrCheck a .fetch b.attr s with
  | .error e => .error e
  | .ok (_, s1) =>
    .ok (blockWords b.data a, s1.modMe fun x => { x with fblk := some (b.blk, b.data) })

/-- The words at the program counter (R68, R80 step 1). -/
def fetchWords (a : Nat) : Act (Nat × Nat) := fun s =>
  match loopWords s a with
  | some w => .ok (w, s)
  | none =>
    let own := match s.me.fblk with
      | some (blk, data) => if blk = a / 64 then some data else none
      | none => none
    match own with
    | some data => .ok (blockWords data a, s)
    | none =>
      if bitAt a 55 ∨ frameWindow ≤ a then .error (.trap .prot a Access.fetch.code)
      else
        let resp := sectorResp s.me (a / 128) .fetch
        match icFind s.clu (a / 64), resp with
        | some b, none =>
          if b.attr.x then takeBlock a b s else request a .fetch true false s
        | _, some (.ok, at', d, po) =>
          if poisonHit po (a / 64 * 64) 64 then .error (.trap .dataError a Access.fetch.code)
          else takeBlock a { blk := a / 64, data := d / 256 ^ (a / 64 * 64 % 128) % 256 ^ 64,
                             tenant := s.tenant, attr := at' } s
        | _, some (.absent, _, _, _) => absent a .fetch s
        | _, some (.unanswered, _, _, _) | _, some (.poisoned, _, _, _) => .error (.trap .dataError a Access.fetch.code)
        | _, some (_, _, _, _) => .error (.trap .prot a Access.fetch.code)
        | none, none => request a .fetch true false s

/-- The course of a place, if it is a member of one. -/
def courseOf (s : State) (p : Place) : Option Course :=
  (s.cluOf p.cluKey).courses.find? fun c => decide (c.slot = p.slot) && c.members.contains p.core

/-- The place of a member of a course. -/
def memberPlace (p : Place) (core : Nat) : Place := { p with core := core }

/-- The leader of a course is held while an attached follower holds 8 forwarded bundles (R184). DESIGN CHOICE (log 65): a
bundle that is still on the ring counts, so that a follower is never sent a ninth. -/
def courseHeld (s : State) (p : Place) : Bool :=
  match courseOf s p with
  | none => false
  | some c =>
    decide (c.leader = p.core) && c.attached.any fun m =>
      decide (m ≠ p.core) && decide (8 ≤ (s.strand (memberPlace p m)).fwd.length)

/-- The state that CORESTAT shows of a slot (R184): a leader held by a full buffer is Parked with reason COURSE. -/
def shownState (s : State) (p : Place) : SlotState :=
  if (s.strand p).st = .ready ∧ courseHeld s p then .parked .course else (s.strand p).st

/-- The strand follows a course. -/
def isFollower (s : State) (p : Place) : Bool :=
  match courseOf s p with
  | none => false
  | some c => decide (c.leader ≠ p.core) && c.attached.contains p.core

/-- A slot is eligible (R176): Ready, not held, and its previous bundle issued at least 8 cycles before. A follower issues
what has been forwarded to it (R181), or ends the bundle that it holds an answer for. -/
def eligible (s : State) (p : Place) : Bool :=
  let x := s.strand p
  let spaced := match x.issued with
    | none => true
    | some t => decide (t + 8 ≤ s.ticks)
  let fed := match x.fwd with
    | [] => !isFollower s p || !x.resps.isEmpty
    | f :: _ => f.here || !x.resps.isEmpty
  decide (x.st = .ready) && spaced && !courseHeld s p && fed

/-- The slot that issues on a core at the present position (R176). -/
def pickSlot (s : State) (coreKey : Nat) : Option Nat :=
  let pos := s.now (dieMod (cluDie (coreClu coreKey))) % 16
  if pos = 15 then (if eligible s (placeOf coreKey 15) then some 15 else none)
  else
    let c := s.coreOf coreKey
    let part := partOfSlot c pos
    if part = 15 then none
    else
      let last := fget 14 c.lastSlot part
      let order := (List.range 15).map fun i => (last + 1 + i) % 15
      order.find? fun i => decide (partOfSlot c i = part) && eligible s (placeOf coreKey i)

/-- Record that a slot issued (R176). -/
def markIssued (s : State) (p : Place) : State :=
  let s1 := s.modCore p.coreKey fun c =>
    { c with lastSlot := if p.slot = 15 then c.lastSlot else fset c.lastSlot (partOfSlot c p.slot) p.slot }
  s1.modStrand p fun x => { x with issued := some s.ticks }

/-- An armed timer reaches its value in this cycle (R96). DEDUCED (log 65): TICKS<47:0> is VALUE; an armed value that
TICKS has passed is reached when TICKS comes round to it. -/
def timerDue (ticks : Nat) (x : Strand) : Bool :=
  x.live && bitAt x.csr.itimer.toNat 63
    && decide (ticks % 2 ^ 48 = x.csr.itimer.toNat % 2 ^ 48)

end Sys2Proof.Machine
end

