-- ==== Sys2Proof/Machine/Traps.lean ====
section
/-! DEFINITION. Asynchronous traps, the interrupt sources, TRAP, ERET and the two decode errors
(R74, R79, R95, R96, R102, R103, R379, R383). -/

namespace Sys2Proof.Machine

open Sys2Proof

/-- The number of the lowest set bit of three. -/
def lowestOf3 (n : Nat) : Nat := if bitAt n 0 then 0 else if bitAt n 1 then 1 else 2

/-- The asynchronous trap that a strand may take (R95, R96): PREEMPT goes before INTERRUPT. -/
def asyncCause (x : Strand) : Option (Cause × Nat) :=
  if x.ie && !x.tl && !x.pktOpen then
    match x.notice with
    | some w => some (.preempt, w.toNat)
    | none =>
      let p := (x.csr.ipend &&& x.csr.imask).toNat % 8
      if p = 0 then none else some (.interrupt, lowestOf3 p)
  else none

/-- Park reasons that an asynchronous trap ends, abandoning the bundle (R95). DESIGN CHOICE (log 65): R95 names neither
ENGINE, KLWAIT, FENCE, COURSE and REALIGN nor a STREAM park for another cause than an empty stream; a strand parked on
one of the five completes its bundle first, one parked on STREAM abandons it, unless it waits for a unit after a
restore. -/
def abandonable : ParkReason → Bool
  | .waitw | .wfe | .barrier | .gsync | .qrecv | .stream | .power | .page => true
  | .mem | .engine | .klwait | .fence | .course | .realign | .doubleTrap => false

/-- A bundle that has begun an access and is not abandoned: an asynchronous trap waits for it (R95). -/
def bundleBegun (x : Strand) : Bool :=
  match x.st with
  | .ready => !x.asked.isEmpty || !x.resps.isEmpty || !x.probes.isEmpty || x.begun.isSome
  | .parked r => !abandonable r || !x.rebind.isEmpty
  | .empty | .handover => true

/-- A strand that waits in GSYNC is stopped: its arrival is withdrawn (R366). -/
def withdrawArrival (s : State) (p : Place) : State :=
  if (s.strand p).parkedOn .gsync then
    let mine : Note → Bool
      | .group src _ .arrive _ _ => decide (src = p)
      | _ => false
    let back (e : Nat × Group) : Nat × Group :=
      if e.2.arrivals.contains p then
        (e.1, { e.2 with remaining := e.2.remaining + 1, arrivals := e.2.arrivals.filter (· ≠ p) })
      else e
    { s with
      notes := s.notes.filter fun n => !mine n
      dies := s.dies.map fun e => (e.1, { e.2 with groups := e.2.groups.map back }) }
  else s

/-- What waits elsewhere for an abandoned bundle goes (R95, R366): its request for power, its place among the
strands that wait for a fault token, its arrival at a group barrier. -/
def abandonBundle (s0 : State) (p : Place) : State :=
  let s := quitWaits (withdrawArrival s0 p) p
  wakeAdmission (s.modDie p.dieKey fun d =>
    let drop (w : FaultWait) : FaultWait := { w with strands := w.strands.filter (· ≠ p) }
    let keep : AdmReq → Bool
      | .grant who _ _ => decide (who ≠ p)
      | .task _ _ _ | .remote _ _ => true
    { d with waits := d.waits.map drop, adm := d.adm.filter keep, admOut := d.admOut.filter keep }) p.dieKey

/-- Enter the asynchronous trap that a strand may take (R93, R95): the bundle that would have issued next is not run. -/
def asyncEnter (s : State) (p : Place) : State :=
  match asyncCause (s.strand p) with
  | none => s
  | some (c, info) =>
    let s1 := leaveCourse (abandonBundle s p) p true
    s1.modStrand p fun y =>
      let z := enterTrap y c 0 info y.pc.toNat
      match c with
      | .preempt => { z with notice := none }
      | _ => z

/-- Take an asynchronous trap (R95): a bundle that has begun an access is completed first. -/
def asyncTrap (s : State) (p : Place) : State := if bundleBegun (s.strand p) then s else asyncEnter s p

/-- An asynchronous trap becomes due for a strand that has parked with its cause pending (R95). -/
def asyncDue (s : State) (p : Place) : State :=
  if (asyncCause (s.strand p)).isSome then s.spawn (.asyncTrapEntry p) else s

/-- ASYNC_TRAP_ENTRY (R95). -/
def execAsyncTrapEntry (p : Place) (s : State) : Host.Outcome State Fault Refusal :=
  .next (asyncTrap s p)

/-- ITIMER_FIRE (R96): source 0 is pending and EN is cleared. -/
def execItimerFire (p : Place) (s : State) : Host.Outcome State Fault Refusal :=
  if timerDue (s.now p.mod) (s.strand p) then
    .next ((s.modStrand p fun x =>
      { x with csr := { x.csr with ipend := x.csr.ipend ||| 1, itimer := setFld x.csr.itimer 63 63 0 } }).spawn
      (.asyncTrapEntry p))
  else .next s

/-- INTDB_WRITE (R96, R379): the doorbell of a strand of the VF, or a drop that is counted (R321). -/
def execIntdbWrite (m vf : Nat) (v : Word) (s : State) : Host.Outcome State Fault Refusal :=
  match placeOfId s m v.toNat with
  | none => .next (s.count (dieKey m (bits v.toNat 22 17)) 5)
  | some p =>
    let x := s.strand p
    if x.live && decide (x.st ≠ .handover) && decide (x.tenant = vf) then
      .next ((s.modStrand p fun y =>
        { y with csr := { y.csr with ipend := y.csr.ipend ||| 2 } }).spawn (.asyncTrapEntry p))
    else .next (s.count p.dieKey 5)

/-- PREEMPT_NOTICE (R383): the notice word reaches every strand of the VF in the module. -/
def execPreemptNotice (m vf : Nat) (w : Word) (s : State) : Host.Outcome State Fault Refusal :=
  let mine (e : Nat × Strand) : Bool :=
    decide ((Place.ofKey e.1).mod = m) && e.2.live && decide (e.2.tenant = vf)
  let tell (e : Nat × Strand) : Nat × Strand :=
    if mine e then (e.1, { e.2 with notice := some w }) else e
  let s1 := { s with strands := s.strands.map tell }
  .next (s1.spawns ((s.strands.filter mine).map fun e => .asyncTrapEntry (Place.ofKey e.1)))

/-- ILLEGAL_INSTR (R79): SUB holds the OP. -/
def execIllegalInstr (op : BitVec 7) (s : State) : Host.Outcome State Fault Refusal :=
  finish s (wordTrap s .illegalInstr op.toNat)

/-- RESERVED_FIELD (R74, R81). -/
def execReservedField (sub : Nat) (s : State) : Host.Outcome State Fault Refusal :=
  finish s (wordTrap s .reservedField sub)

/-- TRAP (R102): SOFTWARE, with the return past the TRAP. -/
def execTrap (imm : BitVec 13) (s : State) : Host.Outcome State Fault Refusal :=
  let t := syncTrap s s.cur .software 0 imm.toNat (addrAdd s.issue.addr 4) s.issue.addr
  .next { t with issue := { t.issue with ended := some (.trap .software 0 imm.toNat) } }

/-- ERET (R103): PRIV in user mode; otherwise the return from a trap. -/
def execEret (s : State) : Host.Outcome State Fault Refusal :=
  finish s (Act.res (do needSuper 0x62; change returnTrap) s)

end Sys2Proof.Machine
end

