-- ==== Sys2Proof/Machine/Travel.lean ====
section
/-! DEFINITION. The migration of strands: SMIG, automatic moves, arrival and the strands that wait for a slot
(R261-R264); the repair of an engine (R265). -/

namespace Sys2Proof.Machine

open Sys2Proof

/-- The strand CSRs at dispatch (R85, R90): the VF's trap configuration and the task's groups. -/
def dispatchCsr (s : State) (m : Nat) (t : Task) : StrandCsr :=
  let p := s.policy m t.tenant
  { StrandCsr.init with evec := p.evec, escratch := p.escratch, groups := t.groups }

/-- SMIG (R264): the target in the STRANDID layout. -/
def execSmig (d a : GReg) (s : State) : Host.Outcome State Fault Refusal :=
  let t := (rg s a).toNat
  let p := s.cur
  let clu := cluKey p.mod (bits t 22 17) (bits t 16 8)
  finish s (Act.res (do
    let core : Bool := decide (bits t 34 23 = s.pkgOf p.mod) && decide (bits t 16 8 < 400)
      && (s.modOf p.mod).diesUp.contains (bits t 22 17)
    if core && decide (clu * 16 + bits t 7 4 = p.coreKey) then change fun u => wg u d 0
    else if !core || !isLight s p || s.me.tl || decide (p.slot = 15) then raise .placement 0 0
    else if ixBusy s p then parkOn .engine
    else do
      release .pkg
      fun u => .error (depart u p clu [bits t 7 4] u.issue.next (some (d.val, word (s.strandId p))))) s)

/-- READYc of CLOAD (R262): Ready strands of a core, saturating at 15. -/
def readyStrands (s : State) (core : Nat) : Nat :=
  ((List.range 16).filter fun i => decide (shownState s (placeOf core i) = .ready)).length
def readyCount (s : State) (core : Nat) : Nat := Nat.min 15 (readyStrands s core)

/-- MIGTHR lets a core move a strand out now (R262). -/
def moveDue (s : State) (core : Nat) : Bool :=
  let c := s.coreOf core
  let gap := Nat.max 1 (fld c.migthr 19 4)
  bitAt c.migthr.toNat 63 && decide (fld c.migthr 3 0 < readyStrands s core)
    && (match c.lastMig with
        | none => true
        | some t => decide (t + gap ≤ s.ticks))

/-- The core of a cluster that an automatic move goes to (R262): the lowest count, at least 2 below. -/
def moveTarget (s : State) (core part tenant : Nat) : Option Nat :=
  let k := coreClu core
  let ok := (List.range 16).filter fun c =>
    decide (k * 16 + c ≠ core) && (freeSlot s (k * 16 + c) part tenant).isSome
      && decide (readyCount s (k * 16 + c) + 2 ≤ readyCount s core)
  let low := ok.foldl (fun n c => Nat.min n (readyCount s (k * 16 + c))) 16
  ok.find? fun c => decide (readyCount s (k * 16 + c) = low)

/-- AUTO_MIGRATION (R262): the lowest Ready light slot of a core, if another core of the cluster qualifies. -/
def execAutoMigration (core : Nat) (s : State) : Host.Outcome State Fault Refusal :=
  if moveDue s core = false then .next s
  else
    let ready (i : Nat) : Bool :=
      let p := placeOf core i
      decide ((s.strand p).st = .ready) && mayMove s p && !bundleBegun (s.strand p)
    match (List.range 16).find? ready with
    | none => .next s
    | some i =>
      let p := placeOf core i
      let x := s.strand p
      match moveTarget s core x.part x.tenant with
      | none => .next s
      | some c =>
        let s1 := s.modCore core fun y => { y with lastMig := some s.ticks }
        let s0 := drainPushes s1 p
        if (marked s0 p .pkg).isEmpty then
          match openSlots s0 p (coreClu core) [c] with
          | dst :: _ => .next (sendContext s0 p dst x.pc.toNat none)
          | [] => .next s0
        else
          let s2 := (startRelease s0 p .pkg).modStrand p fun y => { y with st := .parked .mem, askedAt := y.stamp s.ticks }
          .next ((s2.modClu (coreClu core) fun y =>
            { y with travellers := y.travellers ++ [{ who := p, cores := [c], auto := true }] }).spawn
            (.migrationSlotFree (coreClu core)))

/-- A strand that has moved (R261): what its light context brings, and dispatch values elsewhere. -/
def arrived (s : State) (x : Context) : Strand :=
  let o := s.strand x.dst
  let reg (i : Fin 32) : Word := if i.val < 16 then nth 0 x.g i.val else 0
  { Strand.empty with
    st := .ready, pc := x.pc, g := Vector.ofFn reg, issued := o.issued, task := x.task, notice := x.notice,
    csr := { dispatchCsr s x.dst.mod x.task with sstat := x.sstat } }

/-- MIGRATION_ARRIVAL (R261): an acquire at `pkg` on the new core, then the strand is Ready. -/
def execMigrationArrival (clu : Nat) (s : State) : Host.Outcome State Fault Refusal :=
  match splitFirst (fun x => decide (x.due ≤ s.ticks)) (s.cluOf clu).inbound with
  | none => .next (if (s.cluOf clu).inbound.isEmpty then s else s.again (.migrationArrival clu))
  | some (bef, x, aft) =>
    let s1 := s.modClu clu fun c => { c with inbound := bef ++ aft }
    let s2 := s1.setStrand x.dst (arrived s1 x)
    let s3 := acquireAt s2 x.dst .pkg
    .next ((setShadow s3 x.dst { Shadow.default with lost := true }).spawn (.asyncTrapEntry x.dst))

/-- An automatic move whose release is done goes, or is given up when the core has no slot left (R262). -/
def autoDepart (clu : Nat) (s : State) (t : Traveller) : State :=
  let x := s.strand t.who
  if t.auto = false ∨ !x.probes.isEmpty then s
  else
    match openSlots s t.who clu t.cores with
    | dst :: _ => sendContext s t.who dst x.pc.toNat none
    | [] =>
      (s.modClu clu fun c => { c with travellers := c.travellers.filter fun y => decide (y.who ≠ t.who) }).modStrand
        t.who fun y => { clearAnswers y with st := .ready }

/-- MIGRATION_SLOT_FREE (R263): the strand that asked first of those that have a slot open tries again. -/
def execMigrationSlotFree (clu : Nat) (s : State) : Host.Outcome State Fault Refusal :=
  let waits (t : Traveller) : Bool := t.auto || hasAsked (s.strand t.who) askTravel
  let s1 := s.modClu clu fun c => { c with travellers := c.travellers.filter waits }
  let s2 := (s1.cluOf clu).travellers.foldl (autoDepart clu) s1
  let ts := (s2.cluOf clu).travellers
  let s3 := match ts.find? fun t => !t.auto && !(openSlots s2 t.who clu t.cores).isEmpty with
    | some t => s2.modStrand t.who fun x => x.wakeIf [.mem]
    | none => s2
  .next (if ts.isEmpty then s3 else s3.again (.migrationSlotFree clu))

/-- ENGINE_RESTORE (R265, R287): 0 the BTE, 1 the IXE, 2 the KLE. -/
def execEngineRestore (clu eng : Nat) (s : State) : Host.Outcome State Fault Refusal :=
  .next (s.modClu clu fun c =>
    match eng with
    | 0 => { c with bte := { c.bte with offline := false } }
    | 1 => { c with ixe := { c.ixe with offline := false } }
    | _ => { c with kOffline := false })

end Sys2Proof.Machine
end

