-- ==== Sys2Proof/Machine/Csr.lean ====
section
/-! DEFINITION. The CSR instructions and what each register reads and takes (R10, R84-R91, R96, R100, R101,
R179, R180, R188, R225, R317-R320), and wakes by FAULTACK. -/

namespace Sys2Proof.Machine

open Sys2Proof

/-! ### Reading -/

/-- Bit `i` of a test over slots 0-15. -/
def slotBits (f : Nat → Bool) : Nat :=
  (List.range 16).foldl (fun n i => n + b2n (f i) * 2 ^ i) 0

/-- STATE of a slot (R180). -/
def slotCode : SlotState → Nat
  | .empty => 0 | .ready => 1 | .parked _ => 2 | .handover => 3

/-- REASON of a slot (R180). -/
def slotReason : SlotState → Nat
  | .parked r => r.code
  | .empty | .ready | .handover => 0

/-- CORESTAT (R180). -/
def coreStat (s : State) (k : Nat) : Nat :=
  let c := s.coreOf k
  let st (i : Nat) : SlotState := shownState s (placeOf k i)
  c.alignto % 2 ^ 16 * 2 ^ 48 + c.sel % 16 * 2 ^ 44 + slotCode (st (c.sel % 16)) * 2 ^ 42
    + slotReason (st (c.sel % 16)) * 2 ^ 36 + slotBits (fun i => slotCode (st i) = 1) * 2 ^ 16
    + slotBits (fun i => slotCode (st i) = 2)

/-- LBSTAT (R188). -/
def lbStat (c : Core) : Nat :=
  (List.range 4).foldl (fun n i =>
    match nth none c.lbufs i with
    | none => n
    | some b => n + (128 + b2n b.whole * 64 + b.slot % 16) * 2 ^ (8 * i)) 0

/-- TOWN (R197). -/
def townWord (c : Core) : Nat :=
  (List.range 8).foldl (fun n i =>
    let t := nth Tile.free c.tiles i
    n + (b2n t.owner.isSome * 128 + b2n t.plain.psn * 64 + t.owner.getD 0 % 16) * 2 ^ (8 * i)) 0

/-- PARTWAYS as a strand of a partition reads it (R225). -/
def partWays (c : Core) (l : Cluster) (part : Nat) : Nat :=
  fget 0 c.tbanks part % 256 * 2 ^ 24 + b2n l.busy * 2 ^ 16 + (20 - l.spways) * 2 ^ 8 + l.spways

/-- CLOAD (R262). -/
def cloadWord (s : State) (clu : Nat) : Nat :=
  packLanes 4 ((List.range 16).map fun c => readyCount s (clu * 16 + c))

/-- HEADROOM (R352). -/
def headroom (d : Die) : Nat :=
  d.budget % 2 ^ 16 * 2 ^ 48 + wrap 16 d.free * 2 ^ 32 + d.granted % 2 ^ 16 * 2 ^ 16 + d.charged % 2 ^ 16

/-- The oldest record of a VF's error log on a die, or 0 (R320). -/
def oldestRecord (d : Die) (vf : Nat) : Nat := (fget ([], false) d.logs vf).1.headD 0

/-- A read of DIEERRLOG removes the record (R320). -/
def popRecord (s : State) (dk vf : Nat) : State :=
  s.modDie dk fun d =>
    let l := fget ([], false) d.logs vf
    { d with logs := fset d.logs vf (l.1.drop 1, l.2) }

/-- What a CSR reads as for the executing strand (R84); `none` for a reserved number. -/
def csrRead (s : State) (n : Nat) : Option Word :=
  let c := s.me.csr
  let p := s.policy s.cur.mod s.tenant
  match n with
  | 0x000 => some c.sstat
  | 0x001 => some c.epc
  | 0x002 => some c.ecause
  | 0x003 => some c.eaddr
  | 0x004 => some c.einfo
  | 0x005 => some c.evec
  | 0x006 => some c.escratch
  | 0x008 => some c.fpctl
  | 0x009 => some (word c.rndseed.toNat)
  | 0x00A => some (word c.ttmask.toNat)
  | 0x00B => some c.groups
  | 0x00C => some (word (s.strandId s.cur))
  | 0x00D => some (word (s.now s.cur.mod))
  | 0x00E => some c.pwtoken
  | 0x00F => some c.klstat
  | 0x010 => some c.ixmask
  | 0x011 => some c.pdepth
  | 0x012 => some c.sclamp
  | 0x013 => some c.openpkt
  | 0x014 => some c.ipend
  | 0x015 => some c.imask
  | 0x016 => some c.itimer
  | 0x108 => some (word (townWord s.core))
  | 0x110 => some (word (coreStat s s.cur.coreKey))
  | 0x111 => some (s.core.slotmap ||| word (15 * 2 ^ 60))
  | 0x112 => some (word (partWays s.core s.clu s.part))
  | 0x113 => some (word (lbStat s.core))
  | 0x118 => some s.core.captab
  | 0x119 => some s.core.migthr
  | 0x200 => some (word (cloadWord s s.cur.cluKey))
  | 0x201 => some (word (spadAddr s s.cur.cluKey 0x4030000))
  | 0x202 => some (word (s.clu.chead % 2 ^ 32))
  | 0x203 => some (word (s.clu.ctail % 2 ^ 32))
  | 0x204 => some (word (s.clu.knctx % 256 * 2 ^ 32 + s.clu.kbase % 2 ^ 27))
  | 0x205 => some (word (s.clu.ixe.active.length % 256 * 256 + s.clu.ixe.queue.length % 256))
  | 0x300 => some (word (headroom s.die))
  | 0x301 => some (word (oldestRecord s.die s.tenant))
  | 0x302 => some p.faultq
  | 0x303 => some 0
  | 0x304 => some (word (b2n p.trap * 8 + p.maxscope % 8))
  | 0x305 => some (word (p.rtbase * 4096 % addrSpace))
  | 0x306 => some (word (p.pinways % 16 * 2 ^ 60 + p.pinbase * 2 ^ 34 % addrSpace))
  | _ => if 0x100 ≤ n ∧ n ≤ 0x107 then some (tileOf s.core (n - 0x100)).tsh else none

/-! ### Who may read and write (R84) -/

/-- Registers of the column S: every access in user mode raises PRIV. -/
def csrSuper (n : Nat) : Bool :=
  decide (1 ≤ n ∧ n ≤ 6) || n == 0x118 || n == 0x119 || decide (0x301 ≤ n ∧ n ≤ 0x305)

/-- Registers that user mode may write: SSTAT within R86, and those of the column RW. -/
def csrUserWrite (n : Nat) : Bool :=
  n == 0x000 || n == 0x008 || n == 0x009 || n == 0x010 || n == 0x203 || decide (0x100 ≤ n ∧ n ≤ 0x107)

/-- The check of an access (R84): `wr` for CSRW and CSRX. -/
def csrAllowed (op n : Nat) (wr : Bool) : Act Unit :=
  if csrAssigned n = false then reserved 0
  else if csrSuper n || (wr && !csrUserWrite n) then needSuper op
  else pure ()

/-! ### Writing -/

/-- The RW fields of a register take a written value (R10). -/
def mergeMask (mask : Nat) (old v : Word) : Word :=
  (old &&& ~~~(word mask)) ||| (v &&& word mask)

/-- Writing 1 to VUSED (R87): k0-k3 and every v register that no stream is bound to become 0. -/
def clearVused (s : State) : State :=
  let held (i : Fin 16) : Vec := if (boundUnit s i).isSome then s.me.v[i] else 0
  s.modMe fun x =>
    { x with k := Vector.replicate 4 0, v := Vector.ofFn held, csr := { x.csr with sstat := x.csr.sstat &&& ~~~(word 0x80) } }

/-- The fields of SSTAT that user mode may not change: MODE, IE, PIE, PMODE, TL (R86). -/
def sstatGuard : Word := word 0x4F

/-- A write to SSTAT (R86, R87). -/
def writeSstat (op : Nat) (v : Word) : Act Unit := fun s =>
  let old := s.me.csr.sstat
  if s.super = false ∧ old &&& sstatGuard ≠ v &&& sstatGuard then .error (wordTrap s .priv op)
  else
    let s1 := s.modCsr fun c => { c with sstat := mergeMask 0x7F c.sstat v }
    .ok ((), if bitAt v.toNat 7 then clearVused s1 else s1)

/-- FAULTACK (R319): a wake sets out to the token's die. -/
def sendWake (s : State) (v : Word) : State :=
  let dk := dieKey s.cur.mod (fld v 31 26)
  (s.note (.wake dk (fld v 63 62) (fld v 31 0))).spawn (.faultackWake dk)

/-- A write to a register: each field by its access code (R10, R101). -/
def csrWrite (op n : Nat) (v : Word) : Act Unit :=
  let strand (f : StrandCsr → StrandCsr) : Act Unit := change fun s => s.modCsr f
  let pol (f : Policy → Policy) : Act Unit := change fun s => s.modPolicy s.cur.mod s.tenant f
  match n with
  | 0x000 => writeSstat op v
  | 0x001 => strand fun c => { c with epc := mergeMask (2 ^ 64 - 4) c.epc v }
  | 0x002 => strand fun c => { c with ecause := mergeMask (2 ^ 63 + 0xFF) c.ecause v }
  | 0x003 => strand fun c => { c with eaddr := v }
  | 0x004 => strand fun c => { c with einfo := v }
  | 0x005 => strand fun c => { c with evec := mergeMask (2 ^ 56 - 7) c.evec v }
  | 0x006 => strand fun c => { c with escratch := v }
  | 0x008 => strand fun c => { c with fpctl := mergeMask 0x1F3 c.fpctl v }
  | 0x009 => strand fun c => { c with rndseed := BitVec.ofNat 32 v.toNat }
  | 0x00B => strand fun c => { c with groups := mergeMask (2 ^ 36 - 1) c.groups v }
  | 0x010 => strand fun c => { c with ixmask := v }
  | 0x014 => strand fun c => { c with ipend := c.ipend &&& ~~~(v &&& 7) }
  | 0x015 => strand fun c => { c with imask := mergeMask 7 c.imask v }
  | 0x016 => strand fun c => { c with itimer := mergeMask (2 ^ 63 + 2 ^ 48 - 1) c.itimer v }
  | 0x110 => change fun s => s.modMyCore fun c => { c with alignto := fld v 63 48, sel := fld v 47 44 }
  | 0x118 => change fun s => s.modMyCore fun c => { c with captab := mergeMask (2 ^ 63 + 2 ^ 56 - 2 ^ 11) c.captab v }
  | 0x119 => change fun s => s.modMyCore fun c => { c with migthr := mergeMask (2 ^ 63 + 2 ^ 20 - 1) c.migthr v }
  | 0x203 => change fun s => setTail s s.cur.cluKey (fld v 31 0)
  | 0x302 => do
      pol fun p => { p with faultq := mergeMask (2 ^ 63 + 2 ^ 56 - 2 ^ 12 + 15) p.faultq v }
      change fun s => drainPosts s s.cur.mod
  | 0x303 => change fun s => sendWake s v
  | 0x305 => pol fun p => { p with rtbase := fld v 55 12 }
  | _ => if 0x100 ≤ n ∧ n ≤ 0x107 then writeTsh (n - 0x100) v else pure ()

/-- The value that a CSR instruction reads; a read of DIEERRLOG removes the record (R320). -/
def csrTake (n : Nat) : Act Word := fun s =>
  let v := (csrRead s n).getD 0
  .ok (v, if n = 0x301 then popRecord s s.cur.dieKey s.tenant else s)

/-- CSRR (R101). -/
def execCsrr (d : GReg) (csr : BitVec 12) (s : State) : Host.Outcome State Fault Refusal :=
  finish s (Act.res (do
    csrAllowed 0x5E csr.toNat false
    let v ← csrTake csr.toNat
    change fun t => wg t d v) s)

/-- CSRW (R101). -/
def execCsrw (a : GReg) (csr : BitVec 12) (s : State) : Host.Outcome State Fault Refusal :=
  finish s (Act.res (do
    csrAllowed 0x5F csr.toNat true
    csrWrite 0x5F csr.toNat (rg s a)) s)

/-- CSRX (R101): the read and the write are one step. -/
def execCsrx (d a : GReg) (csr : BitVec 12) (s : State) : Host.Outcome State Fault Refusal :=
  finish s (Act.res (do
    csrAllowed 0x60 csr.toNat true
    let v ← csrTake csr.toNat
    csrWrite 0x60 csr.toNat (rg s a)
    change fun t => wg t d v) s)

/-! ### The steps within a write -/

/-- SSTAT_WRITE (R86, R87): the write to SSTAT within a CSRW. -/
def execSstatWrite (v : Word) (s : State) : Host.Outcome State Fault Refusal :=
  finish s (Act.res (writeSstat 0x5F v) s)

/-- IPEND_CLEAR (R96). -/
def execIpendClear (v : Word) (s : State) : Host.Outcome State Fault Refusal :=
  finish s (Act.res (do
    csrAllowed 0x5F 0x014 true
    csrWrite 0x5F 0x014 v) s)

/-- REGISTER_WRITE (R10): the write to a register by the access codes of its fields. -/
def execRegisterWrite (csr : BitVec 12) (v : Word) (s : State) : Host.Outcome State Fault Refusal :=
  finish s (Act.res (do
    csrAllowed 0x5F csr.toNat true
    csrWrite 0x5F csr.toNat v) s)

/-- DIEERRLOG (R320): the read that removes the oldest record of the reading strand's VF. -/
def execDieerrlog (d : GReg) (s : State) : Host.Outcome State Fault Refusal :=
  finish s (Act.res (do
    csrAllowed 0x5E 0x301 false
    let v ← csrTake 0x301
    change fun t => wg t d v) s)

/-- FAULTACK (R319): the write that sends a wake. -/
def execFaultack (v : Word) (s : State) : Host.Outcome State Fault Refusal :=
  finish s (Act.res (do
    csrAllowed 0x5F 0x303 true
    change fun t => sendWake t v) s)

/-! ### Wakes (R319) -/

/-- A waiting strand acts on a wake: it reissues its bundle, and under DENY its access raises PROT. -/
def wakeStrand (tok : Nat) (deny : Bool) (s : State) (p : Place) : State :=
  let x := s.strand p
  if x.parkedOn .page && decide (x.token = some tok) then
    (if deny then s else dropElements s p).modStrand p fun y =>
      { y with st := .ready, token := none, denied := deny }
  else s

/-- A waiting transfer acts on a wake. -/
def wakeXfer (w : FaultWait) (deny : Bool) (s : State) (e : Nat × Nat) : State :=
  match xferOf s e.1 e.2 with
  | none => s
  | some x =>
    if x.token ≠ some w.token then s
    else if deny then
      failXfer (enginePost s x.who x.tenant .prot x.absAt.1 1 x.absAt.2 x.id) e.1 e.2 0x08 x.absAt.1
    else nextWrite (s.modXfer e.1 e.2 fun y => { y with token := none }) e.1 e.2

/-- FAULTACK_WAKE (R319): the oldest wake for a die arrives. -/
def execFaultackWake (die : Nat) (s : State) : Host.Outcome State Fault Refusal :=
  let f (n : Note) : Option (Nat × Nat) :=
    match n with
    | .wake dk act tok => if dk = die then some (act, tok) else none
    | _ => none
  match takeNote f s.notes with
  | none => .next s
  | some ((act, tok), rest) =>
    let s1 := { s with notes := rest }
    match (s.dieOf die).waits.find? fun w => decide (w.token = tok) with
    | none => .next (s1.count die 8)
    | some w =>
      if 2 ≤ act ∨ (w.strands.isEmpty && w.xfers.isEmpty) then
        (if 2 ≤ act then .next (s1.count die 8)
         else .next ((s1.modDie die fun d =>
           { d with waits := d.waits.filter fun v => decide (v.token ≠ tok) }).count die 8))
      else
        let s2 := s1.modDie die fun d => { d with waits := d.waits.filter fun v => decide (v.token ≠ tok) }
        let s3 := w.strands.foldl (wakeStrand tok (decide (act = 1))) s2
        .next (w.xfers.foldl (wakeXfer w (decide (act = 1))) s3)

end Sys2Proof.Machine
end

