-- ==== Sys2Proof/Machine/Policy.lean ====
section
/-! DEFINITION. The policy record of a VF and the module budget: when a change that system software makes takes effect, and
the reads and writes of the Ochre cores (R268, R293, R307, R309, R312, R375, R387). -/

namespace Sys2Proof.Machine

open Sys2Proof

/-! ### The Ochre cores' memory -/

/-- A read by the Ochre cores in a VF's memory; a malformed leaf is logged (R312). -/
def ochreRead (s : State) (m vf a n : Nat) : Option Nat × State :=
  match superRead s m vf (a % addrSpace) n with
  | .ok (x, s1) => (some x, s1)
  | .error e => (none, logMalformed s m vf e)

/-- A write by the Ochre cores in a VF's memory; a malformed leaf is logged (R312). -/
def ochreWrite (s : State) (m vf a n x : Nat) : State :=
  match superWrite s m vf (a % addrSpace) n x with
  | .ok s1 => s1
  | .error e => logMalformed s m vf e

/-! ### The module budget (R387) -/

/-- The budget of a die in units of 25 mW: the module budget in steps of 0.5 kW, less 11.5 kW. -/
def dieBudget (halfKw dies : Nat) : Nat := (halfKw * 500 - 11500) * 40 / Nat.max dies 1

/-- Every compute die that passed its test takes a budget. -/
def setBudgets (s : State) (m units : Nat) : State :=
  (s.modOf m).diesUp.foldl (fun t d =>
    setBudget (t.modDie (dieKey m d) fun x => { x with thermalBase := 0 }) (dieKey m d) units) s

/-- The module budget is divided among the dies that passed their test. -/
def divideBudget (s : State) (m : Nat) : State :=
  setBudgets s m (dieBudget (s.modOf m).halfKw (s.modOf m).diesUp.length)

/-- System software sets the module budget, 16 to 32 kW. -/
def setModuleBudget (s : State) (m halfKw : Nat) : State :=
  if 32 ≤ halfKw ∧ halfKw ≤ 64 then
    let s1 := s.modMod m fun x => { x with halfKw := halfKw }
    if (s.modOf m).boot = 6 then divideBudget s1 m else s1
  else s

/-! ### The policy record (R375) -/

/-- The limits of a registered update table (R293): a registration outside them is not taken (log 57). -/
def tableFits (base len nrows : Nat) : Bool :=
  decide (base % 4 = 0 ∧ base < 2 ^ 55 ∧ 1 ≤ len ∧ len ≤ 1024 ∧ 1 ≤ nrows ∧ nrows ≤ 2 ^ 32)

/-- A field of a policy record takes its value; reserved bits of EVEC read 0 (R12, R94). QUOTA reaches 16,384 (R375, log
64). -/
def Policy.apply (p : Policy) (f : PolicyField) : Policy :=
  match f with
  | .en v => { p with en := v }
  | .part v => { p with part := v % 16 }
  | .slice v => { p with slice := v % 2 ^ 20 }
  | .maxscope v t => { p with maxscope := v % 8, trap := t }
  | .wayshare v => { p with wayshare := v % 2 ^ 16 }
  | .pin n b => { p with pinways := n % 16, pinbase := b % 2 ^ 22 }
  | .rtbase v => { p with rtbase := v % 2 ^ 44 }
  | .faultq v => { p with faultq := word (fld v 63 63 * 2 ^ 63 + fld v 55 12 * 2 ^ 12 + fld v 3 0) }
  | .evec v => { p with evec := v &&& word (2 ^ 56 - 7) }
  | .escratch v => { p with escratch := v }
  | .quota v => { p with quota := if v = 2 ^ 14 then v else v % 2 ^ 14 }
  | .nctx n => { p with nctx := n % 2 ^ 8 }
  | .ctxbase v => { p with ctxbase := v % 2 ^ 27 }
  | .savebase v => { p with savebase := v % 2 ^ 56 }
  | .hostport v => { p with hostport := v }
  | .enrol v => { p with enrol := v }
  | .updtab n base stride len nrows merge mcap =>
    let t : UpdTable := { base := base, stride := stride, len := len, nrows := nrows, merge := merge, mcap := mcap, step := 0 }
    if tableFits base len nrows then { p with tables := fset p.tables (n % 256) t } else p
  | .ptRoot _ | .budget _ => p

/-- When a change takes effect (R375). -/
inductive Effect where
  /-- When it is made: it is read at launches, dispatches and turns only, or it is not a VF's. -/
  | now
  /-- At the next dispatch or restore of a strand of the VF (log 36). -/
  | strand
  /-- At the next launch of the VF, or while the VF is idle. -/
  | launch
  deriving DecidableEq, Repr

/-- When a change of a field takes effect (R375). -/
def effectOf : PolicyField → Effect
  | .maxscope _ _ | .rtbase _ | .faultq _ | .nctx _ => .launch
  | .wayshare _ | .pin _ _ | .quota _ | .ctxbase _ | .savebase _ | .hostport _ | .enrol _ | .updtab _ _ _ _ _ _ _ => .strand
  | .en _ | .part _ | .slice _ | .evec _ | .escratch _ | .ptRoot _ | .budget _ => .now

/-- KLCTXBASE of the clusters that a VF's partition spans takes the VF's values (R268, R375). -/
def setContexts (s : State) (m vf : Nat) : State :=
  let p := s.policy m vf
  match partitionOf s m p.part with
  | none => s
  | some e => (spanClusters m e).foldl (fun t k => t.modClu k fun c => { c with knctx := p.nctx, kbase := p.ctxbase }) s

/-- An update table is registered anew (R293): nothing of an earlier table of its number is left. -/
def dropTable (x : Module) (vf n : Nat) : Module :=
  { x with openSteps := fdel x.openSteps (vf * 256 + n),
           merges := x.merges.filter fun t => decide (¬(t.vf = vf ∧ t.table = n)) }

/-- A change takes effect. A pinned window is zero when it is configured, and its ways hold nothing else (R307); FAULTQ may
let posts go on (R317); the root of the page table and the budget are the package's, whatever VF they are written for. -/
def applyField (s : State) (m vf : Nat) (f : PolicyField) : State :=
  let s1 := s.modPolicy m vf fun p => p.apply f
  match f with
  | .pin _ _ =>
    clearPinned (s1.modMod m fun x => { x with pinned := fdel x.pinned vf, pinnedPoison := fdel x.pinnedPoison vf }) m
  | .wayshare _ => clearPinned s1 m
  | .nctx _ | .ctxbase _ => setContexts s1 m vf
  | .faultq _ => drainPosts s1 m
  | .updtab n base _ len nrows _ _ =>
    if tableFits base len nrows then s1.modMod m fun x => dropTable x vf (n % 256) else s1
  | .ptRoot v => s1.modMod m fun x => { x with ptRoot := bits v 55 12 * 4096 }
  | .budget n => setModuleBudget s1 m n
  | .en _ | .part _ | .slice _ | .maxscope _ _ | .rtbase _ | .evec _ | .escratch _ | .quota _
  | .savebase _ | .hostport _ | .enrol _ => s1

/-- The waiting changes that a test names take effect, in the order in which they were made. -/
def applySome (s : State) (m vf : Nat) (now : PolicyField → Bool) : State :=
  let fs := (s.policy m vf).pending
  if fs.any now then
    (fs.filter now).foldl (fun t f => applyField t m vf f)
      (s.modPolicy m vf fun p => { p with pending := p.pending.filter fun f => !now f })
  else s

/-- At a launch of the VF, and while it is idle, every change that waited takes effect. -/
def applyPending (s : State) (m vf : Nat) : State := applySome s m vf fun _ => true

/-- As a strand of the VF is dispatched or restored, the changes that waited for that take effect. -/
def applyLate (s : State) (m vf : Nat) : State := applySome s m vf fun f => decide (effectOf f = .strand)

end Sys2Proof.Machine
end

