-- ==== Sys2Proof/Machine/Remote.lean ====
section
/-! DEFINITION. Remote matrix commands: MCMD, the check at the target core and its answer (R222-R224). -/

namespace Sys2Proof.Machine

open Sys2Proof

/-- CAP_DENIED with a reason (R223). -/
def capDenied (reason : Nat) : Res := .trap .capDenied 0 reason

/-- The request number that stands for a remote command. -/
def askRemote : Nat := 5

/-- The core that bits 50:32 of MCMD's second operand name, if it exists in this package (R223). -/
def mcmdCore (s : State) (m tgt : Nat) : Option Nat :=
  if bits tgt 12 4 < 400 ∧ (s.modOf m).diesUp.contains (bits tgt 18 13) then
    some (coreKey m (bits tgt 18 13) (bits tgt 12 4) (bits tgt 3 0))
  else none

/-- The cycles that a command, or its answer, is on its way at least (R389). -/
def commandFlight (src : Place) (tgt : Nat) : Nat := flight (placeNode src) (nodeOf (tgt / 16))

/-- MCMD (R223). -/
def execMcmd (d a b : GReg) (s : State) : Host.Outcome State Fault Refusal :=
  let cap := (rg s a).toNat
  let x := (rg s b).toNat
  finish s (
    match unitAnswer s.me with
    | some (0, _) => .done (wg (copySeed s).2 d 0)
    | some (r, _) => capDenied r
    | none =>
      if hasAsked s.me askRemote then .park .mem false s
      else if bits cap 63 58 ≠ s.tenant then capDenied 2
      else
        let n := Note.mcmd s.cur cap x (bits x 50 32) (seedOf s) (defaultMode s) (s.ticks + commandFlight s.cur (bits x 50 32))
        .park .mem true (((ask s askRemote).note n).spawn (.mcmdCommand s.cur)))

/-- What a permitted word asks: its RIGHTS bit, its stream, the tiles it names, its operation before shapes
are captured, and the failed shape checks (R222, R223). -/
structure Command where
  right : Nat
  st : Nat
  tiles : List Nat
  op : MOp
  faults : List Nat × List Nat × List Nat

/-- The command of a decoded word on a core, if the word is permitted. -/
def commandOf (c : Core) (mode : Rounding) (i : Instr) : Option Command :=
  let sh (t : Nat) : Nat := (tileOf c t).tsh.toNat
  let md : RoundSel → Rounding
    | .fpctl => mode
    | .by r => r
  let mk (k : MKind) (d a b : Nat) : MOp :=
    { MOp.blank k with td := d, ta := a, tb := b, shD := sh d, shA := sh a, shB := sh b }
  let mul (k : MKind) (d a b : TReg) (df : Dataflow) (st : BitVec 2) (acc : FloatFmt) : Option Command :=
    some { right := 1, st := st.toNat, tiles := [d.val, a.val, b.val],
           op := { mk k d.val a.val b.val with acc := acc, df := df },
           faults := shapeFaults k acc.toCode.code 0 d.val a.val b.val sh }
  match i with
  | .tzero d st =>
    some { right := 0, st := st.toNat, tiles := [d.val], op := mk .tzero d.val d.val d.val, faults := ([], [], []) }
  | .mma d a b df st acc => mul .mma d a b df st acc
  | .mmas d a b df st acc => mul .mmas d a b df st acc
  | .mmss d a b df st acc => mul .mmss d a b df st acc
  | .tcvt d a st rs =>
    some { right := 0, st := st.toNat, tiles := [d.val, a.val],
           op := { mk .tcvt d.val a.val a.val with mode := md rs },
           faults := shapeFaults .tcvt 0 0 d.val a.val a.val sh }
  | .tadd d a b st rs =>
    some { right := 0, st := st.toNat, tiles := [d.val, a.val, b.val],
           op := { mk .tadd d.val a.val b.val with mode := md rs },
           faults := shapeFaults .tadd 0 0 d.val a.val b.val sh }
  | .tscale d a b st rs col =>
    some { right := 0, st := st.toNat, tiles := [d.val, a.val, b.val],
           op := { mk .tscale d.val a.val b.val with mode := md rs, col := col },
           faults := shapeFaults .tscale 0 (b2n col) d.val a.val b.val sh }
  | .ttrans d a st =>
    some { right := 0, st := st.toNat, tiles := [d.val, a.val], op := mk .ttrans d.val a.val a.val,
           faults := shapeFaults .ttrans 0 0 d.val a.val a.val sh }
  | .mjoin mask =>
    let masks := (List.range 4).map fun t =>
      if bitAt mask.toNat t ∧ t ≠ 0 then (queueOf c t).length else 0
    some { right := 2, st := 0, tiles := [], op := { mk .mjoin 0 0 0 with masks := masks, vec := mask.toNat },
           faults := ([], [], []) }
  | _ => none

/-- Entry `i` of a capability table (R222); 0, which is not valid, where it cannot be read. -/
def capEntry (s : State) (m tenant : Nat) (captab : Word) (i : Nat) : Nat × State :=
  let a := bits captab.toNat 55 11 * 2 ^ 11 + 8 * i
  if bitAt a 55 then (0, s)
  else
    match target s m tenant a with
    | .error f => (0, logMalformed s m tenant (f, a))
    | .ok (t, s1) =>
      match readTarget s1 t tenant a with
      | .error _ => (0, s1)
      | .ok (d, po, s2) => if bitAt po (a % 128 / 8) then (0, s2) else (d / 256 ^ (a % 128) % 2 ^ 64, s2)

/-- The check of a command at its target core (R223): the reason of a rejection, or the command. DEDUCED (log 65): a TARGET
that is not this core gives reason 8, bits 63:51 of the word that are not 0 give 9. `now` is the cycle of the check. -/
def commandCheck (s : State) (now core cap e x : Nat) (mode : Rounding) : Except Nat Command :=
  let c := s.coreOf core
  if bitAt e 63 = false then .error 1
  else if bits cap 63 58 ≠ bits e 62 57 then .error 2
  else if bits cap 26 20 ≠ bits e 52 46 then .error 3
  else if bits cap 57 39 ≠ bits x 50 32 then .error 8
  else if bits cap 19 0 < now / 2 ^ 36 % 2 ^ 20 then .error 4
  else if bits cap 38 35 &&& bits e 56 53 ≠ bits cap 38 35 then .error 5
  else if bits x 63 51 ≠ 0 ∨ bitAt x 31 = false then .error 9
  else
    match decodeWord true (x % 2 ^ 32) with
    | .error _ => .error 9
    | .ok i =>
      match commandOf c mode i with
      | none => .error 9
      | some k =>
        if bitAt (bits cap 38 35) k.right = false then .error 5
        else if bitAt (bits e 45 42) k.st = false then .error 6
        else if k.tiles.any fun t => !bitAt (bits e 41 34) t then .error 7
        else if !k.faults.1.isEmpty || !k.faults.2.1.isEmpty || !k.faults.2.2.isEmpty then .error 10
        else .ok k

/-- The answer of a target core sets out. -/
def answerCommand (s : State) (src : Place) (tgt reason : Nat) : State :=
  (s.note (.mcmdAns src reason (s.ticks + commandFlight src tgt))).spawn (.mcmdAnswer src)

/-- An older command of the same source core to the same target is on its way (R224). -/
def olderCommand (src : Place) (tgt : Nat) : List Note → Bool
  | [] => false
  | .mcmd q _ _ t _ _ _ :: ns =>
    if q = src then false else (decide (q.coreKey = src.coreKey ∧ t = tgt)) || olderCommand src tgt ns
  | _ :: ns => olderCommand src tgt ns

/-- The cycle of an acceptance (R224): a core whose issue position of this cycle is still to come stands in the cycle
before, whose local issue went first. -/
def acceptTime (s : State) (core : Nat) : Nat :=
  let n := s.now (dieMod (cluDie (coreClu core)))
  if s.turn = core ∨ s.left.contains core then n - 1 else n

/-- MCMD_COMMAND (R223, R224): the command of a strand reaches its target. -/
def execMcmdCommand (src : Place) (s : State) : Host.Outcome State Fault Refusal :=
  let f (n : Note) : Option (Nat × Nat × Nat × BitVec 32 × Rounding × Nat) :=
    match n with
    | .mcmd q cap x tgt seed mode due => if q = src then some (cap, x, tgt, seed, mode, due) else none
    | _ => none
  match takeNote f s.notes with
  | none => .next s
  | some ((cap, x, tgt, seed, mode, due), rest) =>
    if s.ticks < due ∨ olderCommand src tgt s.notes then .next (s.again (.mcmdCommand src))
    else
      let s1 := { s with notes := rest }
      match mcmdCore s src.mod tgt with
      | none => .next (answerCommand s1 src tgt 8)
      | some core =>
        let ct := (s.coreOf core).captab
        if bitAt ct.toNat 63 = false then .next (answerCommand s1 src tgt 8)
        else
          let (e, s2) := capEntry s1 src.mod (bits cap 63 58) ct (bits cap 34 27)
          match commandCheck s2 (acceptTime s2 core) core cap e x mode with
          | .error r => .next (answerCommand s2 src tgt r)
          | .ok k =>
            if 8 ≤ (queueOf (s2.coreOf core) k.st).length then .next (s.again (.mcmdCommand src))
            else
              .next (answerCommand (appendOp s2 core k.st { k.op with seed := seed.toNat, since := (s2.coreOf core).mwaits }) src tgt 0)

/-- MCMD_ANSWER (R223). -/
def execMcmdAnswer (src : Place) (s : State) : Host.Outcome State Fault Refusal :=
  let f (n : Note) : Option (Nat × Nat) :=
    match n with
    | .mcmdAns q r due => if q = src then some (r, due) else none
    | _ => none
  match takeNote f s.notes with
  | none => .next s
  | some ((r, due), rest) =>
    .next (if s.ticks < due then s.again (.mcmdAnswer src) else giveAnswer { s with notes := rest } src r 0)

end Sys2Proof.Machine
end

