-- ==== Sys2Proof/Machine/Slots.lean ====
section
/-! DEFINITION. Saving and restoring strands, CTXSAVE and CTXLOAD, the handover of slots between tenants,
SPART (R98, R99, R195, R196, R228, R233-R235, R377, R378, R382). -/

namespace Sys2Proof.Machine

open Sys2Proof

/-! ### Save areas (R98, R195) -/

/-- Register `i` of a strand. -/
def regOf (x : Strand) (i : Nat) : Nat := (x.g[Fin.ofNat 32 i]).toNat

/-- The two words of a loop level (R195). -/
def loopWord (l : LoopLevel) : Nat :=
  2 ^ 63 + l.b % addrSpace + ((l.e - l.b) / 4 % 2 ^ 13 * 2 ^ 51 + l.remain % 2 ^ 48) * 2 ^ 64

/-- A strand's loop levels, outer first. -/
def loopWords2 (x : Strand) : Nat :=
  match x.loops.reverse with
  | [] => 0
  | [l] => loopWord l
  | l :: m :: _ => loopWord l + loopWord m * 2 ^ 128

/-- The binding word of a v register (R195). -/
def bindWord (s : State) (p : Place) (r : Nat) : Nat :=
  let us := (s.coreOf p.coreKey).units
  let mine (i : Nat) : Bool :=
    let u := nth SUnit.free us i
    decide (u.owner = some p.slot ∧ u.bound = some r)
  match (List.range 4).find? mine with
  | some i =>
    let u := nth SUnit.free us i
    u.pos % 2 ^ 32 * 2 ^ 32 + 2 ^ 31 + b2n u.wr * 2 ^ 30 + (if bits u.desc 55 54 = 3 then 0 else 2 ^ 29)
      + i * 2 ^ 27 + bits u.desc 22 6 * 2 ^ 6
  | none => fget 0 (s.strand p).rebind r

/-- The save area of a strand (R98, R195): 1 KiB. -/
def saveArea (s : State) (p : Place) : Nat :=
  let x := s.strand p
  let c := x.csr
  let csrs : List Nat :=
    [c.epc.toNat, c.ecause.toNat, c.eaddr.toNat, c.einfo.toNat, c.evec.toNat, c.escratch.toNat, c.fpctl.toNat,
     c.rndseed.toNat, c.ttmask.toNat, c.groups.toNat, c.pwtoken.toNat, c.klstat.toNat, c.ixmask.toNat,
     c.pdepth.toNat, c.sclamp.toNat]
  x.pc.toNat + c.sstat.toNat * 256 ^ 8
    + packLanes 64 ((List.range 31).map fun i => regOf x (i + 1)) * 256 ^ 0x10
    + packLanes 256 ((List.range 16).map fun i => (x.v[Fin.ofNat 16 i]).toNat) * 256 ^ 0x120
    + packLanes 32 ((List.range 4).map fun i => (x.k[Fin.ofNat 4 i]).toNat) * 256 ^ 0x320
    + packLanes 64 csrs * 256 ^ 0x330
    + loopWords2 x * 256 ^ 0x3A8
    + packLanes 64 ((List.range 4).map fun i => bindWord s p (12 + i)) * 256 ^ 0x3C8
    + packLanes 64 [c.ipend.toNat, c.imask.toNat, c.itimer.toNat] * 256 ^ 0x3E8

/-- TCM offset of the save area of a slot. -/
def areaOff (slot : Nat) : Nat := 0xC000 + 0x400 * slot

/-- The placed address of offset `off` of a core's TCM window (R57). -/
def tcmAddr (s : State) (core off : Nat) : Nat :=
  let p := placeOf core 0
  3 * 2 ^ 54 + s.pkgOf p.mod * 2 ^ 42 + p.die * 2 ^ 36 + p.clu * 2 ^ 27 + p.core * 2 ^ 23 + off

/-- Write the save area of a slot. -/
def writeArea (s : State) (p : Place) (x : Nat) : State :=
  let off := areaOff p.slot
  fireMonitors (s.modCore p.coreKey fun c =>
    { c with tcm := Memory.writeN c.tcm off 0x400 x, tcmPoison := clearWords c.tcmPoison off 0x400 })
    p.cluKey (tcmAddr s p.coreKey off) 0x400

/-- Read the save area of a slot. -/
def readArea (s : State) (p : Place) : Nat := Memory.readN (s.coreOf p.coreKey).tcm (areaOff p.slot) 0x400

/-! ### Stopping and saving a strand (R99, R196) -/

/-- A strand has asked another agent for something that is done once (a far atomic, a remote command, a close,
a conversion), and its bundle has not taken the answer. -/
def sentOut (x : Strand) : Bool := x.asked.any fun k => decide (k % 8 = 6 ∨ k % 8 = 5)

/-- A strand may be stopped (R99, R260): no packet open, no IXE posting incomplete. -/
def mayStop (s : State) (p : Place) : Bool :=
  !(s.strand p).pktOpen && !ixBusy s p && !sentOut (s.strand p)

/-- The key of a saved task. -/
def savedKey (tenant slot : Nat) : Nat := tenant * 16 + slot

/-- A strand no longer waits to travel. -/
def quitTravel (s : State) (p : Place) : State :=
  { s with clusters := s.clusters.map fun e =>
      (e.1, { e.2 with travellers := e.2.travellers.filter fun t => decide (t.who ≠ p) }) }

/-- The contexts that a strand holds, with their GEN (R272). -/
def heldCtxs (s : State) (p : Place) : List (Nat × Nat) :=
  ((s.cluOf p.cluKey).kctx.filter fun e => decide (e.2.st ≠ 0) && e.2.holders.contains p).map fun e => (e.1, e.2.gen)

/-- A strand holds its contexts again (R272): those that have not been freed since. -/
def holdCtxs (s : State) (p : Place) (l : List (Nat × Nat)) : State :=
  s.modClu p.cluKey fun c =>
    { c with kctx := c.kctx.map fun e =>
        if l.contains (e.1, e.2.gen) && decide (e.2.st ≠ 0) then
          (e.1, { e.2 with holders := p :: e.2.holders.filter (· ≠ p) })
        else e }

/-- Save a stopped strand (R196, R351, R364): its record; its slot becomes Empty. -/
def saveStrand (s : State) (p : Place) : Nat × State :=
  let s0 := settleTiles (mergeFlags s p (List.range 4)) p.coreKey (some p.slot) fun _ => true
  let s1 := releaseGrant s0 p
  let x := s1.strand p
  let area := saveArea s1 p
  let s2 := freeUnits (quitTravel (abandonBundle s1 p) p) p
  let s3 := uncharge s2 p.dieKey (classWeight x.task.cls)
  let s4 := s3.modCore p.coreKey fun c =>
    let v : Saved :=
      { task := x.task, notice := x.notice, ctxs := heldCtxs s1 p, dbl := x.dbl, mpend := x.mpend, begun := x.begun,
        since := s.now p.mod }
    { c with saved := fset c.saved (savedKey x.tenant p.slot) v }
  (area, emptySlot s4 p)

/-! ### Loading a strand (R12, R196, R235) -/

/-- A field of a save area. -/
def areaWord (x off : Nat) : Word := word (x / 256 ^ off)

/-- A restored loop level: it fetches, and recaptures at its next pass (R196). -/
def loadLoop (w0 w1 : Nat) : Option LoopLevel :=
  if bitAt w0 63 then
    some { b := w0 % addrSpace, e := addrAdd (w0 % addrSpace) (4 * bits w1 63 51 : Nat), remain := w1 % 2 ^ 48,
           buf := none, recap := true }
  else none

/-- The CSRs of a save area: reserved fields load as 0 (R12), PWTOKEN as 0 (R364), OPENPKT as 0 (R98). -/
def loadCsr (x : Nat) : StrandCsr :=
  let c (i : Nat) : Word := areaWord x (0x330 + 8 * i)
  let keep (mask : Nat) (w : Word) : Word := w &&& word mask
  { sstat := keep 0x3FFFF (areaWord x 8), epc := keep (2 ^ 64 - 4) (c 0), ecause := keep (2 ^ 63 + 0xFF) (c 1),
    eaddr := c 2, einfo := c 3, evec := keep (2 ^ 56 - 7) (c 4), escratch := c 5, fpctl := keep 0x1F3 (c 6),
    rndseed := BitVec.ofNat 32 (c 7).toNat, ttmask := BitVec.ofNat 32 (c 8).toNat, groups := keep (2 ^ 36 - 1) (c 9),
    pwtoken := 0, klstat := keep 0xC0FF3FFCFFFFFFFF (c 11), ixmask := c 12, pdepth := keep (2 ^ 64 - 1 - 0xE0E0E0) (c 13),
    sclamp := keep (2 ^ 35 - 1) (c 14), openpkt := 0,
    ipend := keep 7 (areaWord x 0x3E8), imask := keep 7 (areaWord x 0x3F0),
    itimer := keep (2 ^ 63 + 2 ^ 48 - 1) (areaWord x 0x3F8) }

/-- The strand of a save area, its bindings still to be made; `v` is what the machine has kept of it. -/
def loadedStrand (x : Nat) (old : Strand) (t : Task) (v : Saved) : Strand :=
  let w (i : Nat) : Nat := (areaWord x (0x3A8 + 8 * i)).toNat
  let reg (i : Fin 32) : Word := if i.val = 0 then 0 else areaWord x (8 + 8 * i.val)
  let bw := (List.range 4).map fun i => (12 + i, (areaWord x (0x3C8 + 8 * i)).toNat)
  { Strand.empty with
    st := .ready
    pc := areaWord x 0
    g := Vector.ofFn reg
    v := Vector.ofFn fun i => BitVec.ofNat 256 (x / 256 ^ (0x120 + 32 * i.val))
    k := Vector.ofFn fun i => BitVec.ofNat 32 (x / 256 ^ (0x320 + 4 * i.val))
    csr := loadCsr x
    loops := [loadLoop (w 2) (w 3), loadLoop (w 0) (w 1)].filterMap id
    issued := old.issued
    task := t
    notice := v.notice
    mpend := v.mpend
    begun := v.begun
    rebind := bw.filter fun e => bitAt e.2 31 }

/-- TICKS has passed the value of an armed timer since `since` (R96). -/
def timerPassed (since ticks : Nat) (x : Strand) : Bool :=
  bitAt x.csr.itimer.toNat 63
    && decide ((x.csr.itimer.toNat + 2 ^ 48 - since % 2 ^ 48) % 2 ^ 48 ≤ ticks - since)

/-- A timer that passed while its strand was saved, since `since` (R96). -/
def lateTimer (since ticks : Nat) (x : Strand) : Strand :=
  if timerPassed since ticks x then
    { x with csr := { x.csr with ipend := x.csr.ipend ||| 1, itimer := setFld x.csr.itimer 63 63 0 } }
  else x

/-- Make a binding of a restored strand with the lowest free unit (R196). -/
def rebindOne (s : State) (p : Place) (r w : Nat) : Option State :=
  let c := s.coreOf p.coreKey
  match (List.range 4).find? fun i => (nth SUnit.free c.units i).owner.isNone with
  | none => none
  | some i =>
    let off := bits w 22 6 * 64
    let desc := if bitAt w 29 then spadAddr s p.cluKey off else tcmAddr s p.coreKey off
    let d := if bitAt w 29 then Memory.readN (s.cluOf p.cluKey).spad off 64 else Memory.readN c.tcm off 64
    let u : SUnit := { unitOf d p.slot desc with bound := some r, wr := bitAt w 30, pos := bits w 63 32 }
    let s1 := s.modUnit p.coreKey i fun _ => u
    some (if bitAt w 30 then s1 else s1.spawn (.streamElementFetch p.coreKey i))

/-- Make the bindings of a restored strand, as many as there are units for (R196). -/
def rebindAll (p : Place) : List (Nat × Nat) → State → State
  | [], s => s.modStrand p fun x => { (x.wakeIf [.stream]) with rebind := [] }
  | (r, w) :: rest, s =>
    match rebindOne s p r w with
    | some s1 => rebindAll p rest s1
    | none => s.modStrand p fun x =>
        { x with st := if x.st = .parked .doubleTrap then x.st else .parked .stream, rebind := (r, w) :: rest }

/-- What the machine keeps of a strand that it saved under a key. -/
def savedOf (c : Core) (k : Nat) : Saved :=
  fget { task := Task.none, notice := none, ctxs := [], dbl := false, mpend := [none, none, none, none], begun := none,
         since := 0 } c.saved k

/-- Load a strand into an Empty slot (R196, R235, R251, R351). With `dbl` a double trap that parked it stays in
force (R97, R233). -/
def loadStrand (s0 : State) (p : Place) (area : Nat) (dbl : Bool) : State :=
  let s := applyLate s0 p.mod (bits area 81 76)
  let k := savedKey (bits area 81 76) p.slot
  let v := savedOf (s.coreOf p.coreKey) k
  let t' : Task := { v.task with tenant := bits area 81 76, part := bits area 75 72 }
  let x := lateTimer v.since (s.now p.mod) (loadedStrand area (s.strand p) t' v)
  let s1 := (s.setStrand p x).modCore p.coreKey fun c => { c with saved := fdel c.saved k }
  let s2 := charge s1 p.dieKey (classWeight v.task.cls)
  let s3 := holdCtxs (setShadow s2 p { Shadow.default with lost := true }) p v.ctxs
  let s4 := rebindAll p x.rebind s3
  if dbl && v.dbl then s4.modStrand p fun y => { y with st := .parked .doubleTrap, dbl := true } else s4.spawn (.asyncTrapEntry p)

/-- Bindings that wait for a unit are tried when a core ends its turn. -/
def rebindTurn (s : State) (core : Nat) : State :=
  let waits (i : Nat) : Bool := !(s.strand (placeOf core i)).rebind.isEmpty
  ((List.range 16).filter waits).foldl (fun t i =>
    rebindAll (placeOf core i) (t.strand (placeOf core i)).rebind t) s

/-! ### CTXSAVE and CTXLOAD (R235) -/

/-- Wait and look again. -/
def pollMem {α : Type} (s : State) : Except Res (α × State) := .error (.park .mem false (s.spawn (.memResponse s.cur)))

/-- A strand whose matrix operations still have to complete is stopped for a save (R99, R233, R235): its slot is in
Handover, and what its bundle waits for elsewhere goes (R366). -/
def holdForSave (s : State) (p : Place) : State := (abandonBundle s p).modStrand p fun y => { y with st := .handover }

/-- CTXSAVE (R235). -/
def execCtxsave (d a : GReg) (s : State) : Host.Outcome State Fault Refusal :=
  let p := placeOf s.cur.coreKey ((rg s a).toNat % 16)
  let x := s.strand p
  let save (v : Nat) (t : State) : State :=
    let (area, u) := saveStrand t p
    wg (writeArea u p area) d (word v)
  let code := slotReason (shownState s p) * 4 + slotCode (shownState s p)
  finish s (Act.res (do
    needSuper 0x66
    if p.slot = s.cur.slot then illegal 0x66
    else
      match unitAnswer s.me with
      | some (_, v) => if matrixBusy s p then pollMem else change (save v)
      | none =>
        if x.st = .empty then change fun t => wg t d 0
        else if x.st = .handover ∨ mayStop s p = false then pollMem
        else if matrixBusy s p then
          fun t =>
            .error (.park .mem true (((holdForSave t p).modMe fun y => { y with resps := y.resps ++ [.unit 0 code] }).spawn
              (.memResponse s.cur)))
        else change (save code)) s)

/-- Discard the strand of a slot, if it holds one (R235). -/
def discardStrand (s : State) (p : Place) : State :=
  if (s.strand p).live then
    emptySlot (uncharge (freeUnits s p) p.dieKey (classWeight (s.strand p).task.cls)) p
  else s

/-- The TCM offset of the first poisoned word of a slot's save area. -/
def badArea (c : Core) (slot : Nat) : Option Nat :=
  ((List.range 128).map fun i => areaOff slot + 8 * i).find? fun a => c.tcmPoison.contains (a / 8)

/-- CTXLOAD (R235): poison in the save area raises DATA_ERROR at its first byte (R92, R153). -/
def execCtxload (d a : GReg) (s : State) : Host.Outcome State Fault Refusal :=
  let p := placeOf s.cur.coreKey ((rg s a).toNat % 16)
  let x := s.strand p
  let area := readArea s p
  finish s (Act.res (do
    needSuper 0x67
    if p.slot = s.cur.slot then illegal 0x67
    else if x.st ≠ .empty ∧ x.st ≠ .parked .doubleTrap then change fun t => wg t d 1
    else if let some off := badArea s.core p.slot then memTrap .dataError (tcmAddr s s.cur.coreKey off) .load
    else if (if p.slot = 15 then partOfSlot s.core 14 = 15 else bits area 75 72 ≠ partOfSlot s.core p.slot) then
      change fun t => wg t d 2
    else change fun t => wg (loadStrand (discardStrand t p) p area false) d 0) s)

/-! ### Handover (R233, R234, R376, R378, R382) -/

/-- Change a partition. -/
def State.modPart (s : State) (m part : Nat) (f : Partition → Partition) : State :=
  s.modMod m fun x =>
    { x with partitions := x.partitions.map fun e => if e.1 = part then (e.1, f e.2) else e }

/-- The part of a VF's save region that belongs to a core (R382). -/
def saveBase (s : State) (vf core : Nat) : Option Nat :=
  let m := dieMod (cluDie (coreClu core))
  let p := s.policy m vf
  match partitionOf s m p.part with
  | none => none
  | some e =>
    match (spanCores m e).findIdx? (· = core) with
    | none => none
    | some q => some (addrAdd p.savebase (0x10000 * q : Nat))

/-- Write bytes of a VF's save region; DESIGN CHOICE (log 12): bytes that the region cannot take are lost. -/
def regionWrite (s : State) (vf core off n x : Nat) : State :=
  match saveBase s vf core with
  | none => s
  | some b => ochreWrite s (dieMod (cluDie (coreClu core))) vf (addrAdd b off) n x

/-- Read bytes of a VF's save region, where it can be read. -/
def regionRead (s : State) (vf core off n : Nat) : Option Nat × State :=
  match saveBase s vf core with
  | none => (none, s)
  | some b => ochreRead s (dieMod (cluDie (coreClu core))) vf (addrAdd b off) n

/-- No record: all ones (R382). -/
def noRecord : Nat := 2 ^ 64 - 1

/-- A tile is owned by a slot of another partition than `part` (R234); slot 15 goes with slot 14. -/
def foreignTile (c : Core) (part i : Nat) : Bool :=
  match (nth Tile.free c.tiles i).owner with
  | none => false
  | some o => decide (partOfSlot c (if o = 15 then 14 else o) ≠ part)

/-- A tile as the tenants of a partition have it: DESIGN CHOICE (log 61), one of another partition counts as free. -/
def ownTile (c : Core) (part i : Nat) : Tile := if foreignTile c part i then Tile.free else (nth Tile.free c.tiles i).plain

/-- The tiles of a core go to the outgoing VF's region (R234). -/
def saveTiles (s : State) (vf core part : Nat) : State :=
  let c := s.coreOf core
  let one (t : State) (i : Nat) : State :=
    let x := ownTile c part i
    regionWrite (regionWrite (regionWrite t vf core (0x4000 + 0x1000 * i) 0x1000 x.data)
      vf core (0xC000 + 0x80 * i) 0x80 x.side) vf core (0xC400 + 8 * i) 8 x.tsh.toNat
  regionWrite ((List.range 8).foldl one s) vf core 0xC440 8
    (townWord { c with tiles := (List.range 8).map (ownTile c part) })

/-- A tile from a region: its data, sideband, TSH and TOWN byte. -/
def loadTile (data side tsh town : Nat) : Tile :=
  { data := data, side := side, tsh := word (tsh % 2 ^ 32 - bits tsh 10 4 * 16), owner := if bitAt town 7 then some (town % 16) else none,
    psn := bitAt town 6, perr := none, vers := [] }

/-- Replace a tile, unless another partition has it. -/
def putTile (s : State) (core part i : Nat) (x : Tile) : State :=
  s.modCore core fun c => if foreignTile c part i then c else { c with tiles := setNth c.tiles i x }

/-- The tiles of the incoming VF are loaded (R234). -/
def loadTiles (s : State) (vf core part : Nat) : State :=
  match regionRead s vf core 0xC440 8 with
  | (none, s0) => (List.range 8).foldl (fun t i => putTile t core part i Tile.free) s0
  | (some town, s0) =>
    let get (t : State) (off n : Nat) : Nat × State := ((regionRead t vf core off n).1.getD 0, (regionRead t vf core off n).2)
    let one (t : State) (i : Nat) : State :=
      let (data, t1) := get t (0x4000 + 0x1000 * i) 0x1000
      let (side, t2) := get t1 (0xC000 + 0x80 * i) 0x80
      let (tsh, t3) := get t2 (0xC400 + 8 * i) 8
      putTile t3 core part i (loadTile data side tsh (byteAt town i))
    (List.range 8).foldl one s0

/-- The VFs of a partition that have a launch in progress and are not being reset, ascending (R378, R383). -/
def runningVfs (s : State) (m part : Nat) : List Nat :=
  (List.range 64).filter fun v =>
    decide ((s.policy m v).part = part) && !(s.modOf m).resetting.contains v
      && (s.modOf m).launches.any fun e => e.2.running && decide (e.2.forVf = v)

/-- The VF whose turn comes next (R378). -/
def nextVf (s : State) (m part : Nat) (cur : Option Nat) : Option Nat :=
  let vs := runningVfs s m part
  match cur with
  | none => vs.head?
  | some c =>
    match vs.find? fun v => decide (c < v) with
    | some v => some v
    | none => vs.head?

/-- The slots that change hands in a switch: those of the partition, and slot 15 for slot 14's (R233, R402). -/
def switchSlots (s : State) (m part : Nat) (e : Partition) : List Place :=
  (spanCores m e).flatMap fun k =>
    ((List.range 16).filter fun i =>
      decide (partOfSlot (s.coreOf k) (if i = 15 then 14 else i) = part)).map fun i => placeOf k i

/-- A switch begins: every slot's handover is due (R233). -/
def beginSwitch (s : State) (m part vf : Nat) : State :=
  match partitionOf s m part with
  | none => s
  | some e =>
    let ps := switchSlots s m part e
    let s1 := (s.modPart m part fun x => { x with next := some vf }).modMod m fun x =>
      { x with handovers := x.handovers ++ ps.map fun p => (p.key, vf) }
    if ps.isEmpty then s1.modPart m part fun x => { x with vf := some vf, next := none, since := s.ticks }
    else s1.spawns (ps.map fun p => .slotHandover p vf)

/-- The VF has a member of a collective in the module, a bound q register or a router entry, so that it is stopped as a gang
(R378, R415). -/
def gangBusy (s : State) (m vf : Nat) : Bool :=
  (s.cores.any fun e =>
    decide (dieMod (cluDie (coreClu e.1)) = m) && e.2.qs.any fun q => q.bound && decide (q.tenant = vf))
  || s.clusters.any fun e => decide (dieMod (cluDie e.1) = m) && e.2.entries.any fun x => decide (x.2.tenant = vf)

/-- The cycles of a time slice of `us` microseconds: a microsecond is 1,050 cycles (R399). -/
def sliceCycles (us : Nat) : Nat := 1050 * us

/-- The turn of a partition lasts: its VF has a launch in progress, and its SLICE has not passed (R378). -/
def turnLasts (s : State) (m part : Nat) (e : Partition) : Bool :=
  match e.vf with
  | none => false
  | some v =>
    (runningVfs s m part).contains v && decide (s.ticks < e.since + sliceCycles (s.policy m v).slice)

/-- TIME_SLICE_EXPIRY (R378): the next VF with a launch in progress takes the partition. -/
def execTimeSliceExpiry (m part : Nat) (s : State) : Host.Outcome State Fault Refusal :=
  match partitionOf s m part with
  | none => .next s
  | some e =>
    if e.next.isSome then .next s
    else if turnLasts s m part e then .next (s.again (.timeSliceExpiry m part))
    else
      match nextVf s m part e.vf with
      | none => .next s
      | some v =>
        if e.vf = some v then .next (s.modPart m part fun x => { x with since := s.ticks })
        else
          match e.vf with
          | some o => if gangBusy s m o then .next (s.spawn (.gangQuery m o)) else .next (beginSwitch s m part v)
          | none => .next (beginSwitch s m part v)

/-- The outgoing strand of a slot, or the fact that there is none, goes to the outgoing VF's region (R233). -/
def handOut (s : State) (p : Place) (out : Option Nat) : State :=
  let x := s.strand p
  if x.live then
    let (area, s1) := saveStrand s p
    let s2 := writeArea s1 p area
    regionWrite s2 x.tenant p.coreKey (0x400 * p.slot) 0x400 area
  else
    match out with
    | none => s
    | some v => regionWrite s v p.coreKey (0x400 * p.slot) 8 noRecord

/-- The incoming VF's record of a slot is loaded, if one exists (R233). -/
def handIn (s : State) (p : Place) (vf : Nat) : State :=
  match regionRead s vf p.coreKey (0x400 * p.slot) 0x400 with
  | (none, s1) => s1
  | (some area, s1) =>
    if area % 2 ^ 64 = noRecord then s1 else loadStrand (writeArea s1 p area) p area true

/-- What follows the change of a slot: the tiles after the last slot of a core, the end of the switch after the
last slot of the partition (R234, R378). -/
def afterHandover (s : State) (p : Place) (part vf : Nat) (out : Option Nat) : State :=
  let more (k : Nat) : Bool := (s.modOf p.mod).handovers.any fun h => decide (h.2 = vf ∧ h.1 / 16 = k)
  let s1 :=
    if more p.coreKey then s
    else
      let t := match out with
        | some v => saveTiles s v p.coreKey part
        | none => s
      pokeEngine (loadTiles t vf p.coreKey part) p.cluKey
  if (s1.modOf p.mod).handovers.any fun h => decide (h.2 = vf) then s1
  else
    let s2 := s1.modPart p.mod part fun x => { x with vf := some vf, next := none, since := s.ticks }
    let s3 := if (runningVfs s2 p.mod part).length ≤ 1 then s2 else s2.spawn (.timeSliceExpiry p.mod part)
    s3.spawn (.gangResume p.mod vf)

/-- SLOT_HANDOVER (R233): in the slot's own issue position; the outgoing strand stops first. -/
def execSlotHandover (p : Place) (vf : Nat) (s : State) : Host.Outcome State Fault Refusal :=
  let x := s.strand p
  let part := (s.policy p.mod vf).part
  let wait (t : State) : Host.Outcome State Fault Refusal := .next (t.again (.slotHandover p vf))
  if ((s.modOf p.mod).handovers.contains (p.key, vf)) = false then .next s
  else if s.now p.mod % 16 ≠ p.slot then wait s
  else if x.live && decide (x.st ≠ .handover) && !mayStop s p then wait s
  else if x.live && matrixBusy s p then wait (if x.st = .handover then s else holdForSave s p)
  else
    let out := (partitionOf s p.mod part).bind (·.vf)
    let s1 := handIn (handOut s p out) p vf
    let s2 := s1.modMod p.mod fun y => { y with handovers := y.handovers.filter fun h => decide (h ≠ (p.key, vf)) }
    .next (afterHandover s2 p part vf out)

/-! ### SPART (R228) -/

/-- The request number that stands for a conversion. -/
def askSpart : Nat := 29

/-- SPART (R228). -/
def execSpart (d a : GReg) (imm : BitVec 13) (s : State) : Host.Outcome State Fault Refusal :=
  let n := ((rg s a).toNat + imm.toNat * 1024) % 2 ^ 64
  finish s (Act.res (do
    needSuper 0x65
    match unitAnswer s.me with
    | some (_, v) => change fun t => wg t d (word v)
    | none =>
      if n % 16384 ≠ 0 ∨ 288 * 1024 < n then change fun t => wg t d (word 0xFFFFFFFFFFFFFFFF)
      else if hasAsked s.me askSpart then parkOn .mem
      else fun t =>
        let r : SpartReq := { src := t.cur, ways := n / 16384 }
        let t1 := (ask t askSpart).modMyClu fun c => { c with busy := true, spart := c.spart ++ [r] }
        .error (.park .mem true (t1.spawn (.spartConversion t.cur.cluKey)))) s)

/-- The bytes that an operation of the IXE names; for a posting those of the rows that its indices name as well. -/
def opRuns (s : State) (o : IxOp) : List (Nat × Nat) :=
  let d := o.desc
  let row (e : Nat) : List (Nat × Nat) :=
    let iw := dfield d 0x28 4
    match ixRead s o (addrAdd (dfield d 8 8 % addrSpace) (e * iw : Nat)) iw with
    | .error _ => []
    | .ok (x, _) => [(addrAdd (dfield d 0 8 % addrSpace) (x * dfield d 0x20 8 : Nat), dfield d 0x18 4)]
  if o.eupd then updRuns d o.daddr (((tableOf s o.who.mod o.tenant o.table).map UpdTable.len).getD 0)
  else ixRuns d ++ o.todo.flatMap row

/-- An operation of an engine names the scratchpad window of a cluster (R228). -/
def engineNames (s : State) (clu : Nat) : Bool :=
  s.clusters.any fun e =>
    (e.2.bte.queue ++ e.2.bte.active).any (fun x => (xRuns x.regs).any (namesSpad s clu))
    || (e.2.ixe.queue ++ e.2.ixe.active).any (fun o => (opRuns s o).any (namesSpad s clu))
    || e.2.kctx.any fun x => decide (x.2.st = 1) && (ctxRuns x.2.desc x.2.query x.2.bag).any (namesSpad s clu)

/-- A matrix operation in a queue of the cluster accesses the scratchpad window. -/
def tilesName (s : State) (clu : Nat) : Bool :=
  (List.range 16).any fun c => (s.coreOf (clu * 16 + c)).mq.any fun q =>
    q.any fun o => decide (o.kind = .tld ∨ o.kind = .tst) && (List.range (shRows o.shD)).any fun i =>
      namesSpad s clu (rowAddr o.ptr o.stride i, rowBytes o.shD (if o.kind = .tld then popCount 64 (nth 0 o.masks i) else shCols o.shD))

/-- A strand of the cluster has pushes that are not stored yet (R192). -/
def pushesWait (s : State) (clu : Nat) : Bool :=
  (List.range 16).any fun c => (s.coreOf (clu * 16 + c)).units.any fun u => !u.pushes.isEmpty

/-- The request number of a PLBINV or CFLUSH that waits for its accesses. -/
def askFlush : Nat := 37

/-- A PLBINV or CFLUSH that was issued before waits for its accesses (R324). -/
def flushWaits (s : State) : Bool := s.strands.any fun e => hasAsked e.2 askFlush

/-- Accesses to the cluster's L1s and scratchpad are in flight (R228, R286). -/
def cluFlight (s : State) (clu : Nat) : Bool :=
  (s.net.any fun m =>
    decide (m.src.cluKey = clu) &&
      match m.body with
      | .read _ _ _ fill waits => fill || waits
      | .write _ _ _ _ _ _ => false
      | .amo _ _ _ _ _ _ posted => !posted
      | .probe _ _ => false)
    || (s.replies.any fun r => decide (r.dst.cluKey = clu))
    || (s.cluOf clu).kctx.any (fun e => decide (e.2.st = 1)) || engineNames s clu || tilesName s clu
    || pushesWait s clu || flushWaits s

/-- Convert the ways of a cluster (R228). -/
def convertWays (s : State) (clu new : Nat) : State :=
  let old := (s.cluOf clu).spways
  let keep := Nat.min old new * 2 ^ 18
  let taken (l : L1Line) : Bool := decide (old ≤ l.way ∧ l.way < new)
  let core (t : State) (c : Nat) : State :=
    let k := clu * 16 + c
    let ls := (t.coreOf k).l1
    let t1 := (ls.filter taken).foldl (fun u l => sendLineWb u k l) t
    if ls.any taken then t1.modCore k fun x => { x with l1 := x.l1.filter fun l => !taken l } else t1
  ((List.range 16).foldl core s).modClu clu fun c =>
    { c with spways := new, spad := c.spad.filter fun e => decide (e.1 < keep),
             spadPoison := c.spadPoison.filter fun w => decide (8 * w < keep) }

/-- SPART_CONVERSION (R228): once nothing is in flight; then the next request, or the end of BUSY. -/
def execSpartConversion (clu : Nat) (s : State) : Host.Outcome State Fault Refusal :=
  match (s.cluOf clu).spart with
  | [] => .next s
  | r :: rest =>
    if cluFlight s clu then .next (s.again (.spartConversion clu))
    else
      let old := (s.cluOf clu).spways
      let s1 := (convertWays s clu r.ways).modClu clu fun c => { c with spart := rest, busy := !rest.isEmpty }
      let s2 := (giveAnswer s1 r.src 0 (old * 16384)).wakeClu clu [.mem]
      .next (if rest.isEmpty then s2 else s2.spawn (.spartConversion clu))

end Sys2Proof.Machine
end

