-- ==== Sys2Proof/Machine/Inval.lean ====
section
/-! DEFINITION. PLBINV and CFLUSH (R314, R315, R322, R323). -/

namespace Sys2Proof.Machine

open Sys2Proof

/-- The clusters of a scope around the executing strand. -/
def inScope (s : State) (sc : Scope) (clu : Nat) : Bool :=
  match sc with
  | .none | .core | .clu => decide (clu = s.cur.cluKey)
  | .die => decide (cluDie clu = s.cur.dieKey)
  | .pkg => decide (dieMod (cluDie clu) = s.cur.mod)
  | .ten | .sys => true

/-- The modules of a scope around the executing strand. -/
def modInScope (s : State) (sc : Scope) (m : Nat) : Bool :=
  match sc with
  | .none | .core | .clu | .die | .pkg => decide (m = s.cur.mod)
  | .ten | .sys => true

/-- The dies of a scope around the executing strand. -/
def dieInScope (s : State) (sc : Scope) (dk : Nat) : Bool :=
  match sc with
  | .none | .core | .clu | .die => decide (dk = s.cur.dieKey)
  | .pkg => decide (dieMod dk = s.cur.mod)
  | .ten | .sys => true

/-- A loop buffer holds a bundle that a test hits. -/
def bufHit (hit : Nat → Nat → Bool) (b : Option LoopBuf) : Bool :=
  match b with
  | none => false
  | some b => b.body.any fun e => hit e.1 8

/-- Drop instruction-cache blocks, slot fetch blocks and loop-buffer captures that a test hits (R322, R323);
levels go on by fetching. -/
def dropCode (s : State) (sel : Nat → Bool) (hit : Nat → Nat → Bool) : State :=
  let fresh (k : Nat) (x : Strand) : Strand :=
    let bs := (s.coreOf (k / 16)).lbufs
    let lvl (l : LoopLevel) : LoopLevel :=
      match l.buf with
      | none => l
      | some i => if bufHit hit (nth none bs i) then { l with buf := none } else l
    let f := match x.fblk with
      | none => none
      | some b => if hit (b.1 * 64) 64 then none else some b
    { x with fblk := f, loops := x.loops.map lvl }
  let core (c : Core) : Core := { c with lbufs := c.lbufs.map fun b => if bufHit hit b then none else b }
  let clu (c : Cluster) : Cluster := { c with icache := c.icache.filter fun b => !hit (b.blk * 64) 64 }
  { s with
    strands := s.strands.map fun e => if sel (e.1 / 256) then (e.1, fresh e.1 e.2) else e
    cores := s.cores.map fun e => if sel (e.1 / 16) then (e.1, core e.2) else e
    clusters := s.clusters.map fun e => if sel e.1 then (e.1, clu e.2) else e }

/-- Bundles that hold answers for sectors that a test hits ask again (R314). -/
def dropAnswers (s : State) (sel : Nat → Bool) (hit : Nat → Access → Bool) : State :=
  let keep : Resp → Bool
    | .sector sec k _ _ _ _ => !hit sec k
    | .old _ _ _ | .unit _ _ | .released => true
  let stale (x : Strand) (k : Nat) : Bool :=
    decide (k % 8 ≤ 4) && x.resps.any fun r =>
      match r with
      | .sector sec kd _ _ _ _ => hit sec kd && decide (k = askKey sec kd)
      | _ => false
  let f (x : Strand) : Strand :=
    if x.resps.all keep then x
    else { x.unask (stale x) with resps := x.resps.filter keep }
  { s with strands := s.strands.map fun e => if sel (e.1 / 256) then (e.1, f e.2) else e }

/-! ### PLBINV (R322) -/

/-- The L1 sectors that a test names go: their dirty bytes to their homes first; and no fill on its way of a sector that
`q` names enters an L1. -/
def flushL1 (s : State) (sel : Nat → Bool) (p : Nat → L1Sec → Bool) (q : Nat → Bool) : State :=
  let ks := (s.cores.map (·.1)).filter fun k => sel (coreClu k)
  ks.foldl (fun t k => (dropWhere (writeBackWhere t k p) k p).noFill k q) s

/-- The pushes of the strands of a scope, checked before, are stored (R322). -/
def storePushes (s : State) (sel : Nat → Bool) : State :=
  let ks := s.strands.filter fun e => sel (Place.ofKey e.1).cluKey
  ks.foldl (fun t e => drainPushes t (Place.ofKey e.1)) s

/-- The slices of a die write back the dirty sectors of a page and drop them, pinned lines excepted. -/
def flushL2 (page : Nat) (s : State) (dk : Nat) : State :=
  let mine (l : L2Line) : Bool := decide (l.line / 2 ^ 11 = page) && !l.pinned
  let ls := (s.dieOf dk).l2.filter mine
  if ls.isEmpty then s
  else
    (s.modMod (dieMod dk) fun x => ls.foldl l2WriteBack x).modDie dk fun d => { d with l2 := d.l2.filter fun l => !mine l }

/-- The sector that a message is about. -/
def MsgBody.sec : MsgBody → Option Nat
  | .read sec _ _ _ _ => some sec
  | .write sec _ _ _ _ _ => some sec
  | .amo a _ _ _ _ _ _ => some (a / 128)
  | .probe _ _ => none

/-- A message of a scope, wherever it is, an answer, a queued TLD or TST or a queued read of the lookup engine that was
checked before, about a sector that a test names (R210, R301, R322). -/
def inFlight (s : State) (mods clus : Nat → Bool) (hit : Nat → Bool) : Bool :=
  (s.cores.any fun e => clus (coreClu e.1) && e.2.mq.any fun q => q.any fun o => o.attrs.any fun a => hit a.1)
    || (s.clusters.any fun e => clus e.1 && e.2.kctx.any fun k => k.2.reads.any fun r => hit (r.addr / 128))
    || (s.net.any fun m => (mods m.src.mod || mods m.loc) &&
    match m.body.sec with
    | none => false
    | some sec => hit sec && (m.attr.isSome ||
        match m.body with
        | .write _ _ _ _ _ _ | .amo _ _ _ _ _ _ _ => true
        | .read _ _ _ _ _ | .probe _ _ => false))
    || s.replies.any fun r => mods r.dst.mod &&
      match r.resp with
      | .sector sec _ _ _ _ _ => hit sec
      | .old _ _ _ | .unit _ _ | .released => false

/-- What a page invalidation drops in a scope. -/
def dropPage (s : State) (sc : Scope) (page : Nat) : State :=
  let hit (a n : Nat) : Bool := decide (pageOf a = page ∨ pageOf (a + n - 1) = page)
  let s1 := flushL1 (storePushes s (inScope s sc)) (inScope s sc) (fun a _ => decide (pageOf a = page ∧ bitAt a 55 = false))
    fun sec => decide (pageOf (sec * 128) = page)
  let s2 := dropAnswers (dropCode s1 (inScope s sc) hit) (inScope s sc) fun sec _ => decide (pageOf (sec * 128) = page)
  let dies := (s2.dies.map (·.1)).filter (dieInScope s sc)
  dies.foldl (fun t dk => t.modDie dk fun d =>
    { d with leafCache := d.leafCache.filter (·.1 ≠ page), walks := d.walks.filter (·.1 ≠ page) }) s2

/-- The slices of the dies of a scope lose a page. -/
def dropSlices (s : State) (sc : Scope) (page : Nat) : State :=
  ((s.dies.map (·.1)).filter (dieInScope s sc)).foldl (flushL2 page) s

/-- What an invalidation by domain drops in a scope. -/
def dropDoms (s : State) (sc : Scope) (tenant : Nat) (doms : Nat → Bool) : State :=
  let own (x : L1Sec) : Bool := decide (x.tenant = tenant) && doms x.attr.dom
  let s1 := flushL1 (storePushes s (inScope s sc)) (inScope s sc) (fun _ x => own x) fun _ => true
  let keep (e : PlbEntry) : Bool := !(decide (e.tenant = tenant) && doms e.dom)
  { s1 with cores := s1.cores.map fun e =>
      if inScope s sc (coreClu e.1) then (e.1, { e.2 with plb := e.2.plb.filter keep }) else e }

/-- The dies that a PLBINV acts on: DESIGN CHOICE (log 48), a scope clamped below DIE takes the own die. -/
def dieScope : Scope → Scope
  | .none | .core | .clu | .die => .die
  | .pkg => .pkg
  | .ten => .ten
  | .sys => .sys

/-- The common course of PLBINV: release, drop, wait for what was checked before, drop what that has left, wait for its
write-backs, acquire. One that follows an SPART of a cluster in its scope waits for it (R324). -/
def plbinv (sc : Scope) (drop fin : Scope → State → State) (hit : Nat → Bool) : Act Unit := do
  needSuper 0x63
  let S ← clamp sc
  let D := dieScope S
  release S
  let s ← here
  if hasAsked s.me askFlush then
    let t := drop D s
    if inFlight s (modInScope s D) (inScope s D) hit then pollMem
    else if inFlight t (modInScope s D) (inScope s D) hit then stop (.park .mem true (t.spawn (.memResponse s.cur)))
    else do
      change fun u => fin D (drop D u)
      acquire S
      noteClamp sc
  else if s.clusters.any fun e => e.2.busy && inScope s D e.1 then pollMem
  else fun t =>
    .error (.park .mem true ((ask (drop D t) askFlush).spawn (.memResponse t.cur)))

/-- PLBINV.page (R322). -/
def execPlbinvPage (a : GReg) (sc : Scope) (s : State) : Host.Outcome State Fault Refusal :=
  let page := bits (rg s a).toNat 55 21
  finish s (Act.res (plbinv sc (fun S t => dropPage t S page) (fun S t => dropSlices t S page)
    (fun sec => decide (pageOf (sec * 128) = page))) s)

/-- PLBINV.dom (R322). -/
def execPlbinvDom (a : GReg) (sc : Scope) (s : State) : Host.Outcome State Fault Refusal :=
  let dom := (rg s a).toNat % 2 ^ 12
  finish s (Act.res (plbinv sc (fun S t => dropDoms t S t.tenant fun x => decide (x = dom)) (fun _ t => t)
    (fun _ => true)) s)

/-- PLBINV.vf (R322). -/
def execPlbinvVf (sc : Scope) (s : State) : Host.Outcome State Fault Refusal :=
  finish s (Act.res (plbinv sc (fun S t => dropDoms t S t.tenant fun _ => true) (fun _ t => t)
    (fun _ => true)) s)

/-! ### CFLUSH (R323) -/

/-- Bytes of this core that CFLUSH sent are still on their way. -/
def flushing (s : State) (a len : Nat) : Bool :=
  s.net.any fun m => decide (m.src.coreKey = s.cur.coreKey) &&
    match m.body with
    | .write sec _ _ _ _ wb => wb && overlaps a len (sec * 128) 128
    | .read _ _ _ _ _ | .amo _ _ _ _ _ _ _ | .probe _ _ => false

/-- A fetch of the range was answered and has not arrived. -/
def fetching (s : State) (sel : Nat → Bool) (a len : Nat) : Bool :=
  s.replies.any fun r => sel r.dst.cluKey &&
    match r.resp with
    | .sector sec k _ _ _ _ => decide (k = .fetch) && overlaps a len (sec * 128) 128
    | .old _ _ _ | .unit _ _ | .released => false

/-- The common course of CFLUSH: dirty bytes go home; the strand waits for them. -/
def cflush (a len : Nat) (keep : Bool) (busy : State → Bool) (fin : State → State) : Act Unit := fun s =>
  let k := s.cur.coreKey
  let p (b : Nat) (_ : L1Sec) : Bool := overlaps a len b 128
  if hasAsked s.me askFlush then
    (if busy s then pollMem s else .ok ((), fin s))
  else if len = 0 then .ok ((), s)
  else if s.clu.busy then parkOn .mem s
  else
    let s1 := writeBackWhere s k p
    let s2 := if keep then s1 else (dropWhere s1 k p).noFill k fun sec => overlaps a len (sec * 128) 128
    .error (.park .mem true ((ask s2 askFlush).spawn (.memResponse s.cur)))

/-- CFLUSH.code (R323). -/
def execCflushCode (a b : GReg) (sc : Scope) (s : State) : Host.Outcome State Fault Refusal :=
  let x := addrOf (rg s a)
  let n := fld (rg s b) 31 0
  finish s (Act.res (do
    let S ← clamp sc
    cflush x n false (fun t => flushing t x n || fetching t (inScope t S) x n) fun t =>
      dropAnswers (dropCode t (inScope t S) (overlaps x n)) (inScope t S) fun sec k =>
        decide (k = .fetch) && overlaps x n (sec * 128) 128
    noteClamp sc) s)

/-- CFLUSH.wb (R323). -/
def execCflushWb (a b : GReg) (s : State) : Host.Outcome State Fault Refusal :=
  let x := addrOf (rg s a)
  let n := fld (rg s b) 31 0
  finish s (Act.res (cflush x n true (fun t => flushing t x n) id) s)

/-- CFLUSH.inv (R323). -/
def execCflushInv (a b : GReg) (s : State) : Host.Outcome State Fault Refusal :=
  let x := addrOf (rg s a)
  let n := fld (rg s b) 31 0
  finish s (Act.res (cflush x n false (fun t => flushing t x n) id) s)

end Sys2Proof.Machine
end

