-- ==== Sys2Proof/Machine/Homes.lean ====
section
/-! DEFINITION. What becomes of a request at a home slice: translation, the way to the package that holds the
part, relays, the access itself and its answer; release probes; errors of the memories (R304-R315, R320,
R331-R334, R399, R418, R427-R429). -/

namespace Sys2Proof.Machine

open Sys2Proof

/-! ### Parts of a message -/

/-- A prefetch, for which nothing waits (R160). -/
def MsgBody.isPrefetch : MsgBody → Bool
  | .read _ _ _ _ waits => !waits
  | .write _ _ _ _ _ _ | .amo _ _ _ _ _ _ _ | .probe _ _ => false

/-- A release probe. -/
def MsgBody.isProbe : MsgBody → Bool
  | .probe _ _ => true
  | .read _ _ _ _ _ | .write _ _ _ _ _ _ | .amo _ _ _ _ _ _ _ => false

def MsgBody.isAmo : MsgBody → Bool
  | .amo _ _ _ _ _ _ _ => true
  | .read _ _ _ _ _ | .write _ _ _ _ _ _ | .probe _ _ => false

/-- The attributes with which the core made a write or an atomic (R153, R315). -/
def MsgBody.given : MsgBody → Option Attr
  | .write _ _ _ _ at' _ => some at'
  | .amo _ _ _ _ _ at' _ => some at'
  | .read _ _ _ _ _ | .probe _ _ => none

/-- The step that serves a message. -/
def Msg.event (m : Msg) : Event :=
  match m.body with
  | .amo _ _ _ _ _ _ _ => .farAtomicExecute m.loc m.src
  | .probe g _ => .releaseProbe m.loc m.src g
  | .read _ _ _ _ _ | .write _ _ _ _ _ _ => .homeSliceRequest m.loc m.src

/-- The home slice of a message in a module: the key of its die, and the slice. -/
def Msg.sliceIn (s : State) (m : Msg) (k : Nat) : Nat × Nat :=
  let (die, slice, _) := homeOf s k m.tenant m.body.addr
  (dieKey k die, slice)

/-- The home slice of a message where it stands. -/
def Msg.home (s : State) (m : Msg) : Nat × Nat := m.sliceIn s m.loc

/-- The home slice in the requester's own package: the requesting node. -/
def Msg.node (s : State) (m : Msg) : Nat × Nat := m.sliceIn s m.src.mod

/-- The number of the requesting node (R426). -/
def Msg.nodeKey (s : State) (m : Msg) : Nat := (m.node s).1 * 128 + (m.node s).2

/-- The node of Mortar beside a message's home slice in a module (R308). -/
def Msg.nodeIn (s : State) (m : Msg) (k : Nat) : Nat := sliceNode (m.sliceIn s k).1 (m.sliceIn s k).2

/-- The message stands at its requester's own package and has not been relayed. -/
def Msg.atHome (m : Msg) : Bool := decide (m.loc = m.src.mod ∧ m.hops = 0)

/-- Two messages about one part. -/
def Msg.samePart (m x : Msg) : Bool :=
  decide (m.tenant = x.tenant ∧ pageOf m.body.addr = pageOf x.body.addr ∧ partOf m.body.addr = partOf x.body.addr)

/-- Requests of one core to one home slice keep their order (R169), and so do those that one slice of another package
has sent here, since one flow carries them (R395, R396). -/
def sameHome (s : State) (m x : Msg) : Bool :=
  let flow := !m.atHome && !x.atHome && decide (x.src.mod = m.src.mod ∧ x.node s = m.node s)
  decide (x.loc = m.loc) && (decide (x.src.coreKey = m.src.coreKey) || flow) && !x.body.isProbe
    && decide (x.home s = m.home s)

/-- One stub has relayed message `x` to the package of message `m` before it relayed `m` (R427). -/
def relayedBefore (m x : Msg) : Bool :=
  match m.via, x.via with
  | h :: _, g :: _ => decide (x.loc = m.loc ∧ g.mod = h.mod ∧ g.seq < h.seq) && g.stub && h.stub && x.samePart m && !x.back
  | _, _ => false

/-- A message waits for others: for those before it in its own order, and for the earlier relays of its stub. -/
def behind (s : State) (bef : List Msg) (m : Msg) : Bool := bef.any (sameHome s m) || s.net.any (relayedBefore m)

/-! ### Where a message goes -/

/-- What a home slice makes of a message. -/
inductive Route where
  /-- Performed here. -/
  | serve (w : Where) (at' : Attr)
  /-- Held. -/
  | wait
  /-- The table is walked first (R313, R314). -/
  | walk
  /-- Sent to the package that holds the part, with a tag, and the module of the stub that the tag counts relays of
  (R306, R429). -/
  | send (pkg tag stub : Nat) (at' : Attr)
  /-- Relayed by a stub or by the leaf (R427). -/
  | relay (pkg : Nat) (stub : Bool) (at' : Attr)
  /-- Returned with WALK status (R427, R428). -/
  | back
  /-- Absent; `owner` when another package's request reaches the owner (R418). -/
  | absent (owner : Bool) (at' : Attr)
  | bad (at' : Attr)
  | unpopulated (at' : Attr)
  /-- An entry of the table read as poison (R320, R374). -/
  | poisoned (at' : Attr)
  deriving DecidableEq, Repr

/-- The stub of a part in a module (R426). -/
def stubOf (s : State) (m page part : Nat) : Option Stub :=
  (s.modOf m).stubs.find? fun x => x.live && decide (x.page = page ∧ x.part = part)

/-- The owner cache's package for a part, if it is another one (R429). -/
def ownerHint (s : State) (dk tenant a : Nat) : Option Nat :=
  ((s.dieOf dk).ownerCache.find? fun e =>
    decide (e.1 = (tenant, pageOf a, partOf a) ∧ e.2 ≠ s.pkgOf (dieMod dk))).map (·.2)

/-- The redirect of a slice for a part (R429). -/
def redirOf (s : State) (dk slice tenant a : Nat) : Option Redir :=
  (s.dieOf dk).redirs.find? fun r =>
    decide (r.slice = slice ∧ r.tenant = tenant ∧ r.page = pageOf a ∧ r.part = partOf a)

/-- A request that a slice sent for a part earlier to another package than `pkg` is not yet answered or
redirected (R429). -/
def sentBefore (s : State) (m : Msg) (pkg : Option Nat) : Bool :=
  let a := m.body.addr
  let mine (x : Msg) : Bool :=
    decide (x.src.mod = m.src.mod) && !x.body.isProbe && x.samePart m && decide (x.node s = m.node s)
      && decide (x.loc ≠ x.src.mod ∨ x.hops ≠ 0) && decide (pkg ≠ some (s.pkgOf x.loc))
  let redirect (n : Note) : Bool :=
    match n with
    | .redirect dk slice t pg pt _ _ _ => decide ((dk, slice) = m.node s ∧ t = m.tenant ∧ pg = pageOf a ∧ pt = partOf a)
    | _ => false
  s.net.any mine || s.notes.any redirect

/-- A purge of a part has reached the requester's package (R430). -/
def purged (s : State) (m : Msg) : Bool :=
  s.notes.any fun n =>
    match n with
    | .purge k _ pg pt _ _ => decide (k = m.src.mod ∧ pg = pageOf m.body.addr ∧ pt = partOf m.body.addr)
    | _ => false

/-- Where a new request for a part of another package goes: the owner cache first, then the package's stub,
then the leaf (R427, R429). -/
def sendRoute (s : State) (m : Msg) (pkg : Nat) (at' : Attr) : Route :=
  let a := m.body.addr
  let (dk, slice) := m.home s
  let tagged (b : Nat) : Route :=
    match redirOf s dk slice m.tenant a with
    | some r => if r.pkg = b then .send b r.count r.stub at' else .send b 0 0 at'
    | none => .send b 0 0 at'
  let held :=
    match redirOf s dk slice m.tenant a with
    | some r => sentBefore s m (some r.pkg)
    | none => false
  if purged s m || held then .wait
  else
    match ownerHint s dk m.tenant a with
    | some b => tagged b
    | none =>
      match stubOf s m.loc (pageOf a) (partOf a) with
      | some x => .relay x.target true at'
      | none => tagged pkg

/-- The frame that a write or an atomic, checked before, is performed at (R315); no L2 allocates its line, which the leaf
does not locate here (R306, R438). -/
def frameRoute (at' : Attr) (l a : Nat) : Route :=
  match leafAper l with
  | 0 => .serve (.here (leafPhys l a) false) { at' with c := false }
  | 2 => .serve (.host (leafPhys l a)) at'
  | 3 => .serve (.pinned (a % 2 ^ 34)) at'
  | _ => .absent false at'

/-- A check that would fail on a cached leaf is repeated on a fresh one (R314, R433, R434). -/
def failsHere (m : Msg) (l : Nat) (w : Where) : Bool :=
  let a := m.body.addr
  let at' := attrOf l a 0
  decide (w = .absent) ||
    match m.body with
    | .read _ k _ _ _ =>
      let remote := match w with
        | .other _ => true
        | .here _ _ | .pinned _ | .host _ | .absent | .bad | .unpopulated => false
      !leafAllows at' k || (decide (k = .store ∨ k = .atomic) && at'.dup)
        || (decide (k = .atomic) && remote && !at'.rap)
    | .write _ _ _ _ _ _ | .amo _ _ _ _ _ _ _ | .probe _ _ => false

/-- A request for a store or an atomic, whose check a duplicate fails (R433). -/
def MsgBody.wantsWrite : MsgBody → Bool
  | .read _ k _ _ _ => decide (k = .store ∨ k = .atomic)
  | .write _ _ _ _ _ _ | .amo _ _ _ _ _ _ _ | .probe _ _ => false

/-- Where a part is for a request at its own home slice: the owner cache comes before a leaf that does not locate the part
in the package (R429). -/
def homeWhere (s : State) (m : Msg) (l : Nat) : Where :=
  match locate s m.loc m.tenant m.body.addr l, ownerHint s (m.home s).1 m.tenant m.body.addr with
  | .absent, some b => if leafV l || m.body.given.isSome then .other b else .absent
  | w, _ => w

/-- A new request at its own home slice (R306, R313-R315, R418). -/
def homeRoute (s : State) (m : Msg) (l : Nat) : Route :=
  let a := m.body.addr
  let at' := attrOf l a (s.pkgOf m.loc)
  let w := homeWhere s m l
  if m.walk.isNone && failsHere m l w then .walk
  else
    match w with
    | .here ph d => .serve (.here ph d) at'
    | .pinned o => .serve (.pinned o) at'
    | .host ph => .serve (.host ph) at'
    | .other pkg => sendRoute s m pkg (if leafV l then at' else m.body.given.getD at')
    | .bad => .bad at'
    | .unpopulated => .unpopulated at'
    | .absent =>
      match m.body.given with
      | none => .absent false at'
      | some g =>
        match stubOf s m.loc (pageOf a) (partOf a) with
        | some x => .relay x.target true g
        | none =>
          if leafV l then frameRoute at' l a
          else if g.holder = s.pkgOf m.loc then frameRoute g g.leaf a
          else sendRoute s m g.holder g

/-- A tagged request waits until as many relays of its node by the stub of the tag are performed here, where they are
counted (R429). -/
def tagWaits (s : State) (m : Msg) : Bool :=
  let a := m.body.addr
  match (s.modOf m.loc).performed.find? fun e =>
      decide (e.1 = (m.tenant, pageOf a, partOf a, m.nodeKey s, m.tagStub)) with
  | some e => decide (e.2 < m.tag)
  | none => false

/-- A request of another package, or a relayed one, where it has arrived (R418, R427, R428). A leaf that does not locate
the part here, or by which a check would fail, is walked afresh first (R433, R438). -/
def guestRoute (s : State) (m : Msg) (l : Nat) : Route :=
  let a := m.body.addr
  let at' := attrOf l a (s.pkgOf m.loc)
  let again (pkg : Nat) (stub : Bool) : Route := if 2 ≤ m.hops then .back else .relay pkg stub at'
  let w := locate s m.loc m.tenant a l
  if 0 < m.tag ∧ tagWaits s m then .wait
  else if m.walk.isNone && (!w.inside || (at'.dup && m.body.wantsWrite)) then .walk
  else
    match w with
    | .here ph d => .serve (.here ph d) at'
    | .pinned o => .serve (.pinned o) at'
    | .host ph => .serve (.host ph) at'
    | .bad => .bad at'
    | .unpopulated => .unpopulated at'
    | .other pkg =>
      (match stubOf s m.loc (pageOf a) (partOf a) with
       | some x => again x.target true
       | none => again pkg false)
    | .absent =>
      match stubOf s m.loc (pageOf a) (partOf a) with
      | some x => again x.target true
      | none =>
        if leafV l = false then .back
        else if m.body.given.isSome then frameRoute at' l a
        else .absent true at'

/-- The leaf for a message (R313): of an L2 line that it hits, cached, or none where the table must be walked. A walk that
met poison gives `some none`. -/
def msgLeaf (s : State) (m : Msg) : Option (Option Nat) :=
  let a := m.body.addr
  let hit := if m.walk.isNone then l2Leaf s m.loc m.tenant a else none
  match m.walk, hit, (s.dieOf (m.home s).1).leafCache.find? fun e => decide (e.1 = pageOf a) with
  | some none, _, _ => some none
  | _, some l, _ => some (some l)
  | _, none, some e => some (some e.2)
  | w, none, none => if w = some (some 0) then some (some 0) else none

/-- The route of a message at its package. -/
def route (s : State) (m : Msg) : Route :=
  let a := m.body.addr
  let way (l : Nat) : Route := if m.atHome then homeRoute s m l else guestRoute s m l
  if frameWindow ≤ a then .serve (.here (a - frameWindow) false) (attrFrame (s.pkgOf m.loc))
  else
    match msgLeaf s m with
    | none => .walk
    | some none => if m.body.given.isSome then way 0 else .poisoned (attrOf 0 a (s.pkgOf m.loc))
    | some (some l) =>
      match way l with
      | .serve w at' => if frozen s m.loc a then .wait else .serve w at'
      | r => r

/-! ### Performing a request and answering it -/

/-- No way leads from a package to another: the Ochre cores declare the path failed (R398). -/
def pathGone (s : State) (m pkg : Nat) : State :=
  if (s.modOf m).failedPaths.contains pkg then s else spawnOnce s (.pathFailed m pkg)

/-- The cycles that a packet takes at least from a node to the edge router by which it enters a link (R389, R396). -/
def toLink (f : Frame) (node : Nat) : Nat := flight node (nearestEdge (f.link / 4) node)

/-- An answer sets out (R389): to a core of its package, or over a link as a frame (R396, R397); an answer that no link
takes on is lost (R399). -/
def sendReply (s : State) (m : Msg) (r : Reply) : State :=
  let n := m.nodeIn s m.loc
  if m.loc = m.src.mod then s.reply { r with node := n, due := s.ticks + flight n (placeNode m.src) }
  else
    match sendFrame s m.loc (s.pkgOf m.src.mod) m.tenant none (Config.flowHash n (placeNode m.src) 1) with
    | none => pathGone s m.loc (s.pkgOf m.src.mod)
    | some (f, s1) =>
      State.spawn { s1 with replies := s1.replies ++ [{ r with node := n, link := some f, due := s.ticks + toLink f n }] }
        (.linkFrameReceive f.into (f.link / 4))

/-- An answer to the requester of a message, if it waits for one. -/
def answerMsg (s : State) (m : Msg) (st : LineStatus) (at' : Attr) (data poison : Nat) : State :=
  match m.body with
  | .read sec k d fill waits =>
    if waits || (fill && d && decide (st = .ok)) then
      sendReply s m { dst := m.src, resp := .sector sec k st at' data poison, fill := fill && d, waits := waits,
                      old := m.old && d, link := none, node := 0, due := 0 }
    else s
  | .amo _ _ _ _ _ _ posted =>
    if posted then s
    else sendReply s m { dst := m.src, resp := .old st data (decide (poison ≠ 0)), fill := false, waits := true,
                         old := false, link := none, node := 0, due := 0 }
  | .write _ _ _ _ _ _ | .probe _ _ => s

/-- The attributes that return to the requester: its own leaf's, the holder, and whether the part is duplicated
in either leaf (R313, R432). -/
def replyAttr (s : State) (m : Msg) (at' : Attr) : Attr :=
  match m.attr with
  | none => { at' with holder := s.pkgOf m.loc }
  | some r => { r with holder := s.pkgOf m.loc, dup := r.dup || at'.dup }

/-- A far atomic at its home (R331): its old value, and whether that was poisoned. -/
def performAmo (s : State) (m : Msg) (t : Target) (a : Nat) (wid : Width) (op : AmoOp) (v e : Nat) :
    Except Fail (Nat × Bool × State) :=
  match readTarget s t m.tenant a with
  | .error f => .error f
  | .ok (d, po, s1) =>
    let w := wid.bytes
    let old := d / 256 ^ (a % 128) % 256 ^ w
    if poisonHit po a w then .ok (old, true, s1)
    else
      match amoNew op w old v e with
      | none => .ok (old, false, s1)
      | some x =>
        match writeTarget s1 t m.tenant a (maskRange (a % 128) w) (x % 256 ^ w * 256 ^ (a % 128)) 0 with
        | .error f => .error f
        | .ok s2 => .ok (old, false, s2)

/-- A message that fails where it would be performed: host memory with no port up is logged (R379, log 40). -/
def failMsg (s : State) (m : Msg) (f : Fail) : State :=
  if f = .portDown then s.logErr (m.home s).1 m.tenant 11 0 else s

/-- The strand of an answer may make the access that it asked for, as far as it can be told without waiting (R160, R316):
a prefetch without the right is dropped, at the home and at the core. -/
def mayPrefetch (s : State) (p : Place) (k : Access) (at' : Attr) : Bool :=
  let x := s.strand p
  let rights :=
    if at'.dom = 0xFFF then superRights x.mode
    else
      match plbFind (s.coreOf p.coreKey) x.tenant at'.dom with
      | some e => e.rights
      | none =>
        match rightsByte s p.mod x.tenant at'.dom with
        | .ok (r, _) => r
        | .error _ => 0
  leafAllows at' k && rightsAllow rights k && !(decide (k = .store) && at'.dup)

/-- The place is in host memory. -/
def Where.onHost : Where → Bool
  | .host _ => true
  | .here _ _ | .pinned _ | .other _ | .absent | .bad | .unpopulated => false

/-- Perform a message where the part is (R306, R331), and answer it. A check alone fails where host memory cannot be
reached, too (R379). -/
def performMsg (s : State) (m : Msg) (w : Where) (at' : Attr) : State :=
  let t : Target := { mod := m.loc, place := w, attr := at', home := at' }
  let r := replyAttr s m at'
  match m.body with
  | .read sec k d _ waits =>
    if !waits && !mayPrefetch s m.src k r then s
    else if d then
      match readTarget s t m.tenant (sec * 128) with
      | .error f => answerMsg (failMsg s m f) m .unpopulated r 0 0
      | .ok (x, po, s1) => answerMsg s1 m .ok r x po
    else if w.onHost && !hostUp s m.loc then answerMsg (failMsg s m .portDown) m .unpopulated r 0 0
    else answerMsg s m .ok r 0 0
  | .write sec mask x po _ _ =>
    match writeTarget s t m.tenant (sec * 128) mask x po with
    | .error f => failMsg s m f
    | .ok s1 => s1
  | .amo a wid op v e _ posted =>
    match performAmo s m t a wid op v e with
    | .error f => answerMsg (failMsg s m f) m .unpopulated r 0 0
    | .ok (old, bad, s1) =>
      let s2 := if bad && posted then (s1.logErr (m.home s).1 m.tenant 6 a).count (m.home s).1 2 else s1
      answerMsg s2 m .ok r old (b2n bad)
  | .probe _ _ => s

/-- The relays of a message, the latest first, are acknowledged (R427). -/
def ackHops (s : State) (m : Msg) : List Hop → State
  | [] => s
  | h :: rest =>
    let a := m.body.addr
    let prev := match rest with
      | g :: _ => if g.stub then some g.mod else none
      | [] => none
    ackHops ((s.note (.relayAck h.mod (pageOf a) (partOf a) m.tenant h.stub (m.nodeKey s) prev)).spawn
      (.relayAck h.mod (pageOf a) (partOf a))) m rest

def ackRelays (s : State) (m : Msg) : State := ackHops s m m.via

/-- One more relay of a node by a stub has been performed (R429). -/
def countPerformed (x : Module) (k : Nat × Nat × Nat × Nat × Nat) : Module :=
  let n := match x.performed.find? fun e => decide (e.1 = k) with
    | some e => e.2
    | none => 0
  { x with performed := (k, n + 1) :: x.performed.filter fun e => decide (e.1 ≠ k) }

/-- A relay by a stub has come to its end here (R429). DEDUCED (log 65): one that is answered without an access, or is
returned with WALK status, counts like one that is performed, since no tag could be reached otherwise. -/
def countRelay (s : State) (m : Msg) : State :=
  match m.via with
  | [] => s
  | h :: _ =>
    if h.stub then
      s.modMod m.loc fun x =>
        countPerformed x (m.tenant, pageOf m.body.addr, partOf m.body.addr, m.nodeKey s, h.mod)
    else s

/-- What a relayed message leaves at the package that holds the part: its count, and a redirect by the last
stub (R429). -/
def afterRelay (s : State) (m : Msg) : State :=
  let a := m.body.addr
  let (dk, slice) := m.node s
  let s1 := countRelay s m
  match m.via with
  | [] => s1
  | h :: _ =>
    if h.stub = false then s1
    else
      match h.count with
      | none => s1
      | some c =>
        (s1.note (.redirect dk slice m.tenant (pageOf a) (partOf a) (s.pkgOf m.loc) c h.mod)).spawn
          (.redirect dk (pageOf a) (partOf a))

/-- The first answer of the redirected package ends the tags of a slice (R429). -/
def endTag (s : State) (m : Msg) : State :=
  if m.tag = 0 then s
  else
    let (dk, slice) := m.node s
    let a := m.body.addr
    let other (r : Redir) : Bool :=
      decide (¬(r.slice = slice ∧ r.tenant = m.tenant ∧ r.page = pageOf a ∧ r.part = partOf a ∧ r.pkg = s.pkgOf m.loc))
    s.modDie dk fun d => { d with redirs := d.redirs.filter other }

/-- A stub counts a relay of a requesting node: 64 nodes, 16 bits (R426, R427). -/
def countNode (cs : List (Nat × Nat)) (node : Nat) : List (Nat × Nat) × Option Nat :=
  match cs.find? fun e => decide (e.1 = node) with
  | some e => (fset cs node ((e.2 + 1) % 2 ^ 16), some ((e.2 + 1) % 2 ^ 16))
  | none => if cs.length < 64 then (fset cs node 1, some 1) else (cs, none)

/-- The group of slices that a request of a core goes to first (R157). -/
def Msg.sliceGroup (s : State) (m : Msg) : Nat :=
  let (die, slice, _) := homeOf s m.src.mod m.tenant m.body.addr
  if die = m.src.die then slice % 16 else 16 + die % 8

/-- The TTMASK group of a request on its way (R157, R333): a read whose attributes are not known yet is a request to
its home slice. -/
def Msg.group (s : State) (m : Msg) : Option Nat :=
  match m.body with
  | .write _ _ _ _ at' _ | .amo _ _ _ _ _ at' _ => some (ttBit s m.src m.tenant m.body.addr at')
  | .read _ _ _ _ _ =>
    match m.attr with
    | some at' => some (ttBit s m.src m.tenant m.body.addr at')
    | none => some (m.sliceGroup s)
  | .probe _ _ => none

/-- A probe of a core to a group that is answered at the owners only. -/
def deepProbeOf (core grp : Nat) (x : Msg) : Bool :=
  match x.body with
  | .probe g deep => decide (x.src.coreKey = core ∧ g = grp) && deep
  | .read _ _ _ _ _ | .write _ _ _ _ _ _ | .amo _ _ _ _ _ _ _ => false

/-- A message is lost (R334, R399). DEDUCED (log 65): a write that is never performed leaves the probes behind it, and
those that follow until one has failed, without an echo. -/
def lose (s : State) (bef aft : List Msg) (m : Msg) : State :=
  match (if m.body.given.isSome then m.group s else none) with
  | none => { s with net := bef ++ aft }
  | some g =>
    State.modCore { s with net := bef ++ aft.filter fun x => !deepProbeOf m.src.coreKey g x } m.src.coreKey fun c =>
      { c with lostTo := g :: c.lostTo.filter (· ≠ g) }

/-- The module that a request on a link was sent from. -/
def Msg.frm (x : Msg) : Nat :=
  match x.via with
  | [] => x.src.mod
  | h :: _ => h.mod

/-- The hash of the flow that a request belongs to (R396): requests go on channel 0, relays and returns on 2. -/
def Msg.flow (s : State) (x : Msg) : Nat :=
  Config.flowHash (x.nodeIn s x.frm) (x.nodeIn s x.loc) (if x.hops = 0 ∧ x.back = false then 0 else 2)

/-- Message `m` leaves for another package as `y`, in its place in the order of messages. -/
def forwardMsg (s : State) (bef aft : List Msg) (m y : Msg) : State :=
  match sendFrame s m.loc (s.pkgOf y.loc) m.tenant none (y.flow s) with
  | none => pathGone (lose s bef aft m) m.loc (s.pkgOf y.loc)
  | some (f, s1) =>
    State.spawn { s1 with net := bef ++ { y with link := some f, due := s.ticks + toLink f (m.nodeIn s m.loc) } :: aft }
      (.linkFrameReceive f.into (f.link / 4))

/-- A die's owner cache is replaced least recently used (R429): a request has used an entry. -/
def useHint (s : State) (m : Msg) : State :=
  let k := (m.tenant, pageOf m.body.addr, partOf m.body.addr)
  s.modDie (m.home s).1 fun d =>
    { d with ownerCache := d.ownerCache.filter (fun e => decide (e.1 = k)) ++ d.ownerCache.filter fun e => decide (e.1 ≠ k) }

/-- The module that a message can reach (R398). -/
def reachable (s : State) (m pkg : Nat) : Option Nat :=
  if (s.modOf m).failedPaths.contains pkg then none else s.modWith pkg

/-- Relay a message (R427). -/
def relayMsg (s : State) (bef aft : List Msg) (m : Msg) (pkg : Nat) (stub : Bool) (at' : Attr) : State :=
  let a := m.body.addr
  match reachable s m.loc pkg with
  | none => pathGone (lose s bef aft m) m.loc pkg
  | some k =>
    let hit (x : Stub) : Bool := stub && x.live && decide (x.page = pageOf a ∧ x.part = partOf a)
    let st := (s.modOf m.loc).stubs.find? hit
    let n := st.bind fun x => (countNode x.counts (m.nodeKey s)).2
    let bump (x : Stub) : Stub :=
      { x with counts := (countNode x.counts (m.nodeKey s)).1, outstanding := x.outstanding + 1, sent := x.sent + 1,
               since := s.ticks }
    let h : Hop := { mod := m.loc, stub := stub, count := n, seq := (st.map (·.sent)).getD 0 }
    forwardMsg (s.modMod m.loc fun x => { x with stubs := mapFirst hit bump x.stubs }) bef aft m
      { m with loc := k, hops := m.hops + 1, via := h :: m.via, tag := 0, tagStub := 0,
               attr := some (m.attr.getD at'), walk := none }

/-- A write performed at an address may be the SEQ store of a migration command or a launch: the engines and the
Ochre cores look at their rings again (R380, R420). -/
def pokeRings (s : State) (m tenant a : Nat) : State :=
  let x := s.modOf m
  let inRing (base n : Nat) : Bool := decide (base / 128 ≤ a / 128 ∧ a / 128 ≤ (base + 64 + 64 * n) / 128)
  let s1 := if inRing x.ringBase (2 ^ (x.ringLogn + 2)) then spawnOnce s (.migrationCommandTake m) else s
  let q := fget Launch.reset x.launches tenant
  if bitAt q.lqcfg.toNat 63 && inRing (bits q.lqbase.toNat 55 6 * 64) (2 ^ (fld q.lqcfg 3 0 + 2)) then
    spawnOnce s1 (.launchTake m tenant)
  else s1

/-- What the message of a write or an atomic sets off where it is performed. -/
def afterWrite (s : State) (m : Msg) : State :=
  if m.body.given.isSome then pokeRings s m.loc m.tenant m.body.addr else s

/-- Carry out the route of a message that is not relayed. -/
def followRoute (s : State) (bef aft : List Msg) (m : Msg) (r : Route) : State :=
  let a := m.body.addr
  let gone : State := { s with net := bef ++ aft }
  let refuse (st : LineStatus) (at' : Attr) : State :=
    ackRelays (endTag (countRelay (answerMsg gone m st (replyAttr s m at') 0 0) m) m) m
  match r with
  | .wait => s.again m.event
  | .walk => (spawnOnce s (.pageWalk (m.home s).1 (pageOf a))).again m.event
  | .relay _ _ _ => s.spawn (.stubRelay m.loc m.src)
  | .serve w at' => ackRelays (endTag (afterRelay (afterWrite (performMsg gone m w at') m) m) m) m
  | .send pkg tag stub at' =>
    (match reachable s m.loc pkg with
     | none => pathGone (lose s bef aft m) m.loc pkg
     | some k =>
       forwardMsg (useHint s m) bef aft m
         { m with loc := k, tag := tag, tagStub := stub, attr := some at', walk := none })
  | .back =>
    let y : Msg := { m with back := true, loc := m.src.mod }
    let t := countRelay s m
    if m.loc = m.src.mod then State.spawn { t with net := bef ++ y :: aft } (.walkReturn (m.node s).1 m.src)
    else forwardMsg t bef aft m y
  | .absent owner at' =>
    let s1 := refuse .absent at'
    if owner && !m.body.isPrefetch then
      let k := match m.body with
        | .read _ k _ _ _ => k
        | .write _ _ _ _ _ _ => .store
        | .amo _ _ _ _ _ _ _ | .probe _ _ => .atomic
      postFault s1 m.loc (m.home s).1
        { vf := m.tenant, addr := a, token := 0, kind := 1, source := 0, access := k.code,
          place := s.strandId m.src, id := 0 }
    else s1
  | .bad at' =>
    let s1 := refuse .malformed at'
    if m.body.isPrefetch then s1 else s1.logErr (m.home s).1 m.tenant 8 a
  | .unpopulated at' => refuse .unpopulated at'
  | .poisoned at' => refuse .poisoned at'

/-- Serve the first message of a kind that a strand has at a package. -/
def serveFirst (s : State) (e : Event) (p : Msg → Bool) : State :=
  match splitFirst p s.net with
  | none => s
  | some (bef, m, aft) =>
    if behind s bef m || decide (s.ticks < m.due) then s.again e else followRoute s bef aft m (route s m)

/-- HOME_SLICE_REQUEST (R306). -/
def execHomeSliceRequest (m : Nat) (src : Place) (s : State) : Host.Outcome State Fault Refusal :=
  .next (serveFirst s (.homeSliceRequest m src) fun x =>
    decide (x.loc = m ∧ x.src = src) && !x.back && x.link.isNone && !x.body.isProbe && !x.body.isAmo)

/-- FAR_ATOMIC_EXECUTE (R331). -/
def execFarAtomicExecute (m : Nat) (src : Place) (s : State) : Host.Outcome State Fault Refusal :=
  .next (serveFirst s (.farAtomicExecute m src) fun x =>
    decide (x.loc = m ∧ x.src = src) && !x.back && x.link.isNone && x.body.isAmo)

/-- STUB_RELAY (R427): by a stub, or by the leaf. A message that need not be relayed any more is served. -/
def execStubRelay (m : Nat) (src : Place) (s : State) : Host.Outcome State Fault Refusal :=
  let mine (x : Msg) : Bool := decide (x.loc = m ∧ x.src = src) && !x.back && x.link.isNone && !x.body.isProbe
  match splitFirst mine s.net with
  | none => .next s
  | some (bef, x, aft) =>
    if behind s bef x || decide (s.ticks < x.due) then .next (s.again (.stubRelay m src))
    else
      match route s x with
      | .relay pkg stub at' => .next (relayMsg s bef aft x pkg stub at')
      | _ => .next (s.spawn x.event)

/-- A walk ends (R313): a leaf is cached if it is valid, and what waits for it has its fresh walk; `none` where an entry
read as poison. -/
def endWalk (s : State) (die page : Nat) (l : Option Nat) : State :=
  let m := dieMod die
  let s1 := match l with
    | none => s
    | some x => cacheLeaf s die page x
  let f (x : Msg) : Msg :=
    if x.loc = m ∧ x.walk = none ∧ x.body.isProbe = false ∧ pageOf x.body.addr = page ∧ (x.home s).1 = die then
      { x with walk := some l }
    else x
  { s1 with net := s1.net.map f }

/-- PAGE_WALK (R313): the upper levels and the low half of the leaf are read in one step, the high half in another,
since the two halves are not read together. -/
def execPageWalk (die page : Nat) (s : State) : Host.Outcome State Fault Refusal :=
  let m := dieMod die
  match (s.dieOf die).walks.find? fun e => decide (e.1 = page) with
  | some (_, p, low) =>
    let s1 := s.modDie die fun d => { d with walks := d.walks.filter fun e => decide (e.1 ≠ page) }
    .next (endWalk s1 die page (joinLeaf (some low) (tableRead s m (p + 8))))
  | none =>
    match leafAddr s m (page * 2 ^ 21) with
    | .empty => .next (endWalk s die page (some 0))
    | .poisoned => .next (endWalk s die page none)
    | .leaf p =>
      match tableRead s m p with
      | none => .next (endWalk s die page none)
      | some low =>
        .next ((s.modDie die fun d => { d with walks := (page, p, low) :: d.walks }).spawn (.pageWalk die page))

/-- WALK_RETURN (R428): the die forgets what it knows of the part, and the request starts again. -/
def execWalkReturn (die : Nat) (src : Place) (s : State) : Host.Outcome State Fault Refusal :=
  match splitFirst (fun x => decide (x.src = src ∧ (x.node s).1 = die) && x.back && x.link.isNone) s.net with
  | none => .next s
  | some (bef, x, aft) =>
    let a := x.body.addr
    let y : Msg := { x with
      back := false, walked := true, hops := 0, via := [], tag := 0, tagStub := 0, attr := none, walk := none }
    let s1 := (ackRelays s x).modDie die fun d =>
      { d with ownerCache := d.ownerCache.filter fun e => decide (e.1 ≠ (x.tenant, pageOf a, partOf a)),
               leafCache := d.leafCache.filter (fun e => decide (e.1 ≠ pageOf a)),
               walks := d.walks.filter fun e => decide (e.1 ≠ pageOf a) }
    .next (State.spawn { s1 with net := bef ++ y :: aft } y.event)

/-- RELAY_ACK (R427). A relay that went on from here has been performed, like one performed here: DEDUCED (log 65), it
counts for the tags of the stub that had sent it here (R429). -/
def execRelayAck (m page part : Nat) (s : State) : Host.Outcome State Fault Refusal :=
  let f (n : Note) : Option (Nat × Bool × Nat × Option Nat) :=
    match n with
    | .relayAck k pg pt t st node prev => if k = m ∧ pg = page ∧ pt = part then some (t, st, node, prev) else none
    | _ => none
  match takeNote f s.notes with
  | none => .next s
  | some ((t, st, node, prev), rest) =>
    let hit (x : Stub) : Bool := st && decide (x.page = page ∧ x.part = part ∧ 0 < x.outstanding)
    .next (State.modMod { s with notes := rest } m fun x =>
      let y := { x with stubs := mapFirst hit (fun y => { y with outstanding := y.outstanding - 1 }) x.stubs }
      match prev with
      | none => y
      | some k => countPerformed y (t, page, part, node, k))

/-- REDIRECT (R429): the owner cache learns the package, and the slice tags what it sends there, with the largest count of
the redirects to that package. -/
def execRedirect (die page part : Nat) (s : State) : Host.Outcome State Fault Refusal :=
  let f (n : Note) : Option Redir :=
    match n with
    | .redirect dk sl t pg pt pkg c st =>
      if dk = die ∧ pg = page ∧ pt = part then
        some { slice := sl, tenant := t, page := pg, part := pt, pkg := pkg, count := c, stub := st }
      else none
    | _ => none
  match takeNote f s.notes with
  | none => .next s
  | some (r, rest) =>
    let same (x : Redir) : Bool := decide (x.slice = r.slice ∧ x.tenant = r.tenant ∧ x.page = page ∧ x.part = part)
    let upd (d : Die) : Die :=
      let new := match d.redirs.find? same with
        | some x => if x.pkg = r.pkg ∧ r.count ≤ x.count then x else r
        | none => r
      let used := (d.redirs.filter fun x => decide (x.slice = r.slice)).length
      if d.redirs.any same = false ∧ 16 ≤ used then d
      else
        { d with redirs := new :: d.redirs.filter fun x => !same x,
                 ownerCache := (((r.tenant, page, part), r.pkg) ::
                   d.ownerCache.filter fun e => decide (e.1 ≠ (r.tenant, page, part))).take 4096 }
    .next (State.modDie { s with notes := rest } die upd)

/-! ### Answers -/

/-- The strand still waits for an answer (R399): it asked, and holds no answer to the same request. -/
def awaits (x : Strand) (r : Resp) : Bool :=
  match r with
  | .sector sec k _ _ _ _ => x.asked.contains (askKey sec k) && (sectorResp x sec k).isNone
  | .old _ _ _ => x.asked.any (fun n => decide (n % 8 = 6)) && (oldResp x).isNone
  | .unit _ _ | .released => false

/-- A page with T = 1 whose home lies beside another cluster: its accesses travel, and nothing of it is kept (R151). -/
def staysAway (s : State) (p : Place) (a : Nat) (at' : Attr) : Bool :=
  at'.t && decide (travelClu { s with cur := p } a ≠ p.cluKey)

/-- A sector that has come may be kept: in the L1 where its leaf is cacheable (R152, R306), and a 64-byte block
of code in the cluster's instruction cache (R243). -/
def keepAnswer (s : State) (r : Reply) : State :=
  match r.resp with
  | .sector sec k .ok at' data poison =>
    let x := s.strand r.dst
    let a := sec * 128
    if at'.c = false || staysAway s r.dst a at' || (!r.waits && !mayPrefetch s r.dst k at') then s
    else if k = .fetch then
      let b := pcOf x / 64
      if b / 2 = sec ∧ poisonHit poison (b * 64) 64 = false then
        s.modClu r.dst.cluKey fun c =>
          icFill c { blk := b, data := data / 256 ^ (b % 2 * 64) % 256 ^ 64, tenant := x.tenant, attr := at' }
      else s
    else if r.fill then l1Fill s r.dst.coreKey x.tenant a at' data poison
    else s
  | .sector _ _ _ _ _ _ | .old _ _ _ | .unit _ _ | .released => s

/-- The number of the request that an answer for a sector ends. -/
def respKey (r : Resp) (k : Nat) : Bool :=
  match r with
  | .sector sec kd _ _ _ _ => decide (k = askKey sec kd)
  | .old _ _ _ | .unit _ _ | .released => false

/-- MEM_RESPONSE (R175): an answer reaches a strand, which reissues its bundle. One whose bytes a write of the core has
overtaken leaves the bundle to ask again (R156); a late one is discarded and counted (R399). -/
def execMemResponse (p : Place) (s : State) : Host.Outcome State Fault Refusal :=
  let mine (r : Reply) : Bool := decide (r.dst = p) && r.link.isNone
  match splitFirst (fun r => mine r && decide (r.due ≤ s.ticks)) s.replies with
  | none =>
    if s.replies.any mine then .next (s.again (.memResponse p)) else .next (s.modStrand p fun x => x.wakeIf [.mem])
  | some (bef, r, aft) =>
    let s1 := { s with replies := bef ++ aft }
    if r.waits = false then .next (keepAnswer s1 r)
    else if awaits (s1.strand p) r.resp then
      if r.old then .next (s1.modStrand p fun x => (x.unask (respKey r.resp)).wakeIf [.mem])
      else .next ((keepAnswer s1 r).modStrand p fun x => { x with resps := x.resps ++ [r.resp] }.wakeIf [.mem])
    else .next (s1.count p.dieKey 14)

/-! ### Release probes -/

/-- An earlier request of the core to the group is not performed yet; a probe that goes no further than this
package waits only until it has left (R332, R333). -/
def probeBlocked (s : State) (p : Msg) (grp : Nat) (deep : Bool) (x : Msg) : Bool :=
  decide (x.src.coreKey = p.src.coreKey) && decide (x.group s = some grp)
    && (deep || decide (grp < 24) || x.atHome)

/-- RELEASE_PROBE (R333). -/
def execReleaseProbe (m : Nat) (src : Place) (grp : Nat) (s : State) : Host.Outcome State Fault Refusal :=
  let mine (x : Msg) : Bool :=
    match x.body with
    | .probe g _ => decide (x.loc = m ∧ x.src = src ∧ g = grp)
    | .read _ _ _ _ _ | .write _ _ _ _ _ _ | .amo _ _ _ _ _ _ _ => false
  match splitFirst mine s.net with
  | none => .next s
  | some (bef, x, aft) =>
    let deep := match x.body with
      | .probe _ d => d
      | .read _ _ _ _ _ | .write _ _ _ _ _ _ | .amo _ _ _ _ _ _ _ => false
    if bef.any (probeBlocked s x grp deep) then .next (s.again (.releaseProbe m src grp))
    else .next (State.spawn { s with net := bef ++ aft } (.probeEcho src grp))

/-- An echo reaches a strand (R333): its bit is cleared, and the last echo completes the release. -/
def echo (s : State) (p : Place) (grp : Nat) : State :=
  let x := s.strand p
  let clears := x.probes.contains grp
  let n := if clears then grp else grp + 32
  if x.probes.contains n then
    let rest := x.probes.filter (· ≠ n)
    let mask := if clears then x.csr.ttmask &&& ~~~(BitVec.ofNat 32 (2 ^ grp)) else x.csr.ttmask
    let y : Strand := { x with probes := rest, csr := { x.csr with ttmask := mask } }
    s.setStrand p (if rest.isEmpty then { y with resps := y.resps ++ [Resp.released] }.wakeIf [.fence] else y)
  else s

/-- PROBE_ECHO (R333). -/
def execProbeEcho (p : Place) (grp : Nat) (s : State) : Host.Outcome State Fault Refusal :=
  .next (echo s p grp)

/-- A failure echo (R334): the bit is cleared, a link error is logged, and later probes of the core to the group depend on
later writes alone. -/
def failureEcho (s : State) (p : Place) (n : Nat) : State :=
  let g := n % 32
  let s1 := s.modStrand p fun x =>
    { x with probes := x.probes.map fun k => if k = n then g else k }
  ((echo s1 p g).logErr p.dieKey (s.strand p).tenant 11 0).modCore p.coreKey fun c =>
    { c with lostTo := c.lostTo.filter (· ≠ g) }

/-! ### Accesses without an answer -/

/-- The answer that stands in for one that did not come (R399). -/
def noAnswer (k : Nat) : Option Resp :=
  let at' := attrFrame 0
  if k % 8 = 6 then some (.old .unanswered 0 false)
  else if k % 8 ≤ 4 then
    let kd := [Access.load, .store, .atomic, .fetch, .launch]
    some (.sector (k / 8) (nth .load kd (k % 8)) .unanswered at' 0 0)
  else none

/-- The number of a memory request that a bundle still waits for. -/
def memAsk (x : Strand) (k : Nat) : Bool :=
  match noAnswer k with
  | none => false
  | some r => awaits x r

/-- A request, or a probe, of a strand has been out for 2^20 cycles (R399). -/
def outLong (s : State) (x : Strand) (n : Nat) : Bool :=
  x.askedAt.any fun e => decide (e.1 = n ∧ e.2 + 2 ^ 20 ≤ s.ticks)

/-- A request of a strand ends without an answer (R399): counted. -/
def giveUp (p : Place) (s : State) (k : Nat) : State :=
  match noAnswer k with
  | none => s
  | some r => (s.modStrand p fun y => { y with resps := y.resps ++ [r] }.wakeIf [.mem]).count p.dieKey 14

/-- ACCESS_TIMEOUT (R399): what a waiting strand has had out for 2^20 cycles ends without an answer; probes get failure
echoes. -/
def execAccessTimeout (p : Place) (s : State) : Host.Outcome State Fault Refusal :=
  let x := s.strand p
  if x.parkedOn .fence || x.parkedOn .mem then
    let s1 := (x.probes.filter fun n => outLong s x (2 * n + 1)).foldl
      (fun t n => (failureEcho t p n).count p.dieKey 14) s
    .next ((x.asked.filter fun k => memAsk x k && outLong s x (2 * k)).foldl (giveUp p) s1)
  else .next s

/-! ### Errors of the memories -/

/-- A word of a sector is poisoned. -/
def poisonWord (poison a : Nat) : Nat := poison ||| 2 ^ (a / 8 % 16)

/-- A dirty byte lies in the 8-byte word of an address. -/
def dirtyWord (dirty a : Nat) : Bool := decide (dirty / 2 ^ (a / 8 % 16 * 8) % 256 ≠ 0)

/-- An uncorrectable error in an L1 sector (R320): a dirty word is poisoned, a clean sector is dropped. -/
def l1Error (s : State) (core a : Nat) : State :=
  let dk := cluDie (coreClu core)
  match l1Line (s.coreOf core) a, l1Sec (s.coreOf core) a with
  | some l, some x =>
    if dirtyWord x.dirty a then
      (l1Put s core a l { x with poison := poisonWord x.poison a }).logErr dk x.tenant 3 a
    else if x.dirty = 0 then
      ((dropWhere s core fun b _ => decide (b / 128 = a / 128)).noFill core fun sec => decide (sec = a / 128)).logErr dk
        x.tenant 2 a
    else (l1Put s core a l { x with filled := false }).logErr dk x.tenant 2 a
  | _, _ => s

/-- An uncorrectable error in an L2 sector of a die (R320). -/
def l2Error (s : State) (dk a : Nat) : State :=
  let d := s.dieOf dk
  match d.l2.find? fun l => decide (l.line = a / 1024) with
  | none => s
  | some l =>
    match (l.secs.find? fun e => decide (e.1 = a / 128 % 8)).map (·.2) with
    | none => s
    | some x =>
      if dirtyWord x.dirty a then
        (s.modDie dk fun y => l2Put y l (a / 128 % 8) { x with poison := poisonWord x.poison a }).logErr dk l.tenant 3 a
      else
        (s.modDie dk fun y => l2Put y l (a / 128 % 8) { x with valid := false }).logErr dk l.tenant 2 a

/-- A flit whose header is in error is discarded at the next router, and counted (R400). -/
def flitError (s : State) (m node : Nat) : State :=
  let mine (f : Flit) : Bool := decide (f.mod = m ∧ f.node = node ∧ f.stage = .transit)
  if s.flits.any mine then State.count { s with flits := dropFirst mine s.flits } (cluDie (nodeClu m node)) 12 else s

/-- UNCORRECTABLE_ERROR (R320, R265, R400). -/
def execUncorrectableError (site : ErrSite) (s : State) : Host.Outcome State Fault Refusal :=
  match site with
  | .cleanL1 core line sector =>
    .next ((l1Error s core (line * 1024 + sector % 8 * 128)).count (cluDie (coreClu core)) 1)
  | .dirtyL1 core a => .next ((l1Error s core a).count (cluDie (coreClu core)) 1)
  | .l2 die a => .next ((l2Error s die a).count die 1)
  | .pinned m tenant off =>
    let dk := homeDie s m tenant ((s.policy m tenant).pinbase * 2 ^ 34 + off)
    let s1 := s.modMod m fun x =>
      { x with pinnedPoison := fset x.pinnedPoison tenant (off / 8 :: fget [] x.pinnedPoison tenant) }
    .next ((s1.logErr dk tenant 3 ((s.policy m tenant).pinbase * 2 ^ 34 + off)).count dk 1)
  | .dram m granule =>
    let dk := dieKey m (nth 0 (s.modOf m).diesUp 0)
    let s1 := s.modMod m fun x => { x with dramPoison := granule :: x.dramPoison.filter (· ≠ granule) }
    .next ((s1.logErr dk 64 5 (granule * 32)).count dk 1)
  | .tcm core off =>
    .next ((s.modCore core fun c => { c with tcmPoison := off / 8 :: c.tcmPoison.filter (· ≠ off / 8) }).count
      (cluDie (coreClu core)) 1)
  | .scratchpad clu off =>
    .next (((s.modClu clu fun c =>
      { c with spadPoison := off / 8 :: c.spadPoison.filter (· ≠ off / 8) }).count (cluDie clu) 1).count (cluDie clu) 10)
  | .ring clu off =>
    let w := off % 1024 / 8
    .next (((s.modClu clu fun c => { c with ringPoison := w :: c.ringPoison.filter (· ≠ w) }).count (cluDie clu) 1).count
      (cluDie clu) 10)
  | .migration m idx =>
    .next ((s.modMod m fun x =>
      { x with cmds := x.cmds.map fun c => if c.idx = idx then { c with down := true } else c }).count
        (dieKey m (nth 0 (s.modOf m).diesUp 0)) 1)
  | .flit m node => .next ((flitError s m node).count (cluDie (nodeClu m node)) 1)
  | .icache clu blk =>
    let s1 := match icFind (s.cluOf clu) blk with
      | none => s
      | some b => s.logErr (cluDie clu) b.tenant 2 (blk * 64)
    .next ((s1.modClu clu fun c => { c with icache := c.icache.filter fun b => decide (b.blk ≠ blk) }).count
      (cluDie clu) 1)

/-- CORRECTABLE_ERROR (R320). -/
def execCorrectableError (die : Nat) (s : State) : Host.Outcome State Fault Refusal :=
  .next (s.count die 0)

/-- ERROR_COUNTER_CLEAR (R321). -/
def execErrorCounterClear (die : Nat) (s : State) : Host.Outcome State Fault Refusal :=
  .next (s.modDie die fun d => { d with errs := [] })

end Sys2Proof.Machine
end

