-- ==== Sys2Proof/Machine/Keystone.lean ====
section
/-! DEFINITION. Keystone: tasks, their queues, dispatch and stealing, dependency counters, groups (R347-R371). -/

namespace Sys2Proof.Machine

open Sys2Proof

/-! ### The task store (R348) -/

/-- Every task that a die's store holds: queued, or waiting on a counter. -/
def Die.held (d : Die) : List QTask := d.store ++ d.counters.flatMap (·.2.waiting)

/-- A die has no entry left for a tenant: 16,384 entries, and the tenant's quota. -/
def storeFull (s : State) (dk tenant : Nat) : Bool :=
  let h := (s.dieOf dk).held
  decide (16384 ≤ h.length)
    || decide ((s.policy (dieMod dk) tenant).quota ≤ (h.filter fun t => decide (t.task.tenant = tenant)).length)

/-- Queue a task at its cluster's list (R348), behind what arrived before. -/
def enqueue (s : State) (dk : Nat) (t : QTask) : State :=
  s.modDie dk fun d => { d with store := d.store ++ [{ t with serial := d.serial }], serial := d.serial + 1 }

/-- An entry of a die's store is free again: what waits for one tries again. -/
def entryFree (s : State) (dk : Nat) : State :=
  { s with strands := s.strands.map fun e =>
      if cluDie (e.1 / 256) = dk then (e.1, e.2.wakeIf [.engine]) else e }

/-- Entries of the stores of a module are free again. -/
def entriesFree (s : State) (m : Nat) : State :=
  { s with strands := s.strands.map fun e => if (Place.ofKey e.1).mod = m then (e.1, e.2.wakeIf [.engine]) else e }

/-- Put a task into a list by TS, behind its equals. -/
def insertTs (t : QTask) : List QTask → List QTask
  | [] => [t]
  | x :: xs => if t.ts < x.ts then t :: x :: xs else x :: insertTs t xs

/-- The dispatch order of a list (R348). -/
def byTs (l : List QTask) : List QTask := l.foldl (fun acc t => insertTs t acc) []

/-- The list of a cluster for a tenant, in dispatch order. -/
def readyList (d : Die) (clu tenant : Nat) : List QTask :=
  byTs (d.store.filter fun t => decide (t.clu = clu ∧ t.task.tenant = tenant))

/-- The same list as it stood at the start of the cycle (R370). -/
def startList (d : Die) (clu tenant : Nat) : List QTask :=
  byTs (d.listed.filter fun t => decide (t.clu = clu ∧ t.task.tenant = tenant))

/-- A task leaves the store of a die. -/
def takeTask (s : State) (dk serial : Nat) : State :=
  let s1 := s.modDie dk fun d =>
    { d with store := d.store.filter fun t => decide (t.serial ≠ serial), adm := d.adm.filter fun r => !r.ofTask serial }
  wakeAdmission (entryFree s1 dk) dk

/-- A task that a steal or TDEQ has taken is on no list of this cycle any more (R367). -/
def unlist (s : State) (dk serial : Nat) : State :=
  s.modDie dk fun d => { d with listed := d.listed.filter fun t => decide (t.serial ≠ serial) }

/-! ### Dispatch (R350, R351, R353) -/

/-- A task is admitted (R353): one of class E0 always. -/
def admitted (d : Die) (t : QTask) : Bool :=
  let w := classWeight t.task.cls
  let head := match d.adm with
    | r :: _ => r.ofTask t.serial
    | [] => false
  decide (w = 0) || (decide ((w : Int) ≤ d.free) && (d.adm.isEmpty || head))

/-- The slot of a cluster that takes a task of a partition and tenant (R350): on the core with the fewest Ready
strands, the lower core on a tie. -/
def dispatchSlot (s : State) (k part tenant : Nat) : Option Place :=
  let ok := (List.range 16).filter fun c => (freeSlot s (k * 16 + c) part tenant).isSome
  let low := ok.foldl (fun n c => Nat.min n (readyCount s (k * 16 + c))) 16
  match ok.find? fun c => decide (readyCount s (k * 16 + c) = low) with
  | none => none
  | some c => (freeSlot s (k * 16 + c) part tenant).map (placeOf (k * 16 + c))

/-- What a cluster would dispatch for a tenant: its first admitted task, and the slot. -/
def offerFor (s : State) (dk clu tenant : Nat) : Option (QTask × Place) :=
  let d := s.dieOf dk
  match (startList d clu tenant).find? (admitted d) with
  | none => none
  | some t => (dispatchSlot s (dk * 512 + clu) t.task.part tenant).map fun p => (t, p)

/-- What a cluster would dispatch: tenants in turn, after the one it served last (R350), those whose head task is
admitted before the others (log 20). -/
def offer (s : State) (dk clu : Nat) : Option (QTask × Place) :=
  let d := s.dieOf dk
  let last := fget 63 d.lastTenant clu
  let order := (List.range 64).map fun i => (last + 1 + i) % 64
  let ready (v : Nat) : Bool := ((startList d clu v).head?.map (admitted d)).getD false
  (order.filter ready ++ order).findSome? (offerFor s dk clu)

/-- A strand at dispatch (R82, R85, R351). -/
def newStrand (s : State) (p : Place) (t : Task) : Strand :=
  let c := dispatchCsr s p.mod t
  let st := c.sstat.toNat + b2n t.mode + b2n t.light * 16 + t.part * 2 ^ 8 + t.tenant * 2 ^ 12
  { Strand.empty with
    st := .ready, pc := word t.entry, g := Strand.empty.g.set 1 t.arg, issued := (s.strand p).issued, task := t,
    csr := { c with sstat := word st } }

/-- Start a strand in a slot (R351): an acquire at `pkg`, its class weight charged. -/
def startStrand (s0 : State) (p : Place) (t : Task) : State :=
  let s := applyLate s0 p.mod t.tenant
  let s1 := s.setStrand p (newStrand s p t)
  charge (setShadow (acquireAt s1 p .pkg) p Shadow.default) p.dieKey (classWeight t.cls)

/-- A task passed over for the 64th time becomes urgent and joins the admission queue, unless its weight exceeds
the budget (R353). -/
def passOver (s : State) (dk : Nat) (t : QTask) : State :=
  let n := t.passes + 1
  let now := decide (64 ≤ n) && !t.urgent
  let s1 := s.modDie dk fun d =>
    let upd (x : QTask) : QTask := { x with passes := n, urgent := decide (64 ≤ n) }
    { d with store := mapFirst (fun x => decide (x.serial = t.serial)) upd d.store }
  let w := classWeight t.task.cls
  if now && decide (w ≤ (s.dieOf dk).budget) then joinAdmission s1 dk (.task t.serial w s.ticks) else s1

/-- Dispatch a task to a slot; the tasks before it whose weight exceeds FREE are passed over (R353). -/
def dispatch (s : State) (dk clu : Nat) (t : QTask) (p : Place) : State :=
  let d := s.dieOf dk
  let before := (startList d clu t.task.tenant).takeWhile fun x => decide (x.serial ≠ t.serial)
  let passed := before.filter fun x => decide (d.free < (classWeight x.task.cls : Int))
  let s1 := passed.foldl (fun u x => passOver u dk x) s
  let s2 := startStrand (takeTask s1 dk t.serial) p t.task
  s2.modDie dk fun e =>
    { e with lastDisp := fset e.lastDisp clu s.ticks, lastTenant := fset e.lastTenant clu t.task.tenant }

/-! ### Stealing (R356) -/

/-- Tasks of a list that may move. -/
def anyTasks (d : Die) (clu tenant : Nat) : List QTask := (startList d clu tenant).filter (·.any)

/-- The longest list of a die for a tenant that holds at least 2 ANY tasks, the lower cluster on a tie. -/
def victim (d : Die) (tenant : Nat) : Option Nat :=
  let size (c : Nat) : Nat := (d.listed.filter fun t => decide (t.clu = c ∧ t.task.tenant = tenant)).length
  let ok := (List.range 400).filter fun c => decide (2 ≤ (anyTasks d c tenant).length)
  let top := ok.foldl (fun n c => Nat.max n (size c)) 0
  ok.find? fun c => decide (size c = top)

/-- A cluster could take a task of a tenant and has none on its list (R356). -/
def idleFor (s : State) (k tenant : Nat) : Bool :=
  let m := dieMod (cluDie k)
  (startList (s.dieOf (cluDie k)) (k % 512) tenant).isEmpty
    && (dispatchSlot s k (s.policy m tenant).part tenant).isSome

/-- Move half of a list's ANY tasks, the last in its dispatch order, to a cluster's list (R356). A task that was
dispatched in this cycle stays dispatched, and one that the store of another die has no entry for stays where it is
(R348). -/
def steal (s : State) (dk c thiefDie thief tenant : Nat) : State :=
  let d := s.dieOf dk
  let ts := anyTasks d c tenant
  let moved := (ts.drop (ts.length - ts.length / 2)).filterMap fun t => d.store.find? fun x => decide (x.serial = t.serial)
  let one (u : State) (t : QTask) : State :=
    if dk ≠ thiefDie ∧ storeFull u thiefDie tenant then u
    else if dk = thiefDie then
      (unlist u dk t.serial).modDie dk fun d =>
        { d with store := (d.store.filter fun x => decide (x.serial ≠ t.serial)) ++ [{ t with clu := thief }] }
    else
      let u1 := takeTask (unlist u dk t.serial) dk t.serial
      let n := (u1.dieOf thiefDie).serial
      let u2 := enqueue u1 thiefDie { t with clu := thief }
      if t.urgent && decide (classWeight t.task.cls ≤ (u2.dieOf thiefDie).budget) then
        joinAdmission u2 thiefDie (.task n (classWeight t.task.cls) 0)
      else u2
  moved.foldl one s

/-- The clusters of a tenant's partition that could take a task of it and have none. -/
def idleClusters (s : State) (m tenant : Nat) : List Nat :=
  match partitionOf s m (s.policy m tenant).part with
  | none => []
  | some e => (spanClusters m e).filter fun k => idleFor s k tenant

/-- The tenants for whom a die has a list with tasks to spare. -/
def sparing (d : Die) : List Nat :=
  if d.listed.isEmpty then [] else (List.range 64).filter fun v => (victim d v).isSome

/-- What Keystone does on a die in a cycle (R350, R370): a dispatch for each cluster that has a list, each cycle
starting one cluster later, then the steals of its idle clusters. -/
def keystoneDue (s : State) (e : Nat × Die) : List Event :=
  let m := dieMod e.1
  let turn := if e.2.listed.isEmpty then [] else (List.range 400).map fun i => (Config.firstCluster e.1 + s.now m + i) % 400
  ((turn.filter fun c => e.2.listed.any fun t => decide (t.clu = c)).map (Event.taskDispatch e.1))
    ++ (sparing e.2).flatMap fun v =>
      ((idleClusters s m v).filter fun k => decide (cluDie k = e.1)).map fun k => Event.taskSteal e.1 (k % 512) v

/-- The other dies of a package with an idle cluster ask the steal ring for a tenant's tasks, unless a request of
theirs is out (R356). -/
def askRing (s : State) (dk tenant : Nat) : State :=
  let idle := idleClusters s (dieMod dk) tenant
  let one (t : State) (k : Nat) : State :=
    let d := t.dieOf (cluDie k)
    if (victim d tenant).isSome || d.steals.any (fun r => decide (r.vf = tenant)) then t
    else
      (t.modDie (cluDie k) fun x =>
        { x with steals := x.steals ++ [{ vf := tenant, die := cluDie k, clu := k % 512, sent := s.ticks, idle := false }] }).spawn
        (.stealRequest (cluDie k) tenant)
  idle.foldl one s

/-- A new cycle of Keystone (R370): it chooses by the ready lists as they stand now, and idle dies ask for tasks (R356). -/
def openLists (s : State) : State :=
  let t := { s with dies := s.dies.map fun (e : Nat × Die) => (e.1, { e.2 with listed := e.2.store }) }
  t.dies.foldl (fun u (e : Nat × Die) => (sparing e.2).foldl (fun v n => askRing v e.1 n) u) t

/-- TASK_DISPATCH (R350, R370): at most one dispatch of a cluster in a cycle. -/
def execTaskDispatch (die clu : Nat) (s : State) : Host.Outcome State Fault Refusal :=
  if fget 0 (s.dieOf die).lastDisp clu = s.ticks then .next s
  else
    match offer s die clu with
    | none => .next s
    | some (t, p) => .next (dispatch s die clu t p)

/-- TASK_STEAL (R356): on one die. -/
def execTaskSteal (die clu vf : Nat) (s : State) : Host.Outcome State Fault Refusal :=
  if idleFor s (die * 512 + clu) vf then
    match victim (s.dieOf die) vf with
    | none => .next s
    | some c => .next (steal s die c die clu vf)
  else .next s

/-- The dies of a package in the order of the steal ring after one of them. -/
def ringAfter (s : State) (die : Nat) : List Nat :=
  let m := dieMod die
  let ws := (s.modOf m).diesUp.map (dieKey m)
  ws.filter (fun w => decide (die < w)) ++ ws.filter (fun w => decide (w < die))

/-- STEAL_REQUEST (R356): the first die on the ring that has a list to spare answers; an unanswered request is
sent again later. -/
def execStealRequest (die vf : Nat) (s : State) : Host.Outcome State Fault Refusal :=
  match (s.dieOf die).steals.find? fun r => decide (r.vf = vf) && !r.idle with
  | none => .next s
  | some r =>
    let others (x : Steal) : Bool := decide (x.vf ≠ vf)
    match (ringAfter s die).find? fun w => (victim (s.dieOf w) vf).isSome with
    | none =>
      .next ((s.modDie die fun d =>
        { d with steals := { r with idle := true } :: d.steals.filter others }).spawn (.stealRetry die vf))
    | some w =>
      let s1 := s.modDie die fun d => { d with steals := d.steals.filter others }
      match victim (s.dieOf w) vf with
      | none => .next s1
      | some c => .next (steal s1 w c die r.clu vf)

/-- STEAL_RETRY (R356): no sooner than 1,024 cycles after the request that came back. -/
def execStealRetry (die vf : Nat) (s : State) : Host.Outcome State Fault Refusal :=
  match (s.dieOf die).steals.find? fun r => decide (r.vf = vf) && r.idle with
  | none => .next s
  | some r =>
    if s.ticks < r.sent + 1024 then .next (s.again (.stealRetry die vf))
    else
      let s1 := s.modDie die fun d => { d with steals := d.steals.filter fun x => decide (x.vf ≠ vf) }
      if idleFor s (die * 512 + r.clu) vf then
        .next ((s1.modDie die fun d => { d with steals := { r with sent := s.ticks, idle := false } :: d.steals }).spawn
          (.stealRequest die vf))
      else .next s1

/-! ### Counters (R354, R362) -/

/-- A Free counter. -/
def Counter.free : Counter := { live := false, tenant := 0, count := 0, waiting := [] }

/-- The die and the index that name a counter (R354). -/
def ctrDie (m name : Nat) : Nat := dieKey m (bits name 17 12)
def ctrIdx (name : Nat) : Nat := name % 4096

/-- A counter's name is usable by a tenant (reason 2 of R355). -/
def ctrOk (s : State) (m tenant name : Nat) : Bool :=
  let c := fget Counter.free (s.dieOf (ctrDie m name)).counters (ctrIdx name)
  (s.modOf m).diesUp.contains (bits name 17 12) && c.live && decide (c.tenant = tenant)

/-- The count of a counter becomes `n`; at 0 its waiting tasks are queued (R354, R369). -/
def setCount (s : State) (dk i n : Nat) : State :=
  let c := fget Counter.free (s.dieOf dk).counters i
  let put (w : List QTask) (t : State) : State :=
    t.modDie dk fun d => { d with counters := fset d.counters i { c with count := n, waiting := w } }
  if n = 0 then c.waiting.foldl (fun t x => enqueue t dk x) (put [] s) else put c.waiting s

/-- A decrement (R362): the result, and the state. -/
def decrement (s : State) (dk i amount : Nat) (free : Bool) : Nat × State :=
  let c := fget Counter.free (s.dieOf dk).counters i
  let under := decide (c.count < amount)
  let n := c.count - amount
  let s1 := setCount s dk i n
  let s2 := if free && decide (n = 0) then
      s1.modDie dk fun d => { d with counters := fset d.counters i Counter.free }
    else s1
  (if under then (rejectWord 4).toNat else n, s2)

/-- The lowest Free counter of a die. -/
def freeCounter (d : Die) : Option Nat :=
  (List.range 4096).find? fun i => !(fget Counter.free d.counters i).live

/-- A counter operation at the counter's die (R362, R363): the answer to the strand that waits, if one does. -/
def counterOp (s : State) (dk : Nat) (src : Place) (op : CtrOp) (name amount : Nat) (free : Bool) (tenant : Nat) :
    State :=
  let i := ctrIdx name
  let c := fget Counter.free (s.dieOf dk).counters i
  let ok := c.live && decide (c.tenant = tenant)
  match op with
  | .init =>
    match freeCounter (s.dieOf dk) with
    | none => giveAnswer s src 0 (rejectWord 3).toNat
    | some j =>
      giveAnswer (s.modDie dk fun d =>
        { d with counters := fset d.counters j { live := true, tenant := tenant, count := amount % 2 ^ 32, waiting := [] } })
        src 0 (dk % 64 * 4096 + j)
  | .inc =>
    if ok = false then giveAnswer s src 0 (rejectWord 2).toNat
    else
      let n := c.count + amount
      let s1 := s.modDie dk fun d =>
        { d with counters := fset d.counters i { c with count := Nat.min n (2 ^ 32 - 1) } }
      giveAnswer s1 src 0 (if 2 ^ 32 ≤ n then (rejectWord 9).toNat else n)
  | .dec =>
    if ok = false then giveAnswer s src 0 (rejectWord 2).toNat
    else
      let (r, s1) := decrement s dk i amount free
      giveAnswer s1 src 0 r
  | .exit =>
    if ok = false then s.logErr dk tenant 13 (name % 2 ^ 18) else (decrement s dk i 1 false).2

/-- A task with a WAIT reaches its counter's die (R360). -/
def placeWaiting (s : State) (dk : Nat) (t : QTask) : State :=
  let i := ctrIdx t.wait
  let c := fget Counter.free (s.dieOf dk).counters i
  if c.count = 0 then enqueue s dk t
  else
    let put (d : Die) : Die :=
      { d with counters := fset d.counters i { c with waiting := c.waiting ++ [{ t with serial := d.serial }] },
               serial := d.serial + 1 }
    s.modDie dk put

/-- COUNTER_UPDATE (R354): the oldest operation of a source at a die, a task with a WAIT among them. -/
def execCounterUpdate (die : Nat) (src : Place) (s : State) : Host.Outcome State Fault Refusal :=
  let f (n : Note) : Option Note :=
    match n with
    | .counter q d _ _ _ _ _ => if q = src ∧ d = die then some n else none
    | .tenq q d _ => if q = src ∧ d = die then some n else none
    | _ => none
  match takeNote f s.notes with
  | some (.counter _ _ op name amount free tenant, rest) =>
    .next (counterOp { s with notes := rest } die src op name amount free tenant)
  | some (.tenq _ _ t, rest) =>
    let s1 := { s with notes := rest }
    if ctrOk s (dieMod die) t.task.tenant t.wait = false then .next (giveAnswer s1 src 0 (rejectWord 2).toNat)
    else if storeFull s die t.task.tenant then .next (s.again (.counterUpdate die src))
    else .next (giveAnswer (placeWaiting s1 die t) src 0 0)
  | _ => .next s

/-- The request number of a counter operation. -/
def askCounter : Nat := 45

/-- Send a counter operation and wait, or take its answer into `d` (R362). `first` comes before. It answers whether the
operation was sent: one that names an absent die writes reason 2 and does nothing else. -/
def counterInstr (d : GReg) (op : CtrOp) (dk name amount : Nat) (free : Bool) (first : Act Unit) : Act Bool := do
  let s ← here
  match unitAnswer s.me with
  | some (_, v) =>
    change fun t => wg t d (word v)
    pure true
  | none =>
    if hasAsked s.me askCounter then parkOn .mem
    else if op ≠ .init ∧ (s.modOf s.cur.mod).diesUp.contains (bits name 17 12) = false then do
      change fun t => wg t d (rejectWord 2)
      pure false
    else do
      first
      fun t => .error (.park .mem true
        (((ask t askCounter).note (.counter t.cur dk op name amount free t.tenant)).spawn
          (.counterUpdate dk t.cur)))

/-- DCINIT (R362): the lowest Free counter of the own die. -/
def execDcinit (d a : GReg) (imm : BitVec 13) (s : State) : Host.Outcome State Fault Refusal :=
  let n := wrap 32 ((rg s a).toNat + imm.toInt)
  finish s (Act.res (do let _ ← counterInstr d .init s.cur.dieKey 0 n false (pure ())) s)

/-- DCINC (R362). -/
def execDcinc (d a b : GReg) (s : State) : Host.Outcome State Fault Refusal :=
  let name := (rg s a).toNat % 2 ^ 18
  finish s (Act.res (do let _ ← counterInstr d .inc (ctrDie s.cur.mod name) name (fld (rg s b) 31 0) false (pure ())) s)

/-- DCDEC (R362): with a scope, a release first. -/
def execDcdec (d a b : GReg) (sc : Scope) (free : Bool) (s : State) : Host.Outcome State Fault Refusal :=
  let name := (rg s a).toNat % 2 ^ 18
  finish s (Act.res (do
    let S ← optScope sc
    let sent ← counterInstr d .dec (ctrDie s.cur.mod name) name (fld (rg s b) 31 0) free
      (if sc = .none then pure () else release S)
    if sent then noteScope sc else pure ()) s)

/-! ### TENQ and TDEQ (R360, R361) -/

/-- The WAIT and RELC fields of a descriptor keep their reserved bits clear (R347). -/
def waitOk (w : Nat) : Bool := decide (bits w 30 18 = 0)

/-- The highest class that a tenant's tasks may carry (R349). -/
def launchClass (s : State) (m tenant : Nat) : Nat :=
  match (s.modOf m).launches.find? fun e => e.2.running && decide (e.2.forVf = tenant) with
  | some e => e.2.cls
  | none => 3

/-- A 32-byte descriptor meets R347. -/
def descOk (x cls : Nat) : Bool :=
  let entry := dfield x 0 8
  let aff := dfield x 0x1C 2
  decide (entry % 8 = 0 ∧ entry < addrSpace) && waitOk (dfield x 0x14 4) && waitOk (dfield x 0x18 4)
    && decide (bits aff 14 9 = 0) && (bitAt aff 15 || decide (aff % 512 < 400))
    && decide (dfield x 0x1F 1 < 16 ∧ dfield x 0x1F 1 % 4 ≤ cls)

/-- The task of a descriptor (R347, R351), for a cluster's list. -/
def taskOf (x tenant part clu : Nat) : QTask :=
  let aff := dfield x 0x1C 2
  let fl := dfield x 0x1F 1
  let grp := dfield x 0x1E 1
  { task := { entry := dfield x 0 8, arg := word (dfield x 8 8), cls := fl % 4, aff := aff, light := bitAt fl 2,
              relc := dfield x 0x18 4, tenant := tenant, part := part,
              groups := if bitAt fl 3 then word (grp + 2 ^ 32) else 0, mode := false },
    ts := dfield x 0x10 4, clu := if bitAt aff 15 then clu else aff % 512, any := bitAt aff 15, passes := 0,
    urgent := false, serial := 0, wait := dfield x 0x14 4, grp := grp, gv := bitAt fl 3 }

/-- The descriptor of a queued task (R347, R361). -/
def descOf (t : QTask) : Nat :=
  t.task.entry + t.task.arg.toNat * 256 ^ 8 + t.ts % 2 ^ 32 * 256 ^ 16 + t.wait * 256 ^ 20 + t.task.relc * 256 ^ 24
    + t.task.aff * 256 ^ 28 + t.grp * 256 ^ 30
    + (t.task.cls % 4 + b2n t.task.light * 4 + b2n t.gv * 8) * 256 ^ 31

/-- The request number of a task sent to another die. -/
def askTask : Nat := 61

/-- Queue a task at its die once there is an entry (R360). -/
def submit (d : GReg) (t : QTask) : Act Unit := fun s =>
  let dk := if bitAt t.wait 31 then ctrDie s.cur.mod t.wait else s.cur.dieKey
  if dk ≠ s.cur.dieKey then
    .error (.park .engine true (((ask s askTask).note (.tenq s.cur dk t)).spawn (.counterUpdate dk s.cur)))
  else if storeFull s dk t.task.tenant then .error (.park .engine false s)
  else .ok ((), wg (if bitAt t.wait 31 then placeWaiting s dk t else enqueue s dk t) d 0)

/-- TENQ (R360). -/
def execTenq (d a : GReg) (sc : Scope) (s : State) : Host.Outcome State Fault Refusal :=
  let x := addrOf (rg s a)
  finish s (Act.res (do
    match unitAnswer s.me with
    | some (_, v) => do
      change fun t => wg t d (word v)
      if v = 0 then noteScope sc
    | none =>
      if hasAsked s.me askTask then parkOn .engine
      else do
        aligned x 32 .load
        let S ← scopeOr sc .pkg
        let D ← load x 32 true
        if descOk D (launchClass s s.cur.mod s.tenant) = false then change fun t => wg t d (rejectWord 1)
        else if bitAt (dfield D 0x14 4) 31 && !ctrOk s s.cur.mod s.tenant (dfield D 0x14 4) then
          change fun t => wg t d (rejectWord 2)
        else do
          release S
          submit d (taskOf D s.tenant s.part s.cur.clu)
          noteScope sc) s)

/-- TDEQ (R361): the head of the lowest cluster's list of a tenant. -/
def execTdeq (d a b : GReg) (s : State) : Host.Outcome State Fault Refusal :=
  let x := addrOf (rg s a)
  let v := fld (rg s b) 5 0
  let dk := s.cur.dieKey
  finish s (Act.res (do
    needSuper 0x4D
    aligned x 32 .store
    match (List.range 400).findSome? fun c => (readyList (s.dieOf dk) c v).head? with
    | none => change fun t => wg t d (rejectWord 5)
    | some t => do
      store x 32 (descOf t) true
      change fun u => wg (takeTask (unlist u dk t.serial) dk t.serial) d 0) s)

/-! ### Groups (R357, R365) -/

/-- An empty group entry. -/
def Group.empty : Group := { gen := 0, members := 0, remaining := 0, phase := 0, arrivals := [] }

/-- The home of a VF's group entry: its die and its key there (R357). -/
def groupDie (m n : Nat) : Nat := dieKey m (n % 64)
def groupKey (vf n : Nat) : Nat := vf * 256 + n % 256

def groupOf (s : State) (m vf n : Nat) : Group := fget Group.empty (s.dieOf (groupDie m n)).groups (groupKey vf n)

/-- The request numbers of a group operation, and of an arrival whose phase has not ended. -/
def askGroup : Nat := 53
def askArrive : Nat := 47

/-- The phase has ended for a parked arrival: from now on the bundle is not stopped before it completes (R366). -/
def wakeArrival (gen : Nat) (s : State) (p : Place) : State :=
  s.modStrand p fun x =>
    { x with resps := x.resps ++ [Resp.unit 0 gen],
             asked := askGroup :: x.asked.filter (· ≠ askArrive) }.wakeIf [.gsync]

/-- Write a group entry back: a phase that is complete ends, and every parked arrival wakes (R357). -/
def settleGroup (s : State) (dk k : Nat) (g : Group) : State :=
  let put (x : Group) (t : State) : State := t.modDie dk fun d => { d with groups := fset d.groups k x }
  if g.remaining = 0 ∧ 0 < g.members then
    g.arrivals.foldl (wakeArrival g.gen)
      (put { g with phase := (g.phase + 1) % 2, remaining := g.members, arrivals := [] } s)
  else put g s

/-- A leave (R357): GEN moves on when the last member goes. -/
def Group.leave (g : Group) : Group :=
  let n := g.members - 1
  { g with members := n, remaining := g.remaining - 1, gen := if n = 0 then (g.gen + 1) % 256 else g.gen }

/-- GROUP_UPDATE (R357): the oldest operation of a source at a home. -/
def execGroupUpdate (die : Nat) (src : Place) (s : State) : Host.Outcome State Fault Refusal :=
  let f (n : Note) : Option (GrpOp × Nat × Nat) :=
    match n with
    | .group q d op grp tenant => if q = src ∧ d = die then some (op, grp, tenant) else none
    | _ => none
  match takeNote f s.notes with
  | none => .next s
  | some ((op, grp, tenant), rest) =>
    let k := groupKey tenant grp
    let g := fget Group.empty (s.dieOf die).groups k
    let s1 := { s with notes := rest }
    match op with
    | .join =>
      .next (giveAnswer (settleGroup s1 die k { g with members := g.members + 1, remaining := g.remaining + 1 })
        src 0 g.gen)
    | .leave => .next (giveAnswer (settleGroup s1 die k g.leave) src 0 g.gen)
    | .quit => .next (settleGroup s1 die k g.leave)
    | .look => .next (giveAnswer s1 src 0 g.gen)
    | .arrive =>
      .next (settleGroup s1 die k { g with remaining := g.remaining - 1, arrivals := g.arrivals ++ [src] })

/-- The byte of GROUPS that names group `n`, if the strand is a member (R365). -/
def memberAt (w : Word) (n : Nat) : Option Nat :=
  (List.range 4).find? fun i => bitAt w.toNat (32 + i) && decide (byteAt w.toNat i = n)

/-- The lowest clear GV bit. -/
def clearGv (w : Word) : Option Nat := (List.range 4).find? fun i => !bitAt w.toNat (32 + i)

/-- GROUPS with group `n` in byte `i`, and without byte `i`. -/
def withGroup (w : Word) (i n : Nat) : Word := setFld (setFld w (8 * i + 7) (8 * i) n) (32 + i) (32 + i) 1
def withoutGroup (w : Word) (i : Nat) : Word := setFld w (32 + i) (32 + i) 0

/-- Ask a group's home. -/
def askHome (s : State) (op : GrpOp) (n key : Nat) : State :=
  let dk := groupDie s.cur.mod n
  ((ask s key).note (.group s.cur dk op n s.tenant)).spawn (.groupUpdate dk s.cur)

/-- The group that GJOIN and GLEAVE name (R365). -/
def groupName (a : Word) (imm : BitVec 13) : Nat := wrap 8 ((a.toNat : Int) + imm.toInt)

/-- GJOIN (R365). -/
def execGjoin (d a : GReg) (imm : BitVec 13) (s : State) : Host.Outcome State Fault Refusal :=
  let n := groupName (rg s a) imm
  let gs := s.me.csr.groups
  finish s (
    match unitAnswer s.me with
    | some (_, v) =>
      match memberAt gs n, clearGv gs with
      | some _, _ | none, none => .done (wg s d (word v))
      | none, some i => .done (wg (s.modCsr fun c => { c with groups := withGroup gs i n }) d (word v))
    | none =>
      if hasAsked s.me askGroup then .park .mem false s
      else if (memberAt gs n).isSome then .park .mem true (askHome s .look n askGroup)
      else if (clearGv gs).isNone then .done (wg s d (rejectWord 7))
      else .park .mem true (askHome s .join n askGroup))

/-- GLEAVE (R365). -/
def execGleave (d a : GReg) (imm : BitVec 13) (s : State) : Host.Outcome State Fault Refusal :=
  let n := groupName (rg s a) imm
  let gs := s.me.csr.groups
  finish s (
    match memberAt gs n with
    | none => .done (wg s d (rejectWord 8))
    | some i =>
      match unitAnswer s.me with
      | some (_, v) => .done (wg (s.modCsr fun c => { c with groups := withoutGroup gs i }) d (word v))
      | none =>
        if hasAsked s.me askGroup then .park .mem false s
        else .park .mem true (askHome s .leave n askGroup))

/-- GSYNC (R365). -/
def execGsync (d a : GReg) (sc : Scope) (s : State) : Host.Outcome State Fault Refusal :=
  let n := (rg s a).toNat % 256
  finish s (Act.res (do
    if (memberAt s.me.csr.groups n).isNone then change fun t => wg t d (rejectWord 8)
    else do
      let S ← optScope sc
      match unitAnswer s.me with
      | some (_, v) => do
        if sc ≠ .none then acquire S
        change fun t => wg t d (word v)
        noteScope sc
      | none =>
        if hasAsked s.me askArrive then parkOn .gsync
        else do
          if sc ≠ .none then release S
          fun t => .error (.park .gsync true (askHome t .arrive n askArrive))) s)

/-! ### The end of a task (R363) -/

/-- The common start of TEXIT and TYIELD: operations complete, then the release. -/
def endTask (sc : Scope) : Act Unit := do
  let s ← here
  if matrixBusy s s.cur || ixBusy s s.cur then parkOn .engine
  else do
    let S ← scopeOr sc .pkg
    release S

/-- The strand gives back its tiles, units, grant and class weight; its slot becomes Empty. -/
def vacate (s : State) (p : Place) : State :=
  let t := (s.strand p).task
  let s1 := freeUnits (freeTiles (mergeFlags s p (List.range 4)) p 0xFF) p
  emptySlot (uncharge (releaseGrant s1 p) p.dieKey (classWeight t.cls)) p

/-- TEXIT leaves every group of GROUPS (R363). -/
def quitGroups (s : State) (p : Place) : State :=
  let x := s.strand p
  let gs := (List.range 4).filterMap fun i =>
    if bitAt x.csr.groups.toNat (32 + i) then some (byteAt x.csr.groups.toNat i) else none
  gs.foldl (fun t n =>
    (t.note (.group p (groupDie p.mod n) .quit n x.tenant)).spawn (.groupUpdate (groupDie p.mod n) p)) s

/-- The release counter of a task that ends is decremented (R363). -/
def releaseCounter (s : State) (p : Place) : State :=
  let x := s.strand p
  let name := x.task.relc % 2 ^ 18
  if bitAt x.task.relc 31 = false then s
  else if (s.modOf p.mod).diesUp.contains (bits name 17 12) then
    (s.note (.counter p (ctrDie p.mod name) .exit name 1 false x.tenant)).spawn
      (.counterUpdate (ctrDie p.mod name) p)
  else s.logErr p.dieKey x.tenant 13 name

/-- TEXIT (R363). -/
def execTexit (sc : Scope) (s : State) : Host.Outcome State Fault Refusal :=
  finish s (Act.res (do
    endTask sc
    fun t =>
      let p := t.cur
      .error (.gone (vacate (releaseCounter (quitGroups t p) p) p))) s)

/-- The continuation of a strand (R363). -/
def continuation (s : State) (arg : Word) (ts : Nat) : QTask :=
  let x := s.me
  let t := x.task
  let any := bitAt t.aff 15
  { task := { t with entry := s.issue.next, arg := arg, tenant := x.tenant, part := x.part, groups := x.csr.groups },
    ts := ts, clu := if any then s.cur.clu else t.aff % 512, any := any, passes := 0, urgent := false, serial := 0,
    wait := 0, grp := byteAt x.csr.groups.toNat 0, gv := bitAt x.csr.groups.toNat 32 }

/-- TYIELD (R363): the continuation is queued on this die once there is an entry. -/
def execTyield (a b : GReg) (sc : Scope) (s : State) : Host.Outcome State Fault Refusal :=
  let arg := rg s a
  let ts := fld (rg s b) 31 0
  finish s (Act.res (do
    endTask sc
    fun t =>
      if storeFull t t.cur.dieKey t.tenant then .error (.park .engine false t)
      else
        .error (.gone (enqueue (vacate t t.cur) t.cur.dieKey (continuation t arg ts)))) s)

end Sys2Proof.Machine
end

