-- ==== Sys2Proof/Machine/Links.lean ====
section
/-! DEFINITION. Links between modules: training, keys, frames, links and paths that fail (R334, R386, R396-R400). -/

namespace Sys2Proof.Machine

open Sys2Proof

/-! ### Frames on a link that fails (R398) -/

/-- A link that takes over the flows of a failed one: another of its bundle, else a spare (R398). -/
def otherLink (s : State) (m link : Nat) : Option Nat :=
  let up := (s.modOf m).links.filter fun e => e.2.up && decide (e.1 ≠ link ∧ e.2.dir = (s.linkOf m link).dir)
  match up.find? fun e => !e.2.spare with
  | some e => some e.1
  | none => up.head?.map (·.1)

/-- The flow of a stream packet on a link, and of an answer (R396). -/
def LinkFrame.flow (f : LinkFrame) : Nat := Config.flowHash f.node f.node 4
def Reply.flow (r : Reply) : Nat := Config.flowHash r.node (placeNode r.dst) 1

/-- A frame that its sender has had no acknowledgement for goes on another link of the bundle, or the other way round the
ring (R398). -/
def moveFrame (s : State) (f : Frame) (pkg hash : Nat) : Option Frame :=
  (nextHop s f.frm pkg (some f.dir) hash).map fun h => { f with link := h.1, dir := h.2.1, into := h.2.2 }

/-- The frame is one that module `m` has sent on a link. -/
def Frame.sentOn (m link : Nat) : Option Frame → Bool
  | none => false
  | some f => decide (f.frm = m ∧ f.link = link)

/-- A frame is due at its port die. -/
def spawnFrame (s : State) (f : Frame) : State := s.spawn (.linkFrameReceive f.into (f.link / 4))

/-- A stream packet moves to another link, before the later packets there. -/
def moveStream (s : State) (f : LinkFrame) : State :=
  match moveFrame s f.hop f.dst f.flow with
  | none => s
  | some h => spawnFrame (s.modPort h.into (h.link / 4) fun p => { p with frames := { f with hop := h } :: p.frames }) h

/-- A request moves to another link, or is lost with the last one. -/
def moveMsgs (m link : Nat) : List Msg → List Msg → State → State
  | _, [], s => s
  | bef, x :: rest, s =>
    match x.link with
    | none => moveMsgs m link (bef ++ [x]) rest s
    | some f =>
      if Frame.sentOn m link x.link = false then moveMsgs m link (bef ++ [x]) rest s
      else
        match moveFrame s f (s.pkgOf x.loc) (x.flow s) with
        | none => moveMsgs m link bef rest (pathGone (lose s bef rest x) m (s.pkgOf x.loc))
        | some h =>
          let y := { x with link := some h }
          moveMsgs m link (bef ++ [y]) rest (spawnFrame { s with net := bef ++ y :: rest } h)

/-- An answer moves to another link, or is lost with the last one. -/
def moveReply (m link : Nat) (s : State) (r : Reply) : State :=
  match r.link with
  | none => { s with replies := s.replies ++ [r] }
  | some f =>
    if Frame.sentOn m link r.link = false then { s with replies := s.replies ++ [r] }
    else
      match moveFrame s f (s.pkgOf r.dst.mod) r.flow with
      | none => pathGone s m (s.pkgOf r.dst.mod)
      | some h => spawnFrame { s with replies := s.replies ++ [{ r with link := some h }] } h

/-- The unacknowledged frames that module `m` has sent on a link are replayed elsewhere, in their order and before the later
frames of their flows (R398). -/
def replayFrames (s : State) (m link : Nat) : State :=
  let mine (f : LinkFrame) : Bool := Frame.sentOn m link (some f.hop)
  let fs := s.mods.flatMap fun e => (s.port e.1 (link / 4)).frames.filter mine
  let s1 := s.mods.foldl (fun t e => t.modPort e.1 (link / 4) fun p => { p with frames := p.frames.filter fun f => !mine f }) s
  let s2 := fs.reverse.foldl moveStream (if fs.isEmpty then s else s1)
  let s3 := moveMsgs m link [] s2.net s2
  s3.replies.foldl (moveReply m link) { s3 with replies := [] }

/-- A link is declared down at one of its ends: counted and logged, its flows go over, and the other end follows. -/
def linkFails (s : State) (m link : Nat) : State :=
  let s1 := linkError ((s.modLink m link fun x => { x with up := false, replays := 0, subst := otherLink s m link }).count
    (firstDie s m) 13) m link
  let s2 := replayFrames s1 m link
  match s.modWith (s.linkOf m link).peer with
  | none => s2
  | some k => if k = m then s2 else s2.spawn (.linkDown k link)

/-! ### Training (R386, R396) -/

/-- LINK_TRAINING (R386, R396): a link whose neighbour is not the one that the torus places in its direction stays down; the
eleventh link of a direction is a spare. `link'` holds the number and the direction. A link that loses training is down (R398). -/
def execLinkTraining (m link' peer : Nat) (ok : Bool) (s : State) : Host.Outcome State Fault Refusal :=
  let link := link' % 64
  let dir := link' / 64
  match (s.modOf m).pkg with
  | none => .next s
  | some n =>
    if ok = false ∨ (s.port m (link / 4)).down then
      .next (if (s.linkOf m link).up then linkFails s m link else s.modLink m link fun _ => Link.untrained)
    else if dir < 6 ∧ neighbourIn n dir = peer then
      let used := (s.modOf m).links.filter fun e => e.2.up && !e.2.spare && decide (e.2.dir = dir ∧ e.1 ≠ link)
      .next (s.modLink m link fun _ =>
        { up := true, dir := dir, peer := peer, replays := 0, spare := decide (10 ≤ used.length), subst := none })
    else .next (linkError (s.modLink m link fun _ => Link.untrained) m link)

/-- PACKAGE_NUMBER_WRITE (R386): once, after boot step 6. -/
def execPackageNumberWrite (m : Nat) (v : BitVec 12) (s : State) : Host.Outcome State Fault Refusal :=
  let x := s.modOf m
  if x.boot = 6 ∧ x.pkg = none then .next (s.modMod m fun y => { y with pkg := some v.toNat }) else .next s

/-! ### Keys (R397) -/

/-- KEY_LOAD (R397). Loading as current the key that stands as next turns the epoch (log 22). -/
def execKeyLoad (m pd kid : Nat) (next : Bool) (key : BitVec 256) (s : State) :
    Host.Outcome State Fault Refusal :=
  let upd (k : KeySlot) : KeySlot :=
    if next then { k with next := some key }
    else if k.next = some key then { k with cur := some key, next := k.cur, epoch := !k.epoch }
    else { k with cur := some key }
  .next (s.modPort m pd fun p => { p with keys := fset p.keys kid (upd (s.keySlot m pd kid)) })

/-! ### Receiving a frame (R397-R399) -/

/-- A frame has reached a port die, or is on its way to it. -/
def Frame.atPort (m pd : Nat) : Option Frame → Bool
  | none => false
  | some f => decide (f.into = m ∧ f.link / 4 = pd)

/-- A stream packet arrives: at its edge router, or at a package on its way. -/
def receiveStream (s : State) (m pd : Nat) (f : LinkFrame) (rest : List LinkFrame) : State :=
  let last := decide (s.pkgOf m = f.dst)
  let (r, s1) := receiveFrame s f.hop last
  let s2 := s1.modPort m pd fun p => { p with frames := rest }
  match r with
  | .replay => s1.again (.linkFrameReceive m pd)
  | .bad => s2
  | .good =>
    if last then (s2.note (.vs (nodeClu m f.node) f.entry 5 f.pkt)).spawn (.vsPacketArrive (nodeClu m f.node) 5)
    else
      match passFrame s2 f.hop f.dst f.flow with
      | none => s2
      | some h =>
        spawnFrame (s2.modPort h.into (h.link / 4) fun p => { p with frames := p.frames ++ [{ f with hop := h }] }) h

/-- An answer arrives: at its package, from whose edge router it crosses to its core (R396), or at one on its way. -/
def receiveReply (s : State) (m pd : Nat) (bef aft : List Reply) (r : Reply) (f : Frame) : State :=
  let last := decide (r.dst.mod = m)
  let (e, s1) := receiveFrame s f last
  let node := placeNode r.dst
  match e with
  | .replay => s1.again (.linkFrameReceive m pd)
  | .bad => { s1 with replies := bef ++ aft }
  | .good =>
    if last then
      State.spawn { s1 with replies := bef ++ { r with link := none, due := s.ticks + flight (nearestEdge pd node) node } :: aft }
        (.memResponse r.dst)
    else
      match passFrame s1 f (s.pkgOf r.dst.mod) r.flow with
      | none => pathGone { s1 with replies := bef ++ aft } m (s.pkgOf r.dst.mod)
      | some h => spawnFrame { s1 with replies := bef ++ { r with link := some h } :: aft } h

/-- A request arrives: at the package that it is for, or at one on its way. -/
def receiveMsg (s : State) (m pd : Nat) (bef aft : List Msg) (x : Msg) (f : Frame) : State :=
  let last := decide (x.loc = m)
  let (e, s1) := receiveFrame s f last
  let node := x.nodeIn s m
  match e with
  | .replay => s1.again (.linkFrameReceive m pd)
  | .bad => lose s1 bef aft x
  | .good =>
    if last then
      State.spawn { s1 with net := bef ++ { x with link := none, due := s.ticks + flight (nearestEdge pd node) node } :: aft }
        (if x.back then .walkReturn (x.node s).1 x.src else x.event)
    else
      match passFrame s1 f (s.pkgOf x.loc) (x.flow s) with
      | none => pathGone (lose s1 bef aft x) m (s.pkgOf x.loc)
      | some h => spawnFrame { s1 with net := bef ++ { x with link := some h } :: aft } h

/-- LINK_FRAME_RECEIVE (R396-R399): a frame that has reached a port die is checked; one that fails is discarded, or
replayed. -/
def execLinkFrameReceive (m pd : Nat) (s : State) : Host.Outcome State Fault Refusal :=
  match (s.port m pd).frames with
  | f :: rest => .next (receiveStream s m pd f rest)
  | [] =>
    match splitFirst (fun r : Reply => Frame.atPort m pd r.link && decide (r.due ≤ s.ticks)) s.replies,
        splitFirst (fun x : Msg => Frame.atPort m pd x.link && decide (x.due ≤ s.ticks)) s.net with
    | some (bef, r, aft), _ =>
      (match r.link with
       | none => .next s
       | some f => .next (receiveReply s m pd bef aft r f))
    | none, some (bef, x, aft) =>
      (match x.link with
       | none => .next s
       | some f => .next (receiveMsg s m pd bef aft x f))
    | none, none =>
      if s.replies.any (fun r => Frame.atPort m pd r.link) || s.net.any fun x => Frame.atPort m pd x.link then
        .next (s.again (.linkFrameReceive m pd))
      else .next s

/-! ### Links and paths that fail (R334, R398) -/

/-- LINK_DOWN (R398). -/
def execLinkDown (m link : Nat) (s : State) : Host.Outcome State Fault Refusal :=
  .next (if (s.linkOf m link).up then linkFails s m link else s)

/-- A release probe of a module that goes on to the packages of a TTMASK group (R332). -/
def deepProbe (m grp : Nat) (x : Msg) : Bool :=
  match x.body with
  | .probe g deep => decide (x.loc = m ∧ g = grp) && deep
  | .read _ _ _ _ _ | .write _ _ _ _ _ _ | .amo _ _ _ _ _ _ _ => false

/-- What module `m` has on its way to a package is lost: requests one after another, since probes may stand behind them. -/
def losePath (m peer : Nat) : List Msg → List Msg → State → State
  | _, [], s => s
  | bef, x :: rest, s =>
    if x.link.isSome && decide (x.frm = m) && decide ((s.modOf x.loc).pkg = some peer) then
      losePath m peer bef rest (lose s bef rest x)
    else losePath m peer (bef ++ [x]) rest s

/-- PATH_FAILED (R334, R398): what is on its way between the two packages is lost, and probes to the package
get failure echoes. -/
def execPathFailed (m peer : Nat) (s : State) : Host.Outcome State Fault Refusal :=
  let g := 24 + peer % 7
  let probes := s.net.filter (deepProbe m g)
  let gone (r : Reply) : Bool :=
    match r.link with
    | none => false
    | some f => decide (f.frm = m) && decide ((s.modOf r.dst.mod).pkg = some peer)
  let s1 := s.modMod m fun x => { x with failedPaths := peer :: x.failedPaths.filter (· ≠ peer) }
  let s2 : State := { s1 with net := s1.net.filter fun x => !deepProbe m g x, replies := s1.replies.filter fun r => !gone r }
  .next (probes.foldl (fun t x => failureEcho t x.src g) (losePath m peer [] s2.net s2))

end Sys2Proof.Machine
end

