-- ==== Sys2Proof/Machine/Mortar.lean ====
section
/-! DEFINITION. Mortar: nodes, flits, routing by age with deflection, ejection, ordered delivery and credits
(R389-R395, R400, R405). -/

namespace Sys2Proof.Machine

open Sys2Proof

/-! ### Flits (R390, R393) -/

def Flit.dst (f : Flit) : Nat := bits f.hdr.toNat 63 48
def Flit.src (f : Flit) : Nat := bits f.hdr.toNat 47 32
def Flit.ch (f : Flit) : Nat := bits f.hdr.toNat 31 29
def Flit.seq (f : Flit) : Nat := bits f.hdr.toNat 28 19
def Flit.age (f : Flit) : Nat := bits f.hdr.toNat 18 7
def Flit.ty (f : Flit) : Nat := bits f.hdr.toNat 6 1
def Flit.last (f : Flit) : Bool := bitAt f.hdr.toNat 0

/-- A header. -/
def header (dst src ch seq ty : Nat) (last : Bool) : BitVec 64 :=
  BitVec.ofNat 64 (dst * 2 ^ 48 + src * 2 ^ 32 + ch * 2 ^ 29 + seq % 1024 * 2 ^ 19 + ty * 2 + b2n last)

/-- The TYPE codes that a channel carries (R393). -/
def typeOk (ch ty : Nat) : Bool :=
  match ch with
  | 0 => decide (1 ≤ ty ∧ ty ≤ 4)
  | 1 => decide (ty = 8 ∨ ty = 9 ∨ ty = 10 ∨ ty = 11)
  | 2 => decide (0x10 ≤ ty ∧ ty ≤ 0x12)
  | 3 => decide (ty = 0x18 ∨ ty = 0x19)
  | 4 => decide (0x20 ≤ ty ∧ ty ≤ 0x22)
  | 5 => decide (ty = 0x28)
  | 6 => decide (ty = 0x30 ∨ ty = 0x31)
  | _ => decide (0x38 ≤ ty ∧ ty ≤ 0x3B)

/-- The network interface of a node; port dies stand above 0x8000. -/
def Eject.empty : Eject := { store := [], nextSeq := [], since := [], outSeq := [], flight := [], opened := [] }
def ejectKey (m node : Nat) : Nat := m * 2 ^ 16 + node
def State.eject (s : State) (m node : Nat) : Eject := fget Eject.empty s.ejects (ejectKey m node)
def State.modEject (s : State) (m node : Nat) (f : Eject → Eject) : State :=
  { s with ejects := fset s.ejects (ejectKey m node) (f (s.eject m node)) }

/-- The router a flit is bound for: a port die's edge router is the one nearest the flit's source. -/
def Flit.target (f : Flit) : Nat := if bitAt f.dst 15 then nearestEdge (f.dst % 16) f.src else f.dst

/-! ### Routing (R391, R392) -/

/-- A sequence number is the earlier of two of one flow, of which at most 256 are in flight (R395). -/
def seqBefore (a b : Nat) : Bool := decide (0 < (b + 1024 - a) % 1024 ∧ (b + 1024 - a) % 1024 < 512)

/-- A flit is older than another (R391). -/
def older (a b : Flit) : Bool :=
  decide (b.age < a.age) || (decide (a.age = b.age) && (decide (a.src < b.src) || (decide (a.src = b.src) &&
    (decide (a.ch < b.ch) || (decide (a.ch = b.ch) && seqBefore a.seq b.seq)))))

/-- Flits in the order of a router's arbitration. -/
def insertOld (f : Flit) : List Flit → List Flit
  | [] => [f]
  | g :: gs => if older f g then f :: g :: gs else g :: insertOld f gs
def byAge (l : List Flit) : List Flit := l.foldl (fun acc f => insertOld f acc) []

/-- The share of a channel has room at a flit's destination (R394), flits on their way into the store counted:
channels 1 and 4 always do, and a flit to be discarded needs none (R393). -/
def hasRoom (s : State) (f : Flit) : Bool :=
  let same (g : Flit) : Bool := decide (g.ch = f.ch)
  let coming (g : Flit) : Bool := same g && decide (g.mod = f.mod ∧ g.dst = f.dst ∧ g.stage = .eject)
  decide (f.ch = 1 ∨ f.ch = 4) || !typeOk f.ch f.ty
    || decide (((s.eject f.mod f.dst).store.filter same).length + (s.flits.filter coming).length
        < nth 0 (s.modOf f.mod).shares f.ch)

/-- The outputs that shorten a flit's way: network ports 0-3; at its router 4, the local port, or 5, the port
die, unless its share is full there (R394). -/
def productive (s : State) (f : Flit) (node : Nat) : List Nat :=
  if node = f.target then (if hasRoom s f then [if bitAt f.dst 15 then 5 else 4] else [])
  else (List.range 4).filter fun p => decide (torusDist (neighbour node p) f.target < torusDist node f.target)

/-- The output of a flit (R391): a free productive one, else the lowest free network output. Which of two free
productive outputs is open (R9). -/
def outputOf (s : State) (f : Flit) (node : Nat) (taken : List Nat) : Option Nat × State :=
  let free (p : Nat) : Bool := !taken.contains p
  match (productive s f node).filter free with
  | [] => ((List.range 4).find? free, s)
  | ps => let (c, s1) := s.choice ps.length; (ps[c]?, s1)

/-- A flit takes an output at time `t`: one more hop, or to the ejection unit (R389). -/
def moveFlit (t : Nat) (f : Flit) (p : Nat) : Flit :=
  if p < 4 then
    let h := putBits f.hdr.toNat 18 7 (Nat.min 4095 (f.age + 1))
    let n := neighbour f.node p
    { f with node := n, hdr := BitVec.ofNat 64 h, stage := .transit, ready := t + hopTime f.node n }
  else { f with stage := .eject, ready := t + 2 }

/-- Assign arriving flits to outputs, the oldest first: the moves, and those that find no output left. -/
def assign (node : Nat) : List Flit → List Nat → State → List Flit × List Flit × List Nat × State
  | [], taken, s => ([], [], taken, s)
  | f :: fs, taken, s =>
    match outputOf s f node taken with
    | (some p, s1) =>
      let (mv, st, tk, s2) := assign node fs (p :: taken) s1
      (moveFlit s.ticks f p :: mv, st, tk, s2)
    | (none, s1) =>
      let (mv, st, tk, s2) := assign node fs taken s1
      (mv, f :: st, tk, s2)

/-- A source keeps at most 256 flits in flight for each destination and channel, and injects the flits of packets on one
channel consecutively (R395). -/
def mayInject (s : State) (f : Flit) : Bool :=
  let e := s.eject f.mod f.src
  decide (fget 0 e.flight (f.dst * 8 + f.ch) < 256) && decide (fget f.dst e.opened f.ch = f.dst)

/-- The flits that may be injected next: of each source, destination and channel the first that waits (R392, R395). -/
def injectable (s : State) : List Flit → List Flit → List Flit
  | _, [] => []
  | seen, f :: fs =>
    let first := seen.all fun g => decide (¬(g.src = f.src ∧ g.dst = f.dst ∧ g.ch = f.ch))
    if first && mayInject s f then f :: injectable s (f :: seen) fs else injectable s (f :: seen) fs

/-- The network interface of a flit's source when it is injected. -/
def Eject.inject (e : Eject) (f : Flit) : Eject :=
  let k := f.dst * 8 + f.ch
  { e with flight := fset e.flight k (fget 0 e.flight k + 1),
           opened := if f.last then fdel e.opened f.ch else fset e.opened f.ch f.dst }

/-- FLIT_ROUTE (R391, R392): the flits that have arrived at a router, then one waiting for injection. DESIGN CHOICE (log 19):
which of those that may be injected comes first is an open choice, the manual leaving the order of different cores and
homes unspecified (R392). -/
def execFlitRoute (m node : Nat) (s : State) : Host.Outcome State Fault Refusal :=
  let here (st : FlitStage) (f : Flit) : Bool :=
    decide (f.mod = m ∧ f.node = node ∧ f.stage = st ∧ f.ready ≤ s.ticks)
  let (mv, stay, taken, s1) := assign node (byAge (s.flits.filter (here .transit))) [] s
  let others := s.flits.filter fun f => !here .transit f
  let ready := injectable s [] (others.filter (here .inject))
  let (c, s2) := s1.choice ready.length
  match ready[c]? with
  | none => .next { s1 with flits := others ++ stay ++ mv }
  | some f =>
    match outputOf s2 f node taken with
    | (none, s3) => .next { s3 with flits := others ++ stay ++ mv }
    | (some p, s3) =>
      .next { s3.modEject m f.src fun e => e.inject f with
        flits := dropFirst (fun g => decide (g = f)) others ++ stay ++ mv ++ [moveFlit s.ticks f p] }

/-! ### Ejection and delivery (R394, R395) -/

/-- FLIT_EJECT (R393, R394): a flit is accepted, or discarded for its TYPE and counted. -/
def execFlitEject (m node : Nat) (s : State) : Host.Outcome State Fault Refusal :=
  match splitFirst (fun f => decide (f.mod = m ∧ f.node = node ∧ f.stage = .eject ∧ f.ready ≤ s.ticks)) s.flits with
  | none => .next s
  | some (bef, f, aft) =>
    let s1 := { s with flits := bef ++ aft }
    if typeOk f.ch f.ty = false then .next (s1.count (cluDie (nodeClu m node)) 12)
    else
      .next ((s1.modEject m f.dst fun e => { e with store := e.store ++ [f] }).spawn
        (.packetDeliver m f.dst f.src f.ch))

/-- The flits of a packet in sequence from a number, if all are there: nine at most. -/
def gatherFlits (fs : List Flit) : Nat → Nat → Option (List Flit)
  | 0, _ => none
  | n + 1, seq =>
    match fs.find? fun f => decide (f.seq = seq) with
    | none => none
    | some f => if f.last then some [f] else (gatherFlits fs n ((seq + 1) % 1024)).map (f :: ·)

/-- The head payload of a stream packet, and of a marker (R405). -/
def headPayload (entry : Nat) (p : VsPacket) : Vec :=
  let word := match p.marker with
    | some w => w.toNat
    | none => 0
  BitVec.ofNat 256 (entry + p.group * 2 ^ 8 + p.gen * 2 ^ 16 + b2n p.gv * 2 ^ 24 + p.chunk % 2 ^ 32 * 2 ^ 32
    + p.flits.length * 2 ^ 64 + p.tenant * 2 ^ 72 + word * 2 ^ 128)

/-- The TYPE of the flits of a stream packet, marker or abort (R393). -/
def packetType (p : VsPacket) : Nat := if p.abort then 0x22 else if p.marker.isSome then 0x21 else 0x20

/-- The payloads of a stream packet: head, then data (R405). -/
def payloads (entry : Nat) (p : VsPacket) : List Vec :=
  if p.abort || p.marker.isSome then [headPayload entry p] else headPayload entry p :: p.flits

/-- A stream packet from its flits: its entry, and the packet. -/
def packetOf (fs : List Flit) : Option (Nat × VsPacket) :=
  match fs with
  | [] => none
  | h :: rest =>
    let x := h.payload.toNat
    some (x % 256,
      { chunk := bits x 63 32, flits := rest.map (·.payload),
        marker := if h.ty = 0x21 then some (word (x / 2 ^ 128)) else none, abort := decide (h.ty = 0x22),
        tenant := bits x 79 72, group := bits x 15 8, gen := bits x 23 16, gv := bitAt x 24 })

/-- Inject a packet at a router, from a node or a port die there. -/
def inject (s : State) (m router src dst ch ty tenant : Nat) (ps : List Vec) : State :=
  let k := dst * 8 + ch
  let seq := fget 0 (s.eject m src).outSeq k
  let flit (i : Nat) : Flit :=
    { mod := m, node := router, hdr := header dst src ch (seq + i) ty (decide (i + 1 = ps.length)),
      payload := nth 0 ps i, tenant := tenant, stage := .inject, ready := s.ticks + 1 }
  let s1 := s.modEject m src fun e => { e with outSeq := fset e.outSeq k ((seq + ps.length) % 1024) }
  { s1 with flits := s1.flits ++ (List.range ps.length).map flit }

/-- Inject a stream packet at a node for a neighbour or a port die (R405). -/
def sendPacket (s : State) (m node dst entry : Nat) (p : VsPacket) : State :=
  inject s m node node dst 4 (packetType p) p.tenant (payloads entry p)

/-- The router at which an interface stands: a node's own, or the edge router of a port die that is nearest a node (R396). -/
def routerOf (src dst : Nat) : Nat := if bitAt src 15 then nearestEdge (src % 16) dst else src

/-- Return a delivery credit (R395): one flit on channel 7 to the source. DESIGN CHOICE (log 19): its payload names the
channel. -/
def sendDeliveryCredit (s : State) (m node src ch : Nat) : State :=
  inject s m (routerOf node src) node src 7 0x3B 64 [BitVec.ofNat 256 ch]

/-- A port die sends a stream packet over the bundle of its direction to the neighbouring module's edge router of the same
node (R405, log 23). -/
def edgeSend (s : State) (m pd node entry : Nat) (p : VsPacket) : State :=
  match portDir s m pd with
  | none => s
  | some d =>
    let dst := neighbourIn (s.pkgOf m) d
    match sendFrame s m dst p.tenant (some d) (Config.flowHash node node 4) with
    | none => s
    | some (f, s1) =>
      let x : LinkFrame := { hop := f, dst := dst, node := node, entry := entry, pkt := p }
      spawnFrame (s1.modPort f.into (f.link / 4) fun y => { y with frames := y.frames ++ [x] }) f

/-- A delivered stream packet reaches its router entry, or goes out at the port die. -/
def deliverPacket (s : State) (m node src : Nat) (fs : List Flit) : State :=
  match packetOf fs with
  | none => s
  | some (entry, p) =>
    if bitAt node 15 then edgeSend s m (node % 16) src entry p
    else
      let port := (portTo node src).getD 5
      (s.note (.vs (nodeClu m node) entry port p)).spawn (.vsPacketArrive (nodeClu m node) port)

/-- A delivered packet reaches its endpoint: a stream packet its entry, a delivery credit the network interface. -/
def consume (s : State) (m node src ch : Nat) (fs : List Flit) : State :=
  if ch = 4 then deliverPacket s m node src fs
  else
    match fs with
    | [f] =>
      if f.ty = 0x3B then
        let c := f.payload.toNat % 8
        (s.note (.credit m node src c)).spawn (.deliveryCredit m node src c)
      else s
    | _ => s

/-- PACKET_DELIVER (R395): the next packet of a source and channel in SEQ order, once it is whole; a credit for
every 32 flits. -/
def execPacketDeliver (m node src ch : Nat) (s : State) : Host.Outcome State Fault Refusal :=
  let e := s.eject m node
  let k := src * 8 + ch
  let seq := fget 0 e.nextSeq k
  let mine (f : Flit) : Bool := decide (f.src = src ∧ f.ch = ch)
  match gatherFlits (e.store.filter mine) 9 seq with
  | none => .next s
  | some fs =>
    let n := fget 0 e.since k + fs.length
    let s1 := s.modEject m node fun x =>
      { x with store := x.store.filter fun f => !(mine f && fs.contains f),
               nextSeq := fset x.nextSeq k ((seq + fs.length) % 1024), since := fset x.since k (n % 32) }
    let s2 := if 32 ≤ n then sendDeliveryCredit s1 m node src ch else s1
    .next ((consume s2 m node src ch fs).spawn (.packetDeliver m node src ch))

/-- DELIVERY_CREDIT (R395): 32 more flits may be in flight. -/
def execDeliveryCredit (m src dst ch : Nat) (s : State) : Host.Outcome State Fault Refusal :=
  let f (n : Note) : Option Unit :=
    match n with
    | .credit a b c d => if a = m ∧ b = src ∧ c = dst ∧ d = ch then some () else none
    | _ => none
  match takeNote f s.notes with
  | none => .next s
  | some (_, rest) =>
    let k := dst * 8 + ch
    .next (State.modEject { s with notes := rest } m src fun e =>
      { e with flight := fset e.flight k (fget 0 e.flight k - 32) })

end Sys2Proof.Machine
end

