-- ==== Sys2Proof/Machine/Collectives.lean ====
section
/-! DEFINITION. Collectives: virtual-stream entries, QSEND, QRECV, VSOPEN, VSMARK, VSCLOSE, router entries at
work, gang stops (R402-R417). -/

namespace Sys2Proof.Machine

open Sys2Proof

/-! ### Entries (R404) -/

/-- An entry that is not valid. -/
def VsEntry.free : VsEntry :=
  { tenant := 0, core := none, q := 0, cur := 0, sets := [], group := 0, gen := 0, gv := false, held := [],
    out := [], owed := [] }

/-- The entry of a cluster's router, if it is valid. -/
def entryOf (s : State) (clu e : Nat) : Option VsEntry :=
  ((s.cluOf clu).entries.find? fun x => decide (x.1 = e)).map (·.2)

def State.modEntry (s : State) (clu e : Nat) (f : VsEntry → VsEntry) : State :=
  s.modClu clu fun c => { c with entries := c.entries.map fun x => if x.1 = e then (x.1, f x.2) else x }

/-- The current set. -/
def VsEntry.set (x : VsEntry) : VsSet := nth { inp := 0, out := 0, op := 0 } x.sets x.cur

/-- The ports of a mask, lowest first. -/
def portsOf (mask : Nat) : List Nat := (List.range 6).filter (bitAt mask)

/-- A credit goes back to whoever sends into an input of an entry (R406, R412). -/
def sendCredit (s : State) (clu e port : Nat) : State :=
  let m := dieMod (cluDie clu)
  let node := nodeOf clu
  let target : Option (Nat × Nat) :=
    match port with
    | 0 => some (nodeClu m (neighbour node 0), 1)
    | 1 => some (nodeClu m (neighbour node 1), 0)
    | 2 => some (nodeClu m (neighbour node 2), 3)
    | 3 => some (nodeClu m (neighbour node 3), 2)
    | 4 => some (clu, 4)
    | _ =>
      match edgePort node with
      | none => none
      | some pd =>
        (portSource s m pd).map fun k => (nodeClu k node, 5)
  match target with
  | none => s
  | some (c, p) => (s.note (.vsCredit c e p)).spawn (.vsCredit c e p)

/-! ### Router entries at work (R406, R407) -/

/-- The flits of a packet as a queue delivers them (R413). -/
def queueFlits (p : VsPacket) : List QFlit :=
  match p.marker with
  | some w => [{ data := BitVec.ofNat 256 w.toNat, chunk := p.chunk, idx := 0, last := true, mark := true, abort := false }]
  | none =>
    if p.abort then [{ data := 0, chunk := p.chunk, idx := 0, last := true, mark := false, abort := true }]
    else (List.range p.flits.length).map fun i =>
      { data := nth 0 p.flits i, chunk := p.chunk, idx := i, last := decide (i + 1 = p.flits.length), mark := false, abort := false }

/-- Change a q register of a core. -/
def State.modQ (s : State) (core q : Nat) (f : QState → QState) : State :=
  s.modCore core fun c => { c with qs := setNth c.qs q (f (nth QState.free c.qs q)) }

/-- Hand a packet to the bound q register, if its queue of 32 flits has room (R413). -/
def toQueue (s : State) (clu : Nat) (x : VsEntry) (p : VsPacket) : Option State :=
  match x.core with
  | none => some s
  | some c =>
    let core := clu * 16 + c
    let q := nth QState.free (s.coreOf core).qs x.q
    let fs := queueFlits p
    if q.recv.length + fs.length ≤ 32 then
      let s1 := s.modQ core x.q fun y => { y with recv := y.recv ++ fs }
      let s2 := if p.abort then s1.count (cluDie clu) 4 else s1
      some (s2.modStrand (placeOf core 15) fun y => y.wakeIf [.qrecv])
    else none

/-- The credits of an output of an entry (R406): eight, less what the neighbour's input holds. -/
def creditsOf (s : State) (clu e port : Nat) : Nat := fget 8 (s.cluOf clu).vsCredits (e * 8 + port)
def State.setCredits (s : State) (clu e port n : Nat) : State :=
  s.modClu clu fun c => { c with vsCredits := fset c.vsCredits (e * 8 + port) n }

/-- Send one pending packet of an entry through its port, if that is possible now (R406). -/
def sendOut (s : State) (clu e : Nat) (x : VsEntry) (port : Nat) (p : VsPacket) : Option State :=
  let m := dieMod (cluDie clu)
  let node := nodeOf clu
  if port = 4 then toQueue s clu x p
  else if creditsOf s clu e port = 0 then none
  else
    let s1 := s.setCredits clu e port (creditsOf s clu e port - 1)
    if port < 4 then some (sendPacket s1 m node (neighbour node port) e p)
    else
      match edgePort node with
      | none => some s1
      | some pd => some (sendPacket s1 m node (0x8000 + pd) e p)

/-- Send what an entry has pending, each port in order. -/
def flushOut (clu e : Nat) : List (Nat × VsPacket) → List Nat → State → List (Nat × VsPacket) × State
  | [], _, s => ([], s)
  | (port, p) :: rest, stuck, s =>
    let keep (st : List Nat) : List (Nat × VsPacket) × State :=
      let (l, s1) := flushOut clu e rest st s
      ((port, p) :: l, s1)
    if stuck.contains port then keep stuck
    else
      match entryOf s clu e with
      | none => ([], s)
      | some x =>
        match sendOut s clu e x port p with
        | some s1 => flushOut clu e rest stuck s1
        | none => keep (port :: stuck)

/-- One element of a combine (R406): the sum in RNE, or the larger value; NaN results are canonical. -/
def combineElem (op : Nat) (x y : Nat) : Nat :=
  let f : FloatCode := if op = 1 ∨ op = 3 then .fp32 else .bf16
  if op ≤ 2 then (roundNum f .rne (addNum .rne (decodeNum f x) (decodeNum f y)).1).1
  else
    let m := maxCodeOf f x y
    if (decodeNum f m).isNan then f.nanCode else m

/-- Combine two data flits element by element. -/
def combineFlit (op : Nat) (a b : Vec) : Vec :=
  let w := if op = 1 ∨ op = 3 then 32 else 16
  packV w ((List.range (256 / w)).map fun i => combineElem op (lane a.toNat w i) (lane b.toNat w i))

/-- Combine the data flits of two packets. -/
def combineFlits (op : Nat) : List Vec → List Vec → List Vec
  | a :: as, b :: bs => combineFlit op a b :: combineFlits op as bs
  | _, _ => []

/-- A list in an order that is left open (R9). -/
def anyOrder {α : Type} : Nat → List α → State → List α × State
  | 0, l, s => (l, s)
  | n + 1, l, s =>
    match l with
    | [] => ([], s)
    | x :: xs =>
      let (c, s1) := s.choice (x :: xs).length
      let y := nth x (x :: xs) c
      let (rest, s2) := anyOrder n ((x :: xs).eraseIdx c) s1
      (y :: rest, s2)

/-- What one combine sends (R406): the combined packet, or an abort when the inputs do not agree. -/
def combine (op : Nat) (ps : List VsPacket) : Option VsPacket :=
  match ps with
  | [] => none
  | p :: rest =>
    let same (q : VsPacket) : Bool := decide (q.chunk = p.chunk ∧ q.flits.length = p.flits.length) && !q.abort
    if p.abort = false ∧ rest.all same then
      some { p with flits := rest.foldl (fun acc q => combineFlits op acc q.flits) p.flits }
    else some { p with flits := [], marker := none, abort := true }

/-- The oldest packet that an input holds. -/
def headOf (x : VsEntry) (port : Nat) : Option VsPacket := (fget [] x.held port).head?

/-- Take the oldest packet of some inputs, and put what they send before every output; their credits go back once that is
sent. -/
def takeInputs (s : State) (clu e : Nat) (ports : List Nat) (outs : List (Nat × VsPacket)) (step : Bool) : State :=
  s.modEntry clu e fun y =>
    { y with held := ports.foldl (fun h p => fset h p ((fget [] h p).drop 1)) y.held, out := y.out ++ outs,
             owed := y.owed ++ ports, cur := if step then (y.cur + 1) % Nat.max 1 y.sets.length else y.cur }

/-- The credits that an entry owes go back (R406). -/
def payCredits (s : State) (clu e : Nat) (x : VsEntry) : State :=
  x.owed.foldl (fun t p => sendCredit t clu e p) (s.modEntry clu e fun y => { y with owed := [] })

/-- One action of an entry that has nothing pending (R406, R407): a step on markers, a packet forwarded, or a
combine, which returns its inputs' credits at once. -/
def entryAction (s : State) (clu e : Nat) (x : VsEntry) : Option State :=
  let st := x.set
  let ins := portsOf st.inp
  let send (p : VsPacket) : List (Nat × VsPacket) := (portsOf st.out).map fun o => (o, p)
  let heads := ins.filterMap fun i => (headOf x i).map fun p => (i, p)
  let full := decide (heads.length = ins.length) && !ins.isEmpty
  if full && heads.all fun h => h.2.marker.isSome then
    match heads with
    | [] => none
    | h :: _ => some (takeInputs s clu e ins (send h.2) true)
  else
    let data := heads.filter fun h => h.2.marker.isNone
    if st.op = 0 then
      match data with
      | [] => none
      | d :: ds =>
        let (c, s1) := s.choice (d :: ds).length
        let h := nth d (d :: ds) c
        some (takeInputs s1 clu e [h.1] (send h.2) false)
    else if full && decide (data.length = ins.length) then
      let (ps, s1) := anyOrder 6 (data.map (·.2)) s
      match combine st.op ps with
      | none => none
      | some r =>
        let s2 := if r.abort then ps.foldl (fun t _ => t.count (cluDie clu) 4) s1 else s1
        let s3 := takeInputs s2 clu e ins (send r) false
        some (payCredits s3 clu e ((entryOf s3 clu e).getD x))
    else none

/-- An entry works as long as it can. -/
def runEntry (clu e : Nat) : Nat → State → State
  | 0, s => s
  | n + 1, s =>
    match entryOf s clu e with
    | none => s
    | some x =>
      let (left, s1) := flushOut clu e x.out [] s
      let s2 := s1.modEntry clu e fun y => { y with out := left }
      if left.isEmpty then
        match entryOf s2 clu e with
        | none => s2
        | some y =>
          let s3 := payCredits s2 clu e y
          match entryAction s3 clu e y with
          | none => s3
          | some s4 => runEntry clu e n s4
      else s2

/-- The most actions that one arrival can set off: eight packets of six inputs. -/
def entryFuel : Nat := 64

/-- A packet or marker that is rejected is counted. DESIGN CHOICE (log 19): its credit goes back, since nothing holds it. -/
def rejectPacket (s : State) (clu e port no : Nat) : State := sendCredit (s.count (cluDie clu) no) clu e port

/-- VS_PACKET_ARRIVE (R406): rejected and counted, or held; then the entry works. -/
def execVsPacketArrive (clu port : Nat) (s : State) : Host.Outcome State Fault Refusal :=
  let f (n : Note) : Option (Nat × VsPacket) :=
    match n with
    | .vs c e p q => if c = clu ∧ p = port then some (e, q) else none
    | _ => none
  match takeNote f s.notes with
  | none => .next s
  | some ((e, p), rest) =>
    let s1 := { s with notes := rest }
    match entryOf s clu e with
    | none => .next (rejectPacket s1 clu e port 12)
    | some x =>
      if x.tenant ≠ p.tenant then .next (rejectPacket s1 clu e port 12)
      else if p.gv && !(decide (p.group = x.group ∧ p.gen = x.gen)) then .next (rejectPacket s1 clu e port 3)
      else
        let s2 := s1.modEntry clu e fun y => { y with held := fset y.held port (fget [] y.held port ++ [p]) }
        .next (runEntry clu e entryFuel s2)

/-- A packet or marker enters an entry as its LOCAL input. -/
def enterLocal (s : State) (clu e : Nat) (p : VsPacket) : State := (s.note (.vs clu e 4 p)).spawn (.vsPacketArrive clu 4)

/-- A credit reaches the sender into an entry's LOCAL input: its q register (R412), an abort that waited for it first. -/
def creditQueue (s : State) (clu e : Nat) : State :=
  match entryOf s clu e with
  | none => s
  | some x =>
    match x.core with
    | none => s
    | some c =>
      match (nth QState.free (s.coreOf (clu * 16 + c)).qs x.q).aborts with
      | p :: ps => enterLocal (s.modQ (clu * 16 + c) x.q fun q => { q with aborts := ps }) clu e p
      | [] =>
        (s.modQ (clu * 16 + c) x.q fun q => { q with sent := q.sent - 1 }).modStrand (placeOf (clu * 16 + c) 15)
          fun y => y.wakeIf [.mem]

/-- VS_CREDIT (R406): a hop may send one more packet. -/
def execVsCredit (clu entry port : Nat) (s : State) : Host.Outcome State Fault Refusal :=
  let f (n : Note) : Option Unit :=
    match n with
    | .vsCredit c e p => if c = clu ∧ e = entry ∧ p = port then some () else none
    | _ => none
  match takeNote f s.notes with
  | none => .next s
  | some (_, rest) =>
    let s1 := { s with notes := rest }
    if port = 4 then .next (creditQueue s1 clu entry)
    else
      .next (runEntry clu entry entryFuel (s1.setCredits clu entry port (Nat.min 8 (creditsOf s clu entry port + 1))))

/-! ### The communication strand (R402, R403, R409-R414) -/

/-- ILLEGAL_INSTR outside slot 15 (R83, R403). -/
def needComm (op : Nat) : Act Unit := fun s => if s.cur.slot = 15 then .ok ((), s) else illegal op s

/-- A q register of the executing strand. -/
def State.q (s : State) (q : QReg) : QState := nth QState.free s.core.qs q.val

/-- ILLEGAL_INSTR unless a q register is bound. DEDUCED (log 28): a binding that another VF has left in its entry binds
nothing for this strand (R416). -/
def needBound (op : Nat) (q : QReg) : Act Unit := fun s =>
  if (s.q q).bound ∧ (s.q q).tenant = s.tenant then .ok ((), s) else illegal op s

/-- A gang stop holds a send of this chunk (R416). -/
def sendHeld (q : QState) : Bool :=
  match q.limit with
  | none => false
  | some none => true
  | some (some c) => decide (c < q.chunk)

/-- The request number that stands for a send of q register `q` which a gang stop holds. -/
def askHeld (q : Nat) : Nat := 79 + 8 * q

/-- A send that a gang stop holds parks (R416). -/
def parkHeld {α : Type} (q : QReg) : Act α := fun s =>
  if hasAsked s.me (askHeld q.val) then .error (.park .mem false s) else .error (.park .mem true (ask s (askHeld q.val)))

/-- The current set of a q register's entry combines (R408). -/
def combines (s : State) (q : QState) : Bool :=
  match entryOf s s.cur.cluKey q.entry with
  | none => false
  | some x => decide (x.set.op ≠ 0)

/-- OPENPKT with a packet open on a q register (R88). -/
def openPkt (q : QReg) : Word := word (q.val * 64 + 32)

/-- A packet or marker of a q register enters its entry as the LOCAL input (R412, R414). -/
def injectLocal (s : State) (q : QReg) (flits : List Vec) (marker : Option Word) : State :=
  let y := s.q q
  let clu := s.cur.cluKey
  let x := (entryOf s clu y.entry).getD VsEntry.free
  let p : VsPacket := { chunk := y.chunk, flits := flits, marker := marker, abort := false, tenant := s.tenant,
                        group := x.group, gen := x.gen, gv := x.gv }
  let s1 := s.modQ s.cur.coreKey q.val fun z =>
    { z with sent := z.sent + 1, chunk := if marker.isSome then z.chunk else (z.chunk + 1) % 2 ^ 32 }
  enterLocal s1 clu y.entry p

/-- QSEND (R412). -/
def execQsend (q : QReg) (b : VReg) (fin : Bool) (s : State) : Host.Outcome State Fault Refusal :=
  finish s (Act.res (do
    needComm 0x58
    needBound 0x58 q
    let x := s.me
    let y := s.q q
    if x.pktOpen && decide (fld x.csr.openpkt 7 6 ≠ q.val) then illegal 0x58
    else do
      if !x.pktOpen then do
        if sendHeld y then parkHeld q
        if combines s y then needGrant 1
      let v ← rv b
      let flits := x.pkt ++ [v]
      if fin || decide (8 ≤ flits.length) then
        if 8 ≤ y.sent then parkOn .mem
        else do
          change fun t => injectLocal t q flits none
          change fun t => (t.modMe fun z => { z with pkt := [] }).modCsr fun c => { c with openpkt := 0 }
      else do
        change fun t => t.modMe fun z => { z with pkt := flits }
        if !x.pktOpen then change fun t => t.modCsr fun c => { c with openpkt := openPkt q }) s)

/-- The status of a received flit (R413). -/
def recvStatus (f : QFlit) : Nat :=
  f.chunk * 2 ^ 16 + f.idx % 16 * 2 ^ 8 + b2n f.abort * 4 + b2n f.mark * 2 + b2n f.last

/-- QRECV (R413). -/
def execQrecv (d : VReg) (q : QReg) (b : GReg) (poll : Bool) (s : State) : Host.Outcome State Fault Refusal :=
  finish s (Act.res (do
    needComm 0x59
    needBound 0x59 q
    match (s.q q).recv with
    | [] =>
      if poll then change fun t => (wg t b 8).modMe setVused else parkOn .qrecv
    | f :: rest => do
      wv d f.data
      change fun t => t.modQ t.cur.coreKey q.val fun z => { z with recv := rest }
      change fun t => wg t b (word (recvStatus f))
      change fun t =>
        let e := (t.q q).entry
        runEntry t.cur.cluKey e entryFuel t) s)

/-- The sets of a stream descriptor (R410). -/
def descSets (x : Nat) : List VsSet :=
  (List.range (Nat.min 4 (dfield x 0x10 1))).map fun i =>
    let w := dfield x (4 * i) 4
    { inp := bits w 5 0, out := bits w 13 8, op := bits w 18 16 }

/-- A stream descriptor breaks R410 for a router (reason 2 of R409). -/
def streamBad (x : Nat) (nb : Bool) (edge : Bool) : Bool :=
  let n := dfield x 0x10 1
  let bad (i : Nat) : Bool :=
    let w := dfield x (4 * i) 4
    let ports := bits w 5 0 ||| bits w 13 8
    decide (bits w 7 6 ≠ 0 ∨ bits w 15 14 ≠ 0 ∨ bits w 31 19 ≠ 0 ∨ 5 ≤ bits w 18 16)
      || (bitAt ports 5 && !edge) || (nb && bitAt ports 4)
  decide (n = 0 ∨ 4 < n) || decide (2 ≤ dfield x 0x13 1) || decide (dfield x 0x14 12 ≠ 0)
    || (List.range (Nat.min n 4)).any bad

/-- The gang stops of a VF, of all modules. -/
def gangsOf (s : State) (vf : Nat) : List Gang := (s.mods.flatMap (·.2.gangs)).filter fun g => decide (g.vf = vf)

/-- What a gang stop of a VF holds (R416): in its query every send that opens a chunk, later those above its chunk. -/
def gangHold (s : State) (vf : Nat) : Option (Option Nat) :=
  match gangsOf s vf with
  | [] => none
  | g :: _ => if g.step = 1 then some none else some g.chunk

/-- VSOPEN (R411); a q register that it binds is held as its VF's others are (R416). -/
def execVsopen (d a : GReg) (nb : Bool) (q : QReg) (entry : BitVec 8) (s : State) :
    Host.Outcome State Fault Refusal :=
  let a' := addrOf (rg s a)
  let clu := s.cur.cluKey
  let e := entry.toNat
  let edge := (edgePort (nodeOf clu)).isSome
  finish s (Act.res (do
    needComm 0x5A
    let r ← if a' % 32 = 0 then localStruct a' 32 else pure none
    match r with
    | none => change fun t => wg t d (rejectWord 1)
    | some x =>
      if streamBad x nb edge then change fun t => wg t d (rejectWord 2)
      else if (entryOf s clu e).isSome then change fun t => wg t d (rejectWord 3)
      else if !nb && (s.q q).bound then change fun t => wg t d (rejectWord 4)
      else if (descSets x).any (fun v => decide (v.op ≠ 0)) && !(s.policy s.cur.mod s.tenant).enrol then
        change fun t => wg t d (rejectWord 5)
      else do
        let v : VsEntry :=
          { VsEntry.free with
            tenant := s.tenant, core := if nb then none else some s.cur.core, q := q.val, sets := descSets x,
            group := dfield x 0x11 1, gen := dfield x 0x12 1, gv := bitAt (dfield x 0x13 1) 0 }
        change fun t => t.modMyClu fun c => { c with entries := fset c.entries e v }
        if !nb then
          change fun t => t.modQ t.cur.coreKey q.val fun y =>
            { y with bound := true, entry := e, tenant := t.tenant, chunk := 0, recv := [], sent := 0, aborts := [],
                     limit := gangHold t t.tenant }
        change fun t => wg t d 0) s)

/-- VSMARK (R414). -/
def execVsmark (q : QReg) (b : GReg) (s : State) : Host.Outcome State Fault Refusal :=
  let w := rg s b
  finish s (Act.res (do
    needComm 0x5B
    needBound 0x5B q
    if s.me.pktOpen then illegal 0x5B
    else if sendHeld (s.q q) then parkHeld q
    else if 8 ≤ (s.q q).sent then parkOn .mem
    else change fun t => injectLocal t q [] (some w)) s)

/-- An entry holds a packet or marker. -/
def VsEntry.holds (x : VsEntry) : Bool := !x.out.isEmpty || x.held.any fun h => !h.2.isEmpty

/-- A packet or marker of the bound q register is on its way into an entry, or waits for a credit (R89). -/
def localComing (s : State) (clu e : Nat) (x : VsEntry) : Bool :=
  (s.notes.any fun
    | .vs c f 4 _ => decide (c = clu ∧ f = e)
    | _ => false)
  || match x.core with
    | none => false
    | some c => !(nth QState.free (s.coreOf (clu * 16 + c)).qs x.q).aborts.isEmpty

/-- The strand whose open packet the closing of an entry abandons (R411): that of the core that the entry is bound to. -/
def openOn (s : State) (clu : Nat) (x : VsEntry) : Option Place :=
  match x.core with
  | none => none
  | some c =>
    let p := placeOf (clu * 16 + c) 15
    if (s.strand p).pktOpen && decide (fld (s.strand p).csr.openpkt 7 6 = x.q) then some p else none

/-- An entry and its binding go (R411), with the credits that are on their way to the q register. -/
def closeEntry (s : State) (clu e : Nat) (x : VsEntry) : State :=
  let local4 : Note → Bool
    | .vsCredit c f 4 => decide (c = clu ∧ f = e)
    | _ => false
  let s1 := State.modClu { s with notes := s.notes.filter fun n => !local4 n } clu fun c => { c with entries := fdel c.entries e }
  match x.core with
  | none => s1
  | some c => s1.modQ (clu * 16 + c) x.q fun _ => QState.free

/-- VSCLOSE (R411). -/
def execVsclose (d : GReg) (entry : BitVec 8) (s : State) : Host.Outcome State Fault Refusal :=
  let clu := s.cur.cluKey
  let e := entry.toNat
  finish s (Act.res (do
    needComm 0x5C
    match entryOf s clu e with
    | none => change fun t => wg t d (rejectWord 3)
    | some x =>
      if x.tenant ≠ s.tenant then change fun t => wg t d (rejectWord 3)
      else
        match openOn s clu x with
        | some p => fun t => .error (.park .mem true ((abandon t p).spawn (.memResponse t.cur)))
        | none => if x.holds || localComing s clu e x then pollMem else change fun t => wg (closeEntry t clu e x) d 0) s)

/-! ### Gang stops (R415, R416) -/

/-- The gang stop of a VF in a module. -/
def gangOf (s : State) (m vf : Nat) : Option Gang := (s.modOf m).gangs.find? fun g => decide (g.vf = vf)

/-- The cores with a bound q register of a VF, in all modules: its streams cross the links (R405, R415). -/
def memberCores (s : State) (vf : Nat) : List Nat :=
  (s.cores.filter fun e => e.2.qs.any fun q => q.bound && decide (q.tenant = vf)).map (·.1)

/-- Set the limit of a VF's bound q registers in the modules that a test names. -/
def setLimits (s : State) (inMod : Nat → Bool) (vf : Nat) (l : Option (Option Nat)) : State :=
  let f (q : QState) : QState := if q.bound && decide (q.tenant = vf) then { q with limit := l } else q
  { s with cores := s.cores.map fun e =>
      if inMod (dieMod (cluDie (coreClu e.1))) then (e.1, { e.2 with qs := e.2.qs.map f }) else e }

/-- Sends that waited for a gang stop try again. -/
def wakeMembers (s : State) (vf : Nat) : State :=
  (memberCores s vf).foldl (fun t k => t.modStrand (placeOf k 15) fun x => x.wakeIf [.mem]) s

/-- The highest chunk that a core has opened on its q registers, an open packet among them (R416). -/
def openedChunk (s : State) (vf core : Nat) : Option Nat :=
  let x := s.strand (placeOf core 15)
  let one (i : Nat) : Option Nat :=
    let q := nth QState.free (s.coreOf core).qs i
    if q.bound = false ∨ q.tenant ≠ vf then none
    else if x.pktOpen && decide (fld x.csr.openpkt 7 6 = i) then some q.chunk
    else if q.chunk = 0 then none
    else some (q.chunk - 1)
  match (List.range 4).filterMap one with
  | [] => none
  | c :: cs => some (cs.foldl Nat.max c)

/-- Change a VF's gang stop of a module. -/
def State.modGang (s : State) (m vf : Nat) (f : Gang → Gang) : State :=
  s.modMod m fun x => { x with gangs := x.gangs.map fun g => if g.vf = vf then f g else g }

/-- A VF's gang stop of a module ends: the limits go, and the parked sends reissue (R416 step 5). DEDUCED (log 28): a turn
in another module than that of the stop lifts the limits there only. -/
def resumeGang (s : State) (m vf : Nat) : State :=
  let s1 := s.modMod m fun x => { x with gangs := x.gangs.filter fun g => decide (g.vf ≠ vf) }
  wakeMembers (setLimits s1 (fun k => (gangOf s m vf).isSome || decide (k = m)) vf (gangHold s1 vf)) vf

/-- The VF's partition in a module changes hands, where another VF's turn comes next (R378, R416 step 4). -/
def switchFrom (vf : Nat) (s : State) (m : Nat) : State :=
  let part := (s.policy m vf).part
  match partitionOf s m part, nextVf s m part (some vf) with
  | some e, some v => if v = vf ∨ e.next.isSome ∨ e.vf ≠ some vf then s else beginSwitch s m part v
  | _, _ => s

/-- The gang stop is over: every member's slot changes hands in the same switch (R416 step 4). -/
def gangSwitch (s : State) (m vf : Nat) : State :=
  let s1 := s.modGang m vf fun g => { g with step := 3 }
  let part := (s.policy m vf).part
  match nextVf s m part (some vf) with
  | none => resumeGang s1 m vf
  | some v =>
    if v = vf then resumeGang s1 m vf
    else (m :: (s.mods.map (·.1)).filter fun k => decide (k ≠ m) && gangBusy s k vf).foldl (switchFrom vf) s1

/-- A VF holds its partition of a module, and no switch has begun. -/
def holdsPart (s : State) (m vf : Nat) : Bool :=
  match partitionOf s m (s.policy m vf).part with
  | none => false
  | some e => decide (e.vf = some vf) && e.next.isNone

/-- GANG_QUERY (R416): sends that open a chunk are held; the cores answer. A stop of the VF that another module has begun
comes first. -/
def execGangQuery (m vf : Nat) (s : State) : Host.Outcome State Fault Refusal :=
  if (gangOf s m vf).isSome ∨ holdsPart s m vf = false then .next s
  else if (gangsOf s vf).any fun g => decide (g.step < 3) then .next (s.again (.gangQuery m vf))
  else
    let g : Gang := { vf := vf, part := (s.policy m vf).part, step := 1, chunk := none, paused := s.ticks }
    let s1 (c : Option Nat) : State :=
      (setLimits s (fun _ => true) vf (some none)).modMod m fun x => { x with gangs := x.gangs ++ [{ g with chunk := c }] }
    match (memberCores s vf).filterMap (openedChunk s vf) with
    | [] => .next (gangSwitch (s1 none) m vf)
    | c :: cs => .next ((s1 (some (cs.foldl Nat.max c))).spawn (.gangPause m vf))

/-- GANG_PAUSE (R416): chunks up to C may open. -/
def execGangPause (m vf : Nat) (s : State) : Host.Outcome State Fault Refusal :=
  match gangOf s m vf with
  | none => .next s
  | some g =>
    if g.step ≠ 1 then .next s
    else
      let s1 := (setLimits s (fun _ => true) vf (some g.chunk)).modGang m vf fun x => { x with step := 2, paused := s.ticks }
      .next ((wakeMembers s1 vf).spawns [.gangDrainComplete m vf, .gangStopTimeout m vf])

/-- A member strand is Parked on a send that the stop holds, or in QRECV with an empty queue (R416). -/
def memberStopped (s : State) (core : Nat) : Bool :=
  let x := s.strand (placeOf core 15)
  let held (i : Nat) : Bool := hasAsked x (askHeld i) && sendHeld (nth QState.free (s.coreOf core).qs i)
  !x.live || x.parkedOn .qrecv || (x.parkedOn .mem && (List.range 4).any held)

/-- No packet or marker of a VF is on its way on Mortar, on a link, or into an entry. -/
def streamsQuiet (s : State) (vf : Nat) : Bool :=
  let note (n : Note) : Bool :=
    match n with
    | .vs _ _ _ p => decide (p.tenant = vf)
    | _ => false
  let mine (f : Flit) : Bool := decide (f.ch = 4 ∧ f.tenant = vf)
  !s.notes.any note && !s.flits.any mine && (s.ejects.all fun e => !e.2.store.any mine)
    && s.mods.all fun x => x.2.ports.all fun e => e.2.frames.all fun f => decide (f.pkt.tenant ≠ vf)

/-- No entry of a VF holds anything. -/
def entriesEmpty (s : State) (vf : Nat) : Bool :=
  s.clusters.all fun e => e.2.entries.all fun x => decide (x.2.tenant ≠ vf) || !x.2.holds

/-- Every member of a VF has stopped, and nothing of its streams is on its way (R416 step 3). -/
def gangDrained (s : State) (vf : Nat) : Bool :=
  (memberCores s vf).all (memberStopped s) && entriesEmpty s vf && streamsQuiet s vf

/-- GANG_DRAIN_COMPLETE (R416 step 3). -/
def execGangDrainComplete (m vf : Nat) (s : State) : Host.Outcome State Fault Refusal :=
  match gangOf s m vf with
  | none => .next s
  | some g =>
    if g.step ≠ 2 then .next s
    else if gangDrained s vf then .next (gangSwitch s m vf)
    else .next (s.again (.gangDrainComplete m vf))

/-- Cycles of a time in microseconds: 2,100 cycles are 2 µs (R424). -/
def cyclesOf (us : Nat) : Nat := 1050 * us

/-- What an entry holds goes, counted, and the credits of its neighbours' inputs go back (R416). -/
def dropHeld (s : State) (clu e : Nat) (x : VsEntry) : State :=
  let n := x.out.length + x.held.foldl (fun k h => k + h.2.length) 0
  let ports := x.owed ++ x.held.flatMap fun h => List.replicate h.2.length h.1
  let s1 := (List.range n).foldl (fun t _ => t.count (cluDie clu) 4) s
  (ports.filter (· ≠ 4)).foldl (fun t p => sendCredit t clu e p)
    (s1.modEntry clu e fun y => { y with held := [], out := [], owed := [] })

/-- What a member's receive queues hold goes, counted; each bound q register then delivers one abort (R416). -/
def dropQueues (vf : Nat) (s : State) (core : Nat) : State :=
  (List.range 4).foldl (fun u i =>
    let q := nth QState.free (u.coreOf core).qs i
    if q.bound && decide (q.tenant = vf) then
      let n := (q.recv.filter (·.last)).length
      let a : QFlit := { data := 0, chunk := q.chunk, idx := 0, last := true, mark := false, abort := true }
      (List.range n).foldl (fun w _ => w.count (cluDie (coreClu core)) 4)
        (u.modQ core i fun y => { y with recv := [a], sent := 0, aborts := [] })
    else u) s

/-- The members are stopped in place (R416). -/
def stopInPlace (s : State) (vf : Nat) : State :=
  let s1 := s.clusters.foldl (fun t e =>
    (e.2.entries.filter fun x => decide (x.2.tenant = vf)).foldl (fun u x => dropHeld u e.1 x.1 x.2) t) s
  (memberCores s1 vf).foldl (dropQueues vf) s1

/-- How long a gang stop may drain (R416): the VF's SLICE, or 1 ms. -/
def gangLimit (s : State) (m vf : Nat) : Nat :=
  let sl := (s.policy m vf).slice
  cyclesOf (if sl = 0 then 1000 else sl)

/-- GANG_STOP_TIMEOUT (R416): the drain was not reached within the slice, or within 1 ms. -/
def execGangStopTimeout (m vf : Nat) (s : State) : Host.Outcome State Fault Refusal :=
  match gangOf s m vf with
  | none => .next s
  | some g =>
    if g.step ≠ 2 then .next s
    else if s.ticks < g.paused + gangLimit s m vf then .next (s.again (.gangStopTimeout m vf))
    else .next (gangSwitch (stopInPlace s vf) m vf)

/-- GANG_RESUME (R416 step 5). -/
def execGangResume (m vf : Nat) (s : State) : Host.Outcome State Fault Refusal := .next (resumeGang s m vf)

end Sys2Proof.Machine
end

