-- ==== Sys2Proof/Machine/Control.lean ====
section
/-! DEFINITION. Control transfers, hardware loops and courses (R142-R150, R181-R190). -/

namespace Sys2Proof.Machine

open Sys2Proof

/-! ### Branches, calls and jumps -/

/-- A target counted in words from the executing word (R143). -/
def targetOf (s : State) (off : Int) : Nat := addrAdd (wordAddr s) (4 * off)

/-- A conditional branch (R144). -/
def branch (c : Bool) (off : BitVec 13) (s : State) : Host.Outcome State Fault Refusal :=
  finish s (.done (if c then jump s (targetOf s off.toInt) else s))

/-- The link of a call: the next sequential bundle (R145). -/
def link (s : State) : State := wg s 31 (word s.issue.next)

/-- A jump to an address in a register (R146), with or without a link. -/
def jumpTo (a : GReg) (imm : BitVec 13) (linked : Bool) : Act Unit := fun s =>
  let t := rg s a + imm.signExtend 64
  if t.toNat % 4 ≠ 0 then .error (.trap .align t.toNat Access.fetch.code)
  else .ok ((), jump (if linked then link s else s) (t.toNat % addrSpace))

/-- NOP (R144). -/
def execNop (s : State) : Host.Outcome State Fault Refusal := finish s (.done s)

/-- BR (R144). -/
def execBr (off : BitVec 23) (s : State) : Host.Outcome State Fault Refusal :=
  finish s (.done (jump s (targetOf s off.toInt)))

/-- CALL (R145). -/
def execCall (off : BitVec 23) (s : State) : Host.Outcome State Fault Refusal :=
  finish s (.done (jump (link s) (targetOf s off.toInt)))

/-- JMP (R146). -/
def execJmp (a : GReg) (imm : BitVec 13) (s : State) : Host.Outcome State Fault Refusal :=
  finish s (Act.res (jumpTo a imm false) s)

/-- CALLR (R146). -/
def execCallr (a : GReg) (imm : BitVec 13) (s : State) : Host.Outcome State Fault Refusal :=
  finish s (Act.res (jumpTo a imm true) s)

/-- BEQ (R144). -/
def execBeq (a b : GReg) (off : BitVec 13) (s : State) : Host.Outcome State Fault Refusal :=
  branch (decide (rg s a = rg s b)) off s

/-- BNE (R144). -/
def execBne (a b : GReg) (off : BitVec 13) (s : State) : Host.Outcome State Fault Refusal :=
  branch (decide (rg s a ≠ rg s b)) off s

/-- BLT (R144). -/
def execBlt (a b : GReg) (off : BitVec 13) (s : State) : Host.Outcome State Fault Refusal :=
  branch (decide ((rg s a).toInt < (rg s b).toInt)) off s

/-- BGE (R144). -/
def execBge (a b : GReg) (off : BitVec 13) (s : State) : Host.Outcome State Fault Refusal :=
  branch (decide ((rg s b).toInt ≤ (rg s a).toInt)) off s

/-- BLTU (R144). -/
def execBltu (a b : GReg) (off : BitVec 13) (s : State) : Host.Outcome State Fault Refusal :=
  branch (decide ((rg s a).toNat < (rg s b).toNat)) off s

/-- BGEU (R144). -/
def execBgeu (a b : GReg) (off : BitVec 13) (s : State) : Host.Outcome State Fault Refusal :=
  branch (decide ((rg s b).toNat ≤ (rg s a).toNat)) off s

/-- JTAB (R147): the index is below the length, or the bundle falls through. -/
def execJtab (d a : GReg) (imm : BitVec 13) (s : State) : Host.Outcome State Fault Refusal :=
  finish s (Act.res (
    if imm.toNat ≤ (rg s d).toNat then pure ()
    else do
      let e := addrAdd (addrOf (rg s a)) (4 * (rg s d).toNat)
      aligned e 4 .load
      let off ← load e 4 true
      change fun t => jump t (targetOf s (signed 32 off))) s)

/-! ### Hardware loops -/

/-- The word at an instruction address as a fetch of the strand would find it: the slot's block, the cluster's cache,
or memory (R179). -/
def peekWord (s : State) (a : Nat) : Option Nat :=
  let own := match s.me.fblk with
    | some (blk, d) => if blk = a / 64 then some (d / 256 ^ (a % 64) % 2 ^ 32) else none
    | none => none
  match own, icFind s.clu (a / 64) with
  | some w, _ => some w
  | none, some b => some (b.data / 256 ^ (a % 64) % 2 ^ 32)
  | none, none =>
    if bitAt a 55 ∨ frameWindow ≤ a then none
    else
      match target s s.cur.mod s.tenant a with
      | .error _ => none
      | .ok (t, s1) =>
        match readTarget s1 t s.tenant a with
        | .error _ => none
        | .ok (d, _, _) => some (d / 256 ^ (a % 128) % 2 ^ 32)

/-- The bundles of `[a, e)` number at most `n` (R68, R188). -/
def bundlesWithin (s : State) (e : Nat) : Nat → Nat → Bool
  | 0, a => decide (e ≤ a)
  | n + 1, a =>
    if e ≤ a then true
    else
      match peekWord s a with
      | none => false
      | some w => bundlesWithin s e n (if bitAt w 31 then a + 4 else a + 8)

/-- A body fits a loop buffer (R188): at most 64 bundles. DEDUCED (log 54): the bundles are those that the body's words
frame from B to E. -/
def fitsBuf (s : State) (b e : Nat) : Bool := decide (e - b ≤ 256) || (decide (e - b ≤ 512) && bundlesWithin s e 64 b)

/-- A loop buffer for a body, if it fits and one is free (R188): the leader of a course captures, its
followers do not. -/
def grantBuf (s : State) (b e : Nat) : Option Nat :=
  if fitsBuf s b e = false || isFollower s s.cur then none
  else (List.range 4).find? fun i => (nth none s.core.lbufs i).isNone

/-- Push a loop level (R189). -/
def pushLevel (s : State) (b e n : Nat) : State :=
  let buf := grantBuf s b e
  let s1 := match buf with
    | none => s
    | some i => s.modMyCore fun c =>
        { c with lbufs := setNth c.lbufs i (some { slot := s.cur.slot, b := b, e := e, later := false, body := [] }) }
  s1.modMe fun x => { x with loops := { b := b, e := e, remain := n, buf := buf, recap := false } :: x.loops }

/-- LOOP (R189). -/
def execLoop (a : GReg) (imm : BitVec 13) (s : State) : Host.Outcome State Fault Refusal :=
  let e := addrAdd (wordAddr s) (4 * imm.toNat)
  let n := fld (rg s a) 47 0
  finish s (
    if n = 0 then .done (jump s e)
    else
      match s.me.loops with
      | [] => .done (pushLevel s s.issue.next e n)
      | [l] => if l.e = e then wordTrap s .illegalInstr 0x0C else .done (pushLevel s s.issue.next e n)
      | _ :: _ :: _ => wordTrap s .illegalInstr 0x0C)

/-- LOOPX (R190): the innermost level is popped and the bundle takes no end event. -/
def execLoopx (a : GReg) (s : State) : Host.Outcome State Fault Refusal :=
  finish s (
    match s.me.loops with
    | [] => .done s
    | l :: ls =>
      if a = 0 ∨ rg s a ≠ 0 then
        let s1 := jump ((freeBuf s s.cur.coreKey l).modMe fun x => { x with loops := ls }) l.e
        .done (noteEvent { s1 with issue := { s1.issue with noEnd := true } } 3)
      else .done s)

/-! ### Courses -/

/-- The timeout of COURSE and REALIGN of a core (R180): below 16 acts as 16. -/
def alignTo (c : Core) : Nat := Nat.max c.alignto 16

/-- The mask of a list of cores. -/
def coreMask (l : List Nat) : Nat := l.foldl (fun m c => m ||| 2 ^ c) 0

/-- Close a rendezvous (R187): every core that arrived gets the same value, and two or more form a
course. -/
def closeRdv (s : State) (k idx : Nat) (r : Rdv) : State :=
  let several := decide (2 ≤ r.arrived.length)
  let v := if several then coreMask r.arrived else 0
  let lead := match r.arrived with
    | [] => 0
    | c :: cs => cs.foldl Nat.min c
  let s1 := s.modClu k fun c =>
    { c with
      rdvs := setNth c.rdvs idx { r with closed := true }
      courses := if several then
          { slot := r.slot, tenant := r.tenant, leader := lead, members := r.arrived,
            attached := r.arrived, hold := none, arrived := [] } :: c.courses
        else c.courses }
  r.arrived.foldl (fun t c => giveAnswer t (placeOf (k * 16 + c) r.slot) 0 v) s1

/-- Arrive at a rendezvous, open or new (R187). DESIGN CHOICE (log 65): the ALIGNTO of the core that arrives first bounds
it, where those of the members differ. -/
def arriveRdv (s : State) (w mask : Nat) : State :=
  let p := s.cur
  let k := p.cluKey
  let rs := s.clu.rdvs
  let here (r : Rdv) : Bool :=
    !r.closed && decide (r.slot = p.slot ∧ r.tenant = s.tenant ∧ r.w = w ∧ r.mask = mask)
  match rs.findIdx? here with
  | some i =>
    let r := nth ⟨0, 0, 0, 0, [], 0, 0, true⟩ rs i
    let r1 := { r with arrived := r.arrived ++ [p.core] }
    let s1 := s.modClu k fun c => { c with rdvs := setNth c.rdvs i r1 }
    if coreMask r1.arrived = mask then closeRdv s1 k i r1 else s1
  | none =>
    let r : Rdv := { slot := p.slot, tenant := s.tenant, w := w, mask := mask, arrived := [p.core],
                     start := s.ticks, limit := alignTo s.core, closed := false }
    match rs.findIdx? (·.closed) with
    | some i => (s.modClu k fun c => { c with rdvs := setNth c.rdvs i r }).spawn (.courseTimeout k i)
    | none => (s.modClu k fun c => { c with rdvs := c.rdvs ++ [r] }).spawn (.courseTimeout k rs.length)

/-- COURSE (R187). -/
def execCourse (d a : GReg) (s : State) : Host.Outcome State Fault Refusal :=
  let mask := fld (rg s a) 15 0
  finish s (
    match unitAnswer s.me with
    | some (_, v) => .done (wg s d (word v))
    | none =>
      if s.cur.slot = 15 then .done (wg s d 0)
      else
        let s1 := leaveCourse s s.cur false
        if bitAt mask s.cur.core = false ∨ mask = 2 ^ s.cur.core then .done (wg s1 d 0)
        else
          let s2 := arriveRdv s1 s.issue.addr mask
          match unitAnswer s2.me with
          | some (_, v) => .done (wg s2 d (word v))
          | none => .park .course true s2)

/-- Members of a course that are not attached (R182, R186). -/
def Course.detached (c : Course) : List Nat := c.members.filter fun m => !c.attached.contains m

/-- Replace the course of a place. -/
def modCourse (s : State) (p : Place) (f : Course → Course) : State :=
  let g (c : Course) : Course :=
    if decide (c.slot = p.slot) && c.members.contains p.core then f c else c
  s.modClu p.cluKey fun c => { c with courses := c.courses.map g }

/-- Members that wait at an address with reason REALIGN (R186). -/
def waitingAt (s : State) (p : Place) (w : Nat) (l : List Nat) : List Nat :=
  l.filter fun m =>
    let x := s.strand (memberPlace p m)
    x.parkedOn .realign && decide (pcOf x = w)

/-- A leader is released at a REALIGN (R186): the members that arrived are attached and go on. -/
def rejoin (s : State) (p : Place) (arr : List Nat) : State :=
  let s1 := modCourse s p fun c => { c with attached := c.attached ++ arr, hold := none, arrived := [] }
  arr.foldl (fun t m => giveAnswer t (memberPlace p m) 0 0) s1

/-- Wait at a REALIGN until released or until a deadline (R186), which stands among the requests of the bundle. -/
def holdHere (s : State) (imm : BitVec 13) : State :=
  let t := if imm = 0 then alignTo s.core else imm.toNat
  (ask s ((s.ticks + t) * 8)).spawn (.realignTimeout s.cur)

/-- REALIGN (R186). -/
def execRealign (imm : BitVec 13) (s : State) : Host.Outcome State Fault Refusal :=
  let p := s.cur
  finish s (
    match courseOf s p with
    | none => .done s
    | some c =>
      if c.leader = p.core then
        (if !s.me.fwd.isEmpty then .done s
         else if (unitAnswer s.me).isSome then .done (rejoin s p c.arrived)
         else
           let arr := waitingAt s p s.issue.addr c.detached
           if arr.length = c.detached.length then .done (rejoin s p arr)
           else
             .park .realign true (holdHere (modCourse s p fun k =>
               { k with hold := some s.issue.addr, arrived := arr }) imm))
      else if c.attached.contains p.core then .done s
      else if (unitAnswer s.me).isSome then .done s
      else if c.hold = some s.issue.addr then
        let s1 := modCourse s p fun k => { k with arrived := k.arrived ++ [p.core] }
        let s2 :=
          if c.arrived.length + 1 = c.detached.length then giveAnswer s1 (memberPlace p c.leader) 0 0
          else s1
        .park .realign true (holdHere s2 imm)
      else .park .realign true (holdHere s imm))

/-! ### The steps of a course -/

/-- COURSE_FORWARD (R181): the oldest forwarded bundle on its way to a follower arrives. -/
def execCourseForward (p : Place) (s : State) : Host.Outcome State Fault Refusal :=
  match (s.strand p).fwd.find? fun f => !f.here with
  | none => .next s
  | some f =>
    if s.ticks < f.arrive then .next (s.again (.courseForward p))
    else
      .next (s.modStrand p fun x =>
        let fs := mapFirst (fun g => !g.here) (fun g => { g with here := true }) x.fwd
        { x with fwd := fs })

/-- COURSE_TIMEOUT (R187). -/
def execCourseTimeout (clu idx : Nat) (s : State) : Host.Outcome State Fault Refusal :=
  match (s.cluOf clu).rdvs[idx]? with
  | none => .next s
  | some r =>
    if r.closed then .next s
    else if s.ticks < r.start + r.limit then .next (s.again (.courseTimeout clu idx))
    else .next (closeRdv s clu idx r)

/-- REALIGN_TIMEOUT (R186): a leader is released, a member that the leader does not hold for goes on
detached. -/
def execRealignTimeout (p : Place) (s : State) : Host.Outcome State Fault Refusal :=
  let x := s.strand p
  if x.parkedOn .realign then
    (if x.asked.headD 0 / 8 ≤ s.ticks then
      (match courseOf s p with
       | none => .next (giveAnswer s p 0 0)
       | some c =>
         if c.arrived.contains p.core then .next (s.again (.realignTimeout p))
         else .next (giveAnswer s p 0 0))
     else .next (s.again (.realignTimeout p)))
  else .next s

end Sys2Proof.Machine
end

