-- ==== Sys2Proof/Machine/Integer.lean ====
section
/-! DEFINITION. Integer and address instructions (R104-R122). -/

namespace Sys2Proof.Machine

open Sys2Proof

/-- An instruction whose one effect is to write a general register with a value computed from the strand as
it stood (R106). -/
def writeG (d : GReg) (v : Word) (s : State) : Host.Outcome State Fault Refusal :=
  finish s (.done (wg s d v))

/-- The operands of a two-source integer instruction. -/
def two (s : State) (a b : GReg) (f : Word → Word → Word) : Word := f (rg s a) (rg s b)

/-- An immediate of 13 bits, sign-extended (R71). -/
def imm13 (i : BitVec 13) : Word := i.signExtend 64

/-- The pointer form of an addition (R108): the format byte of the first operand, the low 56 bits of the
sum. -/
def ptrWith (a : Word) (low : Nat) : Word := word (fld a 63 56 * 2 ^ 56 + low % 2 ^ 56)

/-- ADD (R108). -/
def addValue (p : Bool) (a b : Word) : Word :=
  if p then ptrWith a (addrOf a + addrOf b) else a + b

/-- SUB (R108). -/
def subValue (p : Bool) (a b : Word) : Word :=
  if p then ptrWith a (addrOf a + (addrSpace - addrOf b)) else a - b

/-- The high half of the product of two integers (R112). -/
def highProduct (x y : Int) : Word := BitVec.ofInt 64 (x * y / (2 ^ 64 : Nat))

/-- DIV (R113). -/
def divValue (a b : Word) : Word :=
  if b = 0 then word 0xFFFFFFFFFFFFFFFF
  else if a = word (2 ^ 63) ∧ b = word 0xFFFFFFFFFFFFFFFF then a
  else BitVec.ofInt 64 (Int.tdiv a.toInt b.toInt)

/-- DIVU (R113). -/
def divuValue (a b : Word) : Word :=
  if b = 0 then word 0xFFFFFFFFFFFFFFFF else word (a.toNat / b.toNat)

/-- REM (R113). -/
def remValue (a b : Word) : Word :=
  if b = 0 then a
  else if a = word (2 ^ 63) ∧ b = word 0xFFFFFFFFFFFFFFFF then 0
  else BitVec.ofInt 64 (Int.tmod a.toInt b.toInt)

/-- REMU (R113). -/
def remuValue (a b : Word) : Word := if b = 0 then a else word (a.toNat % b.toNat)

/-- The shifts (R111). -/
def shlValue (a : Word) (n : Nat) : Word := a <<< n
def shrValue (a : Word) (n : Nat) : Word := a >>> n
def sarValue (a : Word) (n : Nat) : Word := a.sshiftRight n

/-- The count of a register shift (R111). -/
def shiftCount (b : Word) : Nat := b.toNat % 64

/-- 0 or 1. -/
def flag (b : Bool) : Word := word (b2n b)

/-- MIN and MAX (R114). -/
def minValue (u : Bool) (a b : Word) : Word :=
  if (if u then decide (a.toNat ≤ b.toNat) else decide (a.toInt ≤ b.toInt)) then a else b
def maxValue (u : Bool) (a b : Word) : Word :=
  if (if u then decide (b.toNat ≤ a.toNat) else decide (b.toInt ≤ a.toInt)) then a else b

/-- Leading zeros (R116). -/
def clzValue (a : Word) : Word := word (64 - bitLen a.toNat)

/-- LIMM (R117). -/
def limmValue (old : Word) (sel : BitVec 2) (imm : BitVec 16) : Word :=
  if sel = 0 then word imm.toNat
  else setFld old (16 * sel.toNat + 15) (16 * sel.toNat) imm.toNat

/-- PGETF (R119). -/
def pgetfValue (sel : BitVec 2) (a : Word) : Word :=
  match sel.toNat with
  | 0 => word (fld a 63 56)
  | 1 => word (fld a 63 60)
  | 2 => word (fld a 59 56)
  | _ => word (fld a 55 0)

/-- The byte step of `n` elements for a pointer's format (R120, R121). -/
def elemStep (c k : Nat) (n : Int) : Int :=
  if fmtBad c k then n
  else if c = 6 then n / 2
  else if c = 7 ∨ c = 8 then n / (2 ^ k : Nat) * (recBytes c k : Int)
  else n * (elemBits c / 8 : Nat)

/-- PADDE (R120). -/
def paddeValue (a b : Word) : Word :=
  ptrWith a (addrAdd (addrOf a) (elemStep (fld a 63 60) (fld a 59 56) b.toInt))

/-- ANOP (R107). -/
def execAnop (s : State) : Host.Outcome State Fault Refusal := finish s (.done s)

/-- ADD (R108). -/
def execAdd (d a b : GReg) (p : Bool) (s : State) : Host.Outcome State Fault Refusal :=
  writeG d (two s a b (addValue p)) s

/-- SUB (R108). -/
def execSub (d a b : GReg) (p : Bool) (s : State) : Host.Outcome State Fault Refusal :=
  writeG d (two s a b (subValue p)) s

/-- ADDI (R109). -/
def execAddi (d a : GReg) (imm : BitVec 13) (s : State) : Host.Outcome State Fault Refusal :=
  writeG d (rg s a + imm13 imm) s

/-- MUL (R112). -/
def execMul (d a b : GReg) (s : State) : Host.Outcome State Fault Refusal :=
  writeG d (two s a b (· * ·)) s

/-- MULH (R112). -/
def execMulh (d a b : GReg) (s : State) : Host.Outcome State Fault Refusal :=
  writeG d (two s a b fun x y => highProduct x.toInt y.toInt) s

/-- MULHU (R112). -/
def execMulhu (d a b : GReg) (s : State) : Host.Outcome State Fault Refusal :=
  writeG d (two s a b fun x y => highProduct x.toNat y.toNat) s

/-- DIV (R113). -/
def execDiv (d a b : GReg) (s : State) : Host.Outcome State Fault Refusal :=
  writeG d (two s a b divValue) s

/-- DIVU (R113). -/
def execDivu (d a b : GReg) (s : State) : Host.Outcome State Fault Refusal :=
  writeG d (two s a b divuValue) s

/-- REM (R113). -/
def execRem (d a b : GReg) (s : State) : Host.Outcome State Fault Refusal :=
  writeG d (two s a b remValue) s

/-- REMU (R113). -/
def execRemu (d a b : GReg) (s : State) : Host.Outcome State Fault Refusal :=
  writeG d (two s a b remuValue) s

/-- AND (R110). -/
def execAnd (d a b : GReg) (s : State) : Host.Outcome State Fault Refusal :=
  writeG d (two s a b (· &&& ·)) s

/-- OR (R110). -/
def execOr (d a b : GReg) (s : State) : Host.Outcome State Fault Refusal :=
  writeG d (two s a b (· ||| ·)) s

/-- XOR (R110). -/
def execXor (d a b : GReg) (s : State) : Host.Outcome State Fault Refusal :=
  writeG d (two s a b (· ^^^ ·)) s

/-- ANDI (R110). -/
def execAndi (d a : GReg) (imm : BitVec 13) (s : State) : Host.Outcome State Fault Refusal :=
  writeG d (rg s a &&& imm13 imm) s

/-- ORI (R110). -/
def execOri (d a : GReg) (imm : BitVec 13) (s : State) : Host.Outcome State Fault Refusal :=
  writeG d (rg s a ||| imm13 imm) s

/-- XORI (R110). -/
def execXori (d a : GReg) (imm : BitVec 13) (s : State) : Host.Outcome State Fault Refusal :=
  writeG d (rg s a ^^^ imm13 imm) s

/-- SHL (R111). -/
def execShl (d a b : GReg) (s : State) : Host.Outcome State Fault Refusal :=
  writeG d (shlValue (rg s a) (shiftCount (rg s b))) s

/-- SHR (R111). -/
def execShr (d a b : GReg) (s : State) : Host.Outcome State Fault Refusal :=
  writeG d (shrValue (rg s a) (shiftCount (rg s b))) s

/-- SAR (R111). -/
def execSar (d a b : GReg) (s : State) : Host.Outcome State Fault Refusal :=
  writeG d (sarValue (rg s a) (shiftCount (rg s b))) s

/-- SHLI (R111). -/
def execShli (d a : GReg) (sh : BitVec 6) (s : State) : Host.Outcome State Fault Refusal :=
  writeG d (shlValue (rg s a) sh.toNat) s

/-- SHRI (R111). -/
def execShri (d a : GReg) (sh : BitVec 6) (s : State) : Host.Outcome State Fault Refusal :=
  writeG d (shrValue (rg s a) sh.toNat) s

/-- SARI (R111). -/
def execSari (d a : GReg) (sh : BitVec 6) (s : State) : Host.Outcome State Fault Refusal :=
  writeG d (sarValue (rg s a) sh.toNat) s

/-- LIMM (R117). -/
def execLimm (d : GReg) (sel : BitVec 2) (imm : BitVec 16) (s : State) :
    Host.Outcome State Fault Refusal :=
  writeG d (limmValue (rg s d) sel imm) s

/-- SLT (R114). -/
def execSlt (d a b : GReg) (s : State) : Host.Outcome State Fault Refusal :=
  writeG d (flag (decide ((rg s a).toInt < (rg s b).toInt))) s

/-- SLTU (R114). -/
def execSltu (d a b : GReg) (s : State) : Host.Outcome State Fault Refusal :=
  writeG d (flag (decide ((rg s a).toNat < (rg s b).toNat))) s

/-- SEQ (R114). -/
def execSeq (d a b : GReg) (s : State) : Host.Outcome State Fault Refusal :=
  writeG d (flag (decide (rg s a = rg s b))) s

/-- SEL (R115): the condition is the destination. -/
def execSel (d a b : GReg) (s : State) : Host.Outcome State Fault Refusal :=
  writeG d (if rg s d ≠ 0 then rg s a else rg s b) s

/-- CLZ (R116). -/
def execClz (d a : GReg) (s : State) : Host.Outcome State Fault Refusal :=
  writeG d (clzValue (rg s a)) s

/-- POPC (R116). -/
def execPopc (d a : GReg) (s : State) : Host.Outcome State Fault Refusal :=
  writeG d (word (popCount 64 (rg s a).toNat)) s

/-- MIN (R114). -/
def execMin (d a b : GReg) (u : Bool) (s : State) : Host.Outcome State Fault Refusal :=
  writeG d (two s a b (minValue u)) s

/-- MAX (R114). -/
def execMax (d a b : GReg) (u : Bool) (s : State) : Host.Outcome State Fault Refusal :=
  writeG d (two s a b (maxValue u)) s

/-- PFMT (R118). -/
def execPfmt (d a b : GReg) (s : State) : Host.Outcome State Fault Refusal :=
  writeG d (word (fld (rg s b) 7 0 * 2 ^ 56 + addrOf (rg s a))) s

/-- PGETF (R119). -/
def execPgetf (d a : GReg) (sel : BitVec 2) (s : State) : Host.Outcome State Fault Refusal :=
  writeG d (pgetfValue sel (rg s a)) s

/-- PADDE (R120). -/
def execPadde (d a b : GReg) (s : State) : Host.Outcome State Fault Refusal :=
  writeG d (two s a b paddeValue) s

/-- PCADDR (R122): from the address of its own word. -/
def execPcaddr (d : GReg) (imm : BitVec 13) (s : State) : Host.Outcome State Fault Refusal :=
  writeG d (word (addrAdd (wordAddr s) (4 * imm.toInt))) s

end Sys2Proof.Machine
end

