-- ==== Sys2Proof/Machine/Launch.lean ====
section
/-! DEFINITION. Launches: the ring, the checks of a record, the start and the end of a launch (R63, R349, R357, R377-R381). -/

namespace Sys2Proof.Machine

open Sys2Proof

/-! ### What a VF has in a module -/

/-- A strand of a VF in a module. -/
def vfStrand (m vf : Nat) (e : Nat × Strand) : Bool :=
  decide ((Place.ofKey e.1).mod = m) && e.2.live && decide (e.2.tenant = vf)

/-- The places of a VF's strands. -/
def vfStrands (s : State) (m vf : Nat) : List Place := (s.strands.filter (vfStrand m vf)).map fun e => Place.ofKey e.1

/-- The module of a cluster, core and die key. -/
def cluMod (k : Nat) : Nat := dieMod (cluDie k)
def coreMod (k : Nat) : Nat := cluMod (coreClu k)

/-- A strand of the VF is running, on its way or saved. -/
def vfRuns (s : State) (m vf : Nat) : Bool :=
  !(vfStrands s m vf).isEmpty
    || (s.cores.any fun e => decide (coreMod e.1 = m) && e.2.saved.any fun x => decide (x.1 / 16 = vf))
    || s.clusters.any fun e => decide (cluMod e.1 = m) && e.2.inbound.any fun x => decide (x.task.tenant = vf)

/-- A task of the VF is queued. -/
def vfQueued (s : State) (m vf : Nat) : Bool :=
  s.dies.any fun e => decide (dieMod e.1 = m) && e.2.store.any fun t => decide (t.task.tenant = vf)

/-- A context of the VF is Pending. -/
def vfPending (s : State) (m vf : Nat) : Bool :=
  s.clusters.any fun e => decide (cluMod e.1 = m) && e.2.kctx.any fun x => decide (x.2.st = 1 ∧ x.2.tenant = vf)

/-- A transfer, index posting, update or queued matrix operation of the VF has not completed. -/
def vfWorks (s : State) (m vf : Nat) : Bool :=
  (s.clusters.any fun e => decide (cluMod e.1 = m)
      && ((e.2.bte.queue ++ e.2.bte.active).any (fun x => decide (x.tenant = vf))
        || (e.2.ixe.queue ++ e.2.ixe.active).any (fun x => decide (x.tenant = vf))))
    || s.cores.any fun e => decide (coreMod e.1 = m) && e.2.mq.any fun q => q.any fun o => decide (o.tenant = vf)

/-- A message of the VF's work that is not performed yet: a task, counter or group operation, a close, a row to merge,
a remote command, or an event. -/
def Note.works (n : Note) (m vf : Nat) : Bool :=
  match n with
  | .counter src _ _ _ _ _ tenant | .group src _ _ _ tenant => decide (src.mod = m ∧ tenant = vf)
  | .tenq src _ t => decide (src.mod = m ∧ t.task.tenant = vf)
  | .close k v _ _ _ _ | .merge k v _ _ _ _ _ _ _ _ => decide (k = m ∧ v = vf)
  | .event src _ _ _ _ tenant _ => decide (src.mod = m ∧ tenant = vf)
  | .mcmd _ _ _ _ _ _ _ | .mcmdAns _ _ _ | .wake _ _ _ | .closeAck _ _ | .steal _ _ _ _ _ | .relayAck _ _ _ _ _ _ _
  | .redirect _ _ _ _ _ _ _ _ | .purge _ _ _ _ _ _ | .purgeAck _ _ _ _ _ | .inval _ _ _ _ _ | .invalAck _ _ _ _
  | .vs _ _ _ _ | .vsCredit _ _ _ | .credit _ _ _ _ => false

/-- A write, an atomic or a probe of the VF's strands is on its way. -/
def vfSends (s : State) (m vf : Nat) : Bool :=
  (s.notes.any fun n => n.works m vf)
    || s.net.any fun x => decide (x.src.mod = m ∧ x.tenant = vf) &&
        match x.body with
        | .read _ _ _ _ _ => false
        | .write _ _ _ _ _ _ | .amo _ _ _ _ _ _ _ | .probe _ _ => true

/-- Nothing of a VF's launch is left to do (R380). -/
def vfDone (s : State) (m vf : Nat) : Bool :=
  !vfRuns s m vf && !vfQueued s m vf && !vfSends s m vf && !vfWorks s m vf && !vfPending s m vf

/-- The VF has no strand, queued task or Pending context (R375). -/
def vfIdle (s : State) (m vf : Nat) : Bool := !vfRuns s m vf && !vfQueued s m vf && !vfPending s m vf

/-- A change of a policy field waits: for the VF's next launch while it is at work, or for its next dispatch or restore
while it has strands (R375). -/
def changeWaits (s : State) (m vf : Nat) (f : PolicyField) : Bool :=
  match effectOf f with
  | .now => false
  | .strand => !(vfStrands s m vf).isEmpty
  | .launch => !vfIdle s m vf

/-- The changes that wait for something that the VF no longer has take effect. -/
def applyDue (s : State) (m vf : Nat) : State := applySome s m vf fun f => !changeWaits s m vf f

/-- VF_POLICY_WRITE (R375). -/
def execVfPolicyWrite (m vf : Nat) (f : PolicyField) (s : State) : Host.Outcome State Fault Refusal :=
  if changeWaits s m vf f then .next (s.modPolicy m vf fun p => { p with pending := p.pending ++ [f] })
  else .next (applyField (applyDue s m vf) m vf f)

/-! ### The ring (R379, R380) -/

def State.launch (s : State) (m q : Nat) : Launch := fget Launch.reset (s.modOf m).launches q
def State.modLaunch (s : State) (m q : Nat) (f : Launch → Launch) : State :=
  s.modMod m fun x => { x with launches := fset x.launches q (f (fget Launch.reset x.launches q)) }

/-- The tenant whose rights and translation reach a ring: the physical function's ring is number 64 (log 24). -/
def ringTenant (q : Nat) : Nat := if q = 64 then 0 else q

/-- What the Ochre cores read in a VF's memory, and what a read that fails leaves (R312). -/
def ochreSee (s : State) (m vf a n : Nat) : Option Nat := (ochreRead s m vf a n).1
def ochreNote (s : State) (m vf : Nat) (r : Nat × Nat) : State :=
  match ochreRead s m vf r.1 r.2 with
  | (some _, _) => s
  | (none, s1) => s1

/-- The address of a ring, and of an entry. -/
def Launch.ring (l : Launch) : Nat := fld l.lqbase 55 6 * 64
def Launch.entryAt (l : Launch) (i : Nat) : Nat := l.ring + 64 + 64 * (i % 2 ^ (fld l.lqcfg 3 0 + 2))
def Launch.en (l : Launch) : Bool := bitAt l.lqcfg.toNat 63

/-! ### The launch record (R381) -/

/-- A launch record with its members and tasks. -/
structure LaunchRec where
  spad : Nat
  part : Nat
  cls : Nat
  tcmLen : Nat
  tcmImg : Nat
  spadLen : Nat
  spadImg : Nat
  membs : List Nat
  tasks : List Nat
  deriving DecidableEq, Repr

/-- The first 64 bytes break R381. -/
def headBad (r : Nat) : Bool :=
  decide (14 < dfield r 4 1 ∨ 4 ≤ dfield r 5 1) || decide (dfield r 6 2 = 0 ∨ 4096 < dfield r 6 2)
    || decide (4 * dfield r 6 2 < dfield r 8 4) || decide (0xC000 < dfield r 0x0C 4)
    || decide (16 * dfield r 0 4 < dfield r 0x18 4) || decide (dfield r 0x1C 4 ≠ 0 ∨ dfield r 0x30 16 ≠ 0)
    || decide (dfield r 0x28 8 % 4 ≠ 0)

/-- Read a launch record; none when its head is malformed or it cannot be read. -/
def readLaunch (s : State) (m vf a : Nat) : Option LaunchRec :=
  match ochreSee s m vf a 64 with
  | none => none
  | some r =>
    if headBad r ∨ a % 64 ≠ 0 then none
    else
      let nt := dfield r 6 2
      let nm := dfield r 8 4
      match ochreSee s m vf (dfield r 0x28 8) (4 * nm), ochreSee s m vf (a + 0x40) (32 * nt) with
      | some ms, some ts =>
        some { spad := dfield r 0 4, part := dfield r 4 1, cls := dfield r 5 1 % 4, tcmLen := dfield r 0x0C 4,
               tcmImg := dfield r 0x10 8, spadLen := dfield r 0x18 4, spadImg := dfield r 0x20 8,
               membs := (List.range nm).map fun i => dfield ms (4 * i) 4,
               tasks := (List.range nt).map fun i => dfield ts (32 * i) 32 }
      | _, _ => none

/-- The dies that a partition spans, ascending. -/
def spanDies (m : Nat) (e : Partition) : List Nat := ((spanClusters m e).map cluDie).eraseDups

/-- A launch's partition; one that is not configured spans nothing. -/
def launchPart (s : State) (m part : Nat) : Partition :=
  (partitionOf s m part).getD
    { clusters := [], slots := 0, banks := 0, wayBase := 0, ways := 0, vf := none, since := 0, next := none }

/-- A task breaks R347 or R381, or its affinity names a cluster that the partition does not span (R349). -/
def taskBad (m : Nat) (e : Partition) (t : Nat) : Bool :=
  let aff := dfield t 0x1C 2
  let dies := spanDies m e
  !descOk t 3 || bitAt (dfield t 0x14 4) 31 || bitAt (dfield t 0x18 4) 31 || decide (dfield t 0x1E 1 ≠ 0)
    || bitAt (dfield t 0x1F 1) 3
    || (!bitAt aff 15 && !(spanClusters m e).contains (nth 0 dies 0 * 512 + aff % 512))

/-- A member word breaks R381. -/
def membBad (ntask w : Nat) : Bool := decide (bits w 15 8 ≠ 0 ∨ ntask ≤ w / 2 ^ 16)

/-- The groups of task `i`, in the order of MEMB. -/
def LaunchRec.groupsOf (r : LaunchRec) (i : Nat) : List Nat :=
  ((r.membs.filter fun w => decide (w / 2 ^ 16 = i)).map (· % 256)).eraseDups

/-- The TCM image lies in banks of the partition (R376, R381). -/
def tcmFits (e : Partition) (len : Nat) : Bool := (List.range ((len + 0x1FFF) / 0x2000)).all (bitAt e.banks)

/-- A VF may launch (R375, R380, R386). -/
def mayLaunch (s : State) (m vf : Nat) : Bool :=
  let x := s.modOf m
  (s.policy m vf).en && x.pkg.isSome && decide (x.boot = 6) && !x.recovery

/-- The VFs that name a partition and may launch. -/
def vfsOf (s : State) (m part : Nat) : List Nat :=
  (List.range 64).filter fun v => decide ((s.policy m v).part = part) && (s.policy m v).en

/-- R378 is broken: a VF with SLICE 0 shares the partition. -/
def sliceBad (s : State) (m part : Nat) : Bool :=
  let vs := vfsOf s m part
  decide (1 < vs.length) && vs.any fun v => decide ((s.policy m v).slice = 0)

/-- The first status that applies to a launch that is rejected (R380), or the record of one that is not. -/
def checkLaunch (s : State) (m q vf ent : Nat) : Except Nat LaunchRec :=
  if mayLaunch s m vf = false then .error 7
  else if bitAt (dfield ent 0x1C 1) 0 ∧ q ≠ 64 then .error 1
  else
    match readLaunch s m vf (dfield ent 0 8) with
    | none => .error 1
    | some r =>
      let e := launchPart s m r.part
      if r.tasks.any (taskBad m e) || r.membs.any (membBad r.tasks.length) then .error 1
      else if r.spad % 16384 ≠ 0 ∨ 288 * 1024 < r.spad ∨ e.ways * 16384 < r.spad then .error 2
      else if r.part ≠ (s.policy m vf).part ∨ sliceBad s m r.part ∨ (partitionOf s m r.part).isNone then .error 3
      else if r.tasks.any fun t => decide (r.cls < dfield t 0x1F 1 % 4) then .error 4
      else if (List.range r.tasks.length).any fun i => decide (4 < (r.groupsOf i).length) then .error 5
      else if tcmFits e r.tcmLen = false ∨ (ochreSee s m vf r.tcmImg r.tcmLen).isNone
        ∨ (ochreSee s m vf r.spadImg r.spadLen).isNone then .error 6
      else .ok r

/-- What the reads of a rejected launch leave (R312): those of the record for status 1, those of the images for status 6. -/
def noteLaunch (s : State) (m vf ent status : Nat) : State :=
  let a := dfield ent 0 8
  match ochreSee s m vf a 64 with
  | none => if status = 1 then ochreNote s m vf (a, 64) else s
  | some r =>
    let rec1 := [(dfield r 0x28 8, 4 * dfield r 8 4), (a + 0x40, 32 * dfield r 6 2)]
    let imgs := [(dfield r 0x10 8, dfield r 0x0C 4), (dfield r 0x20 8, dfield r 0x18 4)]
    let runs := if status = 1 then (if headBad r then [] else rec1) else if status = 6 then imgs else []
    runs.foldl (fun t x => ochreNote t m vf x) s

/-! ### Starting a launch (R381) -/

/-- Zero the bytes of a memory in a range, and put an image at its start. -/
def loadImage (mem : Memory) (lo hi len img : Nat) : Memory :=
  Memory.writeN (mem.filter fun c => decide (c.1 < lo ∨ hi ≤ c.1)) lo len img

/-- Step 1: the TCM image at offset 0 of a core, and zero in the rest of the partition's banks. -/
def loadTcm (e : Partition) (len img : Nat) (s : State) (core : Nat) : State :=
  let mine (off : Nat) : Bool := decide (off < 0xC000) && bitAt e.banks (off / 0x2000)
  s.modCore core fun c =>
    { c with tcm := Memory.writeN (c.tcm.filter fun x => !mine x.1) 0 len img,
             tcmPoison := c.tcmPoison.filter fun w => !mine (8 * w) }

/-- Step 2: the scratchpad part of a cluster, converted where no other partition spans the cluster (R377). -/
def loadSpad (m : Nat) (e : Partition) (r : LaunchRec) (img : Nat) (s : State) (k : Nat) : State :=
  let shared := sharedClu s m k
  let s1 := if shared then s else convertWays s k (r.spad / 16384)
  let lo := if shared then e.wayBase * 2 ^ 18 else 0
  let hi := if shared then (e.wayBase + e.ways) * 2 ^ 18 else r.spad * 16
  s1.modClu k fun c =>
    { c with spad := loadImage c.spad lo hi r.spadLen img,
             spadPoison := c.spadPoison.filter fun w => decide (8 * w < lo ∨ hi ≤ 8 * w) }

/-- A group entry without members, in phase 0; GEN carries over (R357). -/
def Group.blank (g : Group) : Group := { g with members := 0, remaining := 0, phase := 0, arrivals := [] }

/-- Every group entry of a VF becomes blank. -/
def blankGroups (vf : Nat) (d : Die) : Die :=
  { d with groups := d.groups.map fun g => if g.1 / 256 = vf then (g.1, g.2.blank) else g }

/-- Step 3: the group table (R357); GEN carries over. An entry that no task is listed for has no members. -/
def fillGroups (s : State) (m vf : Nat) (r : LaunchRec) : State :=
  let names := (r.membs.map (· % 256)).eraseDups
  let size (n : Nat) : Nat := ((List.range r.tasks.length).filter fun i => (r.groupsOf i).contains n).length
  let one (t : State) (n : Nat) : State :=
    let g : Group := { gen := (groupOf t m vf n).gen, members := size n, remaining := size n, phase := 0, arrivals := [] }
    t.modDie (groupDie m n) fun d => { d with groups := fset d.groups (groupKey vf n) g }
  names.foldl one { s with dies := s.dies.map fun e => if dieMod e.1 = m then (e.1, blankGroups vf e.2) else e }

/-- GROUPS of a launch task (R351). -/
def groupsWord (gs : List Nat) : Word :=
  (List.range gs.length).foldl (fun w i => withGroup w i (nth 0 gs i)) 0

/-- The places of the launch's tasks (R349): the die and the cluster of each, `turn` ANY tasks in. -/
def placeTasks (m : Nat) (e : Partition) : List Nat → Nat → List (Nat × Nat)
  | [], _ => []
  | t :: ts, turn =>
    let dies := spanDies m e
    let aff := dfield t 0x1C 2
    if bitAt aff 15 then
      let dk := nth 0 dies (turn % Nat.max 1 dies.length)
      let clu := ((spanClusters m e).find? fun k => decide (cluDie k = dk)).getD 0 % 512
      (dk, clu) :: placeTasks m e ts (turn + 1)
    else (nth 0 dies 0, aff % 512) :: placeTasks m e ts turn

/-- The tasks of a launch with their dies. -/
def launchTasks (m vf : Nat) (super : Bool) (e : Partition) (r : LaunchRec) : List (Nat × QTask) :=
  let at' := placeTasks m e r.tasks 0
  (List.range r.tasks.length).map fun i =>
    let (dk, clu) := nth (0, 0) at' i
    let t := taskOf (nth 0 r.tasks i) vf r.part clu
    (dk, { t with clu := clu, task := { t.task with groups := groupsWord (r.groupsOf i), mode := super } })

/-- Step 4: tasks are queued in order, as far as the stores have entries (R348); the others wait. -/
def queueTasks : List (Nat × QTask) → State → List (Nat × QTask) × State
  | [], s => ([], s)
  | (dk, t) :: rest, s =>
    if storeFull s dk t.task.tenant then ((dk, t) :: rest, s) else queueTasks rest (enqueue s dk t)

/-- Slot 15 of the partition's cores is loaded from the VF's save region (R402). -/
def loadExtra (s : State) (m part vf : Nat) : State :=
  match partitionOf s m part with
  | none => s
  | some e =>
    (spanCores m e).foldl (fun t k =>
      let p := placeOf k 15
      if partOfSlot (t.coreOf k) 14 = part ∧ (t.strand p).live = false then handIn t p vf else t) s

/-- The partition goes to the VF when no VF has had it; otherwise its turn comes (R378, R402). -/
def takePartition (s : State) (m part vf : Nat) : State :=
  match (partitionOf s m part).bind (·.vf) with
  | none => loadExtra (s.modPart m part fun x => { x with vf := some vf, since := s.ticks }) m part vf
  | some v => if v = vf then loadExtra s m part vf else spawnOnce s (.timeSliceExpiry m part)

/-- The launch starts. -/
def startLaunch (s : State) (m q vf next : Nat) (super : Bool) (r : LaunchRec) : State :=
  let e := launchPart s m r.part
  let img (a n : Nat) : Nat := (ochreSee s m vf a n).getD 0
  let s0 := setContexts (applyPending s m vf) m vf
  let s1 := (spanCores m e).foldl (loadTcm e r.tcmLen (img r.tcmImg r.tcmLen)) s0
  let s2 := (spanClusters m e).foldl (loadSpad m e r (img r.spadImg r.spadLen)) s1
  let s3 := fillGroups s2 m vf r
  let s4 := s3.modLaunch m q fun l => { l with running := true, forVf := vf, cls := r.cls, entry := next }
  let (rest, s5) := queueTasks (launchTasks m vf super e r) s4
  takePartition (s5.modLaunch m q fun l => { l with rest := rest }) m r.part vf

/-- SPART of the launch waits for a cluster that no other partition spans (R228, R377). -/
def spartWaits (s : State) (m : Nat) (e : Partition) (k : Nat) : Bool :=
  (spanClusters m e).contains k && !sharedClu s m k && (cluFlight s k || !(s.cluOf k).spart.isEmpty)

/-- BUSY of the launch's own clusters, raised while the launch's SPART waits and cleared after it. -/
def setBusy (s : State) (m : Nat) (e : Partition) (v : Bool) : State :=
  ((spanClusters m e).filter fun k => !sharedClu s m k).foldl (fun t k =>
    (t.modClu k fun c => { c with busy := v || !c.spart.isEmpty }).wakeClu k (if v then [] else [.mem])) s

/-- The end of a ring entry (R380): STATUS, the completion word, NEXT. -/
def finishEntry (s : State) (m q next status : Nat) : State :=
  let l := s.launch m q
  let t := ringTenant q
  let a := l.entryAt next
  let ent := (ochreSee s m t a 64).getD 0
  let s1 := ochreWrite s m t (a + 0x20) 8 status
  let cw := dfield ent 8 8
  let s2 := if cw = 0 then s1 else ochreWrite s1 m t cw 8 (dfield ent 0x10 8)
  let s3 := ochreWrite s2 m t (l.ring + 8) 8 (next + 1)
  s3.modLaunch m q fun x => { x with running := false, consumed := (x.consumed + 1) % 2 ^ 32 }

/-- A launch of the VF is in progress, or the VF is being reset. -/
def vfTaken (s : State) (m vf : Nat) : Bool :=
  (s.modOf m).resetting.contains vf || (s.modOf m).launches.any fun e => e.2.running && decide (e.2.forVf = vf)

/-- The VF that an entry runs for (R380). -/
def entryVf (q ent : Nat) : Nat := if q = 64 then dfield ent 0x1D 1 % 64 else q

/-- LAUNCH_TAKE (R380): entry NEXT, once its SEQ is NEXT + 1. While the queue is enabled the step stays due. -/
def execLaunchTake (m vf : Nat) (s : State) : Host.Outcome State Fault Refusal :=
  let l := s.launch m vf
  let again (t : State) : Host.Outcome State Fault Refusal := .next (spawnOnce t (.launchTake m vf))
  if l.en = false ∨ l.running then .next s
  else
    match ochreSee s m (ringTenant vf) l.ring 16 with
    | none => again (ochreNote s m (ringTenant vf) (l.ring, 16))
    | some h =>
      let next := h / 2 ^ 64
      match ochreSee s m (ringTenant vf) (l.entryAt next) 64 with
      | none => again (ochreNote s m (ringTenant vf) (l.entryAt next, 64))
      | some ent =>
        let who := entryVf vf ent
        if dfield ent 0x18 4 ≠ (next + 1) % 2 ^ 32 ∨ vfTaken s m who then again s
        else
          match checkLaunch s m vf who ent with
          | .error st => again (finishEntry (noteLaunch s m who ent st) m vf next st)
          | .ok r =>
            let e := launchPart s m r.part
            if (spanClusters m e).any (spartWaits s m e) then again (setBusy s m e true)
            else
              .next ((startLaunch (setBusy s m e false) m vf who next (bitAt (dfield ent 0x1C 1) 0) r).spawn
                (.launchEnd m vf))

/-- LQDB (R379). -/
def execLqdb (m vf : Nat) (s : State) : Host.Outcome State Fault Refusal := .next (spawnOnce s (.launchTake m vf))

/-! ### The end of a launch (R380) -/

/-- Tasks of a VF that wait on counters. -/
def waitingTasks (s : State) (m vf : Nat) : Nat :=
  ((s.dies.filter fun e => decide (dieMod e.1 = m)).map fun e =>
    ((e.2.counters.flatMap (·.2.waiting)).filter fun t => decide (t.task.tenant = vf)).length).sum

/-- They are discarded; their counters stay Live. -/
def discardWaiting (s : State) (m vf : Nat) : State :=
  let drop (c : Nat × Counter) : Nat × Counter :=
    (c.1, { c.2 with waiting := c.2.waiting.filter fun t => decide (t.task.tenant ≠ vf) })
  let die (e : Nat × Die) : Nat × Die :=
    if dieMod e.1 = m then (e.1, { e.2 with counters := e.2.counters.map drop }) else e
  entriesFree { s with dies := s.dies.map die } m

/-- LAUNCH_END (R380): once nothing of the launch is left to do. Until then the step stays due. -/
def execLaunchEnd (m vf : Nat) (s : State) : Host.Outcome State Fault Refusal :=
  let l := s.launch m vf
  if l.running = false ∨ (s.modOf m).resetting.contains l.forVf then .next s
  else
    let (rest, s1) := queueTasks l.rest s
    let s2 := s1.modLaunch m vf fun x => { x with rest := rest }
    if !rest.isEmpty || !vfDone s2 m l.forVf then .next (s2.again (.launchEnd m vf))
    else
      let n := waitingTasks s2 m l.forVf
      let s3 := finishEntry (discardWaiting s2 m l.forVf) m vf l.entry (if n = 0 then 0 else 8 + n * 2 ^ 32)
      let part := (s3.policy m l.forVf).part
      let s4 := if (runningVfs s3 m part).isEmpty then s3 else spawnOnce s3 (.timeSliceExpiry m part)
      .next (spawnOnce s4 (.launchTake m vf))

end Sys2Proof.Machine
end

