-- ==== Sys2Proof/Machine/LoadStore.lean ====
section
/-! DEFINITION. Loads, stores, formatted and vector accesses, prefetches and the ordering instructions
(R159-R165, R170-R173). -/

namespace Sys2Proof.Machine

open Sys2Proof

/-! ### Scalar loads and stores -/

/-- The address of format CM (R159): the base plus the offset in units of `w` bytes. -/
def memAddr (s : State) (base : GReg) (off : Int) (w : Nat) : Nat :=
  addrAdd (addrOf (rg s base)) (off * w)

/-- A scalar load of `w` bytes (R159). -/
def loadScalar (t base : GReg) (off : BitVec 10) (w : Nat) (sg hint : Bool) : Act Unit := do
  let s ← here
  let a := memAddr s base off.toInt w
  aligned a w .load
  let x ← load a w (!hint)
  change fun u => wg u t (if sg then BitVec.ofInt 64 (signed (8 * w) x) else word x)

/-- A scalar store of `w` bytes (R159). -/
def storeScalar (t base : GReg) (off : BitVec 10) (w : Nat) (hint : Bool) : Act Unit := do
  let s ← here
  let a := memAddr s base off.toInt w
  aligned a w .store
  store a w ((rg s t).toNat % 256 ^ w) (!hint)

/-- LDB (R159). -/
def execLdb (t base : GReg) (off : BitVec 10) (hint : Bool) (s : State) :
    Host.Outcome State Fault Refusal := finish s (Act.res (loadScalar t base off 1 true hint) s)

/-- LDBU (R159). -/
def execLdbu (t base : GReg) (off : BitVec 10) (hint : Bool) (s : State) :
    Host.Outcome State Fault Refusal := finish s (Act.res (loadScalar t base off 1 false hint) s)

/-- LDH (R159). -/
def execLdh (t base : GReg) (off : BitVec 10) (hint : Bool) (s : State) :
    Host.Outcome State Fault Refusal := finish s (Act.res (loadScalar t base off 2 true hint) s)

/-- LDHU (R159). -/
def execLdhu (t base : GReg) (off : BitVec 10) (hint : Bool) (s : State) :
    Host.Outcome State Fault Refusal := finish s (Act.res (loadScalar t base off 2 false hint) s)

/-- LDW (R159). -/
def execLdw (t base : GReg) (off : BitVec 10) (hint : Bool) (s : State) :
    Host.Outcome State Fault Refusal := finish s (Act.res (loadScalar t base off 4 true hint) s)

/-- LDWU (R159). -/
def execLdwu (t base : GReg) (off : BitVec 10) (hint : Bool) (s : State) :
    Host.Outcome State Fault Refusal := finish s (Act.res (loadScalar t base off 4 false hint) s)

/-- LDD (R159). -/
def execLdd (t base : GReg) (off : BitVec 10) (hint : Bool) (s : State) :
    Host.Outcome State Fault Refusal := finish s (Act.res (loadScalar t base off 8 false hint) s)

/-- STB (R159). -/
def execStb (t base : GReg) (off : BitVec 10) (hint : Bool) (s : State) :
    Host.Outcome State Fault Refusal := finish s (Act.res (storeScalar t base off 1 hint) s)

/-- STH (R159). -/
def execSth (t base : GReg) (off : BitVec 10) (hint : Bool) (s : State) :
    Host.Outcome State Fault Refusal := finish s (Act.res (storeScalar t base off 2 hint) s)

/-- STW (R159). -/
def execStw (t base : GReg) (off : BitVec 10) (hint : Bool) (s : State) :
    Host.Outcome State Fault Refusal := finish s (Act.res (storeScalar t base off 4 hint) s)

/-- STD (R159). -/
def execStd (t base : GReg) (off : BitVec 10) (hint : Bool) (s : State) :
    Host.Outcome State Fault Refusal := finish s (Act.res (storeScalar t base off 8 hint) s)

/-- LDAQ (R172): the load, then an acquire at its scope. -/
def execLdaq (t base : GReg) (wid : Width) (off : BitVec 8) (sc : Scope) (s : State) :
    Host.Outcome State Fault Refusal :=
  let w := wid.bytes
  finish s (Act.res (do
    let a := memAddr s base off.toInt w
    aligned a w .load
    let S ← clamp sc
    let x ← load a w true
    change fun u => wg u t (word x)
    acquire S
    noteClamp sc) s)

/-- STRL (R172): a release at its scope, then the store. The store's checks come first, so that a bundle
that traps has released nothing (R69). -/
def execStrl (t base : GReg) (wid : Width) (off : BitVec 8) (sc : Scope) (s : State) :
    Host.Outcome State Fault Refusal :=
  let w := wid.bytes
  finish s (Act.res (do
    let a := memAddr s base off.toInt w
    aligned a w .store
    let S ← clamp sc
    storeCheck (secFuel w) a w .store true
    release S
    store a w ((rg s t).toNat % 256 ^ w) true
    noteClamp sc) s)

/-- PREF (R160): the sector is asked for, and nothing waits. -/
def execPref (kind : PrefKind) (base : GReg) (off : BitVec 10) (s : State) :
    Host.Outcome State Fault Refusal :=
  let a := memAddr s base off.toInt 1
  let p := s.cur
  let dropped := bitAt a 55 || decide (frameWindow ≤ a ∧ (moduleBytes ≤ a - frameWindow ∨ s.super = false))
  let held := match l1Sec s.core a with
    | none => false
    | some x => x.filled
  finish s (.done (
    if dropped || held then s
    else
      (s.send (Msg.make p s.tenant (.read (a / 128) (if kind = .write then .store else .load) true (kind ≠ .readL2) false))).spawn
        (.homeSliceRequest p.mod p)))

/-! ### Formatted accesses -/

/-- The check of R21: the offending field is the code or the block length (R161). -/
def fmtCheck (c k : Nat) : Act Unit :=
  if fmtBad c k then reserved (if 13 ≤ c then 60 else 56) else pure ()

/-- Whether a code is blocked. -/
def isBlocked (c : Nat) : Bool := c == 7 || c == 8

/-- The address of a record that holds element `n` (R26). -/
def recAddr (base c k : Nat) (n : Int) : Nat :=
  addrAdd base (n / (2 ^ k : Nat) * (recBytes c k : Int))

/-- The position of element `n` in its record. -/
def recPos (k : Nat) (n : Int) : Nat := (n % (2 ^ k : Nat)).toNat

/-- Bytes of a record's header (R26). -/
def headBytes (c : Nat) : Nat := if c = 7 then 2 else 1

/-- The offset in a record of the byte of position `i`. -/
def recOff (c i : Nat) : Nat := if c = 7 then 2 + i / 2 else 1 + i

/-- The address of the byte of element `n` of an unblocked pointer, and its place within the byte. -/
def elemAddr (base c : Nat) (n : Int) : Nat :=
  if c = 6 then addrAdd base (n / 2) else addrAdd base (n * (elemBits c / 8 : Nat))

/-- A two- or four-byte element must be aligned to its size (R154). -/
def elemAligned (a c : Nat) (kd : Access) : Act Unit :=
  if codeIsInt c || c ≠ 6 then aligned a (elemBits c / 8) kd else pure ()

/-- Load the value of element `n` of a formatted pointer; for an integer code, its raw bits. -/
def loadElem (base c k : Nat) (n : Int) : Act (Nat × Num) :=
  if isBlocked c then do
    let r := recAddr base c k n
    let i := recPos k n
    let (h, b) ← loadTwo r (headBytes c) (addrAdd r (recOff c i)) 1
    pure (b, recElem c (h + b * 256 ^ recOff c i) i)
  else if c = 6 then do
    let b ← load (elemAddr base c n) 1 true
    let x := lane b 4 (n % 2).toNat
    pure (x, elemNum c x)
  else do
    let a := elemAddr base c n
    let w := elemBits c / 8
    aligned a w .load
    let x ← load a w true
    pure (x, elemNum c x)

/-- LDF (R161). -/
def execLdf (t base : GReg) (off : BitVec 10) (rs : RoundSel) (s : State) :
    Host.Outcome State Fault Refusal :=
  let p := rg s base
  let c := fld p 63 60
  let k := fld p 59 56
  finish s (Act.res (do
    fmtCheck c k
    let (x, v) ← loadElem (addrOf p) c k off.toInt
    if codeIsInt c then
      change fun u => wg u t (if (intRange c).1 < 0 then BitVec.ofInt 64 (signed (elemBits c) x) else word x)
    else
      let r := roundNum .fp32 (modeOf s rs) v
      change fun u => setFlags (wg u t (word r.1)) r.2) s)

/-- The value that STF stores (R161). -/
def stfValue (w : Word) (c : Nat) : Num :=
  if c = 0 then intNum ((w.toNat % 256 : Nat) : Int)
  else if codeIsInt c then intNum w.toInt
  else decodeNum .fp32 (w.toNat % 2 ^ 32)

/-- The byte that STF writes over an old one, in an E2M1 byte or a blocked record with scale byte `sc`: the
byte, flags and generator. -/
def stfByte (c pos sc old : Nat) (mode : Rounding) (y : Num) (seed : BitVec 32) :
    Nat × Nat × BitVec 32 :=
  if isBlocked c && decide (sc = 255) then (old, 0, seed)
  else if c = 8 then roundSt .e4m3 mode (unscale sc y) seed
  else
    let r := roundSt .e2m1 mode (if c = 7 then unscale sc y else y) seed
    let code := if c = 7 && decide (r.1 = 8) then 0 else r.1
    (setLane old 4 (pos % 2) code, r.2.1, r.2.2)

/-- STF (R161). -/
def execStf (t base : GReg) (off : BitVec 10) (rs : RoundSel) (s : State) :
    Host.Outcome State Fault Refusal :=
  let p := rg s base
  let c := fld p 63 60
  let k := fld p 59 56
  let n := off.toInt
  let mode := modeOf s rs
  finish s (Act.res (do
    fmtCheck c k
    let y := stfValue (rg s t) c
    if isBlocked c || c == 6 then
      let r := recAddr (addrOf p) c k n
      let pos := if c = 6 then (n % 2).toNat else recPos k n
      let a := if c = 6 then elemAddr (addrOf p) c n else addrAdd r (recOff c pos)
      let h ← if c = 6 then pure (0, none) else loadBytes 1 r 1 .load true
      storeCheck 1 a 1 .store true
      let b ← loadBytes 1 a 1 .load true
      let sc ← unpoisoned .load h
      let old ← unpoisoned .load b
      let z := stfByte c pos sc old mode y (seedOf s)
      store a 1 z.1 true
      change fun u => setSeed (setFlags u z.2.1) z.2.2
    else
      let a := elemAddr (addrOf p) c n
      let w := elemBits c / 8
      aligned a w .store
      let z := elemRound c mode y (seedOf s)
      store a w z.1 true
      change fun u => setSeed (setFlags u (if codeIsInt c then 0 else z.2.1)) z.2.2) s)

/-! ### Vector memory -/

/-- Load the bytes of a 32-byte access that a mask governs (R162); `n` bytes are left, from byte `i`. -/
def loadMask (a : Nat) (mask : Nat) (fill : Bool) : Nat → Nat → Act Nat
  | 0, _ => pure 0
  | n + 1, i => do
    let x ← if bitAt mask i then load (a + i) 1 fill else pure 0
    let y ← loadMask a mask fill n (i + 1)
    pure (x + 256 * y)

/-- The 32 bits of a byte mask. -/
def byteMask (s : State) (k : KReg) : Nat := if k = 0 then 2 ^ 32 - 1 else (rk s k).toNat

/-- The lowest set bit of a mask, if one is set. -/
def lowBit (mask : Nat) : Option Nat := (List.range 32).find? fun i => bitAt mask i

/-- VLD (R162). -/
def execVld (t : VReg) (base : GReg) (off : BitVec 10) (hint : Bool) (k : KReg) (s : State) :
    Host.Outcome State Fault Refusal :=
  finish s (Act.res (do
    let a := memAddr s base off.toInt 32
    let m := byteMask s k
    aligned a 32 .load
    let x ← if k = 0 then load a 32 (!hint) else loadMask a m (!hint) 32 0
    let old ← oldBytes k t
    wv t (BitVec.ofNat 256 (mergeBytes 32 m old.toNat x))) s)
where
  /-- The bytes that a mask keeps (R132). -/
  oldBytes (k : KReg) (t : VReg) : Act Vec := if k = 0 then pure 0 else rv t

/-- VST (R162). -/
def execVst (t : VReg) (base : GReg) (off : BitVec 10) (hint : Bool) (k : KReg) (s : State) :
    Host.Outcome State Fault Refusal :=
  finish s (Act.res (do
    let a := memAddr s base off.toInt 32
    let m := byteMask s k
    aligned a 32 .store
    let x ← rv t
    match lowBit m with
    | none => pure ()
    | some i =>
      storeCheck 1 (a + i) 1 .store (!hint)
      change fun u => storeBytes (secFuel 32) u u a 32 m x.toNat (!hint)) s)

/-- Load an element from each place of a list: index and address. Each element is an access of its own, which passes
every check of R153 before the next is looked at, so that the first faulting element of the list gives the cause. -/
def loadEach (w : Nat) : List (Nat × Nat) → Act (List (Nat × Nat))
  | [] => pure []
  | (i, a) :: es => do
    aligned a w .load
    let x ← load a w true
    let xs ← loadEach w es
    pure ((i, x) :: xs)

/-- Check a store at each place of a list, element by element (R153). -/
def checkEach (w : Nat) : List (Nat × Nat) → Act Unit
  | [] => pure ()
  | (_, a) :: es => do
    aligned a w .store
    storeCheck (secFuel w) a w .store true
    checkEach w es

/-- Store an element to each place of a list, a later one winning. -/
def storeEach (s : State) (w : Nat) (x : Nat) (l : List (Nat × Nat)) : State :=
  l.foldl (fun t e => storeBytes (secFuel w) s t e.2 w (2 ^ w - 1) (lane x (8 * w) e.1) true) s

/-- The active elements of a width, with the address of each (R131, R163). -/
def places (s : State) (k : KReg) (w : Nat) (addr : Nat → Nat) : List (Nat × Nat) :=
  ((List.range (32 / w)).filter fun i => maskBit s k i).map fun i => (i, addr i)

/-- Gather elements into a vector (R163, R164); `ps` is the order of the checks. -/
def gather (d : VReg) (k : KReg) (w : Nat) (ps : List (Nat × Nat)) : Act Unit := do
  let xs ← loadEach w ps
  let old ← if k = 0 then pure 0 else rv d
  wv d (BitVec.ofNat 256 (xs.foldl (fun v e => setLane v (8 * w) e.1 e.2) old.toNat))

/-- Scatter elements of a vector (R163, R164): every place is checked before any is written. -/
def scatter (x : Vec) (w : Nat) (ps order : List (Nat × Nat)) : Act Unit := do
  checkEach w order
  change fun s => storeEach s w x.toNat ps

/-- The address of element `i` of a strided access (R163). -/
def strideAddr (s : State) (a b : GReg) (i : Nat) : Nat :=
  addrAdd (addrOf (rg s a)) ((i : Int) * (rg s b).toInt)

/-- A strided access is checked from its lowest address up (R153). -/
def strideOrder (s : State) (b : GReg) (ps : List (Nat × Nat)) : List (Nat × Nat) :=
  if (rg s b).toInt < 0 then ps.reverse else ps

/-- VLDS (R163). -/
def execVlds (d : VReg) (a b : GReg) (wid : Width) (k : KReg) (s : State) :
    Host.Outcome State Fault Refusal :=
  let w := wid.bytes
  finish s (Act.res (gather d k w (strideOrder s b (places s k w (strideAddr s a b)))) s)

/-- VSTS (R163). -/
def execVsts (d : VReg) (a b : GReg) (wid : Width) (k : KReg) (s : State) :
    Host.Outcome State Fault Refusal :=
  let w := wid.bytes
  let ps := places s k w (strideAddr s a b)
  finish s (Act.res (do
    let x ← rv d
    scatter x w ps (strideOrder s b ps)) s)

/-- The address of element `i` of an indexed access (R164). -/
def indexAddr (s : State) (a : GReg) (ix : Vec) (w i : Nat) : Nat :=
  addrAdd (addrOf (rg s a)) (signed (8 * w) (lane ix.toNat (8 * w) i) * w)

/-- VGATH (R164): all indices are read first. -/
def execVgath (d : VReg) (a : GReg) (b : VReg) (wid : Width) (k : KReg) (s : State) :
    Host.Outcome State Fault Refusal :=
  let w := wid.bytes
  finish s (Act.res (do
    let ix ← rv b
    gather d k w (places s k w (indexAddr s a ix w))) s)

/-- VSCAT (R164). -/
def execVscat (d : VReg) (a : GReg) (b : VReg) (wid : Width) (k : KReg) (s : State) :
    Host.Outcome State Fault Refusal :=
  let w := wid.bytes
  finish s (Act.res (do
    let (x, ix) ← rv2 d b
    let ps := places s k w (indexAddr s a ix w)
    scatter x w ps ps) s)

/-- The floating type of VLDF and VSTF (R165). -/
def VecFmt.float : VecFmt → FloatCode
  | .f16 => .fp16
  | .bf16 => .bf16
  | .f32 | .own => .fp32

/-- Load `e` elements from index `n` on: their exact values (R165). -/
def loadElems (base c k : Nat) (n : Int) (e : Nat) : Act (List Num) :=
  if isBlocked c then do
    let r := recAddr base c k n
    let i := recPos k n
    let m := if c = 7 then e / 2 else e
    let (h, b) ← loadTwo r (headBytes c) (addrAdd r (recOff c i)) m
    let whole := h + b * 256 ^ recOff c i
    pure ((List.range e).map fun j => recElem c whole (i + j))
  else do
    let a := elemAddr base c n
    elemAligned a c .load
    let x ← load a (e * elemBits c / 8) true
    pure ((lanes x (elemBits c) e).map (elemNum c))

/-- Round a list of values into a format in order (R165): packed bits, flags and generator. -/
def roundElems (c : Nat) (mode : Rounding) : List Num → BitVec 32 → List Nat × Nat × BitVec 32
  | [], seed => ([], 0, seed)
  | x :: xs, seed =>
    let r := elemRound c mode x seed
    let rest := roundElems c mode xs r.2.2
    (r.1 :: rest.1, r.2.1 ||| rest.2.1, rest.2.2)

/-- VLDF (R165). -/
def execVldf (t : VReg) (base : GReg) (off : BitVec 10) (ty : VecFmt) (s : State) :
    Host.Outcome State Fault Refusal :=
  let p := rg s base
  let c := fld p 63 60
  let k := fld p 59 56
  let own := decide (ty = .own)
  let dst := if own then c else (VecFmt.float ty).code
  finish s (Act.res (do
    fmtCheck c k
    if own && isBlocked c then reserved 0
    else
      let w := elemBits dst
      let e := 256 / w
      let xs ← loadElems (addrOf p) c k (off.toInt * e) e
      let r := roundElems dst (defaultMode s) xs (seedOf s)
      wv t (packV w r.1)
      change fun u => setSeed (setFlags u r.2.1) r.2.2) s)

/-- VSTF (R165). -/
def execVstf (t : VReg) (base : GReg) (off : BitVec 10) (ty : VecFmt) (s : State) :
    Host.Outcome State Fault Refusal :=
  let p := rg s base
  let c := fld p 63 60
  let k := fld p 59 56
  let f := VecFmt.float ty
  let w := f.width
  let e := 256 / w
  let n := off.toInt * e
  finish s (Act.res (do
    fmtCheck c k
    if c = 0 then reserved 60
    else if isBlocked c && decide (k ≠ 4) then reserved 56
    else if isBlocked c && decide (e ≠ 16) then reserved 0
    else
      let x ← rv t
      let vs := (lanes x.toNat w e).map (decodeNum f)
      if isBlocked c then
        let r := recEncode c k vs (seedOf s)
        store (recAddr (addrOf p) c k n) (recBytes c k) r.1 true
        change fun u => setSeed (setFlags u r.2.1) r.2.2
      else
        let a := elemAddr (addrOf p) c n
        elemAligned a c .store
        let r := roundElems c (defaultMode s) vs (seedOf s)
        store a (e * elemBits c / 8) (packLanes (elemBits c) r.1) true
        change fun u => setSeed (setFlags u r.2.1) r.2.2) s)

/-! ### Ordering -/

/-- FENCE (R171): the release, then the acquire. -/
def execFence (sc : Scope) (s : State) : Host.Outcome State Fault Refusal :=
  finish s (Act.res (do
    let S ← clamp sc
    release S
    acquire S
    noteClamp sc) s)

/-- ACQ (R171). -/
def execAcq (sc : Scope) (s : State) : Host.Outcome State Fault Refusal :=
  finish s (Act.res (do
    let S ← clamp sc
    acquire S
    noteClamp sc) s)

/-- REL (R171). -/
def execRel (sc : Scope) (s : State) : Host.Outcome State Fault Refusal :=
  finish s (Act.res (do
    let S ← clamp sc
    release S
    noteClamp sc) s)

end Sys2Proof.Machine
end

