-- ==== Sys2Proof/Machine/Migrate.lean ====
section
/-! DEFINITION. The migration engine: the ring, MOVE, DUP, COLLAPSE and RECLAIM, cutover, stubs and purges
(R420-R433). -/

namespace Sys2Proof.Machine

open Sys2Proof

/-! ### The ring (R420, R421) -/

/-- The address of a ring entry. -/
def ringEntry (s : State) (m i : Nat) : Nat :=
  (s.modOf m).ringBase + 64 + 64 * (i % 2 ^ ((s.modOf m).ringLogn + 2))

/-- A read or a write of the migration ring; a malformed leaf that it meets is logged (R312). -/
def ringRead (s : State) (m a n : Nat) : Nat × State :=
  match superRead s m 0 a n with
  | .ok r => r
  | .error e => (0, logMalformed s m 0 e)
def ringWrite (s : State) (m a n x : Nat) : State :=
  match superWrite s m 0 a n x with
  | .ok s1 => s1
  | .error e => logMalformed s m 0 e

/-- A command's 64 bytes break R421 (status 1). -/
def cmdBad (x : Nat) : Bool :=
  let page := dfield x 0 8
  let op := dfield x 0x0E 1
  let quiet := dfield x 0x14 4
  decide (page % 2 ^ 21 ≠ 0 ∨ 2 ^ 55 ≤ page) || decide (dfield x 8 4 = 0) || decide (64 ≤ dfield x 0x0C 1)
    || decide (op = 0 ∨ 4 < op) || decide (4096 ≤ dfield x 0x10 2) || decide (16384 < quiet)
    || decide (dfield x 0x20 8 % 8 ≠ 0)
    || decide (dfield x 0x0D 1 ≠ 0 ∨ dfield x 0x0F 1 ≠ 0 ∨ dfield x 0x12 2 ≠ 0 ∨ dfield x 0x1C 4 ≠ 0
        ∨ dfield x 0x38 8 ≠ 0 ∨ dfield x 0x0E 2 / 256 ≠ 0)

/-- The lines of a part. -/
def partLines (page part : Nat) : List Nat := (List.range 64).map fun i => page * 2 ^ 11 + part * 64 + i

/-- The parts of a mask, ascending. -/
def partsOf (mask : Nat) : List Nat := (List.range 32).filter (bitAt mask)

/-- The command of 64 bytes. -/
def cmdOf (i x : Nat) : MigCmd :=
  { idx := i, page := dfield x 0 8 / 2 ^ 21, parts := dfield x 8 4, tenant := dfield x 0x0C 1 % 64,
    op := dfield x 0x0E 1, dest := dfield x 0x10 2 % 4096,
    quiet := if dfield x 0x14 4 = 0 then 64 else dfield x 0x14 4, cwaddr := dfield x 0x20 8,
    cwval := dfield x 0x28 8, moved := 0, rest := partsOf (dfield x 8 4), lines := [], dirty := [], pass := 0,
    frozen := false, leaf0 := 0, dest0 := 0, leafSeen := 0, destSeen := 0, acks := [],
    status := if cmdBad x then some 1 else none, ended := false, down := false }

/-- A command in progress. -/
def cmdAt (s : State) (m idx : Nat) : Option MigCmd := (s.modOf m).cmds.find? fun c => decide (c.idx = idx)
def State.modCmd (s : State) (m idx : Nat) (f : MigCmd → MigCmd) : State :=
  s.modMod m fun x => { x with cmds := x.cmds.map fun c => if c.idx = idx then f c else c }

/-- The step that carries a command on. -/
def cmdEvent (m : Nat) (c : MigCmd) : Event :=
  if c.status.isSome then .migrationCommandComplete m c.idx
  else
    match c.op with
    | 1 => .move m c.idx
    | 2 => .dup m c.idx
    | 3 => .collapse m c.idx
    | _ => .reclaim m c.idx

/-- MIGRATION_COMMAND_TAKE (R420): entry after entry, 64 commands at a time. -/
def execMigrationCommandTake (m : Nat) (s : State) : Host.Outcome State Fault Refusal :=
  let x := s.modOf m
  let i := x.migTaken
  if 64 ≤ (x.cmds.filter fun c => !c.ended).length then .next (s.again (.migrationCommandTake m))
  else
    let (d, s1) := ringRead s m (ringEntry s m i) 64
    if dfield d 0x18 4 ≠ (i + 1) % 2 ^ 32 then .next s1
    else
      let c := cmdOf i d
      let s2 := s1.modMod m fun y => { y with migTaken := i + 1, cmds := y.cmds ++ [c] }
      .next (s2.spawns [cmdEvent m c, .migrationCommandTake m])

/-- An earlier command names the same page and has not ended (R420). -/
def pageBusy (s : State) (m : Nat) (c : MigCmd) : Bool :=
  (s.modOf m).cmds.any fun d => decide (d.idx < c.idx ∧ d.page = c.page) && !d.ended

/-! ### Leaves -/

/-- The first address of a command's page. -/
def MigCmd.addr (c : MigCmd) : Nat := c.page * 2 ^ 21

/-- The leaf of a page in a module, walked afresh; 0 where an entry reads as poison. -/
def pageLeaf (s : State) (m page : Nat) : Nat := (walk s m (page * 2 ^ 21)).getD 0

/-- Write the halves of a leaf that change (R315): the low half, the high half. -/
def writeLeaf (s : State) (m page old new : Nat) : State :=
  match leafAddr s m (page * 2 ^ 21) with
  | .empty | .poisoned => s
  | .leaf p =>
    let s1 := if old / 2 ^ 64 = new / 2 ^ 64 then s else frameStore s m (p + 8) (new / 2 ^ 64)
    if old % 2 ^ 64 = new % 2 ^ 64 then s1 else frameStore s1 m p (new % 2 ^ 64)

/-- Fields of a leaf replaced (R311). -/
def setLeafState (l v : Nat) : Nat := putBits l 3 1 v
def setAper (l v : Nat) : Nat := putBits l 5 4 v
def setOwner (l v : Nat) : Nat := putBits l 51 40 v
def setAlt (l v : Nat) : Nat := putBits l 63 52 v
def setRes (l part : Nat) (v : Bool) : Nat := putBits l (64 + part) (64 + part) (b2n v)
def setDup (l part : Nat) (v : Bool) : Nat := putBits l (96 + part) (96 + part) (b2n v)

/-- A module's dies forget the cached leaf of a page. -/
def dropLeaf (s : State) (m page : Nat) : State :=
  let drop (d : Die) : Die :=
    { d with leafCache := d.leafCache.filter fun x => decide (x.1 ≠ page)
             walks := d.walks.filter fun x => decide (x.1 ≠ page) }
  { s with dies := s.dies.map fun e => if dieMod e.1 = m then (e.1, drop e.2) else e }

/-- A module's slices drop their sectors of a part, dirty bytes to DRAM first (R423). -/
def dropPart (s : State) (m page part : Nat) : State :=
  let mine (l : L2Line) : Bool := decide (l.line / 64 = page * 32 + part) && !l.pinned
  let die (t : State) (dk : Nat) : State :=
    (t.modMod m fun x => ((t.dieOf dk).l2.filter mine).foldl l2WriteBack x).modDie dk fun d =>
      { d with l2 := d.l2.filter fun l => !mine l }
  ((s.dies.map (·.1)).filter fun dk => decide (dieMod dk = m)).foldl die s

/-! ### Starting MOVE and DUP (R422, R423) -/

/-- End a command with a status. -/
def endCmd (s : State) (m idx st : Nat) : State :=
  (s.modCmd m idx fun c => { c with status := some st, frozen := false }).spawn (.migrationCommandComplete m idx)

/-- A part that a command needs is absent: status 6, and an entry in the fault queue (R422). -/
def endAbsent (s : State) (m : Nat) (c : MigCmd) (part : Nat) : State :=
  let a := c.addr + part * 2 ^ 16
  endCmd (postFault s m (firstDie s m)
    { vf := c.tenant, addr := a, token := 0, kind := 1, source := 4, access := 0, place := 0, id := 0 }) m c.idx 6

/-- The module that a command's DEST names, if it can be reached. -/
def destMod (s : State) (m : Nat) (c : MigCmd) : Option Nat := if c.dest = s.pkgOf m then none else reachable s m c.dest

/-- DEST's leaf is prepared (R423): the owner of lent parts that come home keeps its own name. -/
def destReady (s : State) (m : Nat) (c : MigCmd) (l ld : Nat) : Bool :=
  leafV ld && decide (leafAper ld = 0) && decide (leafRes ld &&& c.parts = 0) && decide (leafDup ld &&& c.parts = 0)
    && decide (leafOwner ld = s.pkgOf m ∨ (ownerOf s m l = c.dest ∧ leafOwner ld = c.dest))

/-- The page lends parts: the owner does not hold them all, and its ALT names another package (R418, R419). -/
def lends (s : State) (m l : Nat) : Bool :=
  decide (ownerOf s m l = s.pkgOf m ∧ leafState l ≠ 2 ∧ leafAlt l ≠ s.pkgOf m ∧ leafRes l ≠ 2 ^ 32 - 1)

/-- The holders of a part's copies (R423). -/
def holdersOf (s : State) (m page part : Nat) : List Nat :=
  match (s.modOf m).dups.find? fun d => decide (d.page = page ∧ d.part = part) with
  | some d => d.holders
  | none => []

/-- What forbids a MOVE or DUP of a page (status 2 of R422). -/
def moveForbidden (s : State) (m : Nat) (c : MigCmd) (l : Nat) : Bool :=
  let own := s.pkgOf m
  let bad (p : Nat) : Bool := !bitAt (leafRes l) p || (decide (c.op = 1) && bitAt (leafDup l) p)
  decide (leafAper l ≠ 0) || (partsOf c.parts).any bad
    || (if c.op = 1 then
          decide (leafDup l ≠ 0) || (decide (ownerOf s m l ≠ own) && decide (c.dest ≠ ownerOf s m l))
            || (lends s m l && decide (leafAlt l ≠ c.dest))
        else
          decide (ownerOf s m l ≠ own) || lends s m l
            || (partsOf c.parts).any (fun p => decide (3 ≤ (holdersOf s m c.page p).length))
            || decide (16384 < (s.modOf m).dups.length
                 + ((partsOf c.parts).filter fun p => (holdersOf s m c.page p).isEmpty).length))

/-- The source's reserved stub of an abandoned part goes. -/
def dropReserve (s : State) (m page part : Nat) : State :=
  s.modMod m fun x => { x with stubs := dropFirst (fun t => decide (t.page = page ∧ t.part = part) && !t.live) x.stubs }

/-- A package gives up its copy of a part: its dies' cached leaf, and its sectors in every L1 and L2 (R433). -/
def dropCopy (s : State) (h page part : Nat) : State :=
  let mine (a : Nat) (_ : L1Sec) : Bool := decide (pageOf a = page ∧ partOf a = part ∧ bitAt a 55 = false)
  let s1 := dropPart (dropLeaf s h page) h page part
  let ks := (s1.cores.map (·.1)).filter fun k => decide (dieMod (cluDie (coreClu k)) = h)
  ks.foldl (fun t k => dropWhere t k mine) s1

/-- A DUP that ends with a status other than 0 takes back the copies it made (R422). -/
def undoDup (s : State) (m k : Nat) (c : MigCmd) : State :=
  let back (t : State) (p : Nat) : State :=
    (dropCopy t k c.page p).modMod m fun x =>
      { x with dups := (x.dups.map fun d =>
                 if d.page = c.page ∧ d.part = p then { d with holders := dropFirst (· = c.dest) d.holders } else d).filter
                   fun d => !d.holders.isEmpty }
  if c.op = 2 then (partsOf c.moved).foldl back s else s

/-- The leaves that a MOVE or DUP leaves at the source and at DEST (R423). A lent holder that gives its last part back meets
the first line of the table and the third. -/
def finalLeaves (s : State) (m : Nat) (c : MigCmd) (l ld : Nat) : Nat × Nat :=
  let own := s.pkgOf m
  let owner := ownerOf s m c.leaf0
  if c.op = 2 then
    (setAlt (setLeafState l 2) (if leafAlt c.leaf0 = own then c.dest else leafAlt c.leaf0), ld)
  else if owner ≠ own then
    (let back := setAlt (setLeafState l 1) owner
     if leafRes l = 0 then (setAper (setOwner back c.dest) 1, setAlt (setLeafState (setOwner ld c.dest) 0) owner)
     else (back, ld))
  else if leafRes l = 0 then (setAper (setLeafState (setOwner l c.dest) 1) 1, setLeafState (setOwner ld c.dest) 0)
  else (setAlt (setLeafState l 0) c.dest, ld)

/-- A command leaves MIGRATING and ends (R422, R423): with a status other than 0 the leaves are as before the command,
but for the parts that a MOVE cut over. A leaf that software wrote meanwhile stays as it is. -/
def finishMove (s : State) (m : Nat) (c : MigCmd) (st : Nat) : State :=
  let s0 := match c.rest with
    | p :: _ => if c.op = 1 then dropReserve s m c.page p else s
    | [] => s
  let ends := if st ≠ 0 ∧ (c.op = 2 ∨ c.moved = 0) then (c.leaf0, c.dest0)
    else finalLeaves s0 m c c.leafSeen c.destSeen
  let put (t : State) (k seen new : Nat) : State :=
    if pageLeaf t k c.page = seen then writeLeaf t k c.page seen new else t
  let s1 := put s0 m c.leafSeen ends.1
  match s1.modWith c.dest with
  | none => endCmd s1 m c.idx st
  | some k =>
    let s2 := put s1 k c.destSeen ends.2
    endCmd (if st = 0 then s2 else undoDup s2 m k c) m c.idx st

/-- A command meets its part: reserve a stub for a MOVE (status 5 without one), then queue every line (R423). -/
def startPart (s : State) (m : Nat) (c : MigCmd) : State :=
  match c.rest with
  | [] => s
  | p :: _ =>
    if c.op = 1 ∧ 65536 ≤ (s.modOf m).stubs.length then finishMove s m c 5
    else
      let st : Stub := { tenant := c.tenant, page := c.page, part := p, target := c.dest, counts := [],
                         outstanding := 0, since := s.ticks, quiet := c.quiet, live := false,
                         sent := s.ticks * 2 ^ 20, purging := none, purgedAt := 0 }
      let s1 := if c.op = 1 then s.modMod m fun x => { x with stubs := x.stubs ++ [st] } else s
      (s1.modCmd m c.idx fun d => { d with lines := partLines c.page p, dirty := [], pass := 1 }).spawn (cmdEvent m c)

/-- The first part: the checks, then the source's leaf becomes MIGRATING (R423). -/
def startMove (s : State) (m : Nat) (c : MigCmd) : State :=
  let l := pageLeaf s m c.page
  match (partsOf c.parts).find? fun p => decide (locate s m c.tenant (c.addr + p * 2 ^ 16) l = .absent) with
  | some p => endAbsent s m c p
  | none =>
    if moveForbidden s m c l then endCmd s m c.idx 2
    else
      match destMod s m c with
      | none => endCmd s m c.idx 3
      | some k =>
        let ld := pageLeaf s k c.page
        if destReady s m c l ld = false then endCmd s m c.idx 3
        else
          let l1 := setAlt (setLeafState l 3) c.dest
          let s1 := writeLeaf s m c.page l l1
          let c1 : MigCmd := { c with leaf0 := l, dest0 := ld, leafSeen := l1, destSeen := ld }
          startPart (s1.modCmd m c.idx fun _ => c1) m c1

/-! ### Copying (R423, R424) -/

/-- Copy one line to DEST's frame: read at the source's homes, poison and all. -/
def copyLine (s : State) (m k tenant line : Nat) (ls ld : Nat) : State :=
  let one (t : State) (i : Nat) : State :=
    let a := line * 1024 + i * 128
    let (d, po, t1) := serveRead t m tenant a (attrOf ls a 0) (leafPhys ls a) false
    serveWrite t1 k tenant a { attrOf ld a 0 with c := false } (leafPhys ld a) (2 ^ 128 - 1) d po
  (List.range 8).foldl one s

/-- Software wrote a leaf of the page while the command ran (status 7). -/
def leafWritten (s : State) (m k : Nat) (c : MigCmd) : Bool :=
  decide (pageLeaf s m c.page ≠ c.leafSeen ∨ pageLeaf s k c.page ≠ c.destSeen)

/-- One step of the copy of a part (R423): a line, the next pass, or the freeze. -/
def copyStep (s : State) (m : Nat) (c : MigCmd) : State :=
  match destMod s m c with
  | none => finishMove s m c 3
  | some k =>
    if leafWritten s m k c then finishMove s m c 7
    else
      match c.lines with
      | x :: xs =>
        (copyLine (s.modCmd m c.idx fun d => { d with lines := xs }) m k c.tenant x c.leafSeen c.destSeen).spawn (cmdEvent m c)
      | [] =>
        if c.dirty.length ≤ 16 then
          (s.modCmd m c.idx fun d => { d with frozen := true }).spawn (.migrationCutover m c.idx)
        else if 8 ≤ c.pass then finishMove s m c 4
        else (s.modCmd m c.idx fun d => { d with lines := c.dirty, dirty := [], pass := c.pass + 1 }).spawn (cmdEvent m c)

/-- One step of a MOVE or a DUP. -/
def moveStep (s : State) (m idx : Nat) (e : Event) : State :=
  match cmdAt s m idx with
  | none => s
  | some c =>
    if c.status.isSome || c.frozen then s
    else if pageBusy s m c then s.again e
    else if c.down then finishMove s m c 8
    else if c.pass = 0 then startMove s m c
    else copyStep s m c

/-- MOVE (R423). -/
def execMove (m idx : Nat) (s : State) : Host.Outcome State Fault Refusal := .next (moveStep s m idx (.move m idx))

/-- DUP (R423, R432). -/
def execDup (m idx : Nat) (s : State) : Host.Outcome State Fault Refusal := .next (moveStep s m idx (.dup m idx))

/-- Forget the counts of the relays by a module's stub that a package performed for a part (R430). -/
def dropCounts (s : State) (m page part stub : Nat) : State :=
  s.modMod m fun x =>
    { x with performed := x.performed.filter fun e =>
        decide (¬(e.1.2.1 = page ∧ e.1.2.2.1 = part ∧ e.1.2.2.2.2 = stub)) }

/-- Add a holder to the duplicate table (R423). -/
def addHolder (ds : List DupEntry) (page part pkg : Nat) : List DupEntry :=
  if ds.any fun d => decide (d.page = page ∧ d.part = part) then
    ds.map fun d => if d.page = page ∧ d.part = part then { d with holders := d.holders ++ [pkg] } else d
  else ds ++ [{ page := page, part := part, holders := [pkg] }]

/-- What the cutover of a part does at the source (R423, R431). -/
def cutSource (s : State) (m k : Nat) (c : MigCmd) (p : Nat) : State :=
  let s1 := dropPart (dropLeaf s m c.page) m c.page p
  if c.op = 1 then
    let live (t : Stub) : Bool := decide (t.page = c.page ∧ t.part = p) && !t.live
    let s2 := s1.modMod m fun x =>
      { x with stubs := mapFirst live (fun t => { t with live := true, since := s.ticks }) x.stubs }
    let s3 := s2.modMod k fun x => { x with stubs := x.stubs.filter fun t => decide (¬(t.page = c.page ∧ t.part = p)) }
    s3.spawn (.stubQuietExpiry m c.page p)
  else s1.modMod m fun x => { x with dups := addHolder x.dups c.page p c.dest }

/-- MIGRATION_CUTOVER (R423-R425): the frozen part changes hands as a whole. -/
def execMigrationCutover (m idx : Nat) (s : State) : Host.Outcome State Fault Refusal :=
  match cmdAt s m idx with
  | none => .next s
  | some c =>
    match c.rest, destMod s m c with
    | [], _ => .next s
    | _, none => .next (finishMove s m c 3)
    | p :: ps, some k =>
      if c.frozen = false then .next s
      else if c.down then .next (finishMove s m c 8)
      else if leafWritten s m k c then .next (finishMove s m c 7)
      else
        let s1 := c.dirty.foldl (fun t x => copyLine t m k c.tenant x c.leafSeen c.destSeen) s
        let ld := c.destSeen
        let ld1 := if c.op = 2 then setLeafState (setDup (setRes ld p true) p true) 2 else setRes ld p true
        let l1 := if c.op = 2 then setDup c.leafSeen p true else setRes c.leafSeen p false
        let s2 := cutSource (writeLeaf (writeLeaf s1 k c.page ld ld1) m c.page c.leafSeen l1) m k c p
        let c1 : MigCmd := { c with moved := c.moved + 2 ^ p, rest := ps, frozen := false, lines := [], dirty := [],
                                    leafSeen := l1, destSeen := ld1 }
        let s3 := s2.modCmd m idx fun _ => c1
        if ps.isEmpty then .next (finishMove s3 m c1 0) else .next (startPart s3 m c1)

/-! ### COLLAPSE (R433) -/

/-- A COLLAPSE that ends with a status other than 0 gives the holders their copies back, whose frames still hold them
(R422). -/
def restoreCopies (s : State) (m : Nat) (c : MigCmd) : State :=
  let give (p : Nat) (t : State) (h : Nat) : State :=
    match t.modWith h with
    | none => t
    | some k =>
      let l := pageLeaf t k c.page
      writeLeaf t k c.page l (setLeafState (setDup (setRes l p true) p true) 2)
  (partsOf c.parts).foldl (fun t p => (holdersOf s m c.page p).foldl (give p) t) s

/-- COLLAPSE at the owner: an invalidate to every holder of every named part, and the end once all have
acknowledged. -/
def execCollapse (m idx : Nat) (s : State) : Host.Outcome State Fault Refusal :=
  match cmdAt s m idx with
  | none => .next s
  | some c =>
    if c.status.isSome then .next s
    else if pageBusy s m c then .next (s.again (.collapse m idx))
    else
      let l := pageLeaf s m c.page
      if c.pass = 0 ∧ c.down then .next (endCmd s m idx 8)
      else if c.pass = 0 then
        match (partsOf c.parts).find? fun p => decide (locate s m c.tenant (c.addr + p * 2 ^ 16) l = .absent) with
        | some p => .next (endAbsent s m c p)
        | none =>
          if ownerOf s m l ≠ s.pkgOf m ∨ (partsOf c.parts).any (fun p => !bitAt (leafRes l) p) then
            .next (endCmd s m idx 2)
          else
            let hs := (partsOf c.parts).flatMap fun p => (holdersOf s m c.page p).map fun h => (h, p)
            let send (t : State) (h : Nat × Nat) : State :=
              (t.note (.inval ((s.modWith h.1).getD m) m idx c.page h.2)).spawn (.collapseInvalidate m idx h.1)
            .next ((hs.foldl send (s.modCmd m idx fun d => { d with pass := 1, acks := hs, leafSeen := l })).spawn (.collapse m idx))
      else if c.acks.isEmpty then
        let l1 := (partsOf c.parts).foldl (fun x p => setDup x p false) l
        let l2 := if leafDup l1 = 0 then setLeafState l1 0 else l1
        let s1 := s.modMod m fun x =>
          { x with dups := x.dups.filter fun d => !(decide (d.page = c.page) && bitAt c.parts d.part) }
        if l ≠ c.leafSeen then .next (endCmd (restoreCopies s m c) m idx 7) else .next (endCmd (writeLeaf s1 m c.page l l2) m idx 0)
      else .next (s.again (.collapse m idx))

/-- COLLAPSE_INVALIDATE (R433): a holder gives up its copy of a part and acknowledges. -/
def execCollapseInvalidate (m idx holder : Nat) (s : State) : Host.Outcome State Fault Refusal :=
  let f (n : Note) : Option (Nat × Nat × Nat) :=
    match n with
    | .inval h o i page part => if o = m ∧ i = idx ∧ s.pkgOf h = holder then some (h, page, part) else none
    | _ => none
  match takeNote f s.notes with
  | none => .next s
  | some ((h, page, part), rest) =>
    let s0 := { s with notes := rest }
    let l := pageLeaf s0 h page
    let l1 := setDup (setRes l part false) part false
    let l2 := if leafDup l1 = 0 then setLeafState l1 1 else l1
    .next (((dropCopy (writeLeaf s0 h page l l2) h page part).note (.invalAck m idx holder part)).spawn (.collapseAck m idx holder))

/-- COLLAPSE_ACK (R433). -/
def execCollapseAck (m idx holder : Nat) (s : State) : Host.Outcome State Fault Refusal :=
  let f (n : Note) : Option Nat :=
    match n with
    | .invalAck o i h part => if o = m ∧ i = idx ∧ h = holder then some part else none
    | _ => none
  match takeNote f s.notes with
  | none => .next s
  | some (part, rest) =>
    .next (State.modCmd { s with notes := rest } m idx fun c =>
      { c with acks := c.acks.filter fun h => decide (h ≠ (holder, part)) })

/-! ### Stubs and purges (R426, R430) -/

/-- The modules of the tenant scope (R326): those that have a package number. -/
def tenantMods (s : State) : List Nat := (s.mods.filter fun e => e.2.pkg.isSome).map (·.1)

/-- Reclamation of a stub begins: a purge to every package (R430). -/
def startPurge (s : State) (m : Nat) (t : Stub) : State :=
  let ms := tenantMods s
  let mine (x : Stub) : Bool := x.live && decide (x.page = t.page ∧ x.part = t.part)
  let s1 := s.modMod m fun x => { x with stubs := mapFirst mine (fun y => { y with purging := some ms, purgedAt := s.ticks }) x.stubs }
  ms.foldl (fun u k => (u.note (.purge k m t.page t.part t.target s.ticks)).spawn (.purge k m t.page t.part)) s1

/-- STUB_QUIET_EXPIRY (R430): counted from the cutover or the latest relay. -/
def execStubQuietExpiry (m page part : Nat) (s : State) : Host.Outcome State Fault Refusal :=
  match stubOf s m page part with
  | none => .next s
  | some t =>
    if t.purging.isSome then .next s
    else if s.ticks < t.since + t.quiet * 1024 then .next (s.again (.stubQuietExpiry m page part))
    else .next (startPurge s m t)

/-- RECLAIM (R430, R435): the named parts' stubs; a part without a stub changes nothing. -/
def execReclaim (m idx : Nat) (s : State) : Host.Outcome State Fault Refusal :=
  match cmdAt s m idx with
  | none => .next s
  | some c =>
    if c.status.isSome then .next s
    else if pageBusy s m c then .next (s.again (.reclaim m idx))
    else if c.down then .next (endCmd s m idx 8)
    else
      match (partsOf c.parts).filterMap fun p => stubOf s m c.page p with
      | [] => .next (endCmd s m idx 0)
      | ts =>
        let s1 := (ts.filter fun t => t.purging.isNone).foldl (fun u t => startPurge u m t) s
        .next (s1.again (.reclaim m idx))

/-- A request of a package's slices for a part is on its way to another package (R430). -/
def sentOff (s : State) (m page part : Nat) : Bool :=
  s.net.any fun x =>
    decide (x.src.mod = m) && !x.body.isProbe && !x.atHome
      && decide (pageOf x.body.addr = page ∧ partOf x.body.addr = part)

/-- PURGE (R430): once every earlier request for the part is answered, the dies forget it, the leaf of a page that
moved whole names the new owner, and the package acknowledges. -/
def execPurge (m frm page part : Nat) (s : State) : Host.Outcome State Fault Refusal :=
  let f (n : Note) : Option (Nat × Nat) :=
    match n with
    | .purge k o pg pt new at' => if k = m ∧ o = frm ∧ pg = page ∧ pt = part then some (new, at') else none
    | _ => none
  match takeNote f s.notes with
  | none => .next s
  | some ((new, at'), rest) =>
    if sentOff s m page part then .next (s.again (.purge m frm page part))
    else
      let s0 := { s with notes := rest }
      let forget (e : Nat × Die) : Nat × Die :=
        if dieMod e.1 = m then
          (e.1, { e.2 with ownerCache := e.2.ownerCache.filter fun x => decide (¬(x.1.2.1 = page ∧ x.1.2.2 = part)) })
        else e
      let s1 := dropLeaf { s0 with dies := s0.dies.map forget } m page
      let old := pageLeaf s1 frm page
      let l := pageLeaf s1 m page
      let whole := decide (leafRes old = 0 ∧ leafOwner old = new)
      let s2 := if whole && leafV l && decide (leafOwner l = s.pkgOf frm) && decide (m ≠ frm) then
          writeLeaf s1 m page l (setOwner l new)
        else s1
      .next ((s2.note (.purgeAck frm m page part at')).spawn (.purgeAck frm m page part))

/-- A purged stub is freed once every package and every relay is acknowledged; the holding package forgets its
counts (R430), and this one those of a stub of the holding package that the stub has taken over (R431). -/
def freeStub (s : State) (m page part : Nat) (t : Stub) : State :=
  let s1 := s.modMod m fun x => { x with stubs := x.stubs.filter fun y => !(y.live && decide (y.page = page ∧ y.part = part)) }
  match s.modWith t.target with
  | none => s1
  | some k => dropCounts (dropCounts s1 k page part m) m page part k

/-- PURGE_ACK (R430). An acknowledgement of an earlier purge is of no consequence. -/
def execPurgeAck (m frm page part : Nat) (s : State) : Host.Outcome State Fault Refusal :=
  let f (n : Note) : Option Nat :=
    match n with
    | .purgeAck o k pg pt at' => if o = m ∧ k = frm ∧ pg = page ∧ pt = part then some at' else none
    | _ => none
  match takeNote f s.notes with
  | none => .next s
  | some (at', rest) =>
    let s1 := { s with notes := rest }
    match stubOf s m page part, (stubOf s m page part).bind (·.purging) with
    | some t, some ms =>
      let left := ms.filter (· ≠ frm)
      if t.purgedAt ≠ at' then .next s1
      else if left.isEmpty ∧ 0 < t.outstanding then .next (s.again (.purgeAck m frm page part))
      else if left.isEmpty then .next (freeStub s1 m page part t)
      else
        let mine (x : Stub) : Bool := x.live && decide (x.page = page ∧ x.part = part)
        .next (s1.modMod m fun x => { x with stubs := mapFirst mine (fun y => { y with purging := some left }) x.stubs })
    | _, _ => .next s1

/-! ### The end of a command (R420, R422) -/

/-- NEXT advances past every leading entry that has ended. -/
def advanceNext (m : Nat) : Nat → State → State
  | 0, s => s
  | n + 1, s =>
    match (s.modOf m).cmds with
    | [] => s
    | c :: rest =>
      if c.ended then
        advanceNext m n (ringWrite (s.modMod m fun x => { x with cmds := rest }) m ((s.modOf m).ringBase + 8) 8 (c.idx + 1))
      else s

/-- The completion word of a command (R420); none while a part that is frozen keeps it waiting (R423). One that is lost is
counted (R399). -/
def completeWord (s : State) (m : Nat) (c : MigCmd) : Option State :=
  if c.cwaddr = 0 then some s
  else
    match superWrite s m c.tenant (c.cwaddr % addrSpace) 8 c.cwval with
    | .ok t => some t
    | .error e =>
      if e.1 = .unanswered then none
      else if e.1.pending then some ((noteLost s e.1).count (firstDie s m) 14)
      else some (logMalformed s m c.tenant e)

/-- MIGRATION_COMMAND_COMPLETE (R420, R422): STATUS, the completion word, NEXT. -/
def execMigrationCommandComplete (m idx : Nat) (s : State) : Host.Outcome State Fault Refusal :=
  match cmdAt s m idx with
  | none => .next s
  | some c =>
    match c.status with
    | none => .next s
    | some st =>
      if c.ended then .next s
      else
        let s1 := ringWrite s m (ringEntry s m idx + 0x30) 8 (st + (if st = 0 ∨ c.op ≠ 1 then 0 else c.moved * 2 ^ 32))
        match completeWord s1 m c with
        | none => .next (s1.again (.migrationCommandComplete m idx))
        | some s2 =>
          let s3 := s2.modCmd m idx fun d => { d with ended := true }
          .next ((advanceNext m (s3.modOf m).cmds.length s3).spawn (.migrationCommandTake m))

end Sys2Proof.Machine
end

