-- ==== Sys2Proof/Machine/Package.lean ====
section
/-! DEFINITION. The package: boot, attestation, the host ports and host writes, partitions, VF reset, temperature and the
failures of a package (R374-R388). -/

namespace Sys2Proof.Machine

open Sys2Proof

/-! ### Boot (R384) -/

/-- A message to or from a module. -/
def Note.touches (n : Note) (m : Nat) : Bool :=
  match n with
  | .mcmd src _ _ _ _ _ _ | .mcmdAns src _ _ => decide (src.mod = m)
  | .event src k _ _ _ _ _ => decide (src.mod = m ∨ k = m)
  | .wake die _ _ => decide (dieMod die = m)
  | .counter src die _ _ _ _ _ | .group src die _ _ _ | .tenq src die _ => decide (src.mod = m ∨ dieMod die = m)
  | .close k _ _ _ _ who => decide (k = m ∨ who.mod = m)
  | .closeAck k who => decide (k = m ∨ who.mod = m)
  | .merge k _ _ _ _ _ _ clu _ _ => decide (k = m ∨ cluMod clu = m)
  | .steal k die _ _ _ => decide (k = m ∨ dieMod die = m)
  | .relayAck k _ _ _ _ _ _ => decide (k = m)
  | .redirect die _ _ _ _ _ _ _ => decide (dieMod die = m)
  | .purge k f _ _ _ _ | .purgeAck k f _ _ _ => decide (k = m ∨ f = m)
  | .inval k _ _ _ _ | .invalAck k _ _ _ => decide (k = m)
  | .vs clu _ _ _ | .vsCredit clu _ _ => decide (cluMod clu = m)
  | .credit k _ _ _ => decide (k = m)

/-- A module after its reset and boot step 1: its dies and port dies are tested; the host's memory is not the
module's. A die whose routers fail keeps the module in recovery (R388). -/
def bootModule (s : State) (m cause : Nat) : Module :=
  { Module.reset with
    epoch := s.ticks
    boot := 1
    host := (s.modOf m).host
    resetCause := cause
    recovery := (List.range 64).any fun d => !Config.dieTest m d && !Config.routerTest m d
    diesUp := (List.range 64).filter (Config.dieTest m)
    ports := (List.range 16).map fun p => (p, { PortDie.reset with failed := !Config.portTest m p }) }

/-- A failure of a package, in the physical function's log (R320, R388); DESIGN CHOICE (log 25): R320 names no KIND for it,
so that KIND and ADDR are open. -/
def logFailure (s : State) (m : Nat) (what : Failure) (which : Nat) : State :=
  let r := Config.failureRecord what which
  s.logErr (firstDie s m) 64 (r.1 % 64) r.2

/-- A stack goes offline (R374): in the physical function's log. -/
def stackDown (s : State) (m stack : Nat) : State :=
  ((s.modMod m fun x => { x with stacksDown := stack :: x.stacksDown.filter (· ≠ stack) }).count (firstDie s m) 1).logErr
    (firstDie s m) 64 5 stack

/-- The stacks of a port die are lost (R388). -/
def stacksLost (s : State) (m pd : Nat) : State := [0, 1, 2].foldl (fun t i => stackDown t m (3 * pd + i)) s

/-- What failed its test at boot is down and logged (R384, R388). -/
def bootFailures (s : State) (m : Nat) : State :=
  let dies := (List.range 64).filter fun d => !Config.dieTest m d
  let pds := (List.range 16).filter fun p => !Config.portTest m p
  let s1 := dies.foldl (fun t d => logFailure t m .die d) s
  pds.foldl (fun t p => stacksLost (logFailure t m .portDie p) m p) s1

/-- Module reset (R384, R387): nothing of the module is left, and boot step 1 runs. -/
def resetModule (s : State) (m cause : Nat) : State :=
  { s with
    strands := s.strands.filter fun e => decide ((Place.ofKey e.1).mod ≠ m)
    cores := s.cores.filter fun e => decide (coreMod e.1 ≠ m)
    clusters := s.clusters.filter fun e => decide (cluMod e.1 ≠ m)
    dies := s.dies.filter fun e => decide (dieMod e.1 ≠ m)
    ejects := s.ejects.filter fun e => decide (e.1 / 2 ^ 16 ≠ m)
    net := s.net.filter fun x => decide (x.src.mod ≠ m ∧ x.loc ≠ m)
    replies := s.replies.filter fun r => decide (r.dst.mod ≠ m)
    notes := s.notes.filter fun n => !n.touches m
    flits := s.flits.filter fun f => decide (f.mod ≠ m)
    left := s.left.filter fun k => decide (coreMod k ≠ m)
    mods := fset s.mods m (bootModule s m cause) }

/-- MODULE_RESET (R384). -/
def execModuleReset (m : Nat) (s : State) : Host.Outcome State Fault Refusal := .next (bootFailures (resetModule s m 0) m)

/-- The bytes of a number, lowest first. -/
def bytesOf (n x : Nat) : List Byte := (List.range n).map fun i => BitVec.ofNat 8 (x / 256 ^ i)

/-- Append to the measured-boot log (R384). -/
def Module.measure (x : Module) (d : BitVec 384) : Module :=
  { x with log := x.log ++ [{ event := Config.bootEvent x.log.length, index := x.log.length, digest := d }],
           digest := Config.sha384 (bytesOf 48 x.digest.toNat ++ bytesOf 48 d.toNat) }

/-- Boot steps 5 and 6 (R384, R387): the log, then memory, host ports and the physical function; a host port that does not
train is down. -/
def finishBoot (s : State) (m : Nat) (img : FwImage) : State :=
  let ups := [Config.hostPortTest m 0, Config.hostPortTest m 1]
  let s1 := s.modMod m fun x =>
    { ((x.measure (Config.romDigest m)).measure (Config.rootKeyHash m)).measure img.digest with
      boot := 6, fwVersion := img.version, portUp := ups }
  divideBudget (([0, 1].filter fun p => !nth false ups p).foldl (fun t p => logFailure t m .hostPort p) s1) m

/-- The key and the signature of an image pass the checks of boot steps 3 and 4 (R384). -/
def imagePasses (m : Nat) (img : FwImage) : Bool :=
  decide (Config.sha384 (bytesOf 96 img.key.toNat) = Config.rootKeyHash m) && !Config.keyRevoked m (img.keyIndex % 16)
    && Config.verify img.key img.digest img.sig && decide (Config.rollbackFuse m ≤ img.version)

/-- FIRMWARE_FETCH_RETRY (R384): steps 2-6. An image that does not arrive, or of 256 MiB or more, is fetched again 5 s
later; one that fails a check is logged and leaves the module in recovery (R388). -/
def execFirmwareFetchRetry (m : Nat) (img : FwImage) (s : State) : Host.Outcome State Fault Refusal :=
  let x := s.modOf m
  if x.boot ≠ 1 ∨ x.recovery ∨ (s.port m 0).failed then .next s
  else if img.arrived = false ∨ 2 ^ 28 ≤ img.bytes then .next s
  else if imagePasses m img then .next (finishBoot s m img)
  else .next (logFailure (s.modMod m fun y => { y with recovery := true }) m .image img.version)

/-! ### Attestation (R385) -/

/-- A policy record as bytes. -/
def Policy.bytes (p : Policy) : List Byte :=
  let fs := [b2n p.en, p.part, p.slice, p.maxscope, b2n p.trap, p.wayshare, p.pinways, p.pinbase, p.rtbase,
    p.faultq.toNat, p.evec.toNat, p.escratch.toNat, p.quota, p.nctx, p.ctxbase, p.savebase, b2n p.hostport, b2n p.enrol]
  let tab (e : Nat × UpdTable) : List Nat :=
    [e.1, e.2.base, e.2.stride, e.2.len, e.2.nrows, b2n e.2.merge, e.2.mcap]
  (fs ++ p.tables.flatMap tab).flatMap (bytesOf 8)

/-- The body of a report: its fields in the order of R385 (log 25). -/
def reportBody (s : State) (m : Nat) (nonce : BitVec 256) : List Byte :=
  let x := s.modOf m
  let pol := Config.sha384 ((List.range 64).flatMap fun v => (s.policy m v).bytes)
  bytesOf 32 nonce.toNat ++ Config.partNumber ++ bytesOf 48 x.digest.toNat ++ bytesOf 8 x.fwVersion
    ++ bytesOf 8 (Config.rollbackFuse m) ++ bytesOf 48 pol.toNat

/-- The device identity public key, as PF BAR 0 reads it (R385). -/
def identityKey (m : Nat) : BitVec 768 := Config.identityKey m

/-- ATTESTATION_REQUEST (R385): once the firmware runs; the report is signed with the device's own key. -/
def execAttestationRequest (m : Nat) (nonce : BitVec 256) (s : State) : Host.Outcome State Fault Refusal :=
  if (s.modOf m).boot = 6 then
    let body := reportBody s m nonce
    .next (s.modMod m fun x => { x with report := some { body := body, sig := Config.sign m (Config.sha384 body) } })
  else .next s

/-! ### The host (R379) -/

/-- LQSTAT (R379): entries consumed, and whether a launch is in progress. -/
def Launch.lqstat (l : Launch) : Word := word (b2n l.running * 2 ^ 63 + l.consumed % 2 ^ 32)

/-- HOST_PORT_DOWN and HOST_PORT_UP (R379); a port that goes down is logged (R388). -/
def setPort (s : State) (m port : Nat) (v : Bool) : State :=
  s.modMod m fun x => { x with portUp := setNth x.portUp port v }
def execHostPortDown (m port : Nat) (s : State) : Host.Outcome State Fault Refusal :=
  .next (logFailure (setPort s m port false) m .hostPort port)
def execHostPortUp (m port : Nat) (s : State) : Host.Outcome State Fault Refusal := .next (setPort s m port true)

/-- A host write to a register of VF BAR 0 (R379). -/
def barRegister (s : State) (m vf a : Nat) (v : Word) : State :=
  if a = 0 then s.modLaunch m vf fun l => { l with lqbase := word (fld v 55 6 * 64) }
  else if a = 8 then
    let s1 := s.modLaunch m vf fun l => { l with lqcfg := word (fld v 63 63 * 2 ^ 63 + fld v 3 0) }
    if (s1.launch m vf).en then spawnOnce s1 (.launchTake m vf) else s1
  else if a = 0x10 then spawnOnce s (.launchTake m vf)
  else if a = 0x20 then s.spawn (.intdbWrite m vf v)
  else s

/-- A PCIe atomic of the host (R380): `v` is added to the 4 or 8 bytes at `a`, by which it is aligned; no other access comes
between. -/
def hostAdd (s : State) (m vf a n v : Nat) : Except (Fail × Nat) State :=
  match sysTarget s m vf a .atomic with
  | .error f => .error (f, a)
  | .ok (t, s1) =>
    match sysCheck s1 m vf false .atomic t a with
    | .error e => .error e
    | .ok s2 =>
      match readTarget s2 t vf a with
      | .error f => .error (f, a)
      | .ok (d, po, s3) =>
        if bitAt po (a % 128 / 8) then .error (.poison, a)
        else
          let x := (d / 256 ^ (a % 128) + v) % 256 ^ n
          match writeTarget s3 t vf a (maskRange (a % 128) n) (x * 256 ^ (a % 128)) 0 with
          | .error f => .error (f, a)
          | .ok s4 => .ok s4

/-- What a host access that fails leaves: it is dropped, and logged as R320 has it. -/
def hostFails (s : State) (m vf : Nat) (f : Fail) (a : Nat) : State :=
  let dk := homeDie s m vf a
  match f with
  | .poison => (s.logErr dk vf 6 a).count dk 2
  | _ => noteLost (logFail s dk vf f a) f

/-- A host write, or with `add` an atomic addition (R380), to module memory through the 64 GiB of BAR 2 (R379), checked
against the VF's rights table. One that has no answer yet stays due. -/
def barWindow (s : State) (m vf : Nat) (add : Bool) (a : Word) (v : Word) (n : Nat) : State :=
  let k := Nat.min n 8
  let at' := a.toNat
  if 2 ^ 36 ≤ at' then s
  else if add ∧ ¬((k = 4 ∨ k = 8) ∧ at' % k = 0) then s
  else
    match (if add then hostAdd s m vf at' k v.toNat else sysWrite (secFuel k) s m vf 0 false at' k v.toNat) with
    | .ok s1 => pokeRings s1 m vf at'
    | .error (f, b) => if f = .unanswered then s.again (.hostBarWrite m vf true a v (if add then 16 + n else n)) else hostFails s m vf f b

/-- HOST_BAR_WRITE (R379, R380): `bar2` tells the window from the registers; `16 + n` is the atomic addition of `n` bytes. -/
def execHostBarWrite (m vf : Nat) (bar2 : Bool) (a v : Word) (n : Nat) (s : State) : Host.Outcome State Fault Refusal :=
  .next (if bar2 then barWindow s m vf (decide (16 ≤ n)) a v (n % 16) else barRegister s m vf a.toNat v)

/-- FAULT_QUEUE_TAIL_ADVANCE (R317): TAIL moves on by `n`, or, with 0, the posts look at a TAIL that software has
stored to; posts that waited go on, and their waiters stay parked. -/
def execFaultQueueTailAdvance (m vf n : Nat) (s : State) : Host.Outcome State Fault Refusal :=
  let base := bits (s.policy m vf).faultq.toNat 55 12 * 4096
  let tail := (ochreSee s m vf (base + 8) 8).getD 0
  let s1 := drainPosts (if n = 0 then s else ochreWrite s m vf (base + 8) 8 (tail + n)) m
  .next (if (s1.modOf m).posts.any fun p => decide (p.vf = vf) then spawnOnce s1 (.faultQueueTailAdvance m vf 0) else s1)

/-! ### Partitions (R376, R377) -/

/-- The slots of a core that a partition owns. -/
def mapSlots (part slots : Nat) (w : Word) : Word :=
  (List.range 15).foldl (fun x i =>
    if bitAt slots i then setFld x (4 * i + 3) (4 * i) part
    else if fld x (4 * i + 3) (4 * i) = part then setFld x (4 * i + 3) (4 * i) 15 else x) w

/-- SPWAYS of a cluster that several partitions span: the sum of their parts (R377). -/
def sumWays (s : State) (m k : Nat) : Nat :=
  (((s.modOf m).partitions.filter fun e => (spanClusters m e.2).contains k).map (·.2.ways)).sum

/-- The clusters of a partition: those of dies that passed their test (R388). -/
def partClusters (s : State) (m : Nat) (cfg : PartCfg) : List (Nat × Nat) :=
  cfg.clusters.filter fun c => (s.modOf m).diesUp.contains c.1 && decide (c.2 < 400)

/-- Two partitions that meet in a cluster have a slot, a bank or a way in common, which R376 rules out. -/
def Partition.clashes (e o : Partition) (m : Nat) : Bool :=
  (spanClusters m e).any (spanClusters m o).contains
    && (decide (e.slots &&& o.slots ≠ 0) || decide (e.banks &&& o.banks ≠ 0)
      || decide (e.wayBase < o.wayBase + o.ways ∧ o.wayBase < e.wayBase + e.ways))

/-- PARTITION_CONFIGURE (R376, R377): slots, banks and ways, once nothing is in flight in a cluster whose ways
change. DEDUCED (log 36): a partition that would meet another one is not taken. -/
def execPartitionConfigure (m part : Nat) (cfg : PartCfg) (s : State) : Host.Outcome State Fault Refusal :=
  let old := launchPart s m part
  let e : Partition := { old with clusters := partClusters s m cfg, slots := cfg.slots % 2 ^ 15, banks := cfg.banks % 64,
                                  wayBase := cfg.wayBase, ways := cfg.ways }
  let s1 := s.modMod m fun x =>
    { x with partitions := (x.partitions.filter fun y => decide (y.1 ≠ part)) ++ [(part, e)] }
  let ks := (spanClusters m { e with clusters := (old.clusters ++ e.clusters).eraseDups }).filter fun k =>
    sharedClu s1 m k && decide ((s.cluOf k).spways ≠ sumWays s1 m k)
  if 14 < part ∨ (s.modOf m).partitions.any (fun y => decide (y.1 ≠ part) && e.clashes y.2 m) then .next s
  else if ks.any (cluFlight s) then .next (s.again (.partitionConfigure m part cfg))
  else
    let clear (t : State) (k : Nat) : State := t.modCore k fun c =>
      { c with slotmap := mapSlots part 0 c.slotmap, tbanks := fdel c.tbanks part }
    let put (t : State) (k : Nat) : State := t.modCore k fun c =>
      { c with slotmap := mapSlots part e.slots c.slotmap, tbanks := fset c.tbanks part e.banks }
    let s2 := (spanCores m e).foldl put ((spanCores m old).foldl clear s1)
    .next (ks.foldl (fun t k => convertWays t k (sumWays s1 m k)) s2)

/-! ### VF reset (R383) -/

/-- Step 2: a strand is discarded; nothing of it is left in its slot. -/
def dropStrand (s : State) (p : Place) : State :=
  let cls := (s.strand p).task.cls
  let s1 := abandonBundle (releaseGrant (quitTravel (abandon s p) p) p) p
  emptySlot (uncharge (freeUnits (freeTiles s1 p 0xFF) p) p.dieKey (classWeight cls)) p

/-- Steps 2 and 3 outside the slots: saved and travelling strands, tasks, counters, steals and groups of the VF; strands that
wait for an entry of a task store are told (R348). -/
def dropWork (s : State) (m vf : Nat) : State :=
  let other (t : QTask) : Bool := decide (t.task.tenant ≠ vf)
  let die (e : Nat × Die) : Nat × Die :=
    if dieMod e.1 ≠ m then e
    else
      let gone (n : Nat) : Bool := e.2.store.any fun t => decide (t.serial = n) && !other t
      let keep : AdmReq → Bool
        | .task n _ _ => !gone n
        | .grant _ _ _ | .remote _ _ => true
      (e.1, { blankGroups vf e.2 with
        adm := e.2.adm.filter keep
        store := e.2.store.filter other
        listed := e.2.listed.filter other
        counters := e.2.counters.filter fun c => decide (c.2.tenant ≠ vf)
        steals := e.2.steals.filter fun r => decide (r.vf ≠ vf) })
  let core (e : Nat × Core) : Nat × Core :=
    if coreMod e.1 = m then (e.1, { e.2 with saved := e.2.saved.filter fun x => decide (x.1 / 16 ≠ vf) }) else e
  let clu (e : Nat × Cluster) : Nat × Cluster :=
    if cluMod e.1 = m then (e.1, { e.2 with inbound := e.2.inbound.filter fun x => decide (x.task.tenant ≠ vf) }) else e
  entriesFree { s with dies := s.dies.map die, cores := s.cores.map core, clusters := s.clusters.map clu } m

/-- The VF gives its partition up: handovers to it end, and the next VF's turn comes (R378). -/
def leavePartition (s : State) (m vf : Nat) : State :=
  let part := (s.policy m vf).part
  let s1 := s.modMod m fun x =>
    { x with handovers := x.handovers.filter fun h => decide (h.2 ≠ vf), gangs := x.gangs.filter fun g => decide (g.vf ≠ vf) }
  let s2 := s1.modPart m part fun e =>
    { e with vf := if e.vf = some vf then none else e.vf, next := if e.next = some vf then none else e.next }
  if (runningVfs s2 m part).isEmpty then s2 else spawnOnce s2 (.timeSliceExpiry m part)

/-- Steps 2 and 3: what the VF has in slots, queues and tables goes, also what has come there since. -/
def sweepVf (s : State) (m vf : Nat) : State :=
  (s.dies.map (·.1)).foldl wakeAdmission (dropWork ((vfStrands s m vf).foldl dropStrand s) m vf)

/-- Step 1: the launch ring stops, and the VF gets no slot any more. -/
def beginReset (s : State) (m vf : Nat) : State :=
  let s1 := s.modLaunch m vf fun l => { l with lqcfg := setFld l.lqcfg 63 63 0 }
  leavePartition (s1.modMod m fun x => { x with resetting := vf :: x.resetting }) m vf

/-- Step 5: the VF's contexts become Free, and its KLE slots are cleared. -/
def dropLookups (s : State) (m vf : Nat) : State :=
  let mine := (s.clusters.filter fun e => decide (cluMod e.1 = m)).flatMap fun e =>
    (e.2.kctx.filter fun x => decide (x.2.st ≠ 0 ∧ x.2.tenant = vf)).map fun x => (e.1, x.1)
  let s1 := mine.foldl (fun t x => freeContext t x.1 x.2) s
  { s1 with clusters := s1.clusters.map fun e =>
      if cluMod e.1 = m then
        let clear (k : KSlot) : KSlot := if k.tenant = vf then { valid := false, tenant := 0, desc := 0 } else k
        (e.1, { e.2 with kslots := e.2.kslots.map clear })
      else e }

/-- Step 8: STATUS 1 in the entry of the launch in progress, without a completion word. -/
def failLaunch (s : State) (m vf : Nat) : State :=
  let qs := ((s.modOf m).launches.filter fun e => e.2.running && decide (e.2.forVf = vf)).map (·.1)
  qs.foldl (fun t q =>
    let l := t.launch m q
    (ochreWrite t m (ringTenant q) (l.entryAt l.entry + 0x20) 8 1).modLaunch m q fun x => { x with running := false, rest := [] }) s

/-- Steps 5-8, once the VF's engine operations and Pending contexts are over. -/
def endReset (s : State) (m vf : Nat) : State :=
  let s1 := (dropLookups s m vf).modMod m fun x =>
    { x with pinned := fdel x.pinned vf, pinnedPoison := fdel x.pinnedPoison vf, resetting := x.resetting.filter (· ≠ vf) }
  let s2 := s1.modPolicy m vf fun p => { p with pinways := 0, faultq := setFld p.faultq 63 63 0 }
  leavePartition (failLaunch s2 m vf) m vf

/-- VF_RESET (R383). -/
def execVfReset (m vf : Nat) (s : State) : Host.Outcome State Fault Refusal :=
  let s1 := sweepVf (if (s.modOf m).resetting.contains vf then s else beginReset s m vf) m vf
  if vfWorks s1 m vf || vfPending s1 m vf || vfSends s1 m vf then .next (s1.again (.vfReset m vf))
  else .next (endReset s1 m vf)

/-! ### Temperature (R387) -/

/-- The budget that a die had before its temperature lowered it. -/
def Die.base (d : Die) : Nat := if d.thermalBase = 0 then d.budget else d.thermalBase

/-- THERMAL_STEP (R387): 10 % of the budget set by software, down while the die is hot, and up again until that budget
is reached (log 26). -/
def execThermalStep (die : Nat) (hot : Bool) (s : State) : Host.Outcome State Fault Refusal :=
  let d := s.dieOf die
  let cut := (d.base + 9) / 10
  let n := if hot then d.budget - cut else Nat.min d.base (d.budget + cut)
  .next (setBudget (s.modDie die fun x => { x with thermalBase := if n = d.base then 0 else d.base }) die n)

/-- CRITICAL_TEMPERATURE (R387). -/
def execCriticalTemperature (m : Nat) (s : State) : Host.Outcome State Fault Refusal :=
  .next ((s.modOf m).diesUp.foldl (fun t d =>
    setBudget (t.modDie (dieKey m d) fun x => { x with thermalBase := x.base }) (dieKey m d) 0) s)

/-- SHUTDOWN_TEMPERATURE (R387): reset with a cause. -/
def execShutdownTemperature (m : Nat) (s : State) : Host.Outcome State Fault Refusal :=
  .next (bootFailures (resetModule s m 1) m)

/-! ### Failures of a package (R374, R388) -/

/-- STACK_FAILURE (R374). -/
def execStackFailure (m stack : Nat) (s : State) : Host.Outcome State Fault Refusal := .next (stackDown s m stack)

/-- A port die's four links and three stacks are lost (R388). -/
def portDieDown (s : State) (m pd : Nat) : State :=
  (stacksLost s m pd).spawns ([0, 1, 2, 3].map fun i => .linkDown m (4 * pd + i))

/-- OCHRE_CORE_FAULT (R388): the others of its port die take over while one is left. -/
def execOchreCoreFault (m pd core : Nat) (s : State) : Host.Outcome State Fault Refusal :=
  let s1 := logFailure (s.modPort m pd fun p => { p with dead := core % 4 :: p.dead.filter (· ≠ core % 4) }) m .ochre
    (4 * pd + core % 4)
  if (s1.port m pd).dead.length = 4 ∧ (s.port m pd).dead.length < 4 then .next (portDieDown s1 m pd) else .next s1

/-- PORT_DIE_FAILURE (R388). -/
def execPortDieFailure (m pd : Nat) (s : State) : Host.Outcome State Fault Refusal :=
  .next (portDieDown (logFailure (s.modPort m pd fun p => { p with failed := true, frames := [] }) m .portDie pd) m pd)

end Sys2Proof.Machine
end

