-- ==== Sys2Proof/Machine/Dispatch.lean ====
section
/-! DEFINITION. Dispatch: each constructor of Instr to its meaning. -/

namespace Sys2Proof.Machine

open Sys2Proof

def exec (i : Instr) (s : State) : Host.Outcome State Fault Refusal :=
  match i with
  | .nop => Sys2Proof.Machine.execNop s
  | .br off => Sys2Proof.Machine.execBr off s
  | .call off => Sys2Proof.Machine.execCall off s
  | .jmp a imm => Sys2Proof.Machine.execJmp a imm s
  | .callr a imm => Sys2Proof.Machine.execCallr a imm s
  | .beq a b off => Sys2Proof.Machine.execBeq a b off s
  | .bne a b off => Sys2Proof.Machine.execBne a b off s
  | .blt a b off => Sys2Proof.Machine.execBlt a b off s
  | .bge a b off => Sys2Proof.Machine.execBge a b off s
  | .bltu a b off => Sys2Proof.Machine.execBltu a b off s
  | .bgeu a b off => Sys2Proof.Machine.execBgeu a b off s
  | .jtab d a imm => Sys2Proof.Machine.execJtab d a imm s
  | .loop a imm => Sys2Proof.Machine.execLoop a imm s
  | .loopx a => Sys2Proof.Machine.execLoopx a s
  | .realign imm => Sys2Proof.Machine.execRealign imm s
  | .course d a => Sys2Proof.Machine.execCourse d a s
  | .ldb t base off hint => Sys2Proof.Machine.execLdb t base off hint s
  | .ldbu t base off hint => Sys2Proof.Machine.execLdbu t base off hint s
  | .ldh t base off hint => Sys2Proof.Machine.execLdh t base off hint s
  | .ldhu t base off hint => Sys2Proof.Machine.execLdhu t base off hint s
  | .ldw t base off hint => Sys2Proof.Machine.execLdw t base off hint s
  | .ldwu t base off hint => Sys2Proof.Machine.execLdwu t base off hint s
  | .ldd t base off hint => Sys2Proof.Machine.execLdd t base off hint s
  | .stb t base off hint => Sys2Proof.Machine.execStb t base off hint s
  | .sth t base off hint => Sys2Proof.Machine.execSth t base off hint s
  | .stw t base off hint => Sys2Proof.Machine.execStw t base off hint s
  | .std t base off hint => Sys2Proof.Machine.execStd t base off hint s
  | .ldaq t base wid off sc => Sys2Proof.Machine.execLdaq t base wid off sc s
  | .strl t base wid off sc => Sys2Proof.Machine.execStrl t base wid off sc s
  | .ldf t base off rs => Sys2Proof.Machine.execLdf t base off rs s
  | .stf t base off rs => Sys2Proof.Machine.execStf t base off rs s
  | .pref kind base off => Sys2Proof.Machine.execPref kind base off s
  | .vld t base off hint k => Sys2Proof.Machine.execVld t base off hint k s
  | .vst t base off hint k => Sys2Proof.Machine.execVst t base off hint k s
  | .vlds d a b wid k => Sys2Proof.Machine.execVlds d a b wid k s
  | .vsts d a b wid k => Sys2Proof.Machine.execVsts d a b wid k s
  | .vldf t base off ty => Sys2Proof.Machine.execVldf t base off ty s
  | .vstf t base off ty => Sys2Proof.Machine.execVstf t base off ty s
  | .vgath d a b wid k => Sys2Proof.Machine.execVgath d a b wid k s
  | .vscat d a b wid k => Sys2Proof.Machine.execVscat d a b wid k s
  | .amoadd d a b wid sc near rl aq => Sys2Proof.Machine.execAmoadd d a b wid sc near rl aq s
  | .amoand d a b wid sc near rl aq => Sys2Proof.Machine.execAmoand d a b wid sc near rl aq s
  | .amoor d a b wid sc near rl aq => Sys2Proof.Machine.execAmoor d a b wid sc near rl aq s
  | .amoxor d a b wid sc near rl aq => Sys2Proof.Machine.execAmoxor d a b wid sc near rl aq s
  | .amomin d a b wid sc near rl aq => Sys2Proof.Machine.execAmomin d a b wid sc near rl aq s
  | .amomax d a b wid sc near rl aq => Sys2Proof.Machine.execAmomax d a b wid sc near rl aq s
  | .amominu d a b wid sc near rl aq => Sys2Proof.Machine.execAmominu d a b wid sc near rl aq s
  | .amomaxu d a b wid sc near rl aq => Sys2Proof.Machine.execAmomaxu d a b wid sc near rl aq s
  | .amoswp d a b wid sc near rl aq => Sys2Proof.Machine.execAmoswp d a b wid sc near rl aq s
  | .amocas d a b wid sc near rl aq => Sys2Proof.Machine.execAmocas d a b wid sc near rl aq s
  | .amofadd d a b wid sc near rl aq => Sys2Proof.Machine.execAmofadd d a b wid sc near rl aq s
  | .amofmax d a b wid sc near rl aq => Sys2Proof.Machine.execAmofmax d a b wid sc near rl aq s
  | .fence sc => Sys2Proof.Machine.execFence sc s
  | .acq sc => Sys2Proof.Machine.execAcq sc s
  | .rel sc => Sys2Proof.Machine.execRel sc s
  | .waitw d a b wid => Sys2Proof.Machine.execWaitw d a b wid s
  | .wfe => Sys2Proof.Machine.execWfe s
  | .sev a sc all => Sys2Proof.Machine.execSev a sc all s
  | .bararr d a sc => Sys2Proof.Machine.execBararr d a sc s
  | .barwt a b sc => Sys2Proof.Machine.execBarwt a b sc s
  | .barxb a b => Sys2Proof.Machine.execBarxb a b s
  | .gsync d a sc => Sys2Proof.Machine.execGsync d a sc s
  | .scfg d a => Sys2Proof.Machine.execScfg d a s
  | .sbind d a wr => Sys2Proof.Machine.execSbind d a wr s
  | .sfree a => Sys2Proof.Machine.execSfree a s
  | .spos d a b upd => Sys2Proof.Machine.execSpos d a b upd s
  | .btset n a imm => Sys2Proof.Machine.execBtset n a imm s
  | .btgo d sc => Sys2Proof.Machine.execBtgo d sc s
  | .btpoll d a wait => Sys2Proof.Machine.execBtpoll d a wait s
  | .ixpost d a sc resume => Sys2Proof.Machine.execIxpost d a sc resume s
  | .klset d a b clr => Sys2Proof.Machine.execKlset d a b clr s
  | .klook d a b sc => Sys2Proof.Machine.execKlook d a b sc s
  | .klwait d a poll => Sys2Proof.Machine.execKlwait d a poll s
  | .klres d a sc drop => Sys2Proof.Machine.execKlres d a sc drop s
  | .ebag d a b sc => Sys2Proof.Machine.execEbag d a b sc s
  | .eupd d a b sc resume => Sys2Proof.Machine.execEupd d a b sc resume s
  | .eupdClose d a b sc => Sys2Proof.Machine.execEupdClose d a b sc s
  | .tenq d a sc => Sys2Proof.Machine.execTenq d a sc s
  | .tdeq d a b => Sys2Proof.Machine.execTdeq d a b s
  | .dcinit d a imm => Sys2Proof.Machine.execDcinit d a imm s
  | .dcdec d a b sc free => Sys2Proof.Machine.execDcdec d a b sc free s
  | .dcinc d a b => Sys2Proof.Machine.execDcinc d a b s
  | .tyield a b sc => Sys2Proof.Machine.execTyield a b sc s
  | .texit sc => Sys2Proof.Machine.execTexit sc s
  | .pwreq d a imm => Sys2Proof.Machine.execPwreq d a imm s
  | .pwrel => Sys2Proof.Machine.execPwrel s
  | .smig d a => Sys2Proof.Machine.execSmig d a s
  | .gjoin d a imm => Sys2Proof.Machine.execGjoin d a imm s
  | .gleave d a imm => Sys2Proof.Machine.execGleave d a imm s
  | .qsend q b fin => Sys2Proof.Machine.execQsend q b fin s
  | .qrecv d q b poll => Sys2Proof.Machine.execQrecv d q b poll s
  | .vsopen d a nb q entry => Sys2Proof.Machine.execVsopen d a nb q entry s
  | .vsmark q b => Sys2Proof.Machine.execVsmark q b s
  | .vsclose d entry => Sys2Proof.Machine.execVsclose d entry s
  | .mcmd d a b => Sys2Proof.Machine.execMcmd d a b s
  | .csrr d csr => Sys2Proof.Machine.execCsrr d csr s
  | .csrw a csr => Sys2Proof.Machine.execCsrw a csr s
  | .csrx d a csr => Sys2Proof.Machine.execCsrx d a csr s
  | .trap imm => Sys2Proof.Machine.execTrap imm s
  | .eret => Sys2Proof.Machine.execEret s
  | .plbinvPage a sc => Sys2Proof.Machine.execPlbinvPage a sc s
  | .plbinvDom a sc => Sys2Proof.Machine.execPlbinvDom a sc s
  | .plbinvVf sc => Sys2Proof.Machine.execPlbinvVf sc s
  | .cflushCode a b sc => Sys2Proof.Machine.execCflushCode a b sc s
  | .cflushWb a b => Sys2Proof.Machine.execCflushWb a b s
  | .cflushInv a b => Sys2Proof.Machine.execCflushInv a b s
  | .spart d a imm => Sys2Proof.Machine.execSpart d a imm s
  | .ctxsave d a => Sys2Proof.Machine.execCtxsave d a s
  | .ctxload d a => Sys2Proof.Machine.execCtxload d a s
  | .anop => Sys2Proof.Machine.execAnop s
  | .add d a b p => Sys2Proof.Machine.execAdd d a b p s
  | .sub d a b p => Sys2Proof.Machine.execSub d a b p s
  | .addi d a imm => Sys2Proof.Machine.execAddi d a imm s
  | .mul d a b => Sys2Proof.Machine.execMul d a b s
  | .mulh d a b => Sys2Proof.Machine.execMulh d a b s
  | .mulhu d a b => Sys2Proof.Machine.execMulhu d a b s
  | .div d a b => Sys2Proof.Machine.execDiv d a b s
  | .divu d a b => Sys2Proof.Machine.execDivu d a b s
  | .rem d a b => Sys2Proof.Machine.execRem d a b s
  | .remu d a b => Sys2Proof.Machine.execRemu d a b s
  | .and d a b => Sys2Proof.Machine.execAnd d a b s
  | .or d a b => Sys2Proof.Machine.execOr d a b s
  | .xor d a b => Sys2Proof.Machine.execXor d a b s
  | .andi d a imm => Sys2Proof.Machine.execAndi d a imm s
  | .ori d a imm => Sys2Proof.Machine.execOri d a imm s
  | .xori d a imm => Sys2Proof.Machine.execXori d a imm s
  | .shl d a b => Sys2Proof.Machine.execShl d a b s
  | .shr d a b => Sys2Proof.Machine.execShr d a b s
  | .sar d a b => Sys2Proof.Machine.execSar d a b s
  | .shli d a sh => Sys2Proof.Machine.execShli d a sh s
  | .shri d a sh => Sys2Proof.Machine.execShri d a sh s
  | .sari d a sh => Sys2Proof.Machine.execSari d a sh s
  | .limm d sel imm => Sys2Proof.Machine.execLimm d sel imm s
  | .slt d a b => Sys2Proof.Machine.execSlt d a b s
  | .sltu d a b => Sys2Proof.Machine.execSltu d a b s
  | .seq d a b => Sys2Proof.Machine.execSeq d a b s
  | .sel d a b => Sys2Proof.Machine.execSel d a b s
  | .clz d a => Sys2Proof.Machine.execClz d a s
  | .popc d a => Sys2Proof.Machine.execPopc d a s
  | .min d a b u => Sys2Proof.Machine.execMin d a b u s
  | .max d a b u => Sys2Proof.Machine.execMax d a b u s
  | .pfmt d a b => Sys2Proof.Machine.execPfmt d a b s
  | .pgetf d a sel => Sys2Proof.Machine.execPgetf d a sel s
  | .padde d a b => Sys2Proof.Machine.execPadde d a b s
  | .pcaddr d imm => Sys2Proof.Machine.execPcaddr d imm s
  | .fadd d a b rs ft => Sys2Proof.Machine.execFadd d a b rs ft s
  | .fsub d a b rs ft => Sys2Proof.Machine.execFsub d a b rs ft s
  | .fmul d a b rs ft => Sys2Proof.Machine.execFmul d a b rs ft s
  | .fma d a b rs ft => Sys2Proof.Machine.execFma d a b rs ft s
  | .fdiv d a b rs ft => Sys2Proof.Machine.execFdiv d a b rs ft s
  | .fsqrt d a rs ft => Sys2Proof.Machine.execFsqrt d a rs ft s
  | .fmin d a b ft => Sys2Proof.Machine.execFmin d a b ft s
  | .fmax d a b ft => Sys2Proof.Machine.execFmax d a b ft s
  | .fcmp d a b ft => Sys2Proof.Machine.execFcmp d a b ft s
  | .fcvt d a frm other rs ft => Sys2Proof.Machine.execFcvt d a frm other rs ft s
  | .fcvti d a ity rs ft => Sys2Proof.Machine.execFcvti d a ity rs ft s
  | .icvtf d a ity rs ft => Sys2Proof.Machine.execIcvtf d a ity rs ft s
  | .vadd d a b k ty rm sat => Sys2Proof.Machine.execVadd d a b k ty rm sat s
  | .vsub d a b k ty rm sat => Sys2Proof.Machine.execVsub d a b k ty rm sat s
  | .vmul d a b k ty rm => Sys2Proof.Machine.execVmul d a b k ty rm s
  | .vfma d a b k ty rm => Sys2Proof.Machine.execVfma d a b k ty rm s
  | .vmax d a b k ty => Sys2Proof.Machine.execVmax d a b k ty s
  | .vmin d a b k ty => Sys2Proof.Machine.execVmin d a b k ty s
  | .vand d a b k ty => Sys2Proof.Machine.execVand d a b k ty s
  | .vor d a b k ty => Sys2Proof.Machine.execVor d a b k ty s
  | .vxor d a b k ty => Sys2Proof.Machine.execVxor d a b k ty s
  | .vshl d a b k ty => Sys2Proof.Machine.execVshl d a b k ty s
  | .vshr d a b k ty log => Sys2Proof.Machine.execVshr d a b k ty log s
  | .vcmp c a b k ty cond => Sys2Proof.Machine.execVcmp c a b k ty cond s
  | .vsel d a b k ty => Sys2Proof.Machine.execVsel d a b k ty s
  | .vcvt d a dty k ty rm part => Sys2Proof.Machine.execVcvt d a dty k ty rm part s
  | .vredsum d a b k ty acc => Sys2Proof.Machine.execVredsum d a b k ty acc s
  | .vredmax d a k ty => Sys2Proof.Machine.execVredmax d a k ty s
  | .vexp d a k => Sys2Proof.Machine.execVexp d a k s
  | .vrcp d a k ty rm => Sys2Proof.Machine.execVrcp d a k ty rm s
  | .vsplat d a wid => Sys2Proof.Machine.execVsplat d a wid s
  | .vperm d a b k ty z => Sys2Proof.Machine.execVperm d a b k ty z s
  | .vmovg d a b wid sg => Sys2Proof.Machine.execVmovg d a b wid sg s
  | .vmovv d a b wid => Sys2Proof.Machine.execVmovv d a b wid s
  | .vtopk d a b k ty => Sys2Proof.Machine.execVtopk d a b k ty s
  | .vdot d a b k ty acc => Sys2Proof.Machine.execVdot d a b k ty acc s
  | .tshape d a => Sys2Proof.Machine.execTshape d a s
  | .tld d a b st => Sys2Proof.Machine.execTld d a b st s
  | .tst d a b st => Sys2Proof.Machine.execTst d a b st s
  | .tzero d st => Sys2Proof.Machine.execTzero d st s
  | .mma d a b df st acc => Sys2Proof.Machine.execMma d a b df st acc s
  | .mmas d a b df st acc => Sys2Proof.Machine.execMmas d a b df st acc s
  | .mmss d a b df st acc => Sys2Proof.Machine.execMmss d a b df st acc s
  | .tcvt d a st rs => Sys2Proof.Machine.execTcvt d a st rs s
  | .tadd d a b st rs => Sys2Proof.Machine.execTadd d a b st rs s
  | .tscale d a b st rs col => Sys2Proof.Machine.execTscale d a b st rs col s
  | .ttrans d a st => Sys2Proof.Machine.execTtrans d a st s
  | .mjoin mask => Sys2Proof.Machine.execMjoin mask s
  | .talloc d a => Sys2Proof.Machine.execTalloc d a s
  | .tfree a => Sys2Proof.Machine.execTfree a s
  | .tmovv d a b st => Sys2Proof.Machine.execTmovv d a b st s
  | .vmovt d a b st => Sys2Proof.Machine.execVmovt d a b st s
  | .asyncTrapEntry p => Sys2Proof.Machine.execAsyncTrapEntry p s
  | .itimerFire p => Sys2Proof.Machine.execItimerFire p s
  | .intdbWrite m vf v => Sys2Proof.Machine.execIntdbWrite m vf v s
  | .preemptNotice m vf w => Sys2Proof.Machine.execPreemptNotice m vf w s
  | .sstatWrite v => Sys2Proof.Machine.execSstatWrite v s
  | .ipendClear v => Sys2Proof.Machine.execIpendClear v s
  | .registerWrite csr v => Sys2Proof.Machine.execRegisterWrite csr v s
  | .memResponse p => Sys2Proof.Machine.execMemResponse p s
  | .courseForward p => Sys2Proof.Machine.execCourseForward p s
  | .courseTimeout clu idx => Sys2Proof.Machine.execCourseTimeout clu idx s
  | .realignTimeout p => Sys2Proof.Machine.execRealignTimeout p s
  | .streamElementFetch core unit => Sys2Proof.Machine.execStreamElementFetch core unit s
  | .streamPush core unit => Sys2Proof.Machine.execStreamPush core unit s
  | .matrixOpComplete core st => Sys2Proof.Machine.execMatrixOpComplete core st s
  | .mcmdCommand src => Sys2Proof.Machine.execMcmdCommand src s
  | .mcmdAnswer src => Sys2Proof.Machine.execMcmdAnswer src s
  | .spartConversion clu => Sys2Proof.Machine.execSpartConversion clu s
  | .waitwMonitorFire p => Sys2Proof.Machine.execWaitwMonitorFire p s
  | .sevEvent src => Sys2Proof.Machine.execSevEvent src s
  | .timeSliceExpiry m part => Sys2Proof.Machine.execTimeSliceExpiry m part s
  | .slotHandover p vf => Sys2Proof.Machine.execSlotHandover p vf s
  | .bteTransferActivate clu => Sys2Proof.Machine.execBteTransferActivate clu s
  | .bteWriteLand clu id => Sys2Proof.Machine.execBteWriteLand clu id s
  | .bteConsumerUpdate clu id => Sys2Proof.Machine.execBteConsumerUpdate clu id s
  | .ixeElementCopy clu id => Sys2Proof.Machine.execIxeElementCopy clu id s
  | .engineCompletion clu ixe id => Sys2Proof.Machine.execEngineCompletion clu ixe id s
  | .cringtailWrite clu v => Sys2Proof.Machine.execCringtailWrite clu v s
  | .engineOffline clu ixe => Sys2Proof.Machine.execEngineOffline clu ixe s
  | .autoMigration core => Sys2Proof.Machine.execAutoMigration core s
  | .migrationArrival clu => Sys2Proof.Machine.execMigrationArrival clu s
  | .migrationSlotFree clu => Sys2Proof.Machine.execMigrationSlotFree clu s
  | .kleScoring clu ctx => Sys2Proof.Machine.execKleScoring clu ctx s
  | .kleServiceRound die slice => Sys2Proof.Machine.execKleServiceRound die slice s
  | .kleRowArrival clu ctx => Sys2Proof.Machine.execKleRowArrival clu ctx s
  | .kleReadTimeout clu ctx rank => Sys2Proof.Machine.execKleReadTimeout clu ctx rank s
  | .kleLookupComplete clu ctx => Sys2Proof.Machine.execKleLookupComplete clu ctx s
  | .kleOffline clu => Sys2Proof.Machine.execKleOffline clu s
  | .eupdDirectAdd clu id => Sys2Proof.Machine.execEupdDirectAdd clu id s
  | .mergeContribution m => Sys2Proof.Machine.execMergeContribution m s
  | .mergeClose m => Sys2Proof.Machine.execMergeClose m s
  | .closeAck src => Sys2Proof.Machine.execCloseAck src s
  | .homeSliceRequest m src => Sys2Proof.Machine.execHomeSliceRequest m src s
  | .farAtomicExecute m src => Sys2Proof.Machine.execFarAtomicExecute m src s
  | .pageWalk die page => Sys2Proof.Machine.execPageWalk die page s
  | .faultack v => Sys2Proof.Machine.execFaultack v s
  | .faultackWake die => Sys2Proof.Machine.execFaultackWake die s
  | .releaseProbe m src grp => Sys2Proof.Machine.execReleaseProbe m src grp s
  | .probeEcho p grp => Sys2Proof.Machine.execProbeEcho p grp s
  | .uncorrectableError site => Sys2Proof.Machine.execUncorrectableError site s
  | .correctableError die => Sys2Proof.Machine.execCorrectableError die s
  | .dieerrlog d => Sys2Proof.Machine.execDieerrlog d s
  | .taskDispatch die clu => Sys2Proof.Machine.execTaskDispatch die clu s
  | .admissionServe die => Sys2Proof.Machine.execAdmissionServe die s
  | .taskSteal die clu vf => Sys2Proof.Machine.execTaskSteal die clu vf s
  | .stealRequest die vf => Sys2Proof.Machine.execStealRequest die vf s
  | .stealRetry die vf => Sys2Proof.Machine.execStealRetry die vf s
  | .counterUpdate die src => Sys2Proof.Machine.execCounterUpdate die src s
  | .groupUpdate die src => Sys2Proof.Machine.execGroupUpdate die src s
  | .grantExpiry p => Sys2Proof.Machine.execGrantExpiry p s
  | .budgetSet die units => Sys2Proof.Machine.execBudgetSet die units s
  | .thermalStep die hot => Sys2Proof.Machine.execThermalStep die hot s
  | .criticalTemperature m => Sys2Proof.Machine.execCriticalTemperature m s
  | .shutdownTemperature m => Sys2Proof.Machine.execShutdownTemperature m s
  | .lqdb m vf => Sys2Proof.Machine.execLqdb m vf s
  | .launchTake m vf => Sys2Proof.Machine.execLaunchTake m vf s
  | .launchEnd m vf => Sys2Proof.Machine.execLaunchEnd m vf s
  | .vfReset m vf => Sys2Proof.Machine.execVfReset m vf s
  | .vfPolicyWrite m vf f => Sys2Proof.Machine.execVfPolicyWrite m vf f s
  | .hostBarWrite m vf bar2 a v n => Sys2Proof.Machine.execHostBarWrite m vf bar2 a v n s
  | .hostPortDown m port => Sys2Proof.Machine.execHostPortDown m port s
  | .packageNumberWrite m v => Sys2Proof.Machine.execPackageNumberWrite m v s
  | .linkTraining m link peer ok => Sys2Proof.Machine.execLinkTraining m link peer ok s
  | .moduleReset m => Sys2Proof.Machine.execModuleReset m s
  | .firmwareFetchRetry m img => Sys2Proof.Machine.execFirmwareFetchRetry m img s
  | .attestationRequest m nonce => Sys2Proof.Machine.execAttestationRequest m nonce s
  | .stackFailure m stack => Sys2Proof.Machine.execStackFailure m stack s
  | .ochreCoreFault m pd core => Sys2Proof.Machine.execOchreCoreFault m pd core s
  | .flitRoute m node => Sys2Proof.Machine.execFlitRoute m node s
  | .flitEject m node => Sys2Proof.Machine.execFlitEject m node s
  | .packetDeliver m node src ch => Sys2Proof.Machine.execPacketDeliver m node src ch s
  | .deliveryCredit m src dst ch => Sys2Proof.Machine.execDeliveryCredit m src dst ch s
  | .linkFrameReceive m pd => Sys2Proof.Machine.execLinkFrameReceive m pd s
  | .linkDown m link => Sys2Proof.Machine.execLinkDown m link s
  | .pathFailed m peer => Sys2Proof.Machine.execPathFailed m peer s
  | .accessTimeout p => Sys2Proof.Machine.execAccessTimeout p s
  | .vsPacketArrive clu port => Sys2Proof.Machine.execVsPacketArrive clu port s
  | .vsCredit clu entry port => Sys2Proof.Machine.execVsCredit clu entry port s
  | .gangQuery m vf => Sys2Proof.Machine.execGangQuery m vf s
  | .gangPause m vf => Sys2Proof.Machine.execGangPause m vf s
  | .gangDrainComplete m vf => Sys2Proof.Machine.execGangDrainComplete m vf s
  | .gangStopTimeout m vf => Sys2Proof.Machine.execGangStopTimeout m vf s
  | .gangResume m vf => Sys2Proof.Machine.execGangResume m vf s
  | .migrationCommandTake m => Sys2Proof.Machine.execMigrationCommandTake m s
  | .move m idx => Sys2Proof.Machine.execMove m idx s
  | .dup m idx => Sys2Proof.Machine.execDup m idx s
  | .collapse m idx => Sys2Proof.Machine.execCollapse m idx s
  | .reclaim m idx => Sys2Proof.Machine.execReclaim m idx s
  | .migrationCutover m idx => Sys2Proof.Machine.execMigrationCutover m idx s
  | .migrationCommandComplete m idx => Sys2Proof.Machine.execMigrationCommandComplete m idx s
  | .stubRelay m src => Sys2Proof.Machine.execStubRelay m src s
  | .relayAck m page part => Sys2Proof.Machine.execRelayAck m page part s
  | .walkReturn die src => Sys2Proof.Machine.execWalkReturn die src s
  | .redirect die page part => Sys2Proof.Machine.execRedirect die page part s
  | .stubQuietExpiry m page part => Sys2Proof.Machine.execStubQuietExpiry m page part s
  | .purge m frm page part => Sys2Proof.Machine.execPurge m frm page part s
  | .purgeAck m frm page part => Sys2Proof.Machine.execPurgeAck m frm page part s
  | .collapseInvalidate m idx holder => Sys2Proof.Machine.execCollapseInvalidate m idx holder s
  | .collapseAck m idx holder => Sys2Proof.Machine.execCollapseAck m idx holder s
  | .illegalInstr op => Sys2Proof.Machine.execIllegalInstr op s
  | .reservedField sub => Sys2Proof.Machine.execReservedField sub s
  | .faultQueueTailAdvance m vf n => Sys2Proof.Machine.execFaultQueueTailAdvance m vf n s
  | .keyLoad m pd kid next key => Sys2Proof.Machine.execKeyLoad m pd kid next key s
  | .hostPortUp m port => Sys2Proof.Machine.execHostPortUp m port s
  | .portDieFailure m pd => Sys2Proof.Machine.execPortDieFailure m pd s
  | .engineRestore clu eng => Sys2Proof.Machine.execEngineRestore clu eng s
  | .partitionConfigure m part cfg => Sys2Proof.Machine.execPartitionConfigure m part cfg s
  | .errorCounterClear die => Sys2Proof.Machine.execErrorCounterClear die s

end Sys2Proof.Machine
end

