-- ==== Sys2Proof/Machine/Cycle.lean ====
section
/-! DEFINITION. The cycle: what a new one makes due, and which core's issue position comes next (R91, R96, R176,
R389, R441, log 1, log 2). -/

namespace Sys2Proof.Machine

open Sys2Proof

/-- What a new cycle makes due for a strand: its timer fires (R96), its grant expires (R364), its access has
waited for 2^20 cycles (R399). -/
def timedEvents (s : State) (e : Nat × Strand) : List Event :=
  let x := e.2
  let p := Place.ofKey e.1
  let t := s.now p.mod
  (if timerDue t x then [Event.itimerFire p] else [])
    ++ (if tokenV x.csr.pwtoken && !tokenValid t x.csr.pwtoken then [Event.grantExpiry p] else [])
    ++ (if (x.parkedOn .mem || x.parkedOn .fence) && x.askedAt.any (fun e => decide (e.2 + 2 ^ 20 = s.ticks)) then
          [Event.accessTimeout p] else [])

/-- A step whose time the manual fixes is due in this cycle (R441): a forwarded bundle arrives, a timeout has
passed, a slot's position has come, a turn is over. -/
def dueNow (s : State) : Event → Bool
  | .courseForward p =>
    match (s.strand p).fwd.find? fun f => !f.here with
    | none => false
    | some f => decide (f.arrive ≤ s.ticks)
  | .courseTimeout clu idx =>
    match (s.cluOf clu).rdvs[idx]? with
    | none => false
    | some r => !r.closed && decide (r.start + r.limit ≤ s.ticks)
  | .realignTimeout p =>
    let x := s.strand p
    x.parkedOn .realign && decide (x.asked.headD 0 / 8 ≤ s.ticks)
  | .gangStopTimeout m vf =>
    match gangOf s m vf with
    | none => false
    | some g => decide (g.step = 2 ∧ g.paused + gangLimit s m vf ≤ s.ticks)
  | .stubQuietExpiry m page part =>
    match stubOf s m page part with
    | none => false
    | some t => t.purging.isNone && decide (t.since + t.quiet * 1024 ≤ s.ticks)
  | .kleReadTimeout clu ctx rank =>
    (kctx (s.cluOf clu) ctx).reads.any fun r => decide (r.rank = rank ∧ r.issued + 16384 ≤ s.ticks)
  | .slotHandover p _ => decide (s.now p.mod % 16 = p.slot)
  | .timeSliceExpiry m part =>
    match partitionOf s m part with
    | none => false
    | some e => e.next.isNone && !turnLasts s m part e
  | _ => false

/-- The router steps of a cycle (R389): one for each router that flits have reached, and one for each flit at an ejection
unit, since a node and a port die take theirs in the same cycle. -/
def flitsDue (s : State) : List Event :=
  let here := s.flits.filter fun f => decide (f.ready ≤ s.ticks)
  let (out, way) := here.partition fun f => decide (f.stage = .eject)
  out.map (fun f => Event.flitEject f.mod f.node) ++ (way.map fun f => Event.flitRoute f.mod f.node).eraseDups

/-- A strand whose scratchpad access is served in this cycle goes on (R242). -/
def bankServed (now : Nat) (x : Strand) : Strand :=
  match x.banked with
  | some t => if t = now then x.wakeIf [.mem] else x
  | none => x

/-- A new cycle begins (R91): what it makes due stands before everything else, Keystone's choices last (R367, R370). -/
def tick (s : State) : State :=
  let t := openLists { s with ticks := s.ticks + 1 }
  { t with
    strands := t.strands.map fun e => (e.1, bankServed t.ticks e.2)
    agenda := t.agenda.filter fun e => !dueNow t e
    urgent := t.urgent ++ t.agenda.filter (dueNow t) ++ flitsDue t ++ t.strands.flatMap (timedEvents t)
      ++ t.dies.flatMap (keystoneDue t) }

/-- One of the cores whose position of this cycle is still to come; which one is open (R9, log 2). -/
def pickTurn (s : State) : State :=
  let c := s.choice s.left.length
  { c.2 with turn := nth 0 s.left c.1, left := s.left.eraseIdx c.1 }

/-- The next core; a new cycle begins after the last one (R91, log 2). -/
def nextTurn (s : State) : State :=
  match s.left with
  | [] =>
    match s.cores.map (·.1) with
    | [] => { tick s with turn := 0 }
    | ks => pickTurn { tick s with left := ks }
  | _ :: _ => pickTurn s

end Sys2Proof.Machine
end

