-- ==== Sys2Proof/Machine/Bundle.lean ====
section
/-! DEFINITION. Issuing a bundle: the order of the checks, lone words and pairs, the bundle's effect on
a course and on a loop buffer (R66-R70, R80, R89, R93-R95, R181-R189). -/

namespace Sys2Proof.Machine

open Sys2Proof

/-- The outcome of a step. -/
abbrev Out : Type := Host.Outcome State Fault Refusal

/-- A bundle begins at the program counter of a slot. -/
def beginBundle (s : State) (p : Place) : State :=
  let s1 := markIssued { s with cur := p } p
  let x := s1.strand p
  { s1 with issue :=
      { addr := pcOf x, next := pcOf x, half := .lone, pre := none, preTsh := [],
        preUnits := [], lev := x.loops.length, noEnd := false, taken := [], eats := none, took := false, ev := 0,
        ended := none, bank := false } }

/-- The word that executes: which half it is and where the bundle goes on. -/
def withWord (s : State) (h : Half) (next : Nat) : State :=
  { s with issue := { s.issue with half := h, next := next, ended := none } }

/-- The A half of a pair: it reads the strand as it was when the bundle began (R69). -/
def withSecond (s s0 : State) : State :=
  { s with issue :=
      { s.issue with half := .a, pre := some s0.me, preTsh := s0.core.tiles.map (·.tsh), preUnits := s0.core.units,
                     ended := none } }

/-- The bundle that began at `s0` raises the cause that a half ended with at `t` (R69, R206). -/
def trapFrom (s0 t : State) (c : Cause) (a i : Nat) : State :=
  trapBundle { s0 with issue := { s0.issue with eats := t.issue.eats } } c a i

/-- Conclude a bundle that ended before its words were decoded. -/
def conclude (s : State) (r : Res) : Out :=
  match r with
  | .done t => .next (retire t)
  | .trap c a i => .next (trapBundle s c a i)
  | .park k sent t => .next (parkBundle t k sent)
  | .gone t => .next (markGone t)

/-- The A half alone, of a pair that began at `s0`, where the C half has read the elements `taken` first (R69). -/
def aloneSecond (s0 : State) (taken : List Nat) : State :=
  let t := withSecond s0 s0
  { t with issue := { t.issue with taken := taken } }

/-- Conclude the A half of a pair, whose bundle began at `s0` and whose C half has read the elements `taken` (R69): a trap
or a wait of one half leaves nothing of either, but for what a wait has asked of others. -/
def concludeSecond (s0 : State) (taken : List Nat) (i : Instr) (o : Out) : Out :=
  match o with
  | .next t =>
    match t.issue.ended with
    | some (.trap c a e) => .next (trapFrom s0 t c a e)
    | some (.park r sent) =>
      match exec i (aloneSecond s0 taken) with
      | .next u =>
        match u.issue.ended with
        | some (.park r' sent') => .next (parkBundle u r' sent')
        | _ => .next (parkBundle s0 r sent)
      | o' => o'
    | some .gone => .next t
    | _ => .next (retire t)
  | o' => o'

/-- The C half waits for another agent that it has already asked: its partner is looked at first, since a
bundle that traps, or waits for itself, has asked nothing (R69, R94). -/
def concludeSent (s0 t : State) (i : Instr) (r : ParkReason) : Out :=
  match exec i (aloneSecond s0 t.issue.taken) with
  | .next u =>
    match u.issue.ended with
    | some (.trap c a e) => .next (trapFrom s0 u c a e)
    | some (.park r' sent') => .next (parkBundle u r' sent')
    | _ => .next (parkBundle t r true)
  | o => o

/-- The instructions by which a strand leaves its slot for good, or for another core. -/
def leaves : Instr → Bool
  | .smig _ _ | .texit _ | .tyield _ _ _ => true
  | _ => false

/-- The C half takes the strand away once its bundle completes: the A half has its effect first, and the C
half still reads what the strand held when the bundle began (R69). Where the C half then waits, as TEXIT does for what
the A half has begun (R363), the bundle goes on with its C half alone. -/
def leavePair (s0 : State) (c a : Instr) : Out :=
  match exec a (withSecond s0 s0) with
  | .next u =>
    match u.issue.ended with
    | some (.trap k e i) => .next (trapFrom s0 u k e i)
    | some (.park r sent) => .next (parkBundle u r sent)
    | _ =>
      match exec c (withWord u .c (addrAdd s0.issue.addr 8)) with
      | .next t =>
        match t.issue.ended with
        | some .gone => .next t
        | some (.trap k e i) => .next (trapFrom s0 t k e i)
        | some (.park r sent) => .next (parkBundle (t.modMe fun x => { x with begun := some s0.me.g }) r sent)
        | _ => .next (retire t)
      | o => o
  | o => o

/-- The rest of a pair whose A half has had its effect: its C half, which reads the registers `g` (R69, R363). -/
def leaveRest (s0 : State) (g : Vector Word 32) (c : Instr) : Out :=
  let s1 := withWord s0 .c (addrAdd s0.issue.addr 8)
  match exec c { s1 with issue := { s1.issue with pre := some { s0.me with g := g } } } with
  | .next t =>
    match t.issue.ended with
    | some .gone => .next t
    | some (.trap k e i) => .next (trapBundle s0 k e i)
    | some (.park r sent) => .next (parkBundle t r sent)
    | _ => .next (retire t)
  | o => o

/-- Run the two halves of a pair (R67, R69): the C half first, the A half on what it leaves. -/
def runPair (s0 : State) (c a : Instr) : Out :=
  match s0.me.begun with
  | some g => leaveRest s0 g c
  | none =>
  match exec c (withWord s0 .c (addrAdd s0.issue.addr 8)) with
  | .next t =>
    match t.issue.ended with
    | some (.trap k e i) => .next (trapBundle s0 k e i)
    | some (.park r sent) => if sent then concludeSent s0 t a r else .next (parkBundle t r false)
    | some .gone => if leaves c then leavePair s0 c a else .next t
    | _ => concludeSecond s0 t.issue.taken a (exec a (withSecond t s0))
  | o => o

/-- The bundle closes the open packet of a strand (R89, R412): a QSEND to it with the end bit set, or its eighth. -/
def closesPacket (x : Strand) (w : Nat) : Bool :=
  match decodeWord (bits w 31 31 == 1) w with
  | .ok (.qsend q _ fin) => decide (q.val = fld x.csr.openpkt 7 6) && (fin || decide (7 ≤ x.pkt.length))
  | _ => false

/-- A bundle issued when 16 have completed since the packet opened raises PACKET_OPEN unless it closes the
packet (R89). The checks of R80 steps 2-6 come first (R94): its words have decoded, and a lack of privilege still
counts. -/
def packetGuard (s0 : State) (w0 : Nat) (o : Out) : Out :=
  let k := s0.me.csr.openpkt
  if bitAt k.toNat 5 && decide (fld k 4 0 = 16) && !closesPacket s0.me w0 then
    match o with
    | .next t =>
      match t.issue.ended with
      | some (.trap .priv _ _) => .next t
      | _ => .next (trapBundle s0 .packetOpen 0 (fld k 7 6))
    | o' => o'
  else o

/-- The checks of a pair's two words in the order of R80 steps 3-5, then the pair. -/
def issuePair (s0 : State) (w0 w1 : Nat) : Out :=
  let sc := withWord s0 .c (addrAdd s0.issue.addr 8)
  let sa := withSecond sc s0
  let fail (o : Out) : Out :=
    match o with
    | .next t =>
      match t.issue.ended with
      | some (.trap c a i) => .next (trapBundle s0 c a i)
      | _ => .next t
    | o' => o'
  match decodeWord false w0, decodeWord false w1 with
  | .error (.unassigned op), _ => fail (execIllegalInstr op sc)
  | _, .error (.unassigned op) => fail (execIllegalInstr op sa)
  | .error (.reserved sub), _ => fail (execReservedField sub sc)
  | _, .error (.reserved sub) => fail (execReservedField sub sa)
  | .ok c, .ok a =>
    if sameDest c a then
      .next (trapBundle s0 .illegalBundle (addrAdd s0.issue.addr 4) (256 + 5))
    else packetGuard s0 w0 (runPair s0 c a)

/-- Run a lone word (R66, R80). -/
def issueLone (s0 : State) (w : Nat) : Out :=
  let s1 := withWord s0 .lone (addrAdd s0.issue.addr 4)
  match decodeWord true w with
  | .ok i => packetGuard s0 w (exec i s1)
  | .error (.unassigned op) => execIllegalInstr op s1
  | .error (.reserved sub) => execReservedField sub s1

/-- Frame and run the words at the program counter (R68, R80). -/
def runWords (s0 : State) (w0 w1 : Nat) : Out :=
  match frame s0.issue.addr w0 w1 with
  | .bad sub half =>
    .next (trapBundle s0 .illegalBundle (addrAdd s0.issue.addr (4 * half)) (256 * half + sub))
  | .lone w => issueLone s0 w
  | .pair c a => issuePair s0 c a

/-! ### What a completed bundle does beside its words -/

/-- Whether the bundle in the pipeline has completed. -/
def completed (s : State) : Bool :=
  match s.issue.ended with
  | some .done => true
  | _ => false

/-- The outcome of the bundle in the pipeline (R181). -/
def flowOf (t : State) : Flow :=
  let next := match t.issue.ended with
    | some .done => pcOf t.me
    | _ => t.issue.next
  { took := t.issue.took, target := t.issue.next, ev := t.issue.ev, next := next }

/-- The bundle is a COURSE: each member executes its own, so that none is forwarded (R185, R187). -/
def isCourse (w : Nat) : Bool :=
  match decodeWord (bits w 31 31 == 1) w with
  | .ok (.course _ _) => true
  | _ => false

/-- Forward a completed bundle of a leader to its attached followers (R181). -/
def forwardBundle (s0 t : State) (w0 w1 : Nat) : State :=
  match courseOf s0 s0.cur with
  | none => t
  | some c =>
    if c.leader ≠ s0.cur.core || isCourse w0 then t
    else
      let send (u : State) (m : Nat) : State :=
        let q := memberPlace s0.cur m
        let f : Fwd := { addr := s0.issue.addr, w0 := w0, w1 := w1,
                         arrive := s0.ticks + (m + 16 - c.leader) % 16, here := false, flow := flowOf t }
        (u.modStrand q fun x => { x with fwd := x.fwd ++ [f] }).spawn (.courseForward q)
      (c.attached.filter fun m => decide (m ≠ s0.cur.core)).foldl send t

/-- A follower that ends a forwarded bundle compares its outcome with the leader's, and detaches where they
differ (R182). -/
def followBundle (t : State) (f : Fwd) : State :=
  if completed t then
    let t1 := t.modMe fun x => { x with fwd := x.fwd.drop 1 }
    if isFollower t1 t1.cur && decide (flowOf t1 ≠ f.flow) then leaveCourse t1 t1.cur true else t1
  else t

/-- Add a bundle to a loop buffer (R188): one that it holds is not refreshed. -/
def LoopBuf.add (b : LoopBuf) (a w0 w1 : Nat) : LoopBuf :=
  if (b.words a).isSome then b else { b with body := b.body ++ [(a, w0, w1)] }

/-- A level's pass has ended and its next one begins, by the bundle that took `l` to one of the levels `ls` (R189). -/
def passEnds (l : LoopLevel) (ls : List LoopLevel) : Bool :=
  ls.any fun m => decide (m.b = l.b ∧ m.e = l.e ∧ m.remain + 1 = l.remain)

/-- Capture of a completed bundle in the loop buffer `i` of a level, if it stands in its body; the end of the first pass
(R188). DEDUCED (log 54): a bundle that the first pass skips is captured when it first executes. A body that turns out
longer than 64 bundles gives the buffer back. -/
def captureIn (s0 : State) (w0 w1 : Nat) (t : State) (l : LoopLevel) (i : Nat) : State :=
  let k := t.cur.coreKey
  match nth none t.core.lbufs i with
  | none => t
  | some b =>
    let inside := decide (l.b ≤ s0.issue.addr ∧ s0.issue.addr < l.e)
    let b1 := if inside then b.add s0.issue.addr w0 w1 else b
    if b1.body.length ≤ 64 then
      let b2 := if passEnds l t.me.loops then { b1 with later := true } else b1
      t.modCore k fun c => { c with lbufs := setNth c.lbufs i (some b2) }
    else
      let t1 := t.modCore k fun c => { c with lbufs := setNth c.lbufs i none }
      t1.modMe fun x =>
        { x with loops := x.loops.map fun m => if m.buf = some i then { m with buf := none } else m }

/-- A restored level captures again from its next pass on, if a buffer is free (R196). -/
def recapture (l : LoopLevel) (t : State) : State :=
  let mine (m : LoopLevel) : Bool := m.recap && decide (m.b = l.b ∧ m.e = l.e)
  match grantBuf t l.b l.e with
  | none => t.modMe fun x => { x with loops := x.loops.map fun m => if mine m then { m with recap := false } else m }
  | some i =>
    let nb : LoopBuf := { slot := t.cur.slot, b := l.b, e := l.e, later := false, body := [] }
    let t1 := t.modMyCore fun c => { c with lbufs := setNth c.lbufs i (some nb) }
    t1.modMe fun x =>
      { x with loops := x.loops.map fun m => if mine m then { m with buf := some i, recap := false } else m }

/-- Capture of a completed bundle in the loop buffers of the levels that were active when it began, the inner's and
the outer's (R188, R196). -/
def captureBundle (s0 t : State) (w0 w1 : Nat) : State :=
  let one (u : State) (l : LoopLevel) : State :=
    match l.buf with
    | some i => captureIn s0 w0 w1 u l i
    | none => if l.recap && passEnds l u.me.loops then recapture l u else u
  s0.me.loops.foldl one t

/-- The forwarded bundle that stands at the program counter of a strand, if one does (R181). -/
def forwardedNow (x : Strand) : Option Fwd :=
  match x.fwd with
  | f :: _ => if f.here && decide (f.addr = pcOf x) then some f else none
  | [] => none

/-- The effects of a bundle beside its words. -/
def afterBundle (s0 : State) (w0 w1 : Nat) (o : Out) : Out :=
  match o with
  | .next t =>
    match forwardedNow s0.me with
    | some f => .next (followBundle t f)
    | none =>
      match t.issue.ended with
      | some .done => .next (captureBundle s0 (forwardBundle s0 t w0 w1) w0 w1)
      | some .gone => .next (forwardBundle s0 t w0 w1)
      | _ => .next t
  | o' => o'

/-- Run the bundle at the program counter of a slot: one whose access the pager denied raises PROT (R319). -/
def runBundle (s : State) (p : Place) : Out :=
  let s0 := beginBundle s p
  match s0.me.denied, s0.me.absAt with
  | true, some (a, k) => .next (trapBundle s0 .prot a k.code)
  | _, _ =>
    match forwardedNow s0.me with
    | some f => afterBundle s0 f.w0 f.w1 (runWords s0 f.w0 f.w1)
    | none =>
      match fetchWords s0.issue.addr s0 with
      | .error r => conclude s0 r
      | .ok ((w0, w1), s1) => afterBundle s1 w0 w1 (runWords s1 w0 w1)

/-- A bundle meets a pending asynchronous cause at its end (R95): a trap of its own waits until it reissues, and a
strand that parks is woken where its bundle is abandoned. -/
def meetAsync (s : State) (p : Place) (o : Out) : Out :=
  match o with
  | .next t =>
    match t.issue.ended with
    | some (.trap _ _ _) =>
      .next (if (asyncCause (s.strand p)).isSome then asyncEnter (beginBundle s p) p else t)
    | some (.park _ _) => .next (asyncDue t p)
    | _ => .next t
  | o' => o'

/-- Issue the bundle at the program counter of a slot. -/
def issueBundle (s : State) (p : Place) : Out :=
  let x := s.strand p
  if (asyncCause x).isSome && !bundleBegun x then .next (asyncTrap s p) else meetAsync s p (runBundle s p)

/-- An automatic move out of a core may be due (R262). -/
def offerMove (s : State) (core : Nat) : State :=
  if moveDue s core then spawnOnce s (.autoMigration core) else s

/-- The rest of the cycle of the core at `turn`: its array's cycle (R209), bindings that wait for a unit (R196),
then the next core. -/
def endTurn (s : State) : State := nextTurn (rebindTurn (offerMove (matrixCycle s s.turn) s.turn) s.turn)

/-- A lower core of the cluster of the core at `turn` whose issue position of this cycle is still to come. -/
def lowerLeft (s : State) : Option Nat := s.left.find? fun c => decide (coreClu c = coreClu s.turn ∧ c < s.turn)

/-- Another core's issue position comes first in this cycle. -/
def yieldTo (s : State) (c : Nat) : State := { s with turn := c, left := s.left.erase c ++ [s.turn] }

/-- The issue position of the core at `turn` (R176). Requests of one cycle reach a scratchpad bank in the order of the
cores (R242): a bundle that makes one comes after the lower cores of its cluster. -/
def issueTurn (s : State) : Out :=
  match pickSlot s s.turn with
  | none => .next (endTurn s)
  | some i =>
    match issueBundle s (placeOf s.turn i) with
    | .next t =>
      match lowerLeft s with
      | some c => if t.issue.bank then .next (yieldTo s c) else .next (endTurn t)
      | none => .next (endTurn t)
    | o => o

/-- The 8 bytes at the program counter that make a word the next instruction: a lone word alone, a C word
with ANOP after it, an A word with NOP before it (R66, R67, R144, R107). -/
def fetchImage (nbits w : Nat) : Nat :=
  let x := w % 2 ^ Nat.min nbits 32
  if bitAt x 31 then x
  else if bitAt x 30 then x * 2 ^ 32
  else x + 0x40000000 * 2 ^ 32

/-- Put a word where the next step fetches: the fetch block of slot 0 of core 0, whose partition 0 owns the
slot and the present issue position (R176, R179). -/
def placeWord (s : State) (nbits w : Nat) : State :=
  let p := Place.first
  let s0 := leaveCourse s p false
  let x := s0.strand p
  let a := pcOf x / 64 * 64
  let s1 := s0.setStrand p
    { x with st := .ready, pc := word a, fblk := some (a / 64, fetchImage nbits w), issued := none,
             fwd := [], notice := none, loops := [] }
  let s2 := s1.modCore 0 fun c =>
    { c with slotmap := setFld c.slotmap 3 0 0, lastSlot := fset c.lastSlot 0 14 }
  let e := (s2.modOf 0).epoch
  { s2 with turn := 0, agenda := [], urgent := [], ticks := e + s2.now 0 / 16 * 16 }

end Sys2Proof.Machine
end

