-- ==== Sys2Proof/Machine/Events.lean ====
section
/-! DEFINITION. A step that is due, run by the same meaning that Dispatch gives its constructor. -/

namespace Sys2Proof.Machine

open Sys2Proof

/-- Run a step that is due. -/
def runEvent (e : Event) (s : State) : Host.Outcome State Fault Refusal :=
  match e with
  | .asyncTrapEntry p => Sys2Proof.Machine.execAsyncTrapEntry p s
  | .itimerFire p => Sys2Proof.Machine.execItimerFire p s
  | .intdbWrite m vf v => Sys2Proof.Machine.execIntdbWrite m vf v s
  | .preemptNotice m vf w => Sys2Proof.Machine.execPreemptNotice m vf w s
  | .sstatWrite v => Sys2Proof.Machine.execSstatWrite v s
  | .ipendClear v => Sys2Proof.Machine.execIpendClear v s
  | .registerWrite csr v => Sys2Proof.Machine.execRegisterWrite csr v s
  | .memResponse p => Sys2Proof.Machine.execMemResponse p s
  | .courseForward p => Sys2Proof.Machine.execCourseForward p s
  | .courseTimeout clu idx => Sys2Proof.Machine.execCourseTimeout clu idx s
  | .realignTimeout p => Sys2Proof.Machine.execRealignTimeout p s
  | .streamElementFetch core unit => Sys2Proof.Machine.execStreamElementFetch core unit s
  | .streamPush core unit => Sys2Proof.Machine.execStreamPush core unit s
  | .matrixOpComplete core st => Sys2Proof.Machine.execMatrixOpComplete core st s
  | .mcmdCommand src => Sys2Proof.Machine.execMcmdCommand src s
  | .mcmdAnswer src => Sys2Proof.Machine.execMcmdAnswer src s
  | .spartConversion clu => Sys2Proof.Machine.execSpartConversion clu s
  | .waitwMonitorFire p => Sys2Proof.Machine.execWaitwMonitorFire p s
  | .sevEvent src => Sys2Proof.Machine.execSevEvent src s
  | .timeSliceExpiry m part => Sys2Proof.Machine.execTimeSliceExpiry m part s
  | .slotHandover p vf => Sys2Proof.Machine.execSlotHandover p vf s
  | .bteTransferActivate clu => Sys2Proof.Machine.execBteTransferActivate clu s
  | .bteWriteLand clu id => Sys2Proof.Machine.execBteWriteLand clu id s
  | .bteConsumerUpdate clu id => Sys2Proof.Machine.execBteConsumerUpdate clu id s
  | .ixeElementCopy clu id => Sys2Proof.Machine.execIxeElementCopy clu id s
  | .engineCompletion clu ixe id => Sys2Proof.Machine.execEngineCompletion clu ixe id s
  | .cringtailWrite clu v => Sys2Proof.Machine.execCringtailWrite clu v s
  | .engineOffline clu ixe => Sys2Proof.Machine.execEngineOffline clu ixe s
  | .autoMigration core => Sys2Proof.Machine.execAutoMigration core s
  | .migrationArrival clu => Sys2Proof.Machine.execMigrationArrival clu s
  | .migrationSlotFree clu => Sys2Proof.Machine.execMigrationSlotFree clu s
  | .kleScoring clu ctx => Sys2Proof.Machine.execKleScoring clu ctx s
  | .kleServiceRound die slice => Sys2Proof.Machine.execKleServiceRound die slice s
  | .kleRowArrival clu ctx => Sys2Proof.Machine.execKleRowArrival clu ctx s
  | .kleReadTimeout clu ctx rank => Sys2Proof.Machine.execKleReadTimeout clu ctx rank s
  | .kleLookupComplete clu ctx => Sys2Proof.Machine.execKleLookupComplete clu ctx s
  | .kleOffline clu => Sys2Proof.Machine.execKleOffline clu s
  | .eupdDirectAdd clu id => Sys2Proof.Machine.execEupdDirectAdd clu id s
  | .mergeContribution m => Sys2Proof.Machine.execMergeContribution m s
  | .mergeClose m => Sys2Proof.Machine.execMergeClose m s
  | .closeAck src => Sys2Proof.Machine.execCloseAck src s
  | .homeSliceRequest m src => Sys2Proof.Machine.execHomeSliceRequest m src s
  | .farAtomicExecute m src => Sys2Proof.Machine.execFarAtomicExecute m src s
  | .pageWalk die page => Sys2Proof.Machine.execPageWalk die page s
  | .faultack v => Sys2Proof.Machine.execFaultack v s
  | .faultackWake die => Sys2Proof.Machine.execFaultackWake die s
  | .releaseProbe m src grp => Sys2Proof.Machine.execReleaseProbe m src grp s
  | .probeEcho p grp => Sys2Proof.Machine.execProbeEcho p grp s
  | .uncorrectableError site => Sys2Proof.Machine.execUncorrectableError site s
  | .correctableError die => Sys2Proof.Machine.execCorrectableError die s
  | .dieerrlog d => Sys2Proof.Machine.execDieerrlog d s
  | .taskDispatch die clu => Sys2Proof.Machine.execTaskDispatch die clu s
  | .admissionServe die => Sys2Proof.Machine.execAdmissionServe die s
  | .taskSteal die clu vf => Sys2Proof.Machine.execTaskSteal die clu vf s
  | .stealRequest die vf => Sys2Proof.Machine.execStealRequest die vf s
  | .stealRetry die vf => Sys2Proof.Machine.execStealRetry die vf s
  | .counterUpdate die src => Sys2Proof.Machine.execCounterUpdate die src s
  | .groupUpdate die src => Sys2Proof.Machine.execGroupUpdate die src s
  | .grantExpiry p => Sys2Proof.Machine.execGrantExpiry p s
  | .budgetSet die units => Sys2Proof.Machine.execBudgetSet die units s
  | .thermalStep die hot => Sys2Proof.Machine.execThermalStep die hot s
  | .criticalTemperature m => Sys2Proof.Machine.execCriticalTemperature m s
  | .shutdownTemperature m => Sys2Proof.Machine.execShutdownTemperature m s
  | .lqdb m vf => Sys2Proof.Machine.execLqdb m vf s
  | .launchTake m vf => Sys2Proof.Machine.execLaunchTake m vf s
  | .launchEnd m vf => Sys2Proof.Machine.execLaunchEnd m vf s
  | .vfReset m vf => Sys2Proof.Machine.execVfReset m vf s
  | .vfPolicyWrite m vf f => Sys2Proof.Machine.execVfPolicyWrite m vf f s
  | .hostBarWrite m vf bar2 a v n => Sys2Proof.Machine.execHostBarWrite m vf bar2 a v n s
  | .hostPortDown m port => Sys2Proof.Machine.execHostPortDown m port s
  | .packageNumberWrite m v => Sys2Proof.Machine.execPackageNumberWrite m v s
  | .linkTraining m link peer ok => Sys2Proof.Machine.execLinkTraining m link peer ok s
  | .moduleReset m => Sys2Proof.Machine.execModuleReset m s
  | .firmwareFetchRetry m img => Sys2Proof.Machine.execFirmwareFetchRetry m img s
  | .attestationRequest m nonce => Sys2Proof.Machine.execAttestationRequest m nonce s
  | .stackFailure m stack => Sys2Proof.Machine.execStackFailure m stack s
  | .ochreCoreFault m pd core => Sys2Proof.Machine.execOchreCoreFault m pd core s
  | .flitRoute m node => Sys2Proof.Machine.execFlitRoute m node s
  | .flitEject m node => Sys2Proof.Machine.execFlitEject m node s
  | .packetDeliver m node src ch => Sys2Proof.Machine.execPacketDeliver m node src ch s
  | .deliveryCredit m src dst ch => Sys2Proof.Machine.execDeliveryCredit m src dst ch s
  | .linkFrameReceive m pd => Sys2Proof.Machine.execLinkFrameReceive m pd s
  | .linkDown m link => Sys2Proof.Machine.execLinkDown m link s
  | .pathFailed m peer => Sys2Proof.Machine.execPathFailed m peer s
  | .accessTimeout p => Sys2Proof.Machine.execAccessTimeout p s
  | .vsPacketArrive clu port => Sys2Proof.Machine.execVsPacketArrive clu port s
  | .vsCredit clu entry port => Sys2Proof.Machine.execVsCredit clu entry port s
  | .gangQuery m vf => Sys2Proof.Machine.execGangQuery m vf s
  | .gangPause m vf => Sys2Proof.Machine.execGangPause m vf s
  | .gangDrainComplete m vf => Sys2Proof.Machine.execGangDrainComplete m vf s
  | .gangStopTimeout m vf => Sys2Proof.Machine.execGangStopTimeout m vf s
  | .gangResume m vf => Sys2Proof.Machine.execGangResume m vf s
  | .migrationCommandTake m => Sys2Proof.Machine.execMigrationCommandTake m s
  | .move m idx => Sys2Proof.Machine.execMove m idx s
  | .dup m idx => Sys2Proof.Machine.execDup m idx s
  | .collapse m idx => Sys2Proof.Machine.execCollapse m idx s
  | .reclaim m idx => Sys2Proof.Machine.execReclaim m idx s
  | .migrationCutover m idx => Sys2Proof.Machine.execMigrationCutover m idx s
  | .migrationCommandComplete m idx => Sys2Proof.Machine.execMigrationCommandComplete m idx s
  | .stubRelay m src => Sys2Proof.Machine.execStubRelay m src s
  | .relayAck m page part => Sys2Proof.Machine.execRelayAck m page part s
  | .walkReturn die src => Sys2Proof.Machine.execWalkReturn die src s
  | .redirect die page part => Sys2Proof.Machine.execRedirect die page part s
  | .stubQuietExpiry m page part => Sys2Proof.Machine.execStubQuietExpiry m page part s
  | .purge m frm page part => Sys2Proof.Machine.execPurge m frm page part s
  | .purgeAck m frm page part => Sys2Proof.Machine.execPurgeAck m frm page part s
  | .collapseInvalidate m idx holder => Sys2Proof.Machine.execCollapseInvalidate m idx holder s
  | .collapseAck m idx holder => Sys2Proof.Machine.execCollapseAck m idx holder s
  | .faultQueueTailAdvance m vf n => Sys2Proof.Machine.execFaultQueueTailAdvance m vf n s
  | .keyLoad m pd kid next key => Sys2Proof.Machine.execKeyLoad m pd kid next key s
  | .hostPortUp m port => Sys2Proof.Machine.execHostPortUp m port s
  | .portDieFailure m pd => Sys2Proof.Machine.execPortDieFailure m pd s
  | .engineRestore clu eng => Sys2Proof.Machine.execEngineRestore clu eng s
  | .partitionConfigure m part cfg => Sys2Proof.Machine.execPartitionConfigure m part cfg s
  | .errorCounterClear die => Sys2Proof.Machine.execErrorCounterClear die s

/-- The constructor of Instr that stands for the same step. -/
def Event.matches (e : Event) (i : Instr) : Bool :=
  match e, i with
  | .asyncTrapEntry p1, .asyncTrapEntry p2 => decide (p1 = p2)
  | .itimerFire p1, .itimerFire p2 => decide (p1 = p2)
  | .intdbWrite m1 vf1 v1, .intdbWrite m2 vf2 v2 => decide (m1 = m2) && decide (vf1 = vf2) && decide (v1 = v2)
  | .preemptNotice m1 vf1 w1, .preemptNotice m2 vf2 w2 => decide (m1 = m2) && decide (vf1 = vf2) && decide (w1 = w2)
  | .sstatWrite v1, .sstatWrite v2 => decide (v1 = v2)
  | .ipendClear v1, .ipendClear v2 => decide (v1 = v2)
  | .registerWrite csr1 v1, .registerWrite csr2 v2 => decide (csr1 = csr2) && decide (v1 = v2)
  | .memResponse p1, .memResponse p2 => decide (p1 = p2)
  | .courseForward p1, .courseForward p2 => decide (p1 = p2)
  | .courseTimeout clu1 idx1, .courseTimeout clu2 idx2 => decide (clu1 = clu2) && decide (idx1 = idx2)
  | .realignTimeout p1, .realignTimeout p2 => decide (p1 = p2)
  | .streamElementFetch core1 unit1, .streamElementFetch core2 unit2 => decide (core1 = core2) && decide (unit1 = unit2)
  | .streamPush core1 unit1, .streamPush core2 unit2 => decide (core1 = core2) && decide (unit1 = unit2)
  | .matrixOpComplete core1 st1, .matrixOpComplete core2 st2 => decide (core1 = core2) && decide (st1 = st2)
  | .mcmdCommand src1, .mcmdCommand src2 => decide (src1 = src2)
  | .mcmdAnswer src1, .mcmdAnswer src2 => decide (src1 = src2)
  | .spartConversion clu1, .spartConversion clu2 => decide (clu1 = clu2)
  | .waitwMonitorFire p1, .waitwMonitorFire p2 => decide (p1 = p2)
  | .sevEvent src1, .sevEvent src2 => decide (src1 = src2)
  | .timeSliceExpiry m1 part1, .timeSliceExpiry m2 part2 => decide (m1 = m2) && decide (part1 = part2)
  | .slotHandover p1 vf1, .slotHandover p2 vf2 => decide (p1 = p2) && decide (vf1 = vf2)
  | .bteTransferActivate clu1, .bteTransferActivate clu2 => decide (clu1 = clu2)
  | .bteWriteLand clu1 id1, .bteWriteLand clu2 id2 => decide (clu1 = clu2) && decide (id1 = id2)
  | .bteConsumerUpdate clu1 id1, .bteConsumerUpdate clu2 id2 => decide (clu1 = clu2) && decide (id1 = id2)
  | .ixeElementCopy clu1 id1, .ixeElementCopy clu2 id2 => decide (clu1 = clu2) && decide (id1 = id2)
  | .engineCompletion clu1 ixe1 id1, .engineCompletion clu2 ixe2 id2 => decide (clu1 = clu2) && decide (ixe1 = ixe2) && decide (id1 = id2)
  | .cringtailWrite clu1 v1, .cringtailWrite clu2 v2 => decide (clu1 = clu2) && decide (v1 = v2)
  | .engineOffline clu1 ixe1, .engineOffline clu2 ixe2 => decide (clu1 = clu2) && decide (ixe1 = ixe2)
  | .autoMigration core1, .autoMigration core2 => decide (core1 = core2)
  | .migrationArrival clu1, .migrationArrival clu2 => decide (clu1 = clu2)
  | .migrationSlotFree clu1, .migrationSlotFree clu2 => decide (clu1 = clu2)
  | .kleScoring clu1 ctx1, .kleScoring clu2 ctx2 => decide (clu1 = clu2) && decide (ctx1 = ctx2)
  | .kleServiceRound die1 slice1, .kleServiceRound die2 slice2 => decide (die1 = die2) && decide (slice1 = slice2)
  | .kleRowArrival clu1 ctx1, .kleRowArrival clu2 ctx2 => decide (clu1 = clu2) && decide (ctx1 = ctx2)
  | .kleReadTimeout clu1 ctx1 rank1, .kleReadTimeout clu2 ctx2 rank2 => decide (clu1 = clu2) && decide (ctx1 = ctx2) && decide (rank1 = rank2)
  | .kleLookupComplete clu1 ctx1, .kleLookupComplete clu2 ctx2 => decide (clu1 = clu2) && decide (ctx1 = ctx2)
  | .kleOffline clu1, .kleOffline clu2 => decide (clu1 = clu2)
  | .eupdDirectAdd clu1 id1, .eupdDirectAdd clu2 id2 => decide (clu1 = clu2) && decide (id1 = id2)
  | .mergeContribution m1, .mergeContribution m2 => decide (m1 = m2)
  | .mergeClose m1, .mergeClose m2 => decide (m1 = m2)
  | .closeAck src1, .closeAck src2 => decide (src1 = src2)
  | .homeSliceRequest m1 src1, .homeSliceRequest m2 src2 => decide (m1 = m2) && decide (src1 = src2)
  | .farAtomicExecute m1 src1, .farAtomicExecute m2 src2 => decide (m1 = m2) && decide (src1 = src2)
  | .pageWalk die1 page1, .pageWalk die2 page2 => decide (die1 = die2) && decide (page1 = page2)
  | .faultack v1, .faultack v2 => decide (v1 = v2)
  | .faultackWake die1, .faultackWake die2 => decide (die1 = die2)
  | .releaseProbe m1 src1 grp1, .releaseProbe m2 src2 grp2 => decide (m1 = m2) && decide (src1 = src2) && decide (grp1 = grp2)
  | .probeEcho p1 grp1, .probeEcho p2 grp2 => decide (p1 = p2) && decide (grp1 = grp2)
  | .uncorrectableError site1, .uncorrectableError site2 => decide (site1 = site2)
  | .correctableError die1, .correctableError die2 => decide (die1 = die2)
  | .dieerrlog d1, .dieerrlog d2 => decide (d1 = d2)
  | .taskDispatch die1 clu1, .taskDispatch die2 clu2 => decide (die1 = die2) && decide (clu1 = clu2)
  | .admissionServe die1, .admissionServe die2 => decide (die1 = die2)
  | .taskSteal die1 clu1 vf1, .taskSteal die2 clu2 vf2 => decide (die1 = die2) && decide (clu1 = clu2) && decide (vf1 = vf2)
  | .stealRequest die1 vf1, .stealRequest die2 vf2 => decide (die1 = die2) && decide (vf1 = vf2)
  | .stealRetry die1 vf1, .stealRetry die2 vf2 => decide (die1 = die2) && decide (vf1 = vf2)
  | .counterUpdate die1 src1, .counterUpdate die2 src2 => decide (die1 = die2) && decide (src1 = src2)
  | .groupUpdate die1 src1, .groupUpdate die2 src2 => decide (die1 = die2) && decide (src1 = src2)
  | .grantExpiry p1, .grantExpiry p2 => decide (p1 = p2)
  | .budgetSet die1 units1, .budgetSet die2 units2 => decide (die1 = die2) && decide (units1 = units2)
  | .thermalStep die1 hot1, .thermalStep die2 hot2 => decide (die1 = die2) && decide (hot1 = hot2)
  | .criticalTemperature m1, .criticalTemperature m2 => decide (m1 = m2)
  | .shutdownTemperature m1, .shutdownTemperature m2 => decide (m1 = m2)
  | .lqdb m1 vf1, .lqdb m2 vf2 => decide (m1 = m2) && decide (vf1 = vf2)
  | .launchTake m1 vf1, .launchTake m2 vf2 => decide (m1 = m2) && decide (vf1 = vf2)
  | .launchEnd m1 vf1, .launchEnd m2 vf2 => decide (m1 = m2) && decide (vf1 = vf2)
  | .vfReset m1 vf1, .vfReset m2 vf2 => decide (m1 = m2) && decide (vf1 = vf2)
  | .vfPolicyWrite m1 vf1 f1, .vfPolicyWrite m2 vf2 f2 => decide (m1 = m2) && decide (vf1 = vf2) && decide (f1 = f2)
  | .hostBarWrite m1 vf1 bar21 a1 v1 n1, .hostBarWrite m2 vf2 bar22 a2 v2 n2 => decide (m1 = m2) && decide (vf1 = vf2) && decide (bar21 = bar22) && decide (a1 = a2) && decide (v1 = v2) && decide (n1 = n2)
  | .hostPortDown m1 port1, .hostPortDown m2 port2 => decide (m1 = m2) && decide (port1 = port2)
  | .packageNumberWrite m1 v1, .packageNumberWrite m2 v2 => decide (m1 = m2) && decide (v1 = v2)
  | .linkTraining m1 link1 peer1 ok1, .linkTraining m2 link2 peer2 ok2 => decide (m1 = m2) && decide (link1 = link2) && decide (peer1 = peer2) && decide (ok1 = ok2)
  | .moduleReset m1, .moduleReset m2 => decide (m1 = m2)
  | .firmwareFetchRetry m1 img1, .firmwareFetchRetry m2 img2 => decide (m1 = m2) && decide (img1 = img2)
  | .attestationRequest m1 nonce1, .attestationRequest m2 nonce2 => decide (m1 = m2) && decide (nonce1 = nonce2)
  | .stackFailure m1 stack1, .stackFailure m2 stack2 => decide (m1 = m2) && decide (stack1 = stack2)
  | .ochreCoreFault m1 pd1 core1, .ochreCoreFault m2 pd2 core2 => decide (m1 = m2) && decide (pd1 = pd2) && decide (core1 = core2)
  | .flitRoute m1 node1, .flitRoute m2 node2 => decide (m1 = m2) && decide (node1 = node2)
  | .flitEject m1 node1, .flitEject m2 node2 => decide (m1 = m2) && decide (node1 = node2)
  | .packetDeliver m1 node1 src1 ch1, .packetDeliver m2 node2 src2 ch2 => decide (m1 = m2) && decide (node1 = node2) && decide (src1 = src2) && decide (ch1 = ch2)
  | .deliveryCredit m1 src1 dst1 ch1, .deliveryCredit m2 src2 dst2 ch2 => decide (m1 = m2) && decide (src1 = src2) && decide (dst1 = dst2) && decide (ch1 = ch2)
  | .linkFrameReceive m1 pd1, .linkFrameReceive m2 pd2 => decide (m1 = m2) && decide (pd1 = pd2)
  | .linkDown m1 link1, .linkDown m2 link2 => decide (m1 = m2) && decide (link1 = link2)
  | .pathFailed m1 peer1, .pathFailed m2 peer2 => decide (m1 = m2) && decide (peer1 = peer2)
  | .accessTimeout p1, .accessTimeout p2 => decide (p1 = p2)
  | .vsPacketArrive clu1 port1, .vsPacketArrive clu2 port2 => decide (clu1 = clu2) && decide (port1 = port2)
  | .vsCredit clu1 entry1 port1, .vsCredit clu2 entry2 port2 => decide (clu1 = clu2) && decide (entry1 = entry2) && decide (port1 = port2)
  | .gangQuery m1 vf1, .gangQuery m2 vf2 => decide (m1 = m2) && decide (vf1 = vf2)
  | .gangPause m1 vf1, .gangPause m2 vf2 => decide (m1 = m2) && decide (vf1 = vf2)
  | .gangDrainComplete m1 vf1, .gangDrainComplete m2 vf2 => decide (m1 = m2) && decide (vf1 = vf2)
  | .gangStopTimeout m1 vf1, .gangStopTimeout m2 vf2 => decide (m1 = m2) && decide (vf1 = vf2)
  | .gangResume m1 vf1, .gangResume m2 vf2 => decide (m1 = m2) && decide (vf1 = vf2)
  | .migrationCommandTake m1, .migrationCommandTake m2 => decide (m1 = m2)
  | .move m1 idx1, .move m2 idx2 => decide (m1 = m2) && decide (idx1 = idx2)
  | .dup m1 idx1, .dup m2 idx2 => decide (m1 = m2) && decide (idx1 = idx2)
  | .collapse m1 idx1, .collapse m2 idx2 => decide (m1 = m2) && decide (idx1 = idx2)
  | .reclaim m1 idx1, .reclaim m2 idx2 => decide (m1 = m2) && decide (idx1 = idx2)
  | .migrationCutover m1 idx1, .migrationCutover m2 idx2 => decide (m1 = m2) && decide (idx1 = idx2)
  | .migrationCommandComplete m1 idx1, .migrationCommandComplete m2 idx2 => decide (m1 = m2) && decide (idx1 = idx2)
  | .stubRelay m1 src1, .stubRelay m2 src2 => decide (m1 = m2) && decide (src1 = src2)
  | .relayAck m1 page1 part1, .relayAck m2 page2 part2 => decide (m1 = m2) && decide (page1 = page2) && decide (part1 = part2)
  | .walkReturn die1 src1, .walkReturn die2 src2 => decide (die1 = die2) && decide (src1 = src2)
  | .redirect die1 page1 part1, .redirect die2 page2 part2 => decide (die1 = die2) && decide (page1 = page2) && decide (part1 = part2)
  | .stubQuietExpiry m1 page1 part1, .stubQuietExpiry m2 page2 part2 => decide (m1 = m2) && decide (page1 = page2) && decide (part1 = part2)
  | .purge m1 frm1 page1 part1, .purge m2 frm2 page2 part2 => decide (m1 = m2) && decide (frm1 = frm2) && decide (page1 = page2) && decide (part1 = part2)
  | .purgeAck m1 frm1 page1 part1, .purgeAck m2 frm2 page2 part2 => decide (m1 = m2) && decide (frm1 = frm2) && decide (page1 = page2) && decide (part1 = part2)
  | .collapseInvalidate m1 idx1 holder1, .collapseInvalidate m2 idx2 holder2 => decide (m1 = m2) && decide (idx1 = idx2) && decide (holder1 = holder2)
  | .collapseAck m1 idx1 holder1, .collapseAck m2 idx2 holder2 => decide (m1 = m2) && decide (idx1 = idx2) && decide (holder1 = holder2)
  | .faultQueueTailAdvance m1 vf1 n1, .faultQueueTailAdvance m2 vf2 n2 => decide (m1 = m2) && decide (vf1 = vf2) && decide (n1 = n2)
  | .keyLoad m1 pd1 kid1 next1 key1, .keyLoad m2 pd2 kid2 next2 key2 => decide (m1 = m2) && decide (pd1 = pd2) && decide (kid1 = kid2) && decide (next1 = next2) && decide (key1 = key2)
  | .hostPortUp m1 port1, .hostPortUp m2 port2 => decide (m1 = m2) && decide (port1 = port2)
  | .portDieFailure m1 pd1, .portDieFailure m2 pd2 => decide (m1 = m2) && decide (pd1 = pd2)
  | .engineRestore clu1 eng1, .engineRestore clu2 eng2 => decide (clu1 = clu2) && decide (eng1 = eng2)
  | .partitionConfigure m1 part1 cfg1, .partitionConfigure m2 part2 cfg2 => decide (m1 = m2) && decide (part1 = part2) && decide (cfg1 = cfg2)
  | .errorCounterClear die1, .errorCounterClear die2 => decide (die1 = die2)
  | _, _ => false

end Sys2Proof.Machine
end

