-- ==== Sys2Proof/Machine/Step.lean ====
section
/-! DEFINITION. One step of the machine: a step of another agent that is due, or the issue position of
one core (R176, R441, log 1, log 2). -/

namespace Sys2Proof.Machine

open Sys2Proof

/-- One step. A step whose time the manual fixes comes before everything else (R441); then one of the steps that may
come, or the next issue position: which is open (R9, log 1). -/
def step (s : State) : Host.Outcome State Fault Refusal :=
  match s.urgent with
  | u :: us => runEvent u { s with urgent := us }
  | [] =>
    match s.agenda with
    | [] => issueTurn s
    | e :: es =>
      let c := s.choice (es.length + 2)
      match (e :: es)[c.1]? with
      | some ev => runEvent ev { c.2 with agenda := (e :: es).eraseIdx c.1 }
      | none => issueTurn c.2

/-- The state with an instruction word where the next step fetches (log 10): slot 0 of core 0 is Ready at
issue position 0 and holds the fetch block with the word. -/
def State.withFetchWord (s : State) (nbits w : Nat) : State :=
  Sys2Proof.Machine.placeWord s nbits w

end Sys2Proof.Machine
end

