-- ==== Sys2Proof/Safety.lean ====
section
/-! DEFINITION. The words that statements are made of: a run that goes on, the canonical form of the
memories, what the conclusion of a word leaves alone, what a raised cause leaves. -/

namespace Sys2Proof.Machine

open Sys2Proof

/-- A step goes on. -/
def State.goesOn (s : State) : Prop := ∃ t, step s = .next t

/-- The memories of a module have the canonical form. -/
def Module.wf (x : Module) : Bool :=
  x.dram.wf && x.host.wf && x.pinned.all fun e => e.2.wf

/-- Every memory of the machine has the canonical form: DRAM, host memory, pinned windows, scratchpads and
TCMs. -/
def State.memWf (s : State) : Bool :=
  (s.mods.all fun e => e.2.wf) && (s.clusters.all fun e => e.2.spad.wf)
    && s.cores.all fun e => e.2.tcm.wf

/-- What the conclusion of a bundle leaves of a strand: every general, vector and mask register, every CSR but
OPENPKT, its task, its place in queues. -/
def Strand.lasting (x : Strand) : Strand :=
  { x with
    pc := 0, loops := [], resps := [], asked := [], probes := [], askedAt := [], token := none, denied := false
    begun := none, banked := none, absAt := none
    csr := { x.csr with openpkt := 0 } }

/-- What the conclusion of a bundle leaves of its core: all but its stream positions and its loop buffers. -/
def Core.lasting (c : Core) : Core := { c with units := [], lbufs := [] }

/-- `t` is `u` once the word that executes has had its effects: the bundle's end changes nothing but the program
counter, the loop levels, the answers the bundle used, the count of OPENPKT, the stream positions it read and the
loop buffer of a level that ends (R69, R88, R189, R192). -/
structure Concluded (u t : State) : Prop where
  ended : t.issue.ended = some .done
  cur : t.cur = u.cur
  me : t.me.lasting = u.me.lasting
  others : ∀ k, k ≠ u.cur.key → fget Strand.empty t.strands k = fget Strand.empty u.strands k
  core : t.core.lasting = u.core.lasting
  otherCores : ∀ k, k ≠ u.cur.coreKey → t.coreOf k = u.coreOf k
  clusters : t.clusters = u.clusters
  dies : t.dies = u.dies
  mods : t.mods = u.mods
  net : t.net = u.net
  replies : t.replies = u.replies
  notes : t.notes = u.notes
  flits : t.flits = u.flits
  ejects : t.ejects = u.ejects
  agenda : t.agenda = u.agenda
  urgent : t.urgent = u.urgent
  time : t.ticks = u.ticks ∧ t.turn = u.turn ∧ t.left = u.left ∧ t.fresh = u.fresh
  /-- Outside a loop the program counter goes where the bundle goes. -/
  pc : u.issue.half = .lone → (u.issue.noEnd = true ∨ u.issue.lev = 0) → t.me.pc = word u.issue.next
  /-- And no level ends. -/
  levels : (u.issue.noEnd = true ∨ u.issue.lev = 0) → t.me.loops = u.me.loops
  /-- Nothing at all happens before a pair has ended. -/
  half : u.issue.half ≠ .lone → t = { u with issue := { u.issue with ended := some .done } }

/-- The instruction completes: its effect takes `s` to `u`, and its word is concluded. -/
def Completes (i : Instr) (s u : State) : Prop := ∃ t, exec i s = .next t ∧ Concluded u t

/-- A word that began at `s` raised a cause (R69, R93): a half of a pair leaves the entry to the end of the pair; a
lone word has entered its handler, with nothing of its own effect. A trap in a trap (R97), and the record that an
access without an answer leaves (R399), have statements of their own. A memory cause of the A half carries HALF (R92, log
65). -/
structure Raised (s t : State) (c : Cause) (addr info : Nat) : Prop where
  ended : t.issue.ended = some (.trap c addr (info + memHalf s c))
  half : s.issue.half ≠ .lone → t = { s with issue := { s.issue with ended := some (.trap c addr (info + memHalf s c)) } }
  regs : s.issue.half = .lone → s.me.tl = false → c ≠ .dataError →
    t.me.g = s.me.g ∧ t.me.v = s.me.v ∧ t.me.k = s.me.k ∧ t.me.loops = s.me.loops
  entry : s.issue.half = .lone → s.me.tl = false → c ≠ .dataError →
    t.me.st = .ready ∧ t.me.pc = vector s.me.csr.evec c.code ∧ t.me.csr.epc = word s.issue.addr
      ∧ t.me.csr.ecause = word (b2n c.isAsync * 2 ^ 63 + c.code) ∧ t.me.csr.eaddr = word addr
      ∧ t.me.csr.einfo = word info ∧ t.me.csr.sstat = trapStat s.me.csr.sstat
  others : s.issue.half = .lone → s.me.tl = false → c ≠ .dataError →
    t.me.csr.fpctl = s.me.csr.fpctl ∧ t.me.csr.rndseed = s.me.csr.rndseed ∧ t.me.csr.evec = s.me.csr.evec
      ∧ t.me.csr.escratch = s.me.csr.escratch ∧ t.me.csr.ttmask = s.me.csr.ttmask
      ∧ t.me.csr.groups = s.me.csr.groups
  memory : s.issue.half = .lone → s.me.tl = false → c ≠ .dataError →
    t.mods = s.mods ∧ (∀ k, (t.coreOf k).tcm = (s.coreOf k).tcm) ∧ ∀ k, (t.cluOf k).spad = (s.cluOf k).spad

/-- The instruction raises a cause. -/
def Raises (i : Instr) (s : State) (c : Cause) (addr info : Nat) : Prop :=
  ∃ t, exec i s = .next t ∧ Raised s t c addr info

/-- `n` bytes at `a` in the supervisor's part of the strand's own TCM, from 0xC000 (R151, R316): readable and writable
by a strand in supervisor mode whatever the page tables hold. -/
structure OwnTcm (s : State) (a n : Nat) : Prop where
  window : bitAt a 55 = true ∧ bits a 55 54 = 3
  here : placedHere s s.cur.mod a = true
  core : tcmCore s.cur.mod a = s.cur.coreKey
  offset : 0xC000 ≤ a % 2 ^ 23 ∧ a % 2 ^ 23 + n ≤ 2 ^ 16
  super : s.super = true

/-- The state with an element-wise result (R131, R133): element `i` of `d` is `f i` where the mask is set and keeps its
value elsewhere; the flags of the active elements are set. -/
def vectorResult (s : State) (d : VReg) (k : KReg) (ty : EType) (f : Nat → Nat × Nat) : State :=
  let act := (List.range ty.count).filter (activeElem s k ty)
  let old := s.view.v[d]
  setFlags
    (putV d (packV ty.width ((List.range ty.count).map fun i =>
      if activeElem s k ty i then (f i).1 else lane old.toNat ty.width i)) s)
    (act.foldl (fun m i => m ||| (f i).2) 0)

/-- The instruction of an atomic operation (R166). -/
def amoInstr : AmoOp → GReg → GReg → GReg → Width → Scope → Bool → Bool → Bool → Instr
  | .add => Instr.amoadd
  | .and => Instr.amoand
  | .or => Instr.amoor
  | .xor => Instr.amoxor
  | .min => Instr.amomin
  | .max => Instr.amomax
  | .minu => Instr.amominu
  | .maxu => Instr.amomaxu
  | .swp => Instr.amoswp
  | .cas => Instr.amocas
  | .fadd => Instr.amofadd
  | .fmax => Instr.amofmax

/-- A scope field that is not narrowed: 0, or no wider than the tenant's MAXSCOPE (R173). -/
def State.fits (s : State) (sc : Scope) : Prop := sc.code ≤ maxScope s

/-- The strand has no pending push (R192). -/
def State.noPush (s : State) : Prop :=
  ∀ i, i < 4 → (nth SUnit.free s.core.units i).owner = some s.cur.slot → (nth SUnit.free s.core.units i).pushes = []

/-- The state after an acquire at a scope; none with a scope field of 0 (R171). -/
def State.acquired (s : State) (sc : Scope) : State := if sc = .none then s else acquireAt s s.cur sc

/-- The word waits: a lone word leaves its slot Parked with a reason, at the bundle's address, and no register
written (R175, R176). -/
structure Waits (i : Instr) (s : State) (r : ParkReason) : Prop where
  parks : ∃ t sent, exec i s = .next t ∧ t.issue.ended = some (.park r sent)
    ∧ t.me.g = s.me.g ∧ t.me.v = s.me.v ∧ t.me.k = s.me.k ∧ t.me.loops = s.me.loops ∧ t.me.pc = s.me.pc
    ∧ (s.issue.half = .lone → t.me.st = .parked r)

/-- No stream is bound to a register (R192). -/
def unbound (s : State) (r : VReg) : Prop := boundUnit s r = none

end Sys2Proof.Machine
end

