-- ==== Sys2Proof/Certificates/Slice0/Obligations.lean ====
section
/-! DEFINITION. The statements for the provers, each from the numbered rules of spec/. -/

open Sys2Proof Sys2Proof.Machine

/-! ### Encodings -/

/-- For every instruction with an encoding and every value of its operands that the encoding admits, decoding its
word gives it back: no bit of an encoding is dropped (R65, R71, R72). -/
def Obligations.DecodeEncode : Prop :=
  ∀ (i : Instr) (lone : Bool) (w : Nat), encode lone i = some w → i.wf lone = true →
    w < 2 ^ 32 ∧ bits w 31 31 = b2n lone ∧ decodeWord lone w = .ok i

/-- What the decoder reads from any word is an instruction that R73-R76 admit in a word of its kind. -/
def Obligations.DecoderWellFormed : Prop :=
  ∀ (lone : Bool) (w : Nat) (i : Instr), decodeWord lone w = .ok i → i.wf lone = true

/-- Words written out from the encodings of the manual decode to what they stand for: BNE (R144), ADD (R108), SHLI
(R111), CSRR (R101), TRAP (R102), STW (R159), AMOADD (R167), VADD (R133), MMA (R211), SCFG (R194), BTGO (R246), KLOOK
(R281), VSOPEN (R409). -/
def Obligations.DecodeWords : Prop :=
  decodeWord false 0x031D1FF8 = .ok (.bne 7 8 (BitVec.ofInt 13 (-8))) ∧
  decodeWord false 0x40A52600 = .ok (.add 9 9 6 false) ∧
  decodeWord true 0xCA0C6004 = .ok (.shli 3 3 4) ∧
  decodeWord true 0xAF140008 = .ok (.csrr 5 0x008) ∧
  decodeWord true 0xAF141008 = .error (.reserved 12) ∧
  decodeWord true 0xB0800005 = .ok (.trap 5) ∧
  decodeWord true 0x8C90A000 = .ok (.stw 4 5 0 false) ∧
  decodeWord true 0x941CA680 = .ok (.amoadd 7 5 6 .w .none false false false) ∧
  decodeWord true 0xD811A2C0 = .ok (.vadd 2 3 4 1 .f32 .rne false) ∧
  decodeWord true 0xE6204400 = .ok (.mma 2 0 1 .ip 1 .f32) ∧
  decodeWord true 0x9F104000 = .ok (.scfg 4 2) ∧
  decodeWord true 0xA1A40010 = .ok (.btgo 9 .clu) ∧
  decodeWord true 0xA3A4E510 = .ok (.klook 9 7 5 .clu) ∧
  decodeWord true 0xAD0C8007 = .ok (.vsopen 3 4 false 0 7)

/-! ### The machine -/

/-- Every step keeps the canonical form of every memory: addresses rising, no entry that an unlisted byte would read
as. The form is the model's own (log 5). -/
def Obligations.MemoryCanonical : Prop :=
  ∀ s t : State, s.memWf = true → step s = .next t → t.memWf = true

/-- The machine right after reset: the memories have the canonical form (log 5); TICKS is 0, no slot has a strand, no
transfer has an identifier, every tile is free with zero data and the TSH 0x1, ALIGNTO is 256, MIGTHR is 0x4008 (R91, R174,
R186, R197, R246, R262), every counter of the completion rings is 0 (R248). -/
def Obligations.ResetState : Prop :=
  State.reset.memWf = true ∧ State.reset.ticks = 0 ∧
  (∀ p : Place, (State.reset.strand p).st = .empty) ∧
  (∀ k : Nat, (State.reset.coreOf k).alignto = 256 ∧ (State.reset.coreOf k).migthr = 0x4008 ∧
    (∀ i, i < 8 → (tileOf (State.reset.coreOf k) i).owner = none ∧ (tileOf (State.reset.coreOf k) i).data = 0 ∧
      (tileOf (State.reset.coreOf k) i).side = 0 ∧ (tileOf (State.reset.coreOf k) i).tsh = 1 ∧
      (tileOf (State.reset.coreOf k) i).psn = false)) ∧
  (∀ k : Nat, (State.reset.cluOf k).bte.seq = 0 ∧ (State.reset.cluOf k).ixe.seq = 0 ∧ (State.reset.cluOf k).chead = 0 ∧
    (State.reset.cluOf k).ctail = 0)

/-- Nothing stops the machine: every step of every state gives a next state. Whatever a word, an instruction or
another agent meets is a cause, a wait, an error value or a record (R92, R175, R246). -/
def Obligations.StepGoesOn : Prop := ∀ s : State, s.goesOn

/-- A step with nothing else due runs the lone word at the program counter of the slot that the issue position picks:
the state is that of the decoded instruction, and then the rest of the core's cycle (R66, R68, R176, log 2). A bundle
that uses a scratchpad bank port while a lower core of the cluster has its turn of the cycle to come is issued again
after that core (R242).
A step of another agent runs as its instruction of the opcode table says: one that the open choice picks (log 1), and
before all of those one whose time the manual fixes and that is due (R441). -/
def Obligations.StepRuns : Prop :=
  (∀ (s : State) (slot w0 w1 w : Nat) (i : Instr) (s1 : State),
     s.urgent = [] →
     s.agenda = [] →
     pickSlot s s.turn = some slot →
     let p := placeOf s.turn slot
     let s0 := beginBundle s p
     asyncCause (s.strand p) = none →
     (s0.me.denied = false ∨ s0.me.absAt = none) →
     forwardedNow s0.me = none →
     fetchWords s0.issue.addr s0 = .ok ((w0, w1), s1) →
     frame s1.issue.addr w0 w1 = .lone w →
     s1.me.pktOpen = false →
     forwardedNow s1.me = none →
     decodeWord true w = .ok i →
     let run := exec i (withWord s1 .lone (addrAdd s1.issue.addr 4))
     let turnOver (u : State) := match lowerLeft s with
       | some c => if u.issue.bank then yieldTo s c else endTurn u
       | none => endTurn u
     (∀ t c a n, run = .next t → t.issue.ended = some (.trap c a n) → step s = .next (turnOver t)) ∧
     (∀ t r sent, run = .next t → t.issue.ended = some (.park r sent) → step s = .next (turnOver (asyncDue t p))) ∧
     (∀ t, run = .next t → t.issue.ended = some .done →
       step s = .next (turnOver (captureBundle s1 (forwardBundle s1 t w0 w1) w0 w1))) ∧
     (∀ t, run = .next t → t.issue.ended = some .gone →
       step s = .next (turnOver (forwardBundle s1 t w0 w1)))) ∧
  (∀ (s : State) (e : Event) (es : List Event) (i : Instr),
     s.urgent = e :: es →
     e.matches i = true →
     step s = exec i { s with urgent := es }) ∧
  (∀ (s : State) (e : Event) (i : Instr),
     s.urgent = [] →
     s.agenda ≠ [] →
     s.agenda[Config.pick s.fresh % (s.agenda.length + 1)]? = some e →
     e.matches i = true →
     step s = exec i { s with fresh := s.fresh + 1
                              agenda := s.agenda.eraseIdx (Config.pick s.fresh % (s.agenda.length + 1)) })

/-- A raised cause enters the handler (R93, R92): EPC, ECAUSE, EADDR, EINFO, SSTAT and the program counter, for every
cause a word can raise but DATA_ERROR, in a strand that is in no trap; the registers stay. The two steps of the
decoder, ILLEGAL_INSTR (R79) and RESERVED_FIELD (R81), are such causes on every path.
What the entry does to SSTAT and to the program counter, bit by bit (R93): PMODE and PIE take MODE and IE, MODE
becomes 1, IE 0, TL 1, the other bits stay; the handler is at BASE, or at BASE + 8 · CODE with VEC.
TRAP raises SOFTWARE (R102): EPC is the address after the TRAP, EINFO its immediate.
A cause that a lone word raises while SSTAT.TL is 1 is a double trap (R97): the slot is Parked with reason
DOUBLE_TRAP for good, and the registers of the first trap stay. -/
def Obligations.TrapEntry : Prop :=
  (∀ s : State, s.issue.half = .lone → s.me.tl = false →
     (∀ op : BitVec 7, ∃ t, exec (.illegalInstr op) s = .next t ∧
       t.me.pc = vector s.me.csr.evec 0x01 ∧ t.me.csr.epc = word s.issue.addr ∧ t.me.csr.ecause = word 0x01 ∧
       t.me.csr.eaddr = word s.issue.addr ∧ t.me.csr.einfo = word op.toNat ∧
       t.me.csr.sstat = trapStat s.me.csr.sstat ∧ t.me.st = .ready ∧
       t.me.g = s.me.g ∧ t.me.v = s.me.v ∧ t.me.k = s.me.k ∧ t.mods = s.mods) ∧
     (∀ sub : Nat, ∃ t, exec (.reservedField sub) s = .next t ∧
       t.me.pc = vector s.me.csr.evec 0x03 ∧ t.me.csr.epc = word s.issue.addr ∧ t.me.csr.ecause = word 0x03 ∧
       t.me.csr.eaddr = word s.issue.addr ∧ t.me.csr.einfo = word sub ∧
       t.me.csr.sstat = trapStat s.me.csr.sstat ∧ t.me.st = .ready ∧
       t.me.g = s.me.g ∧ t.me.v = s.me.v ∧ t.me.k = s.me.k ∧ t.mods = s.mods)) ∧
  ((∀ st : Word, fld (trapStat st) 3 3 = fld st 0 0 ∧ fld (trapStat st) 2 2 = fld st 1 1 ∧
     fld (trapStat st) 0 0 = 1 ∧ fld (trapStat st) 1 1 = 0 ∧ fld (trapStat st) 6 6 = 1 ∧
     fld (trapStat st) 5 4 = fld st 5 4 ∧ fld (trapStat st) 63 7 = fld st 63 7) ∧
   (∀ (evec : Word) (code : Nat), bitAt evec.toNat 0 = false →
     vector evec code = word (fld evec 55 3 * 8)) ∧
   (∀ (evec : Word) (code : Nat), bitAt evec.toNat 0 = true →
     vector evec code = word (fld evec 55 3 * 8 + 8 * code))) ∧
  (∀ (imm : BitVec 13) (s : State), s.me.tl = false →
     ∃ t, exec (.trap imm) s = .next t ∧
       t.me.pc = vector s.me.csr.evec 0x18 ∧ t.me.csr.epc = word (addrAdd s.issue.addr 4) ∧
       t.me.csr.ecause = word 0x18 ∧ t.me.csr.eaddr = 0 ∧ t.me.csr.einfo = word imm.toNat ∧
       t.me.csr.sstat = trapStat s.me.csr.sstat ∧ t.me.st = .ready ∧
       t.me.g = s.me.g ∧ t.me.v = s.me.v ∧ t.me.k = s.me.k ∧ t.mods = s.mods) ∧
  (∀ (op : BitVec 7) (s : State), s.issue.half = .lone → s.me.tl = true →
     ∃ t, exec (.illegalInstr op) s = .next t ∧ t.me.st = .parked .doubleTrap ∧
       t.me.pc = s.me.pc ∧ t.me.csr.epc = s.me.csr.epc ∧ t.me.csr.ecause = s.me.csr.ecause ∧
       t.me.csr.eaddr = s.me.csr.eaddr ∧ t.me.csr.einfo = s.me.csr.einfo ∧
       t.me.csr.sstat = s.me.csr.sstat ∧ t.me.g = s.me.g ∧ (∀ rs, t.me.wakeIf rs = t.me ∨ rs.contains .doubleTrap) ∧
       t.me.wake = t.me)

/-- ERET in supervisor mode returns from a trap (R103): the program counter is EPC with bits 1:0 read as 0, MODE and
IE take PMODE and PIE, TL becomes 0. In user mode it raises PRIV with SUB 0x62.
The instructions that need supervisor mode raise PRIV with their opcode in user mode (R92, R84). -/
def Obligations.ModeChanges : Prop :=
  (∀ s : State,
     (s.super = true → ∃ st : Word,
       fld st 0 0 = fld s.me.csr.sstat 3 3 ∧ fld st 1 1 = fld s.me.csr.sstat 2 2 ∧ fld st 6 6 = 0 ∧
       fld st 5 2 = fld s.me.csr.sstat 5 2 ∧ fld st 63 7 = fld s.me.csr.sstat 63 7 ∧
       Completes .eret s (jump (s.modCsr fun c => { c with sstat := st }) (fld s.me.csr.epc 63 2 * 4))) ∧
     (s.super = false → Raises .eret s .priv (wordAddr s) (halfBit s + 0x62))) ∧
  (∀ s : State, s.super = false →
     (∀ a sc, Raises (.plbinvPage a sc) s .priv (wordAddr s) (halfBit s + 0x63)) ∧
     (∀ a sc, Raises (.plbinvDom a sc) s .priv (wordAddr s) (halfBit s + 0x63)) ∧
     (∀ sc, Raises (.plbinvVf sc) s .priv (wordAddr s) (halfBit s + 0x63)) ∧
     (∀ d a b, Raises (.spart d a b) s .priv (wordAddr s) (halfBit s + 0x65)) ∧
     (∀ d a b, Raises (.tdeq d a b) s .priv (wordAddr s) (halfBit s + 0x4D)) ∧
     (∀ d a, Raises (.ctxsave d a) s .priv (wordAddr s) (halfBit s + 0x66)) ∧
     (∀ d a, Raises (.ctxload d a) s .priv (wordAddr s) (halfBit s + 0x67)))

/-! ### Registers -/

/-- A write to a general register (R82): g0 reads 0 and discards what is written; a write to another register changes
that register of the executing strand and nothing else of the machine.
Writing a mask or vector register that no stream is bound to (R82, R87): the register, and SSTAT.VUSED. -/
def Obligations.RegisterWrites : Prop :=
  (∀ (s : State) (d : GReg) (v : Word),
     rg s 0 = 0 ∧
     wg s 0 v = s ∧
     (d ≠ 0 → (wg s d v).me.g[d] = v) ∧
     (∀ r : GReg, r ≠ d → (wg s d v).me.g[r] = s.me.g[r]) ∧
     { (wg s d v).me with g := s.me.g } = s.me ∧
     (∀ k, k ≠ s.cur.key → fget Strand.empty (wg s d v).strands k = fget Strand.empty s.strands k) ∧
     { wg s d v with strands := s.strands } = s) ∧
  (∀ (s : State),
     (∀ (r : KReg) (v : BitVec 32), (wk s r v).me.k[r] = v ∧ (∀ j : KReg, j ≠ r → (wk s r v).me.k[j] = s.me.k[j]) ∧
       (wk s r v).me.csr.sstat = s.me.csr.sstat ||| 0x80 ∧
       { (wk s r v).me with k := s.me.k, csr := s.me.csr } = s.me ∧ { wk s r v with strands := s.strands } = s) ∧
     (∀ (r : VReg) (v : Vec), (putV r v s).me.v[r] = v ∧ (∀ j : VReg, j ≠ r → (putV r v s).me.v[j] = s.me.v[j]) ∧
       (putV r v s).me.csr.sstat = s.me.csr.sstat ||| 0x80 ∧
       { (putV r v s).me with v := s.me.v, csr := s.me.csr } = s.me ∧ { putV r v s with strands := s.strands } = s))

/-! ### Integer and address instructions -/

/-- ADD, SUB, ADDI, MUL, MULH, MULHU, with the pointer forms of ADD and SUB (R108, R109, R112): each writes its
destination and completes, and nothing else of the machine changes.
DIV, DIVU, REM, REMU (R113): quotients toward zero; a division by 0 gives all ones and the dividend as remainder;
the overflow gives the dividend and 0. -/
def Obligations.IntegerArithmetic : Prop :=
  (∀ (d a b : GReg) (imm : BitVec 13) (s : State),
     Completes (.add d a b false) s (wg s d (rg s a + rg s b)) ∧
     Completes (.sub d a b false) s (wg s d (rg s a - rg s b)) ∧
     Completes (.add d a b true) s (wg s d (word ((rg s a).toNat / 2 ^ 56 * 2 ^ 56
       + ((rg s a).toNat + (rg s b).toNat) % 2 ^ 56))) ∧
     Completes (.sub d a b true) s (wg s d (word ((rg s a).toNat / 2 ^ 56 * 2 ^ 56
       + (2 ^ 64 + (rg s a).toNat - (rg s b).toNat) % 2 ^ 56))) ∧
     Completes (.addi d a imm) s (wg s d (rg s a + imm.signExtend 64)) ∧
     Completes (.mul d a b) s (wg s d (rg s a * rg s b)) ∧
     Completes (.mulh d a b) s (wg s d (BitVec.ofInt 64 ((rg s a).toInt * (rg s b).toInt / 2 ^ 64))) ∧
     Completes (.mulhu d a b) s (wg s d (word ((rg s a).toNat * (rg s b).toNat / 2 ^ 64)))) ∧
  (∀ (d a b : GReg) (s : State),
     let x := rg s a
     let y := rg s b
     let overflow := x.toInt = -2 ^ 63 ∧ y.toInt = -1
     (y = 0 → Completes (.div d a b) s (wg s d (BitVec.allOnes 64)) ∧
       Completes (.divu d a b) s (wg s d (BitVec.allOnes 64)) ∧
       Completes (.rem d a b) s (wg s d x) ∧ Completes (.remu d a b) s (wg s d x)) ∧
     (overflow → Completes (.div d a b) s (wg s d x) ∧ Completes (.rem d a b) s (wg s d 0)) ∧
     (y ≠ 0 → ¬overflow → Completes (.div d a b) s (wg s d (BitVec.ofInt 64 (x.toInt.tdiv y.toInt))) ∧
       Completes (.rem d a b) s (wg s d (BitVec.ofInt 64 (x.toInt.tmod y.toInt)))) ∧
     (y ≠ 0 → Completes (.divu d a b) s (wg s d (word (x.toNat / y.toNat))) ∧
       Completes (.remu d a b) s (wg s d (word (x.toNat % y.toNat)))))

/-- The logical instructions, the shifts and LIMM (R110, R111, R117): a register shift takes its count modulo 64. -/
def Obligations.IntegerLogic : Prop :=
  ∀ (d a b : GReg) (imm : BitVec 13) (sh : BitVec 6) (c : BitVec 16) (s : State),
    let x := rg s a
    let n := (rg s b).toNat % 64
    Completes (.and d a b) s (wg s d (x &&& rg s b)) ∧
    Completes (.or d a b) s (wg s d (x ||| rg s b)) ∧
    Completes (.xor d a b) s (wg s d (x ^^^ rg s b)) ∧
    Completes (.andi d a imm) s (wg s d (x &&& imm.signExtend 64)) ∧
    Completes (.ori d a imm) s (wg s d (x ||| imm.signExtend 64)) ∧
    Completes (.xori d a imm) s (wg s d (x ^^^ imm.signExtend 64)) ∧
    Completes (.shl d a b) s (wg s d (word (x.toNat * 2 ^ n))) ∧
    Completes (.shr d a b) s (wg s d (word (x.toNat / 2 ^ n))) ∧
    Completes (.sar d a b) s (wg s d (BitVec.ofInt 64 (x.toInt / 2 ^ n))) ∧
    Completes (.shli d a sh) s (wg s d (word (x.toNat * 2 ^ sh.toNat))) ∧
    Completes (.shri d a sh) s (wg s d (word (x.toNat / 2 ^ sh.toNat))) ∧
    Completes (.sari d a sh) s (wg s d (BitVec.ofInt 64 (x.toInt / 2 ^ sh.toNat))) ∧
    Completes (.limm d 0 c) s (wg s d (c.setWidth 64)) ∧
    (∀ sel : BitVec 2, sel ≠ 0 → ∃ v : Word, Completes (.limm d sel c) s (wg s d v) ∧
      v.extractLsb' (16 * sel.toNat) 16 = c ∧
      ∀ i, i < 64 → (i < 16 * sel.toNat ∨ 16 * sel.toNat + 16 ≤ i) → v.getLsbD i = (rg s d).getLsbD i)

/-- SLT, SLTU, SEQ, SEL, MIN, MAX, CLZ, POPC (R114-R116). -/
def Obligations.IntegerCompare : Prop :=
  ∀ (d a b : GReg) (s : State),
    let x := rg s a
    let y := rg s b
    Completes (.slt d a b) s (wg s d (if x.toInt < y.toInt then 1 else 0)) ∧
    Completes (.sltu d a b) s (wg s d (if x.toNat < y.toNat then 1 else 0)) ∧
    Completes (.seq d a b) s (wg s d (if x = y then 1 else 0)) ∧
    Completes (.sel d a b) s (wg s d (if rg s d ≠ 0 then x else y)) ∧
    Completes (.min d a b false) s (wg s d (BitVec.ofInt 64 (min x.toInt y.toInt))) ∧
    Completes (.min d a b true) s (wg s d (word (min x.toNat y.toNat))) ∧
    Completes (.max d a b false) s (wg s d (BitVec.ofInt 64 (max x.toInt y.toInt))) ∧
    Completes (.max d a b true) s (wg s d (word (max x.toNat y.toNat))) ∧
    (∃ n ≤ 64, Completes (.clz d a) s (wg s d (word n)) ∧ x.toNat < 2 ^ (64 - n) ∧
      (n < 64 → 2 ^ (63 - n) ≤ x.toNat)) ∧
    Completes (.popc d a) s (wg s d (word ((List.range 64).filter fun i => x.getLsbD i).length))

/-- PFMT, PGETF, PADDE, PCADDR (R118-R122): the format byte and the address of a fat pointer. PADDE is stated for
formats whose elements have whole bytes. -/
def Obligations.PointerInstructions : Prop :=
  ∀ (d a b : GReg) (imm : BitVec 13) (s : State),
    let x := (rg s a).toNat
    Completes (.pfmt d a b) s (wg s d (word ((rg s b).toNat % 256 * 2 ^ 56 + x % 2 ^ 56))) ∧
    Completes (.pgetf d a 0) s (wg s d (word (x / 2 ^ 56))) ∧
    Completes (.pgetf d a 1) s (wg s d (word (x / 2 ^ 60))) ∧
    Completes (.pgetf d a 2) s (wg s d (word (x / 2 ^ 56 % 16))) ∧
    Completes (.pgetf d a 3) s (wg s d (word (x % 2 ^ 56))) ∧
    (∃ v, Completes (.padde d a b) s (wg s d v) ∧ v.toNat / 2 ^ 56 = x / 2 ^ 56 ∧
      (fmtBad (x / 2 ^ 60) (x / 2 ^ 56 % 16) = false → x / 2 ^ 60 ∉ [6, 7, 8] →
        (v.toNat % 2 ^ 56 : Int) = (x + (rg s b).toInt * (elemBits (x / 2 ^ 60) / 8 : Nat)) % 2 ^ 56)) ∧
    Completes (.pcaddr d imm) s (wg s d (word (addrAdd (wordAddr s) (4 * imm.toInt))))

/-! ### Control transfers and loops -/

/-- NOP and ANOP do nothing; a branch goes to its target, counted in words from its own word, exactly when its
condition holds; CALL writes the address of the next bundle to g31 (R107, R143-R145).
JMP and CALLR go to a register plus an immediate, or raise ALIGN with that address when it is no multiple of 4; the
link is the next bundle and the target is read before it is written (R146). JTAB falls through when its index is not
below the length, and goes by the table's entry otherwise (R147). -/
def Obligations.ControlTransfers : Prop :=
  (∀ (a b : GReg) (off : BitVec 13) (far : BitVec 23) (s : State),
     let x := rg s a
     let y := rg s b
     let goal := jump s (addrAdd (wordAddr s) (4 * off.toInt))
     let farTo (u : State) := jump u (addrAdd (wordAddr s) (4 * far.toInt))
     Completes .nop s s ∧ Completes .anop s s ∧
     Completes (.br far) s (farTo s) ∧
     Completes (.call far) s (farTo (wg s 31 (word s.issue.next))) ∧
     Completes (.beq a b off) s (if x = y then goal else s) ∧
     Completes (.bne a b off) s (if x = y then s else goal) ∧
     Completes (.blt a b off) s (if x.toInt < y.toInt then goal else s) ∧
     Completes (.bge a b off) s (if x.toInt < y.toInt then s else goal) ∧
     Completes (.bltu a b off) s (if x.toNat < y.toNat then goal else s) ∧
     Completes (.bgeu a b off) s (if x.toNat < y.toNat then s else goal)) ∧
  (∀ (d a : GReg) (imm : BitVec 13) (s : State),
     let x := rg s a + imm.signExtend 64
     let e := addrAdd (addrOf (rg s a)) (4 * (rg s d).toNat)
     (x.toNat % 4 = 0 →
       Completes (.jmp a imm) s (jump s (x.toNat % 2 ^ 56)) ∧
       Completes (.callr a imm) s (jump (wg s 31 (word s.issue.next)) (x.toNat % 2 ^ 56))) ∧
     (x.toNat % 4 ≠ 0 →
       Raises (.jmp a imm) s .align x.toNat 3 ∧ Raises (.callr a imm) s .align x.toNat 3) ∧
     (imm.toNat ≤ (rg s d).toNat → Completes (.jtab d a imm) s s) ∧
     ((rg s d).toNat < imm.toNat → e % 4 = 0 → ∀ n s1, load e 4 true s = .ok (n, s1) →
       Completes (.jtab d a imm) s (jump s1 (addrAdd (wordAddr s) (4 * signed 32 n)))))

/-- LOOP (R189): a count of 0 goes to the end of the body; otherwise a level is pushed with the next bundle as its
start, unless two are active, or one with the same end, which raises ILLEGAL_INSTR with SUB 0x0C. LOOPX (R190) leaves
the innermost level, without an end event, when its register is g0 or not 0.
The end event of a completed lone bundle in a loop level (R189): at the end of the body the level goes round while
REMAIN is above 1, and then leaves and goes on past the end. -/
def Obligations.Loops : Prop :=
  (∀ (a : GReg) (imm : BitVec 13) (s : State),
     let e := addrAdd (wordAddr s) (4 * imm.toNat)
     let n := (rg s a).toNat % 2 ^ 48
     (n = 0 → Completes (.loop a imm) s (jump s e)) ∧
     (n ≠ 0 → (s.me.loops = [] ∨ ∃ l, s.me.loops = [l] ∧ l.e ≠ e) →
       ∃ u buf, Completes (.loop a imm) s u ∧
         u.me = { s.me with loops := { b := s.issue.next, e := e, remain := n, buf := buf, recap := false } :: s.me.loops }) ∧
     (n ≠ 0 → ((∃ l, s.me.loops = [l] ∧ l.e = e) ∨ 2 ≤ s.me.loops.length) →
       Raises (.loop a imm) s .illegalInstr (wordAddr s) (halfBit s + 0x0C)) ∧
     (s.me.loops = [] → Completes (.loopx a) s s) ∧
     (a ≠ 0 → rg s a = 0 → Completes (.loopx a) s s) ∧
     (∀ l ls, s.me.loops = l :: ls → (a = 0 ∨ rg s a ≠ 0) →
       ∃ u, Completes (.loopx a) s u ∧ u.me = { s.me with loops := ls } ∧ u.issue.next = l.e ∧ u.issue.noEnd = true)) ∧
  (∀ (s : State) (l : LoopLevel) (ls : List LoopLevel),
     s.issue.half = .lone → s.issue.noEnd = false → s.me.loops = l :: ls → s.issue.lev = ls.length + 1 →
     (l.e ≠ s.issue.next → ∃ t, exec .nop s = .next t ∧ t.me.pc = word s.issue.next ∧ t.me.loops = l :: ls) ∧
     (l.e = s.issue.next → 1 < l.remain → ∃ t, exec .nop s = .next t ∧ t.me.pc = word l.b ∧
       t.me.loops = { l with remain := l.remain - 1 } :: ls) ∧
     (l.e = s.issue.next → l.remain ≤ 1 → ∃ t, exec .nop s = .next t ∧ t.me.pc = word s.issue.next ∧
       t.me.loops = ls))

/-- COURSE in slot 15, and COURSE that names no core but its own or leaves its own out, write 0 at once, after the
strand has left any course it was in; an answered one writes the mask of the course (R187). REALIGN of a strand in no
course goes on (R186). -/
def Obligations.CourseInstructions : Prop :=
  ∀ (d a : GReg) (imm : BitVec 13) (s : State),
    (∀ c v, unitAnswer s.me = some (c, v) → Completes (.course d a) s (wg s d (word v))) ∧
    (unitAnswer s.me = none → s.cur.slot = 15 → Completes (.course d a) s (wg s d 0)) ∧
    (unitAnswer s.me = none → s.cur.slot ≠ 15 →
      (bitAt ((rg s a).toNat % 2 ^ 16) s.cur.core = false ∨ (rg s a).toNat % 2 ^ 16 = 2 ^ s.cur.core) →
      Completes (.course d a) s (wg (leaveCourse s s.cur false) d 0)) ∧
    (courseOf s s.cur = none → Completes (.realign imm) s s)

/-! ### Memory -/

/-- A misaligned access raises ALIGN with its address, before every other check (R153, R154): the scalar loads and
stores, whose address is the base plus the offset in units of the width (R159).
The scalar loads (R159): an aligned address whose bytes are readable and read as `x` gives the destination `x`,
sign-extended for LDB, LDH and LDW, and zero-extended for the others.
The scalar stores (R159): an aligned address whose checks pass gets the low bytes of the register. -/
def Obligations.ScalarAccesses : Prop :=
  (∀ (t base : GReg) (off : BitVec 10) (hint : Bool) (s : State),
     let a (w : Nat) := addrAdd (addrOf (rg s base)) (off.toInt * w)
     (a 2 % 2 ≠ 0 → Raises (.ldh t base off hint) s .align (a 2) 0 ∧
       Raises (.ldhu t base off hint) s .align (a 2) 0 ∧ Raises (.sth t base off hint) s .align (a 2) 1) ∧
     (a 4 % 4 ≠ 0 → Raises (.ldw t base off hint) s .align (a 4) 0 ∧
       Raises (.ldwu t base off hint) s .align (a 4) 0 ∧ Raises (.stw t base off hint) s .align (a 4) 1) ∧
     (a 8 % 8 ≠ 0 → Raises (.ldd t base off hint) s .align (a 8) 0 ∧
       Raises (.std t base off hint) s .align (a 8) 1)) ∧
  (∀ (t base : GReg) (off : BitVec 10) (hint : Bool) (s s1 : State) (x : Nat),
     let a (w : Nat) := addrAdd (addrOf (rg s base)) (off.toInt * w)
     (load (a 1) 1 (!hint) s = .ok (x, s1) →
       Completes (.ldb t base off hint) s (wg s1 t (BitVec.ofInt 64 (signed 8 x))) ∧
       Completes (.ldbu t base off hint) s (wg s1 t (word x))) ∧
     (a 2 % 2 = 0 → load (a 2) 2 (!hint) s = .ok (x, s1) →
       Completes (.ldh t base off hint) s (wg s1 t (BitVec.ofInt 64 (signed 16 x))) ∧
       Completes (.ldhu t base off hint) s (wg s1 t (word x))) ∧
     (a 4 % 4 = 0 → load (a 4) 4 (!hint) s = .ok (x, s1) →
       Completes (.ldw t base off hint) s (wg s1 t (BitVec.ofInt 64 (signed 32 x))) ∧
       Completes (.ldwu t base off hint) s (wg s1 t (word x))) ∧
     (a 8 % 8 = 0 → load (a 8) 8 (!hint) s = .ok (x, s1) →
       Completes (.ldd t base off hint) s (wg s1 t (word x)))) ∧
  (∀ (t base : GReg) (off : BitVec 10) (hint : Bool) (s s1 : State),
     let a (w : Nat) := addrAdd (addrOf (rg s base)) (off.toInt * w)
     let put (w : Nat) := storeBytes (secFuel w) s1 s1 (a w) w (2 ^ w - 1) ((rg s t).toNat % 256 ^ w) (!hint)
     (storeCheck (secFuel 1) (a 1) 1 .store (!hint) s = .ok ((), s1) →
       Completes (.stb t base off hint) s (put 1)) ∧
     (a 2 % 2 = 0 → storeCheck (secFuel 2) (a 2) 2 .store (!hint) s = .ok ((), s1) →
       Completes (.sth t base off hint) s (put 2)) ∧
     (a 4 % 4 = 0 → storeCheck (secFuel 4) (a 4) 4 .store (!hint) s = .ok ((), s1) →
       Completes (.stw t base off hint) s (put 4)) ∧
     (a 8 % 8 = 0 → storeCheck (secFuel 8) (a 8) 8 .store (!hint) s = .ok ((), s1) →
       Completes (.std t base off hint) s (put 8)))

/-- A load of aligned bytes of the strand's own TCM reads the bytes that stand there, lowest first (R4, R151, R152).
The strand has no pending push (R192).
STB, STH, STW and STD to the strand's own TCM (R151, R159) complete, and write exactly the bytes of their width at
their address: byte `i` is byte `i` of the register; every other byte of that TCM, every other TCM, every scratchpad and
all memory of the modules read as before; every register keeps its value. -/
def Obligations.TcmAccesses : Prop :=
  (∀ (s : State) (a w : Nat) (fill : Bool), (w = 1 ∨ w = 2 ∨ w = 4 ∨ w = 8) → a % w = 0 →
     OwnTcm s a w → s.noPush → placedPoison s a w = none →
     load a w fill s = .ok (Memory.readN s.core.tcm (a % 2 ^ 23) w, s)) ∧
  (∀ (t base : GReg) (off : BitVec 10) (hint : Bool) (s : State) (w : Nat) (i : Instr),
     (w = 1 ∧ i = .stb t base off hint ∨ w = 2 ∧ i = .sth t base off hint ∨
       w = 4 ∧ i = .stw t base off hint ∨ w = 8 ∧ i = .std t base off hint) →
     let a := addrAdd (addrOf (rg s base)) (off.toInt * w)
     a % w = 0 → OwnTcm s a w → s.noPush → s.core.tcm.wf = true →
     ∃ u, exec i s = .next u ∧ u.issue.ended = some .done ∧
       (∀ j, j < w → (u.core.tcm.read (a % 2 ^ 23 + j)).toNat = (rg s t).toNat / 256 ^ j % 256) ∧
       (∀ b, (b < a % 2 ^ 23 ∨ a % 2 ^ 23 + w ≤ b) → u.core.tcm.read b = s.core.tcm.read b) ∧
       (∀ k, k ≠ s.cur.coreKey → (u.coreOf k).tcm = (s.coreOf k).tcm) ∧
       (∀ k, (u.cluOf k).spad = (s.cluOf k).spad) ∧ u.mods = s.mods ∧
       u.me.g = s.me.g ∧ u.me.v = s.me.v ∧ u.me.k = s.me.k)

/-- The formatted loads and stores of one element (R161) for a whole-byte, unblocked format: LDF converts the element to
FP32, or reads an integer element as it stands; STF rounds the register's value into the format. Their flags and the
generator are those of the conversion. -/
def Obligations.FormattedScalars : Prop :=
  ∀ (t base : GReg) (off : BitVec 10) (rs : RoundSel) (s s1 s2 : State) (x : Nat),
    let p := rg s base
    let c := fld p 63 60
    let w := elemBits c / 8
    let a := addrAdd (addrOf p) (off.toInt * w)
    let r := roundNum .fp32 (modeOf s rs) (elemNum c x)
    let z := elemRound c (modeOf s rs) (stfValue (rg s t) c) (seedOf s)
    fmtBad c (fld p 59 56) = false → c ≠ 6 → isBlocked c = false → a % w = 0 →
    (load a w true s = .ok (x, s1) →
      (codeIsInt c = false → Completes (.ldf t base off rs) s (setFlags (wg s1 t (word r.1)) r.2)) ∧
      (codeIsInt c = true → (intRange c).1 < 0 →
        Completes (.ldf t base off rs) s (wg s1 t (BitVec.ofInt 64 (signed (elemBits c) x)))) ∧
      (codeIsInt c = true → 0 ≤ (intRange c).1 → Completes (.ldf t base off rs) s (wg s1 t (word x)))) ∧
    (storeCheck (secFuel w) a w .store true s = .ok ((), s2) →
      Completes (.stf t base off rs) s
        (setSeed (setFlags (storeBytes (secFuel w) s2 s2 a w (2 ^ w - 1) z.1 true) (if codeIsInt c then 0 else z.2.1)) z.2.2))

/-- The 32-byte vector accesses without a mask (R162): VLD writes the 32 bytes it reads to its register, VST stores the
32 bytes of its register. A VST whose mask selects no byte stores nothing. -/
def Obligations.VectorAccesses : Prop :=
  ∀ (t : VReg) (base : GReg) (off : BitVec 10) (hint : Bool) (k : KReg) (s s1 : State) (x : Nat),
    let a := addrAdd (addrOf (rg s base)) (off.toInt * 32)
    a % 32 = 0 → unbound s t →
    (load a 32 (!hint) s = .ok (x, s1) → unbound s1 t →
      Completes (.vld t base off hint 0) s (putV t (BitVec.ofNat 256 x) s1)) ∧
    (storeCheck 1 a 1 .store (!hint) s = .ok ((), s1) →
      Completes (.vst t base off hint 0) s
        (storeBytes (secFuel 32) s1 s1 a 32 (2 ^ 32 - 1) (s.view.v[t]).toNat (!hint))) ∧
    (k ≠ 0 → rk s k = 0 → Completes (.vst t base off hint k) s s)

/-- The strided and indexed accesses without a mask (R163, R164): element `i` lies at the base plus `i` strides, or at
the base plus its index in elements. A gather reads every element that its mask selects; a scatter checks every element
before it stores any, and a later element wins. -/
def Obligations.GatherScatter : Prop :=
  ∀ (d : VReg) (a b : GReg) (ix : VReg) (wid : Width) (s s1 : State) (xs : List (Nat × Nat)),
    let w := wid.bytes
    let strided : List (Nat × Nat) := (List.range (32 / w)).map fun (i : Nat) =>
      (i, addrAdd (addrOf (rg s a)) ((i : Int) * (rg s b).toInt))
    let indexed : List (Nat × Nat) := (List.range (32 / w)).map fun (i : Nat) =>
      (i, addrAdd (addrOf (rg s a)) (signed (8 * w) (lane (s.view.v[ix]).toNat (8 * w) i) * w))
    let order := if (rg s b).toInt < 0 then strided.reverse else strided
    let made := BitVec.ofNat 256 (xs.foldl (fun v e => setLane v (8 * w) e.1 e.2) 0)
    unbound s d → unbound s ix →
    (order.all (fun e => e.2 % w = 0) = true → loadEach w order s = .ok (xs, s1) → unbound s1 d →
      Completes (.vlds d a b wid 0) s (putV d made s1)) ∧
    (order.all (fun e => e.2 % w = 0) = true → checkEach w order s = .ok ((), s1) →
      Completes (.vsts d a b wid 0) s (storeEach s1 w (s.view.v[d]).toNat strided)) ∧
    (indexed.all (fun e => e.2 % w = 0) = true → loadEach w indexed s = .ok (xs, s1) → unbound s1 d →
      Completes (.vgath d a ix wid 0) s (putV d made s1)) ∧
    (indexed.all (fun e => e.2 % w = 0) = true → checkEach w indexed s = .ok ((), s1) →
      Completes (.vscat d a ix wid 0) s (storeEach s1 w (s.view.v[d]).toNat indexed))

/-- The formatted vector accesses of an unblocked whole-byte format (R165): a vector's worth of elements from the
offset's vector on, each converted in order. -/
def Obligations.FormattedVectors : Prop :=
  ∀ (t : VReg) (base : GReg) (off : BitVec 10) (ty : VecFmt) (s s1 : State) (xs : List Sys2Proof.Num),
    let p := rg s base
    let c := fld p 63 60
    let k := fld p 59 56
    let dst := if ty = .own then c else (VecFmt.float ty).code
    let e := 256 / elemBits dst
    let r := roundElems dst (defaultMode s) xs (seedOf s)
    let f := VecFmt.float ty
    let n := 256 / f.width
    let a := elemAddr (addrOf p) c (off.toInt * n)
    let z := roundElems c (defaultMode s) ((lanes (s.view.v[t]).toNat f.width n).map (decodeNum f)) (seedOf s)
    let m := n * elemBits c / 8
    fmtBad c k = false → isBlocked c = false → unbound s t →
    (loadElems (addrOf p) c k (off.toInt * e) e s = .ok (xs, s1) → unbound s1 t →
      Completes (.vldf t base off ty) s (setSeed (setFlags (putV t (packV (elemBits dst) r.1) s1) r.2.1) r.2.2)) ∧
    (ty ≠ .own → c ≠ 0 → elemAligned a c .store s = .ok ((), s) →
      storeCheck (secFuel m) a m .store true s = .ok ((), s1) →
      Completes (.vstf t base off ty) s
        (setSeed (setFlags (storeBytes (secFuel m) s1 s1 a m (2 ^ m - 1) (packLanes (elemBits c) z.1) true) z.2.1) z.2.2))

/-- PREF (R160) asks the home for the sector of its address, or for the right to write it, and waits for nothing; it
changes nothing when the address is placed, when the L1 holds the sector, in the frame window in user mode, or past the
module's memory there.
The ordering instructions where nothing waits (R171, R172): a scope within MAXSCOPE, and a release that completes. FENCE
and ACQ make stale sectors of the L1 and fetched elements go. LDAQ loads and then acquires; STRL releases and then stores.
A release issues the strand's pushes, and completes where no target is marked, once the dirty bytes of other packages and
of the host are on their way (R193, R332); with a marked target it sends the probes and waits.
A scope wider than the tenant's MAXSCOPE raises SCOPE_CLAMP under trap-on-clamp, with the scope and MAXSCOPE
(R173). -/
def Obligations.Ordering : Prop :=
  (∀ (kind : PrefKind) (base : GReg) (off : BitVec 10) (s : State),
     let a := addrAdd (addrOf (rg s base)) off.toInt
     ((bitAt a 55 = true ∨ (frameWindow ≤ a ∧ (s.super = false ∨ moduleBytes ≤ a - frameWindow)) ∨
         ∃ x, l1Sec s.core a = some x ∧ x.filled = true) →
       Completes (.pref kind base off) s s) ∧
     (bitAt a 55 = false → (a < frameWindow ∨ s.super = true ∧ a - frameWindow < moduleBytes) → (∀ x, l1Sec s.core a = some x → x.filled = false) →
       ∃ m, m.tenant = s.tenant ∧ m.src = s.cur ∧
         m.body = .read (a / 128) (if kind = .write then .store else .load) true (kind ≠ .readL2) false ∧
         Completes (.pref kind base off) s ((s.send m).spawn (.homeSliceRequest s.cur.mod s.cur)))) ∧
  (∀ (t base : GReg) (wid : Width) (off : BitVec 8) (sc : Scope) (s s1 s2 s3 : State) (x : Nat),
     let w := wid.bytes
     let a := addrAdd (addrOf (rg s base)) (off.toInt * w)
     sc ≠ .none → s.fits sc →
     ((s.acquired sc).fits sc → Completes (.acq sc) s (s.acquired sc)) ∧
     (release sc s = .ok ((), s1) →
       ((s1.acquired sc).fits sc → Completes (.fence sc) s (s1.acquired sc)) ∧
       (s1.fits sc → Completes (.rel sc) s s1)) ∧
     (a % w = 0 → load a w true s = .ok (x, s1) → ((wg s1 t (word x)).acquired sc).fits sc →
       Completes (.ldaq t base wid off sc) s ((wg s1 t (word x)).acquired sc)) ∧
     (a % w = 0 → storeCheck (secFuel w) a w .store true s = .ok ((), s1) → release sc s1 = .ok ((), s2) →
       storeCheck (secFuel w) a w .store true s2 = .ok ((), s3) →
       let u := storeBytes (secFuel w) s3 s3 a w (2 ^ w - 1) ((rg s t).toNat % 256 ^ w) true
       u.fits sc → Completes (.strl t base wid off sc) s u)) ∧
  (∀ (sc : Scope) (s : State), s.fits sc →
     let d := drainPushes s s.cur
     hasReleased d.me = false →
     (marked d d.cur sc = [] → release sc s = .ok ((), writeBackWhere d d.cur.coreKey (moves d d.cur sc []))) ∧
     (marked d d.cur sc ≠ [] → d.me.probes = [] → ∃ u, exec (.rel sc) s = .next u ∧
       u.issue.ended = some (.park .fence true))) ∧
  (∀ (sc : Scope) (s : State), (s.policy s.cur.mod s.tenant).maxscope < sc.code →
     (s.policy s.cur.mod s.tenant).trap = true →
     let n := sc.code + (s.policy s.cur.mod s.tenant).maxscope * 8
     Raises (.fence sc) s .scopeClamp 0 n ∧ Raises (.acq sc) s .scopeClamp 0 n ∧ Raises (.rel sc) s .scopeClamp 0 n)

/-! ### Floating point -/

/-- The scalar floating-point instructions (R123-R129): the operands are the low bits of their registers in the working
format, the exact result is rounded in the written mode or that of FPCTL, the destination is zero-extended, and the flags
of the computation and of the rounding are set.
The conversions (R128, R129): FCVT rounds between two formats, with a draw of the generator in stochastic mode;
FCVTI clamps into the range of the integer type; ICVTF converts the exact integer. -/
def Obligations.ScalarFloat : Prop :=
  (∀ (d a b : GReg) (rs : RoundSel) (ft : FloatFmt) (s : State),
     let f := ft.toCode
     let m := modeOf s rs
     let num (r : GReg) := decodeNum f ((rg s r).toNat % 2 ^ f.width)
     let bitsOf (r : GReg) := (rg s r).toNat % 2 ^ f.width
     let out (r : Sys2Proof.Num × Nat) : State :=
       setFlags (wg s d (word (roundNum f m r.1).1)) (r.2 ||| (roundNum f m r.1).2)
     Completes (.fadd d a b rs ft) s (out (addNum m (num a) (num b))) ∧
     Completes (.fsub d a b rs ft) s (out (addNum m (num a) (num b).neg)) ∧
     Completes (.fmul d a b rs ft) s (out (mulNum (num a) (num b))) ∧
     Completes (.fma d a b rs ft) s (out (
       let p := mulNum (num a) (num b)
       ((addNum m p.1 (num d)).1, p.2 ||| (addNum m p.1 (num d)).2))) ∧
     Completes (.fdiv d a b rs ft) s (out (divNum (num a) (num b))) ∧
     Completes (.fsqrt d a rs ft) s (out (sqrtNum (num a))) ∧
     Completes (.fmin d a b ft) s (wg s d (word (
       if (num a).isNan then (if (num b).isNan then f.nanCode else bitsOf b)
       else if (num b).isNan then bitsOf a else if numLess (num b) (num a) then bitsOf b else bitsOf a))) ∧
     Completes (.fmax d a b ft) s (wg s d (word (
       if (num a).isNan then (if (num b).isNan then f.nanCode else bitsOf b)
       else if (num b).isNan then bitsOf a else if numLess (num a) (num b) then bitsOf b else bitsOf a))) ∧
     Completes (.fcmp d a b ft) s (wg s d (
       match cmpNum (num a) (num b) with
       | some .lt => 1
       | some .eq => 2
       | some .gt => 4
       | none => 8))) ∧
  (∀ (d a : GReg) (other : FloatCode) (ity : IntTy) (rs : RoundSel) (ft : FloatFmt) (s : State),
     let f := ft.toCode
     let m := modeOf s rs
     let low (g : FloatCode) := decodeNum g ((rg s a).toNat % 2 ^ g.width)
     let r1 := roundSt f m (low other) s.me.csr.rndseed
     let r2 := roundSt other m (low f) s.me.csr.rndseed
     let x := rg s a
     let int := match ity with
       | .i32 => (x.setWidth 32).toInt
       | .u32 => ((x.setWidth 32).toNat : Int)
       | .i64 => x.toInt
       | .u64 => (x.toNat : Int)
     let range : Int × Int := match ity with
       | .i32 => (-2 ^ 31, 2 ^ 31 - 1)
       | .u32 => (0, 2 ^ 32 - 1)
       | .i64 => (-2 ^ 63, 2 ^ 63 - 1)
       | .u64 => (0, 2 ^ 64 - 1)
     let v := toIntRange m range.1 range.2 (low f)
     let r3 := roundNum f m (intNum int)
     Completes (.fcvt d a true other rs ft) s (setSeed (setFlags (wg s d (word r1.1)) r1.2.1) r1.2.2) ∧
     Completes (.fcvt d a false other rs ft) s (setSeed (setFlags (wg s d (word r2.1)) r2.2.1) r2.2.2) ∧
     Completes (.fcvti d a ity rs ft) s (setFlags (wg s d (BitVec.ofInt 64 v.1)) v.2) ∧
     Completes (.icvtf d a ity rs ft) s (setFlags (wg s d (word r3.1)) r3.2))

/-! ### Vectors -/

/-- The element-wise integer operations on registers without streams (R131-R133): results modulo the element width, or
clamped with SAT; inactive elements keep their values. -/
def Obligations.VectorInteger : Prop :=
  ∀ (d a b : VReg) (k : KReg) (ty : EType) (rm : Rounding) (s : State),
    unbound s d → unbound s a → unbound s b → ty.isInt = true →
    let x (i : Nat) := intElem ty (lane (s.view.v[a]).toNat ty.width i)
    let y (i : Nat) := intElem ty (lane (s.view.v[b]).toNat ty.width i)
    let z (i : Nat) := intElem ty (lane (s.view.v[d]).toNat ty.width i)
    let out (f : Nat → Int) := vectorResult s d k ty fun i => (wrap ty.width (f i), 0)
    let clamp (v : Int) := max (typeRange ty).1 (min (typeRange ty).2 v)
    Completes (.vadd d a b k ty rm false) s (out fun i => x i + y i) ∧
    Completes (.vadd d a b k ty rm true) s (out fun i => clamp (x i + y i)) ∧
    Completes (.vsub d a b k ty rm false) s (out fun i => x i - y i) ∧
    Completes (.vsub d a b k ty rm true) s (out fun i => clamp (x i - y i)) ∧
    Completes (.vmul d a b k ty rm) s (out fun i => x i * y i) ∧
    Completes (.vfma d a b k ty rm) s (out fun i => x i * y i + z i) ∧
    Completes (.vmax d a b k ty) s (out fun i => max (x i) (y i)) ∧
    Completes (.vmin d a b k ty) s (out fun i => min (x i) (y i)) ∧
    Completes (.vshl d a b k ty) s (out fun i =>
      (lane (s.view.v[a]).toNat ty.width i * 2 ^ (lane (s.view.v[b]).toNat ty.width i % ty.width) : Nat)) ∧
    Completes (.vshr d a b k ty false) s (out fun i =>
      x i / (2 ^ (lane (s.view.v[b]).toNat ty.width i % ty.width) : Nat)) ∧
    Completes (.vshr d a b k ty true) s (out fun i =>
      (lane (s.view.v[a]).toNat ty.width i / 2 ^ (lane (s.view.v[b]).toNat ty.width i % ty.width) : Nat))

/-- The element-wise floating operations on registers without streams (R131-R133, R39): each exact result is rounded in
the written mode, and sets the flags of its element. -/
def Obligations.VectorFloat : Prop :=
  ∀ (d a b : VReg) (k : KReg) (ty : EType) (rm : Rounding) (sat : Bool) (s : State),
    unbound s d → unbound s a → unbound s b →
    let f := EType.float ty
    let x (i : Nat) := decodeNum f (lane (s.view.v[a]).toNat ty.width i)
    let y (i : Nat) := decodeNum f (lane (s.view.v[b]).toNat ty.width i)
    let z (i : Nat) := decodeNum f (lane (s.view.v[d]).toNat ty.width i)
    let out (g : Nat → Sys2Proof.Num × Nat) := vectorResult s d k ty fun i =>
      ((roundNum f rm (g i).1).1, (g i).2 ||| (roundNum f rm (g i).1).2)
    (ty.isWF = true →
      Completes (.vadd d a b k ty rm sat) s (out fun i => addNum rm (x i) (y i)) ∧
      Completes (.vsub d a b k ty rm sat) s (out fun i => addNum rm (x i) (y i).neg) ∧
      Completes (.vmul d a b k ty rm) s (out fun i => mulNum (x i) (y i)) ∧
      Completes (.vfma d a b k ty rm) s (out fun i =>
        ((addNum rm (mulNum (x i) (y i)).1 (z i)).1,
          (mulNum (x i) (y i)).2 ||| (addNum rm (mulNum (x i) (y i)).1 (z i)).2)) ∧
      Completes (.vrcp d a k ty rm) s (out fun i => divNum (.fin false 1 0) (x i)) ∧
      Completes (.vmax d a b k ty) s (vectorResult s d k ty fun i =>
        (maxCodeOf f (lane (s.view.v[a]).toNat ty.width i) (lane (s.view.v[b]).toNat ty.width i), 0)) ∧
      Completes (.vmin d a b k ty) s (vectorResult s d k ty fun i =>
        (minCode f (lane (s.view.v[a]).toNat ty.width i) (lane (s.view.v[b]).toNat ty.width i), 0))) ∧
    Completes (.vexp d a k) s (vectorResult s d k .f32 fun i => expFp32 (lane (s.view.v[a]).toNat 32 i))

/-- The bitwise operations, selection and permutation on registers without streams (R133, R134, R139). -/
def Obligations.VectorBits : Prop :=
  ∀ (d a b : VReg) (k : KReg) (ty : EType) (z : Bool) (s : State),
    unbound s d → unbound s a → unbound s b →
    let x (i : Nat) := lane (s.view.v[a]).toNat ty.width i
    let y (i : Nat) := lane (s.view.v[b]).toNat ty.width i
    Completes (.vand d a b k ty) s (vectorResult s d k ty fun i => (x i &&& y i, 0)) ∧
    Completes (.vor d a b k ty) s (vectorResult s d k ty fun i => (x i ||| y i, 0)) ∧
    Completes (.vxor d a b k ty) s (vectorResult s d k ty fun i => (x i ^^^ y i, 0)) ∧
    Completes (.vsel d a b k ty) s (putV d (packV ty.width ((List.range ty.count).map fun i =>
      if activeElem s k ty i then x i else y i)) s) ∧
    Completes (.vperm d a b k ty z) s (vectorResult s d k ty fun i =>
      if z = true ∧ ty.count ≤ y i then (0, 0) else (x (y i % ty.count), 0))

/-- Comparison, reduction, dot product and ranking on registers without streams (R134, R136-R138), which complete on any
operands. VCMP writes the mask of the active elements for which its condition holds. VREDSUM and VDOT add the active
elements or products, exactly modulo 2^32 for integers and by quadsum in the format ACC otherwise. VREDMAX gives the
largest active element, the canonical NaN where all are NaN, and the lowest value where none is active. VTOPK ranks the
active elements from the largest down, ties by index, a NaN as −∞ with NV; unused bytes are 0xFF. -/
def Obligations.VectorReductions : Prop :=
  ∀ (c : KReg) (d a b : VReg) (k : KReg) (ty : EType) (cond : VCond) (acc : FloatFmt) (n : BitVec 4) (s : State),
    unbound s a →
    let x (i : Nat) := lane (s.view.v[a]).toNat ty.width i
    let y (i : Nat) := lane (s.view.v[b]).toNat ty.width i
    let act := (List.range ty.count).filter (activeElem s k ty)
    let f := acc.toCode
    let g := EType.float ty
    let rank (i : Nat) := if (numElem ty (x i)).isNan then Sys2Proof.Num.inf true else numElem ty (x i)
    let before (i j : Nat) : Prop := cmpNum (rank i) (rank j) = some .gt ∨ (cmpNum (rank i) (rank j) = some .eq ∧ i < j)
    (unbound s b → ∃ m : BitVec 32, Completes (.vcmp c a b k ty cond) s (wk s c m) ∧
      ∀ i, i < 32 → m.getLsbD i = (decide (i < ty.count) && activeElem s k ty i
        && condHolds cond (cmpNum (numElem ty (x i)) (numElem ty (y i))))) ∧
    (unbound s b → unbound s d →
      (ty.isInt = true →
        Completes (.vredsum d a b k ty acc) s (putV d (BitVec.ofNat 256 (wrap 32
          (signed 32 (s.view.v[b]).toNat + (act.map fun i => intElem ty (x i)).sum))) s) ∧
        Completes (.vdot d a b k ty acc) s (putV d (BitVec.ofNat 256 (setLane (s.view.v[d]).toNat 32 0 (wrap 32
          (signed 32 (s.view.v[d]).toNat + (act.map fun i => intElem ty (x i) * intElem ty (y i)).sum)))) s)) ∧
      (ty.isInt = false →
        let r := quadsum f ((s.view.v[b]).toNat % 2 ^ f.width) ((List.range ty.count).map fun i =>
          if activeElem s k ty i then numElem ty (x i) else .fin false 0 0)
        let ts := (List.range ty.count).map fun i =>
          if activeElem s k ty i then mulNum (numElem ty (x i)) (numElem ty (y i)) else (.fin false 0 0, 0)
        let q := quadsum f ((s.view.v[d]).toNat % 2 ^ f.width) (ts.map (·.1))
        Completes (.vredsum d a b k ty acc) s (setFlags (putV d (BitVec.ofNat 256 r.1) s) r.2) ∧
        Completes (.vdot d a b k ty acc) s
          (setFlags (putV d (BitVec.ofNat 256 (setLane (s.view.v[d]).toNat f.width 0 q.1)) s)
            (q.2 ||| ts.foldl (fun m e => m ||| e.2) 0)))) ∧
    (unbound s d → ∃ m : Nat, Completes (.vredmax d a k ty) s (putV d (BitVec.ofNat 256 m) s) ∧
      (act = [] → m = if ty.isInt then wrap ty.width (typeRange ty).1 else 2 ^ (g.width - 1) + g.infCode) ∧
      (ty.isInt = true → act ≠ [] → m ∈ act.map x ∧ ∀ i ∈ act, intElem ty (x i) ≤ intElem ty m) ∧
      (∀ e es, ty.isInt = false → act.map x = e :: es →
        m = if (decodeNum g (es.foldl (maxCodeOf g) e)).isNan then g.nanCode else es.foldl (maxCodeOf g) e)) ∧
    (unbound s d → ∃ r : List Nat, r.Perm act ∧
      (∀ j i i', r[j]? = some i → r[j + 1]? = some i' → before i i') ∧
      Completes (.vtopk d a n k ty) s (setFlags (putV d (packV 8 ((List.range 32).map fun j =>
          if j ≤ n.toNat then (r[j]?).getD 0xFF else 0xFF)) s)
        (if act.any fun i => (numElem ty (x i)).isNan then flNV else 0)))

/-- VCVT of vectors without streams (R135): the elements of the part are converted in ascending order, each active one
with a draw of the generator where its rounding is stochastic; the other elements of the destination stay.
The moves between vector and general registers without streams (R140): the index is taken modulo the number of
elements. -/
def Obligations.VectorMoves : Prop :=
  (∀ (d a : VReg) (src dst : EType) (k : KReg) (rm : Rounding) (part : BitVec 3) (s : State),
     unbound s d → unbound s a →
     let n := min src.count dst.count
     let soff := if dst.count < src.count then part.toNat * n else 0
     let doff := if src.count < dst.count then part.toNat * n else 0
     let old := if k ≠ 0 ∨ src.count < dst.count then (s.view.v[d]).toNat else 0
     let r := convertAll src dst rm (fun j => maskBit s k (if n = 64 then j / 2 else j)) (s.view.v[a]).toNat soff doff n 0
       old 0 s.me.csr.rndseed
     Completes (.vcvt d a dst k src rm part) s (setSeed (setFlags (putV d (BitVec.ofNat 256 r.1) s) r.2.1) r.2.2)) ∧
  (∀ (vd va : VReg) (gd ga gb : GReg) (wid : Width) (s : State),
     unbound s vd → unbound s va →
     let w := 8 * wid.bytes
     let i := (rg s gb).toNat % (256 / w)
     Completes (.vsplat vd ga wid) s (putV vd (packV w (List.replicate (256 / w) (rg s ga).toNat)) s) ∧
     Completes (.vmovg gd va gb wid false) s (wg s gd (word (lane (s.view.v[va]).toNat w i))) ∧
     Completes (.vmovg gd va gb wid true) s (wg s gd (BitVec.ofInt 64 (signed w (lane (s.view.v[va]).toNat w i)))) ∧
     Completes (.vmovv vd ga gb wid) s
       (putV vd (BitVec.ofNat 256 (setLane (s.view.v[vd]).toNat w i (rg s ga).toNat)) s))

/-! ### Atomics, waits and barriers -/

/-- The atomics (R166-R169): a misaligned address raises ALIGN; otherwise the destination gets the old value and the
bytes the new one, where the access is checked: at a bank of the own core or cluster, in the core's L1 with NEAR, or at
the home, whose answer the bundle then holds. With no destination and no acquire a far one is sent and not waited for, and
otherwise the strand waits for its answer. An acquire follows with AQ; a release before it has completed, and no scope is
narrowed.
What an atomic makes of the old value (R167), for the operations on integers: `w` bytes, `old` and `v` within
them. -/
def Obligations.Atomics : Prop :=
  (∀ (op : AmoOp) (d a b : GReg) (wid : Width) (sc : Scope) (near rl aq : Bool) (s s1 s2 s3 : State) (old : Nat),
     let w := wid.bytes
     let x := addrOf (rg s a)
     let v := (rg s b).toNat % 256 ^ w
     let e := (rg s d).toNat % 256 ^ w
     let i := amoInstr op d a b wid sc near rl aq
     let out (u : State) : State := if aq then (wg u d (word old)).acquired sc else wg u d (word old)
     let made (u : State) : State := match amoNew op w old v e with
       | none => u
       | some y => placedStore u x w (2 ^ w - 1) y
     let freed (u u' : State) : Prop := if rl = true then release sc u = .ok ((), u') else u' = u
     s.fits sc →
     (x % w ≠ 0 → Raises i s .align x 2) ∧
     (x % w = 0 → bitAt x 55 = true → placedStoreCheck x .atomic s = .ok ((), s1) → freed s1 s2 →
       placedLoad x w .atomic s2 = .ok (old, s3) → (made s3).fits sc → Completes i s (out (made s3))) ∧
     (x % w = 0 → bitAt x 55 = false → oldResp s.me = some (.ok, old, false) → Completes i s (out s)) ∧
     (∀ at' dat po, x % w = 0 → bitAt x 55 = false → oldResp s.me = none → hasAsked s.me (farKey x) = false →
       sectorFor x w .atomic near near s = .ok ((at', dat, po), s1) → freed s1 s2 →
       let isNear : Prop := near = true ∧ at'.c = true ∧ at'.holder = s.pkgOf s.cur.mod
       (isNear → amoNear x w op v e s2 = .ok (old, s3) → s3.fits sc →
         Completes i s (out s3)) ∧
       (∀ l o, isNear → l1Line s2.core x = some l → l1Sec s2.core x = some o → o.serves x w = true →
         (poisonHit o.poison x w = true → Raises i s .dataError x 2) ∧
         (poisonHit o.poison x w = false → amoNear x w op v e s2 = .ok (o.data / 256 ^ (x % 128) % 256 ^ w,
           match amoNew op w (o.data / 256 ^ (x % 128) % 256 ^ w) v e with
           | none => s2
           | some y => l1Write s2 x w (2 ^ w - 1) y l { o with near := true }))) ∧
       (¬isNear → d = 0 → aq = false → (sendFar s2 x wid op v e at' true).fits sc →
         Completes i s (sendFar s2 x wid op v e at' true)) ∧
       (¬isNear → d ≠ 0 ∨ aq = true → ∃ u, exec i s = .next u ∧ u.issue.ended = some (.park .mem true)))) ∧
  (∀ (w old v e : Nat), (w = 4 ∨ w = 8) → old < 256 ^ w → v < 256 ^ w →
     amoNew .add w old v e = some ((old + v) % 256 ^ w) ∧
     amoNew .swp w old v e = some v ∧
     (old = e → amoNew .cas w old v e = some v) ∧
     (old ≠ e → amoNew .cas w old v e = none) ∧
     amoNew .minu w old v e = some (min old v) ∧
     amoNew .maxu w old v e = some (max old v) ∧
     (∃ m, amoNew .min w old v e = some m ∧ m ∈ [old, v] ∧
       signed (8 * w) m = min (signed (8 * w) old) (signed (8 * w) v)) ∧
     (∃ m, amoNew .max w old v e = some m ∧ m ∈ [old, v] ∧
       signed (8 * w) m = max (signed (8 * w) old) (signed (8 * w) v)) ∧
     (∃ m, amoNew .and w old v e = some m ∧ ∀ j, m.testBit j = (old.testBit j && v.testBit j)) ∧
     (∃ m, amoNew .or w old v e = some m ∧ ∀ j, m.testBit j = (old.testBit j || v.testBit j)) ∧
     (∃ m, amoNew .xor w old v e = some m ∧ ∀ j, m.testBit j = (old.testBit j ^^ v.testBit j)))

/-- WAITW (R229) goes on with the word when it differs from its operand, and waits at its address while they are equal;
WFE (R231) takes the event latch, or waits for it; SEV (R232) sends an event to a core that exists, after its release,
reaches a slot of its own core at once, and raises PROT where there is none. -/
def Obligations.WaitsAndEvents : Prop :=
  ∀ (d a b : GReg) (wid : Width) (sc : Scope) (all : Bool) (s s1 : State) (v m : Nat),
    let w := wid.bytes
    let x := addrOf (rg s a)
    let t := (rg s a).toNat
    let core := coreKey m (bits t 22 17) (bits t 16 8) (bits t 7 4)
    (x % w = 0 → waitPlace x w = true → placedLoad x w .load s = .ok (v, s1) →
      (v ≠ (rg s b).toNat % 256 ^ w → Completes (.waitw d a b wid) s (wg s1 d (word v))) ∧
      (v = (rg s b).toNat % 256 ^ w → ∃ u sent, exec (.waitw d a b wid) s = .next u ∧
        u.issue.ended = some (.park .waitw sent) ∧ u.me.pc = s1.me.pc ∧ u.me.g = s1.me.g)) ∧
    (s.me.latch = true → Completes .wfe s (s.modMe fun y => { y with latch := false })) ∧
    (s.me.latch = false → Waits .wfe s .wfe) ∧
    (s.fits sc → s.modWith (bits t 34 23) = some m → bits t 16 8 < 400 →
      (s.modOf m).diesUp.contains (bits t 22 17) = true → release sc s = .ok ((), s1) → s1.fits sc →
      (core ≠ s1.cur.coreKey → Completes (.sev a sc all) s
        ((s1.note (.event s1.cur m core (bits t 3 0) all s1.tenant
          (s1.ticks + flight (placeNode s1.cur) (nodeOf (coreClu core))))).spawn (.sevEvent s1.cur))) ∧
      (core = s1.cur.coreKey → Completes (.sev a sc all) s (deliverEvent core (bits t 3 0) all s1.tenant s1))) ∧
    (s.fits sc → s.modWith (bits t 34 23) = none → Raises (.sev a sc all) s .prot 0 1) ∧
    (x % w = 0 → bitAt x 55 = false → Raises (.waitw d a b wid) s .prot x 0) ∧
    (∀ p : Place, ∃ u, exec (.waitwMonitorFire p) s = .next u ∧
      ((s.strand p).st = .parked .waitw → (u.strand p).st = .ready)) ∧
    (∀ (p : Place) rest slot tenant due, s.notes = .event p m core slot all tenant due :: rest → due ≤ s.ticks →
      reaches (s.strand (placeOf core slot)) tenant = true → slot < 16 →
      ∃ u, exec (.sevEvent p) s = .next u ∧ u.notes = rest ∧ (u.strand (placeOf core slot)).latch = true ∧
        ((s.strand (placeOf core slot)).st = .parked .wfe → (u.strand (placeOf core slot)).st = .ready))

/-- The barrier instructions (R256, R258) where their reads pass: BARARR releases, takes one arrival off, and writes the
phase it read; BARWT goes on once the phase differs, with an acquire; BARXB adds bytes. One more arrival than is expected,
or more bytes than the field holds, raises BARRIER_OVERFLOW and changes nothing. The last arrival of a phase, with no
bytes pending, turns the phase and starts the next one. -/
def Obligations.Barriers : Prop :=
  ∀ (d a b : GReg) (sc : Scope) (s s1 s2 : State) (v : Nat),
    let x := addrOf (rg s a)
    let n := (rg s b).toNat
    (barRead x .atomic s = .ok (v, s1) → s.fits sc →
      (barRemaining v = 0 → Raises (.bararr d a sc) s .barrierOverflow x 0) ∧
      (barRemaining v ≠ 0 → release sc s1 = .ok ((), s2) → (placedStore s2 x 16 (2 ^ 16 - 1) (barArrive v)).fits sc →
        Completes (.bararr d a sc) s
          (wg (placedStore s2 x 16 (2 ^ 16 - 1) (barArrive v)) d (word (barPhase v))))) ∧
    (barRead x .load s = .ok (v, s1) → s.fits sc → (s1.acquired sc).fits sc → barPhase v ≠ n % 2 →
      Completes (.barwt a b sc) s (s1.acquired sc)) ∧
    (barRead x .load s = .ok (v, s1) → s.fits sc → barPhase v = n % 2 →
      ∃ u sent, exec (.barwt a b sc) s = .next u ∧ u.issue.ended = some (.park .barrier sent)) ∧
    (barRead x .atomic s = .ok (v, s1) →
      (barPending v + n ≤ 2 ^ 36 - 1 → Completes (.barxb a b) s
        (placedStore s1 x 16 (2 ^ 16 - 1) (barAdd v n))) ∧
      (2 ^ 36 - 1 < barPending v + n → Raises (.barxb a b) s .barrierOverflow x 0)) ∧
    (1 < barRemaining v ∨ (barRemaining v = 1 ∧ barPending v ≠ 0) →
      barRemaining (barArrive v) = barRemaining v - 1 ∧ barPending (barArrive v) = barPending v ∧
        barPhase (barArrive v) = barPhase v ∧ barExpected (barArrive v) = barExpected v) ∧
    (barRemaining v = 1 → barPending v = 0 →
      barRemaining (barArrive v) = barExpected v ∧ barPending (barArrive v) = 0 ∧
        barPhase (barArrive v) = 1 - barPhase v ∧ barExpected (barArrive v) = barExpected v)

/-! ### Stream units and control registers -/

/-- The stream instructions (R194). SCFG loads a descriptor of 64 bytes from the strand's own TCM or scratchpad into the
lowest free unit and writes its number, or all ones where no unit is free; a descriptor elsewhere raises PROT. SBIND binds
a unit of the strand to a register without a stream, from position 0. SFREE zeroes the register and frees the unit, SPOS
reads the position and may set it: both wait for pending pushes. Each raises ILLEGAL_INSTR on a unit it may not use.
The steps of a stream unit. A fetch (R193) adds the next element of a bound load stream, with fewer than 8 taken ahead
and one left; a push (R192) performs the strand's oldest pending store and leaves the others; each wakes a strand that waits for its
stream, unless it still waits for a unit (R196). -/
def Obligations.StreamUnits : Prop :=
  (∀ (d a b : GReg) (r q : VReg) (wr : Bool) (s s1 : State) (dd : Nat),
     let x := addrOf (rg s a)
     let n := (rg s a).toNat % 4
     let u := nth SUnit.free s.core.units n
     let new := unitOf dd s.cur.slot x
     let mine : Prop := u.owner = some s.cur.slot
     let calm : Prop := bits x 55 54 = 3 ∨ s.clu.busy = false
     let fetch (t : State) : State := t.spawn (.streamElementFetch s.cur.coreKey n)
     let free (t : State) : State := t.modUnit s.cur.coreKey n fun _ => SUnit.free
     let moved : State := (wg s d (word u.pos)).modUnit s.cur.coreKey n fun y =>
       { y with pos := (rg s b).toNat % 2 ^ 32, fetched := [] }
     let start : State := s.modUnit s.cur.coreKey n fun y =>
       { y with bound := some r.val, wr := wr, pos := 0, fetched := [], pushes := [] }
     (bits x 55 54 = 2 → s.clu.busy = true → Waits (.scfg d a) s .mem) ∧
     (calm → ownPlace s x 64 = false → Raises (.scfg d a) s .prot x 0) ∧
     (calm → ownPlace s x 64 = true → x % 64 ≠ 0 → Raises (.scfg d a) s .align x 0) ∧
     (calm → ownPlace s x 64 = true → x % 64 = 0 → placedLoad x 64 .load s = .ok (dd, s1) →
       bits dd 63 56 = 0 → dd / 2 ^ 448 % 2 ^ 64 = 0 → new.count < 2 ^ 32 → new.base % 32 = 0 →
       (∀ t ∈ new.str, t % 32 = 0) →
       (∀ i, i < 4 → (nth SUnit.free s1.core.units i).owner = none →
         (∀ j, j < i → (nth SUnit.free s1.core.units j).owner ≠ none) →
         Completes (.scfg d a) s (wg (s1.modUnit s1.cur.coreKey i fun _ => new) d (word i))) ∧
       ((∀ j, j < 4 → (nth SUnit.free s1.core.units j).owner ≠ none) →
         Completes (.scfg d a) s (wg s1 d (word 0xFFFFFFFFFFFFFFFF)))) ∧
     (mine → u.bound = none → unbound s r →
       Completes (.sbind r a wr) s (if wr then start else fetch start)) ∧
     (¬mine ∨ u.bound ≠ none ∨ ¬unbound s r →
       Raises (.sbind r a wr) s .illegalInstr (wordAddr s) (halfBit s + 0x3F)) ∧
     (mine → u.pushes = [] → u.bound = none → Completes (.sfree a) s (free s)) ∧
     (mine → u.pushes = [] → u.bound = some q.val →
       Completes (.sfree a) s (free (s.modMe fun y => { y with v := y.v.set q 0 }))) ∧
     (mine → u.pushes ≠ [] → Waits (.sfree a) s .stream) ∧
     (¬mine → Raises (.sfree a) s .illegalInstr (wordAddr s) (halfBit s + 0x40)) ∧
     (mine → u.bound ≠ none → Completes (.spos d a b false) s (wg s d (word u.pos)) ∧
       (u.pushes = [] → Completes (.spos d a b true) s (if u.wr then moved else fetch moved)) ∧
       (u.pushes ≠ [] → Waits (.spos d a b true) s .stream)) ∧
     (¬mine ∨ u.bound = none →
       Raises (.spos d a b wr) s .illegalInstr (wordAddr s) (halfBit s + 0x41))) ∧
  (∀ (core n slot : Nat) (s s1 : State) (e : Elem) (w : Push) (rest : List Push),
     let u := nth SUnit.free (s.coreOf core).units n
     let p := placeOf core slot
     let j := u.pos + u.fetched.length
     u.owner = some slot →
     (u.bound ≠ none → u.wr = false → j < u.count → u.fetched.length < 8 →
       asPlace p (streamLoad (u.addr j)) s = (some e, s1) →
       exec (.streamElementFetch core n) s =
         .next (((s1.modUnit core n fun y => { y with fetched := y.fetched ++ [(j, e)] }).modStrand p
           wakeStream).spawn (.streamElementFetch core n))) ∧
     (u.pushes = w :: rest → oldestUnit (s.coreOf core) slot = some n →
       exec (.streamPush core n) s =
         .next (((asPlace p (fun t => ((), pushStore w t)) s).2.modUnit core n fun y =>
           { y with pushes := rest }).modStrand p wakeStream)) ∧
     (∀ y : Strand, (y.rebind = [] → wakeStream y = y.wakeIf [.stream]) ∧ (y.rebind ≠ [] → wakeStream y = y)))

/-- The CSR instructions (R84, R101): CSRR reads a register, CSRW writes it, CSRX does both in one step and gives the value
read; a register of supervisor mode, or a write that user mode may not make, raises PRIV in user mode; a reserved number
raises RESERVED_FIELD. A read of DIEERRLOG removes the record it gives (R320).
What supervisor mode writes into the registers of an exception and of the strand (R86, R87, R96, R101, R319): each
field that can be written takes its bits and the others stay; IPEND clears where ones are written; a 1 to VUSED clears the
mask registers and every vector register without a stream; user mode may not change MODE, IE, PIE, PMODE and TL; FAULTACK
sends the wake of a token. -/
def Obligations.ControlRegisters : Prop :=
  (∀ (d a : GReg) (n : BitVec 12) (v : Word) (s s1 s2 : State),
     let r := n.toNat
     let readable : Prop := s.super = true ∨ csrSuper r = false
     let writable : Prop := s.super = true ∨ (csrSuper r = false ∧ csrUserWrite r = true)
     let at' := wordAddr s
     let h := halfBit s
     (csrAssigned r = false → Raises (.csrr d n) s .reservedField at' h ∧ Raises (.csrw a n) s .reservedField at' h ∧
       Raises (.csrx d a n) s .reservedField at' h) ∧
     (csrAssigned r = true →
       (¬readable → Raises (.csrr d n) s .priv at' (h + 0x5E)) ∧
       (¬writable → Raises (.csrw a n) s .priv at' (h + 0x5F) ∧ Raises (.csrx d a n) s .priv at' (h + 0x60)) ∧
       (readable → csrRead s r = some v → r ≠ 0x301 → Completes (.csrr d n) s (wg s d v)) ∧
       (readable → csrRead s r = some v → r = 0x301 →
         Completes (.csrr d n) s (wg (popRecord s s.cur.dieKey s.tenant) d v)) ∧
       (writable → csrWrite 0x5F r (rg s a) s = .ok ((), s1) → Completes (.csrw a n) s s1) ∧
       (writable → csrTake r s = .ok (v, s1) → csrWrite 0x60 r (rg s a) s1 = .ok ((), s2) →
         Completes (.csrx d a n) s (wg s2 d v)) ∧
       (writable → csrWrite 0x5F r v s = .ok ((), s1) → Completes (.registerWrite n v) s s1)) ∧
     (s.super = true → csrRead s 0x301 = some v →
       Completes (.dieerrlog d) s (wg (popRecord s s.cur.dieKey s.tenant) d v)) ∧
     (s.super = false → Raises (.dieerrlog d) s .priv at' (h + 0x5E)) ∧
     (∀ dk vf, (fget ([], false) ((popRecord s dk vf).dieOf dk).logs vf).1
       = (fget ([], false) (s.dieOf dk).logs vf).1.drop 1) ∧
     (∀ (m : Nat) (old : Word) (j : Nat), j < 64 →
       (mergeMask m old v).getLsbD j = if m.testBit j then v.getLsbD j else old.getLsbD j)) ∧
  (∀ (a : GReg) (v : Word) (s : State),
     let w := rg s a
     let put (f : StrandCsr → StrandCsr) : State := s.modCsr f
     let stat (y : Word) : State := s.modCsr fun c => { c with sstat := mergeMask 0x7F c.sstat y }
     let bad : Prop := s.super = false ∧ s.me.csr.sstat &&& sstatGuard ≠ v &&& sstatGuard
     (s.super = true →
       Completes (.csrw a 0x001) s (put fun c => { c with epc := mergeMask (2 ^ 64 - 4) c.epc w }) ∧
       Completes (.csrw a 0x002) s (put fun c => { c with ecause := mergeMask (2 ^ 63 + 0xFF) c.ecause w }) ∧
       Completes (.csrw a 0x003) s (put fun c => { c with eaddr := w }) ∧
       Completes (.csrw a 0x004) s (put fun c => { c with einfo := w }) ∧
       Completes (.csrw a 0x005) s (put fun c => { c with evec := mergeMask (2 ^ 56 - 7) c.evec w }) ∧
       Completes (.csrw a 0x006) s (put fun c => { c with escratch := w }) ∧
       Completes (.csrw a 0x00B) s (put fun c => { c with groups := mergeMask (2 ^ 36 - 1) c.groups w }) ∧
       Completes (.csrw a 0x014) s (put fun c => { c with ipend := c.ipend &&& ~~~(w &&& 7) }) ∧
       Completes (.csrw a 0x015) s (put fun c => { c with imask := mergeMask 7 c.imask w }) ∧
       Completes (.csrw a 0x016) s (put fun c => { c with itimer := mergeMask (2 ^ 63 + 2 ^ 48 - 1) c.itimer w }) ∧
       Completes (.ipendClear v) s (put fun c => { c with ipend := c.ipend &&& ~~~(v &&& 7) }) ∧
       Completes (.faultack v) s (sendWake s v)) ∧
     Completes (.csrw a 0x008) s (put fun c => { c with fpctl := mergeMask 0x1F3 c.fpctl w }) ∧
     Completes (.csrw a 0x009) s (put fun c => { c with rndseed := BitVec.ofNat 32 w.toNat }) ∧
     Completes (.csrw a 0x010) s (put fun c => { c with ixmask := w }) ∧
     (¬bad → bitAt v.toNat 7 = false → Completes (.sstatWrite v) s (stat v)) ∧
     (¬bad → bitAt v.toNat 7 = true → Completes (.sstatWrite v) s (clearVused (stat v))) ∧
     (bad → Raises (.sstatWrite v) s .priv (wordAddr s) (halfBit s + 0x5F)) ∧
     (clearVused s).me.k = Vector.replicate 4 0 ∧
     (∀ r : VReg, unbound s r → (clearVused s).me.v[r] = 0) ∧
     (∀ r : VReg, ¬unbound s r → (clearVused s).me.v[r] = s.me.v[r]))

/-! ### Block transfers and indirect copies -/

/-- BTSET writes a shadow register (R252). BTGO (R251, R253) rejects a lost set with reason 1 and gives back the default
one, rejects a bad set with its reason, waits on a full queue, and otherwise commits: the barrier's bytes are added, the
next identifier is given, the transfer stands at the queue's end. A large transfer needs a unit of power. BTPOLL (R249)
reads an identifier's state, and waits while it is queued or active. A launch waits while SPART converts ways of its
cluster, before it judges its operands (R228); a poisoned barrier raises DATA_ERROR. -/
def Obligations.BlockTransfers : Prop :=
  ∀ (d a : GReg) (n : Fin 13) (imm : BitVec 13) (sc : Scope) (wait : Bool) (s s1 : State) (r v : Nat),
    let x := shadowOf s s.cur
    let l := x.regs
    let code := Scope.ofCode (xScope l)
    let S := engineScope (if sc = .none then narrowed s .clu else sc)
    let C := engineScope (if code = .none then narrowed s .clu else code)
    let done := commitXfer s1 l C
    let id := (rg s a).toNat % 2 ^ 32
    let w := if bitAt id 31 then pollWord s.clu.ixe id else pollWord s.clu.bte id
    let bar := xreg l 9 % addrSpace
    let ready : Prop := x.lost = false ∧ btReject s l = none ∧ notBusy (xRuns l) s = .ok ((), s) ∧
      (xBytes l ≤ 65536 ∨ grantHeld s 1 = true) ∧ s.fits sc ∧ s.fits code ∧
      release S s = .ok ((), s1) ∧ s1.fits sc ∧ s1.fits code
    let room : Prop := xreg l 9 = 0 ∨ xNoAdd l = true ∨
      (engineBar s1 s1.cur s1.tenant s1.part s1.super bar = .ok v ∧ barPending v + xBytes l ≤ 2 ^ 36 - 1)
    Completes (.btset n a imm) s
      (setShadow s s.cur { x with regs := setNth l n.val (rg s a + BitVec.signExtend 64 imm) }) ∧
    (x.lost = true → Completes (.btgo d sc) s (wg (setShadow s s.cur Shadow.default) d (rejectWord 1))) ∧
    (x.lost = false → s.clu.busy = false → btReject s l = some r → Completes (.btgo d sc) s (wg s d (rejectWord r))) ∧
    (x.lost = false → s.clu.busy = true → Waits (.btgo d sc) s .mem) ∧
    (ready → room → queueFull s1.clu.bte = true → Waits (.btgo d sc) s .engine) ∧
    (ready → room → queueFull s1.clu.bte = false → Completes (.btgo d sc) s (wg done.2 d done.1)) ∧
    (ready → xreg l 9 ≠ 0 → xNoAdd l = false →
      engineBar s1 s1.cur s1.tenant s1.part s1.super bar = .ok v → 2 ^ 36 - 1 < barPending v + xBytes l →
      Raises (.btgo d sc) s .barrierOverflow bar 0) ∧
    (ready → xreg l 9 ≠ 0 → xNoAdd l = false →
      engineBar s1 s1.cur s1.tenant s1.part s1.super bar = .error (.poison, v) →
      Raises (.btgo d sc) s .dataError v 2) ∧
    (xRing l = false → xConv l = false → xreg l 9 = 0 →
      done.1 = word (s1.clu.bte.seq % 2 ^ 31) ∧ ∃ y, done.2.clu.bte.queue = s1.clu.bte.queue ++ [y] ∧
        y.id = s1.clu.bte.seq % 2 ^ 31 ∧ y.who = s1.cur ∧ y.regs = l ∧ y.landed = 0 ∧ y.fault = 0) ∧
    (s.clu.bte.offline = true → btReject s l = some 7) ∧
    (wait = false ∨ 2 ≤ w % 16 → Completes (.btpoll d a wait) s (wg s d (word w))) ∧
    (wait = true → w % 16 ≤ 1 → Waits (.btpoll d a wait) s .engine)

/-- The steps of an engine. A queued transfer becomes active with all its writes to do (R254); a write lands its bytes at
the destination, with the barrier's (R254, R257); the consumer's word is read and the ring goes on (R255); a completion
writes its record at HEAD and leaves its state in the table that still holds it (R247, R248, R249); TAIL takes a value that leaves at most 64
records (R248); an engine taken offline fails what it holds, and may be restored (R265). -/
def Obligations.EngineSteps : Prop :=
  ∀ (clu id : Nat) (s s0 s1 s2 : State) (x y : Xfer) (o : IxOp) (rest : List Xfer) (k v fl : Nat) (val : Word),
    let c := s.cluOf clu
    let w := nth 0 x.todo k
    let run := pieceRun x.regs (w / 2 ^ 32) (w % 2 ^ 32)
    let landed : State := (landBar s2 clu x run.2).modXfer clu id fun y =>
      { y with lost := none, todo := y.todo.filter (· ≠ w), landed := y.landed + run.2, flags := y.flags ||| fl }
    let t := val.toNat % 2 ^ 32
    (c.bte.queue = x :: rest → c.bte.active.length < 8 → x.fault = 0 → xRing x.regs = false →
      ∃ u, exec (.bteTransferActivate clu) s = .next u ∧ (u.cluOf clu).bte.queue = rest ∧
        (u.cluOf clu).bte.active = c.bte.active ++
          [{ x with todo := (List.range (xPlanes x.regs)).flatMap (planeWrites x.regs) }]) ∧
    (xferOf s clu id = some x → x.id = id → x.todo ≠ [] → x.token = none → x.lost = none → s.choice x.todo.length = (k, s0) →
      writeBytes s0 x (w / 2 ^ 32) (w % 2 ^ 32) = .ok ((v, fl), s1) →
      sysWrite (secFuel run.2) s1 x.who.mod x.tenant x.part x.priv (addrAdd (rowDst x.regs (w / 2 ^ 32)) run.1) run.2 v
        = .ok s2 →
      exec (.bteWriteLand clu id) s =
        .next (nextWrite (if xRing x.regs then driveRing landed clu id else landed) clu id)) ∧
    (xferOf s clu id = some x → xRing x.regs = true → x.fault = 0 → xferOf (readConsumer s clu id) clu id = some y →
      exec (.bteConsumerUpdate clu id) s =
        .next (nextWrite (driveRing (showDepth (readConsumer s clu id) y) clu id) clu id)) ∧
    (xferOf s clu id = some x → xferDone x = true → x.fault = 0 → ringFull c = false → xreg x.regs 10 = 0 →
      ∃ u, exec (.engineCompletion clu false id) s = .next u ∧ xferOf u clu id = none ∧
        (u.cluOf clu).chead = (c.chead + 1) % 2 ^ 32 ∧
        fget 0 (u.cluOf clu).cring (c.chead % 64) = recordOf x.id 0 0 (recordFlags x.flags) x.who x.landed ∧
        ((c.bte.table.any fun z => decide (z.1 = x.id)) = true →
          fget (XferState.mk 4 0 0) (u.cluOf clu).bte.table x.id = { st := 2, fault := 0, done := x.landed })) ∧
    (ixOf s clu id = some o → o.todo = [] → o.sent = 0 → ringFull c = false →
      (if o.eupd then dfield o.desc 0x28 8 else dfield o.desc 0x30 8) = 0 →
      ∃ u, exec (.engineCompletion clu true id) s = .next u ∧ ixOf u clu id = none ∧
        (u.cluOf clu).chead = (c.chead + 1) % 2 ^ 32 ∧
        fget 0 (u.cluOf clu).cring (c.chead % 64) = recordOf o.id (if o.killed then 1 else if o.failed then 2 else 0)
          o.fault (recordFlags o.flags) o.who o.done ∧
        (o.posted = true → (u.strand o.who).latch = true)) ∧
    ((c.chead + 2 ^ 32 - t) % 2 ^ 32 ≤ 64 →
      exec (.cringtailWrite clu val) s = .next (s.modClu clu fun z => { z with ctail := t })) ∧
    (64 < (c.chead + 2 ^ 32 - t) % 2 ^ 32 → exec (.cringtailWrite clu val) s = .next s) ∧
    (∃ u, exec (.engineOffline clu false) s = .next u ∧ (u.cluOf clu).bte.offline = true ∧
      ∀ z ∈ (u.cluOf clu).bte.active ++ (u.cluOf clu).bte.queue, z.fault ≠ 0 ∧ z.todo = []) ∧
    (∃ u, exec (.engineOffline clu true) s = .next u ∧ (u.cluOf clu).ixe.offline = true ∧
      ∀ z ∈ (u.cluOf clu).ixe.active ++ (u.cluOf clu).ixe.queue, z.killed = true ∧ z.fault ≠ 0 ∧ z.todo = []) ∧
    exec (.engineRestore clu 0) s = .next (s.modClu clu fun z => { z with bte := { z.bte with offline := false } }) ∧
    exec (.engineRestore clu 1) s = .next (s.modClu clu fun z => { z with ixe := { z.ixe with offline := false } }) ∧
    (2 ≤ k → exec (.engineRestore clu k) s = .next (s.modClu clu fun z => { z with kOffline := false }))

/-- The indirect copy engine. IXPOST (R259, R260) and EUPD (R295, R296) read a descriptor of the strand's own memories,
reject a bad one with its reason, wait on a full queue and while ways of the cluster's scratchpad are converted (R228),
and otherwise queue the operation under the next identifier;
EUPD.close (R297) waits for every home and then gives the closed step. The copy of an element reads its index and its row
and writes it at its place (R259); a row of a merge batch enters the merge table of its step (R296); a close applies the
rows of its step and opens the next (R297).
The launches of the indirect copy engine that have room (R246, R260, R296): not offline, no descriptor fault, no
conversion of ways, scopes within MAXSCOPE and a release that completes. The operation stands at the end of the queue with the
elements that are not yet done. -/
def Obligations.IndirectCopies : Prop :=
  (∀ (d a b : GReg) (sc : Scope) (rs : Bool) (s s1 : State) (dd r : Nat) (w : Word) (t : UpdTable),
     let x := addrOf (rg s a)
     let n := (rg s b).toNat % 256
     let free : Prop := ixBusy s s.cur = false
     let calm : Prop := s.clu.busy = false
     (free → x % 64 ≠ 0 → Raises (.ixpost d a sc rs) s .align x 0) ∧
     (free → calm → x % 64 = 0 → ownPlace s x 64 = false → Raises (.ixpost d a sc rs) s .prot x 0) ∧
     (free → calm → x % 64 = 0 → ownPlace s x 64 = true → placedLoad x 64 .load s = .ok (dd, s1) →
       (s1.clu.busy = false → ixReject s1 dd = some r → Completes (.ixpost d a sc rs) s (wg s1 d (rejectWord r))) ∧
       (∀ u, ixLaunch dd x sc .none rs true s1 = .ok (w, u) → Completes (.ixpost d a sc rs) s (wg u d w))) ∧
     (ixBusy s s.cur = true → Waits (.ixpost d a sc rs) s .engine) ∧
     (s.clu.busy = true → Waits (.eupd d a b sc rs) s .mem) ∧
     (calm → s.clu.ixe.offline = true → Completes (.eupd d a b sc rs) s (wg s d (rejectWord 7))) ∧
     (calm → s.clu.ixe.offline = false → x % 64 ≠ 0 ∨ ownPlace s x 64 = false →
       Completes (.eupd d a b sc rs) s (wg s d (rejectWord 1))) ∧
     (calm → s.clu.ixe.offline = false → x % 64 = 0 → ownPlace s x 64 = true → placedLoad x 64 .load s = .ok (dd, s1) →
       (eupdReject dd = some r → Completes (.eupd d a b sc rs) s (wg s1 d (rejectWord r))) ∧
       (eupdReject dd = none → tableOf s s.cur.mod s.tenant n = none →
         Completes (.eupd d a b sc rs) s (wg s1 d (rejectWord 5))) ∧
       (∀ u, eupdReject dd = none → tableOf s s.cur.mod s.tenant n = some t →
         eupdLaunch x dd n t sc rs s1 = .ok (w, u) → Completes (.eupd d a b sc rs) s (wg u d w))) ∧
     (∀ c, unitAnswer s.me = some (c, r) → s.fits .ten → Completes (.eupdClose d a b sc) s (wg s d (word r))) ∧
     (unitAnswer s.me = none → hasAsked s.me askClose = false →
       (tableOf s s.cur.mod s.tenant n = none → Completes (.eupdClose d a b sc) s (wg s d (rejectWord 5))) ∧
       (tableOf s s.cur.mod s.tenant n = some t → t.merge = false →
         Completes (.eupdClose d a b sc) s (wg s d (rejectWord 11))))) ∧
  (∀ (sc : Scope) (rs : Bool) (s s1 : State) (x dd n : Nat) (t : UpdTable),
     let e := s1.clu.ixe
     let S := engineScope (if sc = .none then narrowed s .clu else sc)
     let id := 2 ^ 31 + e.seq % 2 ^ 31
     let count := dfield dd 0x1C 4
     let old := if rs = true then s1.me.csr.ixmask.toNat % 2 ^ count else 0
     let fit (code : Nat) : Prop := s.fits (Scope.ofCode code) ∧ s1.fits (Scope.ofCode code)
     s.fits sc → release S s = .ok ((), s1) → s1.fits sc → queueFull e = false →
     (ixReject s dd = none → notBusy (ixRuns dd) s = .ok ((), s) → fit (dfield dd 0x2C 4) →
       ∃ u y, ixLaunch dd x sc .none rs true s = .ok (word id, u) ∧ u.clu.ixe.queue = e.queue ++ [y] ∧ y.id = id ∧
         y.who = s1.cur ∧ y.desc = dd ∧ y.posted = true ∧ y.okMask = old ∧
         (∀ i, i ∈ y.todo ↔ i < count ∧ bitAt old i = false) ∧
         (rs = false → u.me.csr.ixmask = 0) ∧ (rs = true → u.me.csr.ixmask = s1.me.csr.ixmask)) ∧
     (notBusy (updRuns dd x t.len) s = .ok ((), s) → fit (dfield dd 0x38 1) →
       ∃ u y, eupdLaunch x dd n t sc true s = .ok (word id, u) ∧ u.clu.ixe.queue = e.queue ++ [y] ∧ y.id = id ∧
         y.who = s1.cur ∧ y.desc = dd ∧ y.eupd = true ∧ y.step = t.step ∧ y.merge = t.merge))

/-- The steps of the indirect copy engine: one element of a posting, in any order (R259, R260); one element or one row of
an update batch (R296); a row that enters the merge table of a step still open (R296); a close, which applies the rows of
its step, opens the next and answers (R297); the last answer, which gives the closing strand its step (R297). -/
def Obligations.IndirectSteps : Prop :=
  ∀ (clu id m k : Nat) (p : Place) (s s1 s2 : State) (o : IxOp) (t : UpdTable) (rest : List Note)
    (vf table step row addr mask lr : Nat) (g : List Nat) (c : Closing),
    let e := nth 0 o.todo k
    let begun := beginIx s clu id
    let taken (q : Nat → Bool) : State := s1.modIx clu id fun y => { y with todo := y.todo.filter q }
    let ours (u : State) : List Closing := (u.modOf p.mod).closings.filter fun z => decide (z.src = p)
    (ixOf begun clu id = some o → o.todo ≠ [] → o.lost = none → begun.choice o.todo.length = (k, s1) →
      (copyElement (taken (· ≠ e)) o e = .ok s2 →
        exec (.ixeElementCopy clu id) s =
          .next (nextIx (elementDone (ixGot s2 clu o) clu o e) clu id (.ixeElementCopy clu id))) ∧
      (tableOf s1 o.who.mod o.tenant o.table = some t → o.merge = false →
        exec (.eupdDirectAdd clu id) s =
          .next (nextIx (directOne s1 clu o t (e / 2048) (e % 2048)) clu id (.eupdDirectAdd clu id))) ∧
      (tableOf s1 o.who.mod o.tenant o.table = some t → o.merge = true →
        exec (.eupdDirectAdd clu id) s =
          .next (nextIx (mergeOne s1 clu o t (e / 2048)) clu id (.eupdDirectAdd clu id)))) ∧
    (s.notes = .merge m vf table step row addr g clu id mask :: rest → stepBefore step (openStep (s.modOf m) vf table) = false →
      let rows := mergeRows (s.modOf m) vf table step
      let sum := addRows (fget (g.map fun _ => 0) rows row) g
      let u := { s with notes := rest }.modMod m fun y => setMergeRows y vf table step (fset rows row sum)
      rows.length < ((tableOf s m vf table).map (·.mcap)).getD 0 →
      exec (.mergeContribution m) s = .next (rowArrived u clu id mask addr true) ∧
      fget [] (mergeRows (u.modOf m) vf table step) row = sum) ∧
    (s.notes = .close m vf table step lr p :: rest →
      ∃ u, exec (.mergeClose m) s = .next u ∧ mergeRows (u.modOf m) vf table step = [] ∧
        openStep (u.modOf m) vf table = (step + 1) % 2 ^ 32 ∧ .closeAck m p ∈ u.notes) ∧
    (s.notes = .closeAck m p :: rest → ours s = [c] → c.acks = [m] →
      ∃ u, exec (.closeAck p) s = .next u ∧ u.notes = rest ∧ ours u = [] ∧
        (u.strand p).resps = (s.strand p).resps ++ [Resp.unit 0 c.step])

/-! ### Key lookups -/

/-- The lookup instructions. KLSET (R281) registers or clears a descriptor in a slot; KLOOK (R282) and EBAG (R291) reject
with their reasons in order, wait without a free context and while ways of the cluster's scratchpad are converted (R228),
and otherwise give the tag of a new Pending context; KLWAIT
(R283) tells a stale tag, a pending lookup, a faulted one and a done one apart, and reports a lookup that freed itself in this
cycle (R286); KLRES (R284) drops a faulted lookup or
makes it Pending again.
A launch of a lookup or a bag that passes (R270, R282): the lowest free context becomes Pending with the die's ticket,
and the die's next ticket is one more. -/
def Obligations.KeyLookups : Prop :=
  (∀ (d a b : GReg) (sc : Scope) (poll : Bool) (s s1 u : State) (r dd c v : Nat) (w : Word),
     let n := (rg s b).toNat
     let x := addrOf (rg s a)
     let slot (i : Nat) := nth (KSlot.mk false 0 0) s.clu.kslots (i % 16)
     let put (t : State) (i : Nat) (y : KSlot) : State :=
       wg (t.modMyClu fun z => { z with kslots := setNth z.kslots (i % 16) y }) d 0
     let mine (k : KSlot) : Prop := k.valid = true → k.tenant = s.tenant
     let placed : Prop := x % 64 = 0 ∧ ownPlace s x 64 = true
     let no (t : State) (i : Nat) : State := wg t d (rejectWord i)
     let look := slot (rg s a).toNat
     let tag := (rg s a).toNat % 2 ^ 32
     let i := bits tag 31 26
     let y := kctx s.clu i
     let on : Prop := s.clu.kOffline = false
     let calm : Prop := s.clu.busy = false
     let report (t : State) (code status : Nat) : State :=
       waitReturned ((setKlstat (status / 2 ^ 32 * 2 ^ 32 + tag) (wg t d (word (code / 8)))).acquired
         (Scope.ofCode (code % 8))) i tag
     let live : Prop := unitAnswer s.me = none ∧ staleTag s tag = false
     let S := engineScope (if sc = .none then narrowed s .clu else sc)
     let faulted : Prop := staleTag s tag = false ∧ y.st = 3
     let resume : Prop := faulted ∧ on ∧ notBusy (ctxRuns y.desc y.query y.bag) s = .ok ((), s) ∧ s.fits sc ∧
       release S s = .ok ((), s1) ∧ s1.fits sc ∧
       (y.phase = 0 → y.bag = false → 65536 < 2 * dN y.desc * dDh y.desc → grantHeld s 1 = true)
     (¬mine (slot n) → Completes (.klset d a b poll) s (no s 5)) ∧
     (mine (slot n) →
       Completes (.klset d a b true) s (put s n { slot n with valid := false }) ∧
       (calm → ¬placed → Completes (.klset d a b false) s (no s 1)) ∧
       (calm → placed → placedLoad x 64 .load s = .ok (dd, s1) →
         (lookReject s1 dd = some r → Completes (.klset d a b false) s (no s1 r)) ∧
         (lookReject s1 dd = none →
           Completes (.klset d a b false) s (put s1 n { valid := true, tenant := s1.tenant, desc := dd })))) ∧
     (s.clu.busy = true → Waits (.klook d a b sc) s .mem ∧ Waits (.ebag d a b sc) s .mem) ∧
     (calm → ¬on → Completes (.klook d a b sc) s (no s 7) ∧ Completes (.ebag d a b sc) s (no s 7)) ∧
     (calm → on → look.valid = false ∨ look.tenant ≠ s.tenant → Completes (.klook d a b sc) s (no s 5)) ∧
     (calm → on → look.valid = true → look.tenant = s.tenant →
       (queryBad s n look.desc = true → Completes (.klook d a b sc) s (no s 6)) ∧
       (queryBad s n look.desc = false → anyCtx s.clu = false → Completes (.klook d a b sc) s (no s 8)) ∧
       (queryBad s n look.desc = false → anyCtx s.clu = true →
         (65536 < 2 * dN look.desc * dDh look.desc → grantHeld s 1 = true) →
         launchCtx look.desc n false sc s = .ok (w, u) → Completes (.klook d a b sc) s (wg u d w))) ∧
     (calm → on → ¬placed → Completes (.ebag d a b sc) s (no s 1)) ∧
     (calm → on → placed → placedLoad x 64 .load s = .ok (dd, s1) →
       (n = 0 ∨ 32 < n → Completes (.ebag d a b sc) s (no s1 2)) ∧
       (1 ≤ n → n ≤ 32 → bagReject s1 dd = some r → Completes (.ebag d a b sc) s (no s1 r)) ∧
       (1 ≤ n → n ≤ 32 → bagReject s1 dd = none → anyCtx s1.clu = true → launchCtx dd n true sc s1 = .ok (w, u) →
         Completes (.ebag d a b sc) s (wg u d w))) ∧
     (unitAnswer s.me = some (c, v) → Completes (.klwait d a poll) s (report s c v)) ∧
     (unitAnswer s.me = none → staleTag s tag = true →
       (freedNow s tag = none → Completes (.klwait d a poll) s (setKlstat (2 * 2 ^ 62 + tag) (wg s d 0))) ∧
       (freedNow s tag = some (c, v) → Completes (.klwait d a poll) s (report s c v))) ∧
     (live → y.st = 1 → Completes (.klwait d a true) s (setKlstat (3 * 2 ^ 62 + tag) (wg s d 0)) ∧
       Waits (.klwait d a false) s .klwait) ∧
     (live → y.st = 3 →
       (bitAt s.me.csr.sstat.toNat 5 = true → Raises (.klwait d a poll) s .klFault y.faddr tag) ∧
       (bitAt s.me.csr.sstat.toNat 5 = false →
         Completes (.klwait d a poll) s (setKlstat (statusWord y tag) (wg s d (word (y.doneMask % 2 ^ 32)))))) ∧
     (live → y.st = 2 →
       Completes (.klwait d a poll) s (report s (y.scope.code + 8 * (y.doneMask % 2 ^ 32)) (statusWord y tag))) ∧
     (staleTag s tag = true ∨ y.st ≠ 3 → Completes (.klres d a sc poll) s (no s 10)) ∧
     (faulted → Completes (.klres d a sc true) s (wg (freeContext s s.cur.cluKey i) d 0)) ∧
     (faulted → ¬on → Completes (.klres d a sc false) s (no s 7)) ∧
     (resume → ticketFree s1 s1.cur.dieKey = true →
       Completes (.klres d a sc false) s (wg (resumeCtx s1 i).2 d (resumeCtx s1 i).1)) ∧
     (resume → ticketFree s1 s1.cur.dieKey = false → Waits (.klres d a sc false) s .engine)) ∧
  (∀ (desc query i : Nat) (bag : Bool) (sc : Scope) (s s1 : State),
     let t := (s1.dieOf s1.cur.dieKey).ticketCtr
     let g := (kctx s1.clu i).gen
     let code := Scope.ofCode (dScope desc)
     let S := engineScope (if sc = .none then narrowed s .clu else sc)
     notBusy (ctxRuns desc query bag) s = .ok ((), s) → s.fits sc → s.fits code → release S s = .ok ((), s1) →
     s1.fits sc → s1.fits code → freeCtx s1.clu = some i → ticketFree s1 s1.cur.dieKey = true →
     ∃ u, launchCtx desc query bag sc s = .ok (word (i * 2 ^ 26 + g % 1024 * 2 ^ 16 + t % 65536), u) ∧
       (u.dieOf s1.cur.dieKey).ticketCtr = (t + 1) % 65536 ∧
       (kctx u.clu i).st = 1 ∧ (kctx u.clu i).desc = desc ∧ (kctx u.clu i).query = query ∧ (kctx u.clu i).bag = bag ∧
       (kctx u.clu i).ticket = t ∧ (kctx u.clu i).gen = g ∧ (kctx u.clu i).who = s1.cur ∧
       ∀ j, j ≠ i → kctx u.clu j = kctx s1.clu j)

/-- The steps of a lookup: the query is read element by element (R282); scoring begins the gather (R274, R292); its reads are
issued one by one (R276); a round at a slice or a memory channel serves one read of each lookup that
has one there, in its order (R277); a row that has arrived is added with one rounding for each element and its bit of
DONEMASK is set (R274); a read of another package without an answer fails after 16,384 cycles (R276); the output is
written, and the lookup is Done (R274) or Faulted (R276); an engine taken offline faults its Pending lookups (R287). -/
def Obligations.LookupSteps : Prop :=
  ∀ (clu i k die slice rank f1 f2 : Nat) (s s1 s2 : State) (z : KCtx) (p : PointRead) (ps : List PointRead) (q : KRead)
    (ys : List Sys2Proof.Num) (cs : List Nat) (wild : Bool),
    let x := kctx (s.cluOf clu) i
    let last := fget (2 ^ 18 - 1) (s.dieOf die).rounds slice
    let rows := (List.range (rankCount x)).filter (rowReady x)
    let r := nth 0 rows k
    let vs := runVals (ptrCode (dVt x.desc)) (ptrK (dVt x.desc)) (dL x.desc) 
      (rowData (valueRow x.desc (nth 0 x.rows r)) (x.got.filter fun e => decide (e.1 = r)))
    let out := List.zipWith (accStep (nth 0 x.weights r)) vs x.acc
    let served := (ps.foldl (serveGranule die)
      (s.modDie die fun e => { e with rounds := fset e.rounds slice (sourceKey s p) }, [])).1
    let ended := ps.foldl (fun (t : State) (e : PointRead) => nextRow t e.clu e.ctx) served
    let fmt := ptrCode (dOut x.desc)
    let next := nextRow (issueRead s clu i) clu i
    let ends : Prop := x.outOnly = true ∨ x.scored = true ∧ rowsOver x = true
    (x.st = 1 → x.scored = false → x.outOnly = false →
      (x.qtodo = [] → (if x.bag then scoreBag s x else scoreLookup s x) = .ok (z, s1) →
        exec (.kleScoring clu i) s = .next (startGather (s1.modCtx clu i fun _ => z) clu i)) ∧
      (x.qtodo ≠ [] → readQuery s x = .ok (z, s1) →
        exec (.kleScoring clu i) s = .next ((s1.modCtx clu i fun _ => z).spawn (.kleScoring clu i)))) ∧
    (x.st = 1 → x.scored = true → x.outOnly = false → x.todo ≠ [] →
      exec (.kleScoring clu i) s =
        .next (if (kctx (next.cluOf clu) i).todo.isEmpty then next else spawnOnce next (.kleScoring clu i))) ∧
    ((roundReads s die slice).foldr (roundInsert s last) [] = ps → ps.head? = some p →
      exec (.kleServiceRound die slice) s =
        .next (if (roundReads ended die slice).isEmpty then ended else spawnOnce ended (.kleServiceRound die slice))) ∧
    (x.st = 1 → rows ≠ [] → s.choice rows.length = (k, s1) →
      exec (.kleRowArrival clu i) s = .next (nextRow (s1.modCtx clu i fun y =>
        { y with acc := out.map (·.1), flags := out.foldl (fun f e => f ||| e.2) y.flags,
                 doneMask := y.doneMask ||| 2 ^ r, got := y.got.filter fun e => decide (e.1 ≠ r) }) clu i)) ∧
    (x.st = 1 → (x.reads.find? fun e => decide (e.rank = rank) && (e.lost || remoteRead s x e.addr)) = some q →
      (q.issued + 16384 ≤ s.ticks → exec (.kleReadTimeout clu i rank) s =
        .next (nextRow (readFails s { clu := clu, ctx := i, read := q } .unanswered q.addr) clu i)) ∧
      (s.ticks < q.issued + 16384 → exec (.kleReadTimeout clu i rank) s =
        .next (s.again (.kleReadTimeout clu i rank)))) ∧
    (x.st = 1 → ends → x.failed ≠ 0 → exec (.kleLookupComplete clu i) s = .next (faultCtx s clu i)) ∧
    (x.st = 1 → ends → x.failed = 0 → x.spoilt = false → outVals x = (ys, f1, wild) →
      codesFlags (roundAll fmt .rne ys (BitVec.ofNat 32 x.seed)).1 = (cs, f2) →
      outWrite (secFuel (outBytes x.desc))
        (s.modCtx clu i fun y => { y with flags := y.flags ||| f1 ||| f2, winv := y.winv || wild }) x
        (dOut x.desc % addrSpace) (outBytes x.desc) (packLanes (elemBits fmt) cs) = (s2, none) →
      exec (.kleLookupComplete clu i) s = .next (ctxDone s2 clu i)) ∧
    (∃ t, exec (.kleOffline clu) s = .next t ∧ (t.cluOf clu).kOffline = true ∧
      ∀ j, (kctx (s.cluOf clu) j).st = 1 → (kctx (t.cluOf clu) j).st = 3)

/-! ### The matrix unit -/

/-- The operations that a stream of the matrix unit queues (R200, R207, R210, R211, R215-R217, R220, R442): the tiles are
the strand's, else TILE_SHAPE code 2 for the lowest that is not; the formats, dimensions and operands fit, else code 4, 1
or 6; a heavy operation holds a grant of 2; a full stream of 8 makes the strand wait. Then the operation joins the stream
with its shapes and a copy of the generator. A row of TLD and TST passes the checks of its accesses first, after the
strand's pushes. -/
def Obligations.MatrixOperations : Prop :=
  ∀ (d a b : TReg) (ga gb : GReg) (v : VReg) (df : Dataflow) (st : BitVec 2) (acc : FloatFmt) (rs : RoundSel) (col : Bool)
    (s s1 : State) (masks : List Nat) (es : List (Nat × Attr)),
    let queued (t : State) (o : MOp) : State :=
      appendOp (copySeed t).2 (copySeed t).2.cur.coreKey st.toNat
        { o with seed := (copySeed t).1, slot := some t.cur.slot, tenant := t.tenant, priv := t.super,
                 since := t.core.mwaits }
    let foreign (ts : List Nat) : List Nat := ts.filter fun i => !ownsTile s i
    let shape (code : Nat) (ts : List Nat) : Nat := leastOf ts * 2 ^ 16 + halfBit s + code
    let full (t : State) : Prop := 8 ≤ (queueOf t.core st.toNat).length
    let granted (o : MOp) : Prop := o.heavy = true → grantHeld s 2 = true
    let checks (i : Instr) (ts : List Nat) (f : List Nat × List Nat × List Nat) (o : MOp) : Prop :=
      (foreign ts ≠ [] → Raises i s .tileShape 0 (shape 2 (foreign ts))) ∧
      (foreign ts = [] → f.1 ≠ [] → Raises i s .tileShape 0 (shape 4 f.1)) ∧
      (foreign ts = [] → f.1 = [] → f.2.1 ≠ [] → Raises i s .tileShape 0 (shape 1 f.2.1)) ∧
      (foreign ts = [] → f.1 = [] → f.2.1 = [] → f.2.2 ≠ [] → Raises i s .tileShape 0 (shape 6 f.2.2)) ∧
      (foreign ts = [] → f = ([], [], []) → granted o → full s → Waits i s .engine) ∧
      (foreign ts = [] → f = ([], [], []) → granted o → ¬full s → Completes i s (queued s o))
    let two := [d.val, a.val]
    let three := [d.val, a.val, b.val]
    let three' (k : MKind) : MOp := MOp.onTiles s k d.val a.val b.val
    let two' (k : MKind) : MOp := MOp.onTiles s k d.val a.val a.val
    let faults (k : MKind) (x c j : Nat) := shapeFaults k x c d.val a.val j (tshOf s)
    let sh := tshOf s d.val
    let ptr := addrOf (rg s ga)
    let step := (rg s gb).toInt
    let memory (ld : Bool) : Prop := foreign [d.val] = [] ∧ bits (rg s ga).toNat 63 60 = shFmt sh ∧
      bits (rg s ga).toNat 59 56 = shBk sh ∧ ptr % tileAlign sh = 0 ∧ step % (tileAlign sh : Int) = 0 ∧
      rowsCheck ld ptr step sh (List.range (shRows sh)) (drainPushes s s.cur) = .ok ((masks, es), s1) ∧ ¬full s1
    let row (k : MKind) : MOp :=
      { MOp.onTiles s k d.val d.val d.val with
        ptr := ptr, stride := step, masks := masks, attrs := es.map fun e => (e.1, e.2.leaf) }
    tilesChanging s = false →
    checks (.mma d a b df st acc) three (faults .mma acc.toCode.code 0 b.val)
      { three' .mma with acc := acc, df := df } ∧
    checks (.mmas d a b df st acc) three (faults .mmas acc.toCode.code 0 b.val)
      { three' .mmas with acc := acc, df := df } ∧
    checks (.mmss d a b df st acc) three (faults .mmss acc.toCode.code 0 b.val)
      { three' .mmss with acc := acc, df := df } ∧
    checks (.tadd d a b st rs) three (faults .tadd 0 0 b.val) { three' .tadd with mode := modeOf s rs } ∧
    checks (.tscale d a b st rs col) three (faults .tscale 0 (b2n col) b.val)
      { three' .tscale with mode := modeOf s rs, col := col } ∧
    checks (.tcvt d a st rs) two (faults .tcvt 0 0 a.val) { two' .tcvt with mode := modeOf s rs } ∧
    checks (.ttrans d a st) two (faults .ttrans 0 0 a.val) (two' .ttrans) ∧
    checks (.tzero d st) [d.val] ([], [], []) (MOp.onTiles s .tzero d.val d.val d.val) ∧
    (unbound s v → (rg s gb).toNat < 132 → checks (.vmovt d v gb st) [d.val] ([], [], [])
      { MOp.onTiles s .vmovt d.val d.val d.val with chunk := (rg s gb).toNat, vec := (s.view.v[v]).toNat }) ∧
    (foreign [d.val] = [] → 132 ≤ (rg s gb).toNat → Raises (.vmovt d v gb st) s .tileShape 0 (shape 5 [d.val])) ∧
    (memory true → Completes (.tld d ga gb st) s (queued s1 (row .tld))) ∧
    (memory false → Completes (.tst d ga gb st) s
      (es.foldl (fun (u : State) (e : Nat × Attr) => markTarget u (e.1 * 128) e.2) (queued s1 (row .tst))))

/-- What a strand does with its tiles and streams. TALLOC takes the tiles it asks for or none, TFREE frees them (R219),
TSHAPE writes a valid shape (R198, R214), MJOIN merges the flags of drained streams (R205, R218), TMOVV reads a chunk
(R220); each waits for the streams it depends on, and what it has waited for is settled (R202). The head of a stream: a
TLD or TST moves its next row (R215), an operation of the array makes each of its parts once, some of them before it
leaves, and leaves when it has had its cycles (R202, R203, R209), a remote MJOIN leaves when the streams it names have drained (R224). -/
def Obligations.TilesAndStreams : Prop :=
  ∀ (d : GReg) (a : GReg) (t : TReg) (v : VReg) (st : BitVec 2) (mask : BitVec 4) (core n x k : Nat) (s : State) (o : MOp)
    (rest : List MOp),
    let slot := s.cur.slot
    let want := (List.range 8).filter fun i => bitAt ((rg s a).toNat % 256) i
    let mine (i : Nat) : Prop := (tileOf s.core i).owner = some slot
    let take (u : State) (i : Nat) : State :=
      if (tileOf s.core i).owner.isNone then u.modTile u.cur.coreKey i fun _ => takenTile slot else u
    let taken := want.foldl take s
    let sts := (List.range 4).filter fun i => bitAt mask.toNat i
    let j := (rg s a).toNat
    let code (c : Nat) : Nat := t.val * 2 ^ 16 + halfBit s + c
    let seen := settleTiles s s.cur.coreKey (some slot) fun i => decide (i = st.toNat)
    let read := readTile seen seen.cur.coreKey st.toNat seen.core.mwaits t.val (tileOf seen.core t.val).tsh.toNat
    let made : State := makeUnits s.free.2 core n o (o.unmade &&& s.free.1)
    let again : State := s.again (.matrixOpComplete core n)
    (tilesChanging s = false →
      ((∀ i ∈ want, (tileOf s.core i).owner = none ∨ mine i) →
        Completes (.talloc d a) s (wg taken d (word (ownMask taken.core slot)))) ∧
      (∀ i, i ∈ want → (tileOf s.core i).owner ≠ none → ¬mine i → Completes (.talloc d a) s (wg s d 0))) ∧
    (tilesChanging s = true → Waits (.talloc d a) s .engine) ∧
    (matrixBusy s s.cur = false → tilesChanging s = false → Completes (.tfree a) s
      (freeTiles (settleTiles (mergeFlags s s.cur (List.range 4)) s.cur.coreKey (some slot) fun _ => true) s.cur
        ((rg s a).toNat % 256))) ∧
    (matrixBusy s s.cur = true ∨ tilesChanging s = true → Waits (.tfree a) s .engine) ∧
    (tilesChanging s = false → ownsTile s t.val = true →
      (tshValid (rg s a).toNat = true → Completes (.tshape t a) s
        (s.modTile s.cur.coreKey t.val fun y => { y with tsh := rg s a })) ∧
      (tshValid (rg s a).toNat = false → Raises (.tshape t a) s .tileShape 0 (code 3)) ∧
      (unbound read.2 v → j < 132 → queueOf s.core st.toNat = [] → pendingError s.me [st.toNat] = none →
        Completes (.tmovv v t a st) s (putV v (BitVec.ofNat 256 (getChunk read.1 j)) read.2)) ∧
      (((tileOf seen.core t.val).vers.all fun w => decide (w.st = st.toNat)) = true →
        read = ((tileOf seen.core t.val).plain, seen)) ∧
      (j < 132 → queueOf s.core st.toNat ≠ [] → Waits (.tmovv v t a st) s .engine) ∧
      (132 ≤ j → Raises (.tmovv v t a st) s .tileShape 0 (code 5))) ∧
    (tilesChanging s = false → ownsTile s t.val = false →
      Raises (.tshape t a) s .tileShape 0 (code 2) ∧ Raises (.tmovv v t a st) s .tileShape 0 (code 2)) ∧
    ((∀ i ∈ sts, streamBusy s s.cur i = false) →
      (pendingError s.me sts = none → Completes (.mjoin mask) s
        (settleTiles (mergeFlags s s.cur sts) s.cur.coreKey (some slot) sts.contains)) ∧
      (pendingError s.me sts = some (n, x, k) → ∃ u, exec (.mjoin mask) s = .next u ∧
        u.issue.ended = some (.trap .dataError x k))) ∧
    ((∃ i ∈ sts, streamBusy s s.cur i = true) → Waits (.mjoin mask) s .engine) ∧
    (queueOf (s.coreOf core) n = o :: rest →
      (needsArray o = true → o.unpowered = false →
        (opReady s core o = true →
          exec (.matrixOpComplete core n) s = .next (endOp (makeUnits s core n o o.unmade) core n o)) ∧
        (opReady s core o = false → o.unmade = 0 → exec (.matrixOpComplete core n) s = .next s) ∧
        (opReady s core o = false → o.unmade ≠ 0 →
          exec (.matrixOpComplete core n) s = .next (made.again (.matrixOpComplete core n)))) ∧
      (o.kind = .tld ∨ o.kind = .tst → exec (.matrixOpComplete core n) s =
        .next (if opReady s core o then moveRow s core n o else again)) ∧
      (o.kind = .mjoin → exec (.matrixOpComplete core n) s =
        .next (if opReady s core o then endOp (settleTiles s core none (bitAt o.vec ·)) core n o else again)))

/-- Remote matrix commands (R222-R224). MCMD sends the capability, the command word and a copy of its generator to the
target core, waits for its answer, and writes 0 or raises CAP_DENIED with the reason; a capability of another tenant is
denied at once. At the target the command, once it has arrived and no older one of its core stands before it, joins its
stream after the check, and the answer goes back. -/
def Obligations.RemoteCommands : Prop :=
  ∀ (d a b : GReg) (p : Place) (s s1 : State) (r v cap x tgt core e due : Nat) (seed : BitVec 32) (mode : Rounding)
    (rest : List Note) (k : Command),
    let c := (rg s a).toNat
    let w := (rg s b).toNat
    let ct := (s.coreOf core).captab
    (unitAnswer s.me = some (0, v) → Completes (.mcmd d a b) s (wg (copySeed s).2 d 0)) ∧
    (unitAnswer s.me = some (r + 1, v) → Raises (.mcmd d a b) s .capDenied 0 (r + 1)) ∧
    (unitAnswer s.me = none → hasAsked s.me askRemote = true → Waits (.mcmd d a b) s .mem) ∧
    (unitAnswer s.me = none → hasAsked s.me askRemote = false →
      (bits c 63 58 ≠ s.tenant → Raises (.mcmd d a b) s .capDenied 0 2) ∧
      (bits c 63 58 = s.tenant → Waits (.mcmd d a b) s .mem ∧ ∃ u, exec (.mcmd d a b) s = .next u ∧
        u.notes = s.notes ++ [.mcmd s.cur c w (bits w 50 32) (seedOf s) (defaultMode s)
          (s.ticks + commandFlight s.cur (bits w 50 32))])) ∧
    (s.notes = .mcmd p cap x tgt seed mode due :: rest → due ≤ s.ticks →
      (mcmdCore s p.mod tgt = none → exec (.mcmdCommand p) s = .next (answerCommand { s with notes := rest } p tgt 8)) ∧
      (mcmdCore s p.mod tgt = some core → bitAt ct.toNat 63 = true →
        capEntry { s with notes := rest } p.mod (bits cap 63 58) ct (bits cap 34 27) = (e, s1) →
        (commandCheck s1 (acceptTime s1 core) core cap e x mode = .error r →
          exec (.mcmdCommand p) s = .next (answerCommand s1 p tgt r)) ∧
        (commandCheck s1 (acceptTime s1 core) core cap e x mode = .ok k → (queueOf (s1.coreOf core) k.st).length < 8 →
          exec (.mcmdCommand p) s =
            .next (answerCommand (appendOp s1 core k.st
              { k.op with seed := seed.toNat, since := (s1.coreOf core).mwaits }) p tgt 0)))) ∧
    (s.notes = .mcmdAns p r due :: rest → due ≤ s.ticks →
      exec (.mcmdAnswer p) s = .next (giveAnswer { s with notes := rest } p r 0))

/-! ### Collectives -/

/-- The instructions of the communication strand (R403, R409-R414); elsewhere they raise ILLEGAL_INSTR, and so do QSEND,
QRECV and VSMARK on a q register without a stream. QSEND adds a flit to the open packet, and sends it when it is final or
has 8 flits, while fewer than 8 packets wait for credit and no gang stop holds it; QRECV takes the oldest flit with its status, or 8 with POLL;
VSOPEN gives an entry its sets, VSCLOSE abandons the packet that is open on the entry's q register, waits while the entry
holds anything, and takes it away; VSMARK sends a marker. -/
def Obligations.Collectives : Prop :=
  ∀ (d a gb : GReg) (b : VReg) (q : QReg) (entry : BitVec 8) (fin poll nb : Bool) (s s1 : State) (f : QFlit)
    (rest : List QFlit) (x : Nat) (ent : VsEntry),
    let y := s.q q
    let me := s.me
    let bad (i : Instr) (op : Nat) : Prop := Raises i s .illegalInstr (wordAddr s) (halfBit s + op)
    let flits := me.pkt ++ [s.view.v[b]]
    let ends : Prop := fin = true ∨ 8 ≤ flits.length
    let opens : Prop := me.pktOpen = false → sendHeld y = false ∧ (combines s y = true → grantHeld s 1 = true)
    let ours : Prop := me.pktOpen = true → fld me.csr.openpkt 7 6 = q.val
    let kept : State := s.modMe fun z => { z with pkt := flits }
    let got : State := wg ((putV b f.data s).modQ s.cur.coreKey q.val fun z => { z with recv := rest }) gb (word (recvStatus f))
    let at' := addrOf (rg s a)
    let clu := s.cur.cluKey
    let e := entry.toNat
    let edge := (edgePort (nodeOf clu)).isSome
    let allowed : Prop := (∀ v ∈ descSets x, v.op = 0) ∨ (s.policy s.cur.mod s.tenant).enrol = true
    let new : VsEntry := { VsEntry.free with
      tenant := s1.tenant, core := if nb then none else some s1.cur.core, q := q.val, sets := descSets x,
      group := dfield x 0x11 1, gen := dfield x 0x12 1, gv := bitAt (dfield x 0x13 1) 0 }
    let opened : State := s1.modMyClu fun z => { z with entries := fset z.entries e new }
    let bound : State := opened.modQ opened.cur.coreKey q.val fun z =>
      { z with bound := true, entry := e, tenant := opened.tenant, chunk := 0, recv := [], sent := 0, aborts := []
               limit := gangHold opened opened.tenant }
    (s.cur.slot ≠ 15 → bad (.qsend q b fin) 0x58 ∧ bad (.qrecv b q gb poll) 0x59 ∧ bad (.vsopen d a nb q entry) 0x5A ∧
      bad (.vsmark q gb) 0x5B ∧ bad (.vsclose d entry) 0x5C) ∧
    (s.cur.slot = 15 → (y.bound = false ∨ y.tenant ≠ s.tenant) → bad (.qsend q b fin) 0x58 ∧ bad (.qrecv b q gb poll) 0x59 ∧
      bad (.vsmark q gb) 0x5B) ∧
    (s.cur.slot = 15 → y.bound = true → y.tenant = s.tenant → unbound s b →
      (¬ours → bad (.qsend q b fin) 0x58) ∧
      (ours → opens → ¬ends → Completes (.qsend q b fin) s
        (if me.pktOpen then kept else kept.modCsr fun z => { z with openpkt := openPkt q })) ∧
      (ours → opens → ends → y.sent < 8 → Completes (.qsend q b fin) s
        (((injectLocal s q flits none).modMe fun z => { z with pkt := [] }).modCsr fun z => { z with openpkt := 0 })) ∧
      (me.pktOpen = false → sendHeld y = true → Waits (.qsend q b fin) s .mem) ∧
      (ours → opens → ends → 8 ≤ y.sent → Waits (.qsend q b fin) s .mem) ∧
      (y.recv = [] → Completes (.qrecv b q gb true) s ((wg s gb 8).modMe setVused) ∧
        Waits (.qrecv b q gb false) s .qrecv) ∧
      (y.recv = f :: rest → Completes (.qrecv b q gb poll) s (runEntry got.cur.cluKey (got.q q).entry entryFuel got))) ∧
    (s.cur.slot = 15 → y.bound = true → y.tenant = s.tenant →
      (me.pktOpen = true → bad (.vsmark q gb) 0x5B) ∧
      (me.pktOpen = false → sendHeld y = true ∨ 8 ≤ y.sent → Waits (.vsmark q gb) s .mem) ∧
      (me.pktOpen = false → sendHeld y = false → y.sent < 8 →
        Completes (.vsmark q gb) s (injectLocal s q [] (some (rg s gb))))) ∧
    (s.cur.slot = 15 → at' % 32 ≠ 0 → Completes (.vsopen d a nb q entry) s (wg s d (rejectWord 1))) ∧
    (s.cur.slot = 15 → at' % 32 = 0 → localStruct at' 32 s = .ok (none, s1) →
      Completes (.vsopen d a nb q entry) s (wg s1 d (rejectWord 1))) ∧
    (s.cur.slot = 15 → at' % 32 = 0 → bits at' 55 54 = 2 → s.clu.busy = true → Waits (.vsopen d a nb q entry) s .mem) ∧
    (s.cur.slot = 15 → at' % 32 = 0 → localStruct at' 32 s = .ok (some x, s1) →
      (streamBad x nb edge = true → Completes (.vsopen d a nb q entry) s (wg s1 d (rejectWord 2))) ∧
      (streamBad x nb edge = false → entryOf s clu e ≠ none →
        Completes (.vsopen d a nb q entry) s (wg s1 d (rejectWord 3))) ∧
      (streamBad x nb edge = false → entryOf s clu e = none → nb = false → y.bound = true →
        Completes (.vsopen d a nb q entry) s (wg s1 d (rejectWord 4))) ∧
      (streamBad x nb edge = false → entryOf s clu e = none → (nb = true ∨ y.bound = false) → ¬allowed →
        Completes (.vsopen d a nb q entry) s (wg s1 d (rejectWord 5))) ∧
      (streamBad x nb edge = false → entryOf s clu e = none → (nb = true ∨ y.bound = false) → allowed →
        s1.tenant = s.tenant → s1.cur = s.cur →
        Completes (.vsopen d a nb q entry) s (if nb then wg opened d 0 else wg bound d 0))) ∧
    (s.cur.slot = 15 → entryOf s clu e = none → Completes (.vsclose d entry) s (wg s d (rejectWord 3))) ∧
    (s.cur.slot = 15 → entryOf s clu e = some ent →
      (ent.tenant ≠ s.tenant → Completes (.vsclose d entry) s (wg s d (rejectWord 3))) ∧
      (∀ p, ent.tenant = s.tenant → openOn s clu ent = some p → ∃ u, exec (.vsclose d entry) s = .next u ∧
        u.issue.ended = some (.park .mem true) ∧ (u.strand p).pktOpen = false) ∧
      (ent.tenant = s.tenant → openOn s clu ent = none → ent.holds = true ∨ localComing s clu e ent = true →
        Waits (.vsclose d entry) s .mem) ∧
      (ent.tenant = s.tenant → openOn s clu ent = none → ent.holds = false → localComing s clu e ent = false →
        Completes (.vsclose d entry) s (wg (closeEntry s clu e ent) d 0) ∧
        entryOf (closeEntry s clu e ent) clu e = none))

/-- What happens at router entries and in a gang stop. A packet is held by its entry, or discarded and counted where it
has none or belongs to another tenant or group (R406); its credit then goes back (log 19). A credit lets a hop send one more
packet (R406). A gang stop (R416) holds the members' sends in every module at the highest chunk opened, ends once everything
has drained or time is up, and GANG_RESUME lets them go on. -/
def Obligations.RouterEntries : Prop :=
  ∀ (clu e port m vf : Nat) (s : State) (p : VsPacket) (x : VsEntry) (rest : List Note) (g : Gang) (c : Nat)
    (cs : List Nat),
    let after : State := { s with notes := rest }
    let all : Nat → Bool := fun _ => true
    let slice := (s.policy m vf).slice
    let limit := 1050 * (if slice = 0 then 1000 else slice)
    let begun (o : Option Nat) : State := (setLimits s all vf (some none)).modMod m fun z =>
      { z with gangs := z.gangs ++ [{ vf := vf, part := (s.policy m vf).part, step := 1, chunk := o, paused := s.ticks }] }
    let paused : State := (setLimits s all vf (some g.chunk)).modMod m fun z =>
      { z with gangs := z.gangs.map fun y => if y.vf = vf then { y with step := 2, paused := s.ticks } else y }
    let begins : Prop := gangOf s m vf = none ∧ holdsPart s m vf = true ∧ ∀ y ∈ gangsOf s vf, 3 ≤ y.step
    (s.notes = .vs clu e port p :: rest →
      (entryOf s clu e = none →
        exec (.vsPacketArrive clu port) s = .next (sendCredit (after.count (cluDie clu) 12) clu e port)) ∧
      (entryOf s clu e = some x → x.tenant ≠ p.tenant →
        exec (.vsPacketArrive clu port) s = .next (sendCredit (after.count (cluDie clu) 12) clu e port)) ∧
      (entryOf s clu e = some x → x.tenant = p.tenant → p.gv = true → ¬(p.group = x.group ∧ p.gen = x.gen) →
        exec (.vsPacketArrive clu port) s = .next (sendCredit (after.count (cluDie clu) 3) clu e port)) ∧
      (entryOf s clu e = some x → x.tenant = p.tenant → (p.gv = true → p.group = x.group ∧ p.gen = x.gen) →
        exec (.vsPacketArrive clu port) s = .next (runEntry clu e entryFuel (after.modEntry clu e fun y =>
          { y with held := fset y.held port (fget [] y.held port ++ [p]) })))) ∧
    (s.notes = .vsCredit clu e port :: rest →
      (port = 4 → exec (.vsCredit clu e port) s = .next (creditQueue after clu e)) ∧
      (port ≠ 4 → exec (.vsCredit clu e port) s = .next (runEntry clu e entryFuel
        (after.setCredits clu e port (min 8 (creditsOf after clu e port + 1)))))) ∧
    (begins → (memberCores s vf).filterMap (openedChunk s vf) = [] →
      exec (.gangQuery m vf) s = .next (gangSwitch (begun none) m vf)) ∧
    (begins → (memberCores s vf).filterMap (openedChunk s vf) = c :: cs →
      exec (.gangQuery m vf) s = .next ((begun (some (cs.foldl max c))).spawn (.gangPause m vf))) ∧
    (gangOf s m vf = some g →
      (g.step = 1 → exec (.gangPause m vf) s =
        .next ((wakeMembers paused vf).spawns [.gangDrainComplete m vf, .gangStopTimeout m vf])) ∧
      (g.step = 2 → gangDrained s vf = true → exec (.gangDrainComplete m vf) s = .next (gangSwitch s m vf)) ∧
      (g.step = 2 → gangDrained s vf = false →
        exec (.gangDrainComplete m vf) s = .next (s.again (.gangDrainComplete m vf))) ∧
      (g.step = 2 → g.paused + limit ≤ s.ticks →
        exec (.gangStopTimeout m vf) s = .next (gangSwitch (stopInPlace s vf) m vf)) ∧
      (g.step = 2 → s.ticks < g.paused + limit →
        exec (.gangStopTimeout m vf) s = .next (s.again (.gangStopTimeout m vf)))) ∧
    (∃ u, exec (.gangResume m vf) s = .next u ∧ gangOf u m vf = none ∧
      (gangsOf u vf = [] → ∀ k q, dieMod (cluDie (coreClu k)) = m → q ∈ (u.coreOf k).qs → q.bound = true → q.tenant = vf →
        q.limit = none))

/-! ### Tasks -/

/-- The task instructions. TENQ (R360) checks a descriptor, and queues its task on this die when there is room, else
waits; TDEQ (R361) gives supervisor mode the head of a list; DCINIT, DCINC and DCDEC (R362) ask the counter's die and then
give its answer; TEXIT and TYIELD (R363) end a strand whose operations have completed: it leaves its groups, its release
counter goes down, its slot is given back, and TYIELD queues the continuation. -/
def Obligations.Tasks : Prop :=
  ∀ (d a b : GReg) (imm : BitVec 13) (sc : Scope) (free : Bool) (s s1 s2 : State) (c v D : Nat) (t : QTask),
    let x := addrOf (rg s a)
    let S := if sc = .none then narrowed s .pkg else sc
    let own := s.cur.dieKey
    let wait := dfield D 0x14 4
    let task := taskOf D s.tenant s.part s.cur.clu
    let name := (rg s a).toNat % 2 ^ 18
    let amount := fld (rg s b) 31 0
    let there : Prop := (s.modOf s.cur.mod).diesUp.contains (bits name 17 12) = true
    let new : Prop := unitAnswer s.me = none ∧ hasAsked s.me askCounter = false
    let queued : State := wg (if bitAt wait 31 then placeWaiting s2 own task else enqueue s2 own task) d 0
    let dst := if bitAt wait 31 then ctrDie s.cur.mod wait else own
    let ended : Prop := matrixBusy s s.cur = false ∧ ixBusy s s.cur = false ∧ s.fits sc ∧ release S s = .ok ((), s1)
    let freed : Prop := if sc = .none then s1 = s else release sc s = .ok ((), s1)
    let heads := (List.range 400).findSome? fun i => (readyList (s.dieOf own) i (fld (rg s b) 5 0)).head?
    (unitAnswer s.me = some (c, v) → s.fits sc →
      Completes (.tenq d a sc) s (wg s d (word v)) ∧ Completes (.dcdec d a b sc free) s (wg s d (word v)) ∧
      Completes (.dcinit d a imm) s (wg s d (word v)) ∧ Completes (.dcinc d a b) s (wg s d (word v))) ∧
    (unitAnswer s.me = none → hasAsked s.me askTask = false →
      (x % 32 ≠ 0 → Raises (.tenq d a sc) s .align x 0) ∧
      (x % 32 = 0 → s.fits sc → load x 32 true s = .ok (D, s1) →
        (descOk D (launchClass s s.cur.mod s.tenant) = false →
          Completes (.tenq d a sc) s (wg s1 d (rejectWord 1))) ∧
        (descOk D (launchClass s s.cur.mod s.tenant) = true →
          (bitAt wait 31 = true → ctrOk s s.cur.mod s.tenant wait = false →
            Completes (.tenq d a sc) s (wg s1 d (rejectWord 2))) ∧
          ((bitAt wait 31 = true → ctrOk s s.cur.mod s.tenant wait = true) → release S s1 = .ok ((), s2) →
            dst = own → s2.cur = s.cur →
            (storeFull s2 own task.task.tenant = false → queued.fits sc → Completes (.tenq d a sc) s queued) ∧
            (storeFull s2 own task.task.tenant = true → ∃ u sent, exec (.tenq d a sc) s = .next u ∧
              u.issue.ended = some (.park .engine sent)))))) ∧
    (s.super = false → Raises (.tdeq d a b) s .priv (wordAddr s) (halfBit s + 0x4D)) ∧
    (s.super = true → x % 32 ≠ 0 → Raises (.tdeq d a b) s .align x 1) ∧
    (s.super = true → x % 32 = 0 →
      (heads = none → Completes (.tdeq d a b) s (wg s d (rejectWord 5))) ∧
      (heads = some t → store x 32 (descOf t) true s = .ok ((), s1) →
        Completes (.tdeq d a b) s (wg (takeTask (unlist s1 own t.serial) own t.serial) d 0))) ∧
    (new → Waits (.dcinit d a imm) s .mem ∧ ∃ u, exec (.dcinit d a imm) s = .next u ∧
      u.notes = s.notes ++ [.counter s.cur own .init 0 (wrap 32 ((rg s a).toNat + imm.toInt)) false s.tenant]) ∧
    (new → there → Waits (.dcinc d a b) s .mem ∧ ∃ u, exec (.dcinc d a b) s = .next u ∧
      u.notes = s.notes ++ [.counter s.cur (ctrDie s.cur.mod name) .inc name amount false s.tenant]) ∧
    (new → ¬there → s.fits sc → Completes (.dcinc d a b) s (wg s d (rejectWord 2)) ∧
      Completes (.dcdec d a b sc free) s (wg s d (rejectWord 2))) ∧
    (new → there → s.fits sc → freed → Waits (.dcdec d a b sc free) s .mem ∧
      ∃ u, exec (.dcdec d a b sc free) s = .next u ∧
        u.notes = s1.notes ++ [.counter s1.cur (ctrDie s.cur.mod name) .dec name amount free s1.tenant]) ∧
    (ended → exec (.texit sc) s = .next (markGone
      (vacate (releaseCounter (quitGroups s1 s1.cur) s1.cur) s1.cur))) ∧
    (ended → storeFull s1 s1.cur.dieKey s1.tenant = false → exec (.tyield a b sc) s = .next (markGone
      (enqueue (vacate s1 s1.cur) s1.cur.dieKey (continuation s1 (rg s a) (fld (rg s b) 31 0))))) ∧
    (ended → storeFull s1 s1.cur.dieKey s1.tenant = true → Waits (.tyield a b sc) s .engine) ∧
    (matrixBusy s s.cur = true ∨ ixBusy s s.cur = true →
      Waits (.texit sc) s .engine ∧ Waits (.tyield a b sc) s .engine)

/-- The steps of the task store. A cluster makes one dispatch in a cycle (R350); an idle cluster takes half of the longest
list of its die, or asks the package's other dies and asks again after 1,024 cycles (R356), all by the lists as they stood
at the start of the cycle (R370); what it has taken is on no list of the cycle any more (R367); an operation on a counter happens at its die, and at 0 the tasks that wait are queued (R354, R362). -/
def Obligations.TaskSteps : Prop :=
  ∀ (die clu vf : Nat) (p q : Place) (s : State) (t : QTask) (r : Steal) (w c name amount : Nat) (op : CtrOp)
    (free : Bool) (tenant : Nat) (rest : List Note),
    let d := s.dieOf die
    let gone : State := s.modDie die fun x => { x with steals := x.steals.filter fun y => decide (y.vf ≠ vf) }
    let after : State := { s with notes := rest }
    let ctr (u : State) := fget Counter.free (u.dieOf die).counters (ctrIdx name)
    (fget 0 d.lastDisp clu ≠ s.ticks → offer s die clu = some (t, p) →
      exec (.taskDispatch die clu) s = .next (dispatch s die clu t p)) ∧
    (fget 0 d.lastDisp clu ≠ s.ticks → offer s die clu = none → exec (.taskDispatch die clu) s = .next s) ∧
    (fget 0 d.lastDisp clu = s.ticks → exec (.taskDispatch die clu) s = .next s) ∧
    (fget 0 ((dispatch s die clu t p).dieOf die).lastDisp clu = s.ticks) ∧
    (∀ x ∈ d.store, x.clu < 400 → .taskDispatch die x.clu ∈ (tick s).urgent) ∧
    (idleFor s (die * 512 + clu) vf = true → victim d vf = some c →
      exec (.taskSteal die clu vf) s = .next (steal s die c die clu vf)) ∧
    ((d.steals.find? fun x => decide (x.vf = vf) && !x.idle) = some r →
      ((ringAfter s die).find? fun y => (victim (s.dieOf y) vf).isSome) = some w → victim (s.dieOf w) vf = some c →
      exec (.stealRequest die vf) s = .next (steal gone w c die r.clu vf)) ∧
    ((d.steals.find? fun x => decide (x.vf = vf) && !x.idle) = some r →
      ((ringAfter s die).find? fun y => (victim (s.dieOf y) vf).isSome) = none →
      ∃ u, exec (.stealRequest die vf) s = .next u ∧ .stealRetry die vf ∈ u.agenda ∧
        { r with idle := true } ∈ (u.dieOf die).steals) ∧
    ((d.steals.find? fun x => decide (x.vf = vf) && x.idle) = some r →
      (s.ticks < r.sent + 1024 → exec (.stealRetry die vf) s = .next (s.again (.stealRetry die vf))) ∧
      (r.sent + 1024 ≤ s.ticks → idleFor s (die * 512 + r.clu) vf = false → exec (.stealRetry die vf) s = .next gone) ∧
      (r.sent + 1024 ≤ s.ticks → idleFor s (die * 512 + r.clu) vf = true →
        ∃ u, exec (.stealRetry die vf) s = .next u ∧ .stealRequest die vf ∈ u.agenda ∧
          { r with sent := s.ticks, idle := false } ∈ (u.dieOf die).steals)) ∧
    (s.notes = .counter q die op name amount free tenant :: rest →
      exec (.counterUpdate die q) s = .next (counterOp after die q op name amount free tenant)) ∧
    (s.notes = .tenq q die t :: rest → ctrOk s (dieMod die) t.task.tenant t.wait = true →
      storeFull s die t.task.tenant = false →
      exec (.counterUpdate die q) s = .next (giveAnswer (placeWaiting after die t) q 0 0)) ∧
    ((ctr s).live = true → (ctr s).tenant = tenant →
      (ctr (counterOp s die q .inc name amount free tenant)).count = min ((ctr s).count + amount) (2 ^ 32 - 1) ∧
      (ctr (counterOp s die q .dec name amount false tenant)).count = (ctr s).count - amount) ∧
    ((ctr s).live = false ∨ (ctr s).tenant ≠ tenant → op ≠ .init → op ≠ .exit →
      counterOp s die q op name amount free tenant = giveAnswer s q 0 (rejectWord 2).toNat)

/-! ### Power and groups -/

/-- The power instructions and groups. PWREQ (R364) joins the admission queue unless its units exceed the budget, before a
task whose 64th pass was in the same cycle (R367); PWREL gives the grant back. GJOIN and GLEAVE (R365) ask the group's home and then change GROUPS; GSYNC (R365) arrives, waits
until the phase ends, and acquires. -/
def Obligations.PowerAndGroups : Prop :=
  ∀ (d a : GReg) (imm : BitVec 13) (sc : Scope) (s s1 : State) (c v i : Nat),
    let freed : Prop := if sc = .none then s1 = s else release sc s = .ok ((), s1)
    let units := max (fld (rg s a) 3 0) 1
    let own := s.cur.dieKey
    let gs := s.me.csr.groups
    let n := groupName (rg s a) imm
    let g := (rg s a).toNat % 256
    let none' : Prop := unitAnswer s.me = none
    let req : AdmReq := .grant s.cur units (64 * (if imm = 0 then 64 else imm.toNat))
    let asks (t : Instr) (op : GrpOp) (m : Nat) : Prop := ∃ u, exec t s = .next u ∧
      u.notes = s.notes ++ [.group s.cur (groupDie s.cur.mod m) op m s.tenant]
    let joined (w : Word) : State := wg (s.modCsr fun z => { z with groups := w }) d (word v)
    (unitAnswer s.me = some (c, v) →
      Completes (.pwreq d a imm) s (wg s d (word v)) ∧
      (memberAt gs n ≠ none → Completes (.gjoin d a imm) s (wg s d (word v))) ∧
      (memberAt gs n = none → clearGv gs = some i → Completes (.gjoin d a imm) s (joined (withGroup gs i n))) ∧
      (memberAt gs n = some i → Completes (.gleave d a imm) s (joined (withoutGroup gs i))) ∧
      (memberAt gs g = some i → s.fits sc → (wg (s.acquired sc) d (word v)).fits sc →
        Completes (.gsync d a sc) s (wg (s.acquired sc) d (word v)))) ∧
    (none' → grantAwaited s s.cur = false →
      ((s.dieOf own).budget < units → Completes (.pwreq d a imm) s (wg s d (rejectWord 6))) ∧
      (units ≤ (s.dieOf own).budget → Waits (.pwreq d a imm) s .power ∧ ∃ u, exec (.pwreq d a imm) s = .next u ∧
        (u.dieOf own).adm = admAfter s.ticks req (s.dieOf own).adm ∧
        ((∀ x ∈ (s.dieOf own).adm, ∀ j w, x ≠ .task j w s.ticks) → (u.dieOf own).adm = (s.dieOf own).adm ++ [req]) ∧
        ((s.dieOf own).adm = [.task i v s.ticks] → (u.dieOf own).adm = [req, .task i v s.ticks]))) ∧
    (none' → grantAwaited s s.cur = true → Waits (.pwreq d a imm) s .power) ∧
    Completes .pwrel s (releaseGrant s s.cur) ∧
    (none' → hasAsked s.me askGroup = false →
      (memberAt gs n ≠ none → Waits (.gjoin d a imm) s .mem ∧ asks (.gjoin d a imm) .look n) ∧
      (memberAt gs n = none → clearGv gs = none → Completes (.gjoin d a imm) s (wg s d (rejectWord 7))) ∧
      (memberAt gs n = none → clearGv gs ≠ none → Waits (.gjoin d a imm) s .mem ∧ asks (.gjoin d a imm) .join n) ∧
      (memberAt gs n ≠ none → Waits (.gleave d a imm) s .mem ∧ asks (.gleave d a imm) .leave n)) ∧
    (memberAt gs n = none → Completes (.gleave d a imm) s (wg s d (rejectWord 8))) ∧
    (memberAt gs g = none → Completes (.gsync d a sc) s (wg s d (rejectWord 8))) ∧
    (memberAt gs g ≠ none → none' → hasAsked s.me askArrive = false → s.fits sc → freed →
      Waits (.gsync d a sc) s .gsync ∧ ∃ u, exec (.gsync d a sc) s = .next u ∧
        u.notes = s1.notes ++ [.group s1.cur (groupDie s1.cur.mod g) .arrive g s1.tenant])

/-- The steps of power and groups. The head of the admission queue is served when FREE covers it (R353); a grant that has
expired goes back (R364); a group's home counts joins, leaves and arrivals, and the last arrival of a phase ends it (R357);
a budget that is set lets what fits it join (R352); a hot die loses a tenth of its budget and a cool one gets it back, a
critical temperature takes the whole budget, and the shutdown temperature resets the module (R387; the step of a tenth is
the model's, log 26). -/
def Obligations.PowerSteps : Prop :=
  ∀ (die units u dur core st m : Nat) (p : Place) (hot : Bool) (s : State) (rest : List AdmReq) (ns : List Note)
    (op : GrpOp) (grp tenant : Nat),
    let d := s.dieOf die
    let served (t : State) : State := wakeAdmission (t.modDie die fun x => { x with adm := rest }) die
    let w := (s.strand p).csr.pwtoken
    let after : State := { s with notes := ns }
    let k := groupKey tenant grp
    let g := fget Group.empty d.groups k
    let grown : Group := { g with members := g.members + 1, remaining := g.remaining + 1 }
    let come : Group := { g with remaining := g.remaining - 1, arrivals := g.arrivals ++ [p] }
    let cut := (d.base + 9) / 10
    let left := if hot then d.budget - cut else min d.base (d.budget + cut)
    (d.adm = .grant p u dur :: rest →
      ((u : Int) ≤ d.free → exec (.admissionServe die) s = .next (served (giveGrant s p u dur))) ∧
      (d.free < (u : Int) → exec (.admissionServe die) s = .next s)) ∧
    (d.adm = .remote core st :: rest → 2 ≤ d.free →
      exec (.admissionServe die) s = .next (served (giveRemote s die core st))) ∧
    (tokenV w = true → tokenValid (s.now p.mod) w = false → exec (.grantExpiry p) s = .next (releaseGrant s p)) ∧
    (tokenV w = false ∨ tokenValid (s.now p.mod) w = true → exec (.grantExpiry p) s = .next s) ∧
    (s.notes = .group p die op grp tenant :: ns →
      (op = .join → exec (.groupUpdate die p) s = .next (giveAnswer (settleGroup after die k grown) p 0 g.gen)) ∧
      (op = .leave → exec (.groupUpdate die p) s = .next (giveAnswer (settleGroup after die k g.leave) p 0 g.gen)) ∧
      (op = .quit → exec (.groupUpdate die p) s = .next (settleGroup after die k g.leave)) ∧
      (op = .look → exec (.groupUpdate die p) s = .next (giveAnswer after p 0 g.gen)) ∧
      (op = .arrive → exec (.groupUpdate die p) s = .next (settleGroup after die k come)) ∧
      (op = .arrive → g.remaining = 1 → 0 < g.members → ∃ t, exec (.groupUpdate die p) s = .next t ∧
        fget Group.empty (t.dieOf die).groups k =
          { g with phase := (g.phase + 1) % 2, remaining := g.members, arrivals := [] })) ∧
    (∃ t, exec (.budgetSet die units) s = .next t ∧ (t.dieOf die).budget = units % 2 ^ 16 ∧
      (t.dieOf die).charged = d.charged ∧ (t.dieOf die).granted = d.granted) ∧
    (∃ t, exec (.thermalStep die hot) s = .next t ∧ (t.dieOf die).budget = left % 2 ^ 16) ∧
    (∃ t, exec (.criticalTemperature m) s = .next t ∧
      ∀ i ∈ (s.modOf m).diesUp, (t.dieOf (dieKey m i)).budget = 0) ∧
    exec (.shutdownTemperature m) s = .next (bootFailures (resetModule s m 1) m)

/-! ### Invalidations, slots and migration of strands -/

/-- The invalidations. PLBINV (R322) releases (to `s1`), drops what its page, domain or VF names, waits for accesses
checked before and for the write-backs it made, and acquires; CFLUSH (R323) sends dirty bytes home and waits for them; a length of 0 does nothing.
PLBINV needs supervisor mode. -/
def Obligations.Invalidations : Prop :=
  ∀ (a b : GReg) (sc : Scope) (s s1 : State),
    let D := dieScope sc
    let page := bits (rg s a).toNat 55 21
    let dom := (rg s a).toNat % 2 ^ 12
    let x := addrOf (rg s a)
    let n := fld (rg s b) 31 0
    let again : Prop := hasAsked s.me askFlush = true
    let asked : Prop := hasAsked s1.me askFlush = true
    let busy (t : State) (hit : Nat → Bool) : Bool := inFlight t (modInScope s1 D) (inScope s1 D) hit
    let begins : Prop := s.super = true ∧ s.fits sc ∧ release sc s = .ok ((), s1)
    let pass (hit : Nat → Bool) (t : State) : Prop := begins ∧ asked ∧ busy s1 hit = false ∧ busy t hit = false
    let doms (p : Nat → Bool) : State := dropDoms s1 D s1.tenant p
    let waits (i : Instr) : Prop := ∃ u sent, exec i s = .next u ∧ u.issue.ended = some (.park .mem sent) ∧
      u.me.g = s.me.g ∧ u.me.v = s.me.v ∧ u.me.k = s.me.k ∧ u.me.pc = s.me.pc
    let inPage (sec : Nat) : Bool := decide (pageOf (sec * 128) = page)
    let ends (i : Instr) (u : State) : Prop := u.fits sc → Completes i s u
    let dropped : State := dropAnswers (dropCode s (inScope s sc) (overlaps x n)) (inScope s sc) fun sec k =>
      decide (k = .fetch) && overlaps x n (sec * 128) 128
    (s.super = false → Raises (.plbinvPage a sc) s .priv (wordAddr s) (halfBit s + 0x63) ∧
      Raises (.plbinvDom a sc) s .priv (wordAddr s) (halfBit s + 0x63) ∧
      Raises (.plbinvVf sc) s .priv (wordAddr s) (halfBit s + 0x63)) ∧
    (pass inPage (dropPage s1 D page) →
      ends (.plbinvPage a sc) ((dropSlices (dropPage s1 D page) D page).acquired sc)) ∧
    (pass (fun _ => true) (doms fun y => decide (y = dom)) →
      ends (.plbinvDom a sc) ((doms fun y => decide (y = dom)).acquired sc)) ∧
    (pass (fun _ => true) (doms fun _ => true) → ends (.plbinvVf sc) ((doms fun _ => true).acquired sc)) ∧
    (begins → ¬asked → waits (.plbinvPage a sc) ∧ waits (.plbinvDom a sc) ∧ waits (.plbinvVf sc)) ∧
    (begins → asked → busy s1 inPage = true → waits (.plbinvPage a sc)) ∧
    (again → flushing s x n = false → Completes (.cflushWb a b) s s ∧ Completes (.cflushInv a b) s s ∧
      (s.fits sc → fetching s (inScope s sc) x n = false → dropped.fits sc →
        Completes (.cflushCode a b sc) s dropped)) ∧
    (¬again → n = 0 → Completes (.cflushWb a b) s s ∧ Completes (.cflushInv a b) s s ∧
      (s.fits sc → Completes (.cflushCode a b sc) s s)) ∧
    (¬again → n ≠ 0 → Waits (.cflushWb a b) s .mem ∧ Waits (.cflushInv a b) s .mem ∧
      (s.fits sc → Waits (.cflushCode a b sc) s .mem))

/-- The instructions on slots and partitions, in supervisor mode: SPART (R228) asks for a size of whole ways and gives the
old one; CTXSAVE (R235) stops a strand of its core and saves it, once its matrix operations have ended; CTXLOAD (R235) loads
an Empty slot; the own slot raises ILLEGAL_INSTR; poison in the save area raises DATA_ERROR at its first poisoned byte. SMIG (R264) releases (to `s1`) and moves a light strand to
another core of the package, and does nothing on the own core. -/
def Obligations.SlotInstructions : Prop :=
  ∀ (d a : GReg) (imm : BitVec 13) (s s1 : State) (c v : Nat),
    let bytes := ((rg s a).toNat + imm.toNat * 1024) % 2 ^ 64
    let p := placeOf s.cur.coreKey ((rg s a).toNat % 16)
    let x := s.strand p
    let saved := saveStrand s p
    let area := readArea s p
    let seen := shownState s p
    let refused : Prop :=
      if p.slot = 15 then partOfSlot s.core 14 = 15 else bits area 75 72 ≠ partOfSlot s.core p.slot
    let fresh : Prop := unitAnswer s.me = none
    let t := (rg s a).toNat
    let clu := cluKey s.cur.mod (bits t 22 17) (bits t 16 8)
    let exists' : Prop := bits t 34 23 = s.pkgOf s.cur.mod ∧ bits t 16 8 < 400 ∧
      (s.modOf s.cur.mod).diesUp.contains (bits t 22 17) = true
    let self : Prop := clu * 16 + bits t 7 4 = s.cur.coreKey
    let movable : Prop := isLight s s.cur = true ∧ s.me.tl = false ∧ s.cur.slot ≠ 15
    let free := p.slot ≠ s.cur.slot
    let priv (i : Instr) (op : Nat) : Prop := Raises i s .priv (wordAddr s) (halfBit s + op)
    (s.super = false → priv (.spart d a imm) 0x65 ∧ priv (.ctxsave d a) 0x66 ∧ priv (.ctxload d a) 0x67) ∧
    (s.super = true →
      (unitAnswer s.me = some (c, v) → Completes (.spart d a imm) s (wg s d (word v))) ∧
      (fresh → bytes % 16384 ≠ 0 ∨ 288 * 1024 < bytes →
        Completes (.spart d a imm) s (wg s d (word 0xFFFFFFFFFFFFFFFF))) ∧
      (fresh → bytes % 16384 = 0 → bytes ≤ 288 * 1024 → hasAsked s.me askSpart = false →
        Waits (.spart d a imm) s .mem ∧ ∃ u, exec (.spart d a imm) s = .next u ∧ u.clu.busy = true ∧
          u.clu.spart = s.clu.spart ++ [{ src := s.cur, ways := bytes / 16384 }]) ∧
      (¬free → Raises (.ctxsave d a) s .illegalInstr (wordAddr s) (halfBit s + 0x66) ∧
        Raises (.ctxload d a) s .illegalInstr (wordAddr s) (halfBit s + 0x67)) ∧
      (free → fresh → x.st = .empty → Completes (.ctxsave d a) s (wg s d 0)) ∧
      (free → fresh → x.st ≠ .empty → x.st ≠ .handover → mayStop s p = true → matrixBusy s p = false →
        Completes (.ctxsave d a) s
          (wg (writeArea saved.2 p saved.1) d (word (slotReason seen * 4 + slotCode seen)))) ∧
      (free → unitAnswer s.me = some (c, v) → matrixBusy s p = false →
        Completes (.ctxsave d a) s (wg (writeArea saved.2 p saved.1) d (word v))) ∧
      (free → fresh → x.st ≠ .empty → x.st ≠ .handover → mayStop s p = true → matrixBusy s p = true →
        ∃ u, exec (.ctxsave d a) s = .next u ∧ u.issue.ended = some (.park .mem true) ∧ (u.strand p).st = .handover) ∧
      (free → x.st ≠ .empty → x.st ≠ .parked .doubleTrap → Completes (.ctxload d a) s (wg s d 1)) ∧
      (free → x.st = .empty ∨ x.st = .parked .doubleTrap → badArea s.core p.slot = none →
        (refused → Completes (.ctxload d a) s (wg s d 2)) ∧
        (¬refused → Completes (.ctxload d a) s (wg (loadStrand (discardStrand s p) p area false) d 0))) ∧
      (∀ off, free → x.st = .empty ∨ x.st = .parked .doubleTrap → badArea s.core p.slot = some off →
        Raises (.ctxload d a) s .dataError (tcmAddr s s.cur.coreKey off) 0)) ∧
    (exists' → self → Completes (.smig d a) s (wg s d 0)) ∧
    (¬exists' → Raises (.smig d a) s .placement 0 0) ∧
    (exists' → ¬self → ¬movable → Raises (.smig d a) s .placement 0 0) ∧
    (exists' → ¬self → movable → ixBusy s s.cur = true → Waits (.smig d a) s .engine) ∧
    (exists' → ¬self → movable → ixBusy s s.cur = false → release .pkg s = .ok ((), s1) →
      ∀ dst rest, openSlots s1 s.cur clu [bits t 7 4] = dst :: rest → waitsBefore s1 s.cur clu = false →
        exec (.smig d a) s = .next (markGone
          (sendContext s1 s.cur dst s1.issue.next (some (d.val, word (s.strandId s.cur))))))

/-- The steps that move slots and strands. A conversion of ways waits until nothing is in flight and gives the old size
(R228); the end of a turn begins the next VF's, stops its gang first, or renews the turn of the only one (R378, R416); a
slot in its turn changes hands once its strand may stop (R233); a core above its threshold moves its lowest light strand
to a core at least 2 below (R262); a strand that arrives is Ready, with an acquire (R261); strands that wait for a slot
look again (R263). -/
def Obligations.SlotSteps : Prop :=
  ∀ (clu core m part vf i c : Nat) (p dst : Place) (s : State) (r : SpartReq) (rest : List SpartReq) (e : Partition)
    (v o : Nat) (x : Context) (xs : List Context) (ps : List Place),
    let y := s.strand p
    let q := placeOf core i
    let mine := s.strand q
    let held := (s.policy p.mod vf).part
    let out := (partitionOf s p.mod held).bind (·.vf)
    let given : State := (handIn (handOut s p out) p vf).modMod p.mod fun z =>
      { z with handovers := z.handovers.filter fun h => decide (h ≠ (p.key, vf)) }
    let quiet (j : Nat) : Bool := decide ((s.strand (placeOf core j)).st = .ready) && mayMove s (placeOf core j) &&
      !bundleBegun (s.strand (placeOf core j))
    let moved : State := s.modCore core fun z => { z with lastMig := some s.ticks }
    let stored := drainPushes moved q
    let waits (t : Traveller) : Bool := t.auto || hasAsked (s.strand t.who) askTravel
    let left : State := s.modClu clu fun z => { z with travellers := z.travellers.filter waits }
    let gone : State := (left.cluOf clu).travellers.foldl (autoDepart clu) left
    ((s.cluOf clu).spart = r :: rest →
      (cluFlight s clu = true → exec (.spartConversion clu) s = .next (s.again (.spartConversion clu))) ∧
      (cluFlight s clu = false → ∃ u, exec (.spartConversion clu) s = .next u ∧ (u.cluOf clu).spways = r.ways ∧
        (u.cluOf clu).spart = rest ∧ (u.cluOf clu).busy = !rest.isEmpty ∧
        (u.strand r.src).resps = (s.strand r.src).resps ++ [Resp.unit 0 ((s.cluOf clu).spways * 16384)])) ∧
    (partitionOf s m part = some e → e.next = none →
      (turnLasts s m part e = true → exec (.timeSliceExpiry m part) s = .next (s.again (.timeSliceExpiry m part))) ∧
      (turnLasts s m part e = false → nextVf s m part e.vf = some v →
        (e.vf = some v → exec (.timeSliceExpiry m part) s =
          .next (s.modPart m part fun z => { z with since := s.ticks })) ∧
        (e.vf = some o → o ≠ v → gangBusy s m o = true →
          exec (.timeSliceExpiry m part) s = .next (s.spawn (.gangQuery m o))) ∧
        (e.vf = some o → o ≠ v → gangBusy s m o = false →
          exec (.timeSliceExpiry m part) s = .next (beginSwitch s m part v)) ∧
        (e.vf = none → exec (.timeSliceExpiry m part) s = .next (beginSwitch s m part v)))) ∧
    ((s.modOf p.mod).handovers.contains (p.key, vf) = true →
      (s.now p.mod % 16 ≠ p.slot → exec (.slotHandover p vf) s = .next (s.again (.slotHandover p vf))) ∧
      (s.now p.mod % 16 = p.slot →
        y.live = false ∨ ((y.st = .handover ∨ mayStop s p = true) ∧ matrixBusy s p = false) →
        exec (.slotHandover p vf) s = .next (afterHandover given p held vf out))) ∧
    (moveDue s core = true → (List.range 16).find? quiet = some i → moveTarget s core mine.part mine.tenant = some c →
      marked stored q .pkg = [] → openSlots stored q (coreClu core) [c] = dst :: ps →
      exec (.autoMigration core) s = .next (sendContext stored q dst mine.pc.toNat none)) ∧
    (moveDue s core = false → exec (.autoMigration core) s = .next s) ∧
    ((s.cluOf clu).inbound = x :: xs → x.due ≤ s.ticks → ∃ u, exec (.migrationArrival clu) s = .next u ∧
      (u.cluOf clu).inbound = xs ∧ (u.strand x.dst).st = .ready ∧ (u.strand x.dst).pc = x.pc ∧
      (u.strand x.dst).task = x.task ∧ .asyncTrapEntry x.dst ∈ u.agenda) ∧
    ((gone.cluOf clu).travellers = [] → exec (.migrationSlotFree clu) s = .next gone) ∧
    ((gone.cluOf clu).travellers ≠ [] → ∃ u : State, exec (.migrationSlotFree clu) s = .next (u.again (.migrationSlotFree clu)) ∧
      u.clusters = gone.clusters)

/-! ### Steps at a strand and at a home slice -/

/-- What reaches a strand from outside. A pending asynchronous cause enters its handler, PREEMPT first (R93, R95, R96); the
timer sets source 0 and stops (R96); a doorbell sets source 1 of a strand of its VF, or is counted (R379); a preemption
notice goes to every strand of a VF (R383); an answer joins the bundle that waits for it (R175); a course passes a bundle
on, a rendezvous closes and a realignment ends at their times (R181, R186, R187); an access without an answer for 2^20
cycles after it was sent ends (R399). -/
def Obligations.StrandEvents : Prop :=
  ∀ (p : Place) (m vf clu idx info : Nat) (v w : Word) (s : State) (c : Cause) (r : Reply) (rest : List Reply)
    (f : Fwd) (d : Rdv),
    let x := s.strand p
    let after : State := { s with replies := rest }
    (asyncCause x = some (c, info) → bundleBegun x = false →
      ∃ u, exec (.asyncTrapEntry p) s = .next u ∧ (u.strand p).st = .ready ∧
        (u.strand p).pc = vector x.csr.evec c.code ∧ (u.strand p).csr.epc = x.pc ∧
        (u.strand p).csr.ecause = word (b2n c.isAsync * 2 ^ 63 + c.code) ∧ (u.strand p).csr.eaddr = 0 ∧
        (u.strand p).csr.einfo = word info ∧ (u.strand p).csr.sstat = trapStat x.csr.sstat ∧ (u.strand p).g = x.g) ∧
    (asyncCause x = none ∨ bundleBegun x = true → exec (.asyncTrapEntry p) s = .next s) ∧
    (x.ie = true → x.tl = false → x.pktOpen = false → x.notice = some w → asyncCause x = some (.preempt, w.toNat)) ∧
    (x.ie = false ∨ x.tl = true ∨ x.pktOpen = true → asyncCause x = none) ∧
    (timerDue (s.now p.mod) x = true → exec (.itimerFire p) s = .next ((s.modStrand p fun y =>
      { y with csr := { y.csr with ipend := y.csr.ipend ||| 1, itimer := setFld y.csr.itimer 63 63 0 } }).spawn
        (.asyncTrapEntry p))) ∧
    (timerDue (s.now p.mod) x = false → exec (.itimerFire p) s = .next s) ∧
    (placeOfId s m v.toNat = some p → x.live = true → x.st ≠ .handover → x.tenant = vf →
      exec (.intdbWrite m vf v) s = .next ((s.modStrand p fun y =>
        { y with csr := { y.csr with ipend := y.csr.ipend ||| 2 } }).spawn (.asyncTrapEntry p))) ∧
    (placeOfId s m v.toNat = some p → x.live = false ∨ x.st = .handover ∨ x.tenant ≠ vf →
      exec (.intdbWrite m vf v) s = .next (s.count p.dieKey 5)) ∧
    (placeOfId s m v.toNat = none → exec (.intdbWrite m vf v) s = .next (s.count (dieKey m (bits v.toNat 22 17)) 5)) ∧
    (∃ u, exec (.preemptNotice m vf w) s = .next u ∧ ∀ k, (Place.ofKey k).mod = m →
      (fget Strand.empty s.strands k).live = true → (fget Strand.empty s.strands k).tenant = vf →
      fget Strand.empty u.strands k = { fget Strand.empty s.strands k with notice := some w }) ∧
    (s.replies = r :: rest → r.dst = p → r.link = none → r.due ≤ s.ticks → r.waits = true → r.old = true →
      awaits x r.resp = true → exec (.memResponse p) s =
        .next (after.modStrand p fun y => (y.unask (respKey r.resp)).wakeIf [.mem])) ∧
    (s.replies = r :: rest → r.dst = p → r.link = none → r.due ≤ s.ticks → r.waits = true → r.old = false →
      awaits x r.resp = true →
      exec (.memResponse p) s = .next ((keepAnswer after r).modStrand p fun y =>
        { y with resps := y.resps ++ [r.resp] }.wakeIf [.mem])) ∧
    (s.replies = r :: rest → r.dst = p → r.link = none → r.due ≤ s.ticks → r.waits = true → awaits x r.resp = false →
      exec (.memResponse p) s = .next (after.count p.dieKey 14)) ∧
    ((∀ e ∈ s.replies, e.dst ≠ p ∨ e.link ≠ none) →
      exec (.memResponse p) s = .next (s.modStrand p fun y => y.wakeIf [.mem])) ∧
    ((x.fwd.find? fun e => !e.here) = some f →
      (s.ticks < f.arrive → exec (.courseForward p) s = .next (s.again (.courseForward p))) ∧
      (f.arrive ≤ s.ticks → exec (.courseForward p) s = .next (s.modStrand p fun y =>
        { y with fwd := mapFirst (fun g => !g.here) (fun g => { g with here := true }) y.fwd }))) ∧
    ((s.cluOf clu).rdvs[idx]? = some d → d.closed = false →
      (s.ticks < d.start + d.limit → exec (.courseTimeout clu idx) s = .next (s.again (.courseTimeout clu idx))) ∧
      (d.start + d.limit ≤ s.ticks → exec (.courseTimeout clu idx) s = .next (closeRdv s clu idx d))) ∧
    (x.parkedOn .realign = true → x.asked.headD 0 / 8 ≤ s.ticks →
      (courseOf s p = none → exec (.realignTimeout p) s = .next (giveAnswer s p 0 0)) ∧
      (∀ k, courseOf s p = some k → k.arrived.contains p.core = false →
        exec (.realignTimeout p) s = .next (giveAnswer s p 0 0))) ∧
    (x.parkedOn .realign = true → s.ticks < x.asked.headD 0 / 8 →
      exec (.realignTimeout p) s = .next (s.again (.realignTimeout p))) ∧
    ((∀ e ∈ x.askedAt, s.ticks < e.2 + 2 ^ 20) → exec (.accessTimeout p) s = .next s) ∧
    (x.parkedOn .fence = true → x.probes = [idx] → (2 * idx + 1, clu) ∈ x.askedAt → clu + 2 ^ 20 ≤ s.ticks → x.asked = [] →
      exec (.accessTimeout p) s = .next ((failureEcho s p idx).count p.dieKey 14)) ∧
    (x.parkedOn .mem = true → x.probes = [] → (x.asked.filter fun j => memAsk x j && outLong s x (2 * j)) = [idx * 8 + 6] →
      exec (.accessTimeout p) s = .next ((s.modStrand p fun y =>
        { y with resps := y.resps ++ [Resp.old .unanswered 0 false] }.wakeIf [.mem]).count p.dieKey 14))

/-- The steps of the home slices and of the memories' errors. A request or far atomic of a strand follows its route, in the
order of its core's requests to one slice, once it has arrived (R169, R306, R331); a walk reads the two halves of its leaf one after the
other, caches the leaf and serves what waits for it (R313, R314); a wake reaches the waits of its token (R319); a probe passes once no write before it is left, and its echo clears
its bit and ends the release with the last (R333); an error poisons or drops what it hits, is logged and counted (R320,
R321). -/
def Obligations.HomeEvents : Prop :=
  ∀ (m die page grp core a off n clu tenant act tok : Nat) (deep : Bool) (src p : Place) (s : State) (x : Msg)
    (bef aft : List Msg) (w : FaultWait) (rest : List Note) (b : IcBlock),
    let here (y : Msg) : Bool := decide (y.loc = m ∧ y.src = src) && !y.back && y.link.isNone
    let mine (e : Nat × Nat × Nat) : Bool := decide (e.1 = page)
    let fresh (y : Msg) : Msg :=
      if y.loc = dieMod die ∧ y.walk = none ∧ y.body.isProbe = false ∧ pageOf y.body.addr = page ∧ (y.home s).1 = die then
        { y with walk := some (some n) }
      else y
    let after : State := { s with notes := rest }
    let known := (s.dieOf die).waits.find? fun y => decide (y.token = tok)
    let served : State := after.modDie die fun d => { d with waits := d.waits.filter fun y => decide (y.token ≠ tok) }
    let z := s.strand p
    let pin := (s.policy m tenant).pinbase * 2 ^ 34 + off
    let dk := homeDie s m tenant pin
    let first := dieKey m (nth 0 (s.modOf m).diesUp 0)
    (splitFirst (fun y => here y && !y.body.isProbe && !y.body.isAmo) s.net = some (bef, x, aft) →
      (behind s bef x = true ∨ s.ticks < x.due →
        exec (.homeSliceRequest m src) s = .next (s.again (.homeSliceRequest m src))) ∧
      (behind s bef x = false → x.due ≤ s.ticks →
        exec (.homeSliceRequest m src) s = .next (followRoute s bef aft x (route s x)))) ∧
    (splitFirst (fun y => here y && y.body.isAmo) s.net = some (bef, x, aft) →
      (behind s bef x = true ∨ s.ticks < x.due →
        exec (.farAtomicExecute m src) s = .next (s.again (.farAtomicExecute m src))) ∧
      (behind s bef x = false → x.due ≤ s.ticks →
        exec (.farAtomicExecute m src) s = .next (followRoute s bef aft x (route s x)))) ∧
    ((s.dieOf die).walks.find? mine = none →
      (leafAddr s (dieMod die) (page * 2 ^ 21) = .empty → exec (.pageWalk die page) s = .next (endWalk s die page (some 0))) ∧
      (leafAddr s (dieMod die) (page * 2 ^ 21) = .poisoned → exec (.pageWalk die page) s = .next (endWalk s die page none)) ∧
      (leafAddr s (dieMod die) (page * 2 ^ 21) = .leaf a →
        (tableRead s (dieMod die) a = none → exec (.pageWalk die page) s = .next (endWalk s die page none)) ∧
        (tableRead s (dieMod die) a = some off → exec (.pageWalk die page) s = .next ((s.modDie die fun d =>
          { d with walks := (page, a, off) :: d.walks }).spawn (.pageWalk die page))))) ∧
    ((s.dieOf die).walks.find? mine = some (page, a, off) → exec (.pageWalk die page) s =
      .next (endWalk (s.modDie die fun d => { d with walks := d.walks.filter fun e => decide (e.1 ≠ page) }) die page
        (joinLeaf (some off) (tableRead s (dieMod die) (a + 8))))) ∧
    (endWalk s die page (some n)).net = s.net.map fresh ∧
    (leafV n = true → ((endWalk s die page (some n)).dieOf die).leafCache.find? (fun e => decide (e.1 = page)) =
      some (page, n)) ∧
    (s.notes = .wake die act tok :: rest →
      (known = none → exec (.faultackWake die) s = .next (after.count die 8)) ∧
      (known = some w → 2 ≤ act → exec (.faultackWake die) s = .next (after.count die 8)) ∧
      (known = some w → act < 2 → w.strands ≠ [] ∨ w.xfers ≠ [] → exec (.faultackWake die) s =
        .next (w.xfers.foldl (wakeXfer w (decide (act = 1))) (w.strands.foldl (wakeStrand tok (decide (act = 1))) served)))) ∧
    (s.net = x :: aft → x.loc = m → x.src = src → x.body = .probe grp deep →
      exec (.releaseProbe m src grp) s = .next (State.spawn { s with net := aft } (.probeEcho src grp))) ∧
    (z.probes = [grp] → grp < 32 → ∃ u, exec (.probeEcho p grp) s = .next u ∧ (u.strand p).probes = [] ∧
      (u.strand p).csr.ttmask = z.csr.ttmask &&& ~~~(BitVec.ofNat 32 (2 ^ grp)) ∧
      Resp.released ∈ (u.strand p).resps ∧ (z.st = .parked .fence → (u.strand p).st = .ready)) ∧
    (exec (.uncorrectableError (.cleanL1 core a n)) s =
      .next ((l1Error s core (a * 1024 + n % 8 * 128)).count (cluDie (coreClu core)) 1)) ∧
    (exec (.uncorrectableError (.dirtyL1 core a)) s = .next ((l1Error s core a).count (cluDie (coreClu core)) 1)) ∧
    (exec (.uncorrectableError (.l2 die a)) s = .next ((l2Error s die a).count die 1)) ∧
    (exec (.uncorrectableError (.pinned m tenant off)) s = .next (((s.modMod m fun y =>
      { y with pinnedPoison := fset y.pinnedPoison tenant (off / 8 :: fget [] y.pinnedPoison tenant) }).logErr dk tenant 3
        pin).count dk 1)) ∧
    (exec (.uncorrectableError (.dram m n)) s = .next (((s.modMod m fun y =>
      { y with dramPoison := n :: y.dramPoison.filter (· ≠ n) }).logErr first 64 5 (n * 32)).count first 1)) ∧
    (exec (.uncorrectableError (.tcm core off)) s = .next ((s.modCore core fun y =>
      { y with tcmPoison := off / 8 :: y.tcmPoison.filter (· ≠ off / 8) }).count (cluDie (coreClu core)) 1)) ∧
    (exec (.uncorrectableError (.scratchpad clu off)) s = .next (((s.modClu clu fun y =>
      { y with spadPoison := off / 8 :: y.spadPoison.filter (· ≠ off / 8) }).count (cluDie clu) 1).count (cluDie clu) 10)) ∧
    (exec (.uncorrectableError (.ring clu off)) s = .next (((s.modClu clu fun y =>
      { y with ringPoison := off % 1024 / 8 :: y.ringPoison.filter (· ≠ off % 1024 / 8) }).count (cluDie clu) 1).count
        (cluDie clu) 10)) ∧
    (exec (.uncorrectableError (.migration m n)) s = .next ((s.modMod m fun y =>
      { y with cmds := y.cmds.map fun c => if c.idx = n then { c with down := true } else c }).count first 1)) ∧
    (exec (.uncorrectableError (.flit m n)) s = .next ((flitError s m n).count (cluDie (nodeClu m n)) 1)) ∧
    (icFind (s.cluOf clu) n = some b → exec (.uncorrectableError (.icache clu n)) s =
      .next (((s.logErr (cluDie clu) b.tenant 2 (n * 64)).modClu clu fun y =>
        { y with icache := y.icache.filter fun e => decide (e.blk ≠ n) }).count (cluDie clu) 1)) ∧
    exec (.correctableError die) s = .next (s.count die 0) ∧
    exec (.errorCounterClear die) s = .next (s.modDie die fun d => { d with errs := [] })

/-! ### The module, the network and migration -/

/-- Launches and policies (R375, R379-R381, R383). A doorbell makes the ring's look due; a full entry at NEXT that is for a
VF without a launch is rejected with its status, waits for its ways, or starts its launch; a launch whose work is done
ends with status 0, or 8 and the tasks that waited; a reset stops a VF's work, waits for its engines, and ends its launch
with status 1; a policy field takes effect at once, or waits for the
VF's next dispatch or launch (log 36). -/
def Obligations.Launches : Prop :=
  ∀ (m vf st : Nat) (f : PolicyField) (s s1 : State) (h ent : Nat) (r : LaunchRec) (rest : List (Nat × QTask)),
    let l := s.launch m vf
    let at' := h / 2 ^ 64
    let who := entryVf vf ent
    let e := launchPart s m r.part
    let polls (t : State) : Host.Outcome State Fault Refusal := .next (spawnOnce t (.launchTake m vf))
    let full : Prop := l.en = true ∧ l.running = false ∧ ochreSee s m (ringTenant vf) l.ring 16 = some h ∧
      ochreSee s m (ringTenant vf) (l.entryAt at') 64 = some ent ∧ dfield ent 0x18 4 = (at' + 1) % 2 ^ 32 ∧
      vfTaken s m who = false
    let waits := (spanClusters m e).any (spartWaits s m e)
    let told : State := s1.modLaunch m vf fun x => { x with rest := rest }
    let kept := waitingTasks told m l.forVf
    let closed : State := finishEntry (discardWaiting told m l.forVf) m vf l.entry
      (if kept = 0 then 0 else 8 + kept * 2 ^ 32)
    let part := (closed.policy m l.forVf).part
    let begun : State := sweepVf (if (s.modOf m).resetting.contains vf then s else beginReset s m vf) m vf
    let busy := vfWorks begun m vf || vfPending begun m vf || vfSends begun m vf
    exec (.lqdb m vf) s = polls s ∧
    (l.en = false ∨ l.running = true → exec (.launchTake m vf) s = .next s) ∧
    (full → checkLaunch s m vf who ent = .error st → exec (.launchTake m vf) s =
      polls (finishEntry (noteLaunch s m who ent st) m vf at' st)) ∧
    (full → checkLaunch s m vf who ent = .ok r →
      (waits = true → exec (.launchTake m vf) s = polls (setBusy s m e true)) ∧
      (waits = false → exec (.launchTake m vf) s = .next
        ((startLaunch (setBusy s m e false) m vf who at' (bitAt (dfield ent 0x1C 1) 0) r).spawn (.launchEnd m vf)))) ∧
    (l.running = true → (s.modOf m).resetting.contains l.forVf = false → queueTasks l.rest s = (rest, s1) →
      (rest ≠ [] ∨ vfDone told m l.forVf = false →
        exec (.launchEnd m vf) s = .next (told.again (.launchEnd m vf))) ∧
      (rest = [] → vfDone told m l.forVf = true → exec (.launchEnd m vf) s = .next (spawnOnce
        (if (runningVfs closed m part).isEmpty then closed else spawnOnce closed (.timeSliceExpiry m part))
        (.launchTake m vf)))) ∧
    (busy = true → exec (.vfReset m vf) s = .next (begun.again (.vfReset m vf))) ∧
    (busy = false → exec (.vfReset m vf) s = .next (endReset begun m vf)) ∧
    (changeWaits s m vf f = true →
      exec (.vfPolicyWrite m vf f) s = .next (s.modPolicy m vf fun p => { p with pending := p.pending ++ [f] })) ∧
    (changeWaits s m vf f = false →
      exec (.vfPolicyWrite m vf f) s = .next (applyField (applyDue s m vf) m vf f)) ∧
    (∀ v, ∃ t, exec (.vfPolicyWrite m vf (.slice v)) s = .next t ∧ (t.policy m vf).slice = v % 2 ^ 20) ∧
    (∀ v, v ≤ 2 ^ 14 → vfStrands s m vf = [] → ∃ t, exec (.vfPolicyWrite m vf (.quota v)) s = .next t ∧ (t.policy m vf).quota = v) ∧
    (∀ v, ∃ t, exec (.vfPolicyWrite m vf (.en v)) s = .next t ∧ (t.policy m vf).en = v)

/-- The host, the firmware and failures (R317, R374, R376, R379, R384-R386, R388). A module boots from a good image after
its reset, and stays in recovery after a bad one; a package number is written once; a report is signed once firmware runs;
the host writes registers and the window, and its ports go down and up; a partition is configured once nothing is in
flight, unless it would share slots, banks or ways with another (log 36); failed stacks, cores and port dies are lost. -/
def Obligations.ModuleEvents : Prop :=
  ∀ (m vf port stack pd core part n : Nat) (img : FwImage) (nonce : BitVec 256) (num : BitVec 12) (a v : Word)
    (cfg : PartCfg) (s : State),
    let x := s.modOf m
    let fetches : Prop := x.boot = 1 ∧ x.recovery = false ∧ (s.port m 0).failed = false
    let arrived : Prop := img.arrived = true ∧ img.bytes < 2 ^ 28
    let dead : State := logFailure (s.modPort m pd fun p =>
      { p with dead := core % 4 :: p.dead.filter (· ≠ core % 4) }) m .ochre (4 * pd + core % 4)
    let old := launchPart s m part
    let e : Partition := { old with
      clusters := partClusters s m cfg, slots := cfg.slots % 2 ^ 15, banks := cfg.banks % 64, wayBase := cfg.wayBase,
      ways := cfg.ways }
    let named : State := s.modMod m fun y =>
      { y with partitions := (y.partitions.filter fun z => decide (z.1 ≠ part)) ++ [(part, e)] }
    let clash := x.partitions.any fun y => decide (y.1 ≠ part) && e.clashes y.2 m
    let ks := (spanClusters m { e with clusters := (old.clusters ++ e.clusters).eraseDups }).filter fun k => sharedClu named m k && decide ((s.cluOf k).spways ≠ sumWays named m k)
    let clear (t : State) (k : Nat) : State := t.modCore k fun c =>
      { c with slotmap := mapSlots part 0 c.slotmap, tbanks := fdel c.tbanks part }
    let put (t : State) (k : Nat) : State := t.modCore k fun c =>
      { c with slotmap := mapSlots part e.slots c.slotmap, tbanks := fset c.tbanks part e.banks }
    let base := bits (s.policy m vf).faultq.toNat 55 12 * 4096
    let tail := (ochreSee s m vf (base + 8) 8).getD 0
    let posted := drainPosts (if n = 0 then s else ochreWrite s m vf (base + 8) 8 (tail + n)) m
    exec (.moduleReset m) s = .next (bootFailures (resetModule s m 0) m) ∧
    (fetches → arrived → imagePasses m img = true → ∃ t, exec (.firmwareFetchRetry m img) s = .next t ∧ (t.modOf m).boot = 6 ∧
      (t.modOf m).fwVersion = img.version ∧ (t.modOf m).portUp = [Config.hostPortTest m 0, Config.hostPortTest m 1] ∧
      (t.modOf m).log.length = x.log.length + 3) ∧
    (fetches → arrived → imagePasses m img = false → exec (.firmwareFetchRetry m img) s =
      .next (logFailure (s.modMod m fun y => { y with recovery := true }) m .image img.version)) ∧
    (¬fetches ∨ ¬arrived → exec (.firmwareFetchRetry m img) s = .next s) ∧
    (x.boot = 6 → ∃ t, exec (.attestationRequest m nonce) s = .next t ∧
      (t.modOf m).report = some { body := reportBody s m nonce
                                  sig := Config.sign m (Config.sha384 (reportBody s m nonce)) }) ∧
    (x.boot ≠ 6 → exec (.attestationRequest m nonce) s = .next s) ∧
    (x.boot = 6 → x.pkg = none → ∃ t, exec (.packageNumberWrite m num) s = .next t ∧ (t.modOf m).pkg = some num.toNat) ∧
    (x.boot ≠ 6 ∨ x.pkg ≠ none → exec (.packageNumberWrite m num) s = .next s) ∧
    (∃ t, exec (.hostPortDown m port) s = .next t ∧ (t.modOf m).portUp = setNth x.portUp port false) ∧
    (∃ t, exec (.hostPortUp m port) s = .next t ∧ (t.modOf m).portUp = setNth x.portUp port true) ∧
    exec (.hostBarWrite m vf true a v n) s = .next (barWindow s m vf (decide (16 ≤ n)) a v (n % 16)) ∧
    (∃ t, exec (.hostBarWrite m vf false 0 v n) s = .next t ∧ (t.launch m vf).lqbase = word (fld v 55 6 * 64)) ∧
    exec (.hostBarWrite m vf false 0x10 v n) s = .next (spawnOnce s (.launchTake m vf)) ∧
    exec (.hostBarWrite m vf false 0x20 v n) s = .next (s.spawn (.intdbWrite m vf v)) ∧
    (∃ t, exec (.faultQueueTailAdvance m vf n) s = .next t ∧ t.mods = posted.mods ∧ t.dies = posted.dies) ∧
    (14 < part ∨ clash = true → exec (.partitionConfigure m part cfg) s = .next s) ∧
    (part ≤ 14 → clash = false → ks.any (cluFlight s) = true →
      exec (.partitionConfigure m part cfg) s = .next (s.again (.partitionConfigure m part cfg))) ∧
    (part ≤ 14 → clash = false → ks.any (cluFlight s) = false → exec (.partitionConfigure m part cfg) s =
      .next (ks.foldl (fun t k => convertWays t k (sumWays named m k))
        ((spanCores m e).foldl put ((spanCores m old).foldl clear named)))) ∧
    (∃ t, exec (.stackFailure m stack) s = .next t ∧ stack ∈ (t.modOf m).stacksDown) ∧
    ((dead.port m pd).dead.length < 4 → exec (.ochreCoreFault m pd core) s = .next dead) ∧
    ((dead.port m pd).dead.length = 4 → (s.port m pd).dead.length < 4 →
      exec (.ochreCoreFault m pd core) s = .next (portDieDown dead m pd)) ∧
    exec (.portDieFailure m pd) s =
      .next (portDieDown (logFailure (s.modPort m pd fun p => { p with failed := true, frames := [] }) m .portDie pd) m pd)

/-- The network and the links (R391, R393-R395, R397, R398, R386). A flit takes an output that shortens its way, one hop
older, or, with none, is deflected to a network output; at its router it is accepted, or discarded for its TYPE; packets are delivered whole in the order of
SEQ, and 32 flits give a credit; a frame that passes its checks is delivered, one that fails its link check is sent again;
a link comes up with the neighbour of its
direction only; a failed path loses what is on it. -/
def Obligations.NetworkEvents : Prop :=
  ∀ (m node src dst ch pd link dir peer kid c p : Nat) (ok next : Bool) (key : BitVec 256) (s s1 : State) (f : Flit)
    (bef aft fs : List Flit) (fr : LinkFrame) (frs : List LinkFrame) (rest : List Note) (n : Nat),
    let ps := productive s f node
    let here (g : Flit) : Prop := g.mod = m ∧ g.node = node ∧ g.ready ≤ s.ticks
    let moved := moveFlit n f p
    let e := s.eject m node
    let k := src * 8 + ch
    let seq := fget 0 e.nextSeq k
    let mine (g : Flit) : Bool := decide (g.src = src ∧ g.ch = ch)
    let taken : State := { s with flits := bef ++ aft }
    let cm := nodeClu m fr.node
    let check := receiveFrame s fr.hop true
    let removed : State := s1.modPort m pd fun x => { x with frames := frs }
    let used := (s.modOf m).links.filter fun x => x.2.up && !x.2.spare && decide (x.2.dir = dir ∧ x.1 ≠ link)
    let trained : Link :=
      { up := true, dir := dir, peer := peer, replays := 0, spare := decide (10 ≤ used.length), subst := none }
    let slot := s.keySlot m pd kid
    (s.flits = [f] → here f → f.stage = .transit → s.choice ps.length = (c, s1) → ps[c]? = some p →
      ∃ u, exec (.flitRoute m node) s = .next u ∧ u.flits = [moveFlit s.ticks f p]) ∧
    (s.flits = [f] → here f → f.stage = .transit → ps = [] →
      ∃ u, exec (.flitRoute m node) s = .next u ∧ u.flits = [moveFlit s.ticks f 0]) ∧
    (s.flits = [f] → here f → f.stage = .inject → mayInject s f = true →
      (s.choice 1).2.choice ps.length = (c, s1) → ps[c]? = some p →
      ∃ u, exec (.flitRoute m node) s = .next u ∧ u.flits = [moveFlit s.ticks f p]) ∧
    (p < 4 → f.age < 4095 → moved.node = neighbour f.node p ∧ moved.age = f.age + 1 ∧ moved.dst = f.dst ∧
      moved.seq = f.seq ∧ moved.payload = f.payload ∧ moved.ready = n + hopTime f.node moved.node) ∧
    (splitFirst (fun g => decide (g.mod = m ∧ g.node = node ∧ g.stage = .eject ∧ g.ready ≤ s.ticks)) s.flits =
        some (bef, f, aft) →
      (typeOk f.ch f.ty = false →
        exec (.flitEject m node) s = .next (taken.count (cluDie (nodeClu m node)) 12)) ∧
      (typeOk f.ch f.ty = true → exec (.flitEject m node) s =
        .next ((taken.modEject m f.dst fun x => { x with store := x.store ++ [f] }).spawn
          (.packetDeliver m f.dst f.src f.ch)))) ∧
    (gatherFlits (e.store.filter mine) 9 seq = some fs → ∃ u, exec (.packetDeliver m node src ch) s = .next u ∧
      fget 0 (u.eject m node).nextSeq k = (seq + fs.length) % 1024 ∧
      fget 0 (u.eject m node).since k = (fget 0 e.since k + fs.length) % 32 ∧
      ((u.eject m node).store = e.store.filter fun g => !(mine g && fs.contains g)) ∧
      (32 ≤ fget 0 e.since k + fs.length → src < 2 ^ 16 → node < 2 ^ 16 → ∃ g ∈ u.flits, g.dst = src ∧ g.src = node ∧
        g.ch = 7 ∧ g.ty = 0x3B ∧ g.payload = BitVec.ofNat 256 ch)) ∧
    (gatherFlits (e.store.filter mine) 9 seq = none → exec (.packetDeliver m node src ch) s = .next s) ∧
    (s.notes = .credit m src dst ch :: rest → ∃ u, exec (.deliveryCredit m src dst ch) s = .next u ∧ u.notes = rest ∧
      fget 0 (u.eject m src).flight (dst * 8 + ch) = fget 0 (s.eject m src).flight (dst * 8 + ch) - 32) ∧
    ((s.port m pd).frames = fr :: frs → s.pkgOf m = fr.dst →
      (check = (.good, s1) → exec (.linkFrameReceive m pd) s =
        .next ((removed.note (.vs cm fr.entry 5 fr.pkt)).spawn (.vsPacketArrive cm 5))) ∧
      (check = (.bad, s1) → exec (.linkFrameReceive m pd) s = .next removed) ∧
      (check = (.replay, s1) → exec (.linkFrameReceive m pd) s = .next (s1.again (.linkFrameReceive m pd)))) ∧
    ((s.linkOf m link).up = false → exec (.linkDown m link) s = .next s) ∧
    ((s.linkOf m link).up = true → ∃ u,
      exec (.linkDown m link) s = .next u ∧ (u.linkOf m link).up = false) ∧
    (link < 64 → (s.modOf m).pkg = some n →
      (ok = false ∨ (s.port m (link / 4)).down = true → ∃ u, exec (.linkTraining m (64 * dir + link) peer ok) s = .next u ∧
        (u.linkOf m link).up = false) ∧
      (ok = true → (s.port m (link / 4)).down = false → dir < 6 → neighbourIn n dir = peer → ∃ u,
        exec (.linkTraining m (64 * dir + link) peer ok) s = .next u ∧ u.linkOf m link = trained) ∧
      (ok = true → (s.port m (link / 4)).down = false → 6 ≤ dir ∨ neighbourIn n dir ≠ peer → ∃ u,
        exec (.linkTraining m (64 * dir + link) peer ok) s = .next u ∧ (u.linkOf m link).up = false)) ∧
    (∃ u, exec (.keyLoad m pd kid next key) s = .next u ∧
      (next = true → (u.keySlot m pd kid).next = some key ∧ (u.keySlot m pd kid).cur = slot.cur ∧
        (u.keySlot m pd kid).epoch = slot.epoch) ∧
      (next = false → (u.keySlot m pd kid).cur = some key)) ∧
    (∃ u, exec (.pathFailed m peer) s = .next u ∧ peer ∈ (u.modOf m).failedPaths ∧
      ∀ x ∈ u.net, x ∈ s.net ∧ ¬(x.link.isSome = true ∧ x.frm = m ∧ (s.modOf x.loc).pkg = some peer))

/-- The migration engine's commands (R420-R425, R430, R433). A full entry is taken; MOVE and DUP start, copy and cut over
part by part; COLLAPSE invalidates every copy and ends when all have answered; RECLAIM purges stubs; a command that has
ended writes its status, and NEXT moves on. -/
def Obligations.MigrationCommands : Prop :=
  ∀ (m idx holder h page part st p k : Nat) (ps : List Nat) (s s1 : State) (d : Nat) (c : MigCmd) (rest : List Note),
    let i := (s.modOf m).migTaken
    let new := cmdOf i d
    let free : Prop := c.status = none ∧ pageBusy s m c = false ∧ c.down = false
    let l := pageLeaf s m c.page
    let dest := if c.op = 2 then setLeafState (setDup (setRes c.destSeen p true) p true) 2 else setRes c.destSeen p true
    let source := if c.op = 2 then setDup c.leafSeen p true else setRes c.leafSeen p false
    let copied := c.dirty.foldl (fun t x => copyLine t m k c.tenant x c.leafSeen c.destSeen) s
    let cut := cutSource (writeLeaf (writeLeaf copied k c.page c.destSeen dest) m c.page c.leafSeen source) m k c p
    let cmd : MigCmd := { c with
      moved := c.moved + 2 ^ p, rest := ps, frozen := false, lines := [], dirty := [], leafSeen := source, destSeen := dest }
    let stubs := (partsOf c.parts).filterMap fun j => stubOf s m c.page j
    let status := ringWrite s m (ringEntry s m idx + 0x30) 8 (st + (if st = 0 ∨ c.op ≠ 1 then 0 else c.moved * 2 ^ 32))
    let closed : State := status.modCmd m idx fun x => { x with ended := true }
    let after : State := { s with notes := rest }
    let plain := (partsOf c.parts).foldl (fun x j => setDup x j false) l
    (((s.modOf m).cmds.filter fun x => !x.ended).length < 64 → ringRead s m (ringEntry s m i) 64 = (d, s1) →
      (dfield d 0x18 4 = (i + 1) % 2 ^ 32 → exec (.migrationCommandTake m) s =
        .next ((s1.modMod m fun x => { x with migTaken := i + 1, cmds := x.cmds ++ [new] }).spawns
          [cmdEvent m new, .migrationCommandTake m])) ∧
      (dfield d 0x18 4 ≠ (i + 1) % 2 ^ 32 → exec (.migrationCommandTake m) s = .next s1)) ∧
    (cmdAt s m idx = some c →
      (free → c.frozen = false → c.pass = 0 → exec (.move m idx) s = .next (startMove s m c) ∧
        exec (.dup m idx) s = .next (startMove s m c)) ∧
      (free → c.frozen = false → c.pass ≠ 0 → exec (.move m idx) s = .next (copyStep s m c) ∧
        exec (.dup m idx) s = .next (copyStep s m c)) ∧
      (c.rest = p :: ps → destMod s m c = some k → c.frozen = true → c.down = false → leafWritten s m k c = false →
        exec (.migrationCutover m idx) s = .next (if ps.isEmpty then finishMove (cut.modCmd m idx fun _ => cmd) m cmd 0
          else startPart (cut.modCmd m idx fun _ => cmd) m cmd)) ∧
      (free → c.pass = 0 → (∀ j ∈ partsOf c.parts, locate s m c.tenant (c.addr + j * 2 ^ 16) l ≠ .absent) →
        ownerOf s m l ≠ s.pkgOf m → exec (.collapse m idx) s = .next (endCmd s m idx 2)) ∧
      (free → c.pass ≠ 0 → c.acks = [] → l = c.leafSeen → ∃ u, exec (.collapse m idx) s = .next (endCmd
        (writeLeaf u m c.page l (if leafDup plain = 0 then setLeafState plain 0 else plain)) m idx 0) ∧
        ∀ e ∈ (u.modOf m).dups, ¬(e.page = c.page ∧ bitAt c.parts e.part = true)) ∧
      (free → c.pass ≠ 0 → c.acks ≠ [] → exec (.collapse m idx) s = .next (s.again (.collapse m idx))) ∧
      (free → stubs = [] → exec (.reclaim m idx) s = .next (endCmd s m idx 0)) ∧
      (free → stubs ≠ [] → exec (.reclaim m idx) s = .next (((stubs.filter fun t => t.purging.isNone).foldl
        (fun u t => startPurge u m t) s).again (.reclaim m idx))) ∧
      (c.status = some st → c.ended = false → c.cwaddr = 0 → exec (.migrationCommandComplete m idx) s =
        .next ((advanceNext m (closed.modOf m).cmds.length closed).spawn (.migrationCommandTake m)))) ∧
    (s.notes = .inval h m idx page part :: rest → s.pkgOf h = holder → ∃ u,
      exec (.collapseInvalidate m idx holder) s = .next u ∧ .invalAck m idx holder part ∈ u.notes ∧
        .collapseAck m idx holder ∈ u.agenda) ∧
    (s.notes = .invalAck m idx holder part :: rest → exec (.collapseAck m idx holder) s =
      .next (after.modCmd m idx fun x => { x with acks := x.acks.filter fun y => decide (y ≠ (holder, part)) }))

/-- Stubs, relays and purges (R427-R430, R438). A request for a part that the cached leaf does not locate here waits for a
fresh walk; one for a part that has gone is relayed by its stub; the last stub's redirect teaches the requesting slice the package; a relay acknowledged is no longer
outstanding; a stub that has been quiet is purged from every package, and freed when all have answered and nothing is
outstanding. -/
def Obligations.Stubs : Prop :=
  ∀ (m die frm page part slice tenant pkg n : Nat) (src : Place) (stub : Bool) (at' : Attr) (s : State) (x : Msg)
    (bef aft : List Msg) (rest : List Note) (t : Stub),
    let mine (y : Msg) : Bool := decide (y.loc = m ∧ y.src = src) && !y.back && y.link.isNone && !y.body.isProbe
    let a := x.body.addr
    let after : State := { s with notes := rest }
    let again : Msg :=
      { x with back := false, walked := true, hops := 0, via := [], tag := 0, tagStub := 0, attr := none, walk := none }
    let forgot : State := (ackRelays s x).modDie die fun d =>
      { d with ownerCache := d.ownerCache.filter fun e => decide (e.1 ≠ (x.tenant, pageOf a, partOf a)),
               leafCache := d.leafCache.filter (fun e => decide (e.1 ≠ pageOf a)),
               walks := d.walks.filter fun e => decide (e.1 ≠ pageOf a) }
    let same (r : Redir) : Bool := decide (r.slice = slice ∧ r.tenant = tenant ∧ r.page = page ∧ r.part = part)
    let left := (t.purging.getD []).filter (· ≠ frm)
    (splitFirst mine s.net = some (bef, x, aft) →
      (behind s bef x = true ∨ s.ticks < x.due → exec (.stubRelay m src) s = .next (s.again (.stubRelay m src))) ∧
      (behind s bef x = false → x.due ≤ s.ticks → route s x = .relay pkg stub at' →
        exec (.stubRelay m src) s = .next (relayMsg s bef aft x pkg stub at'))) ∧
    (splitFirst (fun y => decide (y.src = src ∧ (y.node s).1 = die) && y.back && y.link.isNone) s.net = some (bef, x, aft) →
      exec (.walkReturn die src) s = .next (State.spawn { forgot with net := bef ++ again :: aft } again.event)) ∧
    (s.notes = .relayAck m page part tenant true n none :: rest → exec (.relayAck m page part) s =
      .next (after.modMod m fun y => { y with
        stubs := mapFirst (fun z => decide (z.page = page ∧ z.part = part ∧ 0 < z.outstanding))
          (fun z => { z with outstanding := z.outstanding - 1 }) y.stubs })) ∧
    (x.walk = none → x.tag = 0 → locate s x.loc x.tenant a n = .other pkg ∨ locate s x.loc x.tenant a n = .absent →
      guestRoute s x n = .walk) ∧
    (x.walk = none → x.tag = 0 → (attrOf n a (s.pkgOf x.loc)).dup = true → x.body.wantsWrite = true →
      guestRoute s x n = .walk) ∧
    (s.notes = .redirect die slice tenant page part pkg n frm :: rest → page < 2 ^ 34 → part < 32 →
      (s.dieOf die).redirs.filter (fun r => decide (r.slice = slice)) = [] →
      ∃ u, exec (.redirect die page part) s = .next u ∧ u.notes = rest ∧
        (u.dieOf die).redirs.find? same = some 
          { slice := slice, tenant := tenant, page := page, part := part, pkg := pkg, count := n, stub := frm } ∧
        (pkg ≠ s.pkgOf (dieMod die) → ownerHint u die tenant (page * 2 ^ 21 + part * 2 ^ 16) = some pkg)) ∧
    (stubOf s m page part = some t →
      (t.purging ≠ none → exec (.stubQuietExpiry m page part) s = .next s) ∧
      (t.purging = none → s.ticks < t.since + t.quiet * 1024 → exec (.stubQuietExpiry m page part) s =
        .next (s.again (.stubQuietExpiry m page part))) ∧
      (t.purging = none → t.since + t.quiet * 1024 ≤ s.ticks → exec (.stubQuietExpiry m page part) s =
        .next (startPurge s m t)) ∧
      (s.notes = .purgeAck m frm page part n :: rest → t.purging ≠ none → t.purgedAt = n →
        (left = [] → t.outstanding = 0 → exec (.purgeAck m frm page part) s = .next (freeStub after m page part t)) ∧
        (left = [] → 0 < t.outstanding → exec (.purgeAck m frm page part) s =
          .next (s.again (.purgeAck m frm page part))) ∧
        (left ≠ [] → exec (.purgeAck m frm page part) s = .next (after.modMod m fun y => { y with
          stubs := mapFirst (fun z => z.live && decide (z.page = page ∧ z.part = part))
            (fun z => { z with purging := some left }) y.stubs })))) ∧
    (s.notes = .purge m frm page part pkg n :: rest →
      (sentOff s m page part = true → exec (.purge m frm page part) s = .next (s.again (.purge m frm page part))) ∧
      (sentOff s m page part = false → ∃ u, exec (.purge m frm page part) s = .next u ∧
        .purgeAck frm m page part n ∈ u.notes ∧ .purgeAck frm m page part ∈ u.agenda))
end

