-- ==== Sys2Proof/Laws/State.lean ====
section
/-! SUPPORT. What each update of State leaves and writes: one lemma for each field and update, and the
reads of a sparse map after a write. -/

namespace Sys2Proof.Laws

open Sys2Proof Sys2Proof.Machine

/-- Reading the key that was written. -/
@[simp] theorem fget_fset_same {α : Type} (d : α) (m : List (Nat × α)) (k : Nat) (x : α) :
    fget d (fset m k x) k = x := by
  induction m with
  | nil => simp [fset, fget]
  | cons e m ih =>
    obtain ⟨j, y⟩ := e
    simp only [fset]
    split
    · simp [fget]
    · split
      · simp [fget]
      · rename_i h1 h2
        simp [fget, ih, Ne.symm h2]

/-- Reading another key. -/
theorem fget_fset_other {α : Type} (d : α) (m : List (Nat × α)) (k j : Nat) (x : α) (h : j ≠ k) :
    fget d (fset m k x) j = fget d m j := by
  induction m with
  | nil => simp [fset, fget, Ne.symm h]
  | cons e m ih =>
    obtain ⟨i, y⟩ := e
    simp only [fset]
    split
    · simp [fget, Ne.symm h]
    · split
      · rename_i h2
        subst h2
        simp [fget, Ne.symm h]
      · simp [fget, ih]

/-- Every entry of a map after a write is an old one or the new one. -/
theorem mem_fset {α : Type} (m : List (Nat × α)) (k : Nat) (x : α) (e : Nat × α)
    (h : e ∈ fset m k x) : e ∈ m ∨ e = (k, x) := by
  induction m with
  | nil => simpa [fset] using h
  | cons i m ih =>
    obtain ⟨j, y⟩ := i
    simp only [fset] at h
    split at h
    · simpa [or_comm, or_left_comm] using h
    · split at h
      · rcases List.mem_cons.mp h with h | h
        · exact .inr h
        · exact .inl (List.mem_cons_of_mem _ h)
      · rcases List.mem_cons.mp h with h | h
        · exact .inl (h ▸ List.mem_cons_self)
        · rcases ih h with h | h
          · exact .inl (List.mem_cons_of_mem _ h)
          · exact .inr h

/-- What a map answers is the default or one of its entries. -/
theorem fget_mem {α : Type} (d : α) (m : List (Nat × α)) (k : Nat) :
    fget d m k = d ∨ ∃ e ∈ m, e.2 = fget d m k := by
  induction m with
  | nil => exact .inl rfl
  | cons i m ih =>
    obtain ⟨j, y⟩ := i
    simp only [fget]
    split
    · exact .inr ⟨(j, y), List.mem_cons_self, rfl⟩
    · rcases ih with h | ⟨e, h1, h2⟩
      · exact .inl h
      · exact .inr ⟨e, List.mem_cons_of_mem _ h1, h2⟩

@[simp] theorem setStrand_ticks (s : State) (p : Place) (x : Strand) :
    (s.setStrand p x).ticks = s.ticks := rfl
@[simp] theorem setStrand_turn (s : State) (p : Place) (x : Strand) :
    (s.setStrand p x).turn = s.turn := rfl
@[simp] theorem setStrand_cur (s : State) (p : Place) (x : Strand) :
    (s.setStrand p x).cur = s.cur := rfl
@[simp] theorem setStrand_issue (s : State) (p : Place) (x : Strand) :
    (s.setStrand p x).issue = s.issue := rfl
@[simp] theorem setStrand_strands (s : State) (p : Place) (x : Strand) :
    (s.setStrand p x).strands = fset s.strands p.key x := rfl
@[simp] theorem setStrand_cores (s : State) (p : Place) (x : Strand) :
    (s.setStrand p x).cores = s.cores := rfl
@[simp] theorem setStrand_clusters (s : State) (p : Place) (x : Strand) :
    (s.setStrand p x).clusters = s.clusters := rfl
@[simp] theorem setStrand_dies (s : State) (p : Place) (x : Strand) :
    (s.setStrand p x).dies = s.dies := rfl
@[simp] theorem setStrand_mods (s : State) (p : Place) (x : Strand) :
    (s.setStrand p x).mods = s.mods := rfl
@[simp] theorem setStrand_net (s : State) (p : Place) (x : Strand) :
    (s.setStrand p x).net = s.net := rfl
@[simp] theorem setStrand_replies (s : State) (p : Place) (x : Strand) :
    (s.setStrand p x).replies = s.replies := rfl
@[simp] theorem setStrand_notes (s : State) (p : Place) (x : Strand) :
    (s.setStrand p x).notes = s.notes := rfl
@[simp] theorem setStrand_flits (s : State) (p : Place) (x : Strand) :
    (s.setStrand p x).flits = s.flits := rfl
@[simp] theorem setStrand_ejects (s : State) (p : Place) (x : Strand) :
    (s.setStrand p x).ejects = s.ejects := rfl
@[simp] theorem setStrand_agenda (s : State) (p : Place) (x : Strand) :
    (s.setStrand p x).agenda = s.agenda := rfl
@[simp] theorem setStrand_fresh (s : State) (p : Place) (x : Strand) :
    (s.setStrand p x).fresh = s.fresh := rfl
@[simp] theorem setStrand_left (s : State) (p : Place) (x : Strand) :
    (s.setStrand p x).left = s.left := rfl
@[simp] theorem setStrand_urgent (s : State) (p : Place) (x : Strand) :
    (s.setStrand p x).urgent = s.urgent := rfl

@[simp] theorem modStrand_ticks (s : State) (p : Place) (f : Strand → Strand) :
    (s.modStrand p f).ticks = s.ticks := rfl
@[simp] theorem modStrand_turn (s : State) (p : Place) (f : Strand → Strand) :
    (s.modStrand p f).turn = s.turn := rfl
@[simp] theorem modStrand_cur (s : State) (p : Place) (f : Strand → Strand) :
    (s.modStrand p f).cur = s.cur := rfl
@[simp] theorem modStrand_issue (s : State) (p : Place) (f : Strand → Strand) :
    (s.modStrand p f).issue = s.issue := rfl
@[simp] theorem modStrand_strands (s : State) (p : Place) (f : Strand → Strand) :
    (s.modStrand p f).strands = fset s.strands p.key (f (s.strand p)) := rfl
@[simp] theorem modStrand_cores (s : State) (p : Place) (f : Strand → Strand) :
    (s.modStrand p f).cores = s.cores := rfl
@[simp] theorem modStrand_clusters (s : State) (p : Place) (f : Strand → Strand) :
    (s.modStrand p f).clusters = s.clusters := rfl
@[simp] theorem modStrand_dies (s : State) (p : Place) (f : Strand → Strand) :
    (s.modStrand p f).dies = s.dies := rfl
@[simp] theorem modStrand_mods (s : State) (p : Place) (f : Strand → Strand) :
    (s.modStrand p f).mods = s.mods := rfl
@[simp] theorem modStrand_net (s : State) (p : Place) (f : Strand → Strand) :
    (s.modStrand p f).net = s.net := rfl
@[simp] theorem modStrand_replies (s : State) (p : Place) (f : Strand → Strand) :
    (s.modStrand p f).replies = s.replies := rfl
@[simp] theorem modStrand_notes (s : State) (p : Place) (f : Strand → Strand) :
    (s.modStrand p f).notes = s.notes := rfl
@[simp] theorem modStrand_flits (s : State) (p : Place) (f : Strand → Strand) :
    (s.modStrand p f).flits = s.flits := rfl
@[simp] theorem modStrand_ejects (s : State) (p : Place) (f : Strand → Strand) :
    (s.modStrand p f).ejects = s.ejects := rfl
@[simp] theorem modStrand_agenda (s : State) (p : Place) (f : Strand → Strand) :
    (s.modStrand p f).agenda = s.agenda := rfl
@[simp] theorem modStrand_fresh (s : State) (p : Place) (f : Strand → Strand) :
    (s.modStrand p f).fresh = s.fresh := rfl
@[simp] theorem modStrand_left (s : State) (p : Place) (f : Strand → Strand) :
    (s.modStrand p f).left = s.left := rfl
@[simp] theorem modStrand_urgent (s : State) (p : Place) (f : Strand → Strand) :
    (s.modStrand p f).urgent = s.urgent := rfl

@[simp] theorem setMe_ticks (s : State) (x : Strand) :
    (s.setMe x).ticks = s.ticks := rfl
@[simp] theorem setMe_turn (s : State) (x : Strand) :
    (s.setMe x).turn = s.turn := rfl
@[simp] theorem setMe_cur (s : State) (x : Strand) :
    (s.setMe x).cur = s.cur := rfl
@[simp] theorem setMe_issue (s : State) (x : Strand) :
    (s.setMe x).issue = s.issue := rfl
@[simp] theorem setMe_strands (s : State) (x : Strand) :
    (s.setMe x).strands = fset s.strands s.cur.key x := rfl
@[simp] theorem setMe_cores (s : State) (x : Strand) :
    (s.setMe x).cores = s.cores := rfl
@[simp] theorem setMe_clusters (s : State) (x : Strand) :
    (s.setMe x).clusters = s.clusters := rfl
@[simp] theorem setMe_dies (s : State) (x : Strand) :
    (s.setMe x).dies = s.dies := rfl
@[simp] theorem setMe_mods (s : State) (x : Strand) :
    (s.setMe x).mods = s.mods := rfl
@[simp] theorem setMe_net (s : State) (x : Strand) :
    (s.setMe x).net = s.net := rfl
@[simp] theorem setMe_replies (s : State) (x : Strand) :
    (s.setMe x).replies = s.replies := rfl
@[simp] theorem setMe_notes (s : State) (x : Strand) :
    (s.setMe x).notes = s.notes := rfl
@[simp] theorem setMe_flits (s : State) (x : Strand) :
    (s.setMe x).flits = s.flits := rfl
@[simp] theorem setMe_ejects (s : State) (x : Strand) :
    (s.setMe x).ejects = s.ejects := rfl
@[simp] theorem setMe_agenda (s : State) (x : Strand) :
    (s.setMe x).agenda = s.agenda := rfl
@[simp] theorem setMe_fresh (s : State) (x : Strand) :
    (s.setMe x).fresh = s.fresh := rfl
@[simp] theorem setMe_left (s : State) (x : Strand) :
    (s.setMe x).left = s.left := rfl
@[simp] theorem setMe_urgent (s : State) (x : Strand) :
    (s.setMe x).urgent = s.urgent := rfl

@[simp] theorem modMe_ticks (s : State) (f : Strand → Strand) :
    (s.modMe f).ticks = s.ticks := rfl
@[simp] theorem modMe_turn (s : State) (f : Strand → Strand) :
    (s.modMe f).turn = s.turn := rfl
@[simp] theorem modMe_cur (s : State) (f : Strand → Strand) :
    (s.modMe f).cur = s.cur := rfl
@[simp] theorem modMe_issue (s : State) (f : Strand → Strand) :
    (s.modMe f).issue = s.issue := rfl
@[simp] theorem modMe_strands (s : State) (f : Strand → Strand) :
    (s.modMe f).strands = fset s.strands s.cur.key (f s.me) := rfl
@[simp] theorem modMe_cores (s : State) (f : Strand → Strand) :
    (s.modMe f).cores = s.cores := rfl
@[simp] theorem modMe_clusters (s : State) (f : Strand → Strand) :
    (s.modMe f).clusters = s.clusters := rfl
@[simp] theorem modMe_dies (s : State) (f : Strand → Strand) :
    (s.modMe f).dies = s.dies := rfl
@[simp] theorem modMe_mods (s : State) (f : Strand → Strand) :
    (s.modMe f).mods = s.mods := rfl
@[simp] theorem modMe_net (s : State) (f : Strand → Strand) :
    (s.modMe f).net = s.net := rfl
@[simp] theorem modMe_replies (s : State) (f : Strand → Strand) :
    (s.modMe f).replies = s.replies := rfl
@[simp] theorem modMe_notes (s : State) (f : Strand → Strand) :
    (s.modMe f).notes = s.notes := rfl
@[simp] theorem modMe_flits (s : State) (f : Strand → Strand) :
    (s.modMe f).flits = s.flits := rfl
@[simp] theorem modMe_ejects (s : State) (f : Strand → Strand) :
    (s.modMe f).ejects = s.ejects := rfl
@[simp] theorem modMe_agenda (s : State) (f : Strand → Strand) :
    (s.modMe f).agenda = s.agenda := rfl
@[simp] theorem modMe_fresh (s : State) (f : Strand → Strand) :
    (s.modMe f).fresh = s.fresh := rfl
@[simp] theorem modMe_left (s : State) (f : Strand → Strand) :
    (s.modMe f).left = s.left := rfl
@[simp] theorem modMe_urgent (s : State) (f : Strand → Strand) :
    (s.modMe f).urgent = s.urgent := rfl

@[simp] theorem modCsr_ticks (s : State) (f : StrandCsr → StrandCsr) :
    (s.modCsr f).ticks = s.ticks := rfl
@[simp] theorem modCsr_turn (s : State) (f : StrandCsr → StrandCsr) :
    (s.modCsr f).turn = s.turn := rfl
@[simp] theorem modCsr_cur (s : State) (f : StrandCsr → StrandCsr) :
    (s.modCsr f).cur = s.cur := rfl
@[simp] theorem modCsr_issue (s : State) (f : StrandCsr → StrandCsr) :
    (s.modCsr f).issue = s.issue := rfl
@[simp] theorem modCsr_strands (s : State) (f : StrandCsr → StrandCsr) :
    (s.modCsr f).strands = fset s.strands s.cur.key { s.me with csr := f s.me.csr } := rfl
@[simp] theorem modCsr_cores (s : State) (f : StrandCsr → StrandCsr) :
    (s.modCsr f).cores = s.cores := rfl
@[simp] theorem modCsr_clusters (s : State) (f : StrandCsr → StrandCsr) :
    (s.modCsr f).clusters = s.clusters := rfl
@[simp] theorem modCsr_dies (s : State) (f : StrandCsr → StrandCsr) :
    (s.modCsr f).dies = s.dies := rfl
@[simp] theorem modCsr_mods (s : State) (f : StrandCsr → StrandCsr) :
    (s.modCsr f).mods = s.mods := rfl
@[simp] theorem modCsr_net (s : State) (f : StrandCsr → StrandCsr) :
    (s.modCsr f).net = s.net := rfl
@[simp] theorem modCsr_replies (s : State) (f : StrandCsr → StrandCsr) :
    (s.modCsr f).replies = s.replies := rfl
@[simp] theorem modCsr_notes (s : State) (f : StrandCsr → StrandCsr) :
    (s.modCsr f).notes = s.notes := rfl
@[simp] theorem modCsr_flits (s : State) (f : StrandCsr → StrandCsr) :
    (s.modCsr f).flits = s.flits := rfl
@[simp] theorem modCsr_ejects (s : State) (f : StrandCsr → StrandCsr) :
    (s.modCsr f).ejects = s.ejects := rfl
@[simp] theorem modCsr_agenda (s : State) (f : StrandCsr → StrandCsr) :
    (s.modCsr f).agenda = s.agenda := rfl
@[simp] theorem modCsr_fresh (s : State) (f : StrandCsr → StrandCsr) :
    (s.modCsr f).fresh = s.fresh := rfl
@[simp] theorem modCsr_left (s : State) (f : StrandCsr → StrandCsr) :
    (s.modCsr f).left = s.left := rfl
@[simp] theorem modCsr_urgent (s : State) (f : StrandCsr → StrandCsr) :
    (s.modCsr f).urgent = s.urgent := rfl

@[simp] theorem modCore_ticks (s : State) (k : Nat) (f : Core → Core) :
    (s.modCore k f).ticks = s.ticks := rfl
@[simp] theorem modCore_turn (s : State) (k : Nat) (f : Core → Core) :
    (s.modCore k f).turn = s.turn := rfl
@[simp] theorem modCore_cur (s : State) (k : Nat) (f : Core → Core) :
    (s.modCore k f).cur = s.cur := rfl
@[simp] theorem modCore_issue (s : State) (k : Nat) (f : Core → Core) :
    (s.modCore k f).issue = s.issue := rfl
@[simp] theorem modCore_strands (s : State) (k : Nat) (f : Core → Core) :
    (s.modCore k f).strands = s.strands := rfl
@[simp] theorem modCore_cores (s : State) (k : Nat) (f : Core → Core) :
    (s.modCore k f).cores = fset s.cores k (f (s.coreOf k)) := rfl
@[simp] theorem modCore_clusters (s : State) (k : Nat) (f : Core → Core) :
    (s.modCore k f).clusters = s.clusters := rfl
@[simp] theorem modCore_dies (s : State) (k : Nat) (f : Core → Core) :
    (s.modCore k f).dies = s.dies := rfl
@[simp] theorem modCore_mods (s : State) (k : Nat) (f : Core → Core) :
    (s.modCore k f).mods = s.mods := rfl
@[simp] theorem modCore_net (s : State) (k : Nat) (f : Core → Core) :
    (s.modCore k f).net = s.net := rfl
@[simp] theorem modCore_replies (s : State) (k : Nat) (f : Core → Core) :
    (s.modCore k f).replies = s.replies := rfl
@[simp] theorem modCore_notes (s : State) (k : Nat) (f : Core → Core) :
    (s.modCore k f).notes = s.notes := rfl
@[simp] theorem modCore_flits (s : State) (k : Nat) (f : Core → Core) :
    (s.modCore k f).flits = s.flits := rfl
@[simp] theorem modCore_ejects (s : State) (k : Nat) (f : Core → Core) :
    (s.modCore k f).ejects = s.ejects := rfl
@[simp] theorem modCore_agenda (s : State) (k : Nat) (f : Core → Core) :
    (s.modCore k f).agenda = s.agenda := rfl
@[simp] theorem modCore_fresh (s : State) (k : Nat) (f : Core → Core) :
    (s.modCore k f).fresh = s.fresh := rfl
@[simp] theorem modCore_left (s : State) (k : Nat) (f : Core → Core) :
    (s.modCore k f).left = s.left := rfl
@[simp] theorem modCore_urgent (s : State) (k : Nat) (f : Core → Core) :
    (s.modCore k f).urgent = s.urgent := rfl

@[simp] theorem modMyCore_ticks (s : State) (f : Core → Core) :
    (s.modMyCore f).ticks = s.ticks := rfl
@[simp] theorem modMyCore_turn (s : State) (f : Core → Core) :
    (s.modMyCore f).turn = s.turn := rfl
@[simp] theorem modMyCore_cur (s : State) (f : Core → Core) :
    (s.modMyCore f).cur = s.cur := rfl
@[simp] theorem modMyCore_issue (s : State) (f : Core → Core) :
    (s.modMyCore f).issue = s.issue := rfl
@[simp] theorem modMyCore_strands (s : State) (f : Core → Core) :
    (s.modMyCore f).strands = s.strands := rfl
@[simp] theorem modMyCore_cores (s : State) (f : Core → Core) :
    (s.modMyCore f).cores = fset s.cores s.cur.coreKey (f s.core) := rfl
@[simp] theorem modMyCore_clusters (s : State) (f : Core → Core) :
    (s.modMyCore f).clusters = s.clusters := rfl
@[simp] theorem modMyCore_dies (s : State) (f : Core → Core) :
    (s.modMyCore f).dies = s.dies := rfl
@[simp] theorem modMyCore_mods (s : State) (f : Core → Core) :
    (s.modMyCore f).mods = s.mods := rfl
@[simp] theorem modMyCore_net (s : State) (f : Core → Core) :
    (s.modMyCore f).net = s.net := rfl
@[simp] theorem modMyCore_replies (s : State) (f : Core → Core) :
    (s.modMyCore f).replies = s.replies := rfl
@[simp] theorem modMyCore_notes (s : State) (f : Core → Core) :
    (s.modMyCore f).notes = s.notes := rfl
@[simp] theorem modMyCore_flits (s : State) (f : Core → Core) :
    (s.modMyCore f).flits = s.flits := rfl
@[simp] theorem modMyCore_ejects (s : State) (f : Core → Core) :
    (s.modMyCore f).ejects = s.ejects := rfl
@[simp] theorem modMyCore_agenda (s : State) (f : Core → Core) :
    (s.modMyCore f).agenda = s.agenda := rfl
@[simp] theorem modMyCore_fresh (s : State) (f : Core → Core) :
    (s.modMyCore f).fresh = s.fresh := rfl
@[simp] theorem modMyCore_left (s : State) (f : Core → Core) :
    (s.modMyCore f).left = s.left := rfl
@[simp] theorem modMyCore_urgent (s : State) (f : Core → Core) :
    (s.modMyCore f).urgent = s.urgent := rfl

@[simp] theorem modUnit_ticks (s : State) (k i : Nat) (f : SUnit → SUnit) :
    (s.modUnit k i f).ticks = s.ticks := rfl
@[simp] theorem modUnit_turn (s : State) (k i : Nat) (f : SUnit → SUnit) :
    (s.modUnit k i f).turn = s.turn := rfl
@[simp] theorem modUnit_cur (s : State) (k i : Nat) (f : SUnit → SUnit) :
    (s.modUnit k i f).cur = s.cur := rfl
@[simp] theorem modUnit_issue (s : State) (k i : Nat) (f : SUnit → SUnit) :
    (s.modUnit k i f).issue = s.issue := rfl
@[simp] theorem modUnit_strands (s : State) (k i : Nat) (f : SUnit → SUnit) :
    (s.modUnit k i f).strands = s.strands := rfl
@[simp] theorem modUnit_cores (s : State) (k i : Nat) (f : SUnit → SUnit) :
    (s.modUnit k i f).cores = fset s.cores k { s.coreOf k with units := setNth (s.coreOf k).units i (f (nth SUnit.free (s.coreOf k).units i)) } := rfl
@[simp] theorem modUnit_clusters (s : State) (k i : Nat) (f : SUnit → SUnit) :
    (s.modUnit k i f).clusters = s.clusters := rfl
@[simp] theorem modUnit_dies (s : State) (k i : Nat) (f : SUnit → SUnit) :
    (s.modUnit k i f).dies = s.dies := rfl
@[simp] theorem modUnit_mods (s : State) (k i : Nat) (f : SUnit → SUnit) :
    (s.modUnit k i f).mods = s.mods := rfl
@[simp] theorem modUnit_net (s : State) (k i : Nat) (f : SUnit → SUnit) :
    (s.modUnit k i f).net = s.net := rfl
@[simp] theorem modUnit_replies (s : State) (k i : Nat) (f : SUnit → SUnit) :
    (s.modUnit k i f).replies = s.replies := rfl
@[simp] theorem modUnit_notes (s : State) (k i : Nat) (f : SUnit → SUnit) :
    (s.modUnit k i f).notes = s.notes := rfl
@[simp] theorem modUnit_flits (s : State) (k i : Nat) (f : SUnit → SUnit) :
    (s.modUnit k i f).flits = s.flits := rfl
@[simp] theorem modUnit_ejects (s : State) (k i : Nat) (f : SUnit → SUnit) :
    (s.modUnit k i f).ejects = s.ejects := rfl
@[simp] theorem modUnit_agenda (s : State) (k i : Nat) (f : SUnit → SUnit) :
    (s.modUnit k i f).agenda = s.agenda := rfl
@[simp] theorem modUnit_fresh (s : State) (k i : Nat) (f : SUnit → SUnit) :
    (s.modUnit k i f).fresh = s.fresh := rfl
@[simp] theorem modUnit_left (s : State) (k i : Nat) (f : SUnit → SUnit) :
    (s.modUnit k i f).left = s.left := rfl
@[simp] theorem modUnit_urgent (s : State) (k i : Nat) (f : SUnit → SUnit) :
    (s.modUnit k i f).urgent = s.urgent := rfl

@[simp] theorem modClu_ticks (s : State) (k : Nat) (f : Cluster → Cluster) :
    (s.modClu k f).ticks = s.ticks := rfl
@[simp] theorem modClu_turn (s : State) (k : Nat) (f : Cluster → Cluster) :
    (s.modClu k f).turn = s.turn := rfl
@[simp] theorem modClu_cur (s : State) (k : Nat) (f : Cluster → Cluster) :
    (s.modClu k f).cur = s.cur := rfl
@[simp] theorem modClu_issue (s : State) (k : Nat) (f : Cluster → Cluster) :
    (s.modClu k f).issue = s.issue := rfl
@[simp] theorem modClu_strands (s : State) (k : Nat) (f : Cluster → Cluster) :
    (s.modClu k f).strands = s.strands := rfl
@[simp] theorem modClu_cores (s : State) (k : Nat) (f : Cluster → Cluster) :
    (s.modClu k f).cores = s.cores := rfl
@[simp] theorem modClu_clusters (s : State) (k : Nat) (f : Cluster → Cluster) :
    (s.modClu k f).clusters = fset s.clusters k (f (s.cluOf k)) := rfl
@[simp] theorem modClu_dies (s : State) (k : Nat) (f : Cluster → Cluster) :
    (s.modClu k f).dies = s.dies := rfl
@[simp] theorem modClu_mods (s : State) (k : Nat) (f : Cluster → Cluster) :
    (s.modClu k f).mods = s.mods := rfl
@[simp] theorem modClu_net (s : State) (k : Nat) (f : Cluster → Cluster) :
    (s.modClu k f).net = s.net := rfl
@[simp] theorem modClu_replies (s : State) (k : Nat) (f : Cluster → Cluster) :
    (s.modClu k f).replies = s.replies := rfl
@[simp] theorem modClu_notes (s : State) (k : Nat) (f : Cluster → Cluster) :
    (s.modClu k f).notes = s.notes := rfl
@[simp] theorem modClu_flits (s : State) (k : Nat) (f : Cluster → Cluster) :
    (s.modClu k f).flits = s.flits := rfl
@[simp] theorem modClu_ejects (s : State) (k : Nat) (f : Cluster → Cluster) :
    (s.modClu k f).ejects = s.ejects := rfl
@[simp] theorem modClu_agenda (s : State) (k : Nat) (f : Cluster → Cluster) :
    (s.modClu k f).agenda = s.agenda := rfl
@[simp] theorem modClu_fresh (s : State) (k : Nat) (f : Cluster → Cluster) :
    (s.modClu k f).fresh = s.fresh := rfl
@[simp] theorem modClu_left (s : State) (k : Nat) (f : Cluster → Cluster) :
    (s.modClu k f).left = s.left := rfl
@[simp] theorem modClu_urgent (s : State) (k : Nat) (f : Cluster → Cluster) :
    (s.modClu k f).urgent = s.urgent := rfl

@[simp] theorem modMyClu_ticks (s : State) (f : Cluster → Cluster) :
    (s.modMyClu f).ticks = s.ticks := rfl
@[simp] theorem modMyClu_turn (s : State) (f : Cluster → Cluster) :
    (s.modMyClu f).turn = s.turn := rfl
@[simp] theorem modMyClu_cur (s : State) (f : Cluster → Cluster) :
    (s.modMyClu f).cur = s.cur := rfl
@[simp] theorem modMyClu_issue (s : State) (f : Cluster → Cluster) :
    (s.modMyClu f).issue = s.issue := rfl
@[simp] theorem modMyClu_strands (s : State) (f : Cluster → Cluster) :
    (s.modMyClu f).strands = s.strands := rfl
@[simp] theorem modMyClu_cores (s : State) (f : Cluster → Cluster) :
    (s.modMyClu f).cores = s.cores := rfl
@[simp] theorem modMyClu_clusters (s : State) (f : Cluster → Cluster) :
    (s.modMyClu f).clusters = fset s.clusters s.cur.cluKey (f s.clu) := rfl
@[simp] theorem modMyClu_dies (s : State) (f : Cluster → Cluster) :
    (s.modMyClu f).dies = s.dies := rfl
@[simp] theorem modMyClu_mods (s : State) (f : Cluster → Cluster) :
    (s.modMyClu f).mods = s.mods := rfl
@[simp] theorem modMyClu_net (s : State) (f : Cluster → Cluster) :
    (s.modMyClu f).net = s.net := rfl
@[simp] theorem modMyClu_replies (s : State) (f : Cluster → Cluster) :
    (s.modMyClu f).replies = s.replies := rfl
@[simp] theorem modMyClu_notes (s : State) (f : Cluster → Cluster) :
    (s.modMyClu f).notes = s.notes := rfl
@[simp] theorem modMyClu_flits (s : State) (f : Cluster → Cluster) :
    (s.modMyClu f).flits = s.flits := rfl
@[simp] theorem modMyClu_ejects (s : State) (f : Cluster → Cluster) :
    (s.modMyClu f).ejects = s.ejects := rfl
@[simp] theorem modMyClu_agenda (s : State) (f : Cluster → Cluster) :
    (s.modMyClu f).agenda = s.agenda := rfl
@[simp] theorem modMyClu_fresh (s : State) (f : Cluster → Cluster) :
    (s.modMyClu f).fresh = s.fresh := rfl
@[simp] theorem modMyClu_left (s : State) (f : Cluster → Cluster) :
    (s.modMyClu f).left = s.left := rfl
@[simp] theorem modMyClu_urgent (s : State) (f : Cluster → Cluster) :
    (s.modMyClu f).urgent = s.urgent := rfl

@[simp] theorem modDie_ticks (s : State) (k : Nat) (f : Die → Die) :
    (s.modDie k f).ticks = s.ticks := rfl
@[simp] theorem modDie_turn (s : State) (k : Nat) (f : Die → Die) :
    (s.modDie k f).turn = s.turn := rfl
@[simp] theorem modDie_cur (s : State) (k : Nat) (f : Die → Die) :
    (s.modDie k f).cur = s.cur := rfl
@[simp] theorem modDie_issue (s : State) (k : Nat) (f : Die → Die) :
    (s.modDie k f).issue = s.issue := rfl
@[simp] theorem modDie_strands (s : State) (k : Nat) (f : Die → Die) :
    (s.modDie k f).strands = s.strands := rfl
@[simp] theorem modDie_cores (s : State) (k : Nat) (f : Die → Die) :
    (s.modDie k f).cores = s.cores := rfl
@[simp] theorem modDie_clusters (s : State) (k : Nat) (f : Die → Die) :
    (s.modDie k f).clusters = s.clusters := rfl
@[simp] theorem modDie_dies (s : State) (k : Nat) (f : Die → Die) :
    (s.modDie k f).dies = fset s.dies k (f (s.dieOf k)) := rfl
@[simp] theorem modDie_mods (s : State) (k : Nat) (f : Die → Die) :
    (s.modDie k f).mods = s.mods := rfl
@[simp] theorem modDie_net (s : State) (k : Nat) (f : Die → Die) :
    (s.modDie k f).net = s.net := rfl
@[simp] theorem modDie_replies (s : State) (k : Nat) (f : Die → Die) :
    (s.modDie k f).replies = s.replies := rfl
@[simp] theorem modDie_notes (s : State) (k : Nat) (f : Die → Die) :
    (s.modDie k f).notes = s.notes := rfl
@[simp] theorem modDie_flits (s : State) (k : Nat) (f : Die → Die) :
    (s.modDie k f).flits = s.flits := rfl
@[simp] theorem modDie_ejects (s : State) (k : Nat) (f : Die → Die) :
    (s.modDie k f).ejects = s.ejects := rfl
@[simp] theorem modDie_agenda (s : State) (k : Nat) (f : Die → Die) :
    (s.modDie k f).agenda = s.agenda := rfl
@[simp] theorem modDie_fresh (s : State) (k : Nat) (f : Die → Die) :
    (s.modDie k f).fresh = s.fresh := rfl
@[simp] theorem modDie_left (s : State) (k : Nat) (f : Die → Die) :
    (s.modDie k f).left = s.left := rfl
@[simp] theorem modDie_urgent (s : State) (k : Nat) (f : Die → Die) :
    (s.modDie k f).urgent = s.urgent := rfl

@[simp] theorem modMod_ticks (s : State) (k : Nat) (f : Module → Module) :
    (s.modMod k f).ticks = s.ticks := rfl
@[simp] theorem modMod_turn (s : State) (k : Nat) (f : Module → Module) :
    (s.modMod k f).turn = s.turn := rfl
@[simp] theorem modMod_cur (s : State) (k : Nat) (f : Module → Module) :
    (s.modMod k f).cur = s.cur := rfl
@[simp] theorem modMod_issue (s : State) (k : Nat) (f : Module → Module) :
    (s.modMod k f).issue = s.issue := rfl
@[simp] theorem modMod_strands (s : State) (k : Nat) (f : Module → Module) :
    (s.modMod k f).strands = s.strands := rfl
@[simp] theorem modMod_cores (s : State) (k : Nat) (f : Module → Module) :
    (s.modMod k f).cores = s.cores := rfl
@[simp] theorem modMod_clusters (s : State) (k : Nat) (f : Module → Module) :
    (s.modMod k f).clusters = s.clusters := rfl
@[simp] theorem modMod_dies (s : State) (k : Nat) (f : Module → Module) :
    (s.modMod k f).dies = s.dies := rfl
@[simp] theorem modMod_mods (s : State) (k : Nat) (f : Module → Module) :
    (s.modMod k f).mods = fset s.mods k (f (s.modOf k)) := rfl
@[simp] theorem modMod_net (s : State) (k : Nat) (f : Module → Module) :
    (s.modMod k f).net = s.net := rfl
@[simp] theorem modMod_replies (s : State) (k : Nat) (f : Module → Module) :
    (s.modMod k f).replies = s.replies := rfl
@[simp] theorem modMod_notes (s : State) (k : Nat) (f : Module → Module) :
    (s.modMod k f).notes = s.notes := rfl
@[simp] theorem modMod_flits (s : State) (k : Nat) (f : Module → Module) :
    (s.modMod k f).flits = s.flits := rfl
@[simp] theorem modMod_ejects (s : State) (k : Nat) (f : Module → Module) :
    (s.modMod k f).ejects = s.ejects := rfl
@[simp] theorem modMod_agenda (s : State) (k : Nat) (f : Module → Module) :
    (s.modMod k f).agenda = s.agenda := rfl
@[simp] theorem modMod_fresh (s : State) (k : Nat) (f : Module → Module) :
    (s.modMod k f).fresh = s.fresh := rfl
@[simp] theorem modMod_left (s : State) (k : Nat) (f : Module → Module) :
    (s.modMod k f).left = s.left := rfl
@[simp] theorem modMod_urgent (s : State) (k : Nat) (f : Module → Module) :
    (s.modMod k f).urgent = s.urgent := rfl

@[simp] theorem spawn_ticks (s : State) (e : Event) :
    (s.spawn e).ticks = s.ticks := rfl
@[simp] theorem spawn_turn (s : State) (e : Event) :
    (s.spawn e).turn = s.turn := rfl
@[simp] theorem spawn_cur (s : State) (e : Event) :
    (s.spawn e).cur = s.cur := rfl
@[simp] theorem spawn_issue (s : State) (e : Event) :
    (s.spawn e).issue = s.issue := rfl
@[simp] theorem spawn_strands (s : State) (e : Event) :
    (s.spawn e).strands = s.strands := rfl
@[simp] theorem spawn_cores (s : State) (e : Event) :
    (s.spawn e).cores = s.cores := rfl
@[simp] theorem spawn_clusters (s : State) (e : Event) :
    (s.spawn e).clusters = s.clusters := rfl
@[simp] theorem spawn_dies (s : State) (e : Event) :
    (s.spawn e).dies = s.dies := rfl
@[simp] theorem spawn_mods (s : State) (e : Event) :
    (s.spawn e).mods = s.mods := rfl
@[simp] theorem spawn_net (s : State) (e : Event) :
    (s.spawn e).net = s.net := rfl
@[simp] theorem spawn_replies (s : State) (e : Event) :
    (s.spawn e).replies = s.replies := rfl
@[simp] theorem spawn_notes (s : State) (e : Event) :
    (s.spawn e).notes = s.notes := rfl
@[simp] theorem spawn_flits (s : State) (e : Event) :
    (s.spawn e).flits = s.flits := rfl
@[simp] theorem spawn_ejects (s : State) (e : Event) :
    (s.spawn e).ejects = s.ejects := rfl
@[simp] theorem spawn_agenda (s : State) (e : Event) :
    (s.spawn e).agenda = s.agenda ++ [e] := rfl
@[simp] theorem spawn_fresh (s : State) (e : Event) :
    (s.spawn e).fresh = s.fresh := rfl
@[simp] theorem spawn_left (s : State) (e : Event) :
    (s.spawn e).left = s.left := rfl
@[simp] theorem spawn_urgent (s : State) (e : Event) :
    (s.spawn e).urgent = s.urgent := rfl

@[simp] theorem spawns_ticks (s : State) (es : List Event) :
    (s.spawns es).ticks = s.ticks := rfl
@[simp] theorem spawns_turn (s : State) (es : List Event) :
    (s.spawns es).turn = s.turn := rfl
@[simp] theorem spawns_cur (s : State) (es : List Event) :
    (s.spawns es).cur = s.cur := rfl
@[simp] theorem spawns_issue (s : State) (es : List Event) :
    (s.spawns es).issue = s.issue := rfl
@[simp] theorem spawns_strands (s : State) (es : List Event) :
    (s.spawns es).strands = s.strands := rfl
@[simp] theorem spawns_cores (s : State) (es : List Event) :
    (s.spawns es).cores = s.cores := rfl
@[simp] theorem spawns_clusters (s : State) (es : List Event) :
    (s.spawns es).clusters = s.clusters := rfl
@[simp] theorem spawns_dies (s : State) (es : List Event) :
    (s.spawns es).dies = s.dies := rfl
@[simp] theorem spawns_mods (s : State) (es : List Event) :
    (s.spawns es).mods = s.mods := rfl
@[simp] theorem spawns_net (s : State) (es : List Event) :
    (s.spawns es).net = s.net := rfl
@[simp] theorem spawns_replies (s : State) (es : List Event) :
    (s.spawns es).replies = s.replies := rfl
@[simp] theorem spawns_notes (s : State) (es : List Event) :
    (s.spawns es).notes = s.notes := rfl
@[simp] theorem spawns_flits (s : State) (es : List Event) :
    (s.spawns es).flits = s.flits := rfl
@[simp] theorem spawns_ejects (s : State) (es : List Event) :
    (s.spawns es).ejects = s.ejects := rfl
@[simp] theorem spawns_agenda (s : State) (es : List Event) :
    (s.spawns es).agenda = s.agenda ++ es := rfl
@[simp] theorem spawns_fresh (s : State) (es : List Event) :
    (s.spawns es).fresh = s.fresh := rfl
@[simp] theorem spawns_left (s : State) (es : List Event) :
    (s.spawns es).left = s.left := rfl
@[simp] theorem spawns_urgent (s : State) (es : List Event) :
    (s.spawns es).urgent = s.urgent := rfl

@[simp] theorem urge_ticks (s : State) (e : Event) :
    (s.urge e).ticks = s.ticks := rfl
@[simp] theorem urge_turn (s : State) (e : Event) :
    (s.urge e).turn = s.turn := rfl
@[simp] theorem urge_left (s : State) (e : Event) :
    (s.urge e).left = s.left := rfl
@[simp] theorem urge_cur (s : State) (e : Event) :
    (s.urge e).cur = s.cur := rfl
@[simp] theorem urge_issue (s : State) (e : Event) :
    (s.urge e).issue = s.issue := rfl
@[simp] theorem urge_strands (s : State) (e : Event) :
    (s.urge e).strands = s.strands := rfl
@[simp] theorem urge_cores (s : State) (e : Event) :
    (s.urge e).cores = s.cores := rfl
@[simp] theorem urge_clusters (s : State) (e : Event) :
    (s.urge e).clusters = s.clusters := rfl
@[simp] theorem urge_dies (s : State) (e : Event) :
    (s.urge e).dies = s.dies := rfl
@[simp] theorem urge_mods (s : State) (e : Event) :
    (s.urge e).mods = s.mods := rfl
@[simp] theorem urge_net (s : State) (e : Event) :
    (s.urge e).net = s.net := rfl
@[simp] theorem urge_replies (s : State) (e : Event) :
    (s.urge e).replies = s.replies := rfl
@[simp] theorem urge_notes (s : State) (e : Event) :
    (s.urge e).notes = s.notes := rfl
@[simp] theorem urge_flits (s : State) (e : Event) :
    (s.urge e).flits = s.flits := rfl
@[simp] theorem urge_ejects (s : State) (e : Event) :
    (s.urge e).ejects = s.ejects := rfl
@[simp] theorem urge_agenda (s : State) (e : Event) :
    (s.urge e).agenda = s.agenda := rfl
@[simp] theorem urge_fresh (s : State) (e : Event) :
    (s.urge e).fresh = s.fresh := rfl
@[simp] theorem urge_urgent (s : State) (e : Event) :
    (s.urge e).urgent = s.urgent ++ [e] := rfl

@[simp] theorem again_ticks (s : State) (e : Event) :
    (s.again e).ticks = s.ticks := rfl
@[simp] theorem again_turn (s : State) (e : Event) :
    (s.again e).turn = s.turn := rfl
@[simp] theorem again_cur (s : State) (e : Event) :
    (s.again e).cur = s.cur := rfl
@[simp] theorem again_issue (s : State) (e : Event) :
    (s.again e).issue = s.issue := rfl
@[simp] theorem again_strands (s : State) (e : Event) :
    (s.again e).strands = s.strands := rfl
@[simp] theorem again_cores (s : State) (e : Event) :
    (s.again e).cores = s.cores := rfl
@[simp] theorem again_clusters (s : State) (e : Event) :
    (s.again e).clusters = s.clusters := rfl
@[simp] theorem again_dies (s : State) (e : Event) :
    (s.again e).dies = s.dies := rfl
@[simp] theorem again_mods (s : State) (e : Event) :
    (s.again e).mods = s.mods := rfl
@[simp] theorem again_net (s : State) (e : Event) :
    (s.again e).net = s.net := rfl
@[simp] theorem again_replies (s : State) (e : Event) :
    (s.again e).replies = s.replies := rfl
@[simp] theorem again_notes (s : State) (e : Event) :
    (s.again e).notes = s.notes := rfl
@[simp] theorem again_flits (s : State) (e : Event) :
    (s.again e).flits = s.flits := rfl
@[simp] theorem again_ejects (s : State) (e : Event) :
    (s.again e).ejects = s.ejects := rfl
@[simp] theorem again_agenda (s : State) (e : Event) :
    (s.again e).agenda = s.agenda ++ [e] := rfl
@[simp] theorem again_fresh (s : State) (e : Event) :
    (s.again e).fresh = s.fresh := rfl
@[simp] theorem again_left (s : State) (e : Event) :
    (s.again e).left = s.left := rfl
@[simp] theorem again_urgent (s : State) (e : Event) :
    (s.again e).urgent = s.urgent := rfl

@[simp] theorem send_ticks (s : State) (m : Msg) :
    (s.send m).ticks = s.ticks := rfl
@[simp] theorem send_turn (s : State) (m : Msg) :
    (s.send m).turn = s.turn := rfl
@[simp] theorem send_cur (s : State) (m : Msg) :
    (s.send m).cur = s.cur := rfl
@[simp] theorem send_issue (s : State) (m : Msg) :
    (s.send m).issue = s.issue := rfl
@[simp] theorem send_strands (s : State) (m : Msg) :
    (s.send m).strands = s.strands := rfl
@[simp] theorem send_cores (s : State) (m : Msg) :
    (s.send m).cores = s.cores := rfl
@[simp] theorem send_clusters (s : State) (m : Msg) :
    (s.send m).clusters = s.clusters := rfl
@[simp] theorem send_dies (s : State) (m : Msg) :
    (s.send m).dies = s.dies := rfl
@[simp] theorem send_mods (s : State) (m : Msg) :
    (s.send m).mods = s.mods := rfl
@[simp] theorem send_net (s : State) (m : Msg) :
    (s.send m).net = s.net ++ [{ m with due := s.ticks + msgFlight s m }] := rfl
@[simp] theorem send_replies (s : State) (m : Msg) :
    (s.send m).replies = s.replies := rfl
@[simp] theorem send_notes (s : State) (m : Msg) :
    (s.send m).notes = s.notes := rfl
@[simp] theorem send_flits (s : State) (m : Msg) :
    (s.send m).flits = s.flits := rfl
@[simp] theorem send_ejects (s : State) (m : Msg) :
    (s.send m).ejects = s.ejects := rfl
@[simp] theorem send_agenda (s : State) (m : Msg) :
    (s.send m).agenda = s.agenda := rfl
@[simp] theorem send_fresh (s : State) (m : Msg) :
    (s.send m).fresh = s.fresh := rfl
@[simp] theorem send_left (s : State) (m : Msg) :
    (s.send m).left = s.left := rfl
@[simp] theorem send_urgent (s : State) (m : Msg) :
    (s.send m).urgent = s.urgent := rfl

@[simp] theorem note_ticks (s : State) (n : Note) :
    (s.note n).ticks = s.ticks := rfl
@[simp] theorem note_turn (s : State) (n : Note) :
    (s.note n).turn = s.turn := rfl
@[simp] theorem note_cur (s : State) (n : Note) :
    (s.note n).cur = s.cur := rfl
@[simp] theorem note_issue (s : State) (n : Note) :
    (s.note n).issue = s.issue := rfl
@[simp] theorem note_strands (s : State) (n : Note) :
    (s.note n).strands = s.strands := rfl
@[simp] theorem note_cores (s : State) (n : Note) :
    (s.note n).cores = s.cores := rfl
@[simp] theorem note_clusters (s : State) (n : Note) :
    (s.note n).clusters = s.clusters := rfl
@[simp] theorem note_dies (s : State) (n : Note) :
    (s.note n).dies = s.dies := rfl
@[simp] theorem note_mods (s : State) (n : Note) :
    (s.note n).mods = s.mods := rfl
@[simp] theorem note_net (s : State) (n : Note) :
    (s.note n).net = s.net := rfl
@[simp] theorem note_replies (s : State) (n : Note) :
    (s.note n).replies = s.replies := rfl
@[simp] theorem note_notes (s : State) (n : Note) :
    (s.note n).notes = s.notes ++ [n] := rfl
@[simp] theorem note_flits (s : State) (n : Note) :
    (s.note n).flits = s.flits := rfl
@[simp] theorem note_ejects (s : State) (n : Note) :
    (s.note n).ejects = s.ejects := rfl
@[simp] theorem note_agenda (s : State) (n : Note) :
    (s.note n).agenda = s.agenda := rfl
@[simp] theorem note_fresh (s : State) (n : Note) :
    (s.note n).fresh = s.fresh := rfl
@[simp] theorem note_left (s : State) (n : Note) :
    (s.note n).left = s.left := rfl
@[simp] theorem note_urgent (s : State) (n : Note) :
    (s.note n).urgent = s.urgent := rfl

@[simp] theorem jump_ticks (s : State) (a : Nat) :
    (jump s a).ticks = s.ticks := rfl
@[simp] theorem jump_turn (s : State) (a : Nat) :
    (jump s a).turn = s.turn := rfl
@[simp] theorem jump_cur (s : State) (a : Nat) :
    (jump s a).cur = s.cur := rfl
@[simp] theorem jump_issue (s : State) (a : Nat) :
    (jump s a).issue = { s.issue with next := a, took := true } := rfl
@[simp] theorem jump_strands (s : State) (a : Nat) :
    (jump s a).strands = s.strands := rfl
@[simp] theorem jump_cores (s : State) (a : Nat) :
    (jump s a).cores = s.cores := rfl
@[simp] theorem jump_clusters (s : State) (a : Nat) :
    (jump s a).clusters = s.clusters := rfl
@[simp] theorem jump_dies (s : State) (a : Nat) :
    (jump s a).dies = s.dies := rfl
@[simp] theorem jump_mods (s : State) (a : Nat) :
    (jump s a).mods = s.mods := rfl
@[simp] theorem jump_net (s : State) (a : Nat) :
    (jump s a).net = s.net := rfl
@[simp] theorem jump_replies (s : State) (a : Nat) :
    (jump s a).replies = s.replies := rfl
@[simp] theorem jump_notes (s : State) (a : Nat) :
    (jump s a).notes = s.notes := rfl
@[simp] theorem jump_flits (s : State) (a : Nat) :
    (jump s a).flits = s.flits := rfl
@[simp] theorem jump_ejects (s : State) (a : Nat) :
    (jump s a).ejects = s.ejects := rfl
@[simp] theorem jump_agenda (s : State) (a : Nat) :
    (jump s a).agenda = s.agenda := rfl
@[simp] theorem jump_fresh (s : State) (a : Nat) :
    (jump s a).fresh = s.fresh := rfl
@[simp] theorem jump_left (s : State) (a : Nat) :
    (jump s a).left = s.left := rfl
@[simp] theorem jump_urgent (s : State) (a : Nat) :
    (jump s a).urgent = s.urgent := rfl

@[simp] theorem ask_ticks (s : State) (n : Nat) :
    (ask s n).ticks = s.ticks := rfl
@[simp] theorem ask_turn (s : State) (n : Nat) :
    (ask s n).turn = s.turn := rfl
@[simp] theorem ask_cur (s : State) (n : Nat) :
    (ask s n).cur = s.cur := rfl
@[simp] theorem ask_issue (s : State) (n : Nat) :
    (ask s n).issue = s.issue := rfl
@[simp] theorem ask_strands (s : State) (n : Nat) :
    (ask s n).strands = fset s.strands s.cur.key { s.me with asked := n :: s.me.asked } := rfl
@[simp] theorem ask_cores (s : State) (n : Nat) :
    (ask s n).cores = s.cores := rfl
@[simp] theorem ask_clusters (s : State) (n : Nat) :
    (ask s n).clusters = s.clusters := rfl
@[simp] theorem ask_dies (s : State) (n : Nat) :
    (ask s n).dies = s.dies := rfl
@[simp] theorem ask_mods (s : State) (n : Nat) :
    (ask s n).mods = s.mods := rfl
@[simp] theorem ask_net (s : State) (n : Nat) :
    (ask s n).net = s.net := rfl
@[simp] theorem ask_replies (s : State) (n : Nat) :
    (ask s n).replies = s.replies := rfl
@[simp] theorem ask_notes (s : State) (n : Nat) :
    (ask s n).notes = s.notes := rfl
@[simp] theorem ask_flits (s : State) (n : Nat) :
    (ask s n).flits = s.flits := rfl
@[simp] theorem ask_ejects (s : State) (n : Nat) :
    (ask s n).ejects = s.ejects := rfl
@[simp] theorem ask_agenda (s : State) (n : Nat) :
    (ask s n).agenda = s.agenda := rfl
@[simp] theorem ask_fresh (s : State) (n : Nat) :
    (ask s n).fresh = s.fresh := rfl
@[simp] theorem ask_left (s : State) (n : Nat) :
    (ask s n).left = s.left := rfl
@[simp] theorem ask_urgent (s : State) (n : Nat) :
    (ask s n).urgent = s.urgent := rfl

@[simp] theorem setFlags_ticks (s : State) (n : Nat) :
    (setFlags s n).ticks = s.ticks := rfl
@[simp] theorem setFlags_turn (s : State) (n : Nat) :
    (setFlags s n).turn = s.turn := rfl
@[simp] theorem setFlags_cur (s : State) (n : Nat) :
    (setFlags s n).cur = s.cur := rfl
@[simp] theorem setFlags_issue (s : State) (n : Nat) :
    (setFlags s n).issue = s.issue := rfl
@[simp] theorem setFlags_strands (s : State) (n : Nat) :
    (setFlags s n).strands = fset s.strands s.cur.key { s.me with csr := { s.me.csr with fpctl := s.me.csr.fpctl ||| word (n % 32 * 16) } } := rfl
@[simp] theorem setFlags_cores (s : State) (n : Nat) :
    (setFlags s n).cores = s.cores := rfl
@[simp] theorem setFlags_clusters (s : State) (n : Nat) :
    (setFlags s n).clusters = s.clusters := rfl
@[simp] theorem setFlags_dies (s : State) (n : Nat) :
    (setFlags s n).dies = s.dies := rfl
@[simp] theorem setFlags_mods (s : State) (n : Nat) :
    (setFlags s n).mods = s.mods := rfl
@[simp] theorem setFlags_net (s : State) (n : Nat) :
    (setFlags s n).net = s.net := rfl
@[simp] theorem setFlags_replies (s : State) (n : Nat) :
    (setFlags s n).replies = s.replies := rfl
@[simp] theorem setFlags_notes (s : State) (n : Nat) :
    (setFlags s n).notes = s.notes := rfl
@[simp] theorem setFlags_flits (s : State) (n : Nat) :
    (setFlags s n).flits = s.flits := rfl
@[simp] theorem setFlags_ejects (s : State) (n : Nat) :
    (setFlags s n).ejects = s.ejects := rfl
@[simp] theorem setFlags_agenda (s : State) (n : Nat) :
    (setFlags s n).agenda = s.agenda := rfl
@[simp] theorem setFlags_fresh (s : State) (n : Nat) :
    (setFlags s n).fresh = s.fresh := rfl
@[simp] theorem setFlags_left (s : State) (n : Nat) :
    (setFlags s n).left = s.left := rfl
@[simp] theorem setFlags_urgent (s : State) (n : Nat) :
    (setFlags s n).urgent = s.urgent := rfl

@[simp] theorem setSeed_ticks (s : State) (x : BitVec 32) :
    (setSeed s x).ticks = s.ticks := rfl
@[simp] theorem setSeed_turn (s : State) (x : BitVec 32) :
    (setSeed s x).turn = s.turn := rfl
@[simp] theorem setSeed_cur (s : State) (x : BitVec 32) :
    (setSeed s x).cur = s.cur := rfl
@[simp] theorem setSeed_issue (s : State) (x : BitVec 32) :
    (setSeed s x).issue = s.issue := rfl
@[simp] theorem setSeed_strands (s : State) (x : BitVec 32) :
    (setSeed s x).strands = fset s.strands s.cur.key { s.me with csr := { s.me.csr with rndseed := x } } := rfl
@[simp] theorem setSeed_cores (s : State) (x : BitVec 32) :
    (setSeed s x).cores = s.cores := rfl
@[simp] theorem setSeed_clusters (s : State) (x : BitVec 32) :
    (setSeed s x).clusters = s.clusters := rfl
@[simp] theorem setSeed_dies (s : State) (x : BitVec 32) :
    (setSeed s x).dies = s.dies := rfl
@[simp] theorem setSeed_mods (s : State) (x : BitVec 32) :
    (setSeed s x).mods = s.mods := rfl
@[simp] theorem setSeed_net (s : State) (x : BitVec 32) :
    (setSeed s x).net = s.net := rfl
@[simp] theorem setSeed_replies (s : State) (x : BitVec 32) :
    (setSeed s x).replies = s.replies := rfl
@[simp] theorem setSeed_notes (s : State) (x : BitVec 32) :
    (setSeed s x).notes = s.notes := rfl
@[simp] theorem setSeed_flits (s : State) (x : BitVec 32) :
    (setSeed s x).flits = s.flits := rfl
@[simp] theorem setSeed_ejects (s : State) (x : BitVec 32) :
    (setSeed s x).ejects = s.ejects := rfl
@[simp] theorem setSeed_agenda (s : State) (x : BitVec 32) :
    (setSeed s x).agenda = s.agenda := rfl
@[simp] theorem setSeed_fresh (s : State) (x : BitVec 32) :
    (setSeed s x).fresh = s.fresh := rfl
@[simp] theorem setSeed_left (s : State) (x : BitVec 32) :
    (setSeed s x).left = s.left := rfl
@[simp] theorem setSeed_urgent (s : State) (x : BitVec 32) :
    (setSeed s x).urgent = s.urgent := rfl

@[simp] theorem wk_ticks (s : State) (r : KReg) (v : BitVec 32) :
    (wk s r v).ticks = s.ticks := rfl
@[simp] theorem wk_turn (s : State) (r : KReg) (v : BitVec 32) :
    (wk s r v).turn = s.turn := rfl
@[simp] theorem wk_cur (s : State) (r : KReg) (v : BitVec 32) :
    (wk s r v).cur = s.cur := rfl
@[simp] theorem wk_issue (s : State) (r : KReg) (v : BitVec 32) :
    (wk s r v).issue = s.issue := rfl
@[simp] theorem wk_strands (s : State) (r : KReg) (v : BitVec 32) :
    (wk s r v).strands = fset s.strands s.cur.key (setVused { s.me with k := s.me.k.set r v }) := rfl
@[simp] theorem wk_cores (s : State) (r : KReg) (v : BitVec 32) :
    (wk s r v).cores = s.cores := rfl
@[simp] theorem wk_clusters (s : State) (r : KReg) (v : BitVec 32) :
    (wk s r v).clusters = s.clusters := rfl
@[simp] theorem wk_dies (s : State) (r : KReg) (v : BitVec 32) :
    (wk s r v).dies = s.dies := rfl
@[simp] theorem wk_mods (s : State) (r : KReg) (v : BitVec 32) :
    (wk s r v).mods = s.mods := rfl
@[simp] theorem wk_net (s : State) (r : KReg) (v : BitVec 32) :
    (wk s r v).net = s.net := rfl
@[simp] theorem wk_replies (s : State) (r : KReg) (v : BitVec 32) :
    (wk s r v).replies = s.replies := rfl
@[simp] theorem wk_notes (s : State) (r : KReg) (v : BitVec 32) :
    (wk s r v).notes = s.notes := rfl
@[simp] theorem wk_flits (s : State) (r : KReg) (v : BitVec 32) :
    (wk s r v).flits = s.flits := rfl
@[simp] theorem wk_ejects (s : State) (r : KReg) (v : BitVec 32) :
    (wk s r v).ejects = s.ejects := rfl
@[simp] theorem wk_agenda (s : State) (r : KReg) (v : BitVec 32) :
    (wk s r v).agenda = s.agenda := rfl
@[simp] theorem wk_fresh (s : State) (r : KReg) (v : BitVec 32) :
    (wk s r v).fresh = s.fresh := rfl
@[simp] theorem wk_left (s : State) (r : KReg) (v : BitVec 32) :
    (wk s r v).left = s.left := rfl
@[simp] theorem wk_urgent (s : State) (r : KReg) (v : BitVec 32) :
    (wk s r v).urgent = s.urgent := rfl

@[simp] theorem putV_ticks (r : VReg) (v : Vec) (s : State) :
    (putV r v s).ticks = s.ticks := rfl
@[simp] theorem putV_turn (r : VReg) (v : Vec) (s : State) :
    (putV r v s).turn = s.turn := rfl
@[simp] theorem putV_cur (r : VReg) (v : Vec) (s : State) :
    (putV r v s).cur = s.cur := rfl
@[simp] theorem putV_issue (r : VReg) (v : Vec) (s : State) :
    (putV r v s).issue = s.issue := rfl
@[simp] theorem putV_strands (r : VReg) (v : Vec) (s : State) :
    (putV r v s).strands = fset s.strands s.cur.key (setVused { s.me with v := s.me.v.set r v }) := rfl
@[simp] theorem putV_cores (r : VReg) (v : Vec) (s : State) :
    (putV r v s).cores = s.cores := rfl
@[simp] theorem putV_clusters (r : VReg) (v : Vec) (s : State) :
    (putV r v s).clusters = s.clusters := rfl
@[simp] theorem putV_dies (r : VReg) (v : Vec) (s : State) :
    (putV r v s).dies = s.dies := rfl
@[simp] theorem putV_mods (r : VReg) (v : Vec) (s : State) :
    (putV r v s).mods = s.mods := rfl
@[simp] theorem putV_net (r : VReg) (v : Vec) (s : State) :
    (putV r v s).net = s.net := rfl
@[simp] theorem putV_replies (r : VReg) (v : Vec) (s : State) :
    (putV r v s).replies = s.replies := rfl
@[simp] theorem putV_notes (r : VReg) (v : Vec) (s : State) :
    (putV r v s).notes = s.notes := rfl
@[simp] theorem putV_flits (r : VReg) (v : Vec) (s : State) :
    (putV r v s).flits = s.flits := rfl
@[simp] theorem putV_ejects (r : VReg) (v : Vec) (s : State) :
    (putV r v s).ejects = s.ejects := rfl
@[simp] theorem putV_agenda (r : VReg) (v : Vec) (s : State) :
    (putV r v s).agenda = s.agenda := rfl
@[simp] theorem putV_fresh (r : VReg) (v : Vec) (s : State) :
    (putV r v s).fresh = s.fresh := rfl
@[simp] theorem putV_left (r : VReg) (v : Vec) (s : State) :
    (putV r v s).left = s.left := rfl
@[simp] theorem putV_urgent (r : VReg) (v : Vec) (s : State) :
    (putV r v s).urgent = s.urgent := rfl

@[simp] theorem count_ticks (s : State) (k no : Nat) :
    (s.count k no).ticks = s.ticks := rfl
@[simp] theorem count_turn (s : State) (k no : Nat) :
    (s.count k no).turn = s.turn := rfl
@[simp] theorem count_cur (s : State) (k no : Nat) :
    (s.count k no).cur = s.cur := rfl
@[simp] theorem count_issue (s : State) (k no : Nat) :
    (s.count k no).issue = s.issue := rfl
@[simp] theorem count_strands (s : State) (k no : Nat) :
    (s.count k no).strands = s.strands := rfl
@[simp] theorem count_cores (s : State) (k no : Nat) :
    (s.count k no).cores = s.cores := rfl
@[simp] theorem count_clusters (s : State) (k no : Nat) :
    (s.count k no).clusters = s.clusters := rfl
@[simp] theorem count_mods (s : State) (k no : Nat) :
    (s.count k no).mods = s.mods := rfl
@[simp] theorem count_net (s : State) (k no : Nat) :
    (s.count k no).net = s.net := rfl
@[simp] theorem count_replies (s : State) (k no : Nat) :
    (s.count k no).replies = s.replies := rfl
@[simp] theorem count_notes (s : State) (k no : Nat) :
    (s.count k no).notes = s.notes := rfl
@[simp] theorem count_flits (s : State) (k no : Nat) :
    (s.count k no).flits = s.flits := rfl
@[simp] theorem count_ejects (s : State) (k no : Nat) :
    (s.count k no).ejects = s.ejects := rfl
@[simp] theorem count_agenda (s : State) (k no : Nat) :
    (s.count k no).agenda = s.agenda := rfl
@[simp] theorem count_fresh (s : State) (k no : Nat) :
    (s.count k no).fresh = s.fresh := rfl
@[simp] theorem count_left (s : State) (k no : Nat) :
    (s.count k no).left = s.left := rfl
@[simp] theorem count_urgent (s : State) (k no : Nat) :
    (s.count k no).urgent = s.urgent := rfl

@[simp] theorem logErr_ticks (s : State) (k vf kind addr : Nat) :
    (s.logErr k vf kind addr).ticks = s.ticks := rfl
@[simp] theorem logErr_turn (s : State) (k vf kind addr : Nat) :
    (s.logErr k vf kind addr).turn = s.turn := rfl
@[simp] theorem logErr_cur (s : State) (k vf kind addr : Nat) :
    (s.logErr k vf kind addr).cur = s.cur := rfl
@[simp] theorem logErr_issue (s : State) (k vf kind addr : Nat) :
    (s.logErr k vf kind addr).issue = s.issue := rfl
@[simp] theorem logErr_strands (s : State) (k vf kind addr : Nat) :
    (s.logErr k vf kind addr).strands = s.strands := rfl
@[simp] theorem logErr_cores (s : State) (k vf kind addr : Nat) :
    (s.logErr k vf kind addr).cores = s.cores := rfl
@[simp] theorem logErr_clusters (s : State) (k vf kind addr : Nat) :
    (s.logErr k vf kind addr).clusters = s.clusters := rfl
@[simp] theorem logErr_mods (s : State) (k vf kind addr : Nat) :
    (s.logErr k vf kind addr).mods = s.mods := rfl
@[simp] theorem logErr_net (s : State) (k vf kind addr : Nat) :
    (s.logErr k vf kind addr).net = s.net := rfl
@[simp] theorem logErr_replies (s : State) (k vf kind addr : Nat) :
    (s.logErr k vf kind addr).replies = s.replies := rfl
@[simp] theorem logErr_notes (s : State) (k vf kind addr : Nat) :
    (s.logErr k vf kind addr).notes = s.notes := rfl
@[simp] theorem logErr_flits (s : State) (k vf kind addr : Nat) :
    (s.logErr k vf kind addr).flits = s.flits := rfl
@[simp] theorem logErr_ejects (s : State) (k vf kind addr : Nat) :
    (s.logErr k vf kind addr).ejects = s.ejects := rfl
@[simp] theorem logErr_agenda (s : State) (k vf kind addr : Nat) :
    (s.logErr k vf kind addr).agenda = s.agenda := rfl
@[simp] theorem logErr_fresh (s : State) (k vf kind addr : Nat) :
    (s.logErr k vf kind addr).fresh = s.fresh := rfl
@[simp] theorem logErr_left (s : State) (k vf kind addr : Nat) :
    (s.logErr k vf kind addr).left = s.left := rfl
@[simp] theorem logErr_urgent (s : State) (k vf kind addr : Nat) :
    (s.logErr k vf kind addr).urgent = s.urgent := rfl

@[simp] theorem wg_ticks (s : State) (r : GReg) (v : Word) : (wg s r v).ticks = s.ticks := by
  unfold wg; split <;> rfl
@[simp] theorem wg_turn (s : State) (r : GReg) (v : Word) : (wg s r v).turn = s.turn := by
  unfold wg; split <;> rfl
@[simp] theorem wg_cur (s : State) (r : GReg) (v : Word) : (wg s r v).cur = s.cur := by
  unfold wg; split <;> rfl
@[simp] theorem wg_issue (s : State) (r : GReg) (v : Word) : (wg s r v).issue = s.issue := by
  unfold wg; split <;> rfl
@[simp] theorem wg_cores (s : State) (r : GReg) (v : Word) : (wg s r v).cores = s.cores := by
  unfold wg; split <;> rfl
@[simp] theorem wg_clusters (s : State) (r : GReg) (v : Word) : (wg s r v).clusters = s.clusters := by
  unfold wg; split <;> rfl
@[simp] theorem wg_dies (s : State) (r : GReg) (v : Word) : (wg s r v).dies = s.dies := by
  unfold wg; split <;> rfl
@[simp] theorem wg_mods (s : State) (r : GReg) (v : Word) : (wg s r v).mods = s.mods := by
  unfold wg; split <;> rfl
@[simp] theorem wg_net (s : State) (r : GReg) (v : Word) : (wg s r v).net = s.net := by
  unfold wg; split <;> rfl
@[simp] theorem wg_replies (s : State) (r : GReg) (v : Word) : (wg s r v).replies = s.replies := by
  unfold wg; split <;> rfl
@[simp] theorem wg_notes (s : State) (r : GReg) (v : Word) : (wg s r v).notes = s.notes := by
  unfold wg; split <;> rfl
@[simp] theorem wg_flits (s : State) (r : GReg) (v : Word) : (wg s r v).flits = s.flits := by
  unfold wg; split <;> rfl
@[simp] theorem wg_ejects (s : State) (r : GReg) (v : Word) : (wg s r v).ejects = s.ejects := by
  unfold wg; split <;> rfl
@[simp] theorem wg_agenda (s : State) (r : GReg) (v : Word) : (wg s r v).agenda = s.agenda := by
  unfold wg; split <;> rfl
@[simp] theorem wg_fresh (s : State) (r : GReg) (v : Word) : (wg s r v).fresh = s.fresh := by
  unfold wg; split <;> rfl
@[simp] theorem wg_left (s : State) (r : GReg) (v : Word) : (wg s r v).left = s.left := by
  unfold wg; split <;> rfl
@[simp] theorem wg_urgent (s : State) (r : GReg) (v : Word) : (wg s r v).urgent = s.urgent := by
  unfold wg; split <;> rfl

@[simp] theorem setMe_me (s : State) (x : Strand) : (s.setMe x).me = x := by
  simp [State.me, State.strand]

@[simp] theorem modMe_me (s : State) (f : Strand → Strand) : (s.modMe f).me = f s.me := by
  simp [State.me, State.strand]

@[simp] theorem modCsr_me (s : State) (f : StrandCsr → StrandCsr) :
    (s.modCsr f).me = { s.me with csr := f s.me.csr } := by
  simp [State.modCsr]

@[simp] theorem modStrand_strand (s : State) (p : Place) (f : Strand → Strand) :
    (s.modStrand p f).strand p = f (s.strand p) := by
  simp [State.strand]

theorem modStrand_strand_other (s : State) (p q : Place) (f : Strand → Strand) (h : q.key ≠ p.key) :
    (s.modStrand p f).strand q = s.strand q := by
  simp [State.strand, fget_fset_other, h]

@[simp] theorem modCore_coreOf (s : State) (k : Nat) (f : Core → Core) :
    (s.modCore k f).coreOf k = f (s.coreOf k) := by
  simp [State.coreOf]

theorem modCore_coreOf_other (s : State) (k j : Nat) (f : Core → Core) (h : j ≠ k) :
    (s.modCore k f).coreOf j = s.coreOf j := by
  simp [State.coreOf, fget_fset_other, h]

@[simp] theorem modClu_cluOf (s : State) (k : Nat) (f : Cluster → Cluster) :
    (s.modClu k f).cluOf k = f (s.cluOf k) := by
  simp [State.cluOf]

@[simp] theorem modDie_dieOf (s : State) (k : Nat) (f : Die → Die) :
    (s.modDie k f).dieOf k = f (s.dieOf k) := by
  simp [State.dieOf]

@[simp] theorem modMod_modOf (s : State) (k : Nat) (f : Module → Module) :
    (s.modMod k f).modOf k = f (s.modOf k) := by
  simp [State.modOf]

/-- Writing a general register (R82). -/
theorem wg_me (s : State) (r : GReg) (v : Word) :
    (wg s r v).me = if r = 0 then s.me else { s.me with g := s.me.g.set r v } := by
  unfold wg
  split <;> simp

end Sys2Proof.Laws
end

