-- ==== Sys2Proof/Laws/Memory.lean ====
section
/-! SUPPORT. Byte memories: what a read gives after a write, and that every operation keeps the canonical
form. -/

namespace Sys2Proof.Laws

open Sys2Proof

/-- No entry at or below an address answers for it. -/
theorem read_above (m : Memory) (lo a : Nat) (h : Memory.above (some lo) m = true) (ha : a ≤ lo) :
    Memory.read m a = Memory.unlisted := by
  induction m generalizing lo with
  | nil => rfl
  | cons e m ih =>
    obtain ⟨k, b⟩ := e
    simp only [Memory.above, Bool.and_eq_true, decide_eq_true_eq] at h
    obtain ⟨⟨h1, -⟩, h3⟩ := h
    rw [Memory.read, if_neg (by omega)]
    exact ih k h3 (by omega)

/-- A tighter bound below. -/
theorem above_mono (m : Memory) (lo : Option Nat) (l : Nat) (h : Memory.above (some l) m = true)
    (hl : ∀ x, lo = some x → x ≤ l) : Memory.above lo m = true := by
  cases m with
  | nil => rfl
  | cons e m =>
    obtain ⟨k, b⟩ := e
    simp only [Memory.above, Bool.and_eq_true, decide_eq_true_eq] at h ⊢
    refine ⟨⟨?_, h.1.2⟩, h.2⟩
    cases lo with
    | none => rfl
    | some x =>
      have := hl x rfl
      simp
      omega

/-- A write keeps the canonical form, and the bound below it. -/
theorem write_above (m : Memory) (lo : Option Nat) (a : Nat) (v : Byte) (h : Memory.above lo m = true)
    (ha : ∀ x, lo = some x → x < a) : Memory.above lo (Memory.write m a v) = true := by
  induction m generalizing lo with
  | nil =>
    unfold Memory.write
    split
    · rfl
    · rename_i hv
      cases lo with
      | none => simp [Memory.above, hv]
      | some x => simp [Memory.above, hv, ha x rfl]
  | cons e m ih =>
    obtain ⟨k, b⟩ := e
    have h0 := h
    simp only [Memory.above, Bool.and_eq_true, decide_eq_true_eq] at h
    unfold Memory.write
    split
    · rename_i hk
      split
      · exact h0
      · rename_i hv
        simp only [Memory.above, Bool.and_eq_true, decide_eq_true_eq]
        refine ⟨⟨?_, hv⟩, ⟨hk, h.1.2⟩, h.2⟩
        cases lo with
        | none => rfl
        | some x => simp [ha x rfl]
    · split
      · rename_i h1 h2
        split
        · refine above_mono m lo k h.2 fun x hx => ?_
          have := ha x hx
          omega
        · rename_i hv
          simp only [Memory.above, Bool.and_eq_true, decide_eq_true_eq]
          exact ⟨⟨h.1.1, hv⟩, h.2⟩
      · rename_i h1 h2
        simp only [Memory.above, Bool.and_eq_true, decide_eq_true_eq]
        refine ⟨h.1, ih (some k) h.2 fun x hx => ?_⟩
        cases hx
        omega

/-- A write keeps the canonical form. -/
theorem write_wf (m : Memory) (a : Nat) (v : Byte) (h : m.wf = true) : (m.write a v).wf = true :=
  write_above m none a v h (fun _ h => by cases h)

/-- Reading the byte that was written, in a canonical memory. -/
theorem read_write_same (m : Memory) (a : Nat) (v : Byte) (lo : Option Nat)
    (h : Memory.above lo m = true) : (m.write a v).read a = v := by
  induction m generalizing lo with
  | nil =>
    unfold Memory.write
    split
    · rename_i hv
      simp [Memory.read, hv]
    · simp [Memory.read]
  | cons e m ih =>
    obtain ⟨k, b⟩ := e
    simp only [Memory.above, Bool.and_eq_true, decide_eq_true_eq] at h
    unfold Memory.write
    split
    · rename_i hk
      split
      · rename_i hv
        rw [Memory.read, if_neg (by omega), hv]
        exact read_above m k a h.2 (by omega)
      · simp [Memory.read]
    · split
      · rename_i h1 h2
        subst h2
        split
        · rename_i hv
          rw [hv]
          exact read_above m a a h.2 (Nat.le_refl _)
        · simp [Memory.read]
      · rename_i h1 h2
        rw [Memory.read, if_neg (by omega)]
        exact ih (some k) h.2

/-- Reading another byte. -/
theorem read_write_other (m : Memory) (a b : Nat) (v : Byte) (h : b ≠ a) :
    (m.write a v).read b = m.read b := by
  induction m with
  | nil =>
    unfold Memory.write
    split
    · rfl
    · simp [Memory.read, Ne.symm h]
  | cons e m ih =>
    obtain ⟨k, c⟩ := e
    unfold Memory.write
    split
    · split
      · rfl
      · simp [Memory.read, Ne.symm h]
    · split
      · rename_i h1 h2
        subst h2
        split <;> simp [Memory.read, Ne.symm h]
      · simp only [Memory.read, ih]

/-- A write of several bytes keeps the canonical form. -/
theorem writeN_wf (m : Memory) (a n x : Nat) (h : m.wf = true) : (m.writeN a n x).wf = true := by
  induction n generalizing m a x with
  | zero => exact h
  | succ n ih => exact ih _ _ _ (write_wf m a _ h)

/-- A write under a mask keeps the canonical form. -/
theorem writeMask_wf (m : Memory) (a n mask x : Nat) (h : m.wf = true) :
    (m.writeMask a n mask x).wf = true := by
  induction n generalizing m a mask x with
  | zero => exact h
  | succ n ih =>
    refine ih _ _ _ _ ?_
    split
    · exact write_wf m a _ h
    · exact h

/-- A write of several bytes leaves the bytes around them. -/
theorem read_writeN_other (m : Memory) (a n x b : Nat) (h : b < a ∨ a + n ≤ b) :
    (m.writeN a n x).read b = m.read b := by
  induction n generalizing m a x with
  | zero => rfl
  | succ n ih =>
    rw [Memory.writeN, ih _ _ _ (by omega), read_write_other _ _ _ _ (by omega)]

/-- A write under a mask leaves the bytes around it. -/
theorem read_writeMask_other (m : Memory) (a n mask x b : Nat) (h : b < a ∨ a + n ≤ b) :
    (m.writeMask a n mask x).read b = m.read b := by
  induction n generalizing m a mask x with
  | zero => rfl
  | succ n ih =>
    rw [Memory.writeMask, ih _ _ _ _ (by omega)]
    split
    · exact read_write_other _ _ _ _ (by omega)
    · rfl

/-- Reading back the bytes that were written. -/
theorem readN_writeN (m : Memory) (a n x : Nat) (h : m.wf = true) :
    (m.writeN a n x).readN a n = x % 256 ^ n := by
  induction n generalizing m a x with
  | zero => simp [Memory.readN, Nat.mod_one]
  | succ n ih =>
    rw [Memory.readN, Memory.writeN, ih _ _ _ (write_wf m a _ h),
      read_writeN_other _ _ _ _ _ (by omega), read_write_same _ _ _ none h]
    have e : (BitVec.ofNat 8 x).toNat = x % 256 := by simp
    rw [e, pow_succ, mul_comm (256 ^ n), Nat.mod_mul]

/-- Dropping entries keeps the canonical form. -/
theorem filter_above (m : Memory) (p : Host.Cell → Bool) (lo : Option Nat)
    (h : Memory.above lo m = true) : Memory.above lo (m.filter p) = true := by
  induction m generalizing lo with
  | nil => rfl
  | cons e m ih =>
    obtain ⟨k, b⟩ := e
    simp only [Memory.above, Bool.and_eq_true, decide_eq_true_eq] at h
    rw [List.filter_cons]
    split
    · simp only [Memory.above, Bool.and_eq_true, decide_eq_true_eq]
      exact ⟨h.1, ih (some k) h.2⟩
    · refine above_mono _ lo k (ih (some k) h.2) fun x hx => ?_
      subst hx
      have := h.1.1
      simp only [decide_eq_true_eq] at this
      omega

theorem filter_wf (m : Memory) (p : Host.Cell → Bool) (h : m.wf = true) :
    Memory.wf (m.filter p) = true := filter_above m p none h

/-- An empty memory has the canonical form, and reads as unlisted everywhere. -/
theorem empty_wf : Memory.wf [] = true := rfl

end Sys2Proof.Laws
end

