-- ==== Sys2Proof/Laws/Ops.lean ====
section
/-! SUPPORT. What the shared operations of Machine/Ops.lean do, each said once: the conclusion of a word, the
entry of a trap, leaving a course. -/

namespace Sys2Proof.Laws

open Sys2Proof Sys2Proof.Machine

/-! ### The conclusion of a word -/

/-- Passing elements changes the positions of stream units and nothing else. -/
theorem takeElements_core (s : State) :
    (∀ k, ((takeElements s).coreOf k).lasting = (s.coreOf k).lasting) ∧
    (∀ k, k ≠ s.cur.coreKey → (takeElements s).coreOf k = s.coreOf k) ∧
    takeElements s = { s with cores := (takeElements s).cores } := by
  unfold takeElements
  generalize (fun u : SUnit => if u.bound.isSome then u.advance else u) = g
  generalize s.issue.taken = l
  induction l generalizing s with
  | nil => exact ⟨fun _ => rfl, fun _ _ => rfl, rfl⟩
  | cons i l ih =>
    simp only [List.foldl_cons]
    obtain ⟨h1, h2, h3⟩ := ih (s.modUnit s.cur.coreKey i g)
    have hc : ∀ k, k ≠ s.cur.coreKey →
        (s.modUnit s.cur.coreKey i g).coreOf k = s.coreOf k :=
      fun k hk => modCore_coreOf_other _ _ _ _ hk
    refine ⟨fun k => ?_, fun k hk => ?_, ?_⟩
    · rw [h1 k]
      by_cases hk : k = s.cur.coreKey
      · subst hk
        simp [State.coreOf, Core.lasting]
      · rw [hc k hk]
    · rw [h2 k hk, hc k hk]
    · rw [h3]
      rfl

/-- Releasing a loop buffer. -/
theorem freeBuf_core (s : State) (c : Nat) (l : LoopLevel) :
    (∀ k, ((freeBuf s c l).coreOf k).lasting = (s.coreOf k).lasting) ∧
    (∀ k, k ≠ c → (freeBuf s c l).coreOf k = s.coreOf k) ∧
    freeBuf s c l = { s with cores := (freeBuf s c l).cores } := by
  unfold freeBuf
  split
  · exact ⟨fun _ => rfl, fun _ _ => rfl, rfl⟩
  · refine ⟨fun k => ?_, fun k hk => modCore_coreOf_other _ _ _ _ hk, rfl⟩
    by_cases hk : k = c
    · subst hk
      simp [Core.lasting]
    · rw [modCore_coreOf_other _ _ _ _ hk]

/-- The end event of a bundle: the program counter, the levels, the loop buffers, and the record of the event. -/
theorem endEvent_frame (s : State) :
    (endEvent s).me.lasting = s.me.lasting ∧
    (∀ k, k ≠ s.cur.key → fget Strand.empty (endEvent s).strands k = fget Strand.empty s.strands k) ∧
    (∀ k, ((endEvent s).coreOf k).lasting = (s.coreOf k).lasting) ∧
    (∀ k, k ≠ s.cur.coreKey → (endEvent s).coreOf k = s.coreOf k) ∧
    endEvent s = { s with strands := (endEvent s).strands, cores := (endEvent s).cores,
                          issue := (endEvent s).issue } ∧
    ((s.issue.noEnd = true ∨ s.issue.lev = 0) →
      (endEvent s).me = { s.me with pc := word s.issue.next }) := by
  have hset : ∀ x : Strand, ∀ k, k ≠ s.cur.key →
      fget Strand.empty (s.setMe x).strands k = fget Strand.empty s.strands k :=
    fun x k hk => fget_fset_other _ _ _ _ _ hk
  unfold endEvent
  simp only
  split
  · rename_i h
    refine ⟨by simp [Strand.lasting], fun k hk => hset _ k hk, fun _ => rfl, fun _ _ => rfl, rfl, ?_⟩
    intro _
    simp
  · rename_i h
    have hn : ¬(s.issue.noEnd = true ∨ s.issue.lev = 0) := by
      intro h'
      apply h
      rcases h' with h' | h' <;> simp [h']
    split
    · split
      · exact ⟨by simp [Strand.lasting], fun k hk => hset _ k hk, fun _ => rfl, fun _ _ => rfl, rfl,
          fun h' => absurd h' hn⟩
      · exact ⟨by simp [noteEvent, State.me, State.strand, Strand.lasting],
          fun k hk => hset _ k hk, fun _ => rfl, fun _ _ => rfl, rfl, fun h' => absurd h' hn⟩
    · rename_i l hl
      obtain ⟨h1, h2, h3⟩ := freeBuf_core (s.setMe
        { s.me with pc := word (endLevel s.issue.next s.me.loops (s.me.loops.length - s.issue.lev)).1
                    loops := (endLevel s.issue.next s.me.loops (s.me.loops.length - s.issue.lev)).2.1 })
        s.cur.coreKey l
      refine ⟨?_, fun k hk => ?_, h1, h2, ?_, fun h' => absurd h' hn⟩
      · rw [h3]
        simp [noteEvent, State.me, State.strand, Strand.lasting]
      · rw [h3]
        exact hset _ k hk
      · rw [h3]
        rfl

/-- The conclusion of a word (R66, R69): what `Concluded` says, of every state. -/
theorem endWord_concluded (u : State) : Concluded u (endWord u) := by
  unfold endWord
  split
  · rename_i hl
    obtain ⟨a1, a2, a3⟩ := takeElements_core u
    obtain ⟨b1, b2, b3, b4, b5, b6⟩ := endEvent_frame (takeElements u)
    have hcur : (takeElements u).cur = u.cur := by rw [a3]
    have hiss : (takeElements u).issue = u.issue := by rw [a3]
    have hstr : (takeElements u).strands = u.strands := by rw [a3]
    have hme : (takeElements u).me = u.me := by rw [State.me, State.strand, hstr, hcur]; rfl
    have ecur : (endEvent (takeElements u)).cur = u.cur := by rw [b5]; exact hcur
    rw [hcur, hstr] at b2
    rw [hcur] at b4
    rw [hme] at b1 b6
    rw [hiss] at b6
    have hm : (retire u).me =
        clearAnswers { (endEvent (takeElements u)).me with
          csr := { (endEvent (takeElements u)).me.csr with
            openpkt := countPkt (endEvent (takeElements u)).me.csr.openpkt } } :=
      modMe_me (endEvent (takeElements u)) (fun x =>
        clearAnswers { x with csr := { x.csr with openpkt := countPkt x.csr.openpkt } })
    have hc : ∀ k, (retire u).coreOf k = (endEvent (takeElements u)).coreOf k := fun _ => rfl
    have rest : ∀ {α : Type} (f : State → α), (∀ s x y, f { s with strands := x, cores := y } = f s) →
        (∀ s i, f { s with issue := i } = f s) → f (retire u) = f u := by
      intro α f h1 h2
      have h3 : ∀ s x y i, f { s with strands := x, cores := y, issue := i } = f s := fun s x y i =>
        (h2 { s with strands := x, cores := y } i).trans (h1 s x y)
      rw [retire, h2, State.modMe, State.setMe, State.setStrand, b5]
      exact (h3 (takeElements u) _ _ _).trans (a3 ▸ h1 u u.strands (takeElements u).cores)
    have rcur : (retire u).cur = u.cur := rest State.cur (fun _ _ _ => rfl) (fun _ _ => rfl)
    refine
      { ended := rfl
        cur := rcur
        me := by
          rw [hm, ← b1]
          rfl
        others := fun k hk => by
          simp only [retire, modMe_strands, ecur]
          rw [fget_fset_other _ _ _ _ _ hk, b2 k hk]
        core := by
          rw [State.core, rcur, hc, b3, a1]
          rfl
        otherCores := fun k hk => by rw [hc, b4 k hk, a2 k hk]
        clusters := rest State.clusters (fun _ _ _ => rfl) (fun _ _ => rfl)
        dies := rest State.dies (fun _ _ _ => rfl) (fun _ _ => rfl)
        mods := rest State.mods (fun _ _ _ => rfl) (fun _ _ => rfl)
        net := rest State.net (fun _ _ _ => rfl) (fun _ _ => rfl)
        replies := rest State.replies (fun _ _ _ => rfl) (fun _ _ => rfl)
        notes := rest State.notes (fun _ _ _ => rfl) (fun _ _ => rfl)
        flits := rest State.flits (fun _ _ _ => rfl) (fun _ _ => rfl)
        ejects := rest State.ejects (fun _ _ _ => rfl) (fun _ _ => rfl)
        agenda := rest State.agenda (fun _ _ _ => rfl) (fun _ _ => rfl)
        urgent := rest State.urgent (fun _ _ _ => rfl) (fun _ _ => rfl)
        time := ⟨rest State.ticks (fun _ _ _ => rfl) (fun _ _ => rfl),
          rest State.turn (fun _ _ _ => rfl) (fun _ _ => rfl),
          rest State.left (fun _ _ _ => rfl) (fun _ _ => rfl),
          rest State.fresh (fun _ _ _ => rfl) (fun _ _ => rfl)⟩
        pc := fun _ h => by
          rw [hm, b6 h]
          rfl
        levels := fun h => by
          rw [hm, b6 h]
          rfl
        half := fun h => absurd hl h }
  all_goals
    rename_i hl
    exact
      { ended := rfl, cur := rfl, me := rfl, others := fun _ _ => rfl, core := rfl, otherCores := fun _ _ => rfl
        clusters := rfl, dies := rfl, mods := rfl, net := rfl, replies := rfl, notes := rfl, flits := rfl
        ejects := rfl, agenda := rfl, urgent := rfl, time := ⟨rfl, rfl, rfl, rfl⟩
        pc := fun h => by rw [hl] at h; cases h
        levels := fun _ => rfl
        half := fun _ => rfl }

/-! ### A raised cause -/

/-- Waking strands of a cluster changes where a strand stands and nothing else of it. -/
theorem wakeClu_strand (s : State) (c : Nat) (rs : List ParkReason) (p : Place) :
    (s.wakeClu c rs).strand p = s.strand p ∨ (s.wakeClu c rs).strand p = (s.strand p).wakeIf rs := by
  unfold State.wakeClu State.strand
  simp only
  induction s.strands with
  | nil => exact .inl rfl
  | cons e l ih =>
    obtain ⟨k, x⟩ := e
    simp only [List.map_cons]
    by_cases hk : k = p.key
    · subst hk
      split
      · exact .inr (by simp [fget])
      · exact .inl (by simp [fget])
    · split <;> simpa [fget, hk] using ih

/-- What waking keeps of a strand. -/
theorem wakeIf_same (rs : List ParkReason) (x : Strand) : { x.wakeIf rs with st := x.st } = x := by
  unfold Strand.wakeIf
  split
  · split <;> simp
  all_goals rfl

/-- Parts of a strand that neither waking, nor answers, nor forwarded bundles touch. -/
def core' (x : Strand) : Strand := { x with st := .ready, fwd := [], resps := [] }

theorem core'_wakeIf (rs : List ParkReason) (x : Strand) : core' (x.wakeIf rs) = core' x := by
  have := congrArg core' (wakeIf_same rs x)
  exact this

/-- Giving an answer changes a strand's state and its answers. -/
theorem giveAnswer_frame (s : State) (q p : Place) (c v : Nat) :
    core' ((giveAnswer s q c v).strand p) = core' (s.strand p) := by
  unfold giveAnswer
  by_cases h : p.key = q.key
  · have e : ∀ t : State, t.strand p = t.strand q := fun t => by rw [State.strand, State.strand, h]
    rw [e, e, modStrand_strand]
    unfold Strand.wake core'
    split <;> rfl
  · rw [modStrand_strand_other _ _ _ _ h]

/-- Releasing held leaders (R186): answers for strands, and nothing else. -/
theorem releaseHolds_frame (s : State) (k slot : Nat) :
    (∀ p, core' ((releaseHolds s k slot).strand p) = core' (s.strand p)) ∧
    releaseHolds s k slot = { s with strands := (releaseHolds s k slot).strands } := by
  unfold releaseHolds
  generalize (s.cluOf k).courses = l
  induction l generalizing s with
  | nil => exact ⟨fun _ => rfl, rfl⟩
  | cons c l ih =>
    simp only [List.foldl_cons]
    split
    · obtain ⟨h1, h2⟩ := ih (giveAnswer s (placeOf (k * 16 + c.leader) slot) 0 0)
      exact ⟨fun p => (h1 p).trans (giveAnswer_frame ..), by rw [h2]; rfl⟩
    · exact ih s

/-- Leaving a course (R182, R183): the strand keeps everything but its forwarded bundles. -/
theorem leaveCourse_frame (s : State) (p : Place) (stay : Bool) :
    core' ((leaveCourse s p stay).strand p) = core' (s.strand p) ∧
    (leaveCourse s p stay).mods = s.mods ∧ (leaveCourse s p stay).cores = s.cores ∧
    (∀ k, ((leaveCourse s p stay).cluOf k).spad = (s.cluOf k).spad) ∧
    (leaveCourse s p stay).issue = s.issue ∧ (leaveCourse s p stay).cur = s.cur := by
  unfold leaveCourse
  simp only
  generalize hs : State.modStrand _ p _ = s1
  obtain ⟨r1, r2⟩ := releaseHolds_frame s1 p.cluKey p.slot
  have h : core' (s1.strand p) = core' (s.strand p) := by
    rw [← hs, modStrand_strand]
    rfl
  refine ⟨(r1 p).trans h, ?_, ?_, fun k => ?_, ?_, ?_⟩
  · rw [r2, ← hs]
    rfl
  · rw [r2, ← hs]
    rfl
  · rw [r2, ← hs]
    simp only [State.cluOf, modStrand_clusters, modClu_clusters]
    by_cases hk : k = p.cluKey
    · subst hk
      rw [fget_fset_same]
    · rw [fget_fset_other _ _ _ _ _ hk]
  · rw [r2, ← hs]
    rfl
  · rw [r2, ← hs]
    rfl

/-- Abandoning the open packet (R89): the strand keeps everything but its packet and OPENPKT. -/
theorem abandon_frame (s : State) (p : Place) :
    { (abandon s p).strand p with pkt := [], csr := { ((abandon s p).strand p).csr with openpkt := 0 } }
      = { s.strand p with pkt := [], csr := { (s.strand p).csr with openpkt := 0 } } ∧
    (abandon s p).mods = s.mods ∧ (abandon s p).clusters = s.clusters ∧
    (∀ k, ((abandon s p).coreOf k).tcm = (s.coreOf k).tcm) ∧
    (abandon s p).issue = s.issue ∧ (abandon s p).cur = s.cur := by
  unfold abandon
  simp only
  split
  · exact ⟨rfl, rfl, rfl, fun _ => rfl, rfl, rfl⟩
  · have hc : ∀ (t : State) (q : List QState) (k : Nat), t.cores = s.cores →
        (fget Core.reset (fset t.cores p.coreKey { t.coreOf p.coreKey with qs := q }) k).tcm
          = (s.coreOf k).tcm := by
      intro t q k ht
      by_cases hk : k = p.coreKey
      · subst hk
        rw [fget_fset_same, State.coreOf, ht]
        rfl
      · rw [fget_fset_other _ _ _ _ _ hk, ht]
        rfl
    split
    · exact ⟨by simp, rfl, rfl, fun _ => rfl, rfl, rfl⟩
    · split
      all_goals exact ⟨by simp [State.strand], rfl, rfl, fun k => hc (s.modStrand p _) _ k rfl, rfl, rfl⟩

/-- Consuming a pending error (R206) changes the strand's pending errors and nothing else. -/
theorem eatError_frame (s : State) :
    { (eatError s).me with mpend := s.me.mpend } = s.me ∧
    (eatError s).mods = s.mods ∧ (eatError s).clusters = s.clusters ∧ (eatError s).cores = s.cores ∧
    (eatError s).issue = s.issue ∧ (eatError s).cur = s.cur := by
  unfold eatError
  split
  · exact ⟨rfl, rfl, rfl, rfl, rfl, rfl⟩
  · exact ⟨by rw [modMe_me], rfl, rfl, rfl, rfl, rfl⟩

/-- The records of a cause other than DATA_ERROR (R320): an error log of a die, and nothing else. -/
theorem logCause_frame (s : State) (p : Place) (c : Cause) (a : Nat) (h : c ≠ .dataError) :
    (logCause s p c a).strands = s.strands ∧ (logCause s p c a).mods = s.mods ∧
    (logCause s p c a).clusters = s.clusters ∧ (logCause s p c a).cores = s.cores ∧
    (logCause s p c a).issue = s.issue ∧ (logCause s p c a).cur = s.cur := by
  unfold logCause
  simp only
  split
  · simp
  · simp
  · exact absurd rfl h
  · exact ⟨rfl, rfl, rfl, rfl, rfl, rfl⟩

/-- The part of a strand that no step before the entry of a trap touches. -/
def settled (x : Strand) : Strand :=
  { x with st := .ready, fwd := [], resps := [], pkt := [], mpend := [], csr := { x.csr with openpkt := 0 } }

theorem settled_core' {x y : Strand} (h : core' x = core' y) : settled x = settled y := by
  have t := congrArg settled h
  exact t

/-- A lone word of a strand outside a trap raises a cause (R93). -/
theorem trapBundle_first (s : State) (c : Cause) (addr info : Nat) (htl : s.me.tl = false)
    (hc : c ≠ .dataError) :
    ∃ x, settled x = settled s.me ∧ (trapBundle s c addr info).me = enterTrap x c addr info s.issue.addr ∧
      (trapBundle s c addr info).mods = s.mods ∧
      (∀ k, ((trapBundle s c addr info).coreOf k).tcm = (s.coreOf k).tcm) ∧
      ∀ k, ((trapBundle s c addr info).cluOf k).spad = (s.cluOf k).spad := by
  obtain ⟨a1, a2, a3, a4, a5, a6⟩ := eatError_frame s
  obtain ⟨b1, b2, b3, b4, b5, b6⟩ := abandon_frame (eatError s) s.cur
  obtain ⟨c1, c2, c3, c4, c5, c6⟩ := logCause_frame (abandon (eatError s) s.cur) s.cur c addr hc
  generalize hs1 : logCause (abandon (eatError s) s.cur) s.cur c addr = s1 at *
  have hst : settled (s1.strand s.cur) = settled s.me := by
    have e1 : s1.strand s.cur = (abandon (eatError s) s.cur).strand s.cur := by
      rw [State.strand, State.strand, c1]
    have e2 : settled ((abandon (eatError s) s.cur).strand s.cur) = settled ((eatError s).strand s.cur) := by
      have t := congrArg settled b1
      exact t
    have e3 : (eatError s).strand s.cur = (eatError s).me := by rw [State.me, a6]
    have e4 : settled (eatError s).me = settled s.me := by
      have t := congrArg settled a1
      exact t
    rw [e1, e2, e3, e4]
  have htl1 : (s1.strand s.cur).tl = false := by
    have : (settled (s1.strand s.cur)).tl = (settled s.me).tl := by rw [hst]
    exact this.trans htl
  obtain ⟨d1, d2, d3, d4, d5, d6⟩ := leaveCourse_frame s1 s.cur true
  have cur1 : s1.cur = s.cur := by rw [c6, b6, a6]
  have e : trapBundle s c addr info =
      { (leaveCourse s1 s.cur true).modStrand s.cur (fun x => enterTrap x c addr info s.issue.addr) with
        issue := { ((leaveCourse s1 s.cur true).modStrand s.cur
          (fun x => enterTrap x c addr info s.issue.addr)).issue with
          ended := some (.trap c addr info) } } := by
    unfold trapBundle syncTrap
    simp only [hs1, htl1]
    rfl
  refine ⟨(leaveCourse s1 s.cur true).strand s.cur, ?_, ?_, ?_, fun k => ?_, fun k => ?_⟩
  · rw [settled_core' d1, hst]
  · rw [e]
    show fget Strand.empty (fset _ _ _) (leaveCourse s1 s.cur true).cur.key = _
    rw [d6, cur1, fget_fset_same]
  · rw [e]
    show (leaveCourse s1 s.cur true).mods = _
    rw [d2, c2, b2, a2]
  · rw [e]
    show ((leaveCourse s1 s.cur true).coreOf k).tcm = _
    rw [State.coreOf, d3, c4]
    rw [show fget Core.reset (abandon (eatError s) s.cur).cores k = (abandon (eatError s) s.cur).coreOf k from rfl,
      b4, State.coreOf, a4]
    rfl
  · rw [e]
    show ((leaveCourse s1 s.cur true).cluOf k).spad = _
    rw [d4, State.cluOf, c3, b3, a3]
    rfl

/-- A raised cause (R69, R93): what `Raised` says, of every state. -/
theorem trapWord_raised (s : State) (c : Cause) (addr info : Nat) :
    Raised s (trapWord s c addr info) c addr info := by
  unfold trapWord
  split
  · rename_i hl
    have h0 : memHalf s c = 0 := by simp [memHalf, halfBit, hl]
    have key := fun htl hc => trapBundle_first s c addr info htl hc
    refine
      { ended := by rw [h0]; rfl
        half := fun h => absurd hl h
        regs := fun _ htl hc => ?_
        entry := fun _ htl hc => ?_
        others := fun _ htl hc => ?_
        memory := fun _ htl hc => ?_ }
    · obtain ⟨x, h1, h2, -⟩ := key htl hc
      rw [h2]
      have e1 := congrArg (fun y => (y.g, y.v, y.k, y.loops)) h1
      simp only [settled, Prod.mk.injEq] at e1
      exact e1
    · obtain ⟨x, h1, h2, -⟩ := key htl hc
      have e1 := congrArg (fun y => (y.csr.evec, y.csr.sstat)) h1
      simp only [settled, Prod.mk.injEq] at e1
      rw [h2]
      simp [enterTrap, e1.1, e1.2]
    · obtain ⟨x, h1, h2, -⟩ := key htl hc
      rw [h2]
      have e1 := congrArg (fun y => (y.csr.fpctl, y.csr.rndseed, y.csr.evec, y.csr.escratch,
        y.csr.ttmask, y.csr.groups)) h1
      simp only [settled, Prod.mk.injEq] at e1
      exact e1
    · obtain ⟨x, -, -, h3⟩ := key htl hc
      exact h3
  all_goals
    rename_i hl
    have hn : s.issue.half ≠ .lone := by rw [hl]; decide
    exact
      { ended := rfl
        half := fun _ => rfl
        regs := fun h => absurd h hn
        entry := fun h => absurd h hn
        others := fun h => absurd h hn
        memory := fun h => absurd h hn }

/-- A word whose meaning ends with its effects completes. -/
theorem completes_of_done {i : Instr} {s u : State} (h : exec i s = finish s (.done u)) : Completes i s u :=
  ⟨endWord u, h, endWord_concluded u⟩

/-- A word whose meaning ends in a cause raises it. -/
theorem raises_of_trap {i : Instr} {s : State} {c : Cause} {a n : Nat} (h : exec i s = finish s (.trap c a n)) :
    Raises i s c a n :=
  ⟨trapWord s c a n, h, trapWord_raised s c a n⟩

/-- A word that has its effects goes on. -/
theorem finish_done (s t : State) : finish s (.done t) = .next (endWord t) := rfl

/-- Whatever a word does, the machine goes on. -/
theorem finish_next (s : State) (r : Res) : ∃ t, finish s r = .next t := by
  cases r <;> exact ⟨_, rfl⟩

end Sys2Proof.Laws
end

