-- ==== Sys2Proof/Laws/PerInstr.lean ====
section
/-! SUPPORT. Decoding an encoded instruction gives it back: one lemma per instruction. -/

namespace Sys2Proof.Laws.Encoding

open Sys2Proof

/-- Append one field below a number. -/
def push (a : Nat) (e : Nat × Nat) : Nat := a * 2 ^ e.1 + e.2

/-- The width of a list of fields. -/
def widthOf : List (Nat × Nat) → Nat
  | [] => 0
  | e :: l => e.1 + widthOf l

/-- Every value fits its field. -/
def Fits : List (Nat × Nat) → Prop
  | [] => True
  | e :: l => e.2 < 2 ^ e.1 ∧ Fits l

/-- Where field `i` stands, and its value. -/
def lowOf (l : List (Nat × Nat)) (i : Nat) : Nat := widthOf (l.drop (i + 1))
def highOf (l : List (Nat × Nat)) (i : Nat) : Nat := lowOf l i + (l.getD i (1, 0)).1 - 1

/-- A list of fields below a number. -/
theorem push_all (l : List (Nat × Nat)) (h : Fits l) : ∀ a,
    ∃ r, l.foldl push a = a * 2 ^ widthOf l + r ∧ r < 2 ^ widthOf l := by
  induction l with
  | nil => exact fun a => ⟨0, by simp [widthOf]⟩
  | cons e l ih =>
    intro a
    obtain ⟨r, h1, h2⟩ := ih h.2 (push a e)
    have he := h.1
    have h3 := Nat.mul_le_mul_right (2 ^ widthOf l) (Nat.succ_le_of_lt he)
    refine ⟨e.2 * 2 ^ widthOf l + r, ?_, ?_⟩
    · rw [List.foldl_cons, h1, push, widthOf, pow_add]
      ring
    · rw [widthOf, pow_add]
      simp only [Nat.succ_eq_add_one, Nat.add_mul, Nat.one_mul] at h3
      omega

/-- Reading a field above others. -/
theorem bits_above {a r k : Nat} (n lo : Nat) (hr : r < 2 ^ k) :
    bits (a * 2 ^ k + r) (k + lo + n) (k + lo) = bits a (lo + n) lo := by
  unfold bits
  rw [pow_add, ← Nat.div_div_eq_div_mul, mul_comm a, Nat.mul_add_div (by positivity),
    Nat.div_eq_of_lt hr, Nat.add_zero]
  congr 2
  omega

/-- A field of a word reads as its value. -/
theorem read {w a : Nat} (l : List (Nat × Nat)) (he : w = l.foldl push a) (h : Fits l) (i : Nat)
    (hi : i < l.length) (hw : 0 < (l.getD i (1, 0)).1) :
    bits w (highOf l i) (lowOf l i) = (l.getD i (1, 0)).2 := by
  subst he
  induction l generalizing a i with
  | nil => simp at hi
  | cons e l ih =>
    cases i with
    | succ i => exact ih h.2 i (by simpa using hi) (by simpa using hw)
    | zero =>
      obtain ⟨r, h1, h2⟩ := push_all l h.2 (push a e)
      have he := h.1
      simp only [highOf, lowOf, List.foldl_cons, List.drop_succ_cons, List.drop_zero,
        List.getD_cons_zero] at hw ⊢
      obtain ⟨n, hn⟩ := Nat.exists_eq_succ_of_ne_zero (Nat.pos_iff_ne_zero.mp hw)
      have := bits_above (a := push a e) n 0 h2
      rw [h1, hn]
      simp only [Nat.add_zero, Nat.succ_eq_add_one] at this ⊢
      rw [show widthOf l + (n + 1) - 1 = widthOf l + n by omega, this]
      simp only [bits, push, hn, Nat.succ_eq_add_one, Nat.zero_add, pow_zero, Nat.div_one,
        Nat.sub_zero]
      rw [hn] at he
      rw [Nat.add_comm, Nat.add_mul_mod_self_right, Nat.mod_eq_of_lt he]

/-- Two neighbouring bits read together. -/
theorem bits_two {w a u v : Nat} {l : List (Nat × Nat)} (he : w = (l ++ [(1, u), (1, v)]).foldl push a)
    (hu : u < 2 ^ 1) (hv : v < 2 ^ 1) : bits w 1 0 = u * 2 + v := by
  simp only [List.foldl_append, List.foldl_cons, List.foldl_nil, push] at he
  simp only [bits]
  omega

theorem b2n_lt (b : Bool) : b2n b < 2 ^ 1 := by cases b <;> decide
theorem rd_lt (r : RoundSel) : r.rd < 2 ^ 1 := by cases r <;> simp [RoundSel.rd]
theorem rm_lt (r : RoundSel) : r.rm < 2 ^ 2 := by rcases r with _ | ⟨_ | _⟩ <;> decide
theorem lt_wide {x m : Nat} (n : Nat) (h : x < 2 ^ m) (hm : m ≤ n) : x < 2 ^ n :=
  Nat.lt_of_lt_of_le h (Nat.pow_le_pow_right (by decide) hm)
theorem width_lt (x : Width) : x.code < 2 ^ 2 := by cases x <;> decide
theorem scope_lt (x : Scope) : x.code < 2 ^ 3 := by cases x <;> decide
theorem prefKind_lt (x : PrefKind) : x.code < 2 ^ 2 := by cases x <;> decide
theorem vecFmt_lt (x : VecFmt) : x.code < 2 ^ 2 := by cases x <;> decide
theorem floatFmt_lt (x : FloatFmt) : x.code < 2 ^ 2 := by cases x <;> decide
theorem floatCode_lt (x : FloatCode) : x.code < 2 ^ 3 := by cases x <;> decide
theorem intTy_lt (x : IntTy) : x.code < 2 ^ 2 := by cases x <;> decide
theorem eType_lt (x : EType) : x.code < 2 ^ 4 := by cases x <;> decide
theorem rounding_lt (x : Rounding) : x.code < 2 ^ 2 := by cases x <;> decide
theorem vCond_lt (x : VCond) : x.code < 2 ^ 3 := by cases x <;> decide
theorem dataflow_lt (x : Dataflow) : x.code < 2 ^ 2 := by cases x <;> decide
theorem swap_lt (x : EType) : etSwap' x.code < 2 ^ 4 := by cases x <;> decide

theorem fin_back {n : Nat} [NeZero n] (a : Fin n) : Fin.ofNat n a.val = a := by ext; simp
theorem bv_back {n : Nat} (a : BitVec n) : BitVec.ofNat n a.toNat = a := by simp
theorem bool_back (b : Bool) : (b2n b == 1) = b := by cases b <;> rfl
theorem round_back (r : RoundSel) : roundSel r.rd r.rm = r := by rcases r with _ | ⟨_ | _⟩ <;> rfl
theorem round_ok (r : RoundSel) : (decide (r.rd = 0) && decide (r.rm ≠ 0)) = false := by
  rcases r with _ | ⟨_ | _⟩ <;> rfl
theorem width_back (x : Width) : Width.ofCode x.code = x := by cases x <;> rfl
theorem scope_back (x : Scope) : Scope.ofCode x.code = x := by cases x <;> rfl
theorem prefKind_back (x : PrefKind) : PrefKind.ofCode x.code = x := by cases x <;> rfl
theorem vecFmt_back (x : VecFmt) : VecFmt.ofCode x.code = x := by cases x <;> rfl
theorem floatFmt_back (x : FloatFmt) : FloatFmt.ofCode x.code = x := by cases x <;> rfl
theorem floatCode_back (x : FloatCode) : FloatCode.ofCode x.code = x := by cases x <;> rfl
theorem intTy_back (x : IntTy) : IntTy.ofCode x.code = x := by cases x <;> rfl
theorem rounding_back (x : Rounding) : Rounding.ofCode x.code = x := by cases x <;> rfl
theorem vCond_back (x : VCond) : VCond.ofCode x.code = x := by cases x <;> rfl
theorem dataflow_back (x : Dataflow) : Dataflow.ofCode x.code = x := by cases x <;> rfl
theorem eType_back (x : EType) : etOf' x.code = x := by cases x <;> rfl
theorem swap_back (x : EType) : etOf (etSwap' x.code) = x := by cases x <;> rfl
theorem eType_code (x : EType) : EType.ofCode? x.code = some x := by cases x <;> rfl
theorem swap_code (x : EType) : EType.ofCode? (etSwap (etSwap' x.code)) = some x := by cases x <;> rfl
theorem test_back (p : EType → Bool) (x : EType) : etTest p x.code = p x := by cases x <;> rfl
theorem test_swap (p : EType → Bool) (x : EType) : etTest p (etSwap (etSwap' x.code)) = p x := by
  cases x <;> rfl

/-- No offending field. -/
theorem checked_ok {bad : List (Nat × Nat × Bool)} {i j : Instr} (h : bad.all (fun e => !e.2.2) = true)
    (hi : i = j) : checked bad i = .ok j := by
  subst hi
  have hw : worst bad = none := by
    induction bad with
    | nil => rfl
    | cons e es ih =>
      obtain ⟨hi, lo, b⟩ := e
      simp only [List.all_cons, Bool.and_eq_true, Bool.not_eq_true'] at h
      obtain ⟨rfl, h2⟩ := h
      simp [worst, ih h2]
  simp [checked, hw]

/-- What the encoding of an instruction says: its word has 32 bits, bit 31 is set exactly when it is lone, and a
well-formed instruction is decoded from it; an instruction without a word is never well formed. -/
def Statement (i : Instr) : Prop :=
  ∀ lone : Bool,
    match encode lone i with
    | some w => w < 2 ^ 32 ∧ bits w 31 31 = b2n lone ∧ (i.wf lone = true → decodeWord lone w = .ok i)
    | none => i.wf lone = false

/-- The statement from the fields of the word. -/
theorem of_fields {i : Instr} (op : Nat) (l : List (Nat × Nat)) (h : encodeBody i = some (fields ((8, op) :: l)))
    (ho : op < 2 ^ 8) (hf : Fits l) (hs : widthOf l = 23)
    (hd : ∀ lone, i.wf lone = true → ∀ a w, w = l.foldl push a →
      (if op / 128 = 0 then decodeC lone (op % 128) w else decodeA lone (op % 128) w) = .ok i) :
    Statement i := by
  intro lone
  rw [encode, h]
  have hb : fields ((8, op) :: l) = l.foldl push (push 0 (8, op)) := rfl
  have hp : push 0 (8, op) = op := by simp [push]
  obtain ⟨r', h1', h2'⟩ := push_all l hf (b2n lone * 2 ^ 8 + op)
  have hl := b2n_lt lone
  have hw : fields ((8, op) :: l) + b2n lone * 2 ^ 31 = l.foldl push (b2n lone * 2 ^ 8 + op) := by
    have key : ∀ (m : List (Nat × Nat)) (a c : Nat),
        m.foldl push (c + a) = m.foldl push a + c * 2 ^ widthOf m := by
      intro m
      induction m with
      | nil => intro a c; simp [widthOf, Nat.add_comm]
      | cons e m ih =>
        intro a c
        have : push (c + a) e = c * 2 ^ e.1 + push a e := by simp only [push]; ring
        rw [List.foldl_cons, this, ih, List.foldl_cons, widthOf, pow_add]
        ring
    rw [hb, hp, key, hs]
    omega
  rw [hs] at h1' h2'
  simp only [Option.map_some]
  rw [hw]
  have e0 : bits (l.foldl push (b2n lone * 2 ^ 8 + op)) 30 30 = op / 128 := by
    rw [h1']; simp only [bits]; omega
  have e1 : bits (l.foldl push (b2n lone * 2 ^ 8 + op)) 29 23 = op % 128 := by
    rw [h1']; simp only [bits]; omega
  have hop : op < 256 := ho
  refine ⟨by rw [h1']; omega, by rw [h1']; simp only [bits]; omega, fun hwf => ?_⟩
  rw [← hd lone hwf _ _ rfl, decodeWord, e0, e1]

theorem ok_loop (lone : Bool) (imm : BitVec 13) :
    (decide ((if lone then 2 else 3) ≤ imm.toNat)) = true → ([(22, 18, 0 ≠ 0), (12, 0, imm.toNat < (if lone then 2 else 3))] : List (Nat × Nat × Bool)).all (fun e => !e.2.2) = true := by
  intro hw
  simp at hw ⊢
  exact hw

theorem ok_ldb (hint : Bool) :
    (true) = true → ([(2, 0, 2 ≤ (b2n hint))] : List (Nat × Nat × Bool)).all (fun e => !e.2.2) = true := by
  cases hint <;> exact fun _ => rfl

theorem ok_ldaq (sc : Scope) :
    (decide (sc ≠ .none)) = true → ([(2, 0, sc.code = 0 || sc.code = 7)] : List (Nat × Nat × Bool)).all (fun e => !e.2.2) = true := by
  cases sc <;>
    first | exact fun _ => rfl | exact fun h => Bool.noConfusion h

theorem ok_ldf (rs : RoundSel) :
    (true) = true → ([(1, 0, rs.rd = 0 && rs.rm ≠ 0)] : List (Nat × Nat × Bool)).all (fun e => !e.2.2) = true := by
  rcases rs with _ | ⟨_ | _⟩ <;> exact fun _ => rfl

theorem ok_pref (kind : PrefKind) :
    (true) = true → ([(22, 18, 3 ≤ kind.code), (2, 0, 0 ≠ 0)] : List (Nat × Nat × Bool)).all (fun e => !e.2.2) = true := by
  cases kind <;> exact fun _ => rfl

theorem ok_vld (t : VReg) :
    (true) = true → ([(22, 18, 16 ≤ t.val)] : List (Nat × Nat × Bool)).all (fun e => !e.2.2) = true := by
  intro hw
  have := t.isLt
  simp

theorem ok_vlds (d : VReg) :
    (true) = true → ([(22, 18, 16 ≤ d.val), (5, 2, 0 ≠ 0)] : List (Nat × Nat × Bool)).all (fun e => !e.2.2) = true := by
  intro hw
  have := d.isLt
  simp

theorem ok_vldf (t : VReg) (ty : VecFmt) :
    (true) = true → ([(22, 18, 16 ≤ t.val), (2, 0, 4 ≤ ty.code)] : List (Nat × Nat × Bool)).all (fun e => !e.2.2) = true := by
  intro hw
  have := t.isLt
  cases ty <;> simp [VecFmt.code] at hw ⊢

theorem ok_vstf (t : VReg) (ty : VecFmt) :
    (decide (ty ≠ .own)) = true → ([(22, 18, 16 ≤ t.val), (2, 0, 3 ≤ ty.code)] : List (Nat × Nat × Bool)).all (fun e => !e.2.2) = true := by
  intro hw
  have := t.isLt
  cases ty <;> simp [VecFmt.code] at hw ⊢

theorem ok_vgath (d : VReg) (b : VReg) :
    (true) = true → ([(22, 18, 16 ≤ d.val), (12, 8, 16 ≤ b.val), (5, 2, 0 ≠ 0)] : List (Nat × Nat × Bool)).all (fun e => !e.2.2) = true := by
  intro hw
  have := d.isLt
  have := b.isLt
  simp

theorem ok_amoadd (wid : Width) (sc : Scope) (rl : Bool) (aq : Bool) :
    (decide (wid = .w ∨ wid = .d) && ((sc == .none) == (!rl && !aq))) = true → ([(7, 6, wid.code < 2), (5, 3, sc.code = 7 || ((sc.code == 0) != ((b2n rl * 2 + b2n aq) == 0)))] : List (Nat × Nat × Bool)).all (fun e => !e.2.2) = true := by
  cases wid <;> cases sc <;> cases rl <;> cases aq <;>
    first | exact fun _ => rfl | exact fun h => Bool.noConfusion h

theorem ok_amofadd (wid : Width) (sc : Scope) (rl : Bool) (aq : Bool) :
    (decide (wid = .w) && ((sc == .none) == (!rl && !aq))) = true → ([(7, 6, wid.code ≠ 2), (5, 3, sc.code = 7 || ((sc.code == 0) != ((b2n rl * 2 + b2n aq) == 0)))] : List (Nat × Nat × Bool)).all (fun e => !e.2.2) = true := by
  cases wid <;> cases sc <;> cases rl <;> cases aq <;>
    first | exact fun _ => rfl | exact fun h => Bool.noConfusion h

theorem ok_fence (sc : Scope) :
    (decide (sc ≠ .none)) = true → ([(5, 3, sc.code = 0 || sc.code = 7), (22, 18, 0 ≠ 0), (17, 13, 0 ≠ 0), (12, 8, 0 ≠ 0), (7, 6, 0 ≠ 0), (2, 0, 0 ≠ 0)] : List (Nat × Nat × Bool)).all (fun e => !e.2.2) = true := by
  cases sc <;>
    first | exact fun _ => rfl | exact fun h => Bool.noConfusion h

theorem ok_waitw (wid : Width) :
    (decide (wid = .w ∨ wid = .d)) = true → ([(7, 6, wid.code < 2), (5, 0, 0 ≠ 0)] : List (Nat × Nat × Bool)).all (fun e => !e.2.2) = true := by
  cases wid <;>
    first | exact fun _ => rfl | exact fun h => Bool.noConfusion h

theorem ok_sev (sc : Scope) :
    (true) = true → ([(5, 3, sc.code = 7), (22, 18, 0 ≠ 0), (12, 8, 0 ≠ 0), (7, 6, 0 ≠ 0), (2, 1, 0 ≠ 0)] : List (Nat × Nat × Bool)).all (fun e => !e.2.2) = true := by
  cases sc <;> exact fun _ => rfl

theorem ok_bararr (sc : Scope) :
    (true) = true → ([(5, 3, sc.code = 7), (12, 8, 0 ≠ 0), (7, 6, 0 ≠ 0), (2, 0, 0 ≠ 0)] : List (Nat × Nat × Bool)).all (fun e => !e.2.2) = true := by
  cases sc <;> exact fun _ => rfl

theorem ok_barwt (sc : Scope) :
    (true) = true → ([(5, 3, sc.code = 7), (22, 18, 0 ≠ 0), (7, 6, 0 ≠ 0), (2, 0, 0 ≠ 0)] : List (Nat × Nat × Bool)).all (fun e => !e.2.2) = true := by
  cases sc <;> exact fun _ => rfl

theorem ok_sbind (d : VReg) :
    (decide (12 ≤ d.val)) = true → ([(22, 18, d.val < 12 || 16 ≤ d.val), (12, 8, 0 ≠ 0), (7, 1, 0 ≠ 0)] : List (Nat × Nat × Bool)).all (fun e => !e.2.2) = true := by
  intro hw
  have := d.isLt
  simp at hw ⊢
  omega

theorem ok_btset (n : Fin 13) :
    (true) = true → ([(22, 18, 13 ≤ n.val)] : List (Nat × Nat × Bool)).all (fun e => !e.2.2) = true := by
  intro hw
  have := n.isLt
  simp

theorem ok_btgo (sc : Scope) :
    (true) = true → ([(5, 3, sc.code = 7), (17, 13, 0 ≠ 0), (12, 8, 0 ≠ 0), (7, 6, 0 ≠ 0), (2, 0, 0 ≠ 0)] : List (Nat × Nat × Bool)).all (fun e => !e.2.2) = true := by
  cases sc <;> exact fun _ => rfl

theorem ok_ixpost (sc : Scope) :
    (true) = true → ([(5, 3, sc.code = 7), (12, 8, 0 ≠ 0), (7, 6, 0 ≠ 0), (2, 1, 0 ≠ 0)] : List (Nat × Nat × Bool)).all (fun e => !e.2.2) = true := by
  cases sc <;> exact fun _ => rfl

theorem ok_klook (sc : Scope) :
    (true) = true → ([(5, 3, sc.code = 7), (7, 6, 0 ≠ 0), (2, 0, 0 ≠ 0)] : List (Nat × Nat × Bool)).all (fun e => !e.2.2) = true := by
  cases sc <;> exact fun _ => rfl

theorem ok_eupd (sc : Scope) :
    (true) = true → ([(5, 3, sc.code = 7), (7, 6, 0 ≠ 0), (2, 2, 0 ≠ 0)] : List (Nat × Nat × Bool)).all (fun e => !e.2.2) = true := by
  cases sc <;> exact fun _ => rfl

theorem ok_eupdClose (sc : Scope) :
    (true) = true → ([(5, 3, sc.code = 7), (7, 6, 0 ≠ 0), (2, 2, 0 ≠ 0), (1, 0, 0 = 1)] : List (Nat × Nat × Bool)).all (fun e => !e.2.2) = true := by
  cases sc <;> exact fun _ => rfl

theorem ok_dcdec (sc : Scope) :
    (true) = true → ([(5, 3, sc.code = 7), (7, 6, 0 ≠ 0), (2, 1, 0 ≠ 0)] : List (Nat × Nat × Bool)).all (fun e => !e.2.2) = true := by
  cases sc <;> exact fun _ => rfl

theorem ok_texit (sc : Scope) :
    (true) = true → ([(5, 3, sc.code = 7), (22, 18, 0 ≠ 0), (17, 13, 0 ≠ 0), (12, 8, 0 ≠ 0), (7, 6, 0 ≠ 0), (2, 0, 0 ≠ 0)] : List (Nat × Nat × Bool)).all (fun e => !e.2.2) = true := by
  cases sc <;> exact fun _ => rfl

theorem ok_qsend (q : QReg) (b : VReg) :
    (true) = true → ([(17, 13, 4 ≤ q.val), (12, 8, 16 ≤ b.val), (22, 18, 0 ≠ 0), (7, 1, 0 ≠ 0)] : List (Nat × Nat × Bool)).all (fun e => !e.2.2) = true := by
  intro hw
  have := q.isLt
  have := b.isLt
  simp

theorem ok_qrecv (d : VReg) (q : QReg) :
    (true) = true → ([(22, 18, 16 ≤ d.val), (17, 13, 4 ≤ q.val), (7, 1, 0 ≠ 0)] : List (Nat × Nat × Bool)).all (fun e => !e.2.2) = true := by
  intro hw
  have := d.isLt
  have := q.isLt
  simp

theorem ok_vsmark (q : QReg) :
    (true) = true → ([(17, 13, 4 ≤ q.val), (22, 18, 0 ≠ 0), (7, 0, 0 ≠ 0)] : List (Nat × Nat × Bool)).all (fun e => !e.2.2) = true := by
  intro hw
  have := q.isLt
  simp

theorem ok_csrr (csr : BitVec 12) :
    (csrAssigned csr.toNat) = true → ([(11, 0, !csrAssigned (csr.toNat)), (17, 13, 0 ≠ 0), (12, 12, 0 ≠ 0)] : List (Nat × Nat × Bool)).all (fun e => !e.2.2) = true := by
  intro hw
  simp [hw]

theorem ok_csrw (csr : BitVec 12) :
    (csrAssigned csr.toNat) = true → ([(11, 0, !csrAssigned (csr.toNat)), (22, 18, 0 ≠ 0), (12, 12, 0 ≠ 0)] : List (Nat × Nat × Bool)).all (fun e => !e.2.2) = true := by
  intro hw
  simp [hw]

theorem ok_csrx (csr : BitVec 12) :
    (csrAssigned csr.toNat) = true → ([(11, 0, !csrAssigned (csr.toNat)), (12, 12, 0 ≠ 0)] : List (Nat × Nat × Bool)).all (fun e => !e.2.2) = true := by
  intro hw
  simp [hw]

theorem ok_trap (lone : Bool)  :
    (lone) = true → ([(22, 18, 0 ≠ 0), (17, 13, 0 ≠ 0), (31, 31, !lone)] : List (Nat × Nat × Bool)).all (fun e => !e.2.2) = true := by
  cases lone <;>
    first | exact fun _ => rfl | exact fun h => Bool.noConfusion h

theorem ok_eret (lone : Bool)  :
    (lone) = true → ([(22, 18, 0 ≠ 0), (17, 13, 0 ≠ 0), (12, 8, 0 ≠ 0), (7, 0, 0 ≠ 0), (31, 31, !lone)] : List (Nat × Nat × Bool)).all (fun e => !e.2.2) = true := by
  cases lone <;>
    first | exact fun _ => rfl | exact fun h => Bool.noConfusion h

theorem ok_plbinvPage (sc : Scope) :
    (decide (sc = .die ∨ sc = .pkg ∨ sc = .ten)) = true → ([(5, 3, sc.code < 3 || 5 < sc.code), (22, 18, 0 ≠ 0), (12, 8, 0 ≠ 0), (7, 6, 0 ≠ 0), (2, 0, 3 ≤ 0)] : List (Nat × Nat × Bool)).all (fun e => !e.2.2) = true := by
  cases sc <;>
    first | exact fun _ => rfl | exact fun h => Bool.noConfusion h

theorem ok_plbinvDom (sc : Scope) :
    (decide (sc = .die ∨ sc = .pkg ∨ sc = .ten)) = true → ([(5, 3, sc.code < 3 || 5 < sc.code), (22, 18, 0 ≠ 0), (12, 8, 0 ≠ 0), (7, 6, 0 ≠ 0)] : List (Nat × Nat × Bool)).all (fun e => !e.2.2) = true := by
  cases sc <;>
    first | exact fun _ => rfl | exact fun h => Bool.noConfusion h

theorem ok_plbinvVf (sc : Scope) :
    (decide (sc = .die ∨ sc = .pkg ∨ sc = .ten)) = true → ([(5, 3, sc.code < 3 || 5 < sc.code), (22, 18, 0 ≠ 0), (17, 13, 0 ≠ 0), (12, 8, 0 ≠ 0), (7, 6, 0 ≠ 0)] : List (Nat × Nat × Bool)).all (fun e => !e.2.2) = true := by
  cases sc <;>
    first | exact fun _ => rfl | exact fun h => Bool.noConfusion h

theorem ok_cflushCode (sc : Scope) :
    (decide (sc = .clu ∨ sc = .die ∨ sc = .pkg ∨ sc = .ten)) = true → ([(5, 3, sc.code < 2 || 5 < sc.code), (22, 18, 0 ≠ 0), (7, 6, 0 ≠ 0), (2, 0, 3 ≤ 0)] : List (Nat × Nat × Bool)).all (fun e => !e.2.2) = true := by
  cases sc <;>
    first | exact fun _ => rfl | exact fun h => Bool.noConfusion h

theorem ok_fadd (rs : RoundSel) (ft : FloatFmt) :
    (true) = true → ([(7, 6, rs.rd = 0 && rs.rm ≠ 0), (1, 0, ft.code = 3), (5, 3, 0 ≠ 0)] : List (Nat × Nat × Bool)).all (fun e => !e.2.2) = true := by
  rcases rs with _ | ⟨_ | _⟩ <;> cases ft <;> exact fun _ => rfl

theorem ok_fsqrt (rs : RoundSel) (ft : FloatFmt) :
    (true) = true → ([(7, 6, rs.rd = 0 && rs.rm ≠ 0), (1, 0, ft.code = 3), (12, 8, 0 ≠ 0), (5, 3, 0 ≠ 0)] : List (Nat × Nat × Bool)).all (fun e => !e.2.2) = true := by
  rcases rs with _ | ⟨_ | _⟩ <;> cases ft <;> exact fun _ => rfl

theorem ok_fmin (ft : FloatFmt) :
    (true) = true → ([(1, 0, ft.code = 3), (7, 2, 0 ≠ 0)] : List (Nat × Nat × Bool)).all (fun e => !e.2.2) = true := by
  cases ft <;> exact fun _ => rfl

theorem ok_fcvt (other : FloatCode) (rs : RoundSel) (ft : FloatFmt) :
    (true) = true → ([(10, 8, other.code = 0 || other.code = 7), (7, 6, rs.rd = 0 && rs.rm ≠ 0), (1, 0, ft.code = 3), (12, 12, 0 ≠ 0), (5, 3, 0 ≠ 0)] : List (Nat × Nat × Bool)).all (fun e => !e.2.2) = true := by
  cases other <;> rcases rs with _ | ⟨_ | _⟩ <;> cases ft <;> exact fun _ => rfl

theorem ok_fcvti (rs : RoundSel) (ft : FloatFmt) :
    (true) = true → ([(7, 6, rs.rd = 0 && rs.rm ≠ 0), (1, 0, ft.code = 3), (12, 10, 0 ≠ 0), (5, 3, 0 ≠ 0)] : List (Nat × Nat × Bool)).all (fun e => !e.2.2) = true := by
  rcases rs with _ | ⟨_ | _⟩ <;> cases ft <;> exact fun _ => rfl

theorem ok_vadd (ty : EType) (rm : Rounding) (sat : Bool) :
    ((ty.isInt || ty.isWF) && (!ty.isInt || decide (rm = .rne)) && (ty.isInt || !sat)) = true → ([(8, 6, !etIntWf (ty.code)), (2, 1, 0 ≠ 0), (4, 3, etInt (ty.code) && rm.code ≠ 0), (0, 0, !etInt (ty.code) && (b2n sat) ≠ 0)] : List (Nat × Nat × Bool)).all (fun e => !e.2.2) = true := by
  cases ty <;> cases rm <;> cases sat <;>
    first | exact fun _ => rfl | exact fun h => Bool.noConfusion h

theorem ok_vmul (ty : EType) (rm : Rounding) :
    ((ty.isInt || ty.isWF) && (!ty.isInt || decide (rm = .rne))) = true → ([(8, 6, !etIntWf (ty.code)), (2, 0, 0 ≠ 0), (4, 3, etInt (ty.code) && rm.code ≠ 0)] : List (Nat × Nat × Bool)).all (fun e => !e.2.2) = true := by
  cases ty <;> cases rm <;>
    first | exact fun _ => rfl | exact fun h => Bool.noConfusion h

theorem ok_vmax (ty : EType) :
    ((ty.isInt || ty.isWF)) = true → ([(8, 6, !etIntWf (ty.code)), (4, 0, 0 ≠ 0)] : List (Nat × Nat × Bool)).all (fun e => !e.2.2) = true := by
  cases ty <;>
    first | exact fun _ => rfl | exact fun h => Bool.noConfusion h

theorem ok_vand (ty : EType) :
    (true) = true → ([(8, 6, !etAny (ty.code)), (4, 0, 0 ≠ 0)] : List (Nat × Nat × Bool)).all (fun e => !e.2.2) = true := by
  cases ty <;> exact fun _ => rfl

theorem ok_vshl (ty : EType) :
    (ty.isInt) = true → ([(8, 6, !etInt (ty.code)), (4, 0, 0 ≠ 0)] : List (Nat × Nat × Bool)).all (fun e => !e.2.2) = true := by
  cases ty <;>
    first | exact fun _ => rfl | exact fun h => Bool.noConfusion h

theorem ok_vshr (ty : EType) :
    (ty.isInt) = true → ([(8, 6, !etInt (ty.code)), (4, 1, 0 ≠ 0)] : List (Nat × Nat × Bool)).all (fun e => !e.2.2) = true := by
  cases ty <;>
    first | exact fun _ => rfl | exact fun h => Bool.noConfusion h

theorem ok_vcmp (ty : EType) (cond : VCond) :
    ((ty.isInt || ty.isWF) && (decide (cond ≠ .un) || ty.isWF)) = true → ([(8, 6, !etIntWf (ty.code)), (4, 3, 0 ≠ 0), (22, 21, 0 ≠ 0), (2, 0, cond.code = 7 || (cond.code = 6 && etInt (ty.code)))] : List (Nat × Nat × Bool)).all (fun e => !e.2.2) = true := by
  cases ty <;> cases cond <;>
    first | exact fun _ => rfl | exact fun h => Bool.noConfusion h

theorem ok_vsel (k : KReg) (ty : EType) :
    (decide (k ≠ 0)) = true → ([(8, 6, !etAny (ty.code)), (4, 0, 0 ≠ 0), (10, 9, k.val = 0)] : List (Nat × Nat × Bool)).all (fun e => !e.2.2) = true := by
  intro hw
  have : k.val ≠ 0 := fun h => by simp [Fin.ext_iff, h] at hw
  cases ty <;> simp [this] <;> rfl

theorem ok_vcvt (dty : EType) (ty : EType) (rm : Rounding) (part : BitVec 3) :
    ((!(ty.isInt && dty.isInt) || decide (rm = .rne)) && decide (part.toNat < cvtRatio ty dty)) = true → ([(14, 11, (EType.ofCode? (etSwap ((etSwap' dty.code)))).isNone), (8, 6, !etAny (ty.code)), (4, 3, etInt (ty.code) && etInt (etSwap ((etSwap' dty.code))) && rm.code ≠ 0), (2, 0, etAny (ty.code) && etAny (etSwap ((etSwap' dty.code))) && decide (cvtRatio (etOf' (ty.code)) (etOf ((etSwap' dty.code))) ≤ part.toNat))] : List (Nat × Nat × Bool)).all (fun e => !e.2.2) = true := by
  intro hw
  rw [swap_code, etInt, etAny, test_back, test_back, test_swap, test_swap, eType_back, swap_back]
  simp at hw ⊢
  obtain ⟨h1, h2⟩ := hw
  refine ⟨?_, h2⟩
  rcases h1 with h1 | rfl
  · exact .inl h1
  · exact .inr rfl

theorem ok_vredsum (ty : EType) (acc : FloatFmt) :
    ((!ty.isInt || decide (acc = .f32))) = true → ([(8, 6, !etAny (ty.code)), (1, 0, acc.code = 3), (4, 2, 0 ≠ 0), (1, 0, etInt (ty.code) && acc.code ≠ 0)] : List (Nat × Nat × Bool)).all (fun e => !e.2.2) = true := by
  cases ty <;> cases acc <;>
    first | exact fun _ => rfl | exact fun h => Bool.noConfusion h

theorem ok_vredmax (ty : EType) :
    ((ty.isInt || ty.isWF)) = true → ([(8, 6, !etIntWf (ty.code)), (4, 0, 0 ≠ 0), (14, 11, 0 ≠ 0)] : List (Nat × Nat × Bool)).all (fun e => !e.2.2) = true := by
  cases ty <;>
    first | exact fun _ => rfl | exact fun h => Bool.noConfusion h

theorem ok_vrcp (ty : EType) :
    (ty.isWF) = true → ([(8, 6, !etWf (ty.code)), (2, 0, 0 ≠ 0), (14, 11, 0 ≠ 0)] : List (Nat × Nat × Bool)).all (fun e => !e.2.2) = true := by
  cases ty <;>
    first | exact fun _ => rfl | exact fun h => Bool.noConfusion h

theorem ok_vsplat (d : VReg) :
    (true) = true → ([(22, 18, 16 ≤ d.val), (12, 8, 0 ≠ 0), (5, 0, 0 ≠ 0)] : List (Nat × Nat × Bool)).all (fun e => !e.2.2) = true := by
  intro hw
  have := d.isLt
  simp

theorem ok_vperm (ty : EType) :
    (decide (ty ≠ .e2m1)) = true → ([(8, 6, !etPerm (ty.code)), (4, 1, 0 ≠ 0)] : List (Nat × Nat × Bool)).all (fun e => !e.2.2) = true := by
  cases ty <;>
    first | exact fun _ => rfl | exact fun h => Bool.noConfusion h

theorem ok_vmovg (a : VReg) :
    (true) = true → ([(17, 13, 16 ≤ a.val), (5, 1, 0 ≠ 0)] : List (Nat × Nat × Bool)).all (fun e => !e.2.2) = true := by
  intro hw
  have := a.isLt
  simp

theorem ok_vmovv (d : VReg) :
    (true) = true → ([(22, 18, 16 ≤ d.val), (5, 0, 0 ≠ 0)] : List (Nat × Nat × Bool)).all (fun e => !e.2.2) = true := by
  intro hw
  have := d.isLt
  simp

theorem ok_vdot (ty : EType) (acc : FloatFmt) :
    (decide (ty ≠ .i32) && (!ty.isInt || decide (acc = .f32))) = true → ([(8, 6, !etDot (ty.code)), (1, 0, acc.code = 3), (4, 2, 0 ≠ 0), (1, 0, etInt (ty.code) && acc.code ≠ 0)] : List (Nat × Nat × Bool)).all (fun e => !e.2.2) = true := by
  cases ty <;> cases acc <;>
    first | exact fun _ => rfl | exact fun h => Bool.noConfusion h

theorem ok_tshape (d : TReg) :
    (true) = true → ([(22, 18, 8 ≤ d.val), (12, 8, 0 ≠ 0), (7, 0, 0 ≠ 0)] : List (Nat × Nat × Bool)).all (fun e => !e.2.2) = true := by
  intro hw
  have := d.isLt
  simp

theorem ok_tld (d : TReg) :
    (true) = true → ([(22, 18, 8 ≤ d.val), (7, 2, 0 ≠ 0)] : List (Nat × Nat × Bool)).all (fun e => !e.2.2) = true := by
  intro hw
  have := d.isLt
  simp

theorem ok_mma (df : Dataflow) (acc : FloatFmt) :
    (true) = true → ([(13, 12, df.code = 3), (9, 8, acc.code = 3), (7, 0, 0 ≠ 0)] : List (Nat × Nat × Bool)).all (fun e => !e.2.2) = true := by
  cases df <;> cases acc <;> exact fun _ => rfl

theorem ok_tcvt (rs : RoundSel) :
    (true) = true → ([(7, 6, rs.rd = 0 && rs.rm ≠ 0), (16, 14, 0 ≠ 0), (13, 12, 0 ≠ 0), (9, 8, 0 ≠ 0), (4, 0, 0 ≠ 0)] : List (Nat × Nat × Bool)).all (fun e => !e.2.2) = true := by
  rcases rs with _ | ⟨_ | _⟩ <;> exact fun _ => rfl

theorem ok_tadd (rs : RoundSel) :
    (true) = true → ([(7, 6, rs.rd = 0 && rs.rm ≠ 0), (13, 12, 0 ≠ 0), (9, 8, 0 ≠ 0), (4, 0, 0 ≠ 0)] : List (Nat × Nat × Bool)).all (fun e => !e.2.2) = true := by
  rcases rs with _ | ⟨_ | _⟩ <;> exact fun _ => rfl

theorem ok_tscale (rs : RoundSel) :
    (true) = true → ([(7, 6, rs.rd = 0 && rs.rm ≠ 0), (13, 12, 0 ≠ 0), (9, 8, 0 ≠ 0), (4, 1, 0 ≠ 0)] : List (Nat × Nat × Bool)).all (fun e => !e.2.2) = true := by
  rcases rs with _ | ⟨_ | _⟩ <;> exact fun _ => rfl

theorem ok_mjoin (mask : BitVec 4) :
    (decide (mask ≠ 0)) = true → ([(22, 20, 0 ≠ 0), (19, 17, 0 ≠ 0), (16, 14, 0 ≠ 0), (13, 12, 0 ≠ 0), (11, 10, 0 ≠ 0), (9, 8, 0 ≠ 0), (7, 4, 0 ≠ 0), (3, 0, mask.toNat = 0)] : List (Nat × Nat × Bool)).all (fun e => !e.2.2) = true := by
  intro hw
  have : mask.toNat ≠ 0 := fun h => by
    have : mask = 0 := BitVec.eq_of_toNat_eq (by simp [h])
    simp [this] at hw
  simp [this]

theorem ok_tmovv (d : VReg) (a : TReg) :
    (true) = true → ([(22, 18, 16 ≤ d.val), (17, 13, 8 ≤ a.val), (7, 2, 0 ≠ 0)] : List (Nat × Nat × Bool)).all (fun e => !e.2.2) = true := by
  intro hw
  have := d.isLt
  have := a.isLt
  simp

theorem ok_vmovt (d : TReg) (a : VReg) :
    (true) = true → ([(22, 18, 8 ≤ d.val), (17, 13, 16 ≤ a.val), (7, 2, 0 ≠ 0)] : List (Nat × Nat × Bool)).all (fun e => !e.2.2) = true := by
  intro hw
  have := d.isLt
  have := a.isLt
  simp

theorem nop : Statement (.nop) := by
  have h1 : 0 < 2 ^ 23 := (by decide : 0 < 2 ^ 23)
  have hf : Fits [(23, 0)] :=
    ⟨h1, trivial⟩
  refine of_fields 0 _ rfl (by decide) hf rfl fun lone hw acc0 wd he => ?_
  have r22_0 : bits wd 22 0 = 0 := read _ he hf 0 (Nat.le_of_ble_eq_true rfl)
      (Nat.le_of_ble_eq_true rfl)
  change dec_nop wd = _
  unfold dec_nop
  rw [r22_0]
  exact checked_ok (rfl) rfl

theorem br off : Statement (.br off) := by
  have h1 : off.toNat < 2 ^ 23 := (off.isLt : off.toNat < 2 ^ 23)
  have hf : Fits [(23, off.toNat)] :=
    ⟨h1, trivial⟩
  refine of_fields 1 _ rfl (by decide) hf rfl fun lone hw acc0 wd he => ?_
  have r22_0 : bits wd 22 0 = off.toNat := read _ he hf 0 (Nat.le_of_ble_eq_true rfl)
      (Nat.le_of_ble_eq_true rfl)
  change dec_br wd = _
  unfold dec_br
  rw [r22_0]
  exact checked_ok (rfl) (by simp only [bv_back])

theorem call off : Statement (.call off) := by
  have h1 : off.toNat < 2 ^ 23 := (off.isLt : off.toNat < 2 ^ 23)
  have hf : Fits [(23, off.toNat)] :=
    ⟨h1, trivial⟩
  refine of_fields 2 _ rfl (by decide) hf rfl fun lone hw acc0 wd he => ?_
  have r22_0 : bits wd 22 0 = off.toNat := read _ he hf 0 (Nat.le_of_ble_eq_true rfl)
      (Nat.le_of_ble_eq_true rfl)
  change dec_call wd = _
  unfold dec_call
  rw [r22_0]
  exact checked_ok (rfl) (by simp only [bv_back])

theorem jmp a imm : Statement (.jmp a imm) := by
  have h1 : 0 < 2 ^ 5 := (by decide : 0 < 2 ^ 5)
  have h2 : a.val < 2 ^ 5 := (a.isLt : a.val < 2 ^ 5)
  have h3 : imm.toNat < 2 ^ 13 := (imm.isLt : imm.toNat < 2 ^ 13)
  have hf : Fits [(5, 0), (5, a.val), (13, imm.toNat)] :=
    ⟨h1, h2, h3, trivial⟩
  refine of_fields 3 _ rfl (by decide) hf rfl fun lone hw acc0 wd he => ?_
  have r22_18 : bits wd 22 18 = 0 := read _ he hf 0 (Nat.le_of_ble_eq_true rfl)
      (Nat.le_of_ble_eq_true rfl)
  have r17_13 : bits wd 17 13 = a.val := read _ he hf 1 (Nat.le_of_ble_eq_true rfl)
      (Nat.le_of_ble_eq_true rfl)
  have r12_0 : bits wd 12 0 = imm.toNat := read _ he hf 2 (Nat.le_of_ble_eq_true rfl)
      (Nat.le_of_ble_eq_true rfl)
  change dec_jmp wd = _
  unfold dec_jmp
  rw [r22_18, r17_13, r12_0]
  exact checked_ok (rfl) (by simp only [fin_back, bv_back])

theorem callr a imm : Statement (.callr a imm) := by
  have h1 : 0 < 2 ^ 5 := (by decide : 0 < 2 ^ 5)
  have h2 : a.val < 2 ^ 5 := (a.isLt : a.val < 2 ^ 5)
  have h3 : imm.toNat < 2 ^ 13 := (imm.isLt : imm.toNat < 2 ^ 13)
  have hf : Fits [(5, 0), (5, a.val), (13, imm.toNat)] :=
    ⟨h1, h2, h3, trivial⟩
  refine of_fields 4 _ rfl (by decide) hf rfl fun lone hw acc0 wd he => ?_
  have r22_18 : bits wd 22 18 = 0 := read _ he hf 0 (Nat.le_of_ble_eq_true rfl)
      (Nat.le_of_ble_eq_true rfl)
  have r17_13 : bits wd 17 13 = a.val := read _ he hf 1 (Nat.le_of_ble_eq_true rfl)
      (Nat.le_of_ble_eq_true rfl)
  have r12_0 : bits wd 12 0 = imm.toNat := read _ he hf 2 (Nat.le_of_ble_eq_true rfl)
      (Nat.le_of_ble_eq_true rfl)
  change dec_callr wd = _
  unfold dec_callr
  rw [r22_18, r17_13, r12_0]
  exact checked_ok (rfl) (by simp only [fin_back, bv_back])

theorem beq a b off : Statement (.beq a b off) := by
  have h1 : a.val < 2 ^ 5 := (a.isLt : a.val < 2 ^ 5)
  have h2 : b.val < 2 ^ 5 := (b.isLt : b.val < 2 ^ 5)
  have h3 : off.toNat < 2 ^ 13 := (off.isLt : off.toNat < 2 ^ 13)
  have hf : Fits [(5, a.val), (5, b.val), (13, off.toNat)] :=
    ⟨h1, h2, h3, trivial⟩
  refine of_fields 5 _ rfl (by decide) hf rfl fun lone hw acc0 wd he => ?_
  have r22_18 : bits wd 22 18 = a.val := read _ he hf 0 (Nat.le_of_ble_eq_true rfl)
      (Nat.le_of_ble_eq_true rfl)
  have r17_13 : bits wd 17 13 = b.val := read _ he hf 1 (Nat.le_of_ble_eq_true rfl)
      (Nat.le_of_ble_eq_true rfl)
  have r12_0 : bits wd 12 0 = off.toNat := read _ he hf 2 (Nat.le_of_ble_eq_true rfl)
      (Nat.le_of_ble_eq_true rfl)
  change dec_beq wd = _
  unfold dec_beq
  rw [r22_18, r17_13, r12_0]
  exact checked_ok (rfl) (by simp only [fin_back, bv_back])

theorem bne a b off : Statement (.bne a b off) := by
  have h1 : a.val < 2 ^ 5 := (a.isLt : a.val < 2 ^ 5)
  have h2 : b.val < 2 ^ 5 := (b.isLt : b.val < 2 ^ 5)
  have h3 : off.toNat < 2 ^ 13 := (off.isLt : off.toNat < 2 ^ 13)
  have hf : Fits [(5, a.val), (5, b.val), (13, off.toNat)] :=
    ⟨h1, h2, h3, trivial⟩
  refine of_fields 6 _ rfl (by decide) hf rfl fun lone hw acc0 wd he => ?_
  have r22_18 : bits wd 22 18 = a.val := read _ he hf 0 (Nat.le_of_ble_eq_true rfl)
      (Nat.le_of_ble_eq_true rfl)
  have r17_13 : bits wd 17 13 = b.val := read _ he hf 1 (Nat.le_of_ble_eq_true rfl)
      (Nat.le_of_ble_eq_true rfl)
  have r12_0 : bits wd 12 0 = off.toNat := read _ he hf 2 (Nat.le_of_ble_eq_true rfl)
      (Nat.le_of_ble_eq_true rfl)
  change dec_bne wd = _
  unfold dec_bne
  rw [r22_18, r17_13, r12_0]
  exact checked_ok (rfl) (by simp only [fin_back, bv_back])

theorem blt a b off : Statement (.blt a b off) := by
  have h1 : a.val < 2 ^ 5 := (a.isLt : a.val < 2 ^ 5)
  have h2 : b.val < 2 ^ 5 := (b.isLt : b.val < 2 ^ 5)
  have h3 : off.toNat < 2 ^ 13 := (off.isLt : off.toNat < 2 ^ 13)
  have hf : Fits [(5, a.val), (5, b.val), (13, off.toNat)] :=
    ⟨h1, h2, h3, trivial⟩
  refine of_fields 7 _ rfl (by decide) hf rfl fun lone hw acc0 wd he => ?_
  have r22_18 : bits wd 22 18 = a.val := read _ he hf 0 (Nat.le_of_ble_eq_true rfl)
      (Nat.le_of_ble_eq_true rfl)
  have r17_13 : bits wd 17 13 = b.val := read _ he hf 1 (Nat.le_of_ble_eq_true rfl)
      (Nat.le_of_ble_eq_true rfl)
  have r12_0 : bits wd 12 0 = off.toNat := read _ he hf 2 (Nat.le_of_ble_eq_true rfl)
      (Nat.le_of_ble_eq_true rfl)
  change dec_blt wd = _
  unfold dec_blt
  rw [r22_18, r17_13, r12_0]
  exact checked_ok (rfl) (by simp only [fin_back, bv_back])

theorem bge a b off : Statement (.bge a b off) := by
  have h1 : a.val < 2 ^ 5 := (a.isLt : a.val < 2 ^ 5)
  have h2 : b.val < 2 ^ 5 := (b.isLt : b.val < 2 ^ 5)
  have h3 : off.toNat < 2 ^ 13 := (off.isLt : off.toNat < 2 ^ 13)
  have hf : Fits [(5, a.val), (5, b.val), (13, off.toNat)] :=
    ⟨h1, h2, h3, trivial⟩
  refine of_fields 8 _ rfl (by decide) hf rfl fun lone hw acc0 wd he => ?_
  have r22_18 : bits wd 22 18 = a.val := read _ he hf 0 (Nat.le_of_ble_eq_true rfl)
      (Nat.le_of_ble_eq_true rfl)
  have r17_13 : bits wd 17 13 = b.val := read _ he hf 1 (Nat.le_of_ble_eq_true rfl)
      (Nat.le_of_ble_eq_true rfl)
  have r12_0 : bits wd 12 0 = off.toNat := read _ he hf 2 (Nat.le_of_ble_eq_true rfl)
      (Nat.le_of_ble_eq_true rfl)
  change dec_bge wd = _
  unfold dec_bge
  rw [r22_18, r17_13, r12_0]
  exact checked_ok (rfl) (by simp only [fin_back, bv_back])

theorem bltu a b off : Statement (.bltu a b off) := by
  have h1 : a.val < 2 ^ 5 := (a.isLt : a.val < 2 ^ 5)
  have h2 : b.val < 2 ^ 5 := (b.isLt : b.val < 2 ^ 5)
  have h3 : off.toNat < 2 ^ 13 := (off.isLt : off.toNat < 2 ^ 13)
  have hf : Fits [(5, a.val), (5, b.val), (13, off.toNat)] :=
    ⟨h1, h2, h3, trivial⟩
  refine of_fields 9 _ rfl (by decide) hf rfl fun lone hw acc0 wd he => ?_
  have r22_18 : bits wd 22 18 = a.val := read _ he hf 0 (Nat.le_of_ble_eq_true rfl)
      (Nat.le_of_ble_eq_true rfl)
  have r17_13 : bits wd 17 13 = b.val := read _ he hf 1 (Nat.le_of_ble_eq_true rfl)
      (Nat.le_of_ble_eq_true rfl)
  have r12_0 : bits wd 12 0 = off.toNat := read _ he hf 2 (Nat.le_of_ble_eq_true rfl)
      (Nat.le_of_ble_eq_true rfl)
  change dec_bltu wd = _
  unfold dec_bltu
  rw [r22_18, r17_13, r12_0]
  exact checked_ok (rfl) (by simp only [fin_back, bv_back])

theorem bgeu a b off : Statement (.bgeu a b off) := by
  have h1 : a.val < 2 ^ 5 := (a.isLt : a.val < 2 ^ 5)
  have h2 : b.val < 2 ^ 5 := (b.isLt : b.val < 2 ^ 5)
  have h3 : off.toNat < 2 ^ 13 := (off.isLt : off.toNat < 2 ^ 13)
  have hf : Fits [(5, a.val), (5, b.val), (13, off.toNat)] :=
    ⟨h1, h2, h3, trivial⟩
  refine of_fields 10 _ rfl (by decide) hf rfl fun lone hw acc0 wd he => ?_
  have r22_18 : bits wd 22 18 = a.val := read _ he hf 0 (Nat.le_of_ble_eq_true rfl)
      (Nat.le_of_ble_eq_true rfl)
  have r17_13 : bits wd 17 13 = b.val := read _ he hf 1 (Nat.le_of_ble_eq_true rfl)
      (Nat.le_of_ble_eq_true rfl)
  have r12_0 : bits wd 12 0 = off.toNat := read _ he hf 2 (Nat.le_of_ble_eq_true rfl)
      (Nat.le_of_ble_eq_true rfl)
  change dec_bgeu wd = _
  unfold dec_bgeu
  rw [r22_18, r17_13, r12_0]
  exact checked_ok (rfl) (by simp only [fin_back, bv_back])

theorem jtab d a imm : Statement (.jtab d a imm) := by
  have h1 : d.val < 2 ^ 5 := (d.isLt : d.val < 2 ^ 5)
  have h2 : a.val < 2 ^ 5 := (a.isLt : a.val < 2 ^ 5)
  have h3 : imm.toNat < 2 ^ 13 := (imm.isLt : imm.toNat < 2 ^ 13)
  have hf : Fits [(5, d.val), (5, a.val), (13, imm.toNat)] :=
    ⟨h1, h2, h3, trivial⟩
  refine of_fields 11 _ rfl (by decide) hf rfl fun lone hw acc0 wd he => ?_
  have r22_18 : bits wd 22 18 = d.val := read _ he hf 0 (Nat.le_of_ble_eq_true rfl)
      (Nat.le_of_ble_eq_true rfl)
  have r17_13 : bits wd 17 13 = a.val := read _ he hf 1 (Nat.le_of_ble_eq_true rfl)
      (Nat.le_of_ble_eq_true rfl)
  have r12_0 : bits wd 12 0 = imm.toNat := read _ he hf 2 (Nat.le_of_ble_eq_true rfl)
      (Nat.le_of_ble_eq_true rfl)
  change dec_jtab wd = _
  unfold dec_jtab
  rw [r22_18, r17_13, r12_0]
  exact checked_ok (rfl) (by simp only [fin_back, bv_back])

theorem loop a imm : Statement (.loop a imm) := by
  have h1 : 0 < 2 ^ 5 := (by decide : 0 < 2 ^ 5)
  have h2 : a.val < 2 ^ 5 := (a.isLt : a.val < 2 ^ 5)
  have h3 : imm.toNat < 2 ^ 13 := (imm.isLt : imm.toNat < 2 ^ 13)
  have hf : Fits [(5, 0), (5, a.val), (13, imm.toNat)] :=
    ⟨h1, h2, h3, trivial⟩
  refine of_fields 12 _ rfl (by decide) hf rfl fun lone hw acc0 wd he => ?_
  have r22_18 : bits wd 22 18 = 0 := read _ he hf 0 (Nat.le_of_ble_eq_true rfl)
      (Nat.le_of_ble_eq_true rfl)
  have r17_13 : bits wd 17 13 = a.val := read _ he hf 1 (Nat.le_of_ble_eq_true rfl)
      (Nat.le_of_ble_eq_true rfl)
  have r12_0 : bits wd 12 0 = imm.toNat := read _ he hf 2 (Nat.le_of_ble_eq_true rfl)
      (Nat.le_of_ble_eq_true rfl)
  change dec_loop lone wd = _
  unfold dec_loop
  rw [r22_18, r17_13, r12_0]
  exact checked_ok (ok_loop lone imm hw) (by simp only [fin_back, bv_back])

theorem loopx a : Statement (.loopx a) := by
  have h1 : 0 < 2 ^ 5 := (by decide : 0 < 2 ^ 5)
  have h2 : a.val < 2 ^ 5 := (a.isLt : a.val < 2 ^ 5)
  have h3 : 0 < 2 ^ 13 := (by decide : 0 < 2 ^ 13)
  have hf : Fits [(5, 0), (5, a.val), (13, 0)] :=
    ⟨h1, h2, h3, trivial⟩
  refine of_fields 13 _ rfl (by decide) hf rfl fun lone hw acc0 wd he => ?_
  have r22_18 : bits wd 22 18 = 0 := read _ he hf 0 (Nat.le_of_ble_eq_true rfl)
      (Nat.le_of_ble_eq_true rfl)
  have r17_13 : bits wd 17 13 = a.val := read _ he hf 1 (Nat.le_of_ble_eq_true rfl)
      (Nat.le_of_ble_eq_true rfl)
  have r12_0 : bits wd 12 0 = 0 := read _ he hf 2 (Nat.le_of_ble_eq_true rfl)
      (Nat.le_of_ble_eq_true rfl)
  change dec_loopx wd = _
  unfold dec_loopx
  rw [r22_18, r17_13, r12_0]
  exact checked_ok (rfl) (by simp only [fin_back])

theorem realign imm : Statement (.realign imm) := by
  have h1 : 0 < 2 ^ 5 := (by decide : 0 < 2 ^ 5)
  have h2 : 0 < 2 ^ 5 := (by decide : 0 < 2 ^ 5)
  have h3 : imm.toNat < 2 ^ 13 := (imm.isLt : imm.toNat < 2 ^ 13)
  have hf : Fits [(5, 0), (5, 0), (13, imm.toNat)] :=
    ⟨h1, h2, h3, trivial⟩
  refine of_fields 14 _ rfl (by decide) hf rfl fun lone hw acc0 wd he => ?_
  have r22_18 : bits wd 22 18 = 0 := read _ he hf 0 (Nat.le_of_ble_eq_true rfl)
      (Nat.le_of_ble_eq_true rfl)
  have r17_13 : bits wd 17 13 = 0 := read _ he hf 1 (Nat.le_of_ble_eq_true rfl)
      (Nat.le_of_ble_eq_true rfl)
  have r12_0 : bits wd 12 0 = imm.toNat := read _ he hf 2 (Nat.le_of_ble_eq_true rfl)
      (Nat.le_of_ble_eq_true rfl)
  change dec_realign wd = _
  unfold dec_realign
  rw [r22_18, r17_13, r12_0]
  exact checked_ok (rfl) (by simp only [bv_back])

theorem course d a : Statement (.course d a) := by
  have h1 : d.val < 2 ^ 5 := (d.isLt : d.val < 2 ^ 5)
  have h2 : a.val < 2 ^ 5 := (a.isLt : a.val < 2 ^ 5)
  have h3 : 0 < 2 ^ 5 := (by decide : 0 < 2 ^ 5)
  have h4 : 0 < 2 ^ 8 := (by decide : 0 < 2 ^ 8)
  have hf : Fits [(5, d.val), (5, a.val), (5, 0), (8, 0)] :=
    ⟨h1, h2, h3, h4, trivial⟩
  refine of_fields 15 _ rfl (by decide) hf rfl fun lone hw acc0 wd he => ?_
  have r22_18 : bits wd 22 18 = d.val := read _ he hf 0 (Nat.le_of_ble_eq_true rfl)
      (Nat.le_of_ble_eq_true rfl)
  have r17_13 : bits wd 17 13 = a.val := read _ he hf 1 (Nat.le_of_ble_eq_true rfl)
      (Nat.le_of_ble_eq_true rfl)
  have r12_8 : bits wd 12 8 = 0 := read _ he hf 2 (Nat.le_of_ble_eq_true rfl)
      (Nat.le_of_ble_eq_true rfl)
  have r7_0 : bits wd 7 0 = 0 := read _ he hf 3 (Nat.le_of_ble_eq_true rfl)
      (Nat.le_of_ble_eq_true rfl)
  change dec_course wd = _
  unfold dec_course
  rw [r22_18, r17_13, r12_8, r7_0]
  exact checked_ok (rfl) (by simp only [fin_back])

theorem ldb t base off hint : Statement (.ldb t base off hint) := by
  have h1 : t.val < 2 ^ 5 := (t.isLt : t.val < 2 ^ 5)
  have h2 : base.val < 2 ^ 5 := (base.isLt : base.val < 2 ^ 5)
  have h3 : off.toNat < 2 ^ 10 := (off.isLt : off.toNat < 2 ^ 10)
  have h4 : b2n hint < 2 ^ 3 := lt_wide (m := 1) 3 (b2n_lt hint) (by decide)
  have hf : Fits [(5, t.val), (5, base.val), (10, off.toNat), (3, b2n hint)] :=
    ⟨h1, h2, h3, h4, trivial⟩
  refine of_fields 16 _ rfl (by decide) hf rfl fun lone hw acc0 wd he => ?_
  have r22_18 : bits wd 22 18 = t.val := read _ he hf 0 (Nat.le_of_ble_eq_true rfl)
      (Nat.le_of_ble_eq_true rfl)
  have r17_13 : bits wd 17 13 = base.val := read _ he hf 1 (Nat.le_of_ble_eq_true rfl)
      (Nat.le_of_ble_eq_true rfl)
  have r12_3 : bits wd 12 3 = off.toNat := read _ he hf 2 (Nat.le_of_ble_eq_true rfl)
      (Nat.le_of_ble_eq_true rfl)
  have r2_0 : bits wd 2 0 = b2n hint := read _ he hf 3 (Nat.le_of_ble_eq_true rfl)
      (Nat.le_of_ble_eq_true rfl)
  change dec_ldb wd = _
  unfold dec_ldb
  rw [r22_18, r17_13, r12_3, r2_0]
  exact checked_ok (ok_ldb hint hw) (by simp only [fin_back, bv_back, bool_back])

theorem ldbu t base off hint : Statement (.ldbu t base off hint) := by
  have h1 : t.val < 2 ^ 5 := (t.isLt : t.val < 2 ^ 5)
  have h2 : base.val < 2 ^ 5 := (base.isLt : base.val < 2 ^ 5)
  have h3 : off.toNat < 2 ^ 10 := (off.isLt : off.toNat < 2 ^ 10)
  have h4 : b2n hint < 2 ^ 3 := lt_wide (m := 1) 3 (b2n_lt hint) (by decide)
  have hf : Fits [(5, t.val), (5, base.val), (10, off.toNat), (3, b2n hint)] :=
    ⟨h1, h2, h3, h4, trivial⟩
  refine of_fields 17 _ rfl (by decide) hf rfl fun lone hw acc0 wd he => ?_
  have r22_18 : bits wd 22 18 = t.val := read _ he hf 0 (Nat.le_of_ble_eq_true rfl)
      (Nat.le_of_ble_eq_true rfl)
  have r17_13 : bits wd 17 13 = base.val := read _ he hf 1 (Nat.le_of_ble_eq_true rfl)
      (Nat.le_of_ble_eq_true rfl)
  have r12_3 : bits wd 12 3 = off.toNat := read _ he hf 2 (Nat.le_of_ble_eq_true rfl)
      (Nat.le_of_ble_eq_true rfl)
  have r2_0 : bits wd 2 0 = b2n hint := read _ he hf 3 (Nat.le_of_ble_eq_true rfl)
      (Nat.le_of_ble_eq_true rfl)
  change dec_ldbu wd = _
  unfold dec_ldbu
  rw [r22_18, r17_13, r12_3, r2_0]
  exact checked_ok (ok_ldb hint hw) (by simp only [fin_back, bv_back, bool_back])

theorem ldh t base off hint : Statement (.ldh t base off hint) := by
  have h1 : t.val < 2 ^ 5 := (t.isLt : t.val < 2 ^ 5)
  have h2 : base.val < 2 ^ 5 := (base.isLt : base.val < 2 ^ 5)
  have h3 : off.toNat < 2 ^ 10 := (off.isLt : off.toNat < 2 ^ 10)
  have h4 : b2n hint < 2 ^ 3 := lt_wide (m := 1) 3 (b2n_lt hint) (by decide)
  have hf : Fits [(5, t.val), (5, base.val), (10, off.toNat), (3, b2n hint)] :=
    ⟨h1, h2, h3, h4, trivial⟩
  refine of_fields 18 _ rfl (by decide) hf rfl fun lone hw acc0 wd he => ?_
  have r22_18 : bits wd 22 18 = t.val := read _ he hf 0 (Nat.le_of_ble_eq_true rfl)
      (Nat.le_of_ble_eq_true rfl)
  have r17_13 : bits wd 17 13 = base.val := read _ he hf 1 (Nat.le_of_ble_eq_true rfl)
      (Nat.le_of_ble_eq_true rfl)
  have r12_3 : bits wd 12 3 = off.toNat := read _ he hf 2 (Nat.le_of_ble_eq_true rfl)
      (Nat.le_of_ble_eq_true rfl)
  have r2_0 : bits wd 2 0 = b2n hint := read _ he hf 3 (Nat.le_of_ble_eq_true rfl)
      (Nat.le_of_ble_eq_true rfl)
  change dec_ldh wd = _
  unfold dec_ldh
  rw [r22_18, r17_13, r12_3, r2_0]
  exact checked_ok (ok_ldb hint hw) (by simp only [fin_back, bv_back, bool_back])

theorem ldhu t base off hint : Statement (.ldhu t base off hint) := by
  have h1 : t.val < 2 ^ 5 := (t.isLt : t.val < 2 ^ 5)
  have h2 : base.val < 2 ^ 5 := (base.isLt : base.val < 2 ^ 5)
  have h3 : off.toNat < 2 ^ 10 := (off.isLt : off.toNat < 2 ^ 10)
  have h4 : b2n hint < 2 ^ 3 := lt_wide (m := 1) 3 (b2n_lt hint) (by decide)
  have hf : Fits [(5, t.val), (5, base.val), (10, off.toNat), (3, b2n hint)] :=
    ⟨h1, h2, h3, h4, trivial⟩
  refine of_fields 19 _ rfl (by decide) hf rfl fun lone hw acc0 wd he => ?_
  have r22_18 : bits wd 22 18 = t.val := read _ he hf 0 (Nat.le_of_ble_eq_true rfl)
      (Nat.le_of_ble_eq_true rfl)
  have r17_13 : bits wd 17 13 = base.val := read _ he hf 1 (Nat.le_of_ble_eq_true rfl)
      (Nat.le_of_ble_eq_true rfl)
  have r12_3 : bits wd 12 3 = off.toNat := read _ he hf 2 (Nat.le_of_ble_eq_true rfl)
      (Nat.le_of_ble_eq_true rfl)
  have r2_0 : bits wd 2 0 = b2n hint := read _ he hf 3 (Nat.le_of_ble_eq_true rfl)
      (Nat.le_of_ble_eq_true rfl)
  change dec_ldhu wd = _
  unfold dec_ldhu
  rw [r22_18, r17_13, r12_3, r2_0]
  exact checked_ok (ok_ldb hint hw) (by simp only [fin_back, bv_back, bool_back])

theorem ldw t base off hint : Statement (.ldw t base off hint) := by
  have h1 : t.val < 2 ^ 5 := (t.isLt : t.val < 2 ^ 5)
  have h2 : base.val < 2 ^ 5 := (base.isLt : base.val < 2 ^ 5)
  have h3 : off.toNat < 2 ^ 10 := (off.isLt : off.toNat < 2 ^ 10)
  have h4 : b2n hint < 2 ^ 3 := lt_wide (m := 1) 3 (b2n_lt hint) (by decide)
  have hf : Fits [(5, t.val), (5, base.val), (10, off.toNat), (3, b2n hint)] :=
    ⟨h1, h2, h3, h4, trivial⟩
  refine of_fields 20 _ rfl (by decide) hf rfl fun lone hw acc0 wd he => ?_
  have r22_18 : bits wd 22 18 = t.val := read _ he hf 0 (Nat.le_of_ble_eq_true rfl)
      (Nat.le_of_ble_eq_true rfl)
  have r17_13 : bits wd 17 13 = base.val := read _ he hf 1 (Nat.le_of_ble_eq_true rfl)
      (Nat.le_of_ble_eq_true rfl)
  have r12_3 : bits wd 12 3 = off.toNat := read _ he hf 2 (Nat.le_of_ble_eq_true rfl)
      (Nat.le_of_ble_eq_true rfl)
  have r2_0 : bits wd 2 0 = b2n hint := read _ he hf 3 (Nat.le_of_ble_eq_true rfl)
      (Nat.le_of_ble_eq_true rfl)
  change dec_ldw wd = _
  unfold dec_ldw
  rw [r22_18, r17_13, r12_3, r2_0]
  exact checked_ok (ok_ldb hint hw) (by simp only [fin_back, bv_back, bool_back])

theorem ldwu t base off hint : Statement (.ldwu t base off hint) := by
  have h1 : t.val < 2 ^ 5 := (t.isLt : t.val < 2 ^ 5)
  have h2 : base.val < 2 ^ 5 := (base.isLt : base.val < 2 ^ 5)
  have h3 : off.toNat < 2 ^ 10 := (off.isLt : off.toNat < 2 ^ 10)
  have h4 : b2n hint < 2 ^ 3 := lt_wide (m := 1) 3 (b2n_lt hint) (by decide)
  have hf : Fits [(5, t.val), (5, base.val), (10, off.toNat), (3, b2n hint)] :=
    ⟨h1, h2, h3, h4, trivial⟩
  refine of_fields 21 _ rfl (by decide) hf rfl fun lone hw acc0 wd he => ?_
  have r22_18 : bits wd 22 18 = t.val := read _ he hf 0 (Nat.le_of_ble_eq_true rfl)
      (Nat.le_of_ble_eq_true rfl)
  have r17_13 : bits wd 17 13 = base.val := read _ he hf 1 (Nat.le_of_ble_eq_true rfl)
      (Nat.le_of_ble_eq_true rfl)
  have r12_3 : bits wd 12 3 = off.toNat := read _ he hf 2 (Nat.le_of_ble_eq_true rfl)
      (Nat.le_of_ble_eq_true rfl)
  have r2_0 : bits wd 2 0 = b2n hint := read _ he hf 3 (Nat.le_of_ble_eq_true rfl)
      (Nat.le_of_ble_eq_true rfl)
  change dec_ldwu wd = _
  unfold dec_ldwu
  rw [r22_18, r17_13, r12_3, r2_0]
  exact checked_ok (ok_ldb hint hw) (by simp only [fin_back, bv_back, bool_back])

theorem ldd t base off hint : Statement (.ldd t base off hint) := by
  have h1 : t.val < 2 ^ 5 := (t.isLt : t.val < 2 ^ 5)
  have h2 : base.val < 2 ^ 5 := (base.isLt : base.val < 2 ^ 5)
  have h3 : off.toNat < 2 ^ 10 := (off.isLt : off.toNat < 2 ^ 10)
  have h4 : b2n hint < 2 ^ 3 := lt_wide (m := 1) 3 (b2n_lt hint) (by decide)
  have hf : Fits [(5, t.val), (5, base.val), (10, off.toNat), (3, b2n hint)] :=
    ⟨h1, h2, h3, h4, trivial⟩
  refine of_fields 22 _ rfl (by decide) hf rfl fun lone hw acc0 wd he => ?_
  have r22_18 : bits wd 22 18 = t.val := read _ he hf 0 (Nat.le_of_ble_eq_true rfl)
      (Nat.le_of_ble_eq_true rfl)
  have r17_13 : bits wd 17 13 = base.val := read _ he hf 1 (Nat.le_of_ble_eq_true rfl)
      (Nat.le_of_ble_eq_true rfl)
  have r12_3 : bits wd 12 3 = off.toNat := read _ he hf 2 (Nat.le_of_ble_eq_true rfl)
      (Nat.le_of_ble_eq_true rfl)
  have r2_0 : bits wd 2 0 = b2n hint := read _ he hf 3 (Nat.le_of_ble_eq_true rfl)
      (Nat.le_of_ble_eq_true rfl)
  change dec_ldd wd = _
  unfold dec_ldd
  rw [r22_18, r17_13, r12_3, r2_0]
  exact checked_ok (ok_ldb hint hw) (by simp only [fin_back, bv_back, bool_back])

theorem stb t base off hint : Statement (.stb t base off hint) := by
  have h1 : t.val < 2 ^ 5 := (t.isLt : t.val < 2 ^ 5)
  have h2 : base.val < 2 ^ 5 := (base.isLt : base.val < 2 ^ 5)
  have h3 : off.toNat < 2 ^ 10 := (off.isLt : off.toNat < 2 ^ 10)
  have h4 : b2n hint < 2 ^ 3 := lt_wide (m := 1) 3 (b2n_lt hint) (by decide)
  have hf : Fits [(5, t.val), (5, base.val), (10, off.toNat), (3, b2n hint)] :=
    ⟨h1, h2, h3, h4, trivial⟩
  refine of_fields 23 _ rfl (by decide) hf rfl fun lone hw acc0 wd he => ?_
  have r22_18 : bits wd 22 18 = t.val := read _ he hf 0 (Nat.le_of_ble_eq_true rfl)
      (Nat.le_of_ble_eq_true rfl)
  have r17_13 : bits wd 17 13 = base.val := read _ he hf 1 (Nat.le_of_ble_eq_true rfl)
      (Nat.le_of_ble_eq_true rfl)
  have r12_3 : bits wd 12 3 = off.toNat := read _ he hf 2 (Nat.le_of_ble_eq_true rfl)
      (Nat.le_of_ble_eq_true rfl)
  have r2_0 : bits wd 2 0 = b2n hint := read _ he hf 3 (Nat.le_of_ble_eq_true rfl)
      (Nat.le_of_ble_eq_true rfl)
  change dec_stb wd = _
  unfold dec_stb
  rw [r22_18, r17_13, r12_3, r2_0]
  exact checked_ok (ok_ldb hint hw) (by simp only [fin_back, bv_back, bool_back])

theorem sth t base off hint : Statement (.sth t base off hint) := by
  have h1 : t.val < 2 ^ 5 := (t.isLt : t.val < 2 ^ 5)
  have h2 : base.val < 2 ^ 5 := (base.isLt : base.val < 2 ^ 5)
  have h3 : off.toNat < 2 ^ 10 := (off.isLt : off.toNat < 2 ^ 10)
  have h4 : b2n hint < 2 ^ 3 := lt_wide (m := 1) 3 (b2n_lt hint) (by decide)
  have hf : Fits [(5, t.val), (5, base.val), (10, off.toNat), (3, b2n hint)] :=
    ⟨h1, h2, h3, h4, trivial⟩
  refine of_fields 24 _ rfl (by decide) hf rfl fun lone hw acc0 wd he => ?_
  have r22_18 : bits wd 22 18 = t.val := read _ he hf 0 (Nat.le_of_ble_eq_true rfl)
      (Nat.le_of_ble_eq_true rfl)
  have r17_13 : bits wd 17 13 = base.val := read _ he hf 1 (Nat.le_of_ble_eq_true rfl)
      (Nat.le_of_ble_eq_true rfl)
  have r12_3 : bits wd 12 3 = off.toNat := read _ he hf 2 (Nat.le_of_ble_eq_true rfl)
      (Nat.le_of_ble_eq_true rfl)
  have r2_0 : bits wd 2 0 = b2n hint := read _ he hf 3 (Nat.le_of_ble_eq_true rfl)
      (Nat.le_of_ble_eq_true rfl)
  change dec_sth wd = _
  unfold dec_sth
  rw [r22_18, r17_13, r12_3, r2_0]
  exact checked_ok (ok_ldb hint hw) (by simp only [fin_back, bv_back, bool_back])

theorem stw t base off hint : Statement (.stw t base off hint) := by
  have h1 : t.val < 2 ^ 5 := (t.isLt : t.val < 2 ^ 5)
  have h2 : base.val < 2 ^ 5 := (base.isLt : base.val < 2 ^ 5)
  have h3 : off.toNat < 2 ^ 10 := (off.isLt : off.toNat < 2 ^ 10)
  have h4 : b2n hint < 2 ^ 3 := lt_wide (m := 1) 3 (b2n_lt hint) (by decide)
  have hf : Fits [(5, t.val), (5, base.val), (10, off.toNat), (3, b2n hint)] :=
    ⟨h1, h2, h3, h4, trivial⟩
  refine of_fields 25 _ rfl (by decide) hf rfl fun lone hw acc0 wd he => ?_
  have r22_18 : bits wd 22 18 = t.val := read _ he hf 0 (Nat.le_of_ble_eq_true rfl)
      (Nat.le_of_ble_eq_true rfl)
  have r17_13 : bits wd 17 13 = base.val := read _ he hf 1 (Nat.le_of_ble_eq_true rfl)
      (Nat.le_of_ble_eq_true rfl)
  have r12_3 : bits wd 12 3 = off.toNat := read _ he hf 2 (Nat.le_of_ble_eq_true rfl)
      (Nat.le_of_ble_eq_true rfl)
  have r2_0 : bits wd 2 0 = b2n hint := read _ he hf 3 (Nat.le_of_ble_eq_true rfl)
      (Nat.le_of_ble_eq_true rfl)
  change dec_stw wd = _
  unfold dec_stw
  rw [r22_18, r17_13, r12_3, r2_0]
  exact checked_ok (ok_ldb hint hw) (by simp only [fin_back, bv_back, bool_back])

theorem std t base off hint : Statement (.std t base off hint) := by
  have h1 : t.val < 2 ^ 5 := (t.isLt : t.val < 2 ^ 5)
  have h2 : base.val < 2 ^ 5 := (base.isLt : base.val < 2 ^ 5)
  have h3 : off.toNat < 2 ^ 10 := (off.isLt : off.toNat < 2 ^ 10)
  have h4 : b2n hint < 2 ^ 3 := lt_wide (m := 1) 3 (b2n_lt hint) (by decide)
  have hf : Fits [(5, t.val), (5, base.val), (10, off.toNat), (3, b2n hint)] :=
    ⟨h1, h2, h3, h4, trivial⟩
  refine of_fields 26 _ rfl (by decide) hf rfl fun lone hw acc0 wd he => ?_
  have r22_18 : bits wd 22 18 = t.val := read _ he hf 0 (Nat.le_of_ble_eq_true rfl)
      (Nat.le_of_ble_eq_true rfl)
  have r17_13 : bits wd 17 13 = base.val := read _ he hf 1 (Nat.le_of_ble_eq_true rfl)
      (Nat.le_of_ble_eq_true rfl)
  have r12_3 : bits wd 12 3 = off.toNat := read _ he hf 2 (Nat.le_of_ble_eq_true rfl)
      (Nat.le_of_ble_eq_true rfl)
  have r2_0 : bits wd 2 0 = b2n hint := read _ he hf 3 (Nat.le_of_ble_eq_true rfl)
      (Nat.le_of_ble_eq_true rfl)
  change dec_std wd = _
  unfold dec_std
  rw [r22_18, r17_13, r12_3, r2_0]
  exact checked_ok (ok_ldb hint hw) (by simp only [fin_back, bv_back, bool_back])

theorem ldaq t base wid off sc : Statement (.ldaq t base wid off sc) := by
  have h1 : t.val < 2 ^ 5 := (t.isLt : t.val < 2 ^ 5)
  have h2 : base.val < 2 ^ 5 := (base.isLt : base.val < 2 ^ 5)
  have h3 : wid.code < 2 ^ 2 := (width_lt wid)
  have h4 : off.toNat < 2 ^ 8 := (off.isLt : off.toNat < 2 ^ 8)
  have h5 : sc.code < 2 ^ 3 := (scope_lt sc)
  have hf : Fits [(5, t.val), (5, base.val), (2, wid.code), (8, off.toNat), (3, sc.code)] :=
    ⟨h1, h2, h3, h4, h5, trivial⟩
  refine of_fields 27 _ rfl (by decide) hf rfl fun lone hw acc0 wd he => ?_
  have r22_18 : bits wd 22 18 = t.val := read _ he hf 0 (Nat.le_of_ble_eq_true rfl)
      (Nat.le_of_ble_eq_true rfl)
  have r17_13 : bits wd 17 13 = base.val := read _ he hf 1 (Nat.le_of_ble_eq_true rfl)
      (Nat.le_of_ble_eq_true rfl)
  have r12_11 : bits wd 12 11 = wid.code := read _ he hf 2 (Nat.le_of_ble_eq_true rfl)
      (Nat.le_of_ble_eq_true rfl)
  have r10_3 : bits wd 10 3 = off.toNat := read _ he hf 3 (Nat.le_of_ble_eq_true rfl)
      (Nat.le_of_ble_eq_true rfl)
  have r2_0 : bits wd 2 0 = sc.code := read _ he hf 4 (Nat.le_of_ble_eq_true rfl)
      (Nat.le_of_ble_eq_true rfl)
  change dec_ldaq wd = _
  unfold dec_ldaq
  rw [r22_18, r17_13, r12_11, r10_3, r2_0]
  exact checked_ok (ok_ldaq sc hw) (by simp only [fin_back, width_back, bv_back, scope_back])

theorem strl t base wid off sc : Statement (.strl t base wid off sc) := by
  have h1 : t.val < 2 ^ 5 := (t.isLt : t.val < 2 ^ 5)
  have h2 : base.val < 2 ^ 5 := (base.isLt : base.val < 2 ^ 5)
  have h3 : wid.code < 2 ^ 2 := (width_lt wid)
  have h4 : off.toNat < 2 ^ 8 := (off.isLt : off.toNat < 2 ^ 8)
  have h5 : sc.code < 2 ^ 3 := (scope_lt sc)
  have hf : Fits [(5, t.val), (5, base.val), (2, wid.code), (8, off.toNat), (3, sc.code)] :=
    ⟨h1, h2, h3, h4, h5, trivial⟩
  refine of_fields 28 _ rfl (by decide) hf rfl fun lone hw acc0 wd he => ?_
  have r22_18 : bits wd 22 18 = t.val := read _ he hf 0 (Nat.le_of_ble_eq_true rfl)
      (Nat.le_of_ble_eq_true rfl)
  have r17_13 : bits wd 17 13 = base.val := read _ he hf 1 (Nat.le_of_ble_eq_true rfl)
      (Nat.le_of_ble_eq_true rfl)
  have r12_11 : bits wd 12 11 = wid.code := read _ he hf 2 (Nat.le_of_ble_eq_true rfl)
      (Nat.le_of_ble_eq_true rfl)
  have r10_3 : bits wd 10 3 = off.toNat := read _ he hf 3 (Nat.le_of_ble_eq_true rfl)
      (Nat.le_of_ble_eq_true rfl)
  have r2_0 : bits wd 2 0 = sc.code := read _ he hf 4 (Nat.le_of_ble_eq_true rfl)
      (Nat.le_of_ble_eq_true rfl)
  change dec_strl wd = _
  unfold dec_strl
  rw [r22_18, r17_13, r12_11, r10_3, r2_0]
  exact checked_ok (ok_ldaq sc hw) (by simp only [fin_back, width_back, bv_back, scope_back])

theorem ldf t base off rs : Statement (.ldf t base off rs) := by
  have h1 : t.val < 2 ^ 5 := (t.isLt : t.val < 2 ^ 5)
  have h2 : base.val < 2 ^ 5 := (base.isLt : base.val < 2 ^ 5)
  have h3 : off.toNat < 2 ^ 10 := (off.isLt : off.toNat < 2 ^ 10)
  have h4 : rs.rd < 2 ^ 1 := (rd_lt rs)
  have h5 : rs.rm < 2 ^ 2 := (rm_lt rs)
  have hf : Fits [(5, t.val), (5, base.val), (10, off.toNat), (1, rs.rd), (2, rs.rm)] :=
    ⟨h1, h2, h3, h4, h5, trivial⟩
  refine of_fields 29 _ rfl (by decide) hf rfl fun lone hw acc0 wd he => ?_
  have r22_18 : bits wd 22 18 = t.val := read _ he hf 0 (Nat.le_of_ble_eq_true rfl)
      (Nat.le_of_ble_eq_true rfl)
  have r17_13 : bits wd 17 13 = base.val := read _ he hf 1 (Nat.le_of_ble_eq_true rfl)
      (Nat.le_of_ble_eq_true rfl)
  have r12_3 : bits wd 12 3 = off.toNat := read _ he hf 2 (Nat.le_of_ble_eq_true rfl)
      (Nat.le_of_ble_eq_true rfl)
  have r2_2 : bits wd 2 2 = rs.rd := read _ he hf 3 (Nat.le_of_ble_eq_true rfl)
      (Nat.le_of_ble_eq_true rfl)
  have r1_0 : bits wd 1 0 = rs.rm := read _ he hf 4 (Nat.le_of_ble_eq_true rfl)
      (Nat.le_of_ble_eq_true rfl)
  change dec_ldf wd = _
  unfold dec_ldf
  rw [r22_18, r17_13, r12_3, r2_2, r1_0]
  exact checked_ok (ok_ldf rs hw) (by simp only [fin_back, bv_back, round_back])

theorem stf t base off rs : Statement (.stf t base off rs) := by
  have h1 : t.val < 2 ^ 5 := (t.isLt : t.val < 2 ^ 5)
  have h2 : base.val < 2 ^ 5 := (base.isLt : base.val < 2 ^ 5)
  have h3 : off.toNat < 2 ^ 10 := (off.isLt : off.toNat < 2 ^ 10)
  have h4 : rs.rd < 2 ^ 1 := (rd_lt rs)
  have h5 : rs.rm < 2 ^ 2 := (rm_lt rs)
  have hf : Fits [(5, t.val), (5, base.val), (10, off.toNat), (1, rs.rd), (2, rs.rm)] :=
    ⟨h1, h2, h3, h4, h5, trivial⟩
  refine of_fields 30 _ rfl (by decide) hf rfl fun lone hw acc0 wd he => ?_
  have r22_18 : bits wd 22 18 = t.val := read _ he hf 0 (Nat.le_of_ble_eq_true rfl)
      (Nat.le_of_ble_eq_true rfl)
  have r17_13 : bits wd 17 13 = base.val := read _ he hf 1 (Nat.le_of_ble_eq_true rfl)
      (Nat.le_of_ble_eq_true rfl)
  have r12_3 : bits wd 12 3 = off.toNat := read _ he hf 2 (Nat.le_of_ble_eq_true rfl)
      (Nat.le_of_ble_eq_true rfl)
  have r2_2 : bits wd 2 2 = rs.rd := read _ he hf 3 (Nat.le_of_ble_eq_true rfl)
      (Nat.le_of_ble_eq_true rfl)
  have r1_0 : bits wd 1 0 = rs.rm := read _ he hf 4 (Nat.le_of_ble_eq_true rfl)
      (Nat.le_of_ble_eq_true rfl)
  change dec_stf wd = _
  unfold dec_stf
  rw [r22_18, r17_13, r12_3, r2_2, r1_0]
  exact checked_ok (ok_ldf rs hw) (by simp only [fin_back, bv_back, round_back])

theorem pref kind base off : Statement (.pref kind base off) := by
  have h1 : kind.code < 2 ^ 5 := lt_wide (m := 2) 5 (prefKind_lt kind) (by decide)
  have h2 : base.val < 2 ^ 5 := (base.isLt : base.val < 2 ^ 5)
  have h3 : off.toNat < 2 ^ 10 := (off.isLt : off.toNat < 2 ^ 10)
  have h4 : 0 < 2 ^ 3 := (by decide : 0 < 2 ^ 3)
  have hf : Fits [(5, kind.code), (5, base.val), (10, off.toNat), (3, 0)] :=
    ⟨h1, h2, h3, h4, trivial⟩
  refine of_fields 31 _ rfl (by decide) hf rfl fun lone hw acc0 wd he => ?_
  have r22_18 : bits wd 22 18 = kind.code := read _ he hf 0 (Nat.le_of_ble_eq_true rfl)
      (Nat.le_of_ble_eq_true rfl)
  have r17_13 : bits wd 17 13 = base.val := read _ he hf 1 (Nat.le_of_ble_eq_true rfl)
      (Nat.le_of_ble_eq_true rfl)
  have r12_3 : bits wd 12 3 = off.toNat := read _ he hf 2 (Nat.le_of_ble_eq_true rfl)
      (Nat.le_of_ble_eq_true rfl)
  have r2_0 : bits wd 2 0 = 0 := read _ he hf 3 (Nat.le_of_ble_eq_true rfl)
      (Nat.le_of_ble_eq_true rfl)
  change dec_pref wd = _
  unfold dec_pref
  rw [r22_18, r17_13, r12_3, r2_0]
  exact checked_ok (ok_pref kind hw) (by simp only [prefKind_back, fin_back, bv_back])

theorem vld t base off hint k : Statement (.vld t base off hint k) := by
  have h1 : t.val < 2 ^ 5 := lt_wide (m := 4) 5 ((t.isLt : t.val < 2 ^ 4)) (by decide)
  have h2 : base.val < 2 ^ 5 := (base.isLt : base.val < 2 ^ 5)
  have h3 : off.toNat < 2 ^ 10 := (off.isLt : off.toNat < 2 ^ 10)
  have h4 : b2n hint < 2 ^ 1 := (b2n_lt hint)
  have h5 : k.val < 2 ^ 2 := (k.isLt : k.val < 2 ^ 2)
  have hf : Fits [(5, t.val), (5, base.val), (10, off.toNat), (1, b2n hint), (2, k.val)] :=
    ⟨h1, h2, h3, h4, h5, trivial⟩
  refine of_fields 32 _ rfl (by decide) hf rfl fun lone hw acc0 wd he => ?_
  have r22_18 : bits wd 22 18 = t.val := read _ he hf 0 (Nat.le_of_ble_eq_true rfl)
      (Nat.le_of_ble_eq_true rfl)
  have r17_13 : bits wd 17 13 = base.val := read _ he hf 1 (Nat.le_of_ble_eq_true rfl)
      (Nat.le_of_ble_eq_true rfl)
  have r12_3 : bits wd 12 3 = off.toNat := read _ he hf 2 (Nat.le_of_ble_eq_true rfl)
      (Nat.le_of_ble_eq_true rfl)
  have r2_2 : bits wd 2 2 = b2n hint := read _ he hf 3 (Nat.le_of_ble_eq_true rfl)
      (Nat.le_of_ble_eq_true rfl)
  have r1_0 : bits wd 1 0 = k.val := read _ he hf 4 (Nat.le_of_ble_eq_true rfl)
      (Nat.le_of_ble_eq_true rfl)
  change dec_vld wd = _
  unfold dec_vld
  rw [r22_18, r17_13, r12_3, r2_2, r1_0]
  exact checked_ok (ok_vld t hw) (by simp only [fin_back, bv_back, bool_back])

theorem vst t base off hint k : Statement (.vst t base off hint k) := by
  have h1 : t.val < 2 ^ 5 := lt_wide (m := 4) 5 ((t.isLt : t.val < 2 ^ 4)) (by decide)
  have h2 : base.val < 2 ^ 5 := (base.isLt : base.val < 2 ^ 5)
  have h3 : off.toNat < 2 ^ 10 := (off.isLt : off.toNat < 2 ^ 10)
  have h4 : b2n hint < 2 ^ 1 := (b2n_lt hint)
  have h5 : k.val < 2 ^ 2 := (k.isLt : k.val < 2 ^ 2)
  have hf : Fits [(5, t.val), (5, base.val), (10, off.toNat), (1, b2n hint), (2, k.val)] :=
    ⟨h1, h2, h3, h4, h5, trivial⟩
  refine of_fields 33 _ rfl (by decide) hf rfl fun lone hw acc0 wd he => ?_
  have r22_18 : bits wd 22 18 = t.val := read _ he hf 0 (Nat.le_of_ble_eq_true rfl)
      (Nat.le_of_ble_eq_true rfl)
  have r17_13 : bits wd 17 13 = base.val := read _ he hf 1 (Nat.le_of_ble_eq_true rfl)
      (Nat.le_of_ble_eq_true rfl)
  have r12_3 : bits wd 12 3 = off.toNat := read _ he hf 2 (Nat.le_of_ble_eq_true rfl)
      (Nat.le_of_ble_eq_true rfl)
  have r2_2 : bits wd 2 2 = b2n hint := read _ he hf 3 (Nat.le_of_ble_eq_true rfl)
      (Nat.le_of_ble_eq_true rfl)
  have r1_0 : bits wd 1 0 = k.val := read _ he hf 4 (Nat.le_of_ble_eq_true rfl)
      (Nat.le_of_ble_eq_true rfl)
  change dec_vst wd = _
  unfold dec_vst
  rw [r22_18, r17_13, r12_3, r2_2, r1_0]
  exact checked_ok (ok_vld t hw) (by simp only [fin_back, bv_back, bool_back])

theorem vlds d a b wid k : Statement (.vlds d a b wid k) := by
  have h1 : d.val < 2 ^ 5 := lt_wide (m := 4) 5 ((d.isLt : d.val < 2 ^ 4)) (by decide)
  have h2 : a.val < 2 ^ 5 := (a.isLt : a.val < 2 ^ 5)
  have h3 : b.val < 2 ^ 5 := (b.isLt : b.val < 2 ^ 5)
  have h4 : wid.code < 2 ^ 2 := (width_lt wid)
  have h5 : 0 < 2 ^ 4 := (by decide : 0 < 2 ^ 4)
  have h6 : k.val < 2 ^ 2 := (k.isLt : k.val < 2 ^ 2)
  have hf : Fits [(5, d.val), (5, a.val), (5, b.val), (2, wid.code), (4, 0), (2, k.val)] :=
    ⟨h1, h2, h3, h4, h5, h6, trivial⟩
  refine of_fields 34 _ rfl (by decide) hf rfl fun lone hw acc0 wd he => ?_
  have r22_18 : bits wd 22 18 = d.val := read _ he hf 0 (Nat.le_of_ble_eq_true rfl)
      (Nat.le_of_ble_eq_true rfl)
  have r17_13 : bits wd 17 13 = a.val := read _ he hf 1 (Nat.le_of_ble_eq_true rfl)
      (Nat.le_of_ble_eq_true rfl)
  have r12_8 : bits wd 12 8 = b.val := read _ he hf 2 (Nat.le_of_ble_eq_true rfl)
      (Nat.le_of_ble_eq_true rfl)
  have r7_6 : bits wd 7 6 = wid.code := read _ he hf 3 (Nat.le_of_ble_eq_true rfl)
      (Nat.le_of_ble_eq_true rfl)
  have r5_2 : bits wd 5 2 = 0 := read _ he hf 4 (Nat.le_of_ble_eq_true rfl)
      (Nat.le_of_ble_eq_true rfl)
  have r1_0 : bits wd 1 0 = k.val := read _ he hf 5 (Nat.le_of_ble_eq_true rfl)
      (Nat.le_of_ble_eq_true rfl)
  change dec_vlds wd = _
  unfold dec_vlds
  rw [r22_18, r17_13, r12_8, r7_6, r5_2, r1_0]
  exact checked_ok (ok_vlds d hw) (by simp only [fin_back, width_back])

theorem vsts d a b wid k : Statement (.vsts d a b wid k) := by
  have h1 : d.val < 2 ^ 5 := lt_wide (m := 4) 5 ((d.isLt : d.val < 2 ^ 4)) (by decide)
  have h2 : a.val < 2 ^ 5 := (a.isLt : a.val < 2 ^ 5)
  have h3 : b.val < 2 ^ 5 := (b.isLt : b.val < 2 ^ 5)
  have h4 : wid.code < 2 ^ 2 := (width_lt wid)
  have h5 : 0 < 2 ^ 4 := (by decide : 0 < 2 ^ 4)
  have h6 : k.val < 2 ^ 2 := (k.isLt : k.val < 2 ^ 2)
  have hf : Fits [(5, d.val), (5, a.val), (5, b.val), (2, wid.code), (4, 0), (2, k.val)] :=
    ⟨h1, h2, h3, h4, h5, h6, trivial⟩
  refine of_fields 35 _ rfl (by decide) hf rfl fun lone hw acc0 wd he => ?_
  have r22_18 : bits wd 22 18 = d.val := read _ he hf 0 (Nat.le_of_ble_eq_true rfl)
      (Nat.le_of_ble_eq_true rfl)
  have r17_13 : bits wd 17 13 = a.val := read _ he hf 1 (Nat.le_of_ble_eq_true rfl)
      (Nat.le_of_ble_eq_true rfl)
  have r12_8 : bits wd 12 8 = b.val := read _ he hf 2 (Nat.le_of_ble_eq_true rfl)
      (Nat.le_of_ble_eq_true rfl)
  have r7_6 : bits wd 7 6 = wid.code := read _ he hf 3 (Nat.le_of_ble_eq_true rfl)
      (Nat.le_of_ble_eq_true rfl)
  have r5_2 : bits wd 5 2 = 0 := read _ he hf 4 (Nat.le_of_ble_eq_true rfl)
      (Nat.le_of_ble_eq_true rfl)
  have r1_0 : bits wd 1 0 = k.val := read _ he hf 5 (Nat.le_of_ble_eq_true rfl)
      (Nat.le_of_ble_eq_true rfl)
  change dec_vsts wd = _
  unfold dec_vsts
  rw [r22_18, r17_13, r12_8, r7_6, r5_2, r1_0]
  exact checked_ok (ok_vlds d hw) (by simp only [fin_back, width_back])

theorem vldf t base off ty : Statement (.vldf t base off ty) := by
  have h1 : t.val < 2 ^ 5 := lt_wide (m := 4) 5 ((t.isLt : t.val < 2 ^ 4)) (by decide)
  have h2 : base.val < 2 ^ 5 := (base.isLt : base.val < 2 ^ 5)
  have h3 : off.toNat < 2 ^ 10 := (off.isLt : off.toNat < 2 ^ 10)
  have h4 : ty.code < 2 ^ 3 := lt_wide (m := 2) 3 (vecFmt_lt ty) (by decide)
  have hf : Fits [(5, t.val), (5, base.val), (10, off.toNat), (3, ty.code)] :=
    ⟨h1, h2, h3, h4, trivial⟩
  refine of_fields 36 _ rfl (by decide) hf rfl fun lone hw acc0 wd he => ?_
  have r22_18 : bits wd 22 18 = t.val := read _ he hf 0 (Nat.le_of_ble_eq_true rfl)
      (Nat.le_of_ble_eq_true rfl)
  have r17_13 : bits wd 17 13 = base.val := read _ he hf 1 (Nat.le_of_ble_eq_true rfl)
      (Nat.le_of_ble_eq_true rfl)
  have r12_3 : bits wd 12 3 = off.toNat := read _ he hf 2 (Nat.le_of_ble_eq_true rfl)
      (Nat.le_of_ble_eq_true rfl)
  have r2_0 : bits wd 2 0 = ty.code := read _ he hf 3 (Nat.le_of_ble_eq_true rfl)
      (Nat.le_of_ble_eq_true rfl)
  change dec_vldf wd = _
  unfold dec_vldf
  rw [r22_18, r17_13, r12_3, r2_0]
  exact checked_ok (ok_vldf t ty hw) (by simp only [fin_back, bv_back, vecFmt_back])

theorem vstf t base off ty : Statement (.vstf t base off ty) := by
  have h1 : t.val < 2 ^ 5 := lt_wide (m := 4) 5 ((t.isLt : t.val < 2 ^ 4)) (by decide)
  have h2 : base.val < 2 ^ 5 := (base.isLt : base.val < 2 ^ 5)
  have h3 : off.toNat < 2 ^ 10 := (off.isLt : off.toNat < 2 ^ 10)
  have h4 : ty.code < 2 ^ 3 := lt_wide (m := 2) 3 (vecFmt_lt ty) (by decide)
  have hf : Fits [(5, t.val), (5, base.val), (10, off.toNat), (3, ty.code)] :=
    ⟨h1, h2, h3, h4, trivial⟩
  refine of_fields 37 _ rfl (by decide) hf rfl fun lone hw acc0 wd he => ?_
  have r22_18 : bits wd 22 18 = t.val := read _ he hf 0 (Nat.le_of_ble_eq_true rfl)
      (Nat.le_of_ble_eq_true rfl)
  have r17_13 : bits wd 17 13 = base.val := read _ he hf 1 (Nat.le_of_ble_eq_true rfl)
      (Nat.le_of_ble_eq_true rfl)
  have r12_3 : bits wd 12 3 = off.toNat := read _ he hf 2 (Nat.le_of_ble_eq_true rfl)
      (Nat.le_of_ble_eq_true rfl)
  have r2_0 : bits wd 2 0 = ty.code := read _ he hf 3 (Nat.le_of_ble_eq_true rfl)
      (Nat.le_of_ble_eq_true rfl)
  change dec_vstf wd = _
  unfold dec_vstf
  rw [r22_18, r17_13, r12_3, r2_0]
  exact checked_ok (ok_vstf t ty hw) (by simp only [fin_back, bv_back, vecFmt_back])

theorem vgath d a b wid k : Statement (.vgath d a b wid k) := by
  have h1 : d.val < 2 ^ 5 := lt_wide (m := 4) 5 ((d.isLt : d.val < 2 ^ 4)) (by decide)
  have h2 : a.val < 2 ^ 5 := (a.isLt : a.val < 2 ^ 5)
  have h3 : b.val < 2 ^ 5 := lt_wide (m := 4) 5 ((b.isLt : b.val < 2 ^ 4)) (by decide)
  have h4 : wid.code < 2 ^ 2 := (width_lt wid)
  have h5 : 0 < 2 ^ 4 := (by decide : 0 < 2 ^ 4)
  have h6 : k.val < 2 ^ 2 := (k.isLt : k.val < 2 ^ 2)
  have hf : Fits [(5, d.val), (5, a.val), (5, b.val), (2, wid.code), (4, 0), (2, k.val)] :=
    ⟨h1, h2, h3, h4, h5, h6, trivial⟩
  refine of_fields 38 _ rfl (by decide) hf rfl fun lone hw acc0 wd he => ?_
  have r22_18 : bits wd 22 18 = d.val := read _ he hf 0 (Nat.le_of_ble_eq_true rfl)
      (Nat.le_of_ble_eq_true rfl)
  have r17_13 : bits wd 17 13 = a.val := read _ he hf 1 (Nat.le_of_ble_eq_true rfl)
      (Nat.le_of_ble_eq_true rfl)
  have r12_8 : bits wd 12 8 = b.val := read _ he hf 2 (Nat.le_of_ble_eq_true rfl)
      (Nat.le_of_ble_eq_true rfl)
  have r7_6 : bits wd 7 6 = wid.code := read _ he hf 3 (Nat.le_of_ble_eq_true rfl)
      (Nat.le_of_ble_eq_true rfl)
  have r5_2 : bits wd 5 2 = 0 := read _ he hf 4 (Nat.le_of_ble_eq_true rfl)
      (Nat.le_of_ble_eq_true rfl)
  have r1_0 : bits wd 1 0 = k.val := read _ he hf 5 (Nat.le_of_ble_eq_true rfl)
      (Nat.le_of_ble_eq_true rfl)
  change dec_vgath wd = _
  unfold dec_vgath
  rw [r22_18, r17_13, r12_8, r7_6, r5_2, r1_0]
  exact checked_ok (ok_vgath d b hw) (by simp only [fin_back, width_back])

theorem vscat d a b wid k : Statement (.vscat d a b wid k) := by
  have h1 : d.val < 2 ^ 5 := lt_wide (m := 4) 5 ((d.isLt : d.val < 2 ^ 4)) (by decide)
  have h2 : a.val < 2 ^ 5 := (a.isLt : a.val < 2 ^ 5)
  have h3 : b.val < 2 ^ 5 := lt_wide (m := 4) 5 ((b.isLt : b.val < 2 ^ 4)) (by decide)
  have h4 : wid.code < 2 ^ 2 := (width_lt wid)
  have h5 : 0 < 2 ^ 4 := (by decide : 0 < 2 ^ 4)
  have h6 : k.val < 2 ^ 2 := (k.isLt : k.val < 2 ^ 2)
  have hf : Fits [(5, d.val), (5, a.val), (5, b.val), (2, wid.code), (4, 0), (2, k.val)] :=
    ⟨h1, h2, h3, h4, h5, h6, trivial⟩
  refine of_fields 39 _ rfl (by decide) hf rfl fun lone hw acc0 wd he => ?_
  have r22_18 : bits wd 22 18 = d.val := read _ he hf 0 (Nat.le_of_ble_eq_true rfl)
      (Nat.le_of_ble_eq_true rfl)
  have r17_13 : bits wd 17 13 = a.val := read _ he hf 1 (Nat.le_of_ble_eq_true rfl)
      (Nat.le_of_ble_eq_true rfl)
  have r12_8 : bits wd 12 8 = b.val := read _ he hf 2 (Nat.le_of_ble_eq_true rfl)
      (Nat.le_of_ble_eq_true rfl)
  have r7_6 : bits wd 7 6 = wid.code := read _ he hf 3 (Nat.le_of_ble_eq_true rfl)
      (Nat.le_of_ble_eq_true rfl)
  have r5_2 : bits wd 5 2 = 0 := read _ he hf 4 (Nat.le_of_ble_eq_true rfl)
      (Nat.le_of_ble_eq_true rfl)
  have r1_0 : bits wd 1 0 = k.val := read _ he hf 5 (Nat.le_of_ble_eq_true rfl)
      (Nat.le_of_ble_eq_true rfl)
  change dec_vscat wd = _
  unfold dec_vscat
  rw [r22_18, r17_13, r12_8, r7_6, r5_2, r1_0]
  exact checked_ok (ok_vgath d b hw) (by simp only [fin_back, width_back])

theorem amoadd d a b wid sc near rl aq : Statement (.amoadd d a b wid sc near rl aq) := by
  have h1 : d.val < 2 ^ 5 := (d.isLt : d.val < 2 ^ 5)
  have h2 : a.val < 2 ^ 5 := (a.isLt : a.val < 2 ^ 5)
  have h3 : b.val < 2 ^ 5 := (b.isLt : b.val < 2 ^ 5)
  have h4 : wid.code < 2 ^ 2 := (width_lt wid)
  have h5 : sc.code < 2 ^ 3 := (scope_lt sc)
  have h6 : b2n near < 2 ^ 1 := (b2n_lt near)
  have h7 : b2n rl < 2 ^ 1 := (b2n_lt rl)
  have h8 : b2n aq < 2 ^ 1 := (b2n_lt aq)
  have hf : Fits [(5, d.val), (5, a.val), (5, b.val), (2, wid.code), (3, sc.code), (1, b2n near), (1, b2n rl), (1, b2n aq)] :=
    ⟨h1, h2, h3, h4, h5, h6, h7, h8, trivial⟩
  refine of_fields 40 _ rfl (by decide) hf rfl fun lone hw acc0 wd he => ?_
  have r22_18 : bits wd 22 18 = d.val := read _ he hf 0 (Nat.le_of_ble_eq_true rfl)
      (Nat.le_of_ble_eq_true rfl)
  have r17_13 : bits wd 17 13 = a.val := read _ he hf 1 (Nat.le_of_ble_eq_true rfl)
      (Nat.le_of_ble_eq_true rfl)
  have r12_8 : bits wd 12 8 = b.val := read _ he hf 2 (Nat.le_of_ble_eq_true rfl)
      (Nat.le_of_ble_eq_true rfl)
  have r7_6 : bits wd 7 6 = wid.code := read _ he hf 3 (Nat.le_of_ble_eq_true rfl)
      (Nat.le_of_ble_eq_true rfl)
  have r5_3 : bits wd 5 3 = sc.code := read _ he hf 4 (Nat.le_of_ble_eq_true rfl)
      (Nat.le_of_ble_eq_true rfl)
  have r2_2 : bits wd 2 2 = b2n near := read _ he hf 5 (Nat.le_of_ble_eq_true rfl)
      (Nat.le_of_ble_eq_true rfl)
  have r1_1 : bits wd 1 1 = b2n rl := read _ he hf 6 (Nat.le_of_ble_eq_true rfl)
      (Nat.le_of_ble_eq_true rfl)
  have r1_0 : bits wd 1 0 = b2n rl * 2 + b2n aq :=
    bits_two (l := [(5, d.val), (5, a.val), (5, b.val), (2, wid.code), (3, sc.code), (1, b2n near)]) he h7 h8
  have r0_0 : bits wd 0 0 = b2n aq := read _ he hf 7 (Nat.le_of_ble_eq_true rfl)
      (Nat.le_of_ble_eq_true rfl)
  change dec_amoadd wd = _
  unfold dec_amoadd
  rw [r22_18, r17_13, r12_8, r7_6, r5_3, r2_2, r1_1, r1_0, r0_0]
  exact checked_ok (ok_amoadd wid sc rl aq hw) (by simp only [fin_back, width_back, scope_back, bool_back])

theorem amoand d a b wid sc near rl aq : Statement (.amoand d a b wid sc near rl aq) := by
  have h1 : d.val < 2 ^ 5 := (d.isLt : d.val < 2 ^ 5)
  have h2 : a.val < 2 ^ 5 := (a.isLt : a.val < 2 ^ 5)
  have h3 : b.val < 2 ^ 5 := (b.isLt : b.val < 2 ^ 5)
  have h4 : wid.code < 2 ^ 2 := (width_lt wid)
  have h5 : sc.code < 2 ^ 3 := (scope_lt sc)
  have h6 : b2n near < 2 ^ 1 := (b2n_lt near)
  have h7 : b2n rl < 2 ^ 1 := (b2n_lt rl)
  have h8 : b2n aq < 2 ^ 1 := (b2n_lt aq)
  have hf : Fits [(5, d.val), (5, a.val), (5, b.val), (2, wid.code), (3, sc.code), (1, b2n near), (1, b2n rl), (1, b2n aq)] :=
    ⟨h1, h2, h3, h4, h5, h6, h7, h8, trivial⟩
  refine of_fields 41 _ rfl (by decide) hf rfl fun lone hw acc0 wd he => ?_
  have r22_18 : bits wd 22 18 = d.val := read _ he hf 0 (Nat.le_of_ble_eq_true rfl)
      (Nat.le_of_ble_eq_true rfl)
  have r17_13 : bits wd 17 13 = a.val := read _ he hf 1 (Nat.le_of_ble_eq_true rfl)
      (Nat.le_of_ble_eq_true rfl)
  have r12_8 : bits wd 12 8 = b.val := read _ he hf 2 (Nat.le_of_ble_eq_true rfl)
      (Nat.le_of_ble_eq_true rfl)
  have r7_6 : bits wd 7 6 = wid.code := read _ he hf 3 (Nat.le_of_ble_eq_true rfl)
      (Nat.le_of_ble_eq_true rfl)
  have r5_3 : bits wd 5 3 = sc.code := read _ he hf 4 (Nat.le_of_ble_eq_true rfl)
      (Nat.le_of_ble_eq_true rfl)
  have r2_2 : bits wd 2 2 = b2n near := read _ he hf 5 (Nat.le_of_ble_eq_true rfl)
      (Nat.le_of_ble_eq_true rfl)
  have r1_1 : bits wd 1 1 = b2n rl := read _ he hf 6 (Nat.le_of_ble_eq_true rfl)
      (Nat.le_of_ble_eq_true rfl)
  have r1_0 : bits wd 1 0 = b2n rl * 2 + b2n aq :=
    bits_two (l := [(5, d.val), (5, a.val), (5, b.val), (2, wid.code), (3, sc.code), (1, b2n near)]) he h7 h8
  have r0_0 : bits wd 0 0 = b2n aq := read _ he hf 7 (Nat.le_of_ble_eq_true rfl)
      (Nat.le_of_ble_eq_true rfl)
  change dec_amoand wd = _
  unfold dec_amoand
  rw [r22_18, r17_13, r12_8, r7_6, r5_3, r2_2, r1_1, r1_0, r0_0]
  exact checked_ok (ok_amoadd wid sc rl aq hw) (by simp only [fin_back, width_back, scope_back, bool_back])

theorem amoor d a b wid sc near rl aq : Statement (.amoor d a b wid sc near rl aq) := by
  have h1 : d.val < 2 ^ 5 := (d.isLt : d.val < 2 ^ 5)
  have h2 : a.val < 2 ^ 5 := (a.isLt : a.val < 2 ^ 5)
  have h3 : b.val < 2 ^ 5 := (b.isLt : b.val < 2 ^ 5)
  have h4 : wid.code < 2 ^ 2 := (width_lt wid)
  have h5 : sc.code < 2 ^ 3 := (scope_lt sc)
  have h6 : b2n near < 2 ^ 1 := (b2n_lt near)
  have h7 : b2n rl < 2 ^ 1 := (b2n_lt rl)
  have h8 : b2n aq < 2 ^ 1 := (b2n_lt aq)
  have hf : Fits [(5, d.val), (5, a.val), (5, b.val), (2, wid.code), (3, sc.code), (1, b2n near), (1, b2n rl), (1, b2n aq)] :=
    ⟨h1, h2, h3, h4, h5, h6, h7, h8, trivial⟩
  refine of_fields 42 _ rfl (by decide) hf rfl fun lone hw acc0 wd he => ?_
  have r22_18 : bits wd 22 18 = d.val := read _ he hf 0 (Nat.le_of_ble_eq_true rfl)
      (Nat.le_of_ble_eq_true rfl)
  have r17_13 : bits wd 17 13 = a.val := read _ he hf 1 (Nat.le_of_ble_eq_true rfl)
      (Nat.le_of_ble_eq_true rfl)
  have r12_8 : bits wd 12 8 = b.val := read _ he hf 2 (Nat.le_of_ble_eq_true rfl)
      (Nat.le_of_ble_eq_true rfl)
  have r7_6 : bits wd 7 6 = wid.code := read _ he hf 3 (Nat.le_of_ble_eq_true rfl)
      (Nat.le_of_ble_eq_true rfl)
  have r5_3 : bits wd 5 3 = sc.code := read _ he hf 4 (Nat.le_of_ble_eq_true rfl)
      (Nat.le_of_ble_eq_true rfl)
  have r2_2 : bits wd 2 2 = b2n near := read _ he hf 5 (Nat.le_of_ble_eq_true rfl)
      (Nat.le_of_ble_eq_true rfl)
  have r1_1 : bits wd 1 1 = b2n rl := read _ he hf 6 (Nat.le_of_ble_eq_true rfl)
      (Nat.le_of_ble_eq_true rfl)
  have r1_0 : bits wd 1 0 = b2n rl * 2 + b2n aq :=
    bits_two (l := [(5, d.val), (5, a.val), (5, b.val), (2, wid.code), (3, sc.code), (1, b2n near)]) he h7 h8
  have r0_0 : bits wd 0 0 = b2n aq := read _ he hf 7 (Nat.le_of_ble_eq_true rfl)
      (Nat.le_of_ble_eq_true rfl)
  change dec_amoor wd = _
  unfold dec_amoor
  rw [r22_18, r17_13, r12_8, r7_6, r5_3, r2_2, r1_1, r1_0, r0_0]
  exact checked_ok (ok_amoadd wid sc rl aq hw) (by simp only [fin_back, width_back, scope_back, bool_back])

theorem amoxor d a b wid sc near rl aq : Statement (.amoxor d a b wid sc near rl aq) := by
  have h1 : d.val < 2 ^ 5 := (d.isLt : d.val < 2 ^ 5)
  have h2 : a.val < 2 ^ 5 := (a.isLt : a.val < 2 ^ 5)
  have h3 : b.val < 2 ^ 5 := (b.isLt : b.val < 2 ^ 5)
  have h4 : wid.code < 2 ^ 2 := (width_lt wid)
  have h5 : sc.code < 2 ^ 3 := (scope_lt sc)
  have h6 : b2n near < 2 ^ 1 := (b2n_lt near)
  have h7 : b2n rl < 2 ^ 1 := (b2n_lt rl)
  have h8 : b2n aq < 2 ^ 1 := (b2n_lt aq)
  have hf : Fits [(5, d.val), (5, a.val), (5, b.val), (2, wid.code), (3, sc.code), (1, b2n near), (1, b2n rl), (1, b2n aq)] :=
    ⟨h1, h2, h3, h4, h5, h6, h7, h8, trivial⟩
  refine of_fields 43 _ rfl (by decide) hf rfl fun lone hw acc0 wd he => ?_
  have r22_18 : bits wd 22 18 = d.val := read _ he hf 0 (Nat.le_of_ble_eq_true rfl)
      (Nat.le_of_ble_eq_true rfl)
  have r17_13 : bits wd 17 13 = a.val := read _ he hf 1 (Nat.le_of_ble_eq_true rfl)
      (Nat.le_of_ble_eq_true rfl)
  have r12_8 : bits wd 12 8 = b.val := read _ he hf 2 (Nat.le_of_ble_eq_true rfl)
      (Nat.le_of_ble_eq_true rfl)
  have r7_6 : bits wd 7 6 = wid.code := read _ he hf 3 (Nat.le_of_ble_eq_true rfl)
      (Nat.le_of_ble_eq_true rfl)
  have r5_3 : bits wd 5 3 = sc.code := read _ he hf 4 (Nat.le_of_ble_eq_true rfl)
      (Nat.le_of_ble_eq_true rfl)
  have r2_2 : bits wd 2 2 = b2n near := read _ he hf 5 (Nat.le_of_ble_eq_true rfl)
      (Nat.le_of_ble_eq_true rfl)
  have r1_1 : bits wd 1 1 = b2n rl := read _ he hf 6 (Nat.le_of_ble_eq_true rfl)
      (Nat.le_of_ble_eq_true rfl)
  have r1_0 : bits wd 1 0 = b2n rl * 2 + b2n aq :=
    bits_two (l := [(5, d.val), (5, a.val), (5, b.val), (2, wid.code), (3, sc.code), (1, b2n near)]) he h7 h8
  have r0_0 : bits wd 0 0 = b2n aq := read _ he hf 7 (Nat.le_of_ble_eq_true rfl)
      (Nat.le_of_ble_eq_true rfl)
  change dec_amoxor wd = _
  unfold dec_amoxor
  rw [r22_18, r17_13, r12_8, r7_6, r5_3, r2_2, r1_1, r1_0, r0_0]
  exact checked_ok (ok_amoadd wid sc rl aq hw) (by simp only [fin_back, width_back, scope_back, bool_back])

theorem amomin d a b wid sc near rl aq : Statement (.amomin d a b wid sc near rl aq) := by
  have h1 : d.val < 2 ^ 5 := (d.isLt : d.val < 2 ^ 5)
  have h2 : a.val < 2 ^ 5 := (a.isLt : a.val < 2 ^ 5)
  have h3 : b.val < 2 ^ 5 := (b.isLt : b.val < 2 ^ 5)
  have h4 : wid.code < 2 ^ 2 := (width_lt wid)
  have h5 : sc.code < 2 ^ 3 := (scope_lt sc)
  have h6 : b2n near < 2 ^ 1 := (b2n_lt near)
  have h7 : b2n rl < 2 ^ 1 := (b2n_lt rl)
  have h8 : b2n aq < 2 ^ 1 := (b2n_lt aq)
  have hf : Fits [(5, d.val), (5, a.val), (5, b.val), (2, wid.code), (3, sc.code), (1, b2n near), (1, b2n rl), (1, b2n aq)] :=
    ⟨h1, h2, h3, h4, h5, h6, h7, h8, trivial⟩
  refine of_fields 44 _ rfl (by decide) hf rfl fun lone hw acc0 wd he => ?_
  have r22_18 : bits wd 22 18 = d.val := read _ he hf 0 (Nat.le_of_ble_eq_true rfl)
      (Nat.le_of_ble_eq_true rfl)
  have r17_13 : bits wd 17 13 = a.val := read _ he hf 1 (Nat.le_of_ble_eq_true rfl)
      (Nat.le_of_ble_eq_true rfl)
  have r12_8 : bits wd 12 8 = b.val := read _ he hf 2 (Nat.le_of_ble_eq_true rfl)
      (Nat.le_of_ble_eq_true rfl)
  have r7_6 : bits wd 7 6 = wid.code := read _ he hf 3 (Nat.le_of_ble_eq_true rfl)
      (Nat.le_of_ble_eq_true rfl)
  have r5_3 : bits wd 5 3 = sc.code := read _ he hf 4 (Nat.le_of_ble_eq_true rfl)
      (Nat.le_of_ble_eq_true rfl)
  have r2_2 : bits wd 2 2 = b2n near := read _ he hf 5 (Nat.le_of_ble_eq_true rfl)
      (Nat.le_of_ble_eq_true rfl)
  have r1_1 : bits wd 1 1 = b2n rl := read _ he hf 6 (Nat.le_of_ble_eq_true rfl)
      (Nat.le_of_ble_eq_true rfl)
  have r1_0 : bits wd 1 0 = b2n rl * 2 + b2n aq :=
    bits_two (l := [(5, d.val), (5, a.val), (5, b.val), (2, wid.code), (3, sc.code), (1, b2n near)]) he h7 h8
  have r0_0 : bits wd 0 0 = b2n aq := read _ he hf 7 (Nat.le_of_ble_eq_true rfl)
      (Nat.le_of_ble_eq_true rfl)
  change dec_amomin wd = _
  unfold dec_amomin
  rw [r22_18, r17_13, r12_8, r7_6, r5_3, r2_2, r1_1, r1_0, r0_0]
  exact checked_ok (ok_amoadd wid sc rl aq hw) (by simp only [fin_back, width_back, scope_back, bool_back])

theorem amomax d a b wid sc near rl aq : Statement (.amomax d a b wid sc near rl aq) := by
  have h1 : d.val < 2 ^ 5 := (d.isLt : d.val < 2 ^ 5)
  have h2 : a.val < 2 ^ 5 := (a.isLt : a.val < 2 ^ 5)
  have h3 : b.val < 2 ^ 5 := (b.isLt : b.val < 2 ^ 5)
  have h4 : wid.code < 2 ^ 2 := (width_lt wid)
  have h5 : sc.code < 2 ^ 3 := (scope_lt sc)
  have h6 : b2n near < 2 ^ 1 := (b2n_lt near)
  have h7 : b2n rl < 2 ^ 1 := (b2n_lt rl)
  have h8 : b2n aq < 2 ^ 1 := (b2n_lt aq)
  have hf : Fits [(5, d.val), (5, a.val), (5, b.val), (2, wid.code), (3, sc.code), (1, b2n near), (1, b2n rl), (1, b2n aq)] :=
    ⟨h1, h2, h3, h4, h5, h6, h7, h8, trivial⟩
  refine of_fields 45 _ rfl (by decide) hf rfl fun lone hw acc0 wd he => ?_
  have r22_18 : bits wd 22 18 = d.val := read _ he hf 0 (Nat.le_of_ble_eq_true rfl)
      (Nat.le_of_ble_eq_true rfl)
  have r17_13 : bits wd 17 13 = a.val := read _ he hf 1 (Nat.le_of_ble_eq_true rfl)
      (Nat.le_of_ble_eq_true rfl)
  have r12_8 : bits wd 12 8 = b.val := read _ he hf 2 (Nat.le_of_ble_eq_true rfl)
      (Nat.le_of_ble_eq_true rfl)
  have r7_6 : bits wd 7 6 = wid.code := read _ he hf 3 (Nat.le_of_ble_eq_true rfl)
      (Nat.le_of_ble_eq_true rfl)
  have r5_3 : bits wd 5 3 = sc.code := read _ he hf 4 (Nat.le_of_ble_eq_true rfl)
      (Nat.le_of_ble_eq_true rfl)
  have r2_2 : bits wd 2 2 = b2n near := read _ he hf 5 (Nat.le_of_ble_eq_true rfl)
      (Nat.le_of_ble_eq_true rfl)
  have r1_1 : bits wd 1 1 = b2n rl := read _ he hf 6 (Nat.le_of_ble_eq_true rfl)
      (Nat.le_of_ble_eq_true rfl)
  have r1_0 : bits wd 1 0 = b2n rl * 2 + b2n aq :=
    bits_two (l := [(5, d.val), (5, a.val), (5, b.val), (2, wid.code), (3, sc.code), (1, b2n near)]) he h7 h8
  have r0_0 : bits wd 0 0 = b2n aq := read _ he hf 7 (Nat.le_of_ble_eq_true rfl)
      (Nat.le_of_ble_eq_true rfl)
  change dec_amomax wd = _
  unfold dec_amomax
  rw [r22_18, r17_13, r12_8, r7_6, r5_3, r2_2, r1_1, r1_0, r0_0]
  exact checked_ok (ok_amoadd wid sc rl aq hw) (by simp only [fin_back, width_back, scope_back, bool_back])

theorem amominu d a b wid sc near rl aq : Statement (.amominu d a b wid sc near rl aq) := by
  have h1 : d.val < 2 ^ 5 := (d.isLt : d.val < 2 ^ 5)
  have h2 : a.val < 2 ^ 5 := (a.isLt : a.val < 2 ^ 5)
  have h3 : b.val < 2 ^ 5 := (b.isLt : b.val < 2 ^ 5)
  have h4 : wid.code < 2 ^ 2 := (width_lt wid)
  have h5 : sc.code < 2 ^ 3 := (scope_lt sc)
  have h6 : b2n near < 2 ^ 1 := (b2n_lt near)
  have h7 : b2n rl < 2 ^ 1 := (b2n_lt rl)
  have h8 : b2n aq < 2 ^ 1 := (b2n_lt aq)
  have hf : Fits [(5, d.val), (5, a.val), (5, b.val), (2, wid.code), (3, sc.code), (1, b2n near), (1, b2n rl), (1, b2n aq)] :=
    ⟨h1, h2, h3, h4, h5, h6, h7, h8, trivial⟩
  refine of_fields 46 _ rfl (by decide) hf rfl fun lone hw acc0 wd he => ?_
  have r22_18 : bits wd 22 18 = d.val := read _ he hf 0 (Nat.le_of_ble_eq_true rfl)
      (Nat.le_of_ble_eq_true rfl)
  have r17_13 : bits wd 17 13 = a.val := read _ he hf 1 (Nat.le_of_ble_eq_true rfl)
      (Nat.le_of_ble_eq_true rfl)
  have r12_8 : bits wd 12 8 = b.val := read _ he hf 2 (Nat.le_of_ble_eq_true rfl)
      (Nat.le_of_ble_eq_true rfl)
  have r7_6 : bits wd 7 6 = wid.code := read _ he hf 3 (Nat.le_of_ble_eq_true rfl)
      (Nat.le_of_ble_eq_true rfl)
  have r5_3 : bits wd 5 3 = sc.code := read _ he hf 4 (Nat.le_of_ble_eq_true rfl)
      (Nat.le_of_ble_eq_true rfl)
  have r2_2 : bits wd 2 2 = b2n near := read _ he hf 5 (Nat.le_of_ble_eq_true rfl)
      (Nat.le_of_ble_eq_true rfl)
  have r1_1 : bits wd 1 1 = b2n rl := read _ he hf 6 (Nat.le_of_ble_eq_true rfl)
      (Nat.le_of_ble_eq_true rfl)
  have r1_0 : bits wd 1 0 = b2n rl * 2 + b2n aq :=
    bits_two (l := [(5, d.val), (5, a.val), (5, b.val), (2, wid.code), (3, sc.code), (1, b2n near)]) he h7 h8
  have r0_0 : bits wd 0 0 = b2n aq := read _ he hf 7 (Nat.le_of_ble_eq_true rfl)
      (Nat.le_of_ble_eq_true rfl)
  change dec_amominu wd = _
  unfold dec_amominu
  rw [r22_18, r17_13, r12_8, r7_6, r5_3, r2_2, r1_1, r1_0, r0_0]
  exact checked_ok (ok_amoadd wid sc rl aq hw) (by simp only [fin_back, width_back, scope_back, bool_back])

theorem amomaxu d a b wid sc near rl aq : Statement (.amomaxu d a b wid sc near rl aq) := by
  have h1 : d.val < 2 ^ 5 := (d.isLt : d.val < 2 ^ 5)
  have h2 : a.val < 2 ^ 5 := (a.isLt : a.val < 2 ^ 5)
  have h3 : b.val < 2 ^ 5 := (b.isLt : b.val < 2 ^ 5)
  have h4 : wid.code < 2 ^ 2 := (width_lt wid)
  have h5 : sc.code < 2 ^ 3 := (scope_lt sc)
  have h6 : b2n near < 2 ^ 1 := (b2n_lt near)
  have h7 : b2n rl < 2 ^ 1 := (b2n_lt rl)
  have h8 : b2n aq < 2 ^ 1 := (b2n_lt aq)
  have hf : Fits [(5, d.val), (5, a.val), (5, b.val), (2, wid.code), (3, sc.code), (1, b2n near), (1, b2n rl), (1, b2n aq)] :=
    ⟨h1, h2, h3, h4, h5, h6, h7, h8, trivial⟩
  refine of_fields 47 _ rfl (by decide) hf rfl fun lone hw acc0 wd he => ?_
  have r22_18 : bits wd 22 18 = d.val := read _ he hf 0 (Nat.le_of_ble_eq_true rfl)
      (Nat.le_of_ble_eq_true rfl)
  have r17_13 : bits wd 17 13 = a.val := read _ he hf 1 (Nat.le_of_ble_eq_true rfl)
      (Nat.le_of_ble_eq_true rfl)
  have r12_8 : bits wd 12 8 = b.val := read _ he hf 2 (Nat.le_of_ble_eq_true rfl)
      (Nat.le_of_ble_eq_true rfl)
  have r7_6 : bits wd 7 6 = wid.code := read _ he hf 3 (Nat.le_of_ble_eq_true rfl)
      (Nat.le_of_ble_eq_true rfl)
  have r5_3 : bits wd 5 3 = sc.code := read _ he hf 4 (Nat.le_of_ble_eq_true rfl)
      (Nat.le_of_ble_eq_true rfl)
  have r2_2 : bits wd 2 2 = b2n near := read _ he hf 5 (Nat.le_of_ble_eq_true rfl)
      (Nat.le_of_ble_eq_true rfl)
  have r1_1 : bits wd 1 1 = b2n rl := read _ he hf 6 (Nat.le_of_ble_eq_true rfl)
      (Nat.le_of_ble_eq_true rfl)
  have r1_0 : bits wd 1 0 = b2n rl * 2 + b2n aq :=
    bits_two (l := [(5, d.val), (5, a.val), (5, b.val), (2, wid.code), (3, sc.code), (1, b2n near)]) he h7 h8
  have r0_0 : bits wd 0 0 = b2n aq := read _ he hf 7 (Nat.le_of_ble_eq_true rfl)
      (Nat.le_of_ble_eq_true rfl)
  change dec_amomaxu wd = _
  unfold dec_amomaxu
  rw [r22_18, r17_13, r12_8, r7_6, r5_3, r2_2, r1_1, r1_0, r0_0]
  exact checked_ok (ok_amoadd wid sc rl aq hw) (by simp only [fin_back, width_back, scope_back, bool_back])

theorem amoswp d a b wid sc near rl aq : Statement (.amoswp d a b wid sc near rl aq) := by
  have h1 : d.val < 2 ^ 5 := (d.isLt : d.val < 2 ^ 5)
  have h2 : a.val < 2 ^ 5 := (a.isLt : a.val < 2 ^ 5)
  have h3 : b.val < 2 ^ 5 := (b.isLt : b.val < 2 ^ 5)
  have h4 : wid.code < 2 ^ 2 := (width_lt wid)
  have h5 : sc.code < 2 ^ 3 := (scope_lt sc)
  have h6 : b2n near < 2 ^ 1 := (b2n_lt near)
  have h7 : b2n rl < 2 ^ 1 := (b2n_lt rl)
  have h8 : b2n aq < 2 ^ 1 := (b2n_lt aq)
  have hf : Fits [(5, d.val), (5, a.val), (5, b.val), (2, wid.code), (3, sc.code), (1, b2n near), (1, b2n rl), (1, b2n aq)] :=
    ⟨h1, h2, h3, h4, h5, h6, h7, h8, trivial⟩
  refine of_fields 48 _ rfl (by decide) hf rfl fun lone hw acc0 wd he => ?_
  have r22_18 : bits wd 22 18 = d.val := read _ he hf 0 (Nat.le_of_ble_eq_true rfl)
      (Nat.le_of_ble_eq_true rfl)
  have r17_13 : bits wd 17 13 = a.val := read _ he hf 1 (Nat.le_of_ble_eq_true rfl)
      (Nat.le_of_ble_eq_true rfl)
  have r12_8 : bits wd 12 8 = b.val := read _ he hf 2 (Nat.le_of_ble_eq_true rfl)
      (Nat.le_of_ble_eq_true rfl)
  have r7_6 : bits wd 7 6 = wid.code := read _ he hf 3 (Nat.le_of_ble_eq_true rfl)
      (Nat.le_of_ble_eq_true rfl)
  have r5_3 : bits wd 5 3 = sc.code := read _ he hf 4 (Nat.le_of_ble_eq_true rfl)
      (Nat.le_of_ble_eq_true rfl)
  have r2_2 : bits wd 2 2 = b2n near := read _ he hf 5 (Nat.le_of_ble_eq_true rfl)
      (Nat.le_of_ble_eq_true rfl)
  have r1_1 : bits wd 1 1 = b2n rl := read _ he hf 6 (Nat.le_of_ble_eq_true rfl)
      (Nat.le_of_ble_eq_true rfl)
  have r1_0 : bits wd 1 0 = b2n rl * 2 + b2n aq :=
    bits_two (l := [(5, d.val), (5, a.val), (5, b.val), (2, wid.code), (3, sc.code), (1, b2n near)]) he h7 h8
  have r0_0 : bits wd 0 0 = b2n aq := read _ he hf 7 (Nat.le_of_ble_eq_true rfl)
      (Nat.le_of_ble_eq_true rfl)
  change dec_amoswp wd = _
  unfold dec_amoswp
  rw [r22_18, r17_13, r12_8, r7_6, r5_3, r2_2, r1_1, r1_0, r0_0]
  exact checked_ok (ok_amoadd wid sc rl aq hw) (by simp only [fin_back, width_back, scope_back, bool_back])

theorem amocas d a b wid sc near rl aq : Statement (.amocas d a b wid sc near rl aq) := by
  have h1 : d.val < 2 ^ 5 := (d.isLt : d.val < 2 ^ 5)
  have h2 : a.val < 2 ^ 5 := (a.isLt : a.val < 2 ^ 5)
  have h3 : b.val < 2 ^ 5 := (b.isLt : b.val < 2 ^ 5)
  have h4 : wid.code < 2 ^ 2 := (width_lt wid)
  have h5 : sc.code < 2 ^ 3 := (scope_lt sc)
  have h6 : b2n near < 2 ^ 1 := (b2n_lt near)
  have h7 : b2n rl < 2 ^ 1 := (b2n_lt rl)
  have h8 : b2n aq < 2 ^ 1 := (b2n_lt aq)
  have hf : Fits [(5, d.val), (5, a.val), (5, b.val), (2, wid.code), (3, sc.code), (1, b2n near), (1, b2n rl), (1, b2n aq)] :=
    ⟨h1, h2, h3, h4, h5, h6, h7, h8, trivial⟩
  refine of_fields 49 _ rfl (by decide) hf rfl fun lone hw acc0 wd he => ?_
  have r22_18 : bits wd 22 18 = d.val := read _ he hf 0 (Nat.le_of_ble_eq_true rfl)
      (Nat.le_of_ble_eq_true rfl)
  have r17_13 : bits wd 17 13 = a.val := read _ he hf 1 (Nat.le_of_ble_eq_true rfl)
      (Nat.le_of_ble_eq_true rfl)
  have r12_8 : bits wd 12 8 = b.val := read _ he hf 2 (Nat.le_of_ble_eq_true rfl)
      (Nat.le_of_ble_eq_true rfl)
  have r7_6 : bits wd 7 6 = wid.code := read _ he hf 3 (Nat.le_of_ble_eq_true rfl)
      (Nat.le_of_ble_eq_true rfl)
  have r5_3 : bits wd 5 3 = sc.code := read _ he hf 4 (Nat.le_of_ble_eq_true rfl)
      (Nat.le_of_ble_eq_true rfl)
  have r2_2 : bits wd 2 2 = b2n near := read _ he hf 5 (Nat.le_of_ble_eq_true rfl)
      (Nat.le_of_ble_eq_true rfl)
  have r1_1 : bits wd 1 1 = b2n rl := read _ he hf 6 (Nat.le_of_ble_eq_true rfl)
      (Nat.le_of_ble_eq_true rfl)
  have r1_0 : bits wd 1 0 = b2n rl * 2 + b2n aq :=
    bits_two (l := [(5, d.val), (5, a.val), (5, b.val), (2, wid.code), (3, sc.code), (1, b2n near)]) he h7 h8
  have r0_0 : bits wd 0 0 = b2n aq := read _ he hf 7 (Nat.le_of_ble_eq_true rfl)
      (Nat.le_of_ble_eq_true rfl)
  change dec_amocas wd = _
  unfold dec_amocas
  rw [r22_18, r17_13, r12_8, r7_6, r5_3, r2_2, r1_1, r1_0, r0_0]
  exact checked_ok (ok_amoadd wid sc rl aq hw) (by simp only [fin_back, width_back, scope_back, bool_back])

theorem amofadd d a b wid sc near rl aq : Statement (.amofadd d a b wid sc near rl aq) := by
  have h1 : d.val < 2 ^ 5 := (d.isLt : d.val < 2 ^ 5)
  have h2 : a.val < 2 ^ 5 := (a.isLt : a.val < 2 ^ 5)
  have h3 : b.val < 2 ^ 5 := (b.isLt : b.val < 2 ^ 5)
  have h4 : wid.code < 2 ^ 2 := (width_lt wid)
  have h5 : sc.code < 2 ^ 3 := (scope_lt sc)
  have h6 : b2n near < 2 ^ 1 := (b2n_lt near)
  have h7 : b2n rl < 2 ^ 1 := (b2n_lt rl)
  have h8 : b2n aq < 2 ^ 1 := (b2n_lt aq)
  have hf : Fits [(5, d.val), (5, a.val), (5, b.val), (2, wid.code), (3, sc.code), (1, b2n near), (1, b2n rl), (1, b2n aq)] :=
    ⟨h1, h2, h3, h4, h5, h6, h7, h8, trivial⟩
  refine of_fields 50 _ rfl (by decide) hf rfl fun lone hw acc0 wd he => ?_
  have r22_18 : bits wd 22 18 = d.val := read _ he hf 0 (Nat.le_of_ble_eq_true rfl)
      (Nat.le_of_ble_eq_true rfl)
  have r17_13 : bits wd 17 13 = a.val := read _ he hf 1 (Nat.le_of_ble_eq_true rfl)
      (Nat.le_of_ble_eq_true rfl)
  have r12_8 : bits wd 12 8 = b.val := read _ he hf 2 (Nat.le_of_ble_eq_true rfl)
      (Nat.le_of_ble_eq_true rfl)
  have r7_6 : bits wd 7 6 = wid.code := read _ he hf 3 (Nat.le_of_ble_eq_true rfl)
      (Nat.le_of_ble_eq_true rfl)
  have r5_3 : bits wd 5 3 = sc.code := read _ he hf 4 (Nat.le_of_ble_eq_true rfl)
      (Nat.le_of_ble_eq_true rfl)
  have r2_2 : bits wd 2 2 = b2n near := read _ he hf 5 (Nat.le_of_ble_eq_true rfl)
      (Nat.le_of_ble_eq_true rfl)
  have r1_1 : bits wd 1 1 = b2n rl := read _ he hf 6 (Nat.le_of_ble_eq_true rfl)
      (Nat.le_of_ble_eq_true rfl)
  have r1_0 : bits wd 1 0 = b2n rl * 2 + b2n aq :=
    bits_two (l := [(5, d.val), (5, a.val), (5, b.val), (2, wid.code), (3, sc.code), (1, b2n near)]) he h7 h8
  have r0_0 : bits wd 0 0 = b2n aq := read _ he hf 7 (Nat.le_of_ble_eq_true rfl)
      (Nat.le_of_ble_eq_true rfl)
  change dec_amofadd wd = _
  unfold dec_amofadd
  rw [r22_18, r17_13, r12_8, r7_6, r5_3, r2_2, r1_1, r1_0, r0_0]
  exact checked_ok (ok_amofadd wid sc rl aq hw) (by simp only [fin_back, width_back, scope_back, bool_back])

theorem amofmax d a b wid sc near rl aq : Statement (.amofmax d a b wid sc near rl aq) := by
  have h1 : d.val < 2 ^ 5 := (d.isLt : d.val < 2 ^ 5)
  have h2 : a.val < 2 ^ 5 := (a.isLt : a.val < 2 ^ 5)
  have h3 : b.val < 2 ^ 5 := (b.isLt : b.val < 2 ^ 5)
  have h4 : wid.code < 2 ^ 2 := (width_lt wid)
  have h5 : sc.code < 2 ^ 3 := (scope_lt sc)
  have h6 : b2n near < 2 ^ 1 := (b2n_lt near)
  have h7 : b2n rl < 2 ^ 1 := (b2n_lt rl)
  have h8 : b2n aq < 2 ^ 1 := (b2n_lt aq)
  have hf : Fits [(5, d.val), (5, a.val), (5, b.val), (2, wid.code), (3, sc.code), (1, b2n near), (1, b2n rl), (1, b2n aq)] :=
    ⟨h1, h2, h3, h4, h5, h6, h7, h8, trivial⟩
  refine of_fields 51 _ rfl (by decide) hf rfl fun lone hw acc0 wd he => ?_
  have r22_18 : bits wd 22 18 = d.val := read _ he hf 0 (Nat.le_of_ble_eq_true rfl)
      (Nat.le_of_ble_eq_true rfl)
  have r17_13 : bits wd 17 13 = a.val := read _ he hf 1 (Nat.le_of_ble_eq_true rfl)
      (Nat.le_of_ble_eq_true rfl)
  have r12_8 : bits wd 12 8 = b.val := read _ he hf 2 (Nat.le_of_ble_eq_true rfl)
      (Nat.le_of_ble_eq_true rfl)
  have r7_6 : bits wd 7 6 = wid.code := read _ he hf 3 (Nat.le_of_ble_eq_true rfl)
      (Nat.le_of_ble_eq_true rfl)
  have r5_3 : bits wd 5 3 = sc.code := read _ he hf 4 (Nat.le_of_ble_eq_true rfl)
      (Nat.le_of_ble_eq_true rfl)
  have r2_2 : bits wd 2 2 = b2n near := read _ he hf 5 (Nat.le_of_ble_eq_true rfl)
      (Nat.le_of_ble_eq_true rfl)
  have r1_1 : bits wd 1 1 = b2n rl := read _ he hf 6 (Nat.le_of_ble_eq_true rfl)
      (Nat.le_of_ble_eq_true rfl)
  have r1_0 : bits wd 1 0 = b2n rl * 2 + b2n aq :=
    bits_two (l := [(5, d.val), (5, a.val), (5, b.val), (2, wid.code), (3, sc.code), (1, b2n near)]) he h7 h8
  have r0_0 : bits wd 0 0 = b2n aq := read _ he hf 7 (Nat.le_of_ble_eq_true rfl)
      (Nat.le_of_ble_eq_true rfl)
  change dec_amofmax wd = _
  unfold dec_amofmax
  rw [r22_18, r17_13, r12_8, r7_6, r5_3, r2_2, r1_1, r1_0, r0_0]
  exact checked_ok (ok_amofadd wid sc rl aq hw) (by simp only [fin_back, width_back, scope_back, bool_back])

theorem fence sc : Statement (.fence sc) := by
  have h1 : 0 < 2 ^ 5 := (by decide : 0 < 2 ^ 5)
  have h2 : 0 < 2 ^ 5 := (by decide : 0 < 2 ^ 5)
  have h3 : 0 < 2 ^ 5 := (by decide : 0 < 2 ^ 5)
  have h4 : 0 < 2 ^ 2 := (by decide : 0 < 2 ^ 2)
  have h5 : sc.code < 2 ^ 3 := (scope_lt sc)
  have h6 : 0 < 2 ^ 3 := (by decide : 0 < 2 ^ 3)
  have hf : Fits [(5, 0), (5, 0), (5, 0), (2, 0), (3, sc.code), (3, 0)] :=
    ⟨h1, h2, h3, h4, h5, h6, trivial⟩
  refine of_fields 52 _ rfl (by decide) hf rfl fun lone hw acc0 wd he => ?_
  have r22_18 : bits wd 22 18 = 0 := read _ he hf 0 (Nat.le_of_ble_eq_true rfl)
      (Nat.le_of_ble_eq_true rfl)
  have r17_13 : bits wd 17 13 = 0 := read _ he hf 1 (Nat.le_of_ble_eq_true rfl)
      (Nat.le_of_ble_eq_true rfl)
  have r12_8 : bits wd 12 8 = 0 := read _ he hf 2 (Nat.le_of_ble_eq_true rfl)
      (Nat.le_of_ble_eq_true rfl)
  have r7_6 : bits wd 7 6 = 0 := read _ he hf 3 (Nat.le_of_ble_eq_true rfl)
      (Nat.le_of_ble_eq_true rfl)
  have r5_3 : bits wd 5 3 = sc.code := read _ he hf 4 (Nat.le_of_ble_eq_true rfl)
      (Nat.le_of_ble_eq_true rfl)
  have r2_0 : bits wd 2 0 = 0 := read _ he hf 5 (Nat.le_of_ble_eq_true rfl)
      (Nat.le_of_ble_eq_true rfl)
  change dec_fence wd = _
  unfold dec_fence
  rw [r22_18, r17_13, r12_8, r7_6, r5_3, r2_0]
  exact checked_ok (ok_fence sc hw) (by simp only [scope_back])

theorem acq sc : Statement (.acq sc) := by
  have h1 : 0 < 2 ^ 5 := (by decide : 0 < 2 ^ 5)
  have h2 : 0 < 2 ^ 5 := (by decide : 0 < 2 ^ 5)
  have h3 : 0 < 2 ^ 5 := (by decide : 0 < 2 ^ 5)
  have h4 : 0 < 2 ^ 2 := (by decide : 0 < 2 ^ 2)
  have h5 : sc.code < 2 ^ 3 := (scope_lt sc)
  have h6 : 0 < 2 ^ 3 := (by decide : 0 < 2 ^ 3)
  have hf : Fits [(5, 0), (5, 0), (5, 0), (2, 0), (3, sc.code), (3, 0)] :=
    ⟨h1, h2, h3, h4, h5, h6, trivial⟩
  refine of_fields 53 _ rfl (by decide) hf rfl fun lone hw acc0 wd he => ?_
  have r22_18 : bits wd 22 18 = 0 := read _ he hf 0 (Nat.le_of_ble_eq_true rfl)
      (Nat.le_of_ble_eq_true rfl)
  have r17_13 : bits wd 17 13 = 0 := read _ he hf 1 (Nat.le_of_ble_eq_true rfl)
      (Nat.le_of_ble_eq_true rfl)
  have r12_8 : bits wd 12 8 = 0 := read _ he hf 2 (Nat.le_of_ble_eq_true rfl)
      (Nat.le_of_ble_eq_true rfl)
  have r7_6 : bits wd 7 6 = 0 := read _ he hf 3 (Nat.le_of_ble_eq_true rfl)
      (Nat.le_of_ble_eq_true rfl)
  have r5_3 : bits wd 5 3 = sc.code := read _ he hf 4 (Nat.le_of_ble_eq_true rfl)
      (Nat.le_of_ble_eq_true rfl)
  have r2_0 : bits wd 2 0 = 0 := read _ he hf 5 (Nat.le_of_ble_eq_true rfl)
      (Nat.le_of_ble_eq_true rfl)
  change dec_acq wd = _
  unfold dec_acq
  rw [r22_18, r17_13, r12_8, r7_6, r5_3, r2_0]
  exact checked_ok (ok_fence sc hw) (by simp only [scope_back])

theorem rel sc : Statement (.rel sc) := by
  have h1 : 0 < 2 ^ 5 := (by decide : 0 < 2 ^ 5)
  have h2 : 0 < 2 ^ 5 := (by decide : 0 < 2 ^ 5)
  have h3 : 0 < 2 ^ 5 := (by decide : 0 < 2 ^ 5)
  have h4 : 0 < 2 ^ 2 := (by decide : 0 < 2 ^ 2)
  have h5 : sc.code < 2 ^ 3 := (scope_lt sc)
  have h6 : 0 < 2 ^ 3 := (by decide : 0 < 2 ^ 3)
  have hf : Fits [(5, 0), (5, 0), (5, 0), (2, 0), (3, sc.code), (3, 0)] :=
    ⟨h1, h2, h3, h4, h5, h6, trivial⟩
  refine of_fields 54 _ rfl (by decide) hf rfl fun lone hw acc0 wd he => ?_
  have r22_18 : bits wd 22 18 = 0 := read _ he hf 0 (Nat.le_of_ble_eq_true rfl)
      (Nat.le_of_ble_eq_true rfl)
  have r17_13 : bits wd 17 13 = 0 := read _ he hf 1 (Nat.le_of_ble_eq_true rfl)
      (Nat.le_of_ble_eq_true rfl)
  have r12_8 : bits wd 12 8 = 0 := read _ he hf 2 (Nat.le_of_ble_eq_true rfl)
      (Nat.le_of_ble_eq_true rfl)
  have r7_6 : bits wd 7 6 = 0 := read _ he hf 3 (Nat.le_of_ble_eq_true rfl)
      (Nat.le_of_ble_eq_true rfl)
  have r5_3 : bits wd 5 3 = sc.code := read _ he hf 4 (Nat.le_of_ble_eq_true rfl)
      (Nat.le_of_ble_eq_true rfl)
  have r2_0 : bits wd 2 0 = 0 := read _ he hf 5 (Nat.le_of_ble_eq_true rfl)
      (Nat.le_of_ble_eq_true rfl)
  change dec_rel wd = _
  unfold dec_rel
  rw [r22_18, r17_13, r12_8, r7_6, r5_3, r2_0]
  exact checked_ok (ok_fence sc hw) (by simp only [scope_back])

theorem waitw d a b wid : Statement (.waitw d a b wid) := by
  have h1 : d.val < 2 ^ 5 := (d.isLt : d.val < 2 ^ 5)
  have h2 : a.val < 2 ^ 5 := (a.isLt : a.val < 2 ^ 5)
  have h3 : b.val < 2 ^ 5 := (b.isLt : b.val < 2 ^ 5)
  have h4 : wid.code < 2 ^ 2 := (width_lt wid)
  have h5 : 0 < 2 ^ 6 := (by decide : 0 < 2 ^ 6)
  have hf : Fits [(5, d.val), (5, a.val), (5, b.val), (2, wid.code), (6, 0)] :=
    ⟨h1, h2, h3, h4, h5, trivial⟩
  refine of_fields 55 _ rfl (by decide) hf rfl fun lone hw acc0 wd he => ?_
  have r22_18 : bits wd 22 18 = d.val := read _ he hf 0 (Nat.le_of_ble_eq_true rfl)
      (Nat.le_of_ble_eq_true rfl)
  have r17_13 : bits wd 17 13 = a.val := read _ he hf 1 (Nat.le_of_ble_eq_true rfl)
      (Nat.le_of_ble_eq_true rfl)
  have r12_8 : bits wd 12 8 = b.val := read _ he hf 2 (Nat.le_of_ble_eq_true rfl)
      (Nat.le_of_ble_eq_true rfl)
  have r7_6 : bits wd 7 6 = wid.code := read _ he hf 3 (Nat.le_of_ble_eq_true rfl)
      (Nat.le_of_ble_eq_true rfl)
  have r5_0 : bits wd 5 0 = 0 := read _ he hf 4 (Nat.le_of_ble_eq_true rfl)
      (Nat.le_of_ble_eq_true rfl)
  change dec_waitw wd = _
  unfold dec_waitw
  rw [r22_18, r17_13, r12_8, r7_6, r5_0]
  exact checked_ok (ok_waitw wid hw) (by simp only [fin_back, width_back])

theorem wfe : Statement (.wfe) := by
  have h1 : 0 < 2 ^ 5 := (by decide : 0 < 2 ^ 5)
  have h2 : 0 < 2 ^ 5 := (by decide : 0 < 2 ^ 5)
  have h3 : 0 < 2 ^ 5 := (by decide : 0 < 2 ^ 5)
  have h4 : 0 < 2 ^ 8 := (by decide : 0 < 2 ^ 8)
  have hf : Fits [(5, 0), (5, 0), (5, 0), (8, 0)] :=
    ⟨h1, h2, h3, h4, trivial⟩
  refine of_fields 56 _ rfl (by decide) hf rfl fun lone hw acc0 wd he => ?_
  have r22_18 : bits wd 22 18 = 0 := read _ he hf 0 (Nat.le_of_ble_eq_true rfl)
      (Nat.le_of_ble_eq_true rfl)
  have r17_13 : bits wd 17 13 = 0 := read _ he hf 1 (Nat.le_of_ble_eq_true rfl)
      (Nat.le_of_ble_eq_true rfl)
  have r12_8 : bits wd 12 8 = 0 := read _ he hf 2 (Nat.le_of_ble_eq_true rfl)
      (Nat.le_of_ble_eq_true rfl)
  have r7_0 : bits wd 7 0 = 0 := read _ he hf 3 (Nat.le_of_ble_eq_true rfl)
      (Nat.le_of_ble_eq_true rfl)
  change dec_wfe wd = _
  unfold dec_wfe
  rw [r22_18, r17_13, r12_8, r7_0]
  exact checked_ok (rfl) rfl

theorem sev a sc all : Statement (.sev a sc all) := by
  have h1 : 0 < 2 ^ 5 := (by decide : 0 < 2 ^ 5)
  have h2 : a.val < 2 ^ 5 := (a.isLt : a.val < 2 ^ 5)
  have h3 : 0 < 2 ^ 5 := (by decide : 0 < 2 ^ 5)
  have h4 : 0 < 2 ^ 2 := (by decide : 0 < 2 ^ 2)
  have h5 : sc.code < 2 ^ 3 := (scope_lt sc)
  have h6 : 0 < 2 ^ 2 := (by decide : 0 < 2 ^ 2)
  have h7 : b2n all < 2 ^ 1 := (b2n_lt all)
  have hf : Fits [(5, 0), (5, a.val), (5, 0), (2, 0), (3, sc.code), (2, 0), (1, b2n all)] :=
    ⟨h1, h2, h3, h4, h5, h6, h7, trivial⟩
  refine of_fields 57 _ rfl (by decide) hf rfl fun lone hw acc0 wd he => ?_
  have r22_18 : bits wd 22 18 = 0 := read _ he hf 0 (Nat.le_of_ble_eq_true rfl)
      (Nat.le_of_ble_eq_true rfl)
  have r17_13 : bits wd 17 13 = a.val := read _ he hf 1 (Nat.le_of_ble_eq_true rfl)
      (Nat.le_of_ble_eq_true rfl)
  have r12_8 : bits wd 12 8 = 0 := read _ he hf 2 (Nat.le_of_ble_eq_true rfl)
      (Nat.le_of_ble_eq_true rfl)
  have r7_6 : bits wd 7 6 = 0 := read _ he hf 3 (Nat.le_of_ble_eq_true rfl)
      (Nat.le_of_ble_eq_true rfl)
  have r5_3 : bits wd 5 3 = sc.code := read _ he hf 4 (Nat.le_of_ble_eq_true rfl)
      (Nat.le_of_ble_eq_true rfl)
  have r2_1 : bits wd 2 1 = 0 := read _ he hf 5 (Nat.le_of_ble_eq_true rfl)
      (Nat.le_of_ble_eq_true rfl)
  have r0_0 : bits wd 0 0 = b2n all := read _ he hf 6 (Nat.le_of_ble_eq_true rfl)
      (Nat.le_of_ble_eq_true rfl)
  change dec_sev wd = _
  unfold dec_sev
  rw [r22_18, r17_13, r12_8, r7_6, r5_3, r2_1, r0_0]
  exact checked_ok (ok_sev sc hw) (by simp only [fin_back, scope_back, bool_back])

theorem bararr d a sc : Statement (.bararr d a sc) := by
  have h1 : d.val < 2 ^ 5 := (d.isLt : d.val < 2 ^ 5)
  have h2 : a.val < 2 ^ 5 := (a.isLt : a.val < 2 ^ 5)
  have h3 : 0 < 2 ^ 5 := (by decide : 0 < 2 ^ 5)
  have h4 : 0 < 2 ^ 2 := (by decide : 0 < 2 ^ 2)
  have h5 : sc.code < 2 ^ 3 := (scope_lt sc)
  have h6 : 0 < 2 ^ 3 := (by decide : 0 < 2 ^ 3)
  have hf : Fits [(5, d.val), (5, a.val), (5, 0), (2, 0), (3, sc.code), (3, 0)] :=
    ⟨h1, h2, h3, h4, h5, h6, trivial⟩
  refine of_fields 58 _ rfl (by decide) hf rfl fun lone hw acc0 wd he => ?_
  have r22_18 : bits wd 22 18 = d.val := read _ he hf 0 (Nat.le_of_ble_eq_true rfl)
      (Nat.le_of_ble_eq_true rfl)
  have r17_13 : bits wd 17 13 = a.val := read _ he hf 1 (Nat.le_of_ble_eq_true rfl)
      (Nat.le_of_ble_eq_true rfl)
  have r12_8 : bits wd 12 8 = 0 := read _ he hf 2 (Nat.le_of_ble_eq_true rfl)
      (Nat.le_of_ble_eq_true rfl)
  have r7_6 : bits wd 7 6 = 0 := read _ he hf 3 (Nat.le_of_ble_eq_true rfl)
      (Nat.le_of_ble_eq_true rfl)
  have r5_3 : bits wd 5 3 = sc.code := read _ he hf 4 (Nat.le_of_ble_eq_true rfl)
      (Nat.le_of_ble_eq_true rfl)
  have r2_0 : bits wd 2 0 = 0 := read _ he hf 5 (Nat.le_of_ble_eq_true rfl)
      (Nat.le_of_ble_eq_true rfl)
  change dec_bararr wd = _
  unfold dec_bararr
  rw [r22_18, r17_13, r12_8, r7_6, r5_3, r2_0]
  exact checked_ok (ok_bararr sc hw) (by simp only [fin_back, scope_back])

theorem barwt a b sc : Statement (.barwt a b sc) := by
  have h1 : 0 < 2 ^ 5 := (by decide : 0 < 2 ^ 5)
  have h2 : a.val < 2 ^ 5 := (a.isLt : a.val < 2 ^ 5)
  have h3 : b.val < 2 ^ 5 := (b.isLt : b.val < 2 ^ 5)
  have h4 : 0 < 2 ^ 2 := (by decide : 0 < 2 ^ 2)
  have h5 : sc.code < 2 ^ 3 := (scope_lt sc)
  have h6 : 0 < 2 ^ 3 := (by decide : 0 < 2 ^ 3)
  have hf : Fits [(5, 0), (5, a.val), (5, b.val), (2, 0), (3, sc.code), (3, 0)] :=
    ⟨h1, h2, h3, h4, h5, h6, trivial⟩
  refine of_fields 59 _ rfl (by decide) hf rfl fun lone hw acc0 wd he => ?_
  have r22_18 : bits wd 22 18 = 0 := read _ he hf 0 (Nat.le_of_ble_eq_true rfl)
      (Nat.le_of_ble_eq_true rfl)
  have r17_13 : bits wd 17 13 = a.val := read _ he hf 1 (Nat.le_of_ble_eq_true rfl)
      (Nat.le_of_ble_eq_true rfl)
  have r12_8 : bits wd 12 8 = b.val := read _ he hf 2 (Nat.le_of_ble_eq_true rfl)
      (Nat.le_of_ble_eq_true rfl)
  have r7_6 : bits wd 7 6 = 0 := read _ he hf 3 (Nat.le_of_ble_eq_true rfl)
      (Nat.le_of_ble_eq_true rfl)
  have r5_3 : bits wd 5 3 = sc.code := read _ he hf 4 (Nat.le_of_ble_eq_true rfl)
      (Nat.le_of_ble_eq_true rfl)
  have r2_0 : bits wd 2 0 = 0 := read _ he hf 5 (Nat.le_of_ble_eq_true rfl)
      (Nat.le_of_ble_eq_true rfl)
  change dec_barwt wd = _
  unfold dec_barwt
  rw [r22_18, r17_13, r12_8, r7_6, r5_3, r2_0]
  exact checked_ok (ok_barwt sc hw) (by simp only [fin_back, scope_back])

theorem barxb a b : Statement (.barxb a b) := by
  have h1 : 0 < 2 ^ 5 := (by decide : 0 < 2 ^ 5)
  have h2 : a.val < 2 ^ 5 := (a.isLt : a.val < 2 ^ 5)
  have h3 : b.val < 2 ^ 5 := (b.isLt : b.val < 2 ^ 5)
  have h4 : 0 < 2 ^ 8 := (by decide : 0 < 2 ^ 8)
  have hf : Fits [(5, 0), (5, a.val), (5, b.val), (8, 0)] :=
    ⟨h1, h2, h3, h4, trivial⟩
  refine of_fields 60 _ rfl (by decide) hf rfl fun lone hw acc0 wd he => ?_
  have r22_18 : bits wd 22 18 = 0 := read _ he hf 0 (Nat.le_of_ble_eq_true rfl)
      (Nat.le_of_ble_eq_true rfl)
  have r17_13 : bits wd 17 13 = a.val := read _ he hf 1 (Nat.le_of_ble_eq_true rfl)
      (Nat.le_of_ble_eq_true rfl)
  have r12_8 : bits wd 12 8 = b.val := read _ he hf 2 (Nat.le_of_ble_eq_true rfl)
      (Nat.le_of_ble_eq_true rfl)
  have r7_0 : bits wd 7 0 = 0 := read _ he hf 3 (Nat.le_of_ble_eq_true rfl)
      (Nat.le_of_ble_eq_true rfl)
  change dec_barxb wd = _
  unfold dec_barxb
  rw [r22_18, r17_13, r12_8, r7_0]
  exact checked_ok (rfl) (by simp only [fin_back])

theorem gsync d a sc : Statement (.gsync d a sc) := by
  have h1 : d.val < 2 ^ 5 := (d.isLt : d.val < 2 ^ 5)
  have h2 : a.val < 2 ^ 5 := (a.isLt : a.val < 2 ^ 5)
  have h3 : 0 < 2 ^ 5 := (by decide : 0 < 2 ^ 5)
  have h4 : 0 < 2 ^ 2 := (by decide : 0 < 2 ^ 2)
  have h5 : sc.code < 2 ^ 3 := (scope_lt sc)
  have h6 : 0 < 2 ^ 3 := (by decide : 0 < 2 ^ 3)
  have hf : Fits [(5, d.val), (5, a.val), (5, 0), (2, 0), (3, sc.code), (3, 0)] :=
    ⟨h1, h2, h3, h4, h5, h6, trivial⟩
  refine of_fields 61 _ rfl (by decide) hf rfl fun lone hw acc0 wd he => ?_
  have r22_18 : bits wd 22 18 = d.val := read _ he hf 0 (Nat.le_of_ble_eq_true rfl)
      (Nat.le_of_ble_eq_true rfl)
  have r17_13 : bits wd 17 13 = a.val := read _ he hf 1 (Nat.le_of_ble_eq_true rfl)
      (Nat.le_of_ble_eq_true rfl)
  have r12_8 : bits wd 12 8 = 0 := read _ he hf 2 (Nat.le_of_ble_eq_true rfl)
      (Nat.le_of_ble_eq_true rfl)
  have r7_6 : bits wd 7 6 = 0 := read _ he hf 3 (Nat.le_of_ble_eq_true rfl)
      (Nat.le_of_ble_eq_true rfl)
  have r5_3 : bits wd 5 3 = sc.code := read _ he hf 4 (Nat.le_of_ble_eq_true rfl)
      (Nat.le_of_ble_eq_true rfl)
  have r2_0 : bits wd 2 0 = 0 := read _ he hf 5 (Nat.le_of_ble_eq_true rfl)
      (Nat.le_of_ble_eq_true rfl)
  change dec_gsync wd = _
  unfold dec_gsync
  rw [r22_18, r17_13, r12_8, r7_6, r5_3, r2_0]
  exact checked_ok (ok_bararr sc hw) (by simp only [fin_back, scope_back])

theorem scfg d a : Statement (.scfg d a) := by
  have h1 : d.val < 2 ^ 5 := (d.isLt : d.val < 2 ^ 5)
  have h2 : a.val < 2 ^ 5 := (a.isLt : a.val < 2 ^ 5)
  have h3 : 0 < 2 ^ 5 := (by decide : 0 < 2 ^ 5)
  have h4 : 0 < 2 ^ 8 := (by decide : 0 < 2 ^ 8)
  have hf : Fits [(5, d.val), (5, a.val), (5, 0), (8, 0)] :=
    ⟨h1, h2, h3, h4, trivial⟩
  refine of_fields 62 _ rfl (by decide) hf rfl fun lone hw acc0 wd he => ?_
  have r22_18 : bits wd 22 18 = d.val := read _ he hf 0 (Nat.le_of_ble_eq_true rfl)
      (Nat.le_of_ble_eq_true rfl)
  have r17_13 : bits wd 17 13 = a.val := read _ he hf 1 (Nat.le_of_ble_eq_true rfl)
      (Nat.le_of_ble_eq_true rfl)
  have r12_8 : bits wd 12 8 = 0 := read _ he hf 2 (Nat.le_of_ble_eq_true rfl)
      (Nat.le_of_ble_eq_true rfl)
  have r7_0 : bits wd 7 0 = 0 := read _ he hf 3 (Nat.le_of_ble_eq_true rfl)
      (Nat.le_of_ble_eq_true rfl)
  change dec_scfg wd = _
  unfold dec_scfg
  rw [r22_18, r17_13, r12_8, r7_0]
  exact checked_ok (rfl) (by simp only [fin_back])

theorem sbind d a wr : Statement (.sbind d a wr) := by
  have h1 : d.val < 2 ^ 5 := lt_wide (m := 4) 5 ((d.isLt : d.val < 2 ^ 4)) (by decide)
  have h2 : a.val < 2 ^ 5 := (a.isLt : a.val < 2 ^ 5)
  have h3 : 0 < 2 ^ 5 := (by decide : 0 < 2 ^ 5)
  have h4 : 0 < 2 ^ 7 := (by decide : 0 < 2 ^ 7)
  have h5 : b2n wr < 2 ^ 1 := (b2n_lt wr)
  have hf : Fits [(5, d.val), (5, a.val), (5, 0), (7, 0), (1, b2n wr)] :=
    ⟨h1, h2, h3, h4, h5, trivial⟩
  refine of_fields 63 _ rfl (by decide) hf rfl fun lone hw acc0 wd he => ?_
  have r22_18 : bits wd 22 18 = d.val := read _ he hf 0 (Nat.le_of_ble_eq_true rfl)
      (Nat.le_of_ble_eq_true rfl)
  have r17_13 : bits wd 17 13 = a.val := read _ he hf 1 (Nat.le_of_ble_eq_true rfl)
      (Nat.le_of_ble_eq_true rfl)
  have r12_8 : bits wd 12 8 = 0 := read _ he hf 2 (Nat.le_of_ble_eq_true rfl)
      (Nat.le_of_ble_eq_true rfl)
  have r7_1 : bits wd 7 1 = 0 := read _ he hf 3 (Nat.le_of_ble_eq_true rfl)
      (Nat.le_of_ble_eq_true rfl)
  have r0_0 : bits wd 0 0 = b2n wr := read _ he hf 4 (Nat.le_of_ble_eq_true rfl)
      (Nat.le_of_ble_eq_true rfl)
  change dec_sbind wd = _
  unfold dec_sbind
  rw [r22_18, r17_13, r12_8, r7_1, r0_0]
  exact checked_ok (ok_sbind d hw) (by simp only [fin_back, bool_back])

theorem sfree a : Statement (.sfree a) := by
  have h1 : 0 < 2 ^ 5 := (by decide : 0 < 2 ^ 5)
  have h2 : a.val < 2 ^ 5 := (a.isLt : a.val < 2 ^ 5)
  have h3 : 0 < 2 ^ 5 := (by decide : 0 < 2 ^ 5)
  have h4 : 0 < 2 ^ 8 := (by decide : 0 < 2 ^ 8)
  have hf : Fits [(5, 0), (5, a.val), (5, 0), (8, 0)] :=
    ⟨h1, h2, h3, h4, trivial⟩
  refine of_fields 64 _ rfl (by decide) hf rfl fun lone hw acc0 wd he => ?_
  have r22_18 : bits wd 22 18 = 0 := read _ he hf 0 (Nat.le_of_ble_eq_true rfl)
      (Nat.le_of_ble_eq_true rfl)
  have r17_13 : bits wd 17 13 = a.val := read _ he hf 1 (Nat.le_of_ble_eq_true rfl)
      (Nat.le_of_ble_eq_true rfl)
  have r12_8 : bits wd 12 8 = 0 := read _ he hf 2 (Nat.le_of_ble_eq_true rfl)
      (Nat.le_of_ble_eq_true rfl)
  have r7_0 : bits wd 7 0 = 0 := read _ he hf 3 (Nat.le_of_ble_eq_true rfl)
      (Nat.le_of_ble_eq_true rfl)
  change dec_sfree wd = _
  unfold dec_sfree
  rw [r22_18, r17_13, r12_8, r7_0]
  exact checked_ok (rfl) (by simp only [fin_back])

theorem spos d a b upd : Statement (.spos d a b upd) := by
  have h1 : d.val < 2 ^ 5 := (d.isLt : d.val < 2 ^ 5)
  have h2 : a.val < 2 ^ 5 := (a.isLt : a.val < 2 ^ 5)
  have h3 : b.val < 2 ^ 5 := (b.isLt : b.val < 2 ^ 5)
  have h4 : 0 < 2 ^ 7 := (by decide : 0 < 2 ^ 7)
  have h5 : b2n upd < 2 ^ 1 := (b2n_lt upd)
  have hf : Fits [(5, d.val), (5, a.val), (5, b.val), (7, 0), (1, b2n upd)] :=
    ⟨h1, h2, h3, h4, h5, trivial⟩
  refine of_fields 65 _ rfl (by decide) hf rfl fun lone hw acc0 wd he => ?_
  have r22_18 : bits wd 22 18 = d.val := read _ he hf 0 (Nat.le_of_ble_eq_true rfl)
      (Nat.le_of_ble_eq_true rfl)
  have r17_13 : bits wd 17 13 = a.val := read _ he hf 1 (Nat.le_of_ble_eq_true rfl)
      (Nat.le_of_ble_eq_true rfl)
  have r12_8 : bits wd 12 8 = b.val := read _ he hf 2 (Nat.le_of_ble_eq_true rfl)
      (Nat.le_of_ble_eq_true rfl)
  have r7_1 : bits wd 7 1 = 0 := read _ he hf 3 (Nat.le_of_ble_eq_true rfl)
      (Nat.le_of_ble_eq_true rfl)
  have r0_0 : bits wd 0 0 = b2n upd := read _ he hf 4 (Nat.le_of_ble_eq_true rfl)
      (Nat.le_of_ble_eq_true rfl)
  change dec_spos wd = _
  unfold dec_spos
  rw [r22_18, r17_13, r12_8, r7_1, r0_0]
  exact checked_ok (rfl) (by simp only [fin_back, bool_back])

theorem btset n a imm : Statement (.btset n a imm) := by
  have h1 : n.val < 2 ^ 5 := (Nat.lt_trans n.isLt (by decide) : n.val < 2 ^ 5)
  have h2 : a.val < 2 ^ 5 := (a.isLt : a.val < 2 ^ 5)
  have h3 : imm.toNat < 2 ^ 13 := (imm.isLt : imm.toNat < 2 ^ 13)
  have hf : Fits [(5, n.val), (5, a.val), (13, imm.toNat)] :=
    ⟨h1, h2, h3, trivial⟩
  refine of_fields 66 _ rfl (by decide) hf rfl fun lone hw acc0 wd he => ?_
  have r22_18 : bits wd 22 18 = n.val := read _ he hf 0 (Nat.le_of_ble_eq_true rfl)
      (Nat.le_of_ble_eq_true rfl)
  have r17_13 : bits wd 17 13 = a.val := read _ he hf 1 (Nat.le_of_ble_eq_true rfl)
      (Nat.le_of_ble_eq_true rfl)
  have r12_0 : bits wd 12 0 = imm.toNat := read _ he hf 2 (Nat.le_of_ble_eq_true rfl)
      (Nat.le_of_ble_eq_true rfl)
  change dec_btset wd = _
  unfold dec_btset
  rw [r22_18, r17_13, r12_0]
  exact checked_ok (ok_btset n hw) (by simp only [fin_back, bv_back])

theorem btgo d sc : Statement (.btgo d sc) := by
  have h1 : d.val < 2 ^ 5 := (d.isLt : d.val < 2 ^ 5)
  have h2 : 0 < 2 ^ 5 := (by decide : 0 < 2 ^ 5)
  have h3 : 0 < 2 ^ 5 := (by decide : 0 < 2 ^ 5)
  have h4 : 0 < 2 ^ 2 := (by decide : 0 < 2 ^ 2)
  have h5 : sc.code < 2 ^ 3 := (scope_lt sc)
  have h6 : 0 < 2 ^ 3 := (by decide : 0 < 2 ^ 3)
  have hf : Fits [(5, d.val), (5, 0), (5, 0), (2, 0), (3, sc.code), (3, 0)] :=
    ⟨h1, h2, h3, h4, h5, h6, trivial⟩
  refine of_fields 67 _ rfl (by decide) hf rfl fun lone hw acc0 wd he => ?_
  have r22_18 : bits wd 22 18 = d.val := read _ he hf 0 (Nat.le_of_ble_eq_true rfl)
      (Nat.le_of_ble_eq_true rfl)
  have r17_13 : bits wd 17 13 = 0 := read _ he hf 1 (Nat.le_of_ble_eq_true rfl)
      (Nat.le_of_ble_eq_true rfl)
  have r12_8 : bits wd 12 8 = 0 := read _ he hf 2 (Nat.le_of_ble_eq_true rfl)
      (Nat.le_of_ble_eq_true rfl)
  have r7_6 : bits wd 7 6 = 0 := read _ he hf 3 (Nat.le_of_ble_eq_true rfl)
      (Nat.le_of_ble_eq_true rfl)
  have r5_3 : bits wd 5 3 = sc.code := read _ he hf 4 (Nat.le_of_ble_eq_true rfl)
      (Nat.le_of_ble_eq_true rfl)
  have r2_0 : bits wd 2 0 = 0 := read _ he hf 5 (Nat.le_of_ble_eq_true rfl)
      (Nat.le_of_ble_eq_true rfl)
  change dec_btgo wd = _
  unfold dec_btgo
  rw [r22_18, r17_13, r12_8, r7_6, r5_3, r2_0]
  exact checked_ok (ok_btgo sc hw) (by simp only [fin_back, scope_back])

theorem btpoll d a wait : Statement (.btpoll d a wait) := by
  have h1 : d.val < 2 ^ 5 := (d.isLt : d.val < 2 ^ 5)
  have h2 : a.val < 2 ^ 5 := (a.isLt : a.val < 2 ^ 5)
  have h3 : 0 < 2 ^ 5 := (by decide : 0 < 2 ^ 5)
  have h4 : 0 < 2 ^ 7 := (by decide : 0 < 2 ^ 7)
  have h5 : b2n wait < 2 ^ 1 := (b2n_lt wait)
  have hf : Fits [(5, d.val), (5, a.val), (5, 0), (7, 0), (1, b2n wait)] :=
    ⟨h1, h2, h3, h4, h5, trivial⟩
  refine of_fields 68 _ rfl (by decide) hf rfl fun lone hw acc0 wd he => ?_
  have r22_18 : bits wd 22 18 = d.val := read _ he hf 0 (Nat.le_of_ble_eq_true rfl)
      (Nat.le_of_ble_eq_true rfl)
  have r17_13 : bits wd 17 13 = a.val := read _ he hf 1 (Nat.le_of_ble_eq_true rfl)
      (Nat.le_of_ble_eq_true rfl)
  have r12_8 : bits wd 12 8 = 0 := read _ he hf 2 (Nat.le_of_ble_eq_true rfl)
      (Nat.le_of_ble_eq_true rfl)
  have r7_1 : bits wd 7 1 = 0 := read _ he hf 3 (Nat.le_of_ble_eq_true rfl)
      (Nat.le_of_ble_eq_true rfl)
  have r0_0 : bits wd 0 0 = b2n wait := read _ he hf 4 (Nat.le_of_ble_eq_true rfl)
      (Nat.le_of_ble_eq_true rfl)
  change dec_btpoll wd = _
  unfold dec_btpoll
  rw [r22_18, r17_13, r12_8, r7_1, r0_0]
  exact checked_ok (rfl) (by simp only [fin_back, bool_back])

theorem ixpost d a sc resume : Statement (.ixpost d a sc resume) := by
  have h1 : d.val < 2 ^ 5 := (d.isLt : d.val < 2 ^ 5)
  have h2 : a.val < 2 ^ 5 := (a.isLt : a.val < 2 ^ 5)
  have h3 : 0 < 2 ^ 5 := (by decide : 0 < 2 ^ 5)
  have h4 : 0 < 2 ^ 2 := (by decide : 0 < 2 ^ 2)
  have h5 : sc.code < 2 ^ 3 := (scope_lt sc)
  have h6 : 0 < 2 ^ 2 := (by decide : 0 < 2 ^ 2)
  have h7 : b2n resume < 2 ^ 1 := (b2n_lt resume)
  have hf : Fits [(5, d.val), (5, a.val), (5, 0), (2, 0), (3, sc.code), (2, 0), (1, b2n resume)] :=
    ⟨h1, h2, h3, h4, h5, h6, h7, trivial⟩
  refine of_fields 69 _ rfl (by decide) hf rfl fun lone hw acc0 wd he => ?_
  have r22_18 : bits wd 22 18 = d.val := read _ he hf 0 (Nat.le_of_ble_eq_true rfl)
      (Nat.le_of_ble_eq_true rfl)
  have r17_13 : bits wd 17 13 = a.val := read _ he hf 1 (Nat.le_of_ble_eq_true rfl)
      (Nat.le_of_ble_eq_true rfl)
  have r12_8 : bits wd 12 8 = 0 := read _ he hf 2 (Nat.le_of_ble_eq_true rfl)
      (Nat.le_of_ble_eq_true rfl)
  have r7_6 : bits wd 7 6 = 0 := read _ he hf 3 (Nat.le_of_ble_eq_true rfl)
      (Nat.le_of_ble_eq_true rfl)
  have r5_3 : bits wd 5 3 = sc.code := read _ he hf 4 (Nat.le_of_ble_eq_true rfl)
      (Nat.le_of_ble_eq_true rfl)
  have r2_1 : bits wd 2 1 = 0 := read _ he hf 5 (Nat.le_of_ble_eq_true rfl)
      (Nat.le_of_ble_eq_true rfl)
  have r0_0 : bits wd 0 0 = b2n resume := read _ he hf 6 (Nat.le_of_ble_eq_true rfl)
      (Nat.le_of_ble_eq_true rfl)
  change dec_ixpost wd = _
  unfold dec_ixpost
  rw [r22_18, r17_13, r12_8, r7_6, r5_3, r2_1, r0_0]
  exact checked_ok (ok_ixpost sc hw) (by simp only [fin_back, scope_back, bool_back])

theorem klset d a b clr : Statement (.klset d a b clr) := by
  have h1 : d.val < 2 ^ 5 := (d.isLt : d.val < 2 ^ 5)
  have h2 : a.val < 2 ^ 5 := (a.isLt : a.val < 2 ^ 5)
  have h3 : b.val < 2 ^ 5 := (b.isLt : b.val < 2 ^ 5)
  have h4 : 0 < 2 ^ 7 := (by decide : 0 < 2 ^ 7)
  have h5 : b2n clr < 2 ^ 1 := (b2n_lt clr)
  have hf : Fits [(5, d.val), (5, a.val), (5, b.val), (7, 0), (1, b2n clr)] :=
    ⟨h1, h2, h3, h4, h5, trivial⟩
  refine of_fields 70 _ rfl (by decide) hf rfl fun lone hw acc0 wd he => ?_
  have r22_18 : bits wd 22 18 = d.val := read _ he hf 0 (Nat.le_of_ble_eq_true rfl)
      (Nat.le_of_ble_eq_true rfl)
  have r17_13 : bits wd 17 13 = a.val := read _ he hf 1 (Nat.le_of_ble_eq_true rfl)
      (Nat.le_of_ble_eq_true rfl)
  have r12_8 : bits wd 12 8 = b.val := read _ he hf 2 (Nat.le_of_ble_eq_true rfl)
      (Nat.le_of_ble_eq_true rfl)
  have r7_1 : bits wd 7 1 = 0 := read _ he hf 3 (Nat.le_of_ble_eq_true rfl)
      (Nat.le_of_ble_eq_true rfl)
  have r0_0 : bits wd 0 0 = b2n clr := read _ he hf 4 (Nat.le_of_ble_eq_true rfl)
      (Nat.le_of_ble_eq_true rfl)
  change dec_klset wd = _
  unfold dec_klset
  rw [r22_18, r17_13, r12_8, r7_1, r0_0]
  exact checked_ok (rfl) (by simp only [fin_back, bool_back])

theorem klook d a b sc : Statement (.klook d a b sc) := by
  have h1 : d.val < 2 ^ 5 := (d.isLt : d.val < 2 ^ 5)
  have h2 : a.val < 2 ^ 5 := (a.isLt : a.val < 2 ^ 5)
  have h3 : b.val < 2 ^ 5 := (b.isLt : b.val < 2 ^ 5)
  have h4 : 0 < 2 ^ 2 := (by decide : 0 < 2 ^ 2)
  have h5 : sc.code < 2 ^ 3 := (scope_lt sc)
  have h6 : 0 < 2 ^ 3 := (by decide : 0 < 2 ^ 3)
  have hf : Fits [(5, d.val), (5, a.val), (5, b.val), (2, 0), (3, sc.code), (3, 0)] :=
    ⟨h1, h2, h3, h4, h5, h6, trivial⟩
  refine of_fields 71 _ rfl (by decide) hf rfl fun lone hw acc0 wd he => ?_
  have r22_18 : bits wd 22 18 = d.val := read _ he hf 0 (Nat.le_of_ble_eq_true rfl)
      (Nat.le_of_ble_eq_true rfl)
  have r17_13 : bits wd 17 13 = a.val := read _ he hf 1 (Nat.le_of_ble_eq_true rfl)
      (Nat.le_of_ble_eq_true rfl)
  have r12_8 : bits wd 12 8 = b.val := read _ he hf 2 (Nat.le_of_ble_eq_true rfl)
      (Nat.le_of_ble_eq_true rfl)
  have r7_6 : bits wd 7 6 = 0 := read _ he hf 3 (Nat.le_of_ble_eq_true rfl)
      (Nat.le_of_ble_eq_true rfl)
  have r5_3 : bits wd 5 3 = sc.code := read _ he hf 4 (Nat.le_of_ble_eq_true rfl)
      (Nat.le_of_ble_eq_true rfl)
  have r2_0 : bits wd 2 0 = 0 := read _ he hf 5 (Nat.le_of_ble_eq_true rfl)
      (Nat.le_of_ble_eq_true rfl)
  change dec_klook wd = _
  unfold dec_klook
  rw [r22_18, r17_13, r12_8, r7_6, r5_3, r2_0]
  exact checked_ok (ok_klook sc hw) (by simp only [fin_back, scope_back])

theorem klwait d a poll : Statement (.klwait d a poll) := by
  have h1 : d.val < 2 ^ 5 := (d.isLt : d.val < 2 ^ 5)
  have h2 : a.val < 2 ^ 5 := (a.isLt : a.val < 2 ^ 5)
  have h3 : 0 < 2 ^ 5 := (by decide : 0 < 2 ^ 5)
  have h4 : 0 < 2 ^ 7 := (by decide : 0 < 2 ^ 7)
  have h5 : b2n poll < 2 ^ 1 := (b2n_lt poll)
  have hf : Fits [(5, d.val), (5, a.val), (5, 0), (7, 0), (1, b2n poll)] :=
    ⟨h1, h2, h3, h4, h5, trivial⟩
  refine of_fields 72 _ rfl (by decide) hf rfl fun lone hw acc0 wd he => ?_
  have r22_18 : bits wd 22 18 = d.val := read _ he hf 0 (Nat.le_of_ble_eq_true rfl)
      (Nat.le_of_ble_eq_true rfl)
  have r17_13 : bits wd 17 13 = a.val := read _ he hf 1 (Nat.le_of_ble_eq_true rfl)
      (Nat.le_of_ble_eq_true rfl)
  have r12_8 : bits wd 12 8 = 0 := read _ he hf 2 (Nat.le_of_ble_eq_true rfl)
      (Nat.le_of_ble_eq_true rfl)
  have r7_1 : bits wd 7 1 = 0 := read _ he hf 3 (Nat.le_of_ble_eq_true rfl)
      (Nat.le_of_ble_eq_true rfl)
  have r0_0 : bits wd 0 0 = b2n poll := read _ he hf 4 (Nat.le_of_ble_eq_true rfl)
      (Nat.le_of_ble_eq_true rfl)
  change dec_klwait wd = _
  unfold dec_klwait
  rw [r22_18, r17_13, r12_8, r7_1, r0_0]
  exact checked_ok (rfl) (by simp only [fin_back, bool_back])

theorem klres d a sc drop : Statement (.klres d a sc drop) := by
  have h1 : d.val < 2 ^ 5 := (d.isLt : d.val < 2 ^ 5)
  have h2 : a.val < 2 ^ 5 := (a.isLt : a.val < 2 ^ 5)
  have h3 : 0 < 2 ^ 5 := (by decide : 0 < 2 ^ 5)
  have h4 : 0 < 2 ^ 2 := (by decide : 0 < 2 ^ 2)
  have h5 : sc.code < 2 ^ 3 := (scope_lt sc)
  have h6 : 0 < 2 ^ 2 := (by decide : 0 < 2 ^ 2)
  have h7 : b2n drop < 2 ^ 1 := (b2n_lt drop)
  have hf : Fits [(5, d.val), (5, a.val), (5, 0), (2, 0), (3, sc.code), (2, 0), (1, b2n drop)] :=
    ⟨h1, h2, h3, h4, h5, h6, h7, trivial⟩
  refine of_fields 73 _ rfl (by decide) hf rfl fun lone hw acc0 wd he => ?_
  have r22_18 : bits wd 22 18 = d.val := read _ he hf 0 (Nat.le_of_ble_eq_true rfl)
      (Nat.le_of_ble_eq_true rfl)
  have r17_13 : bits wd 17 13 = a.val := read _ he hf 1 (Nat.le_of_ble_eq_true rfl)
      (Nat.le_of_ble_eq_true rfl)
  have r12_8 : bits wd 12 8 = 0 := read _ he hf 2 (Nat.le_of_ble_eq_true rfl)
      (Nat.le_of_ble_eq_true rfl)
  have r7_6 : bits wd 7 6 = 0 := read _ he hf 3 (Nat.le_of_ble_eq_true rfl)
      (Nat.le_of_ble_eq_true rfl)
  have r5_3 : bits wd 5 3 = sc.code := read _ he hf 4 (Nat.le_of_ble_eq_true rfl)
      (Nat.le_of_ble_eq_true rfl)
  have r2_1 : bits wd 2 1 = 0 := read _ he hf 5 (Nat.le_of_ble_eq_true rfl)
      (Nat.le_of_ble_eq_true rfl)
  have r0_0 : bits wd 0 0 = b2n drop := read _ he hf 6 (Nat.le_of_ble_eq_true rfl)
      (Nat.le_of_ble_eq_true rfl)
  change dec_klres wd = _
  unfold dec_klres
  rw [r22_18, r17_13, r12_8, r7_6, r5_3, r2_1, r0_0]
  exact checked_ok (ok_ixpost sc hw) (by simp only [fin_back, scope_back, bool_back])

theorem ebag d a b sc : Statement (.ebag d a b sc) := by
  have h1 : d.val < 2 ^ 5 := (d.isLt : d.val < 2 ^ 5)
  have h2 : a.val < 2 ^ 5 := (a.isLt : a.val < 2 ^ 5)
  have h3 : b.val < 2 ^ 5 := (b.isLt : b.val < 2 ^ 5)
  have h4 : 0 < 2 ^ 2 := (by decide : 0 < 2 ^ 2)
  have h5 : sc.code < 2 ^ 3 := (scope_lt sc)
  have h6 : 0 < 2 ^ 3 := (by decide : 0 < 2 ^ 3)
  have hf : Fits [(5, d.val), (5, a.val), (5, b.val), (2, 0), (3, sc.code), (3, 0)] :=
    ⟨h1, h2, h3, h4, h5, h6, trivial⟩
  refine of_fields 74 _ rfl (by decide) hf rfl fun lone hw acc0 wd he => ?_
  have r22_18 : bits wd 22 18 = d.val := read _ he hf 0 (Nat.le_of_ble_eq_true rfl)
      (Nat.le_of_ble_eq_true rfl)
  have r17_13 : bits wd 17 13 = a.val := read _ he hf 1 (Nat.le_of_ble_eq_true rfl)
      (Nat.le_of_ble_eq_true rfl)
  have r12_8 : bits wd 12 8 = b.val := read _ he hf 2 (Nat.le_of_ble_eq_true rfl)
      (Nat.le_of_ble_eq_true rfl)
  have r7_6 : bits wd 7 6 = 0 := read _ he hf 3 (Nat.le_of_ble_eq_true rfl)
      (Nat.le_of_ble_eq_true rfl)
  have r5_3 : bits wd 5 3 = sc.code := read _ he hf 4 (Nat.le_of_ble_eq_true rfl)
      (Nat.le_of_ble_eq_true rfl)
  have r2_0 : bits wd 2 0 = 0 := read _ he hf 5 (Nat.le_of_ble_eq_true rfl)
      (Nat.le_of_ble_eq_true rfl)
  change dec_ebag wd = _
  unfold dec_ebag
  rw [r22_18, r17_13, r12_8, r7_6, r5_3, r2_0]
  exact checked_ok (ok_klook sc hw) (by simp only [fin_back, scope_back])

theorem eupd d a b sc resume : Statement (.eupd d a b sc resume) := by
  have h1 : d.val < 2 ^ 5 := (d.isLt : d.val < 2 ^ 5)
  have h2 : a.val < 2 ^ 5 := (a.isLt : a.val < 2 ^ 5)
  have h3 : b.val < 2 ^ 5 := (b.isLt : b.val < 2 ^ 5)
  have h4 : 0 < 2 ^ 2 := (by decide : 0 < 2 ^ 2)
  have h5 : sc.code < 2 ^ 3 := (scope_lt sc)
  have h6 : 0 < 2 ^ 1 := (by decide : 0 < 2 ^ 1)
  have h7 : 0 < 2 ^ 1 := (by decide : 0 < 2 ^ 1)
  have h8 : b2n resume < 2 ^ 1 := (b2n_lt resume)
  have hf : Fits [(5, d.val), (5, a.val), (5, b.val), (2, 0), (3, sc.code), (1, 0), (1, 0), (1, b2n resume)] :=
    ⟨h1, h2, h3, h4, h5, h6, h7, h8, trivial⟩
  refine of_fields 75 _ rfl (by decide) hf rfl fun lone hw acc0 wd he => ?_
  have r22_18 : bits wd 22 18 = d.val := read _ he hf 0 (Nat.le_of_ble_eq_true rfl)
      (Nat.le_of_ble_eq_true rfl)
  have r17_13 : bits wd 17 13 = a.val := read _ he hf 1 (Nat.le_of_ble_eq_true rfl)
      (Nat.le_of_ble_eq_true rfl)
  have r12_8 : bits wd 12 8 = b.val := read _ he hf 2 (Nat.le_of_ble_eq_true rfl)
      (Nat.le_of_ble_eq_true rfl)
  have r7_6 : bits wd 7 6 = 0 := read _ he hf 3 (Nat.le_of_ble_eq_true rfl)
      (Nat.le_of_ble_eq_true rfl)
  have r5_3 : bits wd 5 3 = sc.code := read _ he hf 4 (Nat.le_of_ble_eq_true rfl)
      (Nat.le_of_ble_eq_true rfl)
  have r2_2 : bits wd 2 2 = 0 := read _ he hf 5 (Nat.le_of_ble_eq_true rfl)
      (Nat.le_of_ble_eq_true rfl)
  have r1_1 : bits wd 1 1 = 0 := read _ he hf 6 (Nat.le_of_ble_eq_true rfl)
      (Nat.le_of_ble_eq_true rfl)
  have r0_0 : bits wd 0 0 = b2n resume := read _ he hf 7 (Nat.le_of_ble_eq_true rfl)
      (Nat.le_of_ble_eq_true rfl)
  change (if bits wd 1 1 = 1 then dec_eupdClose wd else dec_eupd wd) = _
  rw [r1_1]
  change dec_eupd wd = _
  unfold dec_eupd
  rw [r22_18, r17_13, r12_8, r7_6, r5_3, r2_2, r0_0]
  exact checked_ok (ok_eupd sc hw) (by simp only [fin_back, scope_back, bool_back])

theorem eupdClose d a b sc : Statement (.eupdClose d a b sc) := by
  have h1 : d.val < 2 ^ 5 := (d.isLt : d.val < 2 ^ 5)
  have h2 : a.val < 2 ^ 5 := (a.isLt : a.val < 2 ^ 5)
  have h3 : b.val < 2 ^ 5 := (b.isLt : b.val < 2 ^ 5)
  have h4 : 0 < 2 ^ 2 := (by decide : 0 < 2 ^ 2)
  have h5 : sc.code < 2 ^ 3 := (scope_lt sc)
  have h6 : 0 < 2 ^ 1 := (by decide : 0 < 2 ^ 1)
  have h7 : 1 < 2 ^ 1 := (by decide : 1 < 2 ^ 1)
  have h8 : 0 < 2 ^ 1 := (by decide : 0 < 2 ^ 1)
  have hf : Fits [(5, d.val), (5, a.val), (5, b.val), (2, 0), (3, sc.code), (1, 0), (1, 1), (1, 0)] :=
    ⟨h1, h2, h3, h4, h5, h6, h7, h8, trivial⟩
  refine of_fields 75 _ rfl (by decide) hf rfl fun lone hw acc0 wd he => ?_
  have r22_18 : bits wd 22 18 = d.val := read _ he hf 0 (Nat.le_of_ble_eq_true rfl)
      (Nat.le_of_ble_eq_true rfl)
  have r17_13 : bits wd 17 13 = a.val := read _ he hf 1 (Nat.le_of_ble_eq_true rfl)
      (Nat.le_of_ble_eq_true rfl)
  have r12_8 : bits wd 12 8 = b.val := read _ he hf 2 (Nat.le_of_ble_eq_true rfl)
      (Nat.le_of_ble_eq_true rfl)
  have r7_6 : bits wd 7 6 = 0 := read _ he hf 3 (Nat.le_of_ble_eq_true rfl)
      (Nat.le_of_ble_eq_true rfl)
  have r5_3 : bits wd 5 3 = sc.code := read _ he hf 4 (Nat.le_of_ble_eq_true rfl)
      (Nat.le_of_ble_eq_true rfl)
  have r2_2 : bits wd 2 2 = 0 := read _ he hf 5 (Nat.le_of_ble_eq_true rfl)
      (Nat.le_of_ble_eq_true rfl)
  have r1_1 : bits wd 1 1 = 1 := read _ he hf 6 (Nat.le_of_ble_eq_true rfl)
      (Nat.le_of_ble_eq_true rfl)
  have r0_0 : bits wd 0 0 = 0 := read _ he hf 7 (Nat.le_of_ble_eq_true rfl)
      (Nat.le_of_ble_eq_true rfl)
  change (if bits wd 1 1 = 1 then dec_eupdClose wd else dec_eupd wd) = _
  rw [r1_1]
  change dec_eupdClose wd = _
  unfold dec_eupdClose
  rw [r22_18, r17_13, r12_8, r7_6, r5_3, r2_2, r0_0]
  exact checked_ok (ok_eupdClose sc hw) (by simp only [fin_back, scope_back])

theorem tenq d a sc : Statement (.tenq d a sc) := by
  have h1 : d.val < 2 ^ 5 := (d.isLt : d.val < 2 ^ 5)
  have h2 : a.val < 2 ^ 5 := (a.isLt : a.val < 2 ^ 5)
  have h3 : 0 < 2 ^ 5 := (by decide : 0 < 2 ^ 5)
  have h4 : 0 < 2 ^ 2 := (by decide : 0 < 2 ^ 2)
  have h5 : sc.code < 2 ^ 3 := (scope_lt sc)
  have h6 : 0 < 2 ^ 3 := (by decide : 0 < 2 ^ 3)
  have hf : Fits [(5, d.val), (5, a.val), (5, 0), (2, 0), (3, sc.code), (3, 0)] :=
    ⟨h1, h2, h3, h4, h5, h6, trivial⟩
  refine of_fields 76 _ rfl (by decide) hf rfl fun lone hw acc0 wd he => ?_
  have r22_18 : bits wd 22 18 = d.val := read _ he hf 0 (Nat.le_of_ble_eq_true rfl)
      (Nat.le_of_ble_eq_true rfl)
  have r17_13 : bits wd 17 13 = a.val := read _ he hf 1 (Nat.le_of_ble_eq_true rfl)
      (Nat.le_of_ble_eq_true rfl)
  have r12_8 : bits wd 12 8 = 0 := read _ he hf 2 (Nat.le_of_ble_eq_true rfl)
      (Nat.le_of_ble_eq_true rfl)
  have r7_6 : bits wd 7 6 = 0 := read _ he hf 3 (Nat.le_of_ble_eq_true rfl)
      (Nat.le_of_ble_eq_true rfl)
  have r5_3 : bits wd 5 3 = sc.code := read _ he hf 4 (Nat.le_of_ble_eq_true rfl)
      (Nat.le_of_ble_eq_true rfl)
  have r2_0 : bits wd 2 0 = 0 := read _ he hf 5 (Nat.le_of_ble_eq_true rfl)
      (Nat.le_of_ble_eq_true rfl)
  change dec_tenq wd = _
  unfold dec_tenq
  rw [r22_18, r17_13, r12_8, r7_6, r5_3, r2_0]
  exact checked_ok (ok_bararr sc hw) (by simp only [fin_back, scope_back])

theorem tdeq d a b : Statement (.tdeq d a b) := by
  have h1 : d.val < 2 ^ 5 := (d.isLt : d.val < 2 ^ 5)
  have h2 : a.val < 2 ^ 5 := (a.isLt : a.val < 2 ^ 5)
  have h3 : b.val < 2 ^ 5 := (b.isLt : b.val < 2 ^ 5)
  have h4 : 0 < 2 ^ 8 := (by decide : 0 < 2 ^ 8)
  have hf : Fits [(5, d.val), (5, a.val), (5, b.val), (8, 0)] :=
    ⟨h1, h2, h3, h4, trivial⟩
  refine of_fields 77 _ rfl (by decide) hf rfl fun lone hw acc0 wd he => ?_
  have r22_18 : bits wd 22 18 = d.val := read _ he hf 0 (Nat.le_of_ble_eq_true rfl)
      (Nat.le_of_ble_eq_true rfl)
  have r17_13 : bits wd 17 13 = a.val := read _ he hf 1 (Nat.le_of_ble_eq_true rfl)
      (Nat.le_of_ble_eq_true rfl)
  have r12_8 : bits wd 12 8 = b.val := read _ he hf 2 (Nat.le_of_ble_eq_true rfl)
      (Nat.le_of_ble_eq_true rfl)
  have r7_0 : bits wd 7 0 = 0 := read _ he hf 3 (Nat.le_of_ble_eq_true rfl)
      (Nat.le_of_ble_eq_true rfl)
  change dec_tdeq wd = _
  unfold dec_tdeq
  rw [r22_18, r17_13, r12_8, r7_0]
  exact checked_ok (rfl) (by simp only [fin_back])

theorem dcinit d a imm : Statement (.dcinit d a imm) := by
  have h1 : d.val < 2 ^ 5 := (d.isLt : d.val < 2 ^ 5)
  have h2 : a.val < 2 ^ 5 := (a.isLt : a.val < 2 ^ 5)
  have h3 : imm.toNat < 2 ^ 13 := (imm.isLt : imm.toNat < 2 ^ 13)
  have hf : Fits [(5, d.val), (5, a.val), (13, imm.toNat)] :=
    ⟨h1, h2, h3, trivial⟩
  refine of_fields 78 _ rfl (by decide) hf rfl fun lone hw acc0 wd he => ?_
  have r22_18 : bits wd 22 18 = d.val := read _ he hf 0 (Nat.le_of_ble_eq_true rfl)
      (Nat.le_of_ble_eq_true rfl)
  have r17_13 : bits wd 17 13 = a.val := read _ he hf 1 (Nat.le_of_ble_eq_true rfl)
      (Nat.le_of_ble_eq_true rfl)
  have r12_0 : bits wd 12 0 = imm.toNat := read _ he hf 2 (Nat.le_of_ble_eq_true rfl)
      (Nat.le_of_ble_eq_true rfl)
  change dec_dcinit wd = _
  unfold dec_dcinit
  rw [r22_18, r17_13, r12_0]
  exact checked_ok (rfl) (by simp only [fin_back, bv_back])

theorem dcdec d a b sc free : Statement (.dcdec d a b sc free) := by
  have h1 : d.val < 2 ^ 5 := (d.isLt : d.val < 2 ^ 5)
  have h2 : a.val < 2 ^ 5 := (a.isLt : a.val < 2 ^ 5)
  have h3 : b.val < 2 ^ 5 := (b.isLt : b.val < 2 ^ 5)
  have h4 : 0 < 2 ^ 2 := (by decide : 0 < 2 ^ 2)
  have h5 : sc.code < 2 ^ 3 := (scope_lt sc)
  have h6 : 0 < 2 ^ 2 := (by decide : 0 < 2 ^ 2)
  have h7 : b2n free < 2 ^ 1 := (b2n_lt free)
  have hf : Fits [(5, d.val), (5, a.val), (5, b.val), (2, 0), (3, sc.code), (2, 0), (1, b2n free)] :=
    ⟨h1, h2, h3, h4, h5, h6, h7, trivial⟩
  refine of_fields 79 _ rfl (by decide) hf rfl fun lone hw acc0 wd he => ?_
  have r22_18 : bits wd 22 18 = d.val := read _ he hf 0 (Nat.le_of_ble_eq_true rfl)
      (Nat.le_of_ble_eq_true rfl)
  have r17_13 : bits wd 17 13 = a.val := read _ he hf 1 (Nat.le_of_ble_eq_true rfl)
      (Nat.le_of_ble_eq_true rfl)
  have r12_8 : bits wd 12 8 = b.val := read _ he hf 2 (Nat.le_of_ble_eq_true rfl)
      (Nat.le_of_ble_eq_true rfl)
  have r7_6 : bits wd 7 6 = 0 := read _ he hf 3 (Nat.le_of_ble_eq_true rfl)
      (Nat.le_of_ble_eq_true rfl)
  have r5_3 : bits wd 5 3 = sc.code := read _ he hf 4 (Nat.le_of_ble_eq_true rfl)
      (Nat.le_of_ble_eq_true rfl)
  have r2_1 : bits wd 2 1 = 0 := read _ he hf 5 (Nat.le_of_ble_eq_true rfl)
      (Nat.le_of_ble_eq_true rfl)
  have r0_0 : bits wd 0 0 = b2n free := read _ he hf 6 (Nat.le_of_ble_eq_true rfl)
      (Nat.le_of_ble_eq_true rfl)
  change dec_dcdec wd = _
  unfold dec_dcdec
  rw [r22_18, r17_13, r12_8, r7_6, r5_3, r2_1, r0_0]
  exact checked_ok (ok_dcdec sc hw) (by simp only [fin_back, scope_back, bool_back])

theorem dcinc d a b : Statement (.dcinc d a b) := by
  have h1 : d.val < 2 ^ 5 := (d.isLt : d.val < 2 ^ 5)
  have h2 : a.val < 2 ^ 5 := (a.isLt : a.val < 2 ^ 5)
  have h3 : b.val < 2 ^ 5 := (b.isLt : b.val < 2 ^ 5)
  have h4 : 0 < 2 ^ 8 := (by decide : 0 < 2 ^ 8)
  have hf : Fits [(5, d.val), (5, a.val), (5, b.val), (8, 0)] :=
    ⟨h1, h2, h3, h4, trivial⟩
  refine of_fields 80 _ rfl (by decide) hf rfl fun lone hw acc0 wd he => ?_
  have r22_18 : bits wd 22 18 = d.val := read _ he hf 0 (Nat.le_of_ble_eq_true rfl)
      (Nat.le_of_ble_eq_true rfl)
  have r17_13 : bits wd 17 13 = a.val := read _ he hf 1 (Nat.le_of_ble_eq_true rfl)
      (Nat.le_of_ble_eq_true rfl)
  have r12_8 : bits wd 12 8 = b.val := read _ he hf 2 (Nat.le_of_ble_eq_true rfl)
      (Nat.le_of_ble_eq_true rfl)
  have r7_0 : bits wd 7 0 = 0 := read _ he hf 3 (Nat.le_of_ble_eq_true rfl)
      (Nat.le_of_ble_eq_true rfl)
  change dec_dcinc wd = _
  unfold dec_dcinc
  rw [r22_18, r17_13, r12_8, r7_0]
  exact checked_ok (rfl) (by simp only [fin_back])

theorem tyield a b sc : Statement (.tyield a b sc) := by
  have h1 : 0 < 2 ^ 5 := (by decide : 0 < 2 ^ 5)
  have h2 : a.val < 2 ^ 5 := (a.isLt : a.val < 2 ^ 5)
  have h3 : b.val < 2 ^ 5 := (b.isLt : b.val < 2 ^ 5)
  have h4 : 0 < 2 ^ 2 := (by decide : 0 < 2 ^ 2)
  have h5 : sc.code < 2 ^ 3 := (scope_lt sc)
  have h6 : 0 < 2 ^ 3 := (by decide : 0 < 2 ^ 3)
  have hf : Fits [(5, 0), (5, a.val), (5, b.val), (2, 0), (3, sc.code), (3, 0)] :=
    ⟨h1, h2, h3, h4, h5, h6, trivial⟩
  refine of_fields 81 _ rfl (by decide) hf rfl fun lone hw acc0 wd he => ?_
  have r22_18 : bits wd 22 18 = 0 := read _ he hf 0 (Nat.le_of_ble_eq_true rfl)
      (Nat.le_of_ble_eq_true rfl)
  have r17_13 : bits wd 17 13 = a.val := read _ he hf 1 (Nat.le_of_ble_eq_true rfl)
      (Nat.le_of_ble_eq_true rfl)
  have r12_8 : bits wd 12 8 = b.val := read _ he hf 2 (Nat.le_of_ble_eq_true rfl)
      (Nat.le_of_ble_eq_true rfl)
  have r7_6 : bits wd 7 6 = 0 := read _ he hf 3 (Nat.le_of_ble_eq_true rfl)
      (Nat.le_of_ble_eq_true rfl)
  have r5_3 : bits wd 5 3 = sc.code := read _ he hf 4 (Nat.le_of_ble_eq_true rfl)
      (Nat.le_of_ble_eq_true rfl)
  have r2_0 : bits wd 2 0 = 0 := read _ he hf 5 (Nat.le_of_ble_eq_true rfl)
      (Nat.le_of_ble_eq_true rfl)
  change dec_tyield wd = _
  unfold dec_tyield
  rw [r22_18, r17_13, r12_8, r7_6, r5_3, r2_0]
  exact checked_ok (ok_barwt sc hw) (by simp only [fin_back, scope_back])

theorem texit sc : Statement (.texit sc) := by
  have h1 : 0 < 2 ^ 5 := (by decide : 0 < 2 ^ 5)
  have h2 : 0 < 2 ^ 5 := (by decide : 0 < 2 ^ 5)
  have h3 : 0 < 2 ^ 5 := (by decide : 0 < 2 ^ 5)
  have h4 : 0 < 2 ^ 2 := (by decide : 0 < 2 ^ 2)
  have h5 : sc.code < 2 ^ 3 := (scope_lt sc)
  have h6 : 0 < 2 ^ 3 := (by decide : 0 < 2 ^ 3)
  have hf : Fits [(5, 0), (5, 0), (5, 0), (2, 0), (3, sc.code), (3, 0)] :=
    ⟨h1, h2, h3, h4, h5, h6, trivial⟩
  refine of_fields 82 _ rfl (by decide) hf rfl fun lone hw acc0 wd he => ?_
  have r22_18 : bits wd 22 18 = 0 := read _ he hf 0 (Nat.le_of_ble_eq_true rfl)
      (Nat.le_of_ble_eq_true rfl)
  have r17_13 : bits wd 17 13 = 0 := read _ he hf 1 (Nat.le_of_ble_eq_true rfl)
      (Nat.le_of_ble_eq_true rfl)
  have r12_8 : bits wd 12 8 = 0 := read _ he hf 2 (Nat.le_of_ble_eq_true rfl)
      (Nat.le_of_ble_eq_true rfl)
  have r7_6 : bits wd 7 6 = 0 := read _ he hf 3 (Nat.le_of_ble_eq_true rfl)
      (Nat.le_of_ble_eq_true rfl)
  have r5_3 : bits wd 5 3 = sc.code := read _ he hf 4 (Nat.le_of_ble_eq_true rfl)
      (Nat.le_of_ble_eq_true rfl)
  have r2_0 : bits wd 2 0 = 0 := read _ he hf 5 (Nat.le_of_ble_eq_true rfl)
      (Nat.le_of_ble_eq_true rfl)
  change dec_texit wd = _
  unfold dec_texit
  rw [r22_18, r17_13, r12_8, r7_6, r5_3, r2_0]
  exact checked_ok (ok_texit sc hw) (by simp only [scope_back])

theorem pwreq d a imm : Statement (.pwreq d a imm) := by
  have h1 : d.val < 2 ^ 5 := (d.isLt : d.val < 2 ^ 5)
  have h2 : a.val < 2 ^ 5 := (a.isLt : a.val < 2 ^ 5)
  have h3 : imm.toNat < 2 ^ 13 := (imm.isLt : imm.toNat < 2 ^ 13)
  have hf : Fits [(5, d.val), (5, a.val), (13, imm.toNat)] :=
    ⟨h1, h2, h3, trivial⟩
  refine of_fields 83 _ rfl (by decide) hf rfl fun lone hw acc0 wd he => ?_
  have r22_18 : bits wd 22 18 = d.val := read _ he hf 0 (Nat.le_of_ble_eq_true rfl)
      (Nat.le_of_ble_eq_true rfl)
  have r17_13 : bits wd 17 13 = a.val := read _ he hf 1 (Nat.le_of_ble_eq_true rfl)
      (Nat.le_of_ble_eq_true rfl)
  have r12_0 : bits wd 12 0 = imm.toNat := read _ he hf 2 (Nat.le_of_ble_eq_true rfl)
      (Nat.le_of_ble_eq_true rfl)
  change dec_pwreq wd = _
  unfold dec_pwreq
  rw [r22_18, r17_13, r12_0]
  exact checked_ok (rfl) (by simp only [fin_back, bv_back])

theorem pwrel : Statement (.pwrel) := by
  have h1 : 0 < 2 ^ 5 := (by decide : 0 < 2 ^ 5)
  have h2 : 0 < 2 ^ 5 := (by decide : 0 < 2 ^ 5)
  have h3 : 0 < 2 ^ 5 := (by decide : 0 < 2 ^ 5)
  have h4 : 0 < 2 ^ 8 := (by decide : 0 < 2 ^ 8)
  have hf : Fits [(5, 0), (5, 0), (5, 0), (8, 0)] :=
    ⟨h1, h2, h3, h4, trivial⟩
  refine of_fields 84 _ rfl (by decide) hf rfl fun lone hw acc0 wd he => ?_
  have r22_18 : bits wd 22 18 = 0 := read _ he hf 0 (Nat.le_of_ble_eq_true rfl)
      (Nat.le_of_ble_eq_true rfl)
  have r17_13 : bits wd 17 13 = 0 := read _ he hf 1 (Nat.le_of_ble_eq_true rfl)
      (Nat.le_of_ble_eq_true rfl)
  have r12_8 : bits wd 12 8 = 0 := read _ he hf 2 (Nat.le_of_ble_eq_true rfl)
      (Nat.le_of_ble_eq_true rfl)
  have r7_0 : bits wd 7 0 = 0 := read _ he hf 3 (Nat.le_of_ble_eq_true rfl)
      (Nat.le_of_ble_eq_true rfl)
  change dec_pwrel wd = _
  unfold dec_pwrel
  rw [r22_18, r17_13, r12_8, r7_0]
  exact checked_ok (rfl) rfl

theorem smig d a : Statement (.smig d a) := by
  have h1 : d.val < 2 ^ 5 := (d.isLt : d.val < 2 ^ 5)
  have h2 : a.val < 2 ^ 5 := (a.isLt : a.val < 2 ^ 5)
  have h3 : 0 < 2 ^ 5 := (by decide : 0 < 2 ^ 5)
  have h4 : 0 < 2 ^ 8 := (by decide : 0 < 2 ^ 8)
  have hf : Fits [(5, d.val), (5, a.val), (5, 0), (8, 0)] :=
    ⟨h1, h2, h3, h4, trivial⟩
  refine of_fields 85 _ rfl (by decide) hf rfl fun lone hw acc0 wd he => ?_
  have r22_18 : bits wd 22 18 = d.val := read _ he hf 0 (Nat.le_of_ble_eq_true rfl)
      (Nat.le_of_ble_eq_true rfl)
  have r17_13 : bits wd 17 13 = a.val := read _ he hf 1 (Nat.le_of_ble_eq_true rfl)
      (Nat.le_of_ble_eq_true rfl)
  have r12_8 : bits wd 12 8 = 0 := read _ he hf 2 (Nat.le_of_ble_eq_true rfl)
      (Nat.le_of_ble_eq_true rfl)
  have r7_0 : bits wd 7 0 = 0 := read _ he hf 3 (Nat.le_of_ble_eq_true rfl)
      (Nat.le_of_ble_eq_true rfl)
  change dec_smig wd = _
  unfold dec_smig
  rw [r22_18, r17_13, r12_8, r7_0]
  exact checked_ok (rfl) (by simp only [fin_back])

theorem gjoin d a imm : Statement (.gjoin d a imm) := by
  have h1 : d.val < 2 ^ 5 := (d.isLt : d.val < 2 ^ 5)
  have h2 : a.val < 2 ^ 5 := (a.isLt : a.val < 2 ^ 5)
  have h3 : imm.toNat < 2 ^ 13 := (imm.isLt : imm.toNat < 2 ^ 13)
  have hf : Fits [(5, d.val), (5, a.val), (13, imm.toNat)] :=
    ⟨h1, h2, h3, trivial⟩
  refine of_fields 86 _ rfl (by decide) hf rfl fun lone hw acc0 wd he => ?_
  have r22_18 : bits wd 22 18 = d.val := read _ he hf 0 (Nat.le_of_ble_eq_true rfl)
      (Nat.le_of_ble_eq_true rfl)
  have r17_13 : bits wd 17 13 = a.val := read _ he hf 1 (Nat.le_of_ble_eq_true rfl)
      (Nat.le_of_ble_eq_true rfl)
  have r12_0 : bits wd 12 0 = imm.toNat := read _ he hf 2 (Nat.le_of_ble_eq_true rfl)
      (Nat.le_of_ble_eq_true rfl)
  change dec_gjoin wd = _
  unfold dec_gjoin
  rw [r22_18, r17_13, r12_0]
  exact checked_ok (rfl) (by simp only [fin_back, bv_back])

theorem gleave d a imm : Statement (.gleave d a imm) := by
  have h1 : d.val < 2 ^ 5 := (d.isLt : d.val < 2 ^ 5)
  have h2 : a.val < 2 ^ 5 := (a.isLt : a.val < 2 ^ 5)
  have h3 : imm.toNat < 2 ^ 13 := (imm.isLt : imm.toNat < 2 ^ 13)
  have hf : Fits [(5, d.val), (5, a.val), (13, imm.toNat)] :=
    ⟨h1, h2, h3, trivial⟩
  refine of_fields 87 _ rfl (by decide) hf rfl fun lone hw acc0 wd he => ?_
  have r22_18 : bits wd 22 18 = d.val := read _ he hf 0 (Nat.le_of_ble_eq_true rfl)
      (Nat.le_of_ble_eq_true rfl)
  have r17_13 : bits wd 17 13 = a.val := read _ he hf 1 (Nat.le_of_ble_eq_true rfl)
      (Nat.le_of_ble_eq_true rfl)
  have r12_0 : bits wd 12 0 = imm.toNat := read _ he hf 2 (Nat.le_of_ble_eq_true rfl)
      (Nat.le_of_ble_eq_true rfl)
  change dec_gleave wd = _
  unfold dec_gleave
  rw [r22_18, r17_13, r12_0]
  exact checked_ok (rfl) (by simp only [fin_back, bv_back])

theorem qsend q b fin : Statement (.qsend q b fin) := by
  have h1 : 0 < 2 ^ 5 := (by decide : 0 < 2 ^ 5)
  have h2 : q.val < 2 ^ 5 := lt_wide (m := 2) 5 ((q.isLt : q.val < 2 ^ 2)) (by decide)
  have h3 : b.val < 2 ^ 5 := lt_wide (m := 4) 5 ((b.isLt : b.val < 2 ^ 4)) (by decide)
  have h4 : 0 < 2 ^ 7 := (by decide : 0 < 2 ^ 7)
  have h5 : b2n fin < 2 ^ 1 := (b2n_lt fin)
  have hf : Fits [(5, 0), (5, q.val), (5, b.val), (7, 0), (1, b2n fin)] :=
    ⟨h1, h2, h3, h4, h5, trivial⟩
  refine of_fields 88 _ rfl (by decide) hf rfl fun lone hw acc0 wd he => ?_
  have r22_18 : bits wd 22 18 = 0 := read _ he hf 0 (Nat.le_of_ble_eq_true rfl)
      (Nat.le_of_ble_eq_true rfl)
  have r17_13 : bits wd 17 13 = q.val := read _ he hf 1 (Nat.le_of_ble_eq_true rfl)
      (Nat.le_of_ble_eq_true rfl)
  have r12_8 : bits wd 12 8 = b.val := read _ he hf 2 (Nat.le_of_ble_eq_true rfl)
      (Nat.le_of_ble_eq_true rfl)
  have r7_1 : bits wd 7 1 = 0 := read _ he hf 3 (Nat.le_of_ble_eq_true rfl)
      (Nat.le_of_ble_eq_true rfl)
  have r0_0 : bits wd 0 0 = b2n fin := read _ he hf 4 (Nat.le_of_ble_eq_true rfl)
      (Nat.le_of_ble_eq_true rfl)
  change dec_qsend wd = _
  unfold dec_qsend
  rw [r22_18, r17_13, r12_8, r7_1, r0_0]
  exact checked_ok (ok_qsend q b hw) (by simp only [fin_back, bool_back])

theorem qrecv d q b poll : Statement (.qrecv d q b poll) := by
  have h1 : d.val < 2 ^ 5 := lt_wide (m := 4) 5 ((d.isLt : d.val < 2 ^ 4)) (by decide)
  have h2 : q.val < 2 ^ 5 := lt_wide (m := 2) 5 ((q.isLt : q.val < 2 ^ 2)) (by decide)
  have h3 : b.val < 2 ^ 5 := (b.isLt : b.val < 2 ^ 5)
  have h4 : 0 < 2 ^ 7 := (by decide : 0 < 2 ^ 7)
  have h5 : b2n poll < 2 ^ 1 := (b2n_lt poll)
  have hf : Fits [(5, d.val), (5, q.val), (5, b.val), (7, 0), (1, b2n poll)] :=
    ⟨h1, h2, h3, h4, h5, trivial⟩
  refine of_fields 89 _ rfl (by decide) hf rfl fun lone hw acc0 wd he => ?_
  have r22_18 : bits wd 22 18 = d.val := read _ he hf 0 (Nat.le_of_ble_eq_true rfl)
      (Nat.le_of_ble_eq_true rfl)
  have r17_13 : bits wd 17 13 = q.val := read _ he hf 1 (Nat.le_of_ble_eq_true rfl)
      (Nat.le_of_ble_eq_true rfl)
  have r12_8 : bits wd 12 8 = b.val := read _ he hf 2 (Nat.le_of_ble_eq_true rfl)
      (Nat.le_of_ble_eq_true rfl)
  have r7_1 : bits wd 7 1 = 0 := read _ he hf 3 (Nat.le_of_ble_eq_true rfl)
      (Nat.le_of_ble_eq_true rfl)
  have r0_0 : bits wd 0 0 = b2n poll := read _ he hf 4 (Nat.le_of_ble_eq_true rfl)
      (Nat.le_of_ble_eq_true rfl)
  change dec_qrecv wd = _
  unfold dec_qrecv
  rw [r22_18, r17_13, r12_8, r7_1, r0_0]
  exact checked_ok (ok_qrecv d q hw) (by simp only [fin_back, bool_back])

theorem vsopen d a nb q entry : Statement (.vsopen d a nb q entry) := by
  have h1 : d.val < 2 ^ 5 := (d.isLt : d.val < 2 ^ 5)
  have h2 : a.val < 2 ^ 5 := (a.isLt : a.val < 2 ^ 5)
  have h3 : 0 < 2 ^ 2 := (by decide : 0 < 2 ^ 2)
  have h4 : b2n nb < 2 ^ 1 := (b2n_lt nb)
  have h5 : q.val < 2 ^ 2 := (q.isLt : q.val < 2 ^ 2)
  have h6 : entry.toNat < 2 ^ 8 := (entry.isLt : entry.toNat < 2 ^ 8)
  have hf : Fits [(5, d.val), (5, a.val), (2, 0), (1, b2n nb), (2, q.val), (8, entry.toNat)] :=
    ⟨h1, h2, h3, h4, h5, h6, trivial⟩
  refine of_fields 90 _ rfl (by decide) hf rfl fun lone hw acc0 wd he => ?_
  have r22_18 : bits wd 22 18 = d.val := read _ he hf 0 (Nat.le_of_ble_eq_true rfl)
      (Nat.le_of_ble_eq_true rfl)
  have r17_13 : bits wd 17 13 = a.val := read _ he hf 1 (Nat.le_of_ble_eq_true rfl)
      (Nat.le_of_ble_eq_true rfl)
  have r12_11 : bits wd 12 11 = 0 := read _ he hf 2 (Nat.le_of_ble_eq_true rfl)
      (Nat.le_of_ble_eq_true rfl)
  have r10_10 : bits wd 10 10 = b2n nb := read _ he hf 3 (Nat.le_of_ble_eq_true rfl)
      (Nat.le_of_ble_eq_true rfl)
  have r9_8 : bits wd 9 8 = q.val := read _ he hf 4 (Nat.le_of_ble_eq_true rfl)
      (Nat.le_of_ble_eq_true rfl)
  have r7_0 : bits wd 7 0 = entry.toNat := read _ he hf 5 (Nat.le_of_ble_eq_true rfl)
      (Nat.le_of_ble_eq_true rfl)
  change dec_vsopen wd = _
  unfold dec_vsopen
  rw [r22_18, r17_13, r12_11, r10_10, r9_8, r7_0]
  exact checked_ok (rfl) (by simp only [fin_back, bool_back, bv_back])

theorem vsmark q b : Statement (.vsmark q b) := by
  have h1 : 0 < 2 ^ 5 := (by decide : 0 < 2 ^ 5)
  have h2 : q.val < 2 ^ 5 := lt_wide (m := 2) 5 ((q.isLt : q.val < 2 ^ 2)) (by decide)
  have h3 : b.val < 2 ^ 5 := (b.isLt : b.val < 2 ^ 5)
  have h4 : 0 < 2 ^ 8 := (by decide : 0 < 2 ^ 8)
  have hf : Fits [(5, 0), (5, q.val), (5, b.val), (8, 0)] :=
    ⟨h1, h2, h3, h4, trivial⟩
  refine of_fields 91 _ rfl (by decide) hf rfl fun lone hw acc0 wd he => ?_
  have r22_18 : bits wd 22 18 = 0 := read _ he hf 0 (Nat.le_of_ble_eq_true rfl)
      (Nat.le_of_ble_eq_true rfl)
  have r17_13 : bits wd 17 13 = q.val := read _ he hf 1 (Nat.le_of_ble_eq_true rfl)
      (Nat.le_of_ble_eq_true rfl)
  have r12_8 : bits wd 12 8 = b.val := read _ he hf 2 (Nat.le_of_ble_eq_true rfl)
      (Nat.le_of_ble_eq_true rfl)
  have r7_0 : bits wd 7 0 = 0 := read _ he hf 3 (Nat.le_of_ble_eq_true rfl)
      (Nat.le_of_ble_eq_true rfl)
  change dec_vsmark wd = _
  unfold dec_vsmark
  rw [r22_18, r17_13, r12_8, r7_0]
  exact checked_ok (ok_vsmark q hw) (by simp only [fin_back])

theorem vsclose d entry : Statement (.vsclose d entry) := by
  have h1 : d.val < 2 ^ 5 := (d.isLt : d.val < 2 ^ 5)
  have h2 : 0 < 2 ^ 5 := (by decide : 0 < 2 ^ 5)
  have h3 : 0 < 2 ^ 5 := (by decide : 0 < 2 ^ 5)
  have h4 : entry.toNat < 2 ^ 8 := (entry.isLt : entry.toNat < 2 ^ 8)
  have hf : Fits [(5, d.val), (5, 0), (5, 0), (8, entry.toNat)] :=
    ⟨h1, h2, h3, h4, trivial⟩
  refine of_fields 92 _ rfl (by decide) hf rfl fun lone hw acc0 wd he => ?_
  have r22_18 : bits wd 22 18 = d.val := read _ he hf 0 (Nat.le_of_ble_eq_true rfl)
      (Nat.le_of_ble_eq_true rfl)
  have r17_13 : bits wd 17 13 = 0 := read _ he hf 1 (Nat.le_of_ble_eq_true rfl)
      (Nat.le_of_ble_eq_true rfl)
  have r12_8 : bits wd 12 8 = 0 := read _ he hf 2 (Nat.le_of_ble_eq_true rfl)
      (Nat.le_of_ble_eq_true rfl)
  have r7_0 : bits wd 7 0 = entry.toNat := read _ he hf 3 (Nat.le_of_ble_eq_true rfl)
      (Nat.le_of_ble_eq_true rfl)
  change dec_vsclose wd = _
  unfold dec_vsclose
  rw [r22_18, r17_13, r12_8, r7_0]
  exact checked_ok (rfl) (by simp only [fin_back, bv_back])

theorem mcmd d a b : Statement (.mcmd d a b) := by
  have h1 : d.val < 2 ^ 5 := (d.isLt : d.val < 2 ^ 5)
  have h2 : a.val < 2 ^ 5 := (a.isLt : a.val < 2 ^ 5)
  have h3 : b.val < 2 ^ 5 := (b.isLt : b.val < 2 ^ 5)
  have h4 : 0 < 2 ^ 8 := (by decide : 0 < 2 ^ 8)
  have hf : Fits [(5, d.val), (5, a.val), (5, b.val), (8, 0)] :=
    ⟨h1, h2, h3, h4, trivial⟩
  refine of_fields 93 _ rfl (by decide) hf rfl fun lone hw acc0 wd he => ?_
  have r22_18 : bits wd 22 18 = d.val := read _ he hf 0 (Nat.le_of_ble_eq_true rfl)
      (Nat.le_of_ble_eq_true rfl)
  have r17_13 : bits wd 17 13 = a.val := read _ he hf 1 (Nat.le_of_ble_eq_true rfl)
      (Nat.le_of_ble_eq_true rfl)
  have r12_8 : bits wd 12 8 = b.val := read _ he hf 2 (Nat.le_of_ble_eq_true rfl)
      (Nat.le_of_ble_eq_true rfl)
  have r7_0 : bits wd 7 0 = 0 := read _ he hf 3 (Nat.le_of_ble_eq_true rfl)
      (Nat.le_of_ble_eq_true rfl)
  change dec_mcmd wd = _
  unfold dec_mcmd
  rw [r22_18, r17_13, r12_8, r7_0]
  exact checked_ok (rfl) (by simp only [fin_back])

theorem csrr d csr : Statement (.csrr d csr) := by
  have h1 : d.val < 2 ^ 5 := (d.isLt : d.val < 2 ^ 5)
  have h2 : 0 < 2 ^ 5 := (by decide : 0 < 2 ^ 5)
  have h3 : 0 < 2 ^ 1 := (by decide : 0 < 2 ^ 1)
  have h4 : csr.toNat < 2 ^ 12 := (csr.isLt : csr.toNat < 2 ^ 12)
  have hf : Fits [(5, d.val), (5, 0), (1, 0), (12, csr.toNat)] :=
    ⟨h1, h2, h3, h4, trivial⟩
  refine of_fields 94 _ rfl (by decide) hf rfl fun lone hw acc0 wd he => ?_
  have r22_18 : bits wd 22 18 = d.val := read _ he hf 0 (Nat.le_of_ble_eq_true rfl)
      (Nat.le_of_ble_eq_true rfl)
  have r17_13 : bits wd 17 13 = 0 := read _ he hf 1 (Nat.le_of_ble_eq_true rfl)
      (Nat.le_of_ble_eq_true rfl)
  have r12_12 : bits wd 12 12 = 0 := read _ he hf 2 (Nat.le_of_ble_eq_true rfl)
      (Nat.le_of_ble_eq_true rfl)
  have r11_0 : bits wd 11 0 = csr.toNat := read _ he hf 3 (Nat.le_of_ble_eq_true rfl)
      (Nat.le_of_ble_eq_true rfl)
  change dec_csrr wd = _
  unfold dec_csrr
  rw [r22_18, r17_13, r12_12, r11_0]
  exact checked_ok (ok_csrr csr hw) (by simp only [fin_back, bv_back])

theorem csrw a csr : Statement (.csrw a csr) := by
  have h1 : 0 < 2 ^ 5 := (by decide : 0 < 2 ^ 5)
  have h2 : a.val < 2 ^ 5 := (a.isLt : a.val < 2 ^ 5)
  have h3 : 0 < 2 ^ 1 := (by decide : 0 < 2 ^ 1)
  have h4 : csr.toNat < 2 ^ 12 := (csr.isLt : csr.toNat < 2 ^ 12)
  have hf : Fits [(5, 0), (5, a.val), (1, 0), (12, csr.toNat)] :=
    ⟨h1, h2, h3, h4, trivial⟩
  refine of_fields 95 _ rfl (by decide) hf rfl fun lone hw acc0 wd he => ?_
  have r22_18 : bits wd 22 18 = 0 := read _ he hf 0 (Nat.le_of_ble_eq_true rfl)
      (Nat.le_of_ble_eq_true rfl)
  have r17_13 : bits wd 17 13 = a.val := read _ he hf 1 (Nat.le_of_ble_eq_true rfl)
      (Nat.le_of_ble_eq_true rfl)
  have r12_12 : bits wd 12 12 = 0 := read _ he hf 2 (Nat.le_of_ble_eq_true rfl)
      (Nat.le_of_ble_eq_true rfl)
  have r11_0 : bits wd 11 0 = csr.toNat := read _ he hf 3 (Nat.le_of_ble_eq_true rfl)
      (Nat.le_of_ble_eq_true rfl)
  change dec_csrw wd = _
  unfold dec_csrw
  rw [r22_18, r17_13, r12_12, r11_0]
  exact checked_ok (ok_csrw csr hw) (by simp only [fin_back, bv_back])

theorem csrx d a csr : Statement (.csrx d a csr) := by
  have h1 : d.val < 2 ^ 5 := (d.isLt : d.val < 2 ^ 5)
  have h2 : a.val < 2 ^ 5 := (a.isLt : a.val < 2 ^ 5)
  have h3 : 0 < 2 ^ 1 := (by decide : 0 < 2 ^ 1)
  have h4 : csr.toNat < 2 ^ 12 := (csr.isLt : csr.toNat < 2 ^ 12)
  have hf : Fits [(5, d.val), (5, a.val), (1, 0), (12, csr.toNat)] :=
    ⟨h1, h2, h3, h4, trivial⟩
  refine of_fields 96 _ rfl (by decide) hf rfl fun lone hw acc0 wd he => ?_
  have r22_18 : bits wd 22 18 = d.val := read _ he hf 0 (Nat.le_of_ble_eq_true rfl)
      (Nat.le_of_ble_eq_true rfl)
  have r17_13 : bits wd 17 13 = a.val := read _ he hf 1 (Nat.le_of_ble_eq_true rfl)
      (Nat.le_of_ble_eq_true rfl)
  have r12_12 : bits wd 12 12 = 0 := read _ he hf 2 (Nat.le_of_ble_eq_true rfl)
      (Nat.le_of_ble_eq_true rfl)
  have r11_0 : bits wd 11 0 = csr.toNat := read _ he hf 3 (Nat.le_of_ble_eq_true rfl)
      (Nat.le_of_ble_eq_true rfl)
  change dec_csrx wd = _
  unfold dec_csrx
  rw [r22_18, r17_13, r12_12, r11_0]
  exact checked_ok (ok_csrx csr hw) (by simp only [fin_back, bv_back])

theorem trap imm : Statement (.trap imm) := by
  have h1 : 0 < 2 ^ 5 := (by decide : 0 < 2 ^ 5)
  have h2 : 0 < 2 ^ 5 := (by decide : 0 < 2 ^ 5)
  have h3 : imm.toNat < 2 ^ 13 := (imm.isLt : imm.toNat < 2 ^ 13)
  have hf : Fits [(5, 0), (5, 0), (13, imm.toNat)] :=
    ⟨h1, h2, h3, trivial⟩
  refine of_fields 97 _ rfl (by decide) hf rfl fun lone hw acc0 wd he => ?_
  have r22_18 : bits wd 22 18 = 0 := read _ he hf 0 (Nat.le_of_ble_eq_true rfl)
      (Nat.le_of_ble_eq_true rfl)
  have r17_13 : bits wd 17 13 = 0 := read _ he hf 1 (Nat.le_of_ble_eq_true rfl)
      (Nat.le_of_ble_eq_true rfl)
  have r12_0 : bits wd 12 0 = imm.toNat := read _ he hf 2 (Nat.le_of_ble_eq_true rfl)
      (Nat.le_of_ble_eq_true rfl)
  change dec_trap lone wd = _
  unfold dec_trap
  rw [r22_18, r17_13, r12_0]
  exact checked_ok (ok_trap lone hw) (by simp only [bv_back])

theorem eret : Statement (.eret) := by
  have h1 : 0 < 2 ^ 5 := (by decide : 0 < 2 ^ 5)
  have h2 : 0 < 2 ^ 5 := (by decide : 0 < 2 ^ 5)
  have h3 : 0 < 2 ^ 5 := (by decide : 0 < 2 ^ 5)
  have h4 : 0 < 2 ^ 8 := (by decide : 0 < 2 ^ 8)
  have hf : Fits [(5, 0), (5, 0), (5, 0), (8, 0)] :=
    ⟨h1, h2, h3, h4, trivial⟩
  refine of_fields 98 _ rfl (by decide) hf rfl fun lone hw acc0 wd he => ?_
  have r22_18 : bits wd 22 18 = 0 := read _ he hf 0 (Nat.le_of_ble_eq_true rfl)
      (Nat.le_of_ble_eq_true rfl)
  have r17_13 : bits wd 17 13 = 0 := read _ he hf 1 (Nat.le_of_ble_eq_true rfl)
      (Nat.le_of_ble_eq_true rfl)
  have r12_8 : bits wd 12 8 = 0 := read _ he hf 2 (Nat.le_of_ble_eq_true rfl)
      (Nat.le_of_ble_eq_true rfl)
  have r7_0 : bits wd 7 0 = 0 := read _ he hf 3 (Nat.le_of_ble_eq_true rfl)
      (Nat.le_of_ble_eq_true rfl)
  change dec_eret lone wd = _
  unfold dec_eret
  rw [r22_18, r17_13, r12_8, r7_0]
  exact checked_ok (ok_eret lone hw) rfl

theorem plbinvPage a sc : Statement (.plbinvPage a sc) := by
  have h1 : 0 < 2 ^ 5 := (by decide : 0 < 2 ^ 5)
  have h2 : a.val < 2 ^ 5 := (a.isLt : a.val < 2 ^ 5)
  have h3 : 0 < 2 ^ 5 := (by decide : 0 < 2 ^ 5)
  have h4 : 0 < 2 ^ 2 := (by decide : 0 < 2 ^ 2)
  have h5 : sc.code < 2 ^ 3 := (scope_lt sc)
  have h6 : 0 < 2 ^ 3 := (by decide : 0 < 2 ^ 3)
  have hf : Fits [(5, 0), (5, a.val), (5, 0), (2, 0), (3, sc.code), (3, 0)] :=
    ⟨h1, h2, h3, h4, h5, h6, trivial⟩
  refine of_fields 99 _ rfl (by decide) hf rfl fun lone hw acc0 wd he => ?_
  have r22_18 : bits wd 22 18 = 0 := read _ he hf 0 (Nat.le_of_ble_eq_true rfl)
      (Nat.le_of_ble_eq_true rfl)
  have r17_13 : bits wd 17 13 = a.val := read _ he hf 1 (Nat.le_of_ble_eq_true rfl)
      (Nat.le_of_ble_eq_true rfl)
  have r12_8 : bits wd 12 8 = 0 := read _ he hf 2 (Nat.le_of_ble_eq_true rfl)
      (Nat.le_of_ble_eq_true rfl)
  have r7_6 : bits wd 7 6 = 0 := read _ he hf 3 (Nat.le_of_ble_eq_true rfl)
      (Nat.le_of_ble_eq_true rfl)
  have r5_3 : bits wd 5 3 = sc.code := read _ he hf 4 (Nat.le_of_ble_eq_true rfl)
      (Nat.le_of_ble_eq_true rfl)
  have r2_0 : bits wd 2 0 = 0 := read _ he hf 5 (Nat.le_of_ble_eq_true rfl)
      (Nat.le_of_ble_eq_true rfl)
  change (if bits wd 2 0 = 1 then dec_plbinvDom wd else if bits wd 2 0 = 2 then dec_plbinvVf wd else dec_plbinvPage wd) = _
  rw [r2_0]
  change dec_plbinvPage wd = _
  unfold dec_plbinvPage
  rw [r22_18, r17_13, r12_8, r7_6, r5_3, r2_0]
  exact checked_ok (ok_plbinvPage sc hw) (by simp only [fin_back, scope_back])

theorem plbinvDom a sc : Statement (.plbinvDom a sc) := by
  have h1 : 0 < 2 ^ 5 := (by decide : 0 < 2 ^ 5)
  have h2 : a.val < 2 ^ 5 := (a.isLt : a.val < 2 ^ 5)
  have h3 : 0 < 2 ^ 5 := (by decide : 0 < 2 ^ 5)
  have h4 : 0 < 2 ^ 2 := (by decide : 0 < 2 ^ 2)
  have h5 : sc.code < 2 ^ 3 := (scope_lt sc)
  have h6 : 1 < 2 ^ 3 := (by decide : 1 < 2 ^ 3)
  have hf : Fits [(5, 0), (5, a.val), (5, 0), (2, 0), (3, sc.code), (3, 1)] :=
    ⟨h1, h2, h3, h4, h5, h6, trivial⟩
  refine of_fields 99 _ rfl (by decide) hf rfl fun lone hw acc0 wd he => ?_
  have r22_18 : bits wd 22 18 = 0 := read _ he hf 0 (Nat.le_of_ble_eq_true rfl)
      (Nat.le_of_ble_eq_true rfl)
  have r17_13 : bits wd 17 13 = a.val := read _ he hf 1 (Nat.le_of_ble_eq_true rfl)
      (Nat.le_of_ble_eq_true rfl)
  have r12_8 : bits wd 12 8 = 0 := read _ he hf 2 (Nat.le_of_ble_eq_true rfl)
      (Nat.le_of_ble_eq_true rfl)
  have r7_6 : bits wd 7 6 = 0 := read _ he hf 3 (Nat.le_of_ble_eq_true rfl)
      (Nat.le_of_ble_eq_true rfl)
  have r5_3 : bits wd 5 3 = sc.code := read _ he hf 4 (Nat.le_of_ble_eq_true rfl)
      (Nat.le_of_ble_eq_true rfl)
  have r2_0 : bits wd 2 0 = 1 := read _ he hf 5 (Nat.le_of_ble_eq_true rfl)
      (Nat.le_of_ble_eq_true rfl)
  change (if bits wd 2 0 = 1 then dec_plbinvDom wd else if bits wd 2 0 = 2 then dec_plbinvVf wd else dec_plbinvPage wd) = _
  rw [r2_0]
  change dec_plbinvDom wd = _
  unfold dec_plbinvDom
  rw [r22_18, r17_13, r12_8, r7_6, r5_3]
  exact checked_ok (ok_plbinvDom sc hw) (by simp only [fin_back, scope_back])

theorem plbinvVf sc : Statement (.plbinvVf sc) := by
  have h1 : 0 < 2 ^ 5 := (by decide : 0 < 2 ^ 5)
  have h2 : 0 < 2 ^ 5 := (by decide : 0 < 2 ^ 5)
  have h3 : 0 < 2 ^ 5 := (by decide : 0 < 2 ^ 5)
  have h4 : 0 < 2 ^ 2 := (by decide : 0 < 2 ^ 2)
  have h5 : sc.code < 2 ^ 3 := (scope_lt sc)
  have h6 : 2 < 2 ^ 3 := (by decide : 2 < 2 ^ 3)
  have hf : Fits [(5, 0), (5, 0), (5, 0), (2, 0), (3, sc.code), (3, 2)] :=
    ⟨h1, h2, h3, h4, h5, h6, trivial⟩
  refine of_fields 99 _ rfl (by decide) hf rfl fun lone hw acc0 wd he => ?_
  have r22_18 : bits wd 22 18 = 0 := read _ he hf 0 (Nat.le_of_ble_eq_true rfl)
      (Nat.le_of_ble_eq_true rfl)
  have r17_13 : bits wd 17 13 = 0 := read _ he hf 1 (Nat.le_of_ble_eq_true rfl)
      (Nat.le_of_ble_eq_true rfl)
  have r12_8 : bits wd 12 8 = 0 := read _ he hf 2 (Nat.le_of_ble_eq_true rfl)
      (Nat.le_of_ble_eq_true rfl)
  have r7_6 : bits wd 7 6 = 0 := read _ he hf 3 (Nat.le_of_ble_eq_true rfl)
      (Nat.le_of_ble_eq_true rfl)
  have r5_3 : bits wd 5 3 = sc.code := read _ he hf 4 (Nat.le_of_ble_eq_true rfl)
      (Nat.le_of_ble_eq_true rfl)
  have r2_0 : bits wd 2 0 = 2 := read _ he hf 5 (Nat.le_of_ble_eq_true rfl)
      (Nat.le_of_ble_eq_true rfl)
  change (if bits wd 2 0 = 1 then dec_plbinvDom wd else if bits wd 2 0 = 2 then dec_plbinvVf wd else dec_plbinvPage wd) = _
  rw [r2_0]
  change dec_plbinvVf wd = _
  unfold dec_plbinvVf
  rw [r22_18, r17_13, r12_8, r7_6, r5_3]
  exact checked_ok (ok_plbinvVf sc hw) (by simp only [scope_back])

theorem cflushCode a b sc : Statement (.cflushCode a b sc) := by
  have h1 : 0 < 2 ^ 5 := (by decide : 0 < 2 ^ 5)
  have h2 : a.val < 2 ^ 5 := (a.isLt : a.val < 2 ^ 5)
  have h3 : b.val < 2 ^ 5 := (b.isLt : b.val < 2 ^ 5)
  have h4 : 0 < 2 ^ 2 := (by decide : 0 < 2 ^ 2)
  have h5 : sc.code < 2 ^ 3 := (scope_lt sc)
  have h6 : 0 < 2 ^ 3 := (by decide : 0 < 2 ^ 3)
  have hf : Fits [(5, 0), (5, a.val), (5, b.val), (2, 0), (3, sc.code), (3, 0)] :=
    ⟨h1, h2, h3, h4, h5, h6, trivial⟩
  refine of_fields 100 _ rfl (by decide) hf rfl fun lone hw acc0 wd he => ?_
  have r22_18 : bits wd 22 18 = 0 := read _ he hf 0 (Nat.le_of_ble_eq_true rfl)
      (Nat.le_of_ble_eq_true rfl)
  have r17_13 : bits wd 17 13 = a.val := read _ he hf 1 (Nat.le_of_ble_eq_true rfl)
      (Nat.le_of_ble_eq_true rfl)
  have r12_8 : bits wd 12 8 = b.val := read _ he hf 2 (Nat.le_of_ble_eq_true rfl)
      (Nat.le_of_ble_eq_true rfl)
  have r7_6 : bits wd 7 6 = 0 := read _ he hf 3 (Nat.le_of_ble_eq_true rfl)
      (Nat.le_of_ble_eq_true rfl)
  have r5_3 : bits wd 5 3 = sc.code := read _ he hf 4 (Nat.le_of_ble_eq_true rfl)
      (Nat.le_of_ble_eq_true rfl)
  have r2_0 : bits wd 2 0 = 0 := read _ he hf 5 (Nat.le_of_ble_eq_true rfl)
      (Nat.le_of_ble_eq_true rfl)
  change (if bits wd 2 0 = 1 then dec_cflushWb wd else if bits wd 2 0 = 2 then dec_cflushInv wd else dec_cflushCode wd) = _
  rw [r2_0]
  change dec_cflushCode wd = _
  unfold dec_cflushCode
  rw [r22_18, r17_13, r12_8, r7_6, r5_3, r2_0]
  exact checked_ok (ok_cflushCode sc hw) (by simp only [fin_back, scope_back])

theorem cflushWb a b : Statement (.cflushWb a b) := by
  have h1 : 0 < 2 ^ 5 := (by decide : 0 < 2 ^ 5)
  have h2 : a.val < 2 ^ 5 := (a.isLt : a.val < 2 ^ 5)
  have h3 : b.val < 2 ^ 5 := (b.isLt : b.val < 2 ^ 5)
  have h4 : 0 < 2 ^ 2 := (by decide : 0 < 2 ^ 2)
  have h5 : 0 < 2 ^ 3 := (by decide : 0 < 2 ^ 3)
  have h6 : 1 < 2 ^ 3 := (by decide : 1 < 2 ^ 3)
  have hf : Fits [(5, 0), (5, a.val), (5, b.val), (2, 0), (3, 0), (3, 1)] :=
    ⟨h1, h2, h3, h4, h5, h6, trivial⟩
  refine of_fields 100 _ rfl (by decide) hf rfl fun lone hw acc0 wd he => ?_
  have r22_18 : bits wd 22 18 = 0 := read _ he hf 0 (Nat.le_of_ble_eq_true rfl)
      (Nat.le_of_ble_eq_true rfl)
  have r17_13 : bits wd 17 13 = a.val := read _ he hf 1 (Nat.le_of_ble_eq_true rfl)
      (Nat.le_of_ble_eq_true rfl)
  have r12_8 : bits wd 12 8 = b.val := read _ he hf 2 (Nat.le_of_ble_eq_true rfl)
      (Nat.le_of_ble_eq_true rfl)
  have r7_6 : bits wd 7 6 = 0 := read _ he hf 3 (Nat.le_of_ble_eq_true rfl)
      (Nat.le_of_ble_eq_true rfl)
  have r5_3 : bits wd 5 3 = 0 := read _ he hf 4 (Nat.le_of_ble_eq_true rfl)
      (Nat.le_of_ble_eq_true rfl)
  have r2_0 : bits wd 2 0 = 1 := read _ he hf 5 (Nat.le_of_ble_eq_true rfl)
      (Nat.le_of_ble_eq_true rfl)
  change (if bits wd 2 0 = 1 then dec_cflushWb wd else if bits wd 2 0 = 2 then dec_cflushInv wd else dec_cflushCode wd) = _
  rw [r2_0]
  change dec_cflushWb wd = _
  unfold dec_cflushWb
  rw [r22_18, r17_13, r12_8, r7_6, r5_3]
  exact checked_ok (rfl) (by simp only [fin_back])

theorem cflushInv a b : Statement (.cflushInv a b) := by
  have h1 : 0 < 2 ^ 5 := (by decide : 0 < 2 ^ 5)
  have h2 : a.val < 2 ^ 5 := (a.isLt : a.val < 2 ^ 5)
  have h3 : b.val < 2 ^ 5 := (b.isLt : b.val < 2 ^ 5)
  have h4 : 0 < 2 ^ 2 := (by decide : 0 < 2 ^ 2)
  have h5 : 0 < 2 ^ 3 := (by decide : 0 < 2 ^ 3)
  have h6 : 2 < 2 ^ 3 := (by decide : 2 < 2 ^ 3)
  have hf : Fits [(5, 0), (5, a.val), (5, b.val), (2, 0), (3, 0), (3, 2)] :=
    ⟨h1, h2, h3, h4, h5, h6, trivial⟩
  refine of_fields 100 _ rfl (by decide) hf rfl fun lone hw acc0 wd he => ?_
  have r22_18 : bits wd 22 18 = 0 := read _ he hf 0 (Nat.le_of_ble_eq_true rfl)
      (Nat.le_of_ble_eq_true rfl)
  have r17_13 : bits wd 17 13 = a.val := read _ he hf 1 (Nat.le_of_ble_eq_true rfl)
      (Nat.le_of_ble_eq_true rfl)
  have r12_8 : bits wd 12 8 = b.val := read _ he hf 2 (Nat.le_of_ble_eq_true rfl)
      (Nat.le_of_ble_eq_true rfl)
  have r7_6 : bits wd 7 6 = 0 := read _ he hf 3 (Nat.le_of_ble_eq_true rfl)
      (Nat.le_of_ble_eq_true rfl)
  have r5_3 : bits wd 5 3 = 0 := read _ he hf 4 (Nat.le_of_ble_eq_true rfl)
      (Nat.le_of_ble_eq_true rfl)
  have r2_0 : bits wd 2 0 = 2 := read _ he hf 5 (Nat.le_of_ble_eq_true rfl)
      (Nat.le_of_ble_eq_true rfl)
  change (if bits wd 2 0 = 1 then dec_cflushWb wd else if bits wd 2 0 = 2 then dec_cflushInv wd else dec_cflushCode wd) = _
  rw [r2_0]
  change dec_cflushInv wd = _
  unfold dec_cflushInv
  rw [r22_18, r17_13, r12_8, r7_6, r5_3]
  exact checked_ok (rfl) (by simp only [fin_back])

theorem spart d a imm : Statement (.spart d a imm) := by
  have h1 : d.val < 2 ^ 5 := (d.isLt : d.val < 2 ^ 5)
  have h2 : a.val < 2 ^ 5 := (a.isLt : a.val < 2 ^ 5)
  have h3 : imm.toNat < 2 ^ 13 := (imm.isLt : imm.toNat < 2 ^ 13)
  have hf : Fits [(5, d.val), (5, a.val), (13, imm.toNat)] :=
    ⟨h1, h2, h3, trivial⟩
  refine of_fields 101 _ rfl (by decide) hf rfl fun lone hw acc0 wd he => ?_
  have r22_18 : bits wd 22 18 = d.val := read _ he hf 0 (Nat.le_of_ble_eq_true rfl)
      (Nat.le_of_ble_eq_true rfl)
  have r17_13 : bits wd 17 13 = a.val := read _ he hf 1 (Nat.le_of_ble_eq_true rfl)
      (Nat.le_of_ble_eq_true rfl)
  have r12_0 : bits wd 12 0 = imm.toNat := read _ he hf 2 (Nat.le_of_ble_eq_true rfl)
      (Nat.le_of_ble_eq_true rfl)
  change dec_spart wd = _
  unfold dec_spart
  rw [r22_18, r17_13, r12_0]
  exact checked_ok (rfl) (by simp only [fin_back, bv_back])

theorem ctxsave d a : Statement (.ctxsave d a) := by
  have h1 : d.val < 2 ^ 5 := (d.isLt : d.val < 2 ^ 5)
  have h2 : a.val < 2 ^ 5 := (a.isLt : a.val < 2 ^ 5)
  have h3 : 0 < 2 ^ 5 := (by decide : 0 < 2 ^ 5)
  have h4 : 0 < 2 ^ 8 := (by decide : 0 < 2 ^ 8)
  have hf : Fits [(5, d.val), (5, a.val), (5, 0), (8, 0)] :=
    ⟨h1, h2, h3, h4, trivial⟩
  refine of_fields 102 _ rfl (by decide) hf rfl fun lone hw acc0 wd he => ?_
  have r22_18 : bits wd 22 18 = d.val := read _ he hf 0 (Nat.le_of_ble_eq_true rfl)
      (Nat.le_of_ble_eq_true rfl)
  have r17_13 : bits wd 17 13 = a.val := read _ he hf 1 (Nat.le_of_ble_eq_true rfl)
      (Nat.le_of_ble_eq_true rfl)
  have r12_8 : bits wd 12 8 = 0 := read _ he hf 2 (Nat.le_of_ble_eq_true rfl)
      (Nat.le_of_ble_eq_true rfl)
  have r7_0 : bits wd 7 0 = 0 := read _ he hf 3 (Nat.le_of_ble_eq_true rfl)
      (Nat.le_of_ble_eq_true rfl)
  change dec_ctxsave wd = _
  unfold dec_ctxsave
  rw [r22_18, r17_13, r12_8, r7_0]
  exact checked_ok (rfl) (by simp only [fin_back])

theorem ctxload d a : Statement (.ctxload d a) := by
  have h1 : d.val < 2 ^ 5 := (d.isLt : d.val < 2 ^ 5)
  have h2 : a.val < 2 ^ 5 := (a.isLt : a.val < 2 ^ 5)
  have h3 : 0 < 2 ^ 5 := (by decide : 0 < 2 ^ 5)
  have h4 : 0 < 2 ^ 8 := (by decide : 0 < 2 ^ 8)
  have hf : Fits [(5, d.val), (5, a.val), (5, 0), (8, 0)] :=
    ⟨h1, h2, h3, h4, trivial⟩
  refine of_fields 103 _ rfl (by decide) hf rfl fun lone hw acc0 wd he => ?_
  have r22_18 : bits wd 22 18 = d.val := read _ he hf 0 (Nat.le_of_ble_eq_true rfl)
      (Nat.le_of_ble_eq_true rfl)
  have r17_13 : bits wd 17 13 = a.val := read _ he hf 1 (Nat.le_of_ble_eq_true rfl)
      (Nat.le_of_ble_eq_true rfl)
  have r12_8 : bits wd 12 8 = 0 := read _ he hf 2 (Nat.le_of_ble_eq_true rfl)
      (Nat.le_of_ble_eq_true rfl)
  have r7_0 : bits wd 7 0 = 0 := read _ he hf 3 (Nat.le_of_ble_eq_true rfl)
      (Nat.le_of_ble_eq_true rfl)
  change dec_ctxload wd = _
  unfold dec_ctxload
  rw [r22_18, r17_13, r12_8, r7_0]
  exact checked_ok (rfl) (by simp only [fin_back])

theorem anop : Statement (.anop) := by
  have h1 : 0 < 2 ^ 5 := (by decide : 0 < 2 ^ 5)
  have h2 : 0 < 2 ^ 5 := (by decide : 0 < 2 ^ 5)
  have h3 : 0 < 2 ^ 5 := (by decide : 0 < 2 ^ 5)
  have h4 : 0 < 2 ^ 8 := (by decide : 0 < 2 ^ 8)
  have hf : Fits [(5, 0), (5, 0), (5, 0), (8, 0)] :=
    ⟨h1, h2, h3, h4, trivial⟩
  refine of_fields 128 _ rfl (by decide) hf rfl fun lone hw acc0 wd he => ?_
  have r22_18 : bits wd 22 18 = 0 := read _ he hf 0 (Nat.le_of_ble_eq_true rfl)
      (Nat.le_of_ble_eq_true rfl)
  have r17_13 : bits wd 17 13 = 0 := read _ he hf 1 (Nat.le_of_ble_eq_true rfl)
      (Nat.le_of_ble_eq_true rfl)
  have r12_8 : bits wd 12 8 = 0 := read _ he hf 2 (Nat.le_of_ble_eq_true rfl)
      (Nat.le_of_ble_eq_true rfl)
  have r7_0 : bits wd 7 0 = 0 := read _ he hf 3 (Nat.le_of_ble_eq_true rfl)
      (Nat.le_of_ble_eq_true rfl)
  change dec_anop wd = _
  unfold dec_anop
  rw [r22_18, r17_13, r12_8, r7_0]
  exact checked_ok (rfl) rfl

theorem add d a b p : Statement (.add d a b p) := by
  have h1 : d.val < 2 ^ 5 := (d.isLt : d.val < 2 ^ 5)
  have h2 : a.val < 2 ^ 5 := (a.isLt : a.val < 2 ^ 5)
  have h3 : b.val < 2 ^ 5 := (b.isLt : b.val < 2 ^ 5)
  have h4 : 0 < 2 ^ 7 := (by decide : 0 < 2 ^ 7)
  have h5 : b2n p < 2 ^ 1 := (b2n_lt p)
  have hf : Fits [(5, d.val), (5, a.val), (5, b.val), (7, 0), (1, b2n p)] :=
    ⟨h1, h2, h3, h4, h5, trivial⟩
  refine of_fields 129 _ rfl (by decide) hf rfl fun lone hw acc0 wd he => ?_
  have r22_18 : bits wd 22 18 = d.val := read _ he hf 0 (Nat.le_of_ble_eq_true rfl)
      (Nat.le_of_ble_eq_true rfl)
  have r17_13 : bits wd 17 13 = a.val := read _ he hf 1 (Nat.le_of_ble_eq_true rfl)
      (Nat.le_of_ble_eq_true rfl)
  have r12_8 : bits wd 12 8 = b.val := read _ he hf 2 (Nat.le_of_ble_eq_true rfl)
      (Nat.le_of_ble_eq_true rfl)
  have r7_1 : bits wd 7 1 = 0 := read _ he hf 3 (Nat.le_of_ble_eq_true rfl)
      (Nat.le_of_ble_eq_true rfl)
  have r0_0 : bits wd 0 0 = b2n p := read _ he hf 4 (Nat.le_of_ble_eq_true rfl)
      (Nat.le_of_ble_eq_true rfl)
  change dec_add wd = _
  unfold dec_add
  rw [r22_18, r17_13, r12_8, r7_1, r0_0]
  exact checked_ok (rfl) (by simp only [fin_back, bool_back])

theorem sub d a b p : Statement (.sub d a b p) := by
  have h1 : d.val < 2 ^ 5 := (d.isLt : d.val < 2 ^ 5)
  have h2 : a.val < 2 ^ 5 := (a.isLt : a.val < 2 ^ 5)
  have h3 : b.val < 2 ^ 5 := (b.isLt : b.val < 2 ^ 5)
  have h4 : 0 < 2 ^ 7 := (by decide : 0 < 2 ^ 7)
  have h5 : b2n p < 2 ^ 1 := (b2n_lt p)
  have hf : Fits [(5, d.val), (5, a.val), (5, b.val), (7, 0), (1, b2n p)] :=
    ⟨h1, h2, h3, h4, h5, trivial⟩
  refine of_fields 130 _ rfl (by decide) hf rfl fun lone hw acc0 wd he => ?_
  have r22_18 : bits wd 22 18 = d.val := read _ he hf 0 (Nat.le_of_ble_eq_true rfl)
      (Nat.le_of_ble_eq_true rfl)
  have r17_13 : bits wd 17 13 = a.val := read _ he hf 1 (Nat.le_of_ble_eq_true rfl)
      (Nat.le_of_ble_eq_true rfl)
  have r12_8 : bits wd 12 8 = b.val := read _ he hf 2 (Nat.le_of_ble_eq_true rfl)
      (Nat.le_of_ble_eq_true rfl)
  have r7_1 : bits wd 7 1 = 0 := read _ he hf 3 (Nat.le_of_ble_eq_true rfl)
      (Nat.le_of_ble_eq_true rfl)
  have r0_0 : bits wd 0 0 = b2n p := read _ he hf 4 (Nat.le_of_ble_eq_true rfl)
      (Nat.le_of_ble_eq_true rfl)
  change dec_sub wd = _
  unfold dec_sub
  rw [r22_18, r17_13, r12_8, r7_1, r0_0]
  exact checked_ok (rfl) (by simp only [fin_back, bool_back])

theorem addi d a imm : Statement (.addi d a imm) := by
  have h1 : d.val < 2 ^ 5 := (d.isLt : d.val < 2 ^ 5)
  have h2 : a.val < 2 ^ 5 := (a.isLt : a.val < 2 ^ 5)
  have h3 : imm.toNat < 2 ^ 13 := (imm.isLt : imm.toNat < 2 ^ 13)
  have hf : Fits [(5, d.val), (5, a.val), (13, imm.toNat)] :=
    ⟨h1, h2, h3, trivial⟩
  refine of_fields 131 _ rfl (by decide) hf rfl fun lone hw acc0 wd he => ?_
  have r22_18 : bits wd 22 18 = d.val := read _ he hf 0 (Nat.le_of_ble_eq_true rfl)
      (Nat.le_of_ble_eq_true rfl)
  have r17_13 : bits wd 17 13 = a.val := read _ he hf 1 (Nat.le_of_ble_eq_true rfl)
      (Nat.le_of_ble_eq_true rfl)
  have r12_0 : bits wd 12 0 = imm.toNat := read _ he hf 2 (Nat.le_of_ble_eq_true rfl)
      (Nat.le_of_ble_eq_true rfl)
  change dec_addi wd = _
  unfold dec_addi
  rw [r22_18, r17_13, r12_0]
  exact checked_ok (rfl) (by simp only [fin_back, bv_back])

theorem mul d a b : Statement (.mul d a b) := by
  have h1 : d.val < 2 ^ 5 := (d.isLt : d.val < 2 ^ 5)
  have h2 : a.val < 2 ^ 5 := (a.isLt : a.val < 2 ^ 5)
  have h3 : b.val < 2 ^ 5 := (b.isLt : b.val < 2 ^ 5)
  have h4 : 0 < 2 ^ 8 := (by decide : 0 < 2 ^ 8)
  have hf : Fits [(5, d.val), (5, a.val), (5, b.val), (8, 0)] :=
    ⟨h1, h2, h3, h4, trivial⟩
  refine of_fields 132 _ rfl (by decide) hf rfl fun lone hw acc0 wd he => ?_
  have r22_18 : bits wd 22 18 = d.val := read _ he hf 0 (Nat.le_of_ble_eq_true rfl)
      (Nat.le_of_ble_eq_true rfl)
  have r17_13 : bits wd 17 13 = a.val := read _ he hf 1 (Nat.le_of_ble_eq_true rfl)
      (Nat.le_of_ble_eq_true rfl)
  have r12_8 : bits wd 12 8 = b.val := read _ he hf 2 (Nat.le_of_ble_eq_true rfl)
      (Nat.le_of_ble_eq_true rfl)
  have r7_0 : bits wd 7 0 = 0 := read _ he hf 3 (Nat.le_of_ble_eq_true rfl)
      (Nat.le_of_ble_eq_true rfl)
  change dec_mul wd = _
  unfold dec_mul
  rw [r22_18, r17_13, r12_8, r7_0]
  exact checked_ok (rfl) (by simp only [fin_back])

theorem mulh d a b : Statement (.mulh d a b) := by
  have h1 : d.val < 2 ^ 5 := (d.isLt : d.val < 2 ^ 5)
  have h2 : a.val < 2 ^ 5 := (a.isLt : a.val < 2 ^ 5)
  have h3 : b.val < 2 ^ 5 := (b.isLt : b.val < 2 ^ 5)
  have h4 : 0 < 2 ^ 8 := (by decide : 0 < 2 ^ 8)
  have hf : Fits [(5, d.val), (5, a.val), (5, b.val), (8, 0)] :=
    ⟨h1, h2, h3, h4, trivial⟩
  refine of_fields 133 _ rfl (by decide) hf rfl fun lone hw acc0 wd he => ?_
  have r22_18 : bits wd 22 18 = d.val := read _ he hf 0 (Nat.le_of_ble_eq_true rfl)
      (Nat.le_of_ble_eq_true rfl)
  have r17_13 : bits wd 17 13 = a.val := read _ he hf 1 (Nat.le_of_ble_eq_true rfl)
      (Nat.le_of_ble_eq_true rfl)
  have r12_8 : bits wd 12 8 = b.val := read _ he hf 2 (Nat.le_of_ble_eq_true rfl)
      (Nat.le_of_ble_eq_true rfl)
  have r7_0 : bits wd 7 0 = 0 := read _ he hf 3 (Nat.le_of_ble_eq_true rfl)
      (Nat.le_of_ble_eq_true rfl)
  change dec_mulh wd = _
  unfold dec_mulh
  rw [r22_18, r17_13, r12_8, r7_0]
  exact checked_ok (rfl) (by simp only [fin_back])

theorem mulhu d a b : Statement (.mulhu d a b) := by
  have h1 : d.val < 2 ^ 5 := (d.isLt : d.val < 2 ^ 5)
  have h2 : a.val < 2 ^ 5 := (a.isLt : a.val < 2 ^ 5)
  have h3 : b.val < 2 ^ 5 := (b.isLt : b.val < 2 ^ 5)
  have h4 : 0 < 2 ^ 8 := (by decide : 0 < 2 ^ 8)
  have hf : Fits [(5, d.val), (5, a.val), (5, b.val), (8, 0)] :=
    ⟨h1, h2, h3, h4, trivial⟩
  refine of_fields 134 _ rfl (by decide) hf rfl fun lone hw acc0 wd he => ?_
  have r22_18 : bits wd 22 18 = d.val := read _ he hf 0 (Nat.le_of_ble_eq_true rfl)
      (Nat.le_of_ble_eq_true rfl)
  have r17_13 : bits wd 17 13 = a.val := read _ he hf 1 (Nat.le_of_ble_eq_true rfl)
      (Nat.le_of_ble_eq_true rfl)
  have r12_8 : bits wd 12 8 = b.val := read _ he hf 2 (Nat.le_of_ble_eq_true rfl)
      (Nat.le_of_ble_eq_true rfl)
  have r7_0 : bits wd 7 0 = 0 := read _ he hf 3 (Nat.le_of_ble_eq_true rfl)
      (Nat.le_of_ble_eq_true rfl)
  change dec_mulhu wd = _
  unfold dec_mulhu
  rw [r22_18, r17_13, r12_8, r7_0]
  exact checked_ok (rfl) (by simp only [fin_back])

theorem div d a b : Statement (.div d a b) := by
  have h1 : d.val < 2 ^ 5 := (d.isLt : d.val < 2 ^ 5)
  have h2 : a.val < 2 ^ 5 := (a.isLt : a.val < 2 ^ 5)
  have h3 : b.val < 2 ^ 5 := (b.isLt : b.val < 2 ^ 5)
  have h4 : 0 < 2 ^ 8 := (by decide : 0 < 2 ^ 8)
  have hf : Fits [(5, d.val), (5, a.val), (5, b.val), (8, 0)] :=
    ⟨h1, h2, h3, h4, trivial⟩
  refine of_fields 135 _ rfl (by decide) hf rfl fun lone hw acc0 wd he => ?_
  have r22_18 : bits wd 22 18 = d.val := read _ he hf 0 (Nat.le_of_ble_eq_true rfl)
      (Nat.le_of_ble_eq_true rfl)
  have r17_13 : bits wd 17 13 = a.val := read _ he hf 1 (Nat.le_of_ble_eq_true rfl)
      (Nat.le_of_ble_eq_true rfl)
  have r12_8 : bits wd 12 8 = b.val := read _ he hf 2 (Nat.le_of_ble_eq_true rfl)
      (Nat.le_of_ble_eq_true rfl)
  have r7_0 : bits wd 7 0 = 0 := read _ he hf 3 (Nat.le_of_ble_eq_true rfl)
      (Nat.le_of_ble_eq_true rfl)
  change dec_div wd = _
  unfold dec_div
  rw [r22_18, r17_13, r12_8, r7_0]
  exact checked_ok (rfl) (by simp only [fin_back])

theorem divu d a b : Statement (.divu d a b) := by
  have h1 : d.val < 2 ^ 5 := (d.isLt : d.val < 2 ^ 5)
  have h2 : a.val < 2 ^ 5 := (a.isLt : a.val < 2 ^ 5)
  have h3 : b.val < 2 ^ 5 := (b.isLt : b.val < 2 ^ 5)
  have h4 : 0 < 2 ^ 8 := (by decide : 0 < 2 ^ 8)
  have hf : Fits [(5, d.val), (5, a.val), (5, b.val), (8, 0)] :=
    ⟨h1, h2, h3, h4, trivial⟩
  refine of_fields 136 _ rfl (by decide) hf rfl fun lone hw acc0 wd he => ?_
  have r22_18 : bits wd 22 18 = d.val := read _ he hf 0 (Nat.le_of_ble_eq_true rfl)
      (Nat.le_of_ble_eq_true rfl)
  have r17_13 : bits wd 17 13 = a.val := read _ he hf 1 (Nat.le_of_ble_eq_true rfl)
      (Nat.le_of_ble_eq_true rfl)
  have r12_8 : bits wd 12 8 = b.val := read _ he hf 2 (Nat.le_of_ble_eq_true rfl)
      (Nat.le_of_ble_eq_true rfl)
  have r7_0 : bits wd 7 0 = 0 := read _ he hf 3 (Nat.le_of_ble_eq_true rfl)
      (Nat.le_of_ble_eq_true rfl)
  change dec_divu wd = _
  unfold dec_divu
  rw [r22_18, r17_13, r12_8, r7_0]
  exact checked_ok (rfl) (by simp only [fin_back])

theorem rem d a b : Statement (.rem d a b) := by
  have h1 : d.val < 2 ^ 5 := (d.isLt : d.val < 2 ^ 5)
  have h2 : a.val < 2 ^ 5 := (a.isLt : a.val < 2 ^ 5)
  have h3 : b.val < 2 ^ 5 := (b.isLt : b.val < 2 ^ 5)
  have h4 : 0 < 2 ^ 8 := (by decide : 0 < 2 ^ 8)
  have hf : Fits [(5, d.val), (5, a.val), (5, b.val), (8, 0)] :=
    ⟨h1, h2, h3, h4, trivial⟩
  refine of_fields 137 _ rfl (by decide) hf rfl fun lone hw acc0 wd he => ?_
  have r22_18 : bits wd 22 18 = d.val := read _ he hf 0 (Nat.le_of_ble_eq_true rfl)
      (Nat.le_of_ble_eq_true rfl)
  have r17_13 : bits wd 17 13 = a.val := read _ he hf 1 (Nat.le_of_ble_eq_true rfl)
      (Nat.le_of_ble_eq_true rfl)
  have r12_8 : bits wd 12 8 = b.val := read _ he hf 2 (Nat.le_of_ble_eq_true rfl)
      (Nat.le_of_ble_eq_true rfl)
  have r7_0 : bits wd 7 0 = 0 := read _ he hf 3 (Nat.le_of_ble_eq_true rfl)
      (Nat.le_of_ble_eq_true rfl)
  change dec_rem wd = _
  unfold dec_rem
  rw [r22_18, r17_13, r12_8, r7_0]
  exact checked_ok (rfl) (by simp only [fin_back])

theorem remu d a b : Statement (.remu d a b) := by
  have h1 : d.val < 2 ^ 5 := (d.isLt : d.val < 2 ^ 5)
  have h2 : a.val < 2 ^ 5 := (a.isLt : a.val < 2 ^ 5)
  have h3 : b.val < 2 ^ 5 := (b.isLt : b.val < 2 ^ 5)
  have h4 : 0 < 2 ^ 8 := (by decide : 0 < 2 ^ 8)
  have hf : Fits [(5, d.val), (5, a.val), (5, b.val), (8, 0)] :=
    ⟨h1, h2, h3, h4, trivial⟩
  refine of_fields 138 _ rfl (by decide) hf rfl fun lone hw acc0 wd he => ?_
  have r22_18 : bits wd 22 18 = d.val := read _ he hf 0 (Nat.le_of_ble_eq_true rfl)
      (Nat.le_of_ble_eq_true rfl)
  have r17_13 : bits wd 17 13 = a.val := read _ he hf 1 (Nat.le_of_ble_eq_true rfl)
      (Nat.le_of_ble_eq_true rfl)
  have r12_8 : bits wd 12 8 = b.val := read _ he hf 2 (Nat.le_of_ble_eq_true rfl)
      (Nat.le_of_ble_eq_true rfl)
  have r7_0 : bits wd 7 0 = 0 := read _ he hf 3 (Nat.le_of_ble_eq_true rfl)
      (Nat.le_of_ble_eq_true rfl)
  change dec_remu wd = _
  unfold dec_remu
  rw [r22_18, r17_13, r12_8, r7_0]
  exact checked_ok (rfl) (by simp only [fin_back])

theorem and d a b : Statement (.and d a b) := by
  have h1 : d.val < 2 ^ 5 := (d.isLt : d.val < 2 ^ 5)
  have h2 : a.val < 2 ^ 5 := (a.isLt : a.val < 2 ^ 5)
  have h3 : b.val < 2 ^ 5 := (b.isLt : b.val < 2 ^ 5)
  have h4 : 0 < 2 ^ 8 := (by decide : 0 < 2 ^ 8)
  have hf : Fits [(5, d.val), (5, a.val), (5, b.val), (8, 0)] :=
    ⟨h1, h2, h3, h4, trivial⟩
  refine of_fields 139 _ rfl (by decide) hf rfl fun lone hw acc0 wd he => ?_
  have r22_18 : bits wd 22 18 = d.val := read _ he hf 0 (Nat.le_of_ble_eq_true rfl)
      (Nat.le_of_ble_eq_true rfl)
  have r17_13 : bits wd 17 13 = a.val := read _ he hf 1 (Nat.le_of_ble_eq_true rfl)
      (Nat.le_of_ble_eq_true rfl)
  have r12_8 : bits wd 12 8 = b.val := read _ he hf 2 (Nat.le_of_ble_eq_true rfl)
      (Nat.le_of_ble_eq_true rfl)
  have r7_0 : bits wd 7 0 = 0 := read _ he hf 3 (Nat.le_of_ble_eq_true rfl)
      (Nat.le_of_ble_eq_true rfl)
  change dec_and wd = _
  unfold dec_and
  rw [r22_18, r17_13, r12_8, r7_0]
  exact checked_ok (rfl) (by simp only [fin_back])

theorem or d a b : Statement (.or d a b) := by
  have h1 : d.val < 2 ^ 5 := (d.isLt : d.val < 2 ^ 5)
  have h2 : a.val < 2 ^ 5 := (a.isLt : a.val < 2 ^ 5)
  have h3 : b.val < 2 ^ 5 := (b.isLt : b.val < 2 ^ 5)
  have h4 : 0 < 2 ^ 8 := (by decide : 0 < 2 ^ 8)
  have hf : Fits [(5, d.val), (5, a.val), (5, b.val), (8, 0)] :=
    ⟨h1, h2, h3, h4, trivial⟩
  refine of_fields 140 _ rfl (by decide) hf rfl fun lone hw acc0 wd he => ?_
  have r22_18 : bits wd 22 18 = d.val := read _ he hf 0 (Nat.le_of_ble_eq_true rfl)
      (Nat.le_of_ble_eq_true rfl)
  have r17_13 : bits wd 17 13 = a.val := read _ he hf 1 (Nat.le_of_ble_eq_true rfl)
      (Nat.le_of_ble_eq_true rfl)
  have r12_8 : bits wd 12 8 = b.val := read _ he hf 2 (Nat.le_of_ble_eq_true rfl)
      (Nat.le_of_ble_eq_true rfl)
  have r7_0 : bits wd 7 0 = 0 := read _ he hf 3 (Nat.le_of_ble_eq_true rfl)
      (Nat.le_of_ble_eq_true rfl)
  change dec_or wd = _
  unfold dec_or
  rw [r22_18, r17_13, r12_8, r7_0]
  exact checked_ok (rfl) (by simp only [fin_back])

theorem xor d a b : Statement (.xor d a b) := by
  have h1 : d.val < 2 ^ 5 := (d.isLt : d.val < 2 ^ 5)
  have h2 : a.val < 2 ^ 5 := (a.isLt : a.val < 2 ^ 5)
  have h3 : b.val < 2 ^ 5 := (b.isLt : b.val < 2 ^ 5)
  have h4 : 0 < 2 ^ 8 := (by decide : 0 < 2 ^ 8)
  have hf : Fits [(5, d.val), (5, a.val), (5, b.val), (8, 0)] :=
    ⟨h1, h2, h3, h4, trivial⟩
  refine of_fields 141 _ rfl (by decide) hf rfl fun lone hw acc0 wd he => ?_
  have r22_18 : bits wd 22 18 = d.val := read _ he hf 0 (Nat.le_of_ble_eq_true rfl)
      (Nat.le_of_ble_eq_true rfl)
  have r17_13 : bits wd 17 13 = a.val := read _ he hf 1 (Nat.le_of_ble_eq_true rfl)
      (Nat.le_of_ble_eq_true rfl)
  have r12_8 : bits wd 12 8 = b.val := read _ he hf 2 (Nat.le_of_ble_eq_true rfl)
      (Nat.le_of_ble_eq_true rfl)
  have r7_0 : bits wd 7 0 = 0 := read _ he hf 3 (Nat.le_of_ble_eq_true rfl)
      (Nat.le_of_ble_eq_true rfl)
  change dec_xor wd = _
  unfold dec_xor
  rw [r22_18, r17_13, r12_8, r7_0]
  exact checked_ok (rfl) (by simp only [fin_back])

theorem andi d a imm : Statement (.andi d a imm) := by
  have h1 : d.val < 2 ^ 5 := (d.isLt : d.val < 2 ^ 5)
  have h2 : a.val < 2 ^ 5 := (a.isLt : a.val < 2 ^ 5)
  have h3 : imm.toNat < 2 ^ 13 := (imm.isLt : imm.toNat < 2 ^ 13)
  have hf : Fits [(5, d.val), (5, a.val), (13, imm.toNat)] :=
    ⟨h1, h2, h3, trivial⟩
  refine of_fields 142 _ rfl (by decide) hf rfl fun lone hw acc0 wd he => ?_
  have r22_18 : bits wd 22 18 = d.val := read _ he hf 0 (Nat.le_of_ble_eq_true rfl)
      (Nat.le_of_ble_eq_true rfl)
  have r17_13 : bits wd 17 13 = a.val := read _ he hf 1 (Nat.le_of_ble_eq_true rfl)
      (Nat.le_of_ble_eq_true rfl)
  have r12_0 : bits wd 12 0 = imm.toNat := read _ he hf 2 (Nat.le_of_ble_eq_true rfl)
      (Nat.le_of_ble_eq_true rfl)
  change dec_andi wd = _
  unfold dec_andi
  rw [r22_18, r17_13, r12_0]
  exact checked_ok (rfl) (by simp only [fin_back, bv_back])

theorem ori d a imm : Statement (.ori d a imm) := by
  have h1 : d.val < 2 ^ 5 := (d.isLt : d.val < 2 ^ 5)
  have h2 : a.val < 2 ^ 5 := (a.isLt : a.val < 2 ^ 5)
  have h3 : imm.toNat < 2 ^ 13 := (imm.isLt : imm.toNat < 2 ^ 13)
  have hf : Fits [(5, d.val), (5, a.val), (13, imm.toNat)] :=
    ⟨h1, h2, h3, trivial⟩
  refine of_fields 143 _ rfl (by decide) hf rfl fun lone hw acc0 wd he => ?_
  have r22_18 : bits wd 22 18 = d.val := read _ he hf 0 (Nat.le_of_ble_eq_true rfl)
      (Nat.le_of_ble_eq_true rfl)
  have r17_13 : bits wd 17 13 = a.val := read _ he hf 1 (Nat.le_of_ble_eq_true rfl)
      (Nat.le_of_ble_eq_true rfl)
  have r12_0 : bits wd 12 0 = imm.toNat := read _ he hf 2 (Nat.le_of_ble_eq_true rfl)
      (Nat.le_of_ble_eq_true rfl)
  change dec_ori wd = _
  unfold dec_ori
  rw [r22_18, r17_13, r12_0]
  exact checked_ok (rfl) (by simp only [fin_back, bv_back])

theorem xori d a imm : Statement (.xori d a imm) := by
  have h1 : d.val < 2 ^ 5 := (d.isLt : d.val < 2 ^ 5)
  have h2 : a.val < 2 ^ 5 := (a.isLt : a.val < 2 ^ 5)
  have h3 : imm.toNat < 2 ^ 13 := (imm.isLt : imm.toNat < 2 ^ 13)
  have hf : Fits [(5, d.val), (5, a.val), (13, imm.toNat)] :=
    ⟨h1, h2, h3, trivial⟩
  refine of_fields 144 _ rfl (by decide) hf rfl fun lone hw acc0 wd he => ?_
  have r22_18 : bits wd 22 18 = d.val := read _ he hf 0 (Nat.le_of_ble_eq_true rfl)
      (Nat.le_of_ble_eq_true rfl)
  have r17_13 : bits wd 17 13 = a.val := read _ he hf 1 (Nat.le_of_ble_eq_true rfl)
      (Nat.le_of_ble_eq_true rfl)
  have r12_0 : bits wd 12 0 = imm.toNat := read _ he hf 2 (Nat.le_of_ble_eq_true rfl)
      (Nat.le_of_ble_eq_true rfl)
  change dec_xori wd = _
  unfold dec_xori
  rw [r22_18, r17_13, r12_0]
  exact checked_ok (rfl) (by simp only [fin_back, bv_back])

theorem shl d a b : Statement (.shl d a b) := by
  have h1 : d.val < 2 ^ 5 := (d.isLt : d.val < 2 ^ 5)
  have h2 : a.val < 2 ^ 5 := (a.isLt : a.val < 2 ^ 5)
  have h3 : b.val < 2 ^ 5 := (b.isLt : b.val < 2 ^ 5)
  have h4 : 0 < 2 ^ 8 := (by decide : 0 < 2 ^ 8)
  have hf : Fits [(5, d.val), (5, a.val), (5, b.val), (8, 0)] :=
    ⟨h1, h2, h3, h4, trivial⟩
  refine of_fields 145 _ rfl (by decide) hf rfl fun lone hw acc0 wd he => ?_
  have r22_18 : bits wd 22 18 = d.val := read _ he hf 0 (Nat.le_of_ble_eq_true rfl)
      (Nat.le_of_ble_eq_true rfl)
  have r17_13 : bits wd 17 13 = a.val := read _ he hf 1 (Nat.le_of_ble_eq_true rfl)
      (Nat.le_of_ble_eq_true rfl)
  have r12_8 : bits wd 12 8 = b.val := read _ he hf 2 (Nat.le_of_ble_eq_true rfl)
      (Nat.le_of_ble_eq_true rfl)
  have r7_0 : bits wd 7 0 = 0 := read _ he hf 3 (Nat.le_of_ble_eq_true rfl)
      (Nat.le_of_ble_eq_true rfl)
  change dec_shl wd = _
  unfold dec_shl
  rw [r22_18, r17_13, r12_8, r7_0]
  exact checked_ok (rfl) (by simp only [fin_back])

theorem shr d a b : Statement (.shr d a b) := by
  have h1 : d.val < 2 ^ 5 := (d.isLt : d.val < 2 ^ 5)
  have h2 : a.val < 2 ^ 5 := (a.isLt : a.val < 2 ^ 5)
  have h3 : b.val < 2 ^ 5 := (b.isLt : b.val < 2 ^ 5)
  have h4 : 0 < 2 ^ 8 := (by decide : 0 < 2 ^ 8)
  have hf : Fits [(5, d.val), (5, a.val), (5, b.val), (8, 0)] :=
    ⟨h1, h2, h3, h4, trivial⟩
  refine of_fields 146 _ rfl (by decide) hf rfl fun lone hw acc0 wd he => ?_
  have r22_18 : bits wd 22 18 = d.val := read _ he hf 0 (Nat.le_of_ble_eq_true rfl)
      (Nat.le_of_ble_eq_true rfl)
  have r17_13 : bits wd 17 13 = a.val := read _ he hf 1 (Nat.le_of_ble_eq_true rfl)
      (Nat.le_of_ble_eq_true rfl)
  have r12_8 : bits wd 12 8 = b.val := read _ he hf 2 (Nat.le_of_ble_eq_true rfl)
      (Nat.le_of_ble_eq_true rfl)
  have r7_0 : bits wd 7 0 = 0 := read _ he hf 3 (Nat.le_of_ble_eq_true rfl)
      (Nat.le_of_ble_eq_true rfl)
  change dec_shr wd = _
  unfold dec_shr
  rw [r22_18, r17_13, r12_8, r7_0]
  exact checked_ok (rfl) (by simp only [fin_back])

theorem sar d a b : Statement (.sar d a b) := by
  have h1 : d.val < 2 ^ 5 := (d.isLt : d.val < 2 ^ 5)
  have h2 : a.val < 2 ^ 5 := (a.isLt : a.val < 2 ^ 5)
  have h3 : b.val < 2 ^ 5 := (b.isLt : b.val < 2 ^ 5)
  have h4 : 0 < 2 ^ 8 := (by decide : 0 < 2 ^ 8)
  have hf : Fits [(5, d.val), (5, a.val), (5, b.val), (8, 0)] :=
    ⟨h1, h2, h3, h4, trivial⟩
  refine of_fields 147 _ rfl (by decide) hf rfl fun lone hw acc0 wd he => ?_
  have r22_18 : bits wd 22 18 = d.val := read _ he hf 0 (Nat.le_of_ble_eq_true rfl)
      (Nat.le_of_ble_eq_true rfl)
  have r17_13 : bits wd 17 13 = a.val := read _ he hf 1 (Nat.le_of_ble_eq_true rfl)
      (Nat.le_of_ble_eq_true rfl)
  have r12_8 : bits wd 12 8 = b.val := read _ he hf 2 (Nat.le_of_ble_eq_true rfl)
      (Nat.le_of_ble_eq_true rfl)
  have r7_0 : bits wd 7 0 = 0 := read _ he hf 3 (Nat.le_of_ble_eq_true rfl)
      (Nat.le_of_ble_eq_true rfl)
  change dec_sar wd = _
  unfold dec_sar
  rw [r22_18, r17_13, r12_8, r7_0]
  exact checked_ok (rfl) (by simp only [fin_back])

theorem shli d a sh : Statement (.shli d a sh) := by
  have h1 : d.val < 2 ^ 5 := (d.isLt : d.val < 2 ^ 5)
  have h2 : a.val < 2 ^ 5 := (a.isLt : a.val < 2 ^ 5)
  have h3 : 0 < 2 ^ 7 := (by decide : 0 < 2 ^ 7)
  have h4 : sh.toNat < 2 ^ 6 := (sh.isLt : sh.toNat < 2 ^ 6)
  have hf : Fits [(5, d.val), (5, a.val), (7, 0), (6, sh.toNat)] :=
    ⟨h1, h2, h3, h4, trivial⟩
  refine of_fields 148 _ rfl (by decide) hf rfl fun lone hw acc0 wd he => ?_
  have r22_18 : bits wd 22 18 = d.val := read _ he hf 0 (Nat.le_of_ble_eq_true rfl)
      (Nat.le_of_ble_eq_true rfl)
  have r17_13 : bits wd 17 13 = a.val := read _ he hf 1 (Nat.le_of_ble_eq_true rfl)
      (Nat.le_of_ble_eq_true rfl)
  have r12_6 : bits wd 12 6 = 0 := read _ he hf 2 (Nat.le_of_ble_eq_true rfl)
      (Nat.le_of_ble_eq_true rfl)
  have r5_0 : bits wd 5 0 = sh.toNat := read _ he hf 3 (Nat.le_of_ble_eq_true rfl)
      (Nat.le_of_ble_eq_true rfl)
  change dec_shli wd = _
  unfold dec_shli
  rw [r22_18, r17_13, r12_6, r5_0]
  exact checked_ok (rfl) (by simp only [fin_back, bv_back])

theorem shri d a sh : Statement (.shri d a sh) := by
  have h1 : d.val < 2 ^ 5 := (d.isLt : d.val < 2 ^ 5)
  have h2 : a.val < 2 ^ 5 := (a.isLt : a.val < 2 ^ 5)
  have h3 : 0 < 2 ^ 7 := (by decide : 0 < 2 ^ 7)
  have h4 : sh.toNat < 2 ^ 6 := (sh.isLt : sh.toNat < 2 ^ 6)
  have hf : Fits [(5, d.val), (5, a.val), (7, 0), (6, sh.toNat)] :=
    ⟨h1, h2, h3, h4, trivial⟩
  refine of_fields 149 _ rfl (by decide) hf rfl fun lone hw acc0 wd he => ?_
  have r22_18 : bits wd 22 18 = d.val := read _ he hf 0 (Nat.le_of_ble_eq_true rfl)
      (Nat.le_of_ble_eq_true rfl)
  have r17_13 : bits wd 17 13 = a.val := read _ he hf 1 (Nat.le_of_ble_eq_true rfl)
      (Nat.le_of_ble_eq_true rfl)
  have r12_6 : bits wd 12 6 = 0 := read _ he hf 2 (Nat.le_of_ble_eq_true rfl)
      (Nat.le_of_ble_eq_true rfl)
  have r5_0 : bits wd 5 0 = sh.toNat := read _ he hf 3 (Nat.le_of_ble_eq_true rfl)
      (Nat.le_of_ble_eq_true rfl)
  change dec_shri wd = _
  unfold dec_shri
  rw [r22_18, r17_13, r12_6, r5_0]
  exact checked_ok (rfl) (by simp only [fin_back, bv_back])

theorem sari d a sh : Statement (.sari d a sh) := by
  have h1 : d.val < 2 ^ 5 := (d.isLt : d.val < 2 ^ 5)
  have h2 : a.val < 2 ^ 5 := (a.isLt : a.val < 2 ^ 5)
  have h3 : 0 < 2 ^ 7 := (by decide : 0 < 2 ^ 7)
  have h4 : sh.toNat < 2 ^ 6 := (sh.isLt : sh.toNat < 2 ^ 6)
  have hf : Fits [(5, d.val), (5, a.val), (7, 0), (6, sh.toNat)] :=
    ⟨h1, h2, h3, h4, trivial⟩
  refine of_fields 150 _ rfl (by decide) hf rfl fun lone hw acc0 wd he => ?_
  have r22_18 : bits wd 22 18 = d.val := read _ he hf 0 (Nat.le_of_ble_eq_true rfl)
      (Nat.le_of_ble_eq_true rfl)
  have r17_13 : bits wd 17 13 = a.val := read _ he hf 1 (Nat.le_of_ble_eq_true rfl)
      (Nat.le_of_ble_eq_true rfl)
  have r12_6 : bits wd 12 6 = 0 := read _ he hf 2 (Nat.le_of_ble_eq_true rfl)
      (Nat.le_of_ble_eq_true rfl)
  have r5_0 : bits wd 5 0 = sh.toNat := read _ he hf 3 (Nat.le_of_ble_eq_true rfl)
      (Nat.le_of_ble_eq_true rfl)
  change dec_sari wd = _
  unfold dec_sari
  rw [r22_18, r17_13, r12_6, r5_0]
  exact checked_ok (rfl) (by simp only [fin_back, bv_back])

theorem limm d sel imm : Statement (.limm d sel imm) := by
  have h1 : d.val < 2 ^ 5 := (d.isLt : d.val < 2 ^ 5)
  have h2 : sel.toNat < 2 ^ 2 := (sel.isLt : sel.toNat < 2 ^ 2)
  have h3 : imm.toNat < 2 ^ 16 := (imm.isLt : imm.toNat < 2 ^ 16)
  have hf : Fits [(5, d.val), (2, sel.toNat), (16, imm.toNat)] :=
    ⟨h1, h2, h3, trivial⟩
  refine of_fields 151 _ rfl (by decide) hf rfl fun lone hw acc0 wd he => ?_
  have r22_18 : bits wd 22 18 = d.val := read _ he hf 0 (Nat.le_of_ble_eq_true rfl)
      (Nat.le_of_ble_eq_true rfl)
  have r17_16 : bits wd 17 16 = sel.toNat := read _ he hf 1 (Nat.le_of_ble_eq_true rfl)
      (Nat.le_of_ble_eq_true rfl)
  have r15_0 : bits wd 15 0 = imm.toNat := read _ he hf 2 (Nat.le_of_ble_eq_true rfl)
      (Nat.le_of_ble_eq_true rfl)
  change dec_limm wd = _
  unfold dec_limm
  rw [r22_18, r17_16, r15_0]
  exact checked_ok (rfl) (by simp only [fin_back, bv_back])

theorem slt d a b : Statement (.slt d a b) := by
  have h1 : d.val < 2 ^ 5 := (d.isLt : d.val < 2 ^ 5)
  have h2 : a.val < 2 ^ 5 := (a.isLt : a.val < 2 ^ 5)
  have h3 : b.val < 2 ^ 5 := (b.isLt : b.val < 2 ^ 5)
  have h4 : 0 < 2 ^ 8 := (by decide : 0 < 2 ^ 8)
  have hf : Fits [(5, d.val), (5, a.val), (5, b.val), (8, 0)] :=
    ⟨h1, h2, h3, h4, trivial⟩
  refine of_fields 152 _ rfl (by decide) hf rfl fun lone hw acc0 wd he => ?_
  have r22_18 : bits wd 22 18 = d.val := read _ he hf 0 (Nat.le_of_ble_eq_true rfl)
      (Nat.le_of_ble_eq_true rfl)
  have r17_13 : bits wd 17 13 = a.val := read _ he hf 1 (Nat.le_of_ble_eq_true rfl)
      (Nat.le_of_ble_eq_true rfl)
  have r12_8 : bits wd 12 8 = b.val := read _ he hf 2 (Nat.le_of_ble_eq_true rfl)
      (Nat.le_of_ble_eq_true rfl)
  have r7_0 : bits wd 7 0 = 0 := read _ he hf 3 (Nat.le_of_ble_eq_true rfl)
      (Nat.le_of_ble_eq_true rfl)
  change dec_slt wd = _
  unfold dec_slt
  rw [r22_18, r17_13, r12_8, r7_0]
  exact checked_ok (rfl) (by simp only [fin_back])

theorem sltu d a b : Statement (.sltu d a b) := by
  have h1 : d.val < 2 ^ 5 := (d.isLt : d.val < 2 ^ 5)
  have h2 : a.val < 2 ^ 5 := (a.isLt : a.val < 2 ^ 5)
  have h3 : b.val < 2 ^ 5 := (b.isLt : b.val < 2 ^ 5)
  have h4 : 0 < 2 ^ 8 := (by decide : 0 < 2 ^ 8)
  have hf : Fits [(5, d.val), (5, a.val), (5, b.val), (8, 0)] :=
    ⟨h1, h2, h3, h4, trivial⟩
  refine of_fields 153 _ rfl (by decide) hf rfl fun lone hw acc0 wd he => ?_
  have r22_18 : bits wd 22 18 = d.val := read _ he hf 0 (Nat.le_of_ble_eq_true rfl)
      (Nat.le_of_ble_eq_true rfl)
  have r17_13 : bits wd 17 13 = a.val := read _ he hf 1 (Nat.le_of_ble_eq_true rfl)
      (Nat.le_of_ble_eq_true rfl)
  have r12_8 : bits wd 12 8 = b.val := read _ he hf 2 (Nat.le_of_ble_eq_true rfl)
      (Nat.le_of_ble_eq_true rfl)
  have r7_0 : bits wd 7 0 = 0 := read _ he hf 3 (Nat.le_of_ble_eq_true rfl)
      (Nat.le_of_ble_eq_true rfl)
  change dec_sltu wd = _
  unfold dec_sltu
  rw [r22_18, r17_13, r12_8, r7_0]
  exact checked_ok (rfl) (by simp only [fin_back])

theorem seq d a b : Statement (.seq d a b) := by
  have h1 : d.val < 2 ^ 5 := (d.isLt : d.val < 2 ^ 5)
  have h2 : a.val < 2 ^ 5 := (a.isLt : a.val < 2 ^ 5)
  have h3 : b.val < 2 ^ 5 := (b.isLt : b.val < 2 ^ 5)
  have h4 : 0 < 2 ^ 8 := (by decide : 0 < 2 ^ 8)
  have hf : Fits [(5, d.val), (5, a.val), (5, b.val), (8, 0)] :=
    ⟨h1, h2, h3, h4, trivial⟩
  refine of_fields 154 _ rfl (by decide) hf rfl fun lone hw acc0 wd he => ?_
  have r22_18 : bits wd 22 18 = d.val := read _ he hf 0 (Nat.le_of_ble_eq_true rfl)
      (Nat.le_of_ble_eq_true rfl)
  have r17_13 : bits wd 17 13 = a.val := read _ he hf 1 (Nat.le_of_ble_eq_true rfl)
      (Nat.le_of_ble_eq_true rfl)
  have r12_8 : bits wd 12 8 = b.val := read _ he hf 2 (Nat.le_of_ble_eq_true rfl)
      (Nat.le_of_ble_eq_true rfl)
  have r7_0 : bits wd 7 0 = 0 := read _ he hf 3 (Nat.le_of_ble_eq_true rfl)
      (Nat.le_of_ble_eq_true rfl)
  change dec_seq wd = _
  unfold dec_seq
  rw [r22_18, r17_13, r12_8, r7_0]
  exact checked_ok (rfl) (by simp only [fin_back])

theorem sel d a b : Statement (.sel d a b) := by
  have h1 : d.val < 2 ^ 5 := (d.isLt : d.val < 2 ^ 5)
  have h2 : a.val < 2 ^ 5 := (a.isLt : a.val < 2 ^ 5)
  have h3 : b.val < 2 ^ 5 := (b.isLt : b.val < 2 ^ 5)
  have h4 : 0 < 2 ^ 8 := (by decide : 0 < 2 ^ 8)
  have hf : Fits [(5, d.val), (5, a.val), (5, b.val), (8, 0)] :=
    ⟨h1, h2, h3, h4, trivial⟩
  refine of_fields 155 _ rfl (by decide) hf rfl fun lone hw acc0 wd he => ?_
  have r22_18 : bits wd 22 18 = d.val := read _ he hf 0 (Nat.le_of_ble_eq_true rfl)
      (Nat.le_of_ble_eq_true rfl)
  have r17_13 : bits wd 17 13 = a.val := read _ he hf 1 (Nat.le_of_ble_eq_true rfl)
      (Nat.le_of_ble_eq_true rfl)
  have r12_8 : bits wd 12 8 = b.val := read _ he hf 2 (Nat.le_of_ble_eq_true rfl)
      (Nat.le_of_ble_eq_true rfl)
  have r7_0 : bits wd 7 0 = 0 := read _ he hf 3 (Nat.le_of_ble_eq_true rfl)
      (Nat.le_of_ble_eq_true rfl)
  change dec_sel wd = _
  unfold dec_sel
  rw [r22_18, r17_13, r12_8, r7_0]
  exact checked_ok (rfl) (by simp only [fin_back])

theorem clz d a : Statement (.clz d a) := by
  have h1 : d.val < 2 ^ 5 := (d.isLt : d.val < 2 ^ 5)
  have h2 : a.val < 2 ^ 5 := (a.isLt : a.val < 2 ^ 5)
  have h3 : 0 < 2 ^ 5 := (by decide : 0 < 2 ^ 5)
  have h4 : 0 < 2 ^ 8 := (by decide : 0 < 2 ^ 8)
  have hf : Fits [(5, d.val), (5, a.val), (5, 0), (8, 0)] :=
    ⟨h1, h2, h3, h4, trivial⟩
  refine of_fields 156 _ rfl (by decide) hf rfl fun lone hw acc0 wd he => ?_
  have r22_18 : bits wd 22 18 = d.val := read _ he hf 0 (Nat.le_of_ble_eq_true rfl)
      (Nat.le_of_ble_eq_true rfl)
  have r17_13 : bits wd 17 13 = a.val := read _ he hf 1 (Nat.le_of_ble_eq_true rfl)
      (Nat.le_of_ble_eq_true rfl)
  have r12_8 : bits wd 12 8 = 0 := read _ he hf 2 (Nat.le_of_ble_eq_true rfl)
      (Nat.le_of_ble_eq_true rfl)
  have r7_0 : bits wd 7 0 = 0 := read _ he hf 3 (Nat.le_of_ble_eq_true rfl)
      (Nat.le_of_ble_eq_true rfl)
  change dec_clz wd = _
  unfold dec_clz
  rw [r22_18, r17_13, r12_8, r7_0]
  exact checked_ok (rfl) (by simp only [fin_back])

theorem popc d a : Statement (.popc d a) := by
  have h1 : d.val < 2 ^ 5 := (d.isLt : d.val < 2 ^ 5)
  have h2 : a.val < 2 ^ 5 := (a.isLt : a.val < 2 ^ 5)
  have h3 : 0 < 2 ^ 5 := (by decide : 0 < 2 ^ 5)
  have h4 : 0 < 2 ^ 8 := (by decide : 0 < 2 ^ 8)
  have hf : Fits [(5, d.val), (5, a.val), (5, 0), (8, 0)] :=
    ⟨h1, h2, h3, h4, trivial⟩
  refine of_fields 157 _ rfl (by decide) hf rfl fun lone hw acc0 wd he => ?_
  have r22_18 : bits wd 22 18 = d.val := read _ he hf 0 (Nat.le_of_ble_eq_true rfl)
      (Nat.le_of_ble_eq_true rfl)
  have r17_13 : bits wd 17 13 = a.val := read _ he hf 1 (Nat.le_of_ble_eq_true rfl)
      (Nat.le_of_ble_eq_true rfl)
  have r12_8 : bits wd 12 8 = 0 := read _ he hf 2 (Nat.le_of_ble_eq_true rfl)
      (Nat.le_of_ble_eq_true rfl)
  have r7_0 : bits wd 7 0 = 0 := read _ he hf 3 (Nat.le_of_ble_eq_true rfl)
      (Nat.le_of_ble_eq_true rfl)
  change dec_popc wd = _
  unfold dec_popc
  rw [r22_18, r17_13, r12_8, r7_0]
  exact checked_ok (rfl) (by simp only [fin_back])

theorem min d a b u : Statement (.min d a b u) := by
  have h1 : d.val < 2 ^ 5 := (d.isLt : d.val < 2 ^ 5)
  have h2 : a.val < 2 ^ 5 := (a.isLt : a.val < 2 ^ 5)
  have h3 : b.val < 2 ^ 5 := (b.isLt : b.val < 2 ^ 5)
  have h4 : 0 < 2 ^ 7 := (by decide : 0 < 2 ^ 7)
  have h5 : b2n u < 2 ^ 1 := (b2n_lt u)
  have hf : Fits [(5, d.val), (5, a.val), (5, b.val), (7, 0), (1, b2n u)] :=
    ⟨h1, h2, h3, h4, h5, trivial⟩
  refine of_fields 158 _ rfl (by decide) hf rfl fun lone hw acc0 wd he => ?_
  have r22_18 : bits wd 22 18 = d.val := read _ he hf 0 (Nat.le_of_ble_eq_true rfl)
      (Nat.le_of_ble_eq_true rfl)
  have r17_13 : bits wd 17 13 = a.val := read _ he hf 1 (Nat.le_of_ble_eq_true rfl)
      (Nat.le_of_ble_eq_true rfl)
  have r12_8 : bits wd 12 8 = b.val := read _ he hf 2 (Nat.le_of_ble_eq_true rfl)
      (Nat.le_of_ble_eq_true rfl)
  have r7_1 : bits wd 7 1 = 0 := read _ he hf 3 (Nat.le_of_ble_eq_true rfl)
      (Nat.le_of_ble_eq_true rfl)
  have r0_0 : bits wd 0 0 = b2n u := read _ he hf 4 (Nat.le_of_ble_eq_true rfl)
      (Nat.le_of_ble_eq_true rfl)
  change dec_min wd = _
  unfold dec_min
  rw [r22_18, r17_13, r12_8, r7_1, r0_0]
  exact checked_ok (rfl) (by simp only [fin_back, bool_back])

theorem max d a b u : Statement (.max d a b u) := by
  have h1 : d.val < 2 ^ 5 := (d.isLt : d.val < 2 ^ 5)
  have h2 : a.val < 2 ^ 5 := (a.isLt : a.val < 2 ^ 5)
  have h3 : b.val < 2 ^ 5 := (b.isLt : b.val < 2 ^ 5)
  have h4 : 0 < 2 ^ 7 := (by decide : 0 < 2 ^ 7)
  have h5 : b2n u < 2 ^ 1 := (b2n_lt u)
  have hf : Fits [(5, d.val), (5, a.val), (5, b.val), (7, 0), (1, b2n u)] :=
    ⟨h1, h2, h3, h4, h5, trivial⟩
  refine of_fields 159 _ rfl (by decide) hf rfl fun lone hw acc0 wd he => ?_
  have r22_18 : bits wd 22 18 = d.val := read _ he hf 0 (Nat.le_of_ble_eq_true rfl)
      (Nat.le_of_ble_eq_true rfl)
  have r17_13 : bits wd 17 13 = a.val := read _ he hf 1 (Nat.le_of_ble_eq_true rfl)
      (Nat.le_of_ble_eq_true rfl)
  have r12_8 : bits wd 12 8 = b.val := read _ he hf 2 (Nat.le_of_ble_eq_true rfl)
      (Nat.le_of_ble_eq_true rfl)
  have r7_1 : bits wd 7 1 = 0 := read _ he hf 3 (Nat.le_of_ble_eq_true rfl)
      (Nat.le_of_ble_eq_true rfl)
  have r0_0 : bits wd 0 0 = b2n u := read _ he hf 4 (Nat.le_of_ble_eq_true rfl)
      (Nat.le_of_ble_eq_true rfl)
  change dec_max wd = _
  unfold dec_max
  rw [r22_18, r17_13, r12_8, r7_1, r0_0]
  exact checked_ok (rfl) (by simp only [fin_back, bool_back])

theorem pfmt d a b : Statement (.pfmt d a b) := by
  have h1 : d.val < 2 ^ 5 := (d.isLt : d.val < 2 ^ 5)
  have h2 : a.val < 2 ^ 5 := (a.isLt : a.val < 2 ^ 5)
  have h3 : b.val < 2 ^ 5 := (b.isLt : b.val < 2 ^ 5)
  have h4 : 0 < 2 ^ 8 := (by decide : 0 < 2 ^ 8)
  have hf : Fits [(5, d.val), (5, a.val), (5, b.val), (8, 0)] :=
    ⟨h1, h2, h3, h4, trivial⟩
  refine of_fields 160 _ rfl (by decide) hf rfl fun lone hw acc0 wd he => ?_
  have r22_18 : bits wd 22 18 = d.val := read _ he hf 0 (Nat.le_of_ble_eq_true rfl)
      (Nat.le_of_ble_eq_true rfl)
  have r17_13 : bits wd 17 13 = a.val := read _ he hf 1 (Nat.le_of_ble_eq_true rfl)
      (Nat.le_of_ble_eq_true rfl)
  have r12_8 : bits wd 12 8 = b.val := read _ he hf 2 (Nat.le_of_ble_eq_true rfl)
      (Nat.le_of_ble_eq_true rfl)
  have r7_0 : bits wd 7 0 = 0 := read _ he hf 3 (Nat.le_of_ble_eq_true rfl)
      (Nat.le_of_ble_eq_true rfl)
  change dec_pfmt wd = _
  unfold dec_pfmt
  rw [r22_18, r17_13, r12_8, r7_0]
  exact checked_ok (rfl) (by simp only [fin_back])

theorem pgetf d a sel : Statement (.pgetf d a sel) := by
  have h1 : d.val < 2 ^ 5 := (d.isLt : d.val < 2 ^ 5)
  have h2 : a.val < 2 ^ 5 := (a.isLt : a.val < 2 ^ 5)
  have h3 : 0 < 2 ^ 5 := (by decide : 0 < 2 ^ 5)
  have h4 : 0 < 2 ^ 6 := (by decide : 0 < 2 ^ 6)
  have h5 : sel.toNat < 2 ^ 2 := (sel.isLt : sel.toNat < 2 ^ 2)
  have hf : Fits [(5, d.val), (5, a.val), (5, 0), (6, 0), (2, sel.toNat)] :=
    ⟨h1, h2, h3, h4, h5, trivial⟩
  refine of_fields 161 _ rfl (by decide) hf rfl fun lone hw acc0 wd he => ?_
  have r22_18 : bits wd 22 18 = d.val := read _ he hf 0 (Nat.le_of_ble_eq_true rfl)
      (Nat.le_of_ble_eq_true rfl)
  have r17_13 : bits wd 17 13 = a.val := read _ he hf 1 (Nat.le_of_ble_eq_true rfl)
      (Nat.le_of_ble_eq_true rfl)
  have r12_8 : bits wd 12 8 = 0 := read _ he hf 2 (Nat.le_of_ble_eq_true rfl)
      (Nat.le_of_ble_eq_true rfl)
  have r7_2 : bits wd 7 2 = 0 := read _ he hf 3 (Nat.le_of_ble_eq_true rfl)
      (Nat.le_of_ble_eq_true rfl)
  have r1_0 : bits wd 1 0 = sel.toNat := read _ he hf 4 (Nat.le_of_ble_eq_true rfl)
      (Nat.le_of_ble_eq_true rfl)
  change dec_pgetf wd = _
  unfold dec_pgetf
  rw [r22_18, r17_13, r12_8, r7_2, r1_0]
  exact checked_ok (rfl) (by simp only [fin_back, bv_back])

theorem padde d a b : Statement (.padde d a b) := by
  have h1 : d.val < 2 ^ 5 := (d.isLt : d.val < 2 ^ 5)
  have h2 : a.val < 2 ^ 5 := (a.isLt : a.val < 2 ^ 5)
  have h3 : b.val < 2 ^ 5 := (b.isLt : b.val < 2 ^ 5)
  have h4 : 0 < 2 ^ 8 := (by decide : 0 < 2 ^ 8)
  have hf : Fits [(5, d.val), (5, a.val), (5, b.val), (8, 0)] :=
    ⟨h1, h2, h3, h4, trivial⟩
  refine of_fields 162 _ rfl (by decide) hf rfl fun lone hw acc0 wd he => ?_
  have r22_18 : bits wd 22 18 = d.val := read _ he hf 0 (Nat.le_of_ble_eq_true rfl)
      (Nat.le_of_ble_eq_true rfl)
  have r17_13 : bits wd 17 13 = a.val := read _ he hf 1 (Nat.le_of_ble_eq_true rfl)
      (Nat.le_of_ble_eq_true rfl)
  have r12_8 : bits wd 12 8 = b.val := read _ he hf 2 (Nat.le_of_ble_eq_true rfl)
      (Nat.le_of_ble_eq_true rfl)
  have r7_0 : bits wd 7 0 = 0 := read _ he hf 3 (Nat.le_of_ble_eq_true rfl)
      (Nat.le_of_ble_eq_true rfl)
  change dec_padde wd = _
  unfold dec_padde
  rw [r22_18, r17_13, r12_8, r7_0]
  exact checked_ok (rfl) (by simp only [fin_back])

theorem pcaddr d imm : Statement (.pcaddr d imm) := by
  have h1 : d.val < 2 ^ 5 := (d.isLt : d.val < 2 ^ 5)
  have h2 : 0 < 2 ^ 5 := (by decide : 0 < 2 ^ 5)
  have h3 : imm.toNat < 2 ^ 13 := (imm.isLt : imm.toNat < 2 ^ 13)
  have hf : Fits [(5, d.val), (5, 0), (13, imm.toNat)] :=
    ⟨h1, h2, h3, trivial⟩
  refine of_fields 163 _ rfl (by decide) hf rfl fun lone hw acc0 wd he => ?_
  have r22_18 : bits wd 22 18 = d.val := read _ he hf 0 (Nat.le_of_ble_eq_true rfl)
      (Nat.le_of_ble_eq_true rfl)
  have r17_13 : bits wd 17 13 = 0 := read _ he hf 1 (Nat.le_of_ble_eq_true rfl)
      (Nat.le_of_ble_eq_true rfl)
  have r12_0 : bits wd 12 0 = imm.toNat := read _ he hf 2 (Nat.le_of_ble_eq_true rfl)
      (Nat.le_of_ble_eq_true rfl)
  change dec_pcaddr wd = _
  unfold dec_pcaddr
  rw [r22_18, r17_13, r12_0]
  exact checked_ok (rfl) (by simp only [fin_back, bv_back])

theorem fadd d a b rs ft : Statement (.fadd d a b rs ft) := by
  have h1 : d.val < 2 ^ 5 := (d.isLt : d.val < 2 ^ 5)
  have h2 : a.val < 2 ^ 5 := (a.isLt : a.val < 2 ^ 5)
  have h3 : b.val < 2 ^ 5 := (b.isLt : b.val < 2 ^ 5)
  have h4 : rs.rm < 2 ^ 2 := (rm_lt rs)
  have h5 : 0 < 2 ^ 3 := (by decide : 0 < 2 ^ 3)
  have h6 : rs.rd < 2 ^ 1 := (rd_lt rs)
  have h7 : ft.code < 2 ^ 2 := (floatFmt_lt ft)
  have hf : Fits [(5, d.val), (5, a.val), (5, b.val), (2, rs.rm), (3, 0), (1, rs.rd), (2, ft.code)] :=
    ⟨h1, h2, h3, h4, h5, h6, h7, trivial⟩
  refine of_fields 164 _ rfl (by decide) hf rfl fun lone hw acc0 wd he => ?_
  have r22_18 : bits wd 22 18 = d.val := read _ he hf 0 (Nat.le_of_ble_eq_true rfl)
      (Nat.le_of_ble_eq_true rfl)
  have r17_13 : bits wd 17 13 = a.val := read _ he hf 1 (Nat.le_of_ble_eq_true rfl)
      (Nat.le_of_ble_eq_true rfl)
  have r12_8 : bits wd 12 8 = b.val := read _ he hf 2 (Nat.le_of_ble_eq_true rfl)
      (Nat.le_of_ble_eq_true rfl)
  have r7_6 : bits wd 7 6 = rs.rm := read _ he hf 3 (Nat.le_of_ble_eq_true rfl)
      (Nat.le_of_ble_eq_true rfl)
  have r5_3 : bits wd 5 3 = 0 := read _ he hf 4 (Nat.le_of_ble_eq_true rfl)
      (Nat.le_of_ble_eq_true rfl)
  have r2_2 : bits wd 2 2 = rs.rd := read _ he hf 5 (Nat.le_of_ble_eq_true rfl)
      (Nat.le_of_ble_eq_true rfl)
  have r1_0 : bits wd 1 0 = ft.code := read _ he hf 6 (Nat.le_of_ble_eq_true rfl)
      (Nat.le_of_ble_eq_true rfl)
  change dec_fadd wd = _
  unfold dec_fadd
  rw [r22_18, r17_13, r12_8, r7_6, r5_3, r2_2, r1_0]
  exact checked_ok (ok_fadd rs ft hw) (by simp only [fin_back, round_back, floatFmt_back])

theorem fsub d a b rs ft : Statement (.fsub d a b rs ft) := by
  have h1 : d.val < 2 ^ 5 := (d.isLt : d.val < 2 ^ 5)
  have h2 : a.val < 2 ^ 5 := (a.isLt : a.val < 2 ^ 5)
  have h3 : b.val < 2 ^ 5 := (b.isLt : b.val < 2 ^ 5)
  have h4 : rs.rm < 2 ^ 2 := (rm_lt rs)
  have h5 : 0 < 2 ^ 3 := (by decide : 0 < 2 ^ 3)
  have h6 : rs.rd < 2 ^ 1 := (rd_lt rs)
  have h7 : ft.code < 2 ^ 2 := (floatFmt_lt ft)
  have hf : Fits [(5, d.val), (5, a.val), (5, b.val), (2, rs.rm), (3, 0), (1, rs.rd), (2, ft.code)] :=
    ⟨h1, h2, h3, h4, h5, h6, h7, trivial⟩
  refine of_fields 165 _ rfl (by decide) hf rfl fun lone hw acc0 wd he => ?_
  have r22_18 : bits wd 22 18 = d.val := read _ he hf 0 (Nat.le_of_ble_eq_true rfl)
      (Nat.le_of_ble_eq_true rfl)
  have r17_13 : bits wd 17 13 = a.val := read _ he hf 1 (Nat.le_of_ble_eq_true rfl)
      (Nat.le_of_ble_eq_true rfl)
  have r12_8 : bits wd 12 8 = b.val := read _ he hf 2 (Nat.le_of_ble_eq_true rfl)
      (Nat.le_of_ble_eq_true rfl)
  have r7_6 : bits wd 7 6 = rs.rm := read _ he hf 3 (Nat.le_of_ble_eq_true rfl)
      (Nat.le_of_ble_eq_true rfl)
  have r5_3 : bits wd 5 3 = 0 := read _ he hf 4 (Nat.le_of_ble_eq_true rfl)
      (Nat.le_of_ble_eq_true rfl)
  have r2_2 : bits wd 2 2 = rs.rd := read _ he hf 5 (Nat.le_of_ble_eq_true rfl)
      (Nat.le_of_ble_eq_true rfl)
  have r1_0 : bits wd 1 0 = ft.code := read _ he hf 6 (Nat.le_of_ble_eq_true rfl)
      (Nat.le_of_ble_eq_true rfl)
  change dec_fsub wd = _
  unfold dec_fsub
  rw [r22_18, r17_13, r12_8, r7_6, r5_3, r2_2, r1_0]
  exact checked_ok (ok_fadd rs ft hw) (by simp only [fin_back, round_back, floatFmt_back])

theorem fmul d a b rs ft : Statement (.fmul d a b rs ft) := by
  have h1 : d.val < 2 ^ 5 := (d.isLt : d.val < 2 ^ 5)
  have h2 : a.val < 2 ^ 5 := (a.isLt : a.val < 2 ^ 5)
  have h3 : b.val < 2 ^ 5 := (b.isLt : b.val < 2 ^ 5)
  have h4 : rs.rm < 2 ^ 2 := (rm_lt rs)
  have h5 : 0 < 2 ^ 3 := (by decide : 0 < 2 ^ 3)
  have h6 : rs.rd < 2 ^ 1 := (rd_lt rs)
  have h7 : ft.code < 2 ^ 2 := (floatFmt_lt ft)
  have hf : Fits [(5, d.val), (5, a.val), (5, b.val), (2, rs.rm), (3, 0), (1, rs.rd), (2, ft.code)] :=
    ⟨h1, h2, h3, h4, h5, h6, h7, trivial⟩
  refine of_fields 166 _ rfl (by decide) hf rfl fun lone hw acc0 wd he => ?_
  have r22_18 : bits wd 22 18 = d.val := read _ he hf 0 (Nat.le_of_ble_eq_true rfl)
      (Nat.le_of_ble_eq_true rfl)
  have r17_13 : bits wd 17 13 = a.val := read _ he hf 1 (Nat.le_of_ble_eq_true rfl)
      (Nat.le_of_ble_eq_true rfl)
  have r12_8 : bits wd 12 8 = b.val := read _ he hf 2 (Nat.le_of_ble_eq_true rfl)
      (Nat.le_of_ble_eq_true rfl)
  have r7_6 : bits wd 7 6 = rs.rm := read _ he hf 3 (Nat.le_of_ble_eq_true rfl)
      (Nat.le_of_ble_eq_true rfl)
  have r5_3 : bits wd 5 3 = 0 := read _ he hf 4 (Nat.le_of_ble_eq_true rfl)
      (Nat.le_of_ble_eq_true rfl)
  have r2_2 : bits wd 2 2 = rs.rd := read _ he hf 5 (Nat.le_of_ble_eq_true rfl)
      (Nat.le_of_ble_eq_true rfl)
  have r1_0 : bits wd 1 0 = ft.code := read _ he hf 6 (Nat.le_of_ble_eq_true rfl)
      (Nat.le_of_ble_eq_true rfl)
  change dec_fmul wd = _
  unfold dec_fmul
  rw [r22_18, r17_13, r12_8, r7_6, r5_3, r2_2, r1_0]
  exact checked_ok (ok_fadd rs ft hw) (by simp only [fin_back, round_back, floatFmt_back])

theorem fma d a b rs ft : Statement (.fma d a b rs ft) := by
  have h1 : d.val < 2 ^ 5 := (d.isLt : d.val < 2 ^ 5)
  have h2 : a.val < 2 ^ 5 := (a.isLt : a.val < 2 ^ 5)
  have h3 : b.val < 2 ^ 5 := (b.isLt : b.val < 2 ^ 5)
  have h4 : rs.rm < 2 ^ 2 := (rm_lt rs)
  have h5 : 0 < 2 ^ 3 := (by decide : 0 < 2 ^ 3)
  have h6 : rs.rd < 2 ^ 1 := (rd_lt rs)
  have h7 : ft.code < 2 ^ 2 := (floatFmt_lt ft)
  have hf : Fits [(5, d.val), (5, a.val), (5, b.val), (2, rs.rm), (3, 0), (1, rs.rd), (2, ft.code)] :=
    ⟨h1, h2, h3, h4, h5, h6, h7, trivial⟩
  refine of_fields 167 _ rfl (by decide) hf rfl fun lone hw acc0 wd he => ?_
  have r22_18 : bits wd 22 18 = d.val := read _ he hf 0 (Nat.le_of_ble_eq_true rfl)
      (Nat.le_of_ble_eq_true rfl)
  have r17_13 : bits wd 17 13 = a.val := read _ he hf 1 (Nat.le_of_ble_eq_true rfl)
      (Nat.le_of_ble_eq_true rfl)
  have r12_8 : bits wd 12 8 = b.val := read _ he hf 2 (Nat.le_of_ble_eq_true rfl)
      (Nat.le_of_ble_eq_true rfl)
  have r7_6 : bits wd 7 6 = rs.rm := read _ he hf 3 (Nat.le_of_ble_eq_true rfl)
      (Nat.le_of_ble_eq_true rfl)
  have r5_3 : bits wd 5 3 = 0 := read _ he hf 4 (Nat.le_of_ble_eq_true rfl)
      (Nat.le_of_ble_eq_true rfl)
  have r2_2 : bits wd 2 2 = rs.rd := read _ he hf 5 (Nat.le_of_ble_eq_true rfl)
      (Nat.le_of_ble_eq_true rfl)
  have r1_0 : bits wd 1 0 = ft.code := read _ he hf 6 (Nat.le_of_ble_eq_true rfl)
      (Nat.le_of_ble_eq_true rfl)
  change dec_fma wd = _
  unfold dec_fma
  rw [r22_18, r17_13, r12_8, r7_6, r5_3, r2_2, r1_0]
  exact checked_ok (ok_fadd rs ft hw) (by simp only [fin_back, round_back, floatFmt_back])

theorem fdiv d a b rs ft : Statement (.fdiv d a b rs ft) := by
  have h1 : d.val < 2 ^ 5 := (d.isLt : d.val < 2 ^ 5)
  have h2 : a.val < 2 ^ 5 := (a.isLt : a.val < 2 ^ 5)
  have h3 : b.val < 2 ^ 5 := (b.isLt : b.val < 2 ^ 5)
  have h4 : rs.rm < 2 ^ 2 := (rm_lt rs)
  have h5 : 0 < 2 ^ 3 := (by decide : 0 < 2 ^ 3)
  have h6 : rs.rd < 2 ^ 1 := (rd_lt rs)
  have h7 : ft.code < 2 ^ 2 := (floatFmt_lt ft)
  have hf : Fits [(5, d.val), (5, a.val), (5, b.val), (2, rs.rm), (3, 0), (1, rs.rd), (2, ft.code)] :=
    ⟨h1, h2, h3, h4, h5, h6, h7, trivial⟩
  refine of_fields 168 _ rfl (by decide) hf rfl fun lone hw acc0 wd he => ?_
  have r22_18 : bits wd 22 18 = d.val := read _ he hf 0 (Nat.le_of_ble_eq_true rfl)
      (Nat.le_of_ble_eq_true rfl)
  have r17_13 : bits wd 17 13 = a.val := read _ he hf 1 (Nat.le_of_ble_eq_true rfl)
      (Nat.le_of_ble_eq_true rfl)
  have r12_8 : bits wd 12 8 = b.val := read _ he hf 2 (Nat.le_of_ble_eq_true rfl)
      (Nat.le_of_ble_eq_true rfl)
  have r7_6 : bits wd 7 6 = rs.rm := read _ he hf 3 (Nat.le_of_ble_eq_true rfl)
      (Nat.le_of_ble_eq_true rfl)
  have r5_3 : bits wd 5 3 = 0 := read _ he hf 4 (Nat.le_of_ble_eq_true rfl)
      (Nat.le_of_ble_eq_true rfl)
  have r2_2 : bits wd 2 2 = rs.rd := read _ he hf 5 (Nat.le_of_ble_eq_true rfl)
      (Nat.le_of_ble_eq_true rfl)
  have r1_0 : bits wd 1 0 = ft.code := read _ he hf 6 (Nat.le_of_ble_eq_true rfl)
      (Nat.le_of_ble_eq_true rfl)
  change dec_fdiv wd = _
  unfold dec_fdiv
  rw [r22_18, r17_13, r12_8, r7_6, r5_3, r2_2, r1_0]
  exact checked_ok (ok_fadd rs ft hw) (by simp only [fin_back, round_back, floatFmt_back])

theorem fsqrt d a rs ft : Statement (.fsqrt d a rs ft) := by
  have h1 : d.val < 2 ^ 5 := (d.isLt : d.val < 2 ^ 5)
  have h2 : a.val < 2 ^ 5 := (a.isLt : a.val < 2 ^ 5)
  have h3 : 0 < 2 ^ 5 := (by decide : 0 < 2 ^ 5)
  have h4 : rs.rm < 2 ^ 2 := (rm_lt rs)
  have h5 : 0 < 2 ^ 3 := (by decide : 0 < 2 ^ 3)
  have h6 : rs.rd < 2 ^ 1 := (rd_lt rs)
  have h7 : ft.code < 2 ^ 2 := (floatFmt_lt ft)
  have hf : Fits [(5, d.val), (5, a.val), (5, 0), (2, rs.rm), (3, 0), (1, rs.rd), (2, ft.code)] :=
    ⟨h1, h2, h3, h4, h5, h6, h7, trivial⟩
  refine of_fields 169 _ rfl (by decide) hf rfl fun lone hw acc0 wd he => ?_
  have r22_18 : bits wd 22 18 = d.val := read _ he hf 0 (Nat.le_of_ble_eq_true rfl)
      (Nat.le_of_ble_eq_true rfl)
  have r17_13 : bits wd 17 13 = a.val := read _ he hf 1 (Nat.le_of_ble_eq_true rfl)
      (Nat.le_of_ble_eq_true rfl)
  have r12_8 : bits wd 12 8 = 0 := read _ he hf 2 (Nat.le_of_ble_eq_true rfl)
      (Nat.le_of_ble_eq_true rfl)
  have r7_6 : bits wd 7 6 = rs.rm := read _ he hf 3 (Nat.le_of_ble_eq_true rfl)
      (Nat.le_of_ble_eq_true rfl)
  have r5_3 : bits wd 5 3 = 0 := read _ he hf 4 (Nat.le_of_ble_eq_true rfl)
      (Nat.le_of_ble_eq_true rfl)
  have r2_2 : bits wd 2 2 = rs.rd := read _ he hf 5 (Nat.le_of_ble_eq_true rfl)
      (Nat.le_of_ble_eq_true rfl)
  have r1_0 : bits wd 1 0 = ft.code := read _ he hf 6 (Nat.le_of_ble_eq_true rfl)
      (Nat.le_of_ble_eq_true rfl)
  change dec_fsqrt wd = _
  unfold dec_fsqrt
  rw [r22_18, r17_13, r12_8, r7_6, r5_3, r2_2, r1_0]
  exact checked_ok (ok_fsqrt rs ft hw) (by simp only [fin_back, round_back, floatFmt_back])

theorem fmin d a b ft : Statement (.fmin d a b ft) := by
  have h1 : d.val < 2 ^ 5 := (d.isLt : d.val < 2 ^ 5)
  have h2 : a.val < 2 ^ 5 := (a.isLt : a.val < 2 ^ 5)
  have h3 : b.val < 2 ^ 5 := (b.isLt : b.val < 2 ^ 5)
  have h4 : 0 < 2 ^ 6 := (by decide : 0 < 2 ^ 6)
  have h5 : ft.code < 2 ^ 2 := (floatFmt_lt ft)
  have hf : Fits [(5, d.val), (5, a.val), (5, b.val), (6, 0), (2, ft.code)] :=
    ⟨h1, h2, h3, h4, h5, trivial⟩
  refine of_fields 170 _ rfl (by decide) hf rfl fun lone hw acc0 wd he => ?_
  have r22_18 : bits wd 22 18 = d.val := read _ he hf 0 (Nat.le_of_ble_eq_true rfl)
      (Nat.le_of_ble_eq_true rfl)
  have r17_13 : bits wd 17 13 = a.val := read _ he hf 1 (Nat.le_of_ble_eq_true rfl)
      (Nat.le_of_ble_eq_true rfl)
  have r12_8 : bits wd 12 8 = b.val := read _ he hf 2 (Nat.le_of_ble_eq_true rfl)
      (Nat.le_of_ble_eq_true rfl)
  have r7_2 : bits wd 7 2 = 0 := read _ he hf 3 (Nat.le_of_ble_eq_true rfl)
      (Nat.le_of_ble_eq_true rfl)
  have r1_0 : bits wd 1 0 = ft.code := read _ he hf 4 (Nat.le_of_ble_eq_true rfl)
      (Nat.le_of_ble_eq_true rfl)
  change dec_fmin wd = _
  unfold dec_fmin
  rw [r22_18, r17_13, r12_8, r7_2, r1_0]
  exact checked_ok (ok_fmin ft hw) (by simp only [fin_back, floatFmt_back])

theorem fmax d a b ft : Statement (.fmax d a b ft) := by
  have h1 : d.val < 2 ^ 5 := (d.isLt : d.val < 2 ^ 5)
  have h2 : a.val < 2 ^ 5 := (a.isLt : a.val < 2 ^ 5)
  have h3 : b.val < 2 ^ 5 := (b.isLt : b.val < 2 ^ 5)
  have h4 : 0 < 2 ^ 6 := (by decide : 0 < 2 ^ 6)
  have h5 : ft.code < 2 ^ 2 := (floatFmt_lt ft)
  have hf : Fits [(5, d.val), (5, a.val), (5, b.val), (6, 0), (2, ft.code)] :=
    ⟨h1, h2, h3, h4, h5, trivial⟩
  refine of_fields 171 _ rfl (by decide) hf rfl fun lone hw acc0 wd he => ?_
  have r22_18 : bits wd 22 18 = d.val := read _ he hf 0 (Nat.le_of_ble_eq_true rfl)
      (Nat.le_of_ble_eq_true rfl)
  have r17_13 : bits wd 17 13 = a.val := read _ he hf 1 (Nat.le_of_ble_eq_true rfl)
      (Nat.le_of_ble_eq_true rfl)
  have r12_8 : bits wd 12 8 = b.val := read _ he hf 2 (Nat.le_of_ble_eq_true rfl)
      (Nat.le_of_ble_eq_true rfl)
  have r7_2 : bits wd 7 2 = 0 := read _ he hf 3 (Nat.le_of_ble_eq_true rfl)
      (Nat.le_of_ble_eq_true rfl)
  have r1_0 : bits wd 1 0 = ft.code := read _ he hf 4 (Nat.le_of_ble_eq_true rfl)
      (Nat.le_of_ble_eq_true rfl)
  change dec_fmax wd = _
  unfold dec_fmax
  rw [r22_18, r17_13, r12_8, r7_2, r1_0]
  exact checked_ok (ok_fmin ft hw) (by simp only [fin_back, floatFmt_back])

theorem fcmp d a b ft : Statement (.fcmp d a b ft) := by
  have h1 : d.val < 2 ^ 5 := (d.isLt : d.val < 2 ^ 5)
  have h2 : a.val < 2 ^ 5 := (a.isLt : a.val < 2 ^ 5)
  have h3 : b.val < 2 ^ 5 := (b.isLt : b.val < 2 ^ 5)
  have h4 : 0 < 2 ^ 6 := (by decide : 0 < 2 ^ 6)
  have h5 : ft.code < 2 ^ 2 := (floatFmt_lt ft)
  have hf : Fits [(5, d.val), (5, a.val), (5, b.val), (6, 0), (2, ft.code)] :=
    ⟨h1, h2, h3, h4, h5, trivial⟩
  refine of_fields 172 _ rfl (by decide) hf rfl fun lone hw acc0 wd he => ?_
  have r22_18 : bits wd 22 18 = d.val := read _ he hf 0 (Nat.le_of_ble_eq_true rfl)
      (Nat.le_of_ble_eq_true rfl)
  have r17_13 : bits wd 17 13 = a.val := read _ he hf 1 (Nat.le_of_ble_eq_true rfl)
      (Nat.le_of_ble_eq_true rfl)
  have r12_8 : bits wd 12 8 = b.val := read _ he hf 2 (Nat.le_of_ble_eq_true rfl)
      (Nat.le_of_ble_eq_true rfl)
  have r7_2 : bits wd 7 2 = 0 := read _ he hf 3 (Nat.le_of_ble_eq_true rfl)
      (Nat.le_of_ble_eq_true rfl)
  have r1_0 : bits wd 1 0 = ft.code := read _ he hf 4 (Nat.le_of_ble_eq_true rfl)
      (Nat.le_of_ble_eq_true rfl)
  change dec_fcmp wd = _
  unfold dec_fcmp
  rw [r22_18, r17_13, r12_8, r7_2, r1_0]
  exact checked_ok (ok_fmin ft hw) (by simp only [fin_back, floatFmt_back])

theorem fcvt d a frm other rs ft : Statement (.fcvt d a frm other rs ft) := by
  have h1 : d.val < 2 ^ 5 := (d.isLt : d.val < 2 ^ 5)
  have h2 : a.val < 2 ^ 5 := (a.isLt : a.val < 2 ^ 5)
  have h3 : 0 < 2 ^ 1 := (by decide : 0 < 2 ^ 1)
  have h4 : b2n frm < 2 ^ 1 := (b2n_lt frm)
  have h5 : other.code < 2 ^ 3 := (floatCode_lt other)
  have h6 : rs.rm < 2 ^ 2 := (rm_lt rs)
  have h7 : 0 < 2 ^ 3 := (by decide : 0 < 2 ^ 3)
  have h8 : rs.rd < 2 ^ 1 := (rd_lt rs)
  have h9 : ft.code < 2 ^ 2 := (floatFmt_lt ft)
  have hf : Fits [(5, d.val), (5, a.val), (1, 0), (1, b2n frm), (3, other.code), (2, rs.rm), (3, 0), (1, rs.rd), (2, ft.code)] :=
    ⟨h1, h2, h3, h4, h5, h6, h7, h8, h9, trivial⟩
  refine of_fields 173 _ rfl (by decide) hf rfl fun lone hw acc0 wd he => ?_
  have r22_18 : bits wd 22 18 = d.val := read _ he hf 0 (Nat.le_of_ble_eq_true rfl)
      (Nat.le_of_ble_eq_true rfl)
  have r17_13 : bits wd 17 13 = a.val := read _ he hf 1 (Nat.le_of_ble_eq_true rfl)
      (Nat.le_of_ble_eq_true rfl)
  have r12_12 : bits wd 12 12 = 0 := read _ he hf 2 (Nat.le_of_ble_eq_true rfl)
      (Nat.le_of_ble_eq_true rfl)
  have r11_11 : bits wd 11 11 = b2n frm := read _ he hf 3 (Nat.le_of_ble_eq_true rfl)
      (Nat.le_of_ble_eq_true rfl)
  have r10_8 : bits wd 10 8 = other.code := read _ he hf 4 (Nat.le_of_ble_eq_true rfl)
      (Nat.le_of_ble_eq_true rfl)
  have r7_6 : bits wd 7 6 = rs.rm := read _ he hf 5 (Nat.le_of_ble_eq_true rfl)
      (Nat.le_of_ble_eq_true rfl)
  have r5_3 : bits wd 5 3 = 0 := read _ he hf 6 (Nat.le_of_ble_eq_true rfl)
      (Nat.le_of_ble_eq_true rfl)
  have r2_2 : bits wd 2 2 = rs.rd := read _ he hf 7 (Nat.le_of_ble_eq_true rfl)
      (Nat.le_of_ble_eq_true rfl)
  have r1_0 : bits wd 1 0 = ft.code := read _ he hf 8 (Nat.le_of_ble_eq_true rfl)
      (Nat.le_of_ble_eq_true rfl)
  change dec_fcvt wd = _
  unfold dec_fcvt
  rw [r22_18, r17_13, r12_12, r11_11, r10_8, r7_6, r5_3, r2_2, r1_0]
  exact checked_ok (ok_fcvt other rs ft hw) (by simp only [fin_back, bool_back, floatCode_back, round_back, floatFmt_back])

theorem fcvti d a ity rs ft : Statement (.fcvti d a ity rs ft) := by
  have h1 : d.val < 2 ^ 5 := (d.isLt : d.val < 2 ^ 5)
  have h2 : a.val < 2 ^ 5 := (a.isLt : a.val < 2 ^ 5)
  have h3 : 0 < 2 ^ 3 := (by decide : 0 < 2 ^ 3)
  have h4 : ity.code < 2 ^ 2 := (intTy_lt ity)
  have h5 : rs.rm < 2 ^ 2 := (rm_lt rs)
  have h6 : 0 < 2 ^ 3 := (by decide : 0 < 2 ^ 3)
  have h7 : rs.rd < 2 ^ 1 := (rd_lt rs)
  have h8 : ft.code < 2 ^ 2 := (floatFmt_lt ft)
  have hf : Fits [(5, d.val), (5, a.val), (3, 0), (2, ity.code), (2, rs.rm), (3, 0), (1, rs.rd), (2, ft.code)] :=
    ⟨h1, h2, h3, h4, h5, h6, h7, h8, trivial⟩
  refine of_fields 174 _ rfl (by decide) hf rfl fun lone hw acc0 wd he => ?_
  have r22_18 : bits wd 22 18 = d.val := read _ he hf 0 (Nat.le_of_ble_eq_true rfl)
      (Nat.le_of_ble_eq_true rfl)
  have r17_13 : bits wd 17 13 = a.val := read _ he hf 1 (Nat.le_of_ble_eq_true rfl)
      (Nat.le_of_ble_eq_true rfl)
  have r12_10 : bits wd 12 10 = 0 := read _ he hf 2 (Nat.le_of_ble_eq_true rfl)
      (Nat.le_of_ble_eq_true rfl)
  have r9_8 : bits wd 9 8 = ity.code := read _ he hf 3 (Nat.le_of_ble_eq_true rfl)
      (Nat.le_of_ble_eq_true rfl)
  have r7_6 : bits wd 7 6 = rs.rm := read _ he hf 4 (Nat.le_of_ble_eq_true rfl)
      (Nat.le_of_ble_eq_true rfl)
  have r5_3 : bits wd 5 3 = 0 := read _ he hf 5 (Nat.le_of_ble_eq_true rfl)
      (Nat.le_of_ble_eq_true rfl)
  have r2_2 : bits wd 2 2 = rs.rd := read _ he hf 6 (Nat.le_of_ble_eq_true rfl)
      (Nat.le_of_ble_eq_true rfl)
  have r1_0 : bits wd 1 0 = ft.code := read _ he hf 7 (Nat.le_of_ble_eq_true rfl)
      (Nat.le_of_ble_eq_true rfl)
  change dec_fcvti wd = _
  unfold dec_fcvti
  rw [r22_18, r17_13, r12_10, r9_8, r7_6, r5_3, r2_2, r1_0]
  exact checked_ok (ok_fcvti rs ft hw) (by simp only [fin_back, intTy_back, round_back, floatFmt_back])

theorem icvtf d a ity rs ft : Statement (.icvtf d a ity rs ft) := by
  have h1 : d.val < 2 ^ 5 := (d.isLt : d.val < 2 ^ 5)
  have h2 : a.val < 2 ^ 5 := (a.isLt : a.val < 2 ^ 5)
  have h3 : 0 < 2 ^ 3 := (by decide : 0 < 2 ^ 3)
  have h4 : ity.code < 2 ^ 2 := (intTy_lt ity)
  have h5 : rs.rm < 2 ^ 2 := (rm_lt rs)
  have h6 : 0 < 2 ^ 3 := (by decide : 0 < 2 ^ 3)
  have h7 : rs.rd < 2 ^ 1 := (rd_lt rs)
  have h8 : ft.code < 2 ^ 2 := (floatFmt_lt ft)
  have hf : Fits [(5, d.val), (5, a.val), (3, 0), (2, ity.code), (2, rs.rm), (3, 0), (1, rs.rd), (2, ft.code)] :=
    ⟨h1, h2, h3, h4, h5, h6, h7, h8, trivial⟩
  refine of_fields 175 _ rfl (by decide) hf rfl fun lone hw acc0 wd he => ?_
  have r22_18 : bits wd 22 18 = d.val := read _ he hf 0 (Nat.le_of_ble_eq_true rfl)
      (Nat.le_of_ble_eq_true rfl)
  have r17_13 : bits wd 17 13 = a.val := read _ he hf 1 (Nat.le_of_ble_eq_true rfl)
      (Nat.le_of_ble_eq_true rfl)
  have r12_10 : bits wd 12 10 = 0 := read _ he hf 2 (Nat.le_of_ble_eq_true rfl)
      (Nat.le_of_ble_eq_true rfl)
  have r9_8 : bits wd 9 8 = ity.code := read _ he hf 3 (Nat.le_of_ble_eq_true rfl)
      (Nat.le_of_ble_eq_true rfl)
  have r7_6 : bits wd 7 6 = rs.rm := read _ he hf 4 (Nat.le_of_ble_eq_true rfl)
      (Nat.le_of_ble_eq_true rfl)
  have r5_3 : bits wd 5 3 = 0 := read _ he hf 5 (Nat.le_of_ble_eq_true rfl)
      (Nat.le_of_ble_eq_true rfl)
  have r2_2 : bits wd 2 2 = rs.rd := read _ he hf 6 (Nat.le_of_ble_eq_true rfl)
      (Nat.le_of_ble_eq_true rfl)
  have r1_0 : bits wd 1 0 = ft.code := read _ he hf 7 (Nat.le_of_ble_eq_true rfl)
      (Nat.le_of_ble_eq_true rfl)
  change dec_icvtf wd = _
  unfold dec_icvtf
  rw [r22_18, r17_13, r12_10, r9_8, r7_6, r5_3, r2_2, r1_0]
  exact checked_ok (ok_fcvti rs ft hw) (by simp only [fin_back, intTy_back, round_back, floatFmt_back])

theorem vadd d a b k ty rm sat : Statement (.vadd d a b k ty rm sat) := by
  have h1 : d.val < 2 ^ 4 := (d.isLt : d.val < 2 ^ 4)
  have h2 : a.val < 2 ^ 4 := (a.isLt : a.val < 2 ^ 4)
  have h3 : b.val < 2 ^ 4 := (b.isLt : b.val < 2 ^ 4)
  have h4 : k.val < 2 ^ 2 := (k.isLt : k.val < 2 ^ 2)
  have h5 : ty.code < 2 ^ 4 := (eType_lt ty)
  have h6 : rm.code < 2 ^ 2 := (rounding_lt rm)
  have h7 : 0 < 2 ^ 2 := (by decide : 0 < 2 ^ 2)
  have h8 : b2n sat < 2 ^ 1 := (b2n_lt sat)
  have hf : Fits [(4, d.val), (4, a.val), (4, b.val), (2, k.val), (4, ty.code), (2, rm.code), (2, 0), (1, b2n sat)] :=
    ⟨h1, h2, h3, h4, h5, h6, h7, h8, trivial⟩
  refine of_fields 176 _ rfl (by decide) hf rfl fun lone hw acc0 wd he => ?_
  have r22_19 : bits wd 22 19 = d.val := read _ he hf 0 (Nat.le_of_ble_eq_true rfl)
      (Nat.le_of_ble_eq_true rfl)
  have r18_15 : bits wd 18 15 = a.val := read _ he hf 1 (Nat.le_of_ble_eq_true rfl)
      (Nat.le_of_ble_eq_true rfl)
  have r14_11 : bits wd 14 11 = b.val := read _ he hf 2 (Nat.le_of_ble_eq_true rfl)
      (Nat.le_of_ble_eq_true rfl)
  have r10_9 : bits wd 10 9 = k.val := read _ he hf 3 (Nat.le_of_ble_eq_true rfl)
      (Nat.le_of_ble_eq_true rfl)
  have r8_5 : bits wd 8 5 = ty.code := read _ he hf 4 (Nat.le_of_ble_eq_true rfl)
      (Nat.le_of_ble_eq_true rfl)
  have r4_3 : bits wd 4 3 = rm.code := read _ he hf 5 (Nat.le_of_ble_eq_true rfl)
      (Nat.le_of_ble_eq_true rfl)
  have r2_1 : bits wd 2 1 = 0 := read _ he hf 6 (Nat.le_of_ble_eq_true rfl)
      (Nat.le_of_ble_eq_true rfl)
  have r0_0 : bits wd 0 0 = b2n sat := read _ he hf 7 (Nat.le_of_ble_eq_true rfl)
      (Nat.le_of_ble_eq_true rfl)
  change dec_vadd wd = _
  unfold dec_vadd
  unfold etCodeIsInt
  rw [r22_19, r18_15, r14_11, r10_9, r8_5, r4_3, r2_1, r0_0]
  exact checked_ok (ok_vadd ty rm sat hw) (by simp only [fin_back, eType_back, rounding_back, bool_back])

theorem vsub d a b k ty rm sat : Statement (.vsub d a b k ty rm sat) := by
  have h1 : d.val < 2 ^ 4 := (d.isLt : d.val < 2 ^ 4)
  have h2 : a.val < 2 ^ 4 := (a.isLt : a.val < 2 ^ 4)
  have h3 : b.val < 2 ^ 4 := (b.isLt : b.val < 2 ^ 4)
  have h4 : k.val < 2 ^ 2 := (k.isLt : k.val < 2 ^ 2)
  have h5 : ty.code < 2 ^ 4 := (eType_lt ty)
  have h6 : rm.code < 2 ^ 2 := (rounding_lt rm)
  have h7 : 0 < 2 ^ 2 := (by decide : 0 < 2 ^ 2)
  have h8 : b2n sat < 2 ^ 1 := (b2n_lt sat)
  have hf : Fits [(4, d.val), (4, a.val), (4, b.val), (2, k.val), (4, ty.code), (2, rm.code), (2, 0), (1, b2n sat)] :=
    ⟨h1, h2, h3, h4, h5, h6, h7, h8, trivial⟩
  refine of_fields 177 _ rfl (by decide) hf rfl fun lone hw acc0 wd he => ?_
  have r22_19 : bits wd 22 19 = d.val := read _ he hf 0 (Nat.le_of_ble_eq_true rfl)
      (Nat.le_of_ble_eq_true rfl)
  have r18_15 : bits wd 18 15 = a.val := read _ he hf 1 (Nat.le_of_ble_eq_true rfl)
      (Nat.le_of_ble_eq_true rfl)
  have r14_11 : bits wd 14 11 = b.val := read _ he hf 2 (Nat.le_of_ble_eq_true rfl)
      (Nat.le_of_ble_eq_true rfl)
  have r10_9 : bits wd 10 9 = k.val := read _ he hf 3 (Nat.le_of_ble_eq_true rfl)
      (Nat.le_of_ble_eq_true rfl)
  have r8_5 : bits wd 8 5 = ty.code := read _ he hf 4 (Nat.le_of_ble_eq_true rfl)
      (Nat.le_of_ble_eq_true rfl)
  have r4_3 : bits wd 4 3 = rm.code := read _ he hf 5 (Nat.le_of_ble_eq_true rfl)
      (Nat.le_of_ble_eq_true rfl)
  have r2_1 : bits wd 2 1 = 0 := read _ he hf 6 (Nat.le_of_ble_eq_true rfl)
      (Nat.le_of_ble_eq_true rfl)
  have r0_0 : bits wd 0 0 = b2n sat := read _ he hf 7 (Nat.le_of_ble_eq_true rfl)
      (Nat.le_of_ble_eq_true rfl)
  change dec_vsub wd = _
  unfold dec_vsub
  unfold etCodeIsInt
  rw [r22_19, r18_15, r14_11, r10_9, r8_5, r4_3, r2_1, r0_0]
  exact checked_ok (ok_vadd ty rm sat hw) (by simp only [fin_back, eType_back, rounding_back, bool_back])

theorem vmul d a b k ty rm : Statement (.vmul d a b k ty rm) := by
  have h1 : d.val < 2 ^ 4 := (d.isLt : d.val < 2 ^ 4)
  have h2 : a.val < 2 ^ 4 := (a.isLt : a.val < 2 ^ 4)
  have h3 : b.val < 2 ^ 4 := (b.isLt : b.val < 2 ^ 4)
  have h4 : k.val < 2 ^ 2 := (k.isLt : k.val < 2 ^ 2)
  have h5 : ty.code < 2 ^ 4 := (eType_lt ty)
  have h6 : rm.code < 2 ^ 2 := (rounding_lt rm)
  have h7 : 0 < 2 ^ 3 := (by decide : 0 < 2 ^ 3)
  have hf : Fits [(4, d.val), (4, a.val), (4, b.val), (2, k.val), (4, ty.code), (2, rm.code), (3, 0)] :=
    ⟨h1, h2, h3, h4, h5, h6, h7, trivial⟩
  refine of_fields 178 _ rfl (by decide) hf rfl fun lone hw acc0 wd he => ?_
  have r22_19 : bits wd 22 19 = d.val := read _ he hf 0 (Nat.le_of_ble_eq_true rfl)
      (Nat.le_of_ble_eq_true rfl)
  have r18_15 : bits wd 18 15 = a.val := read _ he hf 1 (Nat.le_of_ble_eq_true rfl)
      (Nat.le_of_ble_eq_true rfl)
  have r14_11 : bits wd 14 11 = b.val := read _ he hf 2 (Nat.le_of_ble_eq_true rfl)
      (Nat.le_of_ble_eq_true rfl)
  have r10_9 : bits wd 10 9 = k.val := read _ he hf 3 (Nat.le_of_ble_eq_true rfl)
      (Nat.le_of_ble_eq_true rfl)
  have r8_5 : bits wd 8 5 = ty.code := read _ he hf 4 (Nat.le_of_ble_eq_true rfl)
      (Nat.le_of_ble_eq_true rfl)
  have r4_3 : bits wd 4 3 = rm.code := read _ he hf 5 (Nat.le_of_ble_eq_true rfl)
      (Nat.le_of_ble_eq_true rfl)
  have r2_0 : bits wd 2 0 = 0 := read _ he hf 6 (Nat.le_of_ble_eq_true rfl)
      (Nat.le_of_ble_eq_true rfl)
  change dec_vmul wd = _
  unfold dec_vmul
  unfold etCodeIsInt
  rw [r22_19, r18_15, r14_11, r10_9, r8_5, r4_3, r2_0]
  exact checked_ok (ok_vmul ty rm hw) (by simp only [fin_back, eType_back, rounding_back])

theorem vfma d a b k ty rm : Statement (.vfma d a b k ty rm) := by
  have h1 : d.val < 2 ^ 4 := (d.isLt : d.val < 2 ^ 4)
  have h2 : a.val < 2 ^ 4 := (a.isLt : a.val < 2 ^ 4)
  have h3 : b.val < 2 ^ 4 := (b.isLt : b.val < 2 ^ 4)
  have h4 : k.val < 2 ^ 2 := (k.isLt : k.val < 2 ^ 2)
  have h5 : ty.code < 2 ^ 4 := (eType_lt ty)
  have h6 : rm.code < 2 ^ 2 := (rounding_lt rm)
  have h7 : 0 < 2 ^ 3 := (by decide : 0 < 2 ^ 3)
  have hf : Fits [(4, d.val), (4, a.val), (4, b.val), (2, k.val), (4, ty.code), (2, rm.code), (3, 0)] :=
    ⟨h1, h2, h3, h4, h5, h6, h7, trivial⟩
  refine of_fields 179 _ rfl (by decide) hf rfl fun lone hw acc0 wd he => ?_
  have r22_19 : bits wd 22 19 = d.val := read _ he hf 0 (Nat.le_of_ble_eq_true rfl)
      (Nat.le_of_ble_eq_true rfl)
  have r18_15 : bits wd 18 15 = a.val := read _ he hf 1 (Nat.le_of_ble_eq_true rfl)
      (Nat.le_of_ble_eq_true rfl)
  have r14_11 : bits wd 14 11 = b.val := read _ he hf 2 (Nat.le_of_ble_eq_true rfl)
      (Nat.le_of_ble_eq_true rfl)
  have r10_9 : bits wd 10 9 = k.val := read _ he hf 3 (Nat.le_of_ble_eq_true rfl)
      (Nat.le_of_ble_eq_true rfl)
  have r8_5 : bits wd 8 5 = ty.code := read _ he hf 4 (Nat.le_of_ble_eq_true rfl)
      (Nat.le_of_ble_eq_true rfl)
  have r4_3 : bits wd 4 3 = rm.code := read _ he hf 5 (Nat.le_of_ble_eq_true rfl)
      (Nat.le_of_ble_eq_true rfl)
  have r2_0 : bits wd 2 0 = 0 := read _ he hf 6 (Nat.le_of_ble_eq_true rfl)
      (Nat.le_of_ble_eq_true rfl)
  change dec_vfma wd = _
  unfold dec_vfma
  unfold etCodeIsInt
  rw [r22_19, r18_15, r14_11, r10_9, r8_5, r4_3, r2_0]
  exact checked_ok (ok_vmul ty rm hw) (by simp only [fin_back, eType_back, rounding_back])

theorem vmax d a b k ty : Statement (.vmax d a b k ty) := by
  have h1 : d.val < 2 ^ 4 := (d.isLt : d.val < 2 ^ 4)
  have h2 : a.val < 2 ^ 4 := (a.isLt : a.val < 2 ^ 4)
  have h3 : b.val < 2 ^ 4 := (b.isLt : b.val < 2 ^ 4)
  have h4 : k.val < 2 ^ 2 := (k.isLt : k.val < 2 ^ 2)
  have h5 : ty.code < 2 ^ 4 := (eType_lt ty)
  have h6 : 0 < 2 ^ 5 := (by decide : 0 < 2 ^ 5)
  have hf : Fits [(4, d.val), (4, a.val), (4, b.val), (2, k.val), (4, ty.code), (5, 0)] :=
    ⟨h1, h2, h3, h4, h5, h6, trivial⟩
  refine of_fields 180 _ rfl (by decide) hf rfl fun lone hw acc0 wd he => ?_
  have r22_19 : bits wd 22 19 = d.val := read _ he hf 0 (Nat.le_of_ble_eq_true rfl)
      (Nat.le_of_ble_eq_true rfl)
  have r18_15 : bits wd 18 15 = a.val := read _ he hf 1 (Nat.le_of_ble_eq_true rfl)
      (Nat.le_of_ble_eq_true rfl)
  have r14_11 : bits wd 14 11 = b.val := read _ he hf 2 (Nat.le_of_ble_eq_true rfl)
      (Nat.le_of_ble_eq_true rfl)
  have r10_9 : bits wd 10 9 = k.val := read _ he hf 3 (Nat.le_of_ble_eq_true rfl)
      (Nat.le_of_ble_eq_true rfl)
  have r8_5 : bits wd 8 5 = ty.code := read _ he hf 4 (Nat.le_of_ble_eq_true rfl)
      (Nat.le_of_ble_eq_true rfl)
  have r4_0 : bits wd 4 0 = 0 := read _ he hf 5 (Nat.le_of_ble_eq_true rfl)
      (Nat.le_of_ble_eq_true rfl)
  change dec_vmax wd = _
  unfold dec_vmax
  rw [r22_19, r18_15, r14_11, r10_9, r8_5, r4_0]
  exact checked_ok (ok_vmax ty hw) (by simp only [fin_back, eType_back])

theorem vmin d a b k ty : Statement (.vmin d a b k ty) := by
  have h1 : d.val < 2 ^ 4 := (d.isLt : d.val < 2 ^ 4)
  have h2 : a.val < 2 ^ 4 := (a.isLt : a.val < 2 ^ 4)
  have h3 : b.val < 2 ^ 4 := (b.isLt : b.val < 2 ^ 4)
  have h4 : k.val < 2 ^ 2 := (k.isLt : k.val < 2 ^ 2)
  have h5 : ty.code < 2 ^ 4 := (eType_lt ty)
  have h6 : 0 < 2 ^ 5 := (by decide : 0 < 2 ^ 5)
  have hf : Fits [(4, d.val), (4, a.val), (4, b.val), (2, k.val), (4, ty.code), (5, 0)] :=
    ⟨h1, h2, h3, h4, h5, h6, trivial⟩
  refine of_fields 181 _ rfl (by decide) hf rfl fun lone hw acc0 wd he => ?_
  have r22_19 : bits wd 22 19 = d.val := read _ he hf 0 (Nat.le_of_ble_eq_true rfl)
      (Nat.le_of_ble_eq_true rfl)
  have r18_15 : bits wd 18 15 = a.val := read _ he hf 1 (Nat.le_of_ble_eq_true rfl)
      (Nat.le_of_ble_eq_true rfl)
  have r14_11 : bits wd 14 11 = b.val := read _ he hf 2 (Nat.le_of_ble_eq_true rfl)
      (Nat.le_of_ble_eq_true rfl)
  have r10_9 : bits wd 10 9 = k.val := read _ he hf 3 (Nat.le_of_ble_eq_true rfl)
      (Nat.le_of_ble_eq_true rfl)
  have r8_5 : bits wd 8 5 = ty.code := read _ he hf 4 (Nat.le_of_ble_eq_true rfl)
      (Nat.le_of_ble_eq_true rfl)
  have r4_0 : bits wd 4 0 = 0 := read _ he hf 5 (Nat.le_of_ble_eq_true rfl)
      (Nat.le_of_ble_eq_true rfl)
  change dec_vmin wd = _
  unfold dec_vmin
  rw [r22_19, r18_15, r14_11, r10_9, r8_5, r4_0]
  exact checked_ok (ok_vmax ty hw) (by simp only [fin_back, eType_back])

theorem vand d a b k ty : Statement (.vand d a b k ty) := by
  have h1 : d.val < 2 ^ 4 := (d.isLt : d.val < 2 ^ 4)
  have h2 : a.val < 2 ^ 4 := (a.isLt : a.val < 2 ^ 4)
  have h3 : b.val < 2 ^ 4 := (b.isLt : b.val < 2 ^ 4)
  have h4 : k.val < 2 ^ 2 := (k.isLt : k.val < 2 ^ 2)
  have h5 : ty.code < 2 ^ 4 := (eType_lt ty)
  have h6 : 0 < 2 ^ 5 := (by decide : 0 < 2 ^ 5)
  have hf : Fits [(4, d.val), (4, a.val), (4, b.val), (2, k.val), (4, ty.code), (5, 0)] :=
    ⟨h1, h2, h3, h4, h5, h6, trivial⟩
  refine of_fields 182 _ rfl (by decide) hf rfl fun lone hw acc0 wd he => ?_
  have r22_19 : bits wd 22 19 = d.val := read _ he hf 0 (Nat.le_of_ble_eq_true rfl)
      (Nat.le_of_ble_eq_true rfl)
  have r18_15 : bits wd 18 15 = a.val := read _ he hf 1 (Nat.le_of_ble_eq_true rfl)
      (Nat.le_of_ble_eq_true rfl)
  have r14_11 : bits wd 14 11 = b.val := read _ he hf 2 (Nat.le_of_ble_eq_true rfl)
      (Nat.le_of_ble_eq_true rfl)
  have r10_9 : bits wd 10 9 = k.val := read _ he hf 3 (Nat.le_of_ble_eq_true rfl)
      (Nat.le_of_ble_eq_true rfl)
  have r8_5 : bits wd 8 5 = ty.code := read _ he hf 4 (Nat.le_of_ble_eq_true rfl)
      (Nat.le_of_ble_eq_true rfl)
  have r4_0 : bits wd 4 0 = 0 := read _ he hf 5 (Nat.le_of_ble_eq_true rfl)
      (Nat.le_of_ble_eq_true rfl)
  change dec_vand wd = _
  unfold dec_vand
  rw [r22_19, r18_15, r14_11, r10_9, r8_5, r4_0]
  exact checked_ok (ok_vand ty hw) (by simp only [fin_back, eType_back])

theorem vor d a b k ty : Statement (.vor d a b k ty) := by
  have h1 : d.val < 2 ^ 4 := (d.isLt : d.val < 2 ^ 4)
  have h2 : a.val < 2 ^ 4 := (a.isLt : a.val < 2 ^ 4)
  have h3 : b.val < 2 ^ 4 := (b.isLt : b.val < 2 ^ 4)
  have h4 : k.val < 2 ^ 2 := (k.isLt : k.val < 2 ^ 2)
  have h5 : ty.code < 2 ^ 4 := (eType_lt ty)
  have h6 : 0 < 2 ^ 5 := (by decide : 0 < 2 ^ 5)
  have hf : Fits [(4, d.val), (4, a.val), (4, b.val), (2, k.val), (4, ty.code), (5, 0)] :=
    ⟨h1, h2, h3, h4, h5, h6, trivial⟩
  refine of_fields 183 _ rfl (by decide) hf rfl fun lone hw acc0 wd he => ?_
  have r22_19 : bits wd 22 19 = d.val := read _ he hf 0 (Nat.le_of_ble_eq_true rfl)
      (Nat.le_of_ble_eq_true rfl)
  have r18_15 : bits wd 18 15 = a.val := read _ he hf 1 (Nat.le_of_ble_eq_true rfl)
      (Nat.le_of_ble_eq_true rfl)
  have r14_11 : bits wd 14 11 = b.val := read _ he hf 2 (Nat.le_of_ble_eq_true rfl)
      (Nat.le_of_ble_eq_true rfl)
  have r10_9 : bits wd 10 9 = k.val := read _ he hf 3 (Nat.le_of_ble_eq_true rfl)
      (Nat.le_of_ble_eq_true rfl)
  have r8_5 : bits wd 8 5 = ty.code := read _ he hf 4 (Nat.le_of_ble_eq_true rfl)
      (Nat.le_of_ble_eq_true rfl)
  have r4_0 : bits wd 4 0 = 0 := read _ he hf 5 (Nat.le_of_ble_eq_true rfl)
      (Nat.le_of_ble_eq_true rfl)
  change dec_vor wd = _
  unfold dec_vor
  rw [r22_19, r18_15, r14_11, r10_9, r8_5, r4_0]
  exact checked_ok (ok_vand ty hw) (by simp only [fin_back, eType_back])

theorem vxor d a b k ty : Statement (.vxor d a b k ty) := by
  have h1 : d.val < 2 ^ 4 := (d.isLt : d.val < 2 ^ 4)
  have h2 : a.val < 2 ^ 4 := (a.isLt : a.val < 2 ^ 4)
  have h3 : b.val < 2 ^ 4 := (b.isLt : b.val < 2 ^ 4)
  have h4 : k.val < 2 ^ 2 := (k.isLt : k.val < 2 ^ 2)
  have h5 : ty.code < 2 ^ 4 := (eType_lt ty)
  have h6 : 0 < 2 ^ 5 := (by decide : 0 < 2 ^ 5)
  have hf : Fits [(4, d.val), (4, a.val), (4, b.val), (2, k.val), (4, ty.code), (5, 0)] :=
    ⟨h1, h2, h3, h4, h5, h6, trivial⟩
  refine of_fields 184 _ rfl (by decide) hf rfl fun lone hw acc0 wd he => ?_
  have r22_19 : bits wd 22 19 = d.val := read _ he hf 0 (Nat.le_of_ble_eq_true rfl)
      (Nat.le_of_ble_eq_true rfl)
  have r18_15 : bits wd 18 15 = a.val := read _ he hf 1 (Nat.le_of_ble_eq_true rfl)
      (Nat.le_of_ble_eq_true rfl)
  have r14_11 : bits wd 14 11 = b.val := read _ he hf 2 (Nat.le_of_ble_eq_true rfl)
      (Nat.le_of_ble_eq_true rfl)
  have r10_9 : bits wd 10 9 = k.val := read _ he hf 3 (Nat.le_of_ble_eq_true rfl)
      (Nat.le_of_ble_eq_true rfl)
  have r8_5 : bits wd 8 5 = ty.code := read _ he hf 4 (Nat.le_of_ble_eq_true rfl)
      (Nat.le_of_ble_eq_true rfl)
  have r4_0 : bits wd 4 0 = 0 := read _ he hf 5 (Nat.le_of_ble_eq_true rfl)
      (Nat.le_of_ble_eq_true rfl)
  change dec_vxor wd = _
  unfold dec_vxor
  rw [r22_19, r18_15, r14_11, r10_9, r8_5, r4_0]
  exact checked_ok (ok_vand ty hw) (by simp only [fin_back, eType_back])

theorem vshl d a b k ty : Statement (.vshl d a b k ty) := by
  have h1 : d.val < 2 ^ 4 := (d.isLt : d.val < 2 ^ 4)
  have h2 : a.val < 2 ^ 4 := (a.isLt : a.val < 2 ^ 4)
  have h3 : b.val < 2 ^ 4 := (b.isLt : b.val < 2 ^ 4)
  have h4 : k.val < 2 ^ 2 := (k.isLt : k.val < 2 ^ 2)
  have h5 : ty.code < 2 ^ 4 := (eType_lt ty)
  have h6 : 0 < 2 ^ 5 := (by decide : 0 < 2 ^ 5)
  have hf : Fits [(4, d.val), (4, a.val), (4, b.val), (2, k.val), (4, ty.code), (5, 0)] :=
    ⟨h1, h2, h3, h4, h5, h6, trivial⟩
  refine of_fields 185 _ rfl (by decide) hf rfl fun lone hw acc0 wd he => ?_
  have r22_19 : bits wd 22 19 = d.val := read _ he hf 0 (Nat.le_of_ble_eq_true rfl)
      (Nat.le_of_ble_eq_true rfl)
  have r18_15 : bits wd 18 15 = a.val := read _ he hf 1 (Nat.le_of_ble_eq_true rfl)
      (Nat.le_of_ble_eq_true rfl)
  have r14_11 : bits wd 14 11 = b.val := read _ he hf 2 (Nat.le_of_ble_eq_true rfl)
      (Nat.le_of_ble_eq_true rfl)
  have r10_9 : bits wd 10 9 = k.val := read _ he hf 3 (Nat.le_of_ble_eq_true rfl)
      (Nat.le_of_ble_eq_true rfl)
  have r8_5 : bits wd 8 5 = ty.code := read _ he hf 4 (Nat.le_of_ble_eq_true rfl)
      (Nat.le_of_ble_eq_true rfl)
  have r4_0 : bits wd 4 0 = 0 := read _ he hf 5 (Nat.le_of_ble_eq_true rfl)
      (Nat.le_of_ble_eq_true rfl)
  change dec_vshl wd = _
  unfold dec_vshl
  rw [r22_19, r18_15, r14_11, r10_9, r8_5, r4_0]
  exact checked_ok (ok_vshl ty hw) (by simp only [fin_back, eType_back])

theorem vshr d a b k ty log : Statement (.vshr d a b k ty log) := by
  have h1 : d.val < 2 ^ 4 := (d.isLt : d.val < 2 ^ 4)
  have h2 : a.val < 2 ^ 4 := (a.isLt : a.val < 2 ^ 4)
  have h3 : b.val < 2 ^ 4 := (b.isLt : b.val < 2 ^ 4)
  have h4 : k.val < 2 ^ 2 := (k.isLt : k.val < 2 ^ 2)
  have h5 : ty.code < 2 ^ 4 := (eType_lt ty)
  have h6 : 0 < 2 ^ 4 := (by decide : 0 < 2 ^ 4)
  have h7 : b2n log < 2 ^ 1 := (b2n_lt log)
  have hf : Fits [(4, d.val), (4, a.val), (4, b.val), (2, k.val), (4, ty.code), (4, 0), (1, b2n log)] :=
    ⟨h1, h2, h3, h4, h5, h6, h7, trivial⟩
  refine of_fields 186 _ rfl (by decide) hf rfl fun lone hw acc0 wd he => ?_
  have r22_19 : bits wd 22 19 = d.val := read _ he hf 0 (Nat.le_of_ble_eq_true rfl)
      (Nat.le_of_ble_eq_true rfl)
  have r18_15 : bits wd 18 15 = a.val := read _ he hf 1 (Nat.le_of_ble_eq_true rfl)
      (Nat.le_of_ble_eq_true rfl)
  have r14_11 : bits wd 14 11 = b.val := read _ he hf 2 (Nat.le_of_ble_eq_true rfl)
      (Nat.le_of_ble_eq_true rfl)
  have r10_9 : bits wd 10 9 = k.val := read _ he hf 3 (Nat.le_of_ble_eq_true rfl)
      (Nat.le_of_ble_eq_true rfl)
  have r8_5 : bits wd 8 5 = ty.code := read _ he hf 4 (Nat.le_of_ble_eq_true rfl)
      (Nat.le_of_ble_eq_true rfl)
  have r4_1 : bits wd 4 1 = 0 := read _ he hf 5 (Nat.le_of_ble_eq_true rfl)
      (Nat.le_of_ble_eq_true rfl)
  have r0_0 : bits wd 0 0 = b2n log := read _ he hf 6 (Nat.le_of_ble_eq_true rfl)
      (Nat.le_of_ble_eq_true rfl)
  change dec_vshr wd = _
  unfold dec_vshr
  rw [r22_19, r18_15, r14_11, r10_9, r8_5, r4_1, r0_0]
  exact checked_ok (ok_vshr ty hw) (by simp only [fin_back, eType_back, bool_back])

theorem vcmp c a b k ty cond : Statement (.vcmp c a b k ty cond) := by
  have h1 : 0 < 2 ^ 2 := (by decide : 0 < 2 ^ 2)
  have h2 : c.val < 2 ^ 2 := (c.isLt : c.val < 2 ^ 2)
  have h3 : a.val < 2 ^ 4 := (a.isLt : a.val < 2 ^ 4)
  have h4 : b.val < 2 ^ 4 := (b.isLt : b.val < 2 ^ 4)
  have h5 : k.val < 2 ^ 2 := (k.isLt : k.val < 2 ^ 2)
  have h6 : ty.code < 2 ^ 4 := (eType_lt ty)
  have h7 : 0 < 2 ^ 2 := (by decide : 0 < 2 ^ 2)
  have h8 : cond.code < 2 ^ 3 := (vCond_lt cond)
  have hf : Fits [(2, 0), (2, c.val), (4, a.val), (4, b.val), (2, k.val), (4, ty.code), (2, 0), (3, cond.code)] :=
    ⟨h1, h2, h3, h4, h5, h6, h7, h8, trivial⟩
  refine of_fields 187 _ rfl (by decide) hf rfl fun lone hw acc0 wd he => ?_
  have r22_21 : bits wd 22 21 = 0 := read _ he hf 0 (Nat.le_of_ble_eq_true rfl)
      (Nat.le_of_ble_eq_true rfl)
  have r20_19 : bits wd 20 19 = c.val := read _ he hf 1 (Nat.le_of_ble_eq_true rfl)
      (Nat.le_of_ble_eq_true rfl)
  have r18_15 : bits wd 18 15 = a.val := read _ he hf 2 (Nat.le_of_ble_eq_true rfl)
      (Nat.le_of_ble_eq_true rfl)
  have r14_11 : bits wd 14 11 = b.val := read _ he hf 3 (Nat.le_of_ble_eq_true rfl)
      (Nat.le_of_ble_eq_true rfl)
  have r10_9 : bits wd 10 9 = k.val := read _ he hf 4 (Nat.le_of_ble_eq_true rfl)
      (Nat.le_of_ble_eq_true rfl)
  have r8_5 : bits wd 8 5 = ty.code := read _ he hf 5 (Nat.le_of_ble_eq_true rfl)
      (Nat.le_of_ble_eq_true rfl)
  have r4_3 : bits wd 4 3 = 0 := read _ he hf 6 (Nat.le_of_ble_eq_true rfl)
      (Nat.le_of_ble_eq_true rfl)
  have r2_0 : bits wd 2 0 = cond.code := read _ he hf 7 (Nat.le_of_ble_eq_true rfl)
      (Nat.le_of_ble_eq_true rfl)
  change dec_vcmp wd = _
  unfold dec_vcmp
  unfold etCodeIsInt
  rw [r22_21, r20_19, r18_15, r14_11, r10_9, r8_5, r4_3, r2_0]
  exact checked_ok (ok_vcmp ty cond hw) (by simp only [fin_back, eType_back, vCond_back])

theorem vsel d a b k ty : Statement (.vsel d a b k ty) := by
  have h1 : d.val < 2 ^ 4 := (d.isLt : d.val < 2 ^ 4)
  have h2 : a.val < 2 ^ 4 := (a.isLt : a.val < 2 ^ 4)
  have h3 : b.val < 2 ^ 4 := (b.isLt : b.val < 2 ^ 4)
  have h4 : k.val < 2 ^ 2 := (k.isLt : k.val < 2 ^ 2)
  have h5 : ty.code < 2 ^ 4 := (eType_lt ty)
  have h6 : 0 < 2 ^ 5 := (by decide : 0 < 2 ^ 5)
  have hf : Fits [(4, d.val), (4, a.val), (4, b.val), (2, k.val), (4, ty.code), (5, 0)] :=
    ⟨h1, h2, h3, h4, h5, h6, trivial⟩
  refine of_fields 188 _ rfl (by decide) hf rfl fun lone hw acc0 wd he => ?_
  have r22_19 : bits wd 22 19 = d.val := read _ he hf 0 (Nat.le_of_ble_eq_true rfl)
      (Nat.le_of_ble_eq_true rfl)
  have r18_15 : bits wd 18 15 = a.val := read _ he hf 1 (Nat.le_of_ble_eq_true rfl)
      (Nat.le_of_ble_eq_true rfl)
  have r14_11 : bits wd 14 11 = b.val := read _ he hf 2 (Nat.le_of_ble_eq_true rfl)
      (Nat.le_of_ble_eq_true rfl)
  have r10_9 : bits wd 10 9 = k.val := read _ he hf 3 (Nat.le_of_ble_eq_true rfl)
      (Nat.le_of_ble_eq_true rfl)
  have r8_5 : bits wd 8 5 = ty.code := read _ he hf 4 (Nat.le_of_ble_eq_true rfl)
      (Nat.le_of_ble_eq_true rfl)
  have r4_0 : bits wd 4 0 = 0 := read _ he hf 5 (Nat.le_of_ble_eq_true rfl)
      (Nat.le_of_ble_eq_true rfl)
  change dec_vsel wd = _
  unfold dec_vsel
  rw [r22_19, r18_15, r14_11, r10_9, r8_5, r4_0]
  exact checked_ok (ok_vsel k ty hw) (by simp only [fin_back, eType_back])

theorem vcvt d a dty k ty rm part : Statement (.vcvt d a dty k ty rm part) := by
  have h1 : d.val < 2 ^ 4 := (d.isLt : d.val < 2 ^ 4)
  have h2 : a.val < 2 ^ 4 := (a.isLt : a.val < 2 ^ 4)
  have h3 : etSwap' dty.code < 2 ^ 4 := (swap_lt dty)
  have h4 : k.val < 2 ^ 2 := (k.isLt : k.val < 2 ^ 2)
  have h5 : ty.code < 2 ^ 4 := (eType_lt ty)
  have h6 : rm.code < 2 ^ 2 := (rounding_lt rm)
  have h7 : part.toNat < 2 ^ 3 := (part.isLt : part.toNat < 2 ^ 3)
  have hf : Fits [(4, d.val), (4, a.val), (4, etSwap' dty.code), (2, k.val), (4, ty.code), (2, rm.code), (3, part.toNat)] :=
    ⟨h1, h2, h3, h4, h5, h6, h7, trivial⟩
  refine of_fields 189 _ rfl (by decide) hf rfl fun lone hw acc0 wd he => ?_
  have r22_19 : bits wd 22 19 = d.val := read _ he hf 0 (Nat.le_of_ble_eq_true rfl)
      (Nat.le_of_ble_eq_true rfl)
  have r18_15 : bits wd 18 15 = a.val := read _ he hf 1 (Nat.le_of_ble_eq_true rfl)
      (Nat.le_of_ble_eq_true rfl)
  have r14_11 : bits wd 14 11 = etSwap' dty.code := read _ he hf 2 (Nat.le_of_ble_eq_true rfl)
      (Nat.le_of_ble_eq_true rfl)
  have r10_9 : bits wd 10 9 = k.val := read _ he hf 3 (Nat.le_of_ble_eq_true rfl)
      (Nat.le_of_ble_eq_true rfl)
  have r8_5 : bits wd 8 5 = ty.code := read _ he hf 4 (Nat.le_of_ble_eq_true rfl)
      (Nat.le_of_ble_eq_true rfl)
  have r4_3 : bits wd 4 3 = rm.code := read _ he hf 5 (Nat.le_of_ble_eq_true rfl)
      (Nat.le_of_ble_eq_true rfl)
  have r2_0 : bits wd 2 0 = part.toNat := read _ he hf 6 (Nat.le_of_ble_eq_true rfl)
      (Nat.le_of_ble_eq_true rfl)
  change dec_vcvt wd = _
  unfold dec_vcvt
  unfold etCodeIsInt etDstIsInt etSrcOk etDstOk etRatio
  rw [r22_19, r18_15, r14_11, r10_9, r8_5, r4_3, r2_0]
  exact checked_ok (ok_vcvt dty ty rm part hw) (by simp only [fin_back, eType_back, rounding_back, bv_back, swap_back])

theorem vredsum d a b k ty acc : Statement (.vredsum d a b k ty acc) := by
  have h1 : d.val < 2 ^ 4 := (d.isLt : d.val < 2 ^ 4)
  have h2 : a.val < 2 ^ 4 := (a.isLt : a.val < 2 ^ 4)
  have h3 : b.val < 2 ^ 4 := (b.isLt : b.val < 2 ^ 4)
  have h4 : k.val < 2 ^ 2 := (k.isLt : k.val < 2 ^ 2)
  have h5 : ty.code < 2 ^ 4 := (eType_lt ty)
  have h6 : 0 < 2 ^ 3 := (by decide : 0 < 2 ^ 3)
  have h7 : acc.code < 2 ^ 2 := (floatFmt_lt acc)
  have hf : Fits [(4, d.val), (4, a.val), (4, b.val), (2, k.val), (4, ty.code), (3, 0), (2, acc.code)] :=
    ⟨h1, h2, h3, h4, h5, h6, h7, trivial⟩
  refine of_fields 190 _ rfl (by decide) hf rfl fun lone hw acc0 wd he => ?_
  have r22_19 : bits wd 22 19 = d.val := read _ he hf 0 (Nat.le_of_ble_eq_true rfl)
      (Nat.le_of_ble_eq_true rfl)
  have r18_15 : bits wd 18 15 = a.val := read _ he hf 1 (Nat.le_of_ble_eq_true rfl)
      (Nat.le_of_ble_eq_true rfl)
  have r14_11 : bits wd 14 11 = b.val := read _ he hf 2 (Nat.le_of_ble_eq_true rfl)
      (Nat.le_of_ble_eq_true rfl)
  have r10_9 : bits wd 10 9 = k.val := read _ he hf 3 (Nat.le_of_ble_eq_true rfl)
      (Nat.le_of_ble_eq_true rfl)
  have r8_5 : bits wd 8 5 = ty.code := read _ he hf 4 (Nat.le_of_ble_eq_true rfl)
      (Nat.le_of_ble_eq_true rfl)
  have r4_2 : bits wd 4 2 = 0 := read _ he hf 5 (Nat.le_of_ble_eq_true rfl)
      (Nat.le_of_ble_eq_true rfl)
  have r1_0 : bits wd 1 0 = acc.code := read _ he hf 6 (Nat.le_of_ble_eq_true rfl)
      (Nat.le_of_ble_eq_true rfl)
  change dec_vredsum wd = _
  unfold dec_vredsum
  unfold etCodeIsInt
  rw [r22_19, r18_15, r14_11, r10_9, r8_5, r4_2, r1_0]
  exact checked_ok (ok_vredsum ty acc hw) (by simp only [fin_back, eType_back, floatFmt_back])

theorem vredmax d a k ty : Statement (.vredmax d a k ty) := by
  have h1 : d.val < 2 ^ 4 := (d.isLt : d.val < 2 ^ 4)
  have h2 : a.val < 2 ^ 4 := (a.isLt : a.val < 2 ^ 4)
  have h3 : 0 < 2 ^ 4 := (by decide : 0 < 2 ^ 4)
  have h4 : k.val < 2 ^ 2 := (k.isLt : k.val < 2 ^ 2)
  have h5 : ty.code < 2 ^ 4 := (eType_lt ty)
  have h6 : 0 < 2 ^ 5 := (by decide : 0 < 2 ^ 5)
  have hf : Fits [(4, d.val), (4, a.val), (4, 0), (2, k.val), (4, ty.code), (5, 0)] :=
    ⟨h1, h2, h3, h4, h5, h6, trivial⟩
  refine of_fields 191 _ rfl (by decide) hf rfl fun lone hw acc0 wd he => ?_
  have r22_19 : bits wd 22 19 = d.val := read _ he hf 0 (Nat.le_of_ble_eq_true rfl)
      (Nat.le_of_ble_eq_true rfl)
  have r18_15 : bits wd 18 15 = a.val := read _ he hf 1 (Nat.le_of_ble_eq_true rfl)
      (Nat.le_of_ble_eq_true rfl)
  have r14_11 : bits wd 14 11 = 0 := read _ he hf 2 (Nat.le_of_ble_eq_true rfl)
      (Nat.le_of_ble_eq_true rfl)
  have r10_9 : bits wd 10 9 = k.val := read _ he hf 3 (Nat.le_of_ble_eq_true rfl)
      (Nat.le_of_ble_eq_true rfl)
  have r8_5 : bits wd 8 5 = ty.code := read _ he hf 4 (Nat.le_of_ble_eq_true rfl)
      (Nat.le_of_ble_eq_true rfl)
  have r4_0 : bits wd 4 0 = 0 := read _ he hf 5 (Nat.le_of_ble_eq_true rfl)
      (Nat.le_of_ble_eq_true rfl)
  change dec_vredmax wd = _
  unfold dec_vredmax
  rw [r22_19, r18_15, r14_11, r10_9, r8_5, r4_0]
  exact checked_ok (ok_vredmax ty hw) (by simp only [fin_back, eType_back])

theorem vexp d a k : Statement (.vexp d a k) := by
  have h1 : d.val < 2 ^ 4 := (d.isLt : d.val < 2 ^ 4)
  have h2 : a.val < 2 ^ 4 := (a.isLt : a.val < 2 ^ 4)
  have h3 : 0 < 2 ^ 4 := (by decide : 0 < 2 ^ 4)
  have h4 : k.val < 2 ^ 2 := (k.isLt : k.val < 2 ^ 2)
  have h5 : 6 < 2 ^ 4 := (by decide : 6 < 2 ^ 4)
  have h6 : 0 < 2 ^ 5 := (by decide : 0 < 2 ^ 5)
  have hf : Fits [(4, d.val), (4, a.val), (4, 0), (2, k.val), (4, 6), (5, 0)] :=
    ⟨h1, h2, h3, h4, h5, h6, trivial⟩
  refine of_fields 192 _ rfl (by decide) hf rfl fun lone hw acc0 wd he => ?_
  have r22_19 : bits wd 22 19 = d.val := read _ he hf 0 (Nat.le_of_ble_eq_true rfl)
      (Nat.le_of_ble_eq_true rfl)
  have r18_15 : bits wd 18 15 = a.val := read _ he hf 1 (Nat.le_of_ble_eq_true rfl)
      (Nat.le_of_ble_eq_true rfl)
  have r14_11 : bits wd 14 11 = 0 := read _ he hf 2 (Nat.le_of_ble_eq_true rfl)
      (Nat.le_of_ble_eq_true rfl)
  have r10_9 : bits wd 10 9 = k.val := read _ he hf 3 (Nat.le_of_ble_eq_true rfl)
      (Nat.le_of_ble_eq_true rfl)
  have r8_5 : bits wd 8 5 = 6 := read _ he hf 4 (Nat.le_of_ble_eq_true rfl)
      (Nat.le_of_ble_eq_true rfl)
  have r4_0 : bits wd 4 0 = 0 := read _ he hf 5 (Nat.le_of_ble_eq_true rfl)
      (Nat.le_of_ble_eq_true rfl)
  change dec_vexp wd = _
  unfold dec_vexp
  rw [r22_19, r18_15, r14_11, r10_9, r8_5, r4_0]
  exact checked_ok (rfl) (by simp only [fin_back])

theorem vrcp d a k ty rm : Statement (.vrcp d a k ty rm) := by
  have h1 : d.val < 2 ^ 4 := (d.isLt : d.val < 2 ^ 4)
  have h2 : a.val < 2 ^ 4 := (a.isLt : a.val < 2 ^ 4)
  have h3 : 0 < 2 ^ 4 := (by decide : 0 < 2 ^ 4)
  have h4 : k.val < 2 ^ 2 := (k.isLt : k.val < 2 ^ 2)
  have h5 : ty.code < 2 ^ 4 := (eType_lt ty)
  have h6 : rm.code < 2 ^ 2 := (rounding_lt rm)
  have h7 : 0 < 2 ^ 3 := (by decide : 0 < 2 ^ 3)
  have hf : Fits [(4, d.val), (4, a.val), (4, 0), (2, k.val), (4, ty.code), (2, rm.code), (3, 0)] :=
    ⟨h1, h2, h3, h4, h5, h6, h7, trivial⟩
  refine of_fields 193 _ rfl (by decide) hf rfl fun lone hw acc0 wd he => ?_
  have r22_19 : bits wd 22 19 = d.val := read _ he hf 0 (Nat.le_of_ble_eq_true rfl)
      (Nat.le_of_ble_eq_true rfl)
  have r18_15 : bits wd 18 15 = a.val := read _ he hf 1 (Nat.le_of_ble_eq_true rfl)
      (Nat.le_of_ble_eq_true rfl)
  have r14_11 : bits wd 14 11 = 0 := read _ he hf 2 (Nat.le_of_ble_eq_true rfl)
      (Nat.le_of_ble_eq_true rfl)
  have r10_9 : bits wd 10 9 = k.val := read _ he hf 3 (Nat.le_of_ble_eq_true rfl)
      (Nat.le_of_ble_eq_true rfl)
  have r8_5 : bits wd 8 5 = ty.code := read _ he hf 4 (Nat.le_of_ble_eq_true rfl)
      (Nat.le_of_ble_eq_true rfl)
  have r4_3 : bits wd 4 3 = rm.code := read _ he hf 5 (Nat.le_of_ble_eq_true rfl)
      (Nat.le_of_ble_eq_true rfl)
  have r2_0 : bits wd 2 0 = 0 := read _ he hf 6 (Nat.le_of_ble_eq_true rfl)
      (Nat.le_of_ble_eq_true rfl)
  change dec_vrcp wd = _
  unfold dec_vrcp
  rw [r22_19, r18_15, r14_11, r10_9, r8_5, r4_3, r2_0]
  exact checked_ok (ok_vrcp ty hw) (by simp only [fin_back, eType_back, rounding_back])

theorem vsplat d a wid : Statement (.vsplat d a wid) := by
  have h1 : d.val < 2 ^ 5 := lt_wide (m := 4) 5 ((d.isLt : d.val < 2 ^ 4)) (by decide)
  have h2 : a.val < 2 ^ 5 := (a.isLt : a.val < 2 ^ 5)
  have h3 : 0 < 2 ^ 5 := (by decide : 0 < 2 ^ 5)
  have h4 : wid.code < 2 ^ 2 := (width_lt wid)
  have h5 : 0 < 2 ^ 6 := (by decide : 0 < 2 ^ 6)
  have hf : Fits [(5, d.val), (5, a.val), (5, 0), (2, wid.code), (6, 0)] :=
    ⟨h1, h2, h3, h4, h5, trivial⟩
  refine of_fields 194 _ rfl (by decide) hf rfl fun lone hw acc0 wd he => ?_
  have r22_18 : bits wd 22 18 = d.val := read _ he hf 0 (Nat.le_of_ble_eq_true rfl)
      (Nat.le_of_ble_eq_true rfl)
  have r17_13 : bits wd 17 13 = a.val := read _ he hf 1 (Nat.le_of_ble_eq_true rfl)
      (Nat.le_of_ble_eq_true rfl)
  have r12_8 : bits wd 12 8 = 0 := read _ he hf 2 (Nat.le_of_ble_eq_true rfl)
      (Nat.le_of_ble_eq_true rfl)
  have r7_6 : bits wd 7 6 = wid.code := read _ he hf 3 (Nat.le_of_ble_eq_true rfl)
      (Nat.le_of_ble_eq_true rfl)
  have r5_0 : bits wd 5 0 = 0 := read _ he hf 4 (Nat.le_of_ble_eq_true rfl)
      (Nat.le_of_ble_eq_true rfl)
  change dec_vsplat wd = _
  unfold dec_vsplat
  rw [r22_18, r17_13, r12_8, r7_6, r5_0]
  exact checked_ok (ok_vsplat d hw) (by simp only [fin_back, width_back])

theorem vperm d a b k ty z : Statement (.vperm d a b k ty z) := by
  have h1 : d.val < 2 ^ 4 := (d.isLt : d.val < 2 ^ 4)
  have h2 : a.val < 2 ^ 4 := (a.isLt : a.val < 2 ^ 4)
  have h3 : b.val < 2 ^ 4 := (b.isLt : b.val < 2 ^ 4)
  have h4 : k.val < 2 ^ 2 := (k.isLt : k.val < 2 ^ 2)
  have h5 : ty.code < 2 ^ 4 := (eType_lt ty)
  have h6 : 0 < 2 ^ 4 := (by decide : 0 < 2 ^ 4)
  have h7 : b2n z < 2 ^ 1 := (b2n_lt z)
  have hf : Fits [(4, d.val), (4, a.val), (4, b.val), (2, k.val), (4, ty.code), (4, 0), (1, b2n z)] :=
    ⟨h1, h2, h3, h4, h5, h6, h7, trivial⟩
  refine of_fields 195 _ rfl (by decide) hf rfl fun lone hw acc0 wd he => ?_
  have r22_19 : bits wd 22 19 = d.val := read _ he hf 0 (Nat.le_of_ble_eq_true rfl)
      (Nat.le_of_ble_eq_true rfl)
  have r18_15 : bits wd 18 15 = a.val := read _ he hf 1 (Nat.le_of_ble_eq_true rfl)
      (Nat.le_of_ble_eq_true rfl)
  have r14_11 : bits wd 14 11 = b.val := read _ he hf 2 (Nat.le_of_ble_eq_true rfl)
      (Nat.le_of_ble_eq_true rfl)
  have r10_9 : bits wd 10 9 = k.val := read _ he hf 3 (Nat.le_of_ble_eq_true rfl)
      (Nat.le_of_ble_eq_true rfl)
  have r8_5 : bits wd 8 5 = ty.code := read _ he hf 4 (Nat.le_of_ble_eq_true rfl)
      (Nat.le_of_ble_eq_true rfl)
  have r4_1 : bits wd 4 1 = 0 := read _ he hf 5 (Nat.le_of_ble_eq_true rfl)
      (Nat.le_of_ble_eq_true rfl)
  have r0_0 : bits wd 0 0 = b2n z := read _ he hf 6 (Nat.le_of_ble_eq_true rfl)
      (Nat.le_of_ble_eq_true rfl)
  change dec_vperm wd = _
  unfold dec_vperm
  rw [r22_19, r18_15, r14_11, r10_9, r8_5, r4_1, r0_0]
  exact checked_ok (ok_vperm ty hw) (by simp only [fin_back, eType_back, bool_back])

theorem vmovg d a b wid s : Statement (.vmovg d a b wid s) := by
  have h1 : d.val < 2 ^ 5 := (d.isLt : d.val < 2 ^ 5)
  have h2 : a.val < 2 ^ 5 := lt_wide (m := 4) 5 ((a.isLt : a.val < 2 ^ 4)) (by decide)
  have h3 : b.val < 2 ^ 5 := (b.isLt : b.val < 2 ^ 5)
  have h4 : wid.code < 2 ^ 2 := (width_lt wid)
  have h5 : 0 < 2 ^ 5 := (by decide : 0 < 2 ^ 5)
  have h6 : b2n s < 2 ^ 1 := (b2n_lt s)
  have hf : Fits [(5, d.val), (5, a.val), (5, b.val), (2, wid.code), (5, 0), (1, b2n s)] :=
    ⟨h1, h2, h3, h4, h5, h6, trivial⟩
  refine of_fields 196 _ rfl (by decide) hf rfl fun lone hw acc0 wd he => ?_
  have r22_18 : bits wd 22 18 = d.val := read _ he hf 0 (Nat.le_of_ble_eq_true rfl)
      (Nat.le_of_ble_eq_true rfl)
  have r17_13 : bits wd 17 13 = a.val := read _ he hf 1 (Nat.le_of_ble_eq_true rfl)
      (Nat.le_of_ble_eq_true rfl)
  have r12_8 : bits wd 12 8 = b.val := read _ he hf 2 (Nat.le_of_ble_eq_true rfl)
      (Nat.le_of_ble_eq_true rfl)
  have r7_6 : bits wd 7 6 = wid.code := read _ he hf 3 (Nat.le_of_ble_eq_true rfl)
      (Nat.le_of_ble_eq_true rfl)
  have r5_1 : bits wd 5 1 = 0 := read _ he hf 4 (Nat.le_of_ble_eq_true rfl)
      (Nat.le_of_ble_eq_true rfl)
  have r0_0 : bits wd 0 0 = b2n s := read _ he hf 5 (Nat.le_of_ble_eq_true rfl)
      (Nat.le_of_ble_eq_true rfl)
  change dec_vmovg wd = _
  unfold dec_vmovg
  rw [r22_18, r17_13, r12_8, r7_6, r5_1, r0_0]
  exact checked_ok (ok_vmovg a hw) (by simp only [fin_back, width_back, bool_back])

theorem vmovv d a b wid : Statement (.vmovv d a b wid) := by
  have h1 : d.val < 2 ^ 5 := lt_wide (m := 4) 5 ((d.isLt : d.val < 2 ^ 4)) (by decide)
  have h2 : a.val < 2 ^ 5 := (a.isLt : a.val < 2 ^ 5)
  have h3 : b.val < 2 ^ 5 := (b.isLt : b.val < 2 ^ 5)
  have h4 : wid.code < 2 ^ 2 := (width_lt wid)
  have h5 : 0 < 2 ^ 6 := (by decide : 0 < 2 ^ 6)
  have hf : Fits [(5, d.val), (5, a.val), (5, b.val), (2, wid.code), (6, 0)] :=
    ⟨h1, h2, h3, h4, h5, trivial⟩
  refine of_fields 197 _ rfl (by decide) hf rfl fun lone hw acc0 wd he => ?_
  have r22_18 : bits wd 22 18 = d.val := read _ he hf 0 (Nat.le_of_ble_eq_true rfl)
      (Nat.le_of_ble_eq_true rfl)
  have r17_13 : bits wd 17 13 = a.val := read _ he hf 1 (Nat.le_of_ble_eq_true rfl)
      (Nat.le_of_ble_eq_true rfl)
  have r12_8 : bits wd 12 8 = b.val := read _ he hf 2 (Nat.le_of_ble_eq_true rfl)
      (Nat.le_of_ble_eq_true rfl)
  have r7_6 : bits wd 7 6 = wid.code := read _ he hf 3 (Nat.le_of_ble_eq_true rfl)
      (Nat.le_of_ble_eq_true rfl)
  have r5_0 : bits wd 5 0 = 0 := read _ he hf 4 (Nat.le_of_ble_eq_true rfl)
      (Nat.le_of_ble_eq_true rfl)
  change dec_vmovv wd = _
  unfold dec_vmovv
  rw [r22_18, r17_13, r12_8, r7_6, r5_0]
  exact checked_ok (ok_vmovv d hw) (by simp only [fin_back, width_back])

theorem vtopk d a b k ty : Statement (.vtopk d a b k ty) := by
  have h1 : d.val < 2 ^ 4 := (d.isLt : d.val < 2 ^ 4)
  have h2 : a.val < 2 ^ 4 := (a.isLt : a.val < 2 ^ 4)
  have h3 : b.toNat < 2 ^ 4 := (b.isLt : b.toNat < 2 ^ 4)
  have h4 : k.val < 2 ^ 2 := (k.isLt : k.val < 2 ^ 2)
  have h5 : ty.code < 2 ^ 4 := (eType_lt ty)
  have h6 : 0 < 2 ^ 5 := (by decide : 0 < 2 ^ 5)
  have hf : Fits [(4, d.val), (4, a.val), (4, b.toNat), (2, k.val), (4, ty.code), (5, 0)] :=
    ⟨h1, h2, h3, h4, h5, h6, trivial⟩
  refine of_fields 198 _ rfl (by decide) hf rfl fun lone hw acc0 wd he => ?_
  have r22_19 : bits wd 22 19 = d.val := read _ he hf 0 (Nat.le_of_ble_eq_true rfl)
      (Nat.le_of_ble_eq_true rfl)
  have r18_15 : bits wd 18 15 = a.val := read _ he hf 1 (Nat.le_of_ble_eq_true rfl)
      (Nat.le_of_ble_eq_true rfl)
  have r14_11 : bits wd 14 11 = b.toNat := read _ he hf 2 (Nat.le_of_ble_eq_true rfl)
      (Nat.le_of_ble_eq_true rfl)
  have r10_9 : bits wd 10 9 = k.val := read _ he hf 3 (Nat.le_of_ble_eq_true rfl)
      (Nat.le_of_ble_eq_true rfl)
  have r8_5 : bits wd 8 5 = ty.code := read _ he hf 4 (Nat.le_of_ble_eq_true rfl)
      (Nat.le_of_ble_eq_true rfl)
  have r4_0 : bits wd 4 0 = 0 := read _ he hf 5 (Nat.le_of_ble_eq_true rfl)
      (Nat.le_of_ble_eq_true rfl)
  change dec_vtopk wd = _
  unfold dec_vtopk
  rw [r22_19, r18_15, r14_11, r10_9, r8_5, r4_0]
  exact checked_ok (ok_vmax ty hw) (by simp only [fin_back, bv_back, eType_back])

theorem vdot d a b k ty acc : Statement (.vdot d a b k ty acc) := by
  have h1 : d.val < 2 ^ 4 := (d.isLt : d.val < 2 ^ 4)
  have h2 : a.val < 2 ^ 4 := (a.isLt : a.val < 2 ^ 4)
  have h3 : b.val < 2 ^ 4 := (b.isLt : b.val < 2 ^ 4)
  have h4 : k.val < 2 ^ 2 := (k.isLt : k.val < 2 ^ 2)
  have h5 : ty.code < 2 ^ 4 := (eType_lt ty)
  have h6 : 0 < 2 ^ 3 := (by decide : 0 < 2 ^ 3)
  have h7 : acc.code < 2 ^ 2 := (floatFmt_lt acc)
  have hf : Fits [(4, d.val), (4, a.val), (4, b.val), (2, k.val), (4, ty.code), (3, 0), (2, acc.code)] :=
    ⟨h1, h2, h3, h4, h5, h6, h7, trivial⟩
  refine of_fields 199 _ rfl (by decide) hf rfl fun lone hw acc0 wd he => ?_
  have r22_19 : bits wd 22 19 = d.val := read _ he hf 0 (Nat.le_of_ble_eq_true rfl)
      (Nat.le_of_ble_eq_true rfl)
  have r18_15 : bits wd 18 15 = a.val := read _ he hf 1 (Nat.le_of_ble_eq_true rfl)
      (Nat.le_of_ble_eq_true rfl)
  have r14_11 : bits wd 14 11 = b.val := read _ he hf 2 (Nat.le_of_ble_eq_true rfl)
      (Nat.le_of_ble_eq_true rfl)
  have r10_9 : bits wd 10 9 = k.val := read _ he hf 3 (Nat.le_of_ble_eq_true rfl)
      (Nat.le_of_ble_eq_true rfl)
  have r8_5 : bits wd 8 5 = ty.code := read _ he hf 4 (Nat.le_of_ble_eq_true rfl)
      (Nat.le_of_ble_eq_true rfl)
  have r4_2 : bits wd 4 2 = 0 := read _ he hf 5 (Nat.le_of_ble_eq_true rfl)
      (Nat.le_of_ble_eq_true rfl)
  have r1_0 : bits wd 1 0 = acc.code := read _ he hf 6 (Nat.le_of_ble_eq_true rfl)
      (Nat.le_of_ble_eq_true rfl)
  change dec_vdot wd = _
  unfold dec_vdot
  unfold etCodeIsInt
  rw [r22_19, r18_15, r14_11, r10_9, r8_5, r4_2, r1_0]
  exact checked_ok (ok_vdot ty acc hw) (by simp only [fin_back, eType_back, floatFmt_back])

theorem tshape d a : Statement (.tshape d a) := by
  have h1 : d.val < 2 ^ 5 := lt_wide (m := 3) 5 ((d.isLt : d.val < 2 ^ 3)) (by decide)
  have h2 : a.val < 2 ^ 5 := (a.isLt : a.val < 2 ^ 5)
  have h3 : 0 < 2 ^ 5 := (by decide : 0 < 2 ^ 5)
  have h4 : 0 < 2 ^ 8 := (by decide : 0 < 2 ^ 8)
  have hf : Fits [(5, d.val), (5, a.val), (5, 0), (8, 0)] :=
    ⟨h1, h2, h3, h4, trivial⟩
  refine of_fields 200 _ rfl (by decide) hf rfl fun lone hw acc0 wd he => ?_
  have r22_18 : bits wd 22 18 = d.val := read _ he hf 0 (Nat.le_of_ble_eq_true rfl)
      (Nat.le_of_ble_eq_true rfl)
  have r17_13 : bits wd 17 13 = a.val := read _ he hf 1 (Nat.le_of_ble_eq_true rfl)
      (Nat.le_of_ble_eq_true rfl)
  have r12_8 : bits wd 12 8 = 0 := read _ he hf 2 (Nat.le_of_ble_eq_true rfl)
      (Nat.le_of_ble_eq_true rfl)
  have r7_0 : bits wd 7 0 = 0 := read _ he hf 3 (Nat.le_of_ble_eq_true rfl)
      (Nat.le_of_ble_eq_true rfl)
  change dec_tshape wd = _
  unfold dec_tshape
  rw [r22_18, r17_13, r12_8, r7_0]
  exact checked_ok (ok_tshape d hw) (by simp only [fin_back])

theorem tld d a b st : Statement (.tld d a b st) := by
  have h1 : d.val < 2 ^ 5 := lt_wide (m := 3) 5 ((d.isLt : d.val < 2 ^ 3)) (by decide)
  have h2 : a.val < 2 ^ 5 := (a.isLt : a.val < 2 ^ 5)
  have h3 : b.val < 2 ^ 5 := (b.isLt : b.val < 2 ^ 5)
  have h4 : 0 < 2 ^ 6 := (by decide : 0 < 2 ^ 6)
  have h5 : st.toNat < 2 ^ 2 := (st.isLt : st.toNat < 2 ^ 2)
  have hf : Fits [(5, d.val), (5, a.val), (5, b.val), (6, 0), (2, st.toNat)] :=
    ⟨h1, h2, h3, h4, h5, trivial⟩
  refine of_fields 201 _ rfl (by decide) hf rfl fun lone hw acc0 wd he => ?_
  have r22_18 : bits wd 22 18 = d.val := read _ he hf 0 (Nat.le_of_ble_eq_true rfl)
      (Nat.le_of_ble_eq_true rfl)
  have r17_13 : bits wd 17 13 = a.val := read _ he hf 1 (Nat.le_of_ble_eq_true rfl)
      (Nat.le_of_ble_eq_true rfl)
  have r12_8 : bits wd 12 8 = b.val := read _ he hf 2 (Nat.le_of_ble_eq_true rfl)
      (Nat.le_of_ble_eq_true rfl)
  have r7_2 : bits wd 7 2 = 0 := read _ he hf 3 (Nat.le_of_ble_eq_true rfl)
      (Nat.le_of_ble_eq_true rfl)
  have r1_0 : bits wd 1 0 = st.toNat := read _ he hf 4 (Nat.le_of_ble_eq_true rfl)
      (Nat.le_of_ble_eq_true rfl)
  change dec_tld wd = _
  unfold dec_tld
  rw [r22_18, r17_13, r12_8, r7_2, r1_0]
  exact checked_ok (ok_tld d hw) (by simp only [fin_back, bv_back])

theorem tst d a b st : Statement (.tst d a b st) := by
  have h1 : d.val < 2 ^ 5 := lt_wide (m := 3) 5 ((d.isLt : d.val < 2 ^ 3)) (by decide)
  have h2 : a.val < 2 ^ 5 := (a.isLt : a.val < 2 ^ 5)
  have h3 : b.val < 2 ^ 5 := (b.isLt : b.val < 2 ^ 5)
  have h4 : 0 < 2 ^ 6 := (by decide : 0 < 2 ^ 6)
  have h5 : st.toNat < 2 ^ 2 := (st.isLt : st.toNat < 2 ^ 2)
  have hf : Fits [(5, d.val), (5, a.val), (5, b.val), (6, 0), (2, st.toNat)] :=
    ⟨h1, h2, h3, h4, h5, trivial⟩
  refine of_fields 202 _ rfl (by decide) hf rfl fun lone hw acc0 wd he => ?_
  have r22_18 : bits wd 22 18 = d.val := read _ he hf 0 (Nat.le_of_ble_eq_true rfl)
      (Nat.le_of_ble_eq_true rfl)
  have r17_13 : bits wd 17 13 = a.val := read _ he hf 1 (Nat.le_of_ble_eq_true rfl)
      (Nat.le_of_ble_eq_true rfl)
  have r12_8 : bits wd 12 8 = b.val := read _ he hf 2 (Nat.le_of_ble_eq_true rfl)
      (Nat.le_of_ble_eq_true rfl)
  have r7_2 : bits wd 7 2 = 0 := read _ he hf 3 (Nat.le_of_ble_eq_true rfl)
      (Nat.le_of_ble_eq_true rfl)
  have r1_0 : bits wd 1 0 = st.toNat := read _ he hf 4 (Nat.le_of_ble_eq_true rfl)
      (Nat.le_of_ble_eq_true rfl)
  change dec_tst wd = _
  unfold dec_tst
  rw [r22_18, r17_13, r12_8, r7_2, r1_0]
  exact checked_ok (ok_tld d hw) (by simp only [fin_back, bv_back])

theorem tzero d st : Statement (.tzero d st) := by
  have h1 : d.val < 2 ^ 3 := (d.isLt : d.val < 2 ^ 3)
  have h2 : 0 < 2 ^ 3 := (by decide : 0 < 2 ^ 3)
  have h3 : 0 < 2 ^ 3 := (by decide : 0 < 2 ^ 3)
  have h4 : 0 < 2 ^ 2 := (by decide : 0 < 2 ^ 2)
  have h5 : st.toNat < 2 ^ 2 := (st.isLt : st.toNat < 2 ^ 2)
  have h6 : 0 < 2 ^ 2 := (by decide : 0 < 2 ^ 2)
  have h7 : 0 < 2 ^ 8 := (by decide : 0 < 2 ^ 8)
  have hf : Fits [(3, d.val), (3, 0), (3, 0), (2, 0), (2, st.toNat), (2, 0), (8, 0)] :=
    ⟨h1, h2, h3, h4, h5, h6, h7, trivial⟩
  refine of_fields 203 _ rfl (by decide) hf rfl fun lone hw acc0 wd he => ?_
  have r22_20 : bits wd 22 20 = d.val := read _ he hf 0 (Nat.le_of_ble_eq_true rfl)
      (Nat.le_of_ble_eq_true rfl)
  have r19_17 : bits wd 19 17 = 0 := read _ he hf 1 (Nat.le_of_ble_eq_true rfl)
      (Nat.le_of_ble_eq_true rfl)
  have r16_14 : bits wd 16 14 = 0 := read _ he hf 2 (Nat.le_of_ble_eq_true rfl)
      (Nat.le_of_ble_eq_true rfl)
  have r13_12 : bits wd 13 12 = 0 := read _ he hf 3 (Nat.le_of_ble_eq_true rfl)
      (Nat.le_of_ble_eq_true rfl)
  have r11_10 : bits wd 11 10 = st.toNat := read _ he hf 4 (Nat.le_of_ble_eq_true rfl)
      (Nat.le_of_ble_eq_true rfl)
  have r9_8 : bits wd 9 8 = 0 := read _ he hf 5 (Nat.le_of_ble_eq_true rfl)
      (Nat.le_of_ble_eq_true rfl)
  have r7_0 : bits wd 7 0 = 0 := read _ he hf 6 (Nat.le_of_ble_eq_true rfl)
      (Nat.le_of_ble_eq_true rfl)
  change dec_tzero wd = _
  unfold dec_tzero
  rw [r22_20, r19_17, r16_14, r13_12, r11_10, r9_8, r7_0]
  exact checked_ok (rfl) (by simp only [fin_back, bv_back])

theorem mma d a b df st acc : Statement (.mma d a b df st acc) := by
  have h1 : d.val < 2 ^ 3 := (d.isLt : d.val < 2 ^ 3)
  have h2 : a.val < 2 ^ 3 := (a.isLt : a.val < 2 ^ 3)
  have h3 : b.val < 2 ^ 3 := (b.isLt : b.val < 2 ^ 3)
  have h4 : df.code < 2 ^ 2 := (dataflow_lt df)
  have h5 : st.toNat < 2 ^ 2 := (st.isLt : st.toNat < 2 ^ 2)
  have h6 : acc.code < 2 ^ 2 := (floatFmt_lt acc)
  have h7 : 0 < 2 ^ 8 := (by decide : 0 < 2 ^ 8)
  have hf : Fits [(3, d.val), (3, a.val), (3, b.val), (2, df.code), (2, st.toNat), (2, acc.code), (8, 0)] :=
    ⟨h1, h2, h3, h4, h5, h6, h7, trivial⟩
  refine of_fields 204 _ rfl (by decide) hf rfl fun lone hw acc0 wd he => ?_
  have r22_20 : bits wd 22 20 = d.val := read _ he hf 0 (Nat.le_of_ble_eq_true rfl)
      (Nat.le_of_ble_eq_true rfl)
  have r19_17 : bits wd 19 17 = a.val := read _ he hf 1 (Nat.le_of_ble_eq_true rfl)
      (Nat.le_of_ble_eq_true rfl)
  have r16_14 : bits wd 16 14 = b.val := read _ he hf 2 (Nat.le_of_ble_eq_true rfl)
      (Nat.le_of_ble_eq_true rfl)
  have r13_12 : bits wd 13 12 = df.code := read _ he hf 3 (Nat.le_of_ble_eq_true rfl)
      (Nat.le_of_ble_eq_true rfl)
  have r11_10 : bits wd 11 10 = st.toNat := read _ he hf 4 (Nat.le_of_ble_eq_true rfl)
      (Nat.le_of_ble_eq_true rfl)
  have r9_8 : bits wd 9 8 = acc.code := read _ he hf 5 (Nat.le_of_ble_eq_true rfl)
      (Nat.le_of_ble_eq_true rfl)
  have r7_0 : bits wd 7 0 = 0 := read _ he hf 6 (Nat.le_of_ble_eq_true rfl)
      (Nat.le_of_ble_eq_true rfl)
  change dec_mma wd = _
  unfold dec_mma
  rw [r22_20, r19_17, r16_14, r13_12, r11_10, r9_8, r7_0]
  exact checked_ok (ok_mma df acc hw) (by simp only [fin_back, dataflow_back, bv_back, floatFmt_back])

theorem mmas d a b df st acc : Statement (.mmas d a b df st acc) := by
  have h1 : d.val < 2 ^ 3 := (d.isLt : d.val < 2 ^ 3)
  have h2 : a.val < 2 ^ 3 := (a.isLt : a.val < 2 ^ 3)
  have h3 : b.val < 2 ^ 3 := (b.isLt : b.val < 2 ^ 3)
  have h4 : df.code < 2 ^ 2 := (dataflow_lt df)
  have h5 : st.toNat < 2 ^ 2 := (st.isLt : st.toNat < 2 ^ 2)
  have h6 : acc.code < 2 ^ 2 := (floatFmt_lt acc)
  have h7 : 0 < 2 ^ 8 := (by decide : 0 < 2 ^ 8)
  have hf : Fits [(3, d.val), (3, a.val), (3, b.val), (2, df.code), (2, st.toNat), (2, acc.code), (8, 0)] :=
    ⟨h1, h2, h3, h4, h5, h6, h7, trivial⟩
  refine of_fields 205 _ rfl (by decide) hf rfl fun lone hw acc0 wd he => ?_
  have r22_20 : bits wd 22 20 = d.val := read _ he hf 0 (Nat.le_of_ble_eq_true rfl)
      (Nat.le_of_ble_eq_true rfl)
  have r19_17 : bits wd 19 17 = a.val := read _ he hf 1 (Nat.le_of_ble_eq_true rfl)
      (Nat.le_of_ble_eq_true rfl)
  have r16_14 : bits wd 16 14 = b.val := read _ he hf 2 (Nat.le_of_ble_eq_true rfl)
      (Nat.le_of_ble_eq_true rfl)
  have r13_12 : bits wd 13 12 = df.code := read _ he hf 3 (Nat.le_of_ble_eq_true rfl)
      (Nat.le_of_ble_eq_true rfl)
  have r11_10 : bits wd 11 10 = st.toNat := read _ he hf 4 (Nat.le_of_ble_eq_true rfl)
      (Nat.le_of_ble_eq_true rfl)
  have r9_8 : bits wd 9 8 = acc.code := read _ he hf 5 (Nat.le_of_ble_eq_true rfl)
      (Nat.le_of_ble_eq_true rfl)
  have r7_0 : bits wd 7 0 = 0 := read _ he hf 6 (Nat.le_of_ble_eq_true rfl)
      (Nat.le_of_ble_eq_true rfl)
  change dec_mmas wd = _
  unfold dec_mmas
  rw [r22_20, r19_17, r16_14, r13_12, r11_10, r9_8, r7_0]
  exact checked_ok (ok_mma df acc hw) (by simp only [fin_back, dataflow_back, bv_back, floatFmt_back])

theorem mmss d a b df st acc : Statement (.mmss d a b df st acc) := by
  have h1 : d.val < 2 ^ 3 := (d.isLt : d.val < 2 ^ 3)
  have h2 : a.val < 2 ^ 3 := (a.isLt : a.val < 2 ^ 3)
  have h3 : b.val < 2 ^ 3 := (b.isLt : b.val < 2 ^ 3)
  have h4 : df.code < 2 ^ 2 := (dataflow_lt df)
  have h5 : st.toNat < 2 ^ 2 := (st.isLt : st.toNat < 2 ^ 2)
  have h6 : acc.code < 2 ^ 2 := (floatFmt_lt acc)
  have h7 : 0 < 2 ^ 8 := (by decide : 0 < 2 ^ 8)
  have hf : Fits [(3, d.val), (3, a.val), (3, b.val), (2, df.code), (2, st.toNat), (2, acc.code), (8, 0)] :=
    ⟨h1, h2, h3, h4, h5, h6, h7, trivial⟩
  refine of_fields 206 _ rfl (by decide) hf rfl fun lone hw acc0 wd he => ?_
  have r22_20 : bits wd 22 20 = d.val := read _ he hf 0 (Nat.le_of_ble_eq_true rfl)
      (Nat.le_of_ble_eq_true rfl)
  have r19_17 : bits wd 19 17 = a.val := read _ he hf 1 (Nat.le_of_ble_eq_true rfl)
      (Nat.le_of_ble_eq_true rfl)
  have r16_14 : bits wd 16 14 = b.val := read _ he hf 2 (Nat.le_of_ble_eq_true rfl)
      (Nat.le_of_ble_eq_true rfl)
  have r13_12 : bits wd 13 12 = df.code := read _ he hf 3 (Nat.le_of_ble_eq_true rfl)
      (Nat.le_of_ble_eq_true rfl)
  have r11_10 : bits wd 11 10 = st.toNat := read _ he hf 4 (Nat.le_of_ble_eq_true rfl)
      (Nat.le_of_ble_eq_true rfl)
  have r9_8 : bits wd 9 8 = acc.code := read _ he hf 5 (Nat.le_of_ble_eq_true rfl)
      (Nat.le_of_ble_eq_true rfl)
  have r7_0 : bits wd 7 0 = 0 := read _ he hf 6 (Nat.le_of_ble_eq_true rfl)
      (Nat.le_of_ble_eq_true rfl)
  change dec_mmss wd = _
  unfold dec_mmss
  rw [r22_20, r19_17, r16_14, r13_12, r11_10, r9_8, r7_0]
  exact checked_ok (ok_mma df acc hw) (by simp only [fin_back, dataflow_back, bv_back, floatFmt_back])

theorem tcvt d a st rs : Statement (.tcvt d a st rs) := by
  have h1 : d.val < 2 ^ 3 := (d.isLt : d.val < 2 ^ 3)
  have h2 : a.val < 2 ^ 3 := (a.isLt : a.val < 2 ^ 3)
  have h3 : 0 < 2 ^ 3 := (by decide : 0 < 2 ^ 3)
  have h4 : 0 < 2 ^ 2 := (by decide : 0 < 2 ^ 2)
  have h5 : st.toNat < 2 ^ 2 := (st.isLt : st.toNat < 2 ^ 2)
  have h6 : 0 < 2 ^ 2 := (by decide : 0 < 2 ^ 2)
  have h7 : rs.rm < 2 ^ 2 := (rm_lt rs)
  have h8 : rs.rd < 2 ^ 1 := (rd_lt rs)
  have h9 : 0 < 2 ^ 5 := (by decide : 0 < 2 ^ 5)
  have hf : Fits [(3, d.val), (3, a.val), (3, 0), (2, 0), (2, st.toNat), (2, 0), (2, rs.rm), (1, rs.rd), (5, 0)] :=
    ⟨h1, h2, h3, h4, h5, h6, h7, h8, h9, trivial⟩
  refine of_fields 207 _ rfl (by decide) hf rfl fun lone hw acc0 wd he => ?_
  have r22_20 : bits wd 22 20 = d.val := read _ he hf 0 (Nat.le_of_ble_eq_true rfl)
      (Nat.le_of_ble_eq_true rfl)
  have r19_17 : bits wd 19 17 = a.val := read _ he hf 1 (Nat.le_of_ble_eq_true rfl)
      (Nat.le_of_ble_eq_true rfl)
  have r16_14 : bits wd 16 14 = 0 := read _ he hf 2 (Nat.le_of_ble_eq_true rfl)
      (Nat.le_of_ble_eq_true rfl)
  have r13_12 : bits wd 13 12 = 0 := read _ he hf 3 (Nat.le_of_ble_eq_true rfl)
      (Nat.le_of_ble_eq_true rfl)
  have r11_10 : bits wd 11 10 = st.toNat := read _ he hf 4 (Nat.le_of_ble_eq_true rfl)
      (Nat.le_of_ble_eq_true rfl)
  have r9_8 : bits wd 9 8 = 0 := read _ he hf 5 (Nat.le_of_ble_eq_true rfl)
      (Nat.le_of_ble_eq_true rfl)
  have r7_6 : bits wd 7 6 = rs.rm := read _ he hf 6 (Nat.le_of_ble_eq_true rfl)
      (Nat.le_of_ble_eq_true rfl)
  have r5_5 : bits wd 5 5 = rs.rd := read _ he hf 7 (Nat.le_of_ble_eq_true rfl)
      (Nat.le_of_ble_eq_true rfl)
  have r4_0 : bits wd 4 0 = 0 := read _ he hf 8 (Nat.le_of_ble_eq_true rfl)
      (Nat.le_of_ble_eq_true rfl)
  change dec_tcvt wd = _
  unfold dec_tcvt
  rw [r22_20, r19_17, r16_14, r13_12, r11_10, r9_8, r7_6, r5_5, r4_0]
  exact checked_ok (ok_tcvt rs hw) (by simp only [fin_back, bv_back, round_back])

theorem tadd d a b st rs : Statement (.tadd d a b st rs) := by
  have h1 : d.val < 2 ^ 3 := (d.isLt : d.val < 2 ^ 3)
  have h2 : a.val < 2 ^ 3 := (a.isLt : a.val < 2 ^ 3)
  have h3 : b.val < 2 ^ 3 := (b.isLt : b.val < 2 ^ 3)
  have h4 : 0 < 2 ^ 2 := (by decide : 0 < 2 ^ 2)
  have h5 : st.toNat < 2 ^ 2 := (st.isLt : st.toNat < 2 ^ 2)
  have h6 : 0 < 2 ^ 2 := (by decide : 0 < 2 ^ 2)
  have h7 : rs.rm < 2 ^ 2 := (rm_lt rs)
  have h8 : rs.rd < 2 ^ 1 := (rd_lt rs)
  have h9 : 0 < 2 ^ 5 := (by decide : 0 < 2 ^ 5)
  have hf : Fits [(3, d.val), (3, a.val), (3, b.val), (2, 0), (2, st.toNat), (2, 0), (2, rs.rm), (1, rs.rd), (5, 0)] :=
    ⟨h1, h2, h3, h4, h5, h6, h7, h8, h9, trivial⟩
  refine of_fields 208 _ rfl (by decide) hf rfl fun lone hw acc0 wd he => ?_
  have r22_20 : bits wd 22 20 = d.val := read _ he hf 0 (Nat.le_of_ble_eq_true rfl)
      (Nat.le_of_ble_eq_true rfl)
  have r19_17 : bits wd 19 17 = a.val := read _ he hf 1 (Nat.le_of_ble_eq_true rfl)
      (Nat.le_of_ble_eq_true rfl)
  have r16_14 : bits wd 16 14 = b.val := read _ he hf 2 (Nat.le_of_ble_eq_true rfl)
      (Nat.le_of_ble_eq_true rfl)
  have r13_12 : bits wd 13 12 = 0 := read _ he hf 3 (Nat.le_of_ble_eq_true rfl)
      (Nat.le_of_ble_eq_true rfl)
  have r11_10 : bits wd 11 10 = st.toNat := read _ he hf 4 (Nat.le_of_ble_eq_true rfl)
      (Nat.le_of_ble_eq_true rfl)
  have r9_8 : bits wd 9 8 = 0 := read _ he hf 5 (Nat.le_of_ble_eq_true rfl)
      (Nat.le_of_ble_eq_true rfl)
  have r7_6 : bits wd 7 6 = rs.rm := read _ he hf 6 (Nat.le_of_ble_eq_true rfl)
      (Nat.le_of_ble_eq_true rfl)
  have r5_5 : bits wd 5 5 = rs.rd := read _ he hf 7 (Nat.le_of_ble_eq_true rfl)
      (Nat.le_of_ble_eq_true rfl)
  have r4_0 : bits wd 4 0 = 0 := read _ he hf 8 (Nat.le_of_ble_eq_true rfl)
      (Nat.le_of_ble_eq_true rfl)
  change dec_tadd wd = _
  unfold dec_tadd
  rw [r22_20, r19_17, r16_14, r13_12, r11_10, r9_8, r7_6, r5_5, r4_0]
  exact checked_ok (ok_tadd rs hw) (by simp only [fin_back, bv_back, round_back])

theorem tscale d a b st rs col : Statement (.tscale d a b st rs col) := by
  have h1 : d.val < 2 ^ 3 := (d.isLt : d.val < 2 ^ 3)
  have h2 : a.val < 2 ^ 3 := (a.isLt : a.val < 2 ^ 3)
  have h3 : b.val < 2 ^ 3 := (b.isLt : b.val < 2 ^ 3)
  have h4 : 0 < 2 ^ 2 := (by decide : 0 < 2 ^ 2)
  have h5 : st.toNat < 2 ^ 2 := (st.isLt : st.toNat < 2 ^ 2)
  have h6 : 0 < 2 ^ 2 := (by decide : 0 < 2 ^ 2)
  have h7 : rs.rm < 2 ^ 2 := (rm_lt rs)
  have h8 : rs.rd < 2 ^ 1 := (rd_lt rs)
  have h9 : 0 < 2 ^ 4 := (by decide : 0 < 2 ^ 4)
  have h10 : b2n col < 2 ^ 1 := (b2n_lt col)
  have hf : Fits [(3, d.val), (3, a.val), (3, b.val), (2, 0), (2, st.toNat), (2, 0), (2, rs.rm), (1, rs.rd), (4, 0), (1, b2n col)] :=
    ⟨h1, h2, h3, h4, h5, h6, h7, h8, h9, h10, trivial⟩
  refine of_fields 209 _ rfl (by decide) hf rfl fun lone hw acc0 wd he => ?_
  have r22_20 : bits wd 22 20 = d.val := read _ he hf 0 (Nat.le_of_ble_eq_true rfl)
      (Nat.le_of_ble_eq_true rfl)
  have r19_17 : bits wd 19 17 = a.val := read _ he hf 1 (Nat.le_of_ble_eq_true rfl)
      (Nat.le_of_ble_eq_true rfl)
  have r16_14 : bits wd 16 14 = b.val := read _ he hf 2 (Nat.le_of_ble_eq_true rfl)
      (Nat.le_of_ble_eq_true rfl)
  have r13_12 : bits wd 13 12 = 0 := read _ he hf 3 (Nat.le_of_ble_eq_true rfl)
      (Nat.le_of_ble_eq_true rfl)
  have r11_10 : bits wd 11 10 = st.toNat := read _ he hf 4 (Nat.le_of_ble_eq_true rfl)
      (Nat.le_of_ble_eq_true rfl)
  have r9_8 : bits wd 9 8 = 0 := read _ he hf 5 (Nat.le_of_ble_eq_true rfl)
      (Nat.le_of_ble_eq_true rfl)
  have r7_6 : bits wd 7 6 = rs.rm := read _ he hf 6 (Nat.le_of_ble_eq_true rfl)
      (Nat.le_of_ble_eq_true rfl)
  have r5_5 : bits wd 5 5 = rs.rd := read _ he hf 7 (Nat.le_of_ble_eq_true rfl)
      (Nat.le_of_ble_eq_true rfl)
  have r4_1 : bits wd 4 1 = 0 := read _ he hf 8 (Nat.le_of_ble_eq_true rfl)
      (Nat.le_of_ble_eq_true rfl)
  have r0_0 : bits wd 0 0 = b2n col := read _ he hf 9 (Nat.le_of_ble_eq_true rfl)
      (Nat.le_of_ble_eq_true rfl)
  change dec_tscale wd = _
  unfold dec_tscale
  rw [r22_20, r19_17, r16_14, r13_12, r11_10, r9_8, r7_6, r5_5, r4_1, r0_0]
  exact checked_ok (ok_tscale rs hw) (by simp only [fin_back, bv_back, round_back, bool_back])

theorem ttrans d a st : Statement (.ttrans d a st) := by
  have h1 : d.val < 2 ^ 3 := (d.isLt : d.val < 2 ^ 3)
  have h2 : a.val < 2 ^ 3 := (a.isLt : a.val < 2 ^ 3)
  have h3 : 0 < 2 ^ 3 := (by decide : 0 < 2 ^ 3)
  have h4 : 0 < 2 ^ 2 := (by decide : 0 < 2 ^ 2)
  have h5 : st.toNat < 2 ^ 2 := (st.isLt : st.toNat < 2 ^ 2)
  have h6 : 0 < 2 ^ 2 := (by decide : 0 < 2 ^ 2)
  have h7 : 0 < 2 ^ 8 := (by decide : 0 < 2 ^ 8)
  have hf : Fits [(3, d.val), (3, a.val), (3, 0), (2, 0), (2, st.toNat), (2, 0), (8, 0)] :=
    ⟨h1, h2, h3, h4, h5, h6, h7, trivial⟩
  refine of_fields 210 _ rfl (by decide) hf rfl fun lone hw acc0 wd he => ?_
  have r22_20 : bits wd 22 20 = d.val := read _ he hf 0 (Nat.le_of_ble_eq_true rfl)
      (Nat.le_of_ble_eq_true rfl)
  have r19_17 : bits wd 19 17 = a.val := read _ he hf 1 (Nat.le_of_ble_eq_true rfl)
      (Nat.le_of_ble_eq_true rfl)
  have r16_14 : bits wd 16 14 = 0 := read _ he hf 2 (Nat.le_of_ble_eq_true rfl)
      (Nat.le_of_ble_eq_true rfl)
  have r13_12 : bits wd 13 12 = 0 := read _ he hf 3 (Nat.le_of_ble_eq_true rfl)
      (Nat.le_of_ble_eq_true rfl)
  have r11_10 : bits wd 11 10 = st.toNat := read _ he hf 4 (Nat.le_of_ble_eq_true rfl)
      (Nat.le_of_ble_eq_true rfl)
  have r9_8 : bits wd 9 8 = 0 := read _ he hf 5 (Nat.le_of_ble_eq_true rfl)
      (Nat.le_of_ble_eq_true rfl)
  have r7_0 : bits wd 7 0 = 0 := read _ he hf 6 (Nat.le_of_ble_eq_true rfl)
      (Nat.le_of_ble_eq_true rfl)
  change dec_ttrans wd = _
  unfold dec_ttrans
  rw [r22_20, r19_17, r16_14, r13_12, r11_10, r9_8, r7_0]
  exact checked_ok (rfl) (by simp only [fin_back, bv_back])

theorem mjoin mask : Statement (.mjoin mask) := by
  have h1 : 0 < 2 ^ 3 := (by decide : 0 < 2 ^ 3)
  have h2 : 0 < 2 ^ 3 := (by decide : 0 < 2 ^ 3)
  have h3 : 0 < 2 ^ 3 := (by decide : 0 < 2 ^ 3)
  have h4 : 0 < 2 ^ 2 := (by decide : 0 < 2 ^ 2)
  have h5 : 0 < 2 ^ 2 := (by decide : 0 < 2 ^ 2)
  have h6 : 0 < 2 ^ 2 := (by decide : 0 < 2 ^ 2)
  have h7 : 0 < 2 ^ 4 := (by decide : 0 < 2 ^ 4)
  have h8 : mask.toNat < 2 ^ 4 := (mask.isLt : mask.toNat < 2 ^ 4)
  have hf : Fits [(3, 0), (3, 0), (3, 0), (2, 0), (2, 0), (2, 0), (4, 0), (4, mask.toNat)] :=
    ⟨h1, h2, h3, h4, h5, h6, h7, h8, trivial⟩
  refine of_fields 211 _ rfl (by decide) hf rfl fun lone hw acc0 wd he => ?_
  have r22_20 : bits wd 22 20 = 0 := read _ he hf 0 (Nat.le_of_ble_eq_true rfl)
      (Nat.le_of_ble_eq_true rfl)
  have r19_17 : bits wd 19 17 = 0 := read _ he hf 1 (Nat.le_of_ble_eq_true rfl)
      (Nat.le_of_ble_eq_true rfl)
  have r16_14 : bits wd 16 14 = 0 := read _ he hf 2 (Nat.le_of_ble_eq_true rfl)
      (Nat.le_of_ble_eq_true rfl)
  have r13_12 : bits wd 13 12 = 0 := read _ he hf 3 (Nat.le_of_ble_eq_true rfl)
      (Nat.le_of_ble_eq_true rfl)
  have r11_10 : bits wd 11 10 = 0 := read _ he hf 4 (Nat.le_of_ble_eq_true rfl)
      (Nat.le_of_ble_eq_true rfl)
  have r9_8 : bits wd 9 8 = 0 := read _ he hf 5 (Nat.le_of_ble_eq_true rfl)
      (Nat.le_of_ble_eq_true rfl)
  have r7_4 : bits wd 7 4 = 0 := read _ he hf 6 (Nat.le_of_ble_eq_true rfl)
      (Nat.le_of_ble_eq_true rfl)
  have r3_0 : bits wd 3 0 = mask.toNat := read _ he hf 7 (Nat.le_of_ble_eq_true rfl)
      (Nat.le_of_ble_eq_true rfl)
  change dec_mjoin wd = _
  unfold dec_mjoin
  rw [r22_20, r19_17, r16_14, r13_12, r11_10, r9_8, r7_4, r3_0]
  exact checked_ok (ok_mjoin mask hw) (by simp only [bv_back])

theorem talloc d a : Statement (.talloc d a) := by
  have h1 : d.val < 2 ^ 5 := (d.isLt : d.val < 2 ^ 5)
  have h2 : a.val < 2 ^ 5 := (a.isLt : a.val < 2 ^ 5)
  have h3 : 0 < 2 ^ 5 := (by decide : 0 < 2 ^ 5)
  have h4 : 0 < 2 ^ 8 := (by decide : 0 < 2 ^ 8)
  have hf : Fits [(5, d.val), (5, a.val), (5, 0), (8, 0)] :=
    ⟨h1, h2, h3, h4, trivial⟩
  refine of_fields 212 _ rfl (by decide) hf rfl fun lone hw acc0 wd he => ?_
  have r22_18 : bits wd 22 18 = d.val := read _ he hf 0 (Nat.le_of_ble_eq_true rfl)
      (Nat.le_of_ble_eq_true rfl)
  have r17_13 : bits wd 17 13 = a.val := read _ he hf 1 (Nat.le_of_ble_eq_true rfl)
      (Nat.le_of_ble_eq_true rfl)
  have r12_8 : bits wd 12 8 = 0 := read _ he hf 2 (Nat.le_of_ble_eq_true rfl)
      (Nat.le_of_ble_eq_true rfl)
  have r7_0 : bits wd 7 0 = 0 := read _ he hf 3 (Nat.le_of_ble_eq_true rfl)
      (Nat.le_of_ble_eq_true rfl)
  change dec_talloc wd = _
  unfold dec_talloc
  rw [r22_18, r17_13, r12_8, r7_0]
  exact checked_ok (rfl) (by simp only [fin_back])

theorem tfree a : Statement (.tfree a) := by
  have h1 : 0 < 2 ^ 5 := (by decide : 0 < 2 ^ 5)
  have h2 : a.val < 2 ^ 5 := (a.isLt : a.val < 2 ^ 5)
  have h3 : 0 < 2 ^ 5 := (by decide : 0 < 2 ^ 5)
  have h4 : 0 < 2 ^ 8 := (by decide : 0 < 2 ^ 8)
  have hf : Fits [(5, 0), (5, a.val), (5, 0), (8, 0)] :=
    ⟨h1, h2, h3, h4, trivial⟩
  refine of_fields 213 _ rfl (by decide) hf rfl fun lone hw acc0 wd he => ?_
  have r22_18 : bits wd 22 18 = 0 := read _ he hf 0 (Nat.le_of_ble_eq_true rfl)
      (Nat.le_of_ble_eq_true rfl)
  have r17_13 : bits wd 17 13 = a.val := read _ he hf 1 (Nat.le_of_ble_eq_true rfl)
      (Nat.le_of_ble_eq_true rfl)
  have r12_8 : bits wd 12 8 = 0 := read _ he hf 2 (Nat.le_of_ble_eq_true rfl)
      (Nat.le_of_ble_eq_true rfl)
  have r7_0 : bits wd 7 0 = 0 := read _ he hf 3 (Nat.le_of_ble_eq_true rfl)
      (Nat.le_of_ble_eq_true rfl)
  change dec_tfree wd = _
  unfold dec_tfree
  rw [r22_18, r17_13, r12_8, r7_0]
  exact checked_ok (rfl) (by simp only [fin_back])

theorem tmovv d a b st : Statement (.tmovv d a b st) := by
  have h1 : d.val < 2 ^ 5 := lt_wide (m := 4) 5 ((d.isLt : d.val < 2 ^ 4)) (by decide)
  have h2 : a.val < 2 ^ 5 := lt_wide (m := 3) 5 ((a.isLt : a.val < 2 ^ 3)) (by decide)
  have h3 : b.val < 2 ^ 5 := (b.isLt : b.val < 2 ^ 5)
  have h4 : 0 < 2 ^ 6 := (by decide : 0 < 2 ^ 6)
  have h5 : st.toNat < 2 ^ 2 := (st.isLt : st.toNat < 2 ^ 2)
  have hf : Fits [(5, d.val), (5, a.val), (5, b.val), (6, 0), (2, st.toNat)] :=
    ⟨h1, h2, h3, h4, h5, trivial⟩
  refine of_fields 214 _ rfl (by decide) hf rfl fun lone hw acc0 wd he => ?_
  have r22_18 : bits wd 22 18 = d.val := read _ he hf 0 (Nat.le_of_ble_eq_true rfl)
      (Nat.le_of_ble_eq_true rfl)
  have r17_13 : bits wd 17 13 = a.val := read _ he hf 1 (Nat.le_of_ble_eq_true rfl)
      (Nat.le_of_ble_eq_true rfl)
  have r12_8 : bits wd 12 8 = b.val := read _ he hf 2 (Nat.le_of_ble_eq_true rfl)
      (Nat.le_of_ble_eq_true rfl)
  have r7_2 : bits wd 7 2 = 0 := read _ he hf 3 (Nat.le_of_ble_eq_true rfl)
      (Nat.le_of_ble_eq_true rfl)
  have r1_0 : bits wd 1 0 = st.toNat := read _ he hf 4 (Nat.le_of_ble_eq_true rfl)
      (Nat.le_of_ble_eq_true rfl)
  change dec_tmovv wd = _
  unfold dec_tmovv
  rw [r22_18, r17_13, r12_8, r7_2, r1_0]
  exact checked_ok (ok_tmovv d a hw) (by simp only [fin_back, bv_back])

theorem vmovt d a b st : Statement (.vmovt d a b st) := by
  have h1 : d.val < 2 ^ 5 := lt_wide (m := 3) 5 ((d.isLt : d.val < 2 ^ 3)) (by decide)
  have h2 : a.val < 2 ^ 5 := lt_wide (m := 4) 5 ((a.isLt : a.val < 2 ^ 4)) (by decide)
  have h3 : b.val < 2 ^ 5 := (b.isLt : b.val < 2 ^ 5)
  have h4 : 0 < 2 ^ 6 := (by decide : 0 < 2 ^ 6)
  have h5 : st.toNat < 2 ^ 2 := (st.isLt : st.toNat < 2 ^ 2)
  have hf : Fits [(5, d.val), (5, a.val), (5, b.val), (6, 0), (2, st.toNat)] :=
    ⟨h1, h2, h3, h4, h5, trivial⟩
  refine of_fields 215 _ rfl (by decide) hf rfl fun lone hw acc0 wd he => ?_
  have r22_18 : bits wd 22 18 = d.val := read _ he hf 0 (Nat.le_of_ble_eq_true rfl)
      (Nat.le_of_ble_eq_true rfl)
  have r17_13 : bits wd 17 13 = a.val := read _ he hf 1 (Nat.le_of_ble_eq_true rfl)
      (Nat.le_of_ble_eq_true rfl)
  have r12_8 : bits wd 12 8 = b.val := read _ he hf 2 (Nat.le_of_ble_eq_true rfl)
      (Nat.le_of_ble_eq_true rfl)
  have r7_2 : bits wd 7 2 = 0 := read _ he hf 3 (Nat.le_of_ble_eq_true rfl)
      (Nat.le_of_ble_eq_true rfl)
  have r1_0 : bits wd 1 0 = st.toNat := read _ he hf 4 (Nat.le_of_ble_eq_true rfl)
      (Nat.le_of_ble_eq_true rfl)
  change dec_vmovt wd = _
  unfold dec_vmovt
  rw [r22_18, r17_13, r12_8, r7_2, r1_0]
  exact checked_ok (ok_vmovt d a hw) (by simp only [fin_back, bv_back])

theorem asyncTrapEntry p : Statement (.asyncTrapEntry p) := fun _ => rfl
theorem itimerFire p : Statement (.itimerFire p) := fun _ => rfl
theorem intdbWrite m vf v : Statement (.intdbWrite m vf v) := fun _ => rfl
theorem preemptNotice m vf w : Statement (.preemptNotice m vf w) := fun _ => rfl
theorem sstatWrite v : Statement (.sstatWrite v) := fun _ => rfl
theorem ipendClear v : Statement (.ipendClear v) := fun _ => rfl
theorem registerWrite csr v : Statement (.registerWrite csr v) := fun _ => rfl
theorem memResponse p : Statement (.memResponse p) := fun _ => rfl
theorem courseForward p : Statement (.courseForward p) := fun _ => rfl
theorem courseTimeout clu idx : Statement (.courseTimeout clu idx) := fun _ => rfl
theorem realignTimeout p : Statement (.realignTimeout p) := fun _ => rfl
theorem streamElementFetch core unit : Statement (.streamElementFetch core unit) := fun _ => rfl
theorem streamPush core unit : Statement (.streamPush core unit) := fun _ => rfl
theorem matrixOpComplete core st : Statement (.matrixOpComplete core st) := fun _ => rfl
theorem mcmdCommand src : Statement (.mcmdCommand src) := fun _ => rfl
theorem mcmdAnswer src : Statement (.mcmdAnswer src) := fun _ => rfl
theorem spartConversion clu : Statement (.spartConversion clu) := fun _ => rfl
theorem waitwMonitorFire p : Statement (.waitwMonitorFire p) := fun _ => rfl
theorem sevEvent src : Statement (.sevEvent src) := fun _ => rfl
theorem timeSliceExpiry m part : Statement (.timeSliceExpiry m part) := fun _ => rfl
theorem slotHandover p vf : Statement (.slotHandover p vf) := fun _ => rfl
theorem bteTransferActivate clu : Statement (.bteTransferActivate clu) := fun _ => rfl
theorem bteWriteLand clu id : Statement (.bteWriteLand clu id) := fun _ => rfl
theorem bteConsumerUpdate clu id : Statement (.bteConsumerUpdate clu id) := fun _ => rfl
theorem ixeElementCopy clu id : Statement (.ixeElementCopy clu id) := fun _ => rfl
theorem engineCompletion clu ixe id : Statement (.engineCompletion clu ixe id) := fun _ => rfl
theorem cringtailWrite clu v : Statement (.cringtailWrite clu v) := fun _ => rfl
theorem engineOffline clu ixe : Statement (.engineOffline clu ixe) := fun _ => rfl
theorem autoMigration core : Statement (.autoMigration core) := fun _ => rfl
theorem migrationArrival clu : Statement (.migrationArrival clu) := fun _ => rfl
theorem migrationSlotFree clu : Statement (.migrationSlotFree clu) := fun _ => rfl
theorem kleScoring clu ctx : Statement (.kleScoring clu ctx) := fun _ => rfl
theorem kleServiceRound die slice : Statement (.kleServiceRound die slice) := fun _ => rfl
theorem kleRowArrival clu ctx : Statement (.kleRowArrival clu ctx) := fun _ => rfl
theorem kleReadTimeout clu ctx rank : Statement (.kleReadTimeout clu ctx rank) := fun _ => rfl
theorem kleLookupComplete clu ctx : Statement (.kleLookupComplete clu ctx) := fun _ => rfl
theorem kleOffline clu : Statement (.kleOffline clu) := fun _ => rfl
theorem eupdDirectAdd clu id : Statement (.eupdDirectAdd clu id) := fun _ => rfl
theorem mergeContribution m : Statement (.mergeContribution m) := fun _ => rfl
theorem mergeClose m : Statement (.mergeClose m) := fun _ => rfl
theorem closeAck src : Statement (.closeAck src) := fun _ => rfl
theorem homeSliceRequest m src : Statement (.homeSliceRequest m src) := fun _ => rfl
theorem farAtomicExecute m src : Statement (.farAtomicExecute m src) := fun _ => rfl
theorem pageWalk die page : Statement (.pageWalk die page) := fun _ => rfl
theorem faultack v : Statement (.faultack v) := fun _ => rfl
theorem faultackWake die : Statement (.faultackWake die) := fun _ => rfl
theorem releaseProbe m src grp : Statement (.releaseProbe m src grp) := fun _ => rfl
theorem probeEcho p grp : Statement (.probeEcho p grp) := fun _ => rfl
theorem uncorrectableError site : Statement (.uncorrectableError site) := fun _ => rfl
theorem correctableError die : Statement (.correctableError die) := fun _ => rfl
theorem dieerrlog d : Statement (.dieerrlog d) := fun _ => rfl
theorem taskDispatch die clu : Statement (.taskDispatch die clu) := fun _ => rfl
theorem admissionServe die : Statement (.admissionServe die) := fun _ => rfl
theorem taskSteal die clu vf : Statement (.taskSteal die clu vf) := fun _ => rfl
theorem stealRequest die vf : Statement (.stealRequest die vf) := fun _ => rfl
theorem stealRetry die vf : Statement (.stealRetry die vf) := fun _ => rfl
theorem counterUpdate die src : Statement (.counterUpdate die src) := fun _ => rfl
theorem groupUpdate die src : Statement (.groupUpdate die src) := fun _ => rfl
theorem grantExpiry p : Statement (.grantExpiry p) := fun _ => rfl
theorem budgetSet die units : Statement (.budgetSet die units) := fun _ => rfl
theorem thermalStep die hot : Statement (.thermalStep die hot) := fun _ => rfl
theorem criticalTemperature m : Statement (.criticalTemperature m) := fun _ => rfl
theorem shutdownTemperature m : Statement (.shutdownTemperature m) := fun _ => rfl
theorem lqdb m vf : Statement (.lqdb m vf) := fun _ => rfl
theorem launchTake m vf : Statement (.launchTake m vf) := fun _ => rfl
theorem launchEnd m vf : Statement (.launchEnd m vf) := fun _ => rfl
theorem vfReset m vf : Statement (.vfReset m vf) := fun _ => rfl
theorem vfPolicyWrite m vf f : Statement (.vfPolicyWrite m vf f) := fun _ => rfl
theorem hostBarWrite m vf bar2 a v n : Statement (.hostBarWrite m vf bar2 a v n) := fun _ => rfl
theorem hostPortDown m port : Statement (.hostPortDown m port) := fun _ => rfl
theorem packageNumberWrite m v : Statement (.packageNumberWrite m v) := fun _ => rfl
theorem linkTraining m link peer ok : Statement (.linkTraining m link peer ok) := fun _ => rfl
theorem moduleReset m : Statement (.moduleReset m) := fun _ => rfl
theorem firmwareFetchRetry m img : Statement (.firmwareFetchRetry m img) := fun _ => rfl
theorem attestationRequest m nonce : Statement (.attestationRequest m nonce) := fun _ => rfl
theorem stackFailure m stack : Statement (.stackFailure m stack) := fun _ => rfl
theorem ochreCoreFault m pd core : Statement (.ochreCoreFault m pd core) := fun _ => rfl
theorem flitRoute m node : Statement (.flitRoute m node) := fun _ => rfl
theorem flitEject m node : Statement (.flitEject m node) := fun _ => rfl
theorem packetDeliver m node src ch : Statement (.packetDeliver m node src ch) := fun _ => rfl
theorem deliveryCredit m src dst ch : Statement (.deliveryCredit m src dst ch) := fun _ => rfl
theorem linkFrameReceive m pd : Statement (.linkFrameReceive m pd) := fun _ => rfl
theorem linkDown m link : Statement (.linkDown m link) := fun _ => rfl
theorem pathFailed m peer : Statement (.pathFailed m peer) := fun _ => rfl
theorem accessTimeout p : Statement (.accessTimeout p) := fun _ => rfl
theorem vsPacketArrive clu port : Statement (.vsPacketArrive clu port) := fun _ => rfl
theorem vsCredit clu entry port : Statement (.vsCredit clu entry port) := fun _ => rfl
theorem gangQuery m vf : Statement (.gangQuery m vf) := fun _ => rfl
theorem gangPause m vf : Statement (.gangPause m vf) := fun _ => rfl
theorem gangDrainComplete m vf : Statement (.gangDrainComplete m vf) := fun _ => rfl
theorem gangStopTimeout m vf : Statement (.gangStopTimeout m vf) := fun _ => rfl
theorem gangResume m vf : Statement (.gangResume m vf) := fun _ => rfl
theorem migrationCommandTake m : Statement (.migrationCommandTake m) := fun _ => rfl
theorem move m idx : Statement (.move m idx) := fun _ => rfl
theorem dup m idx : Statement (.dup m idx) := fun _ => rfl
theorem collapse m idx : Statement (.collapse m idx) := fun _ => rfl
theorem reclaim m idx : Statement (.reclaim m idx) := fun _ => rfl
theorem migrationCutover m idx : Statement (.migrationCutover m idx) := fun _ => rfl
theorem migrationCommandComplete m idx : Statement (.migrationCommandComplete m idx) := fun _ => rfl
theorem stubRelay m src : Statement (.stubRelay m src) := fun _ => rfl
theorem relayAck m page part : Statement (.relayAck m page part) := fun _ => rfl
theorem walkReturn die src : Statement (.walkReturn die src) := fun _ => rfl
theorem redirect die page part : Statement (.redirect die page part) := fun _ => rfl
theorem stubQuietExpiry m page part : Statement (.stubQuietExpiry m page part) := fun _ => rfl
theorem purge m frm page part : Statement (.purge m frm page part) := fun _ => rfl
theorem purgeAck m frm page part : Statement (.purgeAck m frm page part) := fun _ => rfl
theorem collapseInvalidate m idx holder : Statement (.collapseInvalidate m idx holder) := fun _ => rfl
theorem collapseAck m idx holder : Statement (.collapseAck m idx holder) := fun _ => rfl
theorem illegalInstr op : Statement (.illegalInstr op) := fun _ => rfl
theorem reservedField sub : Statement (.reservedField sub) := fun _ => rfl
theorem faultQueueTailAdvance m vf n : Statement (.faultQueueTailAdvance m vf n) := fun _ => rfl
theorem keyLoad m pd kid next key : Statement (.keyLoad m pd kid next key) := fun _ => rfl
theorem hostPortUp m port : Statement (.hostPortUp m port) := fun _ => rfl
theorem portDieFailure m pd : Statement (.portDieFailure m pd) := fun _ => rfl
theorem engineRestore clu eng : Statement (.engineRestore clu eng) := fun _ => rfl
theorem partitionConfigure m part cfg : Statement (.partitionConfigure m part cfg) := fun _ => rfl
theorem errorCounterClear die : Statement (.errorCounterClear die) := fun _ => rfl

end Sys2Proof.Laws.Encoding
end

