-- ==== Sys2Proof/Laws/Pushes.lean ====
section
/-! SUPPORT. What a store, a write-back, a push and a release can change, each said once: cores, clusters, messages and
the agenda; and the operations on scopes where nothing is narrowed. -/

namespace Sys2Proof.Laws

open Sys2Proof Sys2Proof.Machine

/-- What a strand keeps when it gives up answers: all but its answers and what it waits for. -/
def unasked (x : Strand) : Strand := { x with resps := [], asked := [], askedAt := [] }

/-- A state differs from another in its cores, clusters, messages, answers and due steps, and in the answers that strands
hold, at most. -/
def StoresOnly (s t : State) : Prop :=
  t = { s with cores := t.cores, clusters := t.clusters, net := t.net, replies := t.replies, agenda := t.agenda,
               strands := t.strands } ∧
    ∀ p : Place, unasked (t.strand p) = unasked (s.strand p)

theorem StoresOnly.refl (s : State) : StoresOnly s s := ⟨rfl, fun _ => rfl⟩

theorem StoresOnly.trans {s t u : State} (h : StoresOnly s t) (g : StoresOnly t u) : StoresOnly s u :=
  ⟨by rw [g.1, h.1], fun p => (g.2 p).trans (h.2 p)⟩

/-- A change of cores, clusters, messages, answers and due steps alone. -/
theorem StoresOnly.of_eq {s t : State}
    (h : t = { s with cores := t.cores, clusters := t.clusters, net := t.net, replies := t.replies, agenda := t.agenda }) :
    StoresOnly s t :=
  ⟨by rw [h], fun p => by rw [h]; rfl⟩

theorem StoresOnly.cur {s t : State} (h : StoresOnly s t) : t.cur = s.cur := by rw [h.1]
theorem StoresOnly.issue {s t : State} (h : StoresOnly s t) : t.issue = s.issue := by rw [h.1]
theorem StoresOnly.mods {s t : State} (h : StoresOnly s t) : t.mods = s.mods := by rw [h.1]
theorem StoresOnly.dies {s t : State} (h : StoresOnly s t) : t.dies = s.dies := by rw [h.1]
theorem StoresOnly.me {s t : State} (h : StoresOnly s t) : unasked t.me = unasked s.me := by
  rw [State.me, h.cur]
  exact h.2 s.cur

theorem modCore_stores (s : State) (k : Nat) (f : Core → Core) : StoresOnly s (s.modCore k f) := .of_eq rfl

/-- Steps of a list that each store only. -/
theorem StoresOnly.foldl {α : Type} {f : State → α → State} (h : ∀ t a, StoresOnly t (f t a)) (l : List α) (s : State) :
    StoresOnly s (l.foldl f s) := by
  induction l generalizing s with
  | nil => exact .refl s
  | cons a l ih => exact (h s a).trans (ih _)

/-- The strands of a core give up their answers for a sector, and messages on their way fill nothing (R156). -/
theorem overtake_stores (s : State) (k sec : Nat) : StoresOnly s (s.overtake k sec) := by
  refine ⟨rfl, fun p => ?_⟩
  unfold State.overtake State.strand
  simp only
  induction s.strands with
  | nil => rfl
  | cons e l ih =>
    obtain ⟨j, x⟩ := e
    simp only [List.map_cons]
    by_cases hj : j = p.key
    · subst hj
      split <;> simp [fget, unasked, Strand.forget, Strand.unask]
    · split <;> simpa [fget, hj] using ih

theorem noFill_stores (s : State) (k : Nat) (q : Nat → Bool) : StoresOnly s (s.noFill k q) := .of_eq rfl

theorem sendWb_stores (s : State) (k line i : Nat) (x : L1Sec) : StoresOnly s (sendWb s k line i x) := by
  unfold sendWb
  split
  · exact .refl s
  · exact (overtake_stores s k _).trans (.of_eq rfl)

theorem sendLineWb_stores (s : State) (k : Nat) (l : L1Line) : StoresOnly s (sendLineWb s k l) :=
  .foldl (fun _ _ => sendWb_stores ..) _ _

theorem sendStore_stores (s : State) (a n mask x : Nat) (at' : Attr) : StoresOnly s (sendStore s a n mask x at') :=
  (overtake_stores s s.cur.coreKey _).trans (.of_eq rfl)

theorem l1Alloc_stores (s : State) (k a : Nat) : StoresOnly s (l1Alloc s k a).2 := by
  unfold l1Alloc
  simp only
  split
  · exact .refl s
  · split
    · exact .refl s
    · split
      · exact .refl s
      · exact ((sendLineWb_stores s k _).trans (noFill_stores _ k _)).trans (.of_eq rfl)

theorem l1Reserve_stores (s : State) (k tenant a : Nat) (at' : Attr) :
    StoresOnly s (l1Reserve s k tenant a at') := by
  have h := l1Alloc_stores s k a
  unfold l1Reserve
  simp only
  split <;> exact h.trans (modCore_stores ..)

theorem placedStore_stores (s : State) (a n mask x : Nat) : StoresOnly s (placedStore s a n mask x) := by
  unfold placedStore
  simp only
  split <;> exact .of_eq rfl

/-- A write of bytes to a sector (R152, R159). -/
theorem writeSector_stores (s : State) (a n mask x : Nat) (fill : Bool) (at' : Attr) :
    StoresOnly s (writeSector s a n mask x fill at') := by
  unfold writeSector
  simp only
  split
  · split
    · exact .of_eq rfl
    · exact (modCore_stores s s.cur.coreKey _).trans (sendStore_stores ..)
  · split
    · have h := l1Reserve_stores s s.cur.coreKey s.tenant a at'
      split
      · exact h.trans (.of_eq rfl)
      · exact h.trans (sendStore_stores ..)
    · exact sendStore_stores ..

theorem pushStore_stores (w : Push) (s : State) : StoresOnly s (pushStore w s) := by
  unfold pushStore
  split
  · exact placedStore_stores ..
  · exact writeSector_stores ..

theorem pushOne_stores (core unit : Nat) (s : State) : StoresOnly s (pushOne core unit s) := by
  unfold pushOne
  simp only
  split
  · rename_i slot w rest _ _
    obtain ⟨h, g⟩ := pushStore_stores w { s with cur := placeOf core slot, issue := { s.issue with pre := none } }
    refine StoresOnly.trans (t := (asPlace (placeOf core slot) (fun t => ((), pushStore w t)) s).2) ⟨?_, g⟩ (modCore_stores ..)
    unfold asPlace
    simp only
    rw [h]
  · exact .refl s

theorem drainSlot_stores (core slot n : Nat) (s : State) : StoresOnly s (drainSlot core slot n s) := by
  induction n generalizing s with
  | zero => exact .refl s
  | succ n ih =>
    unfold drainSlot
    split
    · exact .refl s
    · exact (pushOne_stores ..).trans (ih _)

/-- The pending pushes of a strand store bytes and change nothing else (R192). -/
theorem drainPushes_stores (s : State) (p : Place) : StoresOnly s (drainPushes s p) := drainSlot_stores ..

/-- A strand without pushes has nothing to drain. -/
theorem drainPushes_noPush {s : State} (h : s.noPush) : drainPushes s s.cur = s := by
  have e : pendingPushes (s.coreOf s.cur.coreKey) s.cur.slot = [] := by
    unfold pendingPushes
    rw [List.flatMap_eq_nil_iff]
    intro i hi
    simp only
    split
    · exact h i (List.mem_range.mp hi) ‹_›
    · rfl
  unfold drainPushes
  rw [e]
  rfl

theorem writeBackWhere_stores (s : State) (k : Nat) (p : Nat → L1Sec → Bool) : StoresOnly s (writeBackWhere s k p) := by
  unfold writeBackWhere
  simp only
  refine StoresOnly.trans (.foldl (fun t l => .foldl (fun u e => ?_) _ _) _ _) (modCore_stores _ _ _)
  split
  · exact sendWb_stores ..
  · exact .refl u

/-- A release that starts stores bytes and sends probes, which the strand remembers (R332, R333). -/
theorem startRelease_eq (s : State) (p : Place) (sc : Scope) :
    ∃ t, StoresOnly s t ∧
      startRelease s p sc = t.modStrand p fun y => { y with probes := (marked s p sc).map (probeNo sc) } :=
  ⟨_, (writeBackWhere_stores ..).trans (.foldl (fun t _ => by
    split
    · exact .refl t
    · exact .of_eq rfl) _ _), rfl⟩

/-- A release that does not wait stores bytes and changes nothing else (R171, R332). -/
theorem release_ok {sc : Scope} {s t : State} (h : release sc s = .ok ((), t)) : StoresOnly s t := by
  have d := drainPushes_stores s s.cur
  unfold release at h
  simp only at h
  generalize drainPushes s s.cur = u at d h
  split at h
  · exact (Prod.mk.inj (Except.ok.inj h)).2 ▸ d
  · split at h
    · exact (Prod.mk.inj (Except.ok.inj h)).2 ▸ d.trans (writeBackWhere_stores ..)
    · split at h <;> cases h

/-- A release that waits leaves the strand's registers and its word as they were (R171, R175). -/
theorem release_waits {sc : Scope} {s : State} {r : Res} (h : release sc s = .error r) :
    ∃ b t, r = .park .fence b t ∧ t.me.g = s.me.g ∧ t.me.v = s.me.v ∧ t.me.k = s.me.k ∧ t.me.loops = s.me.loops ∧
      t.me.pc = s.me.pc ∧ t.issue = s.issue := by
  have d := drainPushes_stores s s.cur
  unfold release at h
  simp only at h
  generalize drainPushes s s.cur = u at d h
  split at h
  · cases h
  · split at h
    · cases h
    · split at h
      · obtain ⟨t, e, f⟩ := startRelease_eq u u.cur sc
        refine ⟨true, _, (Except.error.inj h).symm, ?_⟩
        have e' := d.trans e
        have m : (startRelease u u.cur sc).me = { t.me with probes := (marked u u.cur sc).map (probeNo sc) } := by
          have hc : t.cur = u.cur := e.cur
          rw [f, ← hc, State.me, modStrand_cur, modStrand_strand]
          rfl
        have k := congrArg (fun y => (y.g, y.v, y.k, y.loops, y.pc)) e'.me
        simp only [unasked, Prod.mk.injEq] at k
        rw [m, f]
        exact ⟨k.1, k.2.1, k.2.2.1, k.2.2.2.1, k.2.2.2.2, e'.issue⟩
      · have k := congrArg (fun y => (y.g, y.v, y.k, y.loops, y.pc)) d.me
        simp only [unasked, Prod.mk.injEq] at k
        exact ⟨false, u, (Except.error.inj h).symm, k.1, k.2.1, k.2.2.1, k.2.2.2.1, k.2.2.2.2, d.issue⟩

/-! ### Scopes that are not narrowed (R173, R338) -/

theorem clamp_fits {s : State} {sc : Scope} (h : s.fits sc) : clamp sc s = .ok (sc, s) := if_pos h

theorem noteClamp_fits {s : State} {sc : Scope} (h : s.fits sc) : noteClamp sc s = .ok ((), s) :=
  congrArg (fun z => Except.ok ((), z)) (if_pos h)

theorem acquire_acquired {s : State} {sc : Scope} : acquire sc s = .ok ((), s.acquired sc) := by
  unfold acquire State.acquired
  split <;> rfl

end Sys2Proof.Laws
end

