-- ==== Sys2Proof/Tests/Slice0.lean ====
section
/-! SUPPORT. The model's own tests: an ill-formed term for each check of WellFormed, words written out from the
encodings of the manual, steps from reset, values worked out by hand from the rules, and for every statement a state
and operands that meet its hypotheses. -/

namespace Sys2Proof.Tests

open Sys2Proof Sys2Proof.Machine

/-! ### WellFormed: an ill-formed term for each check (R73-R76) -/

/-- LOOP's body holds at least the next bundle (R189): 2 words from a lone word, 3 from a pair. -/
theorem test_wf_loop : (Instr.loop 1 1).wf true = false ∧ (Instr.loop 1 2).wf true = true ∧
    (Instr.loop 1 2).wf false = false ∧ (Instr.loop 1 3).wf false = true := by decide
/-- LDAQ and STRL carry a scope (R161). -/
theorem test_wf_ldaq : (Instr.ldaq 1 2 .w 0 .none).wf true = false ∧ (Instr.strl 1 2 .w 0 .none).wf true = false ∧
    (Instr.fence .none).wf true = false ∧ (Instr.acq .none).wf true = false ∧ (Instr.rel .none).wf true = false := by decide
/-- An atomic has a scope exactly when it is an acquire or a release, and a word or doubleword (R166, R168). -/
theorem test_wf_atomics : (Instr.amoadd 1 2 3 .h .none false false false).wf true = false ∧
    (Instr.amoadd 1 2 3 .w .pkg false false false).wf true = false ∧
    (Instr.amoadd 1 2 3 .w .none false true false).wf true = false ∧
    (Instr.amofadd 1 2 3 .d .none false false false).wf true = false ∧
    (Instr.amofmax 1 2 3 .d .none false false false).wf true = false := by decide
/-- WAITW has a word or doubleword (R229). -/
theorem test_wf_waitw : (Instr.waitw 1 2 3 .b).wf true = false ∧ (Instr.waitw 1 2 3 .d).wf true = true := by decide
/-- VSTF names a format of its own (R165); SBIND names v12-v15 (R194). -/
theorem test_wf_vstf : (Instr.vstf 1 2 0 .own).wf true = false ∧ (Instr.sbind 11 1 false).wf true = false ∧
    (Instr.sbind 12 1 false).wf true = true := by decide
/-- A reserved CSR number is no instruction (R81, R84); TRAP and ERET are lone words (R102, R103). -/
theorem test_wf_csr : (Instr.csrr 1 0x007).wf true = false ∧ (Instr.csrw 1 0xFFF).wf true = false ∧
    (Instr.csrx 1 2 0xFFF).wf true = false ∧ (Instr.csrr 1 0x008).wf true = true ∧
    (Instr.trap 1).wf false = false ∧ Instr.eret.wf false = false := by decide
/-- The scopes of PLBINV and of CFLUSH. -/
theorem test_wf_scopes : (Instr.plbinvVf .clu).wf true = false ∧ (Instr.plbinvPage 1 .sys).wf true = false ∧
    (Instr.plbinvDom 1 .none).wf true = false ∧ (Instr.cflushCode 1 2 .sys).wf true = false := by decide
/-- The types of the vector operations (R131-R137). -/
theorem test_wf_vector : (Instr.vadd 1 2 3 0 .i32 .rtz false).wf true = false ∧
    (Instr.vadd 1 2 3 0 .f32 .rne true).wf true = false ∧ (Instr.vadd 1 2 3 0 .e4m3 .rne false).wf true = false ∧
    (Instr.vshl 1 2 3 0 .f32).wf true = false ∧ (Instr.vmax 1 2 3 0 .e5m2).wf true = false ∧
    (Instr.vcmp 1 2 3 0 .i32 .un).wf true = false ∧ (Instr.vsel 1 2 3 0 .i32).wf true = false ∧
    (Instr.vrcp 1 2 0 .i32 .rne).wf true = false ∧ (Instr.vperm 1 2 3 0 .e2m1 false).wf true = false ∧
    (Instr.vdot 1 2 3 0 .i32 .f32).wf true = false ∧ (Instr.vredsum 1 2 3 0 .i32 .f16).wf true = false ∧
    (Instr.vcvt 1 2 .i32 0 .f32 .rne 1).wf true = false ∧ (Instr.vtopk 1 2 0 0 .e4m3).wf true = false := by decide
/-- MJOIN names a stream (R218); a step of another agent is no word. -/
theorem test_wf_mjoin : (Instr.mjoin 0).wf true = false ∧ (Instr.moduleReset 0).wf true = false := by decide

/-! ### Decoding: words written out from the encodings of the manual -/

/-- The lone words of a list decode to the instructions beside them. -/
def decodes (l : List (Nat × Instr)) : Bool :=
  l.all fun e => match decodeWord (bitAt e.1 31) e.1 with
    | .ok i => decide (i = e.2)
    | .error _ => false

/-! One word of every instruction: the fixed bits of its row of the opcode table, and each operand's value at the place that
R71, R72 and the instruction's own rule give it, with the codes of R75. -/

theorem test_decode_control_transfers : decodes [
    (0x80000000, .nop), (0x80C01235, .br 0x401235), (0x81401235, .call 0x401235), (0x8181B235, .jmp 13 0x1235),
    (0x8201B235, .callr 13 0x1235), (0x82B53235, .beq 13 9 0x1235), (0x83353235, .bne 13 9 0x1235),
    (0x83B53235, .blt 13 9 0x1235), (0x84353235, .bge 13 9 0x1235), (0x84B53235, .bltu 13 9 0x1235),
    (0x85353235, .bgeu 13 9 0x1235), (0x85D9B235, .jtab 22 13 0x1235), (0x8601B235, .loop 13 0x1235),
    (0x8681A000, .loopx 13), (0x87001235, .realign 0x1235), (0x87D9A000, .course 22 13)] = true := by decide
theorem test_decode_accesses : decodes [
    (0x8854D1A9, .ldb 21 6 0x235 true), (0x88D4D1A9, .ldbu 21 6 0x235 true), (0x8954D1A9, .ldh 21 6 0x235 true),
    (0x89D4D1A9, .ldhu 21 6 0x235 true), (0x8A54D1A9, .ldw 21 6 0x235 true), (0x8AD4D1A9, .ldwu 21 6 0x235 true),
    (0x8B54D1A9, .ldd 21 6 0x235 true), (0x8BD4D1A9, .stb 21 6 0x235 true), (0x8C54D1A9, .sth 21 6 0x235 true),
    (0x8CD4D1A9, .stw 21 6 0x235 true), (0x8D54D1A9, .std 21 6 0x235 true), (0x8DD4D42C, .ldaq 21 6 .w 0x85 .pkg),
    (0x8E54D42C, .strl 21 6 .w 0x85 .pkg), (0x8ED4D1AF, .ldf 21 6 0x235 (.by .rdn)),
    (0x8F54D1AF, .stf 21 6 0x235 (.by .rdn)), (0x8F88D1A8, .pref .write 6 0x235)] = true := by decide
theorem test_decode_vector_accesses_and_atomics : decodes [
    (0x9024D1AE, .vld 9 6 0x235 true 2), (0x90A4D1AE, .vst 9 6 0x235 true 2), (0x9135A982, .vlds 13 13 9 .w 2),
    (0x91B5A982, .vsts 13 13 9 .w 2), (0x9224D1A9, .vldf 9 6 0x235 .f16), (0x92A4D1A9, .vstf 9 6 0x235 .f16),
    (0x9335A682, .vgath 13 13 6 .w 2), (0x93B5A682, .vscat 13 13 6 .w 2),
    (0x9459A9A7, .amoadd 22 13 9 .w .pkg true true true), (0x94D9A9A7, .amoand 22 13 9 .w .pkg true true true),
    (0x9559A9A7, .amoor 22 13 9 .w .pkg true true true), (0x95D9A9A7, .amoxor 22 13 9 .w .pkg true true true),
    (0x9659A9A7, .amomin 22 13 9 .w .pkg true true true), (0x96D9A9A7, .amomax 22 13 9 .w .pkg true true true),
    (0x9759A9A7, .amominu 22 13 9 .w .pkg true true true), (0x97D9A9A7, .amomaxu 22 13 9 .w .pkg true true true)] = true := by decide
theorem test_decode_atomics_waits_streams : decodes [
    (0x9859A9A7, .amoswp 22 13 9 .w .pkg true true true), (0x98D9A9A7, .amocas 22 13 9 .w .pkg true true true),
    (0x9959A9A7, .amofadd 22 13 9 .w .pkg true true true), (0x99D9A9A7, .amofmax 22 13 9 .w .pkg true true true),
    (0x9A000020, .fence .pkg), (0x9A800020, .acq .pkg), (0x9B000020, .rel .pkg), (0x9BD9A980, .waitw 22 13 9 .w),
    (0x9C000000, .wfe), (0x9C81A021, .sev 13 .pkg true), (0x9D59A020, .bararr 22 13 .pkg),
    (0x9D81A920, .barwt 13 9 .pkg), (0x9E01A900, .barxb 13 9), (0x9ED9A020, .gsync 22 13 .pkg),
    (0x9F59A000, .scfg 22 13), (0x9FB5A001, .sbind 13 13 true)] = true := by decide
theorem test_decode_engines_and_tasks : decodes [
    (0xA001A000, .sfree 13), (0xA0D9A901, .spos 22 13 9 true), (0xA12DB235, .btset 11 13 0x1235),
    (0xA1D80020, .btgo 22 .pkg), (0xA259A001, .btpoll 22 13 true), (0xA2D9A021, .ixpost 22 13 .pkg true),
    (0xA359A901, .klset 22 13 9 true), (0xA3D9A920, .klook 22 13 9 .pkg), (0xA459A001, .klwait 22 13 true),
    (0xA4D9A021, .klres 22 13 .pkg true), (0xA559A920, .ebag 22 13 9 .pkg), (0xA5D9A921, .eupd 22 13 9 .pkg true),
    (0xA5D9A922, .eupdClose 22 13 9 .pkg), (0xA659A020, .tenq 22 13 .pkg), (0xA6D9A900, .tdeq 22 13 9),
    (0xA759B235, .dcinit 22 13 0x1235), (0xA7D9A921, .dcdec 22 13 9 .pkg true)] = true := by decide
theorem test_decode_tasks_power_system : decodes [
    (0xA859A900, .dcinc 22 13 9), (0xA881A920, .tyield 13 9 .pkg), (0xA9000020, .texit .pkg),
    (0xA9D9B235, .pwreq 22 13 0x1235), (0xAA000000, .pwrel), (0xAAD9A000, .smig 22 13),
    (0xAB59B235, .gjoin 22 13 0x1235), (0xABD9B235, .gleave 22 13 0x1235), (0xAC004601, .qsend 2 6 true),
    (0xACB44901, .qrecv 13 2 9 true), (0xAD59A685, .vsopen 22 13 true 2 0x85), (0xAD804900, .vsmark 2 9),
    (0xAE580085, .vsclose 22 0x85), (0xAED9A900, .mcmd 22 13 9), (0xAF580008, .csrr 22 8), (0xAF81A008, .csrw 13 8)] = true := by decide
theorem test_decode_csr_and_system : decodes [
    (0xB059A008, .csrx 22 13 8), (0xB181A020, .plbinvPage 13 .pkg), (0xB181A021, .plbinvDom 13 .pkg),
    (0xB1800022, .plbinvVf .pkg), (0xB201A920, .cflushCode 13 9 .pkg), (0xB201A901, .cflushWb 13 9),
    (0xB201A902, .cflushInv 13 9), (0xB2D9B235, .spart 22 13 0x1235), (0xB359A000, .ctxsave 22 13),
    (0xB3D9A000, .ctxload 22 13)] = true := by decide
theorem test_decode_integer : decodes [
    (0xC0000000, .anop), (0xC0D9A901, .add 22 13 9 true), (0xC159A901, .sub 22 13 9 true),
    (0xC1D9B235, .addi 22 13 0x1235), (0xC259A900, .mul 22 13 9), (0xC2D9A900, .mulh 22 13 9),
    (0xC359A900, .mulhu 22 13 9), (0xC3D9A900, .div 22 13 9), (0xC459A900, .divu 22 13 9), (0xC4D9A900, .rem 22 13 9),
    (0xC559A900, .remu 22 13 9), (0xC5D9A900, .and 22 13 9), (0xC659A900, .or 22 13 9), (0xC6D9A900, .xor 22 13 9),
    (0xC759B235, .andi 22 13 0x1235), (0xC7D9B235, .ori 22 13 0x1235)] = true := by decide
theorem test_decode_integer_and_compare : decodes [
    (0xC859B235, .xori 22 13 0x1235), (0xC8D9A900, .shl 22 13 9), (0xC959A900, .shr 22 13 9), (0xC9D9A900, .sar 22 13 9),
    (0xCA59A025, .shli 22 13 0x25), (0xCAD9A025, .shri 22 13 0x25), (0xCB59A025, .sari 22 13 0x25),
    (0xCBDA9235, .limm 22 2 0x9235), (0xCC59A900, .slt 22 13 9), (0xCCD9A900, .sltu 22 13 9), (0xCD59A900, .seq 22 13 9),
    (0xCDD9A900, .sel 22 13 9), (0xCE59A000, .clz 22 13), (0xCED9A000, .popc 22 13), (0xCF59A901, .min 22 13 9 true),
    (0xCFD9A901, .max 22 13 9 true)] = true := by decide
theorem test_decode_pointers_and_float : decodes [
    (0xD059A900, .pfmt 22 13 9), (0xD0D9A002, .pgetf 22 13 2), (0xD159A900, .padde 22 13 9),
    (0xD1D81235, .pcaddr 22 0x1235), (0xD259A9C6, .fadd 22 13 9 (.by .rdn) .bf16),
    (0xD2D9A9C6, .fsub 22 13 9 (.by .rdn) .bf16), (0xD359A9C6, .fmul 22 13 9 (.by .rdn) .bf16),
    (0xD3D9A9C6, .fma 22 13 9 (.by .rdn) .bf16), (0xD459A9C6, .fdiv 22 13 9 (.by .rdn) .bf16),
    (0xD4D9A0C6, .fsqrt 22 13 (.by .rdn) .bf16), (0xD559A902, .fmin 22 13 9 .bf16), (0xD5D9A902, .fmax 22 13 9 .bf16),
    (0xD659A902, .fcmp 22 13 9 .bf16), (0xD6D9ACC6, .fcvt 22 13 true .e4m3 (.by .rdn) .bf16),
    (0xD759A1C6, .fcvti 22 13 .u32 (.by .rdn) .bf16), (0xD7D9A1C6, .icvtf 22 13 .u32 (.by .rdn) .bf16)] = true := by decide
theorem test_decode_vector_arithmetic : decodes [
    (0xD869B510, .vadd 13 3 6 2 .f16 .rup false), (0xD8E9B441, .vsub 13 3 6 2 .i16 .rne true),
    (0xD969B510, .vmul 13 3 6 2 .f16 .rup), (0xD9E9B510, .vfma 13 3 6 2 .f16 .rup), (0xDA69B500, .vmax 13 3 6 2 .f16),
    (0xDAE9B500, .vmin 13 3 6 2 .f16), (0xDB69B500, .vand 13 3 6 2 .f16), (0xDBE9B500, .vor 13 3 6 2 .f16),
    (0xDC69B500, .vxor 13 3 6 2 .f16), (0xDCE9B440, .vshl 13 3 6 2 .i16), (0xDD69B441, .vshr 13 3 6 2 .i16 true),
    (0xDD99B503, .vcmp 3 3 6 2 .f16 .le), (0xDE69B500, .vsel 13 3 6 2 .f16), (0xDEE99D11, .vcvt 13 3 .f32 2 .f16 .rup 1),
    (0xDF69B502, .vredsum 13 3 6 2 .f16 .bf16), (0xDFE98500, .vredmax 13 3 2 .f16)] = true := by decide
theorem test_decode_vector_moves_and_tiles : decodes [
    (0xE06984C0, .vexp 13 3 2), (0xE0E98510, .vrcp 13 3 2 .f16 .rup), (0xE135A080, .vsplat 13 13 .w),
    (0xE1E9B501, .vperm 13 3 6 2 .f16 true), (0xE2586981, .vmovg 22 3 9 .w true), (0xE2B5A980, .vmovv 13 13 9 .w),
    (0xE369CD00, .vtopk 13 3 9 2 .f16), (0xE3E9B502, .vdot 13 3 6 2 .f16 .bf16), (0xE415A000, .tshape 5 13),
    (0xE495A902, .tld 5 13 9 2), (0xE515A902, .tst 5 13 9 2), (0xE5D00800, .tzero 5 2),
    (0xE657AA00, .mma 5 3 6 .rw 2 .bf16), (0xE6D7AA00, .mmas 5 3 6 .rw 2 .bf16), (0xE757AA00, .mmss 5 3 6 .rw 2 .bf16),
    (0xE7D608E0, .tcvt 5 3 2 (.by .rdn))] = true := by decide
theorem test_decode_matrix : decodes [
    (0xE85788E0, .tadd 5 3 6 2 (.by .rdn)), (0xE8D788E1, .tscale 5 3 6 2 (.by .rdn) true), (0xE9560800, .ttrans 5 3 2),
    (0xE9800009, .mjoin 9), (0xEA59A000, .talloc 22 13), (0xEA81A000, .tfree 13), (0xEB346902, .tmovv 13 3 9 2),
    (0xEB946902, .vmovt 5 3 9 2)] = true := by decide
theorem test_decode_trap_and_eret : decodes [
    (0xB0801235, .trap 0x1235), (0xB1000000, .eret)] = true := by decide
/-- R81: a reserved CSR number, and a paired TRAP, raise RESERVED_FIELD. -/
theorem test_decode_reserved : decodeWord true 0xAF141008 = .error (.reserved 12) := by decide

/-! ### One step from reset -/

/-- The strand in slot 0 of the first core. -/
def strand0 (o : Host.Outcome State Fault Refusal) : Strand :=
  match o with
  | .next t => t.strand Place.first
  | .fault _ => Strand.empty
  | .refused _ => Strand.empty

/-- ADDI g1, g0, 5 (R109): OP 0x03 in format AI. -/
theorem test_step_addi : (strand0 (step (State.reset.withFetchWord 32 0xC1840005))).g[1] = 5 ∧
    (strand0 (step (State.reset.withFetchWord 32 0xC1840005))).pc = 4 := by decide
/-- TRAP 5 (R102, R93): the handler of code 0x18 at EVEC 0, past the word. -/
theorem test_step_trap : (strand0 (step (State.reset.withFetchWord 32 0xB0800005))).csr.ecause = 0x18 ∧
    (strand0 (step (State.reset.withFetchWord 32 0xB0800005))).csr.epc = 4 ∧
    (strand0 (step (State.reset.withFetchWord 32 0xB0800005))).csr.einfo = 5 := by decide
/-- An unassigned OP raises ILLEGAL_INSTR (R79). -/
theorem test_step_illegal : (strand0 (step (State.reset.withFetchWord 32 0xFFFFFFFF))).csr.ecause = 1 := by decide

/-! ### States and operands that meet the hypotheses of the statements -/

/-- Slot 0 of the first core, with an SSTAT. -/
def at' (sstat : Word) : State := State.reset.modCsr fun c => { c with sstat := sstat }
/-- In supervisor mode, and in user mode. -/
def sup : State := at' 1
def usr : State := at' 0
/-- A register of the strand set. -/
def reg (s : State) (r : GReg) (v : Nat) : State := wg s r (word v)
/-- The supervisor's part of the strand's own TCM (R151). -/
def own (off : Nat) : Nat := 3 * 2 ^ 54 + 0xC000 + off
/-- An answer of another unit has come, or none. -/
def answered (s : State) (c v : Nat) : State := s.modMe fun x => { x with resps := [.unit c v] }
def asked (s : State) (k : Nat) : State := s.modMe fun x => { x with asked := [k] }

/-- An access that passes, and a test on what it answers. -/
def passes {α : Type} (r : Except Res (α × State)) (p : α → State → Bool) : Bool :=
  match r with
  | .ok (x, t) => p x t
  | .error _ => false
def ok {α : Type} (r : Except Res (α × State)) : Bool := passes r fun _ _ => true
def goes (o : Host.Outcome State Fault Refusal) : Bool :=
  match o with
  | .next _ => true
  | .fault _ => false
  | .refused _ => false

theorem witness_DecodeEncode : encode true (.addi 1 0 5) = some 0xC1840005 ∧ (Instr.addi 1 0 5).wf true = true ∧
    (encode false (.addi 1 0 5)).isSome = true := by decide
theorem witness_DecoderWellFormed : decodeWord true 0xC1840005 = .ok (.addi 1 0 5) := by decide
theorem witness_MemoryCanonical : State.reset.memWf = true ∧ goes (step State.reset) = true := by decide

theorem witness_StepRuns_event (e : Event) : ({ State.reset with agenda := [e, e, e] }).agenda ≠ [] ∧
    ∀ k, k < 3 → ({ State.reset with agenda := [e, e, e] }).agenda[k]? = some e := by
  refine ⟨by simp, fun k h => ?_⟩
  have : k = 0 ∨ k = 1 ∨ k = 2 := by omega
  rcases this with rfl | rfl | rfl <;> rfl
/-- How an end is numbered here: done, trapped, parked, gone. -/
def endNo : Ended → Nat
  | .done => 0
  | .trap _ _ _ => 1
  | .park _ _ => 2
  | .gone => 3
/-- How a lone word at the program counter ends, by the statement's own steps, where its premises hold (R66, R181). -/
def endsAs (w n : Nat) : Bool :=
  let s := State.reset.withFetchWord 32 w
  let p := placeOf s.turn 0
  let s0 := beginBundle s p
  decide (s.urgent = [] ∧ s.agenda = [] ∧ pickSlot s s.turn = some 0 ∧ asyncCause (s.strand p) = none ∧ (s0.me.denied = false ∨ s0.me.absAt = none) ∧
    forwardedNow s0.me = none) &&
  passes (fetchWords s0.issue.addr s0) fun v s1 =>
    decide (frame s1.issue.addr v.1 v.2 = .lone w ∧ s1.me.pktOpen = false ∧ forwardedNow s1.me = none) &&
    match decodeWord true w with
    | .error _ => false
    | .ok i =>
      match exec i (withWord s1 .lone (addrAdd s1.issue.addr 4)) with
      | .next t => decide (t.issue.ended.map endNo = some n)
      | .fault _ => false
      | .refused _ => false
/-- The turn of a lower core of the cluster is to come, or none is. -/
theorem witness_StepRuns_turn : lowerLeft { sup with turn := 1, left := [0, 2] } = some 0 ∧
    lowerLeft { sup with turn := 1, left := [2] } = none ∧ sup.issue.bank = false ∧
    ({ sup.issue with bank := true } : Issue).bank = true := by decide
/-- ADDI, TRAP, a load that misses, TEXIT. -/
theorem witness_StepRuns_lone : endsAs 0xC1840005 0 = true ∧ endsAs 0xB0800005 1 = true ∧ endsAs 0x88040000 2 = true := by decide
theorem witness_StepRuns_gone : endsAs 0xA9000000 3 = true := by decide
theorem witness_StepRuns_events : ({ sup with urgent := [.correctableError 0] } : State).urgent = .correctableError 0 :: [] ∧
    Event.matches (.correctableError 0) (.correctableError 0) = true ∧ ({ State.reset with agenda := [.correctableError 0] } : State).urgent = [] := by decide
theorem witness_TrapEntry : usr.issue.half = .lone ∧ usr.me.tl = false ∧ (at' 0x40).me.tl = true ∧
    (at' 0x40).issue.half = .lone ∧ bitAt (word 0x100).toNat 0 = false ∧ bitAt (word 0x101).toNat 0 = true := by decide
theorem witness_ModeChanges : sup.super = true ∧ usr.super = false := by decide
theorem witness_RegisterWrites : (31 : GReg) ≠ 0 ∧ (0 : GReg) ≠ 31 ∧ (15 : VReg) ≠ 0 ∧ (3 : KReg) ≠ 0 := by decide
theorem witness_IntegerArithmetic : rg sup 2 = 0 ∧ (rg (reg sup 1 (2 ^ 63)) 1).toInt = -2 ^ 63 ∧
    (rg (reg sup 2 (2 ^ 64 - 1)) 2).toInt = -1 ∧ rg (reg sup 2 1) 2 ≠ 0 ∧
    ¬((rg (reg sup 1 (2 ^ 63)) 1).toInt = -2 ^ 63 ∧ (rg (reg sup 2 1) 2).toInt = -1) := by decide
theorem witness_PointerInstructions : fmtBad 1 0 = false ∧ 1 ∉ [6, 7, 8] := by decide
theorem witness_ControlTransfers : (rg (reg sup 1 (2 ^ 56 - 4)) 1 + (4 : BitVec 13).signExtend 64).toNat % 4 = 0 ∧
    (rg (reg sup 1 3) 1 + (0 : BitVec 13).signExtend 64).toNat % 4 ≠ 0 ∧
    (8 : BitVec 13).toNat ≤ (rg (reg sup 1 8) 1).toNat ∧ (rg (reg sup 1 7) 1).toNat < (8 : BitVec 13).toNat ∧
    addrAdd (addrOf (rg (reg sup 2 (own 0)) 2)) (4 * 7) % 4 = 0 ∧
    ok (load (addrAdd (addrOf (rg (reg sup 2 (own 0)) 2)) (4 * 7)) 4 true sup) = true := by decide
/-- A strand in a loop level. -/
def looping (ls : List LoopLevel) : State := sup.modMe fun x => { x with loops := ls }
def level (e n : Nat) : LoopLevel := { b := 0, e := e, remain := n, buf := none, recap := false }
theorem witness_Loops : (rg (reg sup 1 (2 ^ 48)) 1).toNat % 2 ^ 48 = 0 ∧ (rg (reg sup 1 1) 1).toNat % 2 ^ 48 ≠ 0 ∧
    sup.me.loops = [] ∧ (looping [level 8 1]).me.loops = [level 8 1] ∧ 2 ≤ (looping [level 8 1, level 16 1]).me.loops.length ∧
    (level 8 1).e ≠ addrAdd (wordAddr sup) (4 * 4) ∧ (level 8 1).e = addrAdd (wordAddr sup) (4 * 2) ∧ rg sup 1 = 0 := by decide
/-- The end of a bundle in the one level. -/
def ending (e n next : Nat) : State :=
  { looping [level e n] with issue := { sup.issue with lev := 1, next := next } }
theorem witness_Loops_end : (ending 8 2 4).issue.half = .lone ∧ (ending 8 2 4).issue.noEnd = false ∧
    (ending 8 2 4).me.loops = [level 8 2] ∧ (ending 8 2 4).issue.lev = 1 ∧ (level 8 2).e ≠ (ending 8 2 4).issue.next ∧
    (level 8 2).e = (ending 8 2 8).issue.next ∧ 1 < (level 8 2).remain ∧ (level 8 1).remain ≤ 1 := by decide
/-- A strand in slot 15. -/
def s15 : State := { sup with cur := { Place.first with slot := 15 } }
theorem witness_CourseInstructions : unitAnswer (answered sup 0 3).me = some (0, 3) ∧ unitAnswer s15.me = none ∧
    s15.cur.slot = 15 ∧ unitAnswer sup.me = none ∧ sup.cur.slot ≠ 15 ∧
    bitAt ((rg (reg sup 1 2) 1).toNat % 2 ^ 16) sup.cur.core = false ∧
    (rg (reg sup 1 1) 1).toNat % 2 ^ 16 = 2 ^ sup.cur.core ∧ courseOf sup sup.cur = none := by decide

/-- The supervisor's TCM as the base of an access, and as the base of a pointer with a format. -/
def based (off : Nat) : State := reg sup 2 (own off)
def formed (c off : Nat) : State := reg sup 2 (c * 2 ^ 60 + own off)
def base (s : State) (n : Int) : Nat := addrAdd (addrOf (rg s 2)) n

theorem witness_ScalarAccesses : base (based 1) 0 % 2 ≠ 0 ∧ base (based 2) 4 % 4 ≠ 0 ∧ base (based 4) (-8) % 8 ≠ 0 ∧
    ok (load (base (based 0x3FFF) 0) 1 true (based 0x3FFF)) = true ∧
    ok (load (base (based 0x3FFE) 0) 2 false (based 0x3FFE)) = true ∧
    ok (load (base (based 0x3FFC) 0) 4 true (based 0x3FFC)) = true ∧
    ok (load (base (based 0x4000) (-8)) 8 true (based 0x4000)) = true ∧ base (based 0x3FFE) 0 % 2 = 0 ∧
    base (based 0x3FFC) 0 % 4 = 0 ∧ base (based 0x4000) (-8) % 8 = 0 := by decide
theorem witness_ScalarAccesses_stores :
    ok (storeCheck (secFuel 1) (base (based 0x3FFF) 0) 1 .store true (based 0x3FFF)) = true ∧
    ok (storeCheck (secFuel 2) (base (based 0x3FFE) 0) 2 .store true (based 0x3FFE)) = true ∧
    ok (storeCheck (secFuel 4) (base (based 0x3FFC) 0) 4 .store false (based 0x3FFC)) = true ∧
    ok (storeCheck (secFuel 8) (base (based 0x4000) (-8)) 8 .store true (based 0x4000)) = true := by decide
theorem witness_TcmAccesses : OwnTcm (based 0) (base (based 0) 0) 8 ∧ OwnTcm (based 0x4000) (base (based 0x4000) (-1)) 1 ∧
    placedPoison (based 0) (base (based 0) 0) 8 = none ∧ (based 0).core.tcm.wf = true ∧ (based 0).noPush :=
  ⟨⟨by decide, by decide, by decide, by decide, by decide⟩, ⟨by decide, by decide, by decide, by decide, by decide⟩,
    by decide, by decide, by unfold State.noPush; decide⟩
/-- An FP32 pointer, a signed and an unsigned integer pointer. -/
theorem witness_FormattedScalars : [1, 9, 10, 11, 12].all (fun c =>
    !fmtBad c 0 && !isBlocked c && decide (c ≠ 6) && decide (fld (rg (formed c 0) 2) 63 60 = c) &&
    decide (base (formed c 0) 0 % (elemBits c / 8) = 0) &&
    ok (load (base (formed c 0) 0) (elemBits c / 8) true (formed c 0)) &&
    ok (storeCheck (secFuel (elemBits c / 8)) (base (formed c 0) 0) (elemBits c / 8) .store true (formed c 0))) = true ∧
    codeIsInt 1 = false ∧ [9, 10, 11, 12].all codeIsInt = true ∧
    [9, 10, 11, 12].any (fun c => decide ((intRange c).1 < 0)) = true ∧
    [9, 10, 11, 12].any (fun c => decide (0 ≤ (intRange c).1)) = true := by decide
theorem witness_VectorAccesses : base (based 0) 32 % 32 = 0 ∧ boundUnit (based 0) 1 = none ∧
    passes (load (base (based 0) 32) 32 true (based 0)) (fun _ t => decide (boundUnit t 1 = none)) = true ∧
    ok (storeCheck 1 (base (based 0) 32) 1 .store true (based 0)) = true ∧ rk (based 0) 3 = 0 := by decide
/-- The elements of a strided access of doublewords, up and down, and of an indexed one. -/
def stride (d : Int) : List (Nat × Nat) := (List.range 4).map fun (i : Nat) => (i, base (based 0x100) (i * d))
theorem witness_GatherScatter : boundUnit (based 0x100) 1 = none ∧
    [stride 16, (stride (-8)).reverse, stride 0].all (fun xs => xs.all (fun e => e.2 % 8 = 0) &&
      passes (loadEach 8 xs (based 0x100)) (fun _ t => decide (boundUnit t 1 = none)) &&
      ok (checkEach 8 xs (based 0x100))) = true := by decide
theorem witness_FormattedVectors : fmtBad 1 0 = false ∧ isBlocked 1 = false ∧ boundUnit (formed 1 0) 1 = none ∧
    passes (loadElems (addrOf (rg (formed 1 0) 2)) 1 0 0 8 (formed 1 0)) (fun _ t => decide (boundUnit t 1 = none)) = true ∧
    passes (elemAligned (elemAddr (addrOf (rg (formed 1 0) 2)) 1 8) 1 .store (formed 1 0))
      (fun _ t => decide (t = formed 1 0)) = true ∧
    ok (storeCheck (secFuel 32) (elemAddr (addrOf (rg (formed 1 0) 2)) 1 8) 32 .store true (formed 1 0)) = true := by decide

/-- VectorInteger, VectorFloat, VectorBits, VectorReductions, VectorMoves: registers without streams, the types of each, an
active element. -/
theorem witness_Vectors : boundUnit sup 0 = none ∧ boundUnit sup 15 = none ∧ EType.i32.isInt = true ∧ EType.i8.isInt = true ∧
    EType.f32.isWF = true ∧ EType.f32.isInt = false ∧
    (List.range EType.i32.count).filter (activeElem sup 0 .i32) ≠ [] := by decide
/-- Comparisons of integer and of IEEE elements: a signed order, and NaN with every condition. -/
theorem witness_VectorReductions : (0 : BitVec 4).toNat < 31 ∧ (15 : BitVec 4).toNat < 31 ∧ (0 : Nat) ≤ (0 : BitVec 4).toNat := by
  decide
/-- A sector of the L1 that the holder's package serves. -/
def attr0 : Attr := { w := true, x := true, c := true, t := false, rap := false, dom := 0, dup := false, holder := 0,
                      aper := 0, leaf := 1 }
/-- The sector in the L1, and its domain's rights in the PLB. -/
def cached (off : Nat) : State :=
  (reg (l1Fill sup sup.cur.coreKey sup.tenant 0x1000 attr0 7 0) 2 (0x1000 + off)).modCore sup.cur.coreKey fun c =>
    { c with plb := [{ tenant := 0, dom := 0, rights := 15 }] }
def narrow (trap : Bool) : State := sup.modPolicy 0 0 fun x => { x with maxscope := 2, trap := trap }
def fit (s : State) (sc : Scope) : Bool := decide (sc.code ≤ maxScope s)
/-- A release that completes, and a test on the state after it. -/
def freed (sc : Scope) (s : State) (p : State → Bool) : Bool := passes (release sc s) fun _ t => p t
/-- A strand with a marked target. -/
def marking : State := sup.modCsr fun c => { c with ttmask := 1 }
theorem witness_Ordering : bitAt (base (based 0) 0) 55 = true ∧ frameWindow ≤ base (reg usr 2 (2 ^ 55 - 1)) 0 ∧ usr.super = false ∧
    moduleBytes ≤ base (reg sup 2 (2 ^ 55 - 1)) 0 - frameWindow ∧ base (reg sup 2 frameWindow) 0 - frameWindow < moduleBytes ∧
    bitAt (base (reg sup 2 0x1000) 0) 55 = false ∧ base (reg sup 2 0x1000) 0 < frameWindow ∧
    l1Sec (reg sup 2 0x1000).core 0x1000 = none ∧
    ((l1Sec (cached 0).core 0x1000).map (·.filled)) = some true ∧
    fit sup .sys = true ∧ fit (narrow true) .clu = true ∧
    freed .sys sup (fun t => fit t .sys && fit (t.acquired .sys) .sys) = true ∧ fit (sup.acquired .sys) .sys = true := by decide
theorem witness_Ordering_release : hasReleased (drainPushes sup sup.cur).me = false ∧
    marked (drainPushes sup sup.cur) sup.cur .sys = [] ∧ hasReleased (drainPushes marking marking.cur).me = false ∧
    fit marking .sys = true ∧ marked (drainPushes marking marking.cur) marking.cur .sys ≠ [] ∧
    (drainPushes marking marking.cur).me.probes = [] := by decide
theorem witness_Ordering_clamp : ((narrow true).policy (narrow true).cur.mod (narrow true).tenant).maxscope < Scope.die.code ∧
    ((narrow true).policy (narrow true).cur.mod (narrow true).tenant).trap = true := by decide
theorem witness_Ordering_ldaq : base (based 8) 0 % 8 = 0 ∧
    passes (load (base (based 8) 0) 8 true (based 8)) (fun x t => decide (Scope.sys.code ≤
      ((acquireAt (wg t 1 (word x)) t.cur .sys).policy t.cur.mod t.tenant).maxscope)) = true ∧
    passes (storeCheck (secFuel 8) (base (based 8) 0) 8 .store true (based 8)) (fun _ t => freed .sys t fun u =>
      passes (storeCheck (secFuel 8) (base (based 8) 0) 8 .store true u) fun _ v =>
        fit (storeBytes (secFuel 8) v v (base (based 8) 0) 8 (2 ^ 8 - 1) 0 true) .sys) = true := by decide

theorem witness_Atomics : base (based 2) 0 % 4 ≠ 0 ∧ fit sup .sys = true ∧ base (based 8) 0 % 8 = 0 ∧
    passes (placedStoreCheck (base (based 8) 0) .atomic (based 8)) (fun _ t => ok (placedLoad (base (based 8) 0) 8 .atomic t)) = true ∧
    oldResp (answered sup 0 0).me = none ∧ hasAsked sup.me (farKey 0x1000) = false ∧
    oldResp ((cached 0).modMe fun x => { x with resps := [.old .ok 5 false] }).me = some (.ok, 5, false) := by decide
set_option maxRecDepth 8000 in
theorem witness_Atomics_near : passes (sectorFor 0x1000 8 .atomic true true (cached 0)) (fun r t =>
      r.1.c && decide (r.1.holder = t.pkgOf t.cur.mod) && (l1Line t.core 0x1000).isSome &&
      ((l1Sec t.core 0x1000).map fun o => o.serves 0x1000 8 && !poisonHit o.poison 0x1000 8) == some true &&
      passes (amoNear 0x1000 8 .add 1 0 t) (fun x u => decide (x = 7) && fit u .sys)) = true ∧
    passes (sectorFor 0x1000 8 .atomic false false (cached 0)) (fun r t =>
      fit (sendFar t 0x1000 .d .add 1 0 r.1 true) .sys) = true := by decide
theorem witness_Atomics_values : (2 : Nat) ^ 64 - 1 < 256 ^ 8 ∧ (2 : Nat) ^ 32 - 1 < 256 ^ 4 := by decide
set_option maxRecDepth 8000 in
theorem witness_Atomics_poison :
    (let s := l1Fill sup sup.cur.coreKey sup.tenant 0x1000 attr0 7 1
     let u := (reg s 2 0x1000).modCore s.cur.coreKey fun c => { c with plb := [{ tenant := 0, dom := 0, rights := 15 }] }
     passes (sectorFor 0x1000 8 .atomic true true u) fun r t =>
       r.1.c && decide (r.1.holder = u.pkgOf u.cur.mod) &&
       ((l1Sec t.core 0x1000).map fun o => o.serves 0x1000 8 && poisonHit o.poison 0x1000 8) == some true) = true ∧
    freed .sys sup (fun _ => true) = true ∧ freed .sys (cached 0) (fun _ => true) = true ∧
    freed .sys (based 8) (fun _ => true) = true := by decide
theorem witness_WaitsAndEvents : waitPlace (base (based 8) 0) 8 = true ∧
    passes (placedLoad (base (based 8) 0) 8 .load (based 8)) (fun v _ => decide (v ≠ (rg (reg (based 8) 3 1) 3).toNat % 256 ^ 8) &&
      decide (v = (rg (based 8) 3).toNat % 256 ^ 8)) = true ∧
    sup.me.latch = true ∧ (sup.modMe fun x => { x with latch := false }).me.latch = false ∧
    sup.modWith 0 = none ∧ (sup.modMod 0 fun x => { x with pkg := some 0 }).modWith 0 = some 0 ∧
    ((sup.modMod 0 fun x => { x with pkg := some 0 }).modOf 0).diesUp.contains 0 = true ∧
    reaches ((sup.modMe fun x => { x with st := .parked .wfe }).strand sup.cur) sup.tenant = true := by decide
/-- A barrier of the own TCM with a value. -/
def barred (v : Nat) : State := placedStore (based 0) (base (based 0) 0) 16 (2 ^ 16 - 1) v
def barGives (v : Nat) (k : Access) (p : Nat → Bool) : Bool :=
  passes (barRead (base (barred v) 0) k (barred v)) fun x _ => p x
theorem witness_Barriers : barGives 0 .atomic (fun v => decide (barRemaining v = 0)) = true ∧
    barGives 0x10001 .atomic (fun v => decide (barRemaining v = 1) && decide (barPending v = 0)) = true ∧
    barGives 0x20002 .atomic (fun v => decide (1 < barRemaining v)) = true ∧
    barGives 0x100010001 .atomic (fun v => decide (barRemaining v = 1) && decide (barPending v ≠ 0)) = true ∧
    barGives 0 .load (fun v => decide (barPhase v ≠ 1 % 2)) = true ∧
    barGives (2 ^ 68) .load (fun v => decide (barPhase v = 1 % 2)) = true ∧
    barGives (2 ^ 68 - 2 ^ 32) .atomic (fun v => decide (2 ^ 36 - 1 < barPending v + 1) &&
      decide (barPending v + 0 ≤ 2 ^ 36 - 1)) = true := by decide
/-- Unit 0 of the core. -/
def unit0 (u : SUnit) : State := sup.modUnit sup.cur.coreKey 0 fun _ => u
def su (b : Option Nat) (wr : Bool) (n : Nat) (ps : List Push) : SUnit :=
  { SUnit.free with owner := some 0, base := own 0, cnt := [n, 1, 1, 1], bound := b, wr := wr, pushes := ps }
/-- An address of the cluster's scratchpad, and a push of the strand to its own TCM. -/
def pad0 (off : Nat) : Nat := spadAddr sup 0 off
def push0 : Push := { addr := own 0, data := 5, attr := attr0, seq := 0 }
theorem witness_StreamUnits : ownPlace (based 0) (base (based 0) 0) 64 = true ∧ base (based 0) 0 % 64 = 0 ∧
    ownPlace (based 8) (base (based 8) 0) 64 = true ∧ base (based 8) 0 % 64 ≠ 0 ∧ ownPlace sup 0 64 = false ∧
    passes (placedLoad (base (based 0) 0) 64 .load (based 0)) (fun d t =>
      let u := unitOf d 0 (base (based 0) 0)
      decide (bits d 63 56 = 0) && decide (d / 2 ^ 448 % 2 ^ 64 = 0) && decide (u.count < 2 ^ 32) &&
      decide (u.base % 32 = 0) && u.str.all (fun x => decide (x % 32 = 0)) &&
      decide ((nth SUnit.free t.core.units 0).owner = none)) = true ∧
    ([0, 1, 2, 3].all fun j => decide ((nth SUnit.free
      (([0, 1, 2, 3].foldl (fun (s : State) i => s.modUnit 0 i fun _ => su none false 1 []) (based 0)).core.units) j).owner ≠ none)) = true := by
  decide
theorem witness_StreamUnits_owned : (nth SUnit.free (unit0 (su none false 1 [])).core.units 0).owner = some 0 ∧
    boundUnit (unit0 (su none false 1 [])) 3 = none ∧ boundUnit (unit0 (su (some 3) false 1 [])) 3 ≠ none ∧
    (nth SUnit.free sup.core.units 0).owner ≠ some 0 ∧
    (nth SUnit.free (unit0 (su (some 3) true 1 [push0])).core.units 0).pushes ≠ [] ∧
    (nth SUnit.free (unit0 (su (some 3) false 1 [])).core.units 0).bound = some 3 := by decide
theorem witness_StreamUnits_steps :
    (let s := unit0 (su (some 3) false 1 [])
     let u := nth SUnit.free (s.coreOf 0).units 0
     u.pos + u.fetched.length < u.count ∧ u.fetched.length < 8 ∧
       (asPlace (placeOf 0 0) (streamLoad (u.addr 0)) s).1 = some (.data 0)) ∧
    (nth SUnit.free ((unit0 (su (some 3) true 1 [push0])).coreOf 0).units 0).pushes = push0 :: [] := by decide
/-- The unit of the strand's oldest pending store; a cluster whose scratchpad ways SPART converts (R228). -/
theorem witness_StreamUnits_oldest : oldestUnit ((unit0 (su (some 3) true 1 [push0])).coreOf 0) 0 = some 0 := by decide
def converting (s : State) : State := s.modMyClu fun c => { c with busy := true }
theorem witness_busy : bits (pad0 0) 55 54 = 2 ∧ (converting sup).clu.busy = true ∧ sup.clu.busy = false ∧
    bits (own 0) 55 54 = 3 := by decide
theorem witness_StreamUnits_rebind : Strand.empty.rebind = [] ∧ ({ Strand.empty with rebind := [(12, 1)] } : Strand).rebind ≠ [] := by decide
/-- Every assigned register can be read in supervisor mode. -/
theorem witness_ControlRegisters : csrAssigned 0x007 = false ∧ csrAssigned 0x001 = true ∧ csrSuper 0x001 = true ∧
    csrSuper 0x008 = false ∧ csrUserWrite 0x008 = true ∧ (csrRead usr 0x008).isSome = true ∧
    (csrRead sup 0x301).isSome = true ∧ (csrRead sup 0x001).isSome = true ∧
    passes (csrTake 0x008 usr) (fun _ t => ok (csrWrite 0x60 0x008 5 t)) = true ∧ ok (csrWrite 0x5F 0x008 5 usr) = true := by
  decide
theorem witness_ControlRegisters_sstat : usr.me.csr.sstat &&& sstatGuard ≠ 1 &&& sstatGuard ∧ bitAt (word 0x80).toNat 7 = true ∧
    bitAt (word 1).toNat 7 = false ∧ boundUnit (unit0 (su (some 3) false 1 [])) 3 ≠ none := by decide
/-- A strand with shadow registers. -/
def shadowed (l : List Word) (lost : Bool) : State := setShadow sup sup.cur { regs := l, lost := lost }
/-- A transfer of 64 bytes within the supervisor's TCM, on a barrier or none. -/
def xf (bar : Nat) : List Word := [word (own 0x100), word (own 0x200), 64, 0, 0, 0, 0, 1, 1, word bar, 0, 0, 0]
def big : List Word := [0, 0, 65537, 0, 0, 0, 0, 1, 1, 0, 0, 0, 0]
/-- A transfer of the strand, with its one write to do. -/
def moving : Xfer :=
  { id := 0, who := Place.first, tenant := 0, part := 0, priv := true, shows := false, regs := xf 0, scope := .clu, seed := 0,
    todo := [0], landed := 0, flags := 0, lost := none, fault := 0, faddr := 0, token := none, absAt := (0, 0), barDone := false, stages := 0, consumed := 0,
    depth := 0, lats := [], intvs := [], lastUpd := none, started := [] }
theorem witness_BlockTransfers : (shadowOf (shadowed (xf 0) true) sup.cur).lost = true ∧
    btReject (shadowed (xf 0) false) (xf 0) = none ∧ btReject sup [0, 0, 0, 0, 0, 0, 0, 1, 1, 0, 0, 0, 7 * 2 ^ 16] = some 2 ∧
    (shadowed (xf 0) false).clu.busy = false ∧ xBytes (xf 0) = 64 ∧ fit sup (Scope.ofCode (xScope (xf 0))) = true ∧
    queueFull (shadowed (xf 0) false).clu.bte = false ∧
    queueFull (sup.modMyClu fun c => { c with bte := { c.bte with queue := List.replicate 32 moving } }).clu.bte = true ∧
    xRing (xf 0) = false ∧ xConv (xf 0) = false ∧ ¬ xBytes big ≤ 65536 := by decide
theorem witness_BlockTransfers_bar :
    (let s := barred (2 ^ 68 - 2 ^ 32)
     xreg (xf (own 0)) 9 ≠ 0 ∧ xNoAdd (xf (own 0)) = false ∧ btReject s (xf (own 0)) = none ∧
       (match engineBar s s.cur s.tenant s.part s.super (xreg (xf (own 0)) 9 % addrSpace) with
        | .ok v => decide (2 ^ 36 - 1 < barPending v + xBytes (xf (own 0)))
        | .error _ => false) = true) ∧
    (match engineBar (barred 0) sup.cur 0 0 true (own 0) with
     | .ok v => decide (barPending v + 64 ≤ 2 ^ 36 - 1)
     | .error _ => false) = true ∧
    2 ≤ pollWord sup.clu.bte 0 % 16 ∧
    pollWord (sup.modMyClu fun c => { c with bte := { c.bte with seq := 1, table := [(0, { st := 1, fault := 0, done := 0 })] } }).clu.bte 0 % 16 ≤ 1 := by
  decide
/-- A barrier of the own TCM that reads as poison. -/
def spoilt : State := (barred 0).modCore 0 fun c => { c with tcmPoison := [0xC000 / 8] }
theorem witness_BlockTransfers_ready : freed .clu (shadowed (xf 0) false) (fun t => fit t (Scope.ofCode (xScope (xf 0)))) = true ∧
    (converting (shadowed (xf 0) false)).clu.busy = true ∧ (shadowOf (converting (shadowed (xf 0) false)) sup.cur).lost = false ∧
    passes (notBusy (xRuns (xf 0)) (shadowed (xf 0) false)) (fun _ t => decide (t = shadowed (xf 0) false)) = true ∧
    (sup.modMyClu fun c => { c with bte := { c.bte with offline := true } }).clu.bte.offline = true ∧
    btReject spoilt (xf (own 0)) = none ∧ xNoAdd (xf (own 0)) = false ∧
    freed .clu spoilt (fun t => match engineBar t t.cur t.tenant t.part t.super (own 0) with
      | .error (f, b) => decide (f = .poison ∧ b = own 0)
      | .ok _ => false) = true := by decide

theorem choice_one (s : State) : s.choice 1 = (0, { s with fresh := s.fresh + 1 }) := by simp [State.choice, Nat.mod_one]
/-- A cluster whose engine holds an active transfer. -/
def moves (x : Xfer) : State := sup.modMyClu fun c => { c with bte := { c.bte with active := [x] } }
def fine {ε α : Type} (r : Except ε α) (p : α → Bool) : Bool :=
  match r with
  | .ok x => p x
  | .error _ => false
/-- A ring transfer of one stage, and its consumer's word. -/
def ringed : Xfer := { moving with regs := setNth (setNth (xf 0) 10 (word (own 0x300))) 12 (word (4 + 2 ^ 6 + 2 ^ 11)) }
theorem witness_EngineSteps : xferOf (moves moving) 0 0 = some moving ∧ moving.todo.length = 1 ∧
    fine (writeBytes (moves moving) moving 0 0) (fun r => fine (sysWrite (secFuel 64) r.2 0 0 0 true
      (addrAdd (rowDst moving.regs 0) (pieceRun moving.regs 0 0).1) 64 r.1.1) fun _ => true) = true ∧
    xferDone { moving with todo := [] } = true ∧ ringFull (moves moving).clu = false ∧ xreg moving.regs 10 = 0 ∧
    (sup.modMyClu fun c => { c with bte := { c.bte with queue := [moving] } }).clu.bte.queue = [moving] ∧
    xRing ringed.regs = true ∧ (xferOf (readConsumer (moves ringed) 0 0) 0 0).isSome = true ∧
    (0 + 2 ^ 32 - 0) % 2 ^ 32 ≤ 64 ∧ 64 < (0 + 2 ^ 32 - 5) % 2 ^ 32 := by decide
theorem witness_EngineSteps_table : (let s := sup.modMyClu fun c =>
      { c with bte := { c.bte with active := [moving], table := [(0, { st := 1, fault := 0, done := 0 })] } }
    (s.clu.bte.table.any fun z => decide (z.1 = moving.id)) = true ∧ moving.token = none ∧ moving.fault = 0 ∧
      xRing moving.regs = false ∧ s.clu.bte.active.length < 8) := by decide
/-- A posting of one row of 64 bytes in the supervisor's TCM. -/
def ixd : Nat := own 0x100 + own 0x140 * 2 ^ 64 + own 0x200 * 2 ^ 128 + 64 * 2 ^ 192 + 2 ^ 224 + 64 * 2 ^ 256 + 4 * 2 ^ 320
/-- The strand's TCM with a descriptor at its supervisor part. -/
def described (d : Nat) : State :=
  (reg (based 0) 3 1).modCore sup.cur.coreKey fun c => { c with tcm := Memory.writeN c.tcm 0xC000 64 d }
def describes (d : Nat) : Bool := ownPlace (described d) (base (described d) 0) 64 &&
  passes (placedLoad (base (described d) 0) 64 .load (described d)) fun x _ => decide (x = d)
def table0 (merge : Bool) : UpdTable :=
  { base := own 0x400, stride := 64, len := 1, nrows := 4, merge := merge, mcap := 4, step := 0 }
def tabled (merge : Bool) (s : State) : State := s.modPolicy 0 0 fun x => { x with tables := [(1, table0 merge)] }
/-- An update batch of one entry with FP32 gradients. -/
def upd : Nat := own 0x100 + (2 ^ 60 + own 0x200) * 2 ^ 64 + 2 ^ 192
theorem witness_IndirectCopies : describes ixd = true ∧ describes 0 = true ∧ describes upd = true := by decide
theorem witness_IndirectCopies_post : ixBusy sup sup.cur = false ∧ base (based 8) 0 % 64 ≠ 0 ∧
    ownPlace sup 0 64 = false ∧ ixReject (described ixd) ixd = none ∧ ixReject sup 0 = some 2 ∧
    ok (ixLaunch ixd (own 0) .none .none false true (described ixd)) = true ∧ eupdReject upd = none ∧ eupdReject 0 = some 2 ∧
    tableOf sup 0 0 1 = none ∧ tableOf (tabled false sup) 0 0 1 = some (table0 false) ∧
    ok (eupdLaunch (own 0) upd 1 (table0 false) .none false (tabled false (described upd))) = true ∧
    fit sup .ten = true ∧ fit sup (Scope.ofCode (dfield ixd 0x2C 4)) = true ∧ queueFull sup.clu.ixe = false ∧
    sup.clu.busy = false ∧ ok (notBusy (ixRuns ixd) (described ixd)) = true ∧
    ok (notBusy (updRuns upd (own 0) 1) (described upd)) = true ∧ ∀ S ∈ [Scope.clu, .die, .pkg, .sys, .ten],
      freed S (described ixd) (fun t => fit t .ten && !queueFull t.clu.ixe) = true := by decide
theorem witness_IndirectCopies_busy : ixBusy (sup.modMyClu fun c => { c with ixe := { c.ixe with queue := [
    { IxOp.start sup 0 ixd 0 .clu with posted := true }] } }) sup.cur = true := by decide

/-- A cluster whose indirect copy engine works on an operation. -/
def copies (o : IxOp) : State := (tabled o.merge sup).modMyClu fun c => { c with ixe := { c.ixe with active := [o] } }
def posting : IxOp := { IxOp.start sup (2 ^ 31) ixd (own 0) .clu with posted := true, todo := [0] }
def batch (merge : Bool) : IxOp :=
  { IxOp.start sup (2 ^ 31) upd (own 0) .clu with eupd := true, table := 1, merge := merge, todo := [0] }
theorem witness_IndirectSteps : ixOf (beginIx (copies posting) 0 (2 ^ 31)) 0 (2 ^ 31) = some posting ∧
    posting.todo.length = 1 ∧ fine (copyElement ((copies posting).modIx 0 (2 ^ 31) fun y => { y with todo := [] }) posting 0)
      (fun _ => true) = true ∧
    [true, false].all (fun m => decide (ixOf (beginIx (copies (batch m)) 0 (2 ^ 31)) 0 (2 ^ 31) = some (batch m)) &&
      decide (tableOf (copies (batch m)) 0 0 1 = some (table0 m))) = true := by decide
def noted (s : State) (n : Note) : State := { s with notes := [n] }
theorem witness_IndirectSteps_merge : openStep ((tabled true sup).modOf 0) 0 1 ≤ 0 ∧
    (mergeRows ((tabled true sup).modOf 0) 0 1 0).length < ((tableOf (tabled true sup) 0 0 1).map (·.mcap)).getD 0 ∧
    (noted sup (.close 0 0 1 0 0 sup.cur)).notes = .close 0 0 1 0 0 sup.cur :: [] ∧
    (((sup.modMod 0 fun x => { x with closings := [{ src := sup.cur, step := 3, acks := [0] }] }).modOf 0).closings.filter
      fun z => decide (z.src = sup.cur)) = [{ src := sup.cur, step := 3, acks := [0] }] := by decide
/-- A cluster of one scratchpad way with one context, and a lookup of one row, of one element, whose output lies in the
strand's TCM. -/
def looked (s : State) : State := s.modMyClu fun c => { c with spways := 1, knctx := 1 }
def pad (off : Nat) : Nat := pad0 off
def lkd : Nat := (2 ^ 61 + pad 0x2000) + (2 ^ 61 + pad 0x2040) * 2 ^ 64 + (2 ^ 60 + 0x1000) * 2 ^ 128 +
  (2 ^ 60 + own 0x300) * 2 ^ 256 + (1 + 2 ^ 16 + 2 ^ 40 + 2 ^ 48) * 2 ^ 448
/-- A bag of one row without weights, and its list of row numbers in the TCM. -/
def bgd : Nat := own 0x100 + (2 ^ 60 + 0x1000) * 2 ^ 128 + (2 ^ 60 + own 0x300) * 2 ^ 256 + (2 ^ 16 + 2 ^ 63) * 2 ^ 448
def slotted (d : Nat) (tenant : Nat) : State := (looked (reg (described d) 3 (2 ^ 61 + own 0x80))).modMyClu fun c =>
  { c with kslots := setNth c.kslots 0 { valid := true, tenant := tenant, desc := d } }

/-- A Pending context of that lookup, as its strand committed it. -/
def pending (bag : Bool) : KCtx :=
  { KCtx.free with st := 1, priv := true, scope := .clu, desc := if bag then bgd else lkd, bag := bag,
                   query := if bag then 1 else 2 ^ 61 + own 0x80 }
def keyed (x : KCtx) : State := (looked (described bgd)).modMyClu fun c => { c with kctx := [(0, x)] }
set_option maxRecDepth 8000 in
theorem witness_KeyLookups : describes lkd = true ∧ describes bgd = true ∧
    lookReject (looked (described lkd)) lkd = none ∧ lookReject sup 0 = some 2 ∧ bagReject (looked (described bgd)) bgd = none ∧
    bagReject sup 0 = some 2 ∧ (nth (KSlot.mk false 0 0) (slotted lkd 0).clu.kslots 0).valid = true ∧
    (nth (KSlot.mk false 0 0) (slotted lkd 5).clu.kslots 0).tenant ≠ (slotted lkd 5).tenant ∧
    (slotted lkd 0).clu.kOffline = false ∧ (sup.modMyClu fun c => { c with kOffline := true }).clu.kOffline = true ∧
    queryBad (slotted lkd 0) (2 ^ 61 + own 0x80) lkd = false ∧ queryBad sup 0 lkd = true ∧
    anyCtx sup.clu = false ∧ anyCtx (slotted lkd 0).clu = true ∧ ¬65536 < 2 * dN lkd * dDh lkd ∧
    32 < (33 : Nat) ∧ (1 : Nat) ≤ 32 := by decide
theorem witness_KeyLookups_launch : ok (launchCtx lkd (2 ^ 61 + own 0x80) false .none (slotted lkd 0)) = true ∧
    ok (launchCtx bgd 1 true .none (slotted bgd 0)) = true ∧ (slotted lkd 0).clu.busy = false ∧
    fit (slotted lkd 0) (Scope.ofCode (dScope lkd)) = true ∧ freeCtx (slotted lkd 0).clu = some 0 ∧
    ticketFree (slotted lkd 0) 0 = true ∧
    ticketFree (keyed { pending false with ticket := 32768 }) (keyed (pending false)).cur.dieKey = false := by decide
theorem witness_KeyLookups_wait : staleTag sup 0 = true ∧ staleTag (keyed (pending false)) 0 = false ∧
    (kctx (keyed { pending false with st := 3 }).clu 0).st = 3 ∧ (kctx (keyed { pending false with st := 2 }).clu 0).st = 2 ∧
    bitAt (at' 0x20).me.csr.sstat.toNat 5 = true ∧ bitAt sup.me.csr.sstat.toNat 5 = false ∧
    unitAnswer (keyed (pending false)).me = none ∧ (keyed (pending false)).clu.kOffline = false ∧
    (keyed (pending false)).clu.busy = false ∧ fit (keyed (pending false)) .clu = true ∧
    (∀ S ∈ [Scope.clu, .die, .pkg, .sys, .ten],
      freed S (keyed (pending false)) (fun t => fit t .ten && ticketFree t t.cur.dieKey) = true) := by decide
theorem witness_KeyLookups_freed :
    staleTag (keyed { KCtx.free with freed := some { at' := 0, tenant := 0, tag := 0, code := 3, status := 7 } }) 0 = true ∧
    freedNow (keyed { KCtx.free with freed := some { at' := 0, tenant := 0, tag := 0, code := 3, status := 7 } }) 0 = some (3, 7) ∧
    freedNow sup 0 = none := by decide
def reading (t : Nat) (lost : Bool) : State :=
  { keyed { pending false with scored := true, reads := [{ rank := 0, addr := 0x1000, len := 4, issued := 0, leaf := 1, lost := lost, point := (0, 3) }] }
    with ticks := t }
def arrived : KCtx := { pending false with scored := true, weights := [fp32One], acc := [0], got := [(0, 0x1000, 4, fp32One)] }
/-- The lookup with its keys in the supervisor's TCM; one whose query has one element to read; one with a read to issue. -/
def inTcm : KCtx :=
  { pending false with desc := (2 ^ 61 + own 0x2000) + (2 ^ 61 + own 0x2040) * 2 ^ 64 + lkd / 2 ^ 128 * 2 ^ 128 }
def asks : KCtx := { pending false with qtodo := [1] }
def gathers : KCtx :=
  { pending false with scored := true, todo := [{ rank := 0, addr := 0x1000, len := 4, issued := 0, leaf := 1, lost := false, point := (0, 0) }] }
theorem witness_LookupSteps_query : fine (readQuery (keyed asks) asks) (fun _ => true) = true := by
  have h : (keyed asks).choice asks.qtodo.length = _ := choice_one _
  unfold readQuery
  rw [h]
  decide
theorem witness_LookupSteps_begin : (kctx ((keyed asks).cluOf 0) 0).qtodo ≠ [] ∧ (kctx ((keyed asks).cluOf 0) 0).scored = false ∧
    (kctx ((keyed gathers).cluOf 0) 0).todo ≠ [] ∧ (kctx ((keyed gathers).cluOf 0) 0).scored = true ∧
    rowsOver (kctx ((keyed { pending false with scored := true, failed := 1 }).cluOf 0) 0) = true ∧
    rowsOver (kctx ((keyed { arrived with doneMask := 1 }).cluOf 0) 0) = true := by decide
set_option maxRecDepth 8000 in
theorem witness_LookupSteps : fine (scoreLookup (keyed inTcm) inTcm) (fun _ => true) = true ∧
    fine (scoreBag (keyed (pending true)) (pending true)) (fun _ => true) = true ∧
    (roundReads (reading 0 false) 0 3).length = 1 ∧
    ((List.range (rankCount (kctx ((keyed arrived).cluOf 0) 0))).filter (rowReady (kctx ((keyed arrived).cluOf 0) 0))) = [0] ∧
    ((kctx ((reading 16384 true).cluOf 0) 0).reads.find? fun e => decide (e.rank = 0) && (e.lost || false)) =
      some { rank := 0, addr := 0x1000, len := 4, issued := 0, leaf := 1, lost := true, point := (0, 3) } ∧
    0 + 16384 ≤ (reading 16384 true).ticks ∧ (reading 16383 true).ticks < 0 + 16384 ∧
    (kctx ((keyed { pending false with failed := 1 }).cluOf 0) 0).failed ≠ 0 := by decide
theorem witness_LookupSteps_done : (let x := kctx ((keyed arrived).cluOf 0) 0
    let o := outVals x
    let r := codesFlags (roundAll 1 .rne o.1 (BitVec.ofNat 32 x.seed)).1
    x.st = 1 ∧ x.failed = 0 ∧ x.spoilt = false ∧ ptrCode (dOut x.desc) = 1 ∧
      (outWrite (secFuel (outBytes x.desc)) (keyed arrived) x (dOut x.desc % addrSpace) (outBytes x.desc)
        (packLanes (elemBits 1) r.1)).2.isSome = false) := by decide

/-- Tiles of the strand with their shapes. -/
def tile (i : Nat) (t : Word) (s : State) : State :=
  s.modTile s.cur.coreKey i fun _ => { Tile.free with owner := some 0, tsh := t }
def tiled : State := tile 0 1 (tile 1 2 (tile 2 2 sup))
def queued (s : State) (os : List MOp) : State := s.modCore s.cur.coreKey fun c => { c with mq := setNth c.mq 0 os }
def zeroing (used : Nat) : MOp := { MOp.onTiles tiled .tzero 0 0 0 with slot := some 0, used := used }
theorem witness_MatrixOperations : tilesChanging tiled = false ∧ [0, 1, 2].all (ownsTile tiled) = true ∧
    ownsTile sup 3 = false ∧ shapeFaults .mma FloatFmt.f32.toCode.code 0 0 1 2 (tshOf tiled) = ([], [], []) ∧
    (shapeFaults .mma FloatFmt.f32.toCode.code 0 1 1 2 (tshOf tiled)).1 = [1] ∧
    shapeFaults .tadd 0 0 0 0 0 (tshOf tiled) = ([], [], []) ∧
    (let s := tile 2 (2 + 2 ^ 18) tiled
     ∃ f, shapeFaults .tadd 0 0 1 2 2 (tshOf s) = f ∧ f.1 = [] ∧ f.2.1 ≠ []) ∧
    (MOp.onTiles tiled .mma 0 1 2).heavy = false ∧ (queueOf tiled.core 0).length < 8 ∧
    (131 : Nat) < 132 ∧ boundUnit tiled 1 = none := by
  refine ⟨by decide, by decide, by decide, by decide, by decide, by decide, ⟨_, rfl, by decide, by decide⟩, by decide, by decide,
    by decide, by decide⟩
theorem witness_MatrixOperations_full : ¬ (queueOf (queued tiled (List.replicate 8 (zeroing 0))).core 0).length < 8 := by decide
theorem witness_MatrixOperations_rows : addrOf (word (own 0)) % tileAlign (tshOf tiled 0) = 0 ∧
    bits (own 0 + 2 ^ 60) 63 60 = shFmt (tshOf tiled 0) ∧ bits (own 0 + 2 ^ 60) 59 56 = shBk (tshOf tiled 0) ∧
    (4 : Int) % (tileAlign (tshOf tiled 0) : Int) = 0 := by decide
theorem witness_MatrixOperations_checked : [true, false].all (fun ld =>
      ok (rowsCheck ld (own 0) 4 (tshOf tiled 0) (List.range (shRows (tshOf tiled 0))) (drainPushes tiled tiled.cur))) = true := by decide
theorem witness_MatrixOperations_alias : shapeFaults .mma FloatFmt.f16.toCode.code 0 0 0 2 (tshOf (tile 0 2 tiled)) = ([], [], [0]) ∧
    shapeFaults .tcvt 0 0 1 1 1 (tshOf tiled) = ([], [], [1]) := by decide
theorem witness_TilesAndStreams : (tileOf sup.core 0).owner = none ∧ (tileOf tiled.core 0).owner = some 0 ∧
    (tileOf ({ tiled with cur := { Place.first with slot := 1 } }).core 0).owner ≠ some 1 ∧
    tilesChanging (sup.modMod 0 fun x => { x with handovers := [(0, 0)] }) = true ∧ matrixBusy sup sup.cur = false ∧
    matrixBusy (queued tiled [zeroing 0]) sup.cur = true ∧ streamBusy (queued tiled [zeroing 0]) sup.cur 0 = true ∧
    streamBusy (queued tiled [zeroing 0]) sup.cur 1 = false ∧ tshValid 1 = true ∧ tshValid 0 = false ∧
    pendingError sup.me [0] = none ∧
    pendingError (sup.modMe fun x => { x with mpend := [some (8, 0), none, none, none] }).me [0] = some (0, 8, 0) ∧
    queueOf ((queued tiled [zeroing 1000]).coreOf 0) 0 = zeroing 1000 :: [] ∧
    opReady (queued tiled [zeroing 1000]) 0 (zeroing 1000) = true ∧ (zeroing 1000).slot ≠ none ∧
    opReady sup 0 { MOp.blank .mjoin with masks := [1] } = false ∧ needsArray { MOp.blank .mjoin with masks := [1] } = false := by
  decide
theorem witness_TilesAndStreams_read :
    (let seen := settleTiles tiled 0 (some 0) fun i => decide (i = 0)
     ((tileOf seen.core 0).vers.all fun w => decide (w.st = 0)) = true ∧
       boundUnit (readTile seen seen.cur.coreKey 0 seen.core.mwaits 0 (tileOf seen.core 0).tsh.toNat).2 1 = none ∧
       queueOf tiled.core 0 = [] ∧ tilesChanging tiled = false ∧ ownsTile tiled 0 = true ∧ ownsTile sup 0 = false) := by decide
/-- An operation that has not had its cycles, with parts to make and with none left. -/
theorem witness_TilesAndStreams_parts : opReady (queued tiled [zeroing 0]) 0 (zeroing 0) = false ∧ (zeroing 0).unmade ≠ 0 ∧
    opReady (queued tiled [zeroing 0]) 0 { zeroing 0 with made := 2 ^ (zeroing 0).units - 1 } = false ∧
    ({ zeroing 0 with made := 2 ^ (zeroing 0).units - 1 } : MOp).unmade = 0 := by decide
/-- A load of a tile, and an MJOIN from another core. -/
def fetches (k : MKind) : MOp := { MOp.blank k with tenant := 0 }
theorem witness_TilesAndStreams_heads : needsArray (zeroing 0) = true ∧ (zeroing 0).unpowered = false ∧
    queueOf ((queued tiled [fetches .tld]).coreOf 0) 0 = fetches .tld :: [] ∧ (fetches .tld).kind = .tld ∧
    (fetches .tst).kind = .tst ∧ (fetches .mjoin).kind = .mjoin ∧
    queueOf ((queued tiled [fetches .mjoin]).coreOf 0) 0 = fetches .mjoin :: [] := by decide
/-- TZERO t0 on stream 0 as a command word. -/
def cmdWord : Nat := ((encode true (.tzero 0 0)).getD 0)
theorem witness_RemoteCommands : unitAnswer (answered sup 0 7).me = some (0, 7) ∧ unitAnswer (answered sup 1 0).me = some (0 + 1, 0) ∧
    hasAsked (asked sup askRemote).me askRemote = true ∧ hasAsked sup.me askRemote = false ∧ unitAnswer sup.me = none ∧
    bits (2 ^ 58) 63 58 ≠ sup.tenant ∧ bits 0 63 58 = sup.tenant ∧
    mcmdCore sup 0 (400 * 16) = none ∧ mcmdCore sup 0 (399 * 16) ≠ none ∧ mcmdCore sup 0 0 = some 0 ∧
    bitAt (word (2 ^ 63 + 2 ^ 55)).toNat 63 = true ∧
    (capEntry sup 0 0 (word (2 ^ 63 + 2 ^ 55)) 0).1 = 0 ∧
    acceptTime sup 0 = 0 ∧ (noted sup (.mcmd sup.cur 0 0 0 0 .rne 0)).ticks = 0 ∧
    (match commandCheck sup 0 0 0 0 cmdWord .rne with | .ok _ => 0 | .error r => r) = 1 ∧
    (match commandCheck sup 0 0 (2 ^ 35) (2 ^ 63 + 2 ^ 53 + 2 ^ 42 + 2 ^ 34) cmdWord .rne with | .ok k => decide ((queueOf (sup.coreOf 0) k.st).length < 8) | .error _ => false) = true := by
  decide
/-- The communication strand with its queue bound to entry 0. -/
def bindQ (sent : Nat) (fs : List QFlit) (s : State) : State :=
  s.modQ s.cur.coreKey 0 fun y => { y with bound := true, sent := sent, recv := fs }
def opening (s : State) : State := s.modCsr fun z => { z with openpkt := openPkt 0 }
def flit0 : QFlit := { data := 1, chunk := 0, idx := 0, last := true, mark := false, abort := false }
/-- A stream descriptor of one copy from the tile to its east port, and one that reduces. -/
def copyd : Nat := 16 + 2 * 2 ^ 8 + 2 ^ 128
def reduced : Nat := copyd + 2 ^ 16
def packet (gv : Bool) : VsPacket :=
  { chunk := 0, flits := [], marker := none, abort := false, tenant := 0, group := 0, gen := 1, gv := gv }
def entryAt (s : State) (core : Option Nat) (tenant : Nat) : State :=
  s.modMyClu fun z => { z with entries := [(0, { VsEntry.free with core := core, tenant := tenant })] }
theorem witness_Collectives : sup.cur.slot ≠ 15 ∧ s15.cur.slot = 15 ∧ (s15.q 0).bound = false ∧
    ((bindQ 0 [] s15).q 0).bound = true ∧ boundUnit s15 1 = none ∧ s15.me.pktOpen = false ∧
    (opening (bindQ 0 [] s15)).me.pktOpen = true ∧ fld (opening (bindQ 0 [] s15)).me.csr.openpkt 7 6 = 0 ∧
    fld ((bindQ 0 [] s15).modCsr fun z => { z with openpkt := openPkt 1 }).me.csr.openpkt 7 6 ≠ 0 ∧
    sendHeld ((bindQ 0 [] s15).q 0) = false ∧ combines (bindQ 0 [] s15) ((bindQ 0 [] s15).q 0) = false ∧
    ((bindQ 7 [] s15).q 0).sent < 8 ∧ 8 ≤ ((bindQ 8 [] s15).q 0).sent ∧ ((bindQ 0 [] s15).q 0).recv = [] ∧
    ((bindQ 0 [flit0] s15).q 0).recv = flit0 :: [] := by decide
/-- A gang stop that holds every new packet; an entry with a packet open on its q register, and one with a packet on its way. -/
def stopped (s : State) : State := s.modQ s.cur.coreKey 0 fun y => { y with limit := some none }
theorem witness_Collectives_held : sendHeld ((stopped (bindQ 0 [] s15)).q 0) = true ∧
    ((stopped (bindQ 0 [] s15)).q 0).tenant = s15.tenant ∧
    openOn (opening (bindQ 0 [] s15)) 0 { VsEntry.free with core := some 0 } =
      some s15.cur ∧
    openOn s15 0 { VsEntry.free with core := some 0 } = none ∧ localComing s15 0 0 VsEntry.free = false ∧
    localComing (noted s15 (.vs 0 0 4 (packet true))) 0 0 VsEntry.free = true := by decide
theorem witness_Collectives_open : (own 8) % 32 ≠ 0 ∧
    (let s := ({ described copyd with cur := { Place.first with slot := 15 } }).modCsr fun c => { c with sstat := 1 }
     passes (localStruct (own 0) 32 s) (fun x t => decide (x = some copyd) && decide (t.tenant = s.tenant) && decide (t.cur = s.cur)) = true) ∧
    streamBad 0 false false = true ∧ streamBad copyd false false = false ∧ entryOf s15 s15.cur.cluKey 0 = none ∧
    entryOf (entryAt s15 none 0) s15.cur.cluKey 0 ≠ none ∧ (∀ v ∈ descSets copyd, v.op = 0) ∧ ¬(∀ v ∈ descSets reduced, v.op = 0) ∧
    (s15.policy 0 0).enrol = false ∧ streamBad reduced false false = false ∧
    ((entryOf (entryAt s15 none 0) s15.cur.cluKey 0).map (·.holds)) = some false ∧
    ((entryOf (entryAt s15 (some 0) 5) s15.cur.cluKey 0).map (·.tenant)) ≠ some s15.tenant := by decide
/-- A core of a partition in the turn of VF 0, with every slot the partition's. -/
def turnOn (nx : Option Nat) (s : State) : State :=
  let e : Partition := { clusters := [(0, 0)], slots := 1, banks := 1, wayBase := 0, ways := 1, vf := some 0, since := 0, next := nx }
  (s.modMod 0 fun x => { x with partitions := [(0, e)] }).modCore 0 fun c => { c with slotmap := 0 }
def stopping (n : Nat) : State :=
  (turnOn none sup).modMod 0 fun z => { z with gangs := [{ vf := 0, part := 0, step := n, chunk := none, paused := 0 }] }
theorem witness_RouterEntries : entryOf sup 0 0 = none ∧ ((entryOf (entryAt sup none 5) 0 0).map (·.tenant)) = some 5 ∧
    ((entryOf (entryAt sup none 0) 0 0).map fun x => decide (x.tenant = (packet true).tenant) && !decide (x.gen = (packet true).gen)) =
      some true ∧ (packet false).gv = false ∧ gangOf (turnOn none sup) 0 0 = none ∧
    holdsPart (turnOn none sup) 0 0 = true ∧ gangsOf (turnOn none sup) 0 = [] ∧
    [1, 2].all (fun n => decide (((gangOf (stopping n) 0 0).map fun g => (g.step, g.paused)) = some (n, 0))) = true ∧
    gangDrained (stopping 2) 0 = true ∧ gangDrained (noted (stopping 2) (.vs 0 0 1 (packet true))) 0 = false := by decide
def opened5 (s : State) : State := (bindQ 0 [] s).modQ s.cur.coreKey 0 fun y => { y with chunk := 5 }
theorem witness_RouterEntries_gang : (memberCores sup 0).filterMap (openedChunk sup 0) = [] ∧
    (memberCores (opened5 s15) 0).filterMap (openedChunk (opened5 s15) 0) = [4] ∧
    0 + 1050 * 1000 ≤ ({ sup with ticks := 1050000 }).ticks ∧ ({ sup with ticks := 1049999 }).ticks < 0 + 1050 * 1000 := by decide

/-- A die whose VF may hold tasks, and a task of a list that may be stolen. -/
def roomy (s : State) : State := s.modPolicy 0 0 fun p => { p with quota := 16 }
def job (n : Nat) : QTask := { taskOf (2 ^ 239) 0 0 0 with serial := n }
def stocked (ts : List QTask) (s : State) : State := s.modDie 0 fun d => { d with store := ts, listed := ts }
theorem witness_Tasks : base (based 8) 0 % 32 ≠ 0 ∧ unitAnswer sup.me = none ∧ hasAsked sup.me askTask = false ∧
    hasAsked sup.me askCounter = false ∧ (sup.modOf 0).diesUp.contains (bits 0 17 12) = true ∧
    ((sup.modMod 0 fun x => { x with diesUp := [] }).modOf 0).diesUp.contains (bits 0 17 12) = false ∧
    passes (load (base (based 0) 0) 32 true (based 0)) (fun x t => decide (t.cur = (based 0).cur) &&
      descOk x (launchClass (based 0) 0 0)) = true ∧ descOk (2 ^ 248 * 16) 3 = false ∧ storeFull sup 0 0 = true ∧
    storeFull (roomy sup) 0 0 = false ∧ ctrOk sup 0 0 (2 ^ 31) = false ∧
    ctrOk (sup.modDie 0 fun d => { d with counters := [(0, { live := true, tenant := 0, count := 1, waiting := [] })] }) 0 0 (2 ^ 31)
      = true ∧ matrixBusy sup sup.cur = false ∧ ixBusy sup sup.cur = false := by decide
theorem witness_Tasks_heads : (List.range 1).findSome? (fun i => (readyList ((stocked [job 1] (based 0)).dieOf 0) i 0).head?) = some (job 1) ∧
    ok (store (own 0) 32 (descOf (job 1)) true (stocked [job 1] (based 0))) = true ∧
    readyList (sup.dieOf 0) 399 0 = [] := by decide
theorem witness_Tasks_released : passes (load (base (based 0) 0) 32 true (based 0)) (fun x t =>
      descOk x (launchClass (based 0) 0 0) && freed .pkg t (fun u => decide (u.cur = (based 0).cur))) = true ∧
    freed .pkg sup (fun t => storeFull t t.cur.dieKey t.tenant) = true ∧
    freed .pkg (roomy sup) (fun t => !storeFull t t.cur.dieKey t.tenant) = true ∧ fit sup .pkg = true := by decide
theorem witness_TaskSteps :
    fget 0 ((stocked [job 1] sup).dieOf 0).lastDisp 0 = sup.ticks ∧
    fget 0 ((stocked [job 1] sup).dieOf 0).lastDisp 0 ≠ ({ sup with ticks := 1 } : State).ticks ∧
    idleFor (turnOn none sup) 0 0 = true ∧
    idleFor sup 0 0 = false ∧ ctrOk sup 0 0 0 = false ∧ 16 + 1024 ≤ (1040 : Nat) ∧ (1039 : Nat) < 16 + 1024 := by decide
set_option maxRecDepth 20000 in
theorem witness_TaskSteps_offer : ((offer (stocked [job 1] (turnOn none sup)) 0 0).map (·.1.serial)) = some 1 ∧
    (offer (stocked [job 1] sup) 0 0).isNone = true := by decide
set_option maxRecDepth 20000 in
theorem witness_TaskSteps_steal : victim ((stocked [job 1, job 2] sup).dieOf 0) 0 = some 0 ∧
    victim ((stocked [job 1] sup).dieOf 0) 0 = none := by decide
def asking (idle : Bool) : State :=
  ({ sup with ticks := 1024 } : State).modDie 0 fun d => { d with steals := [{ vf := 0, die := 0, clu := 0, sent := 0, idle := idle }] }
theorem witness_TaskSteps_request : ((asking false).dieOf 0).steals.find? (fun x => decide (x.vf = 0) && !x.idle) =
      some { vf := 0, die := 0, clu := 0, sent := 0, idle := false } ∧
    ((asking true).dieOf 0).steals.find? (fun x => decide (x.vf = 0) && x.idle) =
      some { vf := 0, die := 0, clu := 0, sent := 0, idle := true } ∧ ringAfter sup 63 ≠ [] := by decide
theorem witness_TaskSteps_cycle : ({ stocked [job 1] sup with ticks := 1 } : State).agenda = [] ∧
    (∃ x ∈ ((stocked [job 1] sup).dieOf 0).store, x.clu < 400) ∧
    (noted sup (.counter sup.cur 0 .inc 0 1 false 0)).notes = .counter sup.cur 0 .inc 0 1 false 0 :: [] ∧
    (noted sup (.tenq sup.cur 0 (job 1))).notes = .tenq sup.cur 0 (job 1) :: [] := by decide
def grouped (g : Word) : State := sup.modCsr fun c => { c with groups := g }
theorem witness_PowerAndGroups_pass : (let s := sup.modDie 0 fun d => { d with adm := [.task 1 4 0], budget := 15 }
     (s.dieOf 0).adm = [.task 1 4 s.ticks] ∧ grantAwaited s s.cur = false ∧ unitAnswer s.me = none ∧
       max (fld (15 : Word) 3 0) 1 ≤ (s.dieOf 0).budget) ∧
    (sup.dieOf 0).adm = [] := by decide
theorem witness_PowerAndGroups : (sup.dieOf 0).budget < max (fld (0 : Word) 3 0) 1 ∧
    max (fld (15 : Word) 3 0) 1 ≤ ((sup.modDie 0 fun d => { d with budget := 15 }).dieOf 0).budget ∧
    grantAwaited sup sup.cur = false ∧
    grantAwaited (sup.modDie 0 fun d => { d with adm := [.grant sup.cur 1 64] }) sup.cur = true ∧
    clearGv 0 = some 0 ∧ clearGv (0xF * 2 ^ 32) = none ∧ memberAt (2 ^ 32) 0 = some 0 ∧ memberAt 0 0 = none ∧
    (grouped (2 ^ 32)).me.csr.groups = 2 ^ 32 ∧ hasAsked sup.me askGroup = false ∧ hasAsked sup.me askArrive = false ∧
    unitAnswer (answered (grouped (2 ^ 32)) 0 1).me = some (0, 1) ∧ fit (grouped (2 ^ 32)) .pkg = true ∧
    freed .pkg sup (fun _ => true) = true ∧ fit ((grouped (2 ^ 32)).acquired .pkg) .pkg = true := by decide
set_option maxRecDepth 8000 in
theorem witness_PowerAndGroups_sync : freed .pkg (grouped (2 ^ 32)) (fun _ => true) = true ∧
    memberAt (grouped (2 ^ 32)).me.csr.groups 0 = some 0 ∧ unitAnswer (grouped (2 ^ 32)).me = none ∧
    hasAsked (grouped (2 ^ 32)).me askArrive = false ∧ hasAsked (grouped (2 ^ 32)).me askGroup = false := by decide
set_option maxRecDepth 20000 in
theorem witness_PowerSteps : ((2 : Nat) : Int) ≤ ((sup.modDie 0 fun d => { d with budget := 2 }).dieOf 0).free ∧
    (sup.dieOf 0).free < ((1 : Nat) : Int) ∧ (2 : Int) ≤ ((sup.modDie 0 fun d => { d with budget := 2 }).dieOf 0).free ∧
    ((sup.modDie 0 fun d => { d with adm := [.grant sup.cur 2 64] }).dieOf 0).adm = .grant sup.cur 2 64 :: [] ∧
    tokenV (2 ^ 63) = true ∧ tokenValid 0 (2 ^ 63) = false ∧ tokenValid 0 (2 ^ 63 + 1) = true ∧ tokenV 0 = false ∧
    (noted sup (.group sup.cur 0 .arrive 0 0)).notes = .group sup.cur 0 .arrive 0 0 :: [] ∧
    (fget Group.empty ((sup.modDie 0 fun d => { d with groups := [(groupKey 0 0, { Group.empty with members := 1, remaining := 1 })] }).dieOf
      0).groups (groupKey 0 0)).remaining = 1 := by decide
set_option maxRecDepth 20000 in
theorem witness_PowerSteps_tokens : sup.now 0 = 0 ∧ (sup.strand sup.cur).csr.pwtoken = 0 ∧
    ((sup.modCsr fun c => { c with pwtoken := 2 ^ 63 }).strand sup.cur).csr.pwtoken = 2 ^ 63 ∧
    ((sup.modDie 0 fun d => { d with adm := [.remote 0 0], budget := 2 }).dieOf 0).adm = .remote 0 0 :: [] := by decide
/-- A request on its way to its home. -/
def request (b : MsgBody) : Msg :=
  { loc := 0, src := Place.first, tenant := 0, body := b, hops := 0, via := [], tag := 0, back := false, walked := false,
    tagStub := 0, link := none, due := 0, old := false, near := false, attr := none, walk := none }
set_option maxRecDepth 20000 in
theorem witness_Invalidations : sup.super = true ∧ usr.super = false ∧ fit sup .sys = true ∧
    freed .sys (asked sup askFlush) (fun t => hasAsked t.me askFlush &&
      !inFlight t (modInScope t .sys) (inScope t .sys) (fun _ => true) &&
      !inFlight (dropPage t .sys 0) (modInScope t .sys) (inScope t .sys) (fun _ => true) &&
      !inFlight (dropDoms t .sys t.tenant fun _ => true) (modInScope t .sys) (inScope t .sys) (fun _ => true) &&
      fit ((dropSlices (dropPage t .sys 0) .sys 0).acquired .sys) .sys &&
      fit ((dropDoms t .sys t.tenant fun _ => true).acquired .sys) .sys) = true ∧
    freed .sys sup (fun t => !hasAsked t.me askFlush) = true ∧ flushing sup 0 128 = false ∧
    fetching sup (inScope sup .clu) 0 128 = false ∧ hasAsked (asked sup askFlush).me askFlush = true ∧
    fit (dropAnswers (dropCode sup (inScope sup .clu) (overlaps 0 128)) (inScope sup .clu) fun sec k =>
      decide (k = .fetch) && overlaps 0 128 (sec * 128) 128) .clu = true := by decide
/-- A load of page 0 on its way. -/
theorem witness_Invalidations_busy :
    freed .sys ((asked sup askFlush).send { request (.read 8 .load true true true) with attr := some attr0 }) (fun t => hasAsked t.me askFlush &&
      inFlight t (modInScope t .sys) (inScope t .sys) (fun sec => decide (pageOf (sec * 128) = 0))) = true := by decide
def ofSlot (n : Nat) : MOp := { zeroing 0 with slot := some n }
/-- Slot 1 of the first core with a strand. -/
def slot1 (f : Strand → Strand) (s : State) : State := s.modStrand (placeOf 0 1) f
theorem witness_SlotInstructions : usr.super = false ∧ (1023 * 1024) % 2 ^ 64 % 16384 ≠ 0 ∧ 288 * 1024 < 304 * 1024 ∧
    (288 * 1024) % 16384 = 0 ∧ hasAsked sup.me askSpart = false ∧ (placeOf sup.cur.coreKey 0).slot = sup.cur.slot ∧
    (placeOf sup.cur.coreKey 1).slot ≠ sup.cur.slot ∧ (sup.strand (placeOf 0 1)).st = .empty ∧
    ((slot1 (fun x => { x with st := .ready }) sup).strand (placeOf 0 1)).st ≠ .empty ∧
    mayStop (slot1 (fun x => { x with st := .ready }) sup) (placeOf 0 1) = true ∧
    matrixBusy (slot1 (fun x => { x with st := .ready }) sup) (placeOf 0 1) = false ∧
    ((slot1 (fun x => { x with st := .parked .doubleTrap }) sup).strand (placeOf 0 1)).st = .parked .doubleTrap ∧
    badArea sup.core 1 = none ∧ badArea (sup.modCore 0 fun c => { c with tcmPoison := [areaOff 1 / 8 + 127] }).core 1 =
      some (areaOff 1 + 8 * 127) ∧ matrixBusy (slot1 (fun x => { x with st := .ready }) (queued tiled [ofSlot 1])) (placeOf 0 1) = true ∧
    mayStop (slot1 (fun x => { x with st := .ready }) (queued tiled [ofSlot 1])) (placeOf 0 1) = true ∧
    unitAnswer (answered sup 0 4).me = some (0, 4) ∧ matrixBusy sup (placeOf 0 1) = false ∧ partOfSlot sup.core 14 = 15 ∧ partOfSlot (turnOn none sup).core 14 ≠ 15 ∧ partOfSlot sup.core 1 = 15 ∧ partOfSlot (turnOn none sup).core 1 = 0 := by decide
set_option maxRecDepth 20000 in
theorem witness_SlotInstructions_area : bits (readArea sup (placeOf 0 1)) 75 72 ≠ partOfSlot sup.core 1 ∧
    bits (readArea (turnOn none sup) (placeOf 0 1)) 75 72 = partOfSlot (turnOn none sup).core 1 := by decide
def light : State := turnOn none (at' 0x11)
theorem witness_SlotInstructions_smig : bits 0 34 23 = sup.pkgOf 0 ∧ bits (2 ^ 23) 34 23 ≠ sup.pkgOf 0 ∧
    cluKey 0 0 0 * 16 + bits (0 : Nat) 7 4 = light.cur.coreKey ∧ cluKey 0 0 0 * 16 + bits 16 7 4 ≠ light.cur.coreKey ∧
    isLight light light.cur = true ∧ isLight sup sup.cur = false ∧ light.me.tl = false ∧ light.cur.slot ≠ 15 ∧
    ixBusy light light.cur = false ∧ freed .pkg (light.modCore 1 fun c => { c with slotmap := 0 }) (fun t =>
      !waitsBefore t t.cur 0 && decide (openSlots t t.cur 0 [1] = [placeOf 1 0])) = true := by decide
theorem witness_SlotSteps : (sup.modMyClu fun c => { c with spart := [{ src := sup.cur, ways := 18 }] }).clu.spart =
      { src := sup.cur, ways := 18 } :: [] ∧ cluFlight sup 0 = false ∧
    cluFlight (keyed (pending false)) 0 = true ∧ (partitionOf (turnOn none sup) 0 0).isSome = true ∧
    ((partitionOf (turnOn (some 1) sup) 0 0).bind (·.next)) ≠ none ∧
    (((turnOn none sup).modMod 0 fun x => { x with handovers := [(1, 0)] }).modOf 0).handovers.contains ((placeOf 0 1).key, 0) = true := by
  decide
/-- VFs 0 and 1 run in partition 0. -/
def launched (vs : List Nat) (s : State) : State := s.modMod 0 fun x =>
  { x with launches := vs.map fun v => (v, { Launch.reset with running := true, forVf := v }) }
theorem witness_SlotSteps_turn :
    (let s := launched [0, 1] (turnOn none (sup.modPolicy 0 0 fun p => { p with slice := 1 }))
     ((partitionOf s 0 0).map (turnLasts s 0 0)) = some true ∧
      ((partitionOf { s with ticks := 1050 } 0 0).map (turnLasts { s with ticks := 1050 } 0 0)) = some false ∧
      nextVf s 0 0 (some 0) = some 1 ∧ nextVf (launched [0] s) 0 0 (some 0) = some 0 ∧ gangBusy s 0 0 = false ∧
      gangBusy (bindQ 0 [] s) 0 0 = true) := by decide
theorem witness_SlotSteps_arrive : (sup.modMyClu fun c => { c with inbound := [{ src := sup.cur, dst := placeOf 0 1, pc := 0, sstat := 0, g := [], task := Strand.empty.task, notice := none, due := 0 }] }).clu.inbound.map (·.due) = [sup.ticks] := by decide
theorem witness_SlotSteps_hand : (({ sup with ticks := 17 } : State).now 0 % 16 = (placeOf 0 1).slot) ∧
    sup.now 0 % 16 ≠ (placeOf 0 1).slot ∧ (sup.strand (placeOf 0 1)).live = false := by decide
/-- Three light strands on the first core, above the threshold of MIGTHR. -/
def crowded : State :=
  ([0, 1, 2].foldl (fun (s : State) i => s.modStrand (placeOf 0 i) fun x =>
    { x with st := .ready, csr := { x.csr with sstat := 0x11 } }) (turnOn none State.reset)).modCore 0 fun c =>
      { c with migthr := word (2 ^ 63 + 1) }
set_option maxRecDepth 8000 in
theorem witness_SlotSteps_move :
    (let s := crowded.modCore 1 fun c => { c with slotmap := 0 }
     moveDue s 0 = true ∧ moveDue sup 0 = false ∧ mayMove s (placeOf 0 0) = true ∧
      bundleBegun (s.strand (placeOf 0 0)) = false ∧ moveTarget s 0 0 0 = some 1 ∧
      (let d := drainPushes (s.modCore 0 fun z => { z with lastMig := some s.ticks }) (placeOf 0 0)
       marked d (placeOf 0 0) .pkg = [] ∧ openSlots d (placeOf 0 0) 0 [1] = [placeOf 1 0])) := by decide

def stranded (f : Strand → Strand) : State := sup.modMe f
def interrupted : Strand := { Strand.empty with st := .ready, csr := { StrandCsr.init with ipend := 4, imask := 7 } }
theorem witness_StrandEvents : asyncCause interrupted = some (.interrupt, 2) ∧ bundleBegun interrupted = false ∧
    asyncCause sup.me = none ∧ interrupted.ie = true ∧ interrupted.tl = false ∧ interrupted.pktOpen = false ∧
    asyncCause { interrupted with notice := some 7 } = some (.preempt, 7) ∧
    timerDue (2 ^ 48 + 7) { interrupted with csr := { StrandCsr.init with itimer := word (2 ^ 63 + 7) } } = true ∧
    timerDue 8 { interrupted with csr := { StrandCsr.init with itimer := word (2 ^ 63 + 7) } } = false ∧
    placeOfId sup 0 0 = some Place.first ∧ placeOfId sup 0 (400 * 2 ^ 8) = none ∧ interrupted.live = true ∧
    interrupted.st ≠ .handover ∧ interrupted.tenant = 0 ∧ Strand.empty.live = false := by decide
theorem witness_StrandEvents_answer :
    awaits { interrupted with asked := [askKey 8 .load] } (.sector 8 .load .ok attr0 0 0) = true ∧
    awaits interrupted (.sector 8 .load .ok attr0 0 0) = false ∧
    (let f : Fwd := { addr := 0, w0 := 0, w1 := 0, arrive := 2, here := false, flow := { took := false, target := 4, ev := 0, next := 4 } }
     [f].find? (fun e => !e.here) = some f) ∧ (1 : Nat) < 2 ∧ (2 : Nat) ≤ 2 ∧
    ({ interrupted with st := .parked .realign, asked := [5] } : Strand).parkedOn .realign = true ∧ courseOf sup sup.cur = none ∧
    (let x := { interrupted with st := .parked .fence, probes := [3], askedAt := [(2 * 3 + 1, 5)] }
     x.parkedOn .fence = true ∧ (2 * 3 + 1, 5) ∈ x.askedAt ∧ 5 + 2 ^ 20 ≤ ({ sup with ticks := 2 ^ 20 + 5 } : State).ticks ∧ x.asked = []) ∧
    (let x := { interrupted with st := .parked .mem, asked := [1 * 8 + 6], askedAt := [(2 * (1 * 8 + 6), 0)] }
     x.parkedOn .mem = true ∧ x.probes = [] ∧
       (x.asked.filter fun j => memAsk x j && outLong { sup with ticks := 2 ^ 20 } x (2 * j)) = [1 * 8 + 6]) ∧
    ({ interrupted with st := .parked .realign, asked := [5 + 8 * 7] } : Strand).asked.headD 0 / 8 ≤ ({ sup with ticks := 7 } : State).ticks ∧
    ({ sup with ticks := 6 } : State).ticks < ({ interrupted with asked := [5 + 8 * 7] } : Strand).asked.headD 0 / 8 := by decide
/-- An answer whose bytes a write of the core has overtaken, and one in time. -/
def reply (old : Bool) : Reply :=
  { dst := Place.first, resp := .sector 8 .load .ok attr0 0 0, fill := true, waits := true, old := old, link := none, node := 0, due := 0 }
theorem witness_StrandEvents_replies : [true, false].all (fun b => decide (({ sup with replies := [reply b] } : State).replies.head? =
    some (reply b) ∧ (reply b).due ≤ sup.ticks ∧ (reply b).old = b ∧ (reply b).link = none)) = true := by decide
def reads (ms : List Msg) : State := { sup with net := ms }
def rd : Msg := request (.read 8 .load true true true)
def far : Msg := request (.amo 0x400 .d .add 1 0 attr0 false)
theorem witness_HomeEvents : splitFirst (fun (y : Msg) => !y.back && y.link.isNone && !y.body.isProbe && !y.body.isAmo) [rd] = some ([], rd, []) ∧
    splitFirst (fun (y : Msg) => !y.back && y.link.isNone && y.body.isAmo) [rd, far] = some ([rd], far, []) ∧
    behind (reads [rd, far]) [rd] far = true ∧ behind (reads [rd]) [] rd = false ∧ far.body.isAmo = true ∧ rd.due ≤ sup.ticks ∧
    sup.ticks < ({ rd with due := 5 } : Msg).due ∧
    (let w : FaultWait := { token := 5, tenant := 0, page := 0, part := 0, strands := [sup.cur], xfers := [] }
     [w].find? (fun y => decide (y.token = 5)) = some w ∧ w.strands ≠ []) ∧ (request (.probe 3 false)).body = .probe 3 false ∧
    ({ interrupted with probes := [31] } : Strand).probes = [31] ∧
    ((icFind { Cluster.reset with icache := [{ blk := 7, data := 0, tenant := 0, attr := attr0 }] } 7).isSome) = true := by decide
set_option maxRecDepth 20000 in
theorem witness_HomeEvents_walk : walk sup 0 0 = some 0 ∧ leafV 0 = false := by decide
/-- A page table in which every level is the table at 0, and its leaf. -/
def mapped : State := sup.modMod 0 fun x => { x with dram := [(0, 1)] }
set_option maxRecDepth 40000 in
theorem witness_HomeEvents_walks : leafAddr sup 0 0 = .empty ∧ leafAddr mapped 0 0 = .leaf 0 ∧ leafV 1 = true ∧
    leafAddr (mapped.modMod 0 fun x => { x with dramPoison := [0] }) 0 0 = .poisoned ∧ (tableRead mapped 0 0).isSome = true ∧
    (tableRead (mapped.modMod 0 fun x => { x with dramPoison := [0] }) 0 0).isNone = true ∧
    ((sup.dieOf 0).walks.find? fun e => decide (e.1 = 0)) = none ∧
    (((mapped.modDie 0 fun d => { d with walks := [(0, 0, 1)] }).dieOf 0).walks.find? fun e => decide (e.1 = 0)) = some (0, 0, 1) := by
  decide
/-- A module that has booted, with a launch queue in the supervisor's TCM and a record of one task. -/
def hosted : State :=
  let mem := Memory.writeN (Memory.writeN (Memory.writeN [] 0xC040 64 (own 0x800 + 2 ^ 192)) 0xC800 64 (2 ^ 48)) 0xC840 32 0
  let u := (turnOn none sup).modCore 0 fun c => { c with tcm := mem }
  (u.modMod 0 fun x => { x with pkg := some 0, boot := 6 }).modPolicy 0 0 fun p => { p with en := true, quota := 4 }
def ringed' (r : Bool) : State := hosted.modLaunch 0 0 fun l => { l with lqbase := word (own 0), lqcfg := word (2 ^ 63), running := r }
set_option maxRecDepth 20000 in
theorem witness_Launches :
    (let l := (ringed' false).launch 0 0
     l.en = true ∧ l.running = false ∧ ochreSee (ringed' false) 0 (ringTenant 0) l.ring 16 = some 0 ∧
      ochreSee (ringed' false) 0 (ringTenant 0) (l.entryAt 0) 64 = some (own 0x800 + 2 ^ 192) ∧
      dfield (own 0x800 + 2 ^ 192) 0x18 4 = (0 + 1) % 2 ^ 32 ∧ vfTaken (ringed' false) 0 0 = false) := by decide
set_option maxRecDepth 20000 in
theorem witness_Launches_check : fine (checkLaunch (ringed' false) 0 0 0 (own 0x800 + 2 ^ 192)) (fun _ => true) = true ∧
    fine (checkLaunch sup 0 0 0 0) (fun _ => true) = false ∧
    (spanClusters 0 (launchPart (ringed' false) 0 0)).any (spartWaits (ringed' false) 0 (launchPart (ringed' false) 0 0)) = false := by
  decide
theorem witness_Launches_end : ((ringed' true).launch 0 0).running = true ∧ ((ringed' true).modOf 0).resetting = [] ∧
    (queueTasks [(0, job 1)] (roomy sup)).1 = [] ∧ (queueTasks [(0, job 1)] sup).1 ≠ [] ∧ vfDone State.reset 0 0 = true ∧
    vfWorks (queued tiled [zeroing 0]) 0 0 = true ∧ vfWorks sup 0 0 = false ∧ vfPending sup 0 0 = false ∧ vfSends sup 0 0 = false ∧
    changeWaits (keyed (pending false)) 0 0 (.rtbase 1) = true ∧ changeWaits sup 0 0 (.slice 1) = false ∧ vfIdle State.reset 0 0 = true ∧
    vfStrands State.reset 0 0 = [] ∧
    vfIdle (keyed (pending false)) 0 0 = false := by decide
def image : FwImage :=
  { arrived := true, bytes := 2 ^ 28 - 1, key := 0, keyIndex := 0, sig := 0, version := 2 ^ 64, digest := 0 }
theorem witness_ModuleEvents : (sup.modOf 0).recovery = false ∧ (sup.port 0 0).failed = false ∧ image.bytes < 2 ^ 28 ∧ image.arrived = true ∧
    ((sup.modMod 0 fun x => { x with boot := 1 }).modOf 0).boot = 1 ∧ ({ image with arrived := false } : FwImage).arrived ≠ true ∧
    (sup.modOf 0).boot ≠ 6 ∧ (hosted.modOf 0).boot = 6 ∧ (hosted.modOf 0).pkg ≠ none ∧
    ((sup.modMod 0 fun x => { x with boot := 6 }).modOf 0).pkg = none ∧
    ((sup.modPort 0 0 fun p => { p with dead := [0, 1, 2, 3] }).port 0 0).dead.length = 4 ∧ (sup.port 0 0).dead.length < 4 := by decide
def hop (st : FlitStage) (dst ch ty : Nat) : Flit :=
  { mod := 0, node := 0, hdr := header dst 0 ch 0 ty true, payload := 0, tenant := 0, stage := st, ready := 0 }
theorem witness_NetworkEvents : (productive sup (hop .transit 1 0 1) 0).length = 1 ∧
    (productive sup (hop .transit 1 0 1) 0)[0]? = some 0 ∧ (productive sup (hop .inject 1 0 1) 0).length = 1 ∧
    productive (sup.modMod 0 fun x => { x with shares := [] }) (hop .transit 0 0 1) 0 = [] ∧
    (hop .transit 1 0 1).age < 4095 ∧ mayInject sup (hop .inject 1 0 1) = true ∧
    splitFirst (fun g => decide (g.mod = 0 ∧ g.node = 0 ∧ g.stage = .eject ∧ g.ready ≤ 0)) [hop .eject 0 0 1] =
      some ([], hop .eject 0 0 1, []) ∧
    typeOk 0 0 = false ∧ typeOk 0 4 = true ∧ typeOk 0 5 = false ∧ 
    gatherFlits [hop .eject 0 0 1] 9 0 = some [hop .eject 0 0 1] ∧ gatherFlits [] 9 0 = none := by decide
theorem witness_NetworkEvents_links : (sup.linkOf 0 0).up = false ∧
    ((sup.modLink 0 0 fun l => { l with up := true }).linkOf 0 0).up = true ∧ (hosted.modOf 0).pkg = some 0 ∧
    (sup.port 0 (0 / 4)).down = false ∧ ((sup.modPort 0 0 fun p => { p with failed := true }).port 0 0).down = true := by decide
/-- The neighbour of a direction, and a package that is not. -/
theorem witness_NetworkEvents_peers : ∃ p, neighbourIn 0 0 = p ∧ neighbourIn 0 0 ≠ p + 1 := ⟨_, rfl, by omega⟩
/-- A frame at the port die of the module it is for. -/
def frame0 : LinkFrame :=
  { hop := { frm := 0, into := 0, link := 0, dir := 0, kid := 64, epoch := false, key := none, iv := 0 }, dst := 0, node := 0, entry := 0, pkt := packet true }
theorem witness_NetworkEvents_frames : ((hosted.modPort 0 0 fun x => { x with frames := [frame0] }).port 0 0).frames = frame0 :: [] ∧
    hosted.pkgOf 0 = frame0.dst := by decide
/-- A command of the migration engine. -/
def cmd (pass : Nat) (acks : List (Nat × Nat)) (st : Option Nat) : MigCmd :=
  { cmdOf 0 (2 ^ 64 + 3 * 2 ^ 112 + 2 ^ 128) with pass := pass, acks := acks, status := st }
def commanded (c : MigCmd) : State := sup.modMod 0 fun x => { x with cmds := [c] }
set_option maxRecDepth 20000 in
theorem witness_MigrationCommands : ((sup.modOf 0).cmds.filter fun x => !x.ended).length < 64 ∧
    cmdAt (commanded (cmd 0 [] none)) 0 0 = some (cmd 0 [] none) ∧ (cmd 0 [] none).status = none ∧
    pageBusy (commanded (cmd 0 [] none)) 0 (cmd 0 [] none) = false ∧ (cmd 0 [] none).frozen = false ∧ (cmd 0 [] none).rest = 0 :: [] ∧
    destMod (sup.modMod 1 fun x => { x with pkg := some 1 }) 0 (cmd 0 [] none) = some 1 ∧
    leafWritten sup 0 1 (cmd 0 [] none) = false ∧ pageLeaf sup 0 0 = (cmd 1 [] none).leafSeen ∧ (cmd 1 [] none).pass ≠ 0 ∧
    (cmd 1 [(1, 0)] none).acks ≠ [] ∧ (cmd 0 [] (some 2)).status = some 2 ∧ (cmd 0 [] (some 2)).ended = false ∧
    (cmd 0 [] (some 2)).cwaddr = 0 ∧ (partsOf (cmd 0 [] none).parts).filterMap (fun j => stubOf sup 0 0 j) = [] ∧
    ¬ leafOwner (pageLeaf sup 0 0) ≠ sup.pkgOf 0 ∧ leafOwner 0 ≠ hosted.pkgOf 1 + 1 := by decide
set_option maxRecDepth 20000 in
theorem witness_MigrationCommands_ring :
    (let s := sup.modMod 0 fun x => { x with ringBase := own 0 }
     (ringRead s 0 (ringEntry s 0 0) 64).1 = 0 ∧ dfield 0 0x18 4 ≠ (0 + 1) % 2 ^ 32 ∧ dfield (2 ^ 192) 0x18 4 = (0 + 1) % 2 ^ 32) := by
  decide
set_option maxRecDepth 20000 in
theorem witness_MigrationCommands_cutover :
    (let c : MigCmd := { cmd 1 [] none with frozen := true }
     let s := (sup.modMod 1 fun x => { x with pkg := some 1 }).modMod 0 fun x => { x with cmds := [c] }
     cmdAt s 0 0 = some c ∧ c.rest = 0 :: [] ∧ destMod s 0 c = some 1 ∧ c.down = false ∧ leafWritten s 0 1 c = false) := by decide
def stub (out : Nat) (pg : Option (List Nat)) : Stub :=
  { tenant := 0, page := 0, part := 0, target := 1, counts := [], outstanding := out, since := 0, quiet := 64,
    live := true, sent := 0, purging := pg, purgedAt := 0 }
def stubbed (out : Nat) (pg : Option (List Nat)) : State := sup.modMod 0 fun x => { x with stubs := [stub out pg] }
theorem witness_Stubs : stubOf (stubbed 0 none) 0 0 0 = some (stub 0 none) ∧ (stub 0 (some [1])).purging ≠ none ∧
    ({ sup with ticks := 65535 } : State).ticks < 0 + 64 * 1024 ∧ 0 + 64 * 1024 ≤ ({ sup with ticks := 65536 } : State).ticks ∧
    ((stub 0 (some [1])).purging.getD []).filter (· ≠ 1) = [] ∧ ((stub 0 (some [1, 2])).purging.getD []).filter (· ≠ 1) ≠ [] ∧
    0 < (stub 1 none).outstanding ∧ (stub 0 none).outstanding = 0 ∧ sentOff sup 0 0 0 = false ∧
    sentOff (reads [{ rd with loc := 1 }]) 0 0 0 = true ∧ rd.walk = none ∧ rd.tag = 0 ∧ locate sup rd.loc rd.tenant 0 0 = .absent ∧
    splitFirst (fun (y : Msg) => !y.back && y.link.isNone && !y.body.isProbe) [rd] = some ([], rd, []) ∧ (stub 0 (some [1])).purgedAt = 0 ∧
    splitFirst (fun (y : Msg) => y.back) [{ rd with back := true }] = some ([], { rd with back := true }, []) ∧
    ((sup.dieOf 0).redirs.filter fun r => decide (r.slice = 0)) = [] ∧ (2 : Nat) ^ 34 - 1 < 2 ^ 34 ∧ (31 : Nat) < 32 := by decide

theorem witness_IntegerLogic : (1 : BitVec 2) ≠ 0 ∧ (3 : BitVec 2) ≠ 0 ∧ (47 : Nat) < 16 * (3 : BitVec 2).toNat := by decide

/-! ### Values worked out by hand from the rules -/

/-- The strand after an instruction. -/
def after (i : Instr) (s : State) : Strand :=
  match exec i s with
  | .next t => t.me
  | .fault _ => Strand.empty
  | .refused _ => Strand.empty
def pair' (x y : Nat) : State := reg (reg sup 1 x) 2 y
/-- R110: ANDI with -8 clears the low three bits and keeps the rest. -/
theorem test_andi : (after (.andi 3 1 (BitVec.ofInt 13 (-8))) (pair' (2 ^ 64 - 1) 0)).g[3] = word (2 ^ 64 - 8) := by decide
/-- R113: the quotient truncates toward zero; the most negative number by -1; a division by zero. -/
theorem test_div : (after (.div 3 1 2) (pair' (2 ^ 64 - 7) 2)).g[3] = word (2 ^ 64 - 3) ∧
    (after (.div 3 1 2) (pair' (2 ^ 63) (2 ^ 64 - 1))).g[3] = word (2 ^ 63) ∧
    (after (.rem 3 1 2) (pair' (2 ^ 64 - 7) 2)).g[3] = word (2 ^ 64 - 1) ∧
    (after (.div 3 1 2) (pair' 7 0)).g[3] = word (2 ^ 64 - 1) ∧ (after (.rem 3 1 2) (pair' 7 0)).g[3] = 7 := by decide
/-- R112: the high half of -1 by 2, signed and unsigned. -/
theorem test_mulh : (after (.mulh 3 1 2) (pair' (2 ^ 64 - 1) 2)).g[3] = word (2 ^ 64 - 1) ∧
    (after (.mulhu 3 1 2) (pair' (2 ^ 64 - 1) 2)).g[3] = 1 := by decide
/-- R117: LIMM with a selector keeps the other bits. -/
theorem test_limm : (after (.limm 1 2 0xABCD) (pair' 0x1122334455667788 0)).g[1] = word 0x1122ABCD55667788 := by decide
/-- R125, R31: 1 + 2^-24 in FP32 is a tie to the even 1, inexact; upward it is 1 + 2^-23. -/
theorem test_fadd : (after (.fadd 3 1 2 (.by .rne) .f32) (pair' 0x3F800000 0x33800000)).g[3] = 0x3F800000 ∧
    (after (.fadd 3 1 2 (.by .rup) .f32) (pair' 0x3F800000 0x33800000)).g[3] = 0x3F800001 := by decide
/-- R126: the minimum of -0 and +0, and of a NaN and 1. -/
theorem test_fmin : (after (.fmin 3 1 2 .f32) (pair' 0x7FC00000 0x3F800000)).g[3] = 0x3F800000 ∧
    (after (.fmin 3 1 2 .f32) (pair' 0 0x80000000)).g[3] = 0x80000000 := by decide
/-- R133: INT8 lanes saturate at 127 and wrap at -128. -/
theorem test_vadd : (let s := sup.modMe fun x => { x with v := (x.v.set 1 127).set 2 1 }
    (after (.vadd 3 1 2 0 .i8 .rne true) s).v[3] = 127 ∧ (after (.vadd 3 1 2 0 .i8 .rne false) s).v[3] = 128) := by decide
/-- R73: a result for g0 is discarded. -/
theorem test_g0 : (after (.add 0 1 2 false) (pair' 3 4)).g[0] = 0 := by decide

end Sys2Proof.Tests
end

section
/-! SUPPORT. The integer instructions (R108-R116): each completes with its destination written, and what the value
that it writes is in the words of the manual. -/

namespace Sys2Proof.Proofs.Integer

open Sys2Proof Sys2Proof.Machine Sys2Proof.Laws

/-! ### A register write completes -/

/-- An instruction whose one effect is a register write completes with that write (R106). -/
theorem completes_writeG {i : Instr} {s : State} {d : GReg} {v : Word} (h : exec i s = writeG d v s) :
    Completes i s (wg s d v) :=
  completes_of_done h

/-- The same, with the value in another form. -/
theorem completes_writeG_eq {i : Instr} {s : State} {d : GReg} {v w : Word} (h : exec i s = writeG d v s) (e : v = w) :
    Completes i s (wg s d w) :=
  e ▸ completes_writeG h

/-! ### The pointer forms (R108) -/

/-- A pointer form keeps the format byte, which is what stands above bit 55, and takes the sum modulo `2 ^ 56`. -/
theorem ptrWith_eq (x : Word) (low : Nat) : ptrWith x low = word (x.toNat / 2 ^ 56 * 2 ^ 56 + low % 2 ^ 56) := by
  have hx := x.isLt
  have hf : fld x 63 56 = x.toNat / 2 ^ 56 := Nat.mod_eq_of_lt (by omega)
  rw [ptrWith, hf]

theorem addValue_pointer (x y : Word) :
    addValue true x y = word (x.toNat / 2 ^ 56 * 2 ^ 56 + (x.toNat + y.toNat) % 2 ^ 56) := by
  have h : (addrOf x + addrOf y) % 2 ^ 56 = (x.toNat + y.toNat) % 2 ^ 56 := (Nat.add_mod ..).symm
  exact (ptrWith_eq ..).trans (by rw [h])

/-- `2 ^ 64` is a multiple of the address space, so it may stand for it in a difference. -/
theorem subValue_pointer (x y : Word) :
    subValue true x y = word (x.toNat / 2 ^ 56 * 2 ^ 56 + (2 ^ 64 + x.toNat - y.toNat) % 2 ^ 56) := by
  have h : (addrOf x + (addrSpace - addrOf y)) % 2 ^ 56 = (2 ^ 64 + x.toNat - y.toNat) % 2 ^ 56 := by
    have hy := y.isLt
    unfold addrOf addrSpace
    omega
  exact (ptrWith_eq ..).trans (by rw [h])

/-! ### Products (R112) -/

theorem highProduct_natCast (m n : Nat) : highProduct m n = word (m * n / 2 ^ 64) := by
  have h : (m : Int) * n / (2 ^ 64 : Nat) = ((m * n / 2 ^ 64 : Nat) : Int) := by norm_cast
  rw [highProduct, h, BitVec.ofInt_natCast, word]

/-! ### Divisions (R113) -/

/-- The one pair of operands whose quotient has no 64-bit value. -/
theorem overflow_iff (x y : Word) :
    x = word (2 ^ 63) ∧ y = word 0xFFFFFFFFFFFFFFFF ↔ x.toInt = -2 ^ 63 ∧ y.toInt = -1 := by
  have hmin : (word (2 ^ 63)).toInt = -2 ^ 63 := by decide
  have hneg : (word 0xFFFFFFFFFFFFFFFF).toInt = -1 := by decide
  rw [← BitVec.toInt_inj, hmin, ← BitVec.toInt_inj, hneg]

theorem ne_zero_of_toInt_eq_neg_one {y : Word} (h : y.toInt = -1) : y ≠ 0 := by
  rintro rfl
  exact absurd h (by decide)

theorem divValue_zero {x y : Word} (hy : y = 0) : divValue x y = BitVec.allOnes 64 := by
  rw [divValue, if_pos hy]
  decide

theorem remValue_zero {x y : Word} (hy : y = 0) : remValue x y = x := if_pos hy

theorem divuValue_zero {x y : Word} (hy : y = 0) : divuValue x y = BitVec.allOnes 64 := by
  rw [divuValue, if_pos hy]
  decide

theorem remuValue_zero {x y : Word} (hy : y = 0) : remuValue x y = x := if_pos hy

theorem divValue_overflow {x y : Word} (h : x.toInt = -2 ^ 63 ∧ y.toInt = -1) : divValue x y = x := by
  rw [divValue, if_neg (ne_zero_of_toInt_eq_neg_one h.2), if_pos ((overflow_iff x y).mpr h)]

theorem remValue_overflow {x y : Word} (h : x.toInt = -2 ^ 63 ∧ y.toInt = -1) : remValue x y = 0 := by
  rw [remValue, if_neg (ne_zero_of_toInt_eq_neg_one h.2), if_pos ((overflow_iff x y).mpr h)]

theorem divValue_tdiv {x y : Word} (hy : y ≠ 0) (h : ¬(x.toInt = -2 ^ 63 ∧ y.toInt = -1)) :
    divValue x y = BitVec.ofInt 64 (x.toInt.tdiv y.toInt) := by
  rw [divValue, if_neg hy, if_neg (mt (overflow_iff x y).mp h)]

theorem remValue_tmod {x y : Word} (hy : y ≠ 0) (h : ¬(x.toInt = -2 ^ 63 ∧ y.toInt = -1)) :
    remValue x y = BitVec.ofInt 64 (x.toInt.tmod y.toInt) := by
  rw [remValue, if_neg hy, if_neg (mt (overflow_iff x y).mp h)]

theorem divuValue_div {x y : Word} (hy : y ≠ 0) : divuValue x y = word (x.toNat / y.toNat) := if_neg hy

theorem remuValue_mod {x y : Word} (hy : y ≠ 0) : remuValue x y = word (x.toNat % y.toNat) := if_neg hy

/-! ### Comparisons, minimum and maximum (R114) -/

theorem word_toNat (x : Word) : word x.toNat = x := (BitVec.ofNat_toNat 64 x).trans (BitVec.setWidth_eq x)

theorem flag_decide (p : Prop) [Decidable p] : flag (decide p) = if p then 1 else 0 := by
  by_cases h : p <;> simp [flag, b2n, word, h]

/-- A word is the value of its own integer, so selecting an operand is selecting its integer. -/
theorem minValue_signed (x y : Word) : minValue false x y = BitVec.ofInt 64 (min x.toInt y.toInt) := by
  rw [min_def, apply_ite (BitVec.ofInt 64), BitVec.ofInt_toInt, BitVec.ofInt_toInt]
  simp [minValue]

theorem minValue_unsigned (x y : Word) : minValue true x y = word (min x.toNat y.toNat) := by
  rw [min_def, apply_ite word, word_toNat, word_toNat]
  simp [minValue]

theorem maxValue_signed (x y : Word) : maxValue false x y = BitVec.ofInt 64 (max x.toInt y.toInt) := by
  rw [max_def', apply_ite (BitVec.ofInt 64), BitVec.ofInt_toInt, BitVec.ofInt_toInt]
  simp [maxValue]

theorem maxValue_unsigned (x y : Word) : maxValue true x y = word (max x.toNat y.toNat) := by
  rw [max_def', apply_ite word, word_toNat, word_toNat]
  simp [maxValue]

/-! ### Bit counts (R116) -/

/-- The bit length is the least exponent whose power of two lies above the number. -/
theorem bitLen_le {x n : Nat} : bitLen x ≤ n ↔ x < 2 ^ n := by
  by_cases h : x = 0
  · simp [bitLen, h]
  · rw [bitLen, if_neg h, Nat.succ_le_iff, Nat.log2_lt h]

/-- What is left of 64 bits above the bit length are leading zeros, and the bit below them is set. -/
theorem clzValue_spec (x : Word) :
    ∃ n ≤ 64, clzValue x = word n ∧ x.toNat < 2 ^ (64 - n) ∧ (n < 64 → 2 ^ (63 - n) ≤ x.toNat) := by
  have hlen : bitLen x.toNat ≤ 64 := bitLen_le.mpr x.isLt
  refine ⟨64 - bitLen x.toNat, Nat.sub_le .., rfl, bitLen_le.mp (by omega), fun hn => ?_⟩
  refine Nat.le_of_not_lt fun hlt => ?_
  have hle := bitLen_le.mpr hlt
  omega

/-- The model counts from the lowest bit up, halving the number at each step. -/
theorem popCount_eq_countP (n x : Nat) : popCount n x = (List.range n).countP x.testBit := by
  induction n generalizing x with
  | zero => rfl
  | succ n ih =>
    have hlow : (if x.testBit 0 then 1 else 0) = x % 2 := by
      rcases Nat.mod_two_eq_zero_or_one x with h | h <;> simp [Nat.testBit_zero, h]
    have hshift : x.testBit ∘ Nat.succ = (x / 2).testBit := funext fun i => Nat.testBit_succ x i
    rw [popCount, ih, List.range_succ_eq_map, List.countP_cons, List.countP_map, hshift, hlow, Nat.add_comm]

theorem popCount_toNat (x : Word) : popCount 64 x.toNat = ((List.range 64).filter fun i => x.getLsbD i).length :=
  (popCount_eq_countP 64 x.toNat).trans List.countP_eq_length_filter

/-! ### The statements -/

/-- Settles O11: every instruction is one register write; the values of the pointer forms, of the unsigned high product
and of the divisions are put into the manual's words. -/
theorem integerArithmetic : Obligations.IntegerArithmetic := by
  unfold Obligations.IntegerArithmetic
  refine ⟨fun d a b imm s => ?_, fun d a b s => ⟨fun hy => ?_, fun h => ?_, fun hy h => ?_, fun hy => ?_⟩⟩
  · exact ⟨completes_writeG rfl, completes_writeG rfl,
      completes_writeG_eq rfl (addValue_pointer ..), completes_writeG_eq rfl (subValue_pointer ..),
      completes_writeG rfl, completes_writeG rfl,
      completes_writeG rfl, completes_writeG_eq rfl (highProduct_natCast ..)⟩
  · exact ⟨completes_writeG_eq rfl (divValue_zero hy), completes_writeG_eq rfl (divuValue_zero hy),
      completes_writeG_eq rfl (remValue_zero hy), completes_writeG_eq rfl (remuValue_zero hy)⟩
  · exact ⟨completes_writeG_eq rfl (divValue_overflow h), completes_writeG_eq rfl (remValue_overflow h)⟩
  · exact ⟨completes_writeG_eq rfl (divValue_tdiv hy h), completes_writeG_eq rfl (remValue_tmod hy h)⟩
  · exact ⟨completes_writeG_eq rfl (divuValue_div hy), completes_writeG_eq rfl (remuValue_mod hy)⟩

/-- Settles O13: again one register write each. SEL reads its destination in `s`, before the write; the number that
CLZ writes is found from the bit length, and POPC's by counting bit by bit. -/
theorem integerCompare : Obligations.IntegerCompare := by
  unfold Obligations.IntegerCompare
  intro d a b s x y
  obtain ⟨n, hn, hclz, hbelow, habove⟩ := clzValue_spec x
  exact ⟨completes_writeG_eq rfl (flag_decide _), completes_writeG_eq rfl (flag_decide _),
    completes_writeG_eq rfl (flag_decide _), completes_writeG rfl,
    completes_writeG_eq rfl (minValue_signed ..), completes_writeG_eq rfl (minValue_unsigned ..),
    completes_writeG_eq rfl (maxValue_signed ..), completes_writeG_eq rfl (maxValue_unsigned ..),
    ⟨n, hn, completes_writeG_eq rfl hclz, hbelow, habove⟩,
    completes_writeG_eq rfl (congrArg word (popCount_toNat x))⟩

end Sys2Proof.Proofs.Integer
end

section
/-! SUPPORT. The scalar floating-point instructions (R123-R129): each completes with its destination and its flags
written, and what the selections, the comparison and the integer operands are in the words of the manual. -/

namespace Sys2Proof.Proofs.ScalarFloat

open Sys2Proof Sys2Proof.Machine Sys2Proof.Laws Sys2Proof.Proofs.Integer

/-! ### A rounded result completes (R123-R125) -/

/-- An instruction whose one effect is a rounded result completes with the destination written and the flags of the
computation and of the rounding set. -/
theorem completes_writeF {i : Instr} {s : State} {d : GReg} {f : FloatCode} {m : Rounding} {r : Num × Nat}
    (h : exec i s = writeF d f m r s) :
    Completes i s (setFlags (wg s d (word (roundNum f m r.1).1)) (r.2 ||| (roundNum f m r.1).2)) :=
  completes_of_done h

/-- A computation with no flag of its own sets those of the rounding alone. -/
theorem completes_writeF_noFlags {i : Instr} {s : State} {d : GReg} {f : FloatCode} {m : Rounding} {x : Num}
    (h : exec i s = writeF d f m (x, 0) s) :
    Completes i s (setFlags (wg s d (word (roundNum f m x).1)) (roundNum f m x).2) := by
  have hc := completes_writeF h
  rwa [Nat.zero_or] at hc

/-! ### Minimum, maximum and comparison (R126, R127) -/

/-- The choice of R126 by which operands are NaN, asked for both at once or one after the other. -/
theorem select_by_nan (aNan bNan : Bool) (n x y z : Nat) :
    (if aNan && bNan then n else if aNan then y else if bNan then x else z)
      = if aNan then (if bNan then n else y) else if bNan then x else z := by
  cases aNan
  · rfl
  · cases bNan <;> rfl

theorem minCode_eq (f : FloatCode) (x y : Nat) :
    minCode f x y =
      if (decodeNum f x).isNan then (if (decodeNum f y).isNan then f.nanCode else y)
      else if (decodeNum f y).isNan then x else if numLess (decodeNum f y) (decodeNum f x) then y else x :=
  select_by_nan ..

theorem maxCodeOf_eq (f : FloatCode) (x y : Nat) :
    maxCodeOf f x y =
      if (decodeNum f x).isNan then (if (decodeNum f y).isNan then f.nanCode else y)
      else if (decodeNum f y).isNan then x else if numLess (decodeNum f x) (decodeNum f y) then y else x :=
  select_by_nan ..

theorem word_compareCode (x y : Num) :
    word (compareCode x y) =
      match cmpNum x y with
      | some .lt => 1
      | some .eq => 2
      | some .gt => 4
      | none => 8 := by
  unfold compareCode
  rcases cmpNum x y with _ | _ | _ | _ <;> rfl

/-! ### Integer operands (R129) -/

/-- The signed reading of the low bits is the integer of the truncated word. -/
theorem signed_toNat (n : Nat) (x : Word) : signed n x.toNat = (x.setWidth n).toInt := by
  rw [BitVec.toInt_eq_toNat_cond, BitVec.toNat_setWidth]
  rfl

theorem intSource_eq (ity : IntTy) (x : Word) :
    intSource ity x =
      match ity with
      | .i32 => (x.setWidth 32).toInt
      | .u32 => ((x.setWidth 32).toNat : Int)
      | .i64 => x.toInt
      | .u64 => (x.toNat : Int) := by
  cases ity
  case i32 => exact signed_toNat 32 x
  case u32 => exact congrArg Nat.cast (BitVec.toNat_setWidth 32 x).symm
  case i64 => rfl
  case u64 => rfl

theorem ityRange_eq (ity : IntTy) :
    ityRange ity =
      match ity with
      | .i32 => (-2 ^ 31, 2 ^ 31 - 1)
      | .u32 => (0, 2 ^ 32 - 1)
      | .i64 => (-2 ^ 63, 2 ^ 63 - 1)
      | .u64 => (0, 2 ^ 64 - 1) := by
  cases ity <;> decide

theorem completes_fcvti (d a : GReg) (ity : IntTy) (rs : RoundSel) (ft : FloatFmt) (s : State) {range : Int × Int}
    (h : ityRange ity = range) :
    let v := toIntRange (modeOf s rs) range.1 range.2 (fval s ft.toCode a)
    Completes (.fcvti d a ity rs ft) s (setFlags (wg s d (BitVec.ofInt 64 v.1)) v.2) :=
  h ▸ completes_of_done rfl

theorem completes_icvtf (d a : GReg) (ity : IntTy) (rs : RoundSel) (ft : FloatFmt) (s : State) {v : Int}
    (h : intSource ity (rg s a) = v) :
    let r := roundNum ft.toCode (modeOf s rs) (intNum v)
    Completes (.icvtf d a ity rs ft) s (setFlags (wg s d (word r.1)) r.2) :=
  h ▸ completes_writeF_noFlags rfl

/-! ### The statement -/

/-- Settles O25: the arithmetic instructions and ICVTF are one rounded result each, FMIN, FMAX and FCMP one register
write each, and FCVT and FCVTI their own effects; the selections, the comparison, and the range and the source of the
integer types are put into the manual's words. -/
theorem scalarFloat : Obligations.ScalarFloat := by
  unfold Obligations.ScalarFloat
  refine ⟨fun d a b rs ft s => ?arithmetic, fun d a other ity rs ft s => ?conversions⟩
  case arithmetic =>
    exact ⟨completes_writeF rfl, completes_writeF rfl, completes_writeF rfl, completes_writeF rfl,
      completes_writeF rfl, completes_writeF rfl,
      completes_writeG_eq rfl (congrArg word (minCode_eq ..)), completes_writeG_eq rfl (congrArg word (maxCodeOf_eq ..)),
      completes_writeG_eq rfl (word_compareCode ..)⟩
  case conversions =>
    exact ⟨completes_of_done rfl, completes_of_done rfl,
      completes_fcvti d a ity rs ft s (ityRange_eq ity),
      completes_icvtf d a ity rs ft s (intSource_eq ity (rg s a))⟩

end Sys2Proof.Proofs.ScalarFloat
end

section
/-! SUPPORT. The control transfers (R107, R143-R147): what a branch, a jump to a register and the jump table do, each
said once for every instruction that is made of it. -/

namespace Sys2Proof.Proofs.ControlTransfer

open Sys2Proof Sys2Proof.Machine Sys2Proof.Laws

/-! ### Conditional branches (R144) -/

section
variable {i : Instr} {s : State} {c : Bool} {p : Prop} [Decidable p] {off : BitVec 13}

/-- A branch that is taken where `p` holds. -/
theorem completes_branch_if (h : exec i s = branch c off s) (hc : c = true ↔ p) :
    Completes i s (if p then jump s (addrAdd (wordAddr s) (4 * off.toInt)) else s) := by
  have hu : (if c then jump s (targetOf s off.toInt) else s)
      = if p then jump s (addrAdd (wordAddr s) (4 * off.toInt)) else s := if_congr hc rfl rfl
  exact hu ▸ completes_of_done h

/-- A branch that is taken where `p` fails. -/
theorem completes_branch_unless (h : exec i s = branch c off s) (hc : c = true ↔ ¬p) :
    Completes i s (if p then s else jump s (addrAdd (wordAddr s) (4 * off.toInt))) :=
  ite_not p _ s ▸ completes_branch_if h hc

end

/-! ### Jumps to an address in a register (R146) -/

section
variable {i : Instr} {s : State} {a : GReg} {imm : BitVec 13} {linked : Bool} {t : Word}

/-- The sum is read before the link is written, so both forms go to the same place. -/
theorem completes_jumpTo (h : exec i s = finish s (Act.res (jumpTo a imm linked) s))
    (ht : rg s a + imm.signExtend 64 = t) (hal : t.toNat % 4 = 0) :
    Completes i s (jump (if linked then link s else s) (t.toNat % 2 ^ 56)) := by
  subst ht
  refine completes_of_done (h.trans (congrArg (finish s) ?_))
  rw [Act.res, jumpTo, if_neg (not_not_intro hal)]
  rfl

/-- A misaligned sum raises ALIGN with itself as the address, in both forms. -/
theorem raises_jumpTo (h : exec i s = finish s (Act.res (jumpTo a imm linked) s))
    (ht : rg s a + imm.signExtend 64 = t) (hal : t.toNat % 4 ≠ 0) : Raises i s .align t.toNat 3 := by
  subst ht
  refine raises_of_trap (h.trans (congrArg (finish s) ?_))
  rw [Act.res, jumpTo, if_pos hal]
  rfl

end

/-! ### The jump table (R147) -/

/-- A part of a meaning that goes on hands its result and its state to the rest. -/
theorem act_bind_of_ok {α β : Type} {m : Act α} {f : α → Act β} {s t : State} {x : α} (h : m s = .ok (x, t)) :
    (m >>= f) s = f x t := by
  change Except.bind (m s) (fun r => f r.1 r.2) = _
  rw [h]
  rfl

theorem aligned_of_mod_eq_zero {e w : Nat} {k : Access} {s : State} (h : e % w = 0) :
    aligned e w k s = .ok ((), s) := by
  rw [aligned, if_pos h]
  rfl

section
variable {d a : GReg} {imm : BitVec 13} {s : State}

/-- An index at or above the length falls through. -/
theorem completes_jtab_past (h : imm.toNat ≤ (rg s d).toNat) : Completes (.jtab d a imm) s s := by
  refine completes_of_done (show execJtab d a imm s = _ from ?_)
  rw [execJtab, if_pos h]
  rfl

/-- An index below the length, whose entry is aligned and loads as `n`: the target counts from the word of `s`, and the
state is what the load leaves. -/
theorem completes_jtab_entry {e n : Nat} {s1 : State} (h : (rg s d).toNat < imm.toNat)
    (he : addrAdd (addrOf (rg s a)) (4 * (rg s d).toNat) = e) (hal : e % 4 = 0)
    (hl : load e 4 true s = .ok (n, s1)) :
    Completes (.jtab d a imm) s (jump s1 (addrAdd (wordAddr s) (4 * signed 32 n))) := by
  subst he
  refine completes_of_done (show execJtab d a imm s = _ from ?_)
  rw [execJtab, if_neg (Nat.not_le.mpr h), Act.res, act_bind_of_ok (aligned_of_mod_eq_zero hal), act_bind_of_ok hl]
  rfl

end

/-! ### The statement -/

/-- Settles O15: the branches are taken where the manual's comparison holds or, for its opposite, fails; JMP and CALLR
are the jump to a register without and with the link; JTAB is split by its index. -/
theorem controlTransfers : Obligations.ControlTransfers := by
  unfold Obligations.ControlTransfers
  refine ⟨fun a b off far s => ?direct, fun d a imm s => ?indirect⟩
  case direct =>
    exact ⟨completes_of_done rfl, completes_of_done rfl, completes_of_done rfl, completes_of_done rfl,
      completes_branch_if rfl decide_eq_true_iff,
      completes_branch_unless rfl decide_eq_true_iff,
      completes_branch_if rfl decide_eq_true_iff,
      completes_branch_unless rfl (decide_eq_true_iff.trans not_lt.symm),
      completes_branch_if rfl decide_eq_true_iff,
      completes_branch_unless rfl (decide_eq_true_iff.trans not_lt.symm)⟩
  case indirect =>
    exact ⟨fun hal => ⟨completes_jumpTo (linked := false) rfl rfl hal, completes_jumpTo (linked := true) rfl rfl hal⟩,
      fun hal => ⟨raises_jumpTo (linked := false) rfl rfl hal, raises_jumpTo (linked := true) rfl rfl hal⟩,
      completes_jtab_past,
      fun h hal _ _ hl => completes_jtab_entry h rfl hal hl⟩

end Sys2Proof.Proofs.ControlTransfer
end

section
/-! SUPPORT. The encodings (R65-R81): every instruction is decoded from its word, and whatever a word decodes to is
well formed. -/

namespace Sys2Proof.Proofs.Encoding

open Sys2Proof Sys2Proof.Machine

/-! ### From an instruction to its word and back -/

open Laws.Encoding in
/-- The lemmas of the encoding tables, one for each row. -/
theorem statement_of_instr : (i : Instr) → Statement i
  | .nop => nop
  | .br _ => br _
  | .call _ => call _
  | .jmp _ _ => jmp _ _
  | .callr _ _ => callr _ _
  | .beq _ _ _ => beq _ _ _
  | .bne _ _ _ => bne _ _ _
  | .blt _ _ _ => blt _ _ _
  | .bge _ _ _ => bge _ _ _
  | .bltu _ _ _ => bltu _ _ _
  | .bgeu _ _ _ => bgeu _ _ _
  | .jtab _ _ _ => jtab _ _ _
  | .loop _ _ => loop _ _
  | .loopx _ => loopx _
  | .realign _ => realign _
  | .course _ _ => course _ _
  | .ldb _ _ _ _ => ldb _ _ _ _
  | .ldbu _ _ _ _ => ldbu _ _ _ _
  | .ldh _ _ _ _ => ldh _ _ _ _
  | .ldhu _ _ _ _ => ldhu _ _ _ _
  | .ldw _ _ _ _ => ldw _ _ _ _
  | .ldwu _ _ _ _ => ldwu _ _ _ _
  | .ldd _ _ _ _ => ldd _ _ _ _
  | .stb _ _ _ _ => stb _ _ _ _
  | .sth _ _ _ _ => sth _ _ _ _
  | .stw _ _ _ _ => stw _ _ _ _
  | .std _ _ _ _ => std _ _ _ _
  | .ldaq _ _ _ _ _ => ldaq _ _ _ _ _
  | .strl _ _ _ _ _ => strl _ _ _ _ _
  | .ldf _ _ _ _ => ldf _ _ _ _
  | .stf _ _ _ _ => stf _ _ _ _
  | .pref _ _ _ => pref _ _ _
  | .vld _ _ _ _ _ => vld _ _ _ _ _
  | .vst _ _ _ _ _ => vst _ _ _ _ _
  | .vlds _ _ _ _ _ => vlds _ _ _ _ _
  | .vsts _ _ _ _ _ => vsts _ _ _ _ _
  | .vldf _ _ _ _ => vldf _ _ _ _
  | .vstf _ _ _ _ => vstf _ _ _ _
  | .vgath _ _ _ _ _ => vgath _ _ _ _ _
  | .vscat _ _ _ _ _ => vscat _ _ _ _ _
  | .amoadd _ _ _ _ _ _ _ _ => amoadd _ _ _ _ _ _ _ _
  | .amoand _ _ _ _ _ _ _ _ => amoand _ _ _ _ _ _ _ _
  | .amoor _ _ _ _ _ _ _ _ => amoor _ _ _ _ _ _ _ _
  | .amoxor _ _ _ _ _ _ _ _ => amoxor _ _ _ _ _ _ _ _
  | .amomin _ _ _ _ _ _ _ _ => amomin _ _ _ _ _ _ _ _
  | .amomax _ _ _ _ _ _ _ _ => amomax _ _ _ _ _ _ _ _
  | .amominu _ _ _ _ _ _ _ _ => amominu _ _ _ _ _ _ _ _
  | .amomaxu _ _ _ _ _ _ _ _ => amomaxu _ _ _ _ _ _ _ _
  | .amoswp _ _ _ _ _ _ _ _ => amoswp _ _ _ _ _ _ _ _
  | .amocas _ _ _ _ _ _ _ _ => amocas _ _ _ _ _ _ _ _
  | .amofadd _ _ _ _ _ _ _ _ => amofadd _ _ _ _ _ _ _ _
  | .amofmax _ _ _ _ _ _ _ _ => amofmax _ _ _ _ _ _ _ _
  | .fence _ => fence _
  | .acq _ => acq _
  | .rel _ => rel _
  | .waitw _ _ _ _ => waitw _ _ _ _
  | .wfe => wfe
  | .sev _ _ _ => sev _ _ _
  | .bararr _ _ _ => bararr _ _ _
  | .barwt _ _ _ => barwt _ _ _
  | .barxb _ _ => barxb _ _
  | .gsync _ _ _ => gsync _ _ _
  | .scfg _ _ => scfg _ _
  | .sbind _ _ _ => sbind _ _ _
  | .sfree _ => sfree _
  | .spos _ _ _ _ => spos _ _ _ _
  | .btset _ _ _ => btset _ _ _
  | .btgo _ _ => btgo _ _
  | .btpoll _ _ _ => btpoll _ _ _
  | .ixpost _ _ _ _ => ixpost _ _ _ _
  | .klset _ _ _ _ => klset _ _ _ _
  | .klook _ _ _ _ => klook _ _ _ _
  | .klwait _ _ _ => klwait _ _ _
  | .klres _ _ _ _ => klres _ _ _ _
  | .ebag _ _ _ _ => ebag _ _ _ _
  | .eupd _ _ _ _ _ => eupd _ _ _ _ _
  | .eupdClose _ _ _ _ => eupdClose _ _ _ _
  | .tenq _ _ _ => tenq _ _ _
  | .tdeq _ _ _ => tdeq _ _ _
  | .dcinit _ _ _ => dcinit _ _ _
  | .dcdec _ _ _ _ _ => dcdec _ _ _ _ _
  | .dcinc _ _ _ => dcinc _ _ _
  | .tyield _ _ _ => tyield _ _ _
  | .texit _ => texit _
  | .pwreq _ _ _ => pwreq _ _ _
  | .pwrel => pwrel
  | .smig _ _ => smig _ _
  | .gjoin _ _ _ => gjoin _ _ _
  | .gleave _ _ _ => gleave _ _ _
  | .qsend _ _ _ => qsend _ _ _
  | .qrecv _ _ _ _ => qrecv _ _ _ _
  | .vsopen _ _ _ _ _ => vsopen _ _ _ _ _
  | .vsmark _ _ => vsmark _ _
  | .vsclose _ _ => vsclose _ _
  | .mcmd _ _ _ => mcmd _ _ _
  | .csrr _ _ => csrr _ _
  | .csrw _ _ => csrw _ _
  | .csrx _ _ _ => csrx _ _ _
  | .trap _ => trap _
  | .eret => eret
  | .plbinvPage _ _ => plbinvPage _ _
  | .plbinvDom _ _ => plbinvDom _ _
  | .plbinvVf _ => plbinvVf _
  | .cflushCode _ _ _ => cflushCode _ _ _
  | .cflushWb _ _ => cflushWb _ _
  | .cflushInv _ _ => cflushInv _ _
  | .spart _ _ _ => spart _ _ _
  | .ctxsave _ _ => ctxsave _ _
  | .ctxload _ _ => ctxload _ _
  | .anop => anop
  | .add _ _ _ _ => add _ _ _ _
  | .sub _ _ _ _ => sub _ _ _ _
  | .addi _ _ _ => addi _ _ _
  | .mul _ _ _ => mul _ _ _
  | .mulh _ _ _ => mulh _ _ _
  | .mulhu _ _ _ => mulhu _ _ _
  | .div _ _ _ => div _ _ _
  | .divu _ _ _ => divu _ _ _
  | .rem _ _ _ => rem _ _ _
  | .remu _ _ _ => remu _ _ _
  | .and _ _ _ => and _ _ _
  | .or _ _ _ => or _ _ _
  | .xor _ _ _ => xor _ _ _
  | .andi _ _ _ => andi _ _ _
  | .ori _ _ _ => ori _ _ _
  | .xori _ _ _ => xori _ _ _
  | .shl _ _ _ => shl _ _ _
  | .shr _ _ _ => shr _ _ _
  | .sar _ _ _ => sar _ _ _
  | .shli _ _ _ => shli _ _ _
  | .shri _ _ _ => shri _ _ _
  | .sari _ _ _ => sari _ _ _
  | .limm _ _ _ => limm _ _ _
  | .slt _ _ _ => slt _ _ _
  | .sltu _ _ _ => sltu _ _ _
  | .seq _ _ _ => seq _ _ _
  | .sel _ _ _ => sel _ _ _
  | .clz _ _ => clz _ _
  | .popc _ _ => popc _ _
  | .min _ _ _ _ => Laws.Encoding.min _ _ _ _
  | .max _ _ _ _ => Laws.Encoding.max _ _ _ _
  | .pfmt _ _ _ => pfmt _ _ _
  | .pgetf _ _ _ => pgetf _ _ _
  | .padde _ _ _ => padde _ _ _
  | .pcaddr _ _ => pcaddr _ _
  | .fadd _ _ _ _ _ => fadd _ _ _ _ _
  | .fsub _ _ _ _ _ => fsub _ _ _ _ _
  | .fmul _ _ _ _ _ => fmul _ _ _ _ _
  | .fma _ _ _ _ _ => fma _ _ _ _ _
  | .fdiv _ _ _ _ _ => fdiv _ _ _ _ _
  | .fsqrt _ _ _ _ => fsqrt _ _ _ _
  | .fmin _ _ _ _ => fmin _ _ _ _
  | .fmax _ _ _ _ => fmax _ _ _ _
  | .fcmp _ _ _ _ => fcmp _ _ _ _
  | .fcvt _ _ _ _ _ _ => fcvt _ _ _ _ _ _
  | .fcvti _ _ _ _ _ => fcvti _ _ _ _ _
  | .icvtf _ _ _ _ _ => icvtf _ _ _ _ _
  | .vadd _ _ _ _ _ _ _ => vadd _ _ _ _ _ _ _
  | .vsub _ _ _ _ _ _ _ => vsub _ _ _ _ _ _ _
  | .vmul _ _ _ _ _ _ => vmul _ _ _ _ _ _
  | .vfma _ _ _ _ _ _ => vfma _ _ _ _ _ _
  | .vmax _ _ _ _ _ => vmax _ _ _ _ _
  | .vmin _ _ _ _ _ => vmin _ _ _ _ _
  | .vand _ _ _ _ _ => vand _ _ _ _ _
  | .vor _ _ _ _ _ => vor _ _ _ _ _
  | .vxor _ _ _ _ _ => vxor _ _ _ _ _
  | .vshl _ _ _ _ _ => vshl _ _ _ _ _
  | .vshr _ _ _ _ _ _ => vshr _ _ _ _ _ _
  | .vcmp _ _ _ _ _ _ => vcmp _ _ _ _ _ _
  | .vsel _ _ _ _ _ => vsel _ _ _ _ _
  | .vcvt _ _ _ _ _ _ _ => vcvt _ _ _ _ _ _ _
  | .vredsum _ _ _ _ _ _ => vredsum _ _ _ _ _ _
  | .vredmax _ _ _ _ => vredmax _ _ _ _
  | .vexp _ _ _ => vexp _ _ _
  | .vrcp _ _ _ _ _ => vrcp _ _ _ _ _
  | .vsplat _ _ _ => vsplat _ _ _
  | .vperm _ _ _ _ _ _ => vperm _ _ _ _ _ _
  | .vmovg _ _ _ _ _ => vmovg _ _ _ _ _
  | .vmovv _ _ _ _ => vmovv _ _ _ _
  | .vtopk _ _ _ _ _ => vtopk _ _ _ _ _
  | .vdot _ _ _ _ _ _ => vdot _ _ _ _ _ _
  | .tshape _ _ => tshape _ _
  | .tld _ _ _ _ => tld _ _ _ _
  | .tst _ _ _ _ => tst _ _ _ _
  | .tzero _ _ => tzero _ _
  | .mma _ _ _ _ _ _ => mma _ _ _ _ _ _
  | .mmas _ _ _ _ _ _ => mmas _ _ _ _ _ _
  | .mmss _ _ _ _ _ _ => mmss _ _ _ _ _ _
  | .tcvt _ _ _ _ => tcvt _ _ _ _
  | .tadd _ _ _ _ _ => tadd _ _ _ _ _
  | .tscale _ _ _ _ _ _ => tscale _ _ _ _ _ _
  | .ttrans _ _ _ => ttrans _ _ _
  | .mjoin _ => mjoin _
  | .talloc _ _ => talloc _ _
  | .tfree _ => tfree _
  | .tmovv _ _ _ _ => tmovv _ _ _ _
  | .vmovt _ _ _ _ => vmovt _ _ _ _
  | .asyncTrapEntry _ => asyncTrapEntry _
  | .itimerFire _ => itimerFire _
  | .intdbWrite _ _ _ => intdbWrite _ _ _
  | .preemptNotice _ _ _ => preemptNotice _ _ _
  | .sstatWrite _ => sstatWrite _
  | .ipendClear _ => ipendClear _
  | .registerWrite _ _ => registerWrite _ _
  | .memResponse _ => memResponse _
  | .courseForward _ => courseForward _
  | .courseTimeout _ _ => courseTimeout _ _
  | .realignTimeout _ => realignTimeout _
  | .streamElementFetch _ _ => streamElementFetch _ _
  | .streamPush _ _ => streamPush _ _
  | .matrixOpComplete _ _ => matrixOpComplete _ _
  | .mcmdCommand _ => mcmdCommand _
  | .mcmdAnswer _ => mcmdAnswer _
  | .spartConversion _ => spartConversion _
  | .waitwMonitorFire _ => waitwMonitorFire _
  | .sevEvent _ => sevEvent _
  | .timeSliceExpiry _ _ => timeSliceExpiry _ _
  | .slotHandover _ _ => slotHandover _ _
  | .bteTransferActivate _ => bteTransferActivate _
  | .bteWriteLand _ _ => bteWriteLand _ _
  | .bteConsumerUpdate _ _ => bteConsumerUpdate _ _
  | .ixeElementCopy _ _ => ixeElementCopy _ _
  | .engineCompletion _ _ _ => engineCompletion _ _ _
  | .cringtailWrite _ _ => cringtailWrite _ _
  | .engineOffline _ _ => engineOffline _ _
  | .autoMigration _ => autoMigration _
  | .migrationArrival _ => migrationArrival _
  | .migrationSlotFree _ => migrationSlotFree _
  | .kleScoring _ _ => kleScoring _ _
  | .kleServiceRound _ _ => kleServiceRound _ _
  | .kleRowArrival _ _ => kleRowArrival _ _
  | .kleReadTimeout _ _ _ => kleReadTimeout _ _ _
  | .kleLookupComplete _ _ => kleLookupComplete _ _
  | .kleOffline _ => kleOffline _
  | .eupdDirectAdd _ _ => eupdDirectAdd _ _
  | .mergeContribution _ => mergeContribution _
  | .mergeClose _ => mergeClose _
  | .closeAck _ => closeAck _
  | .homeSliceRequest _ _ => homeSliceRequest _ _
  | .farAtomicExecute _ _ => farAtomicExecute _ _
  | .pageWalk _ _ => pageWalk _ _
  | .faultack _ => faultack _
  | .faultackWake _ => faultackWake _
  | .releaseProbe _ _ _ => releaseProbe _ _ _
  | .probeEcho _ _ => probeEcho _ _
  | .uncorrectableError _ => uncorrectableError _
  | .correctableError _ => correctableError _
  | .dieerrlog _ => dieerrlog _
  | .taskDispatch _ _ => taskDispatch _ _
  | .admissionServe _ => admissionServe _
  | .taskSteal _ _ _ => taskSteal _ _ _
  | .stealRequest _ _ => stealRequest _ _
  | .stealRetry _ _ => stealRetry _ _
  | .counterUpdate _ _ => counterUpdate _ _
  | .groupUpdate _ _ => groupUpdate _ _
  | .grantExpiry _ => grantExpiry _
  | .budgetSet _ _ => budgetSet _ _
  | .thermalStep _ _ => thermalStep _ _
  | .criticalTemperature _ => criticalTemperature _
  | .shutdownTemperature _ => shutdownTemperature _
  | .lqdb _ _ => lqdb _ _
  | .launchTake _ _ => launchTake _ _
  | .launchEnd _ _ => launchEnd _ _
  | .vfReset _ _ => vfReset _ _
  | .vfPolicyWrite _ _ _ => vfPolicyWrite _ _ _
  | .hostBarWrite _ _ _ _ _ _ => hostBarWrite _ _ _ _ _ _
  | .hostPortDown _ _ => hostPortDown _ _
  | .packageNumberWrite _ _ => packageNumberWrite _ _
  | .linkTraining _ _ _ _ => linkTraining _ _ _ _
  | .moduleReset _ => moduleReset _
  | .firmwareFetchRetry _ _ => firmwareFetchRetry _ _
  | .attestationRequest _ _ => attestationRequest _ _
  | .stackFailure _ _ => stackFailure _ _
  | .ochreCoreFault _ _ _ => ochreCoreFault _ _ _
  | .flitRoute _ _ => flitRoute _ _
  | .flitEject _ _ => flitEject _ _
  | .packetDeliver _ _ _ _ => packetDeliver _ _ _ _
  | .deliveryCredit _ _ _ _ => deliveryCredit _ _ _ _
  | .linkFrameReceive _ _ => linkFrameReceive _ _
  | .linkDown _ _ => linkDown _ _
  | .pathFailed _ _ => pathFailed _ _
  | .accessTimeout _ => accessTimeout _
  | .vsPacketArrive _ _ => vsPacketArrive _ _
  | .vsCredit _ _ _ => vsCredit _ _ _
  | .gangQuery _ _ => gangQuery _ _
  | .gangPause _ _ => gangPause _ _
  | .gangDrainComplete _ _ => gangDrainComplete _ _
  | .gangStopTimeout _ _ => gangStopTimeout _ _
  | .gangResume _ _ => gangResume _ _
  | .migrationCommandTake _ => migrationCommandTake _
  | .move _ _ => move _ _
  | .dup _ _ => dup _ _
  | .collapse _ _ => collapse _ _
  | .reclaim _ _ => reclaim _ _
  | .migrationCutover _ _ => migrationCutover _ _
  | .migrationCommandComplete _ _ => migrationCommandComplete _ _
  | .stubRelay _ _ => stubRelay _ _
  | .relayAck _ _ _ => relayAck _ _ _
  | .walkReturn _ _ => walkReturn _ _
  | .redirect _ _ _ => redirect _ _ _
  | .stubQuietExpiry _ _ _ => stubQuietExpiry _ _ _
  | .purge _ _ _ _ => purge _ _ _ _
  | .purgeAck _ _ _ _ => purgeAck _ _ _ _
  | .collapseInvalidate _ _ _ => collapseInvalidate _ _ _
  | .collapseAck _ _ _ => collapseAck _ _ _
  | .illegalInstr _ => illegalInstr _
  | .reservedField _ => reservedField _
  | .faultQueueTailAdvance _ _ _ => faultQueueTailAdvance _ _ _
  | .keyLoad _ _ _ _ _ => keyLoad _ _ _ _ _
  | .hostPortUp _ _ => hostPortUp _ _
  | .portDieFailure _ _ => portDieFailure _ _
  | .engineRestore _ _ => engineRestore _ _
  | .partitionConfigure _ _ _ => partitionConfigure _ _ _
  | .errorCounterClear _ => errorCounterClear _

/-- Settles O1, from the lemma of the instruction's row. -/
theorem decodeEncode : Obligations.DecodeEncode := by
  unfold Obligations.DecodeEncode
  intro i lone w henc hwf
  have h := statement_of_instr i lone
  rw [henc] at h
  obtain ⟨hlt, hbit, hdec⟩ := h
  exact ⟨hlt, hbit, hdec hwf⟩

/-! ### From a word to an instruction -/

/-- Where a decoder answers an instruction, it is well formed. -/
def Reads (lone : Bool) (r : Except DecodeError Instr) : Prop := ∀ i, r = .ok i → i.wf lone = true

/-- No offending field is found only where every field passes. -/
theorem all_pass_of_worst {bad : List (Nat × Nat × Bool)} (h : worst bad = none) :
    ∀ e ∈ bad, e.2.2 = false := by
  induction bad with
  | nil => simp
  | cons e es ih =>
    obtain ⟨hi, lo, b⟩ := e
    cases b with
    | false => simpa using ih h
    | true =>
      unfold worst at h
      split at h
      case h_1 => contradiction
      case h_2 => cases h
      case h_3 => split at h <;> cases h

section
variable {lone : Bool} {bad : List (Nat × Nat × Bool)} {i : Instr}

/-- A decoder is right when the fields that pass make its instruction well formed. -/
theorem reads_checked (h : (∀ e ∈ bad, e.2.2 = false) → i.wf lone = true) : Reads lone (checked bad i) := by
  intro j hj
  unfold checked at hj
  split at hj
  · exact Except.ok.inj hj ▸ h (all_pass_of_worst ‹_›)
  · cases hj

/-- An instruction without reserved operands. -/
theorem reads_free (h : i.wf lone = true) : Reads lone (checked bad i) := reads_checked fun _ => h

end

theorem reads_error {lone : Bool} {e : DecodeError} : Reads lone (.error e) := fun _ h => by cases h

/-! ### Fields of few bits -/

theorem bits_lt (w hi lo : Nat) : bits w hi lo < 2 ^ (hi + 1 - lo) := Nat.mod_lt _ (Nat.two_pow_pos _)

theorem toNat_bits {n x : Nat} (h : x < 2 ^ n) : (BitVec.ofNat n x).toNat = x :=
  (BitVec.toNat_ofNat ..).trans (Nat.mod_eq_of_lt h)

/-- The two bits RL and AQ are read as one field by the check and one by one by the decoder. -/
theorem bits_one_zero_eq_zero (w : Nat) : (bits w 1 0 == 0) = (!(bits w 1 1 == 1) && !(bits w 0 0 == 1)) := by
  unfold bits
  rw [Bool.eq_iff_iff]
  simp
  omega

theorem scope_ofCode_eq_none {x : Nat} (hx : x < 8) (h7 : x ≠ 7) : (Scope.ofCode x == .none) = (x == 0) := by
  interval_cases x <;> simp_all [Scope.ofCode]

theorem scope_ofCode_ne_none {x : Nat} (hx : x < 8) (h0 : x ≠ 0) (h7 : x ≠ 7) : Scope.ofCode x ≠ .none := by
  interval_cases x <;> simp_all [Scope.ofCode]

theorem scope_ofCode_wide {x : Nat} (h3 : 3 ≤ x) (h5 : x ≤ 5) :
    Scope.ofCode x = .die ∨ Scope.ofCode x = .pkg ∨ Scope.ofCode x = .ten := by
  interval_cases x <;> decide

theorem scope_ofCode_cluster {x : Nat} (h2 : 2 ≤ x) (h5 : x ≤ 5) :
    Scope.ofCode x = .clu ∨ Scope.ofCode x = .die ∨ Scope.ofCode x = .pkg ∨ Scope.ofCode x = .ten := by
  interval_cases x <;> decide

theorem width_ofCode_word {x : Nat} (hx : x < 4) (h : 2 ≤ x) : Width.ofCode x = .w ∨ Width.ofCode x = .d := by
  interval_cases x <;> decide

/-- A test on a type field is the test of the type it names, and fails where it names none. -/
theorem etTest_eq {p : EType → Bool} {x : Nat} (h : etTest p x = true) : p (etOf' x) = true := by
  unfold etTest at h
  unfold etOf'
  split at h
  · cases h
  · rename_i hx
    rw [hx]
    exact h

theorem etInt_eq {x : Nat} (h : etAny x = true) : etInt x = (etOf' x).isInt := by
  unfold etAny etTest at h
  unfold etInt etTest etOf'
  split at h
  · cases h
  · rename_i hx
    rw [hx]
    rfl

theorem width_ofCode_two {x : Nat} (h : x = 2) : Width.ofCode x = .w := by rw [h]; rfl

/-- A rounding field of 0 is round to nearest, as an integer operation must write it. -/
theorem rounding_ofCode_zero {x : Nat} (h : x = 0) : Rounding.ofCode x = .rne := by rw [h]; rfl

theorem floatFmt_ofCode_zero {x : Nat} (h : x = 0) : FloatFmt.ofCode x = .f32 := by rw [h]; rfl

theorem vecFmt_ofCode_ne_own {x : Nat} (h : x < 3) : VecFmt.ofCode x ≠ .own := by
  interval_cases x <;> decide

theorem vCond_ofCode_ne_un {x : Nat} (h : x < 6) : VCond.ofCode x ≠ .un := by
  interval_cases x <;> decide

/-! ### The instructions with reserved operands -/

section
variable (lone : Bool) (w : Nat)

theorem reads_loop : Reads lone (dec_loop lone w) := reads_checked fun h => by
  have hlt := h (12, 0, bits w 12 0 < (if lone then 2 else 3)) (by simp)
  simpa [Instr.wf, toNat_bits (bits_lt w 12 0)] using hlt

/-- The scope of LDAQ and STRL, and of a fence, is a scope. -/
theorem scope_ne_none_of_pass {x : Nat} (hx : x < 2 ^ 3) (h : (decide (x = 0) || decide (x = 7)) = false) :
    decide (Scope.ofCode x ≠ .none) = true := by
  simp only [Bool.or_eq_false_iff, decide_eq_false_iff_not] at h
  exact decide_eq_true (scope_ofCode_ne_none hx h.1 h.2)

theorem reads_ldaq : Reads lone (dec_ldaq w) := reads_checked fun h =>
  scope_ne_none_of_pass (bits_lt w 2 0) (h _ (.head _))

theorem reads_strl : Reads lone (dec_strl w) := reads_checked fun h =>
  scope_ne_none_of_pass (bits_lt w 2 0) (h _ (.head _))

theorem reads_fence : Reads lone (dec_fence w) := reads_checked fun h =>
  scope_ne_none_of_pass (bits_lt w 5 3) (h _ (.head _))

theorem reads_acq : Reads lone (dec_acq w) := reads_checked fun h =>
  scope_ne_none_of_pass (bits_lt w 5 3) (h _ (.head _))

theorem reads_rel : Reads lone (dec_rel w) := reads_checked fun h =>
  scope_ne_none_of_pass (bits_lt w 5 3) (h _ (.head _))

theorem reads_vstf : Reads lone (dec_vstf w) := reads_checked fun h => by
  have hty := h (2, 0, 3 ≤ bits w 2 0) (by simp)
  simp only [decide_eq_false_iff_not, Nat.not_le] at hty
  exact decide_eq_true (vecFmt_ofCode_ne_own hty)

/-- An atomic has a scope exactly where it acquires or releases. -/
theorem scope_pass_atomic
    (h : (decide (bits w 5 3 = 7) || ((bits w 5 3 == 0) != (bits w 1 0 == 0))) = false) :
    ((Scope.ofCode (bits w 5 3) == .none) == (!(bits w 1 1 == 1) && !(bits w 0 0 == 1))) = true := by
  simp only [Bool.or_eq_false_iff, decide_eq_false_iff_not, bne_eq_false_iff_eq] at h
  rw [scope_ofCode_eq_none (bits_lt w 5 3) h.1, h.2, bits_one_zero_eq_zero]
  exact beq_self_eq_true _

/-- The integer atomics work on words of 4 and 8 bytes. -/
theorem width_pass_atomic (h : decide (bits w 7 6 < 2) = false) :
    decide (Width.ofCode (bits w 7 6) = .w ∨ Width.ofCode (bits w 7 6) = .d) = true :=
  decide_eq_true (width_ofCode_word (bits_lt w 7 6) (by simpa [Nat.succ_le_iff] using h))

/-- An atomic on integers, which differ in their opcode alone. -/
theorem reads_amo {f : Width → Scope → Bool → Bool → Instr}
    (hf : ∀ wid sc rl aq, (f wid sc rl aq).wf lone
      = (decide (wid = .w ∨ wid = .d) && ((sc == .none) == (!rl && !aq)))) :
    Reads lone (checked
      [(7, 6, bits w 7 6 < 2), (5, 3, bits w 5 3 = 7 || ((bits w 5 3 == 0) != (bits w 1 0 == 0)))]
      (f (Width.ofCode (bits w 7 6)) (Scope.ofCode (bits w 5 3)) (bits w 1 1 == 1) (bits w 0 0 == 1))) :=
  reads_checked fun h => by
    rw [hf, width_pass_atomic w (h _ (.head _)), scope_pass_atomic w (h _ (.tail _ (.head _)))]
    rfl

/-- An atomic on floats, which has 4 bytes. -/
theorem reads_amoFloat {f : Width → Scope → Bool → Bool → Instr}
    (hf : ∀ wid sc rl aq, (f wid sc rl aq).wf lone = (decide (wid = .w) && ((sc == .none) == (!rl && !aq)))) :
    Reads lone (checked
      [(7, 6, bits w 7 6 ≠ 2), (5, 3, bits w 5 3 = 7 || ((bits w 5 3 == 0) != (bits w 1 0 == 0)))]
      (f (Width.ofCode (bits w 7 6)) (Scope.ofCode (bits w 5 3)) (bits w 1 1 == 1) (bits w 0 0 == 1))) :=
  reads_checked fun h => by
    have hw : Width.ofCode (bits w 7 6) = .w := width_ofCode_two (by simpa using h _ (.head _))
    rw [hf, hw, scope_pass_atomic w (h _ (.tail _ (.head _)))]
    rfl

theorem reads_waitw : Reads lone (dec_waitw w) := reads_checked fun h => width_pass_atomic w (h _ (.head _))

theorem reads_sbind : Reads lone (dec_sbind w) := reads_checked fun h => by
  have hd := h (22, 18, bits w 22 18 < 12 || 16 ≤ bits w 22 18) (by simp)
  simp only [Bool.or_eq_false_iff, decide_eq_false_iff_not] at hd
  have hv : (Fin.ofNat 16 (bits w 22 18)).val = bits w 22 18 := Nat.mod_eq_of_lt (by omega)
  exact decide_eq_true (hv.symm ▸ Nat.not_lt.mp hd.1)

/-- A CSR number that is assigned. -/
theorem csr_pass (h : (!csrAssigned (bits w 11 0)) = false) :
    csrAssigned (BitVec.ofNat 12 (bits w 11 0)).toNat = true := by
  rw [toNat_bits (bits_lt w 11 0)]
  simpa using h

theorem reads_csrr : Reads lone (dec_csrr w) := reads_checked fun h => csr_pass w (h _ (.head _))
theorem reads_csrw : Reads lone (dec_csrw w) := reads_checked fun h => csr_pass w (h _ (.head _))
theorem reads_csrx : Reads lone (dec_csrx w) := reads_checked fun h => csr_pass w (h _ (.head _))

theorem reads_trap : Reads lone (dec_trap lone w) := reads_checked fun h => by
  simpa [Instr.wf] using h (31, 31, !lone) (by simp)

theorem reads_eret : Reads lone (dec_eret lone w) := reads_checked fun h => by
  simpa [Instr.wf] using h (31, 31, !lone) (by simp)

/-- The scope of PLBINV is a die, a package or the tenant. -/
theorem scope_pass_plbinv (h : (decide (bits w 5 3 < 3) || decide (5 < bits w 5 3)) = false) :
    decide (Scope.ofCode (bits w 5 3) = .die ∨ Scope.ofCode (bits w 5 3) = .pkg ∨ Scope.ofCode (bits w 5 3) = .ten)
      = true := by
  simp only [Bool.or_eq_false_iff, decide_eq_false_iff_not, Nat.not_lt] at h
  exact decide_eq_true (scope_ofCode_wide h.1 h.2)

theorem reads_plbinvPage : Reads lone (dec_plbinvPage w) := reads_checked fun h => scope_pass_plbinv w (h _ (.head _))
theorem reads_plbinvDom : Reads lone (dec_plbinvDom w) := reads_checked fun h => scope_pass_plbinv w (h _ (.head _))
theorem reads_plbinvVf : Reads lone (dec_plbinvVf w) := reads_checked fun h => scope_pass_plbinv w (h _ (.head _))

/-- CFLUSH of code where OP is none of the other two: it is 0, as values above 2 offend. -/
theorem reads_cflushCode (h1 : bits w 2 0 ≠ 1) (h2 : bits w 2 0 ≠ 2) : Reads lone (dec_cflushCode w) :=
  reads_checked fun h => by
    have hop := h (2, 0, 3 ≤ bits w 2 0) (by simp)
    simp only [decide_eq_false_iff_not, Nat.not_le] at hop
    have hsc := h _ (.head _)
    simp only [show bits w 2 0 = 0 by omega, if_true, Bool.or_eq_false_iff, decide_eq_false_iff_not, Nat.not_lt] at hsc
    exact decide_eq_true (scope_ofCode_cluster (by simpa using hsc.1) (by simpa using hsc.2))

end

section
variable (lone : Bool) (w : Nat)

/-- The rounding of an operation on integers is round to nearest. -/
theorem rounding_pass {isInt : Bool} (h : (isInt && decide (bits w 4 3 ≠ 0)) = false) :
    (!isInt || decide (Rounding.ofCode (bits w 4 3) = .rne)) = true := by
  cases isInt
  · rfl
  · exact decide_eq_true (rounding_ofCode_zero (by simpa using h))

theorem any_of_test {p : EType → Bool} {x : Nat} (h : etTest p x = true) : etAny x = true := by
  unfold etTest at h
  unfold etAny etTest
  split at h
  · cases h
  · rfl

/-- The check of VADD, VSUB, VMUL and VFMA on the type and the rounding. -/
theorem arithmetic_pass (h1 : (!etIntWf (bits w 8 5)) = false)
    (h2 : (etCodeIsInt w && decide (bits w 4 3 ≠ 0)) = false) :
    (((etOf' (bits w 8 5)).isInt || (etOf' (bits w 8 5)).isWF)
      && (!(etOf' (bits w 8 5)).isInt || decide (Rounding.ofCode (bits w 4 3) = .rne))) = true := by
  have h1' : etIntWf (bits w 8 5) = true := by simpa using h1
  have hty : ((etOf' (bits w 8 5)).isInt || (etOf' (bits w 8 5)).isWF) = true := etTest_eq h1'
  rw [etCodeIsInt, etInt_eq (any_of_test h1')] at h2
  rw [hty, rounding_pass w h2]
  rfl

/-- SAT is a bit of the integer types. -/
theorem saturation_pass (h1 : (!etIntWf (bits w 8 5)) = false)
    (h2 : (!etCodeIsInt w && decide (bits w 0 0 ≠ 0)) = false) :
    ((etOf' (bits w 8 5)).isInt || !(bits w 0 0 == 1)) = true := by
  have h1' : etIntWf (bits w 8 5) = true := by simpa using h1
  rw [etCodeIsInt, etInt_eq (any_of_test h1')] at h2
  cases hi : (etOf' (bits w 8 5)).isInt
  · have h0 : bits w 0 0 = 0 := by simpa [hi] using h2
    simp [h0]
  · rfl

theorem reads_vadd : Reads lone (dec_vadd w) := reads_checked fun h => by
  have hty := h _ (.head _)
  exact Bool.and_eq_true_iff.mpr ⟨arithmetic_pass w hty (h _ (.tail _ (.tail _ (.head _)))),
    saturation_pass w hty (h _ (.tail _ (.tail _ (.tail _ (.head _)))))⟩

theorem reads_vsub : Reads lone (dec_vsub w) := reads_checked fun h => by
  have hty := h _ (.head _)
  exact Bool.and_eq_true_iff.mpr ⟨arithmetic_pass w hty (h _ (.tail _ (.tail _ (.head _)))),
    saturation_pass w hty (h _ (.tail _ (.tail _ (.tail _ (.head _)))))⟩

theorem reads_vmul : Reads lone (dec_vmul w) := reads_checked fun h =>
  arithmetic_pass w (h _ (.head _)) (h _ (.tail _ (.tail _ (.head _))))

theorem reads_vfma : Reads lone (dec_vfma w) := reads_checked fun h =>
  arithmetic_pass w (h _ (.head _)) (h _ (.tail _ (.tail _ (.head _))))

/-- A type that passes its test. -/
theorem type_pass {p : EType → Bool} {x : Nat} (h : (!etTest p x) = false) : p (etOf' x) = true :=
  etTest_eq (by simpa using h)

theorem reads_vmax : Reads lone (dec_vmax w) := reads_checked fun h => type_pass (h _ (.head _))
theorem reads_vmin : Reads lone (dec_vmin w) := reads_checked fun h => type_pass (h _ (.head _))
theorem reads_vshl : Reads lone (dec_vshl w) := reads_checked fun h => type_pass (h _ (.head _))
theorem reads_vshr : Reads lone (dec_vshr w) := reads_checked fun h => type_pass (h _ (.head _))
theorem reads_vredmax : Reads lone (dec_vredmax w) := reads_checked fun h => type_pass (h _ (.head _))
theorem reads_vrcp : Reads lone (dec_vrcp w) := reads_checked fun h => type_pass (h _ (.head _))
theorem reads_vperm : Reads lone (dec_vperm w) := reads_checked fun h => type_pass (h _ (.head _))
theorem reads_vtopk : Reads lone (dec_vtopk w) := reads_checked fun h => type_pass (h _ (.head _))

/-- UN is a condition of the floating types. -/
theorem reads_vcmp : Reads lone (dec_vcmp w) := reads_checked fun h => by
  have h1 : etIntWf (bits w 8 5) = true := by simpa using h _ (.head _)
  have hty : ((etOf' (bits w 8 5)).isInt || (etOf' (bits w 8 5)).isWF) = true := etTest_eq h1
  have hc := h _ (.tail _ (.tail _ (.tail _ (.head _))))
  rw [etCodeIsInt, etInt_eq (any_of_test h1)] at hc
  refine Bool.and_eq_true_iff.mpr ⟨hty, ?_⟩
  cases hi : (etOf' (bits w 8 5)).isInt
  · have hwf : (etOf' (bits w 8 5)).isWF = true := by simpa [hi] using hty
    simp [hwf]
  · have hlt := bits_lt w 2 0
    have hne : bits w 2 0 ≠ 7 ∧ bits w 2 0 ≠ 6 := by simpa [hi] using hc
    have hun : VCond.ofCode (bits w 2 0) ≠ .un := vCond_ofCode_ne_un (by omega)
    simp [hun]

theorem reads_vsel : Reads lone (dec_vsel w) := reads_checked fun h => by
  have hk : bits w 10 9 ≠ 0 := by simpa using h _ (.tail _ (.tail _ (.head _)))
  have hlt := bits_lt w 10 9
  have hv : (Fin.ofNat 4 (bits w 10 9)).val = bits w 10 9 := Nat.mod_eq_of_lt hlt
  exact decide_eq_true fun h0 => hk (hv ▸ congrArg Fin.val h0)

/-- The accumulator of an integer sum is not a field of its own. -/
theorem accumulator_pass (h1 : etAny (bits w 8 5) = true) (h2 : (etCodeIsInt w && decide (bits w 1 0 ≠ 0)) = false) :
    (!(etOf' (bits w 8 5)).isInt || decide (FloatFmt.ofCode (bits w 1 0) = .f32)) = true := by
  rw [etCodeIsInt, etInt_eq h1] at h2
  cases hi : (etOf' (bits w 8 5)).isInt
  · rfl
  · exact decide_eq_true (floatFmt_ofCode_zero (by simpa [hi] using h2))

theorem reads_vredsum : Reads lone (dec_vredsum w) := reads_checked fun h =>
  accumulator_pass w (by simpa using h _ (.head _)) (h _ (.tail _ (.tail _ (.tail _ (.head _)))))

theorem reads_vdot : Reads lone (dec_vdot w) := reads_checked fun h => by
  have hty := h _ (.head _)
  have hany : etAny (bits w 8 5) = true := any_of_test (show etDot (bits w 8 5) = true by simpa using hty)
  exact Bool.and_eq_true_iff.mpr ⟨type_pass hty,
    accumulator_pass w hany (h _ (.tail _ (.tail _ (.tail _ (.head _)))))⟩

theorem reads_vcvt : Reads lone (dec_vcvt w) := reads_checked fun h => by
  have hd : etDstOk w = true := by
    have := h _ (.head _)
    unfold etDstOk etAny etTest
    cases hx : EType.ofCode? (etSwap (bits w 14 11)) <;> simp [hx] at this ⊢
  have hs : etSrcOk w = true := by simpa [etSrcOk] using h _ (.tail _ (.head _))
  have hr := h _ (.tail _ (.tail _ (.head _)))
  have hp := h _ (.tail _ (.tail _ (.tail _ (.head _))))
  rw [etCodeIsInt, etDstIsInt, etInt_eq hs, etInt_eq hd] at hr
  simp only [hs, hd, Bool.true_and, decide_eq_false_iff_not, Nat.not_le] at hp
  refine Bool.and_eq_true_iff.mpr ⟨rounding_pass w hr, decide_eq_true ?_⟩
  rw [toNat_bits (bits_lt w 2 0)]
  exact hp

theorem reads_mjoin : Reads lone (dec_mjoin w) := reads_checked fun h => by
  have hm : bits w 3 0 ≠ 0 := by simpa using h (3, 0, bits w 3 0 = 0) (by simp)
  exact decide_eq_true fun h0 => hm ((toNat_bits (bits_lt w 3 0)).symm.trans (congrArg BitVec.toNat h0))

end

/-! ### The decoder -/

theorem reads_decodeC (lone : Bool) (op w : Nat) : Reads lone (decodeC lone op w) := by
  unfold decodeC
  split
  case h_13 => exact reads_loop lone w
  case h_28 => exact reads_ldaq lone w
  case h_29 => exact reads_strl lone w
  case h_38 => exact reads_vstf lone w
  case h_41 => exact reads_amo lone w (f := fun wid sc rl aq => .amoadd _ _ _ wid sc _ rl aq) fun _ _ _ _ => rfl
  case h_42 => exact reads_amo lone w (f := fun wid sc rl aq => .amoand _ _ _ wid sc _ rl aq) fun _ _ _ _ => rfl
  case h_43 => exact reads_amo lone w (f := fun wid sc rl aq => .amoor _ _ _ wid sc _ rl aq) fun _ _ _ _ => rfl
  case h_44 => exact reads_amo lone w (f := fun wid sc rl aq => .amoxor _ _ _ wid sc _ rl aq) fun _ _ _ _ => rfl
  case h_45 => exact reads_amo lone w (f := fun wid sc rl aq => .amomin _ _ _ wid sc _ rl aq) fun _ _ _ _ => rfl
  case h_46 => exact reads_amo lone w (f := fun wid sc rl aq => .amomax _ _ _ wid sc _ rl aq) fun _ _ _ _ => rfl
  case h_47 => exact reads_amo lone w (f := fun wid sc rl aq => .amominu _ _ _ wid sc _ rl aq) fun _ _ _ _ => rfl
  case h_48 => exact reads_amo lone w (f := fun wid sc rl aq => .amomaxu _ _ _ wid sc _ rl aq) fun _ _ _ _ => rfl
  case h_49 => exact reads_amo lone w (f := fun wid sc rl aq => .amoswp _ _ _ wid sc _ rl aq) fun _ _ _ _ => rfl
  case h_50 => exact reads_amo lone w (f := fun wid sc rl aq => .amocas _ _ _ wid sc _ rl aq) fun _ _ _ _ => rfl
  case h_51 => exact reads_amoFloat lone w (f := fun wid sc rl aq => .amofadd _ _ _ wid sc _ rl aq) fun _ _ _ _ => rfl
  case h_52 => exact reads_amoFloat lone w (f := fun wid sc rl aq => .amofmax _ _ _ wid sc _ rl aq) fun _ _ _ _ => rfl
  case h_53 => exact reads_fence lone w
  case h_54 => exact reads_acq lone w
  case h_55 => exact reads_rel lone w
  case h_56 => exact reads_waitw lone w
  case h_64 => exact reads_sbind lone w
  case h_76 => split <;> exact reads_free rfl
  case h_95 => exact reads_csrr lone w
  case h_96 => exact reads_csrw lone w
  case h_97 => exact reads_csrx lone w
  case h_98 => exact reads_trap lone w
  case h_99 => exact reads_eret lone w
  case h_100 =>
    split
    · exact reads_plbinvDom lone w
    · split
      · exact reads_plbinvVf lone w
      · exact reads_plbinvPage lone w
  case h_101 =>
    split
    · exact reads_free rfl
    · split
      · exact reads_free rfl
      · exact reads_cflushCode lone w ‹_› ‹_›
  case h_105 => exact reads_error
  all_goals exact reads_free rfl

theorem reads_decodeA (lone : Bool) (op w : Nat) : Reads lone (decodeA lone op w) := by
  unfold decodeA
  split
  case h_49 => exact reads_vadd lone w
  case h_50 => exact reads_vsub lone w
  case h_51 => exact reads_vmul lone w
  case h_52 => exact reads_vfma lone w
  case h_53 => exact reads_vmax lone w
  case h_54 => exact reads_vmin lone w
  case h_58 => exact reads_vshl lone w
  case h_59 => exact reads_vshr lone w
  case h_60 => exact reads_vcmp lone w
  case h_61 => exact reads_vsel lone w
  case h_62 => exact reads_vcvt lone w
  case h_63 => exact reads_vredsum lone w
  case h_64 => exact reads_vredmax lone w
  case h_66 => exact reads_vrcp lone w
  case h_68 => exact reads_vperm lone w
  case h_71 => exact reads_vtopk lone w
  case h_72 => exact reads_vdot lone w
  case h_84 => exact reads_mjoin lone w
  case h_89 => exact reads_error
  all_goals exact reads_free rfl

/-- Settles O2: the word goes to one of the two classes, and there to the decoder of its opcode. -/
theorem decoderWellFormed : Obligations.DecoderWellFormed := by
  unfold Obligations.DecoderWellFormed
  intro lone w i h
  unfold decodeWord at h
  split at h
  · exact reads_decodeC lone _ w i h
  · exact reads_decodeA lone _ w i h

/-- Settles O3: the words are evaluated one by one. -/
theorem decodeWords : Obligations.DecodeWords := by
  unfold Obligations.DecodeWords
  decide

end Sys2Proof.Proofs.Encoding
end

section
/-! SUPPORT. How a meaning runs, step by step, and how the way it ends settles `Completes`, `Raises` and `Waits`. -/

namespace Sys2Proof.Proofs.Running

open Sys2Proof Sys2Proof.Machine Sys2Proof.Laws

/-! ### One step of a meaning after another -/

section
variable {α β : Type} {m : Act α} {f : α → Act β} {s t : State} {x : α} {r : Res}

theorem bind_of_ok (h : m s = .ok (x, t)) : (m >>= f) s = f x t :=
  ControlTransfer.act_bind_of_ok h

/-- A meaning that ends early does not reach the rest. -/
theorem bind_of_error (h : m s = .error r) : (m >>= f) s = .error r := by
  change Except.bind (m s) (fun z => f z.1 z.2) = _
  rw [h]
  rfl

theorem res_of_ok {m : Act Unit} (h : m s = .ok ((), t)) : Act.res m s = .done t := by
  rw [Act.res, h]

theorem res_of_error {m : Act Unit} (h : m s = .error r) : Act.res m s = r := by
  rw [Act.res, h]

end

/-! ### How an instruction ends -/

section
variable {i : Instr} {s u : State} {m : Act Unit} {c : Cause} {a n : Nat}

/-- An instruction whose meaning runs to its end completes. -/
theorem completes_of_ok (h : exec i s = finish s (Act.res m s)) (hm : m s = .ok ((), u)) : Completes i s u :=
  completes_of_done (h.trans (congrArg (finish s) (res_of_ok hm)))

/-- An instruction whose meaning stops with a cause raises it. -/
theorem raises_of_error (h : exec i s = finish s (Act.res m s)) (hm : m s = .error (.trap c a n)) :
    Raises i s c a n :=
  raises_of_trap (h.trans (congrArg (finish s) (res_of_error hm)))

end

/-! ### Supervisor mode -/

theorem needSuper_super {s : State} {op : Nat} (h : s.super = true) : needSuper op s = .ok ((), s) := if_pos h

theorem needSuper_user {s : State} {op : Nat} (h : s.super = false) :
    needSuper op s = .error (.trap .priv (wordAddr s) (halfBit s + op)) :=
  if_neg (by rw [h]; exact Bool.false_ne_true)

/-- An instruction that asks for supervisor mode first raises PRIV in user mode, whatever it would do then. -/
theorem raises_priv {i : Instr} {s : State} {op : Nat} {m : Unit → Act Unit} (hu : s.super = false)
    (h : exec i s = finish s (Act.res (needSuper op >>= m) s)) :
    Raises i s .priv (wordAddr s) (halfBit s + op) :=
  raises_of_error h (bind_of_error (needSuper_user hu))

end Sys2Proof.Proofs.Running
end

section
/-! SUPPORT. Fields of words (R4): what a field reads after a field is written. -/

namespace Sys2Proof.Proofs.Fields

open Sys2Proof Sys2Proof.Machine

/-- A field written, as a sum of what stands above it, the value, and what stands below it. -/
theorem putBits_eq (x hi lo v : Nat) :
    putBits x hi lo v
      = 2 ^ lo * (2 ^ (hi + 1 - lo) * (x / 2 ^ (lo + (hi + 1 - lo))) + v % 2 ^ (hi + 1 - lo)) + x % 2 ^ lo := by
  have h1 := Nat.div_add_mod x (2 ^ lo)
  have h2 := Nat.div_add_mod (x / 2 ^ lo) (2 ^ (hi + 1 - lo))
  rw [Nat.div_div_eq_div_mul, ← pow_add] at h2
  rw [putBits]
  generalize hm : x / 2 ^ lo % 2 ^ (hi + 1 - lo) = m at *
  generalize x / 2 ^ (lo + (hi + 1 - lo)) = q at *
  have hx : x = 2 ^ lo * (2 ^ (hi + 1 - lo) * q) + m * 2 ^ lo + x % 2 ^ lo := by
    conv_lhs => rw [← h1, ← h2]
    ring
  rw [Nat.mul_add]
  have := Nat.mul_comm (v % 2 ^ (hi + 1 - lo)) (2 ^ lo)
  omega

/-- Bit `i` of a word after a field is written: the value's bit inside the field, the old one outside. -/
theorem testBit_putBits (x hi lo v i : Nat) :
    (putBits x hi lo v).testBit i
      = if lo ≤ i ∧ i < lo + (hi + 1 - lo) then v.testBit (i - lo) else x.testBit i := by
  rw [putBits_eq, Nat.testBit_two_pow_mul_add _ (Nat.mod_lt _ (Nat.two_pow_pos _))]
  by_cases hl : i < lo
  · rw [if_pos hl, if_neg (by omega), Nat.testBit_mod_two_pow, decide_eq_true hl, Bool.true_and]
  · rw [if_neg hl, Nat.testBit_two_pow_mul_add _ (Nat.mod_lt _ (Nat.two_pow_pos _))]
    by_cases hk : i - lo < hi + 1 - lo
    · rw [if_pos hk, if_pos (by omega), Nat.testBit_mod_two_pow, decide_eq_true hk, Bool.true_and]
    · rw [if_neg hk, if_neg (by omega), Nat.testBit_div_two_pow]
      congr 1
      omega

/-- A field of a word is given by its bits. -/
theorem testBit_bits (x hi lo i : Nat) :
    (bits x hi lo).testBit i = (decide (i < hi + 1 - lo) && x.testBit (lo + i)) := by
  rw [bits, Nat.testBit_mod_two_pow, Nat.testBit_div_two_pow, Nat.add_comm i lo]

theorem testBit_fld_setFld (w : Word) (hi lo v h l i : Nat) (hh : h < 64) :
    (fld (setFld w hi lo v) h l).testBit i
      = (decide (i < h + 1 - l) &&
          if lo ≤ l + i ∧ l + i < lo + (hi + 1 - lo) then v.testBit (l + i - lo) else w.toNat.testBit (l + i)) := by
  rw [fld, testBit_bits, setFld, BitVec.toNat_ofNat, Nat.testBit_mod_two_pow, testBit_putBits]
  by_cases hi' : i < h + 1 - l
  · have : l + i < 64 := by omega
    simp [hi', this]
  · simp [hi']

/-- A field written reads as its value. -/
theorem fld_setFld_same (w : Word) (hi lo v : Nat) (h : hi < 64) :
    fld (setFld w hi lo v) hi lo = v % 2 ^ (hi + 1 - lo) := by
  refine Nat.eq_of_testBit_eq fun i => ?_
  rw [testBit_fld_setFld _ _ _ _ _ _ _ h, Nat.testBit_mod_two_pow]
  by_cases hi' : i < hi + 1 - lo <;> simp [hi']

/-- A field beside the one written reads as before. -/
theorem fld_setFld_other (w : Word) (hi lo v h l : Nat) (hh : h < 64) (hd : h < lo ∨ lo + (hi + 1 - lo) ≤ l) :
    fld (setFld w hi lo v) h l = fld w h l := by
  refine Nat.eq_of_testBit_eq fun i => ?_
  rw [testBit_fld_setFld _ _ _ _ _ _ _ hh, fld, testBit_bits]
  by_cases hi' : i < h + 1 - l
  · rw [if_neg (by omega)]
  · simp [hi']

end Sys2Proof.Proofs.Fields
end

section
/-! SUPPORT. Registers and the register-to-register instructions (R82, R110, R111, R117-R122). -/

namespace Sys2Proof.Proofs.Registers

open Sys2Proof Sys2Proof.Machine Sys2Proof.Laws Sys2Proof.Proofs.Integer Sys2Proof.Proofs.Fields

/-! ### Register writes (R82, R87) -/

theorem wg_of_ne {s : State} {d : GReg} {v : Word} (h : d ≠ 0) :
    wg s d v = s.modMe fun x => { x with g := x.g.set d v } := if_neg h

theorem wg_zero (s : State) (v : Word) : wg s 0 v = s := if_pos rfl

theorem wg_me_g_of_ne (s : State) {d : GReg} (h : d ≠ 0) (v : Word) : (wg s d v).me.g = s.me.g.set d v := by
  rw [wg_me, if_neg h]

theorem wg_me_g_other (s : State) {d r : GReg} (v : Word) (h : r ≠ d) : (wg s d v).me.g[r] = s.me.g[r] := by
  rw [wg_me]
  split
  · rfl
  · exact Vector.getElem_set_ne d.isLt r.isLt (fun e => h (Fin.ext e.symm))

theorem wg_me_rest (s : State) (d : GReg) (v : Word) : { (wg s d v).me with g := s.me.g } = s.me := by
  rw [wg_me]
  split <;> rfl

theorem wg_strands_other (s : State) (d : GReg) (v : Word) {k : Nat} (h : k ≠ s.cur.key) :
    fget Strand.empty (wg s d v).strands k = fget Strand.empty s.strands k := by
  unfold wg
  split
  · rfl
  · exact fget_fset_other _ _ _ _ _ h

theorem wg_rest (s : State) (d : GReg) (v : Word) : { wg s d v with strands := s.strands } = s := by
  unfold wg
  split <;> rfl

theorem wk_me (s : State) (r : KReg) (v : BitVec 32) : (wk s r v).me = setVused { s.me with k := s.me.k.set r v } :=
  modMe_me ..

theorem putV_me (s : State) (r : VReg) (v : Vec) : (putV r v s).me = setVused { s.me with v := s.me.v.set r v } :=
  modMe_me ..

/-- Settles O10: a write is an update of one entry of one strand's register file. -/
theorem registerWrites : Obligations.RegisterWrites := by
  unfold Obligations.RegisterWrites
  refine ⟨fun s d v => ?general, fun s => ⟨fun r v => ?mask, fun r v => ?vector⟩⟩
  case general =>
    refine ⟨rfl, wg_zero s v, fun h => ?_, fun r h => wg_me_g_other s v h, wg_me_rest s d v,
      fun k h => wg_strands_other s d v h, wg_rest s d v⟩
    simp [wg_me_g_of_ne s h]
  case mask =>
    rw [wk_me]
    exact ⟨Vector.getElem_set_self _, fun j h => Vector.getElem_set_ne r.isLt j.isLt (fun e => h (Fin.ext e.symm)), rfl, rfl, rfl⟩
  case vector =>
    rw [putV_me]
    exact ⟨Vector.getElem_set_self _, fun j h => Vector.getElem_set_ne r.isLt j.isLt (fun e => h (Fin.ext e.symm)), rfl, rfl, rfl⟩

/-! ### Shifts and LIMM (R111, R117) -/

theorem shlValue_eq (x : Word) (n : Nat) : shlValue x n = word (x.toNat * 2 ^ n) := by
  rw [shlValue, word, ← BitVec.toNat_inj, BitVec.toNat_shiftLeft, BitVec.toNat_ofNat, Nat.shiftLeft_eq]

theorem shrValue_eq (x : Word) (n : Nat) : shrValue x n = word (x.toNat / 2 ^ n) := by
  rw [shrValue, word, ← BitVec.toNat_inj, BitVec.toNat_ushiftRight, BitVec.toNat_ofNat, Nat.shiftRight_eq_div_pow]
  exact (Nat.mod_eq_of_lt (Nat.lt_of_le_of_lt (Nat.div_le_self ..) x.isLt)).symm

theorem sarValue_eq (x : Word) (n : Nat) : sarValue x n = BitVec.ofInt 64 (x.toInt / 2 ^ n) := by
  rw [sarValue, BitVec.sshiftRight, Int.shiftRight_eq_div_pow]
  norm_cast

theorem limmValue_zero (x : Word) (c : BitVec 16) : limmValue x 0 c = c.setWidth 64 := by
  rw [limmValue, if_pos rfl, word, ← BitVec.toNat_inj, BitVec.toNat_ofNat, BitVec.toNat_setWidth]

/-- LIMM of a lane other than the lowest writes that lane and keeps the bits around it. -/
theorem limmValue_lane (x : Word) {sel : BitVec 2} (h : sel ≠ 0) (c : BitVec 16) :
    (limmValue x sel c).extractLsb' (16 * sel.toNat) 16 = c ∧
      ∀ i, i < 64 → (i < 16 * sel.toNat ∨ 16 * sel.toNat + 16 ≤ i) → (limmValue x sel c).getLsbD i = x.getLsbD i := by
  have hs : sel.toNat < 4 := sel.isLt
  have bit : ∀ i, i < 64 → (limmValue x sel c).getLsbD i
      = if 16 * sel.toNat ≤ i ∧ i < 16 * sel.toNat + 16 then c.toNat.testBit (i - 16 * sel.toNat) else x.toNat.testBit i := by
    intro i hi
    rw [limmValue, if_neg h, setFld, BitVec.getLsbD_ofNat, decide_eq_true hi, Bool.true_and, testBit_putBits]
    congr 1
    rw [show 16 * sel.toNat + 15 + 1 - 16 * sel.toNat = 16 by omega]
  refine ⟨BitVec.eq_of_getLsbD_eq fun i hi => ?_, fun i hi hout => ?_⟩
  · rw [BitVec.getLsbD_extractLsb', decide_eq_true hi, Bool.true_and, bit _ (by omega), if_pos (by omega),
      Nat.add_sub_cancel_left]
    rfl
  · rw [bit i hi, if_neg (by omega)]
    rfl

/-- Settles O12: every instruction is one register write; the values of the shifts and of LIMM are put into the manual's
words. -/
theorem integerLogic : Obligations.IntegerLogic := by
  unfold Obligations.IntegerLogic
  intro d a b imm sh c s x n
  exact ⟨completes_writeG rfl, completes_writeG rfl, completes_writeG rfl, completes_writeG rfl, completes_writeG rfl,
    completes_writeG rfl, completes_writeG_eq rfl (shlValue_eq ..), completes_writeG_eq rfl (shrValue_eq ..),
    completes_writeG_eq rfl (sarValue_eq ..), completes_writeG_eq rfl (shlValue_eq ..),
    completes_writeG_eq rfl (shrValue_eq ..), completes_writeG_eq rfl (sarValue_eq ..),
    completes_writeG_eq rfl (limmValue_zero ..),
    fun sel h => ⟨_, completes_writeG rfl, limmValue_lane (rg s d) h c⟩⟩

/-! ### Fat pointers (R118-R122) -/

/-- A field that reaches the top of the word is what stands above its lowest bit. -/
theorem fld_top (x : Word) (lo : Nat) (h : lo ≤ 64) : fld x 63 lo = x.toNat / 2 ^ lo := by
  refine Nat.mod_eq_of_lt (Nat.div_lt_of_lt_mul ?_)
  rw [← pow_add, show lo + (63 + 1 - lo) = 64 by omega]
  exact x.isLt

theorem fld_low (x : Word) (hi : Nat) : fld x hi 0 = x.toNat % 2 ^ (hi + 1) := by
  rw [fld, bits, pow_zero, Nat.div_one, Nat.sub_zero]

theorem pfmtValue_eq (x y : Word) :
    word (fld y 7 0 * 2 ^ 56 + addrOf x) = word (y.toNat % 256 * 2 ^ 56 + x.toNat % 2 ^ 56) := by
  rw [fld_low]
  rfl

theorem pgetfValue_eq (x : Word) :
    pgetfValue 0 x = word (x.toNat / 2 ^ 56) ∧ pgetfValue 1 x = word (x.toNat / 2 ^ 60) ∧
      pgetfValue 2 x = word (x.toNat / 2 ^ 56 % 16) ∧ pgetfValue 3 x = word (x.toNat % 2 ^ 56) :=
  ⟨congrArg word (fld_top x 56 (by decide)), congrArg word (fld_top x 60 (by decide)), rfl,
    congrArg word (fld_low x 55)⟩

theorem ptrWith_toNat (x : Word) (low : Nat) : (ptrWith x low).toNat = x.toNat / 2 ^ 56 * 2 ^ 56 + low % 2 ^ 56 := by
  have hx := x.isLt
  rw [ptrWith_eq, word, BitVec.toNat_ofNat]
  omega

theorem ptrWith_low (x : Word) (low : Nat) : ((ptrWith x low).toNat % 2 ^ 56 : Int) = ((low % 2 ^ 56 : Nat) : Int) := by
  have h := ptrWith_toNat x low
  omega

theorem elemStep_whole {c k : Nat} (n : Int) (hb : fmtBad c k = false) (hc : c ∉ [6, 7, 8]) :
    elemStep c k n = n * (elemBits c / 8 : Nat) := by
  simp only [List.mem_cons, List.not_mem_nil, or_false, not_or] at hc
  obtain ⟨h6, h7, h8⟩ := hc
  rw [elemStep, if_neg (by rw [hb]; exact Bool.false_ne_true), if_neg h6, if_neg (by omega)]

/-- The address of the next elements is counted modulo the address space. -/
theorem addrAdd_mod (x : Nat) (n : Int) : ((addrAdd (x % 2 ^ 56) n % 2 ^ 56 : Nat) : Int) = (x + n) % 2 ^ 56 := by
  unfold addrAdd wrap
  omega

/-- Settles O14: every instruction is one register write; the fields of the pointer are put into the manual's words. -/
theorem pointerInstructions : Obligations.PointerInstructions := by
  unfold Obligations.PointerInstructions
  intro d a b imm s x
  obtain ⟨hformat, hcode, hscale, haddr⟩ := pgetfValue_eq (rg s a)
  refine ⟨completes_writeG_eq rfl (pfmtValue_eq ..), completes_writeG_eq rfl hformat, completes_writeG_eq rfl hcode,
    completes_writeG_eq rfl hscale, completes_writeG_eq rfl haddr,
    ⟨paddeValue (rg s a) (rg s b), completes_writeG rfl, ?format, fun hb hc => ?address⟩, completes_writeG rfl⟩
  case format =>
    rw [paddeValue, ptrWith_toNat]
    omega
  case address =>
    have hstep : elemStep (fld (rg s a) 63 60) (fld (rg s a) 59 56) (rg s b).toInt
        = (rg s b).toInt * (elemBits (x / 2 ^ 60) / 8 : Nat) := by
      have h60 : fld (rg s a) 63 60 = x / 2 ^ 60 := fld_top _ 60 (by decide)
      rw [h60]
      exact elemStep_whole _ hb hc
    have hlow := ptrWith_low (rg s a) (addrAdd (addrOf (rg s a)) ((rg s b).toInt * (elemBits (x / 2 ^ 60) / 8 : Nat)))
    rw [paddeValue, hstep, hlow]
    exact addrAdd_mod (rg s a).toNat _

end Sys2Proof.Proofs.Registers
end

section
/-! SUPPORT. Traps and changes of mode (R84, R92, R93, R97, R102, R103). -/

namespace Sys2Proof.Proofs.Traps

open Sys2Proof Sys2Proof.Machine Sys2Proof.Laws Sys2Proof.Proofs.Running Sys2Proof.Proofs.Fields

/-! ### ERET (R103) -/

/-- SSTAT after the return from a trap. -/
def returnStat (st : Word) : Word := setFld (setFld (setFld st 0 0 (fld st 3 3)) 1 1 (fld st 2 2)) 6 6 0

theorem fld_one_bit (w : Word) (i : Nat) : fld w i i % 2 ^ (i + 1 - i) = fld w i i := Nat.mod_mod _ _

theorem returnStat_fields (st : Word) :
    fld (returnStat st) 0 0 = fld st 3 3 ∧ fld (returnStat st) 1 1 = fld st 2 2 ∧ fld (returnStat st) 6 6 = 0 ∧
      fld (returnStat st) 5 2 = fld st 5 2 ∧ fld (returnStat st) 63 7 = fld st 63 7 := by
  unfold returnStat
  refine ⟨?_, ?_, ?_, ?_, ?_⟩
  · rw [fld_setFld_other _ _ _ _ _ _ (by decide) (by decide), fld_setFld_other _ _ _ _ _ _ (by decide) (by decide),
      fld_setFld_same _ _ _ _ (by decide)]
    exact Nat.mod_mod _ _
  · rw [fld_setFld_other _ _ _ _ _ _ (by decide) (by decide), fld_setFld_same _ _ _ _ (by decide)]
    exact Nat.mod_mod _ _
  · rw [fld_setFld_same _ _ _ _ (by decide)]
    rfl
  · rw [fld_setFld_other _ _ _ _ _ _ (by decide) (by decide), fld_setFld_other _ _ _ _ _ _ (by decide) (by decide),
      fld_setFld_other _ _ _ _ _ _ (by decide) (by decide)]
  · rw [fld_setFld_other _ _ _ _ _ _ (by decide) (by decide), fld_setFld_other _ _ _ _ _ _ (by decide) (by decide),
      fld_setFld_other _ _ _ _ _ _ (by decide) (by decide)]

theorem returnTrap_eq (s : State) :
    returnTrap s = jump (s.modCsr fun c => { c with sstat := returnStat c.sstat }) (fld s.me.csr.epc 63 2 * 4) := rfl

/-- Settles O9: ERET in supervisor mode is its one effect; PRIV is raised before anything else is done. -/
theorem modeChanges : Obligations.ModeChanges := by
  unfold Obligations.ModeChanges
  refine ⟨fun s => ⟨fun h => ?super, fun hu => raises_priv hu rfl⟩, fun s hu => ?user⟩
  case super =>
    obtain ⟨hmode, hie, htl, hkeep, htop⟩ := returnStat_fields s.me.csr.sstat
    exact ⟨returnStat s.me.csr.sstat, hmode, hie, htl, hkeep, htop,
      completes_of_ok rfl (bind_of_ok (needSuper_super h))⟩
  case user =>
    exact ⟨fun a sc => raises_priv hu rfl, fun a sc => raises_priv hu rfl, fun sc => raises_priv hu rfl,
      fun d a b => raises_priv hu rfl, fun d a b => raises_priv hu rfl, fun d a => raises_priv hu rfl,
      fun d a => raises_priv hu rfl⟩

end Sys2Proof.Proofs.Traps
end

section
/-! SUPPORT. Loops and courses (R182-R190): the loop instructions, the end event of a bundle, COURSE and REALIGN. -/

namespace Sys2Proof.Proofs.Loops

open Sys2Proof Sys2Proof.Machine Sys2Proof.Laws Sys2Proof.Proofs.Running

/-! ### Levels (R188, R189) -/

theorem freeBuf_eq (s : State) (c : Nat) (l : LoopLevel) : freeBuf s c l = { s with cores := (freeBuf s c l).cores } :=
  (freeBuf_core s c l).2.2

theorem freeBuf_cur (s : State) (c : Nat) (l : LoopLevel) : (freeBuf s c l).cur = s.cur := by rw [freeBuf_eq]

theorem freeBuf_me (s : State) (c : Nat) (l : LoopLevel) : (freeBuf s c l).me = s.me := by
  rw [freeBuf_eq]
  rfl

theorem takeElements_eq (s : State) : takeElements s = { s with cores := (takeElements s).cores } :=
  (takeElements_core s).2.2

theorem takeElements_me (s : State) : (takeElements s).me = s.me := by
  rw [takeElements_eq]
  rfl

theorem takeElements_issue (s : State) : (takeElements s).issue = s.issue := by rw [takeElements_eq]

/-- The level that LOOP pushes. -/
theorem pushLevel_me (s : State) (b e n : Nat) :
    ∃ buf, (pushLevel s b e n).me
      = { s.me with loops := { b := b, e := e, remain := n, buf := buf, recap := false } :: s.me.loops } := by
  refine ⟨grantBuf s b e, ?_⟩
  unfold pushLevel
  simp only
  split <;> exact modMe_me ..

/-- The end event of a bundle that began in the innermost of its levels (R189). -/
theorem endEvent_me_level {s : State} {l : LoopLevel} {ls : List LoopLevel} (hend : s.issue.noEnd = false)
    (hloops : s.me.loops = l :: ls) (hlev : s.issue.lev = ls.length + 1) :
    (endEvent s).me = { s.me with pc := word (endLevel s.issue.next (l :: ls) 0).1
                                  loops := (endLevel s.issue.next (l :: ls) 0).2.1 } := by
  have hinner : (l :: ls).length - (ls.length + 1) = 0 := Nat.sub_self _
  unfold endEvent
  simp only [hend, hlev, hloops, hinner]
  rw [if_neg (by simp)]
  split
  · split
    · exact setMe_me ..
    · exact setMe_me ..
  · exact (freeBuf_me ..).trans (setMe_me ..)

/-- What a lone word leaves of the program counter and of the levels is what its end event makes of them. -/
theorem retire_pc_loops (s : State) :
    (retire s).me.pc = (endEvent (takeElements s)).me.pc ∧ (retire s).me.loops = (endEvent (takeElements s)).me.loops := by
  have h : (retire s).me = clearAnswers { (endEvent (takeElements s)).me with
      csr := { (endEvent (takeElements s)).me.csr with
        openpkt := countPkt (endEvent (takeElements s)).me.csr.openpkt } } :=
    modMe_me (endEvent (takeElements s)) fun x =>
      clearAnswers { x with csr := { x.csr with openpkt := countPkt x.csr.openpkt } }
  rw [h]
  exact ⟨rfl, rfl⟩

/-- A word without effects, in the innermost of its levels: the program counter and the levels after it. -/
theorem exec_nop_level {s : State} {l : LoopLevel} {ls : List LoopLevel} (hlone : s.issue.half = .lone)
    (hend : s.issue.noEnd = false) (hloops : s.me.loops = l :: ls) (hlev : s.issue.lev = ls.length + 1) :
    ∃ t, exec .nop s = .next t ∧ t.me.pc = word (endLevel s.issue.next (l :: ls) 0).1 ∧
      t.me.loops = (endLevel s.issue.next (l :: ls) 0).2.1 := by
  have hnext : exec .nop s = .next (retire s) := by
    change finish s (.done s) = _
    rw [finish_done, endWord, hlone]
  obtain ⟨hpc, hls⟩ := retire_pc_loops s
  have hme := endEvent_me_level (s := takeElements s) (l := l) (ls := ls)
    (by rw [takeElements_issue, hend]) (by rw [takeElements_me, hloops]) (by rw [takeElements_issue, hlev])
  rw [takeElements_issue] at hme
  exact ⟨retire s, hnext, by rw [hpc, hme], by rw [hls, hme]⟩

/-! ### LOOP and LOOPX (R189, R190) -/

section
variable {a : GReg} {imm : BitVec 13} {s : State}

theorem fld_count (x : Word) : fld x 47 0 = x.toNat % 2 ^ 48 := by
  rw [fld, bits, pow_zero, Nat.div_one]

/-- LOOP of a count other than 0 is judged by the levels that are active. -/
theorem exec_loop_nonzero (hn : (rg s a).toNat % 2 ^ 48 ≠ 0) :
    exec (.loop a imm) s = finish s (match s.me.loops with
      | [] => .done (pushLevel s s.issue.next (addrAdd (wordAddr s) (4 * imm.toNat)) ((rg s a).toNat % 2 ^ 48))
      | [l] => if l.e = addrAdd (wordAddr s) (4 * imm.toNat) then wordTrap s .illegalInstr 0x0C
          else .done (pushLevel s s.issue.next (addrAdd (wordAddr s) (4 * imm.toNat)) ((rg s a).toNat % 2 ^ 48))
      | _ :: _ :: _ => wordTrap s .illegalInstr 0x0C) := by
  change finish s _ = _
  rw [fld_count]
  exact congrArg (finish s) (if_neg hn)

theorem completes_loop_zero (hn : (rg s a).toNat % 2 ^ 48 = 0) :
    Completes (.loop a imm) s (jump s (addrAdd (wordAddr s) (4 * imm.toNat))) := by
  refine completes_of_done ?_
  change finish s _ = _
  rw [fld_count, if_pos hn]

theorem completes_loop_push (hn : (rg s a).toNat % 2 ^ 48 ≠ 0)
    (h : s.me.loops = [] ∨ ∃ l, s.me.loops = [l] ∧ l.e ≠ addrAdd (wordAddr s) (4 * imm.toNat)) :
    Completes (.loop a imm) s
      (pushLevel s s.issue.next (addrAdd (wordAddr s) (4 * imm.toNat)) ((rg s a).toNat % 2 ^ 48)) := by
  refine completes_of_done ((exec_loop_nonzero hn).trans ?_)
  rcases h with h | ⟨l, h, he⟩
  · rw [h]
  · simp only [h, if_neg he]

theorem raises_loop_full (hn : (rg s a).toNat % 2 ^ 48 ≠ 0)
    (h : (∃ l, s.me.loops = [l] ∧ l.e = addrAdd (wordAddr s) (4 * imm.toNat)) ∨ 2 ≤ s.me.loops.length) :
    Raises (.loop a imm) s .illegalInstr (wordAddr s) (halfBit s + 0x0C) := by
  refine raises_of_trap ((exec_loop_nonzero hn).trans ?_)
  rcases h with ⟨l, h, he⟩ | h
  · simp only [h, if_pos he]
    rfl
  · match hls : s.me.loops, h with
    | _ :: _ :: _, _ => rfl

theorem completes_loopx_none (h : s.me.loops = []) : Completes (.loopx a) s s := by
  refine completes_of_done ?_
  change finish s _ = _
  rw [h]

theorem completes_loopx_stay (ha : a ≠ 0) (hr : rg s a = 0) : Completes (.loopx a) s s := by
  refine completes_of_done ?_
  change finish s _ = _
  split
  · rfl
  · rw [if_neg (by simp [ha, hr])]

/-- The state after the innermost level is left. -/
def leaveLevel (s : State) (l : LoopLevel) (ls : List LoopLevel) : State :=
  let s1 := jump ((freeBuf s s.cur.coreKey l).modMe fun x => { x with loops := ls }) l.e
  noteEvent { s1 with issue := { s1.issue with noEnd := true } } 3

theorem leaveLevel_me (l : LoopLevel) (ls : List LoopLevel) : (leaveLevel s l ls).me = { s.me with loops := ls } :=
  (modMe_me (freeBuf s s.cur.coreKey l) fun x => { x with loops := ls }).trans (by rw [freeBuf_me])

theorem completes_loopx_leave {l : LoopLevel} {ls : List LoopLevel} (h : s.me.loops = l :: ls) (hr : a = 0 ∨ rg s a ≠ 0) :
    Completes (.loopx a) s (leaveLevel s l ls) := by
  refine completes_of_done ?_
  change finish s _ = _
  rw [h]
  simp only [if_pos hr]
  rfl

end

/-- Settles O16: LOOP and LOOPX by the levels that are active, and the end event by whether the bundle stands at the end
of the innermost one. -/
theorem loops : Obligations.Loops := by
  unfold Obligations.Loops
  refine ⟨fun a imm s => ?instructions, fun s l ls hlone hend hloops hlev => ?ends⟩
  case instructions =>
    refine ⟨completes_loop_zero, fun hn h => ?_, raises_loop_full, completes_loopx_none, completes_loopx_stay,
      fun l ls h hr => ⟨_, completes_loopx_leave h hr, leaveLevel_me l ls, rfl, rfl⟩⟩
    obtain ⟨buf, hme⟩ := pushLevel_me s s.issue.next (addrAdd (wordAddr s) (4 * imm.toNat)) ((rg s a).toNat % 2 ^ 48)
    exact ⟨_, buf, completes_loop_push hn h, hme⟩
  case ends =>
    obtain ⟨t, hnext, hpc, hls⟩ := exec_nop_level hlone hend hloops hlev
    refine ⟨fun he => ⟨t, hnext, ?_⟩, fun he hr => ⟨t, hnext, ?_⟩, fun he hr => ⟨t, hnext, ?_⟩⟩
    · rw [hpc, hls, endLevel, if_pos he]
      exact ⟨rfl, rfl⟩
    · rw [hpc, hls, endLevel, if_neg (not_not_intro he), if_neg (Nat.not_le.mpr hr)]
      exact ⟨rfl, rfl⟩
    · rw [hpc, hls, endLevel, if_neg (not_not_intro he), if_pos hr]
      exact ⟨rfl, rfl⟩

/-! ### COURSE and REALIGN (R182-R187) -/

section
variable {d a : GReg} {imm : BitVec 13} {s : State}

theorem completes_course_answered {c v : Nat} (h : unitAnswer s.me = some (c, v)) :
    Completes (.course d a) s (wg s d (word v)) := by
  refine completes_of_done ?_
  change finish s _ = _
  rw [h]

theorem completes_course_slot15 (h : unitAnswer s.me = none) (hslot : s.cur.slot = 15) :
    Completes (.course d a) s (wg s d 0) := by
  refine completes_of_done ?_
  change finish s _ = _
  rw [h]
  simp only [if_pos hslot]

theorem completes_course_alone (h : unitAnswer s.me = none) (hslot : s.cur.slot ≠ 15)
    (hmask : bitAt ((rg s a).toNat % 2 ^ 16) s.cur.core = false ∨ (rg s a).toNat % 2 ^ 16 = 2 ^ s.cur.core) :
    Completes (.course d a) s (wg (leaveCourse s s.cur false) d 0) := by
  have hf : fld (rg s a) 15 0 = (rg s a).toNat % 2 ^ 16 := by rw [fld, bits, pow_zero, Nat.div_one]
  rw [← hf] at hmask
  refine completes_of_done ?_
  change finish s _ = _
  rw [h]
  simp only [if_neg hslot, if_pos hmask]

theorem completes_realign_alone (h : courseOf s s.cur = none) : Completes (.realign imm) s s := by
  refine completes_of_done ?_
  change finish s _ = _
  rw [h]

end

/-- Settles O17: the cases of COURSE that write at once, and REALIGN outside a course. -/
theorem courseInstructions : Obligations.CourseInstructions := by
  unfold Obligations.CourseInstructions
  intro d a imm s
  exact ⟨fun c v => completes_course_answered, completes_course_slot15, completes_course_alone, completes_realign_alone⟩

end Sys2Proof.Proofs.Loops
end

section
/-! SUPPORT. Loads, stores and the ordering instructions (R153-R173): what each meaning does once its checks have passed,
from what the access to memory answers. -/

namespace Sys2Proof.Proofs.Accesses

open Sys2Proof Sys2Proof.Machine Sys2Proof.Laws Sys2Proof.Proofs.Running Sys2Proof.Proofs.ControlTransfer

/-! ### The parts of an access -/

theorem change_ok (f : State → State) (s : State) : change f s = .ok ((), f s) := rfl

theorem here_ok (s : State) : here s = .ok (s, s) := rfl

section
variable {a w : Nat} {k : Access} {s : State}

theorem aligned_error (h : a % w ≠ 0) : aligned a w k s = .error (.trap .align a k.code) := by
  rw [aligned, if_neg h]
  rfl

/-- A store whose checks pass writes its bytes. -/
theorem store_ok {x : Nat} {fill : Bool} {s1 : State} (h : storeCheck (secFuel w) a w .store fill s = .ok ((), s1)) :
    store a w x fill s = .ok ((), storeBytes (secFuel w) s1 s1 a w (2 ^ w - 1) x fill) :=
  bind_of_ok h

end

/-- A register without a stream is read as it stands, and written (R192). -/
theorem rv_unbound {s : State} {r : VReg} (h : unbound s r) : rv r s = .ok (s.view.v[r], s) := by
  unfold unbound at h
  unfold rv
  rw [h]

theorem wv_unbound {s : State} {r : VReg} {v : Vec} (h : unbound s r) : wv r v s = .ok ((), putV r v s) := by
  unfold unbound at h
  unfold wv
  rw [h]

/-- Two registers without streams: naming one of them twice reads the same. -/
theorem rv2_unbound {s : State} {a b : VReg} (ha : unbound s a) (hb : unbound s b) :
    rv2 a b s = .ok ((s.view.v[a], s.view.v[b]), s) := by
  unfold rv2
  rw [bind_of_ok (rv_unbound ha)]
  split
  · rename_i h
    subst h
    rfl
  · rw [bind_of_ok (rv_unbound hb)]
    rfl

/-! ### Scalar loads and stores (R153, R154, R159) -/

section
variable {t base : GReg} {off : BitVec 10} {w : Nat} {sg hint : Bool} {s : State}

theorem loadScalar_misaligned (h : memAddr s base off.toInt w % w ≠ 0) :
    loadScalar t base off w sg hint s = .error (.trap .align (memAddr s base off.toInt w) 0) := by
  rw [loadScalar, bind_of_ok (here_ok s), bind_of_error (aligned_error h)]
  rfl

theorem storeScalar_misaligned (h : memAddr s base off.toInt w % w ≠ 0) :
    storeScalar t base off w hint s = .error (.trap .align (memAddr s base off.toInt w) 1) := by
  rw [storeScalar, bind_of_ok (here_ok s), bind_of_error (aligned_error h)]
  rfl

theorem loadScalar_ok {x : Nat} {s1 : State} (h : memAddr s base off.toInt w % w = 0)
    (hl : load (memAddr s base off.toInt w) w (!hint) s = .ok (x, s1)) :
    loadScalar t base off w sg hint s
      = .ok ((), wg s1 t (if sg then BitVec.ofInt 64 (signed (8 * w) x) else word x)) := by
  rw [loadScalar, bind_of_ok (here_ok s), bind_of_ok (aligned_of_mod_eq_zero h), bind_of_ok hl]
  rfl

theorem storeScalar_ok {s1 : State} (h : memAddr s base off.toInt w % w = 0)
    (hc : storeCheck (secFuel w) (memAddr s base off.toInt w) w .store (!hint) s = .ok ((), s1)) :
    storeScalar t base off w hint s = .ok ((), storeBytes (secFuel w) s1 s1 (memAddr s base off.toInt w) w (2 ^ w - 1)
      ((rg s t).toNat % 256 ^ w) (!hint)) := by
  rw [storeScalar, bind_of_ok (here_ok s), bind_of_ok (aligned_of_mod_eq_zero h)]
  exact store_ok hc

end

/-- Settles O18: each instruction is the scalar load or store of its width. -/
theorem scalarAccesses : Obligations.ScalarAccesses := by
  unfold Obligations.ScalarAccesses
  refine ⟨fun t base off hint s => ?misaligned, fun t base off hint s s1 x => ?loads, fun t base off hint s s1 => ?stores⟩
  case misaligned =>
    exact ⟨fun h => ⟨raises_of_error rfl (loadScalar_misaligned h), raises_of_error rfl (loadScalar_misaligned h),
        raises_of_error rfl (storeScalar_misaligned h)⟩,
      fun h => ⟨raises_of_error rfl (loadScalar_misaligned h), raises_of_error rfl (loadScalar_misaligned h),
        raises_of_error rfl (storeScalar_misaligned h)⟩,
      fun h => ⟨raises_of_error rfl (loadScalar_misaligned h), raises_of_error rfl (storeScalar_misaligned h)⟩⟩
  case loads =>
    exact ⟨fun hl => ⟨completes_of_ok rfl (loadScalar_ok (Nat.mod_one _) hl),
        completes_of_ok rfl (loadScalar_ok (Nat.mod_one _) hl)⟩,
      fun h hl => ⟨completes_of_ok rfl (loadScalar_ok h hl), completes_of_ok rfl (loadScalar_ok h hl)⟩,
      fun h hl => ⟨completes_of_ok rfl (loadScalar_ok h hl), completes_of_ok rfl (loadScalar_ok h hl)⟩,
      fun h hl => completes_of_ok rfl (loadScalar_ok h hl)⟩
  case stores =>
    exact ⟨fun hc => completes_of_ok rfl (storeScalar_ok (Nat.mod_one _) hc),
      fun h hc => completes_of_ok rfl (storeScalar_ok h hc), fun h hc => completes_of_ok rfl (storeScalar_ok h hc),
      fun h hc => completes_of_ok rfl (storeScalar_ok h hc)⟩

/-! ### Formatted accesses of one element (R161) -/

section
variable {c k : Nat} {s : State}

theorem fmtCheck_ok (h : fmtBad c k = false) : fmtCheck c k s = .ok ((), s) := by
  rw [fmtCheck, if_neg (by rw [h]; exact Bool.false_ne_true)]
  rfl

theorem elemAddr_whole (base : Nat) (n : Int) (h6 : c ≠ 6) :
    elemAddr base c n = addrAdd base (n * (elemBits c / 8 : Nat)) := if_neg h6

/-- An element of whole bytes outside blocks is one aligned load. -/
theorem loadElem_whole {base x : Nat} {n : Int} {s1 : State} (hb : isBlocked c = false) (h6 : c ≠ 6)
    (ha : addrAdd base (n * (elemBits c / 8 : Nat)) % (elemBits c / 8) = 0)
    (hl : load (addrAdd base (n * (elemBits c / 8 : Nat))) (elemBits c / 8) true s = .ok (x, s1)) :
    loadElem base c k n s = .ok ((x, elemNum c x), s1) := by
  rw [loadElem, if_neg (by rw [hb]; exact Bool.false_ne_true), if_neg h6, elemAddr_whole _ _ h6,
    bind_of_ok (aligned_of_mod_eq_zero ha), bind_of_ok hl]
  rfl

end

section
variable {t base : GReg} {off : BitVec 10} {rs : RoundSel} {s s1 : State} {x : Nat}

/-- LDF after its element has been read. -/
theorem completes_ldf {u : State} (hf : fmtBad (fld (rg s base) 63 60) (fld (rg s base) 59 56) = false)
    (hl : loadElem (addrOf (rg s base)) (fld (rg s base) 63 60) (fld (rg s base) 59 56) off.toInt s
      = .ok ((x, elemNum (fld (rg s base) 63 60) x), s1))
    (hu : (if codeIsInt (fld (rg s base) 63 60) then
        wg s1 t (if (intRange (fld (rg s base) 63 60)).1 < 0 then
          BitVec.ofInt 64 (signed (elemBits (fld (rg s base) 63 60)) x) else word x)
      else setFlags (wg s1 t (word (roundNum .fp32 (modeOf s rs) (elemNum (fld (rg s base) 63 60) x)).1))
        (roundNum .fp32 (modeOf s rs) (elemNum (fld (rg s base) 63 60) x)).2) = u) :
    Completes (.ldf t base off rs) s u := by
  subst hu
  refine completes_of_ok rfl ?_
  rw [bind_of_ok (fmtCheck_ok hf), bind_of_ok hl]
  split <;> rfl

theorem completes_stf {w a : Nat} (hf : fmtBad (fld (rg s base) 63 60) (fld (rg s base) 59 56) = false)
    (h6 : fld (rg s base) 63 60 ≠ 6) (hb : isBlocked (fld (rg s base) 63 60) = false)
    (hw : elemBits (fld (rg s base) 63 60) / 8 = w) (haddr : addrAdd (addrOf (rg s base)) (off.toInt * w) = a)
    (ha : a % w = 0) (hc : storeCheck (secFuel w) a w .store true s = .ok ((), s1)) :
    let z := elemRound (fld (rg s base) 63 60) (modeOf s rs) (stfValue (rg s t) (fld (rg s base) 63 60)) (seedOf s)
    Completes (.stf t base off rs) s
      (setSeed (setFlags (storeBytes (secFuel w) s1 s1 a w (2 ^ w - 1) z.1 true)
        (if codeIsInt (fld (rg s base) 63 60) then 0 else z.2.1)) z.2.2) := by
  subst hw haddr
  intro z
  refine completes_of_ok rfl ?_
  rw [bind_of_ok (fmtCheck_ok hf), if_neg (by simp [hb, h6]), elemAddr_whole _ _ h6,
    bind_of_ok (aligned_of_mod_eq_zero ha), bind_of_ok (store_ok hc)]
  rfl

end

/-- Settles O20: the element is one aligned access, and what is written is the conversion's. -/
theorem formattedScalars : Obligations.FormattedScalars := by
  unfold Obligations.FormattedScalars
  intro t base off rs s s1 s2 x p c w a r z hf h6 hb ha
  refine ⟨fun hl => ?load, fun hc => completes_stf hf h6 hb rfl rfl ha hc⟩
  case load =>
    have he := loadElem_whole (k := fld p 59 56) hb h6 ha hl
    exact ⟨fun hi => completes_ldf hf he (if_neg (by rw [hi]; exact Bool.false_ne_true)),
      fun hi hneg => completes_ldf hf he ((if_pos hi).trans (by rw [if_pos hneg])),
      fun hi hpos => completes_ldf hf he ((if_pos hi).trans (by rw [if_neg (Int.not_lt.mpr hpos)]))⟩

/-! ### Vector accesses (R162) -/

theorem mergeBytes_all (n x y : Nat) : mergeBytes n (2 ^ n - 1) x y = y % 256 ^ n := by
  induction n generalizing x y with
  | zero => simp [mergeBytes, Nat.mod_one]
  | succ n ih =>
    have hpow : 2 ^ (n + 1) = 2 * 2 ^ n := by ring
    have hpos := Nat.two_pow_pos n
    have hodd : (2 ^ (n + 1) - 1) % 2 = 1 := by omega
    have hhalf : (2 ^ (n + 1) - 1) / 2 = 2 ^ n - 1 := by omega
    rw [mergeBytes, if_pos hodd, hhalf, ih, pow_succ, Nat.mul_comm (256 ^ n), Nat.mod_mul]

theorem ofNat_mod_bytes (x : Nat) : BitVec.ofNat 256 (x % 256 ^ 32) = BitVec.ofNat 256 x := by
  rw [← BitVec.toNat_inj, BitVec.toNat_ofNat, BitVec.toNat_ofNat]
  exact Nat.mod_mod x (2 ^ 256)

section
variable {t : VReg} {base : GReg} {off : BitVec 10} {hint : Bool} {k : KReg} {s s1 : State} {x : Nat}

theorem completes_vld (ha : memAddr s base off.toInt 32 % 32 = 0)
    (hl : load (memAddr s base off.toInt 32) 32 (!hint) s = .ok (x, s1)) (hu : unbound s1 t) :
    Completes (.vld t base off hint 0) s (putV t (BitVec.ofNat 256 x) s1) := by
  refine completes_of_ok rfl ?_
  rw [bind_of_ok (aligned_of_mod_eq_zero ha), if_pos rfl, bind_of_ok hl]
  refine (bind_of_ok (x := (0 : Vec)) (t := s1) rfl).trans ?_
  change wv t (BitVec.ofNat 256 (mergeBytes 32 (2 ^ 32 - 1) (0 : Vec).toNat x)) s1 = _
  rw [mergeBytes_all, ofNat_mod_bytes, wv_unbound hu]

theorem completes_vst (ha : memAddr s base off.toInt 32 % 32 = 0) (hu : unbound s t)
    (hc : storeCheck 1 (memAddr s base off.toInt 32) 1 .store (!hint) s = .ok ((), s1)) :
    Completes (.vst t base off hint 0) s
      (storeBytes (secFuel 32) s1 s1 (memAddr s base off.toInt 32) 32 (2 ^ 32 - 1) (s.view.v[t]).toNat (!hint)) := by
  refine completes_of_ok rfl ?_
  rw [bind_of_ok (aligned_of_mod_eq_zero ha), bind_of_ok (rv_unbound hu)]
  have hlow : lowBit (2 ^ 32 - 1) = some 0 := by decide
  rw [show byteMask s 0 = 2 ^ 32 - 1 from rfl, hlow]
  exact bind_of_ok hc

/-- A mask without a byte stores nothing and checks nothing. -/
theorem completes_vst_empty (ha : memAddr s base off.toInt 32 % 32 = 0) (hu : unbound s t) (hk : k ≠ 0)
    (hm : rk s k = 0) : Completes (.vst t base off hint k) s s := by
  refine completes_of_ok rfl ?_
  rw [bind_of_ok (aligned_of_mod_eq_zero ha), bind_of_ok (rv_unbound hu)]
  have hlow : lowBit (byteMask s k) = none := by
    rw [byteMask, if_neg hk, hm]
    decide
  rw [hlow]
  rfl

end

/-- Settles O21: without a mask every byte is written, and the lowest one is checked. -/
theorem vectorAccesses : Obligations.VectorAccesses := by
  unfold Obligations.VectorAccesses
  intro t base off hint k s s1 x a ha hu
  exact ⟨fun hl hu1 => completes_vld ha hl hu1, fun hc => completes_vst ha hu hc,
    fun hk hm => completes_vst_empty ha hu hk hm⟩

/-! ### Strided and indexed accesses (R163, R164) -/

/-- Without a mask every element has its place. -/
theorem places_unmasked (s : State) (w : Nat) (addr : Nat → Nat) :
    places s 0 w addr = (List.range (32 / w)).map fun i => (i, addr i) := by
  have hall : (List.range (32 / w)).filter (fun i => maskBit s 0 i) = List.range (32 / w) :=
    List.filter_eq_self.mpr fun _ _ => rfl
  rw [places, hall]

section
variable {d : VReg} {w : Nat} {ps : List (Nat × Nat)} {s s1 : State}

theorem gather_unmasked {xs : List (Nat × Nat)} (hl : loadEach w ps s = .ok (xs, s1)) (hu : unbound s1 d) :
    gather d 0 w ps s
      = .ok ((), putV d (BitVec.ofNat 256 (xs.foldl (fun v e => setLane v (8 * w) e.1 e.2) 0)) s1) := by
  rw [gather, bind_of_ok hl]
  refine (bind_of_ok (x := (0 : Vec)) (t := s1) rfl).trans ?_
  exact wv_unbound hu

theorem scatter_ok {x : Vec} {order : List (Nat × Nat)} (hc : checkEach w order s = .ok ((), s1)) :
    scatter x w ps order s = .ok ((), storeEach s1 w x.toNat ps) :=
  bind_of_ok hc

end

/-- Settles O22: without a mask the places are those of all elements; a gather is a load of each, a scatter the checks of
all and then the stores. -/
theorem gatherScatter : Obligations.GatherScatter := by
  unfold Obligations.GatherScatter
  intro d a b ix wid s s1 xs w strided indexed order made hd hix
  have hstr : places s 0 w (strideAddr s a b) = strided := places_unmasked ..
  have hind : places s 0 w (indexAddr s a s.view.v[ix] w) = indexed := places_unmasked ..
  refine ⟨fun _ hl hu => ?vlds, fun _ hc => ?vsts, fun _ hl hu => ?vgath, fun _ hc => ?vscat⟩
  case vlds =>
    refine completes_of_ok rfl (gather_unmasked ?_ hu)
    rw [hstr]
    exact hl
  case vsts =>
    refine completes_of_ok rfl ?_
    rw [bind_of_ok (rv_unbound hd), hstr]
    exact scatter_ok hc
  case vgath =>
    refine completes_of_ok rfl ?_
    rw [bind_of_ok (rv_unbound hix), hind]
    exact gather_unmasked hl hu
  case vscat =>
    refine completes_of_ok rfl ?_
    rw [bind_of_ok (rv2_unbound hd hix)]
    simp only
    rw [hind]
    exact scatter_ok hc

/-! ### Formatted vectors (R165) -/

section
variable {t : VReg} {base : GReg} {off : BitVec 10} {ty : VecFmt} {s s1 : State}

theorem completes_vldf {dst : Nat} {xs : List Sys2Proof.Num}
    (hdst : (if ty = .own then fld (rg s base) 63 60 else (VecFmt.float ty).code) = dst)
    (hf : fmtBad (fld (rg s base) 63 60) (fld (rg s base) 59 56) = false)
    (hb : isBlocked (fld (rg s base) 63 60) = false)
    (hl : loadElems (addrOf (rg s base)) (fld (rg s base) 63 60) (fld (rg s base) 59 56)
      (off.toInt * (256 / elemBits dst : Nat)) (256 / elemBits dst) s = .ok (xs, s1)) (hu : unbound s1 t) :
    let r := roundElems dst (defaultMode s) xs (seedOf s)
    Completes (.vldf t base off ty) s (setSeed (setFlags (putV t (packV (elemBits dst) r.1) s1) r.2.1) r.2.2) := by
  subst hdst
  intro r
  refine completes_of_ok rfl ?_
  rw [bind_of_ok (fmtCheck_ok hf), if_neg (by simp [hb])]
  simp only [decide_eq_true_eq]
  rw [bind_of_ok hl, bind_of_ok (wv_unbound hu)]
  rfl

theorem completes_vstf {m : Nat}
    (hm : 256 / (VecFmt.float ty).width * elemBits (fld (rg s base) 63 60) / 8 = m)
    (hf : fmtBad (fld (rg s base) 63 60) (fld (rg s base) 59 56) = false)
    (hb : isBlocked (fld (rg s base) 63 60) = false) (hu : unbound s t) (h0 : fld (rg s base) 63 60 ≠ 0)
    (ha : elemAligned (elemAddr (addrOf (rg s base)) (fld (rg s base) 63 60)
      (off.toInt * (256 / (VecFmt.float ty).width : Nat))) (fld (rg s base) 63 60) .store s = .ok ((), s))
    (hc : storeCheck (secFuel m) (elemAddr (addrOf (rg s base)) (fld (rg s base) 63 60)
      (off.toInt * (256 / (VecFmt.float ty).width : Nat))) m .store true s = .ok ((), s1)) :
    let f := VecFmt.float ty
    let z := roundElems (fld (rg s base) 63 60) (defaultMode s)
      ((lanes (s.view.v[t]).toNat f.width (256 / f.width)).map (decodeNum f)) (seedOf s)
    Completes (.vstf t base off ty) s
      (setSeed (setFlags (storeBytes (secFuel m) s1 s1 (elemAddr (addrOf (rg s base)) (fld (rg s base) 63 60)
        (off.toInt * (256 / f.width : Nat))) m (2 ^ m - 1) (packLanes (elemBits (fld (rg s base) 63 60)) z.1) true)
          z.2.1) z.2.2) := by
  subst hm
  intro f z
  refine completes_of_ok rfl ?_
  rw [bind_of_ok (fmtCheck_ok hf), if_neg h0, if_neg (by simp [hb]), if_neg (by simp [hb]),
    bind_of_ok (rv_unbound hu)]
  simp only
  rw [if_neg (by simp [hb]), bind_of_ok ha, bind_of_ok (store_ok hc)]
  rfl

end

/-- Settles O23: one access for all elements, whose conversion is written or stored. -/
theorem formattedVectors : Obligations.FormattedVectors := by
  unfold Obligations.FormattedVectors
  intro t base off ty s s1 xs p c k dst e r f n a z m hf hb hu
  exact ⟨fun hl hu1 => completes_vldf rfl hf hb hl hu1, fun _ h0 ha hc => completes_vstf rfl hf hb hu h0 ha hc⟩

end Sys2Proof.Proofs.Accesses
end

section
/-! SUPPORT. Accesses to the own TCM (R151, R152, R159): one run of placed bytes, checked and written at once. -/

namespace Sys2Proof.Proofs.OwnMemory

open Sys2Proof Sys2Proof.Machine Sys2Proof.Laws Sys2Proof.Proofs.Running Sys2Proof.Proofs.Accesses

/-! ### Bytes of a memory -/

/-- A mask of all ones writes every byte. -/
theorem writeMask_all (m : Memory) (a n x : Nat) : m.writeMask a n (2 ^ n - 1) x = m.writeN a n x := by
  induction n generalizing m a x with
  | zero => rfl
  | succ n ih =>
    have hpow : 2 ^ (n + 1) = 2 * 2 ^ n := by ring
    have hpos := Nat.two_pow_pos n
    have hodd : (2 ^ (n + 1) - 1) % 2 = 1 := by omega
    have hhalf : (2 ^ (n + 1) - 1) / 2 = 2 ^ n - 1 := by omega
    rw [Memory.writeMask, Memory.writeN, if_pos hodd, hhalf, ih]

/-- The bytes that a write of several bytes leaves, lowest first (R4). -/
theorem read_writeN_inside {m : Memory} (h : m.wf = true) (a n x j : Nat) (hj : j < n) :
    (m.writeN a n x).read (a + j) = BitVec.ofNat 8 (x / 256 ^ j) := by
  induction n generalizing m a x j with
  | zero => cases hj
  | succ n ih =>
    rw [Memory.writeN]
    cases j with
    | zero =>
      rw [read_writeN_other _ _ _ _ _ (by omega), pow_zero, Nat.div_one]
      exact read_write_same _ _ _ none h
    | succ j =>
      rw [show a + (j + 1) = a + 1 + j by omega, ih (write_wf m a _ h) (a + 1) (x / 256) j (by omega),
        Nat.div_div_eq_div_mul, ← pow_succ']

theorem byte_mod_bytes (x w j : Nat) (hj : j < w) : x % 256 ^ w / 256 ^ j % 256 = x / 256 ^ j % 256 := by
  have hw : 256 ^ w = 256 ^ j * 256 ^ (w - j) := by rw [← pow_add]; congr 1; omega
  rw [hw, Nat.mod_mul_right_div_self, Nat.mod_mod_of_dvd]
  exact dvd_pow_self 256 (by omega)

/-! ### The checks of an access to the own TCM (R151, R316) -/

/-- An access of a width that a scalar instruction has. -/
def ScalarWidth (w : Nat) : Prop := w = 1 ∨ w = 2 ∨ w = 4 ∨ w = 8

section
variable {s : State} {a w : Nat}

/-- An aligned scalar access lies within one sector. -/
theorem secRun_scalar (hw : ScalarWidth w) (ha : a % w = 0) : secRun a w = w := by
  unfold secRun
  rcases hw with rfl | rfl | rfl | rfl <;> exact Nat.min_eq_left (by omega)

theorem ScalarWidth.pos (hw : ScalarWidth w) : 0 < w := by
  rcases hw with rfl | rfl | rfl | rfl <;> decide

/-- The supervisor's part of a TCM asks for the rights of the mode alone (R316). -/
theorem needRights_super {k : Access} (hs : s.super = true) (hk : k = .load ∨ k = .store) :
    needRights a 0xFFF k s = .ok ((), s) := by
  rw [needRights, if_pos rfl, hs]
  rcases hk with rfl | rfl <;> exact if_pos (by decide)

theorem placedAt_ownTcm {k : Access} (h : OwnTcm s a w) (hw : 0 < w) (hk : k = .load ∨ k = .store) :
    placedAt a k s = .ok ((), s) := by
  obtain ⟨⟨_, hwin⟩, hhere, hcore, ⟨hlow, hhigh⟩, hsuper⟩ := h
  have hpkg : placedPkg a = s.pkgOf s.cur.mod := by
    unfold placedHere at hhere
    simp only [Bool.and_eq_true, decide_eq_true_eq] at hhere
    exact hhere.1.1
  unfold placedAt
  simp only
  rw [if_neg (not_not_intro hpkg), if_neg (by rw [hhere]; decide), if_pos hwin, if_neg (by omega),
    if_neg (not_not_intro hcore), if_neg (by omega), tcmDom, if_pos hlow]
  exact needRights_super hsuper hk

theorem placedCheck_ownTcm {k : Access} (h : OwnTcm s a w) (hp : s.noPush) (hw : 0 < w) (hk : k = .load ∨ k = .store) :
    placedCheck a k s = .ok ((), s) := by
  have hpush : pushesFirst s = .ok ((), s) := by
    rw [pushesFirst, change_ok, drainPushes_noPush hp]
  rw [placedCheck, bind_of_ok hpush]
  exact placedAt_ownTcm h hw hk

/-- A TCM access does not use the scratchpad banks. -/
theorem bankTurn_tcm {n : Nat} {k : Access} (h : bits a 55 54 = 3) : bankTurn a n k s = .ok ((), s) := by
  unfold bankTurn
  simp only
  exact if_pos (Or.inl (by rw [h]; decide))

/-- What the bytes of the own TCM hold. -/
theorem placedRun_ownTcm (h : OwnTcm s a w) (hp : s.noPush) (hw : 0 < w) :
    placedRun a w .load s = .ok ((Memory.readN s.core.tcm (a % 2 ^ 23) w, placedPoison s a w), s) := by
  have hrun : (do placedCheck a .load; bankTurn a w .load : Act Unit) s = .ok ((), s) := by
    rw [bind_of_ok (placedCheck_ownTcm h hp hw (.inl rfl))]
    exact bankTurn_tcm h.window.2
  unfold placedRun
  rw [hrun]
  simp only
  rw [if_pos h.window.2]

theorem load_ownTcm {fill : Bool} (hw : ScalarWidth w) (ha : a % w = 0) (h : OwnTcm s a w) (hp : s.noPush)
    (hpoison : placedPoison s a w = none) :
    load a w fill s = .ok (Memory.readN s.core.tcm (a % 2 ^ 23) w, s) := by
  have hrun : loadRun a w .load fill s = .ok ((Memory.readN s.core.tcm (a % 2 ^ 23) w, none), s) := by
    rw [loadRun, if_pos h.window.1, placedRun_ownTcm h hp hw.pos, hpoison]
  have hfuel : secFuel w = 0 + 1 + 1 := by
    rcases hw with rfl | rfl | rfl | rfl <;> rfl
  have hbytes : loadBytes (secFuel w) a w .load fill s = .ok ((Memory.readN s.core.tcm (a % 2 ^ 23) w, none), s) := by
    rw [hfuel, loadBytes, if_neg (by have := hw.pos; omega), secRun_scalar hw ha, bind_of_ok hrun, loadBytes,
      if_pos (Nat.sub_self w)]
    rfl
  rw [load, bind_of_ok hbytes]
  rfl

theorem storeCheck_ownTcm {fill : Bool} (hw : ScalarWidth w) (ha : a % w = 0) (h : OwnTcm s a w) (hp : s.noPush) :
    storeCheck (secFuel w) a w .store fill s = .ok ((), s) := by
  have htaken : storeTaken a .store s = .ok ((), s) := by
    rw [storeTaken, if_neg (by rw [h.window.2]; exact fun e => absurd e.1 (by decide))]
    rfl
  have hrun : storeCheckRun a w .store fill s = .ok ((), s) := by
    unfold storeCheckRun
    rw [if_pos h.window.1, placedStoreCheck, bind_of_ok (bind_of_ok (placedCheck_ownTcm h hp hw.pos (.inr rfl) |>.trans rfl) |>.trans htaken)]
    exact bankTurn_tcm h.window.2
  have hfuel : secFuel w = 0 + 1 + 1 := by
    rcases hw with rfl | rfl | rfl | rfl <;> rfl
  rw [hfuel, storeCheck, if_neg (by have := hw.pos; omega), secRun_scalar hw ha, bind_of_ok hrun, storeCheck,
    if_pos (Nat.sub_self w)]
  rfl

/-- The bytes of an aligned scalar store to a placed window. -/
theorem storeBytes_placed {x : Nat} {fill : Bool} (hw : ScalarWidth w) (ha : a % w = 0) (h : bitAt a 55 = true)
    (hx : x < 256 ^ w) : storeBytes (secFuel w) s s a w (2 ^ w - 1) x fill = placedStore s a w (2 ^ w - 1) x := by
  have hfuel : secFuel w = 0 + 1 + 1 := by
    rcases hw with rfl | rfl | rfl | rfl <;> rfl
  have hmask : (2 ^ w - 1) % 2 ^ w = 2 ^ w - 1 := Nat.mod_eq_of_lt (by have := Nat.two_pow_pos w; omega)
  have hne : 2 ^ w - 1 ≠ 0 := by
    rcases hw with rfl | rfl | rfl | rfl <;> decide
  rw [hfuel, storeBytes, if_neg (by have := hw.pos; omega), secRun_scalar hw ha]
  simp only
  rw [hmask, if_neg hne, Nat.mod_eq_of_lt hx, storeRun, if_pos h, storeBytes, if_pos (Nat.sub_self w)]

end

/-! ### What a store to the own TCM changes (R159) -/

section
variable {s : State} {a w x : Nat}

/-- The monitors that a store fires leave the TCMs alone. -/
theorem fireMonitors_tcm (k n : Nat) (r : Nat) : ((fireMonitors s k a n).coreOf r).tcm = (s.coreOf r).tcm := rfl

theorem placedStore_tcm (h : bits a 55 54 = 3) :
    (placedStore s a w (2 ^ w - 1) x).core.tcm = s.core.tcm.writeN (a % 2 ^ 23) w x ∧
      (∀ k, k ≠ s.cur.coreKey → ((placedStore s a w (2 ^ w - 1) x).coreOf k).tcm = (s.coreOf k).tcm) := by
  unfold placedStore
  simp only [if_pos h]
  refine ⟨?_, fun k hk => ?_⟩
  · rw [← writeMask_all]
    exact (fireMonitors_tcm _ _ _).trans (congrArg Core.tcm (modCore_coreOf s s.cur.coreKey _))
  · exact (fireMonitors_tcm _ _ _).trans (congrArg Core.tcm (modCore_coreOf_other _ _ _ _ hk))

theorem placedStore_rest (h : bits a 55 54 = 3) :
    (placedStore s a w (2 ^ w - 1) x).me = s.me ∧ (placedStore s a w (2 ^ w - 1) x).clusters = s.clusters ∧
      (placedStore s a w (2 ^ w - 1) x).mods = s.mods ∧ (placedStore s a w (2 ^ w - 1) x).cur = s.cur := by
  unfold placedStore
  simp only [if_pos h]
  exact ⟨rfl, rfl, rfl, rfl⟩

end

/-- The conclusion of a word leaves the memories and the registers as the word left them. -/
theorem concluded_memory {u t : State} (h : Concluded u t) :
    t.core.tcm = u.core.tcm ∧ (∀ k, k ≠ u.cur.coreKey → (t.coreOf k).tcm = (u.coreOf k).tcm) ∧
      (∀ k, (t.cluOf k).spad = (u.cluOf k).spad) ∧ t.mods = u.mods ∧ t.me.g = u.me.g ∧ t.me.v = u.me.v ∧
      t.me.k = u.me.k := by
  have hme := congrArg (fun y => (y.g, y.v, y.k)) h.me
  simp only [Strand.lasting, Prod.mk.injEq] at hme
  have htcm := congrArg Core.tcm h.core
  exact ⟨htcm, fun k hk => by rw [h.otherCores k hk], fun k => by rw [State.cluOf, h.clusters]; rfl, h.mods,
    hme.1, hme.2.1, hme.2.2⟩

/-- The store of an aligned scalar to the own TCM completes, and what it leaves. -/
theorem exec_store_ownTcm {i : Instr} {t base : GReg} {off : BitVec 10} {hint : Bool} {s : State} {w : Nat}
    (hi : exec i s = finish s (Act.res (storeScalar t base off w hint) s)) (hw : ScalarWidth w)
    (ha : memAddr s base off.toInt w % w = 0) (h : OwnTcm s (memAddr s base off.toInt w) w) (hp : s.noPush)
    (hwf : s.core.tcm.wf = true) :
    ∃ u, exec i s = .next u ∧ u.issue.ended = some .done ∧
      (∀ j, j < w → (u.core.tcm.read (memAddr s base off.toInt w % 2 ^ 23 + j)).toNat = (rg s t).toNat / 256 ^ j % 256) ∧
      (∀ b, (b < memAddr s base off.toInt w % 2 ^ 23 ∨ memAddr s base off.toInt w % 2 ^ 23 + w ≤ b) →
        u.core.tcm.read b = s.core.tcm.read b) ∧
      (∀ k, k ≠ s.cur.coreKey → (u.coreOf k).tcm = (s.coreOf k).tcm) ∧
      (∀ k, (u.cluOf k).spad = (s.cluOf k).spad) ∧ u.mods = s.mods ∧
      u.me.g = s.me.g ∧ u.me.v = s.me.v ∧ u.me.k = s.me.k := by
  have hok := storeScalar_ok (t := t) (hint := hint) ha (storeCheck_ownTcm hw ha h hp)
  rw [storeBytes_placed hw ha h.window.1 (Nat.mod_lt _ (by positivity))] at hok
  obtain ⟨u, hu, hc⟩ := completes_of_ok hi hok
  obtain ⟨htcm, hcores, hspad, hmods, hg, hv, hk⟩ := concluded_memory hc
  obtain ⟨hown, hother⟩ := placedStore_tcm (s := s) (w := w) (x := (rg s t).toNat % 256 ^ w) h.window.2
  obtain ⟨hme, hclu, hm, hcur⟩ := placedStore_rest (s := s) (w := w) (x := (rg s t).toNat % 256 ^ w) h.window.2
  rw [hown] at htcm
  rw [hcur] at hcores
  rw [hm] at hmods
  rw [hme] at hg hv hk
  refine ⟨u, hu, hc.ended, fun j hj => ?_, fun b hb => ?_, fun k hne => ?_, fun k => ?_, hmods, hg, hv, hk⟩
  · rw [htcm, read_writeN_inside hwf _ _ _ _ hj, BitVec.toNat_ofNat]
    exact byte_mod_bytes _ _ _ hj
  · rw [htcm]
    exact read_writeN_other _ _ _ _ _ hb
  · rw [hcores k hne, hother k hne]
  · rw [hspad k, State.cluOf, State.cluOf, hclu]

/-- Settles O19: an aligned access of the own TCM is one run of placed bytes. -/
theorem tcmAccesses : Obligations.TcmAccesses := by
  unfold Obligations.TcmAccesses
  refine ⟨fun s a w fill hw ha h hp hpoison => load_ownTcm hw ha h hp hpoison, ?_⟩
  rintro t base off hint s w i (⟨rfl, rfl⟩ | ⟨rfl, rfl⟩ | ⟨rfl, rfl⟩ | ⟨rfl, rfl⟩)
  case' inl => have hw : ScalarWidth 1 := .inl rfl
  case' inr.inl => have hw : ScalarWidth 2 := .inr (.inl rfl)
  case' inr.inr.inl => have hw : ScalarWidth 4 := .inr (.inr (.inl rfl))
  case' inr.inr.inr => have hw : ScalarWidth 8 := .inr (.inr (.inr rfl))
  all_goals exact fun ha h hp hwf => exec_store_ownTcm (hint := hint) rfl hw ha h hp hwf

end Sys2Proof.Proofs.OwnMemory
end

section
/-! SUPPORT. Prefetch and the ordering instructions (R160, R171-R173, R332): what each meaning does where nothing
waits, from what a release, an acquire and the clamp of a scope answer. -/

namespace Sys2Proof.Proofs.Order

open Sys2Proof Sys2Proof.Machine Sys2Proof.Laws Sys2Proof.Proofs.Running Sys2Proof.Proofs.Accesses
  Sys2Proof.Proofs.ControlTransfer

/-! ### Words that wait -/

theorem parkWord_ended (t : State) (r : ParkReason) (sent : Bool) : (parkWord t r sent).issue.ended = some (.park r sent) := by
  unfold parkWord
  split <;> rfl

/-- An instruction whose meaning stops with a wait leaves its word waiting. -/
theorem parks_of_error {i : Instr} {s t : State} {m : Act Unit} {r : ParkReason} {sent : Bool}
    (h : exec i s = finish s (Act.res m s)) (hm : m s = .error (.park r sent t)) :
    ∃ u, exec i s = .next u ∧ u.issue.ended = some (.park r sent) :=
  ⟨_, h.trans (congrArg (finish s) (res_of_error hm)), parkWord_ended t r sent⟩

/-! ### PREF (R160) -/

section
variable {kind : PrefKind} {base : GReg} {off : BitVec 10} {s : State}

/-- The address of a prefetch, whose offset counts bytes. -/
theorem memAddr_bytes (off : Int) : memAddr s base off 1 = addrAdd (addrOf (rg s base)) off := by
  rw [memAddr, Int.natCast_one, Int.mul_one]

/-- A prefetch of this address asks for nothing. -/
def Dropped (s : State) (a : Nat) : Bool :=
  bitAt a 55 || decide (frameWindow ≤ a ∧ (moduleBytes ≤ a - frameWindow ∨ s.super = false))

/-- The L1 holds the sector of an address. -/
def Held (s : State) (a : Nat) : Bool :=
  match l1Sec s.core a with
  | none => false
  | some x => x.filled

theorem held_iff {a : Nat} : Held s a = true ↔ ∃ x, l1Sec s.core a = some x ∧ x.filled = true := by
  unfold Held
  cases l1Sec s.core a <;> simp

theorem execPref_eq : exec (.pref kind base off) s =
    finish s (.done (if Dropped s (addrAdd (addrOf (rg s base)) off.toInt) || Held s (addrAdd (addrOf (rg s base)) off.toInt) then s
      else (s.send (Msg.make s.cur s.tenant (.read (addrAdd (addrOf (rg s base)) off.toInt / 128)
        (if kind = .write then .store else .load) true (kind ≠ .readL2) false))).spawn (.homeSliceRequest s.cur.mod s.cur))) := by
  rw [← memAddr_bytes]
  rfl

theorem completes_pref_idle
    (h : Dropped s (addrAdd (addrOf (rg s base)) off.toInt) = true ∨ Held s (addrAdd (addrOf (rg s base)) off.toInt) = true) :
    Completes (.pref kind base off) s s := by
  refine completes_of_done (execPref_eq.trans ?_)
  rw [if_pos (by rcases h with h | h <;> simp [h])]

theorem completes_pref_ask (hd : Dropped s (addrAdd (addrOf (rg s base)) off.toInt) = false)
    (hh : Held s (addrAdd (addrOf (rg s base)) off.toInt) = false) :
    Completes (.pref kind base off) s
      ((s.send (Msg.make s.cur s.tenant (.read (addrAdd (addrOf (rg s base)) off.toInt / 128)
        (if kind = .write then .store else .load) true (kind ≠ .readL2) false))).spawn (.homeSliceRequest s.cur.mod s.cur)) := by
  refine completes_of_done (execPref_eq.trans ?_)
  rw [if_neg (by simp [hd, hh])]

end

/-! ### Fences, acquires and releases (R171-R173) -/

section
variable {sc : Scope} {s s1 : State}

theorem completes_acq (hs : s.fits sc) (h : (s.acquired sc).fits sc) : Completes (.acq sc) s (s.acquired sc) := by
  refine completes_of_ok rfl ?_
  rw [bind_of_ok (clamp_fits hs), bind_of_ok acquire_acquired]
  exact noteClamp_fits h

theorem completes_fence (hs : s.fits sc) (hr : release sc s = .ok ((), s1)) (h : (s1.acquired sc).fits sc) :
    Completes (.fence sc) s (s1.acquired sc) := by
  refine completes_of_ok rfl ?_
  rw [bind_of_ok (clamp_fits hs), bind_of_ok hr, bind_of_ok acquire_acquired]
  exact noteClamp_fits h

theorem completes_rel (hs : s.fits sc) (hr : release sc s = .ok ((), s1)) (h : s1.fits sc) :
    Completes (.rel sc) s s1 := by
  refine completes_of_ok rfl ?_
  rw [bind_of_ok (clamp_fits hs), bind_of_ok hr]
  exact noteClamp_fits h

theorem completes_ldaq {t base : GReg} {wid : Width} {off : BitVec 8} {x : Nat} (hs : s.fits sc)
    (ha : memAddr s base off.toInt wid.bytes % wid.bytes = 0)
    (hl : load (memAddr s base off.toInt wid.bytes) wid.bytes true s = .ok (x, s1))
    (h : ((wg s1 t (word x)).acquired sc).fits sc) :
    Completes (.ldaq t base wid off sc) s ((wg s1 t (word x)).acquired sc) := by
  refine completes_of_ok rfl ?_
  rw [bind_of_ok (aligned_of_mod_eq_zero ha), bind_of_ok (clamp_fits hs), bind_of_ok hl, bind_of_ok (change_ok _ _),
    bind_of_ok acquire_acquired]
  exact noteClamp_fits h

/-- The bytes of the store are checked before the release and again after it. -/
theorem completes_strl {t base : GReg} {wid : Width} {off : BitVec 8} {s2 s3 u : State} (hs : s.fits sc)
    (ha : memAddr s base off.toInt wid.bytes % wid.bytes = 0)
    (hc : storeCheck (secFuel wid.bytes) (memAddr s base off.toInt wid.bytes) wid.bytes .store true s = .ok ((), s1))
    (hr : release sc s1 = .ok ((), s2))
    (hc' : storeCheck (secFuel wid.bytes) (memAddr s base off.toInt wid.bytes) wid.bytes .store true s2 = .ok ((), s3))
    (hu : storeBytes (secFuel wid.bytes) s3 s3 (memAddr s base off.toInt wid.bytes) wid.bytes (2 ^ wid.bytes - 1)
      ((rg s t).toNat % 256 ^ wid.bytes) true = u) (h : u.fits sc) :
    Completes (.strl t base wid off sc) s u := by
  refine completes_of_ok rfl ?_
  rw [bind_of_ok (aligned_of_mod_eq_zero ha), bind_of_ok (clamp_fits hs), bind_of_ok hc, bind_of_ok hr,
    bind_of_ok (store_ok hc'), hu]
  exact noteClamp_fits h

/-- With nothing marked a release writes the dirty bytes of far packages back, and is complete. -/
theorem release_unmarked (hr : hasReleased (drainPushes s s.cur).me = false)
    (hm : marked (drainPushes s s.cur) (drainPushes s s.cur).cur sc = []) :
    release sc s = .ok ((), writeBackWhere (drainPushes s s.cur) (drainPushes s s.cur).cur.coreKey
      (moves (drainPushes s s.cur) (drainPushes s s.cur).cur sc [])) := by
  unfold release
  simp only
  rw [if_neg (by rw [hr]; exact Bool.false_ne_true), if_pos (by rw [hm]; rfl)]

theorem release_marked (hr : hasReleased (drainPushes s s.cur).me = false)
    (hm : marked (drainPushes s s.cur) (drainPushes s s.cur).cur sc ≠ []) (hp : (drainPushes s s.cur).me.probes = []) :
    release sc s = .error (.park .fence true (startRelease (drainPushes s s.cur) (drainPushes s s.cur).cur sc)) := by
  unfold release
  simp only
  rw [if_neg (by rw [hr]; exact Bool.false_ne_true), if_neg (by rwa [List.isEmpty_iff]), if_pos (by rw [hp]; rfl)]

theorem rel_waits (hs : s.fits sc) (hr : hasReleased (drainPushes s s.cur).me = false)
    (hm : marked (drainPushes s s.cur) (drainPushes s s.cur).cur sc ≠ []) (hp : (drainPushes s s.cur).me.probes = []) :
    ∃ u, exec (.rel sc) s = .next u ∧ u.issue.ended = some (.park .fence true) := by
  have hrun : (do let S ← clamp sc; release S; noteClamp sc : Act Unit) s
      = .error (.park .fence true (startRelease (drainPushes s s.cur) (drainPushes s s.cur).cur sc)) := by
    rw [bind_of_ok (clamp_fits hs)]
    exact bind_of_error (release_marked hr hm hp)
  exact parks_of_error rfl hrun

/-- A scope that is clamped under trap-on-clamp (R173). -/
theorem clamp_error (h : maxScope s < sc.code) (ht : (s.policy s.cur.mod s.tenant).trap = true) :
    clamp sc s = .error (.trap .scopeClamp 0 (sc.code + maxScope s * 8)) := by
  unfold clamp
  simp only
  rw [if_neg (Nat.not_le.mpr h), if_pos ht]

end

/-- Settles O24: PREF by whether its address is dropped or held, each ordering instruction from what its release and its
acquire answer. -/
theorem ordering : Obligations.Ordering := by
  unfold Obligations.Ordering
  refine ⟨fun kind base off s => ⟨fun h => completes_pref_idle ?idle, fun hb hw hx => ?asks⟩,
    fun t base wid off sc s s1 s2 s3 x => ?order, fun sc s hs => ?releases, fun sc s h ht => ?clamps⟩
  case idle =>
    rcases h with h | h | h
    · exact .inl (by simp [Dropped, h])
    · exact .inl (by rw [Dropped, decide_eq_true ⟨h.1, h.2.symm⟩, Bool.or_true])
    · exact .inr (held_iff.mpr h)
  case asks =>
    refine ⟨_, rfl, rfl, rfl, completes_pref_ask ?_ ?_⟩
    · rw [Dropped, hb, Bool.false_or, decide_eq_false_iff_not]
      rintro ⟨hle, hfar | huser⟩
      · rcases hw with hw | ⟨_, hw⟩ <;> omega
      · rcases hw with hw | ⟨hs, _⟩
        · omega
        · rw [hs] at huser
          exact Bool.noConfusion huser
    · rw [← Bool.not_eq_true, held_iff]
      rintro ⟨y, hy, hf⟩
      rw [hx y hy] at hf
      exact Bool.noConfusion hf
  case order =>
    intro w a _ hs
    exact ⟨completes_acq hs, fun hr => ⟨completes_fence hs hr, completes_rel hs hr⟩,
      fun ha hl => completes_ldaq hs ha hl, fun ha hc hr hc' => completes_strl hs ha hc hr hc' rfl⟩
  case releases =>
    intro d hr
    exact ⟨release_unmarked hr, rel_waits hs hr⟩
  case clamps =>
    exact ⟨raises_of_error rfl (bind_of_error (clamp_error h ht)), raises_of_error rfl (bind_of_error (clamp_error h ht)),
      raises_of_error rfl (bind_of_error (clamp_error h ht))⟩

end Sys2Proof.Proofs.Order
end

section
/-! SUPPORT. Vector instructions on registers without streams (R131-R140): element-wise results, reductions, rankings
and moves. -/

namespace Sys2Proof.Proofs.Vectors

open Sys2Proof Sys2Proof.Machine Sys2Proof.Laws Sys2Proof.Proofs.Running Sys2Proof.Proofs.Accesses

/-! ### Integer elements -/

theorem saturate_eq {r : Int × Int} (h : r.1 ≤ r.2) (v : Int) : saturate r v = max r.1 (min r.2 v) := by
  unfold saturate
  split
  · omega
  · split <;> omega

theorem typeRange_le (ty : EType) : (typeRange ty).1 ≤ (typeRange ty).2 := by
  cases ty <;> decide

theorem lane_lt (x w i : Nat) : lane x w i < 2 ^ w := Nat.mod_lt _ (Nat.two_pow_pos w)

theorem wrap_natCast (n x : Nat) : wrap n (x : Int) = x % 2 ^ n := by
  rw [wrap, ← Int.natCast_emod, Int.toNat_natCast]

theorem wrap_signed {n x : Nat} (h : x < 2 ^ n) : wrap n (signed n x) = x := by
  unfold signed
  simp only [Nat.mod_eq_of_lt h]
  split
  · rw [wrap_natCast, Nat.mod_eq_of_lt h]
  · rw [wrap, Int.sub_emod_right, ← Int.natCast_emod, Int.toNat_natCast, Nat.mod_eq_of_lt h]

/-- The code of an element's value is the element. -/
theorem wrap_intElem {ty : EType} {x : Nat} (h : x < 2 ^ ty.width) : wrap ty.width (intElem ty x) = x := by
  unfold intElem
  split
  · rw [wrap_natCast, Nat.mod_eq_of_lt h]
  · exact wrap_signed h

theorem maxElem_int {ty : EType} {x y : Nat} (hi : ty.isInt = true) (hx : x < 2 ^ ty.width) (hy : y < 2 ^ ty.width) :
    maxElem ty x y = wrap ty.width (max (intElem ty x) (intElem ty y)) := by
  rw [maxElem, if_pos hi]
  split
  · next h => rw [max_eq_right (Int.le_of_lt h), wrap_intElem hy]
  · next h => rw [max_eq_left (Int.not_lt.mp h), wrap_intElem hx]

theorem minElem_int {ty : EType} {x y : Nat} (hi : ty.isInt = true) (hx : x < 2 ^ ty.width) (hy : y < 2 ^ ty.width) :
    minElem ty x y = wrap ty.width (min (intElem ty x) (intElem ty y)) := by
  rw [minElem, if_pos hi]
  split
  · next h => rw [min_eq_right (Int.le_of_lt h), wrap_intElem hy]
  · next h => rw [min_eq_left (Int.not_lt.mp h), wrap_intElem hx]

theorem intResult_plain (ty : EType) (v : Int) : intResult ty false v = (wrap ty.width v, 0) := rfl

theorem intResult_sat (ty : EType) (v : Int) :
    intResult ty true v = (wrap ty.width (max (typeRange ty).1 (min (typeRange ty).2 v)), 0) := by
  rw [intResult, if_pos rfl, saturate_eq (typeRange_le ty)]

/-! ### Element-wise results (R131-R133) -/

section
variable {d a b : VReg} {k : KReg} {ty : EType} {s : State}

/-- With no mask every element is active. -/
theorem activeElem_zero (i : Nat) : activeElem s 0 ty i = true := rfl

/-- The flags of the results of the active elements. -/
theorem orAll_active (act : Nat → Bool) (o : Nat → Nat) (f : Nat → Nat × Nat) (l : List Nat) :
    orAll (l.map fun i => if act i then f i else (o i, 0)) = (l.filter act).foldl (fun m i => m ||| (f i).2) 0 := by
  rw [orAll, List.foldl_map, List.foldl_filter]
  congr 1
  funext m i
  split <;> simp

/-- Writing the elements of a result to a register without a stream. -/
theorem writeElems_ok {old : Vec} {f : Nat → Nat × Nat} (hd : unbound s d) (ho : k ≠ 0 → old = s.view.v[d]) :
    writeElems d ty k old f s = .ok ((), vectorResult s d k ty f) := by
  have hvals : ((List.range ty.count).map fun i =>
      if activeElem s k ty i then f i else (lane old.toNat ty.width i, 0)).map (·.1)
      = (List.range ty.count).map fun i => if activeElem s k ty i then (f i).1 else lane (s.view.v[d]).toNat ty.width i := by
    rw [List.map_map]
    refine List.map_congr_left fun i _ => ?_
    by_cases hk : k = 0
    · subst hk
      simp only [Function.comp_apply, activeElem_zero, if_true]
    · rw [Function.comp_apply, ho hk]
      split <;> rfl
  rw [writeElems, bind_of_ok (here_ok s), bind_of_ok (wv_unbound hd), hvals, orAll_active, change_ok]
  rfl

/-- The old value of the destination, where it is needed. -/
theorem oldV_ok (hd : unbound s d) :
    ∃ old, oldV (decide (k ≠ 0)) d s = .ok (old, s) ∧ (k ≠ 0 → old = s.view.v[d]) := by
  by_cases hk : k = 0
  · exact ⟨0, by rw [oldV, if_neg (by simp [hk])]; rfl, fun h => absurd hk h⟩
  · exact ⟨s.view.v[d], by rw [oldV, if_pos (by simp [hk]), rv_unbound hd], fun _ => rfl⟩

theorem vecTwo_ok {f : Nat → Nat → Nat × Nat} (hd : unbound s d) (ha : unbound s a) (hb : unbound s b) :
    vecTwo d a b k ty f s = .ok ((), vectorResult s d k ty fun i =>
      f (lane (s.view.v[a]).toNat ty.width i) (lane (s.view.v[b]).toNat ty.width i)) := by
  obtain ⟨old, ho, hk⟩ := oldV_ok (k := k) hd
  rw [vecTwo, bind_of_ok (rv2_unbound ha hb)]
  simp only
  rw [bind_of_ok ho]
  exact writeElems_ok hd hk

theorem vecOne_ok {f : Nat → Nat × Nat} (hd : unbound s d) (ha : unbound s a) :
    vecOne d a k ty f s = .ok ((), vectorResult s d k ty fun i => f (lane (s.view.v[a]).toNat ty.width i)) := by
  obtain ⟨old, ho, hk⟩ := oldV_ok (k := k) hd
  rw [vecOne, bind_of_ok (rv_unbound ha), bind_of_ok ho]
  exact writeElems_ok hd hk

/-- A two-source instruction completes with the results that its function gives. -/
theorem completes_vecTwo {i : Instr} {f : Nat → Nat → Nat × Nat} {g : Nat → Nat × Nat} (hd : unbound s d)
    (ha : unbound s a) (hb : unbound s b) (hi : exec i s = finish s (Act.res (vecTwo d a b k ty f) s))
    (hg : ∀ j, f (lane (s.view.v[a]).toNat ty.width j) (lane (s.view.v[b]).toNat ty.width j) = g j) :
    Completes i s (vectorResult s d k ty g) := by
  obtain rfl : (fun j => f (lane (s.view.v[a]).toNat ty.width j) (lane (s.view.v[b]).toNat ty.width j)) = g := funext hg
  exact completes_of_ok hi (vecTwo_ok hd ha hb)

theorem completes_vecOne {i : Instr} {f : Nat → Nat × Nat} {g : Nat → Nat × Nat} (hd : unbound s d) (ha : unbound s a)
    (hi : exec i s = finish s (Act.res (vecOne d a k ty f) s))
    (hg : ∀ j, f (lane (s.view.v[a]).toNat ty.width j) = g j) : Completes i s (vectorResult s d k ty g) := by
  obtain rfl : (fun j => f (lane (s.view.v[a]).toNat ty.width j)) = g := funext hg
  exact completes_of_ok hi (vecOne_ok hd ha)

/-- VFMA reads its destination as a third source. -/
theorem completes_vfma {rm : Rounding} {g : Nat → Nat × Nat} (hd : unbound s d) (ha : unbound s a) (hb : unbound s b)
    (hg : ∀ j, (if ty.isInt then
        intResult ty false (intElem ty (lane (s.view.v[a]).toNat ty.width j) * intElem ty (lane (s.view.v[b]).toNat ty.width j)
          + intElem ty (lane (s.view.v[d]).toNat ty.width j))
      else floatResult ty rm (fmaNum rm (numElem ty (lane (s.view.v[a]).toNat ty.width j))
        (numElem ty (lane (s.view.v[b]).toNat ty.width j)) (numElem ty (lane (s.view.v[d]).toNat ty.width j)))) = g j) :
    Completes (.vfma d a b k ty rm) s (vectorResult s d k ty g) := by
  obtain rfl := funext hg
  refine completes_of_ok rfl ?_
  rw [bind_of_ok (rv2_unbound ha hb)]
  simp only
  rw [bind_of_ok (rv_unbound hd)]
  exact writeElems_ok hd fun _ => rfl

end

/-- Settles O26: each operation on integer elements is the element-wise function of its results. -/
theorem vectorInteger : Obligations.VectorInteger := by
  unfold Obligations.VectorInteger
  intro d a b k ty rm s hd ha hb hi x y z out clamp
  refine ⟨completes_vecTwo hd ha hb rfl fun j => ?vadd, completes_vecTwo hd ha hb rfl fun j => ?vaddSat,
    completes_vecTwo hd ha hb rfl fun j => ?vsub, completes_vecTwo hd ha hb rfl fun j => ?vsubSat,
    completes_vecTwo hd ha hb rfl fun j => ?vmul, completes_vfma hd ha hb fun j => ?vfma,
    completes_vecTwo hd ha hb rfl fun j => ?vmax, completes_vecTwo hd ha hb rfl fun j => ?vmin,
    completes_vecTwo hd ha hb rfl fun j => ?vshl, completes_vecTwo hd ha hb rfl fun j => ?vshr,
    completes_vecTwo hd ha hb rfl fun j => ?vshrLog⟩
  case vadd => exact if_pos hi
  case vaddSat => exact (if_pos hi).trans (intResult_sat ..)
  case vsub => exact if_pos hi
  case vsubSat => exact (if_pos hi).trans (intResult_sat ..)
  case vmul => exact if_pos hi
  case vfma => exact if_pos hi
  case vmax => rw [maxElem_int hi (lane_lt ..) (lane_lt ..)]
  case vmin => rw [minElem_int hi (lane_lt ..) (lane_lt ..)]
  case vshl => rw [wrap_natCast]
  case vshr => rfl
  case vshrLog =>
    rw [wrap_natCast, Nat.mod_eq_of_lt (Nat.lt_of_le_of_lt (Nat.div_le_self _ _) (lane_lt ..))]
    rfl

/-! ### Floating elements (R133) -/

theorem isInt_of_isWF {ty : EType} (h : ty.isWF = true) : ty.isInt = false := by
  revert h
  cases ty <;> decide

theorem numElem_float {ty : EType} (h : ty.isInt = false) (x : Nat) : numElem ty x = decodeNum (EType.float ty) x :=
  if_neg (by rw [h]; exact Bool.false_ne_true)

/-- Settles O27: each operation on floating elements rounds the exact result of its elements. -/
theorem vectorFloat : Obligations.VectorFloat := by
  unfold Obligations.VectorFloat
  intro d a b k ty rm sat s hd ha hb f x y z out
  refine ⟨fun hf => ?_, completes_vecOne hd ha rfl fun j => rfl⟩
  have hi := isInt_of_isWF hf
  have hn : ∀ v, numElem ty v = decodeNum f v := numElem_float hi
  have hneg : ¬ ty.isInt = true := by rw [hi]; exact Bool.false_ne_true
  refine ⟨completes_vecTwo hd ha hb rfl fun j => (if_neg hneg).trans ?_, completes_vecTwo hd ha hb rfl fun j => (if_neg hneg).trans ?_,
    completes_vecTwo hd ha hb rfl fun j => (if_neg hneg).trans ?_, completes_vfma hd ha hb fun j => (if_neg hneg).trans ?_,
    completes_vecOne hd ha rfl fun j => ?_, completes_vecTwo hd ha hb rfl fun j => ?_, completes_vecTwo hd ha hb rfl fun j => ?_⟩
  · rw [hn, hn]; rfl
  · rw [hn, hn]; rfl
  · rw [hn, hn]; rfl
  · rw [hn, hn, hn]; rfl
  · rw [hn]; rfl
  · rw [maxElem, if_neg hneg]
  · rw [minElem, if_neg hneg]

/-- Settles O28: the bitwise operations and VPERM element by element, VSEL through the mask. -/
theorem vectorBits : Obligations.VectorBits := by
  unfold Obligations.VectorBits
  intro d a b k ty z s hd ha hb x y
  refine ⟨completes_vecTwo hd ha hb rfl fun _ => rfl, completes_vecTwo hd ha hb rfl fun _ => rfl,
    completes_vecTwo hd ha hb rfl fun _ => rfl, completes_of_ok rfl ?vsel, completes_of_ok rfl ?vperm⟩
  case vsel =>
    rw [bind_of_ok (rv2_unbound ha hb)]
    simp only
    rw [bind_of_ok (here_ok s)]
    exact wv_unbound hd
  case vperm =>
    obtain ⟨old, ho, hk⟩ := oldV_ok (k := k) hd
    rw [bind_of_ok (rv2_unbound ha hb)]
    simp only
    rw [bind_of_ok ho, writeElems_ok hd hk]
    congr 3
    funext j
    simp [x, y]

end Sys2Proof.Proofs.Vectors
end

section
/-! SUPPORT. Vector comparison, reduction, ranking and the moves of R135-R140 on registers without streams. -/

namespace Sys2Proof.Proofs.Reductions

open Sys2Proof Sys2Proof.Machine Sys2Proof.Laws Sys2Proof.Proofs.Running Sys2Proof.Proofs.Accesses
  Sys2Proof.Proofs.Vectors

/-! ### The mask of a comparison (R134) -/

/-- The mask of the indices below `n` that a predicate holds of. -/
def maskOf (p : Nat → Bool) (n : Nat) : Nat := (List.range n).foldl (fun acc i => if p i then acc + 2 ^ i else acc) 0

theorem maskOf_succ (p : Nat → Bool) (n : Nat) : maskOf p (n + 1) = if p n then maskOf p n + 2 ^ n else maskOf p n := by
  rw [maskOf, List.range_succ, List.foldl_append]
  rfl

theorem maskOf_lt (p : Nat → Bool) (n : Nat) : maskOf p n < 2 ^ n := by
  induction n with
  | zero => exact Nat.one_pos
  | succ n ih =>
    rw [maskOf_succ, pow_succ]
    split <;> omega

theorem testBit_maskOf (p : Nat → Bool) (n i : Nat) : (maskOf p n).testBit i = (decide (i < n) && p i) := by
  induction n with
  | zero => simp [maskOf]
  | succ n ih =>
    have hpow : (maskOf p (n + 1)).testBit i = ((maskOf p n).testBit i || (decide (i = n) && p n)) := by
      rw [maskOf_succ]
      split
      · next h =>
        have hor := Nat.two_pow_add_eq_or_of_lt (maskOf_lt p n) 1
        rw [Nat.mul_one] at hor
        rw [Nat.add_comm, hor, Nat.testBit_or, Nat.testBit_two_pow, h, Bool.and_true,
          Bool.or_comm]
        simp only [eq_comm]
      · next h => rw [Bool.not_eq_true] at h; rw [h, Bool.and_false, Bool.or_false]
    rw [hpow, ih]
    rcases Nat.lt_trichotomy i n with h | h | h
    · simp [h, Nat.lt_succ_of_lt h, Nat.ne_of_lt h]
    · subst h; simp
    · simp [Nat.not_lt.mpr (Nat.le_of_lt h), Nat.ne_of_gt h, show ¬ i < n + 1 by omega]

/-! ### Sums of active elements (R136, R137) -/

theorem activeSum_eq (s : State) (k : KReg) (ty : EType) (f : Nat → Int) :
    activeSum s k ty f = (((List.range ty.count).filter (activeElem s k ty)).map f).sum := by
  rw [activeSum, ← List.foldl_filter, ← List.foldl_map (f := f) (g := fun x y => x + y), List.sum_eq_foldl]

/-! ### The largest element (R136) -/

theorem intElem_maxElem {ty : EType} (hi : ty.isInt = true) (x y : Nat) :
    (maxElem ty x y = x ∨ maxElem ty x y = y) ∧ intElem ty x ≤ intElem ty (maxElem ty x y) ∧
      intElem ty y ≤ intElem ty (maxElem ty x y) := by
  rw [maxElem, if_pos hi]
  split
  · next h => exact ⟨.inr rfl, Int.le_of_lt h, le_refl _⟩
  · next h => exact ⟨.inl rfl, le_refl _, Int.not_lt.mp h⟩

/-- The largest of a list of integer elements is one of them, and none is above it. -/
theorem foldl_maxElem {ty : EType} (hi : ty.isInt = true) (l : List Nat) (e : Nat) :
    l.foldl (maxElem ty) e ∈ e :: l ∧ ∀ x ∈ e :: l, intElem ty x ≤ intElem ty (l.foldl (maxElem ty) e) := by
  induction l generalizing e with
  | nil => exact ⟨List.mem_singleton_self e, by rintro x hx; rw [List.mem_singleton.mp hx]; exact le_refl _⟩
  | cons y l ih =>
    obtain ⟨hone, hx, hy⟩ := intElem_maxElem hi e y
    obtain ⟨hmem, hle⟩ := ih (maxElem ty e y)
    have htop := hle _ List.mem_cons_self
    refine ⟨?_, fun z hz => ?_⟩
    · rcases List.mem_cons.mp hmem with h | h
      · rw [List.foldl_cons, h]
        rcases hone with h | h <;> simp [h]
      · exact List.mem_cons_of_mem _ (List.mem_cons_of_mem _ h)
    · rcases List.mem_cons.mp hz with rfl | hz
      · exact le_trans hx htop
      · rcases List.mem_cons.mp hz with rfl | hz
        · exact le_trans hy htop
        · exact hle z (List.mem_cons_of_mem _ hz)

theorem maxElem_float {ty : EType} (hi : ty.isInt = false) : maxElem ty = maxCodeOf (EType.float ty) := by
  funext x y
  exact if_neg (by rw [hi]; exact Bool.false_ne_true)

/-- What VREDMAX writes of the active elements, in ascending order. -/
def largest (ty : EType) : List Nat → Nat
  | [] => lowestElem ty
  | e :: es =>
    if !ty.isInt && (numElem ty (es.foldl (maxElem ty) e)).isNan then (EType.float ty).nanCode else es.foldl (maxElem ty) e

theorem largest_int {ty : EType} (hi : ty.isInt = true) (e : Nat) (es : List Nat) :
    largest ty (e :: es) = es.foldl (maxElem ty) e := by
  rw [largest, hi, if_neg (by simp)]

theorem largest_float {ty : EType} (hi : ty.isInt = false) (e : Nat) (es : List Nat) :
    largest ty (e :: es) = if (decodeNum (EType.float ty) (es.foldl (maxCodeOf (EType.float ty)) e)).isNan then
      (EType.float ty).nanCode else es.foldl (maxCodeOf (EType.float ty)) e := by
  rw [largest, numElem_float hi, maxElem_float hi, hi]
  rfl

/-! ### The ranking (R138) -/

/-- The order of two values that are not NaN (R138). -/
theorem cmpNum_total {x y : Num} (hx : x.isNan = false) (hy : y.isNan = false) : ∃ o, cmpNum x y = some o := by
  unfold cmpNum
  split
  · exact Bool.noConfusion hx
  · exact Bool.noConfusion hy
  all_goals exact ⟨_, rfl⟩

theorem compare_lt_swap {α : Type} [LinearOrder α] {a b : α} (h : compare a b = .lt) : compare b a = .gt := by
  rw [compare_lt_iff_lt] at h
  exact compare_gt_iff_gt.mpr h

theorem cmpNum_swap {x y : Num} (h : cmpNum x y = some .lt) : cmpNum y x = some .gt := by
  cases x <;> cases y <;> simp only [cmpNum, Option.some.injEq, reduceCtorEq] at h ⊢
  case inf.inf => exact compare_lt_swap h
  case inf.fin neg _ _ _ => cases neg <;> simp at h ⊢
  case fin.inf _ _ _ neg => cases neg <;> simp at h ⊢
  case fin.fin a m e b n d =>
    rw [min_comm d e]
    exact compare_lt_swap h

/-- An index ranks before another: its value is larger, or equal and its index lower (R138). -/
def Before (u v : Nat × Num) : Prop := cmpNum u.2 v.2 = some .gt ∨ (cmpNum u.2 v.2 = some .eq ∧ u.1 < v.1)

theorem rankInsert_perm (e : Nat × Num) (l : List (Nat × Num)) : (rankInsert e l).Perm (e :: l) := by
  induction l with
  | nil => exact List.Perm.refl _
  | cons x xs ih =>
    rw [rankInsert]
    split
    · exact List.Perm.refl _
    · exact (ih.cons x).trans (List.Perm.swap ..)

theorem rankInsert_head (e : Nat × Num) (l : List (Nat × Num)) :
    (rankInsert e l).head? = some e ∨ (rankInsert e l).head? = l.head? := by
  cases l with
  | nil => exact .inl rfl
  | cons x xs =>
    rw [rankInsert]
    split
    · exact .inl rfl
    · exact .inr rfl

/-- An index above those of a ranking goes to a place where the ranking stays one. -/
theorem rankInsert_chain {e : Nat × Num} {l : List (Nat × Num)} (hl : l.IsChain Before) (hlow : ∀ x ∈ l, x.1 < e.1)
    (he : e.2.isNan = false) (hnan : ∀ x ∈ l, x.2.isNan = false) : (rankInsert e l).IsChain Before := by
  induction l with
  | nil => exact .singleton e
  | cons x xs ih =>
    obtain ⟨hhead, htail⟩ := List.isChain_cons.mp hl
    rw [rankInsert]
    split
    · next h => exact List.isChain_cons.mpr ⟨fun y hy => by cases hy; exact .inl (cmpNum_swap h), hl⟩
    · next h =>
      refine List.isChain_cons.mpr ⟨fun y hy => ?_, ih htail (fun z hz => hlow z (.tail _ hz)) fun z hz => hnan z (.tail _ hz)⟩
      rcases rankInsert_head e xs with hr | hr <;> rw [hr] at hy
      · cases hy
        obtain ⟨o, ho⟩ := cmpNum_total (hnan x (.head _)) he
        cases o with
        | lt => exact absurd ho (by simpa using h)
        | eq => exact .inr ⟨ho, hlow x (.head _)⟩
        | gt => exact .inl ho
      · exact hhead y hy

/-- The ranking of a list of indices. -/
def ranking (f : Nat → Num) (l : List Nat) : List (Nat × Num) := l.foldl (fun r i => rankInsert (i, f i) r) []

theorem ranking_concat (f : Nat → Num) (l : List Nat) (i : Nat) :
    ranking f (l ++ [i]) = rankInsert (i, f i) (ranking f l) := by
  rw [ranking, List.foldl_append]
  rfl

theorem ranking_perm (f : Nat → Num) (l : List Nat) : (ranking f l).Perm (l.map fun i => (i, f i)) := by
  induction l using List.reverseRecOn with
  | nil => exact List.Perm.refl _
  | append_singleton l i ih =>
    rw [ranking_concat, List.map_append]
    exact (rankInsert_perm ..).trans ((ih.cons _).trans (List.perm_append_singleton _ _).symm)

theorem ranking_mem {f : Nat → Num} {l : List Nat} {x : Nat × Num} (h : x ∈ ranking f l) : x.1 ∈ l ∧ x.2 = f x.1 := by
  obtain ⟨i, hi, rfl⟩ := List.mem_map.mp ((ranking_perm f l).mem_iff.mp h)
  exact ⟨hi, rfl⟩

/-- Ranked in ascending order of their indices, the values stand from the largest down. -/
theorem ranking_chain {f : Nat → Num} (hf : ∀ i, (f i).isNan = false) {l : List Nat} (hl : l.Pairwise (· < ·)) :
    (ranking f l).IsChain Before := by
  induction l using List.reverseRecOn with
  | nil => exact .nil
  | append_singleton l i ih =>
    obtain ⟨hl, -, hlast⟩ := List.pairwise_append.mp hl
    rw [ranking_concat]
    exact rankInsert_chain (ih hl) (fun x hx => hlast _ (ranking_mem hx).1 _ (.head _)) (hf i)
      fun x hx => by rw [(ranking_mem hx).2]; exact hf _

theorem ranking_before {f : Nat → Num} (hf : ∀ i, (f i).isNan = false) {l : List Nat} (hl : l.Pairwise (· < ·)) {j : Nat}
    {u v : Nat × Num} (hu : (ranking f l)[j]? = some u) (hv : (ranking f l)[j + 1]? = some v) : Before u v := by
  obtain ⟨_, rfl⟩ := List.getElem?_eq_some_iff.mp hu
  obtain ⟨hlt, rfl⟩ := List.getElem?_eq_some_iff.mp hv
  exact List.isChain_iff_getElem.mp (ranking_chain hf hl) j hlt

theorem rankNum_isNan (ty : EType) (x : Nat) : (rankNum ty x).isNan = false := by
  unfold rankNum
  simp only
  split
  · rfl
  · next h => simpa using h

/-! ### The instructions -/

section
variable {d a b : VReg} {k : KReg} {ty : EType} {s : State}

theorem completes_vcmp {c : KReg} {cond : VCond} (ha : unbound s a) (hb : unbound s b) :
    Completes (.vcmp c a b k ty cond) s (wk s c (BitVec.ofNat 32 (maskOf (fun i => activeElem s k ty i
      && condHolds cond (cmpNum (numElem ty (lane (s.view.v[a]).toNat ty.width i))
        (numElem ty (lane (s.view.v[b]).toNat ty.width i)))) ty.count))) := by
  refine completes_of_ok rfl ?_
  rw [bind_of_ok (rv2_unbound ha hb)]
  rfl

theorem completes_vredsum_int {acc : FloatFmt} (hd : unbound s d) (ha : unbound s a) (hb : unbound s b)
    (hi : ty.isInt = true) :
    Completes (.vredsum d a b k ty acc) s (putV d (BitVec.ofNat 256 (wrap 32 (signed 32 (s.view.v[b]).toNat
      + activeSum s k ty fun i => intElem ty (lane (s.view.v[a]).toNat ty.width i)))) s) := by
  refine completes_of_ok rfl ?_
  rw [bind_of_ok (rv2_unbound ha hb)]
  simp only
  rw [bind_of_ok (here_ok s), if_pos hi, wv_unbound hd]

theorem completes_vredsum_float {acc : FloatFmt} (hd : unbound s d) (ha : unbound s a) (hb : unbound s b)
    (hi : ¬ ty.isInt = true) :
    let r := quadsum acc.toCode ((s.view.v[b]).toNat % 2 ^ acc.toCode.width) (activeNums s k ty s.view.v[a])
    Completes (.vredsum d a b k ty acc) s (setFlags (putV d (BitVec.ofNat 256 r.1) s) r.2) := by
  refine completes_of_ok rfl ?_
  rw [bind_of_ok (rv2_unbound ha hb)]
  simp only
  rw [bind_of_ok (here_ok s), if_neg hi, bind_of_ok (wv_unbound hd), change_ok]

theorem completes_vdot_int {acc : FloatFmt} (hd : unbound s d) (ha : unbound s a) (hb : unbound s b)
    (hi : ty.isInt = true) :
    Completes (.vdot d a b k ty acc) s (putV d (BitVec.ofNat 256 (setLane (s.view.v[d]).toNat 32 0
      (wrap 32 (signed 32 (s.view.v[d]).toNat + activeSum s k ty fun i =>
        intElem ty (lane (s.view.v[a]).toNat ty.width i) * intElem ty (lane (s.view.v[b]).toNat ty.width i))))) s) := by
  refine completes_of_ok rfl ?_
  rw [bind_of_ok (rv2_unbound ha hb)]
  simp only
  rw [bind_of_ok (rv_unbound hd), bind_of_ok (here_ok s), if_pos hi, wv_unbound hd]

theorem completes_vdot_float {acc : FloatFmt} (hd : unbound s d) (ha : unbound s a) (hb : unbound s b)
    (hi : ¬ ty.isInt = true) :
    let ts := dotTerms s k ty s.view.v[a] s.view.v[b]
    let q := quadsum acc.toCode ((s.view.v[d]).toNat % 2 ^ acc.toCode.width) (ts.map (·.1))
    Completes (.vdot d a b k ty acc) s
      (setFlags (putV d (BitVec.ofNat 256 (setLane (s.view.v[d]).toNat acc.toCode.width 0 q.1)) s)
        (q.2 ||| ts.foldl (fun m e => m ||| e.2) 0)) := by
  refine completes_of_ok rfl ?_
  rw [bind_of_ok (rv2_unbound ha hb)]
  simp only
  rw [bind_of_ok (rv_unbound hd), bind_of_ok (here_ok s), if_neg hi, bind_of_ok (wv_unbound hd), change_ok]

theorem completes_vredmax (hd : unbound s d) (ha : unbound s a) :
    Completes (.vredmax d a k ty) s (putV d (BitVec.ofNat 256 (largest ty (((List.range ty.count).filter
      (activeElem s k ty)).map fun i => lane (s.view.v[a]).toNat ty.width i))) s) := by
  refine completes_of_ok rfl ?_
  rw [bind_of_ok (rv_unbound ha), bind_of_ok (here_ok s), wv_unbound hd]
  cases ((List.range ty.count).filter (activeElem s k ty)).map fun i => lane (s.view.v[a]).toNat ty.width i <;> rfl

theorem completes_vtopk {n : BitVec 4} (hd : unbound s d) (ha : unbound s a) :
    Completes (.vtopk d a n k ty) s (setFlags (putV d (packV 8 ((List.range 32).map fun j =>
        if j < n.toNat + 1 then (((ranking (fun i => rankNum ty (lane (s.view.v[a]).toNat ty.width i))
          ((List.range ty.count).filter (activeElem s k ty))).map (·.1))[j]?).getD 0xFF else 0xFF)) s)
      (if ((List.range ty.count).filter (activeElem s k ty)).any fun i =>
        (numElem ty (lane (s.view.v[a]).toNat ty.width i)).isNan then flNV else 0)) := by
  refine completes_of_ok rfl ?_
  rw [bind_of_ok (rv_unbound ha), bind_of_ok (here_ok s), bind_of_ok (wv_unbound hd), change_ok]
  rfl

end

/-- Settles O29: the mask of a comparison bit by bit, the sums of the active elements, the largest by induction over
them, and a ranking that each insertion keeps in order. -/
theorem vectorReductions : Obligations.VectorReductions := by
  unfold Obligations.VectorReductions
  intro c d a b k ty cond acc n s ha x y act f g rank before
  refine ⟨fun hb => ⟨_, completes_vcmp ha hb, fun i hi => ?vcmp⟩, fun hb hd => ⟨fun hi => ?ints, fun hi => ?floats⟩,
    fun hd => ⟨_, completes_vredmax hd ha, fun hnone => ?none, fun hi hsome => ?largest, fun e es hi he => ?largestFloat⟩,
    fun hd => ⟨(ranking (fun i => rankNum ty (x i)) act).map (·.1), ?perm, ?chain, ?vtopk⟩⟩
  case vcmp =>
    rw [BitVec.getLsbD_ofNat, testBit_maskOf, decide_eq_true hi, Bool.true_and, Bool.and_assoc]
  case ints =>
    have hsum := completes_vredsum_int (k := k) (acc := acc) hd ha hb hi
    have hdot := completes_vdot_int (k := k) (acc := acc) hd ha hb hi
    rw [activeSum_eq] at hsum hdot
    exact ⟨hsum, hdot⟩
  case floats =>
    have hneg : ¬ ty.isInt = true := by rw [hi]; exact Bool.false_ne_true
    exact ⟨completes_vredsum_float hd ha hb hneg, completes_vdot_float hd ha hb hneg⟩
  case none =>
    rw [show (List.range ty.count).filter (activeElem s k ty) = [] from hnone]
    rfl
  case largest =>
    change largest ty (act.map x) ∈ act.map x ∧ ∀ i ∈ act, intElem ty (x i) ≤ intElem ty (largest ty (act.map x))
    obtain ⟨e, es, he⟩ := List.exists_cons_of_ne_nil (mt List.map_eq_nil_iff.mp hsome)
    obtain ⟨hmem, hle⟩ := foldl_maxElem hi es e
    rw [he, largest_int hi]
    exact ⟨hmem, fun i hi => hle _ (he ▸ List.mem_map_of_mem hi)⟩
  case largestFloat =>
    rw [show ((List.range ty.count).filter (activeElem s k ty)).map _ = e :: es from he, largest_float hi]
  case perm =>
    have h := (ranking_perm (fun i => rankNum ty (x i)) act).map Prod.fst
    rwa [List.map_map, show (Prod.fst ∘ fun i => (i, rankNum ty (x i))) = id from rfl, List.map_id] at h
  case chain =>
    intro j i i' hi hi'
    rw [List.getElem?_map, Option.map_eq_some_iff] at hi hi'
    obtain ⟨u, hu, rfl⟩ := hi
    obtain ⟨v, hv, rfl⟩ := hi'
    have hbefore := ranking_before (rankNum_isNan ty <| x ·) (List.pairwise_lt_range.filter _) hu hv
    rw [Before, (ranking_mem (List.mem_of_getElem? hu)).2, (ranking_mem (List.mem_of_getElem? hv)).2] at hbefore
    exact hbefore
  case vtopk =>
    have h := completes_vtopk (k := k) (ty := ty) (n := n) hd ha
    simp only [Nat.lt_succ_iff] at h
    exact h

/-! ### Conversion and moves (R135, R140) -/

section
variable {d a : VReg} {s : State}

theorem completes_vcvt {k : KReg} {src dst : EType} {rm : Rounding} {part : BitVec 3} (hd : unbound s d)
    (ha : unbound s a) {old : Vec} (ho : oldV (k ≠ 0 || decide (src.count < dst.count)) d s = .ok (old, s)) :
    let n := min src.count dst.count
    let r := convertAll src dst rm (fun j => maskBit s k (if n = 64 then j / 2 else j)) (s.view.v[a]).toNat
      (if dst.count < src.count then part.toNat * n else 0) (if src.count < dst.count then part.toNat * n else 0) n 0
      old.toNat 0 s.me.csr.rndseed
    Completes (.vcvt d a dst k src rm part) s (setSeed (setFlags (putV d (BitVec.ofNat 256 r.1) s) r.2.1) r.2.2) := by
  refine completes_of_ok rfl ?_
  rw [bind_of_ok (rv_unbound ha), bind_of_ok ho, bind_of_ok (here_ok s), bind_of_ok (wv_unbound hd), change_ok]
  rfl

end

/-- Settles O30: the conversions of a part of the vector, and the moves of one element. -/
theorem vectorMoves : Obligations.VectorMoves := by
  unfold Obligations.VectorMoves
  refine ⟨fun d a src dst k rm part s hd ha => ?_, fun vd va gd ga gb wid s hd ha => ⟨?vsplat, ?vmovg, ?vmovgSigned, ?vmovv⟩⟩
  · intro n soff doff old r
    by_cases hold : k ≠ 0 ∨ src.count < dst.count
    · have h := completes_vcvt (rm := rm) (part := part) hd ha (k := k) (src := src) (dst := dst) (old := s.view.v[d])
        (by rw [oldV, if_pos (by simpa using hold), rv_unbound hd])
      rwa [show (s.view.v[d]).toNat = old from (if_pos hold).symm] at h
    · have h := completes_vcvt (rm := rm) (part := part) hd ha (k := k) (src := src) (dst := dst) (old := 0)
        (by rw [oldV, if_neg (by simpa using hold)]; rfl)
      rwa [show (0 : Vec).toNat = old from (if_neg hold).symm] at h
  case vsplat => exact completes_of_ok rfl (wv_unbound hd)
  case vmovg =>
    refine completes_of_ok rfl ?_
    rw [bind_of_ok (rv_unbound ha), change_ok]
    rfl
  case vmovgSigned =>
    refine completes_of_ok rfl ?_
    rw [bind_of_ok (rv_unbound ha), change_ok]
    rfl
  case vmovv =>
    refine completes_of_ok rfl ?_
    rw [bind_of_ok (rv_unbound hd), wv_unbound hd]

end Sys2Proof.Proofs.Reductions
end

section
/-! SUPPORT. The atomics (R166-R169): the one meaning that they share, at a bank and on translated memory. -/

namespace Sys2Proof.Proofs.AtomicAccesses

open Sys2Proof Sys2Proof.Machine Sys2Proof.Laws Sys2Proof.Proofs.Running Sys2Proof.Proofs.Registers
  Sys2Proof.Proofs.Accesses Sys2Proof.Proofs.ControlTransfer Sys2Proof.Proofs.Order

/-! ### Scopes that may be left out (R338) -/

theorem optScope_fits {s : State} {sc : Scope} (h : s.fits sc) : optScope sc s = .ok (sc, s) := by
  unfold optScope
  split
  · rfl
  · exact clamp_fits h

theorem noteScope_fits {s : State} {sc : Scope} (h : s.fits sc) : noteScope sc s = .ok ((), s) := by
  unfold noteScope
  split
  · rfl
  · exact noteClamp_fits h

/-! ### The meaning of an atomic -/

/-- The end of an atomic: its result, and the acquire of AQ. -/
def afterAtomic (d : GReg) (sc : Scope) (aq : Bool) (old : Nat) : Act Unit := do
  change fun t => wg t d (word old)
  if aq then acquire sc

/-- The state that the end of an atomic leaves. -/
def atomicResult (u : State) (d : GReg) (sc : Scope) (aq : Bool) (old : Nat) : State :=
  if aq then (wg u d (word old)).acquired sc else wg u d (word old)

theorem afterAtomic_ok {u : State} {d : GReg} {sc : Scope} {aq : Bool} {old : Nat} :
    afterAtomic d sc aq old u = .ok ((), atomicResult u d sc aq old) := by
  rw [afterAtomic, bind_of_ok (change_ok _ _), atomicResult]
  split
  · exact acquire_acquired
  · rfl

/-- With no destination and no acquire the end of an atomic changes nothing. -/
theorem atomicResult_discarded {u : State} {d : GReg} {sc : Scope} {aq : Bool} {old : Nat} (hd : d = 0) (haq : aq = false) :
    atomicResult u d sc aq old = u := by
  rw [atomicResult, haq, if_neg Bool.false_ne_true, hd, wg_zero]

/-- The release of RL. -/
def relBefore (rl : Bool) (sc : Scope) : Act Unit := if rl then release sc else pure ()

theorem relBefore_ok {rl : Bool} {sc : Scope} {u u' : State}
    (h : if rl = true then release sc u = .ok ((), u') else u' = u) : relBefore rl sc u = .ok ((), u') := by
  unfold relBefore
  split at h
  · next hrl => rw [if_pos hrl, h]
  · next hrl => rw [if_neg hrl, h]; rfl

section
variable {op : AmoOp} {d a b : GReg} {wid : Width} {sc : Scope} {near rl aq : Bool} {s s1 s2 s3 u : State} {old : Nat}
  {i : Instr}

theorem exec_amo : exec (amoInstr op d a b wid sc near rl aq) s = finish s (Act.res (atomic op d a b wid sc near rl aq) s) := by
  cases op <;> rfl

theorem atomic_misaligned (ha : addrOf (rg s a) % wid.bytes ≠ 0) :
    atomic op d a b wid sc near rl aq s = .error (.trap .align (addrOf (rg s a)) 2) := by
  rw [atomic, bind_of_ok (here_ok s), bind_of_error (aligned_error ha)]
  rfl

/-- A placed address whose store check passes is no launch register (R159, R245). -/
theorem not_launch_of_check {x : Nat} (h : placedStoreCheck x .atomic s = .ok ((), s1)) :
    ¬ (bits x 55 54 = 2 ∧ launchReg (x % 2 ^ 27) = true) := by
  rintro ⟨hwin, hreg⟩
  have hlow : 0x4000000 ≤ x % 2 ^ 27 := by
    unfold launchReg at hreg
    rw [decide_eq_true_eq] at hreg
    omega
  unfold placedStoreCheck at h
  cases hc : placedCheck x .atomic s with
  | error e => rw [bind_of_error hc] at h; cases h
  | ok r =>
    rw [bind_of_ok hc, storeTaken, if_pos ⟨hwin, hlow⟩, if_pos hreg] at h
    cases h

theorem atomic_placed (hs : s.fits sc) (ha : addrOf (rg s a) % wid.bytes = 0) (hb : bitAt (addrOf (rg s a)) 55 = true)
    (hc : placedStoreCheck (addrOf (rg s a)) .atomic s = .ok ((), s1)) (hr : relBefore rl sc s1 = .ok ((), s2))
    (hm : amoPlaced (addrOf (rg s a)) wid.bytes op ((rg s b).toNat % 256 ^ wid.bytes) ((rg s d).toNat % 256 ^ wid.bytes) s2
      = .ok (old, u)) (hu : u.fits sc) :
    atomic op d a b wid sc near rl aq s = .ok ((), atomicResult u d sc aq old) := by
  rw [atomic, bind_of_ok (here_ok s), bind_of_ok (aligned_of_mod_eq_zero ha), bind_of_ok (optScope_fits hs), if_pos hb,
    if_neg (not_launch_of_check hc), bind_of_ok hc]
  refine (bind_of_ok hr).trans ?_
  rw [bind_of_ok hm, bind_of_ok (noteScope_fits hu)]
  exact afterAtomic_ok

theorem atomic_global (hs : s.fits sc) (ha : addrOf (rg s a) % wid.bytes = 0) (hb : bitAt (addrOf (rg s a)) 55 = false)
    (hm : amoGlobal (addrOf (rg s a)) wid op ((rg s b).toNat % 256 ^ wid.bytes) ((rg s d).toNat % 256 ^ wid.bytes) near
      (decide (d = 0) && !aq) (relBefore rl sc) s = .ok (old, u)) (hu : u.fits sc) :
    atomic op d a b wid sc near rl aq s = .ok ((), atomicResult u d sc aq old) := by
  rw [atomic, bind_of_ok (here_ok s), bind_of_ok (aligned_of_mod_eq_zero ha), bind_of_ok (optScope_fits hs),
    if_neg (by rw [hb]; exact Bool.false_ne_true)]
  refine (bind_of_ok hm).trans ?_
  rw [bind_of_ok (noteScope_fits hu)]
  exact afterAtomic_ok

theorem atomic_global_error {r : Res} (hs : s.fits sc) (ha : addrOf (rg s a) % wid.bytes = 0)
    (hb : bitAt (addrOf (rg s a)) 55 = false)
    (hm : amoGlobal (addrOf (rg s a)) wid op ((rg s b).toNat % 256 ^ wid.bytes) ((rg s d).toNat % 256 ^ wid.bytes) near
      (decide (d = 0) && !aq) (relBefore rl sc) s = .error r) :
    atomic op d a b wid sc near rl aq s = .error r := by
  rw [atomic, bind_of_ok (here_ok s), bind_of_ok (aligned_of_mod_eq_zero ha), bind_of_ok (optScope_fits hs),
    if_neg (by rw [hb]; exact Bool.false_ne_true)]
  exact bind_of_error hm

/-! ### Translated memory (R168, R169) -/

variable {x v e : Nat} {posted : Bool} {rel : Act Unit} {at' : Attr}

theorem amoGlobal_answered (h : oldResp s.me = some (.ok, old, false)) :
    amoGlobal x wid op v e near posted rel s = .ok (old, s) := by
  rw [amoGlobal, bind_of_ok (here_ok s), h]
  rfl

/-- An atomic that has asked for nothing yet is near or far by its NEAR bit and the leaf of its part. -/
theorem amoGlobal_first {q : Nat × Nat} (ho : oldResp s.me = none) (hk : hasAsked s.me (farKey x) = false)
    (hsec : sectorFor x wid.bytes .atomic near near s = .ok ((at', q), s1)) (hr : rel s1 = .ok ((), s2)) :
    amoGlobal x wid op v e near posted rel s =
      (if near && at'.c && decide (at'.holder = s.pkgOf s.cur.mod) then amoNear x wid.bytes op v e
        else if posted then do
          change fun t => sendFar t x wid op v e at' true
          pure 0
        else fun t => .error (.park .mem true (ask (sendFar t x wid op v e at' false) (farKey x)))) s2 := by
  rw [amoGlobal, bind_of_ok (here_ok s), ho]
  simp only
  rw [if_neg (by rw [hk]; exact Bool.false_ne_true), bind_of_ok hsec]
  simp only
  rw [bind_of_ok hr]

theorem amoNear_poisoned {l : L1Line} {o : L1Sec} {w : Nat} (hl : l1Line s.core x = some l) (ho : l1Sec s.core x = some o)
    (hsv : o.serves x w = true) (hp : poisonHit o.poison x w = true) :
    amoNear x w op v e s = .error (.trap .dataError x 2) := by
  unfold amoNear
  rw [hl, ho]
  simp only
  rw [if_neg (by rw [hsv]; exact Bool.true_eq_false.mp), if_pos hp]
  rfl

theorem amoNear_ok {l : L1Line} {o : L1Sec} {w : Nat} (hl : l1Line s.core x = some l) (ho : l1Sec s.core x = some o)
    (hsv : o.serves x w = true) (hp : poisonHit o.poison x w = false) :
    amoNear x w op v e s = .ok (o.data / 256 ^ (x % 128) % 256 ^ w,
      match amoNew op w (o.data / 256 ^ (x % 128) % 256 ^ w) v e with
      | none => s
      | some y => l1Write s x w (2 ^ w - 1) y l { o with near := true }) := by
  unfold amoNear
  rw [hl, ho]
  simp only
  rw [if_neg (by rw [hsv]; exact Bool.true_eq_false.mp), if_neg (by rw [hp]; exact Bool.false_ne_true)]
  cases amoNew op w (o.data / 256 ^ (x % 128) % 256 ^ w) v e <;> rfl

end

/-! ### What an atomic makes of the old value (R167) -/

theorem amoNew_min (w old v e : Nat) : ∃ m, amoNew .min w old v e = some m ∧ m ∈ [old, v] ∧
    signed (8 * w) m = min (signed (8 * w) old) (signed (8 * w) v) := by
  refine ⟨_, rfl, ?_⟩
  split
  · next h => exact ⟨by simp, (min_eq_right (Int.le_of_lt h)).symm⟩
  · next h => exact ⟨by simp, (min_eq_left (Int.not_lt.mp h)).symm⟩

theorem amoNew_max (w old v e : Nat) : ∃ m, amoNew .max w old v e = some m ∧ m ∈ [old, v] ∧
    signed (8 * w) m = max (signed (8 * w) old) (signed (8 * w) v) := by
  refine ⟨_, rfl, ?_⟩
  split
  · next h => exact ⟨by simp, (max_eq_right (Int.le_of_lt h)).symm⟩
  · next h => exact ⟨by simp, (max_eq_left (Int.not_lt.mp h)).symm⟩

/-- Settles O31: one meaning for the twelve operations, placed or on translated memory. -/
theorem atomics : Obligations.Atomics := by
  unfold Obligations.Atomics
  refine ⟨fun op d a b wid sc near rl aq s s1 s2 s3 old => ?_, fun w old v e _ _ _ => ?values⟩
  · intro w x v e i out made freed hs
    have hi : exec i s = finish s (Act.res (atomic op d a b wid sc near rl aq) s) := exec_amo
    refine ⟨fun ha => raises_of_error hi (atomic_misaligned ha), fun ha hb hc hf hl hu => ?placed,
      fun ha hb ho => completes_of_ok hi (atomic_global hs ha hb (amoGlobal_answered ho) hs),
      fun at' dat po ha hb ho hk hsec hf => ?first⟩
    case placed =>
      refine completes_of_ok hi (atomic_placed hs ha hb hc (relBefore_ok hf) ?_ hu)
      rw [amoPlaced, bind_of_ok hl]
      simp only [made]
      cases amoNew op w old v e <;> rfl
    case first =>
      intro isNear
      have hfirst (posted : Bool) := amoGlobal_first (op := op) (v := v) (e := e) (posted := posted) ho hk hsec
        (relBefore_ok (rl := rl) hf)
      have hnear (posted : Bool) (h : isNear) :
          amoGlobal x wid op v e near posted (relBefore rl sc) s = amoNear x w op v e s2 :=
        (hfirst posted).trans (by rw [if_pos (by simpa [and_assoc] using h)])
      have hfar (posted : Bool) (h : ¬ isNear) := (hfirst posted).trans (by rw [if_neg (by simpa [and_assoc, isNear] using h)])
      refine ⟨fun h hm hu => completes_of_ok hi (atomic_global hs ha hb ((hnear _ h).trans hm) hu), fun l o h hl ho' hsv =>
        ⟨fun hp => raises_of_error hi (atomic_global_error hs ha hb ((hnear _ h).trans (amoNear_poisoned hl ho' hsv hp))), fun hp => (amoNear_ok hl ho' hsv hp).trans ?_⟩,
        fun h hd haq hu => ?posted, fun h hd => ?waits⟩
      · cases amoNew op w (o.data / 256 ^ (x % 128) % 256 ^ w) v e <;> rfl
      case posted =>
        have hgo := hfar (decide (d = 0) && !aq) h
        rw [if_pos (by rw [hd, haq]; rfl)] at hgo
        have hm := atomic_global (aq := aq) (d := d) hs ha hb hgo hu
        rw [atomicResult_discarded hd haq] at hm
        exact completes_of_ok hi hm
      case waits =>
        have hposted : (decide (d = 0) && !aq) = false := by
          rcases hd with hd | hd <;> simp [hd]
        have hm := hfar (decide (d = 0) && !aq) h
        rw [if_neg (by rw [hposted]; exact Bool.false_ne_true)] at hm
        exact parks_of_error hi (atomic_global_error hs ha hb hm)
  case values =>
    have hpow : 2 ^ (8 * w) = 256 ^ w := pow_mul 2 8 w
    refine ⟨by rw [amoNew, hpow], rfl, fun h => if_pos h, fun h => if_neg h, rfl, rfl, amoNew_min w old v e,
      amoNew_max w old v e, ⟨_, rfl, Nat.testBit_and old v⟩, ⟨_, rfl, Nat.testBit_or old v⟩, ⟨_, rfl, Nat.testBit_xor old v⟩⟩

end Sys2Proof.Proofs.AtomicAccesses
end

section
/-! SUPPORT. Waiting on words and events, and barriers (R229-R232, R256-R258): what a wait leaves of its strand, events
that reach slots, the fields of a barrier. -/

namespace Sys2Proof.Proofs.WaitsBarriers

open Sys2Proof Sys2Proof.Machine Sys2Proof.Laws Sys2Proof.Proofs.Running Sys2Proof.Proofs.Fields
  Sys2Proof.Proofs.Accesses Sys2Proof.Proofs.ControlTransfer Sys2Proof.Proofs.Order Sys2Proof.Proofs.AtomicAccesses

/-! ### What a wait leaves of its strand (R175, R176) -/

/-- The strand of a word that waits. -/
theorem parkWord_me (t : State) (r : ParkReason) (sent : Bool) :
    (parkWord t r sent).me = if t.issue.half = .lone then { t.me with st := .parked r, askedAt := t.me.stamp t.ticks } else t.me := by
  unfold parkWord
  split
  · next h =>
    rw [if_pos h]
    exact modMe_me t fun x => { x with st := .parked r, askedAt := x.stamp t.ticks }
  · next h => rw [h]; rfl
  · next h => rw [h]; rfl

/-- A wait leaves the registers, the loop levels and the program counter. -/
theorem parkWord_keeps (t : State) (r : ParkReason) (sent : Bool) :
    (parkWord t r sent).me.g = t.me.g ∧ (parkWord t r sent).me.v = t.me.v ∧ (parkWord t r sent).me.k = t.me.k ∧
      (parkWord t r sent).me.loops = t.me.loops ∧ (parkWord t r sent).me.pc = t.me.pc := by
  rw [parkWord_me]
  split <;> exact ⟨rfl, rfl, rfl, rfl, rfl⟩

/-- The parts of a strand and of its word that a wait is about. -/
structure SameWord (s t : State) : Prop where
  g : t.me.g = s.me.g
  v : t.me.v = s.me.v
  k : t.me.k = s.me.k
  loops : t.me.loops = s.me.loops
  pc : t.me.pc = s.me.pc
  half : t.issue.half = s.issue.half

theorem SameWord.refl (s : State) : SameWord s s := ⟨rfl, rfl, rfl, rfl, rfl, rfl⟩

/-- A word that parks where its strand is as it was waits. -/
theorem waits_of_park {i : Instr} {s t : State} {r : ParkReason} {sent : Bool} (h : exec i s = finish s (.park r sent t))
    (ht : SameWord s t) : Waits i s r := by
  obtain ⟨hg, hv, hk, hl, hpc⟩ := parkWord_keeps t r sent
  refine ⟨_, sent, h, parkWord_ended t r sent, hg.trans ht.g, hv.trans ht.v, hk.trans ht.k, hl.trans ht.loops,
    hpc.trans ht.pc, fun hhalf => ?_⟩
  rw [parkWord_me, if_pos (ht.half.trans hhalf)]

/-- The same for a meaning that stops with a wait. -/
theorem waits_of_error {i : Instr} {s t : State} {m : Act Unit} {r : ParkReason} {sent : Bool}
    (h : exec i s = finish s (Act.res m s)) (hm : m s = .error (.park r sent t)) (ht : SameWord s t) : Waits i s r :=
  waits_of_park (h.trans (congrArg (finish s) (res_of_error hm))) ht

/-! ### WAITW (R229) -/

section
variable {d a b : GReg} {wid : Width} {s s1 : State} {v : Nat}

theorem completes_waitw (ha : addrOf (rg s a) % wid.bytes = 0) (hp : waitPlace (addrOf (rg s a)) wid.bytes = true)
    (hl : placedLoad (addrOf (rg s a)) wid.bytes .load s = .ok (v, s1)) (hv : v ≠ (rg s b).toNat % 256 ^ wid.bytes) :
    Completes (.waitw d a b wid) s (wg s1 d (word v)) := by
  refine completes_of_ok rfl ?_
  rw [bind_of_ok (aligned_of_mod_eq_zero ha), if_neg (by rw [hp]; exact Bool.true_eq_false.mp), bind_of_ok hl, if_pos hv,
    change_ok]

theorem waitw_parks (ha : addrOf (rg s a) % wid.bytes = 0) (hp : waitPlace (addrOf (rg s a)) wid.bytes = true)
    (hl : placedLoad (addrOf (rg s a)) wid.bytes .load s = .ok (v, s1)) (hv : v = (rg s b).toNat % 256 ^ wid.bytes) :
    ∃ u sent, exec (.waitw d a b wid) s = .next u ∧ u.issue.ended = some (.park .waitw sent) ∧ u.me.pc = s1.me.pc ∧
      u.me.g = s1.me.g := by
  have hm : exec (.waitw d a b wid) s = finish s (.park .waitw false
      (s1.modMe fun x => { x with asked := [monitorKey (addrOf (rg s a)) wid.bytes] })) := by
    refine congrArg (finish s) (res_of_error ?_)
    rw [bind_of_ok (aligned_of_mod_eq_zero ha), if_neg (by rw [hp]; exact Bool.true_eq_false.mp), bind_of_ok hl,
      if_neg (not_not_intro hv)]
    rfl
  obtain ⟨hg, -, -, -, hpc⟩ := parkWord_keeps (s1.modMe fun x => { x with asked := [monitorKey (addrOf (rg s a)) wid.bytes] })
    .waitw false
  rw [modMe_me] at hg hpc
  exact ⟨_, false, hm, parkWord_ended .., hpc, hg⟩

theorem raises_waitw (ha : addrOf (rg s a) % wid.bytes = 0) (hb : bitAt (addrOf (rg s a)) 55 = false) :
    Raises (.waitw d a b wid) s .prot (addrOf (rg s a)) 0 := by
  refine raises_of_error rfl ?_
  rw [bind_of_ok (aligned_of_mod_eq_zero ha), if_pos (by rw [waitPlace, hb]; rfl), noPlace,
    if_neg (by rw [hb]; exact Bool.false_ne_true)]
  rfl

end

/-! ### Events (R230-R232) -/

/-- A latch has reached a strand: it is set, and the strand has left WFE. -/
def LatchReached (x y : Strand) : Prop := y.latch = true ∧ (x.st = .parked .wfe → y.st = .ready)

theorem setLatch_st (x : Strand) : (setLatch x).st = if x.st = .parked .wfe then .ready else x.st := by
  unfold setLatch Strand.wakeIf
  cases x.st with
  | parked r => cases r <;> rfl
  | empty => rfl
  | ready => rfl
  | handover => rfl

theorem setLatch_latch (x : Strand) : (setLatch x).latch = true := by
  unfold setLatch Strand.wakeIf
  split
  · split <;> rfl
  all_goals rfl

theorem setLatch_reaches (x : Strand) : LatchReached x (setLatch x) :=
  ⟨setLatch_latch x, fun h => by rw [setLatch_st, if_pos h]⟩

theorem LatchReached.again {x y : Strand} (h : LatchReached x y) : LatchReached x (setLatch y) :=
  ⟨setLatch_latch y, fun hx => by rw [setLatch_st, h.2 hx]; rfl⟩

/-- What setting one latch leaves of a strand. -/
theorem modStrand_setLatch (s : State) (p q : Place) :
    (s.modStrand p setLatch).strand q = s.strand q ∨ (s.modStrand p setLatch).strand q = setLatch (s.strand q) := by
  by_cases h : q.key = p.key
  · have hq : ∀ t : State, t.strand q = t.strand p := fun t => by rw [State.strand, State.strand, h]
    rw [hq, hq, modStrand_strand]
    exact .inr rfl
  · exact .inl (modStrand_strand_other _ _ _ _ h)

theorem foldl_setLatch_keeps {x : Strand} {q : Place} (place : Nat → Place) (l : List Nat) (s : State)
    (h : LatchReached x (s.strand q)) : LatchReached x ((l.foldl (fun u i => u.modStrand (place i) setLatch) s).strand q) := by
  induction l generalizing s with
  | nil => exact h
  | cons i l ih =>
    refine ih _ ?_
    rcases modStrand_setLatch s (place i) q with hq | hq <;> rw [hq]
    · exact h
    · exact h.again

/-- The latches of a list of slots are set, each slot's among them. -/
theorem foldl_setLatch_reaches (place : Nat → Place) {l : List Nat} {j : Nat} (hj : j ∈ l) (s : State) :
    LatchReached (s.strand (place j)) ((l.foldl (fun u i => u.modStrand (place i) setLatch) s).strand (place j)) := by
  induction l generalizing s with
  | nil => cases hj
  | cons i l ih =>
    rcases modStrand_setLatch s (place i) (place j) with hq | hq
    · rcases List.mem_cons.mp hj with rfl | hj
      · exact foldl_setLatch_keeps place l _ (by rw [modStrand_strand]; exact setLatch_reaches _)
      · rw [← hq]
        exact ih hj _
    · exact foldl_setLatch_keeps place l _ (by rw [hq]; exact setLatch_reaches _)

/-- An event that a slot can take reaches it. -/
theorem deliverEvent_reaches {core slot tenant : Nat} {all : Bool} {s : State}
    (hr : reaches (s.strand (placeOf core slot)) tenant = true) (hs : slot < 16) :
    LatchReached (s.strand (placeOf core slot)) ((deliverEvent core slot all tenant s).strand (placeOf core slot)) := by
  have hmem : slot ∈ (if all then List.range 16 else [slot]).filter fun i => reaches (s.strand (placeOf core i)) tenant := by
    refine List.mem_filter.mpr ⟨?_, hr⟩
    split
    · exact List.mem_range.mpr hs
    · exact List.mem_singleton_self _
  unfold deliverEvent
  simp only
  rw [if_neg (by rw [List.isEmpty_iff]; exact List.ne_nil_of_mem hmem)]
  exact foldl_setLatch_reaches (placeOf core) hmem s

theorem deliverEvent_notes (core slot tenant : Nat) (all : Bool) (s : State) :
    (deliverEvent core slot all tenant s).notes = s.notes := by
  have hfold (l : List Nat) (t : State) : (l.foldl (fun u i => u.modStrand (placeOf core i) setLatch) t).notes = t.notes := by
    induction l generalizing t with
    | nil => rfl
    | cons i l ih => exact ih _
  unfold deliverEvent
  simp only
  generalize List.filter _ (if all = true then List.range 16 else [slot]) = hit
  split
  · split <;> rfl
  · exact hfold _ _

section
variable {a : GReg} {sc : Scope} {all : Bool} {s s1 : State} {m : Nat}

theorem completes_sev (hs : s.fits sc) (hm : s.modWith (bits (rg s a).toNat 34 23) = some m)
    (hclu : bits (rg s a).toNat 16 8 < 400) (hdie : (s.modOf m).diesUp.contains (bits (rg s a).toNat 22 17) = true)
    (hr : release sc s = .ok ((), s1)) (h1 : s1.fits sc) {u : State}
    (hu : (if coreKey m (bits (rg s a).toNat 22 17) (bits (rg s a).toNat 16 8) (bits (rg s a).toNat 7 4) = s1.cur.coreKey then
        deliverEvent (coreKey m (bits (rg s a).toNat 22 17) (bits (rg s a).toNat 16 8) (bits (rg s a).toNat 7 4))
          (bits (rg s a).toNat 3 0) all s1.tenant s1
      else (s1.note (.event s1.cur m (coreKey m (bits (rg s a).toNat 22 17) (bits (rg s a).toNat 16 8) (bits (rg s a).toNat 7 4))
        (bits (rg s a).toNat 3 0) all s1.tenant (s1.ticks + flight (placeNode s1.cur)
          (nodeOf (coreClu (coreKey m (bits (rg s a).toNat 22 17) (bits (rg s a).toNat 16 8) (bits (rg s a).toNat 7 4))))))).spawn
        (.sevEvent s1.cur)) = u) : Completes (.sev a sc all) s u := by
  subst hu
  refine completes_of_ok rfl ?_
  rw [bind_of_ok (optScope_fits hs), hm]
  simp only
  rw [if_pos ⟨hclu, hdie⟩, bind_of_ok hr, bind_of_ok (noteClamp_fits h1), change_ok]

theorem raises_sev (hs : s.fits sc) (hm : s.modWith (bits (rg s a).toNat 34 23) = none) :
    Raises (.sev a sc all) s .prot 0 1 := by
  refine raises_of_error rfl ?_
  rw [bind_of_ok (optScope_fits hs), hm]
  rfl

end

/-- Settles O32: WAITW by the word it reads, WFE by the latch, SEV by the core it names, and the arrival of an event. -/
theorem waitsAndEvents : Obligations.WaitsAndEvents := by
  unfold Obligations.WaitsAndEvents
  intro d a b wid sc all s s1 v m w x t core
  refine ⟨fun ha hp hl => ⟨completes_waitw ha hp hl, waitw_parks ha hp hl⟩, fun h => completes_of_done ?latch,
    fun h => waits_of_park (sent := false) (t := s) ?noLatch (.refl s), fun hs hm hc hd hr h1 => ⟨fun hcore => ?far, fun hcore => ?own⟩,
    raises_sev, raises_waitw, fun p => ⟨_, rfl, fun h => ?fire⟩, fun p rest slot tenant due hn hdue hreach hslot => ?event⟩
  case latch => exact congrArg (finish s) (if_pos h)
  case noLatch => exact congrArg (finish s) (if_neg (by rw [h]; exact Bool.false_ne_true))
  case far => exact completes_sev hs hm hc hd hr h1 (if_neg hcore)
  case own => exact completes_sev hs hm hc hd hr h1 (if_pos hcore)
  case fire =>
    rw [modStrand_strand, if_pos (by rw [Strand.parkedOn, h]; rfl)]
  case event =>
    have htake : takeNote (eventOf p s.ticks) s.notes = some ((core, slot, all, tenant), rest) := by
      rw [hn, takeNote, eventOf, if_pos ⟨rfl, hdue⟩]
    have hexec : exec (.sevEvent p) s = .next (deliverEvent core slot all tenant { s with notes := rest }) := by
      change execSevEvent p s = _
      rw [execSevEvent, htake]
    exact ⟨_, hexec, deliverEvent_notes .., deliverEvent_reaches (s := { s with notes := rest }) hreach hslot⟩

/-! ### Barriers (R256-R258) -/

/-- A field that has been written reads as the value that fits it. -/
theorem bits_putBits_same {hi lo v : Nat} (h : v < 2 ^ (hi + 1 - lo)) (x : Nat) : bits (putBits x hi lo v) hi lo = v := by
  refine Nat.eq_of_testBit_eq fun i => ?_
  rw [testBit_bits, testBit_putBits, Nat.add_sub_cancel_left]
  by_cases hi' : i < hi + 1 - lo
  · rw [if_pos (by omega), decide_eq_true hi', Bool.true_and]
  · rw [decide_eq_false hi', Bool.false_and,
      Nat.testBit_lt_two_pow (Nat.lt_of_lt_of_le h (Nat.pow_le_pow_right (by decide) (Nat.not_lt.mp hi')))]

theorem bits_putBits_other {hi lo h l : Nat} (hd : hi < l ∨ h < lo) (x v : Nat) : bits (putBits x hi lo v) h l = bits x h l := by
  refine Nat.eq_of_testBit_eq fun i => ?_
  rw [testBit_bits, testBit_bits, testBit_putBits]
  by_cases hi' : i < h + 1 - l
  · rw [if_neg (by omega)]
  · rw [decide_eq_false hi', Bool.false_and, Bool.false_and]

theorem bits_lt (x hi lo : Nat) : bits x hi lo < 2 ^ (hi + 1 - lo) := Nat.mod_lt _ (Nat.two_pow_pos _)

/-- The barrier with one arrival less. -/
def oneLess (v : Nat) : Nat := putBits v 31 16 (barRemaining v - 1)

section
variable (v : Nat)

theorem oneLess_remaining : barRemaining (oneLess v) = barRemaining v - 1 :=
  bits_putBits_same (Nat.lt_of_le_of_lt (Nat.sub_le _ _) (bits_lt v 31 16)) v

theorem oneLess_pending : barPending (oneLess v) = barPending v := bits_putBits_other (.inl (by decide)) ..

theorem oneLess_phase : barPhase (oneLess v) = barPhase v := bits_putBits_other (.inl (by decide)) ..

theorem oneLess_expected : barExpected (oneLess v) = barExpected v := bits_putBits_other (.inr (by decide)) ..

theorem barArrive_eq : barArrive v = if barRemaining v - 1 = 0 ∧ barPending v = 0 then
    putBits (putBits (oneLess v) 68 68 (1 - barPhase v)) 31 16 (barExpected v) else oneLess v := by
  have h : barArrive v = barSettle (oneLess v) := rfl
  rw [h, barSettle, oneLess_remaining, oneLess_pending, oneLess_phase, oneLess_expected]

end

/-- An arrival that ends no phase takes one off. -/
theorem barArrive_more {v : Nat} (h : 1 < barRemaining v ∨ (barRemaining v = 1 ∧ barPending v ≠ 0)) :
    barRemaining (barArrive v) = barRemaining v - 1 ∧ barPending (barArrive v) = barPending v ∧
      barPhase (barArrive v) = barPhase v ∧ barExpected (barArrive v) = barExpected v := by
  rw [barArrive_eq, if_neg (by omega)]
  exact ⟨oneLess_remaining v, oneLess_pending v, oneLess_phase v, oneLess_expected v⟩

/-- The last arrival turns the phase and starts the next one. -/
theorem barArrive_last {v : Nat} (hr : barRemaining v = 1) (hp : barPending v = 0) :
    barRemaining (barArrive v) = barExpected v ∧ barPending (barArrive v) = 0 ∧
      barPhase (barArrive v) = 1 - barPhase v ∧ barExpected (barArrive v) = barExpected v := by
  rw [barArrive_eq, if_pos ⟨by rw [hr], hp⟩]
  refine ⟨bits_putBits_same (hi := 31) (lo := 16) (bits_lt v 15 0) _, ?_, ?_, ?_⟩
  · rw [barPending, bits_putBits_other (.inl (by decide)), bits_putBits_other (.inr (by decide))]
    exact (oneLess_pending v).trans hp
  · rw [barPhase, bits_putBits_other (.inl (by decide)), bits_putBits_same]
    exact Nat.lt_of_le_of_lt (Nat.sub_le _ _) (by decide)
  · rw [barExpected, bits_putBits_other (.inr (by decide)), bits_putBits_other (.inr (by decide))]
    exact oneLess_expected v

section
variable {d a b : GReg} {sc : Scope} {s s1 s2 : State} {v : Nat}

theorem raises_bararr (hs : s.fits sc) (hv : barRead (addrOf (rg s a)) .atomic s = .ok (v, s1)) (h : barRemaining v = 0) :
    Raises (.bararr d a sc) s .barrierOverflow (addrOf (rg s a)) 0 := by
  refine raises_of_error rfl ?_
  rw [bind_of_ok (optScope_fits hs), bind_of_ok hv, if_pos h]
  rfl

theorem completes_bararr (hs : s.fits sc) (hv : barRead (addrOf (rg s a)) .atomic s = .ok (v, s1)) (h : barRemaining v ≠ 0)
    (hr : release sc s1 = .ok ((), s2)) (hu : (placedStore s2 (addrOf (rg s a)) 16 (2 ^ 16 - 1) (barArrive v)).fits sc) :
    Completes (.bararr d a sc) s
      (wg (placedStore s2 (addrOf (rg s a)) 16 (2 ^ 16 - 1) (barArrive v)) d (word (barPhase v))) := by
  refine completes_of_ok rfl ?_
  rw [bind_of_ok (optScope_fits hs), bind_of_ok hv, if_neg h, bind_of_ok hr, barWrite, bind_of_ok (change_ok _ _),
    bind_of_ok (noteClamp_fits hu), change_ok]

theorem completes_barwt (hs : s.fits sc) (hv : barRead (addrOf (rg s a)) .load s = .ok (v, s1)) (hu : (s1.acquired sc).fits sc)
    (h : barPhase v ≠ (rg s b).toNat % 2) : Completes (.barwt a b sc) s (s1.acquired sc) := by
  refine completes_of_ok rfl ?_
  rw [bind_of_ok (optScope_fits hs), bind_of_ok hv, if_neg h, bind_of_ok acquire_acquired]
  exact noteClamp_fits hu

theorem barwt_parks (hs : s.fits sc) (hv : barRead (addrOf (rg s a)) .load s = .ok (v, s1))
    (h : barPhase v = (rg s b).toNat % 2) :
    ∃ u sent, exec (.barwt a b sc) s = .next u ∧ u.issue.ended = some (.park .barrier sent) := by
  have hm : exec (.barwt a b sc) s = finish s (.park .barrier false
      (s1.modMe fun x => { x with asked := [monitorKey (addrOf (rg s a)) 16] })) := by
    refine congrArg (finish s) (res_of_error ?_)
    rw [bind_of_ok (optScope_fits hs), bind_of_ok hv, if_pos h]
    rfl
  exact ⟨_, false, hm, parkWord_ended ..⟩

theorem completes_barxb (hv : barRead (addrOf (rg s a)) .atomic s = .ok (v, s1))
    (h : barPending v + (rg s b).toNat ≤ 2 ^ 36 - 1) :
    Completes (.barxb a b) s (placedStore s1 (addrOf (rg s a)) 16 (2 ^ 16 - 1) (barAdd v (rg s b).toNat)) := by
  refine completes_of_ok rfl ?_
  rw [bind_of_ok hv, if_neg (Nat.not_lt.mpr h), barWrite, change_ok]

theorem raises_barxb (hv : barRead (addrOf (rg s a)) .atomic s = .ok (v, s1))
    (h : 2 ^ 36 - 1 < barPending v + (rg s b).toNat) :
    Raises (.barxb a b) s .barrierOverflow (addrOf (rg s a)) 0 := by
  refine raises_of_error rfl ?_
  rw [bind_of_ok hv, if_pos h]
  rfl

end

/-- Settles O33: the instructions by what they read of the barrier, and the arithmetic of its fields. -/
theorem barriers : Obligations.Barriers := by
  unfold Obligations.Barriers
  intro d a b sc s s1 s2 v x n
  exact ⟨fun hv hs => ⟨raises_bararr hs hv, completes_bararr hs hv⟩, fun hv hs hu h => completes_barwt hs hv hu h,
    fun hv hs h => barwt_parks hs hv h, fun hv => ⟨completes_barxb hv, raises_barxb hv⟩, barArrive_more, barArrive_last⟩

end Sys2Proof.Proofs.WaitsBarriers
end

section
/-! SUPPORT. Stream units (R191-R194): SCFG, SBIND, SFREE and SPOS by the unit they name, and the steps of a unit. -/

namespace Sys2Proof.Proofs.Streams

open Sys2Proof Sys2Proof.Machine Sys2Proof.Laws Sys2Proof.Proofs.Running Sys2Proof.Proofs.Accesses
  Sys2Proof.Proofs.ControlTransfer Sys2Proof.Proofs.WaitsBarriers

/-! ### Words that name what they may not -/

/-- A word that is illegal where it stands. -/
theorem raises_illegal {i : Instr} {s : State} {m : Act Unit} {op : Nat} (h : exec i s = finish s (Act.res m s))
    (hm : m s = illegal op s) : Raises i s .illegalInstr (wordAddr s) (halfBit s + op) :=
  raises_of_error h hm

theorem spawnOnce_sameWord (s : State) (e : Event) : SameWord s (spawnOnce s e) := by
  unfold spawnOnce
  split <;> exact ⟨rfl, rfl, rfl, rfl, rfl, rfl⟩

/-! ### SCFG (R191, R194) -/

section
variable {d a : GReg} {s s1 : State} {dd : Nat}

theorem waits_scfg (hw : bits (addrOf (rg s a)) 55 54 = 2) (hb : s.clu.busy = true) : Waits (.scfg d a) s .mem := by
  have hsteady : ownSteady (addrOf (rg s a)) 64 s = .error (.park .mem false s) := if_pos ⟨hw, hb⟩
  exact waits_of_error (sent := false) rfl (bind_of_error hsteady) (.refl s)

theorem ownSteady_calm {x n : Nat} (h : bits x 55 54 = 3 ∨ s.clu.busy = false) : ownSteady x n s = .ok (ownPlace s x n, s) :=
  if_neg (by
    rintro ⟨hw, hb⟩
    rcases h with h | h
    · omega
    · rw [hb] at h
      exact Bool.noConfusion h)

theorem raises_scfg_elsewhere (hc : bits (addrOf (rg s a)) 55 54 = 3 ∨ s.clu.busy = false)
    (ho : ownPlace s (addrOf (rg s a)) 64 = false) : Raises (.scfg d a) s .prot (addrOf (rg s a)) 0 := by
  refine raises_of_error rfl ?_
  rw [bind_of_ok (ownSteady_calm hc), if_pos ho]
  rfl

theorem raises_scfg_misaligned (hc : bits (addrOf (rg s a)) 55 54 = 3 ∨ s.clu.busy = false)
    (ho : ownPlace s (addrOf (rg s a)) 64 = true) (ha : addrOf (rg s a) % 64 ≠ 0) :
    Raises (.scfg d a) s .align (addrOf (rg s a)) 0 := by
  refine raises_of_error rfl ?_
  rw [bind_of_ok (ownSteady_calm hc), if_neg (by rw [ho]; exact Bool.true_eq_false.mp)]
  exact bind_of_error (aligned_error ha)

theorem descCheck_ok {x : Nat} {u : SUnit} (h1 : bits dd 63 56 = 0) (h2 : dd / 2 ^ 448 % 2 ^ 64 = 0) (h3 : u.count < 2 ^ 32)
    (h4 : u.base % 32 = 0) (h5 : ∀ t ∈ u.str, t % 32 = 0) : descCheck dd x u s = .ok ((), s) := by
  have hstr : ¬ (u.str.any fun t => decide (t % 32 ≠ 0)) = true := by
    rw [List.any_eq_true]
    rintro ⟨t, ht, hne⟩
    exact of_decide_eq_true hne (h5 t ht)
  rw [descCheck, if_neg (by omega), if_neg (by rintro (h | h); exacts [h h4, hstr h])]
  rfl

/-- A descriptor that passes its checks is loaded into the lowest free unit. -/
theorem completes_scfg {o : Option Nat} (hc : bits (addrOf (rg s a)) 55 54 = 3 ∨ s.clu.busy = false)
    (ho : ownPlace s (addrOf (rg s a)) 64 = true) (ha : addrOf (rg s a) % 64 = 0)
    (hl : placedLoad (addrOf (rg s a)) 64 .load s = .ok (dd, s1))
    (hk : descCheck dd (addrOf (rg s a)) (unitOf dd s.cur.slot (addrOf (rg s a))) s1 = .ok ((), s1))
    (hf : ((List.range 4).find? fun i => (nth SUnit.free s1.core.units i).owner.isNone) = o) {u : State}
    (hu : (o.elim (wg s1 d (word 0xFFFFFFFFFFFFFFFF)) fun i =>
      wg (s1.modUnit s1.cur.coreKey i fun _ => unitOf dd s.cur.slot (addrOf (rg s a))) d (word i)) = u) : Completes (.scfg d a) s u := by
  refine completes_of_ok rfl ?_
  rw [bind_of_ok (ownSteady_calm hc), if_neg (by rw [ho]; exact Bool.true_eq_false.mp), bind_of_ok (aligned_of_mod_eq_zero ha),
    bind_of_ok hl, bind_of_ok hk, change_ok, hf, ← hu]
  cases o <;> rfl

end

/-! ### SBIND, SFREE and SPOS (R194) -/

section
variable {a b d : GReg} {r : VReg} {wr upd : Bool} {s : State} {u : SUnit}

theorem completes_sbind (hm : (unitAt s (unitNo s a)).owner = some s.cur.slot) (hb : (unitAt s (unitNo s a)).bound = none)
    (hr : unbound s r) {t : State}
    (ht : (s.modUnit s.cur.coreKey (unitNo s a) fun y =>
      { y with bound := some r.val, wr := wr, pos := 0, fetched := [], pushes := [] }) = t) :
    Completes (.sbind r a wr) s (if wr then t else t.spawn (.streamElementFetch s.cur.coreKey (unitNo s a))) := by
  subst ht
  refine completes_of_ok rfl ?_
  unfold unbound at hr
  rw [if_pos ⟨hm, hb, by rw [hr]; rfl⟩, change_ok]

theorem raises_sbind (h : ¬ (unitAt s (unitNo s a)).owner = some s.cur.slot ∨ (unitAt s (unitNo s a)).bound ≠ none ∨ ¬ unbound s r) :
    Raises (.sbind r a wr) s .illegalInstr (wordAddr s) (halfBit s + 0x3F) := by
  refine raises_illegal rfl ?_
  rw [if_neg]
  rintro ⟨hm, hb, hr⟩
  rcases h with h | h | h
  · exact h hm
  · exact h hb
  · exact h (Option.isNone_iff_eq_none.mp hr)

/-- The register that a unit is bound to becomes 0 when the unit is freed. -/
theorem completes_sfree {t : State} (hm : (unitAt s (unitNo s a)).owner = some s.cur.slot)
    (hp : (unitAt s (unitNo s a)).pushes = [])
    (ht : ((unitAt s (unitNo s a)).bound.elim s fun q => s.modMe fun x => { x with v := x.v.set (Fin.ofNat 16 q) 0 }) = t) :
    Completes (.sfree a) s (t.modUnit s.cur.coreKey (unitNo s a) fun _ => SUnit.free) := by
  subst ht
  refine completes_of_ok rfl ?_
  rw [if_pos hm, if_pos (by rw [hp]; rfl), change_ok]
  cases (unitAt s (unitNo s a)).bound <;> rfl

theorem waits_sfree (hm : (unitAt s (unitNo s a)).owner = some s.cur.slot) (hp : (unitAt s (unitNo s a)).pushes ≠ []) :
    Waits (.sfree a) s .stream := by
  have hwait : exec (.sfree a) s = finish s (.park .stream false (spawnOnce s (.streamPush s.cur.coreKey (unitNo s a)))) := by
    refine congrArg (finish s) (res_of_error ?_)
    rw [if_pos hm, if_neg (by rwa [List.isEmpty_iff]), bind_of_ok (change_ok _ _)]
    rfl
  exact waits_of_park hwait (spawnOnce_sameWord ..)

theorem raises_sfree (hm : ¬ (unitAt s (unitNo s a)).owner = some s.cur.slot) :
    Raises (.sfree a) s .illegalInstr (wordAddr s) (halfBit s + 0x40) :=
  raises_illegal rfl (by rw [if_neg hm])

/-- SPOS without a pending push, or without an update, reads the position, and sets it with an update. -/
theorem completes_spos {t : State} (hm : (unitAt s (unitNo s a)).owner = some s.cur.slot)
    (hb : (unitAt s (unitNo s a)).bound ≠ none) (hp : upd = true → (unitAt s (unitNo s a)).pushes = [])
    (ht : (if upd then
        let t2 := (wg s d (word (unitAt s (unitNo s a)).pos)).modUnit s.cur.coreKey (unitNo s a) fun x =>
          { x with pos := (rg s b).toNat % 2 ^ 32, fetched := [] }
        if (unitAt s (unitNo s a)).wr then t2 else t2.spawn (.streamElementFetch s.cur.coreKey (unitNo s a))
      else wg s d (word (unitAt s (unitNo s a)).pos)) = t) : Completes (.spos d a b upd) s t := by
  subst ht
  refine completes_of_ok rfl ?_
  rw [if_pos ⟨hm, Option.isSome_iff_ne_none.mpr hb⟩, if_neg, change_ok]
  rw [Bool.and_eq_true]
  rintro ⟨hu, hne⟩
  rw [hp hu] at hne
  exact Bool.noConfusion hne

theorem waits_spos (hm : (unitAt s (unitNo s a)).owner = some s.cur.slot)
    (hb : (unitAt s (unitNo s a)).bound ≠ none) (hp : (unitAt s (unitNo s a)).pushes ≠ []) :
    Waits (.spos d a b true) s .stream := by
  have hwait : exec (.spos d a b true) s
      = finish s (.park .stream false (spawnOnce s (.streamPush s.cur.coreKey (unitNo s a)))) := by
    refine congrArg (finish s) (res_of_error ?_)
    rw [if_pos ⟨hm, Option.isSome_iff_ne_none.mpr hb⟩, if_pos (by simpa using hp), bind_of_ok (change_ok _ _)]
    rfl
  exact waits_of_park hwait (spawnOnce_sameWord ..)

theorem raises_spos (h : ¬ (unitAt s (unitNo s a)).owner = some s.cur.slot ∨ (unitAt s (unitNo s a)).bound = none) :
    Raises (.spos d a b upd) s .illegalInstr (wordAddr s) (halfBit s + 0x41) := by
  refine raises_illegal rfl ?_
  rw [if_neg]
  rintro ⟨hm, hb⟩
  rcases h with h | h
  · exact h hm
  · rw [h] at hb
    exact Bool.noConfusion hb

end

/-! ### The steps of a unit (R192, R193) -/

section
variable {core n slot : Nat} {s s1 : State} {e : Elem} {w : Push} {rest : List Push}

theorem exec_streamElementFetch {u : SUnit} (hu : nth SUnit.free (s.coreOf core).units n = u) (ho : u.owner = some slot)
    (hb : u.bound ≠ none) (hwr : u.wr = false) (hj : u.pos + u.fetched.length < u.count) (h8 : u.fetched.length < 8)
    (hl : asPlace (placeOf core slot) (streamLoad (u.addr (u.pos + u.fetched.length))) s = (some e, s1)) :
    exec (.streamElementFetch core n) s =
      .next (((s1.modUnit core n fun y => { y with fetched := y.fetched ++ [(u.pos + u.fetched.length, e)] }).modStrand
        (placeOf core slot) wakeStream).spawn (.streamElementFetch core n)) := by
  have hgo : ¬ (u.bound.isNone || u.wr || decide (u.count ≤ u.pos + u.fetched.length) || decide (8 ≤ u.fetched.length)) = true := by
    simp [hwr, hj, h8, hb]
  change execStreamElementFetch core n s = _
  unfold execStreamElementFetch
  simp only [hu, ho]
  rw [if_neg hgo, hl]

theorem exec_streamPush {u : SUnit} (hu : nth SUnit.free (s.coreOf core).units n = u) (ho : u.owner = some slot)
    (hp : u.pushes = w :: rest) (hold : oldestUnit (s.coreOf core) slot = some n) :
    exec (.streamPush core n) s =
      .next (((asPlace (placeOf core slot) (fun t => ((), pushStore w t)) s).2.modUnit core n fun y =>
        { y with pushes := rest }).modStrand (placeOf core slot) wakeStream) := by
  have hone : drainSlot core slot 1 s
      = (asPlace (placeOf core slot) (fun t => ((), pushStore w t)) s).2.modUnit core n fun y => { y with pushes := rest } := by
    rw [drainSlot, hold]
    simp only
    rw [drainSlot]
    unfold pushOne
    simp only [hu, ho, hp]
  change execStreamPush core n s = _
  unfold execStreamPush
  simp only [hu, ho]
  rw [hone]

end

/-- Settles O34: the instructions by the unit that they name, a fetch and a push by what their unit holds. -/
theorem streamUnits : Obligations.StreamUnits := by
  unfold Obligations.StreamUnits
  refine ⟨fun d a b r q wr s s1 dd => ?_, fun core n slot s s1 e w rest => ?_⟩
  · intro x n u new mine calm fetch free moved start
    refine ⟨waits_scfg, raises_scfg_elsewhere, raises_scfg_misaligned, fun hc ho ha hl h1 h2 h3 h4 h5 => ⟨fun i hi hfree hlow => ?unit, fun hfull => ?full⟩,
      fun hm hb hr => completes_sbind hm hb hr rfl, raises_sbind, fun hm hp hb => ?freed, fun hm hp hb => ?freedBound,
      waits_sfree, raises_sfree, fun hm hb => ⟨completes_spos hm hb nofun (if_neg Bool.false_ne_true), fun hp => completes_spos hm hb (fun _ => hp) (if_pos rfl), waits_spos hm hb⟩,
      raises_spos⟩
    case unit =>
      refine completes_scfg hc ho ha hl (descCheck_ok h1 h2 h3 h4 h5) (o := some i) ?_ rfl
      refine List.find?_range_eq_some.mpr ⟨by rw [hfree]; rfl, List.mem_range.mpr hi, fun j hj => ?_⟩
      have := hlow j hj
      simpa [Option.isSome_iff_ne_none] using this
    case full =>
      refine completes_scfg hc ho ha hl (descCheck_ok h1 h2 h3 h4 h5) (o := none) ?_ rfl
      refine List.find?_eq_none.mpr fun j hj => ?_
      have := hfull j (List.mem_range.mp hj)
      simpa [Option.isNone_iff_eq_none] using this
    case freed =>
      refine completes_sfree hm hp ?_
      rw [show (unitAt s (unitNo s a)).bound = none from hb, Option.elim_none]
    case freedBound =>
      refine completes_sfree hm hp ?_
      rw [show (unitAt s (unitNo s a)).bound = some q.val from hb, Option.elim_some]
      simp only [Fin.ofNat_val_eq_self]
  · intro u p j ho
    refine ⟨fun hb hwr hj h8 hl => exec_streamElementFetch rfl ho hb hwr hj h8 hl, fun hp hold => exec_streamPush rfl ho hp hold,
      fun y => ⟨fun h => if_pos (by rw [h]; rfl), fun h => if_neg (by rwa [List.isEmpty_iff])⟩⟩

end Sys2Proof.Proofs.Streams
end

section
/-! SUPPORT. The control registers (R84-R87, R96): what may be read and written, and the fields that a write sets. -/

namespace Sys2Proof.Proofs.ControlRegs

open Sys2Proof Sys2Proof.Machine Sys2Proof.Laws Sys2Proof.Proofs.Running Sys2Proof.Proofs.Accesses

/-! ### The rights of an access (R84) -/

section
variable {op n : Nat} {wr : Bool} {s : State}

theorem csrAllowed_reserved (h : csrAssigned n = false) :
    csrAllowed op n wr s = .error (.trap .reservedField (wordAddr s) (halfBit s)) := by
  rw [csrAllowed, if_pos h]
  rfl

theorem csrAllowed_ok (h : csrAssigned n = true) (hm : s.super = true ∨ (csrSuper n || (wr && !csrUserWrite n)) = false) :
    csrAllowed op n wr s = .ok ((), s) := by
  rw [csrAllowed, if_neg (by rw [h]; exact Bool.true_eq_false.mp)]
  split
  · next hs =>
    rcases hm with hm | hm
    · exact needSuper_super hm
    · rw [hm] at hs
      exact Bool.noConfusion hs
  · rfl

theorem csrAllowed_priv (h : csrAssigned n = true) (hu : s.super = false) (hm : (csrSuper n || (wr && !csrUserWrite n)) = true) :
    csrAllowed op n wr s = .error (.trap .priv (wordAddr s) (halfBit s + op)) := by
  rw [csrAllowed, if_neg (by rw [h]; exact Bool.true_eq_false.mp), if_pos hm]
  exact needSuper_user hu

theorem readable_iff : (s.super = true ∨ csrSuper n = false) ↔ (s.super = true ∨ (csrSuper n || (false && !csrUserWrite n)) = false) := by
  simp

theorem writable_iff : (s.super = true ∨ (csrSuper n = false ∧ csrUserWrite n = true)) ↔
    (s.super = true ∨ (csrSuper n || (true && !csrUserWrite n)) = false) := by
  simp

/-- An access that is not allowed is made in user mode, to what supervisor mode alone may reach. -/
theorem csrAllowed_denied {b : Bool} (h : csrAssigned n = true) (hb : (csrSuper n || (wr && !csrUserWrite n)) = b)
    (hm : ¬ (s.super = true ∨ b = false)) : csrAllowed op n wr s = .error (.trap .priv (wordAddr s) (halfBit s + op)) := by
  obtain ⟨hs, hb'⟩ := not_or.mp hm
  exact csrAllowed_priv h (Bool.not_eq_true _ ▸ hs) (hb.trans (Bool.not_eq_false _ ▸ hb'))

end

/-! ### CSRR, CSRW and CSRX -/

section
variable {d a : GReg} {n : BitVec 12} {v : Word} {s s1 s2 : State}

theorem csrTake_read {r : Nat} (hv : csrRead s r = some v) (hr : r ≠ 0x301) : csrTake r s = .ok (v, s) := by
  unfold csrTake
  simp only
  rw [hv, if_neg hr]
  rfl

/-- A read of DIEERRLOG removes its record (R320). -/
theorem csrTake_record (hv : csrRead s 0x301 = some v) : csrTake 0x301 s = .ok (v, popRecord s s.cur.dieKey s.tenant) := by
  unfold csrTake
  simp only
  rw [hv, if_pos trivial]
  rfl

theorem completes_csrr {u : State} (hc : csrAllowed 0x5E n.toNat false s = .ok ((), s)) (ht : csrTake n.toNat s = .ok (v, u)) :
    Completes (.csrr d n) s (wg u d v) := by
  refine completes_of_ok rfl ?_
  rw [bind_of_ok hc, bind_of_ok ht, change_ok]

theorem completes_csrw (hc : csrAllowed 0x5F n.toNat true s = .ok ((), s))
    (hw : csrWrite 0x5F n.toNat (rg s a) s = .ok ((), s1)) : Completes (.csrw a n) s s1 := by
  refine completes_of_ok rfl ?_
  rw [bind_of_ok hc, hw]

theorem completes_csrx (hc : csrAllowed 0x60 n.toNat true s = .ok ((), s)) (ht : csrTake n.toNat s = .ok (v, s1))
    (hw : csrWrite 0x60 n.toNat (rg s a) s1 = .ok ((), s2)) : Completes (.csrx d a n) s (wg s2 d v) := by
  refine completes_of_ok rfl ?_
  rw [bind_of_ok hc, bind_of_ok ht, bind_of_ok hw, change_ok]

theorem completes_registerWrite (hc : csrAllowed 0x5F n.toNat true s = .ok ((), s))
    (hw : csrWrite 0x5F n.toNat v s = .ok ((), s1)) : Completes (.registerWrite n v) s s1 := by
  refine completes_of_ok rfl ?_
  rw [bind_of_ok hc, hw]

theorem popRecord_logs (s : State) (dk vf : Nat) :
    (fget ([], false) ((popRecord s dk vf).dieOf dk).logs vf).1 = (fget ([], false) (s.dieOf dk).logs vf).1.drop 1 := by
  rw [popRecord, modDie_dieOf, fget_fset_same]

/-- A masked write, bit by bit (R86). -/
theorem getLsbD_mergeMask (m : Nat) (old v : Word) {j : Nat} (hj : j < 64) :
    (mergeMask m old v).getLsbD j = if m.testBit j then v.getLsbD j else old.getLsbD j := by
  simp only [mergeMask, BitVec.getLsbD_or, BitVec.getLsbD_and, BitVec.getLsbD_not, word, BitVec.getLsbD_ofNat,
    decide_eq_true hj, Bool.true_and]
  cases m.testBit j <;> simp

/-! ### The registers that supervisor mode writes (R86, R96) -/

/-- In supervisor mode a write to an assigned register does what `csrWrite` says. -/
theorem completes_csrw_super (hs : s.super = true) (ha : csrAssigned n.toNat = true) {u : State}
    (hw : csrWrite 0x5F n.toNat (rg s a) s = .ok ((), u)) : Completes (.csrw a n) s u :=
  completes_csrw (csrAllowed_ok ha (.inl hs)) hw

/-- A register that user mode may write. -/
theorem completes_csrw_user (ha : csrAssigned n.toNat = true) (hu : csrSuper n.toNat = false ∧ csrUserWrite n.toNat = true)
    {u : State} (hw : csrWrite 0x5F n.toNat (rg s a) s = .ok ((), u)) : Completes (.csrw a n) s u :=
  completes_csrw (csrAllowed_ok ha (writable_iff.mp (.inr hu))) hw

theorem writeSstat_ok {op : Nat} (h : ¬ (s.super = false ∧ s.me.csr.sstat &&& sstatGuard ≠ v &&& sstatGuard)) :
    writeSstat op v s = .ok ((), if bitAt v.toNat 7 then
        clearVused (s.modCsr fun c => { c with sstat := mergeMask 0x7F c.sstat v })
      else s.modCsr fun c => { c with sstat := mergeMask 0x7F c.sstat v }) :=
  if_neg h

theorem writeSstat_priv {op : Nat} (h : s.super = false ∧ s.me.csr.sstat &&& sstatGuard ≠ v &&& sstatGuard) :
    writeSstat op v s = .error (.trap .priv (wordAddr s) (halfBit s + op)) := if_pos h

theorem clearVused_v (r : VReg) : (clearVused s).me.v[r] = if (boundUnit s r).isSome then s.me.v[r] else 0 := by
  rw [clearVused, modMe_me]
  simp

end

/-- Settles O35: the rights of an access decide, then the register read or written; the fields of a masked write bit by
bit. -/
theorem controlRegisters : Obligations.ControlRegisters := by
  unfold Obligations.ControlRegisters
  refine ⟨fun d a n v s s1 s2 => ?_, fun a v s => ?_⟩
  · intro r readable writable at' h
    refine ⟨fun hres => ⟨raises_of_error rfl (bind_of_error (csrAllowed_reserved hres)),
        raises_of_error rfl (bind_of_error (csrAllowed_reserved hres)), raises_of_error rfl (bind_of_error (csrAllowed_reserved hres))⟩,
      fun hass => ⟨fun hr => raises_of_error rfl (bind_of_error (csrAllowed_denied hass rfl (mt readable_iff.mpr hr))),
        fun hw => ⟨raises_of_error rfl (bind_of_error (csrAllowed_denied hass rfl (mt writable_iff.mpr hw))),
          raises_of_error rfl (bind_of_error (csrAllowed_denied hass rfl (mt writable_iff.mpr hw)))⟩,
        fun hr hv hne => completes_csrr (csrAllowed_ok hass (readable_iff.mp hr)) (csrTake_read hv hne),
        fun hr hv heq => completes_csrr (csrAllowed_ok hass (readable_iff.mp hr)) ?record,
        fun hw => completes_csrw (csrAllowed_ok hass (writable_iff.mp hw)),
        fun hw => completes_csrx (csrAllowed_ok hass (writable_iff.mp hw)),
        fun hw => completes_registerWrite (csrAllowed_ok hass (writable_iff.mp hw))⟩,
      fun hs hv => completes_of_ok rfl ?dieerrlog,
      fun hu => raises_of_error rfl (bind_of_error (csrAllowed_priv (by decide) hu (by decide))), popRecord_logs s,
      fun m old j => getLsbD_mergeMask m old v⟩
    case record =>
      exact (congrArg (csrTake · s) heq).trans (csrTake_record (heq ▸ hv))
    case dieerrlog =>
      rw [bind_of_ok (csrAllowed_ok (by decide) (.inl hs)), bind_of_ok (csrTake_record hv), change_ok]
  · intro w put stat bad
    refine ⟨fun hs => ⟨completes_csrw_super hs (by decide) rfl, completes_csrw_super hs (by decide) rfl,
        completes_csrw_super hs (by decide) rfl, completes_csrw_super hs (by decide) rfl, completes_csrw_super hs (by decide) rfl,
        completes_csrw_super hs (by decide) rfl, completes_csrw_super hs (by decide) rfl, completes_csrw_super hs (by decide) rfl,
        completes_csrw_super hs (by decide) rfl, completes_csrw_super hs (by decide) rfl,
        completes_of_ok rfl (bind_of_ok (csrAllowed_ok (by decide) (.inl hs))), completes_of_ok rfl (bind_of_ok (csrAllowed_ok (by decide) (.inl hs)))⟩,
      completes_csrw_user (by decide) (by decide) rfl, completes_csrw_user (by decide) (by decide) rfl,
      completes_csrw_user (by decide) (by decide) rfl, fun hb h7 => completes_of_ok rfl ?low, fun hb h7 => completes_of_ok rfl ?high,
      fun hb => raises_of_error rfl (writeSstat_priv hb), ?_, fun r hr => ?_, fun r hr => ?_⟩
    case low => rw [writeSstat_ok hb, if_neg (by rw [h7]; exact Bool.false_ne_true)]
    case high => rw [writeSstat_ok hb, if_pos h7]
    · rw [clearVused, modMe_me]
    · rw [clearVused_v, if_neg]
      rw [show boundUnit s r = none from hr]
      exact Bool.false_ne_true
    · rw [clearVused_v, if_pos (Option.isSome_iff_ne_none.mpr hr)]

end Sys2Proof.Proofs.ControlRegs
end

section
/-! SUPPORT. Block transfers (R246, R249, R251-R253): a launch up to its release, and what it does then. -/

namespace Sys2Proof.Proofs.Transfers

open Sys2Proof Sys2Proof.Machine Sys2Proof.Laws Sys2Proof.Proofs.Running Sys2Proof.Proofs.Accesses
  Sys2Proof.Proofs.AtomicAccesses Sys2Proof.Proofs.WaitsBarriers

/-! ### The parts of a launch of an engine -/

section
variable {s s1 : State} {sc : Scope}

theorem steady_calm (h : s.clu.busy = false) : steady s = .ok ((), s) := by
  unfold steady notBusy
  rw [if_neg (by simp [h])]

theorem steady_busy (h : s.clu.busy = true) : steady s = .error (.park .mem false s) := by
  unfold steady notBusy
  rw [if_pos (by rw [h]; rfl)]

/-- A launch that names no window under conversion is in a cluster without one. -/
theorem calm_of_notBusy {l : List (Nat × Nat)} (h : notBusy l s = .ok ((), s)) : s.clu.busy = false := by
  unfold notBusy at h
  split at h
  · cases h
  · next hb => simpa using fun hbusy : s.clu.busy = true => hb (by rw [hbusy]; rfl)

theorem scopeOr_fits (h : s.fits sc) (d : Scope) : scopeOr sc d s = .ok (if sc = .none then narrowed s d else sc, s) := by
  unfold scopeOr
  split
  · rfl
  · rw [if_neg ‹_›]
    exact clamp_fits h

/-- The scope of a launch that is not narrowed (R326, R338). -/
theorem launchScope_fits (h : s.fits sc) :
    launchScope sc s = .ok (engineScope (if sc = .none then narrowed s .clu else sc), s) := by
  rw [launchScope, bind_of_ok (scopeOr_fits h .clu)]
  rfl

theorem needGrant_held {u : Nat} (h : grantHeld s u = true) : needGrant u s = .ok ((), s) := if_pos h

/-- A release leaves the strand's registers and its word. -/
theorem sameWord_of_stores (h : StoresOnly s s1) : SameWord s s1 := by
  have hme := congrArg (fun y => (y.g, y.v, y.k, y.loops, y.pc)) h.me
  simp only [unasked, Prod.mk.injEq] at hme
  obtain ⟨hg, hv, hk, hl, hpc⟩ := hme
  exact ⟨hg, hv, hk, hl, hpc, by rw [h.issue]⟩

end

/-! ### A launch after its release -/

/-- The commit of a transfer whose clamps are counted. -/
def xferCommit (l : List Word) (sc own C : Scope) : Act Word := do
  noteScope own
  noteScope sc
  noteScope (Scope.ofCode (xScope l))
  let u ← here
  change fun _ => (commitXfer u l C).2
  pure (commitXfer u l C).1

/-- The commit, or the wait for room in the queue. -/
def xferQueue (l : List Word) (sc own C : Scope) (full : Bool) : Act Word :=
  if full then do
    parkOn .engine
    xferCommit l sc own C
  else xferCommit l sc own C

/-- The check of a transfer's barrier, and its place in the queue. -/
def xferBarrier (l : List Word) (sc own C : Scope) (t : State) : Act Word :=
  if xreg l 9 ≠ 0 ∧ xNoAdd l = false then
    match engineBar t t.cur t.tenant t.part t.super (xreg l 9 % addrSpace) with
    | .error (f, b) =>
      if f = .poison then do
        memTrap .dataError b .atomic
        xferQueue l sc own C (queueFull t.clu.bte)
      else xferQueue l sc own C (queueFull t.clu.bte)
    | .ok v =>
      if 2 ^ 36 - 1 < barPending v + xBytes l then do
        raise .barrierOverflow (xreg l 9 % addrSpace) 0
        xferQueue l sc own C (queueFull t.clu.bte)
      else xferQueue l sc own C (queueFull t.clu.bte)
  else xferQueue l sc own C (queueFull t.clu.bte)

section
variable {l : List Word} {sc own C : Scope} {s s1 : State} {v : Nat} {d : GReg}

/-- A launch that is not rejected, does not wait and has released comes to its barrier. -/
theorem bteLaunch_released (hr : btReject s l = none) (hb : notBusy (xRuns l) s = .ok ((), s))
    (hg : xBytes l ≤ 65536 ∨ grantHeld s 1 = true) (hs : s.fits sc) (hc : s.fits (Scope.ofCode (xScope l)))
    (hrel : release (engineScope (if sc = .none then narrowed s .clu else sc)) s = .ok ((), s1)) :
    bteLaunch l sc own s = xferBarrier l sc own
      (engineScope (if Scope.ofCode (xScope l) = .none then narrowed s .clu else Scope.ofCode (xScope l))) s1 s1 := by
  rw [bteLaunch, bind_of_ok (steady_calm (calm_of_notBusy hb)), bind_of_ok (here_ok s), hr]
  simp only
  rw [bind_of_ok hb]
  by_cases hbig : 65536 < xBytes l
  · rw [if_pos hbig, bind_of_ok (needGrant_held (hg.resolve_left (Nat.not_le.mpr hbig))), bind_of_ok (launchScope_fits hs),
      carriedScope, bind_of_ok (launchScope_fits hc), bind_of_ok hrel, bind_of_ok (here_ok s1)]
    rfl
  · rw [if_neg hbig, bind_of_ok (launchScope_fits hs), carriedScope, bind_of_ok (launchScope_fits hc), bind_of_ok hrel,
      bind_of_ok (here_ok s1)]
    rfl

theorem xferCommit_ok (hs : s.fits sc) (ho : s.fits own) (hc : s.fits (Scope.ofCode (xScope l))) :
    xferCommit l sc own C s = .ok (commitXfer s l C) := by
  rw [xferCommit, bind_of_ok (noteScope_fits ho), bind_of_ok (noteScope_fits hs), bind_of_ok (noteScope_fits hc),
    bind_of_ok (here_ok s), bind_of_ok (change_ok _ _)]
  rfl

/-- The barrier of a transfer takes its bytes, or none is named. -/
theorem xferBarrier_room (h : xreg l 9 = 0 ∨ xNoAdd l = true ∨
      (engineBar s s.cur s.tenant s.part s.super (xreg l 9 % addrSpace) = .ok v ∧ barPending v + xBytes l ≤ 2 ^ 36 - 1)) :
    xferBarrier l sc own C s = xferQueue l sc own C (queueFull s.clu.bte) := by
  unfold xferBarrier
  by_cases hbar : xreg l 9 ≠ 0 ∧ xNoAdd l = false
  · rw [if_pos hbar]
    rcases h with h | h | ⟨h, hfit⟩
    · exact absurd h hbar.1
    · rw [hbar.2] at h
      exact Bool.noConfusion h
    · rw [h]
      exact if_neg (Nat.not_lt.mpr hfit)
  · rw [if_neg hbar]

theorem xferBarrier_overflow (h9 : xreg l 9 ≠ 0) (hn : xNoAdd l = false)
    (hv : engineBar s s.cur s.tenant s.part s.super (xreg l 9 % addrSpace) = .ok v)
    (hbig : 2 ^ 36 - 1 < barPending v + xBytes l) :
    xferBarrier l sc own C s s = .error (.trap .barrierOverflow (xreg l 9 % addrSpace) 0) := by
  unfold xferBarrier
  rw [if_pos ⟨h9, hn⟩, hv]
  simp only
  rw [if_pos hbig]
  rfl

theorem xferBarrier_poison (h9 : xreg l 9 ≠ 0) (hn : xNoAdd l = false)
    (hv : engineBar s s.cur s.tenant s.part s.super (xreg l 9 % addrSpace) = .error (.poison, v)) :
    xferBarrier l sc own C s s = .error (.trap .dataError v 2) := by
  unfold xferBarrier
  rw [if_pos ⟨h9, hn⟩, hv]
  simp only
  rw [if_pos trivial]
  rfl

/-! ### BTGO -/

/-- BTGO with a set of shadow registers that has not been lost is a launch of it. -/
theorem exec_btgo (h : (shadowOf s s.cur).lost = false) : exec (.btgo d sc) s = finish s (Act.res (do
    let w ← bteLaunch (shadowOf s s.cur).regs sc .none
    change fun t => wg t d w) s) := by
  change finish s _ = _
  rw [if_neg (by rw [h]; exact Bool.false_ne_true)]

theorem completes_btgo_lost (h : (shadowOf s s.cur).lost = true) :
    Completes (.btgo d sc) s (wg (setShadow s s.cur Shadow.default) d (rejectWord 1)) :=
  completes_of_done (congrArg (finish s) (if_pos h))

theorem completes_btgo_rejected {r : Nat} (h : (shadowOf s s.cur).lost = false) (hb : s.clu.busy = false)
    (hr : btReject s (shadowOf s s.cur).regs = some r) : Completes (.btgo d sc) s (wg s d (rejectWord r)) := by
  refine completes_of_ok (exec_btgo h) ?_
  have hl : bteLaunch (shadowOf s s.cur).regs sc .none s = .ok (rejectWord r, s) := by
    rw [bteLaunch, bind_of_ok (steady_calm hb), bind_of_ok (here_ok s), hr]
    rfl
  rw [bind_of_ok hl, change_ok]

theorem waits_btgo_busy (h : (shadowOf s s.cur).lost = false) (hb : s.clu.busy = true) : Waits (.btgo d sc) s .mem :=
  waits_of_error (exec_btgo h) (bind_of_error (bind_of_error (steady_busy hb))) (.refl s)

theorem btgo_ok {w : Word} {u : State} (h : (shadowOf s s.cur).lost = false)
    (hl : bteLaunch (shadowOf s s.cur).regs sc .none s = .ok (w, u)) : Completes (.btgo d sc) s (wg u d w) := by
  refine completes_of_ok (exec_btgo h) ?_
  rw [bind_of_ok hl, change_ok]

end

/-! ### What a commit leaves (R246, R252) -/

theorem modMyClu_spawn_clu (s : State) (f : Cluster → Cluster) (e : Event) : ((s.modMyClu f).spawn e).clu = f s.clu :=
  modClu_cluOf s s.cur.cluKey f

theorem nextId_bte {α : Type} (e : Engine α) : nextId e false = e.seq % 2 ^ 31 := Nat.zero_add _

/-- A transfer without a ring, a conversion and a barrier joins the end of the queue under the next identifier. -/
theorem commitXfer_plain {s : State} {l : List Word} {C : Scope} (hring : xRing l = false) (hconv : xConv l = false)
    (hbar : xreg l 9 = 0) :
    (commitXfer s l C).1 = word (s.clu.bte.seq % 2 ^ 31) ∧ ∃ y, (commitXfer s l C).2.clu.bte.queue = s.clu.bte.queue ++ [y] ∧
      y.id = s.clu.bte.seq % 2 ^ 31 ∧ y.who = s.cur ∧ y.regs = l ∧ y.landed = 0 ∧ y.fault = 0 := by
  unfold commitXfer
  simp only [hbar, hring, hconv, nextId_bte, showDepth, ne_eq, not_true_eq_false, false_and, if_false, Bool.false_eq_true,
    List.map_id', modMyClu_spawn_clu, commitOp, true_and]
  exact ⟨_, rfl, rfl, rfl, rfl, rfl, rfl⟩

/-- Settles O36: BTGO by what its launch answers, BTPOLL by the word it reads. -/
theorem blockTransfers : Obligations.BlockTransfers := by
  unfold Obligations.BlockTransfers
  intro d a n imm sc wait s s1 r v x l code S C done id w bar ready room
  have hlaunch (h : ready) : bteLaunch l sc .none s = xferBarrier l sc .none C s1 s1 := by
    obtain ⟨-, hr, hb, hg, hs, hc, hrel, -, -⟩ := h
    exact bteLaunch_released hr hb hg hs hc hrel
  refine ⟨completes_of_done rfl, completes_btgo_lost, completes_btgo_rejected, waits_btgo_busy, fun h hroom hfull => ?full,
    fun h hroom hfull => ?commits, fun h h9 hn hv hbig => ?overflow, fun h h9 hn hv => ?poison,
    fun hring hconv hbar => commitXfer_plain hring hconv hbar, fun hoff => if_pos hoff, fun hw => completes_of_done ?polled,
    fun hw hlow => waits_of_park (sent := false) (t := s) ?pollWait (.refl s)⟩
  case full =>
    have hwait := (hlaunch h).trans (congrFun (xferBarrier_room hroom) s1)
    rw [xferQueue, if_pos hfull] at hwait
    obtain ⟨hl, -, -, -, -, -, hrel, -, -⟩ := h
    exact waits_of_error (exec_btgo hl) (bind_of_error (hwait.trans (bind_of_error rfl))) (sameWord_of_stores (release_ok hrel))
  case commits =>
    have hgo := (hlaunch h).trans (congrFun (xferBarrier_room hroom) s1)
    obtain ⟨hl, -, -, -, -, -, -, hs1, hc1⟩ := h
    rw [xferQueue, if_neg (by rw [hfull]; exact Bool.false_ne_true), xferCommit_ok hs1 (Nat.zero_le _) hc1] at hgo
    exact btgo_ok hl hgo
  case overflow =>
    exact raises_of_error (exec_btgo h.1) (bind_of_error ((hlaunch h).trans (xferBarrier_overflow h9 hn hv hbig)))
  case poison =>
    exact raises_of_error (exec_btgo h.1) (bind_of_error ((hlaunch h).trans (xferBarrier_poison h9 hn hv)))
  case polled =>
    refine congrArg (finish s) (if_neg ?_)
    rintro ⟨hwait, hlow⟩
    rcases hw with hw | hw
    · rw [hw] at hwait
      exact Bool.noConfusion hwait
    · exact absurd hlow (Nat.not_le.mpr hw)
  case pollWait => exact congrArg (finish s) (if_pos ⟨hw, hlow⟩)

end Sys2Proof.Proofs.Transfers
end

section
/-! SUPPORT. The indirect copy engine (R259, R260, R295-R297): its descriptors, launches and closes. -/

namespace Sys2Proof.Proofs.Copies

open Sys2Proof Sys2Proof.Machine Sys2Proof.Laws Sys2Proof.Proofs.Running Sys2Proof.Proofs.Accesses
  Sys2Proof.Proofs.ControlTransfer Sys2Proof.Proofs.AtomicAccesses Sys2Proof.Proofs.WaitsBarriers
  Sys2Proof.Proofs.Streams Sys2Proof.Proofs.Transfers

/-! ### Launches (R259, R297) -/

section
variable {s : State} {o : IxOp} {first : Nat → Nat → Event}

theorem queueIx_queue : (queueIx s o first).clu.ixe.queue = s.clu.ixe.queue ++ [o] := by
  unfold queueIx
  simp only
  split <;> rw [modMyClu_spawn_clu] <;> rfl

theorem queueIx_me : (queueIx s o first).me = s.me := by
  unfold queueIx
  simp only
  split <;> rfl

theorem nextId_ixe {α : Type} (e : Engine α) : nextId e true = 2 ^ 31 + e.seq % 2 ^ 31 := by
  rw [nextId, b2n, if_pos rfl, Nat.one_mul]

end

section
variable {s s1 : State} {sc : Scope} {rs : Bool} {x dd n : Nat} {t : UpdTable}

/-- The operation of a posted launch. -/
def postedOp (s : State) (dd x : Nat) (C : Scope) (old : Nat) : IxOp :=
  { IxOp.start s (nextId s.clu.ixe true) dd x C with
    posted := true, okMask := old, todo := (List.range (dfield dd 0x1C 4)).filter fun e => !bitAt old e }

/-- A posted launch begins with the elements already done, or clears their mask (R260). -/
def ixmaskKept (s : State) (rs : Bool) : State := if rs then s else s.modCsr fun c => { c with ixmask := 0 }

theorem ixmaskKept_clu : (ixmaskKept s rs).clu = s.clu := by
  unfold ixmaskKept
  split <;> rfl

theorem ixLaunch_ok (hr : ixReject s dd = none) (hb : notBusy (ixRuns dd) s = .ok ((), s)) (hs : s.fits sc)
    (hc : s.fits (Scope.ofCode (dfield dd 0x2C 4))) (h1 : s1.fits sc) (hc1 : s1.fits (Scope.ofCode (dfield dd 0x2C 4)))
    (hrel : release (engineScope (if sc = .none then narrowed s .clu else sc)) s = .ok ((), s1))
    (hq : queueFull s1.clu.ixe = false) :
    ixLaunch dd x sc .none rs true s = .ok (word (nextId s1.clu.ixe true), queueIx (ixmaskKept s1 rs) (postedOp s1 dd x
      (engineScope (if Scope.ofCode (dfield dd 0x2C 4) = .none then narrowed s .clu else Scope.ofCode (dfield dd 0x2C 4)))
      (if rs then s1.me.csr.ixmask.toNat % 2 ^ dfield dd 0x1C 4 else 0)) .ixeElementCopy) := by
  rw [ixLaunch, bind_of_ok (steady_calm (calm_of_notBusy hb)), bind_of_ok (here_ok s), hr]
  simp only
  rw [bind_of_ok hb, bind_of_ok (launchScope_fits hs), carriedScope, bind_of_ok (launchScope_fits hc), bind_of_ok hrel,
    bind_of_ok (here_ok s1), if_neg (by rw [hq]; exact Bool.false_ne_true),
    bind_of_ok (noteScope_fits (Nat.zero_le _)), bind_of_ok (noteScope_fits h1), bind_of_ok (noteScope_fits hc1),
    bind_of_ok (change_ok _ _)]
  cases rs <;> rfl

theorem eupdLaunch_ok (hb : notBusy (updRuns dd x t.len) s = .ok ((), s)) (hs : s.fits sc)
    (hc : s.fits (Scope.ofCode (dfield dd 0x38 1))) (h1 : s1.fits sc) (hc1 : s1.fits (Scope.ofCode (dfield dd 0x38 1)))
    (hrel : release (engineScope (if sc = .none then narrowed s .clu else sc)) s = .ok ((), s1))
    (hq : queueFull s1.clu.ixe = false) :
    ∃ y, eupdLaunch x dd n t sc true s = .ok (word (nextId s1.clu.ixe true), queueIx s1 y .eupdDirectAdd) ∧
      y.id = nextId s1.clu.ixe true ∧ y.who = s1.cur ∧ y.desc = dd ∧ y.eupd = true ∧ y.step = t.step ∧ y.merge = t.merge := by
  rw [eupdLaunch, bind_of_ok hb, bind_of_ok (launchScope_fits hs), carriedScope, bind_of_ok (launchScope_fits hc),
    bind_of_ok hrel, bind_of_ok (here_ok s1), if_neg (by rw [hq]; exact Bool.false_ne_true)]
  beta_reduce
  rw [bind_of_ok (noteScope_fits h1), bind_of_ok (noteScope_fits hc1), bind_of_ok (change_ok _ _)]
  exact ⟨_, rfl, rfl, rfl, rfl, rfl, rfl, rfl⟩

theorem postedOp_todo {C : Scope} {old : Nat} (i : Nat) :
    i ∈ (postedOp s dd x C old).todo ↔ i < dfield dd 0x1C 4 ∧ bitAt old i = false := by
  rw [postedOp, List.mem_filter, List.mem_range, Bool.not_eq_true']

end

/-! ### IXPOST (R260) -/

section
variable {d a b : GReg} {sc : Scope} {rs : Bool} {s s1 : State} {dd r : Nat} {w : Word} {t : UpdTable}

theorem exec_ixpost_free (h : ixBusy s s.cur = false) : exec (.ixpost d a sc rs) s = finish s (Act.res (do
    let dd ← ownDescriptor (addrOf (rg s a)) 64 64
    let w ← ixLaunch dd (addrOf (rg s a)) sc .none rs true
    change fun t => wg t d w) s) := by
  change finish s _ = _
  rw [if_neg (by rw [h]; exact Bool.false_ne_true)]

theorem waits_ixpost (h : ixBusy s s.cur = true) : Waits (.ixpost d a sc rs) s .engine := by
  refine waits_of_park (t := s) (sent := false) ?_ (.refl s)
  change finish s _ = _
  rw [if_pos h]
  rfl

theorem ownDescriptor_calm {x : Nat} (ha : x % 64 = 0) (hb : s.clu.busy = false) :
    ownDescriptor x 64 64 s = (if ownPlace s x 64 = false then memTrap .prot x .load else placedLoad x 64 .load) s := by
  rw [ownDescriptor, bind_of_ok (aligned_of_mod_eq_zero ha), bind_of_ok (ownSteady_calm (.inr hb))]

theorem ownDescriptor_ok {x : Nat} (ha : x % 64 = 0) (hb : s.clu.busy = false) (ho : ownPlace s x 64 = true)
    (hl : placedLoad x 64 .load s = .ok (dd, s1)) : ownDescriptor x 64 64 s = .ok (dd, s1) := by
  rw [ownDescriptor_calm ha hb, if_neg (by rw [ho]; exact Bool.true_eq_false.mp), hl]

theorem ownDescriptor_elsewhere {x : Nat} (ha : x % 64 = 0) (hb : s.clu.busy = false) (ho : ownPlace s x 64 = false) :
    ownDescriptor x 64 64 s = .error (.trap .prot x 0) := by
  rw [ownDescriptor_calm ha hb, if_pos ho]
  rfl

theorem completes_ixpost {u : State} (hf : ixBusy s s.cur = false) (hd : ownDescriptor (addrOf (rg s a)) 64 64 s = .ok (dd, s1))
    (hl : ixLaunch dd (addrOf (rg s a)) sc .none rs true s1 = .ok (w, u)) : Completes (.ixpost d a sc rs) s (wg u d w) := by
  refine completes_of_ok (exec_ixpost_free hf) ?_
  rw [bind_of_ok hd, bind_of_ok hl, change_ok]

theorem ixLaunch_rejected {x : Nat} (hb : s.clu.busy = false) (hr : ixReject s dd = some r) :
    ixLaunch dd x sc .none rs true s = .ok (rejectWord r, s) := by
  rw [ixLaunch, bind_of_ok (steady_calm hb), bind_of_ok (here_ok s), hr]
  rfl

/-! ### EUPD and EUPD.close (R295-R297) -/

theorem waits_eupd (h : s.clu.busy = true) : Waits (.eupd d a b sc rs) s .mem :=
  waits_of_error rfl (bind_of_error (steady_busy h)) (.refl s)

theorem completes_eupd_offline (hb : s.clu.busy = false) (h : s.clu.ixe.offline = true) :
    Completes (.eupd d a b sc rs) s (wg s d (rejectWord 7)) := by
  refine completes_of_ok rfl ?_
  rw [bind_of_ok (steady_calm hb), if_pos h]
  rfl

theorem completes_eupd_elsewhere (hb : s.clu.busy = false) (h : s.clu.ixe.offline = false)
    (hx : addrOf (rg s a) % 64 ≠ 0 ∨ ownPlace s (addrOf (rg s a)) 64 = false) :
    Completes (.eupd d a b sc rs) s (wg s d (rejectWord 1)) := by
  refine completes_of_ok rfl ?_
  rw [bind_of_ok (steady_calm hb), if_neg (by rw [h]; exact Bool.false_ne_true), if_pos hx]
  rfl

/-- A batch whose descriptor is read does as its checks and its launch say. -/
theorem completes_eupd {u : State} (hb : s.clu.busy = false) (h : s.clu.ixe.offline = false) (hx : addrOf (rg s a) % 64 = 0)
    (ho : ownPlace s (addrOf (rg s a)) 64 = true) (hl : placedLoad (addrOf (rg s a)) 64 .load s = .ok (dd, s1))
    (hu : (match eupdReject dd with
      | some r => change fun v => wg v d (rejectWord r)
      | none =>
        match tableOf s s.cur.mod s.tenant ((rg s b).toNat % 256) with
        | none => change fun v => wg v d (rejectWord 5)
        | some t => do
          let w ← eupdLaunch (addrOf (rg s a)) dd ((rg s b).toNat % 256) t sc rs
          change fun v => wg v d w : Act Unit) s1 = .ok ((), u)) : Completes (.eupd d a b sc rs) s u := by
  have hplace : ¬ (addrOf (rg s a) % 64 ≠ 0 ∨ ownPlace s (addrOf (rg s a)) 64 = false) := by
    rintro (h | h)
    · exact h hx
    · rw [ho] at h
      exact Bool.noConfusion h
  refine completes_of_ok rfl ?_
  rw [bind_of_ok (steady_calm hb), if_neg (by rw [h]; exact Bool.false_ne_true), if_neg hplace, bind_of_ok hl]
  exact hu

theorem completes_eupdClose_answered {c : Nat} (h : unitAnswer s.me = some (c, r)) (hs : s.fits .ten) :
    Completes (.eupdClose d a b sc) s (wg s d (word r)) := by
  refine completes_of_ok (m := do noteClamp .ten; change fun v => wg v d (word r)) ?_ ?_
  · change finish s _ = _
    rw [h]
  · rw [bind_of_ok (noteClamp_fits hs), change_ok]

theorem completes_eupdClose_refused (h : unitAnswer s.me = none) (hk : hasAsked s.me askClose = false)
    (ht : (tableOf s s.cur.mod s.tenant ((rg s b).toNat % 256) = none ∧ r = 5) ∨
      (∃ t, tableOf s s.cur.mod s.tenant ((rg s b).toNat % 256) = some t ∧ t.merge = false ∧ r = 11)) :
    Completes (.eupdClose d a b sc) s (wg s d (rejectWord r)) := by
  refine completes_of_ok (m := change fun v => wg v d (rejectWord r)) ?_ (change_ok _ _)
  change finish s _ = _
  rw [h]
  simp only
  rw [if_neg (by rw [hk]; exact Bool.false_ne_true)]
  rcases ht with ⟨ht, rfl⟩ | ⟨t, ht, hm, rfl⟩
  · rw [ht]
  · rw [ht]
    simp only
    rw [if_pos hm]

end

/-- Settles O38: the descriptor and its checks decide, and a launch that passes queues its operation. -/
theorem indirectCopies : Obligations.IndirectCopies := by
  unfold Obligations.IndirectCopies
  refine ⟨fun d a b sc rs s s1 dd r w t => ?_, fun sc rs s s1 x dd n t => ?_⟩
  · intro x n free calm
    refine ⟨fun hf hx => raises_of_error (exec_ixpost_free hf) (bind_of_error (bind_of_error (aligned_error hx))),
      fun hf hb hx ho => raises_of_error (exec_ixpost_free hf) (bind_of_error (ownDescriptor_elsewhere hx hb ho)),
      fun hf hb hx ho hl => ⟨fun hb1 hr => completes_ixpost hf (ownDescriptor_ok hx hb ho hl) (ixLaunch_rejected hb1 hr),
        fun u hu => completes_ixpost hf (ownDescriptor_ok hx hb ho hl) hu⟩,
      waits_ixpost, waits_eupd, completes_eupd_offline, completes_eupd_elsewhere,
      fun hb hoff hx ho hl => ⟨fun hr => completes_eupd hb hoff hx ho hl ?rejected,
        fun hr ht => completes_eupd hb hoff hx ho hl ?noTable, fun u hr ht hu => completes_eupd hb hoff hx ho hl ?launched⟩,
      fun c => completes_eupdClose_answered, fun hnone hk => ⟨fun ht => completes_eupdClose_refused hnone hk (.inl ⟨ht, rfl⟩),
        fun ht hm => completes_eupdClose_refused hnone hk (.inr ⟨t, ht, hm, rfl⟩)⟩⟩
    case rejected =>
      rw [hr]
      exact change_ok _ _
    case noTable =>
      rw [hr]
      simp only
      rw [ht]
      exact change_ok _ _
    case launched =>
      rw [hr]
      simp only
      rw [ht]
      exact bind_of_ok hu
  · intro e S id count old fit hs hrel h1 hq
    have hid : nextId s1.clu.ixe true = id := nextId_ixe s1.clu.ixe
    refine ⟨fun hr hb hfit => ?posts, fun hb hfit => ?updates⟩
    case posts =>
      obtain ⟨hc, hc1⟩ := hfit
      have hl := ixLaunch_ok (x := x) (rs := rs) hr hb hs hc h1 hc1 hrel hq
      rw [hid] at hl
      generalize engineScope _ = C at hl
      refine ⟨_, postedOp s1 dd x C old, hl, ?_, hid, rfl, rfl, rfl, rfl, postedOp_todo, fun hrs => ?_, fun hrs => ?_⟩
      · rw [queueIx_queue, ixmaskKept_clu]
      · rw [queueIx_me, ixmaskKept, if_neg (by rw [hrs]; exact Bool.false_ne_true), modCsr_me]
      · rw [queueIx_me, ixmaskKept, if_pos hrs]
    case updates =>
      obtain ⟨hc, hc1⟩ := hfit
      obtain ⟨y, hl, hyid, hrest⟩ := eupdLaunch_ok (n := n) (t := t) hb hs hc h1 hc1 hrel hq
      rw [hid] at hl hyid
      exact ⟨_, y, hl, queueIx_queue, hyid, hrest⟩

end Sys2Proof.Proofs.Copies
end

section
/-! SUPPORT. The lookup instructions (R270, R281-R286, R291): their reasons in order, a launch that passes, and what
KLWAIT and KLRES tell apart. -/

namespace Sys2Proof.Proofs.Lookups

open Sys2Proof Sys2Proof.Machine Sys2Proof.Laws Sys2Proof.Proofs.Running Sys2Proof.Proofs.Accesses
  Sys2Proof.Proofs.AtomicAccesses Sys2Proof.Proofs.WaitsBarriers Sys2Proof.Proofs.Streams Sys2Proof.Proofs.Transfers

/-! ### Answers that an instruction writes at once -/

/-- The rejection of a launch, written to its destination. -/
def answer (d : GReg) (w : Word) : Act Unit := change fun t => wg t d w

theorem completes_answer {i : Instr} {d : GReg} {w : Word} {s s1 : State} {m : Act Unit}
    (h : exec i s = finish s (Act.res m s)) (hm : m s = answer d w s1) : Completes i s (wg s1 d w) :=
  completes_of_ok h (hm.trans (change_ok _ _))

/-! ### KLSET (R270) -/

section
variable {d a b : GReg} {clr : Bool} {s s1 : State} {dd r : Nat}

/-- The slot that KLSET names. -/
def slotAt (s : State) (i : Nat) : KSlot := nth (KSlot.mk false 0 0) s.clu.kslots (i % 16)

def putSlot (s : State) (i : Nat) (y : KSlot) : State :=
  s.modMyClu fun z => { z with kslots := setNth z.kslots (i % 16) y }

/-- A slot without a descriptor, or with one of the strand's own tenant. -/
theorem ownSlot_iff {k : KSlot} : (k.valid && decide (k.tenant ≠ s.tenant)) = true ↔ ¬ (k.valid = true → k.tenant = s.tenant) := by
  simp

theorem completes_klset_foreign (h : ¬ ((slotAt s (rg s b).toNat).valid = true → (slotAt s (rg s b).toNat).tenant = s.tenant)) :
    Completes (.klset d a b clr) s (wg s d (rejectWord 5)) := by
  exact completes_answer rfl (congrFun (if_pos (ownSlot_iff.mpr h)) s)

section
variable (hm : (slotAt s (rg s b).toNat).valid = true → (slotAt s (rg s b).toNat).tenant = s.tenant)
include hm

theorem completes_klset_clear : Completes (.klset d a b true) s
    (wg (putSlot s (rg s b).toNat { slotAt s (rg s b).toNat with valid := false }) d 0) := by
  refine completes_of_ok rfl ((congrFun (if_neg (mt ownSlot_iff.mp (not_not_intro hm))) s).trans ?_)
  rw [if_pos rfl]
  exact change_ok _ _

theorem completes_klset_elsewhere (hb : s.clu.busy = false)
    (hp : ¬ (addrOf (rg s a) % 64 = 0 ∧ ownPlace s (addrOf (rg s a)) 64 = true)) :
    Completes (.klset d a b false) s (wg s d (rejectWord 1)) := by
  refine completes_answer rfl ((congrFun (if_neg (mt ownSlot_iff.mp (not_not_intro hm))) s).trans ?_)
  rw [if_neg Bool.false_ne_true]
  by_cases hx : addrOf (rg s a) % 64 = 0
  · rw [if_neg (not_not_intro hx), bind_of_ok (ownSteady_calm (.inr hb)), if_pos (by simpa [hx] using hp)]
    rfl
  · rw [if_pos hx]
    rfl

/-- KLSET of a descriptor that is read does as its checks say. -/
theorem completes_klset_read {u : State} (hb : s.clu.busy = false) (hx : addrOf (rg s a) % 64 = 0)
    (ho : ownPlace s (addrOf (rg s a)) 64 = true) (hl : placedLoad (addrOf (rg s a)) 64 .load s = .ok (dd, s1))
    (hu : (lookReject s1 dd = some r ∧ wg s1 d (rejectWord r) = u) ∨ (lookReject s1 dd = none ∧
      wg (putSlot s1 (rg s b).toNat { valid := true, tenant := s1.tenant, desc := dd }) d 0 = u)) : Completes (.klset d a b false) s u := by
  refine completes_of_ok rfl ((congrFun (if_neg (mt ownSlot_iff.mp (not_not_intro hm))) s).trans ?_)
  rw [if_neg Bool.false_ne_true, if_neg (not_not_intro hx),
    bind_of_ok (ownSteady_calm (.inr hb)), if_neg (by rw [ho]; exact Bool.true_eq_false.mp), bind_of_ok hl,
    bind_of_ok (here_ok s1)]
  rcases hu with ⟨hr, rfl⟩ | ⟨hr, rfl⟩
  · rw [hr]
    exact change_ok _ _
  · rw [hr]
    exact change_ok _ _

end
end

/-! ### KLOOK and EBAG (R281, R291) -/

section
variable {d a b : GReg} {sc : Scope} {s s1 u : State} {w : Word} {dd r : Nat}

theorem scoreGrant_ok {D : Nat} (hg : 65536 < 2 * dN D * dDh D → grantHeld s 1 = true) : scoreGrant D s = .ok ((), s) := by
  unfold scoreGrant
  split
  · next h => exact needGrant_held (hg h)
  · rfl

theorem waits_klook (h : s.clu.busy = true) : Waits (.klook d a b sc) s .mem :=
  waits_of_error rfl (bind_of_error (steady_busy h)) (.refl s)

theorem waits_ebag (h : s.clu.busy = true) : Waits (.ebag d a b sc) s .mem :=
  waits_of_error rfl (bind_of_error (steady_busy h)) (.refl s)

theorem completes_klook_offline (hb : s.clu.busy = false) (h : s.clu.kOffline = true) :
    Completes (.klook d a b sc) s (wg s d (rejectWord 7)) := by
  refine completes_answer rfl ?_
  rw [bind_of_ok (steady_calm hb), if_pos h]
  rfl

theorem completes_ebag_offline (hb : s.clu.busy = false) (h : s.clu.kOffline = true) :
    Completes (.ebag d a b sc) s (wg s d (rejectWord 7)) := by
  refine completes_answer rfl ?_
  rw [bind_of_ok (steady_calm hb), if_pos h]
  rfl

section
variable (hb : s.clu.busy = false) (hon : s.clu.kOffline = false)
include hb hon

theorem completes_klook_noSlot (h : (slotAt s (rg s a).toNat).valid = false ∨ (slotAt s (rg s a).toNat).tenant ≠ s.tenant) :
    Completes (.klook d a b sc) s (wg s d (rejectWord 5)) := by
  refine completes_answer rfl ?_
  rw [bind_of_ok (steady_calm hb), if_neg (by rw [hon]; exact Bool.false_ne_true),
    if_pos (by simpa [slotAt] using h)]
  rfl

section
variable (hv : (slotAt s (rg s a).toNat).valid = true) (ht : (slotAt s (rg s a).toNat).tenant = s.tenant)
include hv ht

/-- KLOOK with a descriptor of its own tenant. -/
theorem exec_klook_slot : exec (.klook d a b sc) s = finish s (Act.res
    (if queryBad s (rg s b).toNat (slotAt s (rg s a).toNat).desc then answer d (rejectWord 6)
      else if anyCtx s.clu = false then answer d (rejectWord 8)
      else do
        scoreGrant (slotAt s (rg s a).toNat).desc
        let w ← launchCtx (slotAt s (rg s a).toNat).desc (rg s b).toNat false sc
        answer d w : Act Unit) s) := by
  change finish s (Act.res _ s) = _
  congr 1
  unfold Act.res
  rw [bind_of_ok (steady_calm hb), if_neg (by rw [hon]; exact Bool.false_ne_true),
    if_neg (by rw [slotAt] at hv ht; simp [hv, ht])]
  rfl

theorem completes_klook_badQuery (hq : queryBad s (rg s b).toNat (slotAt s (rg s a).toNat).desc = true) :
    Completes (.klook d a b sc) s (wg s d (rejectWord 6)) :=
  completes_answer (exec_klook_slot hb hon hv ht) (by rw [if_pos hq])

theorem completes_klook_noContext (hq : queryBad s (rg s b).toNat (slotAt s (rg s a).toNat).desc = false)
    (hc : anyCtx s.clu = false) : Completes (.klook d a b sc) s (wg s d (rejectWord 8)) :=
  completes_answer (exec_klook_slot hb hon hv ht) (by rw [if_neg (by rw [hq]; exact Bool.false_ne_true), if_pos hc])

theorem completes_klook (hq : queryBad s (rg s b).toNat (slotAt s (rg s a).toNat).desc = false) (hc : anyCtx s.clu = true)
    (hg : 65536 < 2 * dN (slotAt s (rg s a).toNat).desc * dDh (slotAt s (rg s a).toNat).desc → grantHeld s 1 = true)
    (hl : launchCtx (slotAt s (rg s a).toNat).desc (rg s b).toNat false sc s = .ok (w, u)) :
    Completes (.klook d a b sc) s (wg u d w) := by
  refine completes_answer (exec_klook_slot hb hon hv ht) ?_
  rw [if_neg (by rw [hq]; exact Bool.false_ne_true), if_neg (by rw [hc]; exact Bool.true_eq_false.mp),
    bind_of_ok (scoreGrant_ok hg), bind_of_ok hl]

end

theorem completes_ebag_elsewhere (hp : ¬ (addrOf (rg s a) % 64 = 0 ∧ ownPlace s (addrOf (rg s a)) 64 = true)) :
    Completes (.ebag d a b sc) s (wg s d (rejectWord 1)) := by
  refine completes_answer rfl ?_
  rw [bind_of_ok (steady_calm hb), if_neg (by rw [hon]; exact Bool.false_ne_true), if_pos (by simpa [imp_iff_not_or] using hp)]
  rfl

/-- EBAG with a descriptor that is read. -/
theorem completes_ebag_read (hx : addrOf (rg s a) % 64 = 0) (ho : ownPlace s (addrOf (rg s a)) 64 = true)
    (hl : placedLoad (addrOf (rg s a)) 64 .load s = .ok (dd, s1)) {m : Act Unit}
    (hm : (if (rg s b).toNat = 0 ∨ 32 < (rg s b).toNat then answer d (rejectWord 2)
      else
        match bagReject s1 dd with
        | some r => answer d (rejectWord r)
        | none =>
          if anyCtx s1.clu = false then answer d (rejectWord 8)
          else do
            let w ← launchCtx dd (rg s b).toNat true sc
            answer d w) = m) {v : State} (hv : m s1 = .ok ((), v)) :
    Completes (.ebag d a b sc) s v := by
  refine completes_of_ok rfl ?_
  rw [bind_of_ok (steady_calm hb), if_neg (by rw [hon]; exact Bool.false_ne_true), if_neg (by simp [hx, ho]), bind_of_ok hl,
    bind_of_ok (here_ok s1), ← hv, ← hm]
  rfl

end
end

/-! ### KLWAIT (R282-R284) -/

section
variable {d a : GReg} {poll : Bool} {s : State} {code status : Nat}

/-- The tag that KLWAIT and KLRES name, its context's number and the context. -/
def tagIn (s : State) (a : GReg) : Nat := (rg s a).toNat % 2 ^ 32

def ctxIn (s : State) (a : GReg) : KCtx := kctx s.clu (bits (tagIn s a) 31 26)

/-- What a report of a lookup that is done leaves. -/
def reported (s : State) (d : GReg) (tag code status : Nat) : State :=
  waitReturned ((setKlstat (status / 2 ^ 32 * 2 ^ 32 + tag) (wg s d (word (code / 8)))).acquired (Scope.ofCode (code % 8)))
    (bits tag 31 26) tag

theorem reportDone_ok {tag : Nat} : reportDone d tag code status s = .ok ((), reported s d tag code status) := by
  rw [reportDone, bind_of_ok (change_ok _ _), bind_of_ok acquire_acquired, change_ok]
  rfl

theorem completes_klwait_answered (h : unitAnswer s.me = some (code, status)) :
    Completes (.klwait d a poll) s (reported s d (tagIn s a) code status) := by
  refine completes_of_ok (m := reportDone d (tagIn s a) code status) ?_ reportDone_ok
  change finish s _ = _
  rw [h]
  rfl

/-- KLWAIT without an answer, by its tag and its context. -/
theorem exec_klwait (h : unitAnswer s.me = none) : exec (.klwait d a poll) s = finish s (Act.res (
    if staleTag s (tagIn s a) then
      match freedNow s (tagIn s a) with
      | some (code, status) => reportDone d (tagIn s a) code status
      | none => change fun t => setKlstat (2 * 2 ^ 62 + tagIn s a) (wg t d 0)
    else if (ctxIn s a).st = 1 then
      if poll then change fun t => setKlstat (3 * 2 ^ 62 + tagIn s a) (wg t d 0)
      else fun t => .error (.park .klwait false (t.modCtx t.cur.cluKey (bits (tagIn s a) 31 26) fun y =>
        { y with waiters := t.cur :: y.waiters.filter (· ≠ t.cur) }))
    else if (ctxIn s a).st = 3 then
      if bitAt s.me.csr.sstat.toNat 5 then raise .klFault (ctxIn s a).faddr (tagIn s a)
      else change fun t => setKlstat (statusWord (ctxIn s a) (tagIn s a)) (wg t d (word ((ctxIn s a).doneMask % 2 ^ 32)))
    else reportDone d (tagIn s a) ((ctxIn s a).scope.code + 8 * ((ctxIn s a).doneMask % 2 ^ 32))
      (statusWord (ctxIn s a) (tagIn s a))) s) := by
  change finish s _ = _
  rw [h]
  rfl

theorem completes_klwait_stale (h : unitAnswer s.me = none) (hs : staleTag s (tagIn s a) = true)
    (hf : freedNow s (tagIn s a) = none) :
    Completes (.klwait d a poll) s (setKlstat (2 * 2 ^ 62 + tagIn s a) (wg s d 0)) := by
  refine completes_of_ok (exec_klwait h) ?_
  rw [if_pos hs, hf]
  exact change_ok _ _

theorem completes_klwait_freed (h : unitAnswer s.me = none) (hs : staleTag s (tagIn s a) = true)
    (hf : freedNow s (tagIn s a) = some (code, status)) :
    Completes (.klwait d a poll) s (reported s d (tagIn s a) code status) := by
  refine completes_of_ok (exec_klwait h) ?_
  rw [if_pos hs, hf]
  exact reportDone_ok

section
variable (h : unitAnswer s.me = none) (hs : staleTag s (tagIn s a) = false)
include h hs

theorem completes_klwait_pending (hst : (ctxIn s a).st = 1) :
    Completes (.klwait d a true) s (setKlstat (3 * 2 ^ 62 + tagIn s a) (wg s d 0)) := by
  refine completes_of_ok (exec_klwait h) ?_
  rw [if_neg (by rw [hs]; exact Bool.false_ne_true), if_pos hst, if_pos rfl]
  exact change_ok _ _

theorem waits_klwait (hst : (ctxIn s a).st = 1) : Waits (.klwait d a false) s .klwait := by
  refine waits_of_error (exec_klwait h) (sent := false) (t := s.modCtx s.cur.cluKey (bits (tagIn s a) 31 26) fun y =>
    { y with waiters := s.cur :: y.waiters.filter (· ≠ s.cur) }) ?_ ⟨rfl, rfl, rfl, rfl, rfl, rfl⟩
  rw [if_neg (by rw [hs]; exact Bool.false_ne_true), if_pos hst, if_neg Bool.false_ne_true]

theorem raises_klwait (hst : (ctxIn s a).st = 3) (hb : bitAt s.me.csr.sstat.toNat 5 = true) :
    Raises (.klwait d a poll) s .klFault (ctxIn s a).faddr (tagIn s a) := by
  refine raises_of_error (exec_klwait h) ?_
  rw [if_neg (by rw [hs]; exact Bool.false_ne_true), if_neg (by omega), if_pos hst, if_pos hb]
  rfl

theorem completes_klwait_fault (hst : (ctxIn s a).st = 3) (hb : bitAt s.me.csr.sstat.toNat 5 = false) :
    Completes (.klwait d a poll) s
      (setKlstat (statusWord (ctxIn s a) (tagIn s a)) (wg s d (word ((ctxIn s a).doneMask % 2 ^ 32)))) := by
  refine completes_of_ok (exec_klwait h) ?_
  rw [if_neg (by rw [hs]; exact Bool.false_ne_true), if_neg (by omega), if_pos hst,
    if_neg (by rw [hb]; exact Bool.false_ne_true)]
  exact change_ok _ _

theorem completes_klwait_done (hst : (ctxIn s a).st = 2) :
    Completes (.klwait d a poll) s (reported s d (tagIn s a) ((ctxIn s a).scope.code + 8 * ((ctxIn s a).doneMask % 2 ^ 32))
      (statusWord (ctxIn s a) (tagIn s a))) := by
  refine completes_of_ok (exec_klwait h) ?_
  rw [if_neg (by rw [hs]; exact Bool.false_ne_true), if_neg (by omega), if_neg (by omega)]
  exact reportDone_ok

end
end

/-! ### KLRES (R285, R286) -/

section
variable {d a : GReg} {sc : Scope} {drop : Bool} {s s1 : State}

theorem completes_klres_none (h : staleTag s (tagIn s a) = true ∨ (ctxIn s a).st ≠ 3) :
    Completes (.klres d a sc drop) s (wg s d (rejectWord 10)) := by
  have hno : (staleTag s (tagIn s a) || decide ((ctxIn s a).st ≠ 3)) = true := by
    rcases h with h | h <;> simp [h]
  exact completes_answer rfl (congrFun (if_pos hno) s)

section
variable (hs : staleTag s (tagIn s a) = false) (hst : (ctxIn s a).st = 3)
include hs hst

/-- KLRES of a faulted lookup. -/
theorem exec_klres_faulted : exec (.klres d a sc drop) s = finish s (Act.res (
    if drop then change fun t => wg (freeContext t t.cur.cluKey (bits (tagIn s a) 31 26)) d 0
    else if s.clu.kOffline then answer d (rejectWord 7)
    else do
      if (ctxIn s a).phase = 0 && !(ctxIn s a).bag then scoreGrant (ctxIn s a).desc
      notBusy (ctxRuns (ctxIn s a).desc (ctxIn s a).query (ctxIn s a).bag)
      let S ← launchScope sc
      release S
      let t ← here
      if ticketFree t t.cur.dieKey = false then parkOn .engine
      else do
        noteScope sc
        let u ← here
        change fun _ => wg (resumeCtx u (bits (tagIn s a) 31 26)).2 d (resumeCtx u (bits (tagIn s a) 31 26)).1) s) := by
  refine congrArg (fun z => finish s (Act.res z s)) (if_neg ?_)
  change ¬ (staleTag s (tagIn s a) || decide ((ctxIn s a).st ≠ 3)) = true
  simp [hs, hst]

theorem completes_klres_drop :
    Completes (.klres d a sc true) s (wg (freeContext s s.cur.cluKey (bits (tagIn s a) 31 26)) d 0) := by
  refine completes_of_ok (exec_klres_faulted hs hst) ?_
  rw [if_pos rfl]
  exact change_ok _ _

theorem completes_klres_offline (h : s.clu.kOffline = true) : Completes (.klres d a sc false) s (wg s d (rejectWord 7)) := by
  refine completes_answer (exec_klres_faulted hs hst) ?_
  rw [if_neg Bool.false_ne_true, if_pos h]

section
variable (hon : s.clu.kOffline = false)
  (hb : notBusy (ctxRuns (ctxIn s a).desc (ctxIn s a).query (ctxIn s a).bag) s = .ok ((), s)) (hf : s.fits sc)
  (hr : release (engineScope (if sc = .none then narrowed s .clu else sc)) s = .ok ((), s1))
  (hg : (ctxIn s a).phase = 0 → (ctxIn s a).bag = false →
    65536 < 2 * dN (ctxIn s a).desc * dDh (ctxIn s a).desc → grantHeld s 1 = true)
include hon hb hf hr hg

/-- A lookup that is resumed, up to its release. -/
theorem klres_released {r : Except Res (Unit × State)} (hrest : (if ticketFree s1 s1.cur.dieKey = false then parkOn .engine
      else do
        noteScope sc
        let u ← here
        change fun _ => wg (resumeCtx u (bits (tagIn s a) 31 26)).2 d (resumeCtx u (bits (tagIn s a) 31 26)).1 : Act Unit) s1 = r) :
    ∃ m : Act Unit, exec (.klres d a sc false) s = finish s (Act.res m s) ∧ m s = r := by
  refine ⟨_, exec_klres_faulted hs hst, ?_⟩
  rw [if_neg Bool.false_ne_true, if_neg (by rw [hon]; exact Bool.false_ne_true)]
  split
  · next h =>
    rw [Bool.and_eq_true, decide_eq_true_eq, Bool.not_eq_true'] at h
    rw [bind_of_ok (scoreGrant_ok (hg h.1 h.2))]
    beta_reduce
    rw [bind_of_ok hb, bind_of_ok (launchScope_fits hf), bind_of_ok hr,
      bind_of_ok (here_ok s1), hrest]
  · beta_reduce
    rw [bind_of_ok hb, bind_of_ok (launchScope_fits hf), bind_of_ok hr, bind_of_ok (here_ok s1), hrest]

theorem completes_klres (h1 : s1.fits sc) (ht : ticketFree s1 s1.cur.dieKey = true) :
    Completes (.klres d a sc false) s
      (wg (resumeCtx s1 (bits (tagIn s a) 31 26)).2 d (resumeCtx s1 (bits (tagIn s a) 31 26)).1) := by
  obtain ⟨m, hm, hok⟩ := klres_released (d := d) hs hst hon hb hf hr hg rfl
  refine completes_of_ok hm (hok.trans ?_)
  rw [if_neg (by rw [ht]; exact Bool.true_eq_false.mp), bind_of_ok (noteScope_fits h1), bind_of_ok (here_ok s1), change_ok]

theorem waits_klres (ht : ticketFree s1 s1.cur.dieKey = false) : Waits (.klres d a sc false) s .engine := by
  obtain ⟨m, hm, hok⟩ := klres_released (d := d) hs hst hon hb hf hr hg rfl
  refine waits_of_error (sent := false) (t := s1) hm (hok.trans ?_) (sameWord_of_stores (release_ok hr))
  rw [if_pos ht]
  rfl

end
end
end

/-! ### A launch that passes (R282) -/

section
variable {s s1 : State} {sc C : Scope} {desc query i : Nat} {bag : Bool}

theorem launchCtx_ok (hb : notBusy (ctxRuns desc query bag) s = .ok ((), s)) (hs : s.fits sc)
    (hc : s.fits (Scope.ofCode (dScope desc)))
    (hr : release (engineScope (if sc = .none then narrowed s .clu else sc)) s = .ok ((), s1))
    (h1 : s1.fits sc) (hc1 : s1.fits (Scope.ofCode (dScope desc))) (hi : freeCtx s1.clu = some i)
    (ht : ticketFree s1 s1.cur.dieKey = true) :
    launchCtx desc query bag sc s = .ok (commitCtx s1 i desc query bag
      (engineScope (if Scope.ofCode (dScope desc) = .none then narrowed s .clu else Scope.ofCode (dScope desc)))) := by
  rw [launchCtx, bind_of_ok hb, bind_of_ok (launchScope_fits hs), carriedScope, bind_of_ok (launchScope_fits hc),
    bind_of_ok hr, bind_of_ok (here_ok s1), hi]
  simp only
  rw [if_neg (by rw [ht]; exact Bool.true_eq_false.mp), bind_of_ok (noteScope_fits h1), bind_of_ok (noteScope_fits hc1),
    bind_of_ok (here_ok s1), bind_of_ok (change_ok _ _)]
  rfl

theorem commitCtx_tag : (commitCtx s i desc query bag C).1
    = word (i * 2 ^ 26 + (kctx s.clu i).gen % 1024 * 2 ^ 16 + (s.dieOf s.cur.dieKey).ticketCtr % 65536) := rfl

theorem commitCtx_ticket : ((commitCtx s i desc query bag C).2.dieOf s.cur.dieKey).ticketCtr
    = ((s.dieOf s.cur.dieKey).ticketCtr + 1) % 65536 :=
  congrArg Die.ticketCtr (modDie_dieOf s s.cur.dieKey fun d => { d with ticketCtr := (d.ticketCtr + 1) % 65536 })

/-- The context of a launch. -/
def startedCtx (s : State) (i desc query : Nat) (bag : Bool) (C : Scope) : KCtx :=
  { KCtx.free with
    st := 1, gen := (kctx s.clu i).gen, ticket := (s.dieOf s.cur.dieKey).ticketCtr, who := s.cur, tenant := s.tenant,
    part := s.part, priv := s.super, scope := C, desc := desc, bag := bag, query := query,
    seed := (copySeed (takeTicket s s.cur.dieKey)).1, qtodo := if bag then [] else List.range (2 * dDh desc),
    holders := [s.cur], freed := (kctx s.clu i).freed }

theorem commitCtx_clu : (commitCtx s i desc query bag C).2.clu
    = { s.clu with kctx := fset s.clu.kctx i (startedCtx s i desc query bag C) } :=
  modMyClu_spawn_clu (copySeed (takeTicket s s.cur.dieKey)).2
    (fun c => { c with kctx := fset c.kctx i (startedCtx s i desc query bag C) }) _

theorem commitCtx_own : kctx (commitCtx s i desc query bag C).2.clu i = startedCtx s i desc query bag C := by
  rw [commitCtx_clu, kctx, fget_fset_same]

theorem commitCtx_other {j : Nat} (h : j ≠ i) : kctx (commitCtx s i desc query bag C).2.clu j = kctx s.clu j := by
  rw [commitCtx_clu, kctx, fget_fset_other _ _ _ _ _ h, kctx]

end

/-- Settles O40: each instruction's reasons in their order, and the context that a launch takes. -/
theorem keyLookups : Obligations.KeyLookups := by
  unfold Obligations.KeyLookups
  refine ⟨fun d a b sc poll s s1 u r dd c v w => ?_, fun desc query i bag sc s s1 => ?_⟩
  · intro n x slot put mine placed no look tag i y on calm report live S faulted resume
    have hoff (h : ¬ on) : s.clu.kOffline = true := Bool.not_eq_false _ ▸ h
    refine ⟨completes_klset_foreign, fun hm => ⟨completes_klset_clear hm, completes_klset_elsewhere hm,
        fun hb ⟨hx, ho⟩ hl => ⟨fun hr => completes_klset_read hm hb hx ho hl (.inl ⟨hr, rfl⟩),
          fun hr => completes_klset_read (r := 0) hm hb hx ho hl (.inr ⟨hr, rfl⟩)⟩⟩,
      fun hb => ⟨waits_klook hb, waits_ebag hb⟩,
      fun hb h => ⟨completes_klook_offline hb (hoff h), completes_ebag_offline hb (hoff h)⟩, completes_klook_noSlot,
      fun hb hon hv ht => ⟨completes_klook_badQuery hb hon hv ht, completes_klook_noContext hb hon hv ht,
        completes_klook hb hon hv ht⟩,
      completes_ebag_elsewhere,
      fun hb hon ⟨hx, ho⟩ hl => ⟨fun hn => completes_ebag_read hb hon hx ho hl rfl ?ebagCount,
        fun h1 h32 hr => completes_ebag_read hb hon hx ho hl rfl ?ebagRejected,
        fun h1 h32 hr hc hw => completes_ebag_read hb hon hx ho hl rfl ?ebagLaunched⟩,
      completes_klwait_answered, fun h hs => ⟨completes_klwait_stale h hs, completes_klwait_freed h hs⟩,
      fun ⟨h, hs⟩ hst => ⟨completes_klwait_pending h hs hst, waits_klwait h hs hst⟩,
      fun ⟨h, hs⟩ hst => ⟨raises_klwait h hs hst, completes_klwait_fault h hs hst⟩,
      fun ⟨h, hs⟩ hst => completes_klwait_done h hs hst, completes_klres_none,
      fun ⟨hs, hst⟩ => completes_klres_drop hs hst, fun ⟨hs, hst⟩ h => completes_klres_offline hs hst (hoff h),
      fun ⟨⟨hs, hst⟩, hon, hb, hf, hr, h1, hg⟩ ht => completes_klres hs hst hon hb hf hr hg h1 ht,
      fun ⟨⟨hs, hst⟩, hon, hb, hf, hr, h1, hg⟩ ht => waits_klres hs hst hon hb hf hr hg ht⟩
    case ebagCount =>
      rw [if_pos hn]
      exact change_ok _ _
    case ebagRejected =>
      rw [if_neg (by omega), hr]
      exact change_ok _ _
    case ebagLaunched =>
      rw [if_neg (by omega), hr]
      simp only
      rw [if_neg (by rw [hc]; exact Bool.true_eq_false.mp)]
      exact bind_of_ok hw
  · intro t g code S hb hs hc hr h1 hc1 hi ht
    have hl := launchCtx_ok hb hs hc hr h1 hc1 hi ht
    generalize engineScope _ = C at hl
    refine ⟨(commitCtx s1 i desc query bag C).2, hl, commitCtx_ticket, ?_⟩
    rw [commitCtx_own]
    exact ⟨rfl, rfl, rfl, rfl, rfl, rfl, rfl, fun j hj => commitCtx_other hj⟩

end Sys2Proof.Proofs.Lookups
end

section
/-! SUPPORT. The checks of matrix operations and their place in a stream (R200, R207, R210, R217, R442): one order of
checks for every operation that a stream queues. -/

namespace Sys2Proof.Proofs.MatrixQueue

open Sys2Proof Sys2Proof.Machine Sys2Proof.Laws Sys2Proof.Proofs.Running Sys2Proof.Proofs.Accesses
  Sys2Proof.Proofs.WaitsBarriers Sys2Proof.Proofs.Transfers

/-! ### The checks at issue -/

/-- The tiles of a list that the strand does not own. -/
def foreign (s : State) (ts : List Nat) : List Nat := ts.filter fun i => !ownsTile s i

/-- The EINFO of TILE_SHAPE. -/
def shapeInfo (s : State) (code : Nat) (ts : List Nat) : Nat := leastOf ts * 2 ^ 16 + halfBit s + code

/-- The checks of formats, dimensions and aliases, in the order of R442. -/
def shapeChecks (f : List Nat × List Nat × List Nat) : Act Unit := do
  tileCheck 4 f.1
  tileCheck 1 f.2.1
  tileCheck 6 f.2.2

section
variable {s : State} {ts : List Nat} {code : Nat} {f : List Nat × List Nat × List Nat}

theorem tileCheck_nil : tileCheck code [] s = .ok ((), s) := rfl

theorem tileCheck_error (h : ts ≠ []) : tileCheck code ts s = .error (.trap .tileShape 0 (shapeInfo s code ts)) := by
  rw [tileCheck, if_neg (by rwa [List.isEmpty_iff])]
  rfl

theorem needTiles_owned (hc : tilesChanging s = false) (h : foreign s ts = []) : needTiles ts s = .ok ((), s) := by
  have hc' : needTiles ts s = tileCheck 2 (foreign s ts) s := if_neg (by rw [hc]; exact Bool.false_ne_true)
  rw [hc', h]
  rfl

theorem needTiles_foreign (hc : tilesChanging s = false) (h : foreign s ts ≠ []) :
    needTiles ts s = .error (.trap .tileShape 0 (shapeInfo s 2 (foreign s ts))) := by
  have hc' : needTiles ts s = tileCheck 2 (foreign s ts) s := if_neg (by rw [hc]; exact Bool.false_ne_true)
  rw [hc', tileCheck_error h]

theorem shapeChecks_format (h : f.1 ≠ []) : shapeChecks f s = .error (.trap .tileShape 0 (shapeInfo s 4 f.1)) :=
  bind_of_error (tileCheck_error h)

theorem shapeChecks_dimension (h4 : f.1 = []) (h : f.2.1 ≠ []) :
    shapeChecks f s = .error (.trap .tileShape 0 (shapeInfo s 1 f.2.1)) := by
  rw [shapeChecks, h4, bind_of_ok tileCheck_nil]
  exact bind_of_error (tileCheck_error h)

theorem shapeChecks_alias (h4 : f.1 = []) (h1 : f.2.1 = []) (h : f.2.2 ≠ []) :
    shapeChecks f s = .error (.trap .tileShape 0 (shapeInfo s 6 f.2.2)) := by
  rw [shapeChecks, h4, bind_of_ok tileCheck_nil, h1, bind_of_ok tileCheck_nil]
  exact tileCheck_error h

theorem shapeChecks_ok (h : f = ([], [], [])) : shapeChecks f s = .ok ((), s) := by
  rw [h]
  rfl

end

/-! ### The place in a stream (R200 steps 4 to 7) -/

/-- The operation as its stream queues it: a copy of the generator, its strand and the time it joins. -/
def queued (st : Nat) (t : State) (o : MOp) : State :=
  appendOp (copySeed t).2 (copySeed t).2.cur.coreKey st
    { o with seed := (copySeed t).1, slot := some t.cur.slot, tenant := t.tenant, priv := t.super, since := t.core.mwaits }

section
variable {s : State} {o : MOp} {st : Nat}

theorem queueOp_granted (hg : o.heavy = true → grantHeld s 2 = true) :
    queueOp st o s = (if 8 ≤ (queueOf s.core st).length then parkOn .engine else change fun t => queued st t o) s := by
  rw [queueOp]
  split
  · next h =>
    rw [bind_of_ok (needGrant_held (hg h))]
    exact bind_of_ok (here_ok s)
  · exact bind_of_ok (here_ok s)

theorem queueOp_full (hg : o.heavy = true → grantHeld s 2 = true) (hf : 8 ≤ (queueOf s.core st).length) :
    queueOp st o s = .error (.park .engine false s) := by
  rw [queueOp_granted hg, if_pos hf]
  rfl

theorem queueOp_room (hg : o.heavy = true → grantHeld s 2 = true) (hf : ¬ 8 ≤ (queueOf s.core st).length) :
    queueOp st o s = .ok ((), queued st s o) := by
  rw [queueOp_granted hg, if_neg hf, change_ok]

end

/-- What an instruction that a stream queues does, by its tiles, the conditions that fail, a grant and room in the
stream. -/
structure QueueChecks (s : State) (i : Instr) (ts : List Nat) (f : List Nat × List Nat × List Nat) (st : Nat) (o : MOp) :
    Prop where
  owner : foreign s ts ≠ [] → Raises i s .tileShape 0 (shapeInfo s 2 (foreign s ts))
  format : foreign s ts = [] → f.1 ≠ [] → Raises i s .tileShape 0 (shapeInfo s 4 f.1)
  dimension : foreign s ts = [] → f.1 = [] → f.2.1 ≠ [] → Raises i s .tileShape 0 (shapeInfo s 1 f.2.1)
  overlap : foreign s ts = [] → f.1 = [] → f.2.1 = [] → f.2.2 ≠ [] → Raises i s .tileShape 0 (shapeInfo s 6 f.2.2)
  waits : foreign s ts = [] → f = ([], [], []) → (o.heavy = true → grantHeld s 2 = true) →
    8 ≤ (queueOf s.core st).length → Waits i s .engine
  joins : foreign s ts = [] → f = ([], [], []) → (o.heavy = true → grantHeld s 2 = true) →
    ¬ 8 ≤ (queueOf s.core st).length → Completes i s (queued st s o)

theorem QueueChecks.of_meaning {s : State} {i : Instr} {ts : List Nat} {f : List Nat × List Nat × List Nat} {st : Nat} {o : MOp}
    {m : Act Unit} (hc : tilesChanging s = false) (hi : exec i s = finish s (Act.res (do needTiles ts; m) s))
    (hm : m s = (do shapeChecks f; queueOp st o : Act Unit) s) : QueueChecks s i ts f st o where
  owner h := raises_of_error hi (bind_of_error (needTiles_foreign hc h))
  format ho h := raises_of_error hi ((bind_of_ok (needTiles_owned hc ho)).trans (hm.trans (bind_of_error (shapeChecks_format h))))
  dimension ho h4 h :=
    raises_of_error hi ((bind_of_ok (needTiles_owned hc ho)).trans (hm.trans (bind_of_error (shapeChecks_dimension h4 h))))
  overlap ho h4 h1 h :=
    raises_of_error hi ((bind_of_ok (needTiles_owned hc ho)).trans (hm.trans (bind_of_error (shapeChecks_alias h4 h1 h))))
  waits ho hf hg hfull := waits_of_error hi ((bind_of_ok (needTiles_owned hc ho)).trans
    (hm.trans ((bind_of_ok (shapeChecks_ok hf)).trans (queueOp_full hg hfull)))) (.refl s)
  joins ho hf hg hroom := completes_of_ok hi ((bind_of_ok (needTiles_owned hc ho)).trans
    (hm.trans ((bind_of_ok (shapeChecks_ok hf)).trans (queueOp_room hg hroom))))

/-- The clauses of the checks, as the statement lists them. -/
theorem QueueChecks.clauses {s : State} {i : Instr} {ts : List Nat} {f : List Nat × List Nat × List Nat} {st : Nat} {o : MOp}
    (h : QueueChecks s i ts f st o) :
    (foreign s ts ≠ [] → Raises i s .tileShape 0 (shapeInfo s 2 (foreign s ts))) ∧
    (foreign s ts = [] → f.1 ≠ [] → Raises i s .tileShape 0 (shapeInfo s 4 f.1)) ∧
    (foreign s ts = [] → f.1 = [] → f.2.1 ≠ [] → Raises i s .tileShape 0 (shapeInfo s 1 f.2.1)) ∧
    (foreign s ts = [] → f.1 = [] → f.2.1 = [] → f.2.2 ≠ [] → Raises i s .tileShape 0 (shapeInfo s 6 f.2.2)) ∧
    (foreign s ts = [] → f = ([], [], []) → (o.heavy = true → grantHeld s 2 = true) →
      8 ≤ (queueOf s.core st).length → Waits i s .engine) ∧
    (foreign s ts = [] → f = ([], [], []) → (o.heavy = true → grantHeld s 2 = true) →
      ¬ 8 ≤ (queueOf s.core st).length → Completes i s (queued st s o)) :=
  ⟨h.owner, h.format, h.dimension, h.overlap, h.waits, h.joins⟩

/-! ### The operations that name their tiles (R207, R216, R217) -/

section
variable {d a b : TReg} {df : Dataflow} {st : BitVec 2} {acc : FloatFmt} {rs : RoundSel} {col : Bool} {s : State}
  (hc : tilesChanging s = false)
include hc

theorem checks_mma : QueueChecks s (.mma d a b df st acc) [d.val, a.val, b.val] (shapeFaults .mma acc.toCode.code 0 d.val a.val b.val (tshOf s)) st.toNat
    { MOp.onTiles s .mma d.val a.val b.val with acc := acc, df := df } :=
  .of_meaning hc (m := do needShapes .mma acc.toCode.code 0 d.val a.val b.val; queueOp st.toNat { MOp.onTiles s .mma d.val a.val b.val with acc := acc, df := df }) rfl rfl

theorem checks_mmas : QueueChecks s (.mmas d a b df st acc) [d.val, a.val, b.val] (shapeFaults .mmas acc.toCode.code 0 d.val a.val b.val (tshOf s)) st.toNat
    { MOp.onTiles s .mmas d.val a.val b.val with acc := acc, df := df } :=
  .of_meaning hc (m := do needShapes .mmas acc.toCode.code 0 d.val a.val b.val; queueOp st.toNat { MOp.onTiles s .mmas d.val a.val b.val with acc := acc, df := df }) rfl rfl

theorem checks_mmss : QueueChecks s (.mmss d a b df st acc) [d.val, a.val, b.val] (shapeFaults .mmss acc.toCode.code 0 d.val a.val b.val (tshOf s)) st.toNat
    { MOp.onTiles s .mmss d.val a.val b.val with acc := acc, df := df } :=
  .of_meaning hc (m := do needShapes .mmss acc.toCode.code 0 d.val a.val b.val; queueOp st.toNat { MOp.onTiles s .mmss d.val a.val b.val with acc := acc, df := df }) rfl rfl

theorem checks_tadd : QueueChecks s (.tadd d a b st rs) [d.val, a.val, b.val] (shapeFaults .tadd 0 0 d.val a.val b.val (tshOf s)) st.toNat
    { MOp.onTiles s .tadd d.val a.val b.val with mode := modeOf s rs } :=
  .of_meaning hc (m := do needShapes .tadd 0 0 d.val a.val b.val; queueOp st.toNat { MOp.onTiles s .tadd d.val a.val b.val with mode := modeOf s rs }) rfl rfl

theorem checks_tscale : QueueChecks s (.tscale d a b st rs col) [d.val, a.val, b.val] (shapeFaults .tscale 0 (b2n col) d.val a.val b.val (tshOf s)) st.toNat
    { MOp.onTiles s .tscale d.val a.val b.val with mode := modeOf s rs, col := col } :=
  .of_meaning hc (m := do needShapes .tscale 0 (b2n col) d.val a.val b.val; queueOp st.toNat { MOp.onTiles s .tscale d.val a.val b.val with mode := modeOf s rs, col := col }) rfl rfl

theorem checks_tcvt : QueueChecks s (.tcvt d a st rs) [d.val, a.val] (shapeFaults .tcvt 0 0 d.val a.val a.val (tshOf s)) st.toNat
    { MOp.onTiles s .tcvt d.val a.val a.val with mode := modeOf s rs } :=
  .of_meaning hc (m := do needShapes .tcvt 0 0 d.val a.val a.val; queueOp st.toNat { MOp.onTiles s .tcvt d.val a.val a.val with mode := modeOf s rs }) rfl rfl

theorem checks_ttrans : QueueChecks s (.ttrans d a st) [d.val, a.val] (shapeFaults .ttrans 0 0 d.val a.val a.val (tshOf s)) st.toNat
    (MOp.onTiles s .ttrans d.val a.val a.val) :=
  .of_meaning hc (m := do needShapes .ttrans 0 0 d.val a.val a.val; queueOp st.toNat (MOp.onTiles s .ttrans d.val a.val a.val)) rfl rfl

theorem checks_tzero : QueueChecks s (.tzero d st) [d.val] ([], [], []) st.toNat
    (MOp.onTiles s .tzero d.val d.val d.val) :=
  .of_meaning hc (m := queueOp st.toNat (MOp.onTiles s .tzero d.val d.val d.val)) rfl rfl

end

/-! ### VMOVT, TLD and TST (R210, R215, R220) -/

section
variable {d : TReg} {v : VReg} {a b : GReg} {st : BitVec 2} {s s1 : State}

theorem checks_vmovt (hc : tilesChanging s = false) (hv : unbound s v) (hj : (rg s b).toNat < 132) :
    QueueChecks s (.vmovt d v b st) [d.val] ([], [], []) st.toNat
      { MOp.onTiles s .vmovt d.val d.val d.val with chunk := (rg s b).toNat, vec := (s.view.v[v]).toNat } := by
  have hchunk : needChunk d.val (rg s b).toNat s = .ok ((), s) := by
    rw [needChunk, if_pos hj]
    rfl
  refine .of_meaning hc (m := do
    needChunk d.val (rg s b).toNat
    let x ← rv v
    queueOp st.toNat { MOp.onTiles s .vmovt d.val d.val d.val with chunk := (rg s b).toNat, vec := x.toNat }) rfl ?_
  exact (bind_of_ok hchunk).trans (bind_of_ok (rv_unbound hv))

theorem raises_vmovt_chunk (hc : tilesChanging s = false) (ho : foreign s [d.val] = []) (hj : 132 ≤ (rg s b).toNat) :
    Raises (.vmovt d v b st) s .tileShape 0 (shapeInfo s 5 [d.val]) := by
  have hchunk : needChunk d.val (rg s b).toNat s = .error (.trap .tileShape 0 (shapeInfo s 5 [d.val])) := by
    rw [needChunk, if_neg (Nat.not_lt.mpr hj)]
    rfl
  exact raises_of_error rfl ((bind_of_ok (needTiles_owned hc ho)).trans (bind_of_error hchunk))

/-- The operation of TLD or TST, with the masks and sectors that its checks read. -/
def rowOp (s : State) (k : MKind) (d : Nat) (a b : GReg) (r : List Nat × List (Nat × Attr)) : MOp :=
  { MOp.onTiles s k d d d with
    ptr := addrOf (rg s a), stride := (rg s b).toInt, masks := r.1, attrs := r.2.map fun e => (e.1, e.2.leaf) }

/-- TLD and TST whose rows pass their checks, up to their place in the stream. -/
theorem tileMemory_checked {ld : Bool} {r : List Nat × List (Nat × Attr)} {n : Nat} (hc : tilesChanging s = false)
    (ho : foreign s [d.val] = []) (hf : bits (rg s a).toNat 63 60 = shFmt (tshOf s d.val))
    (hb : bits (rg s a).toNat 59 56 = shBk (tshOf s d.val)) (hp : addrOf (rg s a) % tileAlign (tshOf s d.val) = 0)
    (hstep : (rg s b).toInt % (tileAlign (tshOf s d.val) : Int) = 0)
    (hr : rowsCheck ld (addrOf (rg s a)) (rg s b).toInt (tshOf s d.val) (List.range (shRows (tshOf s d.val)))
      (drainPushes s s.cur) = .ok (r, s1)) :
    tileMemory ld d.val a b n s = (do
      queueOp n (rowOp s (if ld then .tld else .tst) d.val a b r)
      change fun t => if ld then t else r.2.foldl (fun u e => markTarget u (e.1 * 128) e.2) t : Act Unit) s1 := by
  have hfmt : failing (decide (bits (rg s a).toNat 63 60 ≠ shFmt (tshOf s d.val) ∨
      bits (rg s a).toNat 59 56 ≠ shBk (tshOf s d.val))) [d.val] = [] := by
    rw [failing, if_neg (by simp [hf, hb])]
  rw [tileMemory, bind_of_ok (needTiles_owned hc ho), bind_of_ok (here_ok s), pushesFirst, bind_of_ok (change_ok _ _), hfmt,
    bind_of_ok tileCheck_nil, if_neg (by simp [hp, hstep]), bind_of_ok hr]
  rfl

theorem rowOp_light {k : MKind} {n : Nat} {r : List Nat × List (Nat × Attr)} (hk : k = .tld ∨ k = .tst) :
    (rowOp s k n a b r).heavy = true → grantHeld s1 2 = true := by
  rcases hk with rfl | rfl <;> exact fun h => absurd h Bool.false_ne_true

end

/-- Settles O42: each operation goes through the same checks, with its own tiles and conditions. -/
theorem matrixOperations : Obligations.MatrixOperations := by
  unfold Obligations.MatrixOperations
  intro d a b ga gb v df st acc rs col s s1 masks es queued' foreign' shape full granted checks two three three' two' faults sh
    ptr step memory row hc
  refine ⟨(checks_mma hc).clauses, (checks_mmas hc).clauses, (checks_mmss hc).clauses, (checks_tadd hc).clauses,
    (checks_tscale hc).clauses, (checks_tcvt hc).clauses, (checks_ttrans hc).clauses, (checks_tzero hc).clauses,
    fun hv hj => (checks_vmovt hc hv hj).clauses, raises_vmovt_chunk hc, ?tld, ?tst⟩
  case tld =>
    rintro ⟨ho, hf, hb, hp, hstep, hr, hroom⟩
    refine completes_of_ok rfl ((tileMemory_checked hc ho hf hb hp hstep hr).trans ?_)
    exact (bind_of_ok (queueOp_room (rowOp_light (.inl rfl)) hroom)).trans (change_ok _ _)
  case tst =>
    rintro ⟨ho, hf, hb, hp, hstep, hr, hroom⟩
    refine completes_of_ok rfl ((tileMemory_checked hc ho hf hb hp hstep hr).trans ?_)
    exact (bind_of_ok (queueOp_room (rowOp_light (.inr rfl)) hroom)).trans (change_ok _ _)

end Sys2Proof.Proofs.MatrixQueue
end

section
/-! SUPPORT. MJOIN with a pending error (R203, R220): the DATA_ERROR of an A half carries HALF (R92, log 65), which a
lone word's does not. -/

namespace Sys2Proof.Proofs.PendingErrors

open Sys2Proof Sys2Proof.Machine Sys2Proof.Laws

/-- An A half that joins a stream with a pending error ends with the EINFO of the error and HALF. -/
theorem exec_mjoin_aHalf {mask : BitVec 4} {s : State} {n x k : Nat} (hh : s.issue.half = .a)
    (hb : ((List.range 4).filter fun i => bitAt mask.toNat i).any (streamBusy s s.cur) = false)
    (hp : pendingError s.me ((List.range 4).filter fun i => bitAt mask.toNat i) = some (n, x, k)) :
    ∃ u, exec (.mjoin mask) s = .next u ∧ u.issue.ended = some (.trap .dataError x (k + 256)) := by
  have hexec : exec (.mjoin mask) s
      = finish { s with issue := { s.issue with eats := some n } } (.trap .dataError x k) := by
    change execMjoin mask s = _
    unfold execMjoin
    simp only
    rw [if_neg (by rw [hb]; exact Bool.false_ne_true), raisePending, hp]
  refine ⟨_, hexec, ?_⟩
  rw [(trapWord_raised ..).ended, memHalf, if_pos (by decide), halfBit]
  simp only [hh]

/-- A strand after reset, in the A half of a pair, whose stream 0 holds an error at address 0. -/
def aHalfWithError : State :=
  let s := State.reset.modMe fun x => { x with mpend := [some (0, 0), none, none, none] }
  { s with issue := { s.issue with half := .a } }

/-- Refutes O43: MJOIN in the A half of a pair raises the pending DATA_ERROR with HALF added to its EINFO, which the
statement gives without it. -/
theorem not_tilesAndStreams : ¬ Obligations.TilesAndStreams := by
  unfold Obligations.TilesAndStreams
  intro h
  obtain ⟨-, -, -, -, -, -, hjoin, -⟩ := h 0 0 0 0 0 1 0 0 0 0 aHalfWithError (MOp.blank .tzero) []
  obtain ⟨u, hu, hended⟩ := (hjoin (by decide)).2 (by decide)
  obtain ⟨t, ht, htended⟩ := exec_mjoin_aHalf (mask := 1) (s := aHalfWithError) (n := 0) (x := 0) (k := 0) rfl (by decide)
    (by decide)
  rw [hu] at ht
  cases ht
  rw [hended] at htended
  exact absurd htended (by decide)

end Sys2Proof.Proofs.PendingErrors
end

section
/-! SUPPORT. Remote matrix commands (R222-R224): MCMD at the strand, the command at its target, the answer. -/

namespace Sys2Proof.Proofs.Remote

open Sys2Proof Sys2Proof.Machine Sys2Proof.Laws Sys2Proof.Proofs.Running Sys2Proof.Proofs.WaitsBarriers

/-! ### MCMD -/

section
variable {d a b : GReg} {s : State} {r v : Nat}

theorem completes_mcmd (h : unitAnswer s.me = some (0, v)) : Completes (.mcmd d a b) s (wg (copySeed s).2 d 0) := by
  refine completes_of_done ?_
  change finish s _ = _
  simp only [h]

theorem raises_mcmd_answered (h : unitAnswer s.me = some (r + 1, v)) : Raises (.mcmd d a b) s .capDenied 0 (r + 1) := by
  refine raises_of_trap ?_
  change finish s _ = _
  simp only [h, capDenied]

theorem waits_mcmd_sent (h : unitAnswer s.me = none) (hk : hasAsked s.me askRemote = true) : Waits (.mcmd d a b) s .mem := by
  refine waits_of_park (t := s) (sent := false) ?_ (.refl s)
  change finish s _ = _
  rw [h]
  simp only
  rw [if_pos hk]

theorem raises_mcmd_foreign (h : unitAnswer s.me = none) (hk : hasAsked s.me askRemote = false)
    (ht : bits (rg s a).toNat 63 58 ≠ s.tenant) : Raises (.mcmd d a b) s .capDenied 0 2 := by
  refine raises_of_trap ?_
  change finish s _ = _
  rw [h]
  simp only
  rw [if_neg (by rw [hk]; exact Bool.false_ne_true), if_pos ht]
  rfl

/-- The command on its way, and what its strand waits for. -/
def commandSent (s : State) (a b : GReg) : State :=
  ((ask s askRemote).note (.mcmd s.cur (rg s a).toNat (rg s b).toNat (bits (rg s b).toNat 50 32) (seedOf s) (defaultMode s)
    (s.ticks + commandFlight s.cur (bits (rg s b).toNat 50 32)))).spawn (.mcmdCommand s.cur)

theorem commandSent_sameWord : SameWord s (commandSent s a b) := by
  have hme : (commandSent s a b).me = { s.me with asked := askRemote :: s.me.asked } :=
    modMe_me s fun x => { x with asked := askRemote :: x.asked }
  exact ⟨by rw [hme], by rw [hme], by rw [hme], by rw [hme], by rw [hme], rfl⟩

theorem exec_mcmd_sends (h : unitAnswer s.me = none) (hk : hasAsked s.me askRemote = false)
    (ht : bits (rg s a).toNat 63 58 = s.tenant) :
    exec (.mcmd d a b) s = finish s (.park .mem true (commandSent s a b)) := by
  change finish s _ = _
  rw [h]
  simp only
  rw [if_neg (by rw [hk]; exact Bool.false_ne_true), if_neg (not_not_intro ht)]
  rfl

theorem parkWord_notes (t : State) (p : ParkReason) (sent : Bool) : (parkWord t p sent).notes = t.notes := by
  unfold parkWord
  split <;> rfl

end

/-! ### The command at its target (R222, R223) -/

section
variable {p : Place} {s s1 : State} {r cap x tgt core e due : Nat} {seed : BitVec 32} {mode : Rounding} {rest : List Note}

theorem takeNote_head {α : Type} {f : Note → Option α} {n : Note} {ns : List Note} {y : α} (h : f n = some y) :
    takeNote f (n :: ns) = some (y, ns) := by
  rw [takeNote, h]

section
variable (hn : s.notes = .mcmd p cap x tgt seed mode due :: rest) (hd : due ≤ s.ticks)
include hn hd

/-- A command at the head of the notes has arrived, and none of its core stands before it. -/
theorem command_arrived : ¬ (s.ticks < due ∨ olderCommand p tgt s.notes = true) := by
  rw [hn, olderCommand, if_pos rfl]
  rintro (h | h)
  · omega
  · exact Bool.noConfusion h

theorem exec_mcmdCommand_nowhere (hc : mcmdCore s p.mod tgt = none) :
    exec (.mcmdCommand p) s = .next (answerCommand { s with notes := rest } p tgt 8) := by
  have hgo := command_arrived hn hd
  change execMcmdCommand p s = _
  unfold execMcmdCommand
  simp only [hn] at hgo ⊢
  rw [takeNote_head (y := (cap, x, tgt, seed, mode, due)) (if_pos rfl)]
  simp only [if_neg hgo, hc]

/-- A command for a core with a capability table is checked against its entry. -/
theorem exec_mcmdCommand_checked (hc : mcmdCore s p.mod tgt = some core) (hb : bitAt (s.coreOf core).captab.toNat 63 = true)
    (hcap : capEntry { s with notes := rest } p.mod (bits cap 63 58) (s.coreOf core).captab (bits cap 34 27) = (e, s1))
    {z : Except Nat Command} (hz : commandCheck s1 (acceptTime s1 core) core cap e x mode = z) {u : State}
    (hu : (∃ r, z = .error r ∧ answerCommand s1 p tgt r = u) ∨
      (∃ k, z = .ok k ∧ (queueOf (s1.coreOf core) k.st).length < 8 ∧
        answerCommand (appendOp s1 core k.st { k.op with seed := seed.toNat, since := (s1.coreOf core).mwaits }) p tgt 0 = u)) :
    exec (.mcmdCommand p) s = .next u := by
  have hgo := command_arrived hn hd
  change execMcmdCommand p s = _
  unfold execMcmdCommand
  simp only [hn] at hgo ⊢
  rw [takeNote_head (y := (cap, x, tgt, seed, mode, due)) (if_pos rfl)]
  simp only [if_neg hgo, hc, hb, Bool.true_eq_false, if_false, hcap, hz]
  rcases hu with ⟨r, rfl, rfl⟩ | ⟨k, rfl, hroom, rfl⟩
  · rfl
  · exact if_neg (Nat.not_le.mpr hroom)

end

theorem exec_mcmdAnswer (hn : s.notes = .mcmdAns p r due :: rest) (hd : due ≤ s.ticks) :
    exec (.mcmdAnswer p) s = .next (giveAnswer { s with notes := rest } p r 0) := by
  change execMcmdAnswer p s = _
  unfold execMcmdAnswer
  simp only
  rw [hn, takeNote_head (y := (r, due)) (if_pos rfl)]
  simp only
  rw [if_neg (Nat.not_lt.mpr hd)]

end

/-- Settles O44: MCMD by its answer and its capability, the command by the checks at its target. -/
theorem remoteCommands : Obligations.RemoteCommands := by
  unfold Obligations.RemoteCommands
  intro d a b p s s1 r v cap x tgt core e due seed mode rest k c w ct
  refine ⟨completes_mcmd, raises_mcmd_answered, waits_mcmd_sent, fun h hk => ⟨raises_mcmd_foreign h hk, fun ht => ?sends⟩,
    fun hn hd => ⟨exec_mcmdCommand_nowhere hn hd, fun hc hb hcap =>
      ⟨fun hr => exec_mcmdCommand_checked hn hd hc hb hcap hr (.inl ⟨r, rfl, rfl⟩),
        fun hk hroom => exec_mcmdCommand_checked hn hd hc hb hcap hk (.inr ⟨k, rfl, hroom, rfl⟩)⟩⟩,
    exec_mcmdAnswer⟩
  case sends =>
    have hexec := exec_mcmd_sends (d := d) (b := b) h hk ht
    exact ⟨waits_of_park hexec commandSent_sameWord, _, hexec, parkWord_notes ..⟩

end Sys2Proof.Proofs.Remote
end

section
/-! SUPPORT. The communication strand (R401-R416): QSEND, QRECV, VSOPEN, VSCLOSE and VSMARK by the q register and the entry
that they name. -/

namespace Sys2Proof.Proofs.Communication

open Sys2Proof Sys2Proof.Machine Sys2Proof.Laws Sys2Proof.Proofs.Running Sys2Proof.Proofs.Accesses
  Sys2Proof.Proofs.WaitsBarriers Sys2Proof.Proofs.Streams Sys2Proof.Proofs.Transfers

/-! ### The communication strand and its q registers -/

section
variable {s : State} {op : Nat} {q : QReg}

theorem needComm_ok (h : s.cur.slot = 15) : needComm op s = .ok ((), s) := if_pos h

theorem needComm_elsewhere (h : s.cur.slot ≠ 15) :
    needComm op s = .error (.trap .illegalInstr (wordAddr s) (halfBit s + op)) := if_neg h

theorem needBound_ok (hb : (s.q q).bound = true) (ht : (s.q q).tenant = s.tenant) : needBound op q s = .ok ((), s) :=
  if_pos ⟨hb, ht⟩

theorem needBound_none (h : (s.q q).bound = false ∨ (s.q q).tenant ≠ s.tenant) :
    needBound op q s = .error (.trap .illegalInstr (wordAddr s) (halfBit s + op)) := by
  refine if_neg ?_
  rintro ⟨hb, ht⟩
  rcases h with h | h
  · rw [h] at hb
    exact Bool.noConfusion hb
  · exact h ht

/-- An instruction of the communication strand, elsewhere. -/
theorem raises_elsewhere {i : Instr} {m : Act Unit} (hi : exec i s = finish s (Act.res (do needComm op; m) s))
    (h : s.cur.slot ≠ 15) : Raises i s .illegalInstr (wordAddr s) (halfBit s + op) :=
  raises_of_error hi (bind_of_error (needComm_elsewhere h))

/-- An instruction on a q register without a stream of the strand. -/
theorem raises_unbound {i : Instr} {m : Act Unit} (hi : exec i s = finish s (Act.res (do needComm op; needBound op q; m) s))
    (h15 : s.cur.slot = 15) (h : (s.q q).bound = false ∨ (s.q q).tenant ≠ s.tenant) :
    Raises i s .illegalInstr (wordAddr s) (halfBit s + op) :=
  raises_of_error hi ((bind_of_ok (needComm_ok h15)).trans (bind_of_error (needBound_none h)))

/-- Past the strand and its register. -/
theorem comm_bound {m : Act Unit} (h15 : s.cur.slot = 15) (hb : (s.q q).bound = true) (ht : (s.q q).tenant = s.tenant) :
    (do needComm op; needBound op q; m : Act Unit) s = m s :=
  (bind_of_ok (needComm_ok h15)).trans (bind_of_ok (needBound_ok hb ht))

/-- Where a stop of the gang holds a register, or a packet waits for credit, the word waits with its strand as it was. -/
theorem parkHeld_waits {i : Instr} {m : Act Unit} (hi : exec i s = finish s (Act.res m s)) (hm : m s = parkHeld q s) :
    Waits i s .mem := by
  unfold parkHeld at hm
  split at hm
  · exact waits_of_error hi hm (.refl s)
  · have hme : (ask s (askHeld q.val)).me = { s.me with asked := askHeld q.val :: s.me.asked } :=
      modMe_me s fun x => { x with asked := askHeld q.val :: x.asked }
    exact waits_of_error hi hm ⟨by rw [hme], by rw [hme], by rw [hme], by rw [hme], by rw [hme], rfl⟩

end

/-! ### QSEND (R405) -/

section
variable {q : QReg} {b : VReg} {fin : Bool} {s : State}

/-- The flits of the packet with the one that QSEND adds. -/
def flitsWith (s : State) (b : VReg) : List Vec := s.me.pkt ++ [s.view.v[b]]

/-- QSEND once its packet is the register's and its value read. -/
def qsendRest (fin : Bool) (q : QReg) (s : State) (v : Vec) : Act Unit :=
  let flits := s.me.pkt ++ [v]
  if fin || decide (8 ≤ flits.length) then
    if 8 ≤ (s.q q).sent then parkOn .mem
    else do
      change fun t => injectLocal t q flits none
      change fun t => (t.modMe fun z => { z with pkt := [] }).modCsr fun c => { c with openpkt := 0 }
  else do
    change fun t => t.modMe fun z => { z with pkt := flits }
    if !s.me.pktOpen then change fun t => t.modCsr fun c => { c with openpkt := openPkt q }

/-- QSEND on a register of the strand. -/
def qsendBound (q : QReg) (b : VReg) (fin : Bool) (s : State) : Act Unit :=
  if s.me.pktOpen && decide (fld s.me.csr.openpkt 7 6 ≠ q.val) then illegal 0x58
  else do
    if !s.me.pktOpen then do
      if sendHeld (s.q q) then parkHeld q
      if combines s (s.q q) then needGrant 1
    let v ← rv b
    qsendRest fin q s v

section
variable (h15 : s.cur.slot = 15) (hb : (s.q q).bound = true) (ht : (s.q q).tenant = s.tenant)
include h15 hb ht

theorem exec_qsend_bound : ∃ m : Act Unit, exec (.qsend q b fin) s = finish s (Act.res m s) ∧ m s = qsendBound q b fin s s :=
  ⟨_, rfl, (comm_bound h15 hb ht).trans rfl⟩

/-- A packet that stands open on another register. -/
theorem raises_qsend_other (h : ¬ (s.me.pktOpen = true → fld s.me.csr.openpkt 7 6 = q.val)) :
    Raises (.qsend q b fin) s .illegalInstr (wordAddr s) (halfBit s + 0x58) := by
  obtain ⟨m, hi, hm⟩ := exec_qsend_bound (b := b) (fin := fin) h15 hb ht
  refine raises_of_error hi (hm.trans ?_)
  rw [qsendBound, if_pos (by simpa using h)]
  rfl

/-- QSEND on a register whose packet is its own, where no stop holds it and its power is granted. -/
theorem exec_qsend (hv : unbound s b) (ho : s.me.pktOpen = true → fld s.me.csr.openpkt 7 6 = q.val)
    (hp : s.me.pktOpen = false → sendHeld (s.q q) = false ∧ (combines s (s.q q) = true → grantHeld s 1 = true)) :
    ∃ m : Act Unit, exec (.qsend q b fin) s = finish s (Act.res m s) ∧ m s = qsendRest fin q s s.view.v[b] s := by
  obtain ⟨m, hi, hm⟩ := exec_qsend_bound (b := b) (fin := fin) h15 hb ht
  refine ⟨m, hi, hm.trans ?_⟩
  have hother : ¬ (s.me.pktOpen && decide (fld s.me.csr.openpkt 7 6 ≠ q.val)) = true := by simpa using ho
  rw [qsendBound, if_neg hother]
  by_cases hopen : s.me.pktOpen = true
  · rw [if_neg (by rw [hopen]; decide)]
    exact bind_of_ok (rv_unbound hv)
  · rw [Bool.not_eq_true] at hopen
    obtain ⟨hheld, hgrant⟩ := hp hopen
    rw [if_pos (by rw [hopen]; rfl), if_neg (by rw [hheld]; exact Bool.false_ne_true)]
    by_cases hc : combines s (s.q q) = true
    · rw [if_pos hc]
      exact (bind_of_ok (needGrant_held (hgrant hc))).trans (bind_of_ok (rv_unbound hv))
    · rw [if_neg hc]
      exact bind_of_ok (rv_unbound hv)

theorem completes_qsend_more (hv : unbound s b) (ho : s.me.pktOpen = true → fld s.me.csr.openpkt 7 6 = q.val)
    (hp : s.me.pktOpen = false → sendHeld (s.q q) = false ∧ (combines s (s.q q) = true → grantHeld s 1 = true))
    (he : ¬ (fin = true ∨ 8 ≤ (flitsWith s b).length)) {u : State} (hu : s.modMe (fun z => { z with pkt := flitsWith s b }) = u) :
    Completes (.qsend q b fin) s (if s.me.pktOpen then u else u.modCsr fun z => { z with openpkt := openPkt q }) := by
  subst hu
  obtain ⟨m, hi, hm⟩ := exec_qsend (fin := fin) h15 hb ht hv ho hp
  refine completes_of_ok hi (hm.trans ?_)
  rw [qsendRest]
  rw [if_neg (by simpa [flitsWith] using he), bind_of_ok (change_ok _ _)]
  cases s.me.pktOpen <;> rfl

theorem completes_qsend_end (hv : unbound s b) (ho : s.me.pktOpen = true → fld s.me.csr.openpkt 7 6 = q.val)
    (hp : s.me.pktOpen = false → sendHeld (s.q q) = false ∧ (combines s (s.q q) = true → grantHeld s 1 = true))
    (he : fin = true ∨ 8 ≤ (flitsWith s b).length) (hroom : (s.q q).sent < 8) :
    Completes (.qsend q b fin) s
      (((injectLocal s q (flitsWith s b) none).modMe fun z => { z with pkt := [] }).modCsr fun z => { z with openpkt := 0 }) := by
  obtain ⟨m, hi, hm⟩ := exec_qsend (fin := fin) h15 hb ht hv ho hp
  refine completes_of_ok hi (hm.trans ?_)
  rw [qsendRest]
  rw [if_pos (by simpa [flitsWith] using he), if_neg (Nat.not_le.mpr hroom), bind_of_ok (change_ok _ _)]
  rfl

theorem waits_qsend_credit (hv : unbound s b) (ho : s.me.pktOpen = true → fld s.me.csr.openpkt 7 6 = q.val)
    (hp : s.me.pktOpen = false → sendHeld (s.q q) = false ∧ (combines s (s.q q) = true → grantHeld s 1 = true))
    (he : fin = true ∨ 8 ≤ (flitsWith s b).length) (hfull : 8 ≤ (s.q q).sent) : Waits (.qsend q b fin) s .mem := by
  obtain ⟨m, hi, hm⟩ := exec_qsend (fin := fin) h15 hb ht hv ho hp
  refine waits_of_error hi (sent := false) (hm.trans ?_) (.refl s)
  rw [qsendRest]
  rw [if_pos (by simpa [flitsWith] using he), if_pos hfull]
  rfl

theorem waits_qsend_held (hopen : s.me.pktOpen = false) (hh : sendHeld (s.q q) = true) : Waits (.qsend q b fin) s .mem := by
  obtain ⟨m, hi, hm⟩ := exec_qsend_bound (b := b) (fin := fin) h15 hb ht
  have hrun : qsendBound q b fin s s = parkHeld q s := by
    rw [qsendBound, if_neg (by simp [hopen]), if_pos (by simp [hopen]), if_pos hh]
    by_cases h : hasAsked s.me (askHeld q.val) = true
    · have hp : (parkHeld q : Act Unit) s = .error (.park .mem false s) := if_pos h
      exact (bind_of_error hp).trans hp.symm
    · have hp : (parkHeld q : Act Unit) s = .error (.park .mem true (ask s (askHeld q.val))) := if_neg h
      exact (bind_of_error hp).trans hp.symm
  exact parkHeld_waits hi (hm.trans hrun)

/-! ### QRECV and VSMARK (R408, R413) -/

theorem completes_qrecv_empty {gb : GReg} (hr : (s.q q).recv = []) :
    Completes (.qrecv b q gb true) s ((wg s gb 8).modMe setVused) := by
  refine completes_of_ok rfl ((comm_bound h15 hb ht).trans ?_)
  rw [hr]
  rfl

theorem waits_qrecv {gb : GReg} (hr : (s.q q).recv = []) : Waits (.qrecv b q gb false) s .qrecv := by
  refine waits_of_error rfl (sent := false) ((comm_bound h15 hb ht).trans ?_) (.refl s)
  rw [hr]
  rfl

theorem completes_qrecv {gb : GReg} {poll : Bool} {f : QFlit} {rest : List QFlit} (hv : unbound s b)
    (hr : (s.q q).recv = f :: rest) {got : State}
    (hg : wg ((putV b f.data s).modQ s.cur.coreKey q.val fun z => { z with recv := rest }) gb (word (recvStatus f)) = got) :
    Completes (.qrecv b q gb poll) s (runEntry got.cur.cluKey (got.q q).entry entryFuel got) := by
  subst hg
  refine completes_of_ok rfl ((comm_bound h15 hb ht).trans ?_)
  rw [hr]
  simp only
  rw [bind_of_ok (wv_unbound hv), bind_of_ok (change_ok _ _), bind_of_ok (change_ok _ _), change_ok]
  rfl

theorem raises_vsmark_open {gb : GReg} (ho : s.me.pktOpen = true) :
    Raises (.vsmark q gb) s .illegalInstr (wordAddr s) (halfBit s + 0x5B) := by
  refine raises_of_error rfl ((comm_bound h15 hb ht).trans ?_)
  rw [if_pos ho]
  rfl

theorem waits_vsmark {gb : GReg} (ho : s.me.pktOpen = false) (hh : sendHeld (s.q q) = true ∨ 8 ≤ (s.q q).sent) :
    Waits (.vsmark q gb) s .mem := by
  by_cases hheld : sendHeld (s.q q) = true
  · refine parkHeld_waits (q := q) rfl ((comm_bound h15 hb ht).trans ?_)
    rw [if_neg (by rw [ho]; exact Bool.false_ne_true), if_pos hheld]
  · refine waits_of_error (sent := false) rfl ((comm_bound h15 hb ht).trans ?_) (.refl s)
    rw [if_neg (by rw [ho]; exact Bool.false_ne_true), if_neg hheld, if_pos (hh.resolve_left hheld)]
    rfl

theorem completes_vsmark {gb : GReg} (ho : s.me.pktOpen = false) (hh : sendHeld (s.q q) = false) (hroom : (s.q q).sent < 8) :
    Completes (.vsmark q gb) s (injectLocal s q [] (some (rg s gb))) := by
  refine completes_of_ok rfl ((comm_bound h15 hb ht).trans ?_)
  rw [if_neg (by rw [ho]; exact Bool.false_ne_true), if_neg (by rw [hh]; exact Bool.false_ne_true),
    if_neg (Nat.not_le.mpr hroom)]
  exact change_ok _ _

end
end

/-! ### VSOPEN (R409-R411) -/

section
variable {d a : GReg} {nb : Bool} {q : QReg} {entry : BitVec 8} {s s1 : State} {x : Nat}

section
variable (h15 : s.cur.slot = 15)
include h15

theorem completes_vsopen_misaligned (h : addrOf (rg s a) % 32 ≠ 0) :
    Completes (.vsopen d a nb q entry) s (wg s d (rejectWord 1)) := by
  refine completes_of_ok rfl ?_
  rw [bind_of_ok (needComm_ok h15), if_neg h]
  rfl

theorem completes_vsopen_elsewhere (h : addrOf (rg s a) % 32 = 0) (hl : localStruct (addrOf (rg s a)) 32 s = .ok (none, s1)) :
    Completes (.vsopen d a nb q entry) s (wg s1 d (rejectWord 1)) := by
  refine completes_of_ok rfl ?_
  rw [bind_of_ok (needComm_ok h15), if_pos h, bind_of_ok hl]
  rfl

theorem waits_vsopen (h : addrOf (rg s a) % 32 = 0) (hw : bits (addrOf (rg s a)) 55 54 = 2) (hb : s.clu.busy = true) :
    Waits (.vsopen d a nb q entry) s .mem := by
  have hsteady : ownSteady (addrOf (rg s a)) 32 s = .error (.park .mem false s) := if_pos ⟨hw, hb⟩
  have hl : localStruct (addrOf (rg s a)) 32 s = .error (.park .mem false s) := bind_of_error hsteady
  refine waits_of_error rfl (sent := false) (t := s) ?_ (.refl s)
  rw [bind_of_ok (needComm_ok h15), if_pos h]
  exact bind_of_error hl

/-- The checks of an entry's descriptor in their order, and the entry. -/
def vsopenRead (d : GReg) (nb : Bool) (q : QReg) (e x : Nat) (s : State) : Act Unit :=
  if streamBad x nb (edgePort (nodeOf s.cur.cluKey)).isSome then change fun t => wg t d (rejectWord 2)
  else if (entryOf s s.cur.cluKey e).isSome then change fun t => wg t d (rejectWord 3)
  else if !nb && (s.q q).bound then change fun t => wg t d (rejectWord 4)
  else if (descSets x).any (fun v => decide (v.op ≠ 0)) && !(s.policy s.cur.mod s.tenant).enrol then
    change fun t => wg t d (rejectWord 5)
  else do
    let v : VsEntry :=
      { VsEntry.free with
        tenant := s.tenant, core := if nb then none else some s.cur.core, q := q.val, sets := descSets x,
        group := dfield x 0x11 1, gen := dfield x 0x12 1, gv := bitAt (dfield x 0x13 1) 0 }
    change fun t => t.modMyClu fun c => { c with entries := fset c.entries e v }
    if !nb then
      change fun t => t.modQ t.cur.coreKey q.val fun y =>
        { y with bound := true, entry := e, tenant := t.tenant, chunk := 0, recv := [], sent := 0, aborts := [],
                 limit := gangHold t t.tenant }
    change fun t => wg t d 0

theorem completes_vsopen (h : addrOf (rg s a) % 32 = 0) (hl : localStruct (addrOf (rg s a)) 32 s = .ok (some x, s1)) {u : State}
    (hu : vsopenRead d nb q entry.toNat x s s1 = .ok ((), u)) : Completes (.vsopen d a nb q entry) s u := by
  refine completes_of_ok rfl ?_
  rw [bind_of_ok (needComm_ok h15), if_pos h, bind_of_ok hl]
  exact hu

end

section
variable {e : Nat}

theorem vsopenRead_bad (h : streamBad x nb (edgePort (nodeOf s.cur.cluKey)).isSome = true) :
    vsopenRead d nb q e x s s1 = .ok ((), wg s1 d (rejectWord 2)) := by
  rw [vsopenRead, if_pos h, change_ok]

variable (hb : streamBad x nb (edgePort (nodeOf s.cur.cluKey)).isSome = false)
include hb

theorem vsopenRead_taken (h : entryOf s s.cur.cluKey e ≠ none) :
    vsopenRead d nb q e x s s1 = .ok ((), wg s1 d (rejectWord 3)) := by
  rw [vsopenRead, if_neg (by rw [hb]; exact Bool.false_ne_true), if_pos (Option.isSome_iff_ne_none.mpr h), change_ok]

variable (hn : entryOf s s.cur.cluKey e = none)
include hn

theorem vsopenRead_bound (hnb : nb = false) (hq : (s.q q).bound = true) :
    vsopenRead d nb q e x s s1 = .ok ((), wg s1 d (rejectWord 4)) := by
  rw [vsopenRead, if_neg (by rw [hb]; exact Bool.false_ne_true), if_neg (by rw [hn]; exact Bool.false_ne_true),
    if_pos (by rw [hnb, hq]; rfl), change_ok]

variable (hq : nb = true ∨ (s.q q).bound = false)
include hq

theorem vsopenRead_unenrolled (h : ¬ ((∀ v ∈ descSets x, v.op = 0) ∨ (s.policy s.cur.mod s.tenant).enrol = true)) :
    vsopenRead d nb q e x s s1 = .ok ((), wg s1 d (rejectWord 5)) := by
  rw [vsopenRead, if_neg (by rw [hb]; exact Bool.false_ne_true), if_neg (by rw [hn]; exact Bool.false_ne_true),
    if_neg (by rcases hq with hq | hq <;> simp [hq]), if_pos (by simpa using h), change_ok]

theorem vsopenRead_opens (h : (∀ v ∈ descSets x, v.op = 0) ∨ (s.policy s.cur.mod s.tenant).enrol = true)
    (ht : s1.tenant = s.tenant) (hc : s1.cur = s.cur) {opened bound : State}
    (ho : s1.modMyClu (fun z => { z with entries := fset z.entries e { VsEntry.free with
      tenant := s1.tenant, core := if nb then none else some s1.cur.core, q := q.val, sets := descSets x,
      group := dfield x 0x11 1, gen := dfield x 0x12 1, gv := bitAt (dfield x 0x13 1) 0 } }) = opened)
    (hbound : opened.modQ opened.cur.coreKey q.val (fun z =>
      { z with bound := true, entry := e, tenant := opened.tenant, chunk := 0, recv := [], sent := 0, aborts := []
               limit := gangHold opened opened.tenant }) = bound) :
    vsopenRead d nb q e x s s1 = .ok ((), if nb then wg opened d 0 else wg bound d 0) := by
  subst hbound ho
  rw [vsopenRead, if_neg (by rw [hb]; exact Bool.false_ne_true), if_neg (by rw [hn]; exact Bool.false_ne_true),
    if_neg (by rcases hq with hq | hq <;> simp [hq]), if_neg (by simpa [or_iff_not_imp_left] using h), bind_of_ok (change_ok _ _), ht, hc]
  cases nb <;> rfl

end
end

/-! ### VSCLOSE (R412) -/

theorem find?_fdel {α : Type} (m : List (Nat × α)) (k : Nat) : (fdel m k).find? (fun x => decide (x.1 = k)) = none := by
  rw [List.find?_eq_none]
  intro y hy
  have h := (List.mem_filter.mp hy).2
  simpa using h

/-- An entry that has been closed is listed no more. -/
theorem entryOf_closeEntry (s : State) (clu e : Nat) (x : VsEntry) : entryOf (closeEntry s clu e x) clu e = none := by
  have hclu : ∀ t : State, t.clusters = fset s.clusters clu { s.cluOf clu with entries := fdel (s.cluOf clu).entries e } →
      entryOf t clu e = none := by
    intro t ht
    rw [entryOf, State.cluOf, ht, fget_fset_same, find?_fdel]
    rfl
  unfold closeEntry
  split <;> exact hclu _ rfl

theorem abandon_pktOpen (s : State) (p : Place) : ((abandon s p).strand p).pktOpen = false := by
  have hclosed : ((s.modStrand p fun y => { y with pkt := [], csr := { y.csr with openpkt := 0 } }).strand p).pktOpen = false := by
    rw [modStrand_strand]
    exact (by decide : bitAt (0 : Word).toNat 5 = false)
  unfold abandon
  simp only
  split
  · assumption
  · split
    · exact hclosed
    · split <;> exact hclosed

/-- A wait leaves the open packets of the strands. -/
theorem parkWord_pktOpen (t : State) (r : ParkReason) (sent : Bool) (p : Place) :
    ((parkWord t r sent).strand p).pktOpen = (t.strand p).pktOpen := by
  unfold parkWord
  split
  · by_cases h : p.key = t.cur.key
    · have hq : ∀ u : State, u.strand p = u.strand t.cur := fun u => by rw [State.strand, State.strand, h]
      rw [hq, hq]
      exact (congrArg Strand.pktOpen (modStrand_strand t t.cur fun x => { x with st := .parked r, askedAt := x.stamp t.ticks })).trans rfl
    · exact congrArg Strand.pktOpen
        (modStrand_strand_other t t.cur p (fun x => { x with st := .parked r, askedAt := x.stamp t.ticks }) h)
  all_goals rfl

section
variable {d : GReg} {entry : BitVec 8} {s : State} {x : VsEntry}

section
variable (h15 : s.cur.slot = 15)
include h15

theorem completes_vsclose_none (h : entryOf s s.cur.cluKey entry.toNat = none) :
    Completes (.vsclose d entry) s (wg s d (rejectWord 3)) := by
  refine completes_of_ok rfl ((bind_of_ok (needComm_ok h15)).trans ?_)
  rw [h]
  rfl

variable (he : entryOf s s.cur.cluKey entry.toNat = some x)
include he

theorem completes_vsclose_foreign (ht : x.tenant ≠ s.tenant) : Completes (.vsclose d entry) s (wg s d (rejectWord 3)) := by
  refine completes_of_ok rfl ((bind_of_ok (needComm_ok h15)).trans ?_)
  rw [he]
  simp only
  rw [if_pos ht]
  exact change_ok _ _

variable (ht : x.tenant = s.tenant)
include ht

theorem vsclose_abandons {p : Place} (ho : openOn s s.cur.cluKey x = some p) :
    ∃ u, exec (.vsclose d entry) s = .next u ∧ u.issue.ended = some (.park .mem true) ∧ (u.strand p).pktOpen = false := by
  have hexec : exec (.vsclose d entry) s = finish s (.park .mem true ((abandon s p).spawn (.memResponse s.cur))) := by
    refine congrArg (finish s) (res_of_error ((bind_of_ok (needComm_ok h15)).trans ?_))
    rw [he]
    simp only
    rw [if_neg (not_not_intro ht), ho]
  refine ⟨_, hexec, Order.parkWord_ended .., ?_⟩
  rw [parkWord_pktOpen]
  exact abandon_pktOpen s p

variable (ho : openOn s s.cur.cluKey x = none)
include ho

theorem waits_vsclose (hh : x.holds = true ∨ localComing s s.cur.cluKey entry.toNat x = true) : Waits (.vsclose d entry) s .mem := by
  refine waits_of_error rfl (sent := false) (t := s.spawn (.memResponse s.cur)) ((bind_of_ok (needComm_ok h15)).trans ?_)
    ⟨rfl, rfl, rfl, rfl, rfl, rfl⟩
  rw [he]
  simp only
  rw [if_neg (not_not_intro ht), ho]
  simp only
  rw [if_pos (by simpa using hh)]
  rfl

theorem completes_vsclose (hh : x.holds = false) (hl : localComing s s.cur.cluKey entry.toNat x = false) :
    Completes (.vsclose d entry) s (wg (closeEntry s s.cur.cluKey entry.toNat x) d 0) := by
  refine completes_of_ok rfl ((bind_of_ok (needComm_ok h15)).trans ?_)
  rw [he]
  simp only
  rw [if_neg (not_not_intro ht), ho]
  simp only
  rw [if_neg (by simp [hh, hl])]
  exact change_ok _ _

end
end

/-- Settles O45: the strand, the register and the entry decide, in that order. -/
theorem collectives : Obligations.Collectives := by
  unfold Obligations.Collectives
  intro d a gb b q entry fin poll nb s s1 f rest x ent y me bad flits ends opens ours kept got at' clu e edge allowed new opened
    bound
  refine ⟨fun h => ⟨raises_elsewhere rfl h, raises_elsewhere rfl h, raises_elsewhere rfl h, raises_elsewhere rfl h,
      raises_elsewhere rfl h⟩,
    fun h15 h => ⟨raises_unbound rfl h15 h, raises_unbound rfl h15 h, raises_unbound rfl h15 h⟩,
    fun h15 hb ht hv => ⟨raises_qsend_other h15 hb ht, fun ho hp he => completes_qsend_more h15 hb ht hv ho hp he rfl,
      completes_qsend_end h15 hb ht hv, waits_qsend_held h15 hb ht, waits_qsend_credit h15 hb ht hv,
      fun hr => ⟨completes_qrecv_empty h15 hb ht hr, waits_qrecv h15 hb ht hr⟩,
      fun hr => completes_qrecv h15 hb ht hv hr rfl⟩,
    fun h15 hb ht => ⟨raises_vsmark_open h15 hb ht, waits_vsmark h15 hb ht, completes_vsmark h15 hb ht⟩,
    completes_vsopen_misaligned, completes_vsopen_elsewhere, waits_vsopen,
    fun h15 ha hl => ⟨fun h => completes_vsopen h15 ha hl (vsopenRead_bad h),
      fun h h3 => completes_vsopen h15 ha hl (vsopenRead_taken h h3),
      fun h h3 hn h4 => completes_vsopen h15 ha hl (vsopenRead_bound h h3 hn h4),
      fun h h3 h4 h5 => completes_vsopen h15 ha hl (vsopenRead_unenrolled h h3 h4 h5),
      fun h h3 h4 h5 ht hc => completes_vsopen h15 ha hl (vsopenRead_opens h h3 h4 h5 ht hc rfl rfl)⟩,
    completes_vsclose_none,
    fun h15 he => ⟨completes_vsclose_foreign h15 he, fun p ht ho => vsclose_abandons h15 he ht ho, waits_vsclose h15 he,
      fun ht ho hh hl => ⟨completes_vsclose h15 he ht ho hh hl, entryOf_closeEntry ..⟩⟩⟩

end Sys2Proof.Proofs.Communication
end

section
/-! SUPPORT. PLBINV and CFLUSH (R322, R323): what an invalidation drops leaves the registers of every strand; then what the
instructions do where nothing, or something, is still on its way. -/

namespace Sys2Proof.Proofs.Inval

open Sys2Proof Sys2Proof.Machine Sys2Proof.Laws Sys2Proof.Proofs.Running Sys2Proof.Proofs.Accesses
  Sys2Proof.Proofs.WaitsBarriers Sys2Proof.Proofs.Transfers

/-! ### What an invalidation leaves -/

/-- A strand without its answers and the code it holds. -/
def bare (x : Strand) : Strand := { unasked x with loops := [], fblk := none }

/-- A state whose strands differ in answers and held code at most, and whose bundle is the same. -/
structure KeepsStrands (s t : State) : Prop where
  cur : t.cur = s.cur
  issue : t.issue = s.issue
  strand : ∀ p : Place, bare (t.strand p) = bare (s.strand p)

theorem KeepsStrands.refl (s : State) : KeepsStrands s s := ⟨rfl, rfl, fun _ => rfl⟩

theorem KeepsStrands.trans {s t u : State} (h : KeepsStrands s t) (g : KeepsStrands t u) : KeepsStrands s u :=
  ⟨g.cur.trans h.cur, g.issue.trans h.issue, fun p => (g.strand p).trans (h.strand p)⟩

theorem KeepsStrands.of_stores {s t : State} (h : StoresOnly s t) : KeepsStrands s t :=
  ⟨h.cur, h.issue, fun p => congrArg (fun x => { x with loops := [], fblk := none }) (h.2 p)⟩

theorem KeepsStrands.of_eq {s t : State} (hc : t.cur = s.cur) (hi : t.issue = s.issue) (hs : t.strands = s.strands) :
    KeepsStrands s t := ⟨hc, hi, fun p => by rw [State.strand, hs]; rfl⟩

theorem KeepsStrands.foldl {α : Type} {f : State → α → State} (h : ∀ t a, KeepsStrands t (f t a)) (l : List α) (s : State) :
    KeepsStrands s (l.foldl f s) := by
  induction l generalizing s with
  | nil => exact .refl s
  | cons a l ih => exact (h s a).trans (ih _)

/-- A map of listed values leaves a part that it leaves of each. -/
theorem fget_map_part {α β : Type} {d : α} {part : α → β} {f : Nat × α → Nat × α} (hk : ∀ e, (f e).1 = e.1)
    (hp : ∀ e, part (f e).2 = part e.2) (l : List (Nat × α)) (k : Nat) : part (fget d (l.map f) k) = part (fget d l k) := by
  induction l with
  | nil => rfl
  | cons e l ih =>
    have he : ∀ (y : Nat × α) (m : List (Nat × α)), fget d (y :: m) k = if y.1 = k then y.2 else fget d m k := fun _ _ => rfl
    rw [List.map_cons, he, he, hk]
    split
    · exact hp e
    · exact ih

theorem dropCode_keeps (s : State) (sel : Nat → Bool) (hit : Nat → Nat → Bool) : KeepsStrands s (dropCode s sel hit) := by
  refine ⟨rfl, rfl, fun p => fget_map_part (part := bare) (fun e => ?_) (fun e => ?_) s.strands p.key⟩ <;> split <;> rfl

theorem dropAnswers_keeps (s : State) (sel : Nat → Bool) (hit : Nat → Access → Bool) : KeepsStrands s (dropAnswers s sel hit) := by
  refine ⟨rfl, rfl, fun p => fget_map_part (part := bare) (fun e => ?_) (fun e => ?_) s.strands p.key⟩
  · split <;> rfl
  · split
    · simp only
      split <;> rfl
    · rfl

theorem flushL1_keeps (s : State) (sel : Nat → Bool) (p : Nat → L1Sec → Bool) (q : Nat → Bool) :
    KeepsStrands s (flushL1 s sel p q) :=
  .foldl (fun t k => .of_stores (((writeBackWhere_stores t k p).trans (modCore_stores _ k _)).trans (noFill_stores _ k q))) _ s

theorem storePushes_keeps (s : State) (sel : Nat → Bool) : KeepsStrands s (storePushes s sel) :=
  .foldl (fun t _ => .of_stores (drainPushes_stores t _)) _ s

theorem modDie_keeps (s : State) (dk : Nat) (f : Die → Die) : KeepsStrands s (s.modDie dk f) := .of_eq rfl rfl rfl

theorem dropPage_keeps (s : State) (sc : Scope) (page : Nat) : KeepsStrands s (dropPage s sc page) :=
  ((((storePushes_keeps s _).trans (flushL1_keeps ..)).trans (dropCode_keeps ..)).trans (dropAnswers_keeps ..)).trans
    (.foldl (fun t dk => modDie_keeps t dk _) _ _)

theorem dropDoms_keeps (s : State) (sc : Scope) (tenant : Nat) (doms : Nat → Bool) :
    KeepsStrands s (dropDoms s sc tenant doms) :=
  ((storePushes_keeps s _).trans (flushL1_keeps ..)).trans (.of_eq rfl rfl rfl)

/-! ### PLBINV (R322) -/

/-- The registers and the program counter of the strand are as they were. -/
structure SameRegs (s t : State) : Prop where
  g : t.me.g = s.me.g
  v : t.me.v = s.me.v
  k : t.me.k = s.me.k
  pc : t.me.pc = s.me.pc

theorem KeepsStrands.sameRegs {s t : State} (h : KeepsStrands s t) : SameRegs s t := by
  have hme := congrArg (fun y => (y.g, y.v, y.k, y.pc)) (h.strand s.cur)
  rw [show s.strand s.cur = s.me from rfl, show t.strand s.cur = t.me by rw [State.me, h.cur]] at hme
  simp only [bare, unasked, Prod.mk.injEq] at hme
  obtain ⟨hg, hv, hk, hpc⟩ := hme
  exact ⟨hg, hv, hk, hpc⟩

theorem SameRegs.spawn {s t : State} (h : SameRegs s t) (e : Event) : SameRegs s (t.spawn e) := ⟨h.g, h.v, h.k, h.pc⟩

/-- The word waits for memory, at its address and with no register written. -/
def WaitsMem (i : Instr) (s : State) : Prop :=
  ∃ u sent, exec i s = .next u ∧ u.issue.ended = some (.park .mem sent) ∧ u.me.g = s.me.g ∧ u.me.v = s.me.v ∧
    u.me.k = s.me.k ∧ u.me.pc = s.me.pc

theorem waitsMem_of_error {i : Instr} {s t : State} {m : Act Unit} {sent : Bool} (h : exec i s = finish s (m.res s))
    (hm : m s = .error (.park .mem sent t)) (ht : SameRegs s t) : WaitsMem i s := by
  obtain ⟨hg, hv, hk, -, hpc⟩ := parkWord_keeps t .mem sent
  exact ⟨_, sent, h.trans (congrArg (finish s) (res_of_error hm)), Order.parkWord_ended t .mem sent, hg.trans ht.g, hv.trans ht.v,
    hk.trans ht.k, hpc.trans ht.pc⟩

section
variable {s s1 : State} {sc : Scope} {drop fin : Scope → State → State} {hit : Nat → Bool}
  (hsup : s.super = true) (hs : s.fits sc) (hr : release sc s = .ok ((), s1))

theorem plbinv_user (hu : s.super = false) : plbinv sc drop fin hit s = .error (wordTrap s .priv 0x63) :=
  bind_of_error (needSuper_user hu)

include hsup hs hr

/-- What was asked before has come back, nothing that was checked before is left: the invalidation ends. -/
theorem plbinv_ends (ha : hasAsked s1.me askFlush = true)
    (hb : inFlight s1 (modInScope s1 (dieScope sc)) (inScope s1 (dieScope sc)) hit = false)
    (hd : inFlight (drop (dieScope sc) s1) (modInScope s1 (dieScope sc)) (inScope s1 (dieScope sc)) hit = false)
    (hf : ((fin (dieScope sc) (drop (dieScope sc) s1)).acquired sc).fits sc) :
    plbinv sc drop fin hit s = .ok ((), (fin (dieScope sc) (drop (dieScope sc) s1)).acquired sc) := by
  unfold plbinv
  rw [bind_of_ok (needSuper_super hsup), bind_of_ok (clamp_fits hs), bind_of_ok hr, bind_of_ok (here_ok s1), if_pos ha,
    if_neg (by rw [hb]; exact Bool.false_ne_true), if_neg (by rw [hd]; exact Bool.false_ne_true), bind_of_ok (change_ok _ _),
    bind_of_ok acquire_acquired]
  exact noteClamp_fits hf

theorem plbinv_first {i : Instr} (hi : exec i s = finish s (Act.res (plbinv sc drop fin hit) s))
    (hk : KeepsStrands s1 (drop (dieScope sc) s1)) (ha : hasAsked s1.me askFlush ≠ true) : WaitsMem i s := by
  have h1 := (KeepsStrands.of_stores (release_ok hr))
  have hrun : plbinv sc drop fin hit s =
      if s1.clusters.any (fun e => e.2.busy && inScope s1 (dieScope sc) e.1) = true then pollMem s1
      else .error (.park .mem true ((ask (drop (dieScope sc) s1) askFlush).spawn (.memResponse s1.cur))) := by
    unfold plbinv
    rw [bind_of_ok (needSuper_super hsup), bind_of_ok (clamp_fits hs), bind_of_ok hr, bind_of_ok (here_ok s1), if_neg ha]
    split <;> rfl
  by_cases hb : s1.clusters.any (fun e => e.2.busy && inScope s1 (dieScope sc) e.1) = true
  · rw [if_pos hb] at hrun
    exact waitsMem_of_error hi hrun (h1.sameRegs.spawn _)
  · rw [if_neg hb] at hrun
    obtain ⟨hg, hv, hk', hpc⟩ := (h1.trans hk).sameRegs
    have hask : (((ask (drop (dieScope sc) s1) askFlush).spawn (.memResponse s1.cur))).me =
        { (drop (dieScope sc) s1).me with asked := askFlush :: (drop (dieScope sc) s1).me.asked } :=
      modMe_me (drop (dieScope sc) s1) fun x => { x with asked := askFlush :: x.asked }
    refine waitsMem_of_error hi hrun ⟨?_, ?_, ?_, ?_⟩ <;> rw [hask]
    exacts [hg, hv, hk', hpc]

theorem plbinv_waits {i : Instr} (hi : exec i s = finish s (Act.res (plbinv sc drop fin hit) s))
    (ha : hasAsked s1.me askFlush = true)
    (hb : inFlight s1 (modInScope s1 (dieScope sc)) (inScope s1 (dieScope sc)) hit = true) : WaitsMem i s := by
  refine waitsMem_of_error (t := s1.spawn (.memResponse s1.cur)) (sent := false) hi ?_
    ((KeepsStrands.of_stores (release_ok hr)).sameRegs.spawn _)
  unfold plbinv
  rw [bind_of_ok (needSuper_super hsup), bind_of_ok (clamp_fits hs), bind_of_ok hr, bind_of_ok (here_ok s1), if_pos ha,
    if_pos hb]
  rfl

end

/-! ### CFLUSH (R323) -/

section
variable {s : State} {x n : Nat} {keep : Bool} {busy : State → Bool} {fin : State → State}

theorem cflush_again (ha : hasAsked s.me askFlush = true) (hb : busy s = false) : cflush x n keep busy fin s = .ok ((), fin s) := by
  unfold cflush
  simp only [if_pos ha, hb]
  rfl

theorem cflush_empty (ha : hasAsked s.me askFlush ≠ true) (hn : n = 0) : cflush x n keep busy fin s = .ok ((), s) := by
  unfold cflush
  simp only [if_neg ha, if_pos hn]

theorem sameWord_ask {t : State} (h : StoresOnly s t) : SameWord s ((ask t askFlush).spawn (.memResponse s.cur)) := by
  obtain ⟨hg, hv, hk, hl, hpc, hh⟩ := sameWord_of_stores h
  have hask : ((ask t askFlush).spawn (.memResponse s.cur)).me = { t.me with asked := askFlush :: t.me.asked } :=
    modMe_me t fun x => { x with asked := askFlush :: x.asked }
  refine ⟨?_, ?_, ?_, ?_, ?_, hh⟩ <;> rw [hask]
  exacts [hg, hv, hk, hl, hpc]

theorem cflush_waits (ha : hasAsked s.me askFlush ≠ true) (hn : n ≠ 0) :
    ∃ sent t, cflush x n keep busy fin s = .error (.park .mem sent t) ∧ SameWord s t := by
  unfold cflush
  simp only [if_neg ha, if_neg hn]
  split
  · exact ⟨false, s, rfl, .refl s⟩
  · refine ⟨true, _, rfl, sameWord_ask ?_⟩
    split
    · exact writeBackWhere_stores ..
    · exact ((writeBackWhere_stores ..).trans (modCore_stores ..)).trans (noFill_stores ..)

end

/-- Settles O51: what is on its way decides; the drops leave every register. -/
theorem invalidations : Obligations.Invalidations := by
  unfold Obligations.Invalidations
  intro a b sc s s1 D page dom x n again asked busy begins pass doms waits inPage ends dropped
  refine ⟨fun hu => ⟨raises_of_error rfl (plbinv_user hu), raises_of_error rfl (plbinv_user hu), raises_of_error rfl (plbinv_user hu)⟩,
    ?_, ?_, ?_, ?_, ?_, ?_, ?_, ?_⟩
  · rintro ⟨⟨hsup, hs, hr⟩, ha, hb, hd⟩ hf
    exact completes_of_ok rfl (plbinv_ends hsup hs hr ha hb hd hf)
  · rintro ⟨⟨hsup, hs, hr⟩, ha, hb, hd⟩ hf
    exact completes_of_ok rfl (plbinv_ends (fin := fun _ t => t) hsup hs hr ha hb hd hf)
  · rintro ⟨⟨hsup, hs, hr⟩, ha, hb, hd⟩ hf
    exact completes_of_ok rfl (plbinv_ends (fin := fun _ t => t) hsup hs hr ha hb hd hf)
  · rintro ⟨hsup, hs, hr⟩ ha
    exact ⟨plbinv_first hsup hs hr rfl (dropPage_keeps ..) ha, plbinv_first hsup hs hr rfl (dropDoms_keeps ..) ha,
      plbinv_first hsup hs hr rfl (dropDoms_keeps ..) ha⟩
  · rintro ⟨hsup, hs, hr⟩ ha hb
    exact plbinv_waits hsup hs hr rfl ha hb
  · intro ha hb
    refine ⟨completes_of_ok rfl (cflush_again ha hb), completes_of_ok rfl (cflush_again ha hb), fun hs hc hf =>
      completes_of_ok rfl ?_⟩
    rw [bind_of_ok (clamp_fits hs), bind_of_ok (cflush_again ha (by rw [hb, hc]; rfl))]
    exact noteClamp_fits hf
  · intro ha hn
    refine ⟨completes_of_ok rfl (cflush_empty ha hn), completes_of_ok rfl (cflush_empty ha hn), fun hs => completes_of_ok rfl ?_⟩
    rw [bind_of_ok (clamp_fits hs), bind_of_ok (cflush_empty ha hn)]
    exact noteClamp_fits hs
  · intro ha hn
    refine ⟨?_, ?_, fun hs => ?_⟩
    · obtain ⟨sent, t, he, hw⟩ := cflush_waits ha hn
      exact waits_of_error rfl he hw
    · obtain ⟨sent, t, he, hw⟩ := cflush_waits ha hn
      exact waits_of_error rfl he hw
    · obtain ⟨sent, t, he, hw⟩ := cflush_waits ha hn
      exact waits_of_error rfl ((bind_of_ok (clamp_fits hs)).trans (bind_of_error he)) hw

end Sys2Proof.Proofs.Inval
end

section
/-! SUPPORT. SPART, CTXSAVE, CTXLOAD and SMIG (R234-R241, R402): what each does by the slot or the core it names, and that a
strand held for its save is left for handover. -/

namespace Sys2Proof.Proofs.SlotMoves

open Sys2Proof Sys2Proof.Machine Sys2Proof.Laws Sys2Proof.Proofs.Running Sys2Proof.Proofs.Accesses
  Sys2Proof.Proofs.WaitsBarriers Sys2Proof.Proofs.Streams Sys2Proof.Proofs.Transfers

/-! ### Keys of places -/

theorem key_ofKey (k : Nat) : (Place.ofKey k).key = k := by
  simp only [Place.key, Place.coreKey, Sys2Proof.coreKey, cluKey, dieKey, Place.ofKey]
  omega

theorem slot_placeOf (c n : Nat) : (placeOf c (n % 16)).slot = n % 16 := by
  change (c * 16 + n % 16) % 16 = _
  omega

/-- A slot of the own core that is not the own slot is another place. -/
theorem other_slot {s : State} {n : Nat} (h : (placeOf s.cur.coreKey (n % 16)).slot ≠ s.cur.slot) :
    (placeOf s.cur.coreKey (n % 16)).key ≠ s.cur.key := by
  rw [slot_placeOf] at h
  rw [placeOf, key_ofKey, Place.key]
  omega

/-! ### A strand held for its save (R235) -/

theorem freeContext_cur (s : State) (k n : Nat) : (freeContext s k n).cur = s.cur := rfl

theorem quitWait_cur (p : Place) (k : Nat) (s : State) (n : Nat) : (quitWait p k s n).cur = s.cur := by
  unfold quitWait
  simp only
  split
  · rfl
  · split
    · exact freeContext_cur ..
    · rfl

theorem quitWaits_cur (s : State) (p : Place) : (quitWaits s p).cur = s.cur := by
  have h : ∀ (l : List Nat) (t : State), (l.foldl (quitWait p p.cluKey) t).cur = t.cur := by
    intro l
    induction l with
    | nil => exact fun _ => rfl
    | cons n l ih => exact fun t => (ih _).trans (quitWait_cur ..)
  exact h _ s

theorem withdrawArrival_cur (s : State) (p : Place) : (withdrawArrival s p).cur = s.cur := by
  unfold withdrawArrival
  split <;> rfl

theorem wakeAdmission_cur (s : State) (dk : Nat) : (wakeAdmission s dk).cur = s.cur := by
  unfold wakeAdmission spawnOnce
  split
  · rfl
  · split <;> rfl

theorem holdForSave_cur (s : State) (p : Place) : (holdForSave s p).cur = s.cur := by
  rw [holdForSave, modStrand_cur, abandonBundle]
  simp only [wakeAdmission_cur, modDie_cur, quitWaits_cur, withdrawArrival_cur]

/-- A wait leaves what the strands of other slots are doing. -/
theorem parkWord_st_other {t : State} {r : ParkReason} {sent : Bool} {p : Place} (h : p.key ≠ t.cur.key) :
    (parkWord t r sent).strand p = t.strand p := by
  unfold parkWord
  cases t.issue.half with
  | lone => exact fget_fset_other _ _ _ _ _ h
  | c => rfl
  | a => rfl

theorem parkWord_clu (t : State) (r : ParkReason) (sent : Bool) : (parkWord t r sent).clu = t.clu := by
  unfold parkWord
  split <;> rfl

theorem holdForSave_st (s : State) (p : Place) : ((holdForSave s p).strand p).st = .handover :=
  congrArg Strand.st (modStrand_strand (abandonBundle s p) p fun y => { y with st := .handover })

/-- A strand whose matrix operations have not ended is held, and the CTXSAVE knows its answer. -/
def heldForSave (s : State) (p : Place) : State :=
  ((holdForSave s p).modMe fun y =>
    { y with resps := y.resps ++ [.unit 0 (slotReason (shownState s p) * 4 + slotCode (shownState s p))] }).spawn
      (.memResponse s.cur)

theorem modMe_spawn_cur (u : State) (f : Strand → Strand) (e : Event) : ((u.modMe f).spawn e).cur = u.cur := rfl

theorem modMe_spawn_strand_other {u : State} {p : Place} (h : p.key ≠ u.cur.key) (f : Strand → Strand) (e : Event) :
    ((u.modMe f).spawn e).strand p = u.strand p := fget_fset_other _ _ _ _ _ h

theorem heldForSave_cur (s : State) (p : Place) : (heldForSave s p).cur = s.cur := by
  rw [heldForSave, modMe_spawn_cur, holdForSave_cur]

theorem heldForSave_st {s : State} {p : Place} (h : p.key ≠ s.cur.key) : ((heldForSave s p).strand p).st = .handover := by
  rw [heldForSave, modMe_spawn_strand_other (by rw [holdForSave_cur]; exact h), holdForSave_st]

section
variable {d a : GReg} {s s1 : State} {imm : BitVec 13} {c v : Nat}

/-! ### SPART (R239) -/

section
variable (hsup : s.super = true)
include hsup

theorem completes_spart_answered (hu : unitAnswer s.me = some (c, v)) : Completes (.spart d a imm) s (wg s d (word v)) := by
  refine completes_of_ok rfl ((bind_of_ok (needSuper_super hsup)).trans ?_)
  rw [hu]
  exact change_ok _ _

theorem completes_spart_bad (hu : unitAnswer s.me = none)
    (hb : ((rg s a).toNat + imm.toNat * 1024) % 2 ^ 64 % 16384 ≠ 0 ∨ 288 * 1024 < ((rg s a).toNat + imm.toNat * 1024) % 2 ^ 64) :
    Completes (.spart d a imm) s (wg s d (word 0xFFFFFFFFFFFFFFFF)) := by
  refine completes_of_ok rfl ((bind_of_ok (needSuper_super hsup)).trans ?_)
  rw [hu]
  simp only
  rw [if_pos hb]
  exact change_ok _ _

/-- An SPART that has been sent to its cluster. -/
def spartAsked (s : State) (n : Nat) : State :=
  ((ask s askSpart).modMyClu fun c => { c with busy := true, spart := c.spart ++ [{ src := s.cur, ways := n / 16384 }] }).spawn
    (.spartConversion s.cur.cluKey)

theorem spart_asks {n : Nat} (hn : ((rg s a).toNat + imm.toNat * 1024) % 2 ^ 64 = n) (hu : unitAnswer s.me = none)
    (hm : n % 16384 = 0) (hle : n ≤ 288 * 1024) (ha : hasAsked s.me askSpart = false) :
    Waits (.spart d a imm) s .mem ∧ ∃ u, exec (.spart d a imm) s = .next u ∧ u.clu.busy = true ∧
      u.clu.spart = s.clu.spart ++ [{ src := s.cur, ways := n / 16384 }] := by
  have hexec : exec (.spart d a imm) s = finish s (.park .mem true (spartAsked s n)) := by
    refine congrArg (finish s) (res_of_error ((bind_of_ok (needSuper_super hsup)).trans ?_))
    rw [hu, hn]
    simp only
    rw [if_neg (by omega), if_neg (by rw [ha]; exact Bool.false_ne_true)]
    rfl
  have hclu : (spartAsked s n).clu = { s.clu with busy := true, spart := s.clu.spart ++ [{ src := s.cur, ways := n / 16384 }] } :=
    modMyClu_spawn_clu (ask s askSpart) _ _
  have hme : (spartAsked s n).me = { s.me with asked := askSpart :: s.me.asked } :=
    modMe_me s fun x => { x with asked := askSpart :: x.asked }
  refine ⟨waits_of_park hexec ?_, _, hexec, ?_, ?_⟩
  · refine ⟨?_, ?_, ?_, ?_, ?_, rfl⟩ <;> rw [hme]
  · exact (congrArg Cluster.busy ((parkWord_clu ..).trans hclu))
  · exact (congrArg Cluster.spart ((parkWord_clu ..).trans hclu))

end

/-! ### CTXSAVE and CTXLOAD (R235-R238, R402) -/

section
variable (hsup : s.super = true) (hfree : (placeOf s.cur.coreKey ((rg s a).toNat % 16)).slot ≠ s.cur.slot)
include hsup

theorem raises_ctxsave_own (h : (placeOf s.cur.coreKey ((rg s a).toNat % 16)).slot = s.cur.slot) :
    Raises (.ctxsave d a) s .illegalInstr (wordAddr s) (halfBit s + 0x66) :=
  raises_illegal rfl ((bind_of_ok (needSuper_super hsup)).trans (congrFun (if_pos h) s))

theorem raises_ctxload_own (h : (placeOf s.cur.coreKey ((rg s a).toNat % 16)).slot = s.cur.slot) :
    Raises (.ctxload d a) s .illegalInstr (wordAddr s) (halfBit s + 0x67) :=
  raises_illegal rfl ((bind_of_ok (needSuper_super hsup)).trans (congrFun (if_pos h) s))

include hfree

theorem completes_ctxsave_empty (hu : unitAnswer s.me = none)
    (hx : (s.strand (placeOf s.cur.coreKey ((rg s a).toNat % 16))).st = .empty) : Completes (.ctxsave d a) s (wg s d 0) := by
  refine completes_of_ok rfl ((bind_of_ok (needSuper_super hsup)).trans ?_)
  rw [if_neg hfree, hu]
  simp only
  rw [if_pos hx]
  exact change_ok _ _

section
variable {p : Place} (hp : placeOf s.cur.coreKey ((rg s a).toNat % 16) = p)
include hp

/-- The state after the context of a slot has been saved, with the answer of its CTXSAVE. -/
def savedWith (s : State) (p : Place) (d : GReg) (r : Nat) : State :=
  wg (writeArea (saveStrand s p).2 p (saveStrand s p).1) d (word r)

theorem completes_ctxsave_now (hu : unitAnswer s.me = none) (hx : (s.strand p).st ≠ .empty) (hh : (s.strand p).st ≠ .handover)
    (hm : mayStop s p = true) (hb : matrixBusy s p = false) :
    Completes (.ctxsave d a) s (savedWith s p d (slotReason (shownState s p) * 4 + slotCode (shownState s p))) := by
  subst hp
  refine completes_of_ok rfl ((bind_of_ok (needSuper_super hsup)).trans ?_)
  rw [if_neg hfree, hu]
  simp only
  rw [if_neg hx, if_neg (by simp [hh, hm]), if_neg (by rw [hb]; exact Bool.false_ne_true)]
  exact change_ok _ _

theorem completes_ctxsave_held (hu : unitAnswer s.me = some (c, v)) (hb : matrixBusy s p = false) :
    Completes (.ctxsave d a) s (savedWith s p d v) := by
  subst hp
  refine completes_of_ok rfl ((bind_of_ok (needSuper_super hsup)).trans ?_)
  rw [if_neg hfree, hu]
  simp only
  rw [if_neg (by rw [hb]; exact Bool.false_ne_true)]
  exact change_ok _ _

theorem ctxsave_holds (hu : unitAnswer s.me = none) (hx : (s.strand p).st ≠ .empty) (hh : (s.strand p).st ≠ .handover)
    (hm : mayStop s p = true) (hb : matrixBusy s p = true) :
    ∃ u, exec (.ctxsave d a) s = .next u ∧ u.issue.ended = some (.park .mem true) ∧ (u.strand p).st = .handover := by
  subst hp
  have hexec : exec (.ctxsave d a) s = finish s (.park .mem true (heldForSave s (placeOf s.cur.coreKey ((rg s a).toNat % 16)))) := by
    refine congrArg (finish s) (res_of_error ((bind_of_ok (needSuper_super hsup)).trans ?_))
    rw [if_neg hfree, hu]
    simp only
    rw [if_neg hx, if_neg (by simp [hh, hm]), if_pos hb]
    rfl
  refine ⟨_, hexec, Order.parkWord_ended .., ?_⟩
  rw [parkWord_st_other (by rw [heldForSave_cur]; exact other_slot hfree), heldForSave_st (other_slot hfree)]

theorem completes_ctxload_taken (hx : (s.strand p).st ≠ .empty) (hd : (s.strand p).st ≠ .parked .doubleTrap) :
    Completes (.ctxload d a) s (wg s d 1) := by
  subst hp
  refine completes_of_ok rfl ((bind_of_ok (needSuper_super hsup)).trans ?_)
  rw [if_neg hfree, if_pos ⟨hx, hd⟩]
  exact change_ok _ _

variable (hx : (s.strand p).st = .empty ∨ (s.strand p).st = .parked .doubleTrap)
include hx

theorem raises_ctxload {off : Nat} (hb : badArea s.core p.slot = some off) :
    Raises (.ctxload d a) s .dataError (tcmAddr s s.cur.coreKey off) 0 := by
  subst hp
  refine raises_of_error rfl ((bind_of_ok (needSuper_super hsup)).trans ?_)
  rw [if_neg hfree, if_neg (by tauto), hb]
  rfl

variable (hb : badArea s.core p.slot = none)
include hb

theorem completes_ctxload_foreign (hr : if p.slot = 15 then partOfSlot s.core 14 = 15
      else bits (readArea s p) 75 72 ≠ partOfSlot s.core p.slot) : Completes (.ctxload d a) s (wg s d 2) := by
  subst hp
  refine completes_of_ok rfl ((bind_of_ok (needSuper_super hsup)).trans ?_)
  rw [if_neg hfree, if_neg (by tauto), hb]
  simp only
  rw [if_pos hr]
  exact change_ok _ _

theorem completes_ctxload (hr : ¬ if p.slot = 15 then partOfSlot s.core 14 = 15
      else bits (readArea s p) 75 72 ≠ partOfSlot s.core p.slot) :
    Completes (.ctxload d a) s (wg (loadStrand (discardStrand s p) p (readArea s p) false) d 0) := by
  subst hp
  refine completes_of_ok rfl ((bind_of_ok (needSuper_super hsup)).trans ?_)
  rw [if_neg hfree, if_neg (by tauto), hb]
  simp only
  rw [if_neg hr]
  exact change_ok _ _

end
end

/-! ### SMIG (R240, R241) -/

section
variable {t : Nat} (ht : (rg s a).toNat = t)

/-- The core that an SMIG names exists. -/
def CoreThere (s : State) (t : Nat) : Prop :=
  bits t 34 23 = s.pkgOf s.cur.mod ∧ bits t 16 8 < 400 ∧ (s.modOf s.cur.mod).diesUp.contains (bits t 22 17) = true

/-- It is the own core. -/
def CoreOwn (s : State) (t : Nat) : Prop := cluKey s.cur.mod (bits t 22 17) (bits t 16 8) * 16 + bits t 7 4 = s.cur.coreKey

theorem coreThere_iff : (decide (bits t 34 23 = s.pkgOf s.cur.mod) && decide (bits t 16 8 < 400)
    && (s.modOf s.cur.mod).diesUp.contains (bits t 22 17)) = true ↔ CoreThere s t := by
  rw [Bool.and_eq_true, Bool.and_eq_true, decide_eq_true_iff, decide_eq_true_iff, and_assoc]
  rfl

include ht

theorem completes_smig_own (he : CoreThere s t) (ho : CoreOwn s t) : Completes (.smig d a) s (wg s d 0) := by
  subst ht
  refine completes_of_ok rfl ?_
  rw [coreThere_iff.mpr he, if_pos (by rw [Bool.true_and, decide_eq_true_iff]; exact ho)]
  exact change_ok _ _

theorem raises_smig_nowhere (he : ¬ CoreThere s t) : Raises (.smig d a) s .placement 0 0 := by
  subst ht
  refine raises_of_error rfl ?_
  rw [Bool.eq_false_iff.mpr (mt coreThere_iff.mp he), Bool.false_and, if_neg Bool.false_ne_true, if_pos (by simp)]
  rfl

variable (he : CoreThere s t) (ho : ¬ CoreOwn s t)
include he ho

theorem raises_smig_unmovable (hm : ¬ (isLight s s.cur = true ∧ s.me.tl = false ∧ s.cur.slot ≠ 15)) :
    Raises (.smig d a) s .placement 0 0 := by
  subst ht
  refine raises_of_error rfl ?_
  rw [coreThere_iff.mpr he, if_neg (by rw [Bool.true_and, decide_eq_true_iff]; exact ho), if_pos]
  · rfl
  · by_contra h
    simp at h
    exact hm ⟨h.1.1, h.1.2, h.2⟩

variable (hm : isLight s s.cur = true ∧ s.me.tl = false ∧ s.cur.slot ≠ 15)
include hm

/-- A core that exists is not the own one, and the strand may move: only its indirect copies and its release wait. -/
theorem exec_smig_move : exec (.smig d a) s = finish s (Act.res (if ixBusy s s.cur then parkOn .engine
    else do
      release .pkg
      fun u => .error (depart u s.cur (cluKey s.cur.mod (bits t 22 17) (bits t 16 8)) [bits t 7 4] u.issue.next
        (some (d.val, word (s.strandId s.cur))))) s) := by
  subst ht
  obtain ⟨hl, htl, h15⟩ := hm
  refine congrArg (finish s) (congrArg (fun m : Act Unit => m.res s) ?_)
  rw [coreThere_iff.mpr he, if_neg (by rw [Bool.true_and, decide_eq_true_iff]; exact ho), if_neg (by simp [hl, htl, h15])]

theorem waits_smig (hb : ixBusy s s.cur = true) : Waits (.smig d a) s .engine :=
  waits_of_error (sent := false) (exec_smig_move ht he ho hm) (congrFun (if_pos hb) s) (.refl s)

theorem smig_departs (hb : ixBusy s s.cur = false) (hr : release .pkg s = .ok ((), s1)) {dst : Place} {rest : List Place}
    (hd : openSlots s1 s.cur (cluKey s.cur.mod (bits t 22 17) (bits t 16 8)) [bits t 7 4] = dst :: rest)
    (hw : waitsBefore s1 s.cur (cluKey s.cur.mod (bits t 22 17) (bits t 16 8)) = false) :
    exec (.smig d a) s = .next (markGone
      (sendContext s1 s.cur dst s1.issue.next (some (d.val, word (s.strandId s.cur))))) := by
  refine (exec_smig_move ht he ho hm).trans (congrArg (finish s)
    (a₂ := .gone (sendContext s1 s.cur dst s1.issue.next (some (d.val, word (s.strandId s.cur))))) (res_of_error ?_))
  rw [if_neg (by rw [hb]; exact Bool.false_ne_true), bind_of_ok hr, depart, hd]
  simp only [hw]
  rfl

end
end

/-- Settles O52: the mode, the slot and the core named decide. -/
theorem slotInstructions : Obligations.SlotInstructions := by
  unfold Obligations.SlotInstructions
  intro d a imm s s1 c v bytes p x saved area seen refused fresh t clu exists' self movable free priv
  refine ⟨fun hu => ⟨raises_priv hu rfl, raises_priv hu rfl, raises_priv hu rfl⟩, fun hsup => ⟨completes_spart_answered hsup,
      completes_spart_bad hsup, spart_asks hsup rfl,
      fun h => ⟨raises_ctxsave_own hsup (not_not.mp h), raises_ctxload_own hsup (not_not.mp h)⟩,
      completes_ctxsave_empty hsup, fun hf => completes_ctxsave_now hsup hf rfl, fun hf => completes_ctxsave_held hsup hf rfl,
      fun hf => ctxsave_holds hsup hf rfl, fun hf => completes_ctxload_taken hsup hf rfl,
      fun hf hx hb => ⟨completes_ctxload_foreign hsup hf rfl hx hb, completes_ctxload hsup hf rfl hx hb⟩,
      fun off hf hx => raises_ctxload hsup hf rfl hx⟩,
    completes_smig_own rfl, raises_smig_nowhere rfl, raises_smig_unmovable rfl, waits_smig rfl,
    fun he ho hm hb hr dst rest => smig_departs rfl he ho hm hb hr⟩

end Sys2Proof.Proofs.SlotMoves
end

section
/-! SUPPORT. Power requests and groups (R361, R364-R369, R387): what each word does by the answer it has, and by what its
grant or its group would need. -/

namespace Sys2Proof.Proofs.PowerGroups

open Sys2Proof Sys2Proof.Machine Sys2Proof.Laws Sys2Proof.Proofs.Running Sys2Proof.Proofs.Accesses
  Sys2Proof.Proofs.WaitsBarriers Sys2Proof.Proofs.AtomicAccesses Sys2Proof.Proofs.Transfers

/-! ### The admission queue -/

theorem wakeAdmission_eq (s : State) (dk : Nat) : wakeAdmission s dk = { s with agenda := (wakeAdmission s dk).agenda } := by
  unfold wakeAdmission spawnOnce
  split
  · rfl
  · split <;> rfl

theorem wakeAdmission_dieOf (s : State) (dk k : Nat) : (wakeAdmission s dk).dieOf k = s.dieOf k := by
  rw [wakeAdmission_eq]
  rfl

theorem joinAdmission_adm (s : State) (dk : Nat) (r : AdmReq) :
    ((joinAdmission s dk r).dieOf dk).adm = admAfter s.ticks r (s.dieOf dk).adm := by
  rw [joinAdmission, wakeAdmission_dieOf, modDie_dieOf]

theorem ungrant_eq (s : State) (dk u : Nat) :
    ungrant s dk u = { s with dies := (ungrant s dk u).dies, agenda := (ungrant s dk u).agenda } := by
  rw [ungrant, wakeAdmission_eq]
  rfl

theorem ungrant_adm (s : State) (dk u : Nat) : ((ungrant s dk u).dieOf dk).adm = (s.dieOf dk).adm := by
  rw [ungrant, wakeAdmission_dieOf, modDie_dieOf]

/-- A grant that goes back changes the die and the strand's token. -/
theorem releaseGrant_eq (s : State) (p : Place) : releaseGrant s p =
    { s.modStrand p (fun x => { x with csr := { x.csr with pwtoken := 0 } }) with
      dies := (releaseGrant s p).dies, agenda := (releaseGrant s p).agenda } := by
  unfold releaseGrant
  simp only
  split
  · exact ungrant_eq ..
  · rfl

theorem releaseGrant_adm (s : State) (p : Place) : ((releaseGrant s p).dieOf p.dieKey).adm = (s.dieOf p.dieKey).adm := by
  unfold releaseGrant
  simp only
  split
  · exact ungrant_adm ..
  · rfl

/-- A request joins behind every request, but before a task whose 64th pass was in the same cycle. -/
theorem admAfter_last {ticks : Nat} {r : AdmReq} {l : List AdmReq} (h : ∀ x ∈ l, ∀ j w, x ≠ .task j w ticks) :
    admAfter ticks r l = l ++ [r] := by
  induction l with
  | nil => rfl
  | cons x l ih =>
    have hl := ih fun y hy => h y (List.mem_cons_of_mem _ hy)
    have hx := h x List.mem_cons_self
    unfold admAfter
    split
    · rw [if_neg fun he => hx _ _ (congrArg _ he), hl]
      rfl
    · rw [if_neg fun he => hx _ _ (congrArg _ he), hl]
      rfl
    · rw [hl]
      rfl

/-! ### PWREQ and PWREL (R364, R387) -/

section
variable {d a : GReg} {imm : BitVec 13} {s : State} {c v : Nat}

theorem completes_pwreq_answered (hu : unitAnswer s.me = some (c, v)) : Completes (.pwreq d a imm) s (wg s d (word v)) := by
  refine completes_of_done ?_
  change finish s _ = _
  rw [hu]

theorem waits_pwreq_again (hu : unitAnswer s.me = none) (ha : grantAwaited s s.cur = true) : Waits (.pwreq d a imm) s .power := by
  refine waits_of_park (t := s) (sent := false) ?_ (.refl s)
  change finish s _ = _
  rw [hu]
  simp only
  rw [if_pos ha]

section
variable (hu : unitAnswer s.me = none) (ha : grantAwaited s s.cur = false)
include hu ha

theorem completes_pwreq_over (hb : (s.dieOf s.cur.dieKey).budget < max (fld (rg s a) 3 0) 1) :
    Completes (.pwreq d a imm) s (wg s d (rejectWord 6)) := by
  refine completes_of_done ?_
  change finish s _ = _
  rw [hu]
  simp only
  rw [if_neg (by rw [ha]; exact Bool.false_ne_true), if_pos hb]

/-- The state of a strand whose request stands in the queue. -/
def powerAsked (s : State) (u : Nat) (imm : BitVec 13) : State :=
  joinAdmission (ask (releaseGrant s s.cur) askPower) s.cur.dieKey (.grant s.cur u (grantTime imm))

theorem exec_pwreq (hb : max (fld (rg s a) 3 0) 1 ≤ (s.dieOf s.cur.dieKey).budget) :
    exec (.pwreq d a imm) s = finish s (.park .power true (powerAsked s (max (fld (rg s a) 3 0) 1) imm)) := by
  change finish s _ = _
  rw [hu]
  simp only
  rw [if_neg (by rw [ha]; exact Bool.false_ne_true), if_neg (Nat.not_lt.mpr hb)]
  rfl

end

theorem powerAsked_adm (s : State) (u : Nat) (imm : BitVec 13) : ((powerAsked s u imm).dieOf s.cur.dieKey).adm =
    admAfter s.ticks (.grant s.cur u (grantTime imm)) (s.dieOf s.cur.dieKey).adm := by
  have ht : (ask (releaseGrant s s.cur) askPower).ticks = s.ticks := by
    rw [releaseGrant_eq]
    rfl
  rw [powerAsked, joinAdmission_adm, ht]
  exact congrArg _ (releaseGrant_adm s s.cur)

theorem joinAdmission_me (s : State) (dk : Nat) (r : AdmReq) : (joinAdmission s dk r).me = s.me := by
  rw [joinAdmission, wakeAdmission_eq]
  rfl

theorem releaseGrant_me (s : State) : (releaseGrant s s.cur).me = { s.me with csr := { s.me.csr with pwtoken := 0 } } := by
  rw [releaseGrant_eq]
  exact modMe_me s fun x => { x with csr := { x.csr with pwtoken := 0 } }

theorem powerAsked_me (s : State) (u : Nat) (imm : BitVec 13) : (powerAsked s u imm).me =
    { s.me with csr := { s.me.csr with pwtoken := 0 }, asked := askPower :: s.me.asked } := by
  rw [powerAsked, joinAdmission_me, ask, modMe_me, releaseGrant_me]

theorem powerAsked_sameWord (s : State) (u : Nat) (imm : BitVec 13) : SameWord s (powerAsked s u imm) := by
  have hi : (powerAsked s u imm).issue = s.issue := by
    rw [powerAsked, joinAdmission, wakeAdmission_eq, releaseGrant_eq]
    rfl
  refine ⟨?_, ?_, ?_, ?_, ?_, congrArg Issue.half hi⟩
  iterate 5 rw [powerAsked_me]

theorem parkWord_dieOf (t : State) (r : ParkReason) (sent : Bool) (k : Nat) : (parkWord t r sent).dieOf k = t.dieOf k := by
  unfold parkWord
  split <;> rfl

end

/-! ### Groups (R365-R369) -/

section
variable {d a : GReg} {imm : BitVec 13} {sc : Scope} {s s1 : State} {c v i : Nat}

theorem completes_gjoin_member (hu : unitAnswer s.me = some (c, v)) (hm : memberAt s.me.csr.groups (groupName (rg s a) imm) ≠ none) :
    Completes (.gjoin d a imm) s (wg s d (word v)) := by
  obtain ⟨j, hj⟩ := Option.ne_none_iff_exists'.mp hm
  refine completes_of_done ?_
  change finish s _ = _
  simp only [hu, hj]

theorem completes_gjoin (hu : unitAnswer s.me = some (c, v)) (hm : memberAt s.me.csr.groups (groupName (rg s a) imm) = none)
    (hi : clearGv s.me.csr.groups = some i) : Completes (.gjoin d a imm) s
      (wg (s.modCsr fun z => { z with groups := withGroup s.me.csr.groups i (groupName (rg s a) imm) }) d (word v)) := by
  refine completes_of_done ?_
  change finish s _ = _
  simp only [hu, hm, hi]

theorem completes_gleave (hu : unitAnswer s.me = some (c, v)) (hm : memberAt s.me.csr.groups (groupName (rg s a) imm) = some i) :
    Completes (.gleave d a imm) s
      (wg (s.modCsr fun z => { z with groups := withoutGroup s.me.csr.groups i }) d (word v)) := by
  refine completes_of_done ?_
  change finish s _ = _
  simp only [hu, hm]

theorem completes_gleave_none (hm : memberAt s.me.csr.groups (groupName (rg s a) imm) = none) :
    Completes (.gleave d a imm) s (wg s d (rejectWord 8)) := by
  refine completes_of_done ?_
  change finish s _ = _
  simp only [hm]

theorem completes_gjoin_full (hu : unitAnswer s.me = none) (ha : hasAsked s.me askGroup = false)
    (hm : memberAt s.me.csr.groups (groupName (rg s a) imm) = none) (hi : clearGv s.me.csr.groups = none) :
    Completes (.gjoin d a imm) s (wg s d (rejectWord 7)) := by
  refine completes_of_done ?_
  change finish s _ = _
  simp only [hu, ha, hm, hi, Bool.false_eq_true, if_false, Option.isSome_none, Option.isNone_none, if_true]

section
variable (hu : unitAnswer s.me = none) (ha : hasAsked s.me askGroup = false)
include hu ha

theorem exec_gjoin_look (hm : memberAt s.me.csr.groups (groupName (rg s a) imm) ≠ none) :
    exec (.gjoin d a imm) s = finish s (.park .mem true (askHome s .look (groupName (rg s a) imm) askGroup)) := by
  change finish s _ = _
  rw [hu]
  simp only
  rw [if_neg (by rw [ha]; exact Bool.false_ne_true), if_pos (Option.isSome_iff_ne_none.mpr hm)]

theorem exec_gjoin_join (hm : memberAt s.me.csr.groups (groupName (rg s a) imm) = none) (hi : clearGv s.me.csr.groups ≠ none) :
    exec (.gjoin d a imm) s = finish s (.park .mem true (askHome s .join (groupName (rg s a) imm) askGroup)) := by
  change finish s _ = _
  rw [hu]
  simp only
  rw [if_neg (by rw [ha]; exact Bool.false_ne_true), if_neg (by rw [hm]; exact Bool.false_ne_true),
    if_neg (by simpa using hi)]

theorem exec_gleave_leave (hm : memberAt s.me.csr.groups (groupName (rg s a) imm) ≠ none) :
    exec (.gleave d a imm) s = finish s (.park .mem true (askHome s .leave (groupName (rg s a) imm) askGroup)) := by
  obtain ⟨j, hj⟩ := Option.ne_none_iff_exists'.mp hm
  change finish s _ = _
  simp only [hj, hu]
  rw [if_neg (by rw [ha]; exact Bool.false_ne_true)]

end

/-- A word that asks its group's home. -/
theorem asks_of_park {i : Instr} {r : ParkReason} {s t : State} {op : GrpOp} {n k : Nat} (ht : SameWord s t)
    (h : exec i s = finish s (.park r true (askHome t op n k))) :
    Waits i s r ∧ ∃ u, exec i s = .next u ∧ u.notes = t.notes ++ [.group t.cur (groupDie t.cur.mod n) op n t.tenant] := by
  have hme : (askHome t op n k).me = { t.me with asked := k :: t.me.asked } := modMe_me t fun x => { x with asked := k :: x.asked }
  obtain ⟨hg, hv, hk, hl, hpc, hh⟩ := ht
  refine ⟨waits_of_park h ⟨?_, ?_, ?_, ?_, ?_, hh⟩, _, h, ?_⟩
  iterate 5 rw [hme]; assumption
  have hn : ∀ y : State, (parkWord y r true).notes = y.notes := fun y => by
    unfold parkWord
    split <;> rfl
  exact (hn _).trans rfl

theorem completes_gsync_none (hm : memberAt s.me.csr.groups ((rg s a).toNat % 256) = none) :
    Completes (.gsync d a sc) s (wg s d (rejectWord 8)) := by
  refine completes_of_ok rfl ?_
  rw [hm]
  exact change_ok _ _

end

section
variable {d a : GReg} {sc : Scope} {s s1 : State} {c v i : Nat} (hs : s.fits sc)
  (hm : memberAt s.me.csr.groups ((rg s a).toNat % 256) ≠ none)
include hs hm

theorem completes_gsync (hu : unitAnswer s.me = some (c, v)) (hf : (wg (s.acquired sc) d (word v)).fits sc) :
    Completes (.gsync d a sc) s (wg (s.acquired sc) d (word v)) := by
  refine completes_of_ok rfl ?_
  rw [if_neg (by simpa using hm), bind_of_ok (optScope_fits hs), hu]
  by_cases hn : sc = .none
  · subst hn
    exact (bind_of_ok (change_ok _ _)).trans (noteScope_fits hf)
  · simp only
    rw [if_pos hn]
    exact (bind_of_ok acquire_acquired).trans ((bind_of_ok (change_ok _ _)).trans (noteScope_fits hf))

theorem exec_gsync_arrive (hu : unitAnswer s.me = none) (ha : hasAsked s.me askArrive = false)
    (hr : if sc = .none then s1 = s else release sc s = .ok ((), s1)) :
    exec (.gsync d a sc) s = finish s (.park .gsync true (askHome s1 .arrive ((rg s a).toNat % 256) askArrive)) := by
  refine congrArg (finish s) (res_of_error ?_)
  rw [if_neg (by simpa using hm), bind_of_ok (optScope_fits hs), hu]
  simp only
  rw [if_neg (by rw [ha]; exact Bool.false_ne_true)]
  by_cases hn : sc = .none
  · rw [if_pos hn] at hr
    rw [hr, if_neg (not_not_intro hn)]
  · rw [if_neg hn] at hr
    rw [if_pos hn]
    exact bind_of_ok hr

end

/-- A release that may be left out leaves the strand's word. -/
theorem sameWord_of_freed {sc : Scope} {s s1 : State} (hr : if sc = .none then s1 = s else release sc s = .ok ((), s1)) :
    SameWord s s1 := by
  split at hr
  · rw [hr]
    exact .refl s
  · exact sameWord_of_stores (release_ok hr)

/-- Settles O49: the answer, the grant and the group decide. -/
theorem powerAndGroups : Obligations.PowerAndGroups := by
  unfold Obligations.PowerAndGroups
  intro d a imm sc s s1 c v i freed units own gs n g none' req asks joined
  refine ⟨fun hu => ⟨completes_pwreq_answered hu, completes_gjoin_member hu, completes_gjoin hu, completes_gleave hu,
      fun hm hs => completes_gsync hs (by rw [hm]; exact Option.some_ne_none i) hu⟩,
    fun hu ha => ⟨completes_pwreq_over hu ha, fun hb => ?_⟩, waits_pwreq_again, completes_of_done rfl,
    fun hu ha => ⟨fun hm => asks_of_park (.refl s) (exec_gjoin_look hu ha hm), completes_gjoin_full hu ha,
      fun hm hi => asks_of_park (.refl s) (exec_gjoin_join hu ha hm hi),
      fun hm => asks_of_park (.refl s) (exec_gleave_leave hu ha hm)⟩,
    completes_gleave_none, completes_gsync_none,
    fun hm hu ha hs hr => asks_of_park (sameWord_of_freed hr) (exec_gsync_arrive hs hm hu ha hr)⟩
  have hadm := (congrArg Die.adm (parkWord_dieOf (powerAsked s units imm) .power true own)).trans (powerAsked_adm s units imm)
  exact ⟨waits_of_park (exec_pwreq hu ha hb) (powerAsked_sameWord s units imm), _, exec_pwreq hu ha hb, hadm,
    fun h => hadm.trans (admAfter_last h), fun h => hadm.trans (by rw [h]; exact if_pos rfl)⟩

end Sys2Proof.Proofs.PowerGroups
end

section
/-! SUPPORT. The task instructions (R347-R363): each by the answer it has, what it asks, and where its task, its counter or
its release stands. -/

namespace Sys2Proof.Proofs.TaskWords

open Sys2Proof Sys2Proof.Machine Sys2Proof.Laws Sys2Proof.Proofs.Running Sys2Proof.Proofs.Accesses
  Sys2Proof.Proofs.ControlTransfer Sys2Proof.Proofs.WaitsBarriers Sys2Proof.Proofs.AtomicAccesses Sys2Proof.Proofs.Transfers
  Sys2Proof.Proofs.PowerGroups

/-- A register write narrows no scope. -/
theorem wg_fits {s : State} {sc : Scope} (h : s.fits sc) (d : GReg) (w : Word) : (wg s d w).fits sc := by
  have ht : (wg s d w).tenant = s.tenant := by
    rw [State.tenant, wg_me]
    split <;> rfl
  rw [State.fits, maxScope, ht, wg_cur, State.policy, State.modOf, wg_mods]
  exact h

section
variable {d a b : GReg} {imm : BitVec 13} {sc : Scope} {free : Bool} {s s1 s2 : State} {c v : Nat}

/-! ### Counters (R362) -/

section
variable {op : CtrOp} {dk name amount : Nat} {first : Act Unit}

theorem counterInstr_answered (hu : unitAnswer s.me = some (c, v)) :
    counterInstr d op dk name amount free first s = .ok (true, wg s d (word v)) := by
  rw [counterInstr, bind_of_ok (here_ok s), hu]
  exact bind_of_ok (change_ok _ _)

variable (hu : unitAnswer s.me = none) (ha : hasAsked s.me askCounter = false)
include hu ha

theorem counterInstr_absent (ho : op ≠ .init) (hn : (s.modOf s.cur.mod).diesUp.contains (bits name 17 12) = false) :
    counterInstr d op dk name amount free first s = .ok (false, wg s d (rejectWord 2)) := by
  rw [counterInstr, bind_of_ok (here_ok s), hu]
  simp only
  rw [if_neg (by rw [ha]; exact Bool.false_ne_true), if_pos ⟨ho, hn⟩]
  exact bind_of_ok (change_ok _ _)

/-- A counter operation that has been sent to its die. -/
def counterAsked (t : State) (op : CtrOp) (dk name amount : Nat) (free : Bool) : State :=
  ((ask t askCounter).note (.counter t.cur dk op name amount free t.tenant)).spawn (.counterUpdate dk t.cur)

theorem counterInstr_asks (ho : op = .init ∨ (s.modOf s.cur.mod).diesUp.contains (bits name 17 12) = true)
    (hf : first s = .ok ((), s1)) :
    counterInstr d op dk name amount free first s = .error (.park .mem true (counterAsked s1 op dk name amount free)) := by
  rw [counterInstr, bind_of_ok (here_ok s), hu]
  simp only
  rw [if_neg (by rw [ha]; exact Bool.false_ne_true), if_neg (by
    rintro ⟨h1, h2⟩
    rcases ho with h | h
    · exact h1 h
    · rw [h2] at h
      exact Bool.noConfusion h)]
  exact bind_of_ok hf

end

theorem sameWord_asked {t u : State} {n : Nat} (ht : SameWord s t) (hu : u.me = { t.me with asked := n :: t.me.asked })
    (hh : u.issue = t.issue) : SameWord s u := by
  obtain ⟨hg, hv, hk, hl, hpc, hhalf⟩ := ht
  refine ⟨?_, ?_, ?_, ?_, ?_, by rw [hh]; exact hhalf⟩
  iterate 5 rw [hu]; assumption

theorem parkWord_notes (t : State) (r : ParkReason) (sent : Bool) : (parkWord t r sent).notes = t.notes := by
  unfold parkWord
  split <;> rfl

/-- A word that asks a counter's die. -/
theorem counter_waits {i : Instr} {t : State} {op : CtrOp} {dk name amount : Nat} (ht : SameWord s t)
    (h : exec i s = finish s (.park .mem true (counterAsked t op dk name amount free))) :
    Waits i s .mem ∧ ∃ u, exec i s = .next u ∧ u.notes = t.notes ++ [.counter t.cur dk op name amount free t.tenant] :=
  ⟨waits_of_park h (sameWord_asked ht (modMe_me t fun x => { x with asked := askCounter :: x.asked }) rfl), _, h,
    parkWord_notes ..⟩

theorem completes_dcinit_answered (hu : unitAnswer s.me = some (c, v)) : Completes (.dcinit d a imm) s (wg s d (word v)) :=
  completes_of_ok rfl (bind_of_ok (counterInstr_answered hu))

theorem completes_dcinc_answered (hu : unitAnswer s.me = some (c, v)) : Completes (.dcinc d a b) s (wg s d (word v)) :=
  completes_of_ok rfl (bind_of_ok (counterInstr_answered hu))

theorem completes_dcdec_answered (hu : unitAnswer s.me = some (c, v)) (hs : s.fits sc) :
    Completes (.dcdec d a b sc free) s (wg s d (word v)) :=
  completes_of_ok rfl ((bind_of_ok (optScope_fits hs)).trans
    ((bind_of_ok (counterInstr_answered hu)).trans (noteScope_fits (wg_fits hs ..))))

section
variable (hu : unitAnswer s.me = none) (ha : hasAsked s.me askCounter = false)
include hu ha

theorem dcinit_asks : Waits (.dcinit d a imm) s .mem ∧ ∃ u, exec (.dcinit d a imm) s = .next u ∧
    u.notes = s.notes ++ [.counter s.cur s.cur.dieKey .init 0 (wrap 32 ((rg s a).toNat + imm.toInt)) false s.tenant] :=
  counter_waits (.refl s) (congrArg (finish s) (res_of_error
    (bind_of_error (counterInstr_asks hu ha (.inl rfl) rfl))))

section
variable (hd : (s.modOf s.cur.mod).diesUp.contains (bits ((rg s a).toNat % 2 ^ 18) 17 12) = true)
include hd

theorem dcinc_asks : Waits (.dcinc d a b) s .mem ∧ ∃ u, exec (.dcinc d a b) s = .next u ∧ u.notes = s.notes ++
    [.counter s.cur (ctrDie s.cur.mod ((rg s a).toNat % 2 ^ 18)) .inc ((rg s a).toNat % 2 ^ 18) (fld (rg s b) 31 0) false
      s.tenant] :=
  counter_waits (.refl s) (congrArg (finish s) (res_of_error
    (bind_of_error (counterInstr_asks hu ha (.inr hd) rfl))))

theorem dcdec_asks (hs : s.fits sc) (hr : if sc = .none then s1 = s else release sc s = .ok ((), s1)) :
    Waits (.dcdec d a b sc free) s .mem ∧ ∃ u, exec (.dcdec d a b sc free) s = .next u ∧ u.notes = s1.notes ++
      [.counter s1.cur (ctrDie s.cur.mod ((rg s a).toNat % 2 ^ 18)) .dec ((rg s a).toNat % 2 ^ 18) (fld (rg s b) 31 0) free
        s1.tenant] := by
  have hfirst : (if sc = .none then (pure () : Act Unit) else release sc) s = .ok ((), s1) := by
    by_cases hn : sc = .none
    · rw [if_pos hn] at hr ⊢
      rw [hr]
      rfl
    · rw [if_neg hn] at hr ⊢
      exact hr
  exact counter_waits (sameWord_of_freed hr) (congrArg (finish s) (res_of_error
    ((bind_of_ok (optScope_fits hs)).trans (bind_of_error (counterInstr_asks hu ha (.inr hd) hfirst)))))

end

section
variable (hd : ¬ (s.modOf s.cur.mod).diesUp.contains (bits ((rg s a).toNat % 2 ^ 18) 17 12) = true)
include hd

theorem completes_dcinc_absent : Completes (.dcinc d a b) s (wg s d (rejectWord 2)) :=
  completes_of_ok rfl (bind_of_ok (counterInstr_absent hu ha CtrOp.noConfusion (Bool.eq_false_iff.mpr hd)))

theorem completes_dcdec_absent (hs : s.fits sc) : Completes (.dcdec d a b sc free) s (wg s d (rejectWord 2)) :=
  completes_of_ok rfl ((bind_of_ok (optScope_fits hs)).trans
    (bind_of_ok (counterInstr_absent hu ha CtrOp.noConfusion (Bool.eq_false_iff.mpr hd))))

end
end

/-! ### TENQ and TDEQ (R360, R361) -/

theorem completes_tenq_answered (hu : unitAnswer s.me = some (c, v)) (hs : s.fits sc) :
    Completes (.tenq d a sc) s (wg s d (word v)) := by
  refine completes_of_ok rfl ?_
  rw [hu]
  refine (bind_of_ok (change_ok _ _)).trans ?_
  by_cases hv : v = 0
  · rw [if_pos hv]
    exact noteScope_fits (wg_fits hs ..)
  · rw [if_neg hv]
    rfl

section
variable {x D : Nat} (hu : unitAnswer s.me = none) (ha : hasAsked s.me askTask = false) (hx : addrOf (rg s a) = x)
include hu ha hx

theorem raises_tenq (hm : x % 32 ≠ 0) : Raises (.tenq d a sc) s .align x 0 := by
  refine raises_of_error rfl ?_
  rw [hu, hx]
  simp only
  rw [if_neg (by rw [ha]; exact Bool.false_ne_true)]
  exact bind_of_error (aligned_error hm)

/-- What TENQ does with the descriptor it has read. -/
def queueDesc (d : GReg) (sc S : Scope) (s : State) (D : Nat) : Act Unit :=
  if descOk D (launchClass s s.cur.mod s.tenant) = false then change fun t => wg t d (rejectWord 1)
  else if bitAt (dfield D 0x14 4) 31 && !ctrOk s s.cur.mod s.tenant (dfield D 0x14 4) then
    change fun t => wg t d (rejectWord 2)
  else do
    release S
    submit d (taskOf D s.tenant s.part s.cur.clu)
    noteScope sc

theorem exec_tenq (hm : x % 32 = 0) (hs : s.fits sc) (hl : load x 32 true s = .ok (D, s1)) :
    ∃ m, exec (.tenq d a sc) s = finish s (Act.res m s) ∧
      m s = queueDesc d sc (if sc = .none then narrowed s .pkg else sc) s D s1 := by
  refine ⟨_, rfl, ?_⟩
  rw [hu, hx]
  simp only
  rw [if_neg (by rw [ha]; exact Bool.false_ne_true)]
  exact (bind_of_ok (aligned_of_mod_eq_zero hm)).trans ((bind_of_ok (scopeOr_fits hs .pkg)).trans (bind_of_ok hl))

end

theorem queueDesc_bad {S : Scope} {D : Nat} (h : descOk D (launchClass s s.cur.mod s.tenant) = false) :
    queueDesc d sc S s D s1 = .ok ((), wg s1 d (rejectWord 1)) := by
  rw [queueDesc, if_pos h]
  exact change_ok _ _

section
variable {S : Scope} {D : Nat} (h : descOk D (launchClass s s.cur.mod s.tenant) = true)
include h

theorem queueDesc_unheld (hb : bitAt (dfield D 0x14 4) 31 = true) (hc : ctrOk s s.cur.mod s.tenant (dfield D 0x14 4) = false) :
    queueDesc d sc S s D s1 = .ok ((), wg s1 d (rejectWord 2)) := by
  rw [queueDesc, if_neg (by rw [h]; exact Bool.noConfusion), if_pos (by rw [hb, hc]; rfl)]
  exact change_ok _ _

variable (hc : bitAt (dfield D 0x14 4) 31 = true → ctrOk s s.cur.mod s.tenant (dfield D 0x14 4) = true)
  (hr : release S s1 = .ok ((), s2))
include hc hr

theorem queueDesc_submits : queueDesc d sc S s D s1 = (submit d (taskOf D s.tenant s.part s.cur.clu) >>= fun _ => noteScope sc) s2 := by
  rw [queueDesc, if_neg (by rw [h]; exact Bool.noConfusion), if_neg (by
    rw [Bool.and_eq_true]
    rintro ⟨hb, hn⟩
    rw [hc hb] at hn
    exact Bool.noConfusion hn)]
  exact bind_of_ok hr

end

section
variable {t : QTask} (hd : (if bitAt t.wait 31 then ctrDie s.cur.mod t.wait else s.cur.dieKey) = s.cur.dieKey)
include hd

theorem submit_full (hf : storeFull s s.cur.dieKey t.task.tenant = true) : submit d t s = .error (.park .engine false s) := by
  unfold submit
  simp only [hd]
  rw [if_neg (not_not_intro rfl), if_pos hf]

theorem submit_queues (hf : storeFull s s.cur.dieKey t.task.tenant = false) : submit d t s =
    .ok ((), wg (if bitAt t.wait 31 then placeWaiting s s.cur.dieKey t else enqueue s s.cur.dieKey t) d 0) := by
  unfold submit
  simp only [hd]
  rw [if_neg (not_not_intro rfl), if_neg (by rw [hf]; exact Bool.false_ne_true)]

end

section
variable (hsup : s.super = true)
include hsup

theorem raises_tdeq (hm : addrOf (rg s a) % 32 ≠ 0) : Raises (.tdeq d a b) s .align (addrOf (rg s a)) 1 :=
  raises_of_error rfl ((bind_of_ok (needSuper_super hsup)).trans (bind_of_error (aligned_error hm)))

variable (hm : addrOf (rg s a) % 32 = 0)
include hm

theorem completes_tdeq_none
    (hh : ((List.range 400).findSome? fun i => (readyList (s.dieOf s.cur.dieKey) i (fld (rg s b) 5 0)).head?) = none) :
    Completes (.tdeq d a b) s (wg s d (rejectWord 5)) := by
  refine completes_of_ok rfl ((bind_of_ok (needSuper_super hsup)).trans ((bind_of_ok (aligned_of_mod_eq_zero hm)).trans ?_))
  rw [hh]
  exact change_ok _ _

theorem completes_tdeq {t : QTask}
    (hh : ((List.range 400).findSome? fun i => (readyList (s.dieOf s.cur.dieKey) i (fld (rg s b) 5 0)).head?) = some t)
    (hst : store (addrOf (rg s a)) 32 (descOf t) true s = .ok ((), s1)) :
    Completes (.tdeq d a b) s (wg (takeTask (unlist s1 s.cur.dieKey t.serial) s.cur.dieKey t.serial) d 0) := by
  refine completes_of_ok rfl ((bind_of_ok (needSuper_super hsup)).trans ((bind_of_ok (aligned_of_mod_eq_zero hm)).trans ?_))
  rw [hh]
  exact (bind_of_ok hst).trans (change_ok _ _)

end

/-! ### The end of a task (R363) -/

theorem endTask_busy (h : matrixBusy s s.cur = true ∨ ixBusy s s.cur = true) : endTask sc s = .error (.park .engine false s) := by
  rw [endTask, bind_of_ok (here_ok s), if_pos (by rw [Bool.or_eq_true]; exact h)]
  rfl

theorem endTask_released (hb : matrixBusy s s.cur = false) (hx : ixBusy s s.cur = false) (hs : s.fits sc)
    (hr : release (if sc = .none then narrowed s .pkg else sc) s = .ok ((), s1)) : endTask sc s = .ok ((), s1) := by
  rw [endTask, bind_of_ok (here_ok s), if_neg (by rw [hb, hx]; exact Bool.false_ne_true)]
  exact (bind_of_ok (scopeOr_fits hs .pkg)).trans hr

/-- An instruction whose meaning leaves its slot. -/
theorem gone_of_error {i : Instr} {m : Act Unit} {t : State} (h : exec i s = finish s (m.res s)) (hm : m s = .error (.gone t)) :
    exec i s = .next (markGone t) :=
  h.trans (congrArg (finish s) (res_of_error hm))

theorem texit_gone (he : endTask sc s = .ok ((), s1)) : exec (.texit sc) s =
    .next (markGone (vacate (releaseCounter (quitGroups s1 s1.cur) s1.cur) s1.cur)) :=
  gone_of_error rfl (bind_of_ok he)

theorem tyield_gone (he : endTask sc s = .ok ((), s1)) (hf : storeFull s1 s1.cur.dieKey s1.tenant = false) :
    exec (.tyield a b sc) s = .next (markGone (enqueue (vacate s1 s1.cur) s1.cur.dieKey
      (continuation s1 (rg s a) (fld (rg s b) 31 0)))) := by
  refine gone_of_error rfl ((bind_of_ok he).trans ?_)
  rw [if_neg (by rw [hf]; exact Bool.false_ne_true)]

theorem waits_tyield_full (he : endTask sc s = .ok ((), s1)) (hw : SameWord s s1)
    (hf : storeFull s1 s1.cur.dieKey s1.tenant = true) : Waits (.tyield a b sc) s .engine :=
  waits_of_error (sent := false) rfl ((bind_of_ok he).trans (if_pos hf)) hw

end

/-- Settles O47: the answer, then the operands, then the store, the counter and the release decide. -/
theorem tasks : Obligations.Tasks := by
  unfold Obligations.Tasks
  intro d a b imm sc free s s1 s2 c v D t x S own wait task name amount there new queued dst ended freed heads
  refine ⟨fun hu hs => ⟨completes_tenq_answered hu hs, completes_dcdec_answered hu hs, completes_dcinit_answered hu,
      completes_dcinc_answered hu⟩,
    fun hu ha => ⟨raises_tenq hu ha rfl, fun hm hs hl => ?_⟩, fun h => raises_priv h rfl, fun hsup => raises_tdeq hsup,
    fun hsup hm => ⟨completes_tdeq_none hsup hm, completes_tdeq hsup hm⟩, fun hn => dcinit_asks hn.1 hn.2,
    fun hn => dcinc_asks hn.1 hn.2, fun hn hd hs => ⟨completes_dcinc_absent hn.1 hn.2 hd, completes_dcdec_absent hn.1 hn.2 hd hs⟩,
    fun hn => dcdec_asks hn.1 hn.2, fun ⟨hb, hx, hs, hr⟩ => texit_gone (endTask_released hb hx hs hr),
    fun ⟨hb, hx, hs, hr⟩ => tyield_gone (endTask_released hb hx hs hr),
    fun ⟨hb, hx, hs, hr⟩ => waits_tyield_full (endTask_released hb hx hs hr) (sameWord_of_stores (release_ok hr)),
    fun h => ⟨waits_of_error (sent := false) rfl (bind_of_error (endTask_busy h)) (.refl s),
      waits_of_error (sent := false) rfl (bind_of_error (endTask_busy h)) (.refl s)⟩⟩
  obtain ⟨m, hi, hrun⟩ := exec_tenq (sc := sc) (d := d) hu ha rfl hm hs hl
  refine ⟨fun h => completes_of_ok hi (hrun.trans (queueDesc_bad h)), fun h =>
    ⟨fun hb hc => completes_of_ok hi (hrun.trans (queueDesc_unheld h hb hc)), fun hc hr hdst hcur => ?_⟩⟩
  have hgo := hrun.trans (queueDesc_submits (d := d) (sc := sc) h hc hr)
  have hdie : (if bitAt task.wait 31 then ctrDie s2.cur.mod task.wait else s2.cur.dieKey) = s2.cur.dieKey := by
    rw [hcur]
    exact hdst
  have hown : s2.cur.dieKey = own := congrArg Place.dieKey hcur
  rw [← hown]
  refine ⟨fun hf hfit => completes_of_ok hi (hgo.trans ((bind_of_ok (submit_queues hdie hf)).trans ?_)), fun hf => ?_⟩
  · rw [hown]
    exact noteScope_fits hfit
  · obtain ⟨u, hu, he⟩ := Order.parks_of_error hi (hgo.trans (bind_of_error (submit_full hdie hf)))
    exact ⟨u, false, hu, he⟩

end Sys2Proof.Proofs.TaskWords
end

section
/-! SUPPORT. The canonical form of the memories (log 5): what a change of a module, a cluster, a core or anything else does
to it. -/

namespace Sys2Proof.Proofs.MemForm

open Sys2Proof Sys2Proof.Machine Sys2Proof.Laws

theorem memWf_iff {s : State} : s.memWf = true ↔ (∀ e ∈ s.mods, e.2.wf = true) ∧ (∀ e ∈ s.clusters, e.2.spad.wf = true) ∧
    ∀ e ∈ s.cores, e.2.tcm.wf = true := by
  rw [State.memWf, Bool.and_eq_true, Bool.and_eq_true, List.all_eq_true, List.all_eq_true, List.all_eq_true, and_assoc]

theorem module_wf_iff {x : Module} : x.wf = true ↔ x.dram.wf = true ∧ x.host.wf = true ∧ ∀ e ∈ x.pinned, e.2.wf = true := by
  rw [Module.wf, Bool.and_eq_true, Bool.and_eq_true, List.all_eq_true, and_assoc]

/-- A listed value is put in place of another: a property of all values stays. -/
theorem forall_fset {α : Type} {P : α → Prop} {m : List (Nat × α)} {k : Nat} {x : α} (h : ∀ e ∈ m, P e.2) (hx : P x) :
    ∀ e ∈ fset m k x, P e.2 := by
  intro e he
  rcases mem_fset m k x e he with hm | rfl
  · exact h e hm
  · exact hx

theorem fget_of_forall {α : Type} {P : α → Prop} {d : α} {m : List (Nat × α)} (h : ∀ e ∈ m, P e.2) (hd : P d) (k : Nat) :
    P (fget d m k) := by
  rcases fget_mem d m k with he | ⟨e, hm, he⟩
  · rw [he]
    exact hd
  · rw [← he]
    exact h e hm

/-- A step that keeps the canonical form. -/
def Keeps (s t : State) : Prop := s.memWf = true → t.memWf = true

namespace Keeps

variable {s t u : State}

theorem refl (s : State) : Keeps s s := id

theorem trans (h : Keeps s t) (g : Keeps t u) : Keeps s u := fun hs => g (h hs)

theorem of_eq (hm : t.mods = s.mods) (hc : t.clusters = s.clusters) (hk : t.cores = s.cores) : Keeps s t := by
  intro h
  rw [memWf_iff] at h ⊢
  rwa [hm, hc, hk]

theorem modMod {k : Nat} {f : Module → Module} (h : ∀ x, x.wf = true → (f x).wf = true) : Keeps s (s.modMod k f) := by
  intro hs
  rw [memWf_iff] at hs ⊢
  obtain ⟨hm, hc, hk⟩ := hs
  exact ⟨forall_fset (P := fun x : Module => x.wf = true) hm (h _ (fget_of_forall (P := fun x : Module => x.wf = true) hm rfl k)), hc, hk⟩

theorem modClu {k : Nat} {f : Cluster → Cluster} (h : ∀ c, c.spad.wf = true → (f c).spad.wf = true) : Keeps s (s.modClu k f) := by
  intro hs
  rw [memWf_iff] at hs ⊢
  obtain ⟨hm, hc, hk⟩ := hs
  exact ⟨hm, forall_fset (P := fun c : Cluster => c.spad.wf = true) hc
    (h _ (fget_of_forall (P := fun c : Cluster => c.spad.wf = true) hc rfl k)), hk⟩

theorem modCore {k : Nat} {f : Core → Core} (h : ∀ c, c.tcm.wf = true → (f c).tcm.wf = true) : Keeps s (s.modCore k f) := by
  intro hs
  rw [memWf_iff] at hs ⊢
  obtain ⟨hm, hc, hk⟩ := hs
  exact ⟨hm, hc, forall_fset (P := fun c : Core => c.tcm.wf = true) hk
    (h _ (fget_of_forall (P := fun c : Core => c.tcm.wf = true) hk rfl k))⟩

theorem foldl {α : Type} {f : State → α → State} (h : ∀ t a, Keeps t (f t a)) (l : List α) (s : State) :
    Keeps s (l.foldl f s) := by
  induction l generalizing s with
  | nil => exact refl s
  | cons a l ih => exact (h s a).trans (ih _)

end Keeps

end Sys2Proof.Proofs.MemForm
end

section
/-! SUPPORT. The home slices' accesses by hardware and engines (R304-R316, R396-R399, R418): a read or a write there leaves
every strand and the executing bundle alone, and keeps the canonical form of the memories. -/

namespace Sys2Proof.Proofs.HomeAccess

open Sys2Proof Sys2Proof.Machine Sys2Proof.Laws Sys2Proof.Proofs.MemForm

/-- What happens beside the strands. -/
structure Aside (s t : State) : Prop where
  cur : t.cur = s.cur
  issue : t.issue = s.issue
  strands : t.strands = s.strands
  keeps : Keeps s t

namespace Aside

variable {s t u : State}

theorem refl (s : State) : Aside s s := ⟨rfl, rfl, rfl, .refl s⟩

theorem trans (h : Aside s t) (g : Aside t u) : Aside s u :=
  ⟨g.cur.trans h.cur, g.issue.trans h.issue, g.strands.trans h.strands, h.keeps.trans g.keeps⟩

theorem modDie (s : State) (k : Nat) (f : Die → Die) : Aside s (s.modDie k f) := ⟨rfl, rfl, rfl, .of_eq rfl rfl rfl⟩

theorem modMod {k : Nat} {f : Module → Module} (h : ∀ x, x.wf = true → (f x).wf = true) : Aside s (s.modMod k f) :=
  ⟨rfl, rfl, rfl, .modMod h⟩

theorem modClu {k : Nat} {f : Cluster → Cluster} (h : ∀ c, c.spad.wf = true → (f c).spad.wf = true) : Aside s (s.modClu k f) :=
  ⟨rfl, rfl, rfl, .modClu h⟩

theorem modCore {k : Nat} {f : Core → Core} (h : ∀ c, c.tcm.wf = true → (f c).tcm.wf = true) : Aside s (s.modCore k f) :=
  ⟨rfl, rfl, rfl, .modCore h⟩

theorem spawn (s : State) (e : Event) : Aside s (s.spawn e) := ⟨rfl, rfl, rfl, .of_eq rfl rfl rfl⟩

theorem spawns (s : State) (es : List Event) : Aside s (s.spawns es) := ⟨rfl, rfl, rfl, .of_eq rfl rfl rfl⟩

theorem choice (s : State) (n : Nat) : Aside s (s.choice n).2 := ⟨rfl, rfl, rfl, .of_eq rfl rfl rfl⟩

end Aside

/-! ### Frames between packages (R396-R399) -/

theorem countFrame_aside (s : State) (m pd kid : Nat) : Aside s (countFrame s m pd kid) := by
  unfold countFrame State.modPort
  exact .modMod fun _ h => h

theorem sendFrame_aside {s t : State} {m pkg kid hash : Nat} {prev : Option Nat} {f : Machine.Frame}
    (h : sendFrame s m pkg kid prev hash = some (f, t)) : Aside s t := by
  unfold sendFrame at h
  split at h
  · cases h
  · cases h
    exact countFrame_aside ..

theorem crossOnce_aside {s t : State} {m pkg kid : Nat} (h : crossOnce s m pkg kid = .ok t) : Aside s t := by
  unfold crossOnce at h
  simp only at h
  split at h
  · cases h
  · next f s1 hf =>
    split at h
    · cases h
    · split at h
      · cases h
      · cases h
        exact (sendFrame_aside hf).trans (.choice ..)

theorem crossing_aside {s t : State} {frm dst kid : Nat} (h : crossing s frm dst kid = .ok t) : Aside s t := by
  unfold crossing at h
  split at h
  · cases h
  · next s1 h1 => exact (crossOnce_aside h1).trans (crossOnce_aside h)

/-! ### The L2 slices and DRAM (R304-R307) -/

theorem dramWrite_wf {x : Module} (phys mask data poison : Nat) (h : x.wf = true) : (dramWrite x phys mask data poison).wf = true := by
  rw [module_wf_iff] at h ⊢
  obtain ⟨hd, hh, hp⟩ := h
  exact ⟨writeMask_wf _ _ _ _ _ hd, hh, hp⟩

theorem l2WriteBack_wf {x : Module} (v : L2Line) (h : x.wf = true) : (l2WriteBack x v).wf = true := by
  unfold l2WriteBack
  split
  · exact h
  · next ph _ =>
    generalize v.secs = l
    induction l generalizing x with
    | nil => exact h
    | cons e l ih => exact ih (dramWrite_wf _ _ _ _ h)

theorem l2Alloc_aside {s t : State} {m dk slice set tenant line phys : Nat} {at' : Attr} {ln : L2Line}
    (h : l2Alloc s m dk slice set tenant line phys at' = some (ln, t)) : Aside s t := by
  unfold l2Alloc at h
  simp only at h
  split at h
  · cases h
    exact .refl s
  · split at h
    · cases h
    · next v _ =>
      cases h
      exact (Aside.modMod fun x hx => l2WriteBack_wf v hx).trans (.modDie ..)

theorem serveRead_aside (s : State) (m tenant a : Nat) (at' : Attr) (phys : Nat) (alloc : Bool) :
    Aside s (serveRead s m tenant a at' phys alloc).2.2 := by
  unfold serveRead
  simp only
  split
  · dsimp only
    exact .modDie ..
  · split
    · split
      · next ha =>
        dsimp only
        exact (l2Alloc_aside ha).trans (.modDie ..)
      · exact .refl s
    · exact .refl s

theorem requeueLine_aside (s : State) (m a : Nat) : Aside s (requeueLine s m a) := by
  unfold requeueLine
  simp only
  split
  · exact .modMod fun _ h => h
  · exact .refl s

theorem serveWrite_aside (s : State) (m tenant a : Nat) (at' : Attr) (phys mask data poison : Nat) :
    Aside s (serveWrite s m tenant a at' phys mask data poison) := by
  refine (requeueLine_aside s m a).trans ?_
  unfold serveWrite
  simp only
  split
  · exact .modDie ..
  · split
    · split
      · next ha => exact (l2Alloc_aside ha).trans (.modDie ..)
      · exact .modMod fun _ h => dramWrite_wf _ _ _ _ h
    · exact .modMod fun _ h => dramWrite_wf _ _ _ _ h

/-! ### Page walks (R309-R314) -/

theorem freshLeaf_aside (s : State) (m tenant a : Nat) : Aside s (freshLeaf s m tenant a).2 := by
  unfold freshLeaf
  split
  · exact .refl s
  · dsimp only [cacheLeaf]
    exact .modDie ..

theorem leafFor_aside (s : State) (m tenant a : Nat) : Aside s (leafFor s m tenant a).2 := by
  unfold leafFor
  split
  · exact .refl s
  · exact .refl s
  · exact freshLeaf_aside ..

/-! ### Holders of parts (R418) -/

theorem followLeaf_aside {rest : State → Nat → Except Fail (Target × State)} {s t : State} {m kid tenant a l : Nat} {x : Target}
    (hrest : ∀ {u m' y v}, rest u m' = .ok (y, v) → Aside u v) (h : followLeaf rest s m kid tenant a l = .ok (x, t)) : Aside s t := by
  unfold followLeaf at h
  simp only at h
  split at h
  · cases h
  · cases h
  · cases h
  · split at h
    · cases h
    · split at h
      · cases h
      · split at h
        · cases h
        · next hc =>
          split at h
          · cases h
          · next hr =>
            cases h
            exact (crossing_aside hc).trans (hrest hr)
  · split at h
    · cases h
    · cases h
      exact .refl s

theorem follow_aside (fuel : Nat) : ∀ {guest : Bool} {s t : State} {m kid tenant a : Nat} {x : Target},
    follow fuel guest s m kid tenant a = .ok (x, t) → Aside s t := by
  induction fuel with
  | zero =>
    intro guest s t m kid tenant a x h
    cases h
  | succ fuel ih =>
    intro guest s t m kid tenant a x h
    have hby : ∀ {l : Option Nat} {u v : State} {y : Target}, (match l with
        | none => .error .poison
        | some z => if guest && !leafV z then .error .unanswered
          else followLeaf (fun t k => follow fuel true t k kid tenant a) u m kid tenant a z) = Except.ok (y, v) → Aside u v := by
      intro l u v y hl
      split at hl
      · cases hl
      · split at hl
        · cases hl
        · exact followLeaf_aside ih hl
    have h0 := leafFor_aside s m tenant a
    unfold follow at h
    simp only at h
    split at h
    · exact (h0.trans (freshLeaf_aside ..)).trans (hby h)
    · split at h
      · next hr =>
        cases h
        exact h0.trans (hby hr)
      · split at h
        · split at h
          · cases h
          · exact (h0.trans (freshLeaf_aside ..)).trans (hby h)
        · cases h

theorem targetBy_aside {kid : Nat} {s t : State} {m tenant a : Nat} {x : Target} (h : targetBy kid s m tenant a = .ok (x, t)) :
    Aside s t := by
  unfold targetBy at h
  split at h
  · split at h
    · cases h
      exact .refl s
    · cases h
  · exact follow_aside 4 h

theorem readTarget_aside {s u : State} {t : Target} {tenant a data poison : Nat}
    (h : readTarget s t tenant a = .ok (data, poison, u)) : Aside s u := by
  unfold readTarget at h
  split at h
  · next phys dup _ =>
    have hr := serveRead_aside s t.mod tenant a t.home phys true
    rw [Except.ok.inj h] at hr
    exact hr
  · rw [← (Prod.mk.inj (Prod.mk.inj (Except.ok.inj h)).2).2]
    exact .refl s
  · split at h
    · rw [← (Prod.mk.inj (Prod.mk.inj (Except.ok.inj h)).2).2]
      exact .refl s
    · cases h
  · cases h
  · cases h
  · cases h
  · cases h

theorem writeTarget_aside {s u : State} {t : Target} {tenant a mask data poison : Nat}
    (h : writeTarget s t tenant a mask data poison = .ok u) : Aside s u := by
  unfold writeTarget at h
  split at h
  · cases h
    exact serveWrite_aside ..
  · cases h
    refine .modMod fun x hx => ?_
    rw [module_wf_iff] at hx ⊢
    obtain ⟨hd, hh, hp⟩ := hx
    exact ⟨hd, hh, forall_fset (P := fun y : Memory => y.wf = true) hp
      (writeMask_wf _ _ _ _ _ (fget_of_forall (P := fun y : Memory => y.wf = true) hp rfl tenant))⟩
  · split at h
    · cases h
      refine .modMod fun x hx => ?_
      rw [module_wf_iff] at hx ⊢
      obtain ⟨hd, hh, hp⟩ := hx
      exact ⟨hd, writeMask_wf _ _ _ _ _ hh, hp⟩
    · cases h
  · cases h
  · cases h
  · cases h
  · cases h

/-! ### The checks of an engine's access (R153, R316) -/

theorem logErr_aside (s : State) (dk vf kind addr : Nat) : Aside s (s.logErr dk vf kind addr) := .modDie ..

theorem rightsByte_aside {s t : State} {m tenant dom r : Nat} (h : rightsByte s m tenant dom = .ok (r, t)) : Aside s t := by
  unfold rightsByte at h
  simp only at h
  split at h
  · cases h
    exact .refl s
  · split at h
    · cases h
      exact logErr_aside ..
    · split at h
      · cases h
      · cases h
        exact .refl s
    · next ht =>
      split at h
      · cases h
        exact targetBy_aside ht
      · next hr =>
        split at h
        · cases h
        · cases h
          exact (targetBy_aside ht).trans (readTarget_aside hr)

theorem sysTargetBy_aside {kid : Nat} {s t : State} {m tenant a : Nat} {kind : Access} {x : Target}
    (h : sysTargetBy kid s m tenant a kind = .ok (x, t)) : Aside s t := by
  unfold sysTargetBy at h
  split at h
  · cases h
  · next ht =>
    split at h
    · cases h
      exact targetBy_aside ht
    · exact (((targetBy_aside ht).trans (freshLeaf_aside ..)).trans (freshLeaf_aside ..)).trans (targetBy_aside h)

theorem sysRights_aside {s t : State} {m tenant dom a : Nat} {priv : Bool} {kind : Access}
    (h : sysRights s m tenant priv dom a kind = .ok t) : Aside s t := by
  unfold sysRights at h
  split at h
  · split at h
    · cases h
      exact .refl s
    · cases h
  · split at h
    · cases h
    · next hr =>
      split at h
      · cases h
        exact rightsByte_aside hr
      · cases h

theorem sysCheck_aside {s u : State} {m tenant a : Nat} {priv : Bool} {kind : Access} {t : Target}
    (h : sysCheck s m tenant priv kind t a = .ok u) : Aside s u := by
  unfold sysCheck at h
  split at h
  · cases h
  · next hr =>
    split at h
    · cases h
    · split at h
      · cases h
      · split at h
        · cases h
        · cases h
          exact sysRights_aside hr

theorem placedSys_aside {s t : State} {m tenant a part : Nat} {priv : Bool} {kind : Access}
    (h : placedSys s m tenant a part priv kind = .ok t) : Aside s t := by
  unfold placedSys at h
  simp only at h
  split at h
  · cases h
  · split at h
    · split at h
      · cases h
      · split at h
        · cases h
        · exact sysRights_aside h
    · split at h
      · split at h
        · exact sysRights_aside h
        · cases h
      · split at h
        · cases h
        · split at h
          · cases h
          · exact sysRights_aside h

/-! ### Reads and writes by engines (R244, R316) -/

theorem fireMonitors_aside (s : State) (k a n : Nat) : Aside s (fireMonitors s k a n) := by
  unfold fireMonitors
  exact (Aside.spawns s _).trans (.spawns _ _)

theorem placedRead_aside {s t : State} {m tenant a n part x : Nat} {priv : Bool}
    (h : placedRead s m tenant a n part priv = .ok (x, t)) : Aside s t := by
  unfold placedRead at h
  split at h
  · cases h
  · next s1 hs =>
    have hgive : ∀ {mem : Memory} {bad : List Nat} {off : Nat}, (match firstPoison bad off n with
        | some i => Except.error (Fail.poison, a + i)
        | none => .ok (Memory.readN mem off n, s1)) = .ok (x, t) → t = s1 := by
      intro mem bad off hg
      split at hg
      · cases hg
      · cases hg
        rfl
    have ht : t = s1 := by
      simp only at h
      split at h
      · exact hgive h
      · split at h
        · split at h
          · cases h
          · cases h
            rfl
          · cases h
        · exact hgive h
    rw [ht]
    exact placedSys_aside hs

theorem placedWrite_aside {s t : State} {m tenant a n x part : Nat} {priv : Bool}
    (h : placedWrite s m tenant a n x part priv = .ok t) : Aside s t := by
  unfold placedWrite at h
  split at h
  · cases h
  · next hs =>
    refine (placedSys_aside hs).trans ?_
    simp only at h
    split at h
    · cases h
      exact Aside.trans (.modCore fun c hc => writeN_wf _ _ _ _ hc) (fireMonitors_aside ..)
    · cases h
      exact Aside.trans (.modClu fun c hc => writeN_wf _ _ _ _ hc) (fireMonitors_aside ..)

theorem sysReadSec_aside {kid : Nat} {s t : State} {m tenant part a n x : Nat} {priv : Bool}
    (h : sysReadSec kid s m tenant part priv a n = .ok (x, t)) : Aside s t := by
  unfold sysReadSec at h
  split at h
  · exact placedRead_aside h
  · split at h
    · cases h
    · next ht =>
      split at h
      · cases h
      · next hc =>
        split at h
        · cases h
        · next hr =>
          split at h
          · cases h
          · cases h
            exact ((sysTargetBy_aside ht).trans (sysCheck_aside hc)).trans (readTarget_aside hr)

theorem sysReadBy_aside {kid m tenant part : Nat} {priv : Bool} (fuel : Nat) : ∀ {s t : State} {a n x : Nat},
    sysReadBy kid fuel s m tenant part priv a n = .ok (x, t) → Aside s t := by
  induction fuel with
  | zero =>
    intro s t a n x h
    cases h
    exact .refl s
  | succ fuel ih =>
    intro s t a n x h
    unfold sysReadBy at h
    simp only at h
    split at h
    · cases h
      exact .refl s
    · split at h
      · cases h
      · next h1 =>
        split at h
        · cases h
        · next h2 =>
          cases h
          exact (sysReadSec_aside h1).trans (ih h2)

theorem sysWriteSec_aside {kid : Nat} {s t : State} {m tenant part a n x : Nat} {priv : Bool}
    (h : sysWriteSec kid s m tenant part priv a n x = .ok t) : Aside s t := by
  unfold sysWriteSec at h
  split at h
  · exact placedWrite_aside h
  · split at h
    · cases h
    · next ht =>
      split at h
      · cases h
      · next hc =>
        split at h
        · cases h
        · next hw =>
          cases h
          exact ((sysTargetBy_aside ht).trans (sysCheck_aside hc)).trans (writeTarget_aside hw)

theorem sysWriteBy_aside {kid m tenant part : Nat} {priv : Bool} (fuel : Nat) : ∀ {s t : State} {a n x : Nat},
    sysWriteBy kid fuel s m tenant part priv a n x = .ok t → Aside s t := by
  induction fuel with
  | zero =>
    intro s t a n x h
    cases h
    exact .refl s
  | succ fuel ih =>
    intro s t a n x h
    unfold sysWriteBy at h
    simp only at h
    split at h
    · cases h
      exact .refl s
    · split at h
      · cases h
      · next h1 => exact (sysWriteSec_aside h1).trans (ih h)

end Sys2Proof.Proofs.HomeAccess
end

section
/-! SUPPORT. Trap entry (R92, R93, R97): TRAP and the double trap, and what the entry makes of SSTAT and of the program
counter. -/

namespace Sys2Proof.Proofs.TrapEntries

open Sys2Proof Sys2Proof.Machine Sys2Proof.Laws Sys2Proof.Proofs.MemForm Sys2Proof.Proofs.HomeAccess
  Sys2Proof.Proofs.Fields

/-! ### SSTAT and the handler (R93) -/

section
variable (st : Word)

theorem trapStat_pmode : fld (trapStat st) 3 3 = fld st 0 0 := by
  rw [trapStat, fld_setFld_other _ _ _ _ _ _ (by decide) (by decide), fld_setFld_other _ _ _ _ _ _ (by decide) (by decide),
    fld_setFld_other _ _ _ _ _ _ (by decide) (by decide), fld_setFld_other _ _ _ _ _ _ (by decide) (by decide),
    fld_setFld_same _ _ _ _ (by decide)]
  exact Nat.mod_mod ..

theorem trapStat_pie : fld (trapStat st) 2 2 = fld st 1 1 := by
  rw [trapStat, fld_setFld_other _ _ _ _ _ _ (by decide) (by decide), fld_setFld_other _ _ _ _ _ _ (by decide) (by decide),
    fld_setFld_other _ _ _ _ _ _ (by decide) (by decide), fld_setFld_same _ _ _ _ (by decide)]
  exact Nat.mod_mod ..

theorem trapStat_mode : fld (trapStat st) 0 0 = 1 := by
  rw [trapStat, fld_setFld_other _ _ _ _ _ _ (by decide) (by decide), fld_setFld_other _ _ _ _ _ _ (by decide) (by decide),
    fld_setFld_same _ _ _ _ (by decide)]
  rfl

theorem trapStat_ie : fld (trapStat st) 1 1 = 0 := by
  rw [trapStat, fld_setFld_other _ _ _ _ _ _ (by decide) (by decide), fld_setFld_same _ _ _ _ (by decide)]
  rfl

theorem trapStat_tl : fld (trapStat st) 6 6 = 1 := by
  rw [trapStat, fld_setFld_same _ _ _ _ (by decide)]
  rfl

/-- The entry leaves every field beside MODE, IE, PIE, PMODE and TL. -/
theorem trapStat_other {h l : Nat} (hh : h < 64) (hd : (3 < l ∧ h < 6) ∨ 6 < l) : fld (trapStat st) h l = fld st h l := by
  rw [trapStat, fld_setFld_other _ _ _ _ _ _ hh (by omega), fld_setFld_other _ _ _ _ _ _ hh (by omega),
    fld_setFld_other _ _ _ _ _ _ hh (by omega), fld_setFld_other _ _ _ _ _ _ hh (by omega),
    fld_setFld_other _ _ _ _ _ _ hh (by omega)]

end

theorem vector_direct {evec : Word} (code : Nat) (h : bitAt evec.toNat 0 = false) :
    vector evec code = word (fld evec 55 3 * 8) := by
  unfold vector
  simp only
  rw [if_neg (by rw [h]; exact Bool.false_ne_true)]
  rfl

theorem vector_vectored {evec : Word} (code : Nat) (h : bitAt evec.toNat 0 = true) :
    vector evec code = word (fld evec 55 3 * 8 + 8 * code) := by
  unfold vector
  simp only
  rw [if_pos h]
  rfl

/-! ### Posts to a fault queue (R317) -/

/-- A strand without its pending sources. -/
def unposted (x : Strand) : Strand := { x with csr := { x.csr with ipend := 0 } }

/-- What posts leave: the executing word, and every strand but its pending sources. -/
structure Posted (s t : State) : Prop where
  cur : t.cur = s.cur
  strand : ∀ p : Place, unposted (t.strand p) = unposted (s.strand p)

theorem Posted.of_aside {s t : State} (h : Aside s t) : Posted s t := ⟨h.cur, fun p => by rw [State.strand, h.strands]; rfl⟩

theorem Posted.trans {s t u : State} (h : Posted s t) (g : Posted t u) : Posted s u :=
  ⟨g.cur.trans h.cur, fun p => (g.strand p).trans (h.strand p)⟩

theorem raiseFaultPost_posted (s : State) (m vf : Nat) : Posted s (raiseFaultPost s m vf) := by
  refine ⟨rfl, fun p => Inval.fget_map_part (part := unposted) (fun e => ?_) (fun e => ?_) s.strands p.key⟩
  · unfold faultPostBit
    split <;> rfl
  · unfold faultPostBit
    split <;> rfl

theorem tryPost_posted {s t : State} {m : Nat} {p : Post} (h : tryPost s m p = .ok t) : Posted s t := by
  unfold tryPost at h
  simp only at h
  split at h
  · cases h
  · split at h
    · cases h
    · next hr =>
      split at h
      · cases h
      · split at h
        · cases h
        · next hw =>
          split at h
          · cases h
          · next hw' =>
            cases h
            exact (Posted.of_aside (((sysReadBy_aside _ hr).trans (sysWriteBy_aside _ hw)).trans
              (sysWriteBy_aside _ hw'))).trans (raiseFaultPost_posted ..)

theorem logMalformed_aside (s : State) (m vf : Nat) (e : Fail × Nat) : Aside s (logMalformed s m vf e) := by
  unfold logMalformed
  split
  · exact logErr_aside ..
  · exact .refl s

theorem postFault_posted (s : State) (m dk : Nat) (p : Post) : Posted s (postFault s m dk p) := by
  have hwait : ∀ t : State, Posted t (((t.modMod m fun x => { x with posts := x.posts ++ [p] }).count dk 9).logErr dk p.vf 12 p.addr) :=
    fun t => ⟨rfl, fun _ => rfl⟩
  unfold postFault
  simp only
  split
  · exact hwait s
  · split
    · next h => exact tryPost_posted h
    · exact (hwait s).trans ⟨rfl, fun _ => rfl⟩
    · exact ((Posted.of_aside (logMalformed_aside ..)).trans (hwait _)).trans ⟨rfl, fun _ => rfl⟩

/-! ### The double trap (R97) -/

/-- The strand of a slot that is Parked for good. -/
def doubled (x : Strand) : Strand :=
  { x with st := .parked .doubleTrap, dbl := true, begun := none, banked := none, resps := [], asked := [], probes := []
           askedAt := [], token := none, absAt := none }

theorem doubleTrap_strand (s : State) (p : Place) (c : Cause) (bundle : Nat) :
    unposted ((doubleTrap s p c bundle).strand p) = unposted (doubled ((leaveCourse s p false).strand p)) := by
  unfold doubleTrap
  refine ((postFault_posted ..).strand p).trans (congrArg unposted ?_)
  exact modStrand_strand (leaveCourse s p false) p doubled

theorem doubleTrap_cur (s : State) (p : Place) (c : Cause) (bundle : Nat) : (doubleTrap s p c bundle).cur = s.cur := by
  obtain ⟨-, -, -, -, -, hcur⟩ := leaveCourse_frame s p false
  unfold doubleTrap
  exact (postFault_posted ..).cur.trans hcur

/-- The state of a strand when its cause has been logged: all but its packet and its pending errors stand. -/
theorem logged_settled (s : State) (c : Cause) (addr : Nat) (hc : c ≠ .dataError) :
    settled ((logCause (abandon s s.cur) s.cur c addr).strand s.cur) = settled s.me ∧
      (logCause (abandon s s.cur) s.cur c addr).cur = s.cur := by
  obtain ⟨b1, -, -, -, -, b6⟩ := abandon_frame s s.cur
  obtain ⟨c1, -, -, -, -, c6⟩ := logCause_frame (abandon s s.cur) s.cur c addr hc
  refine ⟨?_, c6.trans b6⟩
  have t := congrArg settled b1
  rw [State.strand, c1]
  exact t

/-- A cause in a strand that is in a trap. -/
theorem trapBundle_second (s : State) (c : Cause) (addr info : Nat) (htl : s.me.tl = true) (hc : c ≠ .dataError) :
    ∃ x, settled x = settled s.me ∧ unposted (trapBundle s c addr info).me = unposted (doubled x) := by
  obtain ⟨a1, -, -, -, -, a6⟩ := eatError_frame s
  have hs : settled (eatError s).me = settled s.me := by
    have t := congrArg settled a1
    exact t
  obtain ⟨h1, h2⟩ := logged_settled (eatError s) c addr hc
  rw [hs] at h1
  rw [a6] at h1 h2
  generalize hq : logCause (abandon (eatError s) s.cur) s.cur c addr = s1 at h1 h2
  have htl1 : (s1.strand s.cur).tl = true := (congrArg Strand.tl h1 : (settled _).tl = (settled _).tl).trans htl
  have e : trapBundle s c addr info = { doubleTrap s1 s.cur c s.issue.addr with
      issue := { (doubleTrap s1 s.cur c s.issue.addr).issue with ended := some (.trap c addr info) } } := by
    unfold trapBundle syncTrap
    simp only [hq, htl1, if_true]
  obtain ⟨d1, -, -, -, -, -⟩ := leaveCourse_frame s1 s.cur false
  refine ⟨(leaveCourse s1 s.cur false).strand s.cur, (settled_core' d1).trans h1, ?_⟩
  have hd := doubleTrap_strand s1 s.cur c s.issue.addr
  have hcur := (doubleTrap_cur s1 s.cur c s.issue.addr).trans h2
  generalize doubleTrap s1 s.cur c s.issue.addr = u at e hd hcur
  rw [e, ← hd, ← hcur]
  rfl

/-! ### The words that raise a cause (R81, R92) -/

/-- A word that raises a cause in a strand that is in no trap. -/
theorem entered {s : State} {c : Cause} {info : Nat} (hl : s.issue.half = .lone) (htl : s.me.tl = false) (hc : c ≠ .dataError)
    (ha : c.isAsync = false) :
    let t := trapWord s c s.issue.addr info
    t.me.pc = vector s.me.csr.evec c.code ∧ t.me.csr.epc = word s.issue.addr ∧ t.me.csr.ecause = word c.code ∧
      t.me.csr.eaddr = word s.issue.addr ∧ t.me.csr.einfo = word info ∧ t.me.csr.sstat = trapStat s.me.csr.sstat ∧
      t.me.st = .ready ∧ t.me.g = s.me.g ∧ t.me.v = s.me.v ∧ t.me.k = s.me.k ∧ t.mods = s.mods := by
  have hr := trapWord_raised s c s.issue.addr info
  obtain ⟨hg, hv, hk, -⟩ := hr.regs hl htl hc
  obtain ⟨hst, hpc, hepc, hec, hea, hei, hss⟩ := hr.entry hl htl hc
  have hcode : b2n c.isAsync * 2 ^ 63 + c.code = c.code := by
    rw [ha]
    exact Nat.zero_add _
  rw [hcode] at hec
  exact ⟨hpc, hepc, hec, hea, hei, hss, hst, hg, hv, hk, (hr.memory hl htl hc).1⟩

theorem wordAddr_lone {s : State} (h : s.issue.half = .lone) : wordAddr s = s.issue.addr := by
  rw [wordAddr, h]

theorem halfBit_lone {s : State} (h : s.issue.half = .lone) : halfBit s = 0 := by
  rw [halfBit, h]

theorem exec_illegalInstr {s : State} (op : BitVec 7) (hl : s.issue.half = .lone) :
    exec (.illegalInstr op) s = .next (trapWord s .illegalInstr s.issue.addr op.toNat) := by
  change Host.Outcome.next (trapWord s .illegalInstr (wordAddr s) (halfBit s + op.toNat)) = _
  rw [wordAddr_lone hl, halfBit_lone hl, Nat.zero_add]

theorem exec_reservedField {s : State} (sub : Nat) (hl : s.issue.half = .lone) :
    exec (.reservedField sub) s = .next (trapWord s .reservedField s.issue.addr sub) := by
  change Host.Outcome.next (trapWord s .reservedField (wordAddr s) (halfBit s + sub)) = _
  rw [wordAddr_lone hl, halfBit_lone hl, Nat.zero_add]

theorem illegalInstr_doubles {s : State} (op : BitVec 7) (hl : s.issue.half = .lone) (htl : s.me.tl = true) :
    ∃ t x, exec (.illegalInstr op) s = .next t ∧ settled x = settled s.me ∧ unposted t.me = unposted (doubled x) := by
  obtain ⟨x, hx, ht⟩ := trapBundle_second s .illegalInstr s.issue.addr op.toNat htl (by decide)
  refine ⟨_, x, exec_illegalInstr op hl, hx, ?_⟩
  have he : trapWord s .illegalInstr s.issue.addr op.toNat = trapBundle s .illegalInstr s.issue.addr op.toNat := by
    rw [trapWord, hl]
  rw [he]
  exact ht

/-- A strand that a double trap has parked stays so whatever wakes it. -/
theorem wake_doubleTrap {x : Strand} (h : x.st = .parked .doubleTrap) : x.wake = x := by
  rw [Strand.wake, h]

theorem wakeIf_doubleTrap {x : Strand} (h : x.st = .parked .doubleTrap) (rs : List ParkReason) :
    x.wakeIf rs = x ∨ rs.contains .doubleTrap := by
  rw [Strand.wakeIf, h]
  simp only
  by_cases hr : rs.contains .doubleTrap = true
  · exact .inr hr
  · exact .inl (if_neg hr)

/-! ### TRAP (R104) -/

/-- The strand of the executing slot, where only the bundle's end is noted after its change. -/
theorem modStrand_me {u : State} {p : Place} (h : u.cur = p) (f : Strand → Strand) (i : Issue) :
    ({ u.modStrand p f with issue := i }).me = f (u.strand p) := by
  subst h
  exact modMe_me u f

theorem execTrap_enters (imm : BitVec 13) {s : State} (htl : s.me.tl = false) :
    ∃ t x, exec (.trap imm) s = .next t ∧ settled x = settled s.me ∧
      t.me = enterTrap x .software 0 imm.toNat (addrAdd s.issue.addr 4) ∧ t.mods = s.mods := by
  obtain ⟨h1, h2⟩ := logged_settled s .software 0 (by decide)
  obtain ⟨-, b2, -, -, -, -⟩ := abandon_frame s s.cur
  obtain ⟨-, c2, -, -, -, -⟩ := logCause_frame (abandon s s.cur) s.cur .software 0 (by decide)
  have h3 := c2.trans b2
  have e : exec (.trap imm) s = .next { syncTrap s s.cur .software 0 imm.toNat (addrAdd s.issue.addr 4) s.issue.addr with
      issue := { (syncTrap s s.cur .software 0 imm.toNat (addrAdd s.issue.addr 4) s.issue.addr).issue with
        ended := some (.trap .software 0 imm.toNat) } } := rfl
  unfold syncTrap at e
  simp only at e
  generalize logCause (abandon s s.cur) s.cur .software 0 = s1 at e h1 h2 h3
  have htl1 : (s1.strand s.cur).tl = false := (congrArg Strand.tl h1 : (settled _).tl = (settled _).tl).trans htl
  obtain ⟨d1, d2, -, -, -, d6⟩ := leaveCourse_frame s1 s.cur true
  rw [if_neg (by rw [htl1]; exact Bool.false_ne_true)] at e
  refine ⟨_, (leaveCourse s1 s.cur true).strand s.cur, e, (settled_core' d1).trans h1, ?_, d2.trans h3⟩
  exact modStrand_me (d6.trans h2) ..

/-- Settles O8: the entry of a lone word, of TRAP, and the double trap, each by the frames of what comes before the entry. -/
theorem trapEntry : Obligations.TrapEntry := by
  unfold Obligations.TrapEntry
  refine ⟨fun s hl htl => ⟨fun op => ⟨_, exec_illegalInstr op hl, entered hl htl (by decide) rfl⟩,
      fun sub => ⟨_, exec_reservedField sub hl, entered hl htl (by decide) rfl⟩⟩,
    ⟨fun st => ⟨trapStat_pmode st, trapStat_pie st, trapStat_mode st, trapStat_ie st, trapStat_tl st,
        trapStat_other st (by decide) (.inl (by decide)), trapStat_other st (by decide) (.inr (by decide))⟩,
      fun _ code => vector_direct code, fun _ code => vector_vectored code⟩, fun imm s htl => ?_, fun op s hl htl => ?_⟩
  · obtain ⟨t, x, he, hx, hme, hmods⟩ := execTrap_enters imm htl
    have hfields := congrArg (fun y => (y.g, y.v, y.k, y.csr.evec, y.csr.sstat)) hx
    simp only [settled, Prod.mk.injEq] at hfields
    obtain ⟨hg, hv, hk, hevec, hsstat⟩ := hfields
    rw [← hg, ← hv, ← hk, ← hevec, ← hsstat]
    refine ⟨t, he, ?_⟩
    rw [hme]
    exact ⟨rfl, rfl, rfl, rfl, rfl, rfl, rfl, rfl, rfl, rfl, hmods⟩
  · obtain ⟨t, x, he, hx, hme⟩ := illegalInstr_doubles op hl htl
    have hst : t.me.st = .parked .doubleTrap := congrArg Strand.st hme
    have hfields := congrArg (fun y => (y.pc, y.csr.epc, y.csr.ecause, y.csr.eaddr, y.csr.einfo, y.csr.sstat, y.g)) hme
    have hkept := congrArg (fun y => (y.pc, y.csr.epc, y.csr.ecause, y.csr.eaddr, y.csr.einfo, y.csr.sstat, y.g)) hx
    have h := hfields.trans hkept
    simp only [unposted, settled, Prod.mk.injEq] at h
    obtain ⟨hpc, hepc, hec, hea, hei, hss, hg⟩ := h
    exact ⟨t, he, hst, hpc, hepc, hec, hea, hei, hss, hg, wakeIf_doubleTrap hst, wake_doubleTrap hst⟩

end Sys2Proof.Proofs.TrapEntries
end

section
/-! SUPPORT. The step (R176, R188): a lone word at the issue position, and the due step that is picked. -/

namespace Sys2Proof.Proofs.Steps

open Sys2Proof Sys2Proof.Machine Sys2Proof.Laws

/-! ### What a bundle's forwarding and its capture leave (R181, R188) -/

theorem foldl_issue {α : Type} {f : State → α → State} (h : ∀ t a, (f t a).issue = t.issue) (l : List α) (s : State) :
    (l.foldl f s).issue = s.issue := by
  induction l generalizing s with
  | nil => rfl
  | cons a l ih => exact (ih _).trans (h s a)

theorem forwardBundle_issue (s0 t : State) (w0 w1 : Nat) : (forwardBundle s0 t w0 w1).issue = t.issue := by
  unfold forwardBundle
  split
  · rfl
  · split
    · rfl
    · refine foldl_issue ?_ _ t
      exact fun _ _ => rfl

theorem captureIn_issue (s0 : State) (w0 w1 : Nat) (t : State) (l : LoopLevel) (i : Nat) :
    (captureIn s0 w0 w1 t l i).issue = t.issue := by
  unfold captureIn
  simp only
  split
  · rfl
  · split <;> split <;> rfl

theorem recapture_issue (l : LoopLevel) (t : State) : (recapture l t).issue = t.issue := by
  unfold recapture
  simp only
  split <;> rfl

theorem captureBundle_issue (s0 t : State) (w0 w1 : Nat) : (captureBundle s0 t w0 w1).issue = t.issue := by
  refine foldl_issue (fun u l => ?_) s0.me.loops t
  split
  · exact captureIn_issue ..
  · split
    · exact recapture_issue ..
    · rfl

/-! ### A lone word at the issue position (R66, R176) -/

/-- The rest of the cycle of the core after a bundle that left `u`: its turn ends, or a lower core of the cluster that has
its turn still to come goes first (R242). -/
def turnOver (s u : State) : State :=
  match lowerLeft s with
  | some c => if u.issue.bank then yieldTo s c else endTurn u
  | none => endTurn u

theorem step_idle {s : State} (hu : s.urgent = []) (ha : s.agenda = []) : step s = issueTurn s := by
  unfold step
  rw [hu, ha]

theorem issueTurn_next {s u : State} {slot : Nat} (hp : pickSlot s s.turn = some slot)
    (hb : issueBundle s (placeOf s.turn slot) = .next u) : issueTurn s = .next (turnOver s u) := by
  unfold issueTurn turnOver
  rw [hp]
  simp only [hb]
  cases lowerLeft s with
  | none => rfl
  | some c => exact (apply_ite Host.Outcome.next ..).symm

theorem issueBundle_calm {s : State} {p : Place} (ha : asyncCause (s.strand p) = none) :
    issueBundle s p = meetAsync s p (runBundle s p) := by
  unfold issueBundle
  simp only [ha]
  rfl

/-- A fetched lone word runs. -/
theorem runBundle_lone {s s1 : State} {p : Place} {w0 w1 w : Nat} {i : Instr}
    (hd : (beginBundle s p).me.denied = false ∨ (beginBundle s p).me.absAt = none)
    (hf : forwardedNow (beginBundle s p).me = none)
    (hw : fetchWords (beginBundle s p).issue.addr (beginBundle s p) = .ok ((w0, w1), s1))
    (hl : frame s1.issue.addr w0 w1 = .lone w) (hk : s1.me.pktOpen = false) (hi : decodeWord true w = .ok i) :
    runBundle s p = afterBundle s1 w0 w1 (exec i (withWord s1 .lone (addrAdd s1.issue.addr 4))) := by
  have hopen : (bitAt s1.me.csr.openpkt.toNat 5 && decide (fld s1.me.csr.openpkt 4 0 = 16) && !closesPacket s1.me w) = false := by
    rw [show bitAt s1.me.csr.openpkt.toNat 5 = false from hk]
    rfl
  have hrun : runWords s1 w0 w1 = exec i (withWord s1 .lone (addrAdd s1.issue.addr 4)) := by
    simp only [runWords, hl, issueLone, hi, packetGuard, hopen]
    rfl
  rw [← hrun]
  unfold runBundle
  simp only
  split
  · next h1 h2 =>
    rcases hd with hd | hd
    · rw [hd] at h1
      cases h1
    · rw [hd] at h2
      cases h2
  · simp only [hf, hw]

section
variable {s s1 t : State} {w0 w1 : Nat} (hf : forwardedNow s1.me = none)
include hf

theorem afterBundle_done (he : t.issue.ended = some .done) :
    afterBundle s1 w0 w1 (.next t) = .next (captureBundle s1 (forwardBundle s1 t w0 w1) w0 w1) := by
  simp only [afterBundle, hf, he]

theorem afterBundle_gone (he : t.issue.ended = some .gone) : afterBundle s1 w0 w1 (.next t) = .next (forwardBundle s1 t w0 w1) := by
  simp only [afterBundle, hf, he]

theorem afterBundle_trap {c : Cause} {a n : Nat} (he : t.issue.ended = some (.trap c a n)) :
    afterBundle s1 w0 w1 (.next t) = .next t := by
  simp only [afterBundle, hf, he]

theorem afterBundle_park {r : ParkReason} {sent : Bool} (he : t.issue.ended = some (.park r sent)) :
    afterBundle s1 w0 w1 (.next t) = .next t := by
  simp only [afterBundle, hf, he]

end

theorem meetAsync_trap {s t : State} {p : Place} {c : Cause} {a n : Nat} (ha : asyncCause (s.strand p) = none)
    (he : t.issue.ended = some (.trap c a n)) : meetAsync s p (.next t) = .next t := by
  simp only [meetAsync, he, ha]
  rfl

theorem meetAsync_park {s t : State} {p : Place} {r : ParkReason} {sent : Bool} (he : t.issue.ended = some (.park r sent)) :
    meetAsync s p (.next t) = .next (asyncDue t p) := by
  simp only [meetAsync, he]

theorem meetAsync_done {s t : State} {p : Place} (he : t.issue.ended = some .done) : meetAsync s p (.next t) = .next t := by
  simp only [meetAsync, he]

theorem meetAsync_gone {s t : State} {p : Place} (he : t.issue.ended = some .gone) : meetAsync s p (.next t) = .next t := by
  simp only [meetAsync, he]

end Sys2Proof.Proofs.Steps
end

section
/-! SUPPORT. The due steps and their instructions (log 1): the instruction that a due step matches is the one that carries the
same agents and values, one lemma for each step of the opcode table. -/

namespace Sys2Proof.Proofs.DueSteps

open Sys2Proof Sys2Proof.Machine

theorem asyncTrapEntry_of_matches {p : Place} {i : Instr}
    (h : (Event.asyncTrapEntry p).matches i = true) : i = .asyncTrapEntry p := by
  cases i
  case asyncTrapEntry p' =>
    have he : p = p' := of_decide_eq_true h
    rw [he]
  all_goals injection h

theorem itimerFire_of_matches {p : Place} {i : Instr}
    (h : (Event.itimerFire p).matches i = true) : i = .itimerFire p := by
  cases i
  case itimerFire p' =>
    have he : p = p' := of_decide_eq_true h
    rw [he]
  all_goals injection h

theorem intdbWrite_of_matches {m : Nat} {vf : Nat} {v : Word} {i : Instr}
    (h : (Event.intdbWrite m vf v).matches i = true) : i = .intdbWrite m vf v := by
  cases i
  case intdbWrite m' vf' v' =>
    have he : (decide (m = m') && decide (vf = vf') && decide (v = v')) = true := h
    simp only [Bool.and_eq_true, decide_eq_true_eq] at he
    obtain ⟨⟨rfl, rfl⟩, rfl⟩ := he
    rfl
  all_goals injection h

theorem preemptNotice_of_matches {m : Nat} {vf : Nat} {w : Word} {i : Instr}
    (h : (Event.preemptNotice m vf w).matches i = true) : i = .preemptNotice m vf w := by
  cases i
  case preemptNotice m' vf' w' =>
    have he : (decide (m = m') && decide (vf = vf') && decide (w = w')) = true := h
    simp only [Bool.and_eq_true, decide_eq_true_eq] at he
    obtain ⟨⟨rfl, rfl⟩, rfl⟩ := he
    rfl
  all_goals injection h

theorem sstatWrite_of_matches {v : Word} {i : Instr}
    (h : (Event.sstatWrite v).matches i = true) : i = .sstatWrite v := by
  cases i
  case sstatWrite v' =>
    have he : v = v' := of_decide_eq_true h
    rw [he]
  all_goals injection h

theorem ipendClear_of_matches {v : Word} {i : Instr}
    (h : (Event.ipendClear v).matches i = true) : i = .ipendClear v := by
  cases i
  case ipendClear v' =>
    have he : v = v' := of_decide_eq_true h
    rw [he]
  all_goals injection h

theorem registerWrite_of_matches {csr : BitVec 12} {v : Word} {i : Instr}
    (h : (Event.registerWrite csr v).matches i = true) : i = .registerWrite csr v := by
  cases i
  case registerWrite csr' v' =>
    have he : (decide (csr = csr') && decide (v = v')) = true := h
    simp only [Bool.and_eq_true, decide_eq_true_eq] at he
    obtain ⟨rfl, rfl⟩ := he
    rfl
  all_goals injection h

theorem memResponse_of_matches {p : Place} {i : Instr}
    (h : (Event.memResponse p).matches i = true) : i = .memResponse p := by
  cases i
  case memResponse p' =>
    have he : p = p' := of_decide_eq_true h
    rw [he]
  all_goals injection h

theorem courseForward_of_matches {p : Place} {i : Instr}
    (h : (Event.courseForward p).matches i = true) : i = .courseForward p := by
  cases i
  case courseForward p' =>
    have he : p = p' := of_decide_eq_true h
    rw [he]
  all_goals injection h

theorem courseTimeout_of_matches {clu : Nat} {idx : Nat} {i : Instr}
    (h : (Event.courseTimeout clu idx).matches i = true) : i = .courseTimeout clu idx := by
  cases i
  case courseTimeout clu' idx' =>
    have he : (decide (clu = clu') && decide (idx = idx')) = true := h
    simp only [Bool.and_eq_true, decide_eq_true_eq] at he
    obtain ⟨rfl, rfl⟩ := he
    rfl
  all_goals injection h

theorem realignTimeout_of_matches {p : Place} {i : Instr}
    (h : (Event.realignTimeout p).matches i = true) : i = .realignTimeout p := by
  cases i
  case realignTimeout p' =>
    have he : p = p' := of_decide_eq_true h
    rw [he]
  all_goals injection h

theorem streamElementFetch_of_matches {core : Nat} {unit : Nat} {i : Instr}
    (h : (Event.streamElementFetch core unit).matches i = true) : i = .streamElementFetch core unit := by
  cases i
  case streamElementFetch core' unit' =>
    have he : (decide (core = core') && decide (unit = unit')) = true := h
    simp only [Bool.and_eq_true, decide_eq_true_eq] at he
    obtain ⟨rfl, rfl⟩ := he
    rfl
  all_goals injection h

theorem streamPush_of_matches {core : Nat} {unit : Nat} {i : Instr}
    (h : (Event.streamPush core unit).matches i = true) : i = .streamPush core unit := by
  cases i
  case streamPush core' unit' =>
    have he : (decide (core = core') && decide (unit = unit')) = true := h
    simp only [Bool.and_eq_true, decide_eq_true_eq] at he
    obtain ⟨rfl, rfl⟩ := he
    rfl
  all_goals injection h

theorem matrixOpComplete_of_matches {core : Nat} {st : Nat} {i : Instr}
    (h : (Event.matrixOpComplete core st).matches i = true) : i = .matrixOpComplete core st := by
  cases i
  case matrixOpComplete core' st' =>
    have he : (decide (core = core') && decide (st = st')) = true := h
    simp only [Bool.and_eq_true, decide_eq_true_eq] at he
    obtain ⟨rfl, rfl⟩ := he
    rfl
  all_goals injection h

theorem mcmdCommand_of_matches {src : Place} {i : Instr}
    (h : (Event.mcmdCommand src).matches i = true) : i = .mcmdCommand src := by
  cases i
  case mcmdCommand src' =>
    have he : src = src' := of_decide_eq_true h
    rw [he]
  all_goals injection h

theorem mcmdAnswer_of_matches {src : Place} {i : Instr}
    (h : (Event.mcmdAnswer src).matches i = true) : i = .mcmdAnswer src := by
  cases i
  case mcmdAnswer src' =>
    have he : src = src' := of_decide_eq_true h
    rw [he]
  all_goals injection h

theorem spartConversion_of_matches {clu : Nat} {i : Instr}
    (h : (Event.spartConversion clu).matches i = true) : i = .spartConversion clu := by
  cases i
  case spartConversion clu' =>
    have he : clu = clu' := of_decide_eq_true h
    rw [he]
  all_goals injection h

theorem waitwMonitorFire_of_matches {p : Place} {i : Instr}
    (h : (Event.waitwMonitorFire p).matches i = true) : i = .waitwMonitorFire p := by
  cases i
  case waitwMonitorFire p' =>
    have he : p = p' := of_decide_eq_true h
    rw [he]
  all_goals injection h

theorem sevEvent_of_matches {src : Place} {i : Instr}
    (h : (Event.sevEvent src).matches i = true) : i = .sevEvent src := by
  cases i
  case sevEvent src' =>
    have he : src = src' := of_decide_eq_true h
    rw [he]
  all_goals injection h

theorem timeSliceExpiry_of_matches {m : Nat} {part : Nat} {i : Instr}
    (h : (Event.timeSliceExpiry m part).matches i = true) : i = .timeSliceExpiry m part := by
  cases i
  case timeSliceExpiry m' part' =>
    have he : (decide (m = m') && decide (part = part')) = true := h
    simp only [Bool.and_eq_true, decide_eq_true_eq] at he
    obtain ⟨rfl, rfl⟩ := he
    rfl
  all_goals injection h

theorem slotHandover_of_matches {p : Place} {vf : Nat} {i : Instr}
    (h : (Event.slotHandover p vf).matches i = true) : i = .slotHandover p vf := by
  cases i
  case slotHandover p' vf' =>
    have he : (decide (p = p') && decide (vf = vf')) = true := h
    simp only [Bool.and_eq_true, decide_eq_true_eq] at he
    obtain ⟨rfl, rfl⟩ := he
    rfl
  all_goals injection h

theorem bteTransferActivate_of_matches {clu : Nat} {i : Instr}
    (h : (Event.bteTransferActivate clu).matches i = true) : i = .bteTransferActivate clu := by
  cases i
  case bteTransferActivate clu' =>
    have he : clu = clu' := of_decide_eq_true h
    rw [he]
  all_goals injection h

theorem bteWriteLand_of_matches {clu : Nat} {id : Nat} {i : Instr}
    (h : (Event.bteWriteLand clu id).matches i = true) : i = .bteWriteLand clu id := by
  cases i
  case bteWriteLand clu' id' =>
    have he : (decide (clu = clu') && decide (id = id')) = true := h
    simp only [Bool.and_eq_true, decide_eq_true_eq] at he
    obtain ⟨rfl, rfl⟩ := he
    rfl
  all_goals injection h

theorem bteConsumerUpdate_of_matches {clu : Nat} {id : Nat} {i : Instr}
    (h : (Event.bteConsumerUpdate clu id).matches i = true) : i = .bteConsumerUpdate clu id := by
  cases i
  case bteConsumerUpdate clu' id' =>
    have he : (decide (clu = clu') && decide (id = id')) = true := h
    simp only [Bool.and_eq_true, decide_eq_true_eq] at he
    obtain ⟨rfl, rfl⟩ := he
    rfl
  all_goals injection h

theorem ixeElementCopy_of_matches {clu : Nat} {id : Nat} {i : Instr}
    (h : (Event.ixeElementCopy clu id).matches i = true) : i = .ixeElementCopy clu id := by
  cases i
  case ixeElementCopy clu' id' =>
    have he : (decide (clu = clu') && decide (id = id')) = true := h
    simp only [Bool.and_eq_true, decide_eq_true_eq] at he
    obtain ⟨rfl, rfl⟩ := he
    rfl
  all_goals injection h

theorem engineCompletion_of_matches {clu : Nat} {ixe : Bool} {id : Nat} {i : Instr}
    (h : (Event.engineCompletion clu ixe id).matches i = true) : i = .engineCompletion clu ixe id := by
  cases i
  case engineCompletion clu' ixe' id' =>
    have he : (decide (clu = clu') && decide (ixe = ixe') && decide (id = id')) = true := h
    simp only [Bool.and_eq_true, decide_eq_true_eq] at he
    obtain ⟨⟨rfl, rfl⟩, rfl⟩ := he
    rfl
  all_goals injection h

theorem cringtailWrite_of_matches {clu : Nat} {v : Word} {i : Instr}
    (h : (Event.cringtailWrite clu v).matches i = true) : i = .cringtailWrite clu v := by
  cases i
  case cringtailWrite clu' v' =>
    have he : (decide (clu = clu') && decide (v = v')) = true := h
    simp only [Bool.and_eq_true, decide_eq_true_eq] at he
    obtain ⟨rfl, rfl⟩ := he
    rfl
  all_goals injection h

theorem engineOffline_of_matches {clu : Nat} {ixe : Bool} {i : Instr}
    (h : (Event.engineOffline clu ixe).matches i = true) : i = .engineOffline clu ixe := by
  cases i
  case engineOffline clu' ixe' =>
    have he : (decide (clu = clu') && decide (ixe = ixe')) = true := h
    simp only [Bool.and_eq_true, decide_eq_true_eq] at he
    obtain ⟨rfl, rfl⟩ := he
    rfl
  all_goals injection h

theorem autoMigration_of_matches {core : Nat} {i : Instr}
    (h : (Event.autoMigration core).matches i = true) : i = .autoMigration core := by
  cases i
  case autoMigration core' =>
    have he : core = core' := of_decide_eq_true h
    rw [he]
  all_goals injection h

theorem migrationArrival_of_matches {clu : Nat} {i : Instr}
    (h : (Event.migrationArrival clu).matches i = true) : i = .migrationArrival clu := by
  cases i
  case migrationArrival clu' =>
    have he : clu = clu' := of_decide_eq_true h
    rw [he]
  all_goals injection h

theorem migrationSlotFree_of_matches {clu : Nat} {i : Instr}
    (h : (Event.migrationSlotFree clu).matches i = true) : i = .migrationSlotFree clu := by
  cases i
  case migrationSlotFree clu' =>
    have he : clu = clu' := of_decide_eq_true h
    rw [he]
  all_goals injection h

theorem kleScoring_of_matches {clu : Nat} {ctx : Nat} {i : Instr}
    (h : (Event.kleScoring clu ctx).matches i = true) : i = .kleScoring clu ctx := by
  cases i
  case kleScoring clu' ctx' =>
    have he : (decide (clu = clu') && decide (ctx = ctx')) = true := h
    simp only [Bool.and_eq_true, decide_eq_true_eq] at he
    obtain ⟨rfl, rfl⟩ := he
    rfl
  all_goals injection h

theorem kleServiceRound_of_matches {die : Nat} {slice : Nat} {i : Instr}
    (h : (Event.kleServiceRound die slice).matches i = true) : i = .kleServiceRound die slice := by
  cases i
  case kleServiceRound die' slice' =>
    have he : (decide (die = die') && decide (slice = slice')) = true := h
    simp only [Bool.and_eq_true, decide_eq_true_eq] at he
    obtain ⟨rfl, rfl⟩ := he
    rfl
  all_goals injection h

theorem kleRowArrival_of_matches {clu : Nat} {ctx : Nat} {i : Instr}
    (h : (Event.kleRowArrival clu ctx).matches i = true) : i = .kleRowArrival clu ctx := by
  cases i
  case kleRowArrival clu' ctx' =>
    have he : (decide (clu = clu') && decide (ctx = ctx')) = true := h
    simp only [Bool.and_eq_true, decide_eq_true_eq] at he
    obtain ⟨rfl, rfl⟩ := he
    rfl
  all_goals injection h

theorem kleReadTimeout_of_matches {clu : Nat} {ctx : Nat} {rank : Nat} {i : Instr}
    (h : (Event.kleReadTimeout clu ctx rank).matches i = true) : i = .kleReadTimeout clu ctx rank := by
  cases i
  case kleReadTimeout clu' ctx' rank' =>
    have he : (decide (clu = clu') && decide (ctx = ctx') && decide (rank = rank')) = true := h
    simp only [Bool.and_eq_true, decide_eq_true_eq] at he
    obtain ⟨⟨rfl, rfl⟩, rfl⟩ := he
    rfl
  all_goals injection h

theorem kleLookupComplete_of_matches {clu : Nat} {ctx : Nat} {i : Instr}
    (h : (Event.kleLookupComplete clu ctx).matches i = true) : i = .kleLookupComplete clu ctx := by
  cases i
  case kleLookupComplete clu' ctx' =>
    have he : (decide (clu = clu') && decide (ctx = ctx')) = true := h
    simp only [Bool.and_eq_true, decide_eq_true_eq] at he
    obtain ⟨rfl, rfl⟩ := he
    rfl
  all_goals injection h

theorem kleOffline_of_matches {clu : Nat} {i : Instr}
    (h : (Event.kleOffline clu).matches i = true) : i = .kleOffline clu := by
  cases i
  case kleOffline clu' =>
    have he : clu = clu' := of_decide_eq_true h
    rw [he]
  all_goals injection h

theorem eupdDirectAdd_of_matches {clu : Nat} {id : Nat} {i : Instr}
    (h : (Event.eupdDirectAdd clu id).matches i = true) : i = .eupdDirectAdd clu id := by
  cases i
  case eupdDirectAdd clu' id' =>
    have he : (decide (clu = clu') && decide (id = id')) = true := h
    simp only [Bool.and_eq_true, decide_eq_true_eq] at he
    obtain ⟨rfl, rfl⟩ := he
    rfl
  all_goals injection h

theorem mergeContribution_of_matches {m : Nat} {i : Instr}
    (h : (Event.mergeContribution m).matches i = true) : i = .mergeContribution m := by
  cases i
  case mergeContribution m' =>
    have he : m = m' := of_decide_eq_true h
    rw [he]
  all_goals injection h

theorem mergeClose_of_matches {m : Nat} {i : Instr}
    (h : (Event.mergeClose m).matches i = true) : i = .mergeClose m := by
  cases i
  case mergeClose m' =>
    have he : m = m' := of_decide_eq_true h
    rw [he]
  all_goals injection h

theorem closeAck_of_matches {src : Place} {i : Instr}
    (h : (Event.closeAck src).matches i = true) : i = .closeAck src := by
  cases i
  case closeAck src' =>
    have he : src = src' := of_decide_eq_true h
    rw [he]
  all_goals injection h

theorem homeSliceRequest_of_matches {m : Nat} {src : Place} {i : Instr}
    (h : (Event.homeSliceRequest m src).matches i = true) : i = .homeSliceRequest m src := by
  cases i
  case homeSliceRequest m' src' =>
    have he : (decide (m = m') && decide (src = src')) = true := h
    simp only [Bool.and_eq_true, decide_eq_true_eq] at he
    obtain ⟨rfl, rfl⟩ := he
    rfl
  all_goals injection h

theorem farAtomicExecute_of_matches {m : Nat} {src : Place} {i : Instr}
    (h : (Event.farAtomicExecute m src).matches i = true) : i = .farAtomicExecute m src := by
  cases i
  case farAtomicExecute m' src' =>
    have he : (decide (m = m') && decide (src = src')) = true := h
    simp only [Bool.and_eq_true, decide_eq_true_eq] at he
    obtain ⟨rfl, rfl⟩ := he
    rfl
  all_goals injection h

theorem pageWalk_of_matches {die : Nat} {page : Nat} {i : Instr}
    (h : (Event.pageWalk die page).matches i = true) : i = .pageWalk die page := by
  cases i
  case pageWalk die' page' =>
    have he : (decide (die = die') && decide (page = page')) = true := h
    simp only [Bool.and_eq_true, decide_eq_true_eq] at he
    obtain ⟨rfl, rfl⟩ := he
    rfl
  all_goals injection h

theorem faultack_of_matches {v : Word} {i : Instr}
    (h : (Event.faultack v).matches i = true) : i = .faultack v := by
  cases i
  case faultack v' =>
    have he : v = v' := of_decide_eq_true h
    rw [he]
  all_goals injection h

theorem faultackWake_of_matches {die : Nat} {i : Instr}
    (h : (Event.faultackWake die).matches i = true) : i = .faultackWake die := by
  cases i
  case faultackWake die' =>
    have he : die = die' := of_decide_eq_true h
    rw [he]
  all_goals injection h

theorem releaseProbe_of_matches {m : Nat} {src : Place} {grp : Nat} {i : Instr}
    (h : (Event.releaseProbe m src grp).matches i = true) : i = .releaseProbe m src grp := by
  cases i
  case releaseProbe m' src' grp' =>
    have he : (decide (m = m') && decide (src = src') && decide (grp = grp')) = true := h
    simp only [Bool.and_eq_true, decide_eq_true_eq] at he
    obtain ⟨⟨rfl, rfl⟩, rfl⟩ := he
    rfl
  all_goals injection h

theorem probeEcho_of_matches {p : Place} {grp : Nat} {i : Instr}
    (h : (Event.probeEcho p grp).matches i = true) : i = .probeEcho p grp := by
  cases i
  case probeEcho p' grp' =>
    have he : (decide (p = p') && decide (grp = grp')) = true := h
    simp only [Bool.and_eq_true, decide_eq_true_eq] at he
    obtain ⟨rfl, rfl⟩ := he
    rfl
  all_goals injection h

theorem uncorrectableError_of_matches {site : ErrSite} {i : Instr}
    (h : (Event.uncorrectableError site).matches i = true) : i = .uncorrectableError site := by
  cases i
  case uncorrectableError site' =>
    have he : site = site' := of_decide_eq_true h
    rw [he]
  all_goals injection h

theorem correctableError_of_matches {die : Nat} {i : Instr}
    (h : (Event.correctableError die).matches i = true) : i = .correctableError die := by
  cases i
  case correctableError die' =>
    have he : die = die' := of_decide_eq_true h
    rw [he]
  all_goals injection h

theorem dieerrlog_of_matches {d : GReg} {i : Instr}
    (h : (Event.dieerrlog d).matches i = true) : i = .dieerrlog d := by
  cases i
  case dieerrlog d' =>
    have he : d = d' := of_decide_eq_true h
    rw [he]
  all_goals injection h

theorem taskDispatch_of_matches {die : Nat} {clu : Nat} {i : Instr}
    (h : (Event.taskDispatch die clu).matches i = true) : i = .taskDispatch die clu := by
  cases i
  case taskDispatch die' clu' =>
    have he : (decide (die = die') && decide (clu = clu')) = true := h
    simp only [Bool.and_eq_true, decide_eq_true_eq] at he
    obtain ⟨rfl, rfl⟩ := he
    rfl
  all_goals injection h

theorem admissionServe_of_matches {die : Nat} {i : Instr}
    (h : (Event.admissionServe die).matches i = true) : i = .admissionServe die := by
  cases i
  case admissionServe die' =>
    have he : die = die' := of_decide_eq_true h
    rw [he]
  all_goals injection h

theorem taskSteal_of_matches {die : Nat} {clu : Nat} {vf : Nat} {i : Instr}
    (h : (Event.taskSteal die clu vf).matches i = true) : i = .taskSteal die clu vf := by
  cases i
  case taskSteal die' clu' vf' =>
    have he : (decide (die = die') && decide (clu = clu') && decide (vf = vf')) = true := h
    simp only [Bool.and_eq_true, decide_eq_true_eq] at he
    obtain ⟨⟨rfl, rfl⟩, rfl⟩ := he
    rfl
  all_goals injection h

theorem stealRequest_of_matches {die : Nat} {vf : Nat} {i : Instr}
    (h : (Event.stealRequest die vf).matches i = true) : i = .stealRequest die vf := by
  cases i
  case stealRequest die' vf' =>
    have he : (decide (die = die') && decide (vf = vf')) = true := h
    simp only [Bool.and_eq_true, decide_eq_true_eq] at he
    obtain ⟨rfl, rfl⟩ := he
    rfl
  all_goals injection h

theorem stealRetry_of_matches {die : Nat} {vf : Nat} {i : Instr}
    (h : (Event.stealRetry die vf).matches i = true) : i = .stealRetry die vf := by
  cases i
  case stealRetry die' vf' =>
    have he : (decide (die = die') && decide (vf = vf')) = true := h
    simp only [Bool.and_eq_true, decide_eq_true_eq] at he
    obtain ⟨rfl, rfl⟩ := he
    rfl
  all_goals injection h

theorem counterUpdate_of_matches {die : Nat} {src : Place} {i : Instr}
    (h : (Event.counterUpdate die src).matches i = true) : i = .counterUpdate die src := by
  cases i
  case counterUpdate die' src' =>
    have he : (decide (die = die') && decide (src = src')) = true := h
    simp only [Bool.and_eq_true, decide_eq_true_eq] at he
    obtain ⟨rfl, rfl⟩ := he
    rfl
  all_goals injection h

theorem groupUpdate_of_matches {die : Nat} {src : Place} {i : Instr}
    (h : (Event.groupUpdate die src).matches i = true) : i = .groupUpdate die src := by
  cases i
  case groupUpdate die' src' =>
    have he : (decide (die = die') && decide (src = src')) = true := h
    simp only [Bool.and_eq_true, decide_eq_true_eq] at he
    obtain ⟨rfl, rfl⟩ := he
    rfl
  all_goals injection h

theorem grantExpiry_of_matches {p : Place} {i : Instr}
    (h : (Event.grantExpiry p).matches i = true) : i = .grantExpiry p := by
  cases i
  case grantExpiry p' =>
    have he : p = p' := of_decide_eq_true h
    rw [he]
  all_goals injection h

theorem budgetSet_of_matches {die : Nat} {units : Nat} {i : Instr}
    (h : (Event.budgetSet die units).matches i = true) : i = .budgetSet die units := by
  cases i
  case budgetSet die' units' =>
    have he : (decide (die = die') && decide (units = units')) = true := h
    simp only [Bool.and_eq_true, decide_eq_true_eq] at he
    obtain ⟨rfl, rfl⟩ := he
    rfl
  all_goals injection h

theorem thermalStep_of_matches {die : Nat} {hot : Bool} {i : Instr}
    (h : (Event.thermalStep die hot).matches i = true) : i = .thermalStep die hot := by
  cases i
  case thermalStep die' hot' =>
    have he : (decide (die = die') && decide (hot = hot')) = true := h
    simp only [Bool.and_eq_true, decide_eq_true_eq] at he
    obtain ⟨rfl, rfl⟩ := he
    rfl
  all_goals injection h

theorem criticalTemperature_of_matches {m : Nat} {i : Instr}
    (h : (Event.criticalTemperature m).matches i = true) : i = .criticalTemperature m := by
  cases i
  case criticalTemperature m' =>
    have he : m = m' := of_decide_eq_true h
    rw [he]
  all_goals injection h

theorem shutdownTemperature_of_matches {m : Nat} {i : Instr}
    (h : (Event.shutdownTemperature m).matches i = true) : i = .shutdownTemperature m := by
  cases i
  case shutdownTemperature m' =>
    have he : m = m' := of_decide_eq_true h
    rw [he]
  all_goals injection h

theorem lqdb_of_matches {m : Nat} {vf : Nat} {i : Instr}
    (h : (Event.lqdb m vf).matches i = true) : i = .lqdb m vf := by
  cases i
  case lqdb m' vf' =>
    have he : (decide (m = m') && decide (vf = vf')) = true := h
    simp only [Bool.and_eq_true, decide_eq_true_eq] at he
    obtain ⟨rfl, rfl⟩ := he
    rfl
  all_goals injection h

theorem launchTake_of_matches {m : Nat} {vf : Nat} {i : Instr}
    (h : (Event.launchTake m vf).matches i = true) : i = .launchTake m vf := by
  cases i
  case launchTake m' vf' =>
    have he : (decide (m = m') && decide (vf = vf')) = true := h
    simp only [Bool.and_eq_true, decide_eq_true_eq] at he
    obtain ⟨rfl, rfl⟩ := he
    rfl
  all_goals injection h

theorem launchEnd_of_matches {m : Nat} {vf : Nat} {i : Instr}
    (h : (Event.launchEnd m vf).matches i = true) : i = .launchEnd m vf := by
  cases i
  case launchEnd m' vf' =>
    have he : (decide (m = m') && decide (vf = vf')) = true := h
    simp only [Bool.and_eq_true, decide_eq_true_eq] at he
    obtain ⟨rfl, rfl⟩ := he
    rfl
  all_goals injection h

theorem vfReset_of_matches {m : Nat} {vf : Nat} {i : Instr}
    (h : (Event.vfReset m vf).matches i = true) : i = .vfReset m vf := by
  cases i
  case vfReset m' vf' =>
    have he : (decide (m = m') && decide (vf = vf')) = true := h
    simp only [Bool.and_eq_true, decide_eq_true_eq] at he
    obtain ⟨rfl, rfl⟩ := he
    rfl
  all_goals injection h

theorem vfPolicyWrite_of_matches {m : Nat} {vf : Nat} {f : PolicyField} {i : Instr}
    (h : (Event.vfPolicyWrite m vf f).matches i = true) : i = .vfPolicyWrite m vf f := by
  cases i
  case vfPolicyWrite m' vf' f' =>
    have he : (decide (m = m') && decide (vf = vf') && decide (f = f')) = true := h
    simp only [Bool.and_eq_true, decide_eq_true_eq] at he
    obtain ⟨⟨rfl, rfl⟩, rfl⟩ := he
    rfl
  all_goals injection h

theorem hostBarWrite_of_matches {m : Nat} {vf : Nat} {bar2 : Bool} {a : Word} {v : Word} {n : Nat} {i : Instr}
    (h : (Event.hostBarWrite m vf bar2 a v n).matches i = true) : i = .hostBarWrite m vf bar2 a v n := by
  cases i
  case hostBarWrite m' vf' bar2' a' v' n' =>
    have he : (decide (m = m') && decide (vf = vf') && decide (bar2 = bar2') && decide (a = a') && decide (v = v') && decide (n = n')) = true := h
    simp only [Bool.and_eq_true, decide_eq_true_eq] at he
    obtain ⟨⟨⟨⟨⟨rfl, rfl⟩, rfl⟩, rfl⟩, rfl⟩, rfl⟩ := he
    rfl
  all_goals injection h

theorem hostPortDown_of_matches {m : Nat} {port : Nat} {i : Instr}
    (h : (Event.hostPortDown m port).matches i = true) : i = .hostPortDown m port := by
  cases i
  case hostPortDown m' port' =>
    have he : (decide (m = m') && decide (port = port')) = true := h
    simp only [Bool.and_eq_true, decide_eq_true_eq] at he
    obtain ⟨rfl, rfl⟩ := he
    rfl
  all_goals injection h

theorem packageNumberWrite_of_matches {m : Nat} {v : BitVec 12} {i : Instr}
    (h : (Event.packageNumberWrite m v).matches i = true) : i = .packageNumberWrite m v := by
  cases i
  case packageNumberWrite m' v' =>
    have he : (decide (m = m') && decide (v = v')) = true := h
    simp only [Bool.and_eq_true, decide_eq_true_eq] at he
    obtain ⟨rfl, rfl⟩ := he
    rfl
  all_goals injection h

theorem linkTraining_of_matches {m : Nat} {link : Nat} {peer : Nat} {ok : Bool} {i : Instr}
    (h : (Event.linkTraining m link peer ok).matches i = true) : i = .linkTraining m link peer ok := by
  cases i
  case linkTraining m' link' peer' ok' =>
    have he : (decide (m = m') && decide (link = link') && decide (peer = peer') && decide (ok = ok')) = true := h
    simp only [Bool.and_eq_true, decide_eq_true_eq] at he
    obtain ⟨⟨⟨rfl, rfl⟩, rfl⟩, rfl⟩ := he
    rfl
  all_goals injection h

theorem moduleReset_of_matches {m : Nat} {i : Instr}
    (h : (Event.moduleReset m).matches i = true) : i = .moduleReset m := by
  cases i
  case moduleReset m' =>
    have he : m = m' := of_decide_eq_true h
    rw [he]
  all_goals injection h

theorem firmwareFetchRetry_of_matches {m : Nat} {img : FwImage} {i : Instr}
    (h : (Event.firmwareFetchRetry m img).matches i = true) : i = .firmwareFetchRetry m img := by
  cases i
  case firmwareFetchRetry m' img' =>
    have he : (decide (m = m') && decide (img = img')) = true := h
    simp only [Bool.and_eq_true, decide_eq_true_eq] at he
    obtain ⟨rfl, rfl⟩ := he
    rfl
  all_goals injection h

theorem attestationRequest_of_matches {m : Nat} {nonce : BitVec 256} {i : Instr}
    (h : (Event.attestationRequest m nonce).matches i = true) : i = .attestationRequest m nonce := by
  cases i
  case attestationRequest m' nonce' =>
    have he : (decide (m = m') && decide (nonce = nonce')) = true := h
    simp only [Bool.and_eq_true, decide_eq_true_eq] at he
    obtain ⟨rfl, rfl⟩ := he
    rfl
  all_goals injection h

theorem stackFailure_of_matches {m : Nat} {stack : Nat} {i : Instr}
    (h : (Event.stackFailure m stack).matches i = true) : i = .stackFailure m stack := by
  cases i
  case stackFailure m' stack' =>
    have he : (decide (m = m') && decide (stack = stack')) = true := h
    simp only [Bool.and_eq_true, decide_eq_true_eq] at he
    obtain ⟨rfl, rfl⟩ := he
    rfl
  all_goals injection h

theorem ochreCoreFault_of_matches {m : Nat} {pd : Nat} {core : Nat} {i : Instr}
    (h : (Event.ochreCoreFault m pd core).matches i = true) : i = .ochreCoreFault m pd core := by
  cases i
  case ochreCoreFault m' pd' core' =>
    have he : (decide (m = m') && decide (pd = pd') && decide (core = core')) = true := h
    simp only [Bool.and_eq_true, decide_eq_true_eq] at he
    obtain ⟨⟨rfl, rfl⟩, rfl⟩ := he
    rfl
  all_goals injection h

theorem flitRoute_of_matches {m : Nat} {node : Nat} {i : Instr}
    (h : (Event.flitRoute m node).matches i = true) : i = .flitRoute m node := by
  cases i
  case flitRoute m' node' =>
    have he : (decide (m = m') && decide (node = node')) = true := h
    simp only [Bool.and_eq_true, decide_eq_true_eq] at he
    obtain ⟨rfl, rfl⟩ := he
    rfl
  all_goals injection h

theorem flitEject_of_matches {m : Nat} {node : Nat} {i : Instr}
    (h : (Event.flitEject m node).matches i = true) : i = .flitEject m node := by
  cases i
  case flitEject m' node' =>
    have he : (decide (m = m') && decide (node = node')) = true := h
    simp only [Bool.and_eq_true, decide_eq_true_eq] at he
    obtain ⟨rfl, rfl⟩ := he
    rfl
  all_goals injection h

theorem packetDeliver_of_matches {m : Nat} {node : Nat} {src : Nat} {ch : Nat} {i : Instr}
    (h : (Event.packetDeliver m node src ch).matches i = true) : i = .packetDeliver m node src ch := by
  cases i
  case packetDeliver m' node' src' ch' =>
    have he : (decide (m = m') && decide (node = node') && decide (src = src') && decide (ch = ch')) = true := h
    simp only [Bool.and_eq_true, decide_eq_true_eq] at he
    obtain ⟨⟨⟨rfl, rfl⟩, rfl⟩, rfl⟩ := he
    rfl
  all_goals injection h

theorem deliveryCredit_of_matches {m : Nat} {src : Nat} {dst : Nat} {ch : Nat} {i : Instr}
    (h : (Event.deliveryCredit m src dst ch).matches i = true) : i = .deliveryCredit m src dst ch := by
  cases i
  case deliveryCredit m' src' dst' ch' =>
    have he : (decide (m = m') && decide (src = src') && decide (dst = dst') && decide (ch = ch')) = true := h
    simp only [Bool.and_eq_true, decide_eq_true_eq] at he
    obtain ⟨⟨⟨rfl, rfl⟩, rfl⟩, rfl⟩ := he
    rfl
  all_goals injection h

theorem linkFrameReceive_of_matches {m : Nat} {pd : Nat} {i : Instr}
    (h : (Event.linkFrameReceive m pd).matches i = true) : i = .linkFrameReceive m pd := by
  cases i
  case linkFrameReceive m' pd' =>
    have he : (decide (m = m') && decide (pd = pd')) = true := h
    simp only [Bool.and_eq_true, decide_eq_true_eq] at he
    obtain ⟨rfl, rfl⟩ := he
    rfl
  all_goals injection h

theorem linkDown_of_matches {m : Nat} {link : Nat} {i : Instr}
    (h : (Event.linkDown m link).matches i = true) : i = .linkDown m link := by
  cases i
  case linkDown m' link' =>
    have he : (decide (m = m') && decide (link = link')) = true := h
    simp only [Bool.and_eq_true, decide_eq_true_eq] at he
    obtain ⟨rfl, rfl⟩ := he
    rfl
  all_goals injection h

theorem pathFailed_of_matches {m : Nat} {peer : Nat} {i : Instr}
    (h : (Event.pathFailed m peer).matches i = true) : i = .pathFailed m peer := by
  cases i
  case pathFailed m' peer' =>
    have he : (decide (m = m') && decide (peer = peer')) = true := h
    simp only [Bool.and_eq_true, decide_eq_true_eq] at he
    obtain ⟨rfl, rfl⟩ := he
    rfl
  all_goals injection h

theorem accessTimeout_of_matches {p : Place} {i : Instr}
    (h : (Event.accessTimeout p).matches i = true) : i = .accessTimeout p := by
  cases i
  case accessTimeout p' =>
    have he : p = p' := of_decide_eq_true h
    rw [he]
  all_goals injection h

theorem vsPacketArrive_of_matches {clu : Nat} {port : Nat} {i : Instr}
    (h : (Event.vsPacketArrive clu port).matches i = true) : i = .vsPacketArrive clu port := by
  cases i
  case vsPacketArrive clu' port' =>
    have he : (decide (clu = clu') && decide (port = port')) = true := h
    simp only [Bool.and_eq_true, decide_eq_true_eq] at he
    obtain ⟨rfl, rfl⟩ := he
    rfl
  all_goals injection h

theorem vsCredit_of_matches {clu : Nat} {entry : Nat} {port : Nat} {i : Instr}
    (h : (Event.vsCredit clu entry port).matches i = true) : i = .vsCredit clu entry port := by
  cases i
  case vsCredit clu' entry' port' =>
    have he : (decide (clu = clu') && decide (entry = entry') && decide (port = port')) = true := h
    simp only [Bool.and_eq_true, decide_eq_true_eq] at he
    obtain ⟨⟨rfl, rfl⟩, rfl⟩ := he
    rfl
  all_goals injection h

theorem gangQuery_of_matches {m : Nat} {vf : Nat} {i : Instr}
    (h : (Event.gangQuery m vf).matches i = true) : i = .gangQuery m vf := by
  cases i
  case gangQuery m' vf' =>
    have he : (decide (m = m') && decide (vf = vf')) = true := h
    simp only [Bool.and_eq_true, decide_eq_true_eq] at he
    obtain ⟨rfl, rfl⟩ := he
    rfl
  all_goals injection h

theorem gangPause_of_matches {m : Nat} {vf : Nat} {i : Instr}
    (h : (Event.gangPause m vf).matches i = true) : i = .gangPause m vf := by
  cases i
  case gangPause m' vf' =>
    have he : (decide (m = m') && decide (vf = vf')) = true := h
    simp only [Bool.and_eq_true, decide_eq_true_eq] at he
    obtain ⟨rfl, rfl⟩ := he
    rfl
  all_goals injection h

theorem gangDrainComplete_of_matches {m : Nat} {vf : Nat} {i : Instr}
    (h : (Event.gangDrainComplete m vf).matches i = true) : i = .gangDrainComplete m vf := by
  cases i
  case gangDrainComplete m' vf' =>
    have he : (decide (m = m') && decide (vf = vf')) = true := h
    simp only [Bool.and_eq_true, decide_eq_true_eq] at he
    obtain ⟨rfl, rfl⟩ := he
    rfl
  all_goals injection h

theorem gangStopTimeout_of_matches {m : Nat} {vf : Nat} {i : Instr}
    (h : (Event.gangStopTimeout m vf).matches i = true) : i = .gangStopTimeout m vf := by
  cases i
  case gangStopTimeout m' vf' =>
    have he : (decide (m = m') && decide (vf = vf')) = true := h
    simp only [Bool.and_eq_true, decide_eq_true_eq] at he
    obtain ⟨rfl, rfl⟩ := he
    rfl
  all_goals injection h

theorem gangResume_of_matches {m : Nat} {vf : Nat} {i : Instr}
    (h : (Event.gangResume m vf).matches i = true) : i = .gangResume m vf := by
  cases i
  case gangResume m' vf' =>
    have he : (decide (m = m') && decide (vf = vf')) = true := h
    simp only [Bool.and_eq_true, decide_eq_true_eq] at he
    obtain ⟨rfl, rfl⟩ := he
    rfl
  all_goals injection h

theorem migrationCommandTake_of_matches {m : Nat} {i : Instr}
    (h : (Event.migrationCommandTake m).matches i = true) : i = .migrationCommandTake m := by
  cases i
  case migrationCommandTake m' =>
    have he : m = m' := of_decide_eq_true h
    rw [he]
  all_goals injection h

theorem move_of_matches {m : Nat} {idx : Nat} {i : Instr}
    (h : (Event.move m idx).matches i = true) : i = .move m idx := by
  cases i
  case move m' idx' =>
    have he : (decide (m = m') && decide (idx = idx')) = true := h
    simp only [Bool.and_eq_true, decide_eq_true_eq] at he
    obtain ⟨rfl, rfl⟩ := he
    rfl
  all_goals injection h

theorem dup_of_matches {m : Nat} {idx : Nat} {i : Instr}
    (h : (Event.dup m idx).matches i = true) : i = .dup m idx := by
  cases i
  case dup m' idx' =>
    have he : (decide (m = m') && decide (idx = idx')) = true := h
    simp only [Bool.and_eq_true, decide_eq_true_eq] at he
    obtain ⟨rfl, rfl⟩ := he
    rfl
  all_goals injection h

theorem collapse_of_matches {m : Nat} {idx : Nat} {i : Instr}
    (h : (Event.collapse m idx).matches i = true) : i = .collapse m idx := by
  cases i
  case collapse m' idx' =>
    have he : (decide (m = m') && decide (idx = idx')) = true := h
    simp only [Bool.and_eq_true, decide_eq_true_eq] at he
    obtain ⟨rfl, rfl⟩ := he
    rfl
  all_goals injection h

theorem reclaim_of_matches {m : Nat} {idx : Nat} {i : Instr}
    (h : (Event.reclaim m idx).matches i = true) : i = .reclaim m idx := by
  cases i
  case reclaim m' idx' =>
    have he : (decide (m = m') && decide (idx = idx')) = true := h
    simp only [Bool.and_eq_true, decide_eq_true_eq] at he
    obtain ⟨rfl, rfl⟩ := he
    rfl
  all_goals injection h

theorem migrationCutover_of_matches {m : Nat} {idx : Nat} {i : Instr}
    (h : (Event.migrationCutover m idx).matches i = true) : i = .migrationCutover m idx := by
  cases i
  case migrationCutover m' idx' =>
    have he : (decide (m = m') && decide (idx = idx')) = true := h
    simp only [Bool.and_eq_true, decide_eq_true_eq] at he
    obtain ⟨rfl, rfl⟩ := he
    rfl
  all_goals injection h

theorem migrationCommandComplete_of_matches {m : Nat} {idx : Nat} {i : Instr}
    (h : (Event.migrationCommandComplete m idx).matches i = true) : i = .migrationCommandComplete m idx := by
  cases i
  case migrationCommandComplete m' idx' =>
    have he : (decide (m = m') && decide (idx = idx')) = true := h
    simp only [Bool.and_eq_true, decide_eq_true_eq] at he
    obtain ⟨rfl, rfl⟩ := he
    rfl
  all_goals injection h

theorem stubRelay_of_matches {m : Nat} {src : Place} {i : Instr}
    (h : (Event.stubRelay m src).matches i = true) : i = .stubRelay m src := by
  cases i
  case stubRelay m' src' =>
    have he : (decide (m = m') && decide (src = src')) = true := h
    simp only [Bool.and_eq_true, decide_eq_true_eq] at he
    obtain ⟨rfl, rfl⟩ := he
    rfl
  all_goals injection h

theorem relayAck_of_matches {m : Nat} {page : Nat} {part : Nat} {i : Instr}
    (h : (Event.relayAck m page part).matches i = true) : i = .relayAck m page part := by
  cases i
  case relayAck m' page' part' =>
    have he : (decide (m = m') && decide (page = page') && decide (part = part')) = true := h
    simp only [Bool.and_eq_true, decide_eq_true_eq] at he
    obtain ⟨⟨rfl, rfl⟩, rfl⟩ := he
    rfl
  all_goals injection h

theorem walkReturn_of_matches {die : Nat} {src : Place} {i : Instr}
    (h : (Event.walkReturn die src).matches i = true) : i = .walkReturn die src := by
  cases i
  case walkReturn die' src' =>
    have he : (decide (die = die') && decide (src = src')) = true := h
    simp only [Bool.and_eq_true, decide_eq_true_eq] at he
    obtain ⟨rfl, rfl⟩ := he
    rfl
  all_goals injection h

theorem redirect_of_matches {die : Nat} {page : Nat} {part : Nat} {i : Instr}
    (h : (Event.redirect die page part).matches i = true) : i = .redirect die page part := by
  cases i
  case redirect die' page' part' =>
    have he : (decide (die = die') && decide (page = page') && decide (part = part')) = true := h
    simp only [Bool.and_eq_true, decide_eq_true_eq] at he
    obtain ⟨⟨rfl, rfl⟩, rfl⟩ := he
    rfl
  all_goals injection h

theorem stubQuietExpiry_of_matches {m : Nat} {page : Nat} {part : Nat} {i : Instr}
    (h : (Event.stubQuietExpiry m page part).matches i = true) : i = .stubQuietExpiry m page part := by
  cases i
  case stubQuietExpiry m' page' part' =>
    have he : (decide (m = m') && decide (page = page') && decide (part = part')) = true := h
    simp only [Bool.and_eq_true, decide_eq_true_eq] at he
    obtain ⟨⟨rfl, rfl⟩, rfl⟩ := he
    rfl
  all_goals injection h

theorem purge_of_matches {m : Nat} {frm : Nat} {page : Nat} {part : Nat} {i : Instr}
    (h : (Event.purge m frm page part).matches i = true) : i = .purge m frm page part := by
  cases i
  case purge m' frm' page' part' =>
    have he : (decide (m = m') && decide (frm = frm') && decide (page = page') && decide (part = part')) = true := h
    simp only [Bool.and_eq_true, decide_eq_true_eq] at he
    obtain ⟨⟨⟨rfl, rfl⟩, rfl⟩, rfl⟩ := he
    rfl
  all_goals injection h

theorem purgeAck_of_matches {m : Nat} {frm : Nat} {page : Nat} {part : Nat} {i : Instr}
    (h : (Event.purgeAck m frm page part).matches i = true) : i = .purgeAck m frm page part := by
  cases i
  case purgeAck m' frm' page' part' =>
    have he : (decide (m = m') && decide (frm = frm') && decide (page = page') && decide (part = part')) = true := h
    simp only [Bool.and_eq_true, decide_eq_true_eq] at he
    obtain ⟨⟨⟨rfl, rfl⟩, rfl⟩, rfl⟩ := he
    rfl
  all_goals injection h

theorem collapseInvalidate_of_matches {m : Nat} {idx : Nat} {holder : Nat} {i : Instr}
    (h : (Event.collapseInvalidate m idx holder).matches i = true) : i = .collapseInvalidate m idx holder := by
  cases i
  case collapseInvalidate m' idx' holder' =>
    have he : (decide (m = m') && decide (idx = idx') && decide (holder = holder')) = true := h
    simp only [Bool.and_eq_true, decide_eq_true_eq] at he
    obtain ⟨⟨rfl, rfl⟩, rfl⟩ := he
    rfl
  all_goals injection h

theorem collapseAck_of_matches {m : Nat} {idx : Nat} {holder : Nat} {i : Instr}
    (h : (Event.collapseAck m idx holder).matches i = true) : i = .collapseAck m idx holder := by
  cases i
  case collapseAck m' idx' holder' =>
    have he : (decide (m = m') && decide (idx = idx') && decide (holder = holder')) = true := h
    simp only [Bool.and_eq_true, decide_eq_true_eq] at he
    obtain ⟨⟨rfl, rfl⟩, rfl⟩ := he
    rfl
  all_goals injection h

theorem faultQueueTailAdvance_of_matches {m : Nat} {vf : Nat} {n : Nat} {i : Instr}
    (h : (Event.faultQueueTailAdvance m vf n).matches i = true) : i = .faultQueueTailAdvance m vf n := by
  cases i
  case faultQueueTailAdvance m' vf' n' =>
    have he : (decide (m = m') && decide (vf = vf') && decide (n = n')) = true := h
    simp only [Bool.and_eq_true, decide_eq_true_eq] at he
    obtain ⟨⟨rfl, rfl⟩, rfl⟩ := he
    rfl
  all_goals injection h

theorem keyLoad_of_matches {m : Nat} {pd : Nat} {kid : Nat} {next : Bool} {key : BitVec 256} {i : Instr}
    (h : (Event.keyLoad m pd kid next key).matches i = true) : i = .keyLoad m pd kid next key := by
  cases i
  case keyLoad m' pd' kid' next' key' =>
    have he : (decide (m = m') && decide (pd = pd') && decide (kid = kid') && decide (next = next') && decide (key = key')) = true := h
    simp only [Bool.and_eq_true, decide_eq_true_eq] at he
    obtain ⟨⟨⟨⟨rfl, rfl⟩, rfl⟩, rfl⟩, rfl⟩ := he
    rfl
  all_goals injection h

theorem hostPortUp_of_matches {m : Nat} {port : Nat} {i : Instr}
    (h : (Event.hostPortUp m port).matches i = true) : i = .hostPortUp m port := by
  cases i
  case hostPortUp m' port' =>
    have he : (decide (m = m') && decide (port = port')) = true := h
    simp only [Bool.and_eq_true, decide_eq_true_eq] at he
    obtain ⟨rfl, rfl⟩ := he
    rfl
  all_goals injection h

theorem portDieFailure_of_matches {m : Nat} {pd : Nat} {i : Instr}
    (h : (Event.portDieFailure m pd).matches i = true) : i = .portDieFailure m pd := by
  cases i
  case portDieFailure m' pd' =>
    have he : (decide (m = m') && decide (pd = pd')) = true := h
    simp only [Bool.and_eq_true, decide_eq_true_eq] at he
    obtain ⟨rfl, rfl⟩ := he
    rfl
  all_goals injection h

theorem engineRestore_of_matches {clu : Nat} {eng : Nat} {i : Instr}
    (h : (Event.engineRestore clu eng).matches i = true) : i = .engineRestore clu eng := by
  cases i
  case engineRestore clu' eng' =>
    have he : (decide (clu = clu') && decide (eng = eng')) = true := h
    simp only [Bool.and_eq_true, decide_eq_true_eq] at he
    obtain ⟨rfl, rfl⟩ := he
    rfl
  all_goals injection h

theorem partitionConfigure_of_matches {m : Nat} {part : Nat} {cfg : PartCfg} {i : Instr}
    (h : (Event.partitionConfigure m part cfg).matches i = true) : i = .partitionConfigure m part cfg := by
  cases i
  case partitionConfigure m' part' cfg' =>
    have he : (decide (m = m') && decide (part = part') && decide (cfg = cfg')) = true := h
    simp only [Bool.and_eq_true, decide_eq_true_eq] at he
    obtain ⟨⟨rfl, rfl⟩, rfl⟩ := he
    rfl
  all_goals injection h

theorem errorCounterClear_of_matches {die : Nat} {i : Instr}
    (h : (Event.errorCounterClear die).matches i = true) : i = .errorCounterClear die := by
  cases i
  case errorCounterClear die' =>
    have he : die = die' := of_decide_eq_true h
    rw [he]
  all_goals injection h

/-- A due step runs as the instruction of the opcode table that it matches. -/
theorem runEvent_of_matches {e : Event} {i : Instr} (h : e.matches i = true) (s : State) : runEvent e s = exec i s := by
  cases e with
  | asyncTrapEntry _ => exact congrArg (fun j => exec j s) (asyncTrapEntry_of_matches h).symm
  | itimerFire _ => exact congrArg (fun j => exec j s) (itimerFire_of_matches h).symm
  | intdbWrite _ _ _ => exact congrArg (fun j => exec j s) (intdbWrite_of_matches h).symm
  | preemptNotice _ _ _ => exact congrArg (fun j => exec j s) (preemptNotice_of_matches h).symm
  | sstatWrite _ => exact congrArg (fun j => exec j s) (sstatWrite_of_matches h).symm
  | ipendClear _ => exact congrArg (fun j => exec j s) (ipendClear_of_matches h).symm
  | registerWrite _ _ => exact congrArg (fun j => exec j s) (registerWrite_of_matches h).symm
  | memResponse _ => exact congrArg (fun j => exec j s) (memResponse_of_matches h).symm
  | courseForward _ => exact congrArg (fun j => exec j s) (courseForward_of_matches h).symm
  | courseTimeout _ _ => exact congrArg (fun j => exec j s) (courseTimeout_of_matches h).symm
  | realignTimeout _ => exact congrArg (fun j => exec j s) (realignTimeout_of_matches h).symm
  | streamElementFetch _ _ => exact congrArg (fun j => exec j s) (streamElementFetch_of_matches h).symm
  | streamPush _ _ => exact congrArg (fun j => exec j s) (streamPush_of_matches h).symm
  | matrixOpComplete _ _ => exact congrArg (fun j => exec j s) (matrixOpComplete_of_matches h).symm
  | mcmdCommand _ => exact congrArg (fun j => exec j s) (mcmdCommand_of_matches h).symm
  | mcmdAnswer _ => exact congrArg (fun j => exec j s) (mcmdAnswer_of_matches h).symm
  | spartConversion _ => exact congrArg (fun j => exec j s) (spartConversion_of_matches h).symm
  | waitwMonitorFire _ => exact congrArg (fun j => exec j s) (waitwMonitorFire_of_matches h).symm
  | sevEvent _ => exact congrArg (fun j => exec j s) (sevEvent_of_matches h).symm
  | timeSliceExpiry _ _ => exact congrArg (fun j => exec j s) (timeSliceExpiry_of_matches h).symm
  | slotHandover _ _ => exact congrArg (fun j => exec j s) (slotHandover_of_matches h).symm
  | bteTransferActivate _ => exact congrArg (fun j => exec j s) (bteTransferActivate_of_matches h).symm
  | bteWriteLand _ _ => exact congrArg (fun j => exec j s) (bteWriteLand_of_matches h).symm
  | bteConsumerUpdate _ _ => exact congrArg (fun j => exec j s) (bteConsumerUpdate_of_matches h).symm
  | ixeElementCopy _ _ => exact congrArg (fun j => exec j s) (ixeElementCopy_of_matches h).symm
  | engineCompletion _ _ _ => exact congrArg (fun j => exec j s) (engineCompletion_of_matches h).symm
  | cringtailWrite _ _ => exact congrArg (fun j => exec j s) (cringtailWrite_of_matches h).symm
  | engineOffline _ _ => exact congrArg (fun j => exec j s) (engineOffline_of_matches h).symm
  | autoMigration _ => exact congrArg (fun j => exec j s) (autoMigration_of_matches h).symm
  | migrationArrival _ => exact congrArg (fun j => exec j s) (migrationArrival_of_matches h).symm
  | migrationSlotFree _ => exact congrArg (fun j => exec j s) (migrationSlotFree_of_matches h).symm
  | kleScoring _ _ => exact congrArg (fun j => exec j s) (kleScoring_of_matches h).symm
  | kleServiceRound _ _ => exact congrArg (fun j => exec j s) (kleServiceRound_of_matches h).symm
  | kleRowArrival _ _ => exact congrArg (fun j => exec j s) (kleRowArrival_of_matches h).symm
  | kleReadTimeout _ _ _ => exact congrArg (fun j => exec j s) (kleReadTimeout_of_matches h).symm
  | kleLookupComplete _ _ => exact congrArg (fun j => exec j s) (kleLookupComplete_of_matches h).symm
  | kleOffline _ => exact congrArg (fun j => exec j s) (kleOffline_of_matches h).symm
  | eupdDirectAdd _ _ => exact congrArg (fun j => exec j s) (eupdDirectAdd_of_matches h).symm
  | mergeContribution _ => exact congrArg (fun j => exec j s) (mergeContribution_of_matches h).symm
  | mergeClose _ => exact congrArg (fun j => exec j s) (mergeClose_of_matches h).symm
  | closeAck _ => exact congrArg (fun j => exec j s) (closeAck_of_matches h).symm
  | homeSliceRequest _ _ => exact congrArg (fun j => exec j s) (homeSliceRequest_of_matches h).symm
  | farAtomicExecute _ _ => exact congrArg (fun j => exec j s) (farAtomicExecute_of_matches h).symm
  | pageWalk _ _ => exact congrArg (fun j => exec j s) (pageWalk_of_matches h).symm
  | faultack _ => exact congrArg (fun j => exec j s) (faultack_of_matches h).symm
  | faultackWake _ => exact congrArg (fun j => exec j s) (faultackWake_of_matches h).symm
  | releaseProbe _ _ _ => exact congrArg (fun j => exec j s) (releaseProbe_of_matches h).symm
  | probeEcho _ _ => exact congrArg (fun j => exec j s) (probeEcho_of_matches h).symm
  | uncorrectableError _ => exact congrArg (fun j => exec j s) (uncorrectableError_of_matches h).symm
  | correctableError _ => exact congrArg (fun j => exec j s) (correctableError_of_matches h).symm
  | dieerrlog _ => exact congrArg (fun j => exec j s) (dieerrlog_of_matches h).symm
  | taskDispatch _ _ => exact congrArg (fun j => exec j s) (taskDispatch_of_matches h).symm
  | admissionServe _ => exact congrArg (fun j => exec j s) (admissionServe_of_matches h).symm
  | taskSteal _ _ _ => exact congrArg (fun j => exec j s) (taskSteal_of_matches h).symm
  | stealRequest _ _ => exact congrArg (fun j => exec j s) (stealRequest_of_matches h).symm
  | stealRetry _ _ => exact congrArg (fun j => exec j s) (stealRetry_of_matches h).symm
  | counterUpdate _ _ => exact congrArg (fun j => exec j s) (counterUpdate_of_matches h).symm
  | groupUpdate _ _ => exact congrArg (fun j => exec j s) (groupUpdate_of_matches h).symm
  | grantExpiry _ => exact congrArg (fun j => exec j s) (grantExpiry_of_matches h).symm
  | budgetSet _ _ => exact congrArg (fun j => exec j s) (budgetSet_of_matches h).symm
  | thermalStep _ _ => exact congrArg (fun j => exec j s) (thermalStep_of_matches h).symm
  | criticalTemperature _ => exact congrArg (fun j => exec j s) (criticalTemperature_of_matches h).symm
  | shutdownTemperature _ => exact congrArg (fun j => exec j s) (shutdownTemperature_of_matches h).symm
  | lqdb _ _ => exact congrArg (fun j => exec j s) (lqdb_of_matches h).symm
  | launchTake _ _ => exact congrArg (fun j => exec j s) (launchTake_of_matches h).symm
  | launchEnd _ _ => exact congrArg (fun j => exec j s) (launchEnd_of_matches h).symm
  | vfReset _ _ => exact congrArg (fun j => exec j s) (vfReset_of_matches h).symm
  | vfPolicyWrite _ _ _ => exact congrArg (fun j => exec j s) (vfPolicyWrite_of_matches h).symm
  | hostBarWrite _ _ _ _ _ _ => exact congrArg (fun j => exec j s) (hostBarWrite_of_matches h).symm
  | hostPortDown _ _ => exact congrArg (fun j => exec j s) (hostPortDown_of_matches h).symm
  | packageNumberWrite _ _ => exact congrArg (fun j => exec j s) (packageNumberWrite_of_matches h).symm
  | linkTraining _ _ _ _ => exact congrArg (fun j => exec j s) (linkTraining_of_matches h).symm
  | moduleReset _ => exact congrArg (fun j => exec j s) (moduleReset_of_matches h).symm
  | firmwareFetchRetry _ _ => exact congrArg (fun j => exec j s) (firmwareFetchRetry_of_matches h).symm
  | attestationRequest _ _ => exact congrArg (fun j => exec j s) (attestationRequest_of_matches h).symm
  | stackFailure _ _ => exact congrArg (fun j => exec j s) (stackFailure_of_matches h).symm
  | ochreCoreFault _ _ _ => exact congrArg (fun j => exec j s) (ochreCoreFault_of_matches h).symm
  | flitRoute _ _ => exact congrArg (fun j => exec j s) (flitRoute_of_matches h).symm
  | flitEject _ _ => exact congrArg (fun j => exec j s) (flitEject_of_matches h).symm
  | packetDeliver _ _ _ _ => exact congrArg (fun j => exec j s) (packetDeliver_of_matches h).symm
  | deliveryCredit _ _ _ _ => exact congrArg (fun j => exec j s) (deliveryCredit_of_matches h).symm
  | linkFrameReceive _ _ => exact congrArg (fun j => exec j s) (linkFrameReceive_of_matches h).symm
  | linkDown _ _ => exact congrArg (fun j => exec j s) (linkDown_of_matches h).symm
  | pathFailed _ _ => exact congrArg (fun j => exec j s) (pathFailed_of_matches h).symm
  | accessTimeout _ => exact congrArg (fun j => exec j s) (accessTimeout_of_matches h).symm
  | vsPacketArrive _ _ => exact congrArg (fun j => exec j s) (vsPacketArrive_of_matches h).symm
  | vsCredit _ _ _ => exact congrArg (fun j => exec j s) (vsCredit_of_matches h).symm
  | gangQuery _ _ => exact congrArg (fun j => exec j s) (gangQuery_of_matches h).symm
  | gangPause _ _ => exact congrArg (fun j => exec j s) (gangPause_of_matches h).symm
  | gangDrainComplete _ _ => exact congrArg (fun j => exec j s) (gangDrainComplete_of_matches h).symm
  | gangStopTimeout _ _ => exact congrArg (fun j => exec j s) (gangStopTimeout_of_matches h).symm
  | gangResume _ _ => exact congrArg (fun j => exec j s) (gangResume_of_matches h).symm
  | migrationCommandTake _ => exact congrArg (fun j => exec j s) (migrationCommandTake_of_matches h).symm
  | move _ _ => exact congrArg (fun j => exec j s) (move_of_matches h).symm
  | dup _ _ => exact congrArg (fun j => exec j s) (dup_of_matches h).symm
  | collapse _ _ => exact congrArg (fun j => exec j s) (collapse_of_matches h).symm
  | reclaim _ _ => exact congrArg (fun j => exec j s) (reclaim_of_matches h).symm
  | migrationCutover _ _ => exact congrArg (fun j => exec j s) (migrationCutover_of_matches h).symm
  | migrationCommandComplete _ _ => exact congrArg (fun j => exec j s) (migrationCommandComplete_of_matches h).symm
  | stubRelay _ _ => exact congrArg (fun j => exec j s) (stubRelay_of_matches h).symm
  | relayAck _ _ _ => exact congrArg (fun j => exec j s) (relayAck_of_matches h).symm
  | walkReturn _ _ => exact congrArg (fun j => exec j s) (walkReturn_of_matches h).symm
  | redirect _ _ _ => exact congrArg (fun j => exec j s) (redirect_of_matches h).symm
  | stubQuietExpiry _ _ _ => exact congrArg (fun j => exec j s) (stubQuietExpiry_of_matches h).symm
  | purge _ _ _ _ => exact congrArg (fun j => exec j s) (purge_of_matches h).symm
  | purgeAck _ _ _ _ => exact congrArg (fun j => exec j s) (purgeAck_of_matches h).symm
  | collapseInvalidate _ _ _ => exact congrArg (fun j => exec j s) (collapseInvalidate_of_matches h).symm
  | collapseAck _ _ _ => exact congrArg (fun j => exec j s) (collapseAck_of_matches h).symm
  | faultQueueTailAdvance _ _ _ => exact congrArg (fun j => exec j s) (faultQueueTailAdvance_of_matches h).symm
  | keyLoad _ _ _ _ _ => exact congrArg (fun j => exec j s) (keyLoad_of_matches h).symm
  | hostPortUp _ _ => exact congrArg (fun j => exec j s) (hostPortUp_of_matches h).symm
  | portDieFailure _ _ => exact congrArg (fun j => exec j s) (portDieFailure_of_matches h).symm
  | engineRestore _ _ => exact congrArg (fun j => exec j s) (engineRestore_of_matches h).symm
  | partitionConfigure _ _ _ => exact congrArg (fun j => exec j s) (partitionConfigure_of_matches h).symm
  | errorCounterClear _ => exact congrArg (fun j => exec j s) (errorCounterClear_of_matches h).symm

end Sys2Proof.Proofs.DueSteps
end

section
/-! SUPPORT. The state after reset, and what a step runs (R91, R176, R242, logs 1 and 2). -/

namespace Sys2Proof.Proofs.StepRules

open Sys2Proof Sys2Proof.Machine Sys2Proof.Laws Sys2Proof.Proofs.Steps Sys2Proof.Proofs.DueSteps

/-- Settles O5: no place of a store is listed, so each reads as its reset value. -/
theorem resetState : Obligations.ResetState := by
  unfold Obligations.ResetState
  refine ⟨rfl, rfl, fun _ => rfl, fun k => ⟨rfl, rfl, fun i hi => ?_⟩, fun _ => ⟨rfl, rfl, rfl, rfl⟩⟩
  have htile : tileOf (State.reset.coreOf k) i = Tile.free := by
    change nth Tile.free (List.replicate 8 Tile.free) i = _
    interval_cases i <;> rfl
  rw [htile]
  exact ⟨rfl, rfl, rfl, rfl, rfl⟩

/-- A step before all others runs its instruction. -/
theorem step_urgent {s : State} {e : Event} {es : List Event} {i : Instr} (hu : s.urgent = e :: es) (hm : e.matches i = true) :
    step s = exec i { s with urgent := es } := by
  unfold step
  rw [hu]
  exact runEvent_of_matches hm _

/-- A due step that the open choice picks runs its instruction. -/
theorem step_picked {s : State} {e : Event} {i : Instr} (hu : s.urgent = []) (ha : s.agenda ≠ [])
    (hp : s.agenda[Config.pick s.fresh % (s.agenda.length + 1)]? = some e) (hm : e.matches i = true) :
    step s = exec i { s with fresh := s.fresh + 1
                             agenda := s.agenda.eraseIdx (Config.pick s.fresh % (s.agenda.length + 1)) } := by
  unfold step
  rw [hu]
  cases hl : s.agenda with
  | nil => exact absurd hl ha
  | cons x xs =>
    rw [hl] at hp
    have hc : (s.choice (xs.length + 2)).1 = Config.pick s.fresh % ((x :: xs).length + 1) := rfl
    simp only [hc, hp]
    refine (runEvent_of_matches hm _).trans ?_
    simp only [State.choice, hu]

/-- Settles O7: the issue position's lone word, by its end; a due step, by the instruction it matches. -/
theorem stepRuns : Obligations.StepRuns := by
  unfold Obligations.StepRuns
  refine ⟨?_, fun s e es i => step_urgent, fun s e i => step_picked⟩
  intro s slot w0 w1 w i s1 hu ha hp p s0 hcalm hd hf hw hl hk hf1 hi run turnOver
  have hstep : ∀ {t u : State}, run = .next t → meetAsync s p (afterBundle s1 w0 w1 (.next t)) = .next u →
      step s = .next (turnOver u) := by
    intro t u hrun hmeet
    rw [step_idle hu ha]
    refine issueTurn_next hp ?_
    rw [issueBundle_calm hcalm, runBundle_lone hd hf hw hl hk hi, ← hmeet, ← hrun]
  refine ⟨fun t c a n hrun he => hstep hrun ?_, fun t r sent hrun he => hstep hrun ?_, fun t hrun he => hstep hrun ?_,
    fun t hrun he => hstep hrun ?_⟩
  · rw [afterBundle_trap hf1 he, meetAsync_trap hcalm he]
  · rw [afterBundle_park hf1 he, meetAsync_park he]
  · rw [afterBundle_done hf1 he, meetAsync_done (by rw [captureBundle_issue, forwardBundle_issue, he])]
  · rw [afterBundle_gone hf1 he, meetAsync_gone (by rw [forwardBundle_issue, he])]

end Sys2Proof.Proofs.StepRules
end

section
/-! SUPPORT. The engines of a cluster (R246-R265): finding, changing and dropping an operation, the record of a completion,
and what takes an engine offline. -/

namespace Sys2Proof.Proofs.Engines

open Sys2Proof Sys2Proof.Machine Sys2Proof.Laws

/-! ### The operations that an engine holds -/

section
variable {α : Type} {e : Engine α} {f : α → Nat} {id : Nat}

theorem findOp_id {x : α} (h : findOp e f id = some x) : f x = id := of_decide_eq_true (List.find?_some h :)

theorem findOp_dropOp : findOp (dropOp e f id) f id = none := by
  rw [findOp, List.find?_eq_none]
  intro x hx
  have hne : f x ≠ id := by
    rcases List.mem_append.mp hx with h | h
    · exact of_decide_eq_true (List.mem_filter.mp h).2
    · exact of_decide_eq_true (List.mem_filter.mp h).2
  simpa using hne

/-- The table of states gives an operation's state back where it holds one. -/
theorem fget_setState {y z : XferState} (h : (e.table.any fun w => decide (w.1 = id)) = true) :
    fget z (setState e id y).table id = y := by
  rw [setState]
  simp only
  induction hl : e.table generalizing e with
  | nil => simp [hl] at h
  | cons w l ih =>
    rw [List.map_cons]
    by_cases hw : w.1 = id
    · rw [if_pos hw]
      exact if_pos rfl
    · rw [if_neg hw]
      obtain ⟨j, v⟩ := w
      have hrest : fget z ((j, v) :: l.map fun y' => if y'.1 = id then (id, y) else y') id =
          fget z (l.map fun y' => if y'.1 = id then (id, y) else y') id := if_neg hw
      rw [hrest]
      exact ih (e := { e with table := l }) (by simpa [hl, hw] using h) rfl

end

/-! ### Waking and the ring of completions (R248) -/

theorem fireMonitors_cluOf (s : State) (k a n j : Nat) : (fireMonitors s k a n).cluOf j = s.cluOf j := rfl

theorem spawn_cluOf (s : State) (e : Event) (j : Nat) : (s.spawn e).cluOf j = s.cluOf j := rfl

theorem spawns_cluOf (s : State) (es : List Event) (j : Nat) : (s.spawns es).cluOf j = s.cluOf j := rfl

theorem pokeEngine_cluOf (s : State) (k j : Nat) : (pokeEngine s k).cluOf j = s.cluOf j := rfl

theorem nextWrite_cluOf (s : State) (clu id k : Nat) : (nextWrite s clu id).cluOf k = s.cluOf k := by
  unfold nextWrite
  split
  · rfl
  · split
    · rfl
    · split
      · rfl
      · unfold spawnOnce
        split <;> rfl

theorem writeRecord_cluOf (s : State) (clu r : Nat) : (writeRecord s clu r).cluOf clu = { s.cluOf clu with
    cring := fset (s.cluOf clu).cring ((s.cluOf clu).chead % 64) r, chead := ((s.cluOf clu).chead + 1) % 2 ^ 32
    ringPoison := clearWords (s.cluOf clu).ringPoison ((s.cluOf clu).chead % 64 * 16) 16 } := by
  unfold writeRecord
  simp only
  rw [fireMonitors_cluOf, modClu_cluOf]

/-! ### Block transfers (R246-R258) -/

section
variable {clu id : Nat} {s s0 s1 s2 : State} {x y : Xfer} {rest : List Xfer}

/-- A transfer that leaves the queue, with all its writes to do. -/
def activated (x : Xfer) : Xfer := { x with todo := (List.range (xPlanes x.regs)).flatMap (planeWrites x.regs) }

/-- An engine whose oldest transfer has become active. -/
def activeEngine (e : Engine Xfer) (x : Xfer) (rest : List Xfer) : Engine Xfer :=
  setState { e with queue := rest, active := e.active ++ [activated x] } x.id { st := 1, fault := 0, done := 0 }

theorem exec_bteTransferActivate (hq : (s.cluOf clu).bte.queue = x :: rest) (ha : (s.cluOf clu).bte.active.length < 8)
    (hf : x.fault = 0) (hr : xRing x.regs = false) : exec (.bteTransferActivate clu) s =
      .next (nextWrite (pokeEngine (s.modClu clu fun c => { c with bte := activeEngine c.bte x rest }) clu) clu x.id) := by
  change execBteTransferActivate clu s = _
  unfold execBteTransferActivate
  simp only [hq]
  rw [if_neg (by omega)]
  simp only [hr]
  rfl

theorem bteTransferActivate_runs (hq : (s.cluOf clu).bte.queue = x :: rest) (ha : (s.cluOf clu).bte.active.length < 8)
    (hf : x.fault = 0) (hr : xRing x.regs = false) :
    ∃ u, exec (.bteTransferActivate clu) s = .next u ∧ (u.cluOf clu).bte.queue = rest ∧
      (u.cluOf clu).bte.active = (s.cluOf clu).bte.active ++ [activated x] := by
  refine ⟨_, exec_bteTransferActivate hq ha hf hr, ?_, ?_⟩
  · rw [nextWrite_cluOf, pokeEngine_cluOf, modClu_cluOf]
    rfl
  · rw [nextWrite_cluOf, pokeEngine_cluOf, modClu_cluOf]
    rfl

theorem bteWriteLand_lands {k v fl : Nat} (hx : xferOf s clu id = some x) (hi : x.id = id) (ht : x.todo ≠ []) (hk : x.token = none)
    (hl : x.lost = none) (hc : s.choice x.todo.length = (k, s0))
    (hw : writeBytes s0 x (nth 0 x.todo k / 2 ^ 32) (nth 0 x.todo k % 2 ^ 32) = .ok ((v, fl), s1))
    {run : Nat × Nat} (hrun : pieceRun x.regs (nth 0 x.todo k / 2 ^ 32) (nth 0 x.todo k % 2 ^ 32) = run)
    (hs : sysWrite (secFuel run.2) s1 x.who.mod x.tenant x.part x.priv (addrAdd (rowDst x.regs (nth 0 x.todo k / 2 ^ 32)) run.1)
      run.2 v = .ok s2) {landed : State}
    (hd : ((landBar s2 clu x run.2).modXfer clu id fun y =>
      { y with lost := none, todo := y.todo.filter (· ≠ nth 0 x.todo k), landed := y.landed + run.2, flags := y.flags ||| fl }) =
        landed) :
    exec (.bteWriteLand clu id) s =
      .next (nextWrite (if xRing x.regs then driveRing landed clu id else landed) clu id) := by
  subst hrun hd
  change execBteWriteLand clu id s = _
  unfold execBteWriteLand
  simp only [hx, hk, hl, hc]
  rw [if_neg (by simpa using ht)]
  simp only [goneLost, Option.filter_none, landWrite, hw, hs, hi]

theorem bteConsumerUpdate_reads (hx : xferOf s clu id = some x) (hr : xRing x.regs = true) (hf : x.fault = 0)
    (hy : xferOf (readConsumer s clu id) clu id = some y) : exec (.bteConsumerUpdate clu id) s =
      .next (nextWrite (driveRing (showDepth (readConsumer s clu id) y) clu id) clu id) := by
  change execBteConsumerUpdate clu id s = _
  unfold execBteConsumerUpdate
  simp only [hx]
  rw [if_neg (by simp [hr, hf])]
  simp only [hy]

/-- A completion whose ring has room and that writes no word: the record, and the state of the operation. -/
def transferDone (s : State) (clu : Nat) (x : Xfer) : State :=
  (pokeEngine ((writeRecord (s.modXfer clu x.id fun y => { y with barDone := true }) clu
    (recordOf x.id 0 0 (recordFlags x.flags) x.who x.landed)).modClu clu fun c =>
      { c with bte := setState (dropOp c.bte Xfer.id x.id) x.id { st := 2, fault := 0, done := x.landed } }) clu).spawn
    (.bteTransferActivate clu)

theorem exec_engineCompletion_bte (hx : xferOf s clu id = some x) (hd : xferDone x = true) (hf : x.fault = 0)
    (hr : ringFull (s.cluOf clu) = false) (hw : xreg x.regs 10 = 0) :
    exec (.engineCompletion clu false id) s = .next (transferDone s clu x) := by
  have hfull : ringFull ((s.modXfer clu x.id fun y => { y with barDone := true }).cluOf clu) = false := by
    rw [State.modXfer, modClu_cluOf]
    exact hr
  change execEngineCompletion clu false id s = _
  unfold execEngineCompletion
  simp only [hx]
  rw [if_neg Bool.false_ne_true]
  unfold completeXfer
  rw [if_neg (by rw [hd]; exact Bool.noConfusion)]
  simp only [hf, hw, or_true, if_true, hfull]
  rfl

theorem transferDone_cluOf (s : State) (clu : Nat) (x : Xfer) : (transferDone s clu x).cluOf clu =
    { s.cluOf clu with
      bte := setState (dropOp (modOp (s.cluOf clu).bte Xfer.id x.id fun y => { y with barDone := true }) Xfer.id x.id) x.id
        (XferState.mk 2 0 x.landed)
      cring := fset (s.cluOf clu).cring ((s.cluOf clu).chead % 64) (recordOf x.id 0 0 (recordFlags x.flags) x.who x.landed)
      chead := ((s.cluOf clu).chead + 1) % 2 ^ 32
      ringPoison := clearWords (s.cluOf clu).ringPoison ((s.cluOf clu).chead % 64 * 16) 16 } := by
  rw [transferDone, spawn_cluOf, pokeEngine_cluOf, modClu_cluOf, writeRecord_cluOf, State.modXfer, modClu_cluOf]

end

/-! ### Indirect copies (R259-R265) -/

section
variable {clu id : Nat} {s : State} {o : IxOp}

/-- The status that a record of an indirect copy carries. -/
def ixStatus (o : IxOp) : Nat := if o.killed then 1 else if o.failed then 2 else 0

/-- The completion of an indirect copy whose ring has room and that writes no word. -/
def copyDone (s : State) (clu : Nat) (o : IxOp) : State :=
  let s1 := writeRecord s clu (recordOf o.id (ixStatus o) o.fault (recordFlags o.flags) o.who o.done)
  pokeEngine ((if o.posted then s1.modStrand o.who setLatch else s1).modClu clu fun c =>
    { c with ixe := setState (dropOp c.ixe IxOp.id o.id) o.id (XferState.mk (if ixStatus o = 0 then 2 else 3) o.fault o.done) }) clu

theorem exec_engineCompletion_ixe (ho : ixOf s clu id = some o) (ht : o.todo = []) (hs : o.sent = 0)
    (hr : ringFull (s.cluOf clu) = false) (hw : (if o.eupd then dfield o.desc 0x28 8 else dfield o.desc 0x30 8) = 0) :
    exec (.engineCompletion clu true id) s = .next (copyDone s clu o) := by
  change execEngineCompletion clu true id s = _
  unfold execEngineCompletion
  simp only [ho, if_true]
  unfold completeIx
  rw [if_neg (by simp [ht, hs]), if_neg (by rw [hr]; exact Bool.false_ne_true)]
  simp only [hw, ne_eq, not_true, decide_false, Bool.false_and, Bool.false_eq_true, if_false]
  rfl

theorem copyDone_cluOf (s : State) (clu : Nat) (o : IxOp) : (copyDone s clu o).cluOf clu =
    { s.cluOf clu with
      ixe := setState (dropOp (s.cluOf clu).ixe IxOp.id o.id) o.id
        (XferState.mk (if ixStatus o = 0 then 2 else 3) o.fault o.done)
      cring := fset (s.cluOf clu).cring ((s.cluOf clu).chead % 64)
        (recordOf o.id (ixStatus o) o.fault (recordFlags o.flags) o.who o.done)
      chead := ((s.cluOf clu).chead + 1) % 2 ^ 32
      ringPoison := clearWords (s.cluOf clu).ringPoison ((s.cluOf clu).chead % 64 * 16) 16 } := by
  unfold copyDone
  simp only
  rw [pokeEngine_cluOf, modClu_cluOf]
  have hc : (if o.posted then (writeRecord s clu (recordOf o.id (ixStatus o) o.fault (recordFlags o.flags) o.who o.done)).modStrand
      o.who setLatch else writeRecord s clu (recordOf o.id (ixStatus o) o.fault (recordFlags o.flags) o.who o.done)).cluOf clu =
      (writeRecord s clu (recordOf o.id (ixStatus o) o.fault (recordFlags o.flags) o.who o.done)).cluOf clu := by
    split <;> rfl
  rw [hc, writeRecord_cluOf]

theorem wakeIf_latch (rs : List ParkReason) (x : Strand) : (x.wakeIf rs).latch = x.latch := by
  have h := congrArg Strand.latch (wakeIf_same rs x)
  exact h

/-- The latch of a strand that posted the copy is set (R245). -/
theorem copyDone_latch (hp : o.posted = true) : ((copyDone s clu o).strand o.who).latch = true := by
  have hlatch : ∀ t : State, (((t.modStrand o.who setLatch).strand o.who)).latch = true := fun t => by
    rw [modStrand_strand, WaitsBarriers.setLatch_latch]
  unfold copyDone
  simp only [hp, if_true]
  rcases wakeClu_strand (s := _) (c := clu) (rs := [.engine]) (p := o.who) with h | h
  · exact (congrArg Strand.latch h).trans (hlatch _)
  · exact (congrArg Strand.latch h).trans ((wakeIf_latch ..).trans (hlatch _))

end

/-! ### An engine goes offline (R265) -/

section
variable {clu : Nat} {s : State}

/-- A transfer that an engine going offline has failed. -/
def failedXfer (y : Xfer) : Xfer :=
  { y with fault := if y.fault = 0 then 0x0C else y.fault, faddr := if y.fault = 0 then 0 else y.faddr, todo := [], token := none }

/-- Nothing of a transfer will land, and its fault stands. -/
def DeadXfer (y : Xfer) : Prop := y.fault ≠ 0 ∧ y.todo = []

theorem failedXfer_dead (y : Xfer) : DeadXfer (failedXfer y) := by
  refine ⟨?_, rfl⟩
  change (if y.fault = 0 then 0x0C else y.fault) ≠ 0
  split
  · decide
  · assumption

theorem failXfer_bte (t : State) (i : Nat) :
    ((failXfer t clu i 0x0C 0).cluOf clu).bte = modOp (t.cluOf clu).bte Xfer.id i failedXfer := by
  rw [failXfer, spawn_cluOf, State.modXfer, modClu_cluOf]
  rfl

theorem foldl_failXfer_bte (ids : List Nat) (t : State) : ((ids.foldl (fun t i => failXfer t clu i 0x0C 0) t).cluOf clu).bte =
    ids.foldl (fun e i => modOp e Xfer.id i failedXfer) (t.cluOf clu).bte := by
  induction ids generalizing t with
  | nil => rfl
  | cons i ids ih =>
    rw [List.foldl_cons, List.foldl_cons, ih, failXfer_bte]

theorem foldl_modOp_offline (ids : List Nat) (e : Engine Xfer) :
    (ids.foldl (fun e i => modOp e Xfer.id i failedXfer) e).offline = e.offline := by
  induction ids generalizing e with
  | nil => rfl
  | cons i ids ih => exact ih _

/-- What an operation of an engine is after the operations with a number have been failed. -/
theorem mem_modOp {e : Engine Xfer} {i : Nat} {z : Xfer}
    (h : z ∈ (modOp e Xfer.id i failedXfer).active ++ (modOp e Xfer.id i failedXfer).queue) :
    DeadXfer z ∨ (z.id ≠ i ∧ z ∈ e.active ++ e.queue) := by
  have hmap : (modOp e Xfer.id i failedXfer).active ++ (modOp e Xfer.id i failedXfer).queue =
      (e.active ++ e.queue).map fun y => if y.id = i then failedXfer y else y := List.map_append.symm
  rw [hmap] at h
  obtain ⟨y, hy, rfl⟩ := List.mem_map.mp h
  by_cases hi : y.id = i
  · rw [if_pos hi]
    exact .inl (failedXfer_dead y)
  · rw [if_neg hi]
    exact .inr ⟨hi, hy⟩

/-- Once every number has been gone through, every transfer is dead. -/
theorem foldl_modOp_dead (ids : List Nat) : ∀ e : Engine Xfer, (∀ z ∈ e.active ++ e.queue, z.id ∈ ids ∨ DeadXfer z) →
    ∀ z ∈ (ids.foldl (fun e i => modOp e Xfer.id i failedXfer) e).active ++
      (ids.foldl (fun e i => modOp e Xfer.id i failedXfer) e).queue, DeadXfer z := by
  induction ids with
  | nil => exact fun e h z hz => (h z hz).resolve_left (List.not_mem_nil)
  | cons i ids ih =>
    refine fun e h => ih _ fun z hz => ?_
    rcases mem_modOp hz with hd | ⟨hi, hz⟩
    · exact .inr hd
    · rcases h z hz with hm | hd
      · exact .inl ((List.mem_cons.mp hm).resolve_left hi)
      · exact .inr hd

theorem engineOffline_bte : ∃ u, exec (.engineOffline clu false) s = .next u ∧ (u.cluOf clu).bte.offline = true ∧
    ∀ z ∈ (u.cluOf clu).bte.active ++ (u.cluOf clu).bte.queue, z.fault ≠ 0 ∧ z.todo = [] := by
  refine ⟨_, rfl, ?_⟩
  simp only [foldl_failXfer_bte, foldl_modOp_offline, modClu_cluOf]
  refine ⟨trivial, foldl_modOp_dead _ _ fun z hz => .inl ?_⟩
  exact List.mem_map_of_mem hz

theorem engineOffline_ixe : ∃ u, exec (.engineOffline clu true) s = .next u ∧ (u.cluOf clu).ixe.offline = true ∧
    ∀ z ∈ (u.cluOf clu).ixe.active ++ (u.cluOf clu).ixe.queue, z.killed = true ∧ z.fault ≠ 0 ∧ z.todo = [] := by
  refine ⟨_, rfl, ?_⟩
  rw [spawns_cluOf, modClu_cluOf]
  refine ⟨rfl, fun z hz => ?_⟩
  simp only at hz
  rw [← List.map_append] at hz
  obtain ⟨y, -, rfl⟩ := List.mem_map.mp hz
  refine ⟨rfl, ?_, rfl⟩
  change (if y.fault = 0 then 0x0C else y.fault) ≠ 0
  split
  · decide
  · assumption

end

/-! ### The tail of the completion ring (R248) -/

section
variable {clu v : Nat} {s : State}

theorem setTail_room (h : ((s.cluOf clu).chead + 2 ^ 32 - v % 2 ^ 32) % 2 ^ 32 ≤ 64) :
    setTail s clu (v % 2 ^ 32) = s.modClu clu fun z => { z with ctail := v % 2 ^ 32 } := by
  unfold setTail
  simp only [Nat.mod_mod]
  exact if_pos h

theorem setTail_beyond (h : 64 < ((s.cluOf clu).chead + 2 ^ 32 - v % 2 ^ 32) % 2 ^ 32) : setTail s clu (v % 2 ^ 32) = s := by
  unfold setTail
  simp only [Nat.mod_mod]
  exact if_neg (Nat.not_le.mpr h)

end

/-- Settles O37: each step of the engine and of its ring, and what taking it offline leaves. -/
theorem engineSteps : Obligations.EngineSteps := by
  unfold Obligations.EngineSteps
  intro clu id s s0 s1 s2 x y o rest k v fl val c w run landed t
  refine ⟨bteTransferActivate_runs, fun hx hi ht hk hl hc hw hs => bteWriteLand_lands hx hi ht hk hl hc hw rfl hs rfl,
    bteConsumerUpdate_reads, fun hx hd hf hr hw => ?_, fun ho ht hs hr hw => ?_, fun h => ?_, fun h => ?_, engineOffline_bte,
    engineOffline_ixe, rfl, rfl, fun hk => ?_⟩
  · have hid : x.id = id := findOp_id hx
    refine ⟨_, exec_engineCompletion_bte hx hd hf hr hw, ?_⟩
    rw [xferOf, transferDone_cluOf, ← hid]
    exact ⟨findOp_dropOp, rfl, fget_fset_same .., fun h => fget_setState h⟩
  · have hid : o.id = id := findOp_id ho
    refine ⟨_, exec_engineCompletion_ixe ho ht hs hr hw, ?_⟩
    rw [ixOf, copyDone_cluOf, ← hid]
    exact ⟨findOp_dropOp, rfl, fget_fset_same .., copyDone_latch⟩
  · exact congrArg Host.Outcome.next (setTail_room h)
  · exact congrArg Host.Outcome.next (setTail_beyond h)
  · match k, hk with
    | k + 2, _ => rfl

end Sys2Proof.Proofs.Engines
end

section
/-! SUPPORT. The indirect copy engine and the merge tables (R260, R296, R297): an element, a row that enters a table, a close
and its answers. -/

namespace Sys2Proof.Proofs.IndirectWork

open Sys2Proof Sys2Proof.Machine Sys2Proof.Laws Sys2Proof.Proofs.Remote

/-! ### Elements (R260) -/

section
variable {clu id k : Nat} {s s1 s2 : State} {o : IxOp} {t : UpdTable} (ho : ixOf (beginIx s clu id) clu id = some o)
  (ht : o.todo ≠ []) (hl : o.lost = none) (hc : (beginIx s clu id).choice o.todo.length = (k, s1))

theorem ixPick_open {u : State} (hl : o.lost = none) (hc : u.choice o.todo.length = (k, s1)) : ixPick u o = (nth 0 o.todo k, s1) := by
  rw [ixPick, hl]
  simp only [hc]

theorem lostEnd_none {now : Nat} (hl : o.lost = none) : lostEnd now o.lost = .none := by
  rw [hl]
  rfl

include ho ht hl hc

theorem ixeElementCopy_copies
    (hcopy : copyElement (s1.modIx clu id fun y => { y with todo := y.todo.filter (· ≠ nth 0 o.todo k) }) o (nth 0 o.todo k) = .ok s2) :
    exec (.ixeElementCopy clu id) s =
      .next (nextIx (elementDone (ixGot s2 clu o) clu o (nth 0 o.todo k)) clu id (.ixeElementCopy clu id)) := by
  change execIxeElementCopy clu id s = _
  unfold execIxeElementCopy
  simp only [ho]
  rw [if_neg (by simpa using ht), ixPick_open hl hc]
  simp only [lostEnd_none hl, hcopy]

theorem eupdDirectAdd_runs (htab : tableOf s1 o.who.mod o.tenant o.table = some t) : exec (.eupdDirectAdd clu id) s =
    .next (nextIx (if o.merge then mergeOne s1 clu o t (nth 0 o.todo k / 2048)
      else directOne s1 clu o t (nth 0 o.todo k / 2048) (nth 0 o.todo k % 2048)) clu id (.eupdDirectAdd clu id)) := by
  change execEupdDirectAdd clu id s = _
  unfold execEupdDirectAdd
  simp only [ho]
  rw [if_neg (by simpa using ht), ixPick_open hl hc]
  simp only [lostEnd_none hl, htab]

end

/-! ### The merge tables (R296) -/

theorem fset_ne_nil {α : Type} (l : List (Nat × α)) (k : Nat) (x : α) : fset l k x ≠ [] := by
  cases l with
  | nil => exact List.cons_ne_nil _ _
  | cons e l =>
    unfold fset
    split
    · exact List.cons_ne_nil _ _
    · split <;> exact List.cons_ne_nil _ _

theorem mergeRows_setMergeRows {x : Module} {vf table step : Nat} {rows : List (Nat × List Nat)} (h : rows ≠ []) :
    mergeRows (setMergeRows x vf table step rows) vf table step = rows := by
  unfold setMergeRows
  simp only
  rw [if_neg (by simpa using h), mergeRows]
  simp only
  rw [List.find?_cons_of_pos (by simp)]

theorem mergeRows_setMergeRows_nil {x : Module} {vf table step : Nat} :
    mergeRows (setMergeRows x vf table step []) vf table step = [] := by
  unfold setMergeRows
  simp only [List.isEmpty_nil, if_true]
  rw [mergeRows]
  have hnone : (x.merges.filter fun t => decide (¬(t.vf = vf ∧ t.table = table ∧ t.step = step))).find?
      (fun t => decide (t.vf = vf ∧ t.table = table ∧ t.step = step)) = none := by
    rw [List.find?_eq_none]
    intro t ht
    have h := of_decide_eq_true (List.mem_filter.mp ht).2
    simpa using h
  simp only [hnone]

section
variable {clu id m : Nat} {s : State} {rest : List Note} {vf table step row addr mask lr : Nat} {g : List Nat} {p : Place}

theorem mergeContribution_enters (hn : s.notes = .merge m vf table step row addr g clu id mask :: rest)
    (hb : stepBefore step (openStep (s.modOf m) vf table) = false)
    (hcap : (mergeRows (s.modOf m) vf table step).length < ((tableOf s m vf table).map (·.mcap)).getD 0) :
    exec (.mergeContribution m) s = .next (rowArrived ({ s with notes := rest }.modMod m fun y =>
      setMergeRows y vf table step (fset (mergeRows (s.modOf m) vf table step) row
        (addRows (fget (g.map fun _ => 0) (mergeRows (s.modOf m) vf table step) row) g))) clu id mask addr true) := by
  change execMergeContribution m s = _
  unfold execMergeContribution
  rw [hn]
  simp only
  rw [takeNote_head (y := (vf, table, step, row, addr, g, clu, id, mask)) (if_pos rfl)]
  have hb' : stepBefore step (openStep (State.modOf { s with notes := rest } m) vf table) = false := hb
  have hcap' : (mergeRows (State.modOf { s with notes := rest } m) vf table step).length <
    ((tableOf { s with notes := rest } m vf table).map (·.mcap)).getD 0 := hcap
  simp only [hb']
  rw [if_neg Bool.false_ne_true, if_neg (by simp [Nat.not_le.mpr hcap'])]
  rfl

/-- The state that a close leaves when its rows have been applied. -/
def stepClosed (v : State) (m vf table step : Nat) (p : Place) : State :=
  ((v.modMod m fun x =>
    { setMergeRows x vf table step [] with
      openSteps := fset (setMergeRows x vf table step []).openSteps (vf * 256 + table) ((step + 1) % 2 ^ 32) }).note
        (.closeAck m p)).spawn (.closeAck p)

theorem stepClosed_closes (v : State) : mergeRows ((stepClosed v m vf table step p).modOf m) vf table step = [] ∧
    openStep ((stepClosed v m vf table step p).modOf m) vf table = (step + 1) % 2 ^ 32 ∧
    .closeAck m p ∈ (stepClosed v m vf table step p).notes := by
  have hm : (stepClosed v m vf table step p).modOf m = { setMergeRows (v.modOf m) vf table step [] with
      openSteps := fset (setMergeRows (v.modOf m) vf table step []).openSteps (vf * 256 + table) ((step + 1) % 2 ^ 32) } :=
    modMod_modOf v m fun x => { setMergeRows x vf table step [] with
      openSteps := fset (setMergeRows x vf table step []).openSteps (vf * 256 + table) ((step + 1) % 2 ^ 32) }
  rw [hm]
  exact ⟨mergeRows_setMergeRows_nil, fget_fset_same .., List.mem_append_right _ (List.mem_singleton.mpr rfl)⟩

theorem exec_mergeClose (hn : s.notes = .close m vf table step lr p :: rest) :
    ∃ v, exec (.mergeClose m) s = .next (stepClosed v m vf table step p) := by
  have hrun : exec (.mergeClose m) s = .next (stepClosed (match tableOf { s with notes := rest } m vf table with
      | none => { s with notes := rest }
      | some t => (mergeRows (State.modOf { s with notes := rest } m) vf table step).foldl
          (fun (u : State) (e : Nat × List Nat) => applyRow m vf t e.1 lr e.2 0 u) { s with notes := rest }) m vf table step p) := by
    change execMergeClose m s = _
    unfold execMergeClose
    rw [hn]
    simp only
    rw [takeNote_head (y := (vf, table, step, lr, p)) (if_pos rfl)]
    rfl
  exact ⟨_, hrun⟩

theorem mergeClose_closes (hn : s.notes = .close m vf table step lr p :: rest) :
    ∃ u, exec (.mergeClose m) s = .next u ∧ mergeRows (u.modOf m) vf table step = [] ∧
      openStep (u.modOf m) vf table = (step + 1) % 2 ^ 32 ∧ .closeAck m p ∈ u.notes := by
  obtain ⟨v, he⟩ := exec_mergeClose hn
  exact ⟨_, he, stepClosed_closes v⟩

/-! ### The answers to a close (R297) -/

/-- The closings of a place. -/
def closingsOf (s : State) (p : Place) : List Closing := (s.modOf p.mod).closings.filter fun z => decide (z.src = p)

/-- A list with one element of a kind: changing the first of the kind changes that one. -/
theorem mapFirst_of_filter {α : Type} {q : α → Bool} {f : α → α} {c : α} (hf : ∀ z, q (f z) = q z) : ∀ {l : List α}, l.filter q = [c] →
    (mapFirst q f l).find? q = some (f c) ∧ (mapFirst q f l).filter q = [f c]
  | [], h => by cases h
  | x :: xs, h => by
    unfold mapFirst
    by_cases hx : q x = true
    · rw [List.filter_cons_of_pos hx] at h
      obtain ⟨rfl, hxs⟩ := List.cons.inj h
      rw [if_pos hx, List.find?_cons_of_pos ((hf x).trans hx), List.filter_cons_of_pos ((hf x).trans hx), hxs]
      exact ⟨rfl, rfl⟩
    · rw [List.filter_cons_of_neg hx] at h
      rw [if_neg hx, List.find?_cons_of_neg hx, List.filter_cons_of_neg hx]
      exact mapFirst_of_filter hf h

theorem wake_resps (x : Strand) : x.wake.resps = x.resps := by
  unfold Strand.wake
  split <;> rfl

/-- A closing that one more home has answered. -/
def acked (m : Nat) (c : Closing) : Closing := { c with acks := c.acks.filter (· ≠ m) }

/-- The closings of a module once a home has answered the one of a place. -/
def ackedClosings (s : State) (p : Place) (m : Nat) : List Closing :=
  mapFirst (fun c => decide (c.src = p)) (acked m) (s.modOf p.mod).closings

/-- The state after the last answer to a close. -/
def closeAnswered (s : State) (p : Place) (m step : Nat) (rest : List Note) : State :=
  giveAnswer ({ s with notes := rest }.modMod p.mod fun x =>
    { x with closings := (ackedClosings s p m).filter fun c => !c.acks.isEmpty }) p 0 step

theorem closeAnswered_closings (s : State) (p : Place) (m step : Nat) (rest : List Note) :
    ((closeAnswered s p m step rest).modOf p.mod).closings = (ackedClosings s p m).filter fun c => !c.acks.isEmpty := by
  have h := modMod_modOf { s with notes := rest } p.mod fun x =>
    { x with closings := (ackedClosings s p m).filter fun c => !c.acks.isEmpty }
  exact congrArg Module.closings h

theorem closeAck_last {c : Closing} (hn : s.notes = .closeAck m p :: rest) (hours : closingsOf s p = [c]) (hc : c.acks = [m]) :
    ∃ u, exec (.closeAck p) s = .next u ∧ u.notes = rest ∧ closingsOf u p = [] ∧
      (u.strand p).resps = (s.strand p).resps ++ [Resp.unit 0 c.step] := by
  obtain ⟨hfind, hfilter⟩ := mapFirst_of_filter (f := acked m) (fun _ => rfl) hours
  have hacks : (acked m c).acks = [] := by
    rw [acked, hc]
    simp
  have he : exec (.closeAck p) s = .next (closeAnswered s p m c.step rest) := by
    change execCloseAck p s = _
    unfold execCloseAck
    rw [hn]
    simp only
    rw [takeNote_head (y := m) (if_pos rfl)]
    simp only
    rw [show (State.modOf { s with notes := rest } p.mod).closings = (s.modOf p.mod).closings from rfl]
    change (match (mapFirst (fun c => decide (c.src = p)) (acked m) (s.modOf p.mod).closings).find? (fun c => decide (c.src = p)) with
      | some c => _
      | none => _) = _
    rw [hfind]
    simp only
    rw [if_pos (by rw [hacks]; rfl)]
    rfl
  refine ⟨_, he, rfl, ?_, ?_⟩
  · rw [closingsOf, closeAnswered_closings, List.filter_comm, ackedClosings, hfilter, List.filter_cons_of_neg (by rw [hacks]; decide)]
    rfl
  · unfold closeAnswered giveAnswer
    rw [modStrand_strand, wake_resps]
    rfl

end

/-- Settles O39: the element that is picked, the note that stands first, the last answer. -/
theorem indirectSteps : Obligations.IndirectSteps := by
  unfold Obligations.IndirectSteps
  intro clu id m k p s s1 s2 o t rest vf table step row addr mask lr g c e begun taken ours
  refine ⟨fun ho ht hl hc => ⟨ixeElementCopy_copies ho ht hl hc, fun htab hm => ?_, fun htab hm => ?_⟩,
    fun hn hb => ?_, mergeClose_closes, closeAck_last⟩
  · rw [eupdDirectAdd_runs ho ht hl hc htab, if_neg (by rw [hm]; exact Bool.false_ne_true)]
  · rw [eupdDirectAdd_runs ho ht hl hc htab, if_pos hm]
  · intro rows sum u hcap
    refine ⟨mergeContribution_enters hn hb hcap, ?_⟩
    rw [show u.modOf m = _ from modMod_modOf .., mergeRows_setMergeRows (fset_ne_nil _ _ _), fget_fset_same]

end Sys2Proof.Proofs.IndirectWork
end

section
/-! SUPPORT. The steps of a lookup (R270 to R292): scoring, the reads of its rows, their arrival, the output and an engine
taken offline. -/

namespace Sys2Proof.Proofs.LookupWork

open Sys2Proof Sys2Proof.Machine Sys2Proof.Laws Sys2Proof.Proofs.Engines

section
variable {clu i : Nat} {s : State}

/-! ### Scoring (R274) -/

section
variable (hst : (kctx (s.cluOf clu) i).st = 1) (hsc : (kctx (s.cluOf clu) i).scored = false)
  (ho : (kctx (s.cluOf clu) i).outOnly = false)
include hst hsc ho

theorem kleScoring_scores {z : KCtx} {s1 : State} (hq : (kctx (s.cluOf clu) i).qtodo = [])
    (h : (if (kctx (s.cluOf clu) i).bag then scoreBag s (kctx (s.cluOf clu) i) else scoreLookup s (kctx (s.cluOf clu) i)) =
      .ok (z, s1)) :
    exec (.kleScoring clu i) s = .next (startGather (s1.modCtx clu i fun _ => z) clu i) := by
  change execKleScoring clu i s = _
  unfold execKleScoring
  dsimp only
  rw [if_neg (by simp [hst, ho]), if_neg (by simp [hsc]), if_neg (by simp [hq])]
  simp only [h]

theorem kleScoring_reads {z : KCtx} {s1 : State} (hq : (kctx (s.cluOf clu) i).qtodo ≠ [])
    (h : readQuery s (kctx (s.cluOf clu) i) = .ok (z, s1)) :
    exec (.kleScoring clu i) s = .next ((s1.modCtx clu i fun _ => z).spawn (.kleScoring clu i)) := by
  change execKleScoring clu i s = _
  unfold execKleScoring
  dsimp only
  rw [if_neg (by simp [hst, ho]), if_neg (by simp [hsc]), if_pos hq]
  simp only [h]

end

/-! ### The rows (R276, R277) -/

theorem kleScoring_issues (hst : (kctx (s.cluOf clu) i).st = 1) (hsc : (kctx (s.cluOf clu) i).scored = true)
    (ho : (kctx (s.cluOf clu) i).outOnly = false) (ht : (kctx (s.cluOf clu) i).todo ≠ []) :
    exec (.kleScoring clu i) s = .next
      (if (kctx ((nextRow (issueRead s clu i) clu i).cluOf clu) i).todo.isEmpty then nextRow (issueRead s clu i) clu i
       else spawnOnce (nextRow (issueRead s clu i) clu i) (.kleScoring clu i)) := by
  change execKleScoring clu i s = _
  unfold execKleScoring
  dsimp only
  rw [if_neg (by simp [hst, ho]), if_pos hsc, if_neg (by simpa using ht)]

theorem kleServiceRound_serves {die slice : Nat} {p : PointRead} {ps : List PointRead}
    (h : (roundReads s die slice).foldr (roundInsert s (fget (2 ^ 18 - 1) (s.dieOf die).rounds slice)) [] = ps)
    (hp : ps.head? = some p) {ended : State}
    (he : ps.foldl (fun (t : State) (e : PointRead) => nextRow t e.clu e.ctx) (ps.foldl (serveGranule die)
      (s.modDie die fun e => { e with rounds := fset e.rounds slice (sourceKey s p) }, [])).1 = ended) :
    exec (.kleServiceRound die slice) s =
      .next (if (roundReads ended die slice).isEmpty then ended else spawnOnce ended (.kleServiceRound die slice)) := by
  change execKleServiceRound die slice s = _
  unfold execKleServiceRound
  dsimp only
  obtain ⟨qs, rfl⟩ := List.head?_eq_some_iff.mp hp
  simp only [h, he]

theorem kleRowArrival_adds {k : Nat} {s1 : State} (hst : (kctx (s.cluOf clu) i).st = 1)
    (hr : (List.range (rankCount (kctx (s.cluOf clu) i))).filter (rowReady (kctx (s.cluOf clu) i)) ≠ [])
    (hk : s.choice ((List.range (rankCount (kctx (s.cluOf clu) i))).filter (rowReady (kctx (s.cluOf clu) i))).length = (k, s1)) :
    let x := kctx (s.cluOf clu) i
    let r := nth 0 ((List.range (rankCount x)).filter (rowReady x)) k
    let vs := runVals (ptrCode (dVt x.desc)) (ptrK (dVt x.desc)) (dL x.desc)
      (rowData (valueRow x.desc (nth 0 x.rows r)) (x.got.filter fun e => decide (e.1 = r)))
    let out := List.zipWith (accStep (nth 0 x.weights r)) vs x.acc
    exec (.kleRowArrival clu i) s = .next (nextRow (s1.modCtx clu i fun y =>
      { y with acc := out.map (·.1), flags := out.foldl (fun f e => f ||| e.2) y.flags,
               doneMask := y.doneMask ||| 2 ^ r, got := y.got.filter fun e => decide (e.1 ≠ r) }) clu i) := by
  change execKleRowArrival clu i s = _
  unfold execKleRowArrival
  dsimp only
  rw [if_neg (by simpa [hst] using hr)]
  simp only [hk]

section
variable {rank : Nat} {q : KRead} (hst : (kctx (s.cluOf clu) i).st = 1)
  (hq : ((kctx (s.cluOf clu) i).reads.find? fun e => decide (e.rank = rank) &&
    (e.lost || remoteRead s (kctx (s.cluOf clu) i) e.addr)) = some q)
include hst hq

theorem kleReadTimeout_fails (h : q.issued + 16384 ≤ s.ticks) : exec (.kleReadTimeout clu i rank) s =
    .next (nextRow (readFails s { clu := clu, ctx := i, read := q } .unanswered q.addr) clu i) := by
  change execKleReadTimeout clu i rank s = _
  unfold execKleReadTimeout
  simp only [hq]
  rw [if_neg (by simp [hst]), if_pos h]

theorem kleReadTimeout_waits (h : s.ticks < q.issued + 16384) : exec (.kleReadTimeout clu i rank) s =
    .next (s.again (.kleReadTimeout clu i rank)) := by
  change execKleReadTimeout clu i rank s = _
  unfold execKleReadTimeout
  simp only [hq]
  rw [if_neg (by simp [hst]), if_neg (by omega)]

end

/-! ### The output (R277, R292) -/

section
variable (hst : (kctx (s.cluOf clu) i).st = 1)
  (he : (kctx (s.cluOf clu) i).outOnly = true ∨ (kctx (s.cluOf clu) i).scored = true ∧ rowsOver (kctx (s.cluOf clu) i) = true)
include hst he

theorem live : ¬((kctx (s.cluOf clu) i).st ≠ 1 ∨
    (!((kctx (s.cluOf clu) i).outOnly || (kctx (s.cluOf clu) i).scored && rowsOver (kctx (s.cluOf clu) i))) = true) := by
  simp only [hst, ne_eq, not_true_eq_false, false_or, Bool.not_eq_true', Bool.not_eq_false, Bool.or_eq_true, Bool.and_eq_true]
  exact he

theorem kleLookupComplete_faults (hf : (kctx (s.cluOf clu) i).failed ≠ 0) :
    exec (.kleLookupComplete clu i) s = .next (faultCtx s clu i) := by
  change execKleLookupComplete clu i s = _
  unfold execKleLookupComplete
  dsimp only
  rw [if_neg (live hst he), if_pos hf]

theorem kleLookupComplete_writes {ys : List Sys2Proof.Num} {f1 f2 : Nat} {wild : Bool} {cs : List Nat} {s2 : State}
    (hf : (kctx (s.cluOf clu) i).failed = 0) (hsp : (kctx (s.cluOf clu) i).spoilt = false)
    (hv : outVals (kctx (s.cluOf clu) i) = (ys, f1, wild))
    (hc : codesFlags (roundAll (ptrCode (dOut (kctx (s.cluOf clu) i).desc)) .rne ys
      (BitVec.ofNat 32 (kctx (s.cluOf clu) i).seed)).1 = (cs, f2))
    (hw : outWrite (secFuel (outBytes (kctx (s.cluOf clu) i).desc))
      (s.modCtx clu i fun y => { y with flags := y.flags ||| f1 ||| f2, winv := y.winv || wild }) (kctx (s.cluOf clu) i)
      (dOut (kctx (s.cluOf clu) i).desc % addrSpace) (outBytes (kctx (s.cluOf clu) i).desc)
      (packLanes (elemBits (ptrCode (dOut (kctx (s.cluOf clu) i).desc))) cs) = (s2, none)) :
    exec (.kleLookupComplete clu i) s = .next (ctxDone s2 clu i) := by
  change execKleLookupComplete clu i s = _
  unfold execKleLookupComplete
  dsimp only
  rw [if_neg (live hst he), if_neg (by simp [hf])]
  simp only [hv, hc, outValue, hsp, Bool.false_eq_true, if_false, hw]

end

/-! ### An engine taken offline (R287) -/

theorem spadPut_kctx (t : State) (off n v : Nat) : ((spadPut t clu off n v).cluOf clu).kctx = (t.cluOf clu).kctx ∧
    ((spadPut t clu off n v).cluOf clu).kOffline = (t.cluOf clu).kOffline := by
  rw [spadPut, fireMonitors_cluOf, modClu_cluOf]
  exact ⟨rfl, rfl⟩

theorem putRecord_kctx (t : State) : ((putRecord t clu i).cluOf clu).kctx = (t.cluOf clu).kctx ∧
    ((putRecord t clu i).cluOf clu).kOffline = (t.cluOf clu).kOffline := by
  unfold putRecord
  dsimp only
  split
  · obtain ⟨h1, h2⟩ := spadPut_kctx (clu := clu) (spadPut t clu (recordOff (t.cluOf clu) i) 0x200
      (recordBytes (kctx (t.cluOf clu) i) i)) (recordOff (t.cluOf clu) i + 0x200) 4096 (packLanes 32 (kctx (t.cluOf clu) i).acc)
    rw [h1, h2]
    exact spadPut_kctx _ _ _ _
  · exact spadPut_kctx _ _ _ _

theorem foldl_modStrand_cluOf (f : Strand → Strand) (ps : List Place) (t : State) :
    (ps.foldl (fun u p => u.modStrand p f) t).cluOf clu = t.cluOf clu := by
  induction ps generalizing t with
  | nil => rfl
  | cons p ps ih => exact (ih _).trans rfl

theorem tellWaiters_cluOf (t : State) : (tellWaiters t clu i).cluOf clu = t.cluOf clu := foldl_modStrand_cluOf _ _ _

theorem count_cluOf (t : State) (d n : Nat) : (t.count d n).cluOf clu = t.cluOf clu := rfl

theorem modCtx_cluOf (t : State) (f : KCtx → KCtx) : (t.modCtx clu i f).cluOf clu =
    { t.cluOf clu with kctx := fset (t.cluOf clu).kctx i (f (kctx (t.cluOf clu) i)) } := modClu_cluOf _ _ _

/-- The context of the faulted lookup, before its waiters have been told. -/
def faulted (x : KCtx) : KCtx := { x with st := 3, todo := [], reads := [], got := [] }

theorem faultCtx_cluOf (t : State) : ((faultCtx t clu i).cluOf clu).kOffline = (t.cluOf clu).kOffline ∧
    (kctx ((faultCtx t clu i).cluOf clu) i).st = 3 ∧
    ∀ j, j ≠ i → kctx ((faultCtx t clu i).cluOf clu) j = kctx (t.cluOf clu) j := by
  have hp := putRecord_kctx (clu := clu) (i := i) ((t.modCtx clu i faulted).count (cluDie clu) 10)
  have hc : (faultCtx t clu i).cluOf clu =
      (((tellWaiters (putRecord ((t.modCtx clu i faulted).count (cluDie clu) 10) clu i) clu i).modCtx clu i
        fun x => { x with waiters := [] }).cluOf clu) := rfl
  rw [hc, modCtx_cluOf, tellWaiters_cluOf]
  rw [count_cluOf, modCtx_cluOf] at hp
  obtain ⟨hk, ho⟩ := hp
  refine ⟨ho, ?_, fun j hj => ?_⟩
  · unfold kctx
    rw [fget_fset_same, hk, fget_fset_same]
    rfl
  · unfold kctx
    rw [fget_fset_other _ _ _ _ _ hj, hk, fget_fset_other _ _ _ _ _ hj]

/-- A lookup of an engine taken offline fails with fault 0x0C (R287). -/
def offlineFault (clu : Nat) (t : State) (i : Nat) : State :=
  faultCtx (t.modCtx clu i fun y => { y.note 0x0C 0 (phaseOf y) with fcode := 0x0C }) clu i

theorem offlineFault_cluOf (t : State) : ((offlineFault clu t i).cluOf clu).kOffline = (t.cluOf clu).kOffline ∧
    (kctx ((offlineFault clu t i).cluOf clu) i).st = 3 ∧
    ∀ j, j ≠ i → kctx ((offlineFault clu t i).cluOf clu) j = kctx (t.cluOf clu) j := by
  obtain ⟨h1, h2, h3⟩ := faultCtx_cluOf (clu := clu) (i := i)
    (t.modCtx clu i fun y => { y.note 0x0C 0 (phaseOf y) with fcode := 0x0C })
  rw [modCtx_cluOf] at h1 h3
  exact ⟨h1, h2, fun j hj => (h3 j hj).trans (fget_fset_other _ _ _ _ _ hj)⟩

theorem foldl_offlineFault (ids : List Nat) : ∀ t : State, ((ids.foldl (offlineFault clu) t).cluOf clu).kOffline =
      (t.cluOf clu).kOffline ∧
    ∀ j, (j ∈ ids ∨ (kctx (t.cluOf clu) j).st = 3) → (kctx ((ids.foldl (offlineFault clu) t).cluOf clu) j).st = 3 := by
  induction ids with
  | nil => exact fun t => ⟨rfl, fun j h => h.resolve_left List.not_mem_nil⟩
  | cons i ids ih =>
    intro t
    obtain ⟨h1, h2, h3⟩ := offlineFault_cluOf (clu := clu) (i := i) t
    obtain ⟨g1, g2⟩ := ih (offlineFault clu t i)
    rw [List.foldl_cons]
    refine ⟨g1.trans h1, fun j h => g2 j ?_⟩
    by_cases hj : j = i
    · rw [hj]
      exact .inr h2
    · rw [h3 j hj]
      exact h.imp_left fun h => (List.mem_cons.mp h).resolve_left hj

theorem mem_of_fget_ne {α : Type} {d : α} {l : List (Nat × α)} {k : Nat} : fget d l k ≠ d → (k, fget d l k) ∈ l := by
  induction l with
  | nil => exact fun h => absurd rfl h
  | cons e l ih =>
    obtain ⟨j, v⟩ := e
    unfold fget
    split
    · next h => exact fun _ => h ▸ List.mem_cons_self
    · exact fun h => List.mem_cons_of_mem _ (ih h)

/-- The Pending contexts of a cluster. -/
def pendingIds (c : Cluster) : List Nat := (c.kctx.filter fun e => decide (e.2.st = 1)).map (·.1)

theorem mem_pendingIds {c : Cluster} {j : Nat} (h : (kctx c j).st = 1) : j ∈ pendingIds c := by
  have hn : kctx c j ≠ KCtx.free := fun e => by
    rw [e] at h
    exact absurd h (by decide)
  exact List.mem_map.mpr ⟨(j, kctx c j), List.mem_filter.mpr ⟨mem_of_fget_ne hn, decide_eq_true h⟩, rfl⟩

theorem kleOffline_faults : ∃ t, exec (.kleOffline clu) s = .next t ∧ (t.cluOf clu).kOffline = true ∧
    ∀ j, (kctx (s.cluOf clu) j).st = 1 → (kctx (t.cluOf clu) j).st = 3 := by
  obtain ⟨h1, h2⟩ := foldl_offlineFault (clu := clu) (pendingIds (s.cluOf clu))
    ((s.modClu clu fun c => { c with kOffline := true }).count (cluDie clu) 10)
  rw [count_cluOf, modClu_cluOf] at h1
  exact ⟨_, rfl, h1, fun j hj => h2 j (.inl (mem_pendingIds hj))⟩

end

/-- Settles O41: each step of a lookup is one branch of its event; an engine taken offline faults its contexts one after
another, and none of the later ones changes what an earlier one has become. -/
theorem lookupSteps : Obligations.LookupSteps := by
  unfold Obligations.LookupSteps
  intro clu i k die slice rank f1 f2 s s1 s2 z p ps q ys cs wild
  refine ⟨fun hst hsc ho => ⟨kleScoring_scores hst hsc ho, kleScoring_reads hst hsc ho⟩, kleScoring_issues,
    fun h hp => kleServiceRound_serves h hp rfl, kleRowArrival_adds,
    fun hst hq => ⟨kleReadTimeout_fails hst hq, kleReadTimeout_waits hst hq⟩, kleLookupComplete_faults,
    fun hst he hf hsp hv hc hw => kleLookupComplete_writes hst he hf hsp hv hc hw, kleOffline_faults⟩

end Sys2Proof.Proofs.LookupWork

end

section
/-! SUPPORT. Admission, groups, budgets and temperature (R357, R364, R387). -/

namespace Sys2Proof.Proofs.PowerWork

open Sys2Proof Sys2Proof.Machine Sys2Proof.Laws Sys2Proof.Proofs.Remote Sys2Proof.Proofs.PowerGroups

variable {die : Nat} {s : State}

/-! ### The admission queue (R364) -/

section
variable {rest : List AdmReq}

section
variable {p : Place} {u dur : Nat} (h : (s.dieOf die).adm = .grant p u dur :: rest)
include h

theorem admissionServe_grants (hu : (u : Int) ≤ (s.dieOf die).free) : exec (.admissionServe die) s =
    .next (wakeAdmission ((giveGrant s p u dur).modDie die fun x => { x with adm := rest }) die) := by
  change execAdmissionServe die s = _
  unfold execAdmissionServe
  simp only [h]
  exact if_pos hu

theorem admissionServe_waits (hu : (s.dieOf die).free < (u : Int)) : exec (.admissionServe die) s = .next s := by
  change execAdmissionServe die s = _
  unfold execAdmissionServe
  simp only [h]
  exact if_neg (by omega)

end

theorem admissionServe_remote {core st : Nat} (h : (s.dieOf die).adm = .remote core st :: rest) (hu : 2 ≤ (s.dieOf die).free) :
    exec (.admissionServe die) s =
      .next (wakeAdmission ((giveRemote s die core st).modDie die fun x => { x with adm := rest }) die) := by
  change execAdmissionServe die s = _
  unfold execAdmissionServe
  simp only [h]
  exact if_pos hu

theorem grantExpiry_releases {p : Place} (hv : tokenV (s.strand p).csr.pwtoken = true)
    (hx : tokenValid (s.now p.mod) (s.strand p).csr.pwtoken = false) :
    exec (.grantExpiry p) s = .next (releaseGrant s p) := by
  change execGrantExpiry p s = _
  unfold execGrantExpiry
  dsimp only
  rw [hv, hx]
  rfl

theorem grantExpiry_keeps {p : Place} (h : tokenV (s.strand p).csr.pwtoken = false ∨
    tokenValid (s.now p.mod) (s.strand p).csr.pwtoken = true) : exec (.grantExpiry p) s = .next s := by
  change execGrantExpiry p s = _
  unfold execGrantExpiry
  exact if_neg (by simpa [or_iff_not_imp_left] using h)

end

/-! ### Groups (R367) -/

theorem wakeArrivals_dieOf (g k : Nat) (ps : List Place) (t : State) : (ps.foldl (wakeArrival g) t).dieOf k = t.dieOf k := by
  induction ps generalizing t with
  | nil => rfl
  | cons p ps ih => exact (ih _).trans rfl

theorem settleGroup_last (t : State) {k : Nat} {g : Group} (h0 : g.remaining = 0) (hm : 0 < g.members) :
    fget Group.empty ((settleGroup t die k g).dieOf die).groups k =
      { g with phase := (g.phase + 1) % 2, remaining := g.members, arrivals := [] } := by
  unfold settleGroup
  dsimp only
  rw [if_pos ⟨h0, hm⟩, wakeArrivals_dieOf, modDie_dieOf, fget_fset_same]

/-- What a group's home does with an operation (R367). -/
def groupDone (t : State) (die k : Nat) (p : Place) (g : Group) : GrpOp → State
  | .join => giveAnswer (settleGroup t die k { g with members := g.members + 1, remaining := g.remaining + 1 }) p 0 g.gen
  | .leave => giveAnswer (settleGroup t die k g.leave) p 0 g.gen
  | .quit => settleGroup t die k g.leave
  | .look => giveAnswer t p 0 g.gen
  | .arrive => settleGroup t die k { g with remaining := g.remaining - 1, arrivals := g.arrivals ++ [p] }

theorem groupDone_last (t : State) {k : Nat} {p : Place} {g : Group} (hr : g.remaining = 1) (hm : 0 < g.members) :
    fget Group.empty ((groupDone t die k p g .arrive).dieOf die).groups k =
      { g with phase := (g.phase + 1) % 2, remaining := g.members, arrivals := [] } := by
  rw [groupDone, settleGroup_last (g := { g with remaining := g.remaining - 1, arrivals := g.arrivals ++ [p] }) t
    (by simp [hr]) hm]

section
variable {p : Place} {op : GrpOp} {grp tenant : Nat} {ns : List Note} (h : s.notes = .group p die op grp tenant :: ns)
include h

theorem groupUpdate_runs : exec (.groupUpdate die p) s =
    .next (groupDone { s with notes := ns } die (groupKey tenant grp) p
      (fget Group.empty (s.dieOf die).groups (groupKey tenant grp)) op) := by
  change execGroupUpdate die p s = _
  unfold execGroupUpdate
  simp only [h]
  rw [takeNote_head (if_pos ⟨rfl, rfl⟩)]
  cases op <;> rfl

/-- The last arrival of a phase ends it (R367). -/
theorem groupUpdate_last (hop : op = .arrive) (hr : (fget Group.empty (s.dieOf die).groups (groupKey tenant grp)).remaining = 1)
    (hm : 0 < (fget Group.empty (s.dieOf die).groups (groupKey tenant grp)).members) :
    ∃ t, exec (.groupUpdate die p) s = .next t ∧
      fget Group.empty (t.dieOf die).groups (groupKey tenant grp) =
        { fget Group.empty (s.dieOf die).groups (groupKey tenant grp) with
          phase := ((fget Group.empty (s.dieOf die).groups (groupKey tenant grp)).phase + 1) % 2,
          remaining := (fget Group.empty (s.dieOf die).groups (groupKey tenant grp)).members, arrivals := [] } := by
  rw [groupUpdate_runs h, hop]
  exact ⟨_, rfl, groupDone_last _ hr hm⟩

end

/-! ### Budgets and temperature (R387) -/

theorem modDie_dieOf_other (t : State) (j : Nat) (f : Die → Die) {k : Nat} (hk : k ≠ j) :
    (t.modDie j f).dieOf k = t.dieOf k := by
  simp only [State.dieOf, modDie_dies, fget_fset_other _ _ _ _ _ hk]

theorem admitOutside_dieOf (t : State) (k : Nat) : ((admitOutside t die).dieOf k).budget = (t.dieOf k).budget ∧
    ((admitOutside t die).dieOf k).charged = (t.dieOf k).charged ∧
    ((admitOutside t die).dieOf k).granted = (t.dieOf k).granted := by
  unfold admitOutside
  dsimp only
  rw [wakeAdmission_dieOf]
  by_cases hk : k = die
  · rw [hk, modDie_dieOf]
    exact ⟨rfl, rfl, rfl⟩
  · rw [modDie_dieOf_other _ _ _ hk]
    exact ⟨rfl, rfl, rfl⟩

theorem setBudget_dieOf (t : State) (n : Nat) : ((setBudget t die n).dieOf die).budget = n % 2 ^ 16 ∧
    ((setBudget t die n).dieOf die).charged = (t.dieOf die).charged ∧
    ((setBudget t die n).dieOf die).granted = (t.dieOf die).granted := by
  obtain ⟨hb, hc, hg⟩ := admitOutside_dieOf (die := die) (t.modDie die fun d => { d with budget := n % 2 ^ 16 }) die
  rw [modDie_dieOf] at hb hc hg
  exact ⟨hb, hc, hg⟩

theorem setBudget_budget_other (t : State) (n : Nat) {k : Nat} (hk : k ≠ die) :
    ((setBudget t die n).dieOf k).budget = (t.dieOf k).budget := by
  rw [setBudget, (admitOutside_dieOf _ k).1, modDie_dieOf_other _ _ _ hk]

theorem budgetSet_sets (units : Nat) : ∃ t, exec (.budgetSet die units) s = .next t ∧ (t.dieOf die).budget = units % 2 ^ 16 ∧
    (t.dieOf die).charged = (s.dieOf die).charged ∧ (t.dieOf die).granted = (s.dieOf die).granted := by
  have h := setBudget_dieOf (die := die) (s.modDie die fun d => { d with thermalBase := 0 }) units
  rw [modDie_dieOf] at h
  exact ⟨_, rfl, h⟩

/-- A die whose temperature is critical loses its budget, and keeps what it had to come back to (R387). -/
def critical (m : Nat) (t : State) (d : Nat) : State :=
  setBudget (t.modDie (dieKey m d) fun x => { x with thermalBase := x.base }) (dieKey m d) 0

theorem critical_budget (m : Nat) (t : State) (d k : Nat) : ((critical m t d).dieOf k).budget = 0 ∨
    k ≠ dieKey m d ∧ ((critical m t d).dieOf k).budget = (t.dieOf k).budget := by
  by_cases hk : k = dieKey m d
  · rw [hk]
    exact .inl (setBudget_dieOf _ 0).1
  · refine .inr ⟨hk, ?_⟩
    rw [critical, setBudget_budget_other _ _ hk, modDie_dieOf_other _ _ _ hk]

theorem foldl_critical_budget (m : Nat) (ds : List Nat) : ∀ t : State, ∀ i, i ∈ ds ∨ (t.dieOf (dieKey m i)).budget = 0 →
    ((ds.foldl (critical m) t).dieOf (dieKey m i)).budget = 0 := by
  induction ds with
  | nil => exact fun t i h => h.resolve_left List.not_mem_nil
  | cons d ds ih =>
    intro t i h
    rw [List.foldl_cons]
    refine ih _ i ?_
    rcases critical_budget m t d (dieKey m i) with h0 | ⟨hk, hs⟩
    · exact .inr h0
    · rw [hs]
      exact h.imp_left fun h => (List.mem_cons.mp h).resolve_left fun e => hk (by rw [e])

theorem criticalTemperature_takes (m : Nat) : ∃ t, exec (.criticalTemperature m) s = .next t ∧
    ∀ i ∈ (s.modOf m).diesUp, (t.dieOf (dieKey m i)).budget = 0 :=
  ⟨_, rfl, fun i hi => foldl_critical_budget m (s.modOf m).diesUp s i (.inl hi)⟩

/-- Settles O50: the admission queue and a grant by the branches of their events, a group's operations by the note at the
head, and the budgets by what `setBudget` leaves. -/
theorem powerSteps : Obligations.PowerSteps := by
  unfold Obligations.PowerSteps
  intro die units u dur core st m p hot s rest ns op grp tenant
  refine ⟨fun h => ⟨admissionServe_grants h, admissionServe_waits h⟩, admissionServe_remote, grantExpiry_releases,
    grantExpiry_keeps, fun h => ⟨?_, ?_, ?_, ?_, ?_, groupUpdate_last h⟩, budgetSet_sets units,
    ⟨_, rfl, (setBudget_dieOf _ _).1⟩, criticalTemperature_takes m, rfl⟩
  all_goals
    intro hop
    rw [groupUpdate_runs h, hop]
    rfl

end Sys2Proof.Proofs.PowerWork

end

section
/-! SUPPORT. The steps of the task store (R352 to R356, R362): dispatch, stealing and the dependency counters. -/

namespace Sys2Proof.Proofs.TaskWork

open Sys2Proof Sys2Proof.Machine Sys2Proof.Laws Sys2Proof.Proofs.Remote Sys2Proof.Proofs.LookupWork Sys2Proof.Proofs.PowerWork

variable {die clu vf : Nat} {s : State}

/-! ### Dispatch (R352) -/

theorem taskDispatch_starts {t : QTask} {p : Place} (hn : fget 0 (s.dieOf die).lastDisp clu ≠ s.ticks)
    (ho : offer s die clu = some (t, p)) : exec (.taskDispatch die clu) s = .next (dispatch s die clu t p) := by
  change execTaskDispatch die clu s = _
  unfold execTaskDispatch
  rw [if_neg hn, ho]

theorem taskDispatch_none (hn : fget 0 (s.dieOf die).lastDisp clu ≠ s.ticks) (ho : offer s die clu = none) :
    exec (.taskDispatch die clu) s = .next s := by
  change execTaskDispatch die clu s = _
  unfold execTaskDispatch
  rw [if_neg hn, ho]

theorem taskDispatch_made (hn : fget 0 (s.dieOf die).lastDisp clu = s.ticks) : exec (.taskDispatch die clu) s = .next s :=
  if_pos hn

theorem dispatch_lastDisp (t : QTask) (p : Place) : fget 0 ((dispatch s die clu t p).dieOf die).lastDisp clu = s.ticks := by
  unfold dispatch
  dsimp only
  rw [modDie_dieOf, fget_fset_same]

/-! ### The dispatches of a cycle -/

theorem spawn_dieOf (t : State) (e : Event) (k : Nat) : (t.spawn e).dieOf k = t.dieOf k := rfl

/-- The first step of `openLists`: every die lists its store. -/
def listAll (s : State) : State := { s with dies := s.dies.map fun (e : Nat × Die) => (e.1, { e.2 with listed := e.2.store }) }

theorem listAll_listed : ((listAll s).dieOf die).listed = (s.dieOf die).store := by
  unfold listAll State.dieOf
  dsimp only
  induction s.dies with
  | nil => rfl
  | cons e l ih =>
    simp only [List.map_cons, fget]
    split
    · rfl
    · exact ih

theorem modDie_listed (t : State) (k : Nat) {f : Die → Die} (hf : ∀ d, (f d).listed = d.listed) :
    ((t.modDie k f).dieOf die).listed = (t.dieOf die).listed := by
  by_cases h : die = k
  · rw [h, modDie_dieOf, hf]
  · rw [modDie_dieOf_other _ _ _ h]

theorem foldl_listed {α : Type} {f : State → α → State} (hf : ∀ t x, ((f t x).dieOf die).listed = (t.dieOf die).listed)
    (l : List α) : ∀ t : State, ((l.foldl f t).dieOf die).listed = (t.dieOf die).listed := by
  induction l with
  | nil => exact fun t => rfl
  | cons x l ih => exact fun t => (ih _).trans (hf t x)

theorem askRing_listed (t : State) (dk n : Nat) : ((askRing t dk n).dieOf die).listed = (t.dieOf die).listed := by
  refine foldl_listed (fun u k => ?_) _ t
  dsimp only
  split
  · rfl
  · rw [spawn_dieOf]
    exact modDie_listed u _ fun d => rfl

theorem openLists_listed : ((openLists s).dieOf die).listed = (s.dieOf die).store :=
  (foldl_listed (fun t (e : Nat × Die) => foldl_listed (fun u n => askRing_listed u e.1 n) (sparing e.2) t)
    (listAll s).dies (listAll s)).trans listAll_listed

theorem taskDispatch_mem_keystoneDue {t : State} {e : Nat × Die} {x : QTask} (hx : x ∈ e.2.listed) (hc : x.clu < 400) :
    .taskDispatch e.1 x.clu ∈ keystoneDue t e := by
  unfold keystoneDue
  have hne : e.2.listed.isEmpty = false := by
    cases hl : e.2.listed with
    | nil => simp [hl] at hx
    | cons y ys => rfl
  dsimp only
  rw [hne]
  generalize Config.firstCluster e.1 + t.now (dieMod e.1) = c
  refine List.mem_append_left _ (List.mem_map.mpr ⟨x.clu, List.mem_filter.mpr ⟨List.mem_map.mpr
    ⟨(x.clu + 400 - c % 400) % 400, List.mem_range.mpr (by omega), by omega⟩, ?_⟩, rfl⟩)
  exact List.any_eq_true.mpr ⟨x, hx, decide_eq_true rfl⟩

theorem taskDispatch_due {x : QTask} (hx : x ∈ (s.dieOf die).store) (hc : x.clu < 400) :
    .taskDispatch die x.clu ∈ (tick s).urgent := by
  have hl : ((openLists { s with ticks := s.ticks + 1 }).dieOf die).listed = (s.dieOf die).store := openLists_listed
  have hm : (die, (openLists { s with ticks := s.ticks + 1 }).dieOf die) ∈ (openLists { s with ticks := s.ticks + 1 }).dies := by
    refine mem_of_fget_ne fun h => ?_
    rw [State.dieOf, h] at hl
    exact List.ne_nil_of_mem hx hl.symm
  rw [← hl] at hx
  unfold tick
  exact List.mem_append_right _ (List.mem_flatMap.mpr ⟨_, hm, taskDispatch_mem_keystoneDue hx hc⟩)

/-! ### Stealing (R354) -/

theorem taskSteal_steals {c : Nat} (hi : idleFor s (die * 512 + clu) vf = true) (hv : victim (s.dieOf die) vf = some c) :
    exec (.taskSteal die clu vf) s = .next (steal s die c die clu vf) := by
  change execTaskSteal die clu vf s = _
  unfold execTaskSteal
  rw [if_pos hi, hv]

section
variable {r : Steal} (hr : ((s.dieOf die).steals.find? fun x => decide (x.vf = vf) && !x.idle) = some r)
include hr

theorem stealRequest_steals {w c : Nat} (hw : ((ringAfter s die).find? fun y => (victim (s.dieOf y) vf).isSome) = some w)
    (hv : victim (s.dieOf w) vf = some c) : exec (.stealRequest die vf) s =
      .next (steal (s.modDie die fun x => { x with steals := x.steals.filter fun y => decide (y.vf ≠ vf) }) w c die r.clu vf) := by
  change execStealRequest die vf s = _
  unfold execStealRequest
  simp only [hr, hw, hv]

theorem stealRequest_none (hw : ((ringAfter s die).find? fun y => (victim (s.dieOf y) vf).isSome) = none) :
    ∃ u, exec (.stealRequest die vf) s = .next u ∧ .stealRetry die vf ∈ u.agenda ∧
      { r with idle := true } ∈ (u.dieOf die).steals := by
  change ∃ u, execStealRequest die vf s = .next u ∧ _
  unfold execStealRequest
  simp only [hr, hw]
  refine ⟨_, rfl, List.mem_append_right _ (List.mem_singleton.mpr rfl), ?_⟩
  rw [spawn_dieOf, modDie_dieOf]
  exact List.mem_cons_self

end

section
variable {r : Steal} (hr : ((s.dieOf die).steals.find? fun x => decide (x.vf = vf) && x.idle) = some r)
include hr

theorem stealRetry_early (ht : s.ticks < r.sent + 1024) :
    exec (.stealRetry die vf) s = .next (s.again (.stealRetry die vf)) := by
  change execStealRetry die vf s = _
  unfold execStealRetry
  simp only [hr]
  rw [if_pos ht]

theorem stealRetry_busy (ht : r.sent + 1024 ≤ s.ticks) (hi : idleFor s (die * 512 + r.clu) vf = false) :
    exec (.stealRetry die vf) s =
      .next (s.modDie die fun x => { x with steals := x.steals.filter fun y => decide (y.vf ≠ vf) }) := by
  change execStealRetry die vf s = _
  unfold execStealRetry
  simp only [hr]
  rw [if_neg (by omega), hi]
  rfl

theorem stealRetry_asks (ht : r.sent + 1024 ≤ s.ticks) (hi : idleFor s (die * 512 + r.clu) vf = true) :
    ∃ u, exec (.stealRetry die vf) s = .next u ∧ .stealRequest die vf ∈ u.agenda ∧
      { r with sent := s.ticks, idle := false } ∈ (u.dieOf die).steals := by
  change ∃ u, execStealRetry die vf s = .next u ∧ _
  unfold execStealRetry
  simp only [hr]
  rw [if_neg (by omega), if_pos hi]
  refine ⟨_, rfl, List.mem_append_right _ (List.mem_singleton.mpr rfl), ?_⟩
  rw [spawn_dieOf, modDie_dieOf]
  exact List.mem_cons_self

end

/-! ### Dependency counters (R361, R362) -/

section
variable {q : Place} {op : CtrOp} {name amount tenant : Nat} {free : Bool} {rest : List Note}

theorem counterUpdate_counter (h : s.notes = .counter q die op name amount free tenant :: rest) :
    exec (.counterUpdate die q) s = .next (counterOp { s with notes := rest } die q op name amount free tenant) := by
  change execCounterUpdate die q s = _
  unfold execCounterUpdate
  simp only [h]
  rw [takeNote_head (if_pos ⟨rfl, rfl⟩)]

theorem counterUpdate_tenq {t : QTask} (h : s.notes = .tenq q die t :: rest)
    (hc : ctrOk s (dieMod die) t.task.tenant t.wait = true) (hf : storeFull s die t.task.tenant = false) :
    exec (.counterUpdate die q) s = .next (giveAnswer (placeWaiting { s with notes := rest } die t) q 0 0) := by
  change execCounterUpdate die q s = _
  unfold execCounterUpdate
  simp only [h]
  rw [takeNote_head (if_pos ⟨rfl, rfl⟩)]
  dsimp only
  rw [hc, hf]
  rfl

/-- The counter of a name at a die. -/
def ctrAt (t : State) (die name : Nat) : Counter := fget Counter.free (t.dieOf die).counters (ctrIdx name)

theorem giveAnswer_dieOf (t : State) (p : Place) (c v k : Nat) : (giveAnswer t p c v).dieOf k = t.dieOf k := rfl

theorem foldl_enqueue_counters (l : List QTask) : ∀ t : State,
    ((l.foldl (fun u x => enqueue u die x) t).dieOf die).counters = (t.dieOf die).counters := by
  induction l with
  | nil => exact fun t => rfl
  | cons x l ih =>
    intro t
    rw [List.foldl_cons, ih, enqueue, modDie_dieOf]

theorem setCount_count (t : State) (i n : Nat) : (fget Counter.free ((setCount t die i n).dieOf die).counters i).count = n := by
  unfold setCount
  dsimp only
  split
  · rw [foldl_enqueue_counters, modDie_dieOf, fget_fset_same]
  · rw [modDie_dieOf, fget_fset_same]

section
variable (hl : (ctrAt s die name).live = true) (ht : (ctrAt s die name).tenant = tenant)
include hl ht

theorem counterOp_inc_count : (ctrAt (counterOp s die q .inc name amount free tenant) die name).count =
    min ((ctrAt s die name).count + amount) (2 ^ 32 - 1) := by
  unfold ctrAt at *
  unfold counterOp
  simp only [hl, ht, decide_true, Bool.and_true, Bool.true_eq_false, if_false]
  rw [giveAnswer_dieOf, modDie_dieOf, fget_fset_same]

theorem counterOp_dec_count : (ctrAt (counterOp s die q .dec name amount false tenant) die name).count =
    (ctrAt s die name).count - amount := by
  unfold ctrAt at *
  unfold counterOp
  simp only [hl, ht, decide_true, Bool.and_true, Bool.true_eq_false, if_false]
  rw [giveAnswer_dieOf]
  exact setCount_count s (ctrIdx name) _

end

theorem counterOp_rejected (h : (ctrAt s die name).live = false ∨ (ctrAt s die name).tenant ≠ tenant) (hi : op ≠ .init)
    (he : op ≠ .exit) : counterOp s die q op name amount free tenant = giveAnswer s q 0 (rejectWord 2).toNat := by
  have hok : ((ctrAt s die name).live && decide ((ctrAt s die name).tenant = tenant)) = false := by
    simpa [or_iff_not_imp_left] using h
  unfold ctrAt at hok
  unfold counterOp
  cases op with
  | init => exact absurd rfl hi
  | inc => exact if_pos hok
  | dec => exact if_pos hok
  | exit => exact absurd rfl he

end

/-- Settles O48: dispatch and stealing by the branches of their events, the due dispatches by the lists that the cycle opened
with, and a counter by what `setCount` leaves. -/
theorem taskSteps : Obligations.TaskSteps := by
  unfold Obligations.TaskSteps
  intro die clu vf p q s t r w c name amount op free tenant rest
  exact ⟨taskDispatch_starts, taskDispatch_none, taskDispatch_made, dispatch_lastDisp t p, fun x hx hc => taskDispatch_due hx hc,
    taskSteal_steals, fun hr hw hv => stealRequest_steals hr hw hv, stealRequest_none,
    fun hr => ⟨stealRetry_early hr, stealRetry_busy hr, stealRetry_asks hr⟩, counterUpdate_counter, counterUpdate_tenq,
    fun hl ht => ⟨counterOp_inc_count hl ht, counterOp_dec_count hl ht⟩, counterOp_rejected⟩

end Sys2Proof.Proofs.TaskWork

end

section
/-! SUPPORT. The conversion of a cluster's ways (R235): the lines that give way are written back, and such a write makes the
strands of the core give up the answers they hold for its sector (R156). -/

namespace Sys2Proof.Proofs.WayConversion

open Sys2Proof Sys2Proof.Machine Sys2Proof.Laws

/-- A line of way 0 whose first sector, sector 8, is dirty. -/
def dirtySec : L1Sec := { filled := true, near := false, dirty := 1, data := 0, poison := 0, tenant := 0, attr := attrFrame 0 }
def dirtyLine : L1Line := { line := 1, way := 0, secs := [(0, dirtySec)] }

/-- The strand waits for its SPART with an answer of its core for sector 8, and the way that is taken holds that sector dirty. -/
def holding : State :=
  ((State.reset.modClu 0 fun c => { c with spart := [{ src := Place.first, ways := 1 }] }).modCore 0 fun c =>
    { c with l1 := [dirtyLine] }).modStrand Place.first fun x => { x with resps := [.sector 8 .load .ok (attrFrame 0) 0 0] }

/-- The state after the conversion. -/
def converted : State :=
  (giveAnswer ((convertWays holding 0 1).modClu 0 fun c => { c with spart := [], busy := false }) Place.first 0
    ((holding.cluOf 0).spways * 16384)).wakeClu 0 [.mem]

theorem spartConversion_holding : exec (.spartConversion 0) holding = .next converted := by
  have hp : (holding.cluOf 0).spart = [{ src := Place.first, ways := 1 }] := rfl
  have hf : cluFlight holding 0 = false := by decide
  change execSpartConversion 0 holding = _
  unfold execSpartConversion
  simp only [hp, hf]
  rfl

/-- The answer for the sector that was written back has gone. -/
theorem converted_resps : (converted.strand Place.first).resps ≠
    (holding.strand Place.first).resps ++ [Resp.unit 0 ((holding.cluOf 0).spways * 16384)] := by decide

/-- Refutes O53: the conversion writes back the dirty lines of the ways it takes, and the write takes from the requesting
strand the answer it holds for the sector (R156), so its answers are not those it had with the old size after them. -/
theorem not_slotSteps : ¬ Obligations.SlotSteps := by
  unfold Obligations.SlotSteps
  intro h
  obtain ⟨hspart, -⟩ := h 0 0 0 0 0 0 0 Place.first Place.first holding { src := Place.first, ways := 1 } []
    (Machine.Partition.mk [] 0 0 0 0 none 0 none) 0 0 (Context.mk Place.first Place.first 0 0 [] Strand.empty.task none 0) [] []
  obtain ⟨u, hu, -, -, -, hr⟩ := (hspart rfl).2 (by decide)
  rw [spartConversion_holding] at hu
  obtain rfl : converted = u := Host.Outcome.next.inj hu
  exact converted_resps hr

end Sys2Proof.Proofs.WayConversion

end

section
/-! SUPPORT. What reaches a strand from outside (R98 to R105, R184 to R187, R228): asynchronous causes, the timer, doorbells,
answers, courses and accesses without an answer. -/

namespace Sys2Proof.Proofs.StrandNews

open Sys2Proof Sys2Proof.Machine Sys2Proof.Laws

variable {p : Place} {s : State}

/-! ### Asynchronous causes (R98) -/

theorem pokeDie_frame (t : State) (k : Nat) (q : Place) : core' ((pokeDie t k).strand q) = core' (t.strand q) := by
  unfold pokeDie State.strand
  dsimp only
  induction t.strands with
  | nil => rfl
  | cons e l ih =>
    obtain ⟨j, x⟩ := e
    rw [List.map_cons]
    by_cases hj : j = q.key
    · split <;> simp only [fget, hj, if_true, core'_wakeIf]
    · split <;> simpa only [fget, hj, if_false] using ih

theorem quitWait_frame (t : State) (k i : Nat) (q : Place) : core' ((quitWait p k t i).strand q) = core' (t.strand q) := by
  unfold quitWait
  dsimp only
  split
  · rfl
  · split
    · exact (pokeDie_frame _ _ q).trans rfl
    · rfl

theorem quitWaits_frame (t : State) (q : Place) : core' ((quitWaits t p).strand q) = core' (t.strand q) := by
  have h : ∀ (l : List Nat) (u : State), core' ((l.foldl (quitWait p p.cluKey) u).strand q) = core' (u.strand q) := by
    intro l
    induction l with
    | nil => exact fun _ => rfl
    | cons n l ih => exact fun u => (ih _).trans (quitWait_frame u _ n q)
  exact h _ t

theorem withdrawArrival_strands (t : State) : (withdrawArrival t p).strands = t.strands := by
  unfold withdrawArrival
  split <;> rfl

theorem wakeAdmission_strands (t : State) (k : Nat) : (wakeAdmission t k).strands = t.strands := by
  unfold wakeAdmission spawnOnce
  split
  · rfl
  · split <;> rfl

theorem abandonBundle_frame (t : State) (q : Place) : core' ((abandonBundle t p).strand q) = core' (t.strand q) := by
  have hw : core' ((withdrawArrival t p).strand q) = core' (t.strand q) := by rw [State.strand, withdrawArrival_strands, State.strand]
  have hq := (quitWaits_frame (p := p) (withdrawArrival t p) q).trans hw
  unfold abandonBundle
  generalize quitWaits (withdrawArrival t p) p = u at hq ⊢
  rw [State.strand, wakeAdmission_strands, modDie_strands]
  exact hq

/-- A strand in the handler of an asynchronous cause: a notice has been taken with PREEMPT. -/
def asyncEntered (c : Cause) (info : Nat) (y : Strand) : Strand :=
  match c with
  | .preempt => { enterTrap y c 0 info y.pc.toNat with notice := none }
  | _ => enterTrap y c 0 info y.pc.toNat

theorem asyncEntered_eq (c : Cause) (info : Nat) (y : Strand) :
    { asyncEntered c info y with notice := y.notice } = enterTrap y c 0 info y.pc.toNat := by
  unfold asyncEntered
  split <;> rfl

theorem asyncTrapEntry_enters {c : Cause} {info : Nat} (hc : asyncCause (s.strand p) = some (c, info))
    (hb : bundleBegun (s.strand p) = false) : ∃ y, core' y = core' (s.strand p) ∧
      ∃ u, exec (.asyncTrapEntry p) s = .next u ∧ u.strand p = asyncEntered c info y := by
  obtain ⟨hl, -⟩ := leaveCourse_frame (abandonBundle s p) p true
  refine ⟨_, hl.trans (abandonBundle_frame s p), asyncEnter s p, ?_, ?_⟩
  · change Host.Outcome.next (asyncTrap s p) = _
    rw [asyncTrap, hb, if_neg Bool.false_ne_true]
  · unfold asyncEnter
    simp only [hc]
    rw [modStrand_strand]
    rfl

theorem asyncTrapEntry_state {c : Cause} {info : Nat} (hc : asyncCause (s.strand p) = some (c, info))
    (hb : bundleBegun (s.strand p) = false) :
    ∃ u, exec (.asyncTrapEntry p) s = .next u ∧ (u.strand p).st = .ready ∧
      (u.strand p).pc = vector (s.strand p).csr.evec c.code ∧ (u.strand p).csr.epc = (s.strand p).pc ∧
      (u.strand p).csr.ecause = word (b2n c.isAsync * 2 ^ 63 + c.code) ∧ (u.strand p).csr.eaddr = 0 ∧
      (u.strand p).csr.einfo = word info ∧ (u.strand p).csr.sstat = trapStat (s.strand p).csr.sstat ∧
      (u.strand p).g = (s.strand p).g := by
  obtain ⟨y, hy, u, hu, hup⟩ := asyncTrapEntry_enters hc hb
  have hpc : y.pc = (s.strand p).pc := (congrArg Strand.pc hy :)
  have hcsr : y.csr = (s.strand p).csr := (congrArg Strand.csr hy :)
  have hg : y.g = (s.strand p).g := (congrArg Strand.g hy :)
  have he := asyncEntered_eq c info y
  rw [← hup] at he
  rw [← hpc, ← hcsr, ← hg]
  exact ⟨u, hu, (congrArg Strand.st he :), (congrArg Strand.pc he :),
    (congrArg (fun z => z.csr.epc) he :).trans (Integer.word_toNat _), (congrArg (fun z => z.csr.ecause) he :),
    (congrArg (fun z => z.csr.eaddr) he :), (congrArg (fun z => z.csr.einfo) he :), (congrArg (fun z => z.csr.sstat) he :),
    (congrArg Strand.g he :)⟩

theorem asyncTrapEntry_none (h : asyncCause (s.strand p) = none ∨ bundleBegun (s.strand p) = true) :
    exec (.asyncTrapEntry p) s = .next s := by
  change Host.Outcome.next (asyncTrap s p) = _
  unfold asyncTrap
  split
  · rfl
  · next hb =>
    rw [asyncEnter, h.resolve_right hb]

theorem asyncCause_preempt {x : Strand} {w : Word} (hi : x.ie = true) (ht : x.tl = false) (hp : x.pktOpen = false)
    (hn : x.notice = some w) : asyncCause x = some (.preempt, w.toNat) := by
  rw [asyncCause, hi, ht, hp, hn]
  rfl

theorem asyncCause_none {x : Strand} (h : x.ie = false ∨ x.tl = true ∨ x.pktOpen = true) : asyncCause x = none := by
  unfold asyncCause
  rcases h with h | h | h <;> simp [h]

/-! ### The timer, doorbells and notices (R100, R377, R386) -/

theorem itimerFire_fires (h : timerDue (s.now p.mod) (s.strand p) = true) :
    exec (.itimerFire p) s = .next ((s.modStrand p fun y =>
      { y with csr := { y.csr with ipend := y.csr.ipend ||| 1, itimer := setFld y.csr.itimer 63 63 0 } }).spawn
        (.asyncTrapEntry p)) := if_pos h

theorem itimerFire_waits (h : timerDue (s.now p.mod) (s.strand p) = false) : exec (.itimerFire p) s = .next s :=
  if_neg (by simp [h])

section
variable {m vf : Nat} {v : Word}

theorem intdbWrite_sets (hp : placeOfId s m v.toNat = some p) (hl : (s.strand p).live = true)
    (hh : (s.strand p).st ≠ .handover) (ht : (s.strand p).tenant = vf) :
    exec (.intdbWrite m vf v) s = .next ((s.modStrand p fun y =>
      { y with csr := { y.csr with ipend := y.csr.ipend ||| 2 } }).spawn (.asyncTrapEntry p)) := by
  change execIntdbWrite m vf v s = _
  unfold execIntdbWrite
  simp only [hp]
  exact if_pos (by simp [hl, hh, ht])

theorem intdbWrite_counts (hp : placeOfId s m v.toNat = some p)
    (h : (s.strand p).live = false ∨ (s.strand p).st = .handover ∨ (s.strand p).tenant ≠ vf) :
    exec (.intdbWrite m vf v) s = .next (s.count p.dieKey 5) := by
  change execIntdbWrite m vf v s = _
  unfold execIntdbWrite
  simp only [hp]
  exact if_neg (by rcases h with h | h | h <;> simp [h])

theorem intdbWrite_nowhere (hp : placeOfId s m v.toNat = none) :
    exec (.intdbWrite m vf v) s = .next (s.count (dieKey m (bits v.toNat 22 17)) 5) := by
  change execIntdbWrite m vf v s = _
  unfold execIntdbWrite
  simp only [hp]

theorem fget_map_keyed {α : Type} {d : α} {f : Nat × α → Nat × α} (hk : ∀ e, (f e).1 = e.1) {k : Nat} (hd : (f (k, d)).2 = d)
    (l : List (Nat × α)) : fget d (l.map f) k = (f (k, fget d l k)).2 := by
  induction l with
  | nil => exact hd.symm
  | cons e l ih =>
    rw [List.map_cons, fget, hk, fget]
    split
    · next h => rw [← h]
    · exact ih

theorem preemptNotice_tells (w : Word) : ∃ u, exec (.preemptNotice m vf w) s = .next u ∧ ∀ k, (Place.ofKey k).mod = m →
    (fget Strand.empty s.strands k).live = true → (fget Strand.empty s.strands k).tenant = vf →
    fget Strand.empty u.strands k = { fget Strand.empty s.strands k with notice := some w } := by
  refine ⟨_, rfl, fun k hm hl ht => ?_⟩
  rw [spawns_strands, fget_map_keyed]
  · rw [if_pos (by simp [hm, hl, ht])]
  · exact fun e => by split <;> rfl
  · rw [if_neg (by simp [show Strand.empty.live = false from rfl])]

end

/-! ### Answers of homes (R156, R228) -/

section
variable {r : Reply} {rest : List Reply}

section
variable (hr : s.replies = r :: rest) (hd : r.dst = p) (hl : r.link = none) (ht : r.due ≤ s.ticks) (hw : r.waits = true)
include hr hd hl ht hw

theorem memResponse_head : exec (.memResponse p) s =
    (if awaits (s.strand p) r.resp then
      if r.old then .next (({ s with replies := rest } : State).modStrand p fun x => (x.unask (respKey r.resp)).wakeIf [.mem])
      else .next ((keepAnswer { s with replies := rest } r).modStrand p fun x => { x with resps := x.resps ++ [r.resp] }.wakeIf [.mem])
    else .next (({ s with replies := rest } : State).count p.dieKey 14)) := by
  change execMemResponse p s = _
  unfold execMemResponse
  simp only [hr]
  rw [splitFirst, if_pos (by simp [hd, hl, ht])]
  dsimp only
  rw [if_neg (by simp [hw])]
  rfl

theorem memResponse_old (ho : r.old = true) (ha : awaits (s.strand p) r.resp = true) :
    exec (.memResponse p) s = .next (({ s with replies := rest } : State).modStrand p fun y =>
      (y.unask (respKey r.resp)).wakeIf [.mem]) := by
  rw [memResponse_head hr hd hl ht hw, if_pos ha, if_pos ho]

theorem memResponse_joins (ho : r.old = false) (ha : awaits (s.strand p) r.resp = true) :
    exec (.memResponse p) s = .next ((keepAnswer { s with replies := rest } r).modStrand p fun y =>
      { y with resps := y.resps ++ [r.resp] }.wakeIf [.mem]) := by
  rw [memResponse_head hr hd hl ht hw, if_pos ha, if_neg (by simp [ho])]

theorem memResponse_late (ha : awaits (s.strand p) r.resp = false) :
    exec (.memResponse p) s = .next (({ s with replies := rest } : State).count p.dieKey 14) := by
  rw [memResponse_head hr hd hl ht hw, if_neg (by simp [ha])]

end

theorem splitFirst_none {α : Type} {q : α → Bool} {l : List α} (h : ∀ x ∈ l, q x = false) : splitFirst q l = none := by
  induction l with
  | nil => rfl
  | cons x l ih =>
    rw [splitFirst, if_neg (by simp [h x List.mem_cons_self]), ih fun y hy => h y (List.mem_cons_of_mem _ hy)]

theorem memResponse_none (h : ∀ e ∈ s.replies, e.dst ≠ p ∨ e.link ≠ none) :
    exec (.memResponse p) s = .next (s.modStrand p fun y => y.wakeIf [.mem]) := by
  have hm : ∀ e ∈ s.replies, (decide (e.dst = p) && e.link.isNone) = false := by
    intro e he
    rcases h e he with h | h
    · rw [decide_eq_false h, Bool.false_and]
    · rw [Option.isNone_eq_false_iff.mpr (Option.ne_none_iff_isSome.mp h), Bool.and_false]
  change execMemResponse p s = _
  unfold execMemResponse
  dsimp only
  rw [splitFirst_none fun e he => by rw [hm e he, Bool.false_and]]
  exact if_neg (by simpa only [List.any_eq_true, not_exists, not_and, Bool.not_eq_true] using hm)

end

/-! ### Courses (R184 to R187) -/

section
variable {f : Fwd} (hf : ((s.strand p).fwd.find? fun e => !e.here) = some f)
include hf

theorem courseForward_early (ht : s.ticks < f.arrive) : exec (.courseForward p) s = .next (s.again (.courseForward p)) := by
  change execCourseForward p s = _
  unfold execCourseForward
  simp only [hf]
  exact if_pos ht

theorem courseForward_arrives (ht : f.arrive ≤ s.ticks) : exec (.courseForward p) s = .next (s.modStrand p fun y =>
    { y with fwd := mapFirst (fun g => !g.here) (fun g => { g with here := true }) y.fwd }) := by
  change execCourseForward p s = _
  unfold execCourseForward
  simp only [hf]
  exact if_neg (by omega)

end

section
variable {clu idx : Nat} {d : Rdv} (hd : (s.cluOf clu).rdvs[idx]? = some d) (hc : d.closed = false)
include hd hc

theorem courseTimeout_early (ht : s.ticks < d.start + d.limit) :
    exec (.courseTimeout clu idx) s = .next (s.again (.courseTimeout clu idx)) := by
  change execCourseTimeout clu idx s = _
  unfold execCourseTimeout
  simp only [hd]
  rw [if_neg (by simp [hc]), if_pos ht]

theorem courseTimeout_closes (ht : d.start + d.limit ≤ s.ticks) : exec (.courseTimeout clu idx) s = .next (closeRdv s clu idx d) := by
  change execCourseTimeout clu idx s = _
  unfold execCourseTimeout
  simp only [hd]
  rw [if_neg (by simp [hc]), if_neg (by omega)]

end

section
variable (hp : (s.strand p).parkedOn .realign = true)
include hp

theorem realignTimeout_early (ht : s.ticks < (s.strand p).asked.headD 0 / 8) :
    exec (.realignTimeout p) s = .next (s.again (.realignTimeout p)) := by
  change execRealignTimeout p s = _
  unfold execRealignTimeout
  dsimp only
  rw [if_pos hp, if_neg (by omega)]

variable (ht : (s.strand p).asked.headD 0 / 8 ≤ s.ticks)
include ht

theorem realignTimeout_alone (hc : courseOf s p = none) : exec (.realignTimeout p) s = .next (giveAnswer s p 0 0) := by
  change execRealignTimeout p s = _
  unfold execRealignTimeout
  dsimp only
  rw [if_pos hp, if_pos ht, hc]

theorem realignTimeout_ends {k : Course} (hc : courseOf s p = some k) (ha : k.arrived.contains p.core = false) :
    exec (.realignTimeout p) s = .next (giveAnswer s p 0 0) := by
  change execRealignTimeout p s = _
  unfold execRealignTimeout
  dsimp only
  rw [if_pos hp, if_pos ht, hc]
  exact if_neg (by rw [ha]; exact Bool.false_ne_true)

end

/-! ### Accesses without an answer (R152) -/

theorem outLong_of_mem {x : Strand} {n t : Nat} (h : (n, t) ∈ x.askedAt) (ht : t + 2 ^ 20 ≤ s.ticks) : outLong s x n = true :=
  List.any_eq_true.mpr ⟨_, h, decide_eq_true ⟨rfl, ht⟩⟩

theorem outLong_false {x : Strand} (h : ∀ e ∈ x.askedAt, s.ticks < e.2 + 2 ^ 20) (n : Nat) : outLong s x n = false :=
  List.any_eq_false.mpr fun e he => by
    rw [decide_eq_true_eq]
    exact fun hn => Nat.not_le.mpr (h e he) hn.2

theorem accessTimeout_none (h : ∀ e ∈ (s.strand p).askedAt, s.ticks < e.2 + 2 ^ 20) : exec (.accessTimeout p) s = .next s := by
  change execAccessTimeout p s = _
  unfold execAccessTimeout
  dsimp only
  split
  · simp only [outLong_false h, Bool.and_false, List.filter_false, List.foldl_nil]
  · rfl

theorem accessTimeout_probe {idx t : Nat} (hf : (s.strand p).parkedOn .fence = true) (hp : (s.strand p).probes = [idx])
    (hm : (2 * idx + 1, t) ∈ (s.strand p).askedAt) (ht : t + 2 ^ 20 ≤ s.ticks) (ha : (s.strand p).asked = []) :
    exec (.accessTimeout p) s = .next ((failureEcho s p idx).count p.dieKey 14) := by
  change execAccessTimeout p s = _
  unfold execAccessTimeout
  dsimp only
  rw [if_pos (by rw [hf, Bool.true_or]), hp, ha, List.filter_cons, if_pos (outLong_of_mem hm ht)]
  rfl

theorem accessTimeout_atomic {idx : Nat} (hf : (s.strand p).parkedOn .mem = true) (hp : (s.strand p).probes = [])
    (ha : ((s.strand p).asked.filter fun j => memAsk (s.strand p) j && outLong s (s.strand p) (2 * j)) = [idx * 8 + 6]) :
    exec (.accessTimeout p) s = .next ((s.modStrand p fun y =>
      { y with resps := y.resps ++ [Resp.old .unanswered 0 false] }.wakeIf [.mem]).count p.dieKey 14) := by
  have hn : noAnswer (idx * 8 + 6) = some (.old .unanswered 0 false) := if_pos (by omega)
  change execAccessTimeout p s = _
  unfold execAccessTimeout
  dsimp only
  rw [if_pos (by rw [hf, Bool.or_true]), hp, ha, List.filter_nil, List.foldl_nil, List.foldl_cons, List.foldl_nil, giveUp, hn]

/-- Settles O54: each event is one branch of its definition; the entry of an asynchronous cause keeps the strand's registers
through the abandoned bundle and the course it leaves. -/
theorem strandEvents : Obligations.StrandEvents := by
  unfold Obligations.StrandEvents
  intro p m vf clu idx info v w s c r rest f d
  exact ⟨asyncTrapEntry_state, asyncTrapEntry_none, asyncCause_preempt, asyncCause_none, itimerFire_fires, itimerFire_waits,
    intdbWrite_sets, intdbWrite_counts, intdbWrite_nowhere, preemptNotice_tells w, memResponse_old, memResponse_joins,
    memResponse_late, memResponse_none, fun hf => ⟨courseForward_early hf, courseForward_arrives hf⟩,
    fun hd hc => ⟨courseTimeout_early hd hc, courseTimeout_closes hd hc⟩,
    fun hp ht => ⟨realignTimeout_alone hp ht, fun k => realignTimeout_ends hp ht⟩, realignTimeout_early, accessTimeout_none,
    accessTimeout_probe, accessTimeout_atomic⟩

end Sys2Proof.Proofs.StrandNews

end

section
/-! SUPPORT. Packets at router entries, their credits and the gang stop (R406, R411, R416). -/

namespace Sys2Proof.Proofs.RouterWork

open Sys2Proof Sys2Proof.Machine Sys2Proof.Laws Sys2Proof.Proofs.Remote Sys2Proof.Proofs.StrandNews

/-! ### Packets and credits (R406) -/

section
variable {clu e port : Nat} {s : State} {p : VsPacket} {rest : List Note}

section
variable (h : s.notes = .vs clu e port p :: rest)
include h

theorem vsPacketArrive_head : exec (.vsPacketArrive clu port) s =
    match entryOf s clu e with
    | none => .next (rejectPacket { s with notes := rest } clu e port 12)
    | some x =>
      if x.tenant ≠ p.tenant then .next (rejectPacket { s with notes := rest } clu e port 12)
      else if p.gv && !(decide (p.group = x.group ∧ p.gen = x.gen)) then .next (rejectPacket { s with notes := rest } clu e port 3)
      else .next (runEntry clu e entryFuel (({ s with notes := rest } : State).modEntry clu e fun y =>
        { y with held := fset y.held port (fget [] y.held port ++ [p]) })) := by
  change execVsPacketArrive clu port s = _
  unfold execVsPacketArrive
  simp only [h]
  rw [takeNote_head (if_pos ⟨rfl, rfl⟩)] <;> rfl

theorem vsPacketArrive_none (hx : entryOf s clu e = none) :
    exec (.vsPacketArrive clu port) s = .next (rejectPacket { s with notes := rest } clu e port 12) := by
  rw [vsPacketArrive_head h, hx]

variable {x : VsEntry} (hx : entryOf s clu e = some x)
include hx

theorem vsPacketArrive_tenant (ht : x.tenant ≠ p.tenant) :
    exec (.vsPacketArrive clu port) s = .next (rejectPacket { s with notes := rest } clu e port 12) := by
  rw [vsPacketArrive_head h, hx]
  exact if_pos ht

variable (ht : x.tenant = p.tenant)
include ht

theorem vsPacketArrive_group (hv : p.gv = true) (hg : ¬(p.group = x.group ∧ p.gen = x.gen)) :
    exec (.vsPacketArrive clu port) s = .next (rejectPacket { s with notes := rest } clu e port 3) := by
  rw [vsPacketArrive_head h, hx]
  dsimp only
  rw [if_neg (not_not.mpr ht), if_pos (by rw [hv, decide_eq_false hg]; rfl)]

theorem vsPacketArrive_held (hg : p.gv = true → p.group = x.group ∧ p.gen = x.gen) :
    exec (.vsPacketArrive clu port) s = .next (runEntry clu e entryFuel (({ s with notes := rest } : State).modEntry clu e fun y =>
      { y with held := fset y.held port (fget [] y.held port ++ [p]) })) := by
  rw [vsPacketArrive_head h, hx]
  dsimp only
  rw [if_neg (not_not.mpr ht), if_neg]
  rw [Bool.and_eq_true, Bool.not_eq_true', decide_eq_false_iff_not]
  exact fun hc => hc.2 (hg hc.1)

end

section
variable (h : s.notes = .vsCredit clu e port :: rest)
include h

theorem vsCredit_queue (hp : port = 4) : exec (.vsCredit clu e port) s = .next (creditQueue { s with notes := rest } clu e) := by
  change execVsCredit clu e port s = _
  unfold execVsCredit
  simp only [h]
  rw [takeNote_head (if_pos ⟨rfl, rfl, rfl⟩)]
  exact if_pos hp

theorem vsCredit_port (hp : port ≠ 4) : exec (.vsCredit clu e port) s = .next (runEntry clu e entryFuel
    (({ s with notes := rest } : State).setCredits clu e port (min 8 (creditsOf { s with notes := rest } clu e port + 1)))) := by
  change execVsCredit clu e port s = _
  unfold execVsCredit
  simp only [h]
  rw [takeNote_head (if_pos ⟨rfl, rfl, rfl⟩)]
  exact if_neg hp

end

end

/-! ### The gang stop (R416) -/

section
variable {m vf : Nat} {s : State}

/-- The stop has begun in a module, with the highest chunk opened. -/
def gangBegun (s : State) (m vf : Nat) (o : Option Nat) : State :=
  (setLimits s (fun _ => true) vf (some none)).modMod m fun z =>
    { z with gangs := z.gangs ++ [{ vf := vf, part := (s.policy m vf).part, step := 1, chunk := o, paused := s.ticks }] }

section
variable (hg : gangOf s m vf = none) (hp : holdsPart s m vf = true) (hs : ∀ y ∈ gangsOf s vf, 3 ≤ y.step)
include hg hp hs

theorem gangQuery_begins : exec (.gangQuery m vf) s = (match (memberCores s vf).filterMap (openedChunk s vf) with
    | [] => .next (gangSwitch (gangBegun s m vf none) m vf)
    | c :: cs => .next ((gangBegun s m vf (some (cs.foldl Nat.max c))).spawn (.gangPause m vf))) := by
  change execGangQuery m vf s = _
  unfold execGangQuery
  rw [if_neg (by simp [hg, hp]), if_neg]
  · rfl
  · rw [List.any_eq_true]
    exact fun ⟨y, hy, hlt⟩ => Nat.not_lt.mpr (hs y hy) (of_decide_eq_true hlt)

theorem gangQuery_none (ho : (memberCores s vf).filterMap (openedChunk s vf) = []) :
    exec (.gangQuery m vf) s = .next (gangSwitch (gangBegun s m vf none) m vf) := by
  rw [gangQuery_begins hg hp hs, ho]

theorem gangQuery_chunk {c : Nat} {cs : List Nat} (ho : (memberCores s vf).filterMap (openedChunk s vf) = c :: cs) :
    exec (.gangQuery m vf) s = .next ((gangBegun s m vf (some (cs.foldl max c))).spawn (.gangPause m vf)) := by
  rw [gangQuery_begins hg hp hs, ho]

end

section
variable {g : Gang} (hg : gangOf s m vf = some g)
include hg

theorem gangPause_pauses (h1 : g.step = 1) : exec (.gangPause m vf) s =
    .next ((wakeMembers ((setLimits s (fun _ => true) vf (some g.chunk)).modMod m fun z =>
      { z with gangs := z.gangs.map fun y => if y.vf = vf then { y with step := 2, paused := s.ticks } else y }) vf).spawns
        [.gangDrainComplete m vf, .gangStopTimeout m vf]) := by
  change execGangPause m vf s = _
  unfold execGangPause
  rw [hg]
  exact if_neg (by simp [h1])

variable (h2 : g.step = 2)
include h2

theorem gangDrainComplete_switches (hd : gangDrained s vf = true) :
    exec (.gangDrainComplete m vf) s = .next (gangSwitch s m vf) := by
  change execGangDrainComplete m vf s = _
  unfold execGangDrainComplete
  rw [hg]
  dsimp only
  rw [if_neg (by simp [h2]), if_pos hd]

theorem gangDrainComplete_waits (hd : gangDrained s vf = false) :
    exec (.gangDrainComplete m vf) s = .next (s.again (.gangDrainComplete m vf)) := by
  change execGangDrainComplete m vf s = _
  unfold execGangDrainComplete
  rw [hg]
  dsimp only
  rw [if_neg (by simp [h2]), if_neg (by simp [hd])]

theorem gangStopTimeout_stops (ht : g.paused + gangLimit s m vf ≤ s.ticks) :
    exec (.gangStopTimeout m vf) s = .next (gangSwitch (stopInPlace s vf) m vf) := by
  change execGangStopTimeout m vf s = _
  unfold execGangStopTimeout
  rw [hg]
  dsimp only
  rw [if_neg (by simp [h2]), if_neg (by omega)]

theorem gangStopTimeout_waits (ht : s.ticks < g.paused + gangLimit s m vf) :
    exec (.gangStopTimeout m vf) s = .next (s.again (.gangStopTimeout m vf)) := by
  change execGangStopTimeout m vf s = _
  unfold execGangStopTimeout
  rw [hg]
  dsimp only
  rw [if_neg (by simp [h2]), if_pos ht]

end

/-! ### GANG_RESUME -/

theorem wakeMembers_eq (t : State) : wakeMembers t vf = { t with strands := (wakeMembers t vf).strands } := by
  unfold wakeMembers
  generalize memberCores t vf = ks
  induction ks generalizing t with
  | nil => rfl
  | cons k ks ih =>
    rw [List.foldl_cons, ih]
    rfl

/-- A state in which a module's own record of the stop is gone. -/
def ungang (s : State) (m vf : Nat) : State := s.modMod m fun x => { x with gangs := x.gangs.filter fun g => decide (g.vf ≠ vf) }

theorem resumeGang_mods : (resumeGang s m vf).mods = (ungang s m vf).mods := by
  rw [resumeGang, wakeMembers_eq]
  rfl

theorem resumeGang_gangOf : gangOf (resumeGang s m vf) m vf = none := by
  rw [gangOf, State.modOf, resumeGang_mods, ← State.modOf, ungang, modMod_modOf]
  simp [List.find?_eq_none]

/-- The limit of the queues of a stopped VF. -/
def withLimit (vf : Nat) (l : Option (Option Nat)) (q : QState) : QState :=
  if q.bound && decide (q.tenant = vf) then { q with limit := l } else q

theorem setLimits_qs (t : State) {inMod : Nat → Bool} (l : Option (Option Nat)) {k : Nat}
    (hk : inMod (dieMod (cluDie (coreClu k))) = true) :
    ((setLimits t inMod vf l).coreOf k).qs = (t.coreOf k).qs.map (withLimit vf l) := by
  unfold setLimits State.coreOf
  dsimp only
  induction t.cores with
  | nil => rfl
  | cons e cs ih =>
    rw [List.map_cons]
    by_cases he : e.1 = k
    · obtain ⟨j, c⟩ := e
      obtain rfl : j = k := he
      rw [if_pos hk, fget, if_pos rfl, fget, if_pos rfl]
      rfl
    · obtain ⟨j, c⟩ := e
      split
      · rw [fget, if_neg he, fget, if_neg he]
        exact ih
      · rw [fget, if_neg he, fget, if_neg he]
        exact ih

theorem withLimit_limit {l : Option (Option Nat)} {q : QState} (hb : (withLimit vf l q).bound = true)
    (ht : (withLimit vf l q).tenant = vf) : (withLimit vf l q).limit = l := by
  unfold withLimit at hb ht ⊢
  by_cases h : (q.bound && decide (q.tenant = vf)) = true
  · rw [if_pos h]
  · rw [if_neg h] at hb ht
    exact absurd (by rw [hb, ht, decide_eq_true rfl]; rfl) h

theorem resumeGang_coreOf (k : Nat) : (resumeGang s m vf).coreOf k =
    (setLimits (ungang s m vf) (fun j => (gangOf s m vf).isSome || decide (j = m)) vf (gangHold (ungang s m vf) vf)).coreOf k := by
  rw [resumeGang, wakeMembers_eq]
  rfl

theorem gangResume_lifts : ∃ u, exec (.gangResume m vf) s = .next u ∧ gangOf u m vf = none ∧
    (gangsOf u vf = [] → ∀ k q, dieMod (cluDie (coreClu k)) = m → q ∈ (u.coreOf k).qs → q.bound = true → q.tenant = vf →
      q.limit = none) := by
  refine ⟨resumeGang s m vf, rfl, resumeGang_gangOf, fun hn k q hk hq hb ht => ?_⟩
  have hn' : gangsOf (ungang s m vf) vf = [] := by
    rw [gangsOf, ← resumeGang_mods, ← gangsOf, hn]
  have hh : gangHold (ungang s m vf) vf = none := by
    rw [gangHold, hn']
  rw [resumeGang_coreOf, hh, setLimits_qs _ _ (by rw [hk, decide_eq_true rfl, Bool.or_true])] at hq
  obtain ⟨r, -, rfl⟩ := List.mem_map.mp hq
  exact withLimit_limit hb ht

end

/-- Settles O46: packets, credits and the stop's steps are branches of their events; GANG_RESUME takes the module's record
away, and with no other module's left the limit it sets is none. -/
theorem routerEntries : Obligations.RouterEntries := by
  unfold Obligations.RouterEntries
  intro clu e port m vf s p x rest g c cs
  exact ⟨fun h => ⟨vsPacketArrive_none h, vsPacketArrive_tenant h, vsPacketArrive_group h, vsPacketArrive_held h⟩,
    fun h => ⟨vsCredit_queue h, vsCredit_port h⟩, fun ⟨hg, hp, hs⟩ => gangQuery_none hg hp hs,
    fun ⟨hg, hp, hs⟩ => gangQuery_chunk hg hp hs,
    fun hg => ⟨gangPause_pauses hg, gangDrainComplete_switches hg, gangDrainComplete_waits hg, gangStopTimeout_stops hg,
      gangStopTimeout_waits hg⟩, gangResume_lifts⟩

end Sys2Proof.Proofs.RouterWork

end

section
/-! SUPPORT. Home slices, page walks, wakes, probes and memory errors (R222 to R234, R313 to R321). -/

namespace Sys2Proof.Proofs.HomeWork

open Sys2Proof Sys2Proof.Machine Sys2Proof.Laws Sys2Proof.Proofs.Remote

/-! ### Requests (R151, R170) -/

section
variable {m : Nat} {src : Place} {s : State} {x : Msg} {bef aft : List Msg} {e : Event} {q : Msg → Bool}
  (h : splitFirst q s.net = some (bef, x, aft))
include h

theorem serveFirst_waits (hb : behind s bef x = true ∨ s.ticks < x.due) : serveFirst s e q = s.again e := by
  unfold serveFirst
  rw [h]
  exact if_pos (by simpa using hb)

theorem serveFirst_follows (hb : behind s bef x = false) (ht : x.due ≤ s.ticks) :
    serveFirst s e q = followRoute s bef aft x (route s x) := by
  unfold serveFirst
  rw [h]
  exact if_neg (by rw [hb]; simp [Nat.not_lt.mpr ht])

end

/-! ### Walks (R313) -/

section
variable {die page : Nat} {s : State}

section
variable (hw : ((s.dieOf die).walks.find? fun e => decide (e.1 = page)) = none)
include hw

/-! The page's address stays folded under the walk's own `let`, so that no checker computes with it. -/

theorem pageWalk_empty (h : leafAddr s (dieMod die) (page * 2 ^ 21) = .empty) :
    exec (.pageWalk die page) s = .next (endWalk s die page (some 0)) := by
  change execPageWalk die page s = _
  unfold execPageWalk
  extract_lets m
  have hl : leafAddr s m (page * 2 ^ 21) = .empty := h
  rewrite [hw, hl]
  rfl

theorem pageWalk_poisoned (h : leafAddr s (dieMod die) (page * 2 ^ 21) = .poisoned) :
    exec (.pageWalk die page) s = .next (endWalk s die page none) := by
  change execPageWalk die page s = _
  unfold execPageWalk
  extract_lets m
  have hl : leafAddr s m (page * 2 ^ 21) = .poisoned := h
  rewrite [hw, hl]
  rfl

variable {a : Nat} (h : leafAddr s (dieMod die) (page * 2 ^ 21) = .leaf a)
include h

theorem pageWalk_unread (hr : tableRead s (dieMod die) a = none) :
    exec (.pageWalk die page) s = .next (endWalk s die page none) := by
  change execPageWalk die page s = _
  unfold execPageWalk
  extract_lets m
  have hl : leafAddr s m (page * 2 ^ 21) = .leaf a := h
  have ht : tableRead s m a = none := hr
  rewrite [hw, hl]
  simp only [ht]

theorem pageWalk_half {low : Nat} (hr : tableRead s (dieMod die) a = some low) :
    exec (.pageWalk die page) s = .next ((s.modDie die fun d => { d with walks := (page, a, low) :: d.walks }).spawn
      (.pageWalk die page)) := by
  change execPageWalk die page s = _
  unfold execPageWalk
  extract_lets m
  have hl : leafAddr s m (page * 2 ^ 21) = .leaf a := h
  have ht : tableRead s m a = some low := hr
  rewrite [hw, hl]
  simp only [ht]

end

theorem pageWalk_ends {a low : Nat} (hw : ((s.dieOf die).walks.find? fun e => decide (e.1 = page)) = some (page, a, low)) :
    exec (.pageWalk die page) s =
      .next (endWalk (s.modDie die fun d => { d with walks := d.walks.filter fun e => decide (e.1 ≠ page) }) die page
        (joinLeaf (some low) (tableRead s (dieMod die) (a + 8)))) := by
  change execPageWalk die page s = _
  unfold execPageWalk
  simp only [hw]

theorem endWalk_leafCache {n : Nat} (hn : leafV n = true) :
    ((endWalk s die page (some n)).dieOf die).leafCache.find? (fun e => decide (e.1 = page)) = some (page, n) := by
  change ((cacheLeaf s die page n).dieOf die).leafCache.find? _ = _
  rw [cacheLeaf, modDie_dieOf]
  dsimp only
  rw [if_pos hn, List.take_succ_cons, List.find?_cons, decide_eq_true rfl]

end

/-! ### Wakes and probes (R322, R332) -/

section
variable {die act tok : Nat} {s : State} {rest : List Note} (h : s.notes = .wake die act tok :: rest)
include h

theorem faultackWake_unknown (hk : ((s.dieOf die).waits.find? fun y => decide (y.token = tok)) = none) :
    exec (.faultackWake die) s = .next (({ s with notes := rest } : State).count die 8) := by
  change execFaultackWake die s = _
  unfold execFaultackWake
  simp only [h]
  rw [takeNote_head (if_pos rfl)]
  simp only [hk]

variable {w : FaultWait} (hk : ((s.dieOf die).waits.find? fun y => decide (y.token = tok)) = some w)
include hk

theorem faultackWake_reserved (ha : 2 ≤ act) :
    exec (.faultackWake die) s = .next (({ s with notes := rest } : State).count die 8) := by
  change execFaultackWake die s = _
  unfold execFaultackWake
  simp only [h]
  rw [takeNote_head (if_pos rfl)]
  simp only [hk]
  rw [if_pos (.inl ha), if_pos ha]

theorem faultackWake_wakes (ha : act < 2) (hw : w.strands ≠ [] ∨ w.xfers ≠ []) : exec (.faultackWake die) s =
    .next (w.xfers.foldl (wakeXfer w (decide (act = 1))) (w.strands.foldl (wakeStrand tok (decide (act = 1)))
      (({ s with notes := rest } : State).modDie die fun d =>
        { d with waits := d.waits.filter fun y => decide (y.token ≠ tok) }))) := by
  change execFaultackWake die s = _
  unfold execFaultackWake
  simp only [h]
  rw [takeNote_head (if_pos rfl)]
  simp only [hk]
  rw [if_neg]
  rw [Bool.and_eq_true, List.isEmpty_iff, List.isEmpty_iff, not_or, not_and_or]
  exact ⟨Nat.not_le.mpr ha, hw⟩

end

theorem releaseProbe_passes {m grp : Nat} {src : Place} {deep : Bool} {s : State} {x : Msg} {aft : List Msg}
    (hn : s.net = x :: aft) (hl : x.loc = m) (hs : x.src = src) (hb : x.body = .probe grp deep) :
    exec (.releaseProbe m src grp) s = .next (State.spawn { s with net := aft } (.probeEcho src grp)) := by
  change execReleaseProbe m src grp s = _
  unfold execReleaseProbe
  simp only [hn]
  rw [splitFirst, if_pos (by simp [hb, hl, hs])]
  rfl

/-- The strand after the echo of its last probe. -/
def echoed (z : Strand) (grp : Nat) : Strand :=
  { z with probes := [], csr := { z.csr with ttmask := z.csr.ttmask &&& ~~~(BitVec.ofNat 32 (2 ^ grp)) },
           resps := z.resps ++ [Resp.released] }.wakeIf [.fence]

theorem echo_last {p : Place} {grp : Nat} {s : State} (h : (s.strand p).probes = [grp]) :
    (echo s p grp).strand p = echoed (s.strand p) grp := by
  have hc : [grp].contains grp = true := by simp
  unfold echo
  simp only [h, hc, if_true]
  rw [List.filter_cons_of_neg (by simp), List.filter_nil]
  exact fget_fset_same _ _ _ _

theorem probeEcho_last {p : Place} {grp : Nat} {s : State} (h : (s.strand p).probes = [grp]) :
    ∃ u, exec (.probeEcho p grp) s = .next u ∧ (u.strand p).probes = [] ∧
      (u.strand p).csr.ttmask = (s.strand p).csr.ttmask &&& ~~~(BitVec.ofNat 32 (2 ^ grp)) ∧
      Resp.released ∈ (u.strand p).resps ∧ ((s.strand p).st = .parked .fence → (u.strand p).st = .ready) := by
  refine ⟨echo s p grp, rfl, ?_⟩
  rw [echo_last h]
  have hw := wakeIf_same [.fence] { s.strand p with
    probes := [], csr := { (s.strand p).csr with ttmask := (s.strand p).csr.ttmask &&& ~~~(BitVec.ofNat 32 (2 ^ grp)) },
    resps := (s.strand p).resps ++ [Resp.released] }
  have hr : (echoed (s.strand p) grp).resps = (s.strand p).resps ++ [Resp.released] := (congrArg Strand.resps hw :)
  refine ⟨(congrArg Strand.probes hw :), (congrArg (fun z => z.csr.ttmask) hw :), ?_, fun hst => ?_⟩
  · rw [hr]
    exact List.mem_append_right _ List.mem_cons_self
  · unfold echoed Strand.wakeIf
    simp only [hst]
    rfl

/-! ### Memory errors (R318) -/

theorem uncorrectable_icache {clu n : Nat} {s : State} {b : IcBlock} (h : icFind (s.cluOf clu) n = some b) :
    exec (.uncorrectableError (.icache clu n)) s =
      .next (((s.logErr (cluDie clu) b.tenant 2 (n * 64)).modClu clu fun y =>
        { y with icache := y.icache.filter fun e => decide (e.blk ≠ n) }).count (cluDie clu) 1) := by
  change execUncorrectableError (.icache clu n) s = _
  unfold execUncorrectableError
  simp only [h]

/-- Settles O55: a request follows its route, a walk, a wake and a probe are branches of their events, and each error is its
own equation. -/
theorem homeEvents : Obligations.HomeEvents := by
  unfold Obligations.HomeEvents
  intro m die page grp core a off n clu tenant act tok deep src p s x bef aft w rest b
  refine ⟨fun h => ⟨fun hb => ?_, fun hb ht => ?_⟩, fun h => ⟨fun hb => ?_, fun hb ht => ?_⟩,
    fun hw => ⟨pageWalk_empty hw, pageWalk_poisoned hw, fun h => ⟨pageWalk_unread hw h, pageWalk_half hw h⟩⟩, pageWalk_ends,
    rfl, endWalk_leafCache, fun h => ⟨faultackWake_unknown h, faultackWake_reserved h, faultackWake_wakes h⟩,
    releaseProbe_passes, fun h _ => probeEcho_last h, rfl, rfl, rfl, rfl, rfl, rfl, rfl, rfl, rfl, rfl,
    uncorrectable_icache, rfl, rfl⟩
  · exact congrArg Host.Outcome.next (serveFirst_waits h hb)
  · exact congrArg Host.Outcome.next (serveFirst_follows h hb ht)
  · exact congrArg Host.Outcome.next (serveFirst_waits h hb)
  · exact congrArg Host.Outcome.next (serveFirst_follows h hb ht)

end Sys2Proof.Proofs.HomeWork

end

section
/-! SUPPORT. Doorbells, launches, resets and policies (R376, R379 to R385). -/

namespace Sys2Proof.Proofs.LaunchWork

open Sys2Proof Sys2Proof.Machine Sys2Proof.Laws

section
variable {m vf : Nat} {s : State}

/-! ### The look at a ring (R379) -/

theorem launchTake_idle (h : (s.launch m vf).en = false ∨ (s.launch m vf).running = true) :
    exec (.launchTake m vf) s = .next s := if_pos h

section
variable {h ent : Nat} (hen : (s.launch m vf).en = true) (hrun : (s.launch m vf).running = false)
  (hh : ochreSee s m (ringTenant vf) (s.launch m vf).ring 16 = some h)
  (he : ochreSee s m (ringTenant vf) ((s.launch m vf).entryAt (h / 2 ^ 64)) 64 = some ent)
  (hf : dfield ent 0x18 4 = (h / 2 ^ 64 + 1) % 2 ^ 32) (ht : vfTaken s m (entryVf vf ent) = false)
include hen hrun hh he hf ht

theorem launchTake_rejects {st : Nat} (hc : checkLaunch s m vf (entryVf vf ent) ent = .error st) :
    exec (.launchTake m vf) s = .next (spawnOnce
      (finishEntry (noteLaunch s m (entryVf vf ent) ent st) m vf (h / 2 ^ 64) st) (.launchTake m vf)) := by
  change execLaunchTake m vf s = _
  unfold execLaunchTake
  extract_lets l again
  rw [if_neg (by simp [l, hen, hrun]), show ochreSee s m (ringTenant vf) l.ring 16 = some h from hh]
  dsimp only
  rw [show ochreSee s m (ringTenant vf) (l.entryAt (h / 2 ^ 64)) 64 = some ent from he]
  dsimp only
  rw [if_neg (by simp [hf, ht]), hc]

variable {r : LaunchRec} (hc : checkLaunch s m vf (entryVf vf ent) ent = .ok r)
include hc

theorem launchTake_ok : exec (.launchTake m vf) s =
    (if (spanClusters m (launchPart s m r.part)).any (spartWaits s m (launchPart s m r.part)) then
      .next (spawnOnce (setBusy s m (launchPart s m r.part) true) (.launchTake m vf))
    else .next ((startLaunch (setBusy s m (launchPart s m r.part) false) m vf (entryVf vf ent) (h / 2 ^ 64)
      (bitAt (dfield ent 0x1C 1) 0) r).spawn (.launchEnd m vf))) := by
  change execLaunchTake m vf s = _
  unfold execLaunchTake
  extract_lets l again
  rw [if_neg (by simp [l, hen, hrun]), show ochreSee s m (ringTenant vf) l.ring 16 = some h from hh]
  dsimp only
  rw [show ochreSee s m (ringTenant vf) (l.entryAt (h / 2 ^ 64)) 64 = some ent from he]
  dsimp only
  rw [if_neg (by simp [hf, ht]), hc]

theorem launchTake_waits (hw : ((spanClusters m (launchPart s m r.part)).any (spartWaits s m (launchPart s m r.part))) = true) :
    exec (.launchTake m vf) s = .next (spawnOnce (setBusy s m (launchPart s m r.part) true) (.launchTake m vf)) := by
  rw [launchTake_ok hen hrun hh he hf ht hc, if_pos hw]

theorem launchTake_starts (hw : ((spanClusters m (launchPart s m r.part)).any (spartWaits s m (launchPart s m r.part))) = false) :
    exec (.launchTake m vf) s = .next ((startLaunch (setBusy s m (launchPart s m r.part) false) m vf (entryVf vf ent) (h / 2 ^ 64)
      (bitAt (dfield ent 0x1C 1) 0) r).spawn (.launchEnd m vf)) := by
  rw [launchTake_ok hen hrun hh he hf ht hc, hw, if_neg Bool.false_ne_true]

end

/-! ### The end of a launch (R381) -/

section
variable {rest : List (Nat × QTask)} {s1 : State} (hrun : (s.launch m vf).running = true)
  (hr : (s.modOf m).resetting.contains (s.launch m vf).forVf = false) (hq : queueTasks (s.launch m vf).rest s = (rest, s1))
include hrun hr hq

theorem launchEnd_waits (h : rest ≠ [] ∨ vfDone (s1.modLaunch m vf fun x => { x with rest := rest }) m (s.launch m vf).forVf = false) :
    exec (.launchEnd m vf) s = .next ((s1.modLaunch m vf fun x => { x with rest := rest }).again (.launchEnd m vf)) := by
  change execLaunchEnd m vf s = _
  unfold execLaunchEnd
  extract_lets l
  rw [if_neg (by rw [show l.running = true from hrun, show (s.modOf m).resetting.contains l.forVf = false from hr]; simp),
    show queueTasks l.rest s = (rest, s1) from hq]
  dsimp only
  rw [if_pos]
  rw [Bool.or_eq_true, Bool.not_eq_true', Bool.not_eq_true', List.isEmpty_eq_false_iff]
  exact h

theorem launchEnd_ends (hn : rest = []) (hd : vfDone (s1.modLaunch m vf fun x => { x with rest := rest }) m (s.launch m vf).forVf = true) :
    let told : State := s1.modLaunch m vf fun x => { x with rest := rest }
    let kept := waitingTasks told m (s.launch m vf).forVf
    let closed : State := finishEntry (discardWaiting told m (s.launch m vf).forVf) m vf (s.launch m vf).entry
      (if kept = 0 then 0 else 8 + kept * 2 ^ 32)
    let part := (closed.policy m (s.launch m vf).forVf).part
    exec (.launchEnd m vf) s = .next (spawnOnce
      (if (runningVfs closed m part).isEmpty then closed else spawnOnce closed (.timeSliceExpiry m part)) (.launchTake m vf)) := by
  change execLaunchEnd m vf s = _
  unfold execLaunchEnd
  extract_lets l
  rw [if_neg (by rw [show l.running = true from hrun, show (s.modOf m).resetting.contains l.forVf = false from hr]; simp),
    show queueTasks l.rest s = (rest, s1) from hq]
  dsimp only
  rw [if_neg]
  rw [Bool.or_eq_true, Bool.not_eq_true', Bool.not_eq_true', List.isEmpty_eq_false_iff]
  exact not_or.mpr ⟨not_not.mpr hn, by rw [show vfDone _ m l.forVf = true from hd]; exact Bool.noConfusion⟩

end

/-! ### Resets and policies (R376, R385) -/

theorem vfPolicyWrite_waits {f : PolicyField} (h : changeWaits s m vf f = true) :
    exec (.vfPolicyWrite m vf f) s = .next (s.modPolicy m vf fun p => { p with pending := p.pending ++ [f] }) := if_pos h

theorem vfPolicyWrite_applies {f : PolicyField} (h : changeWaits s m vf f = false) :
    exec (.vfPolicyWrite m vf f) s = .next (applyField (applyDue s m vf) m vf f) := if_neg (by simp [h])

theorem modPolicy_policy (t : State) (f : Policy → Policy) : (t.modPolicy m vf f).policy m vf = f (t.policy m vf) := by
  rw [State.modPolicy, State.policy, modMod_modOf, fget_fset_same]
  rfl

theorem vfPolicyWrite_slice (v : Nat) : ∃ t, exec (.vfPolicyWrite m vf (.slice v)) s = .next t ∧
    (t.policy m vf).slice = v % 2 ^ 20 :=
  ⟨_, vfPolicyWrite_applies rfl, congrArg Policy.slice (modPolicy_policy (applyDue s m vf) fun p => p.apply (.slice v))⟩

theorem vfPolicyWrite_en (v : Bool) : ∃ t, exec (.vfPolicyWrite m vf (.en v)) s = .next t ∧ (t.policy m vf).en = v :=
  ⟨_, vfPolicyWrite_applies rfl, congrArg Policy.en (modPolicy_policy (applyDue s m vf) fun p => p.apply (.en v))⟩

theorem vfPolicyWrite_quota {v : Nat} (hv : v ≤ 2 ^ 14) (hs : vfStrands s m vf = []) :
    ∃ t, exec (.vfPolicyWrite m vf (.quota v)) s = .next t ∧ (t.policy m vf).quota = v := by
  have hw : changeWaits s m vf (.quota v) = false := by
    change (!(vfStrands s m vf).isEmpty) = false
    rw [hs]
    rfl
  refine ⟨_, vfPolicyWrite_applies hw,
    (congrArg Policy.quota (modPolicy_policy (applyDue s m vf) fun p => p.apply (.quota v))).trans ?_⟩
  change (if v = 2 ^ 14 then v else v % 2 ^ 14) = v
  split
  · rfl
  · exact Nat.mod_eq_of_lt (by omega)

end

/-- Settles O56: the look at a ring, the end of a launch and a reset are branches of their events; a policy field is what its
record holds after `Policy.apply`. -/
theorem launches : Obligations.Launches := by
  unfold Obligations.Launches
  intro m vf st f s s1 h ent r rest
  refine ⟨rfl, launchTake_idle, fun ⟨hen, hrun, hh, he, hf, ht⟩ => launchTake_rejects hen hrun hh he hf ht,
    fun ⟨hen, hrun, hh, he, hf, ht⟩ hc => ⟨launchTake_waits hen hrun hh he hf ht hc, launchTake_starts hen hrun hh he hf ht hc⟩,
    fun hrun hr hq => ⟨launchEnd_waits hrun hr hq, launchEnd_ends hrun hr hq⟩, fun hb => if_pos hb, fun hb => if_neg ?_,
    vfPolicyWrite_waits, vfPolicyWrite_applies, vfPolicyWrite_slice, fun v => vfPolicyWrite_quota, vfPolicyWrite_en⟩
  rw [hb]
  exact Bool.false_ne_true

end Sys2Proof.Proofs.LaunchWork

end

section
/-! SUPPORT. Boot, the host, partitions and failures of hardware (R369 to R375, R386, R392 to R396). -/

namespace Sys2Proof.Proofs.ModuleWork

open Sys2Proof Sys2Proof.Machine Sys2Proof.Laws Sys2Proof.Proofs.PowerWork

section
variable {m : Nat} {s : State}

/-! ### Boot and attestation (R392 to R394) -/

theorem logFailure_mods (t : State) (f : Failure) (n : Nat) : (logFailure t m f n).mods = t.mods := logErr_mods ..

theorem foldl_logFailure_mods (f : Failure) (ps : List Nat) (t : State) :
    (ps.foldl (fun u p => logFailure u m f p) t).mods = t.mods := by
  induction ps generalizing t with
  | nil => rfl
  | cons p ps ih => exact (ih _).trans (logFailure_mods ..)

theorem wakeAdmission_mods (t : State) (k : Nat) : (wakeAdmission t k).mods = t.mods := by
  unfold wakeAdmission spawnOnce
  split
  · rfl
  · split <;> rfl

theorem setBudget_mods (t : State) (k n : Nat) : (setBudget t k n).mods = t.mods := by
  unfold setBudget admitOutside
  dsimp only
  rw [wakeAdmission_mods]
  rfl

theorem setBudgets_mods (t : State) (n : Nat) : (setBudgets t m n).mods = t.mods := by
  unfold setBudgets
  generalize (t.modOf m).diesUp = ds
  induction ds generalizing t with
  | nil => rfl
  | cons d ds ih =>
    rw [List.foldl_cons, ih, setBudget_mods]
    rfl

theorem divideBudget_mods (t : State) : (divideBudget t m).mods = t.mods := setBudgets_mods ..

section
variable {img : FwImage} (hb : (s.modOf m).boot = 1) (hr : (s.modOf m).recovery = false) (hp : (s.port m 0).failed = false)
include hb hr hp

theorem firmwareFetchRetry_arrived (ha : img.arrived = true) (hl : img.bytes < 2 ^ 28) : exec (.firmwareFetchRetry m img) s =
    (if imagePasses m img then .next (finishBoot s m img)
     else .next (logFailure (s.modMod m fun y => { y with recovery := true }) m .image img.version)) := by
  change execFirmwareFetchRetry m img s = _
  unfold execFirmwareFetchRetry
  dsimp only
  rw [if_neg (by simp [hb, hr, hp]), if_neg (not_or.mpr ⟨by simp [ha], Nat.not_le.mpr hl⟩)]

/-- The module as its firmware starts: three measurements, and the ports that passed their test. -/
def booted (x : Module) (m : Nat) (img : FwImage) : Module :=
  { ((x.measure (Config.romDigest m)).measure (Config.rootKeyHash m)).measure img.digest with
    boot := 6, fwVersion := img.version, portUp := [Config.hostPortTest m 0, Config.hostPortTest m 1] }

omit hb hr hp in
theorem finishBoot_modOf : (finishBoot s m img).modOf m = booted (s.modOf m) m img := by
  rw [finishBoot, State.modOf, divideBudget_mods, foldl_logFailure_mods, ← State.modOf, modMod_modOf]
  rfl

theorem firmwareFetchRetry_boots (ha : img.arrived = true) (hl : img.bytes < 2 ^ 28) (hi : imagePasses m img = true) :
    ∃ t, exec (.firmwareFetchRetry m img) s = .next t ∧ (t.modOf m).boot = 6 ∧ (t.modOf m).fwVersion = img.version ∧
      (t.modOf m).portUp = [Config.hostPortTest m 0, Config.hostPortTest m 1] ∧
      (t.modOf m).log.length = (s.modOf m).log.length + 3 := by
  refine ⟨finishBoot s m img, by rw [firmwareFetchRetry_arrived hb hr hp ha hl, if_pos hi], ?_⟩
  rw [finishBoot_modOf]
  refine ⟨rfl, rfl, rfl, ?_⟩
  simp only [booted, Module.measure, List.length_append, List.length_cons, List.length_nil]

theorem firmwareFetchRetry_bad (ha : img.arrived = true) (hl : img.bytes < 2 ^ 28) (hi : imagePasses m img = false) :
    exec (.firmwareFetchRetry m img) s =
      .next (logFailure (s.modMod m fun y => { y with recovery := true }) m .image img.version) := by
  rw [firmwareFetchRetry_arrived hb hr hp ha hl, hi, if_neg Bool.false_ne_true]

end

theorem firmwareFetchRetry_none {img : FwImage}
    (h : ¬((s.modOf m).boot = 1 ∧ (s.modOf m).recovery = false ∧ (s.port m 0).failed = false) ∨
      ¬(img.arrived = true ∧ img.bytes < 2 ^ 28)) : exec (.firmwareFetchRetry m img) s = .next s := by
  change execFirmwareFetchRetry m img s = _
  unfold execFirmwareFetchRetry
  dsimp only
  split
  · rfl
  · next h1 =>
    rw [not_or, not_or, not_not, Bool.not_eq_true, Bool.not_eq_true] at h1
    refine if_pos ?_
    have h2 := h.resolve_left (not_not.mpr h1)
    rwa [not_and_or, Bool.not_eq_true, Nat.not_lt] at h2

theorem attestationRequest_reports (nonce : BitVec 256) (hb : (s.modOf m).boot = 6) :
    ∃ t, exec (.attestationRequest m nonce) s = .next t ∧ (t.modOf m).report = some { body := reportBody s m nonce, sig := Config.sign m (Config.sha384 (reportBody s m nonce)) } :=
  ⟨_, if_pos hb, congrArg Module.report (modMod_modOf s m fun x => { x with report := some { body := reportBody s m nonce, sig := Config.sign m (Config.sha384 (reportBody s m nonce)) } })⟩

theorem packageNumberWrite_writes (num : BitVec 12) (hb : (s.modOf m).boot = 6) (hp : (s.modOf m).pkg = none) :
    ∃ t, exec (.packageNumberWrite m num) s = .next t ∧ (t.modOf m).pkg = some num.toNat :=
  ⟨_, if_pos ⟨hb, hp⟩, congrArg Module.pkg (modMod_modOf s m fun x => { x with pkg := some num.toNat })⟩

theorem packageNumberWrite_none (num : BitVec 12) (h : (s.modOf m).boot ≠ 6 ∨ (s.modOf m).pkg ≠ none) :
    exec (.packageNumberWrite m num) s = .next s := if_neg (not_and_or.mpr h)

/-! ### The host (R386, R395) -/

theorem setPort_portUp (port : Nat) (v : Bool) : ((setPort s m port v).modOf m).portUp = setNth (s.modOf m).portUp port v :=
  congrArg Module.portUp (modMod_modOf s m fun x => { x with portUp := setNth x.portUp port v })

theorem hostPortDown_port (port : Nat) : ∃ t, exec (.hostPortDown m port) s = .next t ∧
    (t.modOf m).portUp = setNth (s.modOf m).portUp port false := by
  refine ⟨_, rfl, ?_⟩
  rw [State.modOf, logFailure_mods, ← State.modOf, setPort_portUp]

theorem modLaunch_launch (vf : Nat) (f : Launch → Launch) : (s.modLaunch m vf f).launch m vf = f (s.launch m vf) := by
  rw [State.modLaunch, State.launch, modMod_modOf, fget_fset_same]
  rfl

theorem hostBarWrite_lqbase (vf n : Nat) (v : Word) : ∃ t, exec (.hostBarWrite m vf false 0 v n) s = .next t ∧
    (t.launch m vf).lqbase = word (fld v 55 6 * 64) :=
  ⟨_, rfl, congrArg Launch.lqbase (modLaunch_launch vf fun l => { l with lqbase := word (fld v 55 6 * 64) })⟩

theorem spawnOnce_mods (t : State) (e : Event) : (spawnOnce t e).mods = t.mods := by
  unfold spawnOnce
  split <;> rfl

theorem spawnOnce_dies (t : State) (e : Event) : (spawnOnce t e).dies = t.dies := by
  unfold spawnOnce
  split <;> rfl

/-- The fault records as far as they fit, after the host has taken some. -/
def taken (s : State) (m vf n : Nat) : State :=
  let base := bits (s.policy m vf).faultq.toNat 55 12 * 4096
  let tail := (ochreSee s m vf (base + 8) 8).getD 0
  drainPosts (if n = 0 then s else ochreWrite s m vf (base + 8) 8 (tail + n)) m

theorem faultQueueTailAdvance_posts {vf n : Nat} : ∃ t, exec (.faultQueueTailAdvance m vf n) s = .next t ∧
    t.mods = (taken s m vf n).mods ∧ t.dies = (taken s m vf n).dies := by
  refine ⟨if ((taken s m vf n).modOf m).posts.any fun p => decide (p.vf = vf) then
    spawnOnce (taken s m vf n) (.faultQueueTailAdvance m vf 0) else taken s m vf n, rfl, ?_⟩
  split
  · exact ⟨spawnOnce_mods .., spawnOnce_dies ..⟩
  · exact ⟨rfl, rfl⟩

/-! ### Partitions and failures (R374, R396) -/

section
variable {part : Nat} {cfg : PartCfg}

/-- A partition as the host configures it (R374). -/
def configured (s : State) (m part : Nat) (cfg : PartCfg) : Partition :=
  { launchPart s m part with
    clusters := partClusters s m cfg, slots := cfg.slots % 2 ^ 15, banks := cfg.banks % 64, wayBase := cfg.wayBase,
    ways := cfg.ways }

/-- The module with the partition's record. -/
def withPart (s : State) (m part : Nat) (cfg : PartCfg) : State :=
  s.modMod m fun y =>
    { y with partitions := (y.partitions.filter fun z => decide (z.1 ≠ part)) ++ [(part, configured s m part cfg)] }

/-- The shared clusters whose ways the configuration changes. -/
def reshaped (s : State) (m part : Nat) (cfg : PartCfg) : List Nat :=
  (spanClusters m { configured s m part cfg with
    clusters := ((launchPart s m part).clusters ++ (configured s m part cfg).clusters).eraseDups }).filter fun k =>
      sharedClu (withPart s m part cfg) m k && decide ((s.cluOf k).spways ≠ sumWays (withPart s m part cfg) m k)

variable (hp : part ≤ 14)
  (hc : ((s.modOf m).partitions.any fun y => decide (y.1 ≠ part) && (configured s m part cfg).clashes y.2 m) = false)
include hp hc

theorem partitionConfigure_waits (hf : (reshaped s m part cfg).any (cluFlight s) = true) :
    exec (.partitionConfigure m part cfg) s = .next (s.again (.partitionConfigure m part cfg)) := by
  refine (if_neg ?_).trans (if_pos hf)
  rw [not_or, Bool.not_eq_true]
  exact ⟨Nat.not_lt.mpr hp, hc⟩

theorem partitionConfigure_sets (hf : (reshaped s m part cfg).any (cluFlight s) = false) :
    exec (.partitionConfigure m part cfg) s =
      .next ((reshaped s m part cfg).foldl (fun t k => convertWays t k (sumWays (withPart s m part cfg) m k))
        ((spanCores m (configured s m part cfg)).foldl (fun t k => t.modCore k fun c =>
            { c with slotmap := mapSlots part (configured s m part cfg).slots c.slotmap,
                     tbanks := fset c.tbanks part (configured s m part cfg).banks })
          ((spanCores m (launchPart s m part)).foldl (fun t k => t.modCore k fun c =>
            { c with slotmap := mapSlots part 0 c.slotmap, tbanks := fdel c.tbanks part }) (withPart s m part cfg)))) := by
  refine (if_neg ?_).trans (if_neg ?_)
  · rw [not_or, Bool.not_eq_true]
    exact ⟨Nat.not_lt.mpr hp, hc⟩
  · exact Bool.eq_false_iff.mp hf

end

theorem ochreCoreFault_notes {pd core : Nat} (hd : ((logFailure (s.modPort m pd fun p =>
      { p with dead := core % 4 :: p.dead.filter (· ≠ core % 4) }) m .ochre (4 * pd + core % 4)).port m pd).dead.length < 4) :
    exec (.ochreCoreFault m pd core) s = .next (logFailure (s.modPort m pd fun p =>
      { p with dead := core % 4 :: p.dead.filter (· ≠ core % 4) }) m .ochre (4 * pd + core % 4)) :=
  if_neg fun h => absurd h.1 (Nat.ne_of_lt hd)

theorem stackFailure_down (stack : Nat) : ∃ t, exec (.stackFailure m stack) s = .next t ∧ stack ∈ (t.modOf m).stacksDown := by
  refine ⟨_, rfl, ?_⟩
  rw [stackDown, State.modOf, logErr_mods, State.count, modDie_mods, ← State.modOf, modMod_modOf]
  exact List.mem_cons_self

end

/-- Settles O57: boot, the host's writes, a partition's configuration and the failures are branches of their events; the records
of failures change no module. -/
theorem moduleEvents : Obligations.ModuleEvents := by
  unfold Obligations.ModuleEvents
  intro m vf port stack pd core part n img nonce num a v cfg s
  exact ⟨rfl, fun ⟨hb, hr, hp⟩ ⟨ha, hl⟩ => firmwareFetchRetry_boots hb hr hp ha hl,
    fun ⟨hb, hr, hp⟩ ⟨ha, hl⟩ => firmwareFetchRetry_bad hb hr hp ha hl,
    firmwareFetchRetry_none, attestationRequest_reports nonce, fun hb => if_neg hb, packageNumberWrite_writes num,
    packageNumberWrite_none num, hostPortDown_port port, ⟨_, rfl, setPort_portUp port true⟩, rfl, hostBarWrite_lqbase vf n v,
    rfl, rfl, faultQueueTailAdvance_posts, fun h => if_pos h, partitionConfigure_waits, partitionConfigure_sets,
    stackFailure_down stack, ochreCoreFault_notes, fun hd hb => if_pos ⟨hd, hb⟩, rfl⟩

end Sys2Proof.Proofs.ModuleWork

end

section
/-! SUPPORT. The network and the links (R388 to R398): flits, packets, frames, keys and failed paths. -/

namespace Sys2Proof.Proofs.NetworkWork

open Sys2Proof Sys2Proof.Machine Sys2Proof.Laws Sys2Proof.Proofs.Remote

/-! ### Flits (R391, R392) -/

section
variable {m node c p : Nat} {s s1 : State} {f : Flit} (hf : s.flits = [f])
  (hm : f.mod = m) (hn : f.node = node) (hr : f.ready ≤ s.ticks)

theorem outputOf_productive (hc : s.choice (productive s f node).length = (c, s1)) (hp : (productive s f node)[c]? = some p) :
    outputOf s f node [] = (some p, s1) := by
  have hne : productive s f node ≠ [] := fun e => by rw [e] at hp; exact absurd hp (by simp)
  unfold outputOf
  dsimp only
  rw [show ((productive s f node).filter fun p => !List.contains [] p) = productive s f node from
    List.filter_eq_self.mpr fun _ _ => rfl]
  cases hl : productive s f node with
  | nil => exact absurd hl hne
  | cons q qs =>
    rw [hl] at hc hp
    dsimp only
    rw [hc, hp]

theorem outputOf_deflects (hp : productive s f node = []) : outputOf s f node [] = (some 0, s) := by
  unfold outputOf
  rw [hp]
  rfl

section
variable (ht : f.stage = .transit)
include hf hm hn hr ht

theorem flitRoute_transit (ho : outputOf s f node [] = (some p, s1)) :
    ∃ u, exec (.flitRoute m node) s = .next u ∧ u.flits = [moveFlit s.ticks f p] := by
  have h1 : decide (f.mod = m ∧ f.node = node ∧ f.stage = .transit ∧ f.ready ≤ s.ticks) = true :=
    decide_eq_true ⟨hm, hn, ht, hr⟩
  have ha : assign node (byAge [f]) [] s = ([moveFlit s.ticks f p], [], [p], s1) := by
    change assign node [f] [] s = _
    rw [assign, ho]
    rfl
  change ∃ u, execFlitRoute m node s = .next u ∧ _
  unfold execFlitRoute
  simp only [hf, List.filter_cons, List.filter_nil, h1, if_true, ha, Bool.not_true, Bool.false_eq_true, if_false, injectable,
    List.length_nil, List.getElem?_nil, List.nil_append]
  exact ⟨_, rfl, rfl⟩

end

section
variable (ht : f.stage = .inject) (hi : mayInject s f = true)
include hf hm hn hr ht hi

theorem flitRoute_inject (hc : (s.choice 1).2.choice (productive s f node).length = (c, s1))
    (hp : (productive s f node)[c]? = some p) :
    ∃ u, exec (.flitRoute m node) s = .next u ∧ u.flits = [moveFlit s.ticks f p] := by
  have h0 : decide (f.mod = m ∧ f.node = node ∧ f.stage = .transit ∧ f.ready ≤ s.ticks) = false :=
    decide_eq_false fun h => by rw [ht] at h; exact absurd h.2.2.1 (by decide)
  have h1 : decide (f.mod = m ∧ f.node = node ∧ f.stage = .inject ∧ f.ready ≤ s.ticks) = true :=
    decide_eq_true ⟨hm, hn, ht, hr⟩
  have hj : injectable s [] [f] = [f] := by
    rw [injectable, hi]
    rfl
  have hk : (s.choice 1).1 = 0 := Nat.mod_one _
  have ho : outputOf (s.choice 1).2 f node [] = (some p, s1) := outputOf_productive hc hp
  have ha : assign node (byAge []) [] s = ([], [], [], s) := rfl
  change ∃ u, execFlitRoute m node s = .next u ∧ _
  unfold execFlitRoute
  simp only [hf, List.filter_cons, List.filter_nil, h0, h1, Bool.false_eq_true, if_false, ha, Bool.not_false, if_true, hj,
    List.length_cons, List.length_nil, Nat.zero_add, hk, List.getElem?_cons_zero, ho, dropFirst, decide_true,
    List.append_nil, List.nil_append]
  exact ⟨_, rfl, rfl⟩

end

end

/-! ### A hop (R392) -/

theorem bits_ofNat {hi lo : Nat} (x : Nat) (hh : hi < 64) : bits (BitVec.ofNat 64 x).toNat hi lo = bits x hi lo := by
  rw [BitVec.toNat_ofNat]
  refine Nat.eq_of_testBit_eq fun i => ?_
  unfold bits
  simp only [Nat.testBit_mod_two_pow, Nat.testBit_div_two_pow]
  by_cases hl : i < hi + 1 - lo
  · rw [decide_eq_true (show i + lo < 64 by omega), Bool.true_and]
  · rw [decide_eq_false hl, Bool.false_and, Bool.false_and]

theorem moveFlit_hop {n p : Nat} {f : Flit} (hp : p < 4) (ha : f.age < 4095) :
    (moveFlit n f p).node = neighbour f.node p ∧ (moveFlit n f p).age = f.age + 1 ∧ (moveFlit n f p).dst = f.dst ∧
      (moveFlit n f p).seq = f.seq ∧ (moveFlit n f p).payload = f.payload ∧
      (moveFlit n f p).ready = n + hopTime f.node (moveFlit n f p).node := by
  unfold moveFlit
  dsimp only
  rw [if_pos hp]
  refine ⟨rfl, ?_, ?_, ?_, rfl, rfl⟩
  · rw [Flit.age, bits_ofNat _ (by decide)]
    refine (WaitsBarriers.bits_putBits_same ?_ _).trans ?_
    · exact Nat.lt_of_le_of_lt (Nat.min_le_left 4095 (f.age + 1)) (by decide)
    · exact Nat.min_eq_right ha
  · rw [Flit.dst, bits_ofNat _ (by decide)]
    exact WaitsBarriers.bits_putBits_other (.inl (by decide)) ..
  · rw [Flit.seq, bits_ofNat _ (by decide)]
    exact WaitsBarriers.bits_putBits_other (.inl (by decide)) ..

/-! ### Packets (R394, R395) -/

section
variable {m node : Nat} {s : State} {bef aft : List Flit} {f : Flit}
  (h : splitFirst (fun g => decide (g.mod = m ∧ g.node = node ∧ g.stage = .eject ∧ g.ready ≤ s.ticks)) s.flits =
    some (bef, f, aft))
include h

theorem flitEject_drops (ht : typeOk f.ch f.ty = false) :
    exec (.flitEject m node) s = .next (({ s with flits := bef ++ aft } : State).count (cluDie (nodeClu m node)) 12) := by
  change execFlitEject m node s = _
  unfold execFlitEject
  rw [h]
  exact if_pos ht

theorem flitEject_stores (ht : typeOk f.ch f.ty = true) : exec (.flitEject m node) s =
    .next ((({ s with flits := bef ++ aft } : State).modEject m f.dst fun x => { x with store := x.store ++ [f] }).spawn
      (.packetDeliver m f.dst f.src f.ch)) := by
  change execFlitEject m node s = _
  unfold execFlitEject
  rw [h]
  exact if_neg (by rw [ht]; exact Bool.noConfusion)

end

/-- What the delivery of a packet leaves to the flits and to the interfaces. -/
def SameFlits (s t : State) : Prop := t.flits = s.flits ∧ t.ejects = s.ejects

theorem sendFrame_flits {s t : State} {m pkg kid hash : Nat} {prev : Option Nat} {f : Machine.Frame}
    (h : sendFrame s m pkg kid prev hash = some (f, t)) : SameFlits s t := by
  unfold sendFrame at h
  split at h
  · cases h
  · obtain ⟨-, rfl⟩ := Prod.mk.inj (Option.some.inj h)
    exact ⟨rfl, rfl⟩

theorem edgeSend_flits (s : State) (m pd node entry : Nat) (p : VsPacket) : SameFlits s (edgeSend s m pd node entry p) := by
  unfold edgeSend
  split
  · exact ⟨rfl, rfl⟩
  · dsimp only
    split
    · exact ⟨rfl, rfl⟩
    · next h =>
      have hs := sendFrame_flits h
      exact hs

theorem deliverPacket_flits (s : State) (m node src : Nat) (fs : List Flit) : SameFlits s (deliverPacket s m node src fs) := by
  unfold deliverPacket
  split
  · exact ⟨rfl, rfl⟩
  · split
    · exact edgeSend_flits ..
    · exact ⟨rfl, rfl⟩

theorem consume_flits (s : State) (m node src ch : Nat) (fs : List Flit) : SameFlits s (consume s m node src ch fs) := by
  unfold consume
  split
  · exact deliverPacket_flits ..
  · split
    · split <;> exact ⟨rfl, rfl⟩
    · exact ⟨rfl, rfl⟩

theorem modEject_eject (s : State) (m node : Nat) (g : Eject → Eject) : (s.modEject m node g).eject m node = g (s.eject m node) :=
  fget_fset_same _ _ _ _

/-- The parts of an interface that a packet sent from a node leaves as they are. -/
def received (e : Eject) : List Flit × List (Nat × Nat) × List (Nat × Nat) := (e.store, e.nextSeq, e.since)

theorem inject_received (s : State) (m router src dst ch ty tenant : Nat) (ps : List Vec) (node : Nat) :
    received ((inject s m router src dst ch ty tenant ps).eject m node) = received (s.eject m node) := by
  obtain ⟨g, hg, he⟩ : ∃ g : Eject → Eject, (∀ e, received (g e) = received e) ∧
      (inject s m router src dst ch ty tenant ps).ejects = (s.modEject m src g).ejects := ⟨fun e => { e with
        outSeq := fset e.outSeq (dst * 8 + ch) ((fget 0 (s.eject m src).outSeq (dst * 8 + ch) + ps.length) % 1024) },
      fun _ => rfl, rfl⟩
  rw [State.eject, he, ← State.eject]
  by_cases h : ejectKey m node = ejectKey m src
  · have hk : ∀ t : State, t.eject m node = t.eject m src := fun t => by rw [State.eject, State.eject, h]
    rw [hk, hk, modEject_eject, hg]
  · exact congrArg received (fget_fset_other _ _ _ _ _ h)

/-- The flit of a delivery credit (R395). -/
theorem sendDeliveryCredit_flit (s : State) {m node src ch : Nat} (hs : src < 2 ^ 16) (hn : node < 2 ^ 16) :
    ∃ g ∈ (sendDeliveryCredit s m node src ch).flits, g.dst = src ∧ g.src = node ∧ g.ch = 7 ∧ g.ty = 0x3B ∧
      g.payload = BitVec.ofNat 256 ch := by
  let seq := fget 0 (s.eject m node).outSeq (src * 8 + 7)
  refine ⟨{ mod := m, node := routerOf node src, hdr := header src node 7 (seq + 0) 0x3B (decide (0 + 1 = 1)),
            payload := nth 0 [BitVec.ofNat 256 ch] 0, tenant := 64, stage := .inject, ready := s.ticks + 1 },
    List.mem_append_right _ (List.mem_map.mpr ⟨0, List.mem_range.mpr Nat.one_pos, rfl⟩), ?_, ?_, ?_, ?_, rfl⟩
  all_goals clear_value seq
  all_goals
    simp only [Flit.dst, Flit.src, Flit.ch, Flit.ty, header]
    rw [bits_ofNat _ (by decide)]
    simp only [bits, b2n, decide_true, if_true]
    omega

section
variable {m node src ch : Nat} {s : State} {fs : List Flit}

/-- The interface after it has delivered a packet. -/
def deliveredFrom (e : Eject) (src ch : Nat) (fs : List Flit) : Eject :=
  { e with
    store := e.store.filter fun f => !(decide (f.src = src ∧ f.ch = ch) && fs.contains f)
    nextSeq := fset e.nextSeq (src * 8 + ch) ((fget 0 e.nextSeq (src * 8 + ch) + fs.length) % 1024)
    since := fset e.since (src * 8 + ch) ((fget 0 e.since (src * 8 + ch) + fs.length) % 32) }

/-- The packet has left the interface, and a credit goes back for 32 flits. -/
def credited (s : State) (m node src ch : Nat) (fs : List Flit) : State :=
  let t := s.modEject m node fun x => deliveredFrom x src ch fs
  if 32 ≤ fget 0 (s.eject m node).since (src * 8 + ch) + fs.length then sendDeliveryCredit t m node src ch else t

theorem credited_received : received ((credited s m node src ch fs).eject m node) =
    received (deliveredFrom (s.eject m node) src ch fs) := by
  have h := congrArg received (modEject_eject s m node fun x => deliveredFrom x src ch fs)
  unfold credited
  dsimp only
  split
  · exact (inject_received ..).trans h
  · exact h

theorem packetDeliver_delivers (h : gatherFlits ((s.eject m node).store.filter fun g => decide (g.src = src ∧ g.ch = ch)) 9
      (fget 0 (s.eject m node).nextSeq (src * 8 + ch)) = some fs) :
    ∃ u, exec (.packetDeliver m node src ch) s = .next u ∧
      received (u.eject m node) = received (deliveredFrom (s.eject m node) src ch fs) ∧
      u.flits = (credited s m node src ch fs).flits := by
  obtain ⟨hfl, he⟩ := consume_flits (credited s m node src ch fs) m node src ch fs
  refine ⟨(consume (credited s m node src ch fs) m node src ch fs).spawn (.packetDeliver m node src ch), ?_, ?_, hfl⟩
  · change execPacketDeliver m node src ch s = _
    unfold execPacketDeliver
    simp only [h]
    rfl
  · rw [← credited_received]
    change received (fget Eject.empty (consume (credited s m node src ch fs) m node src ch fs).ejects _) = _
    rw [he]
    rfl

theorem packetDeliver_packet (h : gatherFlits ((s.eject m node).store.filter fun g => decide (g.src = src ∧ g.ch = ch)) 9
      (fget 0 (s.eject m node).nextSeq (src * 8 + ch)) = some fs) :
    ∃ u, exec (.packetDeliver m node src ch) s = .next u ∧
      fget 0 (u.eject m node).nextSeq (src * 8 + ch) = (fget 0 (s.eject m node).nextSeq (src * 8 + ch) + fs.length) % 1024 ∧
      fget 0 (u.eject m node).since (src * 8 + ch) = (fget 0 (s.eject m node).since (src * 8 + ch) + fs.length) % 32 ∧
      ((u.eject m node).store = (s.eject m node).store.filter fun g =>
        !(decide (g.src = src ∧ g.ch = ch) && fs.contains g)) ∧
      (32 ≤ fget 0 (s.eject m node).since (src * 8 + ch) + fs.length → src < 2 ^ 16 → node < 2 ^ 16 →
        ∃ g ∈ u.flits, g.dst = src ∧ g.src = node ∧ g.ch = 7 ∧ g.ty = 0x3B ∧ g.payload = BitVec.ofNat 256 ch) := by
  obtain ⟨u, hu, hr, hfl⟩ := packetDeliver_delivers h
  obtain ⟨hst, hseq, hsi⟩ : (u.eject m node).store = _ ∧ (u.eject m node).nextSeq = _ ∧ (u.eject m node).since = _ :=
    ⟨congrArg (·.1) hr, congrArg (·.2.1) hr, congrArg (·.2.2) hr⟩
  refine ⟨u, hu, ?_, ?_, hst, fun h32 hs hn => ?_⟩
  · rw [hseq]
    exact fget_fset_same ..
  · rw [hsi]
    exact fget_fset_same ..
  · rw [hfl, credited]
    rw [if_pos h32]
    exact sendDeliveryCredit_flit _ hs hn

theorem packetDeliver_none (h : gatherFlits ((s.eject m node).store.filter fun g => decide (g.src = src ∧ g.ch = ch)) 9
      (fget 0 (s.eject m node).nextSeq (src * 8 + ch)) = none) : exec (.packetDeliver m node src ch) s = .next s := by
  change execPacketDeliver m node src ch s = _
  unfold execPacketDeliver
  simp only [h]

theorem deliveryCredit_takes {dst : Nat} {rest : List Note} (h : s.notes = .credit m src dst ch :: rest) :
    ∃ u, exec (.deliveryCredit m src dst ch) s = .next u ∧ u.notes = rest ∧
      fget 0 (u.eject m src).flight (dst * 8 + ch) = fget 0 (s.eject m src).flight (dst * 8 + ch) - 32 := by
  refine ⟨State.modEject { s with notes := rest } m src fun e =>
    { e with flight := fset e.flight (dst * 8 + ch) (fget 0 e.flight (dst * 8 + ch) - 32) }, ?_, rfl, ?_⟩
  · change execDeliveryCredit m src dst ch s = _
    unfold execDeliveryCredit
    simp only [h]
    rw [takeNote_head (if_pos ⟨rfl, rfl, rfl, rfl⟩)]
  · rw [modEject_eject]
    exact fget_fset_same ..

end

end Sys2Proof.Proofs.NetworkWork

end

section
/-! SUPPORT. Links, frames, keys and failed paths (R396 to R402). -/

namespace Sys2Proof.Proofs.LinkWork

open Sys2Proof Sys2Proof.Machine Sys2Proof.Laws Sys2Proof.Proofs.Remote Sys2Proof.Proofs.StrandNews
  Sys2Proof.Proofs.ModuleWork Sys2Proof.Proofs.NetworkWork

/-! ### What moves frames leaves the links as they are -/

/-- Two states with the same links in every module. -/
def SameLinks (s t : State) : Prop := ∀ m l, t.linkOf m l = s.linkOf m l

theorem SameLinks.trans {s t u : State} (h : SameLinks s t) (g : SameLinks t u) : SameLinks s u :=
  fun m l => (g m l).trans (h m l)

theorem SameLinks.of_mods {s t : State} (h : t.mods = s.mods) : SameLinks s t := fun m l => by
  rw [State.linkOf, State.modOf, h]
  rfl

theorem modMod_modOf_other (s : State) (k : Nat) (f : Module → Module) {m : Nat} (h : m ≠ k) :
    (s.modMod k f).modOf m = s.modOf m := fget_fset_other _ _ _ _ _ h

theorem SameLinks.modMod {f : Module → Module} (hf : ∀ x, (f x).links = x.links) (s : State) (k : Nat) :
    SameLinks s (s.modMod k f) := fun m l => by
  rw [State.linkOf]
  by_cases h : m = k
  · rw [h, modMod_modOf, hf, State.linkOf]
  · rw [modMod_modOf_other _ _ _ h, State.linkOf]

theorem SameLinks.modPort (s : State) (m pd : Nat) (f : PortDie → PortDie) : SameLinks s (s.modPort m pd f) := by
  unfold State.modPort
  exact SameLinks.modMod (f := fun x => { x with ports := fset x.ports pd (f (fget PortDie.reset x.ports pd)) }) (fun _ => rfl) s m

theorem SameLinks.foldl {α : Type} {f : State → α → State} (h : ∀ t a, SameLinks t (f t a)) (l : List α) (s : State) :
    SameLinks s (l.foldl f s) := by
  induction l generalizing s with
  | nil => exact fun _ _ => rfl
  | cons a l ih => exact (h s a).trans (ih _)

theorem lose_mods (s : State) (bef aft : List Msg) (x : Msg) : (lose s bef aft x).mods = s.mods := by
  unfold lose
  split <;> rfl

theorem pathGone_mods (s : State) (m pkg : Nat) : (pathGone s m pkg).mods = s.mods := by
  unfold pathGone
  split
  · rfl
  · exact spawnOnce_mods ..

theorem spawnFrame_linkOf (s : State) (f : Machine.Frame) (m l : Nat) : (spawnFrame s f).linkOf m l = s.linkOf m l := rfl

theorem moveStream_links (s : State) (f : LinkFrame) : SameLinks s (moveStream s f) := by
  unfold moveStream
  split
  · exact .of_mods rfl
  · intro k l
    rw [spawnFrame_linkOf]
    exact SameLinks.modPort s _ _ _ k l

theorem moveMsgs_mods (m link : Nat) (xs : List Msg) : ∀ (bef : List Msg) (s : State), (moveMsgs m link bef xs s).mods = s.mods := by
  induction xs with
  | nil => exact fun _ _ => rfl
  | cons x xs ih =>
    intro bef s
    unfold moveMsgs
    split
    · exact ih _ _
    · split
      · exact ih _ _
      · split
        · rw [ih, pathGone_mods, lose_mods]
        · exact (ih _ _).trans rfl

theorem moveReply_mods (m link : Nat) (s : State) (r : Reply) : (moveReply m link s r).mods = s.mods := by
  unfold moveReply
  split
  · rfl
  · split
    · rfl
    · split
      · exact pathGone_mods ..
      · rfl

theorem replayFrames_links (s : State) (m link : Nat) : SameLinks s (replayFrames s m link) := by
  unfold replayFrames
  extract_lets mine fs s1 s2 s3
  have h1 : SameLinks s s1 := .foldl (fun t e => .modPort t _ _ _) _ s
  have h2 : SameLinks s s2 := by
    refine SameLinks.trans ?_ (.foldl (fun t f => moveStream_links t f) fs.reverse _)
    split
    · exact .of_mods rfl
    · exact h1
  have h3 : SameLinks s s3 := h2.trans (.of_mods (moveMsgs_mods ..))
  exact h3.trans ((SameLinks.of_mods rfl).trans (.foldl (fun t r => .of_mods (moveReply_mods ..)) s3.replies _))

/-! ### Links (R396, R397) -/

section
variable {m link : Nat} {s : State}

theorem modLink_linkOf (t : State) (f : Link → Link) : (t.modLink m link f).linkOf m link = f (t.linkOf m link) := by
  rw [State.modLink, State.linkOf, modMod_modOf, fget_fset_same]
  rfl

theorem linkError_linkOf (t : State) : (linkError t m link).linkOf m link = t.linkOf m link :=
  SameLinks.of_mods (logErr_mods ..) m link

theorem count_linkOf (t : State) (d n : Nat) : (t.count d n).linkOf m link = t.linkOf m link := rfl

theorem linkFails_down : ((linkFails s m link).linkOf m link).up = false := by
  unfold linkFails
  extract_lets s1 s2
  have h1 : (s1.linkOf m link).up = false := by
    rw [linkError_linkOf, count_linkOf, modLink_linkOf]
  have h2 : (s2.linkOf m link).up = false := by rw [replayFrames_links, h1]
  split
  · exact h2
  · split <;> exact h2

theorem linkDown_down (h : (s.linkOf m link).up = false) : exec (.linkDown m link) s = .next s := by
  change Host.Outcome.next (if (s.linkOf m link).up then linkFails s m link else s) = _
  rw [h, if_neg Bool.false_ne_true]

theorem linkDown_fails (h : (s.linkOf m link).up = true) :
    ∃ u, exec (.linkDown m link) s = .next u ∧ (u.linkOf m link).up = false := by
  refine ⟨linkFails s m link, ?_, linkFails_down⟩
  change Host.Outcome.next (if (s.linkOf m link).up then linkFails s m link else s) = _
  rw [h, if_pos rfl]

section
variable {dir peer n : Nat} {ok : Bool} (hl : link < 64) (hp : (s.modOf m).pkg = some n)
include hl hp

theorem linkTraining_runs : exec (.linkTraining m (64 * dir + link) peer ok) s = .next
    (if ok = false ∨ (s.port m (link / 4)).down then
      if (s.linkOf m link).up then linkFails s m link else s.modLink m link fun _ => Link.untrained
    else if dir < 6 ∧ neighbourIn n dir = peer then
      s.modLink m link fun _ =>
        { up := true, dir := dir, peer := peer, replays := 0, subst := none,
          spare := decide (10 ≤ ((s.modOf m).links.filter fun e =>
            e.2.up && !e.2.spare && decide (e.2.dir = dir ∧ e.1 ≠ link)).length) }
    else linkError (s.modLink m link fun _ => Link.untrained) m link) := by
  have h1 : (64 * dir + link) % 64 = link := by omega
  have h2 : (64 * dir + link) / 64 = dir := by omega
  change execLinkTraining m (64 * dir + link) peer ok s = _
  unfold execLinkTraining
  simp only [h1, h2, hp]
  split
  · rfl
  · split <;> rfl

theorem linkTraining_fails (h : ok = false ∨ (s.port m (link / 4)).down = true) :
    ∃ u, exec (.linkTraining m (64 * dir + link) peer ok) s = .next u ∧ (u.linkOf m link).up = false := by
  refine ⟨_, linkTraining_runs hl hp, ?_⟩
  rw [if_pos h]
  split
  · exact linkFails_down
  · rw [modLink_linkOf]
    rfl

section
variable (ho : ok = true) (hd : (s.port m (link / 4)).down = false)
include ho hd

theorem linkTraining_trains (hdir : dir < 6) (hn : neighbourIn n dir = peer) :
    ∃ u, exec (.linkTraining m (64 * dir + link) peer ok) s = .next u ∧ u.linkOf m link =
      { up := true, dir := dir, peer := peer, replays := 0, subst := none,
        spare := decide (10 ≤ ((s.modOf m).links.filter fun e =>
          e.2.up && !e.2.spare && decide (e.2.dir = dir ∧ e.1 ≠ link)).length) } := by
  refine ⟨_, linkTraining_runs hl hp, ?_⟩
  rw [if_neg (by simp [ho, hd]), if_pos ⟨hdir, hn⟩, modLink_linkOf]

theorem linkTraining_stranger (hn : 6 ≤ dir ∨ neighbourIn n dir ≠ peer) :
    ∃ u, exec (.linkTraining m (64 * dir + link) peer ok) s = .next u ∧ (u.linkOf m link).up = false := by
  refine ⟨_, linkTraining_runs hl hp, ?_⟩
  rw [if_neg (by simp [ho, hd]), if_neg (fun h => hn.elim (Nat.not_le.mpr h.1) (fun hne => hne h.2)), linkError_linkOf,
    modLink_linkOf]
  rfl

end

end

end

/-! ### Frames and keys (R396, R398) -/

section
variable {m pd : Nat} {s s1 : State} {fr : LinkFrame} {frs : List LinkFrame} (hf : (s.port m pd).frames = fr :: frs)
  (hd : s.pkgOf m = fr.dst)
include hf hd

omit hd in
theorem linkFrameReceive_stream : exec (.linkFrameReceive m pd) s = .next (receiveStream s m pd fr frs) := by
  change execLinkFrameReceive m pd s = _
  unfold execLinkFrameReceive
  rw [hf]

theorem linkFrameReceive_good (hc : receiveFrame s fr.hop true = (.good, s1)) : exec (.linkFrameReceive m pd) s =
    .next (((s1.modPort m pd fun x => { x with frames := frs }).note (.vs (nodeClu m fr.node) fr.entry 5 fr.pkt)).spawn
      (.vsPacketArrive (nodeClu m fr.node) 5)) := by
  rw [linkFrameReceive_stream hf, receiveStream]
  simp only [decide_eq_true hd, hc, if_true]

theorem linkFrameReceive_bad (hc : receiveFrame s fr.hop true = (.bad, s1)) : exec (.linkFrameReceive m pd) s =
    .next (s1.modPort m pd fun x => { x with frames := frs }) := by
  rw [linkFrameReceive_stream hf, receiveStream]
  simp only [decide_eq_true hd, hc]

theorem linkFrameReceive_replay (hc : receiveFrame s fr.hop true = (.replay, s1)) : exec (.linkFrameReceive m pd) s =
    .next (s1.again (.linkFrameReceive m pd)) := by
  rw [linkFrameReceive_stream hf, receiveStream]
  simp only [decide_eq_true hd, hc]

end

section
variable {m pd kid : Nat} {s : State} {key : BitVec 256}

theorem modPort_keySlot (k : KeySlot) : (s.modPort m pd fun p => { p with keys := fset p.keys kid k }).keySlot m pd kid = k := by
  rw [State.keySlot, State.modPort, State.port, modMod_modOf, fget_fset_same, fget_fset_same]

theorem keyLoad_loads (next : Bool) : ∃ u, exec (.keyLoad m pd kid next key) s = .next u ∧
    (next = true → (u.keySlot m pd kid).next = some key ∧ (u.keySlot m pd kid).cur = (s.keySlot m pd kid).cur ∧
      (u.keySlot m pd kid).epoch = (s.keySlot m pd kid).epoch) ∧
    (next = false → (u.keySlot m pd kid).cur = some key) := by
  refine ⟨_, rfl, fun hn => ?_, fun hn => ?_⟩
  · rw [modPort_keySlot, hn]
    exact ⟨rfl, rfl, rfl⟩
  · rw [modPort_keySlot, hn]
    dsimp only
    rw [if_neg Bool.false_ne_true]
    split <;> rfl

end

/-! ### A path that has failed (R400) -/

section
variable {m peer : Nat}

/-- A message on its way to a lost package over a link of the module. -/
def lost (m peer : Nat) (mods : List (Nat × Module)) (x : Msg) : Prop :=
  x.link.isSome = true ∧ x.frm = m ∧ (fget Module.reset mods x.loc).pkg = some peer

theorem lose_net (s : State) (bef aft : List Msg) (x y : Msg) (h : y ∈ (lose s bef aft x).net) : y ∈ bef ++ aft := by
  unfold lose at h
  split at h
  · exact h
  · rcases List.mem_append.mp h with h | h
    · exact List.mem_append_left _ h
    · exact List.mem_append_right _ (List.mem_filter.mp h).1

theorem losePath_mods (xs : List Msg) : ∀ (bef : List Msg) (s : State), (losePath m peer bef xs s).mods = s.mods := by
  induction xs with
  | nil => exact fun _ _ => rfl
  | cons x xs ih =>
    intro bef s
    unfold losePath
    split
    · rw [ih, lose_mods]
    · exact ih _ _

/-- What is left of the messages has been looked at, and is not lost. -/
theorem losePath_net (xs : List Msg) : ∀ (bef : List Msg) (s : State), (∀ y ∈ s.net, y ∈ bef ++ xs) →
    (∀ y ∈ bef, ¬lost m peer s.mods y) → ∀ y ∈ (losePath m peer bef xs s).net, y ∈ bef ++ xs ∧ ¬lost m peer s.mods y := by
  induction xs with
  | nil =>
    intro bef s hn hb y hy
    have hy' := hn y hy
    exact ⟨hy', hb y (by simpa using hy')⟩
  | cons x xs ih =>
    intro bef s hn hb y hy
    unfold losePath at hy
    split at hy
    · obtain ⟨hy1, hy2⟩ := ih bef (lose s bef xs x) (fun z hz => lose_net _ _ _ _ _ hz)
        (fun z hz => by rw [lose_mods]; exact hb z hz) y hy
      rw [lose_mods] at hy2
      refine ⟨?_, hy2⟩
      rcases List.mem_append.mp hy1 with h | h
      · exact List.mem_append_left _ h
      · exact List.mem_append_right _ (List.mem_cons_of_mem _ h)
    · next hx =>
      have hx' : ¬lost m peer s.mods x :=
        fun ⟨h1, h2, h3⟩ => hx (by rw [h1, decide_eq_true h2, State.modOf, decide_eq_true h3]; rfl)
      have hb' : ∀ z ∈ bef ++ [x], ¬lost m peer s.mods z := fun z hz =>
        (List.mem_append.mp hz).elim (hb z) fun h => List.mem_singleton.mp h ▸ hx'
      obtain ⟨hy1, hy2⟩ := ih (bef ++ [x]) s (fun z hz => by simpa using hn z hz) hb' y hy
      exact ⟨by simpa using hy1, hy2⟩

theorem echo_net (s : State) (p : Place) (g : Nat) : (echo s p g).net = s.net ∧ (echo s p g).mods = s.mods := by
  unfold echo
  extract_lets x clears n rest mask y
  split <;> exact ⟨rfl, rfl⟩

theorem failureEcho_net (s : State) (p : Place) (n : Nat) : (failureEcho s p n).net = s.net := by
  unfold failureEcho
  rw [modCore_net, logErr_net, (echo_net _ _ _).1]
  rfl

theorem failureEcho_mods (s : State) (p : Place) (n : Nat) : (failureEcho s p n).mods = s.mods := by
  unfold failureEcho
  rw [modCore_mods, logErr_mods, (echo_net _ _ _).2]
  rfl

theorem foldl_failureEcho (g : Nat) (xs : List Msg) : ∀ s : State,
    (xs.foldl (fun t x => failureEcho t x.src g) s).net = s.net ∧
    (xs.foldl (fun t x => failureEcho t x.src g) s).mods = s.mods := by
  induction xs with
  | nil => exact fun s => ⟨rfl, rfl⟩
  | cons x xs ih =>
    intro s
    rw [List.foldl_cons, (ih _).1, (ih _).2]
    exact ⟨failureEcho_net .., failureEcho_mods ..⟩

/-- The module has marked the path, and its deep probes and answers over it are gone. -/
def pathMarked (s : State) (m peer : Nat) : State :=
  let s1 := s.modMod m fun x => { x with failedPaths := peer :: x.failedPaths.filter (· ≠ peer) }
  let gone (r : Reply) : Bool :=
    match r.link with
    | none => false
    | some f => decide (f.frm = m) && decide ((s.modOf r.dst.mod).pkg = some peer)
  { s1 with net := s1.net.filter fun x => !deepProbe m (24 + peer % 7) x, replies := s1.replies.filter fun r => !gone r }

theorem pathMarked_pkg (s : State) (k : Nat) : (fget Module.reset (pathMarked s m peer).mods k).pkg = (s.modOf k).pkg := by
  change ((s.modMod m fun x => { x with failedPaths := peer :: x.failedPaths.filter (· ≠ peer) }).modOf k).pkg = _
  by_cases h : k = m
  · rw [h, modMod_modOf]
  · rw [modMod_modOf_other _ _ _ h]

theorem pathFailed_loses (s : State) : ∃ u, exec (.pathFailed m peer) s = .next u ∧ peer ∈ (u.modOf m).failedPaths ∧
    ∀ x ∈ u.net, x ∈ s.net ∧ ¬(x.link.isSome = true ∧ x.frm = m ∧ (s.modOf x.loc).pkg = some peer) := by
  have hf := foldl_failureEcho (24 + peer % 7) (s.net.filter (deepProbe m (24 + peer % 7)))
    (losePath m peer [] (pathMarked s m peer).net (pathMarked s m peer))
  refine ⟨_, rfl, ?_, fun x hx => ?_⟩
  · rw [State.modOf]
    refine (congrArg (fun l => peer ∈ (fget Module.reset l m).failedPaths) (hf.2.trans (losePath_mods ..))).mpr ?_
    change peer ∈ ((s.modMod m fun x => { x with failedPaths := peer :: x.failedPaths.filter (· ≠ peer) }).modOf m).failedPaths
    rw [modMod_modOf]
    exact List.mem_cons_self
  · have hx' : x ∈ (losePath m peer [] (pathMarked s m peer).net (pathMarked s m peer)).net := hf.1 ▸ hx
    obtain ⟨h1, h2⟩ := losePath_net _ [] (pathMarked s m peer) (fun y hy => hy) (fun y hy => absurd hy List.not_mem_nil) x hx'
    refine ⟨(List.mem_filter.mp h1).1, fun ⟨h3, h4, h5⟩ => h2 ⟨h3, h4, ?_⟩⟩
    rw [pathMarked_pkg, h5]

end

/-- Settles O58: a flit takes the output that `outputOf` gives, a delivered packet leaves its interface and sends the credit,
a frame ends as its checks do, and what moves or loses frames leaves the links as they are. -/
theorem networkEvents : Obligations.NetworkEvents := by
  unfold Obligations.NetworkEvents
  intro m node src dst ch pd link dir peer kid c p ok next key s s1 f bef aft fs fr frs rest n
  exact ⟨fun hf ⟨hm, hn, hr⟩ ht hc hp => flitRoute_transit hf hm hn hr ht (outputOf_productive hc hp),
    fun hf ⟨hm, hn, hr⟩ ht hp => flitRoute_transit hf hm hn hr ht (outputOf_deflects hp),
    fun hf ⟨hm, hn, hr⟩ ht hi hc hp => flitRoute_inject hf hm hn hr ht hi hc hp, moveFlit_hop,
    fun h => ⟨flitEject_drops h, flitEject_stores h⟩, packetDeliver_packet, packetDeliver_none, deliveryCredit_takes,
    fun hf hd => ⟨linkFrameReceive_good hf hd, linkFrameReceive_bad hf hd, linkFrameReceive_replay hf hd⟩,
    linkDown_down, linkDown_fails,
    fun hl hp => ⟨linkTraining_fails hl hp, linkTraining_trains hl hp, linkTraining_stranger hl hp⟩, keyLoad_loads next,
    pathFailed_loses s⟩

end Sys2Proof.Proofs.LinkWork

end

section
/-! SUPPORT. The commands of the migration engine (R418 to R426). -/

namespace Sys2Proof.Proofs.MigrationWork

open Sys2Proof Sys2Proof.Machine Sys2Proof.Laws Sys2Proof.Proofs.Remote

section
variable {m idx : Nat} {s : State}

/-! ### Taking a command (R419) -/

section
variable {d : Nat} {s1 : State} (hl : ((s.modOf m).cmds.filter fun x => !x.ended).length < 64)
  (hr : ringRead s m (ringEntry s m (s.modOf m).migTaken) 64 = (d, s1))
include hl hr

theorem migrationCommandTake_takes (h : dfield d 0x18 4 = ((s.modOf m).migTaken + 1) % 2 ^ 32) :
    exec (.migrationCommandTake m) s =
      .next ((s1.modMod m fun x => { x with
        migTaken := (s.modOf m).migTaken + 1, cmds := x.cmds ++ [cmdOf (s.modOf m).migTaken d] }).spawns
          [cmdEvent m (cmdOf (s.modOf m).migTaken d), .migrationCommandTake m]) := by
  change execMigrationCommandTake m s = _
  unfold execMigrationCommandTake
  extract_lets x i
  rw [if_neg (Nat.not_le.mpr hl), show ringRead s m (ringEntry s m i) 64 = (d, s1) from hr]
  exact if_neg (not_not.mpr h)

theorem migrationCommandTake_empty (h : dfield d 0x18 4 ≠ ((s.modOf m).migTaken + 1) % 2 ^ 32) :
    exec (.migrationCommandTake m) s = .next s1 := by
  change execMigrationCommandTake m s = _
  unfold execMigrationCommandTake
  extract_lets x i
  rw [if_neg (Nat.not_le.mpr hl), show ringRead s m (ringEntry s m i) 64 = (d, s1) from hr]
  exact if_pos h

end

section
variable {c : MigCmd} (hc : cmdAt s m idx = some c)
include hc

section
variable (hs : c.status = none) (hb : pageBusy s m c = false) (hd : c.down = false)
include hs hb hd

/-! ### MOVE and DUP (R421, R422) -/

section
variable (hf : c.frozen = false)
include hf

theorem moveStep_starts (e : Event) (hp : c.pass = 0) : moveStep s m idx e = startMove s m c := by
  unfold moveStep
  rw [hc]
  dsimp only
  rw [if_neg (by simp [hs, hf]), if_neg (by simp [hb]), if_neg (by simp [hd]), if_pos hp]

theorem moveStep_copies (e : Event) (hp : c.pass ≠ 0) : moveStep s m idx e = copyStep s m c := by
  unfold moveStep
  rw [hc]
  dsimp only
  rw [if_neg (by simp [hs, hf]), if_neg (by simp [hb]), if_neg (by simp [hd]), if_neg hp]

end

/-! ### COLLAPSE (R424) -/

theorem collapse_foreign (hp : c.pass = 0)
    (hl : ∀ j ∈ partsOf c.parts, locate s m c.tenant (c.addr + j * 2 ^ 16) (pageLeaf s m c.page) ≠ .absent)
    (ho : ownerOf s m (pageLeaf s m c.page) ≠ s.pkgOf m) : exec (.collapse m idx) s = .next (endCmd s m idx 2) := by
  have hn : ((partsOf c.parts).find? fun p =>
      decide (locate s m c.tenant (c.addr + p * 2 ^ 16) (pageLeaf s m c.page) = .absent)) = none :=
    List.find?_eq_none.mpr fun j hj => by rw [decide_eq_true_eq]; exact hl j hj
  change execCollapse m idx s = _
  unfold execCollapse
  rw [hc]
  refine (if_neg (by simp [hs])).trans ((if_neg (by simp [hb])).trans ((if_neg (by simp [hd])).trans ((if_pos hp).trans ?_)))
  rw [hn]
  exact if_pos (.inl ho)

/-- A leaf whose parts are no longer duplicated. -/
def plainLeaf (parts l : Nat) : Nat :=
  let plain := (partsOf parts).foldl (fun x j => setDup x j false) l
  if leafDup plain = 0 then setLeafState plain 0 else plain

/-- The module without the records of the copies that a command collapsed. -/
def undupped (s : State) (m : Nat) (c : MigCmd) : State :=
  s.modMod m fun x => { x with dups := x.dups.filter fun d => !(decide (d.page = c.page) && bitAt c.parts d.part) }

omit hd in
theorem collapse_collapses (hp : c.pass ≠ 0) (ha : c.acks = []) (hl : pageLeaf s m c.page = c.leafSeen) :
    exec (.collapse m idx) s = .next (endCmd (writeLeaf (undupped s m c) m c.page (pageLeaf s m c.page)
      (plainLeaf c.parts (pageLeaf s m c.page))) m idx 0) := by
  change execCollapse m idx s = _
  unfold execCollapse
  rw [hc]
  exact (if_neg (by simp [hs])).trans ((if_neg (by simp [hb])).trans ((if_neg fun h => hp h.1).trans ((if_neg hp).trans
    ((if_pos (by simp [ha])).trans (if_neg (not_not.mpr hl))))))

omit hc hs hb hd in
theorem undupped_dups : ∀ e ∈ ((undupped s m c).modOf m).dups, ¬(e.page = c.page ∧ bitAt c.parts e.part = true) := by
  rw [undupped, modMod_modOf]
  intro e he h
  have hf := (List.mem_filter.mp he).2
  rw [decide_eq_true h.1, h.2] at hf
  exact absurd hf Bool.false_ne_true

omit hd in
theorem collapse_waits (hp : c.pass ≠ 0) (ha : c.acks ≠ []) :
    exec (.collapse m idx) s = .next (s.again (.collapse m idx)) := by
  change execCollapse m idx s = _
  unfold execCollapse
  rw [hc]
  exact (if_neg (by simp [hs])).trans ((if_neg (by simp [hb])).trans ((if_neg fun h => hp h.1).trans ((if_neg hp).trans
    (if_neg (by simpa using ha)))))

/-! ### RECLAIM (R426) -/

theorem reclaim_ends (ht : ((partsOf c.parts).filterMap fun j => stubOf s m c.page j) = []) :
    exec (.reclaim m idx) s = .next (endCmd s m idx 0) := by
  change execReclaim m idx s = _
  unfold execReclaim
  rw [hc]
  dsimp only
  rw [if_neg (by simp [hs]), if_neg (by simp [hb]), if_neg (by simp [hd]), ht]

theorem reclaim_purges (ht : ((partsOf c.parts).filterMap fun j => stubOf s m c.page j) ≠ []) :
    exec (.reclaim m idx) s = .next (((((partsOf c.parts).filterMap fun j => stubOf s m c.page j).filter
      fun t => t.purging.isNone).foldl (fun u t => startPurge u m t) s).again (.reclaim m idx)) := by
  change execReclaim m idx s = _
  unfold execReclaim
  rw [hc]
  dsimp only
  rw [if_neg (by simp [hs]), if_neg (by simp [hb]), if_neg (by simp [hd])]
  generalize ((partsOf c.parts).filterMap fun j => stubOf s m c.page j) = ts at ht ⊢
  cases ts with
  | nil => exact absurd rfl ht
  | cons t ts => rfl

end

/-! ### The cutover of a part (R423) -/

/-- The leaves of both sides after the cutover of a part. -/
def cutDest (c : MigCmd) (p : Nat) : Nat :=
  if c.op = 2 then setLeafState (setDup (setRes c.destSeen p true) p true) 2 else setRes c.destSeen p true
def cutSourceLeaf (c : MigCmd) (p : Nat) : Nat := if c.op = 2 then setDup c.leafSeen p true else setRes c.leafSeen p false

/-- The command after it. -/
def cutCmd (c : MigCmd) (p : Nat) (ps : List Nat) : MigCmd :=
  { c with moved := c.moved + 2 ^ p, rest := ps, frozen := false, lines := [], dirty := [], leafSeen := cutSourceLeaf c p,
           destSeen := cutDest c p }

/-- The state after it: the last dirty lines are copied, both leaves written and the source cut off. -/
def cutState (s : State) (m k : Nat) (c : MigCmd) (p : Nat) : State :=
  cutSource (writeLeaf (writeLeaf (c.dirty.foldl (fun t x => copyLine t m k c.tenant x c.leafSeen c.destSeen) s)
    k c.page c.destSeen (cutDest c p)) m c.page c.leafSeen (cutSourceLeaf c p)) m k c p

theorem migrationCutover_cuts {p k : Nat} {ps : List Nat} (hr : c.rest = p :: ps) (hk : destMod s m c = some k)
    (hf : c.frozen = true) (hd : c.down = false) (hw : leafWritten s m k c = false) :
    exec (.migrationCutover m idx) s = .next
      (if ps.isEmpty then finishMove ((cutState s m k c p).modCmd m idx fun _ => cutCmd c p ps) m (cutCmd c p ps) 0
       else startPart ((cutState s m k c p).modCmd m idx fun _ => cutCmd c p ps) m (cutCmd c p ps)) := by
  change execMigrationCutover m idx s = _
  unfold execMigrationCutover
  rw [hc]
  dsimp only
  rw [hr, hk]
  dsimp only
  rw [if_neg (by simp [hf]), if_neg (by simp [hd]), if_neg (by simp [hw])]
  unfold cutCmd cutState cutSourceLeaf cutDest
  by_cases hp : ps.isEmpty = true
  · rw [if_pos hp, if_pos hp]
  · rw [if_neg hp, if_neg hp]

/-! ### The end of a command (R420) -/

theorem migrationCommandComplete_ends {st : Nat} (hst : c.status = some st) (he : c.ended = false) (hw : c.cwaddr = 0) :
    let closed := (ringWrite s m (ringEntry s m idx + 0x30) 8
      (st + (if st = 0 ∨ c.op ≠ 1 then 0 else c.moved * 2 ^ 32))).modCmd m idx fun x => { x with ended := true }
    exec (.migrationCommandComplete m idx) s =
      .next ((advanceNext m (closed.modOf m).cmds.length closed).spawn (.migrationCommandTake m)) := by
  change execMigrationCommandComplete m idx s = _
  unfold execMigrationCommandComplete
  rw [hc]
  dsimp only
  rw [hst]
  dsimp only
  rw [if_neg (by simp [he]), completeWord, if_pos hw]

end

/-! ### Invalidations of copies (R424) -/

section
variable {h page part holder : Nat} {rest : List Note}

/-- The holder's copy of a part has gone. -/
def copyDropped (t : State) (h page part : Nat) : State :=
  let l1 := setDup (setRes (pageLeaf t h page) part false) part false
  dropCopy (writeLeaf t h page (pageLeaf t h page) (if leafDup l1 = 0 then setLeafState l1 1 else l1)) h page part

theorem collapseInvalidate_drops (hn : s.notes = .inval h m idx page part :: rest) (hh : s.pkgOf h = holder) :
    exec (.collapseInvalidate m idx holder) s = .next (((copyDropped { s with notes := rest } h page part).note
      (.invalAck m idx holder part)).spawn (.collapseAck m idx holder)) := by
  change execCollapseInvalidate m idx holder s = _
  unfold execCollapseInvalidate
  rw [hn]
  dsimp only
  rw [takeNote_head (if_pos ⟨rfl, rfl, hh⟩)]
  rfl

theorem collapseInvalidate_answers (hn : s.notes = .inval h m idx page part :: rest) (hh : s.pkgOf h = holder) :
    ∃ u, exec (.collapseInvalidate m idx holder) s = .next u ∧ .invalAck m idx holder part ∈ u.notes ∧
      .collapseAck m idx holder ∈ u.agenda :=
  ⟨_, collapseInvalidate_drops hn hh, List.mem_append_right _ List.mem_cons_self, List.mem_append_right _ List.mem_cons_self⟩

theorem collapseAck_counts (hn : s.notes = .invalAck m idx holder part :: rest) : exec (.collapseAck m idx holder) s =
    .next (({ s with notes := rest } : State).modCmd m idx fun x =>
      { x with acks := x.acks.filter fun y => decide (y ≠ (holder, part)) }) := by
  change execCollapseAck m idx holder s = _
  unfold execCollapseAck
  rw [hn]
  dsimp only
  rw [takeNote_head (if_pos ⟨rfl, rfl, rfl⟩)]

end

end

/-- Settles O59: each command's step is one branch of its event. -/
theorem migrationCommands : Obligations.MigrationCommands := by
  unfold Obligations.MigrationCommands
  intro m idx holder h page part st p k ps s s1 d c rest
  refine ⟨fun hl hr => ⟨migrationCommandTake_takes hl hr, migrationCommandTake_empty hl hr⟩, fun hc => ⟨?_, ?_,
    migrationCutover_cuts hc, fun ⟨hs, hb, hd⟩ => collapse_foreign hc hs hb hd, ?_, fun ⟨hs, hb, _⟩ => collapse_waits hc hs hb,
    fun ⟨hs, hb, hd⟩ => reclaim_ends hc hs hb hd, fun ⟨hs, hb, hd⟩ => reclaim_purges hc hs hb hd,
    migrationCommandComplete_ends hc⟩, collapseInvalidate_answers, collapseAck_counts⟩
  · exact fun ⟨hs, hb, hd⟩ hf hp => ⟨congrArg Host.Outcome.next (moveStep_starts hc hs hb hd hf _ hp),
      congrArg Host.Outcome.next (moveStep_starts hc hs hb hd hf _ hp)⟩
  · exact fun ⟨hs, hb, hd⟩ hf hp => ⟨congrArg Host.Outcome.next (moveStep_copies hc hs hb hd hf _ hp),
      congrArg Host.Outcome.next (moveStep_copies hc hs hb hd hf _ hp)⟩
  · exact fun ⟨hs, hb, hd⟩ hp ha hl => ⟨undupped s m c, collapse_collapses hc hs hb hp ha hl, undupped_dups⟩

end Sys2Proof.Proofs.MigrationWork

end

section
/-! SUPPORT. Stubs, relays, redirects and purges (R427 to R434). -/

namespace Sys2Proof.Proofs.StubWork

open Sys2Proof Sys2Proof.Machine Sys2Proof.Laws Sys2Proof.Proofs.Remote

/-! ### Relays (R427, R428) -/

section
variable {m : Nat} {src : Place} {s : State} {x : Msg} {bef aft : List Msg}

section
variable (h : splitFirst (fun y => decide (y.loc = m ∧ y.src = src) && !y.back && y.link.isNone && !y.body.isProbe) s.net =
  some (bef, x, aft))
include h

theorem stubRelay_waits (hb : behind s bef x = true ∨ s.ticks < x.due) :
    exec (.stubRelay m src) s = .next (s.again (.stubRelay m src)) := by
  change execStubRelay m src s = _
  unfold execStubRelay
  dsimp only
  rw [h]
  exact if_pos (by simpa using hb)

theorem stubRelay_relays {pkg : Nat} {stub : Bool} {at' : Attr} (hb : behind s bef x = false) (ht : x.due ≤ s.ticks)
    (hr : route s x = .relay pkg stub at') : exec (.stubRelay m src) s = .next (relayMsg s bef aft x pkg stub at') := by
  change execStubRelay m src s = _
  unfold execStubRelay
  dsimp only
  rw [h]
  dsimp only
  rw [if_neg (by rw [hb, decide_eq_false (Nat.not_lt.mpr ht)]; exact Bool.false_ne_true), hr]

end

/-- A request that comes back to its slice and walks again. -/
def walkedAgain (x : Msg) : Msg :=
  { x with back := false, walked := true, hops := 0, via := [], tag := 0, tagStub := 0, attr := none, walk := none }

/-- The slice has forgotten what it knew of the request's part. -/
def forgotten (s : State) (die : Nat) (x : Msg) : State :=
  (ackRelays s x).modDie die fun d =>
    { d with ownerCache := d.ownerCache.filter fun e => decide (e.1 ≠ (x.tenant, pageOf x.body.addr, partOf x.body.addr)),
             leafCache := d.leafCache.filter (fun e => decide (e.1 ≠ pageOf x.body.addr)),
             walks := d.walks.filter fun e => decide (e.1 ≠ pageOf x.body.addr) }

theorem walkReturn_walks {die : Nat}
    (h : splitFirst (fun y => decide (y.src = src ∧ (y.node s).1 = die) && y.back && y.link.isNone) s.net = some (bef, x, aft)) :
    exec (.walkReturn die src) s = .next
      (State.spawn { forgotten s die x with net := bef ++ walkedAgain x :: aft } (walkedAgain x).event) := by
  change execWalkReturn die src s = _
  unfold execWalkReturn
  rw [h]
  rfl

theorem relayAck_counts {page part tenant n : Nat} {rest : List Note}
    (h : s.notes = .relayAck m page part tenant true n none :: rest) : exec (.relayAck m page part) s =
      .next (({ s with notes := rest } : State).modMod m fun y => { y with
        stubs := mapFirst (fun z => decide (z.page = page ∧ z.part = part ∧ 0 < z.outstanding))
          (fun z => { z with outstanding := z.outstanding - 1 }) y.stubs }) := by
  change execRelayAck m page part s = _
  unfold execRelayAck
  rw [h]
  dsimp only
  rw [takeNote_head (if_pos ⟨rfl, rfl, rfl⟩)]
  rfl

section
variable {n : Nat} (hw : x.walk = none) (ht : x.tag = 0)
include hw ht

theorem guestRoute_outside {pkg : Nat} (h : locate s x.loc x.tenant x.body.addr n = .other pkg ∨
    locate s x.loc x.tenant x.body.addr n = .absent) : guestRoute s x n = .walk := by
  have hi : (locate s x.loc x.tenant x.body.addr n).inside = false := by
    rcases h with h | h <;> rw [h] <;> rfl
  refine (if_neg fun h => ?_).trans (if_pos ?_)
  · rw [ht] at h
    exact absurd h.1 (Nat.lt_irrefl 0)
  · rw [hw, hi]
    rfl

theorem guestRoute_duplicated (hd : (attrOf n x.body.addr (s.pkgOf x.loc)).dup = true) (hb : x.body.wantsWrite = true) :
    guestRoute s x n = .walk := by
  refine (if_neg fun h => ?_).trans (if_pos ?_)
  · rw [ht] at h
    exact absurd h.1 (Nat.lt_irrefl 0)
  · rw [hw, hd, hb, Bool.and_true, Bool.or_true]
    rfl

end

end

/-! ### Redirects (R429) -/

section
variable {die slice tenant page part pkg n frm : Nat} {s : State} {rest : List Note}

/-- The record of a redirect. -/
def redirOf (slice tenant page part pkg n frm : Nat) : Redir :=
  { slice := slice, tenant := tenant, page := page, part := part, pkg := pkg, count := n, stub := frm }

/-- A die whose slice has learned where a part is. -/
def learned (d : Die) (r : Redir) : Die :=
  { d with redirs := r :: d.redirs.filter fun x => !decide (x.slice = r.slice ∧ x.tenant = r.tenant ∧ x.page = r.page ∧ x.part = r.part),
           ownerCache := (((r.tenant, r.page, r.part), r.pkg) ::
             d.ownerCache.filter fun e => decide (e.1 ≠ (r.tenant, r.page, r.part))).take 4096 }

theorem redirect_learns (h : s.notes = .redirect die slice tenant page part pkg n frm :: rest)
    (hf : ((s.dieOf die).redirs.filter fun r => decide (r.slice = slice)) = []) :
    ∃ u, exec (.redirect die page part) s = .next u ∧ u.notes = rest ∧
      u.dieOf die = learned (s.dieOf die) (redirOf slice tenant page part pkg n frm) ∧ u.mods = s.mods := by
  have hs : ∀ z ∈ (s.dieOf die).redirs,
      decide (z.slice = slice ∧ z.tenant = tenant ∧ z.page = page ∧ z.part = part) = false := by
    intro z hz
    refine decide_eq_false fun he => ?_
    have : z ∈ (s.dieOf die).redirs.filter fun r => decide (r.slice = slice) :=
      List.mem_filter.mpr ⟨hz, decide_eq_true he.1⟩
    rw [hf] at this
    exact absurd this List.not_mem_nil
  have hfind : ((s.dieOf die).redirs.find? fun z =>
      decide (z.slice = slice ∧ z.tenant = tenant ∧ z.page = page ∧ z.part = part)) = none :=
    List.find?_eq_none.mpr fun z hz => by rw [hs z hz]; exact Bool.false_ne_true
  change ∃ u, execRedirect die page part s = .next u ∧ _
  unfold execRedirect
  rw [h]
  dsimp only
  rw [takeNote_head (if_pos ⟨rfl, rfl, rfl⟩)]
  refine ⟨_, rfl, rfl, ?_, rfl⟩
  have hd : ({ s with notes := rest } : State).dieOf die = s.dieOf die := rfl
  rw [modDie_dieOf, hd]
  dsimp only
  rw [hf, if_neg (by simp), hfind]
  rfl

theorem learned_redirs (d : Die) : (learned d (redirOf slice tenant page part pkg n frm)).redirs.find?
    (fun r => decide (r.slice = slice ∧ r.tenant = tenant ∧ r.page = page ∧ r.part = part)) =
      some (redirOf slice tenant page part pkg n frm) := by
  rw [learned, List.find?_cons, redirOf, decide_eq_true ⟨rfl, rfl, rfl, rfl⟩]

/-- The address of a part names its page and its part. -/
theorem pageOf_part (hpg : page < 2 ^ 34) (hpt : part < 32) : pageOf (page * 2 ^ 21 + part * 2 ^ 16) = page := by
  unfold pageOf bits
  omega

theorem partOf_part (hpt : part < 32) : partOf (page * 2 ^ 21 + part * 2 ^ 16) = part := by
  unfold partOf bits
  omega

theorem ownerHint_learned {u : State} (hpg : page < 2 ^ 34) (hpt : part < 32)
    (hu : u.dieOf die = learned (s.dieOf die) (redirOf slice tenant page part pkg n frm)) (hm : u.mods = s.mods)
    (hp : pkg ≠ s.pkgOf (dieMod die)) : ownerHint u die tenant (page * 2 ^ 21 + part * 2 ^ 16) = some pkg := by
  have hk : u.pkgOf (dieMod die) = s.pkgOf (dieMod die) := by
    unfold State.pkgOf State.modOf
    rw [hm]
  rw [ownerHint, hu, pageOf_part hpg hpt, partOf_part hpt, hk, learned, List.take_succ_cons, List.find?_cons, decide_eq_true ⟨rfl, hp⟩]
  rfl

end

/-! ### Purges (R432 to R434) -/

section
variable {m frm page part n : Nat} {s : State} {t : Stub} (ht : stubOf s m page part = some t)
include ht

theorem stubQuietExpiry_purging (hp : t.purging ≠ none) : exec (.stubQuietExpiry m page part) s = .next s := by
  change execStubQuietExpiry m page part s = _
  unfold execStubQuietExpiry
  rw [ht]
  exact if_pos (Option.ne_none_iff_isSome.mp hp)

theorem stubQuietExpiry_early (hp : t.purging = none) (hq : s.ticks < t.since + t.quiet * 1024) :
    exec (.stubQuietExpiry m page part) s = .next (s.again (.stubQuietExpiry m page part)) := by
  change execStubQuietExpiry m page part s = _
  unfold execStubQuietExpiry
  rw [ht]
  dsimp only
  rw [if_neg (by simp [hp]), if_pos hq]

theorem stubQuietExpiry_purges (hp : t.purging = none) (hq : t.since + t.quiet * 1024 ≤ s.ticks) :
    exec (.stubQuietExpiry m page part) s = .next (startPurge s m t) := by
  change execStubQuietExpiry m page part s = _
  unfold execStubQuietExpiry
  rw [ht]
  dsimp only
  rw [if_neg (by simp [hp]), if_neg (Nat.not_lt.mpr hq)]

section
variable {rest : List Note} (hn : s.notes = .purgeAck m frm page part n :: rest) (hp : t.purging ≠ none)
  (ha : t.purgedAt = n)
include hn hp ha

theorem purgeAck_runs : exec (.purgeAck m frm page part) s = .next
    (if ((t.purging.getD []).filter (· ≠ frm)).isEmpty ∧ 0 < t.outstanding then s.again (.purgeAck m frm page part)
     else if ((t.purging.getD []).filter (· ≠ frm)).isEmpty then freeStub { s with notes := rest } m page part t
     else ({ s with notes := rest } : State).modMod m fun y => { y with
       stubs := mapFirst (fun z => z.live && decide (z.page = page ∧ z.part = part))
         (fun z => { z with purging := some ((t.purging.getD []).filter (· ≠ frm)) }) y.stubs }) := by
  obtain ⟨ms, hms⟩ := Option.ne_none_iff_exists'.mp hp
  change execPurgeAck m frm page part s = _
  unfold execPurgeAck
  rw [hn]
  dsimp only
  rw [takeNote_head (if_pos ⟨rfl, rfl, rfl, rfl⟩), ht]
  simp only [Option.bind_some, hms, Option.getD_some]
  rw [if_neg (not_not.mpr ha)]
  split
  · rfl
  · split <;> rfl

theorem purgeAck_frees (hl : (t.purging.getD []).filter (· ≠ frm) = []) (ho : t.outstanding = 0) :
    exec (.purgeAck m frm page part) s = .next (freeStub { s with notes := rest } m page part t) := by
  rw [purgeAck_runs ht hn hp ha, hl, if_neg (by simp [ho])]
  rfl

theorem purgeAck_waits (hl : (t.purging.getD []).filter (· ≠ frm) = []) (ho : 0 < t.outstanding) :
    exec (.purgeAck m frm page part) s = .next (s.again (.purgeAck m frm page part)) := by
  rw [purgeAck_runs ht hn hp ha, hl, if_pos ⟨rfl, ho⟩]

theorem purgeAck_counts (hl : (t.purging.getD []).filter (· ≠ frm) ≠ []) :
    exec (.purgeAck m frm page part) s = .next (({ s with notes := rest } : State).modMod m fun y => { y with
      stubs := mapFirst (fun z => z.live && decide (z.page = page ∧ z.part = part))
        (fun z => { z with purging := some ((t.purging.getD []).filter (· ≠ frm)) }) y.stubs }) := by
  have he : ((t.purging.getD []).filter (· ≠ frm)).isEmpty = false := List.isEmpty_eq_false_iff.mpr hl
  rw [purgeAck_runs ht hn hp ha, he, if_neg (fun h => absurd h.1 Bool.false_ne_true), if_neg Bool.false_ne_true]

end

end

section
variable {m frm page part pkg n : Nat} {s : State} {rest : List Note} (h : s.notes = .purge m frm page part pkg n :: rest)
include h

theorem purge_waits (hs : sentOff s m page part = true) :
    exec (.purge m frm page part) s = .next (s.again (.purge m frm page part)) := by
  change execPurge m frm page part s = _
  unfold execPurge
  rw [h]
  dsimp only
  rw [takeNote_head (if_pos ⟨rfl, rfl, rfl, rfl⟩)]
  exact if_pos hs

theorem purge_answers (hs : sentOff s m page part = false) : ∃ u, exec (.purge m frm page part) s = .next u ∧
    .purgeAck frm m page part n ∈ u.notes ∧ .purgeAck frm m page part ∈ u.agenda := by
  obtain ⟨v, hv⟩ : ∃ v : State, exec (.purge m frm page part) s =
      .next ((v.note (.purgeAck frm m page part n)).spawn (.purgeAck frm m page part)) := by
    change ∃ v : State, execPurge m frm page part s = _
    unfold execPurge
    rw [h]
    dsimp only
    rw [takeNote_head (if_pos ⟨rfl, rfl, rfl, rfl⟩)]
    dsimp only
    rw [hs, if_neg Bool.false_ne_true]
    exact ⟨_, rfl⟩
  exact ⟨_, hv, List.mem_append_right _ List.mem_cons_self, List.mem_append_right _ List.mem_cons_self⟩

end

/-- Settles O60: relays, redirects and purges are branches of their events; what a slice learns it finds again by the address of
the part. -/
theorem stubs : Obligations.Stubs := by
  unfold Obligations.Stubs
  intro m die frm page part slice tenant pkg n src stub at' s x bef aft rest t
  refine ⟨fun h => ⟨stubRelay_waits h, stubRelay_relays h⟩, walkReturn_walks, relayAck_counts, fun hw ht hl => guestRoute_outside hw ht hl,
    guestRoute_duplicated, fun h hpg hpt hf => ?_,
    fun ht => ⟨stubQuietExpiry_purging ht, stubQuietExpiry_early ht, stubQuietExpiry_purges ht,
      fun hn hp ha => ⟨purgeAck_frees ht hn hp ha, purgeAck_waits ht hn hp ha, purgeAck_counts ht hn hp ha⟩⟩,
    fun h => ⟨purge_waits h, purge_answers h⟩⟩
  obtain ⟨u, hu, hr, hd, hm⟩ := redirect_learns h hf
  refine ⟨u, hu, hr, ?_, ownerHint_learned hpg hpt hd hm⟩
  rw [hd]
  exact learned_redirs _

end Sys2Proof.Proofs.StubWork

end

section
/-! SUPPORT. Nothing stops the machine: every instruction, every due step and every issue position gives a next state. Each of the
definitions below is a tree of branches that all end in one. -/

namespace Sys2Proof.Proofs.Progress

open Sys2Proof Sys2Proof.Machine Sys2Proof.Laws

/-- An outcome that is a next state. -/
def Goes (o : Out) : Prop := ∃ t, o = .next t

theorem finish_goes (s : State) (r : Res) : Goes (finish s r) := finish_next s r

theorem goes_ite {c : Prop} [Decidable c] {a b : Out} (ha : Goes a) (hb : Goes b) : Goes (if c then a else b) := by
  split
  · exact ha
  · exact hb

/-! ### The due steps -/

section
variable (s : State)

theorem itimerFire_goes (p : Place) : Goes (execItimerFire p s) := by
  unfold execItimerFire
  dsimp only
  repeat' split
  all_goals exact ⟨_, rfl⟩

theorem intdbWrite_goes (m vf : Nat) (v : Word) : Goes (execIntdbWrite m vf v s) := by
  unfold execIntdbWrite
  dsimp only
  repeat' split
  all_goals exact ⟨_, rfl⟩

theorem memResponse_goes (p : Place) : Goes (execMemResponse p s) := by
  unfold execMemResponse
  dsimp only
  repeat' split
  all_goals exact ⟨_, rfl⟩

theorem courseForward_goes (p : Place) : Goes (execCourseForward p s) := by
  unfold execCourseForward
  dsimp only
  repeat' split
  all_goals exact ⟨_, rfl⟩

theorem courseTimeout_goes (clu idx : Nat) : Goes (execCourseTimeout clu idx s) := by
  unfold execCourseTimeout
  repeat' split
  all_goals exact ⟨_, rfl⟩

theorem realignTimeout_goes (p : Place) : Goes (execRealignTimeout p s) := by
  unfold execRealignTimeout
  dsimp only
  repeat' split
  all_goals exact ⟨_, rfl⟩

theorem streamElementFetch_goes (core unit : Nat) : Goes (execStreamElementFetch core unit s) := by
  unfold execStreamElementFetch
  dsimp only
  repeat' split
  all_goals exact ⟨_, rfl⟩

theorem streamPush_goes (core unit : Nat) : Goes (execStreamPush core unit s) := by
  unfold execStreamPush
  dsimp only
  repeat' split
  all_goals exact ⟨_, rfl⟩

theorem matrixOpComplete_goes (core st : Nat) : Goes (execMatrixOpComplete core st s) := by
  unfold execMatrixOpComplete
  dsimp only
  repeat' split
  all_goals exact ⟨_, rfl⟩

theorem mcmdCommand_goes (src : Place) : Goes (execMcmdCommand src s) := by
  unfold execMcmdCommand
  dsimp only
  repeat' split
  all_goals exact ⟨_, rfl⟩

theorem mcmdAnswer_goes (src : Place) : Goes (execMcmdAnswer src s) := by
  unfold execMcmdAnswer
  dsimp only
  repeat' split
  all_goals exact ⟨_, rfl⟩

theorem spartConversion_goes (clu : Nat) : Goes (execSpartConversion clu s) := by
  unfold execSpartConversion
  dsimp only
  repeat' split
  all_goals exact ⟨_, rfl⟩

theorem sevEvent_goes (src : Place) : Goes (execSevEvent src s) := by
  unfold execSevEvent
  dsimp only
  repeat' split
  all_goals exact ⟨_, rfl⟩

theorem timeSliceExpiry_goes (m part : Nat) : Goes (execTimeSliceExpiry m part s) := by
  unfold execTimeSliceExpiry
  repeat' split
  all_goals exact ⟨_, rfl⟩

theorem slotHandover_goes (p : Place) (vf : Nat) : Goes (execSlotHandover p vf s) := by
  unfold execSlotHandover
  dsimp only
  repeat' split
  all_goals exact ⟨_, rfl⟩

theorem bteTransferActivate_goes (clu : Nat) : Goes (execBteTransferActivate clu s) := by
  unfold execBteTransferActivate
  dsimp only
  repeat' split
  all_goals exact ⟨_, rfl⟩

theorem bteWriteLand_goes (clu id : Nat) : Goes (execBteWriteLand clu id s) := by
  unfold execBteWriteLand
  dsimp only
  repeat' split
  all_goals exact ⟨_, rfl⟩

theorem bteConsumerUpdate_goes (clu id : Nat) : Goes (execBteConsumerUpdate clu id s) := by
  unfold execBteConsumerUpdate
  dsimp only
  repeat' split
  all_goals exact ⟨_, rfl⟩

theorem ixeElementCopy_goes (clu id : Nat) : Goes (execIxeElementCopy clu id s) := by
  unfold execIxeElementCopy
  dsimp only
  repeat' split
  all_goals exact ⟨_, rfl⟩

theorem engineCompletion_goes (clu : Nat) (ixe : Bool) (id : Nat) : Goes (execEngineCompletion clu ixe id s) := by
  unfold execEngineCompletion
  repeat' split
  all_goals exact ⟨_, rfl⟩

theorem engineOffline_goes (clu : Nat) (ixe : Bool) : Goes (execEngineOffline clu ixe s) := by
  unfold execEngineOffline
  dsimp only
  repeat' split
  all_goals exact ⟨_, rfl⟩

theorem autoMigration_goes (core : Nat) : Goes (execAutoMigration core s) := by
  unfold execAutoMigration
  dsimp only
  repeat' split
  all_goals exact ⟨_, rfl⟩

theorem migrationArrival_goes (clu : Nat) : Goes (execMigrationArrival clu s) := by
  unfold execMigrationArrival
  dsimp only
  repeat' split
  all_goals exact ⟨_, rfl⟩

theorem kleScoring_goes (clu ctx : Nat) : Goes (execKleScoring clu ctx s) := by
  unfold execKleScoring
  dsimp only
  repeat' split
  all_goals exact ⟨_, rfl⟩

theorem kleServiceRound_goes (die slice : Nat) : Goes (execKleServiceRound die slice s) := by
  unfold execKleServiceRound
  dsimp only
  repeat' split
  all_goals exact ⟨_, rfl⟩

theorem kleRowArrival_goes (clu ctx : Nat) : Goes (execKleRowArrival clu ctx s) := by
  unfold execKleRowArrival
  dsimp only
  repeat' split
  all_goals exact ⟨_, rfl⟩

theorem kleReadTimeout_goes (clu ctx rank : Nat) : Goes (execKleReadTimeout clu ctx rank s) := by
  unfold execKleReadTimeout
  dsimp only
  repeat' split
  all_goals exact ⟨_, rfl⟩

theorem kleLookupComplete_goes (clu ctx : Nat) : Goes (execKleLookupComplete clu ctx s) := by
  unfold execKleLookupComplete
  dsimp only
  repeat' split
  all_goals exact ⟨_, rfl⟩

theorem eupdDirectAdd_goes (clu id : Nat) : Goes (execEupdDirectAdd clu id s) := by
  unfold execEupdDirectAdd
  dsimp only
  repeat' split
  all_goals exact ⟨_, rfl⟩

theorem mergeContribution_goes (m : Nat) : Goes (execMergeContribution m s) := by
  unfold execMergeContribution
  dsimp only
  repeat' split
  all_goals exact ⟨_, rfl⟩

theorem mergeClose_goes (m : Nat) : Goes (execMergeClose m s) := by
  unfold execMergeClose
  dsimp only
  repeat' split
  all_goals exact ⟨_, rfl⟩

theorem closeAck_goes (src : Place) : Goes (execCloseAck src s) := by
  unfold execCloseAck
  dsimp only
  repeat' split
  all_goals exact ⟨_, rfl⟩

theorem pageWalk_goes (die page : Nat) : Goes (execPageWalk die page s) := by
  change Goes (exec (.pageWalk die page) s)
  rcases hw : (s.dieOf die).walks.find? fun e => decide (e.1 = page) with _ | ⟨pg, p, low⟩
  · rcases h : leafAddr s (dieMod die) (page * 2 ^ 21) with a | _ | _
    · rcases hr : tableRead s (dieMod die) a with _ | low
      · exact ⟨_, HomeWork.pageWalk_unread hw h hr⟩
      · exact ⟨_, HomeWork.pageWalk_half hw h hr⟩
    · exact ⟨_, HomeWork.pageWalk_empty hw h⟩
    · exact ⟨_, HomeWork.pageWalk_poisoned hw h⟩
  · obtain rfl : pg = page := by simpa using List.find?_some hw
    exact ⟨_, HomeWork.pageWalk_ends hw⟩

theorem faultackWake_goes (die : Nat) : Goes (execFaultackWake die s) := by
  unfold execFaultackWake
  dsimp only
  repeat' split
  all_goals exact ⟨_, rfl⟩

theorem releaseProbe_goes (m : Nat) (src : Place) (grp : Nat) : Goes (execReleaseProbe m src grp s) := by
  unfold execReleaseProbe
  dsimp only
  repeat' split
  all_goals exact ⟨_, rfl⟩

theorem uncorrectableError_goes (site : ErrSite) : Goes (execUncorrectableError site s) := by
  unfold execUncorrectableError
  dsimp only
  repeat' split
  all_goals exact ⟨_, rfl⟩

theorem taskDispatch_goes (die clu : Nat) : Goes (execTaskDispatch die clu s) := by
  unfold execTaskDispatch
  repeat' split
  all_goals exact ⟨_, rfl⟩

theorem admissionServe_goes (die : Nat) : Goes (execAdmissionServe die s) := by
  unfold execAdmissionServe
  dsimp only
  repeat' split
  all_goals exact ⟨_, rfl⟩

theorem taskSteal_goes (die clu vf : Nat) : Goes (execTaskSteal die clu vf s) := by
  unfold execTaskSteal
  repeat' split
  all_goals exact ⟨_, rfl⟩

theorem stealRequest_goes (die vf : Nat) : Goes (execStealRequest die vf s) := by
  unfold execStealRequest
  dsimp only
  repeat' split
  all_goals exact ⟨_, rfl⟩

theorem stealRetry_goes (die vf : Nat) : Goes (execStealRetry die vf s) := by
  unfold execStealRetry
  dsimp only
  repeat' split
  all_goals exact ⟨_, rfl⟩

theorem counterUpdate_goes (die : Nat) (src : Place) : Goes (execCounterUpdate die src s) := by
  unfold execCounterUpdate
  dsimp only
  repeat' split
  all_goals exact ⟨_, rfl⟩

theorem groupUpdate_goes (die : Nat) (src : Place) : Goes (execGroupUpdate die src s) := by
  unfold execGroupUpdate
  dsimp only
  repeat' split
  all_goals exact ⟨_, rfl⟩

theorem grantExpiry_goes (p : Place) : Goes (execGrantExpiry p s) := by
  unfold execGrantExpiry
  dsimp only
  repeat' split
  all_goals exact ⟨_, rfl⟩

theorem launchTake_goes (m vf : Nat) : Goes (execLaunchTake m vf s) := by
  unfold execLaunchTake
  dsimp only
  repeat' split
  all_goals exact ⟨_, rfl⟩

theorem launchEnd_goes (m vf : Nat) : Goes (execLaunchEnd m vf s) := by
  unfold execLaunchEnd
  dsimp only
  repeat' split
  all_goals exact ⟨_, rfl⟩

theorem vfReset_goes (m vf : Nat) : Goes (execVfReset m vf s) := by
  unfold execVfReset
  dsimp only
  repeat' split
  all_goals exact ⟨_, rfl⟩

theorem vfPolicyWrite_goes (m vf : Nat) (f : PolicyField) : Goes (execVfPolicyWrite m vf f s) := by
  unfold execVfPolicyWrite
  repeat' split
  all_goals exact ⟨_, rfl⟩

theorem packageNumberWrite_goes (m : Nat) (v : BitVec 12) : Goes (execPackageNumberWrite m v s) := by
  unfold execPackageNumberWrite
  dsimp only
  repeat' split
  all_goals exact ⟨_, rfl⟩

theorem linkTraining_goes (m link' peer : Nat) (ok : Bool) : Goes (execLinkTraining m link' peer ok s) := by
  unfold execLinkTraining
  dsimp only
  repeat' split
  all_goals exact ⟨_, rfl⟩

theorem firmwareFetchRetry_goes (m : Nat) (img : FwImage) : Goes (execFirmwareFetchRetry m img s) := by
  unfold execFirmwareFetchRetry
  dsimp only
  repeat' split
  all_goals exact ⟨_, rfl⟩

theorem attestationRequest_goes (m : Nat) (nonce : BitVec 256) : Goes (execAttestationRequest m nonce s) := by
  unfold execAttestationRequest
  dsimp only
  repeat' split
  all_goals exact ⟨_, rfl⟩

theorem ochreCoreFault_goes (m pd core : Nat) : Goes (execOchreCoreFault m pd core s) := by
  unfold execOchreCoreFault
  dsimp only
  repeat' split
  all_goals exact ⟨_, rfl⟩

theorem flitRoute_goes (m node : Nat) : Goes (execFlitRoute m node s) := by
  unfold execFlitRoute
  dsimp only
  repeat' split
  all_goals exact ⟨_, rfl⟩

theorem flitEject_goes (m node : Nat) : Goes (execFlitEject m node s) := by
  unfold execFlitEject
  dsimp only
  repeat' split
  all_goals exact ⟨_, rfl⟩

theorem packetDeliver_goes (m node src ch : Nat) : Goes (execPacketDeliver m node src ch s) := by
  unfold execPacketDeliver
  dsimp only
  repeat' split
  all_goals exact ⟨_, rfl⟩

theorem deliveryCredit_goes (m src dst ch : Nat) : Goes (execDeliveryCredit m src dst ch s) := by
  unfold execDeliveryCredit
  dsimp only
  repeat' split
  all_goals exact ⟨_, rfl⟩

theorem linkFrameReceive_goes (m pd : Nat) : Goes (execLinkFrameReceive m pd s) := by
  unfold execLinkFrameReceive
  repeat' split
  all_goals exact ⟨_, rfl⟩

theorem accessTimeout_goes (p : Place) : Goes (execAccessTimeout p s) := by
  unfold execAccessTimeout
  dsimp only
  repeat' split
  all_goals exact ⟨_, rfl⟩

theorem vsPacketArrive_goes (clu port : Nat) : Goes (execVsPacketArrive clu port s) := by
  unfold execVsPacketArrive
  dsimp only
  repeat' split
  all_goals exact ⟨_, rfl⟩

theorem vsCredit_goes (clu entry port : Nat) : Goes (execVsCredit clu entry port s) := by
  unfold execVsCredit
  dsimp only
  repeat' split
  all_goals exact ⟨_, rfl⟩

theorem gangQuery_goes (m vf : Nat) : Goes (execGangQuery m vf s) := by
  unfold execGangQuery
  dsimp only
  repeat' split
  all_goals exact ⟨_, rfl⟩

theorem gangPause_goes (m vf : Nat) : Goes (execGangPause m vf s) := by
  unfold execGangPause
  dsimp only
  repeat' split
  all_goals exact ⟨_, rfl⟩

theorem gangDrainComplete_goes (m vf : Nat) : Goes (execGangDrainComplete m vf s) := by
  unfold execGangDrainComplete
  repeat' split
  all_goals exact ⟨_, rfl⟩

theorem gangStopTimeout_goes (m vf : Nat) : Goes (execGangStopTimeout m vf s) := by
  unfold execGangStopTimeout
  repeat' split
  all_goals exact ⟨_, rfl⟩

theorem migrationCommandTake_goes (m : Nat) : Goes (execMigrationCommandTake m s) := by
  unfold execMigrationCommandTake
  dsimp only
  repeat' split
  all_goals exact ⟨_, rfl⟩

theorem collapse_goes (m idx : Nat) : Goes (execCollapse m idx s) := by
  unfold execCollapse
  dsimp only
  repeat' split
  all_goals exact ⟨_, rfl⟩

theorem reclaim_goes (m idx : Nat) : Goes (execReclaim m idx s) := by
  unfold execReclaim
  dsimp only
  repeat' split
  all_goals exact ⟨_, rfl⟩

theorem migrationCutover_goes (m idx : Nat) : Goes (execMigrationCutover m idx s) := by
  unfold execMigrationCutover
  dsimp only
  repeat' split
  all_goals exact ⟨_, rfl⟩

theorem migrationCommandComplete_goes (m idx : Nat) : Goes (execMigrationCommandComplete m idx s) := by
  unfold execMigrationCommandComplete
  dsimp only
  repeat' split
  all_goals exact ⟨_, rfl⟩

theorem stubRelay_goes (m : Nat) (src : Place) : Goes (execStubRelay m src s) := by
  unfold execStubRelay
  dsimp only
  repeat' split
  all_goals exact ⟨_, rfl⟩

theorem relayAck_goes (m page part : Nat) : Goes (execRelayAck m page part s) := by
  unfold execRelayAck
  dsimp only
  repeat' split
  all_goals exact ⟨_, rfl⟩

theorem walkReturn_goes (die : Nat) (src : Place) : Goes (execWalkReturn die src s) := by
  unfold execWalkReturn
  dsimp only
  repeat' split
  all_goals exact ⟨_, rfl⟩

theorem redirect_goes (die page part : Nat) : Goes (execRedirect die page part s) := by
  unfold execRedirect
  dsimp only
  repeat' split
  all_goals exact ⟨_, rfl⟩

theorem stubQuietExpiry_goes (m page part : Nat) : Goes (execStubQuietExpiry m page part s) := by
  unfold execStubQuietExpiry
  repeat' split
  all_goals exact ⟨_, rfl⟩

theorem purge_goes (m frm page part : Nat) : Goes (execPurge m frm page part s) := by
  unfold execPurge
  dsimp only
  repeat' split
  all_goals exact ⟨_, rfl⟩

theorem purgeAck_goes (m frm page part : Nat) : Goes (execPurgeAck m frm page part s) := by
  unfold execPurgeAck
  dsimp only
  repeat' split
  all_goals exact ⟨_, rfl⟩

theorem collapseInvalidate_goes (m idx holder : Nat) : Goes (execCollapseInvalidate m idx holder s) := by
  unfold execCollapseInvalidate
  dsimp only
  repeat' split
  all_goals exact ⟨_, rfl⟩

theorem collapseAck_goes (m idx holder : Nat) : Goes (execCollapseAck m idx holder s) := by
  unfold execCollapseAck
  dsimp only
  repeat' split
  all_goals exact ⟨_, rfl⟩

theorem partitionConfigure_goes (m part : Nat) (cfg : PartCfg) : Goes (execPartitionConfigure m part cfg s) := by
  unfold execPartitionConfigure
  dsimp only
  repeat' split
  all_goals exact ⟨_, rfl⟩

end

theorem runEvent_goes (e : Event) (s : State) : Goes (runEvent e s) := by
  cases e with
  | itimerFire p => exact itimerFire_goes s p
  | intdbWrite m vf v => exact intdbWrite_goes s m vf v
  | memResponse p => exact memResponse_goes s p
  | courseForward p => exact courseForward_goes s p
  | courseTimeout clu idx => exact courseTimeout_goes s clu idx
  | realignTimeout p => exact realignTimeout_goes s p
  | streamElementFetch core unit => exact streamElementFetch_goes s core unit
  | streamPush core unit => exact streamPush_goes s core unit
  | matrixOpComplete core st => exact matrixOpComplete_goes s core st
  | mcmdCommand src => exact mcmdCommand_goes s src
  | mcmdAnswer src => exact mcmdAnswer_goes s src
  | spartConversion clu => exact spartConversion_goes s clu
  | sevEvent src => exact sevEvent_goes s src
  | timeSliceExpiry m part => exact timeSliceExpiry_goes s m part
  | slotHandover p vf => exact slotHandover_goes s p vf
  | bteTransferActivate clu => exact bteTransferActivate_goes s clu
  | bteWriteLand clu id => exact bteWriteLand_goes s clu id
  | bteConsumerUpdate clu id => exact bteConsumerUpdate_goes s clu id
  | ixeElementCopy clu id => exact ixeElementCopy_goes s clu id
  | engineCompletion clu ixe id => exact engineCompletion_goes s clu ixe id
  | engineOffline clu ixe => exact engineOffline_goes s clu ixe
  | autoMigration core => exact autoMigration_goes s core
  | migrationArrival clu => exact migrationArrival_goes s clu
  | kleScoring clu ctx => exact kleScoring_goes s clu ctx
  | kleServiceRound die slice => exact kleServiceRound_goes s die slice
  | kleRowArrival clu ctx => exact kleRowArrival_goes s clu ctx
  | kleReadTimeout clu ctx rank => exact kleReadTimeout_goes s clu ctx rank
  | kleLookupComplete clu ctx => exact kleLookupComplete_goes s clu ctx
  | eupdDirectAdd clu id => exact eupdDirectAdd_goes s clu id
  | mergeContribution m => exact mergeContribution_goes s m
  | mergeClose m => exact mergeClose_goes s m
  | closeAck src => exact closeAck_goes s src
  | pageWalk die page => exact pageWalk_goes s die page
  | faultackWake die => exact faultackWake_goes s die
  | releaseProbe m src grp => exact releaseProbe_goes s m src grp
  | uncorrectableError site => exact uncorrectableError_goes s site
  | taskDispatch die clu => exact taskDispatch_goes s die clu
  | admissionServe die => exact admissionServe_goes s die
  | taskSteal die clu vf => exact taskSteal_goes s die clu vf
  | stealRequest die vf => exact stealRequest_goes s die vf
  | stealRetry die vf => exact stealRetry_goes s die vf
  | counterUpdate die src => exact counterUpdate_goes s die src
  | groupUpdate die src => exact groupUpdate_goes s die src
  | grantExpiry p => exact grantExpiry_goes s p
  | launchTake m vf => exact launchTake_goes s m vf
  | launchEnd m vf => exact launchEnd_goes s m vf
  | vfReset m vf => exact vfReset_goes s m vf
  | vfPolicyWrite m vf f => exact vfPolicyWrite_goes s m vf f
  | packageNumberWrite m v => exact packageNumberWrite_goes s m v
  | linkTraining m link' peer ok => exact linkTraining_goes s m link' peer ok
  | firmwareFetchRetry m img => exact firmwareFetchRetry_goes s m img
  | attestationRequest m nonce => exact attestationRequest_goes s m nonce
  | ochreCoreFault m pd core => exact ochreCoreFault_goes s m pd core
  | flitRoute m node => exact flitRoute_goes s m node
  | flitEject m node => exact flitEject_goes s m node
  | packetDeliver m node src ch => exact packetDeliver_goes s m node src ch
  | deliveryCredit m src dst ch => exact deliveryCredit_goes s m src dst ch
  | linkFrameReceive m pd => exact linkFrameReceive_goes s m pd
  | accessTimeout p => exact accessTimeout_goes s p
  | vsPacketArrive clu port => exact vsPacketArrive_goes s clu port
  | vsCredit clu entry port => exact vsCredit_goes s clu entry port
  | gangQuery m vf => exact gangQuery_goes s m vf
  | gangPause m vf => exact gangPause_goes s m vf
  | gangDrainComplete m vf => exact gangDrainComplete_goes s m vf
  | gangStopTimeout m vf => exact gangStopTimeout_goes s m vf
  | migrationCommandTake m => exact migrationCommandTake_goes s m
  | collapse m idx => exact collapse_goes s m idx
  | reclaim m idx => exact reclaim_goes s m idx
  | migrationCutover m idx => exact migrationCutover_goes s m idx
  | migrationCommandComplete m idx => exact migrationCommandComplete_goes s m idx
  | stubRelay m src => exact stubRelay_goes s m src
  | relayAck m page part => exact relayAck_goes s m page part
  | walkReturn die src => exact walkReturn_goes s die src
  | redirect die page part => exact redirect_goes s die page part
  | stubQuietExpiry m page part => exact stubQuietExpiry_goes s m page part
  | purge m frm page part => exact purge_goes s m frm page part
  | purgeAck m frm page part => exact purgeAck_goes s m frm page part
  | collapseInvalidate m idx holder => exact collapseInvalidate_goes s m idx holder
  | collapseAck m idx holder => exact collapseAck_goes s m idx holder
  | partitionConfigure m part cfg => exact partitionConfigure_goes s m part cfg
  | sstatWrite | ipendClear | registerWrite | faultack | dieerrlog => exact finish_goes _ _
  | _ => exact ⟨_, rfl⟩

/-! ### The instructions -/

section
variable (s : State)

theorem raisePending_goes (sts : List Nat) (a : Act Unit) : Goes (raisePending s sts a) := by
  unfold raisePending
  split <;> exact finish_goes _ _

theorem mjoin_goes (mask : BitVec 4) : Goes (execMjoin mask s) :=
  goes_ite (finish_goes _ _) (raisePending_goes _ _ _)

theorem talloc_goes (d a : GReg) : Goes (execTalloc d a s) :=
  goes_ite (finish_goes _ _) (finish_goes _ _)

theorem tmovv_goes (d : VReg) (a : TReg) (b : GReg) (st : BitVec 2) : Goes (execTmovv d a b st s) := by
  unfold execTmovv
  dsimp only
  split
  · exact finish_goes _ _
  · exact goes_ite (raisePending_goes _ _ _) (finish_goes _ _)

end

theorem exec_goes (i : Instr) (s : State) : Goes (exec i s) := by
  cases i with
  | mjoin mask => exact mjoin_goes s mask
  | talloc d a => exact talloc_goes s d a
  | tmovv d a b st => exact tmovv_goes s d a b st
  | itimerFire p => exact itimerFire_goes s p
  | intdbWrite m vf v => exact intdbWrite_goes s m vf v
  | memResponse p => exact memResponse_goes s p
  | courseForward p => exact courseForward_goes s p
  | courseTimeout clu idx => exact courseTimeout_goes s clu idx
  | realignTimeout p => exact realignTimeout_goes s p
  | streamElementFetch core unit => exact streamElementFetch_goes s core unit
  | streamPush core unit => exact streamPush_goes s core unit
  | matrixOpComplete core st => exact matrixOpComplete_goes s core st
  | mcmdCommand src => exact mcmdCommand_goes s src
  | mcmdAnswer src => exact mcmdAnswer_goes s src
  | spartConversion clu => exact spartConversion_goes s clu
  | sevEvent src => exact sevEvent_goes s src
  | timeSliceExpiry m part => exact timeSliceExpiry_goes s m part
  | slotHandover p vf => exact slotHandover_goes s p vf
  | bteTransferActivate clu => exact bteTransferActivate_goes s clu
  | bteWriteLand clu id => exact bteWriteLand_goes s clu id
  | bteConsumerUpdate clu id => exact bteConsumerUpdate_goes s clu id
  | ixeElementCopy clu id => exact ixeElementCopy_goes s clu id
  | engineCompletion clu ixe id => exact engineCompletion_goes s clu ixe id
  | engineOffline clu ixe => exact engineOffline_goes s clu ixe
  | autoMigration core => exact autoMigration_goes s core
  | migrationArrival clu => exact migrationArrival_goes s clu
  | kleScoring clu ctx => exact kleScoring_goes s clu ctx
  | kleServiceRound die slice => exact kleServiceRound_goes s die slice
  | kleRowArrival clu ctx => exact kleRowArrival_goes s clu ctx
  | kleReadTimeout clu ctx rank => exact kleReadTimeout_goes s clu ctx rank
  | kleLookupComplete clu ctx => exact kleLookupComplete_goes s clu ctx
  | eupdDirectAdd clu id => exact eupdDirectAdd_goes s clu id
  | mergeContribution m => exact mergeContribution_goes s m
  | mergeClose m => exact mergeClose_goes s m
  | closeAck src => exact closeAck_goes s src
  | pageWalk die page => exact pageWalk_goes s die page
  | faultackWake die => exact faultackWake_goes s die
  | releaseProbe m src grp => exact releaseProbe_goes s m src grp
  | uncorrectableError site => exact uncorrectableError_goes s site
  | taskDispatch die clu => exact taskDispatch_goes s die clu
  | admissionServe die => exact admissionServe_goes s die
  | taskSteal die clu vf => exact taskSteal_goes s die clu vf
  | stealRequest die vf => exact stealRequest_goes s die vf
  | stealRetry die vf => exact stealRetry_goes s die vf
  | counterUpdate die src => exact counterUpdate_goes s die src
  | groupUpdate die src => exact groupUpdate_goes s die src
  | grantExpiry p => exact grantExpiry_goes s p
  | launchTake m vf => exact launchTake_goes s m vf
  | launchEnd m vf => exact launchEnd_goes s m vf
  | vfReset m vf => exact vfReset_goes s m vf
  | vfPolicyWrite m vf f => exact vfPolicyWrite_goes s m vf f
  | packageNumberWrite m v => exact packageNumberWrite_goes s m v
  | linkTraining m link' peer ok => exact linkTraining_goes s m link' peer ok
  | firmwareFetchRetry m img => exact firmwareFetchRetry_goes s m img
  | attestationRequest m nonce => exact attestationRequest_goes s m nonce
  | ochreCoreFault m pd core => exact ochreCoreFault_goes s m pd core
  | flitRoute m node => exact flitRoute_goes s m node
  | flitEject m node => exact flitEject_goes s m node
  | packetDeliver m node src ch => exact packetDeliver_goes s m node src ch
  | deliveryCredit m src dst ch => exact deliveryCredit_goes s m src dst ch
  | linkFrameReceive m pd => exact linkFrameReceive_goes s m pd
  | accessTimeout p => exact accessTimeout_goes s p
  | vsPacketArrive clu port => exact vsPacketArrive_goes s clu port
  | vsCredit clu entry port => exact vsCredit_goes s clu entry port
  | gangQuery m vf => exact gangQuery_goes s m vf
  | gangPause m vf => exact gangPause_goes s m vf
  | gangDrainComplete m vf => exact gangDrainComplete_goes s m vf
  | gangStopTimeout m vf => exact gangStopTimeout_goes s m vf
  | migrationCommandTake m => exact migrationCommandTake_goes s m
  | collapse m idx => exact collapse_goes s m idx
  | reclaim m idx => exact reclaim_goes s m idx
  | migrationCutover m idx => exact migrationCutover_goes s m idx
  | migrationCommandComplete m idx => exact migrationCommandComplete_goes s m idx
  | stubRelay m src => exact stubRelay_goes s m src
  | relayAck m page part => exact relayAck_goes s m page part
  | walkReturn die src => exact walkReturn_goes s die src
  | redirect die page part => exact redirect_goes s die page part
  | stubQuietExpiry m page part => exact stubQuietExpiry_goes s m page part
  | purge m frm page part => exact purge_goes s m frm page part
  | purgeAck m frm page part => exact purgeAck_goes s m frm page part
  | collapseInvalidate m idx holder => exact collapseInvalidate_goes s m idx holder
  | collapseAck m idx holder => exact collapseAck_goes s m idx holder
  | partitionConfigure m part cfg => exact partitionConfigure_goes s m part cfg
  | asyncTrapEntry | preemptNotice | waitwMonitorFire | cringtailWrite | migrationSlotFree | kleOffline
    | homeSliceRequest | farAtomicExecute | probeEcho | correctableError | budgetSet | thermalStep
    | criticalTemperature | shutdownTemperature | lqdb | hostBarWrite | hostPortDown | moduleReset | stackFailure
    | linkDown | pathFailed | gangResume | move | dup | faultQueueTailAdvance | keyLoad | hostPortUp | portDieFailure
    | engineRestore | errorCounterClear | nop | br | call | beq | bne | blt | bge | bltu | bgeu | pref | btset | pwrel
    | trap | anop | add | sub | addi | mul | mulh | mulhu | div | divu | rem | remu | and | or | xor | andi | ori
    | xori | shl | shr | sar | shli | shri | sari | limm | slt | sltu | seq | sel | clz | popc | min | max | pfmt
    | pgetf | padde | pcaddr | fadd | fsub | fmul | fma | fdiv | fsqrt | fmin | fmax | fcmp | fcvt | fcvti | icvtf
    | illegalInstr | reservedField => exact ⟨_, rfl⟩
  | _ => exact finish_goes _ _
/-! ### Bundles -/

section
variable (s0 : State)

theorem conclude_goes (r : Res) : Goes (conclude s0 r) := by
  cases r <;> exact ⟨_, rfl⟩

theorem concludeSecond_goes (taken : List Nat) (i : Instr) {o : Out} (h : Goes o) : Goes (concludeSecond s0 taken i o) := by
  obtain ⟨t, rfl⟩ := h
  obtain ⟨u, hu⟩ := exec_goes i (aloneSecond s0 taken)
  simp only [concludeSecond, hu]
  repeat' split
  all_goals exact ⟨_, rfl⟩

theorem concludeSent_goes (t : State) (i : Instr) (r : ParkReason) : Goes (concludeSent s0 t i r) := by
  obtain ⟨u, hu⟩ := exec_goes i (aloneSecond s0 t.issue.taken)
  simp only [concludeSent, hu]
  split <;> exact ⟨_, rfl⟩

theorem leavePair_goes (c a : Instr) : Goes (leavePair s0 c a) := by
  obtain ⟨u, hu⟩ := exec_goes a (withSecond s0 s0)
  obtain ⟨t, ht⟩ := exec_goes c (withWord u .c (addrAdd s0.issue.addr 8))
  simp only [leavePair, hu, ht]
  repeat' split
  all_goals exact ⟨_, rfl⟩

theorem leaveRest_goes (g : Vector Word 32) (c : Instr) : Goes (leaveRest s0 g c) := by
  unfold leaveRest
  dsimp only
  split
  · split <;> exact ⟨_, rfl⟩
  · exact exec_goes _ _

theorem runPair_goes (c a : Instr) : Goes (runPair s0 c a) := by
  obtain ⟨t, ht⟩ := exec_goes c (withWord s0 .c (addrAdd s0.issue.addr 8))
  unfold runPair
  split
  · exact leaveRest_goes _ _ _
  · simp only [ht]
    split
    · exact ⟨_, rfl⟩
    · exact goes_ite (concludeSent_goes _ _ _ _) ⟨_, rfl⟩
    · exact goes_ite (leavePair_goes _ _ _) ⟨_, rfl⟩
    · exact concludeSecond_goes _ _ _ (exec_goes _ _)

theorem packetGuard_goes (w0 : Nat) {o : Out} (h : Goes o) : Goes (packetGuard s0 w0 o) := by
  obtain ⟨t, rfl⟩ := h
  unfold packetGuard
  refine goes_ite ?_ ⟨_, rfl⟩
  dsimp only
  split <;> exact ⟨_, rfl⟩

theorem issuePair_goes (w0 w1 : Nat) : Goes (issuePair s0 w0 w1) := by
  unfold issuePair
  extract_lets sc sa fail
  have fail_goes (i : Instr) (t : State) : Goes (fail (exec i t)) := by
    obtain ⟨u, hu⟩ := exec_goes i t
    simp only [fail, hu]
    split <;> exact ⟨_, rfl⟩
  split
  · exact fail_goes (.illegalInstr _) sc
  · exact fail_goes (.illegalInstr _) sa
  · exact fail_goes (.reservedField _) sc
  · exact fail_goes (.reservedField _) sa
  · exact goes_ite ⟨_, rfl⟩ (packetGuard_goes _ _ (runPair_goes _ _ _))

theorem issueLone_goes (w : Nat) : Goes (issueLone s0 w) := by
  unfold issueLone
  dsimp only
  split
  · exact packetGuard_goes _ _ (exec_goes _ _)
  · exact exec_goes (.illegalInstr _) _
  · exact exec_goes (.reservedField _) _

theorem runWords_goes (w0 w1 : Nat) : Goes (runWords s0 w0 w1) := by
  unfold runWords
  split
  · exact ⟨_, rfl⟩
  · exact issueLone_goes _ _
  · exact issuePair_goes _ _ _

theorem afterBundle_goes (w0 w1 : Nat) {o : Out} (h : Goes o) : Goes (afterBundle s0 w0 w1 o) := by
  obtain ⟨t, rfl⟩ := h
  unfold afterBundle
  dsimp only
  repeat' split
  all_goals exact ⟨_, rfl⟩

end

section
variable (s : State) (p : Place)

theorem runBundle_goes : Goes (runBundle s p) := by
  unfold runBundle
  extract_lets s0
  split
  · exact ⟨_, rfl⟩
  · split
    · exact afterBundle_goes _ _ _ (runWords_goes _ _ _)
    · split
      · exact conclude_goes _ _
      · exact afterBundle_goes _ _ _ (runWords_goes _ _ _)

theorem meetAsync_goes {o : Out} (h : Goes o) : Goes (meetAsync s p o) := by
  obtain ⟨t, rfl⟩ := h
  unfold meetAsync
  dsimp only
  split <;> exact ⟨_, rfl⟩

theorem issueBundle_goes : Goes (issueBundle s p) :=
  goes_ite ⟨_, rfl⟩ (meetAsync_goes s p (runBundle_goes s p))

end

/-! ### The step -/

theorem issueTurn_goes (s : State) : Goes (issueTurn s) := by
  unfold issueTurn
  split
  · exact ⟨_, rfl⟩
  · next i _ =>
    obtain ⟨t, ht⟩ := issueBundle_goes s (placeOf s.turn i)
    simp only [ht]
    split
    · exact goes_ite ⟨_, rfl⟩ ⟨_, rfl⟩
    · exact ⟨_, rfl⟩

theorem step_goes (s : State) : Goes (step s) := by
  unfold step
  split
  · exact runEvent_goes _ _
  · split
    · exact issueTurn_goes s
    · dsimp only
      split
      · exact runEvent_goes _ _
      · exact issueTurn_goes _

/-- Settles O6: every instruction, every due step and every issue position ends in a next state. -/
theorem stepGoesOn : Obligations.StepGoesOn := step_goes

end Sys2Proof.Proofs.Progress
end

section
/-! SUPPORT. Every step keeps the canonical form of the memories (log 5): what it means for each kind of result that carries a
state, and one rule for each way of building one. -/

namespace Sys2Proof.Proofs.MemKept

open Sys2Proof Sys2Proof.Machine Sys2Proof.Laws MemForm

/-- All memories of the state have the canonical form. -/
def Wf (s : State) : Prop := s.memWf = true

/-- The state that a word ends with has the canonical form. -/
def ResWf : Res → Prop
  | .done t => Wf t
  | .park _ _ t => Wf t
  | .gone t => Wf t
  | .trap _ _ _ => True

def RunWf {α : Type} : Except Res (α × State) → Prop
  | .ok x => Wf x.2
  | .error r => ResWf r

def ActWf {α : Type} (m : Act α) : Prop := ∀ s, Wf s → RunWf (m s)

/-- The state that a value carries, where there is one, has the canonical form. -/
def ExcWf {ε α : Type} (state : α → State) : Except ε α → Prop
  | .ok a => Wf (state a)
  | .error _ => True

def OptWf {α : Type} (state : α → State) : Option α → Prop
  | some a => Wf (state a)
  | none => True

def OutWf : Out → Prop
  | .next t => Wf t
  | _ => True

/-- The memories of a module stay. -/
def SameMem (f : Module → Module) : Prop := ∀ x, (f x).dram = x.dram ∧ (f x).host = x.host ∧ (f x).pinned = x.pinned

/-- The scratchpad of a cluster stays. -/
def SameSpad (f : Cluster → Cluster) : Prop := ∀ c, (f c).spad = c.spad

/-- The TCM of a core stays. -/
def SameTcm (f : Core → Core) : Prop := ∀ c, (f c).tcm = c.tcm

section
variable {s t : State}

theorem modMod_wf (h : Wf s) {k : Nat} {f : Module → Module} (hf : SameMem f) : Wf (s.modMod k f) :=
  Keeps.modMod (fun x hx => by
    obtain ⟨hd, hh, hp⟩ := hf x
    rw [module_wf_iff] at hx ⊢
    rwa [hd, hh, hp]) h

theorem modClu_wf (h : Wf s) {k : Nat} {f : Cluster → Cluster} (hf : SameSpad f) : Wf (s.modClu k f) :=
  Keeps.modClu (fun c hc => by rwa [hf]) h

theorem modCore_wf (h : Wf s) {k : Nat} {f : Core → Core} (hf : SameTcm f) : Wf (s.modCore k f) :=
  Keeps.modCore (fun c hc => by rwa [hf]) h

theorem foldl_wf {α : Type} {f : State → α → State} {l : List α} (h : Wf s) (hf : ∀ t a, Wf t → Wf (f t a)) :
    Wf (l.foldl f s) :=
  Keeps.foldl (fun t a ht => hf t a ht) l s h

/-- The memories are of the parts of the state that are not written. -/
theorem same_wf {a b : Nat} {l : List Nat} {c : Place} {i : Issue} {x : List (Nat × Strand)} {d : List (Nat × Die)} {n : List Msg}
    {r : List Reply} {o : List Note} {fl : List Flit} {e : List (Nat × Eject)} {g u : List Event} {k : Nat} (h : Wf s) :
    Wf ⟨a, b, l, c, i, x, s.cores, s.clusters, d, s.mods, n, r, o, fl, e, g, u, k⟩ := h

theorem ite_wf {c : Prop} [Decidable c] (h : Wf s) (h' : Wf t) : Wf (if c then s else t) := by
  split
  · exact h
  · exact h'

theorem foldl_module_wf {α : Type} {f : Module → α → Module} (hf : ∀ x a, x.wf = true → (f x a).wf = true) {x : Module}
    (l : List α) (hx : x.wf = true) : (l.foldl f x).wf = true := by
  induction l generalizing x with
  | nil => exact hx
  | cons a l ih => exact ih (hf x a hx)

/-- Every listed part has the `p` of a part that was listed. -/
def PartsOf {α β : Type} (p : α → β) (l l' : List (Nat × α)) : Prop := ∀ e ∈ l', ∃ d ∈ l, p d.2 = p e.2

theorem partsOf_refl {α β : Type} {p : α → β} (l : List (Nat × α)) : PartsOf p l l := fun e he => ⟨e, he, rfl⟩

theorem partsOf_map {α β : Type} {p : α → β} {f : Nat × α → Nat × α} (hf : ∀ e, p (f e).2 = p e.2) (l : List (Nat × α)) :
    PartsOf p l (l.map f) := by
  intro e he
  obtain ⟨d, hd, rfl⟩ := List.mem_map.1 he
  exact ⟨d, hd, (hf d).symm⟩

theorem partsOf_filter {α β : Type} {p : α → β} {q : Nat × α → Bool} (l : List (Nat × α)) : PartsOf p l (l.filter q) :=
  fun e he => ⟨e, List.mem_of_mem_filter he, rfl⟩

theorem PartsOf.all {α : Type} {p : α → Memory} {l l' : List (Nat × α)} (h : PartsOf p l l') (hl : ∀ e ∈ l, (p e.2).wf = true) :
    ∀ e ∈ l', (p e.2).wf = true := by
  intro e he
  obtain ⟨d, hd, hp⟩ := h e he
  rw [← hp]
  exact hl d hd

theorem parts_wf (h : Wf s) (hm : t.mods = s.mods) (hc : PartsOf Cluster.spad s.clusters t.clusters)
    (hk : PartsOf Core.tcm s.cores t.cores) : Wf t := by
  rw [Wf, memWf_iff] at h ⊢
  obtain ⟨hm', hc', hk'⟩ := h
  exact ⟨hm ▸ hm', hc.all hc', hk.all hk'⟩

end

section
variable {α β : Type}

theorem ExcWf.of_ok {ε : Type} {f : α → State} {x : Except ε α} (h : ∀ y, x = .ok y → Wf (f y)) : ExcWf f x := by
  cases x with
  | error e => exact trivial
  | ok y => exact h y rfl

theorem OptWf.of_some {f : α → State} {x : Option α} (h : ∀ y, x = some y → Wf (f y)) : OptWf f x := by
  cases x with
  | none => exact trivial
  | some y => exact h y rfl

theorem RunWf.get {x : Except Res (α × State)} {y : α × State} (h : RunWf x) (e : x = .ok y) : Wf y.2 := by
  rw [e] at h
  exact h

theorem RunWf.err {x : Except Res (α × State)} {r : Res} (h : RunWf x) (e : x = .error r) : ResWf r := by
  rw [e] at h
  exact h

theorem OptWf.get {f : α → State} {x : Option α} {y : α} (h : OptWf f x) (e : x = some y) : Wf (f y) := by
  rw [e] at h
  exact h

theorem ExcWf.get {ε : Type} {f : α → State} {x : Except ε α} {y : α} (h : ExcWf f x) (e : x = .ok y) : Wf (f y) := by
  rw [e] at h
  exact h

theorem OutWf.get {o : Out} {t : State} (h : OutWf o) (e : o = .next t) : Wf t := by
  rw [e] at h
  exact h

theorem bind_run {x : Except Res (α × State)} {f : α × State → Except Res (β × State)} (h : RunWf x)
    (hf : ∀ y, Wf y.2 → RunWf (f y)) : RunWf (x >>= f) := by
  cases x with
  | error r => exact h
  | ok y => exact hf y h

theorem bind_exc {ε : Type} {f : α → State} {g : β → State} {x : Except ε α} {k : α → Except ε β} (h : ExcWf f x)
    (hk : ∀ y, Wf (f y) → ExcWf g (k y)) : ExcWf g (x >>= k) := by
  cases x with
  | error r => exact trivial
  | ok y => exact hk y h

theorem bind_act {m : Act α} {f : α → Act β} (h : ActWf m) (hf : ∀ a, ActWf (f a)) : ActWf (m >>= f) :=
  fun s hs => bind_run (h s hs) fun y hy => hf y.1 y.2 hy

theorem bind_here {f : State → Act β} (hf : ∀ s, Wf s → ActWf (f s)) : ActWf (here >>= f) := fun s hs => hf s hs s hs

theorem pure_act {a : α} : ActWf (pure a : Act α) := fun _ h => h

theorem ite_act {c : Prop} [Decidable c] {m n : Act α} (h : ActWf m) (h' : ActWf n) : ActWf (if c then m else n) := by
  split
  · exact h
  · exact h'

theorem ite_run {c : Prop} [Decidable c] {m n : Except Res (α × State)} (h : RunWf m) (h' : RunWf n) :
    RunWf (if c then m else n) := by
  split
  · exact h
  · exact h'

theorem ite_res {c : Prop} [Decidable c] {m n : Res} (h : ResWf m) (h' : ResWf n) : ResWf (if c then m else n) := by
  split
  · exact h
  · exact h'

theorem ite_out {c : Prop} [Decidable c] {m n : Out} (h : OutWf m) (h' : OutWf n) : OutWf (if c then m else n) := by
  split
  · exact h
  · exact h'

theorem ite_opt {c : Prop} [Decidable c] {f : α → State} {m n : Option α} (h : OptWf f m) (h' : OptWf f n) :
    OptWf f (if c then m else n) := by
  split
  · exact h
  · exact h'

theorem ite_exc {ε : Type} {c : Prop} [Decidable c] {f : α → State} {m n : Except ε α} (h : ExcWf f m) (h' : ExcWf f n) :
    ExcWf f (if c then m else n) := by
  split
  · exact h
  · exact h'

end

end Sys2Proof.Proofs.MemKept
end

section
/-! SUPPORT. The canonical form of the memories, function by function of the model (log 5), in the order of the model's files:
Access, Frames, Home, Ops, Flags, L1, Pushes, Order, Mem. -/

namespace Sys2Proof.Proofs.MemKept

open Sys2Proof Sys2Proof.Machine Sys2Proof.Laws MemForm HomeAccess

/-! ### Machine/Access.lean -/

theorem setStrand_wf {s : State} {p : Place} {x : Strand} (h : Wf s) : Wf (s.setStrand p x) := same_wf h

theorem modStrand_wf {s : State} {p : Place} {f : Strand → Strand} (h : Wf s) : Wf (s.modStrand p f) := setStrand_wf h

theorem setMe_wf {s : State} {x : Strand} (h : Wf s) : Wf (s.setMe x) := setStrand_wf h

theorem modMe_wf {s : State} {f : Strand → Strand} (h : Wf s) : Wf (s.modMe f) := setMe_wf h

theorem modCsr_wf {s : State} {f : StrandCsr → StrandCsr} (h : Wf s) : Wf (s.modCsr f) := modMe_wf h

theorem modMyCore_wf {s : State} {f : Core → Core} (g1 : Wf s) (g2 : SameTcm f) : Wf (s.modMyCore f) := modCore_wf g1 g2

theorem modMyClu_wf {s : State} {f : Cluster → Cluster} (g1 : Wf s) (g2 : SameSpad f) : Wf (s.modMyClu f) := modClu_wf g1 g2

theorem modDie_wf {s : State} {k : Nat} {f : Die → Die} (h : Wf s) : Wf (s.modDie k f) := same_wf h

theorem modPolicy_wf {s : State} {m vf : Nat} {f : Policy → Policy} (h : Wf s) : Wf (s.modPolicy m vf f) :=
  modMod_wf h fun _ => ⟨rfl, rfl, rfl⟩

theorem spawn_wf {s : State} {i : Event} (h : Wf s) : Wf (s.spawn i) := same_wf h

theorem urge_wf {s : State} {i : Event} (h : Wf s) : Wf (s.urge i) := same_wf h

theorem spawns_wf {s : State} {is : List Event} (h : Wf s) : Wf (s.spawns is) := same_wf h

theorem choice_wf {s : State} {n : Nat} (h : Wf s) : Wf (s.choice n).2 := same_wf h

theorem free_wf {s : State} (h : Wf s) : Wf s.free.2 := same_wf h

theorem wakeCore_wf {s : State} {coreKey : Nat} {rs : List ParkReason} (h : Wf s) : Wf (s.wakeCore coreKey rs) := same_wf h

theorem wakeClu_wf {s : State} {cluKey : Nat} {rs : List ParkReason} (h : Wf s) : Wf (s.wakeClu cluKey rs) := same_wf h

theorem count_wf {s : State} {dieKey no : Nat} (h : Wf s) : Wf (s.count dieKey no) := modDie_wf h

theorem logErr_wf {s : State} {dieKey vf kind addr : Nat} (h : Wf s) : Wf (s.logErr dieKey vf kind addr) := modDie_wf h

theorem again_wf {s : State} {i : Event} (h : Wf s) : Wf (s.again i) := spawn_wf h

/-! ### Machine/Frames.lean -/

theorem modPort_wf {s : State} {m pd : Nat} {f : PortDie → PortDie} (h : Wf s) : Wf (s.modPort m pd f) :=
  modMod_wf h fun _ => ⟨rfl, rfl, rfl⟩

theorem modLink_wf {s : State} {m l : Nat} {f : Link → Link} (h : Wf s) : Wf (s.modLink m l f) :=
  modMod_wf h fun _ => ⟨rfl, rfl, rfl⟩

theorem linkError_wf {s : State} {m l : Nat} (h : Wf s) : Wf (linkError s m l) := logErr_wf h

theorem sendFrame_wf {s : State} {m pkg kid : Nat} {prev : Option Nat} {hash : Nat} (h : Wf s) : OptWf Prod.snd (sendFrame s m
    pkg kid prev hash) :=
  .of_some fun ⟨_, _⟩ e => (sendFrame_aside e).keeps h

theorem receiveFrame_wf {s : State} {f : Machine.Frame} {last : Bool} (h : Wf s) : Wf (receiveFrame s f last).2 := by
  unfold receiveFrame
  dsimp only
  split
  · exact ite_wf (spawn_wf (modLink_wf (count_wf (same_wf h)))) (modLink_wf (count_wf (same_wf h)))
  · split
    · exact modLink_wf (same_wf h)
    · exact linkError_wf (count_wf (modLink_wf (same_wf h)))

theorem crossing_wf {s : State} {frm dst kid : Nat} (h : Wf s) : ExcWf id (crossing s frm dst kid) :=
  .of_ok fun _ e => (crossing_aside e).keeps h

/-! ### Machine/Home.lean -/

theorem serveRead_wf {s : State} {m tenant a : Nat} {at' : Attr} {phys : Nat} {alloc : Bool} (h : Wf s) : Wf (serveRead s m
    tenant a at' phys alloc).2.2 :=
  (serveRead_aside ..).keeps h

theorem serveWrite_wf {s0 : State} {m tenant a : Nat} {at' : Attr} {phys mask data poison : Nat} (h : Wf s0) : Wf (serveWrite
    s0 m tenant a at' phys mask data poison) :=
  (serveWrite_aside ..).keeps h

theorem cacheLeaf_wf {s : State} {dk page l : Nat} (h : Wf s) : Wf (cacheLeaf s dk page l) := modDie_wf h

theorem frameStore_wf {s : State} {m p v : Nat} (h : Wf s) : Wf (frameStore s m p v) := serveWrite_wf h

theorem follow_wf {x1 : Nat} {x2 : Bool} {s : State} {x4 x5 x6 x7 : Nat} (h : Wf s) : ExcWf Prod.snd (follow x1 x2 s x4 x5
    x6 x7) :=
  .of_ok fun ⟨_, _⟩ e => (follow_aside _ e).keeps h

theorem targetBy_wf {kid : Nat} {s : State} {m tenant a : Nat} (h : Wf s) : ExcWf Prod.snd (targetBy kid s m tenant a) :=
  .of_ok fun ⟨_, _⟩ e => (targetBy_aside e).keeps h

theorem target_wf {s : State} {m tenant a : Nat} (h : Wf s) : ExcWf Prod.snd (target s m tenant a) := targetBy_wf h

theorem readTarget_wf {s : State} {t : Target} {tenant a : Nat} (h : Wf s) : ExcWf (·.2.2) (readTarget s t tenant a) :=
  .of_ok fun ⟨_, _, _⟩ e => (readTarget_aside e).keeps h

theorem writeTarget_wf {s : State} {t : Target} {tenant a mask data poison : Nat} (h : Wf s) : ExcWf id (writeTarget s t tenant
    a mask data poison) :=
  .of_ok fun _ e => (writeTarget_aside e).keeps h

theorem rightsByte_wf {s : State} {m tenant dom : Nat} (h : Wf s) : ExcWf Prod.snd (rightsByte s m tenant dom) :=
  .of_ok fun ⟨_, _⟩ e => (rightsByte_aside e).keeps h

theorem sysTargetBy_wf {kid : Nat} {s : State} {m tenant a : Nat} {kind : Access} (h : Wf s) : ExcWf Prod.snd (sysTargetBy kid
    s m tenant a kind) :=
  .of_ok fun ⟨_, _⟩ e => (sysTargetBy_aside e).keeps h

theorem sysTarget_wf {s : State} {m tenant a : Nat} {kind : Access} (h : Wf s) : ExcWf Prod.snd (sysTarget s m tenant a kind) :=
  sysTargetBy_wf h

theorem capturedTarget_wf {s : State} {m tenant a leaf : Nat} (h : Wf s) : ExcWf Prod.snd (capturedTarget s m tenant a leaf) := by
  unfold capturedTarget
  split
  · exact target_wf h
  · extract_lets
    split
    · split
      · exact trivial
      · split
        · exact trivial
        · split
          · exact trivial
          · next h1 => exact follow_wf ((crossing_wf h).get h1 :)
    · exact trivial
    · exact trivial
    · exact trivial
    · exact ite_exc trivial h

theorem sysCheck_wf {s : State} {m tenant : Nat} {priv : Bool} {kind : Access} {t : Target} {a : Nat} (h : Wf s) : ExcWf id
    (sysCheck s m tenant priv kind t a) :=
  .of_ok fun _ e => (sysCheck_aside e).keeps h

theorem placedRead_wf {s : State} {m tenant a n part : Nat} {priv : Bool} (h : Wf s) : ExcWf Prod.snd (placedRead s m tenant a
    n part priv) :=
  .of_ok fun ⟨_, _⟩ e => (placedRead_aside e).keeps h

theorem fireMonitors_wf {s : State} {cluKey a n : Nat} (h : Wf s) : Wf (fireMonitors s cluKey a n) :=
  (fireMonitors_aside ..).keeps h

theorem placedWrite_wf {s : State} {m tenant a n x part : Nat} {priv : Bool} (h : Wf s) : ExcWf id (placedWrite s m tenant a n
    x part priv) :=
  .of_ok fun _ e => (placedWrite_aside e).keeps h

theorem sysReadSec_wf {kid : Nat} {s : State} {m tenant part : Nat} {priv : Bool} {a n : Nat} (h : Wf s) : ExcWf Prod.snd
    (sysReadSec kid s m tenant part priv a n) :=
  .of_ok fun ⟨_, _⟩ e => (sysReadSec_aside e).keeps h

theorem sysReadBy_wf {kid x1 : Nat} {s : State} {x3 x4 x5 : Nat} {x6 : Bool} {x7 x8 : Nat} (h : Wf s) : ExcWf Prod.snd
    (sysReadBy kid x1 s x3 x4 x5 x6 x7 x8) :=
  .of_ok fun ⟨_, _⟩ e => (sysReadBy_aside _ e).keeps h

theorem sysRead_wf {fuel : Nat} {s : State} {m tenant part : Nat} {priv : Bool} {a n : Nat} (h : Wf s) : ExcWf Prod.snd
    (sysRead fuel s m tenant part priv a n) :=
  sysReadBy_wf h

theorem sysWriteSec_wf {kid : Nat} {s : State} {m tenant part : Nat} {priv : Bool} {a n x : Nat} (h : Wf s) : ExcWf id
    (sysWriteSec kid s m tenant part priv a n x) :=
  .of_ok fun _ e => (sysWriteSec_aside e).keeps h

theorem sysWriteBy_wf {kid x1 : Nat} {s : State} {x3 x4 x5 : Nat} {x6 : Bool} {x7 x8 x9 : Nat} (h : Wf s) : ExcWf id
    (sysWriteBy kid x1 s x3 x4 x5 x6 x7 x8 x9) :=
  .of_ok fun _ e => (sysWriteBy_aside _ e).keeps h

theorem sysWrite_wf {fuel : Nat} {s : State} {m tenant part : Nat} {priv : Bool} {a n x : Nat} (h : Wf s) : ExcWf id (sysWrite
    fuel s m tenant part priv a n x) :=
  sysWriteBy_wf h

theorem superRead_wf {s : State} {m tenant a n : Nat} (h : Wf s) : ExcWf Prod.snd (superRead s m tenant a n) := sysReadBy_wf h

theorem superWrite_wf {s : State} {m tenant a n x : Nat} (h : Wf s) : ExcWf id (superWrite s m tenant a n x) := sysWriteBy_wf h

theorem raiseFaultPost_wf {s : State} {m vf : Nat} (h : Wf s) : Wf (raiseFaultPost s m vf) := spawns_wf (same_wf h)

theorem logMalformed_wf {s : State} {m vf : Nat} {e : Fail × Nat} (h : Wf s) : Wf (logMalformed s m vf e) :=
  (TrapEntries.logMalformed_aside ..).keeps h

theorem tryPost_wf {s : State} {m : Nat} {p : Post} (h : Wf s) : ExcWf id (tryPost s m p) := by
  unfold tryPost
  dsimp only
  split
  · exact trivial
  · split
    · exact trivial
    · next h1 =>
        split
        · exact trivial
        · split
          · exact trivial
          · next h2 =>
              split
              · exact trivial
              · next h3 =>
                  exact raiseFaultPost_wf ((superWrite_wf ((superWrite_wf ((superRead_wf h).get h1 :)).get h2 :)).get h3 :)

theorem postAll_wf {m : Nat} {x1 : List Post} {s : State} (h : Wf s) : Wf (postAll m x1 s).2 := by
  induction x1 generalizing s with
  | nil => exact h
  | cons p ps ih =>
    unfold postAll
    split
    · next heq => exact ih ((tryPost_wf h).get heq)
    · dsimp only
      split
      · exact ih h
      · exact ih (logMalformed_wf h)

theorem drainPosts_wf {s : State} {m : Nat} (h : Wf s) : Wf (drainPosts s m) :=
  modMod_wf (postAll_wf h) fun _ => ⟨rfl, rfl, rfl⟩

theorem postFault_wf {s : State} {m dk : Nat} {p : Post} (h : Wf s) : Wf (postFault s m dk p) := by
  unfold postFault
  extract_lets
  split
  · exact logErr_wf (count_wf (modMod_wf h fun _ => ⟨rfl, rfl, rfl⟩))
  · split
    · next h1 => exact ((tryPost_wf h).get h1 :)
    · exact spawn_wf (logErr_wf (count_wf (modMod_wf h fun _ => ⟨rfl, rfl, rfl⟩)))
    · exact spawn_wf (logErr_wf (count_wf (modMod_wf (logMalformed_wf h) fun _ => ⟨rfl, rfl, rfl⟩)))

theorem postOwner_wf {s : State} {f : Fail} {p : Post} (h : Wf s) : Wf (postOwner s f p) := by
  unfold postOwner
  split
  · exact postFault_wf h
  · exact h

theorem noteLost_wf {s : State} {f : Fail} (h : Wf s) : Wf (noteLost s f) := by
  unfold noteLost
  split
  · exact ite_wf h (linkError_wf (count_wf h))
  · exact h

theorem clearPinned_wf {s : State} {m : Nat} (h : Wf s) : Wf (clearPinned s m) := by
  refine foldl_wf h fun t dk ht => ite_wf ht (modDie_wf ?_)
  exact Keeps.modMod (fun _ hx => foldl_module_wf (fun _ v hy => l2WriteBack_wf v hy) _ hx) ht

/-! ### Machine/Ops.lean -/

theorem stop_wf {α : Type} {r : Res} (h : ResWf r) : ActWf (stop r : Act α) := fun _ _ => h

theorem raise_wf {α : Type} {c : Cause} {addr info : Nat} : ActWf (raise c addr info : Act α) := stop_wf trivial

theorem parkOn_wf {α : Type} {r : ParkReason} : ActWf (parkOn r : Act α) := fun _ h1 => h1

theorem parkSent_wf {α : Type} {r : ParkReason} : ActWf (parkSent r : Act α) := fun _ h1 => h1

theorem change_wf {f : State → State} (h : ∀ t, Wf t → Wf (f t)) : ActWf (change f) := fun _ h1 => h _ h1

theorem res_wf {m : Act Unit} {s : State} (g1 : ActWf m) (g2 : Wf s) : ResWf (m.res s) := by
  unfold Act.res
  split
  · next h1 => exact ((g1 _ g2).get h1 :)
  · next h2 => exact ((g1 _ g2).err h2 :)

theorem wg_wf {s : State} {r : GReg} {v : Word} (h : Wf s) : Wf (wg s r v) := ite_wf h (modMe_wf h)

theorem wk_wf {s : State} {r : KReg} {v : BitVec 32} (h : Wf s) : Wf (wk s r v) := modMe_wf h

theorem illegal_wf {α : Type} {op : Nat} : ActWf (illegal op : Act α) := fun _ _ => trivial

theorem reserved_wf {α : Type} {sub : Nat} : ActWf (reserved sub : Act α) := fun _ _ => trivial

theorem needSuper_wf {op : Nat} : ActWf (needSuper op) := fun _ h1 => ite_run h1 trivial

theorem memTrap_wf {α : Type} {c : Cause} {addr : Nat} {k : Access} : ActWf (memTrap c addr k : Act α) := raise_wf

theorem giveAnswer_wf {s : State} {p : Place} {code value : Nat} (h : Wf s) : Wf (giveAnswer s p code value) := modStrand_wf h

theorem releaseHolds_wf {s : State} {cluKey slot : Nat} (h : Wf s) : Wf (releaseHolds s cluKey slot) :=
  foldl_wf h (fun _ _ h1 => ite_wf (giveAnswer_wf h1) h1)

theorem leaveCourse_wf {s : State} {p : Place} {stay : Bool} (h : Wf s) : Wf (leaveCourse s p stay) :=
  releaseHolds_wf (modStrand_wf (modClu_wf h fun _ => rfl))

theorem freeBuf_wf {s : State} {core : Nat} {l : LoopLevel} (h : Wf s) : Wf (freeBuf s core l) := by
  unfold freeBuf
  split
  · exact h
  · exact modCore_wf h fun _ => rfl

theorem freeBufs_wf {s : State} {p : Place} (h : Wf s) : Wf (freeBufs s p) :=
  modStrand_wf (foldl_wf h (fun _ _ h1 => freeBuf_wf h1))

theorem noteEvent_wf {s : State} {n : Nat} (h : Wf s) : Wf (noteEvent s n) := same_wf h

theorem endEvent_wf {s : State} (h : Wf s) : Wf (endEvent s) := by
  unfold endEvent
  extract_lets
  split
  · exact setMe_wf h
  · dsimp only
    split
    · exact ite_wf (setMe_wf h) (noteEvent_wf (setMe_wf h))
    · exact noteEvent_wf (freeBuf_wf (setMe_wf h))

theorem modUnit_wf {s : State} {coreKey i : Nat} {f : SUnit → SUnit} (h : Wf s) : Wf (s.modUnit coreKey i f) :=
  modCore_wf h fun _ => rfl

theorem takeElements_wf {s : State} (h : Wf s) : Wf (takeElements s) := foldl_wf h (fun _ _ h1 => modUnit_wf h1)

theorem retire_wf {s : State} (h : Wf s) : Wf (retire s) := same_wf (modMe_wf (endEvent_wf (takeElements_wf h)))

theorem abandon_wf {s : State} {p : Place} (h : Wf s) : Wf (abandon s p) :=
  ite_wf h (ite_wf (modStrand_wf h) (ite_wf (modCore_wf (modStrand_wf h) fun _ => rfl) (spawn_wf (same_wf (modCore_wf
      (modStrand_wf h) fun _ => rfl)))))

theorem doubleTrap_wf {s : State} {p : Place} {c : Cause} {bundle : Nat} (h : Wf s) : Wf (doubleTrap s p c bundle) :=
  postFault_wf (logErr_wf (logErr_wf (modStrand_wf (leaveCourse_wf h))))

theorem logCause_wf {s : State} {p : Place} {c : Cause} {addr : Nat} (h : Wf s) : Wf (logCause s p c addr) := by
  unfold logCause
  extract_lets
  split
  · exact logErr_wf h
  · exact count_wf h
  · split
    · exact count_wf (logErr_wf h)
    · exact postFault_wf (ite_wf h (count_wf h))
  · exact h

theorem syncTrap_wf {s : State} {p : Place} {c : Cause} {addr info ret bundle : Nat} (h : Wf s) : Wf (syncTrap s p c addr info
    ret bundle) :=
  ite_wf (doubleTrap_wf (logCause_wf (abandon_wf h))) (modStrand_wf (leaveCourse_wf (logCause_wf (abandon_wf h))))

theorem eatError_wf {s : State} (h : Wf s) : Wf (eatError s) := by
  unfold eatError
  split
  · exact h
  · exact modMe_wf h

theorem trapBundle_wf {s : State} {c : Cause} {addr info : Nat} (h : Wf s) : Wf (trapBundle s c addr info) :=
  same_wf (syncTrap_wf (eatError_wf h))

theorem parkBundle_wf {s : State} {r : ParkReason} {sent : Bool} (h : Wf s) : Wf (parkBundle s r sent) := same_wf (modMe_wf h)

theorem markGone_wf {s : State} (h : Wf s) : Wf (markGone s) := same_wf h

theorem endWord_wf {t : State} (h : Wf t) : Wf (endWord t) := by
  unfold endWord
  split
  · exact retire_wf h
  · exact same_wf h
  · exact same_wf h

theorem done_out {t : State} (h : Wf t) : OutWf (.next (endWord t)) := endWord_wf h

theorem trapWord_wf {s : State} {c : Cause} {addr info : Nat} (h : Wf s) : Wf (trapWord s c addr info) := by
  unfold trapWord
  split
  · exact trapBundle_wf h
  · exact same_wf h
  · exact same_wf h

theorem parkWord_wf {t : State} {r : ParkReason} {sent : Bool} (h : Wf t) : Wf (parkWord t r sent) := by
  unfold parkWord
  split
  · exact parkBundle_wf h
  · exact same_wf h
  · exact same_wf h

theorem finish_wf {s : State} {r : Res} (g1 : Wf s) (g2 : ResWf r) : OutWf (finish s r) := by
  unfold finish
  split
  · exact endWord_wf g2
  · exact trapWord_wf g1
  · exact parkWord_wf g2
  · exact markGone_wf g2

theorem returnTrap_wf {s : State} (h : Wf s) : Wf (returnTrap s) := same_wf (setMe_wf h)

theorem jump_wf {s : State} {target : Nat} (h : Wf s) : Wf (jump s target) := same_wf h

theorem send_wf {s : State} {m : Msg} (h : Wf s) : Wf (s.send m) := same_wf h

theorem note_wf {s : State} {n : Note} (h : Wf s) : Wf (s.note n) := same_wf h

theorem reply_wf {s : State} {r : Reply} (h : Wf s) : Wf (s.reply r) := spawn_wf (same_wf h)

theorem ask_wf {s : State} {n : Nat} (h : Wf s) : Wf (ask s n) := modMe_wf h

theorem modCtx_wf {s : State} {clu i : Nat} {f : KCtx → KCtx} (h : Wf s) : Wf (s.modCtx clu i f) := modClu_wf h fun _ => rfl

theorem pokeDie_wf {s : State} {dk : Nat} (h : Wf s) : Wf (pokeDie s dk) := same_wf h

theorem freeContext_wf {s : State} {clu i : Nat} (h : Wf s) : Wf (freeContext s clu i) := pokeDie_wf (modCtx_wf h)

theorem quitWait_wf {p : Place} {clu : Nat} {s : State} {i : Nat} (h : Wf s) : Wf (quitWait p clu s i) :=
  ite_wf h (ite_wf (freeContext_wf (modCtx_wf h)) (modCtx_wf h))

theorem quitWaits_wf {s : State} {p : Place} (h : Wf s) : Wf (quitWaits s p) := foldl_wf h (fun _ _ h1 => quitWait_wf h1)

/-! ### Machine/Flags.lean -/

theorem setFlags_wf {s : State} {fl : Nat} (h : Wf s) : Wf (setFlags s fl) := modCsr_wf h

theorem setSeed_wf {s : State} {x : BitVec 32} (h : Wf s) : Wf (setSeed s x) := modCsr_wf h

theorem copySeed_wf {s : State} (h : Wf s) : Wf (copySeed s).2 := setSeed_wf h

/-! ### Machine/L1.lean -/

theorem noFill_wf {s : State} {coreKey : Nat} {q : Nat → Bool} (h : Wf s) : Wf (s.noFill coreKey q) := same_wf h

theorem overtake_wf {s : State} {coreKey sec : Nat} (h : Wf s) : Wf (s.overtake coreKey sec) := same_wf h

theorem sendWb_wf {s0 : State} {coreKey line idx : Nat} {x : L1Sec} (h : Wf s0) : Wf (sendWb s0 coreKey line idx x) :=
  ite_wf h (spawn_wf (send_wf (overtake_wf h)))

theorem sendLineWb_wf {s : State} {coreKey : Nat} {l : L1Line} (h : Wf s) : Wf (sendLineWb s coreKey l) :=
  foldl_wf h (fun _ _ h1 => sendWb_wf h1)

theorem l1Put_wf {s : State} {coreKey a : Nat} {l : L1Line} {x : L1Sec} (h : Wf s) : Wf (l1Put s coreKey a l x) :=
  modCore_wf h fun _ => rfl

theorem l1Alloc_wf {s : State} {coreKey a : Nat} (h : Wf s) : Wf (l1Alloc s coreKey a).2 := by
  unfold l1Alloc
  dsimp only
  split
  · exact h
  · split
    · exact h
    · split
      · exact h
      · exact modCore_wf (noFill_wf (sendLineWb_wf h)) fun _ => rfl

theorem l1Fill_wf {s : State} {coreKey tenant a : Nat} {at' : Attr} {data poison : Nat} (h : Wf s) : Wf (l1Fill s coreKey
    tenant a at' data poison) :=
  l1Put_wf (l1Alloc_wf h)

theorem l1Reserve_wf {s : State} {coreKey tenant a : Nat} {at' : Attr} (h : Wf s) : Wf (l1Reserve s coreKey tenant a at') := by
  unfold l1Reserve
  dsimp only
  split <;> exact l1Put_wf (l1Alloc_wf h)

theorem waitAbsent_wf {s : State} {p : Place} {a : Nat} {k : Access} (h : Wf s) : Wf (waitAbsent s p a k) := by
  unfold waitAbsent
  extract_lets
  split
  · exact modStrand_wf (modDie_wf h)
  · exact modStrand_wf (postFault_wf (modDie_wf h))

theorem absent_wf {α : Type} {a : Nat} {k : Access} : ActWf (absent a k : Act α) := fun _ h1 => waitAbsent_wf h1

theorem plbPut_wf {s : State} {e : PlbEntry} (h : Wf s) : Wf (plbPut s e) := modMyCore_wf h fun _ => rfl

theorem noRights_wf {a : Nat} {k : Access} {f : Fail} : ActWf (noRights a k f) :=
  fun _ h1 => ite_run trivial (ite_run (ite_wf (spawn_wf h1) h1) (spawn_wf (ask_wf (noteLost_wf h1))))

theorem plbRefill_wf {dom : Nat} {k : Access} : ActWf (plbRefill dom k) := by
  unfold plbRefill
  intro _ h1
  dsimp only
  split
  · exact ite_run (absent_wf _ (postOwner_wf h1)) (ite_run (noRights_wf _ h1) trivial)
  · next h2 => exact ite_wf ((rightsByte_wf h1).get h2 :) (plbPut_wf ((rightsByte_wf h1).get h2 :))

theorem needRights_wf {a dom : Nat} {k : Access} : ActWf (needRights a dom k) := by
  unfold needRights
  intro _ h1
  dsimp only
  split
  · exact ite_run h1 trivial
  · split
    · split
      · next h2 => exact ((plbRefill_wf _ h1).err h2 :)
      · next h3 => exact ite_run ((plbRefill_wf _ h1).get h3 :) trivial
    · split
      · exact plbPut_wf h1
      · split
        · next h4 => exact ((plbRefill_wf _ h1).err h4 :)
        · next h5 => exact ite_run ((plbRefill_wf _ h1).get h5 :) trivial

theorem request_wf {α : Type} {a : Nat} {k : Access} {data fill : Bool} : ActWf (request a k data fill : Act α) :=
  fun _ h1 => ite_run h1 (spawn_wf (send_wf (ask_wf h1)))

theorem dropClaims_wf {s : State} {p : Place} (h : Wf s) : Wf (dropClaims s p) :=
  ite_wf (spawn_wf (modDie_wf (modClu_wf (quitWaits_wf (freeBufs_wf (leaveCourse_wf h))) fun _ => rfl))) (modClu_wf
      (quitWaits_wf (freeBufs_wf (leaveCourse_wf h))) fun _ => rfl)

theorem emptySlot_wf {s : State} {p : Place} (h : Wf s) : Wf (emptySlot s p) := setStrand_wf (dropClaims_wf h)

theorem moveCharge_wf {s : State} {frm dst cls : Nat} (h : Wf s) : Wf (moveCharge s frm dst cls) :=
  ite_wf h (spawn_wf (modDie_wf (modDie_wf h)))

theorem sendContext_wf {s : State} {p dst : Place} {resume : Nat} {wr : Option (Nat × Word)} (h : Wf s) : Wf (sendContext s p
    dst resume wr) :=
  spawn_wf (modClu_wf (moveCharge_wf (emptySlot_wf h)) fun _ => rfl)

theorem waitTravel_wf {s : State} {p : Place} {cluKey : Nat} {cores : List Nat} (h : Wf s) : Wf (waitTravel s p cluKey cores) :=
  ite_wf h (spawn_wf (count_wf (modStrand_wf (modClu_wf h fun _ => rfl))))

theorem depart_wf {s : State} {p : Place} {cluKey : Nat} {cores : List Nat} {resume : Nat} {wr : Option (Nat × Word)} (h : Wf
    s) : ResWf (depart s p cluKey cores resume wr) := by
  unfold depart
  split
  · exact ite_res (waitTravel_wf h) (sendContext_wf h)
  · exact waitTravel_wf h

/-! ### Machine/Pushes.lean -/

theorem asPlace_wf {α : Type} {p : Place} {f : State → α × State} {s : State} (g1 : ∀ t, Wf t → Wf (f t).2) (g2 : Wf s) : Wf
    (asPlace p f s).2 :=
  same_wf (g1 _ (same_wf g2))

theorem placedStore_wf {s : State} {a n mask x : Nat} (h : Wf s) : Wf (placedStore s a n mask x) := by
  refine fireMonitors_wf (ite_wf ?_ ?_)
  · exact Keeps.modCore (fun c hc => writeMask_wf _ _ _ _ _ hc) h
  · exact Keeps.modClu (fun c hc => writeMask_wf _ _ _ _ _ hc) h

theorem sendStore_wf {s : State} {a n mask x : Nat} {at' : Attr} (h : Wf s) : Wf (sendStore s a n mask x at') :=
  spawn_wf (send_wf (overtake_wf h))

theorem l1Write_wf {s : State} {a n mask x : Nat} {l : L1Line} {o : L1Sec} (h : Wf s) : Wf (l1Write s a n mask x l o) :=
  l1Put_wf h

theorem l1Through_wf {s : State} {a n mask x : Nat} {l : L1Line} {o : L1Sec} (h : Wf s) : Wf (l1Through s a n mask x l o) :=
  l1Put_wf h

theorem writeSector_wf {s : State} {a n mask x : Nat} {fill : Bool} {at' : Attr} (h : Wf s) : Wf (writeSector s a n mask x fill
    at') := by
  unfold writeSector
  split
  · exact ite_wf (l1Write_wf h) (sendStore_wf (l1Through_wf h))
  · split
    · extract_lets
      split
      · exact l1Write_wf (l1Reserve_wf h)
      · exact sendStore_wf (l1Reserve_wf h)
    · exact sendStore_wf h

theorem pushStore_wf {w : Push} {s : State} (h : Wf s) : Wf (pushStore w s) := ite_wf (placedStore_wf h) (writeSector_wf h)

theorem pushOne_wf {core unit : Nat} {s : State} (h : Wf s) : Wf (pushOne core unit s) := by
  unfold pushOne
  extract_lets
  split
  · exact modUnit_wf (asPlace_wf (fun _ h1 => pushStore_wf h1) h)
  · exact h

theorem drainSlot_wf {core slot x1 : Nat} {s : State} (h : Wf s) : Wf (drainSlot core slot x1 s) := by
  induction x1 generalizing s with
  | zero => exact h
  | succ n ih =>
    unfold drainSlot
    split
    · exact h
    · exact ih (pushOne_wf h)

theorem drainPushes_wf {s : State} {p : Place} (h : Wf s) : Wf (drainPushes s p) := drainSlot_wf h

/-! ### Machine/Order.lean -/

theorem markTarget_wf {s : State} {a : Nat} {at' : Attr} (h : Wf s) : Wf (markTarget s a at') := modCsr_wf h

theorem writeBackWhere_wf {s : State} {coreKey : Nat} {p : Nat → L1Sec → Bool} (h : Wf s) : Wf (writeBackWhere s coreKey p) :=
  modCore_wf (foldl_wf h (fun _ _ h1 => foldl_wf h1 (fun _ _ h2 => ite_wf (sendWb_wf h2) h2))) fun _ => rfl

theorem dropWhere_wf {s : State} {coreKey : Nat} {p : Nat → L1Sec → Bool} (h : Wf s) : Wf (dropWhere s coreKey p) :=
  modCore_wf h fun _ => rfl

theorem startRelease_wf {s : State} {p : Place} {sc : Scope} (h : Wf s) : Wf (startRelease s p sc) :=
  modStrand_wf (foldl_wf (writeBackWhere_wf h) (fun _ _ h1 => ite_wf h1 (spawn_wf (send_wf h1))))

theorem release_wf {sc : Scope} : ActWf (release sc) :=
  fun _ h1 => ite_run (drainPushes_wf h1) (ite_run (writeBackWhere_wf (drainPushes_wf h1)) (ite_run (startRelease_wf
      (drainPushes_wf h1)) (drainPushes_wf h1)))

theorem dropElements_wf {s : State} {p : Place} (h : Wf s) : Wf (dropElements s p) := spawns_wf (modCore_wf h fun _ => rfl)

theorem acquireAt_wf {s0 : State} {p : Place} {sc : Scope} (h : Wf s0) : Wf (acquireAt s0 p sc) := by
  unfold acquireAt
  refine dropElements_wf (modCore_wf ?_ fun _ => rfl)
  split
  · exact drainPushes_wf h
  · exact drainPushes_wf h
  · exact noFill_wf (drainPushes_wf h)
  · exact noFill_wf (drainPushes_wf h)
  · exact noFill_wf (drainPushes_wf h)
  · exact noFill_wf (drainPushes_wf h)
  · exact noFill_wf (drainPushes_wf h)

theorem acquire_wf {sc : Scope} : ActWf (acquire sc) := ite_act pure_act (change_wf (fun _ h1 => acquireAt_wf h1))

theorem clamp_wf {sc : Scope} : ActWf (clamp sc) := fun _ h1 => ite_run h1 (ite_run trivial h1)

theorem noteClamp_wf {sc : Scope} : ActWf (noteClamp sc) := change_wf (fun _ h1 => ite_wf h1 (modCsr_wf h1))

theorem scopeOr_wf {sc dflt : Scope} : ActWf (scopeOr sc dflt) := by
  unfold scopeOr
  intro _ h1
  dsimp only
  split
  · exact h1
  · exact clamp_wf _ h1

/-! ### Machine/Mem.lean -/

theorem pushesFirst_wf : ActWf pushesFirst := change_wf (fun _ h1 => drainPushes_wf h1)

theorem travel_wf {α : Type} {a : Nat} {k : Access} {cluKey : Nat} {cores : List Nat} : ActWf (travel a k cluKey cores : Act α) := by
  unfold travel
  intro _ h1
  dsimp only
  split
  · split
    · next h2 => exact ((release_wf _ h1).err h2 :)
    · next h3 => exact depart_wf ((release_wf _ h1).get h3 :)
  · exact trivial

theorem placedAt_wf {a : Nat} {k : Access} : ActWf (placedAt a k) :=
  fun _ h1 => ite_run (ite_run trivial trivial) (ite_run trivial (ite_run (ite_run trivial (ite_run (travel_wf _ h1) (ite_run
      trivial (needRights_wf _ h1)))) (ite_run (travel_wf _ h1) (ite_run (ite_run h1 (ite_run trivial (ite_run trivial
      (needRights_wf _ h1)))) (needRights_wf _ h1)))))

theorem placedCheck_wf {a : Nat} {k : Access} : ActWf (placedCheck a k) := bind_act pushesFirst_wf (fun _ => placedAt_wf)

theorem bankTurn_wf {a n : Nat} {k : Access} : ActWf (bankTurn a n k) := by
  unfold bankTurn
  intro _ h1
  dsimp only
  split
  · exact h1
  · split
    · exact ite_run h1 h1
    · exact ite_run (same_wf (modMyClu_wf h1 fun _ => rfl)) (modMe_wf (same_wf (modMyClu_wf h1 fun _ => rfl)))

theorem placedRun_wf {a n : Nat} {k : Access} : ActWf (placedRun a n k) := by
  unfold placedRun
  intro _ h1
  dsimp only
  split
  · next h2 => exact (((bind_act placedCheck_wf (fun _ => bankTurn_wf)) _ h1).err h2 :)
  · next h3 =>
      split
      · exact (((bind_act placedCheck_wf (fun _ => bankTurn_wf)) _ h1).get h3 :)
      · split
        · exact (((bind_act placedCheck_wf (fun _ => bankTurn_wf)) _ h1).get h3 :)
        · split
          · exact trivial
          · split
            · exact (((bind_act placedCheck_wf (fun _ => bankTurn_wf)) _ h1).get h3 :)
            · exact trivial

theorem unpoisoned_wf {k : Access} {x : Nat × Option Nat} : ActWf (unpoisoned k x) := by
  unfold unpoisoned
  split
  · exact pure_act
  · exact memTrap_wf

theorem placedLoad_wf {a n : Nat} {k : Access} : ActWf (placedLoad a n k) := bind_act placedRun_wf (fun _ => unpoisoned_wf)

theorem storeTaken_wf {a : Nat} {k : Access} : ActWf (storeTaken a k) := ite_act (ite_act memTrap_wf memTrap_wf) pure_act

theorem placedStoreCheck_wf {a : Nat} {k : Access} : ActWf (placedStoreCheck a k) :=
  bind_act placedCheck_wf (fun _ => storeTaken_wf)

theorem attrCheck_wf {a : Nat} {k : Access} {at' : Attr} : ActWf (attrCheck a k at') := by
  unfold attrCheck
  intro _ h1
  dsimp only
  split
  · next h2 => exact ((needRights_wf _ h1).err h2 :)
  · next h3 => exact ite_run trivial (ite_run trivial (ite_run trivial (ite_run trivial ((needRights_wf _ h1).get h3 :))))

theorem travelCheck_wf {a : Nat} {k : Access} {at' : Attr} : ActWf (travelCheck a k at') :=
  fun _ h1 => ite_run (travel_wf _ h1) h1

theorem sectorAt_wf {a n : Nat} {k : Access} {data fill : Bool} : ActWf (sectorAt a n k data fill) := by
  unfold sectorAt
  intro _ h1
  dsimp only
  split
  · exact h1
  · split
    · exact trivial
    · split
      · exact (bind_act travelCheck_wf (fun _ => absent_wf)) _ h1
      · exact trivial
      · exact trivial
      · exact ite_run h1 trivial
      · exact ite_run h1 trivial
      · exact (bind_act travelCheck_wf (fun _ => bind_act attrCheck_wf (fun _ => pure_act))) _ h1
      · split
        · exact request_wf _ h1
        · split
          · exact request_wf _ h1
          · split
            · exact request_wf _ h1
            · split
              · next h2 => exact (((bind_act travelCheck_wf (fun _ => attrCheck_wf)) _ h1).err h2 :)
              · next h3 =>
                  split
                  · exact (((bind_act travelCheck_wf (fun _ => attrCheck_wf)) _ h1).get h3 :)
                  · exact l1Put_wf (((bind_act travelCheck_wf (fun _ => attrCheck_wf)) _ h1).get h3 :)

theorem sectorFor_wf {a n : Nat} {k : Access} {data fill : Bool} : ActWf (sectorFor a n k data fill) :=
  bind_act pushesFirst_wf (fun _ => sectorAt_wf)

theorem loadRun_wf {a n : Nat} {k : Access} {fill : Bool} : ActWf (loadRun a n k fill) :=
  ite_act placedRun_wf (bind_act sectorFor_wf (fun _ => pure_act))

theorem loadBytes_wf {x1 x2 x3 : Nat} {x4 : Access} {x5 : Bool} : ActWf (loadBytes x1 x2 x3 x4 x5) := by
  induction x1 generalizing x2 x3 with
  | zero => exact pure_act
  | succ n ih => exact ite_act pure_act (bind_act loadRun_wf fun _ => bind_act ih fun _ => pure_act)

theorem load_wf {a n : Nat} {fill : Bool} : ActWf (load a n fill) := bind_act loadBytes_wf (fun _ => unpoisoned_wf)

theorem loadTwo_wf {a n b m : Nat} : ActWf (loadTwo a n b m) :=
  bind_act loadBytes_wf (fun _ => bind_act loadBytes_wf (fun _ => bind_act unpoisoned_wf (fun _ => bind_act unpoisoned_wf (fun
      _ => pure_act))))

theorem storeCheckRun_wf {a n : Nat} {k : Access} {fill : Bool} : ActWf (storeCheckRun a n k fill) := by
  unfold storeCheckRun
  intro _ h1
  dsimp only
  split
  · exact (bind_act placedStoreCheck_wf (fun _ => bankTurn_wf)) _ h1
  · split
    · next h2 => exact ((sectorFor_wf _ h1).err h2 :)
    · next h3 => exact ((sectorFor_wf _ h1).get h3 :)

theorem storeCheck_wf {x1 x2 x3 : Nat} {x4 : Access} {x5 : Bool} : ActWf (storeCheck x1 x2 x3 x4 x5) := by
  induction x1 generalizing x2 x3 with
  | zero => exact pure_act
  | succ n ih => exact ite_act pure_act (bind_act storeCheckRun_wf fun _ => ih)

theorem storeRun_wf {s0 s : State} {a n mask x : Nat} {fill : Bool} (_g1 : Wf s0) (g2 : Wf s) : Wf (storeRun s0 s a n mask x
    fill) := by
  unfold storeRun
  split
  · exact placedStore_wf g2
  · split
    · exact markTarget_wf (writeSector_wf g2)
    · exact g2

theorem storeBytes_wf {x1 : Nat} {x2 x3 : State} {x4 x5 x6 x7 : Nat} {x8 : Bool} (g1 : Wf x2) (g2 : Wf x3) : Wf (storeBytes x1
    x2 x3 x4 x5 x6 x7 x8) := by
  induction x1 generalizing x3 x4 x5 x6 x7 with
  | zero => exact g2
  | succ n ih => exact ite_wf g2 (ih (ite_wf g2 (storeRun_wf g1 g2)))

theorem store_wf {a n x : Nat} {fill : Bool} : ActWf (store a n x fill) :=
  bind_act storeCheck_wf (fun _ => change_wf (fun _ h1 => storeBytes_wf h1 h1))

theorem aligned_wf {a w : Nat} {k : Access} : ActWf (aligned a w k) := ite_act pure_act memTrap_wf

theorem ownSteady_wf {a n : Nat} : ActWf (ownSteady a n) := fun _ h1 => ite_run h1 h1

theorem localStruct_wf {a n : Nat} : ActWf (localStruct a n) :=
  bind_act ownSteady_wf (fun _ => ite_act (bind_act placedLoad_wf (fun _ => pure_act)) pure_act)

end Sys2Proof.Proofs.MemKept
end

section
/-! SUPPORT. The canonical form of the memories, function by function of the model (log 5), in the order of the model's files:
Operands, Vector, Waits, Engines, Power, Bte, Ixe. -/

namespace Sys2Proof.Proofs.MemKept

open Sys2Proof Sys2Proof.Machine Sys2Proof.Laws MemForm HomeAccess

/-! ### Machine/Operands.lean -/

theorem spawnOnce_wf {s : State} {e : Event} (h : Wf s) : Wf (spawnOnce s e) := ite_wf h (spawn_wf h)

theorem rv_wf {r : VReg} : ActWf (rv r) := by
  unfold rv
  intro _ h1
  dsimp only
  split
  · exact h1
  · split
    · exact h1
    · split
      · exact trivial
      · split
        · exact spawnOnce_wf h1
        · exact same_wf h1
        · exact trivial
        · exact absent_wf _ h1
        · exact ite_run (spawnOnce_wf h1) trivial

theorem rv2_wf {a b : VReg} : ActWf (rv2 a b) := bind_act rv_wf (fun _ => ite_act pure_act (bind_act rv_wf (fun _ => pure_act)))

theorem putV_wf {r : VReg} {v : Vec} {s : State} (h : Wf s) : Wf (putV r v s) := modMe_wf h

theorem pushCheck_wf {a : Nat} : ActWf (pushCheck a) :=
  ite_act (bind_act placedAt_wf (fun _ => storeTaken_wf)) (bind_act sectorAt_wf (fun _ => pure_act))

theorem markPush_wf {s : State} {w : Push} (h : Wf s) : Wf (markPush s w) := ite_wf h (markTarget_wf h)

theorem queuePush_wf {s : State} {i : Nat} {w : Push} (h : Wf s) : Wf (queuePush s i w) :=
  ite_wf (spawn_wf (modUnit_wf h)) (pushStore_wf (drainPushes_wf h))

theorem wv_wf {r : VReg} {v : Vec} : ActWf (wv r v) := by
  unfold wv
  intro _ h1
  dsimp only
  split
  · exact putV_wf h1
  · split
    · exact modMe_wf h1
    · split
      · exact trivial
      · split
        · exact spawnOnce_wf h1
        · split
          · next h2 => exact ((pushCheck_wf _ h1).err h2 :)
          · next h3 => exact modMe_wf (queuePush_wf (markPush_wf ((pushCheck_wf _ h1).get h3 :)))

/-! ### Machine/Vector.lean -/

theorem writeF_wf {d : GReg} {f : FloatCode} {mode : Rounding} {r : Num × Nat} {s : State} (h : Wf s) : OutWf (writeF d f mode
    r s) :=
  done_out (setFlags_wf (wg_wf h))

theorem execFadd_wf {d a b : GReg} {rs : RoundSel} {ft : FloatFmt} {s : State} (h : Wf s) : OutWf (execFadd d a b rs ft s) :=
  writeF_wf h

theorem execFsub_wf {d a b : GReg} {rs : RoundSel} {ft : FloatFmt} {s : State} (h : Wf s) : OutWf (execFsub d a b rs ft s) :=
  writeF_wf h

theorem execFmul_wf {d a b : GReg} {rs : RoundSel} {ft : FloatFmt} {s : State} (h : Wf s) : OutWf (execFmul d a b rs ft s) :=
  writeF_wf h

theorem execFma_wf {d a b : GReg} {rs : RoundSel} {ft : FloatFmt} {s : State} (h : Wf s) : OutWf (execFma d a b rs ft s) :=
  writeF_wf h

theorem execFdiv_wf {d a b : GReg} {rs : RoundSel} {ft : FloatFmt} {s : State} (h : Wf s) : OutWf (execFdiv d a b rs ft s) :=
  writeF_wf h

theorem execFsqrt_wf {d a : GReg} {rs : RoundSel} {ft : FloatFmt} {s : State} (h : Wf s) : OutWf (execFsqrt d a rs ft s) :=
  writeF_wf h

theorem execFmin_wf {d a b : GReg} {ft : FloatFmt} {s : State} (h : Wf s) : OutWf (execFmin d a b ft s) := done_out (wg_wf h)

theorem execFmax_wf {d a b : GReg} {ft : FloatFmt} {s : State} (h : Wf s) : OutWf (execFmax d a b ft s) := done_out (wg_wf h)

theorem execFcmp_wf {d a b : GReg} {ft : FloatFmt} {s : State} (h : Wf s) : OutWf (execFcmp d a b ft s) := done_out (wg_wf h)

theorem execFcvt_wf {d a : GReg} {frm : Bool} {other : FloatCode} {rs : RoundSel} {ft : FloatFmt} {s : State} (h : Wf s) :
    OutWf (execFcvt d a frm other rs ft s) :=
  done_out (setSeed_wf (setFlags_wf (wg_wf h)))

theorem execFcvti_wf {d a : GReg} {ity : IntTy} {rs : RoundSel} {ft : FloatFmt} {s : State} (h : Wf s) : OutWf (execFcvti d a
    ity rs ft s) :=
  done_out (setFlags_wf (wg_wf h))

theorem execIcvtf_wf {d a : GReg} {ity : IntTy} {rs : RoundSel} {ft : FloatFmt} {s : State} (h : Wf s) : OutWf (execIcvtf d a
    ity rs ft s) :=
  writeF_wf h

theorem oldV_wf {keep : Bool} {d : VReg} : ActWf (oldV keep d) := ite_act rv_wf pure_act

theorem writeElems_wf {d : VReg} {ty : EType} {k : KReg} {old : Vec} {f : Nat → Nat × Nat} : ActWf (writeElems d ty k old f) :=
  bind_here (fun _ _ => bind_act wv_wf (fun _ => change_wf (fun _ h2 => setFlags_wf h2)))

theorem vecTwo_wf {d a b : VReg} {k : KReg} {ty : EType} {f : Nat → Nat → Nat × Nat} : ActWf (vecTwo d a b k ty f) :=
  bind_act rv2_wf (fun _ => bind_act oldV_wf (fun _ => writeElems_wf))

theorem vecOne_wf {d a : VReg} {k : KReg} {ty : EType} {f : Nat → Nat × Nat} : ActWf (vecOne d a k ty f) :=
  bind_act rv_wf (fun _ => bind_act oldV_wf (fun _ => writeElems_wf))

theorem execVadd_wf {d a b : VReg} {k : KReg} {ty : EType} {rm : Rounding} {sat : Bool} {s : State} (h : Wf s) : OutWf
    (execVadd d a b k ty rm sat s) :=
  finish_wf h (res_wf vecTwo_wf h)

theorem execVsub_wf {d a b : VReg} {k : KReg} {ty : EType} {rm : Rounding} {sat : Bool} {s : State} (h : Wf s) : OutWf
    (execVsub d a b k ty rm sat s) :=
  finish_wf h (res_wf vecTwo_wf h)

theorem execVmul_wf {d a b : VReg} {k : KReg} {ty : EType} {rm : Rounding} {s : State} (h : Wf s) : OutWf (execVmul d a b k ty
    rm s) :=
  finish_wf h (res_wf vecTwo_wf h)

theorem execVfma_wf {d a b : VReg} {k : KReg} {ty : EType} {rm : Rounding} {s : State} (h : Wf s) : OutWf (execVfma d a b k ty
    rm s) :=
  finish_wf h (res_wf (bind_act rv2_wf (fun _ => bind_act rv_wf (fun _ => writeElems_wf))) h)

theorem execVmax_wf {d a b : VReg} {k : KReg} {ty : EType} {s : State} (h : Wf s) : OutWf (execVmax d a b k ty s) :=
  finish_wf h (res_wf vecTwo_wf h)

theorem execVmin_wf {d a b : VReg} {k : KReg} {ty : EType} {s : State} (h : Wf s) : OutWf (execVmin d a b k ty s) :=
  finish_wf h (res_wf vecTwo_wf h)

theorem execVand_wf {d a b : VReg} {k : KReg} {ty : EType} {s : State} (h : Wf s) : OutWf (execVand d a b k ty s) :=
  finish_wf h (res_wf vecTwo_wf h)

theorem execVor_wf {d a b : VReg} {k : KReg} {ty : EType} {s : State} (h : Wf s) : OutWf (execVor d a b k ty s) :=
  finish_wf h (res_wf vecTwo_wf h)

theorem execVxor_wf {d a b : VReg} {k : KReg} {ty : EType} {s : State} (h : Wf s) : OutWf (execVxor d a b k ty s) :=
  finish_wf h (res_wf vecTwo_wf h)

theorem execVshl_wf {d a b : VReg} {k : KReg} {ty : EType} {s : State} (h : Wf s) : OutWf (execVshl d a b k ty s) :=
  finish_wf h (res_wf vecTwo_wf h)

theorem execVshr_wf {d a b : VReg} {k : KReg} {ty : EType} {log : Bool} {s : State} (h : Wf s) : OutWf (execVshr d a b k ty log
    s) :=
  finish_wf h (res_wf vecTwo_wf h)

theorem execVcmp_wf {c : KReg} {a b : VReg} {k : KReg} {ty : EType} {cond : VCond} {s : State} (h : Wf s) : OutWf (execVcmp c a
    b k ty cond s) :=
  finish_wf h (res_wf (bind_act rv2_wf (fun _ => bind_here (fun _ _ => change_wf (fun _ h2 => wk_wf h2)))) h)

theorem execVsel_wf {d a b : VReg} {k : KReg} {ty : EType} {s : State} (h : Wf s) : OutWf (execVsel d a b k ty s) :=
  finish_wf h (res_wf (bind_act rv2_wf (fun _ => bind_here (fun _ _ => wv_wf))) h)

theorem execVcvt_wf {d a : VReg} {dty : EType} {k : KReg} {ty : EType} {rm : Rounding} {part : BitVec 3} {s : State} (h : Wf s)
    : OutWf (execVcvt d a dty k ty rm part s) :=
  finish_wf h (res_wf (bind_act rv_wf (fun _ => bind_act oldV_wf (fun _ => bind_here (fun _ _ => bind_act wv_wf (fun _ =>
      change_wf (fun _ h2 => setSeed_wf (setFlags_wf h2))))))) h)

theorem execVredsum_wf {d a b : VReg} {k : KReg} {ty : EType} {acc : FloatFmt} {s : State} (h : Wf s) : OutWf (execVredsum d a
    b k ty acc s) :=
  finish_wf h (res_wf (bind_act rv2_wf (fun _ => bind_here (fun _ _ => ite_act wv_wf (bind_act wv_wf (fun _ => change_wf (fun
      _ h2 => setFlags_wf h2)))))) h)

theorem execVredmax_wf {d a : VReg} {k : KReg} {ty : EType} {s : State} (h : Wf s) : OutWf (execVredmax d a k ty s) :=
  finish_wf h (res_wf (bind_act rv_wf (fun _ => bind_here (fun _ _ => wv_wf))) h)

theorem execVdot_wf {d a b : VReg} {k : KReg} {ty : EType} {acc : FloatFmt} {s : State} (h : Wf s) : OutWf (execVdot d a b k ty
    acc s) :=
  finish_wf h (res_wf (bind_act rv2_wf (fun _ => bind_act rv_wf (fun _ => bind_here (fun _ _ => ite_act wv_wf (bind_act wv_wf
      (fun _ => change_wf (fun _ h2 => setFlags_wf h2))))))) h)

theorem execVtopk_wf {d a : VReg} {b : BitVec 4} {k : KReg} {ty : EType} {s : State} (h : Wf s) : OutWf (execVtopk d a b k ty
    s) :=
  finish_wf h (res_wf (bind_act rv_wf (fun _ => bind_here (fun _ _ => bind_act wv_wf (fun _ => change_wf (fun _ h2 =>
      setFlags_wf h2))))) h)

theorem execVperm_wf {d a b : VReg} {k : KReg} {ty : EType} {z : Bool} {s : State} (h : Wf s) : OutWf (execVperm d a b k ty z
    s) :=
  finish_wf h (res_wf (bind_act rv2_wf (fun _ => bind_act oldV_wf (fun _ => writeElems_wf))) h)

theorem execVexp_wf {d a : VReg} {k : KReg} {s : State} (h : Wf s) : OutWf (execVexp d a k s) :=
  finish_wf h (res_wf vecOne_wf h)

theorem execVrcp_wf {d a : VReg} {k : KReg} {ty : EType} {rm : Rounding} {s : State} (h : Wf s) : OutWf (execVrcp d a k ty rm
    s) :=
  finish_wf h (res_wf vecOne_wf h)

theorem execVsplat_wf {d : VReg} {a : GReg} {wid : Width} {s : State} (h : Wf s) : OutWf (execVsplat d a wid s) :=
  finish_wf h (res_wf wv_wf h)

theorem execVmovg_wf {d : GReg} {a : VReg} {b : GReg} {wid : Width} {sg : Bool} {s : State} (h : Wf s) : OutWf (execVmovg d a b
    wid sg s) :=
  finish_wf h (res_wf (bind_act rv_wf (fun _ => change_wf (fun _ h1 => wg_wf h1))) h)

theorem execVmovv_wf {d : VReg} {a b : GReg} {wid : Width} {s : State} (h : Wf s) : OutWf (execVmovv d a b wid s) :=
  finish_wf h (res_wf (bind_act rv_wf (fun _ => wv_wf)) h)

/-! ### Machine/Waits.lean -/

theorem optScope_wf {sc : Scope} : ActWf (optScope sc) := by
  unfold optScope
  intro _ h1
  dsimp only
  split
  · exact h1
  · exact clamp_wf _ h1

theorem noPlace_wf {α : Type} {a : Nat} {k : Access} : ActWf (noPlace a k : Act α) :=
  ite_act (bind_act placedCheck_wf (fun _ => memTrap_wf)) memTrap_wf

theorem parkMonitor_wf {α : Type} {r : ParkReason} {a w : Nat} : ActWf (parkMonitor r a w : Act α) := fun _ h1 => modMe_wf h1

theorem execWaitw_wf {d a b : GReg} {wid : Width} {s : State} (h : Wf s) : OutWf (execWaitw d a b wid s) :=
  finish_wf h (res_wf (bind_act aligned_wf (fun _ => ite_act noPlace_wf (bind_act placedLoad_wf (fun _ => ite_act (change_wf
      (fun _ h1 => wg_wf h1)) parkMonitor_wf)))) h)

theorem execWaitwMonitorFire_wf {p : Place} {s : State} (h : Wf s) : OutWf (execWaitwMonitorFire p s) := modStrand_wf h

theorem execWfe_wf {s : State} (h : Wf s) : OutWf (execWfe s) := finish_wf h (ite_res (modMe_wf h) h)

theorem deliverEvent_wf {core slot : Nat} {all : Bool} {tenant : Nat} {s : State} (h : Wf s) : Wf (deliverEvent core slot all
    tenant s) :=
  ite_wf (ite_wf h (count_wf h)) (foldl_wf h (fun _ _ h1 => modStrand_wf h1))

theorem execSev_wf {a : GReg} {sc : Scope} {all : Bool} {s : State} (h : Wf s) : OutWf (execSev a sc all s) := by
  unfold execSev
  refine finish_wf h (res_wf (bind_act optScope_wf ?_) h)
  intro _
  split
  · exact memTrap_wf
  · exact ite_act (bind_act release_wf (fun _ => bind_act noteClamp_wf (fun _ => change_wf (fun _ h1 => ite_wf (deliverEvent_wf
      h1) (spawn_wf (note_wf h1)))))) memTrap_wf

theorem execSevEvent_wf {src : Place} {s : State} (h : Wf s) : OutWf (execSevEvent src s) := by
  unfold execSevEvent
  split
  · exact ite_wf (again_wf h) h
  · exact deliverEvent_wf (same_wf h)

theorem barPlace_wf {a : Nat} {k : Access} : ActWf (barPlace a k) := ite_act pure_act noPlace_wf

theorem barRead_wf {a : Nat} {k : Access} : ActWf (barRead a k) :=
  bind_act aligned_wf (fun _ => bind_act barPlace_wf (fun _ => placedLoad_wf))

theorem barWrite_wf {a x : Nat} : ActWf (barWrite a x) := change_wf (fun _ h1 => placedStore_wf h1)

theorem execBararr_wf {d a : GReg} {sc : Scope} {s : State} (h : Wf s) : OutWf (execBararr d a sc s) :=
  finish_wf h (res_wf (bind_act optScope_wf (fun _ => bind_act barRead_wf (fun _ => ite_act raise_wf (bind_act release_wf (fun
      _ => bind_act barWrite_wf (fun _ => bind_act noteClamp_wf (fun _ => change_wf (fun _ h1 => wg_wf h1)))))))) h)

theorem execBarwt_wf {a b : GReg} {sc : Scope} {s : State} (h : Wf s) : OutWf (execBarwt a b sc s) :=
  finish_wf h (res_wf (bind_act optScope_wf (fun _ => bind_act barRead_wf (fun _ => ite_act parkMonitor_wf (bind_act acquire_wf
      (fun _ => noteClamp_wf))))) h)

theorem execBarxb_wf {a b : GReg} {s : State} (h : Wf s) : OutWf (execBarxb a b s) :=
  finish_wf h (res_wf (bind_act barRead_wf (fun _ => ite_act raise_wf barWrite_wf)) h)

/-! ### Machine/Engines.lean -/

theorem execBtpoll_wf {d a : GReg} {wait : Bool} {s : State} (h : Wf s) : OutWf (execBtpoll d a wait s) :=
  finish_wf h (ite_res h (wg_wf h))

theorem pokeEngine_wf {s : State} {clu : Nat} (h : Wf s) : Wf (pokeEngine s clu) := wakeClu_wf h

theorem postCode_wf {s : State} {who : Place} {vf code addr source access id : Nat} (h : Wf s) : Wf (postCode s who vf code
    addr source access id) :=
  postFault_wf h

theorem logFail_wf {s : State} {dk vf : Nat} {f : Fail} {addr : Nat} (h : Wf s) : Wf (logFail s dk vf f addr) := by
  unfold logFail
  split
  · exact logErr_wf h
  · exact logErr_wf h
  · exact logErr_wf (logErr_wf h)
  · exact logErr_wf (logErr_wf h)
  · exact count_wf (count_wf (logErr_wf h))
  · exact h
  · exact h
  · exact h
  · exact h
  · exact h
  · exact h

theorem engineOwner_wf {s : State} {who : Place} {vf : Nat} {f : Fail} {addr source access id : Nat} (h : Wf s) : Wf
    (engineOwner s who vf f addr source access id) :=
  postOwner_wf h

theorem enginePost_wf {s : State} {who : Place} {vf : Nat} {f : Fail} {addr source access id : Nat} (h : Wf s) : Wf (enginePost
    s who vf f addr source access id) :=
  postCode_wf (logFail_wf (engineOwner_wf h))

theorem completionWord_wf {s : State} {who : Place} {tenant part : Nat} {priv : Bool} {addr v source id : Nat} (h : Wf s) : Wf
    (completionWord s who tenant part priv addr v source id) := by
  unfold completionWord
  split
  · next h1 => exact ((sysWrite_wf h).get h1 :)
  · exact ite_wf (count_wf (count_wf (enginePost_wf h))) (count_wf (enginePost_wf h))

theorem writeRecord_wf {s : State} {clu rec1 : Nat} (h : Wf s) : Wf (writeRecord s clu rec1) :=
  fireMonitors_wf (modClu_wf h fun _ => rfl)

theorem updateBar_wf {s : State} {who : Place} {tenant part : Nat} {priv : Bool} {bar : Nat} {f : Nat → Nat} (h : Wf s) : Wf
    (updateBar s who tenant part priv bar f) := by
  unfold updateBar
  split
  · exact h
  · split
    · next h1 => exact ((placedWrite_wf h).get h1 :)
    · exact h

theorem notBusy_wf {named : List (Nat × Nat)} : ActWf (notBusy named) := fun _ h1 => ite_run h1 h1

theorem steady_wf : ActWf steady := notBusy_wf

theorem launchScope_wf {sc : Scope} : ActWf (launchScope sc) := bind_act scopeOr_wf (fun _ => pure_act)

theorem carriedScope_wf {code : Nat} : ActWf (carriedScope code) := launchScope_wf

theorem noteScope_wf {sc : Scope} : ActWf (noteScope sc) := ite_act pure_act noteClamp_wf

theorem setTail_wf {s : State} {clu v : Nat} (h : Wf s) : Wf (setTail s clu v) := ite_wf (modClu_wf h fun _ => rfl) h

theorem execCringtailWrite_wf {clu : Nat} {v : Word} {s : State} (h : Wf s) : OutWf (execCringtailWrite clu v s) := setTail_wf h

/-! ### Machine/Power.lean -/

theorem wakeAdmission_wf {s : State} {dk : Nat} (h : Wf s) : Wf (wakeAdmission s dk) := ite_wf h (spawnOnce_wf h)

theorem charge_wf {s : State} {dk w : Nat} (h : Wf s) : Wf (charge s dk w) := modDie_wf h

theorem uncharge_wf {s : State} {dk w : Nat} (h : Wf s) : Wf (uncharge s dk w) := wakeAdmission_wf (modDie_wf h)

theorem ungrant_wf {s : State} {dk u : Nat} (h : Wf s) : Wf (ungrant s dk u) := wakeAdmission_wf (modDie_wf h)

theorem releaseGrant_wf {s : State} {p : Place} (h : Wf s) : Wf (releaseGrant s p) :=
  ite_wf (ungrant_wf (modStrand_wf h)) (modStrand_wf h)

theorem joinAdmission_wf {s : State} {dk : Nat} {r : AdmReq} (h : Wf s) : Wf (joinAdmission s dk r) :=
  wakeAdmission_wf (modDie_wf h)

theorem joinImplicit_wf {s : State} {dk : Nat} {r : AdmReq} (h : Wf s) : Wf (joinImplicit s dk r) :=
  ite_wf (modDie_wf h) (joinAdmission_wf h)

theorem implicitRequest_wf {s : State} {p : Place} {u : Nat} (h : Wf s) : Wf (implicitRequest s p u) :=
  joinImplicit_wf (releaseGrant_wf h)

theorem needGrant_wf {u : Nat} : ActWf (needGrant u) := fun _ h1 => ite_run h1 (ite_run h1 (implicitRequest_wf h1))

theorem execPwreq_wf {d a : GReg} {imm : BitVec 13} {s : State} (h : Wf s) : OutWf (execPwreq d a imm s) := by
  unfold execPwreq
  refine finish_wf h ?_
  split
  · exact wg_wf h
  · exact ite_res h (ite_res (wg_wf h) (joinAdmission_wf (ask_wf (releaseGrant_wf h))))

theorem execPwrel_wf {s : State} (h : Wf s) : OutWf (execPwrel s) := done_out (releaseGrant_wf h)

theorem giveGrant_wf {s : State} {p : Place} {u dur : Nat} (h : Wf s) : Wf (giveGrant s p u dur) := modStrand_wf (modDie_wf h)

theorem giveRemote_wf {s : State} {dk core st : Nat} (h : Wf s) : Wf (giveRemote s dk core st) :=
  spawnOnce_wf (modCore_wf (modDie_wf h) fun _ => rfl)

theorem execAdmissionServe_wf {die : Nat} {s : State} (h : Wf s) : OutWf (execAdmissionServe die s) := by
  unfold execAdmissionServe
  extract_lets
  split
  · exact h
  · extract_lets
    split
    · exact h
    · exact ite_out (wakeAdmission_wf (modDie_wf (giveGrant_wf h))) h
    · exact ite_out (wakeAdmission_wf (modDie_wf (giveRemote_wf h))) h

theorem execGrantExpiry_wf {p : Place} {s : State} (h : Wf s) : OutWf (execGrantExpiry p s) := ite_out (releaseGrant_wf h) h

theorem admitOutside_wf {s : State} {dk : Nat} (h : Wf s) : Wf (admitOutside s dk) := wakeAdmission_wf (modDie_wf h)

theorem setBudget_wf {s : State} {dk units : Nat} (h : Wf s) : Wf (setBudget s dk units) := admitOutside_wf (modDie_wf h)

theorem execBudgetSet_wf {die units : Nat} {s : State} (h : Wf s) : OutWf (execBudgetSet die units s) :=
  setBudget_wf (modDie_wf h)

/-! ### Machine/Bte.lean -/

theorem setShadow_wf {s : State} {p : Place} {x : Shadow} (h : Wf s) : Wf (setShadow s p x) := modClu_wf h fun _ => rfl

theorem execBtset_wf {n : Fin 13} {a : GReg} {imm : BitVec 13} {s : State} (h : Wf s) : OutWf (execBtset n a imm s) :=
  done_out (setShadow_wf h)

theorem showDepth_wf {s : State} {x : Xfer} (h : Wf s) : Wf (showDepth s x) := ite_wf (modStrand_wf h) h

theorem commitXfer_wf {s : State} {l : List Word} {sc : Scope} (h : Wf s) : Wf (commitXfer s l sc).2 := by
  unfold commitXfer
  extract_lets p bar s1
  have h1 : Wf s1 := ite_wf (updateBar_wf h) h
  have h2 : Wf (if xConv l then copySeed s1 else (0, s1)).2 := by
    split
    · exact copySeed_wf h1
    · exact h1
  exact spawn_wf (showDepth_wf (modMyClu_wf h2 fun _ => rfl))

/-- The last steps of a launch of a block transfer: room in the queue, the scopes it narrows, and the transfer itself. -/
theorem bteQueue_wf {l : List Word} {sc own C : Scope} {t : State} : ActWf (do
    if queueFull t.clu.bte then parkOn .engine
    noteScope own
    noteScope sc
    noteScope (Scope.ofCode (xScope l))
    let u ← here
    let r := commitXfer u l C
    change fun _ => r.2
    pure r.1 : Act Word) := by
  have hn : ActWf (do
      noteScope own
      noteScope sc
      noteScope (Scope.ofCode (xScope l))
      let u ← here
      let r := commitXfer u l C
      change fun _ => r.2
      pure r.1 : Act Word) :=
    bind_act noteScope_wf fun _ => bind_act noteScope_wf fun _ => bind_act noteScope_wf fun _ => bind_here fun _ hu =>
      bind_act (change_wf fun _ _ => commitXfer_wf hu) fun _ => pure_act
  exact ite_act (bind_act parkOn_wf fun _ => hn) hn

theorem bteLaunch_wf {l : List Word} {sc own : Scope} : ActWf (bteLaunch l sc own) := by
  unfold bteLaunch
  refine bind_act steady_wf fun _ => bind_here fun s hs => ?_
  split
  · exact bind_act noteScope_wf fun _ => pure_act
  · refine bind_act notBusy_wf fun _ => ?_
    dsimp only
    split
    on_goal 1 => refine bind_act needGrant_wf fun _ => ?_
    all_goals
      refine bind_act launchScope_wf fun _ => bind_act carriedScope_wf fun C => bind_act release_wf fun _ => bind_here fun t ht => ?_
      split
      · split
        · exact ite_act (bind_act memTrap_wf fun _ => bteQueue_wf) bteQueue_wf
        · exact ite_act (bind_act raise_wf fun _ => bteQueue_wf) bteQueue_wf
      · exact bteQueue_wf

theorem execBtgo_wf {d : GReg} {sc : Scope} {s : State} (h : Wf s) : OutWf (execBtgo d sc s) :=
  finish_wf h (ite_res (wg_wf (setShadow_wf h)) (res_wf (bind_act bteLaunch_wf (fun _ => change_wf (fun _ h1 => wg_wf h1))) h))

theorem readSrc_wf {s : State} {x : Xfer} {a n : Nat} (h : Wf s) : ExcWf Prod.snd (readSrc s x a n) := by
  unfold readSrc
  split
  · exact trivial
  · next h1 => exact ite_exc ((sysRead_wf h).get h1 :) (free_wf ((sysRead_wf h).get h1 :))

theorem convertRow_wf {s : State} {x : Xfer} {r : Nat} {seed : BitVec 32} (h : Wf s) : ExcWf Prod.snd (convertRow s x r seed) := by
  unfold convertRow
  extract_lets
  split
  · exact trivial
  · next h1 => exact ((readSrc_wf h).get h1 :)

theorem seedBefore_wf {x : Xfer} {x1 : Nat} {s : State} (h : Wf s) : ExcWf Prod.snd (seedBefore x x1 s) := by
  induction x1 generalizing s with
  | zero => exact h
  | succ n ih =>
    unfold seedBefore
    split
    · exact h
    · split
      · exact trivial
      · next heq =>
          split
          · exact trivial
          · next heq' => exact ((convertRow_wf ((ih h).get heq :)).get heq' :)

theorem writeBytes_wf {s : State} {x : Xfer} {r i : Nat} (h : Wf s) : ExcWf Prod.snd (writeBytes s x r i) := by
  unfold writeBytes
  dsimp only
  split
  · split
    · exact trivial
    · next h1 =>
        split
        · exact trivial
        · next h2 => exact ((convertRow_wf ((seedBefore_wf h).get h1 :)).get h2 :)
  · split
    · exact trivial
    · next h3 => exact ((readSrc_wf h).get h3 :)

theorem modXfer_wf {s : State} {clu id : Nat} {f : Xfer → Xfer} (h : Wf s) : Wf (s.modXfer clu id f) := modClu_wf h fun _ => rfl

theorem waitXfer_wf {s : State} {clu : Nat} {x : Xfer} {a access : Nat} (h : Wf s) : Wf (waitXfer s clu x a access) := by
  unfold waitXfer
  extract_lets
  split
  · exact modXfer_wf (modDie_wf h)
  · exact modXfer_wf (postFault_wf (modDie_wf h))

theorem failXfer_wf {s : State} {clu id code a : Nat} (h : Wf s) : Wf (failXfer s clu id code a) := spawn_wf (modXfer_wf h)

theorem xferFail_wf {s : State} {clu : Nat} {x : Xfer} {f : Fail} {a access : Nat} (h : Wf s) : Wf (xferFail s clu x f a access) := by
  unfold xferFail
  split
  · exact waitXfer_wf (engineOwner_wf h)
  · exact waitXfer_wf (engineOwner_wf h)
  · exact failXfer_wf (count_wf (enginePost_wf h))
  · exact failXfer_wf (count_wf (enginePost_wf h))
  · exact failXfer_wf (enginePost_wf h)

theorem landBar_wf {s : State} {clu : Nat} {x : Xfer} {n : Nat} (h : Wf s) : Wf (landBar s clu x n) := by
  unfold landBar
  split
  · exact h
  · extract_lets
    split
    · exact xferFail_wf h
    · exact ite_wf (count_wf (updateBar_wf h)) (updateBar_wf h)

theorem readConsumer_wf {s : State} {clu id : Nat} (h : Wf s) : Wf (readConsumer s clu id) := by
  unfold readConsumer
  split
  · exact h
  · extract_lets
    split
    · exact ite_wf (xferFail_wf h) h
    · exact ite_wf h (modXfer_wf h)

theorem stageLanded_wf {s : State} {clu : Nat} {x : Xfer} (h : Wf s) : Wf (stageLanded s clu x) := by
  unfold stageLanded
  split
  · exact h
  · exact completionWord_wf (showDepth_wf (modXfer_wf h))

theorem ringStep_wf {clu id x1 : Nat} {s : State} (h : Wf s) : Wf (ringStep clu id x1 s) := by
  induction x1 generalizing s with
  | zero => exact h
  | succ n ih =>
    unfold ringStep
    split
    · exact h
    · exact ite_wf h (ite_wf (ih (readConsumer_wf (stageLanded_wf h))) (ite_wf (ih (modXfer_wf h)) h))

theorem nextWrite_wf {s : State} {clu id : Nat} (h : Wf s) : Wf (nextWrite s clu id) := by
  unfold nextWrite
  split
  · exact h
  · exact ite_wf (spawn_wf h) (ite_wf h (spawnOnce_wf h))

theorem driveRing_wf {s : State} {clu id : Nat} (h : Wf s) : Wf (driveRing s clu id) := by
  unfold driveRing
  split
  · exact h
  · exact ringStep_wf h

theorem execBteTransferActivate_wf {clu : Nat} {s : State} (h : Wf s) : OutWf (execBteTransferActivate clu s) := by
  unfold execBteTransferActivate
  extract_lets
  split
  · exact h
  · exact ite_out h (nextWrite_wf (ite_wf (driveRing_wf (pokeEngine_wf (modClu_wf h fun _ => rfl))) (pokeEngine_wf (modClu_wf
      h fun _ => rfl))))

theorem writeFails_wf {s : State} {clu : Nat} {x : Xfer} {w : Nat} {f : Fail} {a access : Nat} (h : Wf s) : Wf (writeFails s
    clu x w f a access) :=
  ite_wf (again_wf (modXfer_wf (noteLost_wf h))) (xferFail_wf h)

theorem landWrite_wf {s : State} {clu : Nat} {x : Xfer} {w : Nat} (h : Wf s) : Wf (landWrite s clu x w) := by
  unfold landWrite
  dsimp only
  split
  · exact writeFails_wf h
  · next h1 =>
      split
      · exact writeFails_wf ((writeBytes_wf h).get h1 :)
      · next h2 =>
          exact nextWrite_wf (ite_wf (driveRing_wf (modXfer_wf (landBar_wf ((sysWrite_wf ((writeBytes_wf h).get h1 :)).get h2
              :)))) (modXfer_wf (landBar_wf ((sysWrite_wf ((writeBytes_wf h).get h1 :)).get h2 :))))

theorem execBteWriteLand_wf {clu id : Nat} {s : State} (h : Wf s) : OutWf (execBteWriteLand clu id s) := by
  unfold execBteWriteLand
  split
  · exact h
  · split
    · exact h
    · split
      · exact ite_wf (again_wf h) (xferFail_wf h)
      · exact landWrite_wf h
      · exact landWrite_wf (same_wf h)

theorem execBteConsumerUpdate_wf {clu id : Nat} {s : State} (h : Wf s) : OutWf (execBteConsumerUpdate clu id s) := by
  unfold execBteConsumerUpdate
  split
  · exact h
  · split
    · exact h
    · refine nextWrite_wf (driveRing_wf ?_)
      split
      · exact showDepth_wf (readConsumer_wf h)
      · exact readConsumer_wf h

theorem completeXfer_wf {s : State} {clu : Nat} {x : Xfer} (h : Wf s) : Wf (completeXfer s clu x) := by
  unfold completeXfer
  extract_lets bar s1 s2 ok cw held s3 s4 s5
  have h1 : Wf s2 := modXfer_wf (ite_wf h (updateBar_wf h))
  have h2 : Wf s3 := writeRecord_wf h1
  have h3 : Wf s4 := ite_wf (completionWord_wf h2) h2
  refine ite_wf h (ite_wf (again_wf (ite_wf h1 (count_wf h1))) ?_)
  cases held with
  | some f => exact again_wf (modXfer_wf (noteLost_wf h1))
  | none => exact spawn_wf (pokeEngine_wf (modClu_wf h3 fun _ => rfl))

/-! ### Machine/Ixe.lean -/

theorem queueIx_wf {s : State} {o : IxOp} {first : Nat → Nat → Event} (h : Wf s) : Wf (queueIx s o first) :=
  ite_wf (spawn_wf (modMyClu_wf h fun _ => rfl)) (spawn_wf (modMyClu_wf h fun _ => rfl))

theorem ixLaunch_wf {d daddr : Nat} {sc own : Scope} {resume posted : Bool} : ActWf (ixLaunch d daddr sc own resume posted) := by
  unfold ixLaunch
  refine bind_act steady_wf fun _ => ?_
  refine bind_here fun _ _ => ?_
  split
  · exact bind_act noteScope_wf (fun _ => pure_act)
  · exact bind_act notBusy_wf (fun _ => bind_act launchScope_wf (fun _ => bind_act carriedScope_wf (fun _ => bind_act
      release_wf (fun _ => bind_here (fun _ _ => ite_act (bind_act parkOn_wf (fun _ => bind_act noteScope_wf (fun _ =>
      bind_act noteScope_wf (fun _ => bind_act noteScope_wf (fun _ => bind_act (change_wf (fun _ h3 => queueIx_wf (ite_wf
      (modCsr_wf h3) h3))) (fun _ => pure_act)))))) (bind_act noteScope_wf (fun _ => bind_act noteScope_wf (fun _ => bind_act
      noteScope_wf (fun _ => bind_act (change_wf (fun _ h4 => queueIx_wf (ite_wf (modCsr_wf h4) h4))) (fun _ =>
      pure_act))))))))))

theorem ownDescriptor_wf {x al n : Nat} : ActWf (ownDescriptor x al n) :=
  bind_act aligned_wf (fun _ => bind_act ownSteady_wf (fun _ => ite_act memTrap_wf placedLoad_wf))

theorem execIxpost_wf {d a : GReg} {sc : Scope} {resume : Bool} {s : State} (h : Wf s) : OutWf (execIxpost d a sc resume s) :=
  finish_wf h (res_wf (ite_act parkOn_wf (bind_act ownDescriptor_wf (fun _ => bind_act ixLaunch_wf (fun _ => change_wf (fun _
      h1 => wg_wf h1))))) h)

theorem modIx_wf {s : State} {clu id : Nat} {f : IxOp → IxOp} (h : Wf s) : Wf (s.modIx clu id f) := modClu_wf h fun _ => rfl

theorem beginIx_wf {s : State} {clu id : Nat} (h : Wf s) : Wf (beginIx s clu id) := by
  unfold beginIx
  extract_lets
  split
  · exact h
  · exact pokeEngine_wf (modClu_wf h fun _ => rfl)

theorem ixFail_wf {s : State} {clu : Nat} {o : IxOp} {f : Fail} {a access : Nat} (h : Wf s) : Wf (ixFail s clu o f a access) :=
  ite_wf (count_wf (enginePost_wf (modIx_wf h))) (enginePost_wf (modIx_wf h))

theorem ixLose_wf {u t : State} {clu : Nat} {o : IxOp} {item : Nat} {f : Fail} {a access : Nat} (g1 : Wf u) (g2 : Wf t) : Wf
    (ixLose u t clu o item f a access) :=
  ite_wf (modIx_wf (noteLost_wf g1)) (ixFail_wf g2)

theorem ixGot_wf {s : State} {clu : Nat} {o : IxOp} (h : Wf s) : Wf (ixGot s clu o) := modIx_wf h

theorem ixPick_wf {s : State} {o : IxOp} (h : Wf s) : Wf (ixPick s o).2 := by
  unfold ixPick
  split
  · exact h
  · exact choice_wf (n := o.todo.length) h

theorem nextIx_wf {s : State} {clu id : Nat} {e : Event} (h : Wf s) : Wf (nextIx s clu id e) := by
  unfold nextIx
  split
  · exact h
  · exact ite_wf (ite_wf (spawn_wf h) h) (spawnOnce_wf h)

theorem copyElement_wf {s : State} {o : IxOp} {e : Nat} (h : Wf s) : ExcWf id (copyElement s o e) := by
  unfold copyElement
  dsimp only
  split
  · exact trivial
  · next h1 =>
      split
      · exact trivial
      · next h2 =>
          split
          · exact trivial
          · next h3 => exact ((sysWrite_wf ((sysRead_wf ((sysRead_wf h).get h1 :)).get h2 :)).get h3 :)

theorem elementDone_wf {s : State} {clu : Nat} {o : IxOp} {e : Nat} (h : Wf s) : Wf (elementDone s clu o e) :=
  ite_wf (modStrand_wf (modIx_wf h)) (modIx_wf h)

theorem execIxeElementCopy_wf {clu id : Nat} {s : State} (h : Wf s) : OutWf (execIxeElementCopy clu id s) := by
  unfold execIxeElementCopy
  extract_lets
  split
  · exact beginIx_wf h
  · split
    · exact beginIx_wf h
    · refine nextIx_wf ?_
      split
      · exact ixPick_wf (beginIx_wf h)
      · exact ixFail_wf (modIx_wf (ixPick_wf (beginIx_wf h)))
      · split
        · exact ixLose_wf (ixPick_wf (beginIx_wf h)) (modIx_wf (ixPick_wf (beginIx_wf h)))
        · next h1 => exact elementDone_wf (ixGot_wf ((copyElement_wf (modIx_wf (ixPick_wf (beginIx_wf h)))).get h1 :))

theorem eupdLaunch_wf {x d table : Nat} {t : UpdTable} {sc : Scope} {resume : Bool} : ActWf (eupdLaunch x d table t sc resume)
    :=
  bind_act notBusy_wf (fun _ => bind_act launchScope_wf (fun _ => bind_act carriedScope_wf (fun _ => bind_act release_wf (fun _
      => bind_here (fun _ _ => ite_act (bind_act parkOn_wf (fun _ => bind_act noteScope_wf (fun _ => bind_act noteScope_wf
      (fun _ => bind_act (change_wf (fun _ h2 => queueIx_wf (ite_wf h2 (placedStore_wf h2)))) (fun _ => pure_act))))) (bind_act
      noteScope_wf (fun _ => bind_act noteScope_wf (fun _ => bind_act (change_wf (fun _ h3 => queueIx_wf (ite_wf h3
      (placedStore_wf h3)))) (fun _ => pure_act)))))))))

theorem execEupd_wf {d a b : GReg} {sc : Scope} {resume : Bool} {s : State} (h : Wf s) : OutWf (execEupd d a b sc resume s) := by
  unfold execEupd
  refine finish_wf h (res_wf (bind_act steady_wf ?_) h)
  intro _
  split
  · exact change_wf (fun _ h1 => wg_wf h1)
  · split
    · exact change_wf (fun _ h2 => wg_wf h2)
    · refine bind_act placedLoad_wf fun _ => ?_
      split
      · exact change_wf (fun _ h3 => wg_wf h3)
      · split
        · exact change_wf (fun _ h4 => wg_wf h4)
        · exact bind_act eupdLaunch_wf (fun _ => change_wf (fun _ h5 => wg_wf h5))

theorem ixRead_wf {s : State} {o : IxOp} {a n : Nat} (h : Wf s) : ExcWf Prod.snd (ixRead s o a n) := sysRead_wf h

theorem entryRow_wf {s : State} {o : IxOp} {t : UpdTable} {e : Nat} (h : Wf s) : ExcWf Prod.snd (entryRow s o t e) := by
  unfold entryRow
  extract_lets
  split
  · exact trivial
  · next h1 => exact ite_exc trivial ((ixRead_wf h).get h1 :)

theorem gradOf_wf {s : State} {o : IxOp} {t : UpdTable} {e j : Nat} (h : Wf s) : ExcWf Prod.snd (gradOf s o t e j) := by
  unfold gradOf
  extract_lets
  split
  · exact trivial
  · next h1 => exact ((ixRead_wf h).get h1 :)

theorem homeAdd_wf {s : State} {o : IxOp} {a delta : Nat} (h : Wf s) : ExcWf id (homeAdd s o a delta) := by
  unfold homeAdd
  split
  · exact trivial
  · split
    · exact trivial
    · next h1 =>
        split
        · exact trivial
        · next h2 =>
            split
            · exact trivial
            · next h3 =>
                split
                · exact trivial
                · extract_lets
                  split
                  · exact trivial
                  · next h4 =>
                      exact ((writeTarget_wf ((readTarget_wf ((sysCheck_wf ((sysTarget_wf h).get h1 :)).get h2 :)).get h3
                          :)).get h4 :)

theorem markDone_wf {s : State} {clu : Nat} {o : IxOp} {mask : Nat} (h : Wf s) : Wf (markDone s clu o mask) := by
  unfold markDone
  extract_lets
  split
  · exact ixFail_wf h
  · next h1 =>
      split
      · exact ixFail_wf ((placedRead_wf h).get h1 :)
      · next h2 => exact ((placedWrite_wf ((placedRead_wf h).get h1 :)).get h2 :)

theorem entriesDone_wf {s : State} {clu : Nat} {o : IxOp} {mask : Nat} (h : Wf s) : Wf (entriesDone s clu o mask) :=
  modIx_wf (markDone_wf h)

theorem directOne_wf {s : State} {clu : Nat} {o : IxOp} {t : UpdTable} {e j : Nat} (h : Wf s) : Wf (directOne s clu o t e j) := by
  unfold directOne
  dsimp only
  split
  · exact ixLose_wf h (modIx_wf h)
  · next h1 =>
      split
      · exact ixLose_wf h (modIx_wf ((entryRow_wf h).get h1 :))
      · next h2 =>
          split
          · exact ixLose_wf h (modIx_wf (modIx_wf ((gradOf_wf ((entryRow_wf h).get h1 :)).get h2 :)))
          · next h3 =>
              split
              · exact modIx_wf ((homeAdd_wf ((gradOf_wf ((entryRow_wf h).get h1 :)).get h2 :)).get h3 :)
              · exact ite_wf (entriesDone_wf (modIx_wf ((homeAdd_wf ((gradOf_wf ((entryRow_wf h).get h1 :)).get h2 :)).get h3
                  :))) (modIx_wf ((homeAdd_wf ((gradOf_wf ((entryRow_wf h).get h1 :)).get h2 :)).get h3 :))

theorem sameRow_wf {o : IxOp} {t : UpdTable} {x : Nat} {x1 : List Nat} {s : State} (h : Wf s) : Wf (sameRow o t x x1 s).2 := by
  induction x1 generalizing s with
  | nil => exact h
  | cons e es ih =>
    unfold sameRow
    dsimp only
    split
    · exact ih h
    · next heq => exact ih ((entryRow_wf h).get heq)

theorem gradsOf_wf {o : IxOp} {t : UpdTable} {j : Nat} {x1 : List Nat} {s : State} (h : Wf s) : ExcWf Prod.snd (gradsOf o t j
    x1 s) := by
  induction x1 generalizing s with
  | nil => exact h
  | cons e es ih =>
    unfold gradsOf
    split
    · exact trivial
    · next heq =>
        split
        · exact trivial
        · next heq' => exact ((ih ((gradOf_wf h).get heq :)).get heq' :)

theorem mergedRow_wf {o : IxOp} {t : UpdTable} {es : List Nat} {x1 x2 : Nat} {s : State} (h : Wf s) : ExcWf Prod.snd
    (mergedRow o t es x1 x2 s) := by
  induction x1 generalizing x2 s with
  | zero => exact h
  | succ n ih =>
    unfold mergedRow
    split
    · exact trivial
    · next heq =>
        dsimp only
        split
        · exact trivial
        · next heq' => exact ((ih ((gradsOf_wf h).get heq :)).get heq' :)

theorem rowHome_wf {s : State} {o : IxOp} {a : Nat} (h : Wf s) : ExcWf Prod.snd (rowHome s o a) := by
  unfold rowHome
  split
  · exact trivial
  · split
    · exact trivial
    · next h1 =>
        split
        · exact trivial
        · next h2 => exact ((sysCheck_wf ((sysTarget_wf h).get h1 :)).get h2 :)

theorem mergeOne_wf {s : State} {clu : Nat} {o : IxOp} {t : UpdTable} {e : Nat} (h : Wf s) : Wf (mergeOne s clu o t e) := by
  unfold mergeOne
  dsimp only
  split
  · exact ixLose_wf h (modIx_wf h)
  · next h1 =>
      split
      · exact ixLose_wf h (modIx_wf (sameRow_wf ((entryRow_wf h).get h1 :)))
      · next h2 =>
          split
          · exact ixLose_wf h (modIx_wf (modIx_wf ((mergedRow_wf (sameRow_wf ((entryRow_wf h).get h1 :))).get h2 :)))
          · next h3 =>
              exact spawn_wf (note_wf (modIx_wf (modIx_wf (modIx_wf ((rowHome_wf ((mergedRow_wf (sameRow_wf ((entryRow_wf
                  h).get h1 :))).get h2 :)).get h3 :)))))

theorem execEupdDirectAdd_wf {clu id : Nat} {s : State} (h : Wf s) : OutWf (execEupdDirectAdd clu id s) := by
  unfold execEupdDirectAdd
  extract_lets
  split
  · exact beginIx_wf h
  · split
    · exact beginIx_wf h
    · refine nextIx_wf ?_
      split
      · exact ixPick_wf (beginIx_wf h)
      · exact ixFail_wf (modIx_wf (ixPick_wf (beginIx_wf h)))
      · exact ixFail_wf (modIx_wf (ixPick_wf (beginIx_wf h)))
      · exact ite_wf (mergeOne_wf (ixPick_wf (beginIx_wf h))) (directOne_wf (ixPick_wf (beginIx_wf h)))

theorem rowArrived_wf {s : State} {clu id mask addr : Nat} {good : Bool} (h : Wf s) : Wf (rowArrived s clu id mask addr good) := by
  unfold rowArrived
  split
  · exact h
  · exact nextIx_wf (ite_wf (entriesDone_wf (modIx_wf h)) (postCode_wf (modIx_wf (modIx_wf h))))

theorem setMergeRows_same (x : Module) (vf table step : Nat) (rows : List (Nat × List Nat)) :
    (setMergeRows x vf table step rows).dram = x.dram ∧ (setMergeRows x vf table step rows).host = x.host ∧
      (setMergeRows x vf table step rows).pinned = x.pinned := by
  unfold setMergeRows
  dsimp only
  split <;> exact ⟨rfl, rfl, rfl⟩

theorem execMergeContribution_wf {m : Nat} {s : State} (h : Wf s) : OutWf (execMergeContribution m s) := by
  unfold execMergeContribution
  extract_lets f
  split
  · exact h
  · next n rest _ =>
      have hn : Wf { s with notes := rest } := same_wf h
      exact ite_out (rowArrived_wf hn) (rowArrived_wf (ite_wf (count_wf (modMod_wf hn (fun _ => setMergeRows_same ..)))
        (modMod_wf hn (fun _ => setMergeRows_same ..))))

theorem advanceStep_wf {s : State} {vf table : Nat} (h : Wf s) : Wf (advanceStep s vf table) :=
  foldl_wf h (fun _ _ h1 => modPolicy_wf h1)

theorem sendClose_wf {s : State} {vf table step lr : Nat} (h : Wf s) : Wf (sendClose s vf table step lr) :=
  modMod_wf (foldl_wf h (fun _ _ h1 => spawn_wf (note_wf h1))) fun _ => ⟨rfl, rfl, rfl⟩

theorem execEupdClose_wf {d a b : GReg} {_sc : Scope} {s : State} (h : Wf s) : OutWf (execEupdClose d a b _sc s) := by
  unfold execEupdClose
  refine finish_wf h (res_wf ?_ h)
  split
  · exact bind_act noteClamp_wf (fun _ => change_wf (fun _ h1 => wg_wf h1))
  · split
    · exact parkOn_wf
    · split
      · exact change_wf (fun _ h2 => wg_wf h2)
      · exact ite_act (change_wf (fun _ h3 => wg_wf h3)) (bind_act clamp_wf (fun _ => bind_act release_wf (fun _ => bind_act
          (change_wf (fun _ h4 => sendClose_wf (advanceStep_wf (ask_wf h4)))) (fun _ => parkSent_wf))))

theorem applyRow_wf {m vf : Nat} {t : UpdTable} {row lr : Nat} {x1 : List Nat} {x2 : Nat} {s : State} (h : Wf s) : Wf
    (applyRow m vf t row lr x1 x2 s) := by
  induction x1 generalizing x2 s with
  | nil => exact h
  | cons mx ms ih =>
    refine ih ?_
    dsimp only
    split
    · exact h
    · next heq =>
        have h1 := (target_wf h).get heq
        split
        · exact h1
        · next heq' =>
            have h2 := (readTarget_wf h1).get heq'
            split
            · exact h2
            · next heq'' => exact (writeTarget_wf h2).get heq''

theorem execMergeClose_wf {m : Nat} {s : State} (h : Wf s) : OutWf (execMergeClose m s) := by
  unfold execMergeClose
  extract_lets
  split
  · exact h
  · refine spawn_wf (note_wf (modMod_wf ?_ fun _ => ⟨rfl, rfl, rfl⟩))
    split
    · exact same_wf h
    · exact foldl_wf (same_wf h) (fun _ _ h1 => applyRow_wf h1)

theorem execCloseAck_wf {src : Place} {s : State} (h : Wf s) : OutWf (execCloseAck src s) := by
  unfold execCloseAck
  extract_lets
  split
  · exact h
  · extract_lets
    split
    · exact ite_out (giveAnswer_wf (modMod_wf (same_wf h) fun _ => ⟨rfl, rfl, rfl⟩)) (modMod_wf (same_wf h) (fun _ => ⟨rfl,
        rfl, rfl⟩))
    · exact modMod_wf (same_wf h) fun _ => ⟨rfl, rfl, rfl⟩

theorem completeIx_wf {s : State} {clu : Nat} {o : IxOp} (h : Wf s) : Wf (completeIx s clu o) := by
  unfold completeIx
  split
  · exact h
  · split
    · exact again_wf (modIx_wf (ite_wf h (count_wf h)))
    · extract_lets
      split
      · exact again_wf (modIx_wf (noteLost_wf h))
      · exact pokeEngine_wf (modClu_wf (ite_wf (modStrand_wf (ite_wf (completionWord_wf (writeRecord_wf h)) (writeRecord_wf
          h))) (ite_wf (completionWord_wf (writeRecord_wf h)) (writeRecord_wf h))) fun _ => rfl)

theorem execEngineCompletion_wf {clu : Nat} {ixe : Bool} {id : Nat} {s : State} (h : Wf s) : OutWf (execEngineCompletion clu
    ixe id s) := by
  unfold execEngineCompletion
  split
  · split
    · exact h
    · exact completeIx_wf h
  · split
    · exact h
    · exact completeXfer_wf h

theorem execEngineOffline_wf {clu : Nat} {ixe : Bool} {s : State} (h : Wf s) : OutWf (execEngineOffline clu ixe s) :=
  ite_out (spawns_wf (modClu_wf (count_wf h) fun _ => rfl)) (foldl_wf (modClu_wf (count_wf h) fun _ => rfl) (fun _ _ h1 =>
      failXfer_wf h1))

end Sys2Proof.Proofs.MemKept
end

section
/-! SUPPORT. The canonical form of the memories, function by function of the model (log 5), in the order of the model's files:
Atomics, Kle, KleRun, Streams, Matrix. -/

namespace Sys2Proof.Proofs.MemKept

open Sys2Proof Sys2Proof.Machine Sys2Proof.Laws MemForm HomeAccess

/-! ### Machine/Atomics.lean -/

theorem amoPlaced_wf {a w : Nat} {op : AmoOp} {v e : Nat} : ActWf (amoPlaced a w op v e) := by
  unfold amoPlaced
  refine bind_act placedLoad_wf fun _ => ?_
  extract_lets
  split
  · exact pure_act
  · exact bind_act (change_wf (fun _ h1 => placedStore_wf h1)) (fun _ => pure_act)

theorem amoNear_wf {a w : Nat} {op : AmoOp} {v e : Nat} : ActWf (amoNear a w op v e) := by
  unfold amoNear
  intro _ h1
  dsimp only
  split
  · split
    · exact request_wf _ (modMe_wf h1)
    · split
      · exact memTrap_wf _ h1
      · split
        · exact h1
        · exact l1Write_wf h1
  · exact request_wf _ (modMe_wf h1)

theorem sendFar_wf {s : State} {a : Nat} {wid : Width} {op : AmoOp} {v e : Nat} {at' : Attr} {posted : Bool} (h : Wf s) : Wf
    (sendFar s a wid op v e at' posted) :=
  spawn_wf (send_wf (markTarget_wf (overtake_wf (dropWhere_wf (writeBackWhere_wf h)))))

theorem farResult_wf {a : Nat} {st : LineStatus} {x : Nat} {po : Bool} : ActWf (farResult a st x po) := by
  unfold farResult
  split
  · exact ite_act memTrap_wf pure_act
  · exact absent_wf
  · exact memTrap_wf
  · exact memTrap_wf
  · exact memTrap_wf
  · exact memTrap_wf

theorem amoGlobal_wf {a : Nat} {wid : Width} {op : AmoOp} {v e : Nat} {near posted : Bool} {rel : Act Unit} (h : ActWf rel) :
    ActWf (amoGlobal a wid op v e near posted rel) := by
  unfold amoGlobal
  refine bind_here fun _ _ => ?_
  split
  · exact farResult_wf
  · exact ite_act parkOn_wf (bind_act sectorFor_wf (fun _ => bind_act h (fun _ => ite_act amoNear_wf (ite_act (bind_act
      (change_wf (fun _ h2 => sendFar_wf h2)) (fun _ => pure_act)) (fun _ h3 => ask_wf (sendFar_wf h3))))))

theorem amoLaunch_wf {off desc : Nat} {sc : Scope} : ActWf (amoLaunch off desc sc) :=
  bind_act steady_wf (fun _ => bind_here (fun _ _ => ite_act (bind_act noteScope_wf (fun _ => pure_act)) (bind_act load_wf
      (fun _ => ite_act bteLaunch_wf ixLaunch_wf))))

theorem atomic_wf {op : AmoOp} {d a b : GReg} {wid : Width} {sc : Scope} {near rl aq : Bool} : ActWf (atomic op d a b wid sc
    near rl aq) :=
  bind_here (fun _ _ => bind_act aligned_wf (fun _ => bind_act optScope_wf (fun _ => ite_act (ite_act (bind_act placedCheck_wf
      (fun _ => ite_act (bind_act memTrap_wf (fun _ => bind_act (change_wf (fun _ h2 => wg_wf h2)) (fun _ => ite_act acquire_wf
      pure_act))) (bind_act (ite_act release_wf pure_act) (fun _ => bind_act amoLaunch_wf (fun _ => bind_act pure_act (fun _ =>
      bind_act (change_wf (fun _ h3 => wg_wf h3)) (fun _ => ite_act acquire_wf pure_act))))))) (bind_act placedStoreCheck_wf
      (fun _ => bind_act (ite_act release_wf pure_act) (fun _ => bind_act amoPlaced_wf (fun _ => bind_act noteScope_wf (fun _
      => bind_act pure_act (fun _ => bind_act (change_wf (fun _ h4 => wg_wf h4)) (fun _ => ite_act acquire_wf pure_act))))))))
      (bind_act (amoGlobal_wf (ite_act release_wf pure_act)) (fun _ => bind_act noteScope_wf (fun _ => bind_act pure_act (fun _
      => bind_act (change_wf (fun _ h5 => wg_wf h5)) (fun _ => ite_act acquire_wf pure_act))))))))

theorem execAmoadd_wf {d a b : GReg} {wid : Width} {sc : Scope} {near rl aq : Bool} {s : State} (h : Wf s) : OutWf (execAmoadd
    d a b wid sc near rl aq s) :=
  finish_wf h (res_wf atomic_wf h)

theorem execAmoand_wf {d a b : GReg} {wid : Width} {sc : Scope} {near rl aq : Bool} {s : State} (h : Wf s) : OutWf (execAmoand
    d a b wid sc near rl aq s) :=
  finish_wf h (res_wf atomic_wf h)

theorem execAmoor_wf {d a b : GReg} {wid : Width} {sc : Scope} {near rl aq : Bool} {s : State} (h : Wf s) : OutWf (execAmoor d
    a b wid sc near rl aq s) :=
  finish_wf h (res_wf atomic_wf h)

theorem execAmoxor_wf {d a b : GReg} {wid : Width} {sc : Scope} {near rl aq : Bool} {s : State} (h : Wf s) : OutWf (execAmoxor
    d a b wid sc near rl aq s) :=
  finish_wf h (res_wf atomic_wf h)

theorem execAmomin_wf {d a b : GReg} {wid : Width} {sc : Scope} {near rl aq : Bool} {s : State} (h : Wf s) : OutWf (execAmomin
    d a b wid sc near rl aq s) :=
  finish_wf h (res_wf atomic_wf h)

theorem execAmomax_wf {d a b : GReg} {wid : Width} {sc : Scope} {near rl aq : Bool} {s : State} (h : Wf s) : OutWf (execAmomax
    d a b wid sc near rl aq s) :=
  finish_wf h (res_wf atomic_wf h)

theorem execAmominu_wf {d a b : GReg} {wid : Width} {sc : Scope} {near rl aq : Bool} {s : State} (h : Wf s) : OutWf
    (execAmominu d a b wid sc near rl aq s) :=
  finish_wf h (res_wf atomic_wf h)

theorem execAmomaxu_wf {d a b : GReg} {wid : Width} {sc : Scope} {near rl aq : Bool} {s : State} (h : Wf s) : OutWf
    (execAmomaxu d a b wid sc near rl aq s) :=
  finish_wf h (res_wf atomic_wf h)

theorem execAmoswp_wf {d a b : GReg} {wid : Width} {sc : Scope} {near rl aq : Bool} {s : State} (h : Wf s) : OutWf (execAmoswp
    d a b wid sc near rl aq s) :=
  finish_wf h (res_wf atomic_wf h)

theorem execAmocas_wf {d a b : GReg} {wid : Width} {sc : Scope} {near rl aq : Bool} {s : State} (h : Wf s) : OutWf (execAmocas
    d a b wid sc near rl aq s) :=
  finish_wf h (res_wf atomic_wf h)

theorem execAmofadd_wf {d a b : GReg} {wid : Width} {sc : Scope} {near rl aq : Bool} {s : State} (h : Wf s) : OutWf
    (execAmofadd d a b wid sc near rl aq s) :=
  finish_wf h (res_wf atomic_wf h)

theorem execAmofmax_wf {d a b : GReg} {wid : Width} {sc : Scope} {near rl aq : Bool} {s : State} (h : Wf s) : OutWf
    (execAmofmax d a b wid sc near rl aq s) :=
  finish_wf h (res_wf atomic_wf h)

/-! ### Machine/Kle.lean -/

theorem takeTicket_wf {s : State} {dk : Nat} (h : Wf s) : Wf (takeTicket s dk) := modDie_wf h

theorem spadPut_wf {s : State} {clu off n v : Nat} (h : Wf s) : Wf (spadPut s clu off n v) :=
  fireMonitors_wf (Keeps.modClu (fun _ hc => writeN_wf _ _ _ _ hc) h)

theorem putRecord_wf {s : State} {clu i : Nat} (h : Wf s) : Wf (putRecord s clu i) :=
  ite_wf (spadPut_wf (spadPut_wf h)) (spadPut_wf h)

theorem tellWaiters_wf {s : State} {clu i : Nat} (h : Wf s) : Wf (tellWaiters s clu i) :=
  foldl_wf h (fun _ _ h1 => modStrand_wf h1)

theorem faultCtx_wf {s : State} {clu i : Nat} (h : Wf s) : Wf (faultCtx s clu i) :=
  pokeDie_wf (modCtx_wf (tellWaiters_wf (putRecord_wf (count_wf (modCtx_wf h)))))

theorem execKlset_wf {d a b : GReg} {clr : Bool} {s : State} (h : Wf s) : OutWf (execKlset d a b clr s) := by
  unfold execKlset
  refine finish_wf h (res_wf ?_ h)
  split
  · exact change_wf (fun _ h1 => wg_wf h1)
  · split
    · exact change_wf (fun _ h2 => wg_wf (modMyClu_wf h2 fun _ => rfl))
    · split
      · exact change_wf (fun _ h3 => wg_wf h3)
      · refine bind_act ownSteady_wf fun _ => ?_
        split
        · exact change_wf (fun _ h4 => wg_wf h4)
        · refine bind_act placedLoad_wf fun _ => ?_
          refine bind_here fun _ _ => ?_
          split
          · exact change_wf (fun _ h6 => wg_wf h6)
          · exact change_wf (fun _ h7 => wg_wf (modMyClu_wf h7 fun _ => rfl))

theorem scoreGrant_wf {d : Nat} : ActWf (scoreGrant d) := ite_act needGrant_wf pure_act

theorem commitCtx_wf {s : State} {i desc query : Nat} {bag : Bool} {sc : Scope} (h : Wf s) : Wf (commitCtx s i desc query bag
    sc).2 :=
  spawn_wf (modMyClu_wf (setSeed_wf (takeTicket_wf h)) fun _ => rfl)

theorem launchCtx_wf {desc query : Nat} {bag : Bool} {sc : Scope} : ActWf (launchCtx desc query bag sc) := by
  unfold launchCtx
  refine bind_act notBusy_wf fun _ => ?_
  refine bind_act launchScope_wf fun _ => ?_
  refine bind_act carriedScope_wf fun _ => ?_
  refine bind_act release_wf fun _ => ?_
  refine bind_here fun _ _ => ?_
  split
  · exact parkOn_wf
  · exact ite_act parkOn_wf (bind_act noteScope_wf (fun _ => bind_act noteScope_wf (fun _ => bind_here (fun _ h2 => bind_act
      (change_wf (fun _ _ => commitCtx_wf h2)) (fun _ => pure_act)))))

theorem execKlook_wf {d a b : GReg} {sc : Scope} {s : State} (h : Wf s) : OutWf (execKlook d a b sc s) :=
  finish_wf h (res_wf (bind_act steady_wf (fun _ => ite_act (change_wf (fun _ h1 => wg_wf h1)) (ite_act (change_wf (fun _ h2 =>
      wg_wf h2)) (ite_act (change_wf (fun _ h3 => wg_wf h3)) (ite_act (change_wf (fun _ h4 => wg_wf h4)) (bind_act
      scoreGrant_wf (fun _ => bind_act launchCtx_wf (fun _ => change_wf (fun _ h5 => wg_wf h5))))))))) h)

theorem execEbag_wf {d a b : GReg} {sc : Scope} {s : State} (h : Wf s) : OutWf (execEbag d a b sc s) := by
  unfold execEbag
  refine finish_wf h (res_wf (bind_act steady_wf ?_) h)
  intro _
  split
  · exact change_wf (fun _ h1 => wg_wf h1)
  · split
    · exact change_wf (fun _ h2 => wg_wf h2)
    · refine bind_act placedLoad_wf fun _ => ?_
      refine bind_here fun _ _ => ?_
      split
      · exact change_wf (fun _ h4 => wg_wf h4)
      · split
        · exact change_wf (fun _ h5 => wg_wf h5)
        · exact ite_act (change_wf (fun _ h6 => wg_wf h6)) (bind_act launchCtx_wf (fun _ => change_wf (fun _ h7 => wg_wf
            h7)))

theorem waitReturned_wf {s : State} {i tag : Nat} (h : Wf s) : Wf (waitReturned s i tag) :=
  ite_wf (ite_wf (freeContext_wf h) (modCtx_wf h)) h

theorem setKlstat_wf {v : Nat} {s : State} (h : Wf s) : Wf (setKlstat v s) := modCsr_wf h

theorem reportDone_wf {d : GReg} {tag code status : Nat} : ActWf (reportDone d tag code status) :=
  bind_act (change_wf (fun _ h1 => setKlstat_wf (wg_wf h1))) (fun _ => bind_act acquire_wf (fun _ => change_wf (fun _ h2 =>
      waitReturned_wf h2)))

theorem execKlwait_wf {d a : GReg} {poll : Bool} {s : State} (h : Wf s) : OutWf (execKlwait d a poll s) := by
  unfold execKlwait
  refine finish_wf h (res_wf ?_ h)
  split
  · exact reportDone_wf
  · split
    · split
      · exact reportDone_wf
      · exact change_wf (fun _ h1 => setKlstat_wf (wg_wf h1))
    · exact ite_act (ite_act (change_wf (fun _ h2 => setKlstat_wf (wg_wf h2))) (fun _ h3 => modCtx_wf h3)) (ite_act
        (ite_act raise_wf (change_wf (fun _ h4 => setKlstat_wf (wg_wf h4)))) reportDone_wf)

theorem startGather_wf {s : State} {clu i : Nat} (h : Wf s) : Wf (startGather s clu i) :=
  ite_wf (spawn_wf (modCtx_wf h)) (spawnOnce_wf (modCtx_wf h))

theorem resumeCtx_wf {s : State} {i : Nat} (h : Wf s) : Wf (resumeCtx s i).2 := by
  unfold resumeCtx
  dsimp only
  split
  · exact spawn_wf (modCtx_wf (modCtx_wf (copySeed_wf (takeTicket_wf h))))
  · split
    · exact faultCtx_wf (modCtx_wf (modCtx_wf (copySeed_wf (takeTicket_wf h))))
    · exact ite_wf (startGather_wf (modCtx_wf (modCtx_wf (copySeed_wf (takeTicket_wf h))))) (spawn_wf (modCtx_wf (modCtx_wf
        (copySeed_wf (takeTicket_wf h)))))

theorem execKlres_wf {d a : GReg} {sc : Scope} {drop : Bool} {s : State} (h : Wf s) : OutWf (execKlres d a sc drop s) :=
  finish_wf h (res_wf (ite_act (change_wf (fun _ h1 => wg_wf h1)) (ite_act (change_wf (fun _ h2 => wg_wf (freeContext_wf h2)))
      (ite_act (change_wf (fun _ h3 => wg_wf h3)) (ite_act (bind_act scoreGrant_wf (fun _ => bind_act notBusy_wf (fun _ =>
      bind_act launchScope_wf (fun _ => bind_act release_wf (fun _ => bind_here (fun _ _ => ite_act parkOn_wf (bind_act
      noteScope_wf (fun _ => bind_here (fun _ h5 => change_wf (fun _ _ => wg_wf (resumeCtx_wf h5))))))))))) (bind_act
      notBusy_wf (fun _ => bind_act launchScope_wf (fun _ => bind_act release_wf (fun _ => bind_here (fun _ _ => ite_act
      parkOn_wf (bind_act noteScope_wf (fun _ => bind_here (fun _ h8 => change_wf (fun _ _ => wg_wf (resumeCtx_wf
      h8)))))))))))))) h)

/-! ### Machine/KleRun.lean -/

theorem ctxRead_wf {s : State} {x : KCtx} {a n : Nat} (h : Wf s) : ExcWf Prod.snd (ctxRead s x a n) := sysRead_wf h

theorem readQuery_wf {s : State} {x : KCtx} (h : Wf s) : ExcWf Prod.snd (readQuery s x) := by
  unfold readQuery
  extract_lets
  split
  · exact trivial
  · next h1 => exact ((ctxRead_wf (same_wf h)).get h1 :)

theorem scoreLookup_wf {s : State} {x : KCtx} (h : Wf s) : ExcWf Prod.snd (scoreLookup s x) :=
  bind_exc (ctxRead_wf h) (fun _ h1 => bind_exc (ctxRead_wf h1) (fun _ h2 => h2))

theorem scoreBag_wf {s : State} {x : KCtx} (h : Wf s) : ExcWf Prod.snd (scoreBag s x) := by
  refine bind_exc (ctxRead_wf h) fun _ h1 => ?_
  dsimp only
  split
  · exact h1
  · exact bind_exc (ctxRead_wf h1) fun _ h2 => h2

theorem kleePost_wf {s : State} {x : KCtx} {i : Nat} {f : Fail} {a access : Nat} (h : Wf s) : Wf (kleePost s x i f a access) :=
  enginePost_wf h

theorem readFails_wf {s : State} {p : PointRead} {f : Fail} {a : Nat} (h : Wf s) : Wf (readFails s p f a) :=
  kleePost_wf (modCtx_wf h)

theorem readCheck_wf {s : State} {x : KCtx} {r : KRead} (h : Wf s) : ExcWf Prod.snd (readCheck s x r) := by
  unfold readCheck
  split
  · exact trivial
  · split
    · exact trivial
    · next h1 =>
        split
        · exact trivial
        · next h2 => exact ((sysCheck_wf ((sysTarget_wf h).get h1 :)).get h2 :)

theorem nextRow_wf {s : State} {clu i : Nat} (h : Wf s) : Wf (nextRow s clu i) :=
  ite_wf h (ite_wf (spawnOnce_wf h) (ite_wf (spawnOnce_wf h) h))

theorem issueRead_wf {s : State} {clu i : Nat} (h : Wf s) : Wf (issueRead s clu i) := by
  unfold issueRead
  extract_lets
  split
  · exact h
  · extract_lets
    split
    · exact ite_wf (modCtx_wf h) (ite_wf (spawnOnce_wf (modCtx_wf (noteLost_wf (modCtx_wf h)))) (readFails_wf (modCtx_wf h)))
    · next h1 =>
        exact ite_wf (spawnOnce_wf (modCtx_wf ((readCheck_wf (modCtx_wf h)).get h1 :))) (spawnOnce_wf (spawnOnce_wf (modCtx_wf
            ((readCheck_wf (modCtx_wf h)).get h1 :))))

theorem execKleScoring_wf {clu ctx : Nat} {s : State} (h : Wf s) : OutWf (execKleScoring clu ctx s) := by
  unfold execKleScoring
  extract_lets
  split
  · exact h
  · split
    · exact ite_out h (ite_wf (nextRow_wf (issueRead_wf h)) (spawnOnce_wf (nextRow_wf (issueRead_wf h))))
    · split
      · split
        · next h1 => exact spawn_wf (modCtx_wf ((readQuery_wf h).get h1 :))
        · exact ite_wf (again_wf (modCtx_wf (noteLost_wf h))) (faultCtx_wf (kleePost_wf (modCtx_wf h)))
      · split
        · next h2 => exact startGather_wf (modCtx_wf ((ite_exc (scoreBag_wf h) (scoreLookup_wf h)).get h2 :))
        · exact ite_wf (again_wf (modCtx_wf (noteLost_wf h))) (faultCtx_wf (kleePost_wf (modCtx_wf h)))

theorem granuleData_wf {s : State} {x : KCtx} {t : Target} {a : Nat} (h : Wf s) : ExcWf (·.2.2) (granuleData s x t a) := by
  unfold granuleData
  split
  · exact serveRead_wf h
  · exact readTarget_wf h
  · exact readTarget_wf h
  · exact readTarget_wf h
  · exact readTarget_wf h
  · exact readTarget_wf h
  · exact readTarget_wf h

theorem takeGranule_wf {s : State} {p : PointRead} {data poison : Nat} (h : Wf s) : Wf (takeGranule s p data poison) := by
  unfold takeGranule
  split
  · exact readFails_wf h
  · exact modCtx_wf h

theorem readPlace_wf {s : State} {x : KCtx} {r : KRead} (h : Wf s) : ExcWf Prod.snd (readPlace s x r) := by
  unfold readPlace
  split
  · exact capturedTarget_wf h
  · exact target_wf h

theorem serveGranule_wf {die : Nat} {acc : State × List (Granule × Nat × Nat)} {p : PointRead} (h : Wf acc.1) : Wf
    (serveGranule die acc p).1 := by
  unfold serveGranule
  dsimp only
  split
  · split
    · exact spawnOnce_wf h
    · split
      · exact spawnOnce_wf (modCtx_wf (noteLost_wf h))
      · exact readFails_wf h
  · next h1 =>
      split
      · exact spawnOnce_wf (spawnOnce_wf (modCtx_wf ((readPlace_wf h).get h1 :)))
      · split
        · exact takeGranule_wf ((readPlace_wf h).get h1 :)
        · split
          · exact readFails_wf ((readPlace_wf h).get h1 :)
          · next h2 => exact takeGranule_wf ((granuleData_wf ((readPlace_wf h).get h1 :)).get h2 :)

theorem foldl_serveGranule_wf {die : Nat} {ps : List PointRead} {acc : State × List (Granule × Nat × Nat)} (h : Wf acc.1) :
    Wf (ps.foldl (serveGranule die) acc).1 := by
  induction ps generalizing acc with
  | nil => exact h
  | cons p ps ih => exact ih (serveGranule_wf h)

theorem execKleServiceRound_wf {die slice : Nat} {s : State} (h : Wf s) : OutWf (execKleServiceRound die slice s) := by
  have hf {l : List PointRead} {t : State} (ht : Wf t) : Wf (l.foldl (fun u q => nextRow u q.clu q.ctx) t) :=
    foldl_wf ht fun _ _ hu => nextRow_wf hu
  unfold execKleServiceRound
  extract_lets last ps
  cases ps with
  | nil => exact h
  | cons p ps =>
    have hs (f : Die → Die) : Wf ((p :: ps).foldl (serveGranule die) (s.modDie die f, [])).1 := foldl_serveGranule_wf (modDie_wf h)
    exact ite_wf (hf (hs _)) (spawnOnce_wf (hf (hs _)))

theorem execKleRowArrival_wf {clu ctx : Nat} {s : State} (h : Wf s) : OutWf (execKleRowArrival clu ctx s) :=
  ite_out h (nextRow_wf (modCtx_wf (same_wf h)))

theorem execKleReadTimeout_wf {clu ctx rank : Nat} {s : State} (h : Wf s) : OutWf (execKleReadTimeout clu ctx rank s) := by
  unfold execKleReadTimeout
  extract_lets
  split
  · exact h
  · exact ite_out h (ite_out (nextRow_wf (readFails_wf h)) (again_wf h))

theorem outWrite_wf {x1 : Nat} {s : State} {x3 : KCtx} {x4 x5 x6 : Nat} (h : Wf s) : Wf (outWrite x1 s x3 x4 x5 x6).1 := by
  induction x1 generalizing s x4 x5 x6 with
  | zero => exact h
  | succ n ih =>
    unfold outWrite
    split
    · exact h
    · dsimp only
      split
      · exact h
      · next heq => exact ih ((sysWriteSec_wf h).get heq)

theorem ctxDone_wf {s : State} {clu i : Nat} (h : Wf s) : Wf (ctxDone s clu i) :=
  ite_wf (modCtx_wf (freeContext_wf (tellWaiters_wf (ite_wf (putRecord_wf (modCtx_wf h)) (completionWord_wf (putRecord_wf
      (modCtx_wf h))))))) (pokeDie_wf (tellWaiters_wf (ite_wf (putRecord_wf (modCtx_wf h)) (completionWord_wf (putRecord_wf
      (modCtx_wf h))))))

theorem outValue_wf {s : State} {x : KCtx} {v : Nat} (h : Wf s) : Wf (outValue s x v).2 := by
  unfold outValue
  split
  · exact free_wf h
  · exact h

theorem execKleLookupComplete_wf {clu ctx : Nat} {s : State} (h : Wf s) : OutWf (execKleLookupComplete clu ctx s) := by
  unfold execKleLookupComplete
  extract_lets
  split
  · exact h
  · split
    · exact faultCtx_wf h
    · dsimp only
      split
      · next h1 => exact ctxDone_wf (h1 ▸ (outWrite_wf (modCtx_wf (outValue_wf h))) :)
      · next h2 =>
          exact ite_out (again_wf (modCtx_wf (noteLost_wf h))) (faultCtx_wf (kleePost_wf (modCtx_wf (h2 ▸ (outWrite_wf
              (modCtx_wf (outValue_wf h))) :))))

theorem execKleOffline_wf {clu : Nat} {s : State} (h : Wf s) : OutWf (execKleOffline clu s) :=
  foldl_wf (count_wf (modClu_wf h fun _ => rfl)) (fun _ _ h1 => faultCtx_wf (modCtx_wf h1))

/-! ### Machine/Streams.lean -/

theorem failElem_wf {f : Fail} {a : Nat} {s : State} (h : Wf s) : Wf (failElem f a s).2 := by
  unfold failElem
  split
  · exact h
  · exact postOwner_wf h
  · exact h
  · exact h
  · exact h
  · exact h
  · exact h
  · exact h
  · exact h
  · exact h
  · exact noteLost_wf h

theorem elemHit_wf {a : Nat} {o : L1Sec} {s : State} (h : Wf s) : Wf (elemHit a o s).2 := by
  unfold elemHit
  split
  · exact failElem_wf h
  · next h1 =>
      split
      · exact failElem_wf ((sysTarget_wf h).get h1 :)
      · next h2 =>
          split
          · exact ((sysCheck_wf ((sysTarget_wf h).get h1 :)).get h2 :)
          · exact ((sysCheck_wf ((sysTarget_wf h).get h1 :)).get h2 :)

theorem streamLoad_wf {a : Nat} {s0 : State} (h : Wf s0) : Wf (streamLoad a s0).2 := by
  unfold streamLoad
  dsimp only
  split
  · exact drainPushes_wf h
  · split
    · split
      · next h1 => exact ((placedLoad_wf _ (drainPushes_wf h)).get h1 :)
      · exact drainPushes_wf h
      · exact drainPushes_wf h
    · split
      · exact failElem_wf (drainPushes_wf h)
      · next h2 =>
          split
          · exact ((target_wf (drainPushes_wf h)).get h2 :)
          · split
            · split
              · exact failElem_wf ((target_wf (drainPushes_wf h)).get h2 :)
              · next h3 => exact noFill_wf ((sysReadSec_wf ((target_wf (drainPushes_wf h)).get h2 :)).get h3 :)
            · split
              · exact elemHit_wf ((target_wf (drainPushes_wf h)).get h2 :)
              · split
                · exact failElem_wf ((target_wf (drainPushes_wf h)).get h2 :)
                · next h4 => exact noFill_wf ((sysReadSec_wf ((target_wf (drainPushes_wf h)).get h2 :)).get h4 :)

theorem unitIdle_wf {s : State} {core unit slot : Nat} {u : SUnit} (h : Wf s) : Wf (unitIdle s core unit slot u) := by
  unfold unitIdle
  split
  · exact h
  · exact ite_wf (again_wf h) (modStrand_wf h)

theorem execStreamElementFetch_wf {core unit : Nat} {s : State} (h : Wf s) : OutWf (execStreamElementFetch core unit s) := by
  unfold execStreamElementFetch
  dsimp only
  split
  · exact h
  · split
    · exact unitIdle_wf h
    · split
      · exact again_wf (asPlace_wf (fun _ h1 => streamLoad_wf h1) h)
      · exact spawn_wf (modStrand_wf (modUnit_wf (asPlace_wf (fun _ h2 => streamLoad_wf h2) h)))

theorem execStreamPush_wf {core unit : Nat} {s : State} (h : Wf s) : OutWf (execStreamPush core unit s) := by
  unfold execStreamPush
  extract_lets
  split
  · exact h
  · exact modStrand_wf (drainSlot_wf h)

theorem freeUnits_wf {s : State} {p : Place} (h : Wf s) : Wf (freeUnits s p) :=
  foldl_wf (drainPushes_wf h) (fun _ _ h1 => ite_wf (modUnit_wf h1) h1)

theorem descCheck_wf {d x : Nat} {u : SUnit} : ActWf (descCheck d x u) := ite_act reserved_wf (ite_act memTrap_wf pure_act)

theorem execScfg_wf {d a : GReg} {s : State} (h : Wf s) : OutWf (execScfg d a s) := by
  unfold execScfg
  refine finish_wf h (res_wf (bind_act ownSteady_wf ?_) h)
  intro _
  split
  · exact memTrap_wf
  · refine bind_act aligned_wf fun _ => ?_
    refine bind_act placedLoad_wf fun _ => ?_
    refine bind_act descCheck_wf fun _ => ?_
    refine change_wf fun _ h1 => ?_
    split
    · exact wg_wf (modUnit_wf h1)
    · exact wg_wf h1

theorem execSbind_wf {d : VReg} {a : GReg} {wr : Bool} {s : State} (h : Wf s) : OutWf (execSbind d a wr s) :=
  finish_wf h (res_wf (ite_act (change_wf (fun _ h1 => ite_wf (modUnit_wf h1) (spawn_wf (modUnit_wf h1)))) illegal_wf) h)

theorem execSfree_wf {a : GReg} {s : State} (h : Wf s) : OutWf (execSfree a s) := by
  unfold execSfree
  refine finish_wf h (res_wf ?_ h)
  split
  · split
    · refine change_wf fun _ h1 => ?_
      refine modUnit_wf ?_
      split
      · exact h1
      · exact modMe_wf h1
    · exact bind_act (change_wf (fun _ h2 => spawnOnce_wf h2)) (fun _ => parkOn_wf)
  · exact illegal_wf

theorem execSpos_wf {d a b : GReg} {upd : Bool} {s : State} (h : Wf s) : OutWf (execSpos d a b upd s) :=
  finish_wf h (res_wf (ite_act (ite_act (bind_act (change_wf (fun _ h1 => spawnOnce_wf h1)) (fun _ => parkOn_wf)) (change_wf
      (fun _ h2 => ite_wf (ite_wf (modUnit_wf (wg_wf h2)) (spawn_wf (modUnit_wf (wg_wf h2)))) (wg_wf h2)))) illegal_wf) h)

/-! ### Machine/Matrix.lean -/

theorem modTile_wf {s : State} {coreKey i : Nat} {f : Tile → Tile} (h : Wf s) : Wf (s.modTile coreKey i f) :=
  modCore_wf h fun _ => rfl

theorem tileShape_wf {α : Type} {code : Nat} {ts : List Nat} : ActWf (tileShape code ts : Act α) := fun _ _ => trivial

theorem tileCheck_wf {code : Nat} {ts : List Nat} : ActWf (tileCheck code ts) := ite_act pure_act tileShape_wf

theorem needTiles_wf {ts : List Nat} : ActWf (needTiles ts) := fun _ h1 => ite_run h1 (tileCheck_wf _ h1)

theorem needChunk_wf {i j : Nat} : ActWf (needChunk i j) := ite_act pure_act tileShape_wf

theorem needShapes_wf {k : MKind} {acc col d a b : Nat} : ActWf (needShapes k acc col d a b) :=
  fun _ h1 => (bind_act tileCheck_wf (fun _ => bind_act tileCheck_wf (fun _ => tileCheck_wf))) _ h1

theorem startHead_wf {s : State} {core st : Nat} (h : Wf s) : Wf (startHead s core st) := by
  unfold startHead
  split
  · exact h
  · split
    · exact ite_wf (spawnOnce_wf h) h
    · exact ite_wf (joinImplicit_wf (modCore_wf h fun _ => rfl)) (ite_wf h (spawnOnce_wf h))

theorem startHeads_wf {s : State} {core : Nat} (h : Wf s) : Wf (startHeads s core) := foldl_wf h (fun _ _ h1 => startHead_wf h1)

theorem appendOp_wf {s : State} {core st : Nat} {o : MOp} (h : Wf s) : Wf (appendOp s core st o) :=
  startHeads_wf (modCore_wf h fun _ => rfl)

theorem queueOp_wf {st : Nat} {o : MOp} : ActWf (queueOp st o) :=
  ite_act (bind_act needGrant_wf (fun _ => bind_here (fun _ _ => ite_act parkOn_wf (change_wf (fun _ h2 => appendOp_wf
      (copySeed_wf h2)))))) (bind_here (fun _ _ => ite_act parkOn_wf (change_wf (fun _ h4 => appendOp_wf (copySeed_wf h4)))))

theorem mulOp_wf {k : MKind} {d a b : TReg} {df : Dataflow} {st : BitVec 2} {acc : FloatFmt} {s : State} (h : Wf s) : OutWf
    (mulOp k d a b df st acc s) :=
  finish_wf h (res_wf (bind_act needTiles_wf (fun _ => bind_act needShapes_wf (fun _ => queueOp_wf))) h)

theorem execMma_wf {d a b : TReg} {df : Dataflow} {st : BitVec 2} {acc : FloatFmt} {s : State} (h : Wf s) : OutWf (execMma d a
    b df st acc s) :=
  mulOp_wf h

theorem execMmas_wf {d a b : TReg} {df : Dataflow} {st : BitVec 2} {acc : FloatFmt} {s : State} (h : Wf s) : OutWf (execMmas d
    a b df st acc s) :=
  mulOp_wf h

theorem execMmss_wf {d a b : TReg} {df : Dataflow} {st : BitVec 2} {acc : FloatFmt} {s : State} (h : Wf s) : OutWf (execMmss d
    a b df st acc s) :=
  mulOp_wf h

theorem execTzero_wf {d : TReg} {st : BitVec 2} {s : State} (h : Wf s) : OutWf (execTzero d st s) :=
  finish_wf h (res_wf (bind_act needTiles_wf (fun _ => queueOp_wf)) h)

theorem execTcvt_wf {d a : TReg} {st : BitVec 2} {rs : RoundSel} {s : State} (h : Wf s) : OutWf (execTcvt d a st rs s) :=
  finish_wf h (res_wf (bind_act needTiles_wf (fun _ => bind_act needShapes_wf (fun _ => queueOp_wf))) h)

theorem execTadd_wf {d a b : TReg} {st : BitVec 2} {rs : RoundSel} {s : State} (h : Wf s) : OutWf (execTadd d a b st rs s) :=
  finish_wf h (res_wf (bind_act needTiles_wf (fun _ => bind_act needShapes_wf (fun _ => queueOp_wf))) h)

theorem execTscale_wf {d a b : TReg} {st : BitVec 2} {rs : RoundSel} {col : Bool} {s : State} (h : Wf s) : OutWf (execTscale d
    a b st rs col s) :=
  finish_wf h (res_wf (bind_act needTiles_wf (fun _ => bind_act needShapes_wf (fun _ => queueOp_wf))) h)

theorem execTtrans_wf {d a : TReg} {st : BitVec 2} {s : State} (h : Wf s) : OutWf (execTtrans d a st s) :=
  finish_wf h (res_wf (bind_act needTiles_wf (fun _ => bind_act needShapes_wf (fun _ => queueOp_wf))) h)

theorem execVmovt_wf {d : TReg} {a : VReg} {b : GReg} {st : BitVec 2} {s : State} (h : Wf s) : OutWf (execVmovt d a b st s) :=
  finish_wf h (res_wf (bind_act needTiles_wf (fun _ => bind_act needChunk_wf (fun _ => bind_act rv_wf (fun _ => queueOp_wf))))
      h)

theorem rowCheck_wf {data : Bool} {x1 x2 x3 : Nat} {x4 : Access} : ActWf (rowCheck data x1 x2 x3 x4) := by
  induction x1 generalizing x2 x3 with
  | zero => exact pure_act
  | succ n ih =>
    refine ite_act pure_act (bind_act ?_ fun _ => bind_act ih fun _ => pure_act)
    refine ite_act (bind_act ?_ fun _ => pure_act) (bind_act sectorFor_wf fun _ => pure_act)
    refine ite_act placedStoreCheck_wf ?_
    exact ite_act (bind_act placedLoad_wf fun _ => pure_act) placedCheck_wf

theorem maskWord_wf {a : Nat} : ActWf (maskWord a) := by
  unfold maskWord
  intro _ h1
  dsimp only
  split
  · split
    · next h2 => exact ((placedCheck_wf _ h1).err h2 :)
    · next h3 =>
        exact ite_run ((placedCheck_wf _ h1).get h3 :) (ite_run ((placedCheck_wf _ h1).get h3 :) (placedLoad_wf _
            ((placedCheck_wf _ h1).get h3 :)))
  · split
    · next h4 => exact ((sectorFor_wf _ h1).err h4 :)
    · next h5 => exact ((sectorFor_wf _ h1).get h5 :)

theorem rowsCheck_wf {ld : Bool} {ptr : Nat} {stride : ℤ} {sh : Nat} {x1 : List Nat} : ActWf (rowsCheck ld ptr stride sh x1) := by
  induction x1 with
  | nil => exact pure_act
  | cons i is ih =>
    refine bind_act (ite_act (bind_act maskWord_wf fun _ => pure_act) pure_act) fun _ => ?_
    exact bind_act rowCheck_wf fun _ => bind_act ih fun _ => pure_act

theorem tileMemory_wf {ld : Bool} {d : Nat} {a b : GReg} {st : Nat} : ActWf (tileMemory ld d a b st) :=
  bind_act needTiles_wf (fun _ => bind_here (fun _ _ => bind_act pushesFirst_wf (fun _ => bind_act tileCheck_wf (fun _ =>
      ite_act memTrap_wf (bind_act rowsCheck_wf (fun _ => bind_act queueOp_wf (fun _ => change_wf (fun _ h2 => ite_wf h2
      (foldl_wf h2 (fun _ _ h3 => markTarget_wf h3))))))))))

theorem execTld_wf {d : TReg} {a b : GReg} {st : BitVec 2} {s : State} (h : Wf s) : OutWf (execTld d a b st s) :=
  finish_wf h (res_wf tileMemory_wf h)

theorem execTst_wf {d : TReg} {a b : GReg} {st : BitVec 2} {s : State} (h : Wf s) : OutWf (execTst d a b st s) :=
  finish_wf h (res_wf tileMemory_wf h)

theorem unansweredPost_wf {s : State} {core : Nat} {o : MOp} {a kind : Nat} (h : Wf s) : Wf (unansweredPost s core o a kind) :=
  postFault_wf (count_wf h)

theorem opReadSec_wf {s : State} {core : Nat} {o : MOp} {a n : Nat} (h : Wf s) : Wf (opReadSec s core o a n).2.2 := by
  unfold opReadSec
  dsimp only
  split
  · split
    · exact h
    · split
      · exact h
      · exact h
  · split
    · split
      · exact unansweredPost_wf h
      · next h1 =>
          split
          · exact unansweredPost_wf ((capturedTarget_wf h).get h1 :)
          · next h2 => exact noFill_wf ((readTarget_wf ((capturedTarget_wf h).get h1 :)).get h2 :)
    · split
      · exact h
      · split
        · exact unansweredPost_wf h
        · next h3 =>
            split
            · exact unansweredPost_wf ((capturedTarget_wf h).get h3 :)
            · next h4 => exact noFill_wf ((readTarget_wf ((capturedTarget_wf h).get h3 :)).get h4 :)

theorem opRead_wf {x1 : Nat} {s : State} {x3 : Nat} {x4 : MOp} {x5 x6 : Nat} (h : Wf s) : Wf (opRead x1 s x3 x4 x5 x6).2.2.2 := by
  induction x1 generalizing s x5 x6 with
  | zero => exact h
  | succ n ih =>
    unfold opRead
    split
    · exact h
    · exact ih (opReadSec_wf h)

theorem noteError_wf {s : State} {core st : Nat} {o : MOp} {addr kind : Nat} (h : Wf s) : Wf (noteError s core st o addr kind) := by
  unfold noteError
  split
  · exact h
  · exact modStrand_wf h

theorem modHead_wf {s : State} {core st : Nat} {f : MOp → MOp} (h : Wf s) : Wf (modHead s core st f) := by
  refine modCore_wf h fun c => ?_
  split <;> rfl

theorem readTile_wf {s : State} {core st since i sh : Nat} (h : Wf s) : Wf (readTile s core st since i sh).2 := by
  unfold readTile
  extract_lets
  split
  · exact h
  · exact same_wf (same_wf (same_wf h))

theorem writeTile_wf {s : State} {core st : Nat} {o : MOp} {m : Nat × Nat} {u : Tile} {psn : Option (Bool × Option Nat)} (h :
    Wf s) : Wf (writeTile s core st o m u psn) :=
  modTile_wf h

theorem settleTile_wf {q : Nat → Bool} {core c : Nat} {s : State} {i : Nat} (h : Wf s) : Wf (settleTile q core c s i) :=
  ite_wf h (ite_wf (modTile_wf h) (modTile_wf (free_wf (free_wf (free_wf h)))))

theorem settleTiles_wf {s : State} {core : Nat} {own : Option Nat} {q : Nat → Bool} (h : Wf s) : Wf (settleTiles s core own q)
    :=
  foldl_wf (modCore_wf h fun _ => rfl) (fun _ _ h1 => settleTile_wf h1)

theorem tldRow_wf {s : State} {core st : Nat} {o : MOp} (h : Wf s) : Wf (tldRow s core st o).1 := by
  unfold tldRow
  dsimp only
  exact writeTile_wf (opRead_wf h)

theorem tldEnd_wf {s : State} {core st : Nat} {o : MOp} (h : Wf s) : Wf (tldEnd s core st o) := by
  unfold tldEnd
  split
  · exact h
  · exact noteError_wf h

theorem l1Absorb_wf {s : State} {core a n x : Nat} (h : Wf s) : Wf (l1Absorb s core a n x) := by
  unfold l1Absorb
  split
  · exact modCore_wf h fun _ => rfl
  · exact h

theorem opWriteSec_wf {s : State} {core : Nat} {o : MOp} {a n x : Nat} (h : Wf s) : Wf (opWriteSec s core o a n x).2 := by
  unfold opWriteSec
  split
  · exact asPlace_wf (f := fun t => ((), placedStore t a n (2 ^ n - 1) x)) (fun _ ht => placedStore_wf ht) h
  · split
    · exact h
    · next heq =>
        have h1 := (capturedTarget_wf h).get heq
        split
        · exact h1
        · next heq' => exact noFill_wf (l1Absorb_wf ((writeTarget_wf h1).get heq' :))

theorem opWrite_wf {x1 : Nat} {s : State} {x3 x4 : Nat} {x5 : MOp} {x6 x7 x8 : Nat} (h : Wf s) : Wf (opWrite x1 s x3 x4 x5
    x6 x7 x8) := by
  induction x1 generalizing s x6 x7 x8 with
  | zero => exact h
  | succ n ih =>
    unfold opWrite
    have hs (r : Nat) := opWriteSec_wf (core := x3) (o := x5) (a := x6) (n := r) (x := x8 % 256 ^ r) h
    exact ite_wf h (ih (ite_wf (hs _) (unansweredPost_wf (noteError_wf (hs _)))))

theorem tstRow_wf {s : State} {core st : Nat} {o : MOp} {i : Nat} (h : Wf s) : Wf (tstRow s core st o i) :=
  opWrite_wf (readTile_wf h)

theorem runOnTiles_wf {s : State} {core st : Nat} {o : MOp} {want : Nat} (h : Wf s) : Wf (runOnTiles s core st o want) := by
  unfold runOnTiles
  dsimp only
  split
  · exact writeTile_wf (readTile_wf (readTile_wf (readTile_wf h)))
  · exact modStrand_wf (writeTile_wf (readTile_wf (readTile_wf (readTile_wf h))))

theorem makeUnits_wf {s : State} {core st : Nat} {o : MOp} {want : Nat} (h : Wf s) : Wf (makeUnits s core st o want) :=
  ite_wf h (modHead_wf (runOnTiles_wf h))

theorem popOp_wf {s : State} {core st : Nat} (h : Wf s) : Wf (popOp s core st) :=
  startHeads_wf (wakeCore_wf (modCore_wf h fun _ => rfl))

theorem endOp_wf {s : State} {core st : Nat} {o : MOp} (h : Wf s) : Wf (endOp s core st o) :=
  ite_wf (ungrant_wf (popOp_wf h)) (popOp_wf h)

theorem moveRow_wf {s : State} {core st : Nat} {o : MOp} (h : Wf s) : Wf (moveRow s core st o) := by
  unfold moveRow
  split
  · exact again_wf (modHead_wf (noteLost_wf h))
  · exact ite_wf (ite_wf (spawn_wf (modHead_wf (tldRow_wf h))) (endOp_wf (ite_wf (tldEnd_wf (tldRow_wf h)) (tldRow_wf h))))
      (ite_wf (spawn_wf (modHead_wf (tstRow_wf h))) (endOp_wf (ite_wf (tldEnd_wf (tstRow_wf h)) (tstRow_wf h))))

theorem execMatrixOpComplete_wf {core st : Nat} {s : State} (h : Wf s) : OutWf (execMatrixOpComplete core st s) := by
  unfold execMatrixOpComplete
  split
  · exact h
  · split
    · exact ite_wf (moveRow_wf h) (again_wf h)
    · exact ite_wf (moveRow_wf h) (again_wf h)
    · exact ite_wf (endOp_wf (settleTiles_wf h)) (again_wf h)
    · exact ite_out h (ite_out (endOp_wf (makeUnits_wf h)) (ite_out h (again_wf (makeUnits_wf (free_wf h)))))

theorem matrixCycle_wf {s : State} {core : Nat} (h : Wf s) : Wf (matrixCycle s core) := by
  unfold matrixCycle
  extract_lets
  split
  · exact h
  · split
    · exact h
    · exact ite_wf (urge_wf (modCore_wf h fun _ => rfl)) (modCore_wf h fun _ => rfl)

theorem mergeFlags_wf {s : State} {p : Place} {sts : List Nat} (h : Wf s) : Wf (mergeFlags s p sts) := modStrand_wf h

theorem raisePending_wf {s : State} {sts : List Nat} {m : Act Unit} (g1 : Wf s) (g2 : ActWf m) : OutWf (raisePending s sts m) := by
  unfold raisePending
  split
  · exact finish_wf (same_wf g1) trivial
  · exact finish_wf g1 (res_wf g2 g1)

theorem execMjoin_wf {mask : BitVec 4} {s : State} (h : Wf s) : OutWf (execMjoin mask s) :=
  ite_out (finish_wf h h) (raisePending_wf h (change_wf (fun _ h1 => settleTiles_wf (mergeFlags_wf h1))))

theorem execTmovv_wf {d : VReg} {a : TReg} {b : GReg} {st : BitVec 2} {s : State} (h : Wf s) : OutWf (execTmovv d a b st s) := by
  unfold execTmovv
  extract_lets
  split
  · next h1 => exact finish_wf h (((bind_act needTiles_wf (fun _ => needChunk_wf)) _ h).err h1 :)
  · exact ite_out (raisePending_wf h (bind_act (fun _ h2 => readTile_wf (settleTiles_wf h2)) (fun _ => wv_wf))) (finish_wf h h)

theorem execTalloc_wf {d a : GReg} {s : State} (h : Wf s) : OutWf (execTalloc d a s) :=
  ite_out (finish_wf h h) (done_out (ite_wf (wg_wf (foldl_wf h (fun _ _ h1 => ite_wf (modTile_wf h1) h1))) (wg_wf h)))

theorem freeTiles_wf {s : State} {p : Place} {mask : Nat} (h : Wf s) : Wf (freeTiles s p mask) :=
  foldl_wf h (fun _ _ h1 => modTile_wf h1)

theorem execTfree_wf {a : GReg} {s : State} (h : Wf s) : OutWf (execTfree a s) :=
  finish_wf h (ite_res h (freeTiles_wf (settleTiles_wf (mergeFlags_wf h))))

theorem writeTsh_wf {i : Nat} {v : Word} : ActWf (writeTsh i v) :=
  bind_act needTiles_wf (fun _ => bind_act tileCheck_wf (fun _ => change_wf (fun _ h1 => modTile_wf h1)))

theorem execTshape_wf {d : TReg} {a : GReg} {s : State} (h : Wf s) : OutWf (execTshape d a s) :=
  finish_wf h (res_wf writeTsh_wf h)

end Sys2Proof.Proofs.MemKept
end

section
/-! SUPPORT. The canonical form of the memories, function by function of the model (log 5), in the order of the model's files:
Fetch, Traps, Travel, Csr, Policy, Remote, Slots, Inval, Homes. -/

namespace Sys2Proof.Proofs.MemKept

open Sys2Proof Sys2Proof.Machine Sys2Proof.Laws MemForm HomeAccess

/-! ### Machine/Fetch.lean -/

theorem takeBlock_wf {a : Nat} {b : IcBlock} : ActWf (takeBlock a b) := by
  unfold takeBlock
  intro _ h1
  dsimp only
  split
  · next h2 => exact ((attrCheck_wf _ h1).err h2 :)
  · next h3 => exact modMe_wf ((attrCheck_wf _ h1).get h3 :)

theorem fetchWords_wf {a : Nat} : ActWf (fetchWords a) := by
  unfold fetchWords
  intro _ h1
  dsimp only
  split
  · exact h1
  · split
    · exact h1
    · split
      · exact trivial
      · split
        · exact ite_run (takeBlock_wf _ h1) (request_wf _ h1)
        · exact ite_run trivial (takeBlock_wf _ h1)
        · exact absent_wf _ h1
        · exact trivial
        · exact trivial
        · exact trivial
        · exact request_wf _ h1

theorem markIssued_wf {s : State} {p : Place} (h : Wf s) : Wf (markIssued s p) := modStrand_wf (modCore_wf h fun _ => rfl)

/-! ### Machine/Traps.lean -/

theorem withdrawArrival_wf {s : State} {p : Place} (h : Wf s) : Wf (withdrawArrival s p) := ite_wf (same_wf h) h

theorem abandonBundle_wf {s0 : State} {p : Place} (h : Wf s0) : Wf (abandonBundle s0 p) :=
  wakeAdmission_wf (modDie_wf (quitWaits_wf (withdrawArrival_wf h)))

theorem asyncEnter_wf {s : State} {p : Place} (h : Wf s) : Wf (asyncEnter s p) := by
  unfold asyncEnter
  split
  · exact h
  · exact modStrand_wf (leaveCourse_wf (abandonBundle_wf h))

theorem asyncTrap_wf {s : State} {p : Place} (h : Wf s) : Wf (asyncTrap s p) := ite_wf h (asyncEnter_wf h)

theorem asyncDue_wf {s : State} {p : Place} (h : Wf s) : Wf (asyncDue s p) := ite_wf (spawn_wf h) h

theorem execAsyncTrapEntry_wf {p : Place} {s : State} (h : Wf s) : OutWf (execAsyncTrapEntry p s) := asyncTrap_wf h

theorem execItimerFire_wf {p : Place} {s : State} (h : Wf s) : OutWf (execItimerFire p s) :=
  ite_out (spawn_wf (modStrand_wf h)) h

theorem execIntdbWrite_wf {m vf : Nat} {v : Word} {s : State} (h : Wf s) : OutWf (execIntdbWrite m vf v s) := by
  unfold execIntdbWrite
  split
  · exact count_wf h
  · exact ite_out (spawn_wf (modStrand_wf h)) (count_wf h)

theorem execPreemptNotice_wf {m vf : Nat} {w : Word} {s : State} (h : Wf s) : OutWf (execPreemptNotice m vf w s) :=
  spawns_wf (same_wf h)

theorem execIllegalInstr_wf {op : BitVec 7} {s : State} (h : Wf s) : OutWf (execIllegalInstr op s) := finish_wf h trivial

theorem execReservedField_wf {sub : Nat} {s : State} (h : Wf s) : OutWf (execReservedField sub s) := finish_wf h trivial

theorem execTrap_wf {imm : BitVec 13} {s : State} (h : Wf s) : OutWf (execTrap imm s) := same_wf (syncTrap_wf h)

theorem execEret_wf {s : State} (h : Wf s) : OutWf (execEret s) :=
  finish_wf h (res_wf (bind_act needSuper_wf (fun _ => change_wf (fun _ h1 => returnTrap_wf h1))) h)

/-! ### Machine/Travel.lean -/

theorem execSmig_wf {d a : GReg} {s : State} (h : Wf s) : OutWf (execSmig d a s) :=
  finish_wf h (res_wf (ite_act (change_wf (fun _ h1 => wg_wf h1)) (ite_act raise_wf (ite_act parkOn_wf (bind_act release_wf
      (fun _ => fun _ h2 => depart_wf h2))))) h)

theorem execAutoMigration_wf {core : Nat} {s : State} (h : Wf s) : OutWf (execAutoMigration core s) := by
  have h1 (p : Place) : Wf (drainPushes (s.modCore core fun y => { y with lastMig := some s.ticks }) p) :=
    drainPushes_wf (modCore_wf h fun _ => rfl)
  unfold execAutoMigration
  dsimp only
  split
  · exact h
  · split
    · exact h
    · next i _ =>
      have hi := h1 (placeOf core i)
      split
      · exact h
      · generalize drainPushes _ (placeOf core i) = t at hi
        split
        · split
          · exact sendContext_wf hi
          · exact hi
        · exact spawn_wf (modClu_wf (modStrand_wf (startRelease_wf hi)) fun _ => rfl)

theorem execMigrationArrival_wf {clu : Nat} {s : State} (h : Wf s) : OutWf (execMigrationArrival clu s) := by
  unfold execMigrationArrival
  split
  · exact ite_wf h (again_wf h)
  · exact spawn_wf (setShadow_wf (acquireAt_wf (setStrand_wf (modClu_wf h fun _ => rfl))))

theorem autoDepart_wf {clu : Nat} {s : State} {t : Traveller} (h : Wf s) : Wf (autoDepart clu s t) := by
  unfold autoDepart
  extract_lets
  split
  · exact h
  · split
    · exact sendContext_wf h
    · exact modStrand_wf (modClu_wf h fun _ => rfl)

theorem execMigrationSlotFree_wf {clu : Nat} {s : State} (h : Wf s) : OutWf (execMigrationSlotFree clu s) := by
  unfold execMigrationSlotFree
  dsimp only
  split
  · split
    · exact modStrand_wf (foldl_wf (modClu_wf h fun _ => rfl) (fun _ _ h1 => autoDepart_wf h1))
    · exact foldl_wf (modClu_wf h fun _ => rfl) (fun _ _ h2 => autoDepart_wf h2)
  · refine again_wf ?_
    split
    · exact modStrand_wf (foldl_wf (modClu_wf h fun _ => rfl) (fun _ _ h3 => autoDepart_wf h3))
    · exact foldl_wf (modClu_wf h fun _ => rfl) (fun _ _ h4 => autoDepart_wf h4)

theorem execEngineRestore_wf {clu eng : Nat} {s : State} (h : Wf s) : OutWf (execEngineRestore clu eng s) :=
  modClu_wf h fun c => by split <;> rfl

/-! ### Machine/Csr.lean -/

theorem popRecord_wf {s : State} {dk vf : Nat} (h : Wf s) : Wf (popRecord s dk vf) := modDie_wf h

theorem csrAllowed_wf {op n : Nat} {wr : Bool} : ActWf (csrAllowed op n wr) :=
  ite_act reserved_wf (ite_act needSuper_wf pure_act)

theorem clearVused_wf {s : State} (h : Wf s) : Wf (clearVused s) := modMe_wf h

theorem writeSstat_wf {op : Nat} {v : Word} : ActWf (writeSstat op v) :=
  fun _ h1 => ite_run trivial (ite_wf (clearVused_wf (modCsr_wf h1)) (modCsr_wf h1))

theorem sendWake_wf {s : State} {v : Word} (h : Wf s) : Wf (sendWake s v) := spawn_wf (note_wf h)

theorem csrWrite_wf {op n : Nat} {v : Word} : ActWf (csrWrite op n v) := by
  unfold csrWrite
  extract_lets
  split
  · exact writeSstat_wf
  · exact change_wf (fun _ h1 => modCsr_wf h1)
  · exact change_wf (fun _ h2 => modCsr_wf h2)
  · exact change_wf (fun _ h3 => modCsr_wf h3)
  · exact change_wf (fun _ h4 => modCsr_wf h4)
  · exact change_wf (fun _ h5 => modCsr_wf h5)
  · exact change_wf (fun _ h6 => modCsr_wf h6)
  · exact change_wf (fun _ h7 => modCsr_wf h7)
  · exact change_wf (fun _ h8 => modCsr_wf h8)
  · exact change_wf (fun _ h9 => modCsr_wf h9)
  · exact change_wf (fun _ h10 => modCsr_wf h10)
  · exact change_wf (fun _ h11 => modCsr_wf h11)
  · exact change_wf (fun _ h12 => modCsr_wf h12)
  · exact change_wf (fun _ h13 => modCsr_wf h13)
  · exact change_wf (fun _ h14 => modMyCore_wf h14 fun _ => rfl)
  · exact change_wf (fun _ h15 => modMyCore_wf h15 fun _ => rfl)
  · exact change_wf (fun _ h16 => modMyCore_wf h16 fun _ => rfl)
  · exact change_wf (fun _ h17 => setTail_wf h17)
  · exact bind_act (change_wf (fun _ h18 => modPolicy_wf h18)) (fun _ => change_wf (fun _ h19 => drainPosts_wf h19))
  · exact change_wf (fun _ h20 => sendWake_wf h20)
  · exact change_wf (fun _ h21 => modPolicy_wf h21)
  · exact ite_act writeTsh_wf pure_act

theorem csrTake_wf {n : Nat} : ActWf (csrTake n) := fun _ h1 => ite_wf (popRecord_wf h1) h1

theorem execCsrr_wf {d : GReg} {csr : BitVec 12} {s : State} (h : Wf s) : OutWf (execCsrr d csr s) :=
  finish_wf h (res_wf (bind_act csrAllowed_wf (fun _ => bind_act csrTake_wf (fun _ => change_wf (fun _ h1 => wg_wf h1)))) h)

theorem execCsrw_wf {a : GReg} {csr : BitVec 12} {s : State} (h : Wf s) : OutWf (execCsrw a csr s) :=
  finish_wf h (res_wf (bind_act csrAllowed_wf (fun _ => csrWrite_wf)) h)

theorem execCsrx_wf {d a : GReg} {csr : BitVec 12} {s : State} (h : Wf s) : OutWf (execCsrx d a csr s) :=
  finish_wf h (res_wf (bind_act csrAllowed_wf (fun _ => bind_act csrTake_wf (fun _ => bind_act csrWrite_wf (fun _ => change_wf
      (fun _ h1 => wg_wf h1))))) h)

theorem execSstatWrite_wf {v : Word} {s : State} (h : Wf s) : OutWf (execSstatWrite v s) := finish_wf h (res_wf writeSstat_wf h)

theorem execIpendClear_wf {v : Word} {s : State} (h : Wf s) : OutWf (execIpendClear v s) :=
  finish_wf h (res_wf (bind_act csrAllowed_wf (fun _ => csrWrite_wf)) h)

theorem execRegisterWrite_wf {csr : BitVec 12} {v : Word} {s : State} (h : Wf s) : OutWf (execRegisterWrite csr v s) :=
  finish_wf h (res_wf (bind_act csrAllowed_wf (fun _ => csrWrite_wf)) h)

theorem execDieerrlog_wf {d : GReg} {s : State} (h : Wf s) : OutWf (execDieerrlog d s) :=
  finish_wf h (res_wf (bind_act csrAllowed_wf (fun _ => bind_act csrTake_wf (fun _ => change_wf (fun _ h1 => wg_wf h1)))) h)

theorem execFaultack_wf {v : Word} {s : State} (h : Wf s) : OutWf (execFaultack v s) :=
  finish_wf h (res_wf (bind_act csrAllowed_wf (fun _ => change_wf (fun _ h1 => sendWake_wf h1))) h)

theorem wakeStrand_wf {tok : Nat} {deny : Bool} {s : State} {p : Place} (h : Wf s) : Wf (wakeStrand tok deny s p) :=
  ite_wf (modStrand_wf (ite_wf h (dropElements_wf h))) h

theorem wakeXfer_wf {w : FaultWait} {deny : Bool} {s : State} {e : Nat × Nat} (h : Wf s) : Wf (wakeXfer w deny s e) := by
  unfold wakeXfer
  split
  · exact h
  · exact ite_wf h (ite_wf (failXfer_wf (enginePost_wf h)) (nextWrite_wf (modXfer_wf h)))

theorem execFaultackWake_wf {die : Nat} {s : State} (h : Wf s) : OutWf (execFaultackWake die s) := by
  unfold execFaultackWake
  extract_lets
  split
  · exact h
  · extract_lets
    split
    · exact count_wf (same_wf h)
    · exact ite_out (ite_out (count_wf (same_wf h)) (count_wf (modDie_wf (same_wf h)))) (foldl_wf (foldl_wf (modDie_wf (same_wf
        h)) (fun _ _ h1 => wakeStrand_wf h1)) (fun _ _ h2 => wakeXfer_wf h2))

/-! ### Machine/Policy.lean -/

theorem ochreRead_wf {s : State} {m vf a n : Nat} (h : Wf s) : Wf (ochreRead s m vf a n).2 := by
  unfold ochreRead
  split
  · next h1 => exact ((superRead_wf h).get h1 :)
  · exact logMalformed_wf h

theorem ochreWrite_wf {s : State} {m vf a n x : Nat} (h : Wf s) : Wf (ochreWrite s m vf a n x) := by
  unfold ochreWrite
  split
  · next h1 => exact ((superWrite_wf h).get h1 :)
  · exact logMalformed_wf h

theorem setBudgets_wf {s : State} {m units : Nat} (h : Wf s) : Wf (setBudgets s m units) :=
  foldl_wf h (fun _ _ h1 => setBudget_wf (modDie_wf h1))

theorem divideBudget_wf {s : State} {m : Nat} (h : Wf s) : Wf (divideBudget s m) := setBudgets_wf h

theorem setModuleBudget_wf {s : State} {m halfKw : Nat} (h : Wf s) : Wf (setModuleBudget s m halfKw) :=
  ite_wf (ite_wf (divideBudget_wf (modMod_wf h fun _ => ⟨rfl, rfl, rfl⟩)) (modMod_wf h fun _ => ⟨rfl, rfl, rfl⟩)) h

theorem setContexts_wf {s : State} {m vf : Nat} (h : Wf s) : Wf (setContexts s m vf) := by
  unfold setContexts
  extract_lets
  split
  · exact h
  · exact foldl_wf h (fun _ _ h1 => modClu_wf h1 fun _ => rfl)

/-- The pinned window of a VF goes. -/
theorem unpin_wf {x y : Module} {vf : Nat} (hx : x.wf = true) (hd : y.dram = x.dram) (hh : y.host = x.host)
    (hp : y.pinned = fdel x.pinned vf) : y.wf = true := by
  rw [module_wf_iff] at hx ⊢
  obtain ⟨hxd, hxh, hxp⟩ := hx
  exact ⟨hd ▸ hxd, hh ▸ hxh, fun e he => hxp e (List.mem_of_mem_filter (hp ▸ he))⟩

theorem applyField_wf {s : State} {m vf : Nat} {f : PolicyField} (h : Wf s) : Wf (applyField s m vf f) := by
  have hs : Wf (s.modPolicy m vf fun p => p.apply f) := modPolicy_wf h
  unfold applyField
  extract_lets s1
  split
  · exact clearPinned_wf (Keeps.modMod (fun _ hx => unpin_wf hx rfl rfl rfl) hs)
  · exact clearPinned_wf hs
  · exact setContexts_wf hs
  · exact setContexts_wf hs
  · exact drainPosts_wf hs
  · exact ite_wf (modMod_wf hs fun _ => ⟨rfl, rfl, rfl⟩) hs
  · exact modMod_wf hs fun _ => ⟨rfl, rfl, rfl⟩
  · exact setModuleBudget_wf hs
  all_goals exact hs

theorem applySome_wf {s : State} {m vf : Nat} {now : PolicyField → Bool} (h : Wf s) : Wf (applySome s m vf now) :=
  ite_wf (foldl_wf (modPolicy_wf h) (fun _ _ h1 => applyField_wf h1)) h

theorem applyPending_wf {s : State} {m vf : Nat} (h : Wf s) : Wf (applyPending s m vf) := applySome_wf h

theorem applyLate_wf {s : State} {m vf : Nat} (h : Wf s) : Wf (applyLate s m vf) := applySome_wf h

/-! ### Machine/Remote.lean -/

theorem execMcmd_wf {d a b : GReg} {s : State} (h : Wf s) : OutWf (execMcmd d a b s) := by
  unfold execMcmd
  refine finish_wf h ?_
  split
  · exact wg_wf (copySeed_wf h)
  · exact trivial
  · exact ite_res h (ite_res trivial (spawn_wf (note_wf (ask_wf h))))

theorem capEntry_wf {s : State} {m tenant : Nat} {captab : Word} {i : Nat} (h : Wf s) : Wf (capEntry s m tenant captab i).2 := by
  unfold capEntry
  extract_lets
  split
  · exact h
  · split
    · exact logMalformed_wf h
    · next h1 =>
        split
        · exact ((target_wf h).get h1 :)
        · next h2 =>
            split
            · exact ((readTarget_wf ((target_wf h).get h1 :)).get h2 :)
            · exact ((readTarget_wf ((target_wf h).get h1 :)).get h2 :)

theorem answerCommand_wf {s : State} {src : Place} {tgt reason : Nat} (h : Wf s) : Wf (answerCommand s src tgt reason) :=
  spawn_wf (note_wf h)

theorem execMcmdCommand_wf {src : Place} {s : State} (h : Wf s) : OutWf (execMcmdCommand src s) := by
  unfold execMcmdCommand
  extract_lets
  split
  · exact h
  · split
    · exact again_wf h
    · extract_lets
      split
      · exact answerCommand_wf (same_wf h)
      · extract_lets
        split
        · exact answerCommand_wf (same_wf h)
        · dsimp only
          split
          · exact answerCommand_wf (capEntry_wf (same_wf h))
          · exact ite_out (again_wf h) (answerCommand_wf (appendOp_wf (capEntry_wf (same_wf h))))

theorem execMcmdAnswer_wf {src : Place} {s : State} (h : Wf s) : OutWf (execMcmdAnswer src s) := by
  unfold execMcmdAnswer
  extract_lets
  split
  · exact h
  · exact ite_wf (again_wf h) (giveAnswer_wf (same_wf h))

/-! ### Machine/Slots.lean -/

theorem writeArea_wf {s : State} {p : Place} {x : Nat} (h : Wf s) : Wf (writeArea s p x) := by
  unfold writeArea
  generalize 0x400 = n
  exact fireMonitors_wf (Keeps.modCore (fun _ hc => writeN_wf _ _ _ _ hc) h)

theorem quitTravel_wf {s : State} {p : Place} (h : Wf s) : Wf (quitTravel s p) :=
  parts_wf h rfl (partsOf_map (fun _ => by rfl) _) (partsOf_refl _)

theorem holdCtxs_wf {s : State} {p : Place} {l : List (Nat × Nat)} (h : Wf s) : Wf (holdCtxs s p l) := modClu_wf h fun _ => rfl

theorem saveStrand_wf {s : State} {p : Place} (h : Wf s) : Wf (saveStrand s p).2 :=
  emptySlot_wf (modCore_wf (uncharge_wf (freeUnits_wf (quitTravel_wf (abandonBundle_wf (releaseGrant_wf (settleTiles_wf
      (mergeFlags_wf h))))))) fun _ => rfl)

theorem rebindOne_wf {s : State} {p : Place} {r w : Nat} (h : Wf s) : OptWf id (rebindOne s p r w) := by
  unfold rebindOne
  extract_lets
  split
  · exact trivial
  · exact ite_wf (modUnit_wf h) (spawn_wf (modUnit_wf h))

theorem rebindAll_wf {p : Place} {x1 : List (Nat × Nat)} {s : State} (h : Wf s) : Wf (rebindAll p x1 s) := by
  induction x1 generalizing s with
  | nil => exact modStrand_wf h
  | cons e rest ih =>
    unfold rebindAll
    split
    · next heq => exact ih ((rebindOne_wf h).get heq)
    · exact modStrand_wf h

theorem loadStrand_wf {s0 : State} {p : Place} {area : Nat} {dbl : Bool} (h : Wf s0) : Wf (loadStrand s0 p area dbl) :=
  ite_wf (modStrand_wf (rebindAll_wf (holdCtxs_wf (setShadow_wf (charge_wf (modCore_wf (setStrand_wf (applyLate_wf h)) (fun _
      => rfl))))))) (spawn_wf (rebindAll_wf (holdCtxs_wf (setShadow_wf (charge_wf (modCore_wf (setStrand_wf (applyLate_wf h))
      fun _ => rfl))))))

theorem rebindTurn_wf {s : State} {core : Nat} (h : Wf s) : Wf (rebindTurn s core) := foldl_wf h (fun _ _ h1 => rebindAll_wf h1)

theorem pollMem_wf {α : Type} {s : State} (h : Wf s) : RunWf (pollMem s : Except Res (α × State)) := spawn_wf h

theorem holdForSave_wf {s : State} {p : Place} (h : Wf s) : Wf (holdForSave s p) := modStrand_wf (abandonBundle_wf h)

theorem execCtxsave_wf {d a : GReg} {s : State} (h : Wf s) : OutWf (execCtxsave d a s) := by
  unfold execCtxsave
  refine finish_wf h (res_wf (bind_act needSuper_wf ?_) h)
  intro _
  split
  · exact illegal_wf
  · split
    · exact ite_act (fun _ => pollMem_wf) (change_wf (fun _ h1 => wg_wf (writeArea_wf (saveStrand_wf h1))))
    · exact ite_act (change_wf (fun _ h2 => wg_wf h2)) (ite_act (fun _ => pollMem_wf) (ite_act (fun _ h3 => spawn_wf
        (modMe_wf (holdForSave_wf h3))) (change_wf (fun _ h4 => wg_wf (writeArea_wf (saveStrand_wf h4))))))

theorem discardStrand_wf {s : State} {p : Place} (h : Wf s) : Wf (discardStrand s p) :=
  ite_wf (emptySlot_wf (uncharge_wf (freeUnits_wf h))) h

theorem execCtxload_wf {d a : GReg} {s : State} (h : Wf s) : OutWf (execCtxload d a s) := by
  unfold execCtxload
  refine finish_wf h (res_wf (bind_act needSuper_wf ?_) h)
  intro _
  split
  · exact illegal_wf
  · split
    · exact change_wf (fun _ h1 => wg_wf h1)
    · split
      · exact memTrap_wf
      · exact ite_act (change_wf (fun _ h2 => wg_wf h2)) (change_wf (fun _ h3 => wg_wf (loadStrand_wf (discardStrand_wf
          h3))))

theorem modPart_wf {s : State} {m part : Nat} {f : Partition → Partition} (h : Wf s) : Wf (s.modPart m part f) :=
  modMod_wf h fun _ => ⟨rfl, rfl, rfl⟩

theorem regionWrite_wf {s : State} {vf core off n x : Nat} (h : Wf s) : Wf (regionWrite s vf core off n x) := by
  unfold regionWrite
  split
  · exact h
  · exact ochreWrite_wf h

theorem regionRead_wf {s : State} {vf core off n : Nat} (h : Wf s) : Wf (regionRead s vf core off n).2 := by
  unfold regionRead
  split
  · exact h
  · exact ochreRead_wf h

theorem saveTiles_wf {s : State} {vf core part : Nat} (h : Wf s) : Wf (saveTiles s vf core part) := by
  unfold saveTiles
  exact regionWrite_wf (foldl_wf h (fun _ _ h1 => regionWrite_wf (regionWrite_wf (regionWrite_wf h1))))

theorem putTile_wf {s : State} {core part i : Nat} {x : Tile} (h : Wf s) : Wf (putTile s core part i x) :=
  modCore_wf h fun c => by split <;> rfl

theorem loadTiles_wf {s : State} {vf core part : Nat} (h : Wf s) : Wf (loadTiles s vf core part) := by
  unfold loadTiles
  split
  · next heq => exact foldl_wf (heq ▸ regionRead_wf h :) fun _ _ ht => putTile_wf ht
  · next heq =>
      refine foldl_wf (heq ▸ regionRead_wf h :) fun t i ht => ?_
      exact putTile_wf (regionRead_wf (regionRead_wf (regionRead_wf ht)))

theorem beginSwitch_wf {s : State} {m part vf : Nat} (h : Wf s) : Wf (beginSwitch s m part vf) := by
  unfold beginSwitch
  split
  · exact h
  · exact ite_wf (modPart_wf (modMod_wf (modPart_wf h) fun _ => ⟨rfl, rfl, rfl⟩)) (spawns_wf (modMod_wf (modPart_wf h) (fun _
      => ⟨rfl, rfl, rfl⟩)))

theorem execTimeSliceExpiry_wf {m part : Nat} {s : State} (h : Wf s) : OutWf (execTimeSliceExpiry m part s) := by
  unfold execTimeSliceExpiry
  split
  · exact h
  · split
    · exact h
    · split
      · exact again_wf h
      · split
        · exact h
        · split
          · exact modPart_wf h
          · split
            · exact ite_out (spawn_wf h) (beginSwitch_wf h)
            · exact beginSwitch_wf h

theorem handOut_wf {s : State} {p : Place} {out : Option Nat} (h : Wf s) : Wf (handOut s p out) := by
  unfold handOut
  extract_lets
  split
  · exact regionWrite_wf (writeArea_wf (saveStrand_wf h))
  · split
    · exact h
    · exact regionWrite_wf h

theorem handIn_wf {s : State} {p : Place} {vf : Nat} (h : Wf s) : Wf (handIn s p vf) := by
  unfold handIn
  split
  · next h1 => exact (h1 ▸ (regionRead_wf h) :)
  · next h2 => exact ite_wf (h2 ▸ (regionRead_wf h) :) (loadStrand_wf (writeArea_wf (h2 ▸ (regionRead_wf h) :)))

theorem afterHandover_wf {s : State} {p : Place} {part vf : Nat} {out : Option Nat} (h : Wf s) : Wf (afterHandover s p part vf
    out) := by
  have hs : Wf (match out with
        | some v => saveTiles s v p.coreKey part
        | none => s) := by
    split
    · exact saveTiles_wf h
    · exact h
  unfold afterHandover
  extract_lets more t s1 s2 s3
  have h1 : Wf s1 := ite_wf h (pokeEngine_wf (loadTiles_wf hs))
  have h2 : Wf s2 := modPart_wf h1
  exact ite_wf h1 (spawn_wf (ite_wf h2 (spawn_wf h2)))

theorem execSlotHandover_wf {p : Place} {vf : Nat} {s : State} (h : Wf s) : OutWf (execSlotHandover p vf s) :=
  ite_out h (ite_out (again_wf h) (ite_out (again_wf h) (ite_out (again_wf (ite_wf h (holdForSave_wf h))) (afterHandover_wf
      (modMod_wf (handIn_wf (handOut_wf h)) fun _ => ⟨rfl, rfl, rfl⟩)))))

theorem execSpart_wf {d a : GReg} {imm : BitVec 13} {s : State} (h : Wf s) : OutWf (execSpart d a imm s) := by
  unfold execSpart
  refine finish_wf h (res_wf (bind_act needSuper_wf ?_) h)
  intro _
  split
  · exact change_wf (fun _ h1 => wg_wf h1)
  · exact ite_act (change_wf (fun _ h2 => wg_wf h2)) (ite_act parkOn_wf (fun _ h3 => spawn_wf (modMyClu_wf (ask_wf h3) (fun _
      => rfl))))

theorem convertWays_wf {s : State} {clu new : Nat} (h : Wf s) : Wf (convertWays s clu new) := by
  unfold convertWays
  extract_lets old keep taken core
  refine Keeps.modClu (fun _ hc => filter_wf _ _ hc) (foldl_wf h fun t k ht => ?_)
  have hw (l : List L1Line) : Wf (l.foldl (fun u x => sendLineWb u (clu * 16 + k) x) t) :=
    foldl_wf ht fun _ _ hu => sendLineWb_wf hu
  exact ite_wf (modCore_wf (hw _) fun _ => rfl) (hw _)

theorem execSpartConversion_wf {clu : Nat} {s : State} (h : Wf s) : OutWf (execSpartConversion clu s) := by
  unfold execSpartConversion
  split
  · exact h
  · exact ite_out (again_wf h) (ite_wf (wakeClu_wf (giveAnswer_wf (modClu_wf (convertWays_wf h) fun _ => rfl))) (spawn_wf
      (wakeClu_wf (giveAnswer_wf (modClu_wf (convertWays_wf h) fun _ => rfl)))))

/-! ### Machine/Inval.lean -/

theorem dropCode_wf {s : State} {sel : Nat → Bool} {hit : Nat → Nat → Bool} (h : Wf s) : Wf (dropCode s sel hit) :=
  parts_wf h rfl (partsOf_map (fun _ => by split <;> rfl) _) (partsOf_map (fun _ => by split <;> rfl) _)

theorem dropAnswers_wf {s : State} {sel : Nat → Bool} {hit : Nat → Access → Bool} (h : Wf s) : Wf (dropAnswers s sel hit) :=
  same_wf h

theorem flushL1_wf {s : State} {sel : Nat → Bool} {p : Nat → L1Sec → Bool} {q : Nat → Bool} (h : Wf s) : Wf (flushL1 s sel p q)
    :=
  foldl_wf h (fun _ _ h1 => noFill_wf (dropWhere_wf (writeBackWhere_wf h1)))

theorem storePushes_wf {s : State} {sel : Nat → Bool} (h : Wf s) : Wf (storePushes s sel) :=
  foldl_wf h (fun _ _ h1 => drainPushes_wf h1)

theorem flushL2_wf {page : Nat} {s : State} {dk : Nat} (h : Wf s) : Wf (flushL2 page s dk) :=
  ite_wf h (modDie_wf (Keeps.modMod (fun _ hx => foldl_module_wf (fun _ v hy => l2WriteBack_wf v hy) _ hx) h))

theorem dropPage_wf {s : State} {sc : Scope} {page : Nat} (h : Wf s) : Wf (dropPage s sc page) :=
  foldl_wf (dropAnswers_wf (dropCode_wf (flushL1_wf (storePushes_wf h)))) (fun _ _ h1 => modDie_wf h1)

theorem dropSlices_wf {s : State} {sc : Scope} {page : Nat} (h : Wf s) : Wf (dropSlices s sc page) :=
  foldl_wf h (fun _ _ h1 => flushL2_wf h1)

theorem dropDoms_wf {s : State} {sc : Scope} {tenant : Nat} {doms : Nat → Bool} (h : Wf s) : Wf (dropDoms s sc tenant doms) :=
  parts_wf (flushL1_wf (storePushes_wf h)) rfl (partsOf_refl _) (partsOf_map (fun _ => by split <;> rfl) _)

theorem plbinv_wf {sc : Scope} {drop fin : Scope → State → State} {hit : Nat → Bool} (g1 : ∀ a t1, Wf t1 → Wf (drop a t1)) (g2
    : ∀ a t1, Wf t1 → Wf (fin a t1)) : ActWf (plbinv sc drop fin hit) :=
  bind_act needSuper_wf (fun _ => bind_act clamp_wf (fun _ => bind_act release_wf (fun _ => bind_here (fun _ h1 => ite_act
      (ite_act (fun _ => pollMem_wf) (ite_act (stop_wf (spawn_wf (g1 _ _ h1))) (bind_act (change_wf (fun _ h2 => g2 _ _ (g1 _ _
      h2))) (fun _ => bind_act acquire_wf (fun _ => noteClamp_wf))))) (ite_act (fun _ => pollMem_wf) (fun _ h3 => spawn_wf
      (ask_wf (g1 _ _ h3))))))))

theorem execPlbinvPage_wf {a : GReg} {sc : Scope} {s : State} (h : Wf s) : OutWf (execPlbinvPage a sc s) :=
  finish_wf h (res_wf (plbinv_wf (fun _ _ h1 => dropPage_wf h1) (fun _ _ h2 => dropSlices_wf h2)) h)

theorem execPlbinvDom_wf {a : GReg} {sc : Scope} {s : State} (h : Wf s) : OutWf (execPlbinvDom a sc s) :=
  finish_wf h (res_wf (plbinv_wf (fun _ _ h1 => dropDoms_wf h1) (fun _ _ h2 => h2)) h)

theorem execPlbinvVf_wf {sc : Scope} {s : State} (h : Wf s) : OutWf (execPlbinvVf sc s) :=
  finish_wf h (res_wf (plbinv_wf (fun _ _ h1 => dropDoms_wf h1) (fun _ _ h2 => h2)) h)

theorem cflush_wf {a len : Nat} {keep : Bool} {busy : State → Bool} {fin : State → State} (h : ∀ t, Wf t → Wf (fin t)) : ActWf
    (cflush a len keep busy fin) :=
  fun _ h1 => ite_run (ite_run (pollMem_wf h1) (h _ h1)) (ite_run h1 (ite_run (parkOn_wf _ h1) (spawn_wf (ask_wf (ite_wf
      (writeBackWhere_wf h1) (noFill_wf (dropWhere_wf (writeBackWhere_wf h1))))))))

theorem execCflushCode_wf {a b : GReg} {sc : Scope} {s : State} (h : Wf s) : OutWf (execCflushCode a b sc s) :=
  finish_wf h (res_wf (bind_act clamp_wf (fun _ => bind_act (cflush_wf (fun _ h1 => dropAnswers_wf (dropCode_wf h1))) (fun _ =>
      noteClamp_wf))) h)

theorem execCflushWb_wf {a b : GReg} {s : State} (h : Wf s) : OutWf (execCflushWb a b s) :=
  finish_wf h (res_wf (cflush_wf (fun _ h1 => h1)) h)

theorem execCflushInv_wf {a b : GReg} {s : State} (h : Wf s) : OutWf (execCflushInv a b s) :=
  finish_wf h (res_wf (cflush_wf (fun _ h1 => h1)) h)

/-! ### Machine/Homes.lean -/

theorem pathGone_wf {s : State} {m pkg : Nat} (h : Wf s) : Wf (pathGone s m pkg) := ite_wf h (spawnOnce_wf h)

theorem sendReply_wf {s : State} {m : Msg} {r : Reply} (h : Wf s) : Wf (sendReply s m r) := by
  unfold sendReply
  extract_lets
  split
  · exact reply_wf h
  · split
    · exact pathGone_wf h
    · next h1 => exact spawn_wf (same_wf ((sendFrame_wf h).get h1 :))

theorem answerMsg_wf {s : State} {m : Msg} {st : LineStatus} {at' : Attr} {data poison : Nat} (h : Wf s) : Wf (answerMsg s m st
    at' data poison) := by
  unfold answerMsg
  split
  · exact ite_wf (sendReply_wf h) h
  · exact ite_wf h (sendReply_wf h)
  · exact h
  · exact h

theorem performAmo_wf {s : State} {m : Msg} {t : Target} {a : Nat} {wid : Width} {op : AmoOp} {v e : Nat} (h : Wf s) : ExcWf
    (·.2.2) (performAmo s m t a wid op v e) := by
  unfold performAmo
  split
  · exact trivial
  · next h1 =>
      extract_lets
      split
      · exact ((readTarget_wf h).get h1 :)
      · split
        · exact ((readTarget_wf h).get h1 :)
        · split
          · exact trivial
          · next h2 => exact ((writeTarget_wf ((readTarget_wf h).get h1 :)).get h2 :)

theorem failMsg_wf {s : State} {m : Msg} {f : Fail} (h : Wf s) : Wf (failMsg s m f) := ite_wf (logErr_wf h) h

theorem performMsg_wf {s : State} {m : Msg} {w : Where} {at' : Attr} (h : Wf s) : Wf (performMsg s m w at') := by
  unfold performMsg
  extract_lets
  split
  · split
    · exact h
    · split
      · split
        · exact answerMsg_wf (failMsg_wf h)
        · next h1 => exact answerMsg_wf ((readTarget_wf h).get h1 :)
      · exact ite_wf (answerMsg_wf (failMsg_wf h)) (answerMsg_wf h)
  · split
    · exact failMsg_wf h
    · next h2 => exact ((writeTarget_wf h).get h2 :)
  · split
    · exact answerMsg_wf (failMsg_wf h)
    · next h3 => exact answerMsg_wf (ite_wf (count_wf (logErr_wf ((performAmo_wf h).get h3 :))) ((performAmo_wf h).get h3 :))
  · exact h

theorem ackHops_wf {s : State} {m : Msg} {x1 : List Hop} (h : Wf s) : Wf (ackHops s m x1) := by
  induction x1 generalizing s with
  | nil => exact h
  | cons x rest ih => exact ih (spawn_wf (note_wf h))

theorem ackRelays_wf {s : State} {m : Msg} (h : Wf s) : Wf (ackRelays s m) := ackHops_wf h

theorem countRelay_wf {s : State} {m : Msg} (h : Wf s) : Wf (countRelay s m) := by
  unfold countRelay
  split
  · exact h
  · exact ite_wf (modMod_wf h fun _ => ⟨rfl, rfl, rfl⟩) h

theorem afterRelay_wf {s : State} {m : Msg} (h : Wf s) : Wf (afterRelay s m) := by
  unfold afterRelay
  dsimp only
  split
  · exact countRelay_wf h
  · split
    · exact countRelay_wf h
    · split
      · exact countRelay_wf h
      · exact spawn_wf (note_wf (countRelay_wf h))

theorem endTag_wf {s : State} {m : Msg} (h : Wf s) : Wf (endTag s m) := ite_wf h (modDie_wf h)

theorem lose_wf {s : State} {bef aft : List Msg} {m : Msg} (h : Wf s) : Wf (lose s bef aft m) := by
  unfold lose
  split
  · exact same_wf h
  · exact modCore_wf (same_wf h) fun _ => rfl

theorem forwardMsg_wf {s : State} {bef aft : List Msg} {m y : Msg} (h : Wf s) : Wf (forwardMsg s bef aft m y) := by
  unfold forwardMsg
  split
  · exact pathGone_wf (lose_wf h)
  · next h1 => exact spawn_wf (same_wf ((sendFrame_wf h).get h1 :))

theorem useHint_wf {s : State} {m : Msg} (h : Wf s) : Wf (useHint s m) := modDie_wf h

theorem relayMsg_wf {s : State} {bef aft : List Msg} {m : Msg} {pkg : Nat} {stub : Bool} {at' : Attr} (h : Wf s) : Wf (relayMsg
    s bef aft m pkg stub at') := by
  unfold relayMsg
  extract_lets
  split
  · exact pathGone_wf (lose_wf h)
  · exact forwardMsg_wf (modMod_wf h fun _ => ⟨rfl, rfl, rfl⟩)

theorem pokeRings_wf {s : State} {m tenant a : Nat} (h : Wf s) : Wf (pokeRings s m tenant a) :=
  ite_wf (spawnOnce_wf (ite_wf (spawnOnce_wf h) h)) (ite_wf (spawnOnce_wf h) h)

theorem afterWrite_wf {s : State} {m : Msg} (h : Wf s) : Wf (afterWrite s m) := ite_wf (pokeRings_wf h) h

theorem followRoute_wf {s : State} {bef aft : List Msg} {m : Msg} {r : Route} (h : Wf s) : Wf (followRoute s bef aft m r) := by
  unfold followRoute
  extract_lets
  split
  · exact again_wf h
  · exact again_wf (spawnOnce_wf h)
  · exact spawn_wf h
  · exact ackRelays_wf (endTag_wf (afterRelay_wf (afterWrite_wf (performMsg_wf (same_wf h)))))
  · split
    · exact pathGone_wf (lose_wf h)
    · exact forwardMsg_wf (useHint_wf h)
  · exact ite_wf (spawn_wf (same_wf (countRelay_wf h))) (forwardMsg_wf (countRelay_wf h))
  · exact ite_wf (postFault_wf (ackRelays_wf (endTag_wf (countRelay_wf (answerMsg_wf (same_wf h)))))) (ackRelays_wf (endTag_wf
      (countRelay_wf (answerMsg_wf (same_wf h)))))
  · exact ite_wf (ackRelays_wf (endTag_wf (countRelay_wf (answerMsg_wf (same_wf h))))) (logErr_wf (ackRelays_wf (endTag_wf
      (countRelay_wf (answerMsg_wf (same_wf h))))))
  · exact ackRelays_wf (endTag_wf (countRelay_wf (answerMsg_wf (same_wf h))))
  · exact ackRelays_wf (endTag_wf (countRelay_wf (answerMsg_wf (same_wf h))))

theorem serveFirst_wf {s : State} {e : Event} {p : Msg → Bool} (h : Wf s) : Wf (serveFirst s e p) := by
  unfold serveFirst
  split
  · exact h
  · exact ite_wf (again_wf h) (followRoute_wf h)

theorem execHomeSliceRequest_wf {m : Nat} {src : Place} {s : State} (h : Wf s) : OutWf (execHomeSliceRequest m src s) :=
  serveFirst_wf h

theorem execFarAtomicExecute_wf {m : Nat} {src : Place} {s : State} (h : Wf s) : OutWf (execFarAtomicExecute m src s) :=
  serveFirst_wf h

theorem execStubRelay_wf {m : Nat} {src : Place} {s : State} (h : Wf s) : OutWf (execStubRelay m src s) := by
  unfold execStubRelay
  extract_lets
  split
  · exact h
  · split
    · exact again_wf h
    · split
      · exact relayMsg_wf h
      · exact spawn_wf h

theorem endWalk_wf {s : State} {die page : Nat} {l : Option Nat} (h : Wf s) : Wf (endWalk s die page l) := by
  unfold endWalk
  refine same_wf ?_
  extract_lets
  split
  · exact h
  · exact cacheLeaf_wf h

theorem execPageWalk_wf {die page : Nat} {s : State} (h : Wf s) : OutWf (execPageWalk die page s) := by
  change OutWf (exec (.pageWalk die page) s)
  rcases hw : (s.dieOf die).walks.find? fun e => decide (e.1 = page) with _ | ⟨pg, p, low⟩
  · rcases hl : leafAddr s (dieMod die) (page * 2 ^ 21) with a | _ | _
    · rcases hr : tableRead s (dieMod die) a with _ | low
      · rw [HomeWork.pageWalk_unread hw hl hr]
        exact endWalk_wf h
      · rw [HomeWork.pageWalk_half hw hl hr]
        exact spawn_wf (modDie_wf h)
    · rw [HomeWork.pageWalk_empty hw hl]
      exact endWalk_wf h
    · rw [HomeWork.pageWalk_poisoned hw hl]
      exact endWalk_wf h
  · obtain rfl : pg = page := by simpa using List.find?_some hw
    rw [HomeWork.pageWalk_ends hw]
    exact endWalk_wf (modDie_wf h)

theorem execWalkReturn_wf {die : Nat} {src : Place} {s : State} (h : Wf s) : OutWf (execWalkReturn die src s) := by
  unfold execWalkReturn
  split
  · exact h
  · exact spawn_wf (same_wf (modDie_wf (ackRelays_wf h)))

theorem execRelayAck_wf {m page part : Nat} {s : State} (h : Wf s) : OutWf (execRelayAck m page part s) := by
  unfold execRelayAck
  extract_lets f
  split
  · exact h
  · refine modMod_wf (same_wf h) fun x => ?_
    dsimp only
    split <;> exact ⟨rfl, rfl, rfl⟩

theorem execRedirect_wf {die page part : Nat} {s : State} (h : Wf s) : OutWf (execRedirect die page part s) := by
  unfold execRedirect
  extract_lets
  split
  · exact h
  · exact modDie_wf (same_wf h)

theorem keepAnswer_wf {s : State} {r : Reply} (h : Wf s) : Wf (keepAnswer s r) := by
  unfold keepAnswer
  split
  · exact ite_wf h (ite_wf (ite_wf (modClu_wf h fun _ => rfl) h) (ite_wf (l1Fill_wf h) h))
  · exact h
  · exact h
  · exact h
  · exact h

theorem execMemResponse_wf {p : Place} {s : State} (h : Wf s) : OutWf (execMemResponse p s) := by
  unfold execMemResponse
  extract_lets
  split
  · exact ite_out (again_wf h) (modStrand_wf h)
  · exact ite_out (keepAnswer_wf (same_wf h)) (ite_out (ite_out (modStrand_wf (same_wf h)) (modStrand_wf (keepAnswer_wf
      (same_wf h)))) (count_wf (same_wf h)))

theorem execReleaseProbe_wf {m : Nat} {src : Place} {grp : Nat} {s : State} (h : Wf s) : OutWf (execReleaseProbe m src grp s) := by
  unfold execReleaseProbe
  extract_lets
  split
  · exact h
  · exact ite_out (again_wf h) (spawn_wf (same_wf h))

theorem echo_wf {s : State} {p : Place} {grp : Nat} (h : Wf s) : Wf (echo s p grp) := ite_wf (setStrand_wf h) h

theorem execProbeEcho_wf {p : Place} {grp : Nat} {s : State} (h : Wf s) : OutWf (execProbeEcho p grp s) := echo_wf h

theorem failureEcho_wf {s : State} {p : Place} {n : Nat} (h : Wf s) : Wf (failureEcho s p n) :=
  modCore_wf (logErr_wf (echo_wf (modStrand_wf h))) fun _ => rfl

theorem giveUp_wf {p : Place} {s : State} {k : Nat} (h : Wf s) : Wf (giveUp p s k) := by
  unfold giveUp
  split
  · exact h
  · exact count_wf (modStrand_wf h)

theorem execAccessTimeout_wf {p : Place} {s : State} (h : Wf s) : OutWf (execAccessTimeout p s) :=
  ite_out (foldl_wf (foldl_wf h (fun _ _ h1 => count_wf (failureEcho_wf h1))) (fun _ _ h2 => giveUp_wf h2)) h

theorem l1Error_wf {s : State} {core a : Nat} (h : Wf s) : Wf (l1Error s core a) := by
  unfold l1Error
  extract_lets
  split
  · exact ite_wf (logErr_wf (l1Put_wf h)) (ite_wf (logErr_wf (noFill_wf (dropWhere_wf h))) (logErr_wf (l1Put_wf h)))
  · exact h

theorem l2Error_wf {s : State} {dk a : Nat} (h : Wf s) : Wf (l2Error s dk a) := by
  unfold l2Error
  extract_lets
  split
  · exact h
  · split
    · exact h
    · exact ite_wf (logErr_wf (modDie_wf h)) (logErr_wf (modDie_wf h))

theorem flitError_wf {s : State} {m node : Nat} (h : Wf s) : Wf (flitError s m node) := ite_wf (count_wf (same_wf h)) h

theorem execUncorrectableError_wf {site : ErrSite} {s : State} (h : Wf s) : OutWf (execUncorrectableError site s) := by
  unfold execUncorrectableError
  split
  · exact count_wf (l1Error_wf h)
  · exact count_wf (l1Error_wf h)
  · exact count_wf (l2Error_wf h)
  · exact count_wf (logErr_wf (modMod_wf h fun _ => ⟨rfl, rfl, rfl⟩))
  · exact count_wf (logErr_wf (modMod_wf h fun _ => ⟨rfl, rfl, rfl⟩))
  · exact count_wf (modCore_wf h fun _ => rfl)
  · exact count_wf (count_wf (modClu_wf h fun _ => rfl))
  · exact count_wf (count_wf (modClu_wf h fun _ => rfl))
  · exact count_wf (modMod_wf h fun _ => ⟨rfl, rfl, rfl⟩)
  · exact count_wf (flitError_wf h)
  · refine count_wf (modClu_wf ?_ fun _ => rfl)
    split
    · exact h
    · exact logErr_wf h

theorem execCorrectableError_wf {die : Nat} {s : State} (h : Wf s) : OutWf (execCorrectableError die s) := count_wf h

theorem execErrorCounterClear_wf {die : Nat} {s : State} (h : Wf s) : OutWf (execErrorCounterClear die s) := modDie_wf h

end Sys2Proof.Proofs.MemKept
end

section
/-! SUPPORT. The canonical form of the memories, function by function of the model (log 5), in the order of the model's files:
Keystone, Links, Mortar, Collectives. -/

namespace Sys2Proof.Proofs.MemKept

open Sys2Proof Sys2Proof.Machine Sys2Proof.Laws MemForm HomeAccess

/-! ### Machine/Keystone.lean -/

theorem enqueue_wf {s : State} {dk : Nat} {t : QTask} (h : Wf s) : Wf (enqueue s dk t) := modDie_wf h

theorem entryFree_wf {s : State} {dk : Nat} (h : Wf s) : Wf (entryFree s dk) := same_wf h

theorem entriesFree_wf {s : State} {m : Nat} (h : Wf s) : Wf (entriesFree s m) := same_wf h

theorem takeTask_wf {s : State} {dk serial : Nat} (h : Wf s) : Wf (takeTask s dk serial) :=
  wakeAdmission_wf (entryFree_wf (modDie_wf h))

theorem unlist_wf {s : State} {dk serial : Nat} (h : Wf s) : Wf (unlist s dk serial) := modDie_wf h

theorem startStrand_wf {s0 : State} {p : Place} {t : Task} (h : Wf s0) : Wf (startStrand s0 p t) :=
  charge_wf (setShadow_wf (acquireAt_wf (setStrand_wf (applyLate_wf h))))

theorem passOver_wf {s : State} {dk : Nat} {t : QTask} (h : Wf s) : Wf (passOver s dk t) :=
  ite_wf (joinAdmission_wf (modDie_wf h)) (modDie_wf h)

theorem dispatch_wf {s : State} {dk clu : Nat} {t : QTask} {p : Place} (h : Wf s) : Wf (dispatch s dk clu t p) := by
  unfold dispatch
  exact modDie_wf (startStrand_wf (takeTask_wf (foldl_wf h (fun _ _ h1 => passOver_wf h1))))

theorem steal_wf {s : State} {dk c thiefDie thief tenant : Nat} (h : Wf s) : Wf (steal s dk c thiefDie thief tenant) :=
  foldl_wf h (fun _ _ h1 => ite_wf h1 (ite_wf (modDie_wf (unlist_wf h1)) (ite_wf (joinAdmission_wf (enqueue_wf (takeTask_wf
      (unlist_wf h1)))) (enqueue_wf (takeTask_wf (unlist_wf h1))))))

theorem askRing_wf {s : State} {dk tenant : Nat} (h : Wf s) : Wf (askRing s dk tenant) :=
  foldl_wf h (fun _ _ h1 => ite_wf h1 (spawn_wf (modDie_wf h1)))

theorem openLists_wf {s : State} (h : Wf s) : Wf (openLists s) :=
  foldl_wf (same_wf h) (fun _ _ h1 => foldl_wf h1 (fun _ _ h2 => askRing_wf h2))

theorem execTaskDispatch_wf {die clu : Nat} {s : State} (h : Wf s) : OutWf (execTaskDispatch die clu s) := by
  unfold execTaskDispatch
  split
  · exact h
  · split
    · exact h
    · exact dispatch_wf h

theorem execTaskSteal_wf {die clu vf : Nat} {s : State} (h : Wf s) : OutWf (execTaskSteal die clu vf s) := by
  unfold execTaskSteal
  split
  · split
    · exact h
    · exact steal_wf h
  · exact h

theorem execStealRequest_wf {die vf : Nat} {s : State} (h : Wf s) : OutWf (execStealRequest die vf s) := by
  unfold execStealRequest
  split
  · exact h
  · dsimp only
    split
    · exact spawn_wf (modDie_wf h)
    · split
      · exact modDie_wf h
      · exact steal_wf (modDie_wf h)

theorem execStealRetry_wf {die vf : Nat} {s : State} (h : Wf s) : OutWf (execStealRetry die vf s) := by
  unfold execStealRetry
  split
  · exact h
  · exact ite_out (again_wf h) (ite_out (spawn_wf (modDie_wf (modDie_wf h))) (modDie_wf h))

theorem setCount_wf {s : State} {dk i n : Nat} (h : Wf s) : Wf (setCount s dk i n) :=
  ite_wf (foldl_wf (modDie_wf h) (fun _ _ h1 => enqueue_wf h1)) (modDie_wf h)

theorem decrement_wf {s : State} {dk i amount : Nat} {free : Bool} (h : Wf s) : Wf (decrement s dk i amount free).2 :=
  ite_wf (modDie_wf (setCount_wf h)) (setCount_wf h)

theorem counterOp_wf {s : State} {dk : Nat} {src : Place} {op : CtrOp} {name amount : Nat} {free : Bool} {tenant : Nat} (h : Wf
    s) : Wf (counterOp s dk src op name amount free tenant) := by
  unfold counterOp
  extract_lets i c ok
  split
  · split
    · exact giveAnswer_wf h
    · exact giveAnswer_wf (modDie_wf h)
  · exact ite_wf (giveAnswer_wf h) (giveAnswer_wf (modDie_wf h))
  · exact ite_wf (giveAnswer_wf h) (giveAnswer_wf (decrement_wf h))
  · exact ite_wf (logErr_wf h) (decrement_wf h)

theorem placeWaiting_wf {s : State} {dk : Nat} {t : QTask} (h : Wf s) : Wf (placeWaiting s dk t) :=
  ite_wf (enqueue_wf h) (modDie_wf h)

theorem execCounterUpdate_wf {die : Nat} {src : Place} {s : State} (h : Wf s) : OutWf (execCounterUpdate die src s) := by
  unfold execCounterUpdate
  extract_lets
  split
  · exact counterOp_wf (same_wf h)
  · exact ite_out (giveAnswer_wf (same_wf h)) (ite_out (again_wf h) (giveAnswer_wf (placeWaiting_wf (same_wf h))))
  · exact h

theorem counterInstr_wf {d : GReg} {op : CtrOp} {dk name amount : Nat} {free : Bool} {first : Act Unit} (h : ActWf first) :
    ActWf (counterInstr d op dk name amount free first) := by
  unfold counterInstr
  refine bind_here fun _ _ => ?_
  split
  · exact bind_act (change_wf (fun _ h2 => wg_wf h2)) (fun _ => pure_act)
  · exact ite_act parkOn_wf (ite_act (bind_act (change_wf (fun _ h3 => wg_wf h3)) (fun _ => pure_act)) (bind_act h (fun _ =>
      fun _ h4 => spawn_wf (note_wf (ask_wf h4)))))

theorem execDcinit_wf {d a : GReg} {imm : BitVec 13} {s : State} (h : Wf s) : OutWf (execDcinit d a imm s) :=
  finish_wf h (res_wf (bind_act (counterInstr_wf pure_act) (fun _ => pure_act)) h)

theorem execDcinc_wf {d a b : GReg} {s : State} (h : Wf s) : OutWf (execDcinc d a b s) :=
  finish_wf h (res_wf (bind_act (counterInstr_wf pure_act) (fun _ => pure_act)) h)

theorem execDcdec_wf {d a b : GReg} {sc : Scope} {free : Bool} {s : State} (h : Wf s) : OutWf (execDcdec d a b sc free s) :=
  finish_wf h (res_wf (bind_act optScope_wf (fun _ => bind_act (counterInstr_wf (ite_act pure_act release_wf)) (fun _ =>
      ite_act noteScope_wf pure_act))) h)

theorem submit_wf {d : GReg} {t : QTask} : ActWf (submit d t) :=
  fun _ h1 => ite_run (spawn_wf (note_wf (ask_wf h1))) (ite_run h1 (wg_wf (ite_wf (placeWaiting_wf h1) (enqueue_wf h1))))

theorem execTenq_wf {d a : GReg} {sc : Scope} {s : State} (h : Wf s) : OutWf (execTenq d a sc s) := by
  unfold execTenq
  refine finish_wf h (res_wf ?_ h)
  split
  · exact bind_act (change_wf (fun _ h1 => wg_wf h1)) (fun _ => ite_act noteScope_wf pure_act)
  · exact ite_act parkOn_wf (bind_act aligned_wf (fun _ => bind_act scopeOr_wf (fun _ => bind_act load_wf (fun _ => ite_act
      (change_wf (fun _ h2 => wg_wf h2)) (ite_act (change_wf (fun _ h3 => wg_wf h3)) (bind_act release_wf (fun _ => bind_act
      submit_wf (fun _ => noteScope_wf))))))))

theorem execTdeq_wf {d a b : GReg} {s : State} (h : Wf s) : OutWf (execTdeq d a b s) := by
  unfold execTdeq
  refine finish_wf h (res_wf (bind_act needSuper_wf ?_) h)
  intro _
  refine bind_act aligned_wf fun _ => ?_
  split
  · exact change_wf (fun _ h1 => wg_wf h1)
  · exact bind_act store_wf (fun _ => change_wf (fun _ h2 => wg_wf (takeTask_wf (unlist_wf h2))))

theorem wakeArrival_wf {gen : Nat} {s : State} {p : Place} (h : Wf s) : Wf (wakeArrival gen s p) := modStrand_wf h

theorem settleGroup_wf {s : State} {dk k : Nat} {g : Group} (h : Wf s) : Wf (settleGroup s dk k g) :=
  ite_wf (foldl_wf (modDie_wf h) (fun _ _ h1 => wakeArrival_wf h1)) (modDie_wf h)

theorem execGroupUpdate_wf {die : Nat} {src : Place} {s : State} (h : Wf s) : OutWf (execGroupUpdate die src s) := by
  unfold execGroupUpdate
  extract_lets
  split
  · exact h
  · extract_lets
    split
    · exact giveAnswer_wf (settleGroup_wf (same_wf h))
    · exact giveAnswer_wf (settleGroup_wf (same_wf h))
    · exact settleGroup_wf (same_wf h)
    · exact giveAnswer_wf (same_wf h)
    · exact settleGroup_wf (same_wf h)

theorem askHome_wf {s : State} {op : GrpOp} {n key : Nat} (h : Wf s) : Wf (askHome s op n key) := spawn_wf (note_wf (ask_wf h))

theorem execGjoin_wf {d a : GReg} {imm : BitVec 13} {s : State} (h : Wf s) : OutWf (execGjoin d a imm s) := by
  unfold execGjoin
  refine finish_wf h ?_
  split
  · split
    · exact wg_wf h
    · exact wg_wf h
    · exact wg_wf (modCsr_wf h)
  · exact ite_res h (ite_res (askHome_wf h) (ite_res (wg_wf h) (askHome_wf h)))

theorem execGleave_wf {d a : GReg} {imm : BitVec 13} {s : State} (h : Wf s) : OutWf (execGleave d a imm s) := by
  unfold execGleave
  refine finish_wf h ?_
  split
  · exact wg_wf h
  · split
    · exact wg_wf (modCsr_wf h)
    · exact ite_res h (askHome_wf h)

theorem execGsync_wf {d a : GReg} {sc : Scope} {s : State} (h : Wf s) : OutWf (execGsync d a sc s) := by
  unfold execGsync
  refine finish_wf h (res_wf ?_ h)
  split
  · exact change_wf (fun _ h1 => wg_wf h1)
  · refine bind_act optScope_wf fun _ => ?_
    split
    · exact ite_act (bind_act acquire_wf (fun _ => bind_act (change_wf (fun _ h2 => wg_wf h2)) (fun _ => noteScope_wf)))
        (bind_act (change_wf (fun _ h3 => wg_wf h3)) (fun _ => noteScope_wf))
    · exact ite_act parkOn_wf (ite_act (bind_act release_wf (fun _ => fun _ h4 => askHome_wf h4)) (fun _ h5 => askHome_wf
        h5))

theorem endTask_wf {sc : Scope} : ActWf (endTask sc) :=
  bind_here (fun _ _ => ite_act parkOn_wf (bind_act scopeOr_wf (fun _ => release_wf)))

theorem vacate_wf {s : State} {p : Place} (h : Wf s) : Wf (vacate s p) :=
  emptySlot_wf (uncharge_wf (releaseGrant_wf (freeUnits_wf (freeTiles_wf (mergeFlags_wf h)))))

theorem quitGroups_wf {s : State} {p : Place} (h : Wf s) : Wf (quitGroups s p) :=
  foldl_wf h (fun _ _ h1 => spawn_wf (note_wf h1))

theorem releaseCounter_wf {s : State} {p : Place} (h : Wf s) : Wf (releaseCounter s p) :=
  ite_wf h (ite_wf (spawn_wf (note_wf h)) (logErr_wf h))

theorem execTexit_wf {sc : Scope} {s : State} (h : Wf s) : OutWf (execTexit sc s) :=
  finish_wf h (res_wf (bind_act endTask_wf (fun _ => fun _ h1 => vacate_wf (releaseCounter_wf (quitGroups_wf h1)))) h)

theorem execTyield_wf {a b : GReg} {sc : Scope} {s : State} (h : Wf s) : OutWf (execTyield a b sc s) :=
  finish_wf h (res_wf (bind_act endTask_wf (fun _ => fun _ h1 => ite_run h1 (enqueue_wf (vacate_wf h1)))) h)

/-! ### Machine/Links.lean -/

theorem spawnFrame_wf {s : State} {f : Machine.Frame} (h : Wf s) : Wf (spawnFrame s f) := spawn_wf h

theorem moveStream_wf {s : State} {f : LinkFrame} (h : Wf s) : Wf (moveStream s f) := by
  unfold moveStream
  split
  · exact h
  · exact spawnFrame_wf (modPort_wf h)

theorem moveMsgs_wf {m link : Nat} {x1 x2 : List Msg} {s : State} (h : Wf s) : Wf (moveMsgs m link x1 x2 s) := by
  induction x2 generalizing x1 s with
  | nil => exact h
  | cons x rest ih =>
    unfold moveMsgs
    split
    · exact ih h
    · refine ite_wf (ih h) ?_
      split
      · exact ih (pathGone_wf (lose_wf h))
      · exact ih (spawnFrame_wf (same_wf h))

theorem moveReply_wf {m link : Nat} {s : State} {r : Reply} (h : Wf s) : Wf (moveReply m link s r) := by
  unfold moveReply
  split
  · exact same_wf h
  · split
    · exact same_wf h
    · split
      · exact pathGone_wf h
      · exact spawnFrame_wf (same_wf h)

theorem replayFrames_wf {s : State} {m link : Nat} (h : Wf s) : Wf (replayFrames s m link) :=
  foldl_wf (same_wf (moveMsgs_wf (foldl_wf (ite_wf h (foldl_wf h (fun _ _ h1 => modPort_wf h1))) (fun _ _ h2 => moveStream_wf
      h2)))) (fun _ _ h3 => moveReply_wf h3)

theorem linkFails_wf {s : State} {m link : Nat} (h : Wf s) : Wf (linkFails s m link) := by
  unfold linkFails
  extract_lets
  split
  · exact replayFrames_wf (linkError_wf (count_wf (modLink_wf h)))
  · exact ite_wf (replayFrames_wf (linkError_wf (count_wf (modLink_wf h)))) (spawn_wf (replayFrames_wf (linkError_wf (count_wf
      (modLink_wf h)))))

theorem execLinkTraining_wf {m link' peer : Nat} {ok : Bool} {s : State} (h : Wf s) : OutWf (execLinkTraining m link' peer ok s) := by
  unfold execLinkTraining
  extract_lets
  split
  · exact h
  · exact ite_out (ite_wf (linkFails_wf h) (modLink_wf h)) (ite_out (modLink_wf h) (linkError_wf (modLink_wf h)))

theorem execPackageNumberWrite_wf {m : Nat} {v : BitVec 12} {s : State} (h : Wf s) : OutWf (execPackageNumberWrite m v s) :=
  ite_out (modMod_wf h fun _ => ⟨rfl, rfl, rfl⟩) h

theorem execKeyLoad_wf {m pd kid : Nat} {next : Bool} {key : BitVec 256} {s : State} (h : Wf s) : OutWf (execKeyLoad m pd kid
    next key s) :=
  modPort_wf h

theorem receiveStream_wf {s : State} {m pd : Nat} {f : LinkFrame} {rest : List LinkFrame} (h : Wf s) : Wf (receiveStream s m pd
    f rest) := by
  unfold receiveStream
  dsimp only
  split
  · exact again_wf (receiveFrame_wf h)
  · exact modPort_wf (receiveFrame_wf h)
  · split
    · exact spawn_wf (note_wf (modPort_wf (receiveFrame_wf h)))
    · split
      · exact modPort_wf (receiveFrame_wf h)
      · exact spawnFrame_wf (modPort_wf (modPort_wf (receiveFrame_wf h)))

theorem receiveReply_wf {s : State} {m pd : Nat} {bef aft : List Reply} {r : Reply} {f : Machine.Frame} (h : Wf s) : Wf
    (receiveReply s m pd bef aft r f) := by
  unfold receiveReply
  dsimp only
  split
  · exact again_wf (receiveFrame_wf h)
  · exact same_wf (receiveFrame_wf h)
  · split
    · exact spawn_wf (same_wf (receiveFrame_wf h))
    · split
      · exact pathGone_wf (same_wf (receiveFrame_wf h))
      · exact spawnFrame_wf (same_wf (receiveFrame_wf h))

theorem receiveMsg_wf {s : State} {m pd : Nat} {bef aft : List Msg} {x : Msg} {f : Machine.Frame} (h : Wf s) : Wf (receiveMsg s
    m pd bef aft x f) := by
  unfold receiveMsg
  dsimp only
  split
  · exact again_wf (receiveFrame_wf h)
  · exact lose_wf (receiveFrame_wf h)
  · split
    · exact spawn_wf (same_wf (receiveFrame_wf h))
    · split
      · exact pathGone_wf (lose_wf (receiveFrame_wf h))
      · exact spawnFrame_wf (same_wf (receiveFrame_wf h))

theorem execLinkFrameReceive_wf {m pd : Nat} {s : State} (h : Wf s) : OutWf (execLinkFrameReceive m pd s) := by
  unfold execLinkFrameReceive
  split
  · exact receiveStream_wf h
  · split
    · split
      · exact h
      · exact receiveReply_wf h
    · split
      · exact h
      · exact receiveMsg_wf h
    · exact ite_out (again_wf h) h

theorem execLinkDown_wf {m link : Nat} {s : State} (h : Wf s) : OutWf (execLinkDown m link s) := ite_wf (linkFails_wf h) h

theorem losePath_wf {m peer : Nat} {x1 x2 : List Msg} {s : State} (h : Wf s) : Wf (losePath m peer x1 x2 s) := by
  induction x2 generalizing x1 s with
  | nil => exact h
  | cons x rest ih => exact ite_wf (ih (lose_wf h)) (ih h)

theorem execPathFailed_wf {m peer : Nat} {s : State} (h : Wf s) : OutWf (execPathFailed m peer s) :=
  foldl_wf (losePath_wf (same_wf (modMod_wf h fun _ => ⟨rfl, rfl, rfl⟩))) (fun _ _ h1 => failureEcho_wf h1)

/-! ### Machine/Mortar.lean -/

theorem modEject_wf {s : State} {m node : Nat} {f : Eject → Eject} (h : Wf s) : Wf (s.modEject m node f) := same_wf h

theorem outputOf_wf {s : State} {f : Flit} {node : Nat} {taken : List Nat} (h : Wf s) : Wf (outputOf s f node taken).2 := by
  unfold outputOf
  extract_lets
  split
  · exact h
  · exact same_wf h

theorem assign_wf {node : Nat} {x1 : List Flit} {x2 : List Nat} {s : State} (h : Wf s) : Wf (assign node x1 x2 s).2.2.2 := by
  induction x1 generalizing x2 s with
  | nil => exact h
  | cons f fs ih =>
    have ho := outputOf_wf (f := f) (node := node) (taken := x2) h
    unfold assign
    split
    · next heq => exact ih (heq ▸ ho :)
    · next heq => exact ih (heq ▸ ho :)

theorem execFlitRoute_wf {m node : Nat} {s : State} (h : Wf s) : OutWf (execFlitRoute m node s) := by
  unfold execFlitRoute
  dsimp only
  split
  · exact same_wf (assign_wf h)
  · split
    · next h1 => exact same_wf (h1 ▸ (outputOf_wf (same_wf (assign_wf h))) :)
    · next h2 => exact same_wf (modEject_wf (h2 ▸ (outputOf_wf (same_wf (assign_wf h))) :))

theorem execFlitEject_wf {m node : Nat} {s : State} (h : Wf s) : OutWf (execFlitEject m node s) := by
  unfold execFlitEject
  split
  · exact h
  · exact ite_out (count_wf (same_wf h)) (spawn_wf (modEject_wf (same_wf h)))

theorem inject_wf {s : State} {m router src dst ch ty tenant : Nat} {ps : List Vec} (h : Wf s) : Wf (inject s m router src dst
    ch ty tenant ps) :=
  same_wf (modEject_wf h)

theorem sendPacket_wf {s : State} {m node dst entry : Nat} {p : VsPacket} (h : Wf s) : Wf (sendPacket s m node dst entry p) :=
  inject_wf h

theorem sendDeliveryCredit_wf {s : State} {m node src ch : Nat} (h : Wf s) : Wf (sendDeliveryCredit s m node src ch) :=
  inject_wf h

theorem edgeSend_wf {s : State} {m pd node entry : Nat} {p : VsPacket} (h : Wf s) : Wf (edgeSend s m pd node entry p) := by
  unfold edgeSend
  split
  · exact h
  · dsimp only
    split
    · exact h
    · next h1 => exact spawnFrame_wf (modPort_wf ((sendFrame_wf h).get h1 :))

theorem deliverPacket_wf {s : State} {m node src : Nat} {fs : List Flit} (h : Wf s) : Wf (deliverPacket s m node src fs) := by
  unfold deliverPacket
  split
  · exact h
  · exact ite_wf (edgeSend_wf h) (spawn_wf (note_wf h))

theorem consume_wf {s : State} {m node src ch : Nat} {fs : List Flit} (h : Wf s) : Wf (consume s m node src ch fs) := by
  unfold consume
  split
  · exact deliverPacket_wf h
  · split
    · exact ite_wf (spawn_wf (note_wf h)) h
    · exact h

theorem execPacketDeliver_wf {m node src ch : Nat} {s : State} (h : Wf s) : OutWf (execPacketDeliver m node src ch s) := by
  unfold execPacketDeliver
  extract_lets
  split
  · exact h
  · exact spawn_wf (consume_wf (ite_wf (sendDeliveryCredit_wf (modEject_wf h)) (modEject_wf h)))

theorem execDeliveryCredit_wf {m src dst ch : Nat} {s : State} (h : Wf s) : OutWf (execDeliveryCredit m src dst ch s) := by
  unfold execDeliveryCredit
  extract_lets
  split
  · exact h
  · exact modEject_wf (same_wf h)

/-! ### Machine/Collectives.lean -/

theorem modEntry_wf {s : State} {clu e : Nat} {f : VsEntry → VsEntry} (h : Wf s) : Wf (s.modEntry clu e f) :=
  modClu_wf h fun _ => rfl

theorem sendCredit_wf {s : State} {clu e port : Nat} (h : Wf s) : Wf (sendCredit s clu e port) := by
  unfold sendCredit
  dsimp only
  split
  · exact h
  · exact spawn_wf (note_wf h)

theorem modQ_wf {s : State} {core q : Nat} {f : QState → QState} (h : Wf s) : Wf (s.modQ core q f) := modCore_wf h fun _ => rfl

theorem toQueue_wf {s : State} {clu : Nat} {x : VsEntry} {p : VsPacket} (h : Wf s) : OptWf id (toQueue s clu x p) := by
  unfold toQueue
  split
  · exact h
  · exact ite_opt (modStrand_wf (ite_wf (count_wf (modQ_wf h)) (modQ_wf h))) trivial

theorem setCredits_wf {s : State} {clu e port n : Nat} (h : Wf s) : Wf (s.setCredits clu e port n) := modClu_wf h fun _ => rfl

theorem sendOut_wf {s : State} {clu e : Nat} {x : VsEntry} {port : Nat} {p : VsPacket} (h : Wf s) : OptWf id (sendOut s clu e x
    port p) := by
  unfold sendOut
  dsimp only
  split
  · exact toQueue_wf h
  · split
    · exact trivial
    · split
      · exact sendPacket_wf (setCredits_wf h)
      · split
        · exact setCredits_wf h
        · exact sendPacket_wf (setCredits_wf h)

theorem flushOut_wf {clu e : Nat} {x1 : List (Nat × VsPacket)} {x2 : List Nat} {s : State} (h : Wf s) : Wf (flushOut clu e x1
    x2 s).2 := by
  induction x1 generalizing x2 s with
  | nil => exact h
  | cons e rest ih =>
    unfold flushOut
    dsimp only
    split
    · exact ih h
    · split
      · exact h
      · split
        · next heq => exact ih ((sendOut_wf h).get heq)
        · exact ih h

theorem anyOrder_wf {α : Type} {x1 : Nat} {x2 : List α} {s : State} (h : Wf s) : Wf (anyOrder x1 x2 s).2 := by
  induction x1 generalizing x2 s with
  | zero => exact h
  | succ n ih =>
    unfold anyOrder
    split
    · exact h
    · exact ih (choice_wf h)

theorem takeInputs_wf {s : State} {clu e : Nat} {ports : List Nat} {outs : List (Nat × VsPacket)} {step : Bool} (h : Wf s) : Wf
    (takeInputs s clu e ports outs step) :=
  modEntry_wf h

theorem payCredits_wf {s : State} {clu e : Nat} {x : VsEntry} (h : Wf s) : Wf (payCredits s clu e x) :=
  foldl_wf (modEntry_wf h) (fun _ _ h1 => sendCredit_wf h1)

theorem entryAction_wf {s : State} {clu e : Nat} {x : VsEntry} (h : Wf s) : OptWf id (entryAction s clu e x) := by
  unfold entryAction
  dsimp only
  split
  · split
    · exact trivial
    · exact takeInputs_wf h
  · split
    · split
      · exact trivial
      · exact takeInputs_wf (same_wf h)
    · split
      · split
        · exact trivial
        · exact payCredits_wf (takeInputs_wf (ite_wf (foldl_wf (anyOrder_wf h) (fun _ _ h1 => count_wf h1)) (anyOrder_wf h)))
      · exact trivial

theorem runEntry_wf {clu e x1 : Nat} {s : State} (h : Wf s) : Wf (runEntry clu e x1 s) := by
  induction x1 generalizing s with
  | zero => exact h
  | succ n ih =>
    unfold runEntry
    split
    · exact h
    · next x _ =>
        have hf : Wf (flushOut clu e x.out [] s).2 := flushOut_wf h
        have hs := modEntry_wf (clu := clu) (e := e) (f := fun y => { y with out := (flushOut clu e x.out [] s).1 }) hf
        dsimp only
        split
        · split
          · exact hs
          · split
            · exact payCredits_wf hs
            · next heq => exact ih ((entryAction_wf (payCredits_wf hs)).get heq)
        · exact hs

theorem rejectPacket_wf {s : State} {clu e port no : Nat} (h : Wf s) : Wf (rejectPacket s clu e port no) :=
  sendCredit_wf (count_wf h)

theorem execVsPacketArrive_wf {clu port : Nat} {s : State} (h : Wf s) : OutWf (execVsPacketArrive clu port s) := by
  unfold execVsPacketArrive
  extract_lets
  split
  · exact h
  · extract_lets
    split
    · exact rejectPacket_wf (same_wf h)
    · exact ite_out (rejectPacket_wf (same_wf h)) (ite_out (rejectPacket_wf (same_wf h)) (runEntry_wf (modEntry_wf (same_wf
        h))))

theorem enterLocal_wf {s : State} {clu e : Nat} {p : VsPacket} (h : Wf s) : Wf (enterLocal s clu e p) := spawn_wf (note_wf h)

theorem creditQueue_wf {s : State} {clu e : Nat} (h : Wf s) : Wf (creditQueue s clu e) := by
  unfold creditQueue
  split
  · exact h
  · split
    · exact h
    · split
      · exact enterLocal_wf (modQ_wf h)
      · exact modStrand_wf (modQ_wf h)

theorem execVsCredit_wf {clu entry port : Nat} {s : State} (h : Wf s) : OutWf (execVsCredit clu entry port s) := by
  unfold execVsCredit
  extract_lets
  split
  · exact h
  · exact ite_out (creditQueue_wf (same_wf h)) (runEntry_wf (setCredits_wf (same_wf h)))

theorem needComm_wf {op : Nat} : ActWf (needComm op) := fun _ h1 => ite_run h1 (illegal_wf _ h1)

theorem needBound_wf {op : Nat} {q : QReg} : ActWf (needBound op q) := fun _ h1 => ite_run h1 (illegal_wf _ h1)

theorem parkHeld_wf {α : Type} {q : QReg} : ActWf (parkHeld q : Act α) := fun _ h1 => ite_run h1 (ask_wf h1)

theorem injectLocal_wf {s : State} {q : QReg} {flits : List Vec} {marker : Option Word} (h : Wf s) : Wf (injectLocal s q flits
    marker) :=
  enterLocal_wf (modQ_wf h)

theorem execQsend_wf {q : QReg} {b : VReg} {fin : Bool} {s : State} (h : Wf s) : OutWf (execQsend q b fin s) :=
  finish_wf h (res_wf (bind_act needComm_wf (fun _ => bind_act needBound_wf (fun _ => ite_act illegal_wf (ite_act (ite_act
      (bind_act parkHeld_wf (fun _ => ite_act (bind_act needGrant_wf (fun _ => bind_act rv_wf (fun _ => ite_act (ite_act
      parkOn_wf (bind_act (change_wf (fun _ h1 => injectLocal_wf h1)) (fun _ => change_wf (fun _ h2 => modCsr_wf (modMe_wf
      h2))))) (bind_act (change_wf (fun _ h3 => modMe_wf h3)) (fun _ => ite_act (change_wf (fun _ h4 => modCsr_wf h4))
      pure_act))))) (bind_act rv_wf (fun _ => ite_act (ite_act parkOn_wf (bind_act (change_wf (fun _ h5 => injectLocal_wf h5))
      (fun _ => change_wf (fun _ h6 => modCsr_wf (modMe_wf h6))))) (bind_act (change_wf (fun _ h7 => modMe_wf h7)) (fun _ =>
      ite_act (change_wf (fun _ h8 => modCsr_wf h8)) pure_act)))))) (ite_act (bind_act needGrant_wf (fun _ => bind_act rv_wf
      (fun _ => ite_act (ite_act parkOn_wf (bind_act (change_wf (fun _ h9 => injectLocal_wf h9)) (fun _ => change_wf (fun _ h10
      => modCsr_wf (modMe_wf h10))))) (bind_act (change_wf (fun _ h11 => modMe_wf h11)) (fun _ => ite_act (change_wf (fun _ h12
      => modCsr_wf h12)) pure_act))))) (bind_act rv_wf (fun _ => ite_act (ite_act parkOn_wf (bind_act (change_wf (fun _ h13 =>
      injectLocal_wf h13)) (fun _ => change_wf (fun _ h14 => modCsr_wf (modMe_wf h14))))) (bind_act (change_wf (fun _ h15 =>
      modMe_wf h15)) (fun _ => ite_act (change_wf (fun _ h16 => modCsr_wf h16)) pure_act)))))) (bind_act rv_wf (fun _ =>
      ite_act (ite_act parkOn_wf (bind_act (change_wf (fun _ h17 => injectLocal_wf h17)) (fun _ => change_wf (fun _ h18 =>
      modCsr_wf (modMe_wf h18))))) (bind_act (change_wf (fun _ h19 => modMe_wf h19)) (fun _ => ite_act (change_wf (fun _ h20 =>
      modCsr_wf h20)) pure_act)))))))) h)

theorem execQrecv_wf {d : VReg} {q : QReg} {b : GReg} {poll : Bool} {s : State} (h : Wf s) : OutWf (execQrecv d q b poll s) := by
  unfold execQrecv
  refine finish_wf h (res_wf (bind_act needComm_wf ?_) h)
  intro _
  refine bind_act needBound_wf fun _ => ?_
  split
  · exact ite_act (change_wf (fun _ h1 => modMe_wf (wg_wf h1))) parkOn_wf
  · exact bind_act wv_wf (fun _ => bind_act (change_wf (fun _ h2 => modQ_wf h2)) (fun _ => bind_act (change_wf (fun _ h3 =>
      wg_wf h3)) (fun _ => change_wf (fun _ h4 => runEntry_wf h4))))

theorem execVsopen_wf {d a : GReg} {nb : Bool} {q : QReg} {entry : BitVec 8} {s : State} (h : Wf s) : OutWf (execVsopen d a nb
    q entry s) := by
  unfold execVsopen
  refine finish_wf h (res_wf (bind_act needComm_wf ?_) h)
  intro _
  dsimp only
  split
  · refine bind_act localStruct_wf fun _ => ?_
    split
    · exact change_wf (fun _ h1 => wg_wf h1)
    · exact ite_act (change_wf (fun _ h2 => wg_wf h2)) (ite_act (change_wf (fun _ h3 => wg_wf h3)) (ite_act (change_wf (fun
        _ h4 => wg_wf h4)) (ite_act (change_wf (fun _ h5 => wg_wf h5)) (bind_act (change_wf (fun _ h6 => modMyClu_wf h6
        fun _ => rfl)) (fun _ => ite_act (bind_act (change_wf (fun _ h7 => modQ_wf h7)) (fun _ => change_wf (fun _ h8 =>
        wg_wf h8))) (change_wf (fun _ h9 => wg_wf h9)))))))
  · refine bind_act pure_act fun _ => ?_
    split
    · exact change_wf (fun _ h10 => wg_wf h10)
    · exact ite_act (change_wf (fun _ h11 => wg_wf h11)) (ite_act (change_wf (fun _ h12 => wg_wf h12)) (ite_act (change_wf (fun
        _ h13 => wg_wf h13)) (ite_act (change_wf (fun _ h14 => wg_wf h14)) (bind_act (change_wf (fun _ h15 => modMyClu_wf h15
        fun _ => rfl)) (fun _ => ite_act (bind_act (change_wf (fun _ h16 => modQ_wf h16)) (fun _ => change_wf (fun _ h17 =>
        wg_wf h17))) (change_wf (fun _ h18 => wg_wf h18)))))))

theorem execVsmark_wf {q : QReg} {b : GReg} {s : State} (h : Wf s) : OutWf (execVsmark q b s) :=
  finish_wf h (res_wf (bind_act needComm_wf (fun _ => bind_act needBound_wf (fun _ => ite_act illegal_wf (ite_act parkHeld_wf
      (ite_act parkOn_wf (change_wf (fun _ h1 => injectLocal_wf h1))))))) h)

theorem closeEntry_wf {s : State} {clu e : Nat} {x : VsEntry} (h : Wf s) : Wf (closeEntry s clu e x) := by
  unfold closeEntry
  extract_lets
  split
  · exact modClu_wf (same_wf h) fun _ => rfl
  · exact modQ_wf (modClu_wf (same_wf h) fun _ => rfl)

theorem execVsclose_wf {d : GReg} {entry : BitVec 8} {s : State} (h : Wf s) : OutWf (execVsclose d entry s) := by
  unfold execVsclose
  refine finish_wf h (res_wf (bind_act needComm_wf ?_) h)
  intro _
  split
  · exact change_wf (fun _ h1 => wg_wf h1)
  · split
    · exact change_wf (fun _ h2 => wg_wf h2)
    · split
      · exact fun _ h3 => spawn_wf (abandon_wf h3)
      · exact ite_act (fun _ => pollMem_wf) (change_wf (fun _ h4 => wg_wf (closeEntry_wf h4)))

theorem setLimits_wf {s : State} {inMod : Nat → Bool} {vf : Nat} {l : Option (Option Nat)} (h : Wf s) : Wf (setLimits s inMod
    vf l) :=
  parts_wf h rfl (partsOf_refl _) (partsOf_map (fun _ => by split <;> rfl) _)

theorem wakeMembers_wf {s : State} {vf : Nat} (h : Wf s) : Wf (wakeMembers s vf) := foldl_wf h (fun _ _ h1 => modStrand_wf h1)

theorem modGang_wf {s : State} {m vf : Nat} {f : Gang → Gang} (h : Wf s) : Wf (s.modGang m vf f) :=
  modMod_wf h fun _ => ⟨rfl, rfl, rfl⟩

theorem resumeGang_wf {s : State} {m vf : Nat} (h : Wf s) : Wf (resumeGang s m vf) :=
  wakeMembers_wf (setLimits_wf (modMod_wf h fun _ => ⟨rfl, rfl, rfl⟩))

theorem switchFrom_wf {vf : Nat} {s : State} {m : Nat} (h : Wf s) : Wf (switchFrom vf s m) := by
  unfold switchFrom
  extract_lets
  split
  · exact ite_wf h (beginSwitch_wf h)
  · exact h

theorem gangSwitch_wf {s : State} {m vf : Nat} (h : Wf s) : Wf (gangSwitch s m vf) := by
  unfold gangSwitch
  extract_lets
  split
  · exact resumeGang_wf (modGang_wf h)
  · exact ite_wf (resumeGang_wf (modGang_wf h)) (foldl_wf (modGang_wf h) (fun _ _ h1 => switchFrom_wf h1))

theorem execGangQuery_wf {m vf : Nat} {s : State} (h : Wf s) : OutWf (execGangQuery m vf s) := by
  unfold execGangQuery
  split
  · exact h
  · split
    · exact again_wf h
    · extract_lets
      split
      · exact gangSwitch_wf (modMod_wf (setLimits_wf h) fun _ => ⟨rfl, rfl, rfl⟩)
      · exact spawn_wf (modMod_wf (setLimits_wf h) fun _ => ⟨rfl, rfl, rfl⟩)

theorem execGangPause_wf {m vf : Nat} {s : State} (h : Wf s) : OutWf (execGangPause m vf s) := by
  unfold execGangPause
  split
  · exact h
  · exact ite_out h (spawns_wf (wakeMembers_wf (modGang_wf (setLimits_wf h))))

theorem execGangDrainComplete_wf {m vf : Nat} {s : State} (h : Wf s) : OutWf (execGangDrainComplete m vf s) := by
  unfold execGangDrainComplete
  split
  · exact h
  · exact ite_out h (ite_out (gangSwitch_wf h) (again_wf h))

theorem dropHeld_wf {s : State} {clu e : Nat} {x : VsEntry} (h : Wf s) : Wf (dropHeld s clu e x) :=
  foldl_wf (modEntry_wf (foldl_wf h (fun _ _ h1 => count_wf h1))) (fun _ _ h2 => sendCredit_wf h2)

theorem dropQueues_wf {vf : Nat} {s : State} {core : Nat} (h : Wf s) : Wf (dropQueues vf s core) :=
  foldl_wf h (fun _ _ h1 => ite_wf (foldl_wf (modQ_wf h1) (fun _ _ h2 => count_wf h2)) h1)

theorem stopInPlace_wf {s : State} {vf : Nat} (h : Wf s) : Wf (stopInPlace s vf) :=
  foldl_wf (foldl_wf h (fun _ _ h1 => foldl_wf h1 (fun _ _ h2 => dropHeld_wf h2))) (fun _ _ h3 => dropQueues_wf h3)

theorem execGangStopTimeout_wf {m vf : Nat} {s : State} (h : Wf s) : OutWf (execGangStopTimeout m vf s) := by
  unfold execGangStopTimeout
  split
  · exact h
  · exact ite_out h (ite_out (again_wf h) (gangSwitch_wf (stopInPlace_wf h)))

theorem execGangResume_wf {m vf : Nat} {s : State} (h : Wf s) : OutWf (execGangResume m vf s) := resumeGang_wf h

end Sys2Proof.Proofs.MemKept
end

section
/-! SUPPORT. The canonical form of the memories, function by function of the model (log 5), in the order of the model's files:
Control, Integer, Launch, LoadStore, Migrate. -/

namespace Sys2Proof.Proofs.MemKept

open Sys2Proof Sys2Proof.Machine Sys2Proof.Laws MemForm HomeAccess

/-! ### Machine/Control.lean -/

theorem branch_wf {c : Bool} {off : BitVec 13} {s : State} (h : Wf s) : OutWf (branch c off s) :=
  done_out (ite_wf (jump_wf h) h)

theorem link_wf {s : State} (h : Wf s) : Wf (link s) := wg_wf h

theorem jumpTo_wf {a : GReg} {imm : BitVec 13} {linked : Bool} : ActWf (jumpTo a imm linked) :=
  fun _ h1 => ite_run trivial (jump_wf (ite_wf (link_wf h1) h1))

theorem execNop_wf {s : State} (h : Wf s) : OutWf (execNop s) := done_out h

theorem execBr_wf {off : BitVec 23} {s : State} (h : Wf s) : OutWf (execBr off s) := done_out (jump_wf h)

theorem execCall_wf {off : BitVec 23} {s : State} (h : Wf s) : OutWf (execCall off s) := done_out (jump_wf (link_wf h))

theorem execJmp_wf {a : GReg} {imm : BitVec 13} {s : State} (h : Wf s) : OutWf (execJmp a imm s) :=
  finish_wf h (res_wf jumpTo_wf h)

theorem execCallr_wf {a : GReg} {imm : BitVec 13} {s : State} (h : Wf s) : OutWf (execCallr a imm s) :=
  finish_wf h (res_wf jumpTo_wf h)

theorem execBeq_wf {a b : GReg} {off : BitVec 13} {s : State} (h : Wf s) : OutWf (execBeq a b off s) := branch_wf h

theorem execBne_wf {a b : GReg} {off : BitVec 13} {s : State} (h : Wf s) : OutWf (execBne a b off s) := branch_wf h

theorem execBlt_wf {a b : GReg} {off : BitVec 13} {s : State} (h : Wf s) : OutWf (execBlt a b off s) := branch_wf h

theorem execBge_wf {a b : GReg} {off : BitVec 13} {s : State} (h : Wf s) : OutWf (execBge a b off s) := branch_wf h

theorem execBltu_wf {a b : GReg} {off : BitVec 13} {s : State} (h : Wf s) : OutWf (execBltu a b off s) := branch_wf h

theorem execBgeu_wf {a b : GReg} {off : BitVec 13} {s : State} (h : Wf s) : OutWf (execBgeu a b off s) := branch_wf h

theorem execJtab_wf {d a : GReg} {imm : BitVec 13} {s : State} (h : Wf s) : OutWf (execJtab d a imm s) :=
  finish_wf h (res_wf (ite_act pure_act (bind_act aligned_wf (fun _ => bind_act load_wf (fun _ => change_wf (fun _ h1 =>
      jump_wf h1))))) h)

theorem pushLevel_wf {s : State} {b e n : Nat} (h : Wf s) : Wf (pushLevel s b e n) := by
  unfold pushLevel
  refine modMe_wf ?_
  split
  · exact h
  · exact modMyCore_wf h fun _ => rfl

theorem execLoop_wf {a : GReg} {imm : BitVec 13} {s : State} (h : Wf s) : OutWf (execLoop a imm s) := by
  unfold execLoop
  refine finish_wf h ?_
  split
  · exact jump_wf h
  · split
    · exact pushLevel_wf h
    · exact ite_res trivial (pushLevel_wf h)
    · exact trivial

theorem execLoopx_wf {a : GReg} {s : State} (h : Wf s) : OutWf (execLoopx a s) := by
  unfold execLoopx
  refine finish_wf h ?_
  split
  · exact h
  · exact ite_res (noteEvent_wf (same_wf (jump_wf (modMe_wf (freeBuf_wf h))))) h

theorem closeRdv_wf {s : State} {k idx : Nat} {r : Rdv} (h : Wf s) : Wf (closeRdv s k idx r) :=
  foldl_wf (modClu_wf h fun _ => rfl) (fun _ _ h1 => giveAnswer_wf h1)

theorem arriveRdv_wf {s : State} {w mask : Nat} (h : Wf s) : Wf (arriveRdv s w mask) := by
  unfold arriveRdv
  dsimp only
  split
  · exact ite_wf (closeRdv_wf (modClu_wf h fun _ => rfl)) (modClu_wf h fun _ => rfl)
  · split
    · exact spawn_wf (modClu_wf h fun _ => rfl)
    · exact spawn_wf (modClu_wf h fun _ => rfl)

theorem execCourse_wf {d a : GReg} {s : State} (h : Wf s) : OutWf (execCourse d a s) := by
  unfold execCourse
  refine finish_wf h ?_
  split
  · exact wg_wf h
  · split
    · exact wg_wf h
    · dsimp only
      split
      · exact wg_wf (leaveCourse_wf h)
      · split
        · exact wg_wf (arriveRdv_wf (leaveCourse_wf h))
        · exact arriveRdv_wf (leaveCourse_wf h)

theorem modCourse_wf {s : State} {p : Place} {f : Course → Course} (h : Wf s) : Wf (modCourse s p f) := modClu_wf h fun _ => rfl

theorem rejoin_wf {s : State} {p : Place} {arr : List Nat} (h : Wf s) : Wf (rejoin s p arr) :=
  foldl_wf (modCourse_wf h) (fun _ _ h1 => giveAnswer_wf h1)

theorem holdHere_wf {s : State} {imm : BitVec 13} (h : Wf s) : Wf (holdHere s imm) := spawn_wf (ask_wf h)

theorem execRealign_wf {imm : BitVec 13} {s : State} (h : Wf s) : OutWf (execRealign imm s) := by
  unfold execRealign
  refine finish_wf h ?_
  split
  · exact h
  · exact ite_res (ite_res h (ite_res (rejoin_wf h) (ite_res (rejoin_wf h) (holdHere_wf (modCourse_wf h))))) (ite_res h
      (ite_res h (ite_res (holdHere_wf (ite_wf (giveAnswer_wf (modCourse_wf h)) (modCourse_wf h))) (holdHere_wf h))))

theorem execCourseForward_wf {p : Place} {s : State} (h : Wf s) : OutWf (execCourseForward p s) := by
  unfold execCourseForward
  split
  · exact h
  · exact ite_out (again_wf h) (modStrand_wf h)

theorem execCourseTimeout_wf {clu idx : Nat} {s : State} (h : Wf s) : OutWf (execCourseTimeout clu idx s) := by
  unfold execCourseTimeout
  split
  · exact h
  · exact ite_out h (ite_out (again_wf h) (closeRdv_wf h))

theorem execRealignTimeout_wf {p : Place} {s : State} (h : Wf s) : OutWf (execRealignTimeout p s) := by
  unfold execRealignTimeout
  extract_lets
  split
  · split
    · split
      · exact giveAnswer_wf h
      · exact ite_out (again_wf h) (giveAnswer_wf h)
    · exact again_wf h
  · exact h

/-! ### Machine/Integer.lean -/

theorem writeG_wf {d : GReg} {v : Word} {s : State} (h : Wf s) : OutWf (writeG d v s) := done_out (wg_wf h)

theorem execAnop_wf {s : State} (h : Wf s) : OutWf (execAnop s) := done_out h

theorem execAdd_wf {d a b : GReg} {p : Bool} {s : State} (h : Wf s) : OutWf (execAdd d a b p s) := writeG_wf h

theorem execSub_wf {d a b : GReg} {p : Bool} {s : State} (h : Wf s) : OutWf (execSub d a b p s) := writeG_wf h

theorem execAddi_wf {d a : GReg} {imm : BitVec 13} {s : State} (h : Wf s) : OutWf (execAddi d a imm s) := writeG_wf h

theorem execMul_wf {d a b : GReg} {s : State} (h : Wf s) : OutWf (execMul d a b s) := writeG_wf h

theorem execMulh_wf {d a b : GReg} {s : State} (h : Wf s) : OutWf (execMulh d a b s) := writeG_wf h

theorem execMulhu_wf {d a b : GReg} {s : State} (h : Wf s) : OutWf (execMulhu d a b s) := writeG_wf h

theorem execDiv_wf {d a b : GReg} {s : State} (h : Wf s) : OutWf (execDiv d a b s) := writeG_wf h

theorem execDivu_wf {d a b : GReg} {s : State} (h : Wf s) : OutWf (execDivu d a b s) := writeG_wf h

theorem execRem_wf {d a b : GReg} {s : State} (h : Wf s) : OutWf (execRem d a b s) := writeG_wf h

theorem execRemu_wf {d a b : GReg} {s : State} (h : Wf s) : OutWf (execRemu d a b s) := writeG_wf h

theorem execAnd_wf {d a b : GReg} {s : State} (h : Wf s) : OutWf (execAnd d a b s) := writeG_wf h

theorem execOr_wf {d a b : GReg} {s : State} (h : Wf s) : OutWf (execOr d a b s) := writeG_wf h

theorem execXor_wf {d a b : GReg} {s : State} (h : Wf s) : OutWf (execXor d a b s) := writeG_wf h

theorem execAndi_wf {d a : GReg} {imm : BitVec 13} {s : State} (h : Wf s) : OutWf (execAndi d a imm s) := writeG_wf h

theorem execOri_wf {d a : GReg} {imm : BitVec 13} {s : State} (h : Wf s) : OutWf (execOri d a imm s) := writeG_wf h

theorem execXori_wf {d a : GReg} {imm : BitVec 13} {s : State} (h : Wf s) : OutWf (execXori d a imm s) := writeG_wf h

theorem execShl_wf {d a b : GReg} {s : State} (h : Wf s) : OutWf (execShl d a b s) := writeG_wf h

theorem execShr_wf {d a b : GReg} {s : State} (h : Wf s) : OutWf (execShr d a b s) := writeG_wf h

theorem execSar_wf {d a b : GReg} {s : State} (h : Wf s) : OutWf (execSar d a b s) := writeG_wf h

theorem execShli_wf {d a : GReg} {sh : BitVec 6} {s : State} (h : Wf s) : OutWf (execShli d a sh s) := writeG_wf h

theorem execShri_wf {d a : GReg} {sh : BitVec 6} {s : State} (h : Wf s) : OutWf (execShri d a sh s) := writeG_wf h

theorem execSari_wf {d a : GReg} {sh : BitVec 6} {s : State} (h : Wf s) : OutWf (execSari d a sh s) := writeG_wf h

theorem execLimm_wf {d : GReg} {sel : BitVec 2} {imm : BitVec 16} {s : State} (h : Wf s) : OutWf (execLimm d sel imm s) :=
  writeG_wf h

theorem execSlt_wf {d a b : GReg} {s : State} (h : Wf s) : OutWf (execSlt d a b s) := writeG_wf h

theorem execSltu_wf {d a b : GReg} {s : State} (h : Wf s) : OutWf (execSltu d a b s) := writeG_wf h

theorem execSeq_wf {d a b : GReg} {s : State} (h : Wf s) : OutWf (execSeq d a b s) := writeG_wf h

theorem execSel_wf {d a b : GReg} {s : State} (h : Wf s) : OutWf (execSel d a b s) := writeG_wf h

theorem execClz_wf {d a : GReg} {s : State} (h : Wf s) : OutWf (execClz d a s) := writeG_wf h

theorem execPopc_wf {d a : GReg} {s : State} (h : Wf s) : OutWf (execPopc d a s) := writeG_wf h

theorem execMin_wf {d a b : GReg} {u : Bool} {s : State} (h : Wf s) : OutWf (execMin d a b u s) := writeG_wf h

theorem execMax_wf {d a b : GReg} {u : Bool} {s : State} (h : Wf s) : OutWf (execMax d a b u s) := writeG_wf h

theorem execPfmt_wf {d a b : GReg} {s : State} (h : Wf s) : OutWf (execPfmt d a b s) := writeG_wf h

theorem execPgetf_wf {d a : GReg} {sel : BitVec 2} {s : State} (h : Wf s) : OutWf (execPgetf d a sel s) := writeG_wf h

theorem execPadde_wf {d a b : GReg} {s : State} (h : Wf s) : OutWf (execPadde d a b s) := writeG_wf h

theorem execPcaddr_wf {d : GReg} {imm : BitVec 13} {s : State} (h : Wf s) : OutWf (execPcaddr d imm s) := writeG_wf h

/-! ### Machine/Launch.lean -/

theorem applyDue_wf {s : State} {m vf : Nat} (h : Wf s) : Wf (applyDue s m vf) := applySome_wf h

theorem execVfPolicyWrite_wf {m vf : Nat} {f : PolicyField} {s : State} (h : Wf s) : OutWf (execVfPolicyWrite m vf f s) :=
  ite_out (modPolicy_wf h) (applyField_wf (applyDue_wf h))

theorem modLaunch_wf {s : State} {m q : Nat} {f : Launch → Launch} (h : Wf s) : Wf (s.modLaunch m q f) :=
  modMod_wf h fun _ => ⟨rfl, rfl, rfl⟩

theorem ochreNote_wf {s : State} {m vf : Nat} {r : Nat × Nat} (h : Wf s) : Wf (ochreNote s m vf r) := by
  unfold ochreNote
  split
  · exact h
  · next h1 => exact (h1 ▸ (ochreRead_wf h) :)

theorem noteLaunch_wf {s : State} {m vf ent status : Nat} (h : Wf s) : Wf (noteLaunch s m vf ent status) := by
  unfold noteLaunch
  extract_lets
  split
  · exact ite_wf (ochreNote_wf h) h
  · exact foldl_wf h (fun _ _ h1 => ochreNote_wf h1)

theorem loadTcm_wf {e : Partition} {len img : Nat} {s : State} {core : Nat} (h : Wf s) : Wf (loadTcm e len img s core) :=
  Keeps.modCore (fun _ hc => writeN_wf _ _ _ _ (filter_wf _ _ hc)) h

theorem loadSpad_wf {m : Nat} {e : Partition} {r : LaunchRec} {img : Nat} {s : State} {k : Nat} (h : Wf s) : Wf (loadSpad m e r
    img s k) :=
  Keeps.modClu (fun _ hc => writeN_wf _ _ _ _ (filter_wf _ _ hc)) (ite_wf h (convertWays_wf h))

theorem fillGroups_wf {s : State} {m vf : Nat} {r : LaunchRec} (h : Wf s) : Wf (fillGroups s m vf r) :=
  foldl_wf (same_wf h) (fun _ _ h1 => modDie_wf h1)

theorem queueTasks_wf {x1 : List (Nat × QTask)} {s : State} (h : Wf s) : Wf (queueTasks x1 s).2 := by
  induction x1 generalizing s with
  | nil => exact h
  | cons e rest ih =>
    unfold queueTasks
    split
    · exact h
    · exact ih (enqueue_wf h)

theorem loadExtra_wf {s : State} {m part vf : Nat} (h : Wf s) : Wf (loadExtra s m part vf) := by
  unfold loadExtra
  split
  · exact h
  · exact foldl_wf h (fun _ _ h1 => ite_wf (handIn_wf h1) h1)

theorem takePartition_wf {s : State} {m part vf : Nat} (h : Wf s) : Wf (takePartition s m part vf) := by
  unfold takePartition
  split
  · exact loadExtra_wf (modPart_wf h)
  · exact ite_wf (loadExtra_wf h) (spawnOnce_wf h)

theorem startLaunch_wf {s : State} {m q vf next : Nat} {super : Bool} {r : LaunchRec} (h : Wf s) : Wf (startLaunch s m q vf
    next super r) :=
  takePartition_wf (modLaunch_wf (queueTasks_wf (modLaunch_wf (fillGroups_wf (foldl_wf (foldl_wf (setContexts_wf
      (applyPending_wf h)) (fun _ _ h1 => loadTcm_wf h1)) (fun _ _ h2 => loadSpad_wf h2))))))

theorem setBusy_wf {s : State} {m : Nat} {e : Partition} {v : Bool} (h : Wf s) : Wf (setBusy s m e v) :=
  foldl_wf h (fun _ _ h1 => wakeClu_wf (modClu_wf h1 fun _ => rfl))

theorem finishEntry_wf {s : State} {m q next status : Nat} (h : Wf s) : Wf (finishEntry s m q next status) :=
  modLaunch_wf (ochreWrite_wf (ite_wf (ochreWrite_wf h) (ochreWrite_wf (ochreWrite_wf h))))

theorem execLaunchTake_wf {m vf : Nat} {s : State} (h : Wf s) : OutWf (execLaunchTake m vf s) := by
  unfold execLaunchTake
  extract_lets
  split
  · exact h
  · split
    · exact spawnOnce_wf (ochreNote_wf h)
    · extract_lets
      split
      · exact spawnOnce_wf (ochreNote_wf h)
      · extract_lets
        split
        · exact spawnOnce_wf h
        · split
          · exact spawnOnce_wf (finishEntry_wf (noteLaunch_wf h))
          · exact ite_out (spawnOnce_wf (setBusy_wf h)) (spawn_wf (startLaunch_wf (setBusy_wf h)))

theorem execLqdb_wf {m vf : Nat} {s : State} (h : Wf s) : OutWf (execLqdb m vf s) := spawnOnce_wf h

theorem discardWaiting_wf {s : State} {m vf : Nat} (h : Wf s) : Wf (discardWaiting s m vf) := entriesFree_wf (same_wf h)

theorem execLaunchEnd_wf {m vf : Nat} {s : State} (h : Wf s) : OutWf (execLaunchEnd m vf s) :=
  ite_out h (ite_out (again_wf (modLaunch_wf (queueTasks_wf h))) (spawnOnce_wf (ite_wf (finishEntry_wf (discardWaiting_wf
      (modLaunch_wf (queueTasks_wf h)))) (spawnOnce_wf (finishEntry_wf (discardWaiting_wf (modLaunch_wf (queueTasks_wf h))))))))

/-! ### Machine/LoadStore.lean -/

theorem loadScalar_wf {t base : GReg} {off : BitVec 10} {w : Nat} {sg hint : Bool} : ActWf (loadScalar t base off w sg hint) :=
  bind_here (fun _ _ => bind_act aligned_wf (fun _ => bind_act load_wf (fun _ => change_wf (fun _ h2 => wg_wf h2))))

theorem storeScalar_wf {t base : GReg} {off : BitVec 10} {w : Nat} {hint : Bool} : ActWf (storeScalar t base off w hint) :=
  bind_here (fun _ _ => bind_act aligned_wf (fun _ => store_wf))

theorem execLdb_wf {t base : GReg} {off : BitVec 10} {hint : Bool} {s : State} (h : Wf s) : OutWf (execLdb t base off hint s) :=
  finish_wf h (res_wf loadScalar_wf h)

theorem execLdbu_wf {t base : GReg} {off : BitVec 10} {hint : Bool} {s : State} (h : Wf s) : OutWf (execLdbu t base off hint s)
    :=
  finish_wf h (res_wf loadScalar_wf h)

theorem execLdh_wf {t base : GReg} {off : BitVec 10} {hint : Bool} {s : State} (h : Wf s) : OutWf (execLdh t base off hint s) :=
  finish_wf h (res_wf loadScalar_wf h)

theorem execLdhu_wf {t base : GReg} {off : BitVec 10} {hint : Bool} {s : State} (h : Wf s) : OutWf (execLdhu t base off hint s)
    :=
  finish_wf h (res_wf loadScalar_wf h)

theorem execLdw_wf {t base : GReg} {off : BitVec 10} {hint : Bool} {s : State} (h : Wf s) : OutWf (execLdw t base off hint s) :=
  finish_wf h (res_wf loadScalar_wf h)

theorem execLdwu_wf {t base : GReg} {off : BitVec 10} {hint : Bool} {s : State} (h : Wf s) : OutWf (execLdwu t base off hint s)
    :=
  finish_wf h (res_wf loadScalar_wf h)

theorem execLdd_wf {t base : GReg} {off : BitVec 10} {hint : Bool} {s : State} (h : Wf s) : OutWf (execLdd t base off hint s) :=
  finish_wf h (res_wf loadScalar_wf h)

theorem execStb_wf {t base : GReg} {off : BitVec 10} {hint : Bool} {s : State} (h : Wf s) : OutWf (execStb t base off hint s) :=
  finish_wf h (res_wf storeScalar_wf h)

theorem execSth_wf {t base : GReg} {off : BitVec 10} {hint : Bool} {s : State} (h : Wf s) : OutWf (execSth t base off hint s) :=
  finish_wf h (res_wf storeScalar_wf h)

theorem execStw_wf {t base : GReg} {off : BitVec 10} {hint : Bool} {s : State} (h : Wf s) : OutWf (execStw t base off hint s) :=
  finish_wf h (res_wf storeScalar_wf h)

theorem execStd_wf {t base : GReg} {off : BitVec 10} {hint : Bool} {s : State} (h : Wf s) : OutWf (execStd t base off hint s) :=
  finish_wf h (res_wf storeScalar_wf h)

theorem execLdaq_wf {t base : GReg} {wid : Width} {off : BitVec 8} {sc : Scope} {s : State} (h : Wf s) : OutWf (execLdaq t base
    wid off sc s) :=
  finish_wf h (res_wf (bind_act aligned_wf (fun _ => bind_act clamp_wf (fun _ => bind_act load_wf (fun _ => bind_act (change_wf
      (fun _ h1 => wg_wf h1)) (fun _ => bind_act acquire_wf (fun _ => noteClamp_wf)))))) h)

theorem execStrl_wf {t base : GReg} {wid : Width} {off : BitVec 8} {sc : Scope} {s : State} (h : Wf s) : OutWf (execStrl t base
    wid off sc s) :=
  finish_wf h (res_wf (bind_act aligned_wf (fun _ => bind_act clamp_wf (fun _ => bind_act storeCheck_wf (fun _ => bind_act
      release_wf (fun _ => bind_act store_wf (fun _ => noteClamp_wf)))))) h)

theorem execPref_wf {kind : PrefKind} {base : GReg} {off : BitVec 10} {s : State} (h : Wf s) : OutWf (execPref kind base off s)
    :=
  done_out (ite_wf h (spawn_wf (send_wf h)))

theorem fmtCheck_wf {c k : Nat} : ActWf (fmtCheck c k) := ite_act reserved_wf pure_act

theorem elemAligned_wf {a c : Nat} {kd : Access} : ActWf (elemAligned a c kd) := ite_act aligned_wf pure_act

theorem loadElem_wf {base c k : Nat} {n : ℤ} : ActWf (loadElem base c k n) :=
  ite_act (bind_act loadTwo_wf (fun _ => pure_act)) (ite_act (bind_act load_wf (fun _ => pure_act)) (bind_act aligned_wf (fun _
      => bind_act load_wf (fun _ => pure_act))))

theorem execLdf_wf {t base : GReg} {off : BitVec 10} {rs : RoundSel} {s : State} (h : Wf s) : OutWf (execLdf t base off rs s) :=
  finish_wf h (res_wf (bind_act fmtCheck_wf (fun _ => bind_act loadElem_wf (fun _ => ite_act (change_wf (fun _ h1 => wg_wf h1))
      (change_wf (fun _ h2 => setFlags_wf (wg_wf h2)))))) h)

theorem execStf_wf {t base : GReg} {off : BitVec 10} {rs : RoundSel} {s : State} (h : Wf s) : OutWf (execStf t base off rs s) :=
  finish_wf h (res_wf (bind_act fmtCheck_wf (fun _ => ite_act (ite_act (bind_act pure_act (fun _ => bind_act storeCheck_wf (fun
      _ => bind_act loadBytes_wf (fun _ => bind_act unpoisoned_wf (fun _ => bind_act unpoisoned_wf (fun _ => bind_act store_wf
      (fun _ => change_wf (fun _ h1 => setSeed_wf (setFlags_wf h1))))))))) (bind_act loadBytes_wf (fun _ => bind_act
      storeCheck_wf (fun _ => bind_act loadBytes_wf (fun _ => bind_act unpoisoned_wf (fun _ => bind_act unpoisoned_wf (fun _ =>
      bind_act store_wf (fun _ => change_wf (fun _ h2 => setSeed_wf (setFlags_wf h2)))))))))) (bind_act aligned_wf (fun _ =>
      bind_act store_wf (fun _ => change_wf (fun _ h3 => setSeed_wf (setFlags_wf h3))))))) h)

theorem loadMask_wf {a mask : Nat} {fill : Bool} {x1 x2 : Nat} : ActWf (loadMask a mask fill x1 x2) := by
  induction x1 generalizing x2 with
  | zero => exact pure_act
  | succ n ih =>
    have hj (x : Nat) : ActWf (do let y ← loadMask a mask fill n (x2 + 1); pure (x + 256 * y) : Act Nat) :=
      bind_act ih fun _ => pure_act
    exact ite_act (bind_act load_wf hj) (bind_act pure_act hj)

theorem oldBytes_wf {k : KReg} {t : VReg} : ActWf (execVld.oldBytes k t) := ite_act pure_act rv_wf

theorem execVld_wf {t : VReg} {base : GReg} {off : BitVec 10} {hint : Bool} {k : KReg} {s : State} (h : Wf s) : OutWf (execVld
    t base off hint k s) :=
  finish_wf h (res_wf (bind_act aligned_wf (fun _ => ite_act (bind_act load_wf (fun _ => bind_act oldBytes_wf (fun _ =>
      wv_wf))) (bind_act loadMask_wf (fun _ => bind_act oldBytes_wf (fun _ => wv_wf))))) h)

theorem execVst_wf {t : VReg} {base : GReg} {off : BitVec 10} {hint : Bool} {k : KReg} {s : State} (h : Wf s) : OutWf (execVst
    t base off hint k s) := by
  unfold execVst
  refine finish_wf h (res_wf (bind_act aligned_wf ?_) h)
  intro _
  refine bind_act rv_wf fun _ => ?_
  extract_lets
  split
  · exact pure_act
  · exact bind_act storeCheck_wf (fun _ => change_wf (fun _ h1 => storeBytes_wf h1 h1))

theorem loadEach_wf {w : Nat} {x1 : List (Nat × Nat)} : ActWf (loadEach w x1) := by
  induction x1 with
  | nil => exact pure_act
  | cons e es ih => exact bind_act aligned_wf fun _ => bind_act load_wf fun _ => bind_act ih fun _ => pure_act

theorem checkEach_wf {w : Nat} {x1 : List (Nat × Nat)} : ActWf (checkEach w x1) := by
  induction x1 with
  | nil => exact pure_act
  | cons e es ih => exact bind_act aligned_wf fun _ => bind_act storeCheck_wf fun _ => ih

theorem storeEach_wf {s : State} {w x : Nat} {l : List (Nat × Nat)} (h : Wf s) : Wf (storeEach s w x l) :=
  foldl_wf h (fun _ _ h1 => storeBytes_wf h h1)

theorem gather_wf {d : VReg} {k : KReg} {w : Nat} {ps : List (Nat × Nat)} : ActWf (gather d k w ps) :=
  bind_act loadEach_wf (fun _ => ite_act (bind_act pure_act (fun _ => wv_wf)) (bind_act rv_wf (fun _ => wv_wf)))

theorem scatter_wf {x : Vec} {w : Nat} {ps order : List (Nat × Nat)} : ActWf (scatter x w ps order) :=
  bind_act checkEach_wf (fun _ => change_wf (fun _ h1 => storeEach_wf h1))

theorem execVlds_wf {d : VReg} {a b : GReg} {wid : Width} {k : KReg} {s : State} (h : Wf s) : OutWf (execVlds d a b wid k s) :=
  finish_wf h (res_wf gather_wf h)

theorem execVsts_wf {d : VReg} {a b : GReg} {wid : Width} {k : KReg} {s : State} (h : Wf s) : OutWf (execVsts d a b wid k s) :=
  finish_wf h (res_wf (bind_act rv_wf (fun _ => scatter_wf)) h)

theorem execVgath_wf {d : VReg} {a : GReg} {b : VReg} {wid : Width} {k : KReg} {s : State} (h : Wf s) : OutWf (execVgath d a b
    wid k s) :=
  finish_wf h (res_wf (bind_act rv_wf (fun _ => gather_wf)) h)

theorem execVscat_wf {d : VReg} {a : GReg} {b : VReg} {wid : Width} {k : KReg} {s : State} (h : Wf s) : OutWf (execVscat d a b
    wid k s) :=
  finish_wf h (res_wf (bind_act rv2_wf (fun _ => scatter_wf)) h)

theorem loadElems_wf {base c k : Nat} {n : ℤ} {e : Nat} : ActWf (loadElems base c k n e) :=
  ite_act (bind_act loadTwo_wf (fun _ => pure_act)) (bind_act elemAligned_wf (fun _ => bind_act load_wf (fun _ => pure_act)))

theorem execVldf_wf {t : VReg} {base : GReg} {off : BitVec 10} {ty : VecFmt} {s : State} (h : Wf s) : OutWf (execVldf t base
    off ty s) :=
  finish_wf h (res_wf (bind_act fmtCheck_wf (fun _ => ite_act reserved_wf (bind_act loadElems_wf (fun _ => bind_act wv_wf (fun
      _ => change_wf (fun _ h1 => setSeed_wf (setFlags_wf h1))))))) h)

theorem execVstf_wf {t : VReg} {base : GReg} {off : BitVec 10} {ty : VecFmt} {s : State} (h : Wf s) : OutWf (execVstf t base
    off ty s) :=
  finish_wf h (res_wf (bind_act fmtCheck_wf (fun _ => ite_act reserved_wf (ite_act reserved_wf (ite_act reserved_wf (bind_act
      rv_wf (fun _ => ite_act (bind_act store_wf (fun _ => change_wf (fun _ h1 => setSeed_wf (setFlags_wf h1)))) (bind_act
      elemAligned_wf (fun _ => bind_act store_wf (fun _ => change_wf (fun _ h2 => setSeed_wf (setFlags_wf h2))))))))))) h)

theorem execFence_wf {sc : Scope} {s : State} (h : Wf s) : OutWf (execFence sc s) :=
  finish_wf h (res_wf (bind_act clamp_wf (fun _ => bind_act release_wf (fun _ => bind_act acquire_wf (fun _ => noteClamp_wf))))
      h)

theorem execAcq_wf {sc : Scope} {s : State} (h : Wf s) : OutWf (execAcq sc s) :=
  finish_wf h (res_wf (bind_act clamp_wf (fun _ => bind_act acquire_wf (fun _ => noteClamp_wf))) h)

theorem execRel_wf {sc : Scope} {s : State} (h : Wf s) : OutWf (execRel sc s) :=
  finish_wf h (res_wf (bind_act clamp_wf (fun _ => bind_act release_wf (fun _ => noteClamp_wf))) h)

/-! ### Machine/Migrate.lean -/

theorem ringRead_wf {s : State} {m a n : Nat} (h : Wf s) : Wf (ringRead s m a n).2 := by
  unfold ringRead
  split
  · next h1 => exact ((superRead_wf h).get h1 :)
  · exact logMalformed_wf h

theorem ringWrite_wf {s : State} {m a n x : Nat} (h : Wf s) : Wf (ringWrite s m a n x) := by
  unfold ringWrite
  split
  · next h1 => exact ((superWrite_wf h).get h1 :)
  · exact logMalformed_wf h

theorem modCmd_wf {s : State} {m idx : Nat} {f : MigCmd → MigCmd} (h : Wf s) : Wf (s.modCmd m idx f) :=
  modMod_wf h fun _ => ⟨rfl, rfl, rfl⟩

theorem execMigrationCommandTake_wf {m : Nat} {s : State} (h : Wf s) : OutWf (execMigrationCommandTake m s) := by
  unfold execMigrationCommandTake
  exact ite_out (again_wf h) (ite_out (ringRead_wf h) (spawns_wf (modMod_wf (ringRead_wf h) fun _ => ⟨rfl, rfl, rfl⟩)))

theorem writeLeaf_wf {s : State} {m page old new : Nat} (h : Wf s) : Wf (writeLeaf s m page old new) := by
  obtain ⟨f, hf⟩ : ∃ f, f = writeLeaf := ⟨_, rfl⟩
  rw [← hf]
  delta writeLeaf at hf
  rw [hf]
  beta_reduce
  generalize leafAddr s m (page * 2 ^ 21) = w
  cases w with
  | leaf p => exact ite_wf (ite_wf h (frameStore_wf h)) (frameStore_wf (ite_wf h (frameStore_wf h)))
  | empty => exact h
  | poisoned => exact h

theorem dropLeaf_wf {s : State} {m page : Nat} (h : Wf s) : Wf (dropLeaf s m page) := same_wf h

theorem dropPart_wf {s : State} {m page part : Nat} (h : Wf s) : Wf (dropPart s m page part) := by
  refine foldl_wf h fun t dk ht => modDie_wf ?_
  exact Keeps.modMod (fun _ hx => foldl_module_wf (fun _ v hy => l2WriteBack_wf v hy) _ hx) ht

theorem endCmd_wf {s : State} {m idx st : Nat} (h : Wf s) : Wf (endCmd s m idx st) := spawn_wf (modCmd_wf h)

theorem endAbsent_wf {s : State} {m : Nat} {c : MigCmd} {part : Nat} (h : Wf s) : Wf (endAbsent s m c part) :=
  endCmd_wf (postFault_wf h)

theorem dropReserve_wf {s : State} {m page part : Nat} (h : Wf s) : Wf (dropReserve s m page part) :=
  modMod_wf h fun _ => ⟨rfl, rfl, rfl⟩

theorem dropCopy_wf {s : State} {h page part : Nat} (hs : Wf s) : Wf (dropCopy s h page part) :=
  foldl_wf (dropPart_wf (dropLeaf_wf hs)) (fun _ _ h1 => dropWhere_wf h1)

theorem undoDup_wf {s : State} {m k : Nat} {c : MigCmd} (h : Wf s) : Wf (undoDup s m k c) :=
  ite_wf (foldl_wf h (fun _ _ h1 => modMod_wf (dropCopy_wf h1) fun _ => ⟨rfl, rfl, rfl⟩)) h

theorem finishMove_wf {s : State} {m : Nat} {c : MigCmd} {st : Nat} (h : Wf s) : Wf (finishMove s m c st) := by
  have hp {t : State} {k seen new : Nat} (ht : Wf t) : Wf (if pageLeaf t k c.page = seen then writeLeaf t k c.page seen new else t) :=
    ite_wf (writeLeaf_wf ht) ht
  have h1 : Wf (match c.rest with
    | p :: _ => if c.op = 1 then dropReserve s m c.page p else s
    | [] => s) := by
    split
    · exact ite_wf (dropReserve_wf h) h
    · exact h
  obtain ⟨f, hf⟩ : ∃ f, f = finishMove := ⟨_, rfl⟩
  rw [← hf]
  delta finishMove at hf
  rw [hf]
  beta_reduce
  extract_lets s0 ends put s1
  have h2 : Wf s1 := hp h1
  generalize s1.modWith c.dest = w
  cases w with
  | none => exact endCmd_wf h2
  | some k =>
    exact endCmd_wf (ite_wf (hp h2) (undoDup_wf (hp h2)))

theorem startPart_wf {s : State} {m : Nat} {c : MigCmd} (h : Wf s) : Wf (startPart s m c) := by
  unfold startPart
  split
  · exact h
  · exact ite_wf (finishMove_wf h) (spawn_wf (modCmd_wf (ite_wf (modMod_wf h fun _ => ⟨rfl, rfl, rfl⟩) h)))

theorem startMove_wf {s : State} {m : Nat} {c : MigCmd} (h : Wf s) : Wf (startMove s m c) := by
  unfold startMove
  extract_lets
  split
  · exact endAbsent_wf h
  · split
    · exact endCmd_wf h
    · split
      · exact endCmd_wf h
      · exact ite_wf (endCmd_wf h) (startPart_wf (modCmd_wf (writeLeaf_wf h)))

theorem copyLine_wf {s : State} {m k tenant line ls ld : Nat} (h : Wf s) : Wf (copyLine s m k tenant line ls ld) :=
  foldl_wf h (fun _ _ h1 => serveWrite_wf (serveRead_wf h1))

theorem copyStep_wf {s : State} {m : Nat} {c : MigCmd} (h : Wf s) : Wf (copyStep s m c) := by
  unfold copyStep
  split
  · exact finishMove_wf h
  · split
    · exact finishMove_wf h
    · split
      · exact spawn_wf (copyLine_wf (modCmd_wf h))
      · exact ite_wf (spawn_wf (modCmd_wf h)) (ite_wf (finishMove_wf h) (spawn_wf (modCmd_wf h)))

theorem moveStep_wf {s : State} {m idx : Nat} {e : Event} (h : Wf s) : Wf (moveStep s m idx e) := by
  unfold moveStep
  split
  · exact h
  · exact ite_wf h (ite_wf (again_wf h) (ite_wf (finishMove_wf h) (ite_wf (startMove_wf h) (copyStep_wf h))))

theorem execMove_wf {m idx : Nat} {s : State} (h : Wf s) : OutWf (execMove m idx s) := moveStep_wf h

theorem execDup_wf {m idx : Nat} {s : State} (h : Wf s) : OutWf (execDup m idx s) := moveStep_wf h

theorem dropCounts_wf {s : State} {m page part stub : Nat} (h : Wf s) : Wf (dropCounts s m page part stub) :=
  modMod_wf h fun _ => ⟨rfl, rfl, rfl⟩

theorem cutSource_wf {s : State} {m k : Nat} {c : MigCmd} {p : Nat} (h : Wf s) : Wf (cutSource s m k c p) := by
  have h1 : Wf (dropPart (dropLeaf s m c.page) m c.page p) := dropPart_wf (dropLeaf_wf h)
  unfold cutSource
  generalize dropPart (dropLeaf s m c.page) m c.page p = s1 at h1
  dsimp only
  split
  · refine spawn_wf (modMod_wf (modMod_wf h1 ?_) ?_)
    · exact fun _ => ⟨rfl, rfl, rfl⟩
    · exact fun _ => ⟨rfl, rfl, rfl⟩
  · exact modMod_wf h1 fun _ => ⟨rfl, rfl, rfl⟩

theorem execMigrationCutover_wf {m idx : Nat} {s : State} (h : Wf s) : OutWf (execMigrationCutover m idx s) := by
  unfold execMigrationCutover
  split
  · exact h
  · split
    · exact h
    · exact finishMove_wf h
    · exact ite_out h (ite_out (finishMove_wf h) (ite_out (finishMove_wf h) (ite_out (finishMove_wf (modCmd_wf (cutSource_wf
        (writeLeaf_wf (writeLeaf_wf (foldl_wf h (fun _ _ h1 => copyLine_wf h1))))))) (startPart_wf (modCmd_wf (cutSource_wf
        (writeLeaf_wf (writeLeaf_wf (foldl_wf h (fun _ _ h2 => copyLine_wf h2))))))))))

theorem restoreCopies_wf {s : State} {m : Nat} {c : MigCmd} (h : Wf s) : Wf (restoreCopies s m c) := by
  unfold restoreCopies
  refine foldl_wf h fun _ _ h1 => ?_
  refine foldl_wf h1 fun _ _ h2 => ?_
  dsimp only
  split
  · exact h2
  · exact writeLeaf_wf h2

theorem execCollapse_wf {m idx : Nat} {s : State} (h : Wf s) : OutWf (execCollapse m idx s) := by
  unfold execCollapse
  split
  · exact h
  · split
    · exact h
    · split
      · exact again_wf h
      · extract_lets
        split
        · exact endCmd_wf h
        · split
          · split
            · exact endAbsent_wf h
            · exact ite_out (endCmd_wf h) (spawn_wf (foldl_wf (modCmd_wf h) (fun _ _ h1 => spawn_wf (note_wf h1))))
          · exact ite_out (ite_out (endCmd_wf (restoreCopies_wf h)) (endCmd_wf (writeLeaf_wf (modMod_wf h (fun _ => ⟨rfl, rfl,
              rfl⟩))))) (again_wf h)

theorem execCollapseInvalidate_wf {m idx holder : Nat} {s : State} (h : Wf s) : OutWf (execCollapseInvalidate m idx holder s) := by
  unfold execCollapseInvalidate
  extract_lets
  split
  · exact h
  · exact spawn_wf (note_wf (dropCopy_wf (writeLeaf_wf (same_wf h))))

theorem execCollapseAck_wf {m idx holder : Nat} {s : State} (h : Wf s) : OutWf (execCollapseAck m idx holder s) := by
  unfold execCollapseAck
  extract_lets
  split
  · exact h
  · exact modCmd_wf (same_wf h)

theorem startPurge_wf {s : State} {m : Nat} {t : Stub} (h : Wf s) : Wf (startPurge s m t) :=
  foldl_wf (modMod_wf h fun _ => ⟨rfl, rfl, rfl⟩) (fun _ _ h1 => spawn_wf (note_wf h1))

theorem execStubQuietExpiry_wf {m page part : Nat} {s : State} (h : Wf s) : OutWf (execStubQuietExpiry m page part s) := by
  unfold execStubQuietExpiry
  split
  · exact h
  · exact ite_out h (ite_out (again_wf h) (startPurge_wf h))

theorem execReclaim_wf {m idx : Nat} {s : State} (h : Wf s) : OutWf (execReclaim m idx s) := by
  unfold execReclaim
  split
  · exact h
  · split
    · exact h
    · split
      · exact again_wf h
      · split
        · exact endCmd_wf h
        · split
          · exact endCmd_wf h
          · exact again_wf (foldl_wf h (fun _ _ h1 => startPurge_wf h1))

theorem execPurge_wf {m frm page part : Nat} {s : State} (h : Wf s) : OutWf (execPurge m frm page part s) := by
  unfold execPurge
  extract_lets
  split
  · exact h
  · exact ite_out (again_wf h) (spawn_wf (note_wf (ite_wf (writeLeaf_wf (dropLeaf_wf (same_wf (same_wf h)))) (dropLeaf_wf
      (same_wf (same_wf h))))))

theorem freeStub_wf {s : State} {m page part : Nat} {t : Stub} (h : Wf s) : Wf (freeStub s m page part t) := by
  unfold freeStub
  extract_lets
  split
  · exact modMod_wf h fun _ => ⟨rfl, rfl, rfl⟩
  · exact dropCounts_wf (dropCounts_wf (modMod_wf h fun _ => ⟨rfl, rfl, rfl⟩))

theorem execPurgeAck_wf {m frm page part : Nat} {s : State} (h : Wf s) : OutWf (execPurgeAck m frm page part s) := by
  unfold execPurgeAck
  extract_lets
  split
  · exact h
  · extract_lets
    split
    · exact ite_out (same_wf h) (ite_out (again_wf h) (ite_out (freeStub_wf (same_wf h)) (modMod_wf (same_wf h) (fun _ => ⟨rfl,
        rfl, rfl⟩))))
    · exact same_wf h

theorem advanceNext_wf {m x1 : Nat} {s : State} (h : Wf s) : Wf (advanceNext m x1 s) := by
  induction x1 generalizing s with
  | zero => exact h
  | succ n ih =>
    unfold advanceNext
    split
    · exact h
    · exact ite_wf (ih (ringWrite_wf (modMod_wf h fun _ => ⟨rfl, rfl, rfl⟩))) h

theorem completeWord_wf {s : State} {m : Nat} {c : MigCmd} (h : Wf s) : OptWf id (completeWord s m c) := by
  unfold completeWord
  split
  · exact h
  · split
    · next h1 => exact ((superWrite_wf h).get h1 :)
    · exact ite_opt trivial (ite_opt (count_wf (noteLost_wf h)) (logMalformed_wf h))

theorem execMigrationCommandComplete_wf {m idx : Nat} {s : State} (h : Wf s) : OutWf (execMigrationCommandComplete m idx s) := by
  unfold execMigrationCommandComplete
  split
  · exact h
  · split
    · exact h
    · split
      · exact h
      · extract_lets
        split
        · exact again_wf (ringWrite_wf h)
        · next h1 => exact spawn_wf (advanceNext_wf (modCmd_wf ((completeWord_wf (ringWrite_wf h)).get h1 :)))

end Sys2Proof.Proofs.MemKept
end

section
/-! SUPPORT. The canonical form of the memories, function by function of the model (log 5), in the order of the model's files:
Package, Dispatch, Cycle, Bundle. -/

namespace Sys2Proof.Proofs.MemKept

open Sys2Proof Sys2Proof.Machine Sys2Proof.Laws MemForm HomeAccess

/-! ### Machine/Package.lean -/

theorem logFailure_wf {s : State} {m : Nat} {what : Failure} {which : Nat} (h : Wf s) : Wf (logFailure s m what which) :=
  logErr_wf h

theorem stackDown_wf {s : State} {m stack : Nat} (h : Wf s) : Wf (stackDown s m stack) :=
  logErr_wf (count_wf (modMod_wf h fun _ => ⟨rfl, rfl, rfl⟩))

theorem stacksLost_wf {s : State} {m pd : Nat} (h : Wf s) : Wf (stacksLost s m pd) := foldl_wf h (fun _ _ h1 => stackDown_wf h1)

theorem bootFailures_wf {s : State} {m : Nat} (h : Wf s) : Wf (bootFailures s m) :=
  foldl_wf (foldl_wf h (fun _ _ h1 => logFailure_wf h1)) (fun _ _ h2 => stacksLost_wf (logFailure_wf h2))

theorem resetModule_wf {s : State} {m cause : Nat} (h : Wf s) : Wf (resetModule s m cause) := by
  rw [Wf, memWf_iff] at h ⊢
  obtain ⟨hm, hc, hk⟩ := h
  obtain ⟨_, hh, _⟩ := module_wf_iff.1 (fget_of_forall (P := fun x : Module => x.wf = true) (d := Module.reset) hm rfl m)
  refine ⟨forall_fset (P := fun x : Module => x.wf = true) hm (module_wf_iff.2 ⟨rfl, hh, fun e he => ?_⟩),
    (partsOf_filter _).all hc, (partsOf_filter _).all hk⟩
  cases he

theorem execModuleReset_wf {m : Nat} {s : State} (h : Wf s) : OutWf (execModuleReset m s) := bootFailures_wf (resetModule_wf h)

theorem finishBoot_wf {s : State} {m : Nat} {img : FwImage} (h : Wf s) : Wf (finishBoot s m img) :=
  divideBudget_wf (foldl_wf (modMod_wf h fun _ => ⟨rfl, rfl, rfl⟩) (fun _ _ h1 => logFailure_wf h1))

theorem execFirmwareFetchRetry_wf {m : Nat} {img : FwImage} {s : State} (h : Wf s) : OutWf (execFirmwareFetchRetry m img s) :=
  ite_out h (ite_out h (ite_out (finishBoot_wf h) (logFailure_wf (modMod_wf h fun _ => ⟨rfl, rfl, rfl⟩))))

theorem execAttestationRequest_wf {m : Nat} {nonce : BitVec 256} {s : State} (h : Wf s) : OutWf (execAttestationRequest m nonce
    s) :=
  ite_out (modMod_wf h fun _ => ⟨rfl, rfl, rfl⟩) h

theorem setPort_wf {s : State} {m port : Nat} {v : Bool} (h : Wf s) : Wf (setPort s m port v) :=
  modMod_wf h fun _ => ⟨rfl, rfl, rfl⟩

theorem execHostPortDown_wf {m port : Nat} {s : State} (h : Wf s) : OutWf (execHostPortDown m port s) :=
  logFailure_wf (setPort_wf h)

theorem execHostPortUp_wf {m port : Nat} {s : State} (h : Wf s) : OutWf (execHostPortUp m port s) := setPort_wf h

theorem barRegister_wf {s : State} {m vf a : Nat} {v : Word} (h : Wf s) : Wf (barRegister s m vf a v) :=
  ite_wf (modLaunch_wf h) (ite_wf (ite_wf (spawnOnce_wf (modLaunch_wf h)) (modLaunch_wf h)) (ite_wf (spawnOnce_wf h) (ite_wf
      (spawn_wf h) h)))

theorem hostAdd_wf {s : State} {m vf a n v : Nat} (h : Wf s) : ExcWf id (hostAdd s m vf a n v) := by
  unfold hostAdd
  split
  · exact trivial
  · next h1 =>
      split
      · exact trivial
      · next h2 =>
          split
          · exact trivial
          · next h3 =>
              split
              · exact trivial
              · extract_lets
                split
                · exact trivial
                · next h4 =>
                    exact ((writeTarget_wf ((readTarget_wf ((sysCheck_wf ((sysTarget_wf h).get h1 :)).get h2 :)).get h3 :)).get
                        h4 :)

theorem hostFails_wf {s : State} {m vf : Nat} {f : Fail} {a : Nat} (h : Wf s) : Wf (hostFails s m vf f a) := by
  unfold hostFails
  extract_lets
  split
  · exact count_wf (logErr_wf h)
  · exact noteLost_wf (logFail_wf h)

theorem barWindow_wf {s : State} {m vf : Nat} {add : Bool} {a v : Word} {n : Nat} (h : Wf s) : Wf (barWindow s m vf add a v n) := by
  unfold barWindow
  extract_lets
  split
  · exact h
  · split
    · exact h
    · split
      · next h1 => exact pokeRings_wf ((ite_exc (hostAdd_wf h) (sysWrite_wf h)).get h1 :)
      · exact ite_wf (again_wf h) (hostFails_wf h)

theorem execHostBarWrite_wf {m vf : Nat} {bar2 : Bool} {a v : Word} {n : Nat} {s : State} (h : Wf s) : OutWf (execHostBarWrite
    m vf bar2 a v n s) :=
  ite_wf (barWindow_wf h) (barRegister_wf h)

theorem execFaultQueueTailAdvance_wf {m vf n : Nat} {s : State} (h : Wf s) : OutWf (execFaultQueueTailAdvance m vf n s) :=
  ite_wf (spawnOnce_wf (drainPosts_wf (ite_wf h (ochreWrite_wf h)))) (drainPosts_wf (ite_wf h (ochreWrite_wf h)))

theorem execPartitionConfigure_wf {m part : Nat} {cfg : PartCfg} {s : State} (h : Wf s) : OutWf (execPartitionConfigure m part
    cfg s) :=
  ite_out h (ite_out (again_wf h) (foldl_wf (foldl_wf (foldl_wf (modMod_wf h fun _ => ⟨rfl, rfl, rfl⟩) (fun _ _ h1 =>
      modCore_wf h1 fun _ => rfl)) (fun _ _ h2 => modCore_wf h2 fun _ => rfl)) (fun _ _ h3 => convertWays_wf h3)))

theorem dropStrand_wf {s : State} {p : Place} (h : Wf s) : Wf (dropStrand s p) :=
  emptySlot_wf (uncharge_wf (freeUnits_wf (freeTiles_wf (abandonBundle_wf (releaseGrant_wf (quitTravel_wf (abandon_wf h)))))))

theorem dropWork_wf {s : State} {m vf : Nat} (h : Wf s) : Wf (dropWork s m vf) :=
  entriesFree_wf (parts_wf h rfl (partsOf_map (fun _ => by split <;> rfl) _)
    (partsOf_map (fun _ => by split <;> rfl) _))

theorem leavePartition_wf {s : State} {m vf : Nat} (h : Wf s) : Wf (leavePartition s m vf) :=
  ite_wf (modPart_wf (modMod_wf h fun _ => ⟨rfl, rfl, rfl⟩)) (spawnOnce_wf (modPart_wf (modMod_wf h (fun _ => ⟨rfl, rfl,
      rfl⟩))))

theorem sweepVf_wf {s : State} {m vf : Nat} (h : Wf s) : Wf (sweepVf s m vf) :=
  foldl_wf (dropWork_wf (foldl_wf h (fun _ _ h1 => dropStrand_wf h1))) (fun _ _ h2 => wakeAdmission_wf h2)

theorem beginReset_wf {s : State} {m vf : Nat} (h : Wf s) : Wf (beginReset s m vf) :=
  leavePartition_wf (modMod_wf (modLaunch_wf h) fun _ => ⟨rfl, rfl, rfl⟩)

theorem dropLookups_wf {s : State} {m vf : Nat} (h : Wf s) : Wf (dropLookups s m vf) :=
  parts_wf (foldl_wf h fun _ _ ht => freeContext_wf ht) rfl (partsOf_map (fun _ => by split <;> rfl) _) (partsOf_refl _)

theorem failLaunch_wf {s : State} {m vf : Nat} (h : Wf s) : Wf (failLaunch s m vf) :=
  foldl_wf h (fun _ _ h1 => modLaunch_wf (ochreWrite_wf h1))

theorem endReset_wf {s : State} {m vf : Nat} (h : Wf s) : Wf (endReset s m vf) :=
  leavePartition_wf (failLaunch_wf (modPolicy_wf
    (Keeps.modMod (fun _ hx => unpin_wf hx rfl rfl rfl) (dropLookups_wf h))))

theorem execVfReset_wf {m vf : Nat} {s : State} (h : Wf s) : OutWf (execVfReset m vf s) :=
  ite_out (again_wf (sweepVf_wf (ite_wf h (beginReset_wf h)))) (endReset_wf (sweepVf_wf (ite_wf h (beginReset_wf h))))

theorem execThermalStep_wf {die : Nat} {hot : Bool} {s : State} (h : Wf s) : OutWf (execThermalStep die hot s) :=
  setBudget_wf (modDie_wf h)

theorem execCriticalTemperature_wf {m : Nat} {s : State} (h : Wf s) : OutWf (execCriticalTemperature m s) :=
  foldl_wf h (fun _ _ h1 => setBudget_wf (modDie_wf h1))

theorem execShutdownTemperature_wf {m : Nat} {s : State} (h : Wf s) : OutWf (execShutdownTemperature m s) :=
  bootFailures_wf (resetModule_wf h)

theorem execStackFailure_wf {m stack : Nat} {s : State} (h : Wf s) : OutWf (execStackFailure m stack s) := stackDown_wf h

theorem portDieDown_wf {s : State} {m pd : Nat} (h : Wf s) : Wf (portDieDown s m pd) := spawns_wf (stacksLost_wf h)

theorem execOchreCoreFault_wf {m pd core : Nat} {s : State} (h : Wf s) : OutWf (execOchreCoreFault m pd core s) :=
  ite_out (portDieDown_wf (logFailure_wf (modPort_wf h))) (logFailure_wf (modPort_wf h))

theorem execPortDieFailure_wf {m pd : Nat} {s : State} (h : Wf s) : OutWf (execPortDieFailure m pd s) :=
  portDieDown_wf (logFailure_wf (modPort_wf h))

/-! ### Machine/Dispatch.lean -/

theorem exec_wf {i : Instr} {s : State} (h : Wf s) : OutWf (exec i s) := by
  unfold exec
  split
  · exact execNop_wf h
  · exact execBr_wf h
  · exact execCall_wf h
  · exact execJmp_wf h
  · exact execCallr_wf h
  · exact execBeq_wf h
  · exact execBne_wf h
  · exact execBlt_wf h
  · exact execBge_wf h
  · exact execBltu_wf h
  · exact execBgeu_wf h
  · exact execJtab_wf h
  · exact execLoop_wf h
  · exact execLoopx_wf h
  · exact execRealign_wf h
  · exact execCourse_wf h
  · exact execLdb_wf h
  · exact execLdbu_wf h
  · exact execLdh_wf h
  · exact execLdhu_wf h
  · exact execLdw_wf h
  · exact execLdwu_wf h
  · exact execLdd_wf h
  · exact execStb_wf h
  · exact execSth_wf h
  · exact execStw_wf h
  · exact execStd_wf h
  · exact execLdaq_wf h
  · exact execStrl_wf h
  · exact execLdf_wf h
  · exact execStf_wf h
  · exact execPref_wf h
  · exact execVld_wf h
  · exact execVst_wf h
  · exact execVlds_wf h
  · exact execVsts_wf h
  · exact execVldf_wf h
  · exact execVstf_wf h
  · exact execVgath_wf h
  · exact execVscat_wf h
  · exact execAmoadd_wf h
  · exact execAmoand_wf h
  · exact execAmoor_wf h
  · exact execAmoxor_wf h
  · exact execAmomin_wf h
  · exact execAmomax_wf h
  · exact execAmominu_wf h
  · exact execAmomaxu_wf h
  · exact execAmoswp_wf h
  · exact execAmocas_wf h
  · exact execAmofadd_wf h
  · exact execAmofmax_wf h
  · exact execFence_wf h
  · exact execAcq_wf h
  · exact execRel_wf h
  · exact execWaitw_wf h
  · exact execWfe_wf h
  · exact execSev_wf h
  · exact execBararr_wf h
  · exact execBarwt_wf h
  · exact execBarxb_wf h
  · exact execGsync_wf h
  · exact execScfg_wf h
  · exact execSbind_wf h
  · exact execSfree_wf h
  · exact execSpos_wf h
  · exact execBtset_wf h
  · exact execBtgo_wf h
  · exact execBtpoll_wf h
  · exact execIxpost_wf h
  · exact execKlset_wf h
  · exact execKlook_wf h
  · exact execKlwait_wf h
  · exact execKlres_wf h
  · exact execEbag_wf h
  · exact execEupd_wf h
  · exact execEupdClose_wf h
  · exact execTenq_wf h
  · exact execTdeq_wf h
  · exact execDcinit_wf h
  · exact execDcdec_wf h
  · exact execDcinc_wf h
  · exact execTyield_wf h
  · exact execTexit_wf h
  · exact execPwreq_wf h
  · exact execPwrel_wf h
  · exact execSmig_wf h
  · exact execGjoin_wf h
  · exact execGleave_wf h
  · exact execQsend_wf h
  · exact execQrecv_wf h
  · exact execVsopen_wf h
  · exact execVsmark_wf h
  · exact execVsclose_wf h
  · exact execMcmd_wf h
  · exact execCsrr_wf h
  · exact execCsrw_wf h
  · exact execCsrx_wf h
  · exact execTrap_wf h
  · exact execEret_wf h
  · exact execPlbinvPage_wf h
  · exact execPlbinvDom_wf h
  · exact execPlbinvVf_wf h
  · exact execCflushCode_wf h
  · exact execCflushWb_wf h
  · exact execCflushInv_wf h
  · exact execSpart_wf h
  · exact execCtxsave_wf h
  · exact execCtxload_wf h
  · exact execAnop_wf h
  · exact execAdd_wf h
  · exact execSub_wf h
  · exact execAddi_wf h
  · exact execMul_wf h
  · exact execMulh_wf h
  · exact execMulhu_wf h
  · exact execDiv_wf h
  · exact execDivu_wf h
  · exact execRem_wf h
  · exact execRemu_wf h
  · exact execAnd_wf h
  · exact execOr_wf h
  · exact execXor_wf h
  · exact execAndi_wf h
  · exact execOri_wf h
  · exact execXori_wf h
  · exact execShl_wf h
  · exact execShr_wf h
  · exact execSar_wf h
  · exact execShli_wf h
  · exact execShri_wf h
  · exact execSari_wf h
  · exact execLimm_wf h
  · exact execSlt_wf h
  · exact execSltu_wf h
  · exact execSeq_wf h
  · exact execSel_wf h
  · exact execClz_wf h
  · exact execPopc_wf h
  · exact execMin_wf h
  · exact execMax_wf h
  · exact execPfmt_wf h
  · exact execPgetf_wf h
  · exact execPadde_wf h
  · exact execPcaddr_wf h
  · exact execFadd_wf h
  · exact execFsub_wf h
  · exact execFmul_wf h
  · exact execFma_wf h
  · exact execFdiv_wf h
  · exact execFsqrt_wf h
  · exact execFmin_wf h
  · exact execFmax_wf h
  · exact execFcmp_wf h
  · exact execFcvt_wf h
  · exact execFcvti_wf h
  · exact execIcvtf_wf h
  · exact execVadd_wf h
  · exact execVsub_wf h
  · exact execVmul_wf h
  · exact execVfma_wf h
  · exact execVmax_wf h
  · exact execVmin_wf h
  · exact execVand_wf h
  · exact execVor_wf h
  · exact execVxor_wf h
  · exact execVshl_wf h
  · exact execVshr_wf h
  · exact execVcmp_wf h
  · exact execVsel_wf h
  · exact execVcvt_wf h
  · exact execVredsum_wf h
  · exact execVredmax_wf h
  · exact execVexp_wf h
  · exact execVrcp_wf h
  · exact execVsplat_wf h
  · exact execVperm_wf h
  · exact execVmovg_wf h
  · exact execVmovv_wf h
  · exact execVtopk_wf h
  · exact execVdot_wf h
  · exact execTshape_wf h
  · exact execTld_wf h
  · exact execTst_wf h
  · exact execTzero_wf h
  · exact execMma_wf h
  · exact execMmas_wf h
  · exact execMmss_wf h
  · exact execTcvt_wf h
  · exact execTadd_wf h
  · exact execTscale_wf h
  · exact execTtrans_wf h
  · exact execMjoin_wf h
  · exact execTalloc_wf h
  · exact execTfree_wf h
  · exact execTmovv_wf h
  · exact execVmovt_wf h
  · exact execAsyncTrapEntry_wf h
  · exact execItimerFire_wf h
  · exact execIntdbWrite_wf h
  · exact execPreemptNotice_wf h
  · exact execSstatWrite_wf h
  · exact execIpendClear_wf h
  · exact execRegisterWrite_wf h
  · exact execMemResponse_wf h
  · exact execCourseForward_wf h
  · exact execCourseTimeout_wf h
  · exact execRealignTimeout_wf h
  · exact execStreamElementFetch_wf h
  · exact execStreamPush_wf h
  · exact execMatrixOpComplete_wf h
  · exact execMcmdCommand_wf h
  · exact execMcmdAnswer_wf h
  · exact execSpartConversion_wf h
  · exact execWaitwMonitorFire_wf h
  · exact execSevEvent_wf h
  · exact execTimeSliceExpiry_wf h
  · exact execSlotHandover_wf h
  · exact execBteTransferActivate_wf h
  · exact execBteWriteLand_wf h
  · exact execBteConsumerUpdate_wf h
  · exact execIxeElementCopy_wf h
  · exact execEngineCompletion_wf h
  · exact execCringtailWrite_wf h
  · exact execEngineOffline_wf h
  · exact execAutoMigration_wf h
  · exact execMigrationArrival_wf h
  · exact execMigrationSlotFree_wf h
  · exact execKleScoring_wf h
  · exact execKleServiceRound_wf h
  · exact execKleRowArrival_wf h
  · exact execKleReadTimeout_wf h
  · exact execKleLookupComplete_wf h
  · exact execKleOffline_wf h
  · exact execEupdDirectAdd_wf h
  · exact execMergeContribution_wf h
  · exact execMergeClose_wf h
  · exact execCloseAck_wf h
  · exact execHomeSliceRequest_wf h
  · exact execFarAtomicExecute_wf h
  · exact execPageWalk_wf h
  · exact execFaultack_wf h
  · exact execFaultackWake_wf h
  · exact execReleaseProbe_wf h
  · exact execProbeEcho_wf h
  · exact execUncorrectableError_wf h
  · exact execCorrectableError_wf h
  · exact execDieerrlog_wf h
  · exact execTaskDispatch_wf h
  · exact execAdmissionServe_wf h
  · exact execTaskSteal_wf h
  · exact execStealRequest_wf h
  · exact execStealRetry_wf h
  · exact execCounterUpdate_wf h
  · exact execGroupUpdate_wf h
  · exact execGrantExpiry_wf h
  · exact execBudgetSet_wf h
  · exact execThermalStep_wf h
  · exact execCriticalTemperature_wf h
  · exact execShutdownTemperature_wf h
  · exact execLqdb_wf h
  · exact execLaunchTake_wf h
  · exact execLaunchEnd_wf h
  · exact execVfReset_wf h
  · exact execVfPolicyWrite_wf h
  · exact execHostBarWrite_wf h
  · exact execHostPortDown_wf h
  · exact execPackageNumberWrite_wf h
  · exact execLinkTraining_wf h
  · exact execModuleReset_wf h
  · exact execFirmwareFetchRetry_wf h
  · exact execAttestationRequest_wf h
  · exact execStackFailure_wf h
  · exact execOchreCoreFault_wf h
  · exact execFlitRoute_wf h
  · exact execFlitEject_wf h
  · exact execPacketDeliver_wf h
  · exact execDeliveryCredit_wf h
  · exact execLinkFrameReceive_wf h
  · exact execLinkDown_wf h
  · exact execPathFailed_wf h
  · exact execAccessTimeout_wf h
  · exact execVsPacketArrive_wf h
  · exact execVsCredit_wf h
  · exact execGangQuery_wf h
  · exact execGangPause_wf h
  · exact execGangDrainComplete_wf h
  · exact execGangStopTimeout_wf h
  · exact execGangResume_wf h
  · exact execMigrationCommandTake_wf h
  · exact execMove_wf h
  · exact execDup_wf h
  · exact execCollapse_wf h
  · exact execReclaim_wf h
  · exact execMigrationCutover_wf h
  · exact execMigrationCommandComplete_wf h
  · exact execStubRelay_wf h
  · exact execRelayAck_wf h
  · exact execWalkReturn_wf h
  · exact execRedirect_wf h
  · exact execStubQuietExpiry_wf h
  · exact execPurge_wf h
  · exact execPurgeAck_wf h
  · exact execCollapseInvalidate_wf h
  · exact execCollapseAck_wf h
  · exact execIllegalInstr_wf h
  · exact execReservedField_wf h
  · exact execFaultQueueTailAdvance_wf h
  · exact execKeyLoad_wf h
  · exact execHostPortUp_wf h
  · exact execPortDieFailure_wf h
  · exact execEngineRestore_wf h
  · exact execPartitionConfigure_wf h
  · exact execErrorCounterClear_wf h

/-! ### Machine/Cycle.lean -/

theorem tick_wf {s : State} (h : Wf s) : Wf (tick s) := same_wf (openLists_wf (same_wf h))

theorem pickTurn_wf {s : State} (h : Wf s) : Wf (pickTurn s) := same_wf (same_wf h)

theorem nextTurn_wf {s : State} (h : Wf s) : Wf (nextTurn s) := by
  unfold nextTurn
  split
  · split
    · exact same_wf (tick_wf h)
    · exact pickTurn_wf (same_wf (tick_wf h))
  · exact pickTurn_wf h

/-! ### Machine/Bundle.lean -/

theorem beginBundle_wf {s : State} {p : Place} (h : Wf s) : Wf (beginBundle s p) := same_wf (markIssued_wf (same_wf h))

theorem withWord_wf {s : State} {h : Half} {next : Nat} (hs : Wf s) : Wf (withWord s h next) := same_wf hs

theorem withSecond_wf {s s0 : State} (g1 : Wf s) (_g2 : Wf s0) : Wf (withSecond s s0) := same_wf g1

theorem trapFrom_wf {s0 t : State} {c : Cause} {a i : Nat} (g1 : Wf s0) (_g2 : Wf t) : Wf (trapFrom s0 t c a i) :=
  trapBundle_wf (same_wf g1)

theorem conclude_wf {s : State} {r : Res} (g1 : Wf s) (g2 : ResWf r) : OutWf (conclude s r) := by
  unfold conclude
  split
  · exact retire_wf g2
  · exact trapBundle_wf g1
  · exact parkBundle_wf g2
  · exact markGone_wf g2

theorem aloneSecond_wf {s0 : State} {taken : List Nat} (h : Wf s0) : Wf (aloneSecond s0 taken) := same_wf (withSecond_wf h h)

theorem concludeSecond_wf {s0 : State} {taken : List Nat} {i : Instr} {o : Out} (g1 : Wf s0) (g2 : OutWf o) : OutWf
    (concludeSecond s0 taken i o) := by
  unfold concludeSecond
  split
  · split
    · exact trapFrom_wf g1 g2
    · split
      · next h1 =>
          split
          · exact parkBundle_wf ((exec_wf (aloneSecond_wf g1)).get h1 :)
          · exact parkBundle_wf g1
      · exact exec_wf (aloneSecond_wf g1)
    · exact g2
    · exact retire_wf g2
  · exact g2

theorem concludeSent_wf {s0 t : State} {i : Instr} {r : ParkReason} (g1 : Wf s0) (g2 : Wf t) : OutWf (concludeSent s0 t i r) := by
  unfold concludeSent
  split
  · next h1 =>
      split
      · exact trapFrom_wf g1 ((exec_wf (aloneSecond_wf g1)).get h1 :)
      · exact parkBundle_wf ((exec_wf (aloneSecond_wf g1)).get h1 :)
      · exact parkBundle_wf g2
  · exact exec_wf (aloneSecond_wf g1)

theorem leavePair_wf {s0 : State} {c a : Instr} (h : Wf s0) : OutWf (leavePair s0 c a) := by
  unfold leavePair
  split
  · next h1 =>
      split
      · exact trapFrom_wf h ((exec_wf (withSecond_wf h h)).get h1 :)
      · exact parkBundle_wf ((exec_wf (withSecond_wf h h)).get h1 :)
      · split
        · next h2 =>
            split
            · exact ((exec_wf (withWord_wf ((exec_wf (withSecond_wf h h)).get h1 :))).get h2 :)
            · exact trapFrom_wf h ((exec_wf (withWord_wf ((exec_wf (withSecond_wf h h)).get h1 :))).get h2 :)
            · exact parkBundle_wf (modMe_wf ((exec_wf (withWord_wf ((exec_wf (withSecond_wf h h)).get h1 :))).get h2 :))
            · exact retire_wf ((exec_wf (withWord_wf ((exec_wf (withSecond_wf h h)).get h1 :))).get h2 :)
        · exact exec_wf (withWord_wf ((exec_wf (withSecond_wf h h)).get h1 :))
  · exact exec_wf (withSecond_wf h h)

theorem leaveRest_wf {s0 : State} {g : Vector Word 32} {c : Instr} (h : Wf s0) : OutWf (leaveRest s0 g c) := by
  unfold leaveRest
  extract_lets
  split
  · next h1 =>
      split
      · exact ((exec_wf (same_wf (withWord_wf h))).get h1 :)
      · exact trapBundle_wf h
      · exact parkBundle_wf ((exec_wf (same_wf (withWord_wf h))).get h1 :)
      · exact retire_wf ((exec_wf (same_wf (withWord_wf h))).get h1 :)
  · exact exec_wf (same_wf (withWord_wf h))

theorem runPair_wf {s0 : State} {c a : Instr} (h : Wf s0) : OutWf (runPair s0 c a) := by
  unfold runPair
  split
  · exact leaveRest_wf h
  · split
    · next h1 =>
        split
        · exact trapBundle_wf h
        · exact ite_out (concludeSent_wf h ((exec_wf (withWord_wf h)).get h1 :)) (parkBundle_wf ((exec_wf (withWord_wf h)).get
            h1 :))
        · exact ite_out (leavePair_wf h) ((exec_wf (withWord_wf h)).get h1 :)
        · exact concludeSecond_wf h (exec_wf (withSecond_wf ((exec_wf (withWord_wf h)).get h1 :) h))
    · exact exec_wf (withWord_wf h)

theorem packetGuard_wf {s0 : State} {w0 : Nat} {o : Out} (g1 : Wf s0) (g2 : OutWf o) : OutWf (packetGuard s0 w0 o) := by
  unfold packetGuard
  extract_lets
  split
  · split
    · split
      · exact g2
      · exact trapBundle_wf g1
    · exact g2
  · exact g2

theorem issuePair_wf {s0 : State} {w0 w1 : Nat} (h : Wf s0) : OutWf (issuePair s0 w0 w1) := by
  unfold issuePair
  extract_lets
  split
  · exact trapBundle_wf h
  · exact trapBundle_wf h
  · exact trapBundle_wf h
  · exact trapBundle_wf h
  · exact ite_out (trapBundle_wf h) (packetGuard_wf h (runPair_wf h))

theorem issueLone_wf {s0 : State} {w : Nat} (h : Wf s0) : OutWf (issueLone s0 w) := by
  unfold issueLone
  extract_lets
  split
  · exact packetGuard_wf h (exec_wf (withWord_wf h))
  · exact execIllegalInstr_wf (withWord_wf h)
  · exact execReservedField_wf (withWord_wf h)

theorem runWords_wf {s0 : State} {w0 w1 : Nat} (h : Wf s0) : OutWf (runWords s0 w0 w1) := by
  unfold runWords
  split
  · exact trapBundle_wf h
  · exact issueLone_wf h
  · exact issuePair_wf h

theorem forwardBundle_wf {s0 t : State} {w0 w1 : Nat} (_g1 : Wf s0) (g2 : Wf t) : Wf (forwardBundle s0 t w0 w1) := by
  unfold forwardBundle
  split
  · exact g2
  · exact ite_wf g2 (foldl_wf g2 (fun _ _ h1 => spawn_wf (modStrand_wf h1)))

theorem followBundle_wf {t : State} {f : Fwd} (h : Wf t) : Wf (followBundle t f) :=
  ite_wf (ite_wf (leaveCourse_wf (modMe_wf h)) (modMe_wf h)) h

theorem captureIn_wf {s0 : State} {w0 w1 : Nat} {t : State} {l : LoopLevel} {i : Nat} (_g1 : Wf s0) (g2 : Wf t) : Wf (captureIn
    s0 w0 w1 t l i) := by
  unfold captureIn
  extract_lets
  split
  · exact g2
  · exact ite_wf (modCore_wf g2 fun _ => rfl) (modMe_wf (modCore_wf g2 fun _ => rfl))

theorem recapture_wf {l : LoopLevel} {t : State} (h : Wf t) : Wf (recapture l t) := by
  unfold recapture
  extract_lets
  split
  · exact modMe_wf h
  · exact modMe_wf (modMyCore_wf h fun _ => rfl)

theorem captureBundle_wf {s0 t : State} {w0 w1 : Nat} (g1 : Wf s0) (g2 : Wf t) : Wf (captureBundle s0 t w0 w1) := by
  unfold captureBundle
  refine foldl_wf g2 fun _ _ h1 => ?_
  extract_lets
  split
  · exact captureIn_wf g1 h1
  · exact ite_wf (recapture_wf h1) h1

theorem afterBundle_wf {s0 : State} {w0 w1 : Nat} {o : Out} (g1 : Wf s0) (g2 : OutWf o) : OutWf (afterBundle s0 w0 w1 o) := by
  unfold afterBundle
  split
  · split
    · exact followBundle_wf g2
    · split
      · exact captureBundle_wf g1 (forwardBundle_wf g1 g2)
      · exact forwardBundle_wf g1 g2
      · exact g2
  · exact g2

theorem runBundle_wf {s : State} {p : Place} (h : Wf s) : OutWf (runBundle s p) := by
  unfold runBundle
  extract_lets
  split
  · exact trapBundle_wf (beginBundle_wf h)
  · split
    · exact afterBundle_wf (beginBundle_wf h) (runWords_wf (beginBundle_wf h))
    · split
      · next h1 => exact conclude_wf (beginBundle_wf h) ((fetchWords_wf _ (beginBundle_wf h)).err h1 :)
      · next h2 =>
          exact afterBundle_wf ((fetchWords_wf _ (beginBundle_wf h)).get h2 :) (runWords_wf ((fetchWords_wf _ (beginBundle_wf
              h)).get h2 :))

theorem meetAsync_wf {s : State} {p : Place} {o : Out} (g1 : Wf s) (g2 : OutWf o) : OutWf (meetAsync s p o) := by
  unfold meetAsync
  split
  · split
    · exact ite_wf (asyncEnter_wf (beginBundle_wf g1)) g2
    · exact asyncDue_wf g2
    · exact g2
  · exact g2

theorem issueBundle_wf {s : State} {p : Place} (h : Wf s) : OutWf (issueBundle s p) :=
  ite_out (asyncTrap_wf h) (meetAsync_wf h (runBundle_wf h))

theorem offerMove_wf {s : State} {core : Nat} (h : Wf s) : Wf (offerMove s core) := ite_wf (spawnOnce_wf h) h

theorem endTurn_wf {s : State} (h : Wf s) : Wf (endTurn s) := nextTurn_wf (rebindTurn_wf (offerMove_wf (matrixCycle_wf h)))

theorem yieldTo_wf {s : State} {c : Nat} (h : Wf s) : Wf (yieldTo s c) := same_wf h

theorem issueTurn_wf {s : State} (h : Wf s) : OutWf (issueTurn s) := by
  unfold issueTurn
  split
  · exact endTurn_wf h
  · split
    · next h1 =>
        split
        · exact ite_out (yieldTo_wf h) (endTurn_wf ((issueBundle_wf h).get h1 :))
        · exact endTurn_wf ((issueBundle_wf h).get h1 :)
    · exact issueBundle_wf h

end Sys2Proof.Proofs.MemKept
end

section
/-! SUPPORT. The canonical form of the memories, function by function of the model (log 5), in the order of the model's files:
Events, Step. -/

namespace Sys2Proof.Proofs.MemKept

open Sys2Proof Sys2Proof.Machine Sys2Proof.Laws MemForm HomeAccess

/-! ### Machine/Events.lean -/

theorem runEvent_wf {e : Event} {s : State} (h : Wf s) : OutWf (runEvent e s) := by
  unfold runEvent
  split
  · exact execAsyncTrapEntry_wf h
  · exact execItimerFire_wf h
  · exact execIntdbWrite_wf h
  · exact execPreemptNotice_wf h
  · exact execSstatWrite_wf h
  · exact execIpendClear_wf h
  · exact execRegisterWrite_wf h
  · exact execMemResponse_wf h
  · exact execCourseForward_wf h
  · exact execCourseTimeout_wf h
  · exact execRealignTimeout_wf h
  · exact execStreamElementFetch_wf h
  · exact execStreamPush_wf h
  · exact execMatrixOpComplete_wf h
  · exact execMcmdCommand_wf h
  · exact execMcmdAnswer_wf h
  · exact execSpartConversion_wf h
  · exact execWaitwMonitorFire_wf h
  · exact execSevEvent_wf h
  · exact execTimeSliceExpiry_wf h
  · exact execSlotHandover_wf h
  · exact execBteTransferActivate_wf h
  · exact execBteWriteLand_wf h
  · exact execBteConsumerUpdate_wf h
  · exact execIxeElementCopy_wf h
  · exact execEngineCompletion_wf h
  · exact execCringtailWrite_wf h
  · exact execEngineOffline_wf h
  · exact execAutoMigration_wf h
  · exact execMigrationArrival_wf h
  · exact execMigrationSlotFree_wf h
  · exact execKleScoring_wf h
  · exact execKleServiceRound_wf h
  · exact execKleRowArrival_wf h
  · exact execKleReadTimeout_wf h
  · exact execKleLookupComplete_wf h
  · exact execKleOffline_wf h
  · exact execEupdDirectAdd_wf h
  · exact execMergeContribution_wf h
  · exact execMergeClose_wf h
  · exact execCloseAck_wf h
  · exact execHomeSliceRequest_wf h
  · exact execFarAtomicExecute_wf h
  · exact execPageWalk_wf h
  · exact execFaultack_wf h
  · exact execFaultackWake_wf h
  · exact execReleaseProbe_wf h
  · exact execProbeEcho_wf h
  · exact execUncorrectableError_wf h
  · exact execCorrectableError_wf h
  · exact execDieerrlog_wf h
  · exact execTaskDispatch_wf h
  · exact execAdmissionServe_wf h
  · exact execTaskSteal_wf h
  · exact execStealRequest_wf h
  · exact execStealRetry_wf h
  · exact execCounterUpdate_wf h
  · exact execGroupUpdate_wf h
  · exact execGrantExpiry_wf h
  · exact execBudgetSet_wf h
  · exact execThermalStep_wf h
  · exact execCriticalTemperature_wf h
  · exact execShutdownTemperature_wf h
  · exact execLqdb_wf h
  · exact execLaunchTake_wf h
  · exact execLaunchEnd_wf h
  · exact execVfReset_wf h
  · exact execVfPolicyWrite_wf h
  · exact execHostBarWrite_wf h
  · exact execHostPortDown_wf h
  · exact execPackageNumberWrite_wf h
  · exact execLinkTraining_wf h
  · exact execModuleReset_wf h
  · exact execFirmwareFetchRetry_wf h
  · exact execAttestationRequest_wf h
  · exact execStackFailure_wf h
  · exact execOchreCoreFault_wf h
  · exact execFlitRoute_wf h
  · exact execFlitEject_wf h
  · exact execPacketDeliver_wf h
  · exact execDeliveryCredit_wf h
  · exact execLinkFrameReceive_wf h
  · exact execLinkDown_wf h
  · exact execPathFailed_wf h
  · exact execAccessTimeout_wf h
  · exact execVsPacketArrive_wf h
  · exact execVsCredit_wf h
  · exact execGangQuery_wf h
  · exact execGangPause_wf h
  · exact execGangDrainComplete_wf h
  · exact execGangStopTimeout_wf h
  · exact execGangResume_wf h
  · exact execMigrationCommandTake_wf h
  · exact execMove_wf h
  · exact execDup_wf h
  · exact execCollapse_wf h
  · exact execReclaim_wf h
  · exact execMigrationCutover_wf h
  · exact execMigrationCommandComplete_wf h
  · exact execStubRelay_wf h
  · exact execRelayAck_wf h
  · exact execWalkReturn_wf h
  · exact execRedirect_wf h
  · exact execStubQuietExpiry_wf h
  · exact execPurge_wf h
  · exact execPurgeAck_wf h
  · exact execCollapseInvalidate_wf h
  · exact execCollapseAck_wf h
  · exact execFaultQueueTailAdvance_wf h
  · exact execKeyLoad_wf h
  · exact execHostPortUp_wf h
  · exact execPortDieFailure_wf h
  · exact execEngineRestore_wf h
  · exact execPartitionConfigure_wf h
  · exact execErrorCounterClear_wf h

/-! ### Machine/Step.lean -/

theorem step_wf {s : State} (h : Wf s) : OutWf (step s) := by
  unfold step
  split
  · exact runEvent_wf (same_wf h)
  · split
    · exact issueTurn_wf h
    · extract_lets
      split
      · exact runEvent_wf (same_wf (same_wf h))
      · exact issueTurn_wf (same_wf h)

end Sys2Proof.Proofs.MemKept
end

section
/-! SETTLES the obligation on the canonical form of the memories. -/

namespace Sys2Proof.Proofs.MemKept

open Sys2Proof Sys2Proof.Machine

/-- Settles O4: each function of the model that writes a memory keeps its form, and each other one leaves the memories as they
are. -/
theorem memoryCanonical : Obligations.MemoryCanonical := fun _ _ hs ht => (step_wf hs).get ht

end Sys2Proof.Proofs.MemKept
end
